-- ==== Sys2Proof/Word.lean ====
section
/-! DEFINITION. The word types of the model and their plainest arithmetic: bit slices of register words and
of memory structures, all little-endian and counted from bit 0 (R11). -/

namespace Sys2Proof

/-- A 32-bit register word (R810). -/
abbrev Word := BitVec 32

/-- A byte. -/
abbrev Byte := BitVec 8

/-- The field of `w` bits at bit `lo` of a number. -/
def bits (x lo w : Nat) : Nat := x / 2 ^ lo % 2 ^ w

/-- One bit of a number. -/
def bit (x n : Nat) : Bool := x / 2 ^ n % 2 == 1

/-- A Bool as a one-bit field. -/
def b2n (b : Bool) : Nat := if b then 1 else 0

/-- A number with the field of `w` bits at `lo` replaced by `v`. -/
def setBits (x lo w v : Nat) : Nat :=
  x - 2 ^ lo * bits x lo w + 2 ^ lo * (v % 2 ^ w)

/-- Bytes of a number, least significant first. -/
def toBytes : Nat → Nat → List Nat
  | 0, _ => []
  | n + 1, x => x % 256 :: toBytes n (x / 256)

/-- The number that a list of bytes spells, least significant first. -/
def ofBytes : List Nat → Nat
  | [] => 0
  | b :: bs => b % 256 + 256 * ofBytes bs

end Sys2Proof
end

