-- ==== Sys2Proof/Syntax.lean ====
section
/-! DEFINITION. The commands of the block: one constructor for each row of spec/opcode_table.json, with the
operands the row's event carries. The table gives its rows no operand fields, so the operands here are the
inputs the governing rule names: indexes, register values, entries and data that come from host memory, from
the NAND, from the partner or from user logic, and verdicts of analogue or cryptographic checks whose
algorithm lies outside the spec (log entry 2). -/

namespace Sys2Proof

/-- Who makes a register or memory access (Table FLT-9's requester code). -/
inductive Req where
  /-- Host function: 0 the PF, n VF n. -/
  | host (fn : Nat)
  /-- User logic of landing n. -/
  | landing (n : Nat)
  /-- Engine e, for a Deck task. -/
  | engine (e : Nat)
  /-- The system controller or another unit acting for the part itself (R828). -/
  | part
  deriving DecidableEq, Repr

/-- One host block, sector or line of data: its bytes read as one little-endian number, or poisoned. -/
inductive Blk where
  | data (v : Nat)
  | poison
  deriving DecidableEq, Repr

/-- An SGL descriptor (Table QQP-3). -/
structure Sgl where
  addr : Nat
  len : Nat
  flags : Nat
  deriving DecidableEq, Repr

/-- Why a completion of a host read carries no data (Table PCI-5). -/
inductive CplErr where
  | ur | ca | poisoned | ecrc
  deriving DecidableEq, Repr

/-- For what the part reads host memory: data or SGL of a command, or the entries of a queue. -/
inductive HostTgt where
  | cmd (key : Nat)
  | queue (fn qid : Nat)
  deriving DecidableEq, Repr

/-- What a completion for a read of host memory brings (R441). -/
inductive HostRead where
  /-- Data blocks of the command, in order, following those already received. -/
  | blocks (l : List Nat)
  /-- The SGL descriptor list. -/
  | sgl (l : List Sgl)
  /-- A completion with an error. -/
  | error (e : CplErr)
  deriving DecidableEq, Repr

/-- What the media gives for one host block or sector read (R346, R347): the data, or lost after the ladder,
soft decode and stripe rebuild. -/
inductive MediaRes where
  | data (v : Nat)
  | lost
  deriving DecidableEq, Repr

/-- A journal record (Table TLY-8), without its SEQ. -/
structure JRec where
  ty : Nat
  flags : Nat := 0
  tract : Nat := 0
  arg0 : Nat := 0
  arg1 : Nat := 0
  deriving DecidableEq, Repr

/-- What a MAP_UPDATE is for: a buffer line by its BSEQ, or an IU moved by a relocation (R218, R367). -/
inductive Upd where
  | line (bseq : Nat)
  | move (tract iu : Nat)
  deriving DecidableEq, Repr

/-- A Levee message (Table LVE-5), with the fields of its body. Write-buffer data travels as the covered blocks of
an IU: (block index within the IU, content); `sec` packs the first sector and the sector count minus 1 of body
byte 19. A line is named by its BSEQ, which stands for its offset in the write-buffer half. -/
inductive Msg where
  | mirrorWrite (bseq tract kid iu sec off : Nat) (data : List (Nat × Blk)) (resync ownHalf : Bool)
  | mirrorAck (bseqs : List Nat)
  | journal (seq : Nat) (recs : List JRec) (resync : Bool)
  | journalAck (seq : Nat)
  | lineRelease (bseqs : List Nat)
  | releaseAck (bseqs : List Nat)
  | heartbeat (time pair groups : Nat) (pfailLow : Bool) (limit dirty : Nat)
  | leaving (reason : Nat)
  | pfail
  | resyncDone (bseq seq : Nat)
  | handbackReq (groups : Nat)
  | handbackGrant (groups : Nat)
  | healReq (bseq : Nat)
  | healData (bseq : Nat) (data : List (Nat × Blk))
  deriving DecidableEq, Repr


/-- A request a unit gives its NI (R592 to R599): source NI, device physical address with the KID in [55:48], length in
bytes, data of a write, attributes, priority of the work, ledger tag and transaction number. -/
structure SkReq where
  src : Nat := 0
  write : Bool := false
  addr : Nat := 0
  len : Nat := 64
  data : Nat := 0
  wake : Bool := false
  bitset : Bool := false
  bitclr : Bool := false
  long : Bool := false
  prio : Option Nat := none
  ltag : Option Nat := none
  txn : Nat := 0
  deriving DecidableEq, Repr

/-- What the memory hardware meets while it performs one access (R492, R493, R510 to R515, R562 to R568): facts the
cells, the check codes and the cache replacement decide. -/
structure Meet where
  /-- A corrected error, an uncorrectable error in the line. -/
  ce : Bool := false
  ue : Bool := false
  /-- Bank and row the access activates, and a parity error of the bank's activate table. -/
  act : Option (Nat × Nat) := none
  parity : Bool := false
  /-- The pseudo-channel that an evacuation gave the granule (R518). -/
  home : Option Nat := none
  /-- The access meets a self-refresh entry before its command, and the added latency of an exit, ns. -/
  cancels : Bool := false
  added : Nat := 600
  /-- Bits of the line's ciphertext, and of its tag, that differ from what the part wrote there. -/
  flip : Nat := 0
  tagFlip : Nat := 0
  /-- The tag line is fetched; it is uncorrectable. -/
  tagMiss : Bool := false
  tagUe : Bool := false
  /-- Bits that differ in nodes of the path as they are fetched, by level; nodes that leave the cache: level and index. -/
  nodeFlip : List (Nat × Nat) := []
  /-- Levels of the path whose node is uncorrectable as it is fetched (R577). -/
  nodeUe : List Nat := []
  evict : List (Nat × Nat) := []
  /-- Bits that differ in the ciphertext of lines of the leaf, met by its re-encryption (R569): line, bits. -/
  lineFlip : List (Nat × Nat) := []
  /-- Number of the spilled task that lies at the address. -/
  owner : Nat := 0
  deriving DecidableEq, Repr

/-- How a read in ECC shape went, and its port (R632, R633): its word is lost, or its output corrected. -/
structure EccRead where
  lost : Bool := false
  port : Nat := 0
  deriving DecidableEq, Repr

/-- A partial Darut image (Table STD-4, R668 to R672): the bytes up to its run records as one little-endian number, and whether
they can be read. -/
structure PImg where
  readable : Bool := true
  bytes : Nat := 0
  deriving DecidableEq, Repr

/-- How a read of the stream failed (Table STD-6 code 0x2F). -/
inductive SrcErr where
  | poisoned | nvm
  deriving DecidableEq, Repr

/-- A frame of a run record: its 256 bytes as one number, and whether a routing frame enables exactly the drivers that
the driver map gives for its tile (Table STD-6 code 0x2C; the places of the enable bits lie outside the spec). -/
structure FrameIn where
  data : Nat := 0
  drivers : Bool := true
  deriving DecidableEq, Repr

/-- A spine-line driver as the contention detector reports it (R629): its column, the frame that holds its enable bit,
and the bits of that frame an upset has changed. -/
structure Driver where
  col : Nat := 0
  frame : Nat := 0
  upset : Nat := 0
  deriving DecidableEq, Repr

/-- What one adaptation window of 4,096 symbols shows (R754, R755): transitions, symbols at each level (2 for NRZ, 4 for
PAM4), and where adaptation settles: CTLE, floating-tap positions, eye height and width; words the fabric port lost or
missed in it (R764, R767). -/
structure AdaptWin where
  trans : Nat := 0
  levels : List Nat := []
  ctle : Nat := 0
  flt1 : Nat := 0
  flt2 : Nat := 0
  flt3 : Nat := 0
  height : Nat := 0
  width : Nat := 0
  ovf : Nat := 0
  deriving DecidableEq, Repr

/-- A configuration request the host makes (R801, R802, R806): what it writes. -/
inductive CfgReq where
  /-- Any read, or a write that changes nothing the part acts on. -/
  | other
  /-- Memory Space Enable and Bus Master Enable. -/
  | command (mse bme : Bool)
  /-- MSI-X Enable and Function Mask. -/
  | msix (en mask : Bool)
  /-- Power state: 0 D0, 3 D3hot. -/
  | power (d : Nat)
  /-- SR-IOV control of the PF: VF Enable, VF Memory Space Enable, NumVFs. -/
  | sriov (en mse : Bool) (num : Nat)
  /-- Resizable BAR control of the PF: size of BAR4 in GiB. -/
  | bar4 (gib : Nat)
  /-- Enable Relaxed Ordering, Completion Timeout Disable, Max_Payload_Size and Max_Read_Request_Size as Device Control codes. -/
  | device (relaxed noTmo : Bool) (mps mrrs : Nat)
  deriving DecidableEq, Repr

/-- The settings of a PCIE segment that the part acts on (R78, R790, R791, R793): TotalVFs, clocking, largest BAR4 in
GiB, queue pairs and vectors of VF 1 and up. -/
structure PcieSet where
  totalVfs : Nat := 0
  clocking : Nat := 0
  bar4Max : Nat := 1
  qps : List Nat := []
  vecs : List Nat := []
  deriving DecidableEq, Repr

/-- How a codeword comes out of a decode (R341, R344 to R347): it converges, in hard decode or in soft decode, it is
rebuilt from the stripe, or it is lost. -/
inductive SecOut where
  | good | soft | rebuilt | lost
  deriving DecidableEq, Repr

/-- One sector of a page read as the decoder gives it: its number in the page, whether a codeword converged with a bad CRC
at this step, the syndrome weight that a failed decode left, the metadata of Table REL-2 and the data. -/
structure SecRes where
  sec : Nat := 0
  out : SecOut := .good
  crc : Bool := false
  weight : Nat := 0
  tract : Nat := 0
  sidx : Nat := 0
  wver : Nat := 0
  kind : Nat := 0
  ptime : Nat := 0
  erases : Nat := 0
  poison : Bool := false
  data : Nat := 0
  deriving DecidableEq, Repr

/-- What a parameter page gives (R302, R303, R339): data bytes and spare bytes per page, planes, pages per block, blocks per
plane, LUNs, and the bit of the row address from which the LUN number stands. -/
structure ParamPage where
  dataBytes : Nat := 0
  spare : Nat := 0
  planes : Nat := 0
  pages : Nat := 0
  blocks : Nat := 0
  luns : Nat := 0
  lunBit : Nat := 0
  deriving DecidableEq, Repr

/-- A channel at the end of its bring-up (R302 to R309): trained, brought up cold, LUNs (4 × volume + LUN) that answer, and the
parameter pages that a cold bring-up reads. -/
structure ChanUp where
  up : Bool := true
  cold : Bool := false
  luns : List Nat := []
  params : List (Nat × ParamPage) := []
  deriving DecidableEq, Repr

/-- A block as the rebuild finds it: media address of the erase block, state of Table REL-6, landing it is lent to. -/
structure BlockIn where
  addr : Nat
  st : Nat
  landing : Nat := 0
  deriving DecidableEq, Repr

/-- A stripe as the rebuild finds it: its key, its class, its members with their VALID counts, its erase count, closed,
degraded, or holding a refuge. -/
structure StripeIn where
  key : Nat
  cls : Nat := 0
  members : List (Nat × Nat) := []
  erases : Nat := 0
  degraded : Bool := false
  refuge : Bool := false
  deriving DecidableEq, Repr

/-- A block that the anchor search looks at (R377): its first page decodes with a valid CRC; what its first, second and last page
hold at their first spare byte. -/
structure MarkLook where
  decodes : Bool := false
  marks : List Nat := [0xFF, 0xFF, 0xFF]
  deriving DecidableEq, Repr

/-- What the bring-up of a group finds on its media: its 16 channels, the blocks and stripes in use, the blocks that the anchor
search meets from block 0 of the group's first channel on, and the erase blocks that the factory scan looks at where the group
holds no factory defect table (R376, R377). -/
structure BringUp where
  chans : List ChanUp := []
  blocks : List BlockIn := []
  stripes : List StripeIn := []
  search : List MarkLook := []
  scan : Option (List (Nat × MarkLook)) := none
  deriving DecidableEq, Repr

/-- The end of a data transfer: the syndrome weight of its page's first codeword (R353), and the verdict of the training pattern
that follows every 64th transfer (R307). -/
structure BusEnd where
  weight : Nat := 0
  pattern : Bool := true
  deriving DecidableEq, Repr

/-- A cycle entry of a raw sequence (Table MED-8); `zeros` says that its reserved bits are 0. -/
structure RawCyc where
  ty : Nat := 0
  val : Nat := 0
  len : Nat := 0
  zeros : Bool := true
  deriving DecidableEq, Repr

/-- A raw sequence descriptor (Table MED-7); `zeros` says that every other reserved bit is 0. -/
structure Raw where
  cls : Nat := 0
  count : Nat := 0
  flags : Nat := 0
  prio : Nat := 0
  target : Nat := 0
  buf : Nat := 0
  bufLen : Nat := 16
  tmo : Nat := 1
  cycles : List RawCyc := []
  zeros : Bool := true
  deriving DecidableEq, Repr

/-- What the NAND gives for a raw sequence (R321): last status register, cycles executed, bytes moved, die time in ns, the
DOUT data as one little-endian number. -/
structure RawEnd where
  sr : Nat := 0
  cycles : Nat := 0
  moved : Nat := 0
  dieNs : Nat := 0
  dout : Nat := 0
  deriving DecidableEq, Repr

/-- The operation whose backoff ends (R442): an engine task, a media operation, a channel's training, a Skidway request. -/
inductive RetryOf where
  | task (n : Nat)
  | media (id step : Nat)
  | channel (ch : Nat) (ok : Bool)
  | skidway (key : Nat)
  deriving DecidableEq, Repr


/-- The first 8 KiB of a full image (Tables BOT-2 and BOT-3, R53): its bytes as one little-endian number, and whether the NVM
responded. -/
structure FullImg where
  readable : Bool := true
  bytes : Nat := 0
  /-- Device address of its first byte. -/
  addr : Nat := 0
  deriving DecidableEq, Repr

/-- A segment's device address, and what its bytes say where the spec gives them no format (log entry 190): the settings of a PCIE segment, the polders
that the image sets OFF (R728), and the spine-line drivers that a FABRIC segment's frames enable: 1,536 × die + line, its columns
as a mask (R628). -/
structure SegSense where
  addr : Nat := 0
  pcie : PcieSet := {}
  off : List Nat := []
  drivers : List (Nat × Nat) := []
  deriving DecidableEq, Repr


/-- A tract as the part's own journal on flash describes it (TRACT_SET of Table TLY-9): ID, state code, block-size and unit
codes, capacity in blocks, KID, owner, first global map page. -/
structure TractIn where
  id : Nat
  st : Nat := 2
  blk : Nat := 0
  iu : Nat := 0
  cap : Nat := 1
  kid : Nat := 0
  owner : Nat := 0
  mpn : Nat := 0
  deriving DecidableEq, Repr

/-- An IU of a refuge (R385, R386): its 8-byte manifest entry, its latest version by block, and whether that verified. -/
structure RefIu where
  entry : Nat
  ok : Bool := true
  data : List (Nat × Blk) := []
  deriving DecidableEq, Repr

/-- The header page of a refuge, which its completion page repeats (R385): MAGIC, die ID, RSEQ, IU count, CRC-32C. -/
structure RefugePage where
  magic : Nat := 0x52464745
  dieId : Nat := 0
  rseq : Nat := 0
  count : Nat := 0
  crc : Nat := 0
  deriving DecidableEq, Repr

/-- A refuge as it stands on flash (R385, R386): header page, completion page where there is one, manifest with its data, and the
stripes that hold it. -/
structure Refuge where
  header : RefugePage := {}
  last : Option RefugePage := none
  ius : List RefIu := []
  stripes : List Nat := []
  deriving DecidableEq, Repr

/-- A checkpoint anchor record (R231, R884): checkpoint number, root's media address, CKPT_BEGIN SEQ, die ID, CRC-32C. -/
structure Anchor where
  num : Nat := 0
  root : Nat := 0
  begin_ : Nat := 1
  dieId : Nat := 0
  crc : Nat := 0
  deriving DecidableEq, Repr

/-- What a rebuild of a map reads from flash (R233, R236, R238, R386, R426, R884): anchor records; of the checkpoint that it takes, the
directory (map page, media address), the number of blocks that each of those pages maps once its records are applied, and the content of
the checkpoint root (directory page, media address); journal records, those of open pages saved to refuge blocks among them; journal
pages (last SEQ, media address); and the refuges. -/
structure RebuildIn where
  anchors : List Anchor := []
  dir : List (Nat × Nat) := []
  mapped : List (Nat × Nat) := []
  root : List (Nat × Nat) := []
  jpages : List (Nat × Nat) := []
  recs : List (Nat × JRec) := []
  refuges : List Refuge := []
  deriving DecidableEq, Repr

/-- Fields of an IDENT (Table LVE-3). -/
structure IdentIn where
  dieId : Nat := 0
  stepping : Nat := 1
  media : Nat := 0
  role : Nat := 0
  pair : Nat := 0
  groups : Nat := 0
  upperMiB : Nat := 8192
  home : Option Nat := none
  deriving DecidableEq, Repr

/-- A flit as the receiver finds it (R399 to R402): lost by FEC, corrected by it, MAC verified, and its header fields. -/
structure FlitIn where
  lost : Bool := false
  corr : Bool := false
  mac : Bool := true
  fseq : Nat := 0
  /-- A MESSAGE flit; else IDLE. -/
  message : Bool := true
  vc : Nat := 0
  ackSeq : Nat := 0
  nak : Bool := false
  phase : Bool := false
  crvc : Nat := 0
  crcnt : Nat := 0
  deriving DecidableEq, Repr

/-- Content of a CERT flit (Table CRY-9): die ID, device public key, CA signature. -/
structure LinkCert where
  dieId : Nat := 0
  x : Nat := 0
  y : Nat := 0
  r : Nat := 0
  s : Nat := 0
  deriving DecidableEq, Repr

/-- A CERT as it arrives: its content, and whether its signature verifies under the CA key, which it does not carry. -/
structure CertIn where
  cert : LinkCert := {}
  ok : Bool := true
  deriving DecidableEq, Repr

/-- What a MIRROR_WRITE says of the place of a line: its sectors in the IU, the first and from bit 4 the count less 1, and its
byte offset in the half of the write buffer. -/
structure LinePos where
  sec : Nat := 0
  off : Nat := 0
  deriving DecidableEq, Repr

/-- Content of a SHARE flit (Table CRY-9): ephemeral public key, 16 random bytes. -/
structure LinkShare where
  x : Nat := 0
  y : Nat := 0
  rnd : Nat := 0
  deriving DecidableEq, Repr
/-- A pin that the boundary register covers (R871): of a media channel, in the order of Table ELE-1; a configuration pin, in the order of
Table BOT-1; pair and control pins; user I/O of a die; a lane's transmitter or receiver. -/
inductive BPin where
  | mch (ch pin : Nat)
  | cfg (n : Nat)
  | own (g : Nat)
  | aliveOut
  | aliveIn
  | ctl (n : Nat)
  | uio (die cell : Nat)
  | laneTx (lane : Nat)
  | laneRx (lane : Nat)
  deriving DecidableEq, Repr

/-- A boundary cell: its pin, whether it drives, and its level. -/
structure BCell where
  pin : BPin := .aliveOut
  drive : Bool := false
  level : Bool := false
  deriving DecidableEq, Repr

/-- A write of CFG_RELOAD: its value, and the levels of the strap pins when the load starts (R47). -/
structure ReloadIn where
  value : Nat := 0
  role : Nat := 0
  slot : Nat := 0
  deriving DecidableEq, Repr

/-- An instruction of the test access port: its opcode, and what the data scans that follow leave in the boundary register, none
where no scan follows or the instruction selects another register. -/
structure TestIn where
  opcode : Nat := 0
  cells : List BCell := []
  deriving DecidableEq, Repr

/-- What the host's side of a PCIe link offers beside its speed and width: flit mode, and the difference of its clock in ppm. -/
structure LinkMode where
  flit : Bool := false
  ppm : Nat := 0
  deriving DecidableEq, Repr

/-- The commands of the block: one constructor for each row of spec/opcode_table.json, in its order. -/
inductive Instr where
  /-- POWER_ON_RESET (R853). -/
  | powerOnReset (role slot : Nat) (ref : Bool)
  /-- CFG_PROG_N_PULSE (R48). -/
  | cfgProgNPulse (role slot : Nat) (ref : Bool)
  /-- CFG_RELOAD (R48). -/
  | cfgReload (req : Req) (x : ReloadIn)
  /-- HEADER_RECEIVED (R71). -/
  | headerReceived (img : FullImg)
  /-- SEGMENT_RECEIVED (R72). -/
  | segmentReceived (bytes : Nat) (x : SegSense)
  /-- PRELOAD_HOLD_EXPIRES (R77). -/
  | preloadHoldExpires
  /-- HBM_TRAINING_DONE (R496). -/
  | hbmTrainingDone (stack : Nat) (ok : Bool)
  /-- START_SEQUENCE (R80). -/
  | startSequence (tracts : List TractIn) (hours0 hours1 lib : Nat)
  /-- NO_STREAM_TIMEOUT (R61). -/
  | noStreamTimeout
  /-- CFG_SYNC_LOW (R67). -/
  | cfgSyncLow
  /-- PRIMARY_STREAM_END (R67). -/
  | primaryStreamEnd
  /-- FALLBACK_FIRST_READ (R66). -/
  | fallbackFirstRead
  /-- FALLBACK_STREAM_END (R89). -/
  | fallbackStreamEnd
  /-- PCIE_HARD_BLOCK_READY (R79). -/
  | pcieHardBlockReady
  /-- ADMIN_QUEUE_ENABLE (R105). -/
  | adminQueueEnable (fn : Nat)
  /-- ADMIN_QUEUE_READY (R105). -/
  | adminQueueReady (fn : Nat)
  /-- QUEUE_DISABLE (R106). -/
  | queueDisable (fn : Nat)
  /-- SQ_TAIL_DOORBELL (R108). -/
  | sqTailDoorbell (fn qid value : Nat)
  /-- CQ_HEAD_DOORBELL (R108). -/
  | cqHeadDoorbell (fn qid value : Nat)
  /-- SUBMISSION_FETCH (R121). -/
  | submissionFetch (fn qid : Nat) (entries : List Nat)
  /-- WRITE (R22). -/
  | write (key seg : Nat)
  /-- READ (R23). -/
  | read (key seg : Nat)
  /-- FLUSH (R141). -/
  | flush (key : Nat)
  /-- TRIM (R221). -/
  | trim (key : Nat)
  /-- WRITE_ZEROES (R137). -/
  | writeZeroes (key : Nat)
  /-- COPY (R139). -/
  | copy (key seg : Nat)
  /-- VERIFY (R140). -/
  | verify (key seg : Nat)
  /-- ATOMIC_WRITE (R143). -/
  | atomicWrite (key seg : Nat)
  /-- LEDGER_QUERY (R161). -/
  | ledgerQuery (key : Nat)
  /-- LEDGER_RELEASE (R162). -/
  | ledgerRelease (key : Nat)
  /-- CREATE_QP (R103). -/
  | createQp (key : Nat)
  /-- DELETE_QP (R165). -/
  | deleteQp (key : Nat)
  /-- TRACT_CREATE (R164). -/
  | tractCreate (key : Nat)
  /-- TRACT_DELETE (R130). -/
  | tractDelete (key : Nat)
  /-- TRACT_STATE_QUERY (R130). -/
  | tractStateQuery (key : Nat)
  /-- TRACT_STATE_SET_READ_ONLY (R130). -/
  | tractStateSetReadOnly (key : Nat)
  /-- TRACT_STATE_SET_READY (R130). -/
  | tractStateSetReady (key : Nat)
  /-- TRACT_FORMAT_DONE (R130). -/
  | tractFormatDone (t : Nat)
  /-- TRACT_DELETE_DONE (R130). -/
  | tractDeleteDone (t : Nat)
  /-- KEY_IMPORT (R543). -/
  | keyImport (key head eph wrapped rest : Nat)
  /-- KEY_RETIRE (R544). -/
  | keyRetire (key : Nat)
  /-- IDENTIFY (R167). -/
  | identify (key : Nat)
  /-- STAND_LOAD (R678). -/
  | standLoad (key : Nat)
  /-- EVENT_FETCH (R897). -/
  | eventFetch (key : Nat)
  /-- FELL_QUERY (R382). -/
  | fellQuery (key : Nat)
  /-- ABORT (R166). -/
  | abort (key : Nat)
  /-- RESEAL (R579). -/
  | reseal (key : Nat)
  /-- COMPLETION_POST (R116). -/
  | completionPost (key : Nat)
  /-- COALESCE_TIMER_EXPIRES (R126). -/
  | coalesceTimerExpires (fn qid : Nat)
  /-- DEADLINE_EXPIRES (R155). -/
  | deadlineExpires (key : Nat)
  /-- MAILBOX_GO (R171). -/
  | mailboxGo
  /-- MAILBOX_COMMAND_END (R172). -/
  | mailboxCommandEnd
  /-- RESULT_ACK (R840). -/
  | resultAck (value : Nat)
  /-- TRANSLATION_REQUEST (R196). -/
  | translationRequest (key seg : Nat)
  /-- MAP_PAGE_INSTALLED (R202). -/
  | mapPageInstalled (mpn frame flash : Nat)
  /-- MAP_PAGE_WRITEBACK_DONE (R195). -/
  | mapPageWritebackDone (mpn place : Nat)
  /-- DESTAGE (R215). -/
  | destage
  /-- MAP_UPDATE (R218). -/
  | mapUpdate (u : Upd)
  /-- JOURNAL_PAGE_TIMER (R225). -/
  | journalPageTimer
  /-- JOURNAL_PAGE_PROGRAMMED (R413). -/
  | journalPageProgrammed (first : Nat)
  /-- TLY_CKPT_GO (R232). -/
  | tlyCkptGo (req : Req) (value : Nat)
  /-- CHECKPOINT_END (R230). -/
  | checkpointEnd (root : Nat)
  /-- REBUILD_DONE (R237). -/
  | rebuildDone (r : RebuildIn)
  /-- TLY_PROBE (R242). -/
  | tlyProbe (iu : Nat)
  /-- TASK_DISPATCH (R266). -/
  | taskDispatch (pool engine : Nat)
  /-- PREEMPTION_START (R272). -/
  | preemptionStart (pool : Nat)
  /-- SKIDDER_PARK (R275). -/
  | skidderPark (engine : Nat)
  /-- SPILLWAY_REFILL (R255). -/
  | spillwayRefill (lost : List Nat)
  /-- TASK_TIMEOUT (R283). -/
  | taskTimeout (task : Nat)
  /-- RETRY_BACKOFF_EXPIRES (R443). -/
  | retryBackoffExpires (r : RetryOf)
  /-- POOL_LOAD_WINDOW (R291). -/
  | poolLoadWindow
  /-- LD_PREEMPT_ANSWER_TIMEOUT (R281). -/
  | ldPreemptAnswerTimeout (engine : Nat)
  /-- REGISTER (R260). -/
  | register (landing pool : Nat) (preemptable : Bool)
  /-- DEREGISTER (R263). -/
  | deregister (landing engine : Nat)
  /-- CREATE (R647). -/
  | create (landing token kind pool prio : Nat) (noPreempt : Bool) (aff : Option Nat) (deadline payload : Nat)
  /-- DONE (R281). -/
  | done (engine status blocks : Nat)
  /-- YIELD (R281). -/
  | yield (engine ctx : Nat)
  /-- DECLINE (R281). -/
  | decline (engine : Nat)
  /-- LANDING_MSG_UNKNOWN (R646). -/
  | landingMsgUnknown (landing code : Nat)
  /-- CLAIM (R328). -/
  | claim (req : Req) (g : Nat)
  /-- RELEASE (R334). -/
  | release (req : Req) (g : Nat)
  /-- MG_OWN_WIRE_LOW (R889). -/
  | mgOwnWireLow (g : Nat) (fall : Bool)
  /-- MG_OWN_WIRE_HIGH (R889). -/
  | mgOwnWireHigh (g : Nat)
  /-- MG_OWN_QUIET_TIMER (R328). -/
  | mgOwnQuietTimer (g : Nat)
  /-- ARBITRATION_SLOT (R329). -/
  | arbitrationSlot (g : Nat) (low : Bool)
  /-- ARBITRATION_COMPLETE (R330). -/
  | arbitrationComplete (g : Nat)
  /-- DRIVER_ENABLE_DELAY (R331). -/
  | driverEnableDelay (g : Nat)
  /-- FORCE_WAIT_EXPIRES (R328). -/
  | forceWaitExpires (g : Nat)
  /-- GROUP_BRINGUP_DONE (R328). -/
  | groupBringupDone (g : Nat) (b : BringUp)
  /-- OWN_WIRE_FAULT (R328). -/
  | ownWireFault (g : Nat)
  /-- GROUP_DRAIN_END (R334). -/
  | groupDrainEnd (g : Nat)
  /-- GROUP_DRAIN_TIMEOUT (R334). -/
  | groupDrainTimeout (g : Nat)
  /-- WIRE_RELEASE_DELAY (R889). -/
  | wireReleaseDelay (g : Nat)
  /-- KEEPER_TRIP (R332). -/
  | keeperTrip (die : Nat)
  /-- CHANNEL_RETRAIN (R308). -/
  | channelRetrain (ch : Nat) (auto ok : Bool)
  /-- ZQ_SHORT_TIMER (R307). -/
  | zqShortTimer (die : Nat)
  /-- LUN_ISSUE (R312). -/
  | lunIssue (ch u : Nat) (planes : Bool) (raw : RawEnd)
  /-- SUSPEND (R314). -/
  | suspend (ch u : Nat)
  /-- OPERATION_RESUME (R315). -/
  | operationResume (ch u : Nat)
  /-- LUN_STATUS_READY (R310). -/
  | lunStatusReady (ch u : Nat) (fail : List Nat) (suspended : Bool) (raw : RawEnd)
  /-- LUN_TIMEOUT (R310). -/
  | lunTimeout (ch u : Nat)
  /-- BUS_TRANSFER_DONE (R313). -/
  | busTransferDone (id step : Nat) (e : BusEnd)
  /-- HARD_DECODE_DONE (R346). -/
  | hardDecodeDone (id step : Nat) (res : List SecRes)
  /-- SOFT_DECODE_DONE (R345). -/
  | softDecodeDone (id : Nat) (res : List SecRes)
  /-- PATROL_VISIT (R365). -/
  | patrolVisit (stripe : Nat) (passEnd : Bool)
  /-- PAGE_ROW_PAD_TIMER (R883). -/
  | pageRowPadTimer (stripe : Nat)
  /-- RAW_STATUS (R320). -/
  | rawStatus (landing port die txn : Nat) (d : Raw) (r : RawEnd)
  /-- RAW_READ_LIKE (R320). -/
  | rawReadLike (landing port die txn : Nat) (d : Raw)
  /-- RAW_PROGRAM_LIKE (R320). -/
  | rawProgramLike (landing port die txn : Nat) (d : Raw)
  /-- RAW_ERASE_LIKE (R320). -/
  | rawEraseLike (landing port die txn : Nat) (d : Raw)
  /-- RAW_FEATURE (R320). -/
  | rawFeature (landing port die txn : Nat) (d : Raw)
  /-- RAW_RESET_LUN (R320). -/
  | rawResetLun (landing port die txn : Nat) (d : Raw)
  /-- RAW_LEND (R325). -/
  | rawLend (landing port die txn : Nat) (d : Raw)
  /-- RAW_RETURN (R325). -/
  | rawReturn (landing port die txn : Nat) (d : Raw)
  /-- MED_HOURS_WRITE (R364). -/
  | medHoursWrite (req : Req) (die value : Nat)
  /-- MED_HOURS_TICK (R364). -/
  | medHoursTick (die : Nat)
  /-- REFUGE_SAVE (R385). -/
  | refugeSave
  /-- TRAINING_TIMEOUT (R388). -/
  | trainingTimeout
  /-- BUNDLE_ENABLE_WRITE (R439). -/
  | bundleEnableWrite (req : Req) (value : Nat)
  /-- BUNDLE_DETECT_TIMEOUT (R394). -/
  | bundleDetectTimeout (b : Nat)
  /-- BUNDLE_EQUALISE_END (R763). -/
  | bundleEqualiseEnd (b : Nat) (atLimit : Bool)
  /-- BUNDLE_ALIGN_DONE (R396). -/
  | bundleAlignDone (b : Nat) (rev : Bool) (found : Option Nat)
  /-- IDENT (R395). -/
  | ident (b : Nat) (x : IdentIn)
  /-- CERT (R582). -/
  | cert (b : Nat) (c : CertIn)
  /-- SHARE (R582). -/
  | share (b : Nat) (p : LinkShare)
  /-- FINISH (R583). -/
  | finish (b r sg time : Nat)
  /-- KEY_TIMEOUT (R584). -/
  | keyTimeout (b : Nat)
  /-- BUNDLE_RETRAIN (R896). -/
  | bundleRetrain (req : Req) (b : Nat)
  /-- BUNDLE_RETRAIN_DONE (R896). -/
  | bundleRetrainDone (b : Nat) (rev : Bool)
  /-- BUNDLE_RETRAIN_TIMEOUT (R394). -/
  | bundleRetrainTimeout (b : Nat)
  /-- FLIT_RECEIVE (R402). -/
  | flitReceive (b : Nat) (f : FlitIn)
  /-- REPLAY_TIMER (R403). -/
  | replayTimer (b : Nat)
  /-- NAK_REPEAT_TIMER (R402). -/
  | nakRepeatTimer (b : Nat)
  /-- MIRROR_WRITE (R412). -/
  | mirrorWrite (bseq tract kid iu : Nat) (at_ : LinePos) (data : List (Nat × Blk)) (resync ownHalf : Bool)
  /-- MIRROR_ACK (R412). -/
  | mirrorAck (bseqs : List Nat)
  /-- JOURNAL (R891). -/
  | journal (seq : Nat) (recs : List JRec) (resync : Bool)
  /-- JOURNAL_ACK (R226). -/
  | journalAck (seq : Nat)
  /-- LINE_RELEASE (R413). -/
  | lineRelease (bseqs : List Nat)
  /-- RELEASE_ACK (R413). -/
  | releaseAck (bseqs : List Nat)
  /-- HEARTBEAT (R390). -/
  | heartbeat (time pair groups : Nat) (pfailLow : Bool) (limit dirty : Nat)
  /-- LEAVING (R418). -/
  | leaving (reason : Nat)
  /-- PFAIL (R437). -/
  | pfail
  /-- RESYNC_DONE (R388). -/
  | resyncDone (bseq seq : Nat)
  /-- HANDBACK_REQ (R433). -/
  | handbackReq (groups : Nat)
  /-- HANDBACK_GRANT (R433). -/
  | handbackGrant (groups : Nat)
  /-- HEAL_REQ (R460). -/
  | healReq (bseq : Nat)
  /-- HEAL_DATA (R460). -/
  | healData (bseq : Nat) (data : List (Nat × Blk))
  /-- UNKNOWN_MESSAGE (R407). -/
  | unknownMessage
  /-- HEARTBEAT_SEND (R416). -/
  | heartbeatSend
  /-- PARTNER_ALIVE_EDGE (R417). -/
  | partnerAliveEdge
  /-- WIRE_SILENT (R420). -/
  | wireSilent
  /-- LINK_SILENT (R420). -/
  | linkSilent
  /-- DEATH_DECLARED (R418). -/
  | deathDeclared
  /-- ORPHAN_TIMEOUT (R418). -/
  | orphanTimeout
  /-- TAKEOVER_WITHDRAW (R422). -/
  | takeoverWithdraw
  /-- FOREIGN_MAP_USABLE (R239). -/
  | foreignMapUsable (r : RebuildIn)
  /-- FOREIGN_REPLAY_DONE (R424). -/
  | foreignReplayDone
  /-- PROBE_DUE (R429). -/
  | probeDue (b : Nat)
  /-- HANDBACK_START (R433). -/
  | handbackStart (req : Req) (value : Nat)
  /-- HANDBACK_DESTAGE_DONE (R433). -/
  | handbackDestageDone
  /-- PFAIL_N_FALL (R435). -/
  | pfailNFall
  /-- PFAIL_DETECTED (R436). -/
  | pfailDetected
  /-- PFAIL_ACK_TIMEOUT (R436). -/
  | pfailAckTimeout
  /-- PFAIL_N_RISE (R438). -/
  | pfailNRise
  /-- HEAL_TIMEOUT (R461). -/
  | healTimeout (bseq : Nat)
  /-- LINK_KEY_UPDATE (R585). -/
  | linkKeyUpdate (b : Nat)
  /-- EVT_ACK (R481). -/
  | evtAck (req : Req) (value : Nat)
  /-- EVT_TAG_SEL (R469). -/
  | evtTagSel (req : Req) (value : Nat)
  /-- EVT_RATE_WINDOW_END (R476). -/
  | evtRateWindowEnd (code : Nat)
  /-- EVT_SIGNAL_TIMER (R478). -/
  | evtSignalTimer
  /-- HBM_REFRESH_INTERVAL (R506). -/
  | hbmRefreshInterval (pc : Nat) (done : List Nat) (window : Bool)
  /-- HBM_TEMP_READ (R508). -/
  | hbmTempRead (stack degc : Nat)
  /-- HBM_WRITE_EYE_RETRAIN (R498). -/
  | hbmWriteEyeRetrain (ch : Nat) (ok : Bool)
  /-- HBM_REQUEST_URGENT (R503). -/
  | hbmRequestUrgent (port : Nat)
  /-- SELF_REFRESH_ENTRY (R514). -/
  | selfRefreshEntry (ch : Nat)
  /-- EVACUATION_DONE (R519). -/
  | evacuationDone (mib : Nat) (ues : List Nat)
  /-- SWEEP_STEP (R528). -/
  | sweepStep (bank read fails : Nat)
  /-- FAB_SWEEP_STEP (R531). -/
  | fabSweepStep (stand mem word read fails : Nat)
  /-- REKEY_GO (R571). -/
  | rekeyGo (req : Req) (value : Nat)
  /-- REKEY_SWEEP_STEP (R574). -/
  | rekeySweepStep (flips : List (Nat × Nat)) (owner : Nat)
  /-- RESEAL_GO (R579). -/
  | resealGo (req : Req) (value : Nat)
  /-- AUTO_RESEAL (R581). -/
  | autoReseal (r level idx : Nat) (owners : List Nat)
  /-- KEY_CMD_IMPORT (R547). -/
  | keyCmdImport (req : Req) (kid head eph wrapped rest : Nat)
  /-- KEY_CMD_RETIRE (R547). -/
  | keyCmdRetire (req : Req) (kid : Nat)
  /-- SKIDWAY_REQUEST_SEND (R593). -/
  | skidwayRequestSend (who : Req) (q : SkReq)
  /-- SKIDWAY_REQUEST_ARRIVE (R598). -/
  | skidwayRequestArrive (key : Nat) (ms : List Meet)
  /-- SKIDWAY_COMPLETION (R596). -/
  | skidwayCompletion (key : Nat)
  /-- ROUTER_ABSORB (R606). -/
  | routerAbsorb (key router port : Nat) (resp : Bool)
  /-- REQUEST_TIMEOUT (R609). -/
  | requestTimeout (key : Nat)
  /-- TARGET_TIMEOUT (R611). -/
  | targetTimeout (key : Nat)
  /-- ISOLATION_PROBE (R612). -/
  | isolationProbe (ni : Nat) (answered : Bool)
  /-- NOC_RECONFIG_CLOSE (R608). -/
  | nocReconfigClose (req : Req) (value : Nat)
  /-- NOC_RECONFIG_OPEN (R608). -/
  | nocReconfigOpen (req : Req) (value : Nat)
  /-- NOC_RTR_CLOSE (R606). -/
  | nocRtrClose (value : Nat)
  /-- FENCE_OPEN (R614). -/
  | fenceOpen (ni : Nat)
  /-- SPINE_CONTENTION (R629). -/
  | spineContention (die line : Nat) (a b : Driver)
  /-- LANDING_MREQ (R643). -/
  | landingMreq (landing : Nat) (q : SkReq)
  /-- LANDING_TRSP (R644). -/
  | landingTrsp (landing key status data : Nat)
  /-- LANDING_DISABLE (R648). -/
  | landingDisable (landing : Nat)
  /-- READBACK_GO (R653). -/
  | readbackGo (req : Req) (value : Nat)
  /-- READBACK_CAPTURE_TIMEOUT (R654). -/
  | readbackCaptureTimeout
  /-- READBACK_DONE (R657). -/
  | readbackDone (stands : List Nat)
  /-- READBACK_RESUME (R655). -/
  | readbackResume
  /-- CFG_SL_CMD (R675). -/
  | cfgSlCmd (req : Req) (value : Nat)
  /-- STAND_LOAD_START (R677). -/
  | standLoadStart (img : PImg)
  /-- STAND_DRAIN_END (R682). -/
  | standDrainEnd (wires : List Bool)
  /-- RUN_RECORD (R677). -/
  | runRecord (addr count : Nat) (frames : List FrameIn) (err : Option SrcErr)
  /-- CRUISER_SCAN_STEP (R688). -/
  | cruiserScanStep (upset : Nat) (poison : Bool) (nvm : Option Nat)
  /-- CRUISER_REPAIR_DONE (R691). -/
  | cruiserRepairDone (nvm : Option Nat) (stuck : Nat)
  /-- CRU_INJ (R696). -/
  | cruInj (req : Req) (value : Nat)
  /-- REF_WINDOW_END (R702). -/
  | refWindowEnd (localOk : Bool) (recovered : Option (Bool × Int))
  /-- REFERENCE_GAP (R704). -/
  | referenceGap
  /-- PLL_UNLOCK (R707). -/
  | pllUnlock
  /-- POLDER_DOWN (R725). -/
  | polderDown (req : Req) (p : Nat)
  /-- POLDER_UP (R728). -/
  | polderUp (req : Req) (p : Nat)
  /-- POLDER_RESET (R728). -/
  | polderReset (req : Req) (p : Nat)
  /-- POLDER_CLOSE_TIMEOUT (R728). -/
  | polderCloseTimeout (p : Nat)
  /-- POLDER_DRAIN_END (R728). -/
  | polderDrainEnd (p : Nat)
  /-- POLDER_DRAIN_TIMEOUT (R728). -/
  | polderDrainTimeout (p : Nat)
  /-- POLDER_ISOLATE_DONE (R728). -/
  | polderIsolateDone (p : Nat)
  /-- POLDER_POWERUP_DONE (R728). -/
  | polderPowerupDone (p : Nat)
  /-- POLDER_RESET_DONE (R728). -/
  | polderResetDone (p : Nat)
  /-- STATE_RUN (R732). -/
  | stateRun (req : Req)
  /-- STATE_SLEEP (R731). -/
  | stateSleep (req : Req)
  /-- STATE_DEEP (R732). -/
  | stateDeep (req : Req)
  /-- SYSTEM_WAKE (R732). -/
  | systemWake (source : Nat)
  /-- CROSSING_REOPEN (R735). -/
  | crossingReopen (x inst : Nat)
  /-- EPOCH_RATCHET (R836). -/
  | epochRatchet (req : Req) (value : Nat)
  /-- EPOCH_BROADCAST_ARRIVE (R739). -/
  | epochBroadcastArrive (u : Nat)
  /-- LANE_DETECT_POLL (R758). -/
  | laneDetectPoll (lane : Nat) (seen : Bool)
  /-- LANE_SIGNAL_PRESENT (R758). -/
  | laneSignalPresent (lane : Nat)
  /-- LANE_ACQUIRED (R758). -/
  | laneAcquired (lane : Nat)
  /-- LANE_TRAINING_FRAME (R761). -/
  | laneTrainingFrame (lane control status : Nat) (ready : Bool)
  /-- LANE_ATTEMPT_TIMEOUT (R759). -/
  | laneAttemptTimeout (lane : Nat)
  /-- LANE_SIGNAL_ABSENT (R758). -/
  | laneSignalAbsent (lane : Nat)
  /-- LANE_LOCK_LOST (R758). -/
  | laneLockLost (lane : Nat)
  /-- LANE_SIGNAL_LOSS (R756). -/
  | laneSignalLoss (lane : Nat)
  /-- LANE_SIGNAL_RETURN (R756). -/
  | laneSignalReturn (lane : Nat)
  /-- LANE_READAPT_DONE (R756). -/
  | laneReadaptDone (lane : Nat)
  /-- ADAPT_WINDOW (R755). -/
  | adaptWindow (lane : Nat) (w : AdaptWin)
  /-- LANE_RETRAIN (R758). -/
  | laneRetrain (lane : Nat)
  /-- QUAD_REFCLK_CHANGE (R747). -/
  | quadRefclkChange (quad : Nat) (present : Bool)
  /-- PRBS_INJECT (R777). -/
  | prbsInject (lane : Nat)
  /-- PRBS_PERIODIC_INJECT (R777). -/
  | prbsPeriodicInject (lane : Nat)
  /-- PERST_N_ASSERT (R799). -/
  | perstNAssert
  /-- PERST_N_RISE (R804). -/
  | perstNRise
  /-- LINK_DOWN (R799). -/
  | linkDown (hot : Bool)
  /-- FLR (R799). -/
  | flr (fn : Nat)
  /-- FLR_DONE (R801). -/
  | flrDone (fn us : Nat)
  /-- L0P_HOST_REQUEST (R786). -/
  | l0pHostRequest (width : Nat)
  /-- L0P_NARROW (R786). -/
  | l0pNarrow
  /-- L0P_WIDEN (R786). -/
  | l0pWiden
  /-- HOST_BAR_ACCESS (R794). -/
  | hostBarAccess (fn bar off : Nat) (write : Bool) (dws : List (Nat × Nat))
  /-- HOST_READ_COMPLETION (R441). -/
  | hostReadCompletion (t : HostTgt) (d : HostRead)
  /-- HOST_COMPLETION_TIMEOUT (R784). -/
  | hostCompletionTimeout (t : HostTgt)
  /-- MSIX_UNMASK (R798). -/
  | msixUnmask (fn vec : Nat)
  /-- PCIE_RETRAIN (R806). -/
  | pcieRetrain (req : Req) (value : Nat)
  /-- REGISTER_WRITE (R814). -/
  | registerWrite (req : Req) (off value : Nat)
  /-- BIT_ALIAS_WRITE (R825). -/
  | bitAliasWrite (req : Req) (blk reg b value : Nat)
  /-- PAIR_LO_READ (R817). -/
  | pairLoRead (req : Req) (off : Nat)
  /-- EVT_PEEK (R844). -/
  | evtPeek (req : Req) (value : Nat)
  /-- RAIL_FAULT (R854). -/
  | railFault
  /-- THERMAL_READ (R870). -/
  | thermalRead (die : Nat) (degc : Int)
  /-- TEST_INSTRUCTION_LOAD (R874). -/
  | testInstructionLoad (x : TestIn)
  /-- TEST_LOGIC_RESET (R874). -/
  | testLogicReset (role slot : Nat) (ref : Bool)
  /-- PARTNER_TERMINATION_LOST (R758). -/
  | partnerTerminationLost (lane : Nat)
  /-- BUNDLE_LANE_SIGNAL (R763). -/
  | bundleLaneSignal (b lanes : Nat)
  /-- PROBE_GIVES_UP (R429). -/
  | probeGivesUp (b : Nat)
  /-- PARTNER_ALIVE_OUT_TOGGLE (R415). -/
  | partnerAliveOutToggle
  /-- NAND_TEMPERATURE_READ (R350). -/
  | nandTemperatureRead (ch vol : Nat) (degc : Int)
  /-- IDLE_PATTERN_END (R757). -/
  | idlePatternEnd (lane : Nat)
  /-- FETCH_RESUME (R438). -/
  | fetchResume
  /-- PCIE_LINK_UP (R804). -/
  | pcieLinkUp (speed width : Nat) (m : LinkMode)
  /-- CONFIGURATION_REQUEST (R802). -/
  | configurationRequest (fn : Nat) (r : CfgReq)
  /-- BLOCK_LOCK (R771). -/
  | blockLock (quad lanes : Nat) (am : Bool)
  /-- HI_BER (R773). -/
  | hiBer (quad : Nat) (rises : Bool) (corr uncorr sym under : Nat)
  /-- PRBS_CHECKER_LOCK (R776). -/
  | prbsCheckerLock (lane : Nat) (lock : Bool) (errs units : Nat)
  /-- USER_PORT_READ (R633). -/
  | userPortRead (die mem word : Nat) (e : EccRead)
  /-- COEFFICIENT_INPUT_WRITE (R753). -/
  | coefficientInputWrite (lane value : Nat)
  deriving DecidableEq, Repr

end Sys2Proof
end

