-- ==== Sys2Proof/Config.lean ====
section
/-! DEFINITION. What an implementation fixes and the spec leaves open: free values, opaque constants with no
body that nothing in Lean can evaluate. Each draw applies one to the state's counter of draws, so every draw is
a value of its own. -/

namespace Sys2Proof

/-! ### Settings of the fabric, as configuration frames hold them (R622 to R649, R661) -/

/-- Where an input of the fabric takes its value, on one die; tiles are numbered row × 32 + column. -/
inductive Net where
  | const (b : Bool)
  /-- Flip-flop `f` of cell `k` of cluster `c` of a tile. -/
  | ff (tile c k f : Nat)
  /-- LUT output of a cell: 0 the 6-input function, or the first 5-input one; 1 the second 5-input one; 2 the sum of the
  carry chain. -/
  | lut (tile c k out : Nat)
  /-- Carry into bit `k` of a cluster. -/
  | carry (tile c k : Nat)
  /-- Spine line of the die. -/
  | spine (line : Nat)
  /-- Bridge line, at 4,608 × (2 × pair of dies + direction) + index. -/
  | bridge (line : Nat)
  /-- Bit of the output of a memory's port: block memories by their number, deep ones from 0x8000. -/
  | mem (mem port n : Nat)
  /-- COLLISION of a block memory's port. -/
  | collision (mem port : Nat)
  /-- SBITERR and DBITERR of a memory's port (R632, R633). -/
  | sbiterr (mem port : Nat)
  | dbiterr (mem port : Nat)
  /-- Bit of the result of an arithmetic slice, and its OVF. -/
  | slice (k n : Nat)
  | ovf (k : Nat)
  /-- Input of a user I/O cell; its DDR register of the falling edge at 96 + cell. -/
  | pin (cell : Nat)
  /-- An output of a hard block: landings, lanes. -/
  | hard (n : Nat)
  deriving DecidableEq, Repr, Inhabited

/-- What clocks an element (R641): a clock spine, or a cluster output. -/
inductive ClkSel where
  | none
  | spine (n : Nat)
  | logic (x : Net)
  deriving DecidableEq, Repr, Inhabited

/-- A control set of a cluster (R623). -/
structure CtrlSet where
  clk : ClkSel := .none
  en : Net := .const true
  rst : Net := .const false
  sync : Bool := true
  deriving DecidableEq, Repr, Inhabited

/-- A cell (R622): the inputs of its LUT, one 6-input function or two 5-input ones; of each flip-flop its data and its control
set. -/
structure CellCfg where
  ins : List Net := []
  split : Bool := false
  d : List Net := []
  cs : List Nat := []
  deriving DecidableEq, Repr, Inhabited

/-- A cluster (R623): its cells, control sets, initial values (bit 2k + f), whether its carry chain goes on from the cluster above,
and the write port of its distributed RAMs (address, data of each LUT, enable). -/
structure ClusterCfg where
  cells : List CellCfg := []
  sets : List CtrlSet := []
  init : Nat := 0
  chain : Bool := false
  cin : Net := .const false
  waddr : List Net := []
  wdata : List Net := []
  wen : Net := .const false
  deriving DecidableEq, Repr, Inhabited

/-- A port of a memory (R631, R635): clock, enables, address and data inputs; WRITE_FIRST; output register. -/
structure PortCfg where
  clk : ClkSel := .none
  en : Net := .const false
  we : Net := .const false
  addr : List Net := []
  din : List Net := []
  writeFirst : Bool := false
  outReg : Bool := false
  deriving DecidableEq, Repr, Inhabited

/-- A memory (Table FAB-3): width of its shape, ECC shape, and its ports: both of a block memory; the write and the read port of
a deep one. -/
structure MemCfg where
  width : Nat := 72
  ecc : Bool := false
  a : PortCfg := {}
  b : PortCfg := {}
  deriving DecidableEq, Repr, Inhabited

/-- An arithmetic slice (R638, R639, Table FAB-4): mode 0 MUL, 1 MAC, 2 DOT4, 3 ADD; signed operands; minus; C or D ± in place of
the accumulator; saturation; pipeline registers; C from the cascade. -/
structure SliceCfg where
  mode : Nat := 0
  signA : Bool := false
  signB : Bool := false
  minus : Bool := false
  fromC : Bool := false
  saturate : Bool := false
  regs : Nat := 0
  cascade : Bool := false
  clk : ClkSel := .none
  en : Net := .const true
  a : List Net := []
  b : List Net := []
  c : List Net := []
  d : List Net := []
  deriving DecidableEq, Repr, Inhabited

/-- A user I/O cell (R649): LVDS, drive strength in mA, pull (0 none, 1 up, 2 down, 3 keeper), input delay taps, DDR, clock of its
DDR registers, output value (the second for the falling edge of DDR) and output enable. -/
structure UioCfg where
  lvds : Bool := false
  drive : Nat := 4
  pull : Nat := 0
  taps : Nat := 0
  ddr : Bool := false
  clk : ClkSel := .none
  out : Net := .const false
  out2 : Net := .const false
  oe : Net := .const false
  deriving DecidableEq, Repr, Inhabited

/-- A bridge line (R626): tile and net of its driver, the register at each end and their clock. -/
structure BridgeCfg where
  tile : Nat := 0
  drv : Net := .const false
  regSend : Bool := false
  regRecv : Bool := false
  clk : ClkSel := .none
  deriving DecidableEq, Repr, Inhabited

end Sys2Proof

namespace Sys2Proof.Config

/-- A free number (log entry 4). -/
opaque freeNat : Nat → Nat

/-- A free choice (log entry 4). -/
opaque freeBool : Nat → Bool

/-- The step of the 32-bit LFSR of a RANDOM generator, whose polynomial R485 does not give (log entry 4). -/
opaque lfsrNext : Nat → Nat

/-- Bytes of NOR device 0, which the board fits (log entry 189). -/
opaque nvmBytes : Nat

/-- The 8 parity bytes of a Reed-Solomon codeword RS(144,136) over its 136 data bytes; R400 gives neither the field's polynomial
nor the generator's roots (log entry 4). -/
opaque rsParity : Nat → Nat

/-- The parity bytes of an LDPC codeword of a code rate over its data and metadata; the spec does not give the code (log entry
4). -/
opaque ldpcParity : Nat → Nat → Nat

/-! ### Reading of the frames (log entry 203): but for the LUTs and RAM_MODE the spec gives no layout. Each takes the content of the
frames by address, and names an element of the part. -/

/-- Settings of cluster `c` of a tile of a die. -/
opaque cluster : (Nat → Nat) → Nat → Nat → Nat → ClusterCfg

/-- Settings of a memory of a die: block memories by their number, deep ones from 0x8000. -/
opaque memory : (Nat → Nat) → Nat → Nat → MemCfg

/-- Settings of a slice of a die. -/
opaque slice : (Nat → Nat) → Nat → Nat → SliceCfg

/-- Settings of a user I/O cell of a die. -/
opaque uio : (Nat → Nat) → Nat → Nat → UioCfg

/-- Settings of a bridge line. -/
opaque bridge : (Nat → Nat) → Nat → BridgeCfg

/-- Net that the driver of a spine line at a tile column puts on it: die, line, column. -/
opaque spineNet : (Nat → Nat) → Nat → Nat → Nat → Net

/-- Level that a hard block gives an input of the fabric, or that an undriven net shows: time, die, input (log entry 4). -/
opaque outer : Nat → Nat → Nat → Bool

/-- Level that the board drives on a user I/O pin, if it drives one: ps, die, cell (log entry 4). -/
opaque pad : Nat → Nat → Nat → Option Bool

/-- VCCIO of a bank of a fabric die is 1.8 V rather than 1.2 V: the board's supply (R649). -/
opaque vccio18 : Nat → Nat → Bool

/-- Bits [11:1] of IDCODE: Serrov's JEP106 code, which the land map file states (R873). -/
opaque jep106 : Nat

/-- Dike latch of a stand on the wire that an element of a die drives out of it; for user I/O, output value at its cell and output
enable at 96 + cell (R679; log entry 203). -/
opaque latch : Nat → Net → Nat

/-- Check bits of a word in ECC shape; the spec does not give the code (log entry 4). -/
opaque checkBits : Nat → Nat

/-- Content of a frame of a memory whose content is undefined: draw, frame address (log entry 4). -/
opaque lostFrame : Nat → Nat → Nat

end Sys2Proof.Config
end

