-- ==== Sys2Proof/Machine/Events.lean ====
section
/-! DEFINITION. Event codes and their severities (R477, Table FLT-9 and the event tables of the other chapters). -/

namespace Sys2Proof.Machine

namespace E

/-- Event 0x0001, severity 1. -/
def ADDR_UNMAPPED : Nat := 0x0001
/-- Event 0x0002, severity 1. -/
def ACCESS_DENIED : Nat := 0x0002
/-- Event 0x0003, severity 1. -/
def STATE_CONFLICT : Nat := 0x0003
/-- Event 0x0004, severity 1. -/
def RESULT_ACK_INVALID : Nat := 0x0004
/-- Event 0x0005, severity 2. -/
def RETRY_EXHAUSTED : Nat := 0x0005
/-- Event 0x0101, severity 0. -/
def CFG_STARTED : Nat := 0x0101
/-- Event 0x0102, severity 1. -/
def CFG_PCIE_DEFERRED : Nat := 0x0102
/-- Event 0x0201, severity 2. -/
def CRU_FRAME_PERMANENT : Nat := 0x0201
/-- Event 0x0601, severity 2. -/
def DCK_SPILLWAY_FULL : Nat := 0x0601
/-- Event 0x0602, severity 2. -/
def DCK_SPILL_LOST : Nat := 0x0602
/-- Event 0x0603, severity 1. -/
def DCK_POOL_EMPTY : Nat := 0x0603
/-- Event 0x0604, severity 2. -/
def DCK_ENGINE_FELLED : Nat := 0x0604
/-- Event 0x0701, severity 2. -/
def TLY_ENTRY_INVALID : Nat := 0x0701
/-- Event 0x0702, severity 1. -/
def TLY_FAULT_TABLE_FULL : Nat := 0x0702
/-- Event 0x0703, severity 3. -/
def TLY_MAP_PAGE_LOST : Nat := 0x0703
/-- Event 0x0704, severity 1. -/
def TLY_MIRROR_RING_HIGH : Nat := 0x0704
/-- Event 0x0705, severity 0. -/
def TLY_REBUILD_DONE : Nat := 0x0705
/-- Event 0x0n01, severity 1; n is 9 for M0 and 0xA for M1. -/
def MED_LOAD_CAP (die : Nat) : Nat := (9 + die) * 256 + 1
/-- Event 0x0n02, severity 1; n is 9 for M0 and 0xA for M1. -/
def MED_LUN_MISMATCH (die : Nat) : Nat := (9 + die) * 256 + 2
/-- Event 0x0n03, severity 0; n is 9 for M0 and 0xA for M1. -/
def MED_CHANNEL_COLD (die : Nat) : Nat := (9 + die) * 256 + 3
/-- Event 0x0n04, severity 2; n is 9 for M0 and 0xA for M1. -/
def MED_CHANNEL_FELLED (die : Nat) : Nat := (9 + die) * 256 + 4
/-- Event 0x0n05, severity 1; n is 9 for M0 and 0xA for M1. -/
def MED_LUN_TIMEOUT (die : Nat) : Nat := (9 + die) * 256 + 5
/-- Event 0x0n06, severity 1; n is 9 for M0 and 0xA for M1. -/
def MED_RAW_REFUSED (die : Nat) : Nat := (9 + die) * 256 + 6
/-- Event 0x0n07, severity 0; n is 9 for M0 and 0xA for M1. -/
def MED_OWN_LOST_ARB (die : Nat) : Nat := (9 + die) * 256 + 7
/-- Event 0x0n08, severity 2; n is 9 for M0 and 0xA for M1. -/
def MED_OWN_FORCED (die : Nat) : Nat := (9 + die) * 256 + 8
/-- Event 0x0n09, severity 0; n is 9 for M0 and 0xA for M1. -/
def MED_GROUP_OWNED (die : Nat) : Nat := (9 + die) * 256 + 9
/-- Event 0x0n0A, severity 3; n is 9 for M0 and 0xA for M1. -/
def MED_OWN_WIRE_FAULT (die : Nat) : Nat := (9 + die) * 256 + 10
/-- Event 0x0n0B, severity 3; n is 9 for M0 and 0xA for M1. -/
def MED_BACKSTOP (die : Nat) : Nat := (9 + die) * 256 + 11
/-- Event 0x0n0C, severity 2; n is 9 for M0 and 0xA for M1. -/
def MED_DECODE_FAIL (die : Nat) : Nat := (9 + die) * 256 + 12
/-- Event 0x0n0D, severity 1; n is 9 for M0 and 0xA for M1. -/
def MED_WIDE_REFUSED (die : Nat) : Nat := (9 + die) * 256 + 13
/-- Event 0x0n0E, severity 1; n is 9 for M0 and 0xA for M1. -/
def MED_BLOCK_FELLED (die : Nat) : Nat := (9 + die) * 256 + 14
/-- Event 0x0n0F, severity 2; n is 9 for M0 and 0xA for M1. -/
def MED_LUN_FELLED (die : Nat) : Nat := (9 + die) * 256 + 15
/-- Event 0x0n10, severity 1; n is 9 for M0 and 0xA for M1. -/
def MED_REFUGE_SHORT (die : Nat) : Nat := (9 + die) * 256 + 16
/-- Event 0x0n11, severity 3; n is 9 for M0 and 0xA for M1. -/
def MED_REFUGE_LOST (die : Nat) : Nat := (9 + die) * 256 + 17
/-- Event 0x0n12, severity 1; n is 9 for M0 and 0xA for M1. -/
def MED_HOME_UNASSIGNED (die : Nat) : Nat := (9 + die) * 256 + 18
/-- Event 0x0B01, severity 1. -/
def LVE_SOLO : Nat := 0x0B01
/-- Event 0x0B02, severity 2. -/
def LVE_LINK_LOST : Nat := 0x0B02
/-- Event 0x0B03, severity 2. -/
def LVE_PARTNER_DEAD : Nat := 0x0B03
/-- Event 0x0B04, severity 1. -/
def LVE_TAKEOVER_DONE : Nat := 0x0B04
/-- Event 0x0B05, severity 2. -/
def LVE_TAKEOVER_ABORTED : Nat := 0x0B05
/-- Event 0x0B06, severity 0. -/
def LVE_REPLAY_DONE : Nat := 0x0B06
/-- Event 0x0B07, severity 0. -/
def LVE_HANDBACK_DONE : Nat := 0x0B07
/-- Event 0x0B08, severity 1. -/
def LVE_BUNDLE_DOWN : Nat := 0x0B08
/-- Event 0x0B09, severity 2. -/
def LVE_PAIR_REFUSED : Nat := 0x0B09
/-- Event 0x0B0A, severity 2. -/
def LVE_MAC_ALARM : Nat := 0x0B0A
/-- Event 0x0B0B, severity 0. -/
def LVE_TIME_ROLE : Nat := 0x0B0B
/-- Event 0x0B0C, severity 1. -/
def LVE_WIRE_SILENT : Nat := 0x0B0C
/-- Event 0x0B0D, severity 2. -/
def LVE_HEAL_LOST : Nat := 0x0B0D
/-- Event 0x0D01, severity 2. -/
def HBM_PC_FELLED : Nat := 0x0D01
/-- Event 0x0F01, severity 1. -/
def SDS_LANE_FELLED : Nat := 0x0F01
/-- Event 0x1101, severity 1. -/
def EVT_SUPPRESSED : Nat := 0x1101
/-- Event 0x1301, severity 1. -/
def QQP_DOORBELL_INVALID : Nat := 0x1301
/-- Event 0x1302, severity 2. -/
def QQP_DATA_FAULT : Nat := 0x1302
/-- Event 0x1401, severity 0. -/
def INJ_FIRED : Nat := 0x1401
/-- Event 0x0D02, severity 1. -/
def HBM_PC_UE : Nat := 0x0D02
/-- Event 0x0D03, severity 3. -/
def HBM_FELL_REFUSED : Nat := 0x0D03
/-- Event 0x0D04, severity 0. -/
def HBM_EVAC_DONE : Nat := 0x0D04
/-- Event 0x0D05, severity 1. -/
def HBM_RH_TABLE_ERR : Nat := 0x0D05
/-- Event 0x0D06, severity 0. -/
def HBM_TEMP_DOUBLE : Nat := 0x0D06
/-- Event 0x0D07, severity 1. -/
def HBM_RETRAIN_FAIL : Nat := 0x0D07
/-- Event 0x0D08, severity 2. -/
def HBM_HOT : Nat := 0x0D08
/-- Event 0x0E01, severity 1. -/
def SPM_UE : Nat := 0x0E01
/-- Event 0x0E02, severity 1. -/
def SPM_SPARE_USED : Nat := 0x0E02
/-- Event 0x0E03, severity 3. -/
def SPM_SPARES_OUT : Nat := 0x0E03
/-- Event 0x0E04, severity 2. -/
def SPM_FAB_SWEEP_FAIL : Nat := 0x0E04
/-- Event 0x0C01, severity 0. -/
def CRY_KEY_LOADED : Nat := 0x0C01
/-- Event 0x0C02, severity 0. -/
def CRY_KEY_RETIRED : Nat := 0x0C02
/-- Event 0x0C03, severity 1. -/
def CRY_KEY_REFUSED : Nat := 0x0C03
/-- Event 0x0C04, severity 2. -/
def CRY_TAG_FAIL : Nat := 0x0C04
/-- Event 0x0C05, severity 3. -/
def CRY_NODE_DAMAGED : Nat := 0x0C05
/-- Event 0x0C06, severity 1. -/
def CRY_RESEALED : Nat := 0x0C06
/-- Event 0x0C07, severity 0. -/
def CRY_REKEY_START : Nat := 0x0C07
/-- Event 0x0C08, severity 0. -/
def CRY_REKEY_DONE : Nat := 0x0C08
/-- Event 0x0C09, severity 1. -/
def CRY_WRAP_STALL : Nat := 0x0C09
/-- Event 0x0C0A, severity 0. -/
def CRY_LINK_KEYED : Nat := 0x0C0A
/-- Event 0x0C0B, severity 2. -/
def CRY_LINK_KEY_FAIL : Nat := 0x0C0B
/-- Event 0x0501, severity 2. -/
def NOC_TARGET_ISOLATED : Nat := 0x0501
/-- Event 0x0502, severity 0. -/
def NOC_TARGET_RESTORED : Nat := 0x0502
/-- Event 0x0503, severity 1. -/
def NOC_ROUTE_CLOSED : Nat := 0x0503
/-- Event 0x0504, severity 1. -/
def NOC_CRC_FAIL : Nat := 0x0504
/-- Event 0x0505, severity 0. -/
def NOC_RECONFIG_DONE : Nat := 0x0505
/-- Event 0x1201, severity 2. -/
def FAB_SPINE_CONTENTION : Nat := 0x1201
/-- Event 0x1202, severity 0. -/
def FAB_SPINE_RESTORED : Nat := 0x1202
/-- Event 0x1203, severity 1. -/
def FAB_MEM_UE : Nat := 0x1203
/-- Event 0x1204, severity 0. -/
def FAB_RB_DONE : Nat := 0x1204
/-- Event 0x0103, severity 0. -/
def CFG_STAND_LOADED : Nat := 0x0103
/-- Event 0x0104, severity 1. -/
def CFG_STAND_REFUSED : Nat := 0x0104
/-- Event 0x0105, severity 2. -/
def CFG_STAND_TORN : Nat := 0x0105
/-- Event 0x0202, severity 0. -/
def CRU_FRAME_REPAIRED : Nat := 0x0202
/-- Event 0x0203, severity 2. -/
def CRU_FRAME_UNREPAIRED : Nat := 0x0203
/-- Event 0x0204, severity 1. -/
def CRU_SIG_LOST : Nat := 0x0204
/-- Event 0x0301, severity 0. -/
def CLK_REF_SWITCH : Nat := 0x0301
/-- Event 0x0302, severity 1. -/
def CLK_REF_LOST : Nat := 0x0302
/-- Event 0x0303, severity 2. -/
def CLK_HOLDOVER : Nat := 0x0303
/-- Event 0x0304, severity 3. -/
def CLK_PLL_UNLOCK : Nat := 0x0304
/-- Event 0x0305, severity 1. -/
def CLK_GATED_ACCESS : Nat := 0x0305
/-- Event 0x0401, severity 0. -/
def PWR_POLDER_OFF : Nat := 0x0401
/-- Event 0x0402, severity 0. -/
def PWR_POLDER_ON : Nat := 0x0402
/-- Event 0x0403, severity 1. -/
def PWR_REFUSED : Nat := 0x0403
/-- Event 0x0404, severity 2. -/
def PWR_DRAIN_TIMEOUT : Nat := 0x0404
/-- Event 0x0405, severity 0. -/
def PWR_STATE_CHANGE : Nat := 0x0405
/-- Event 0x0406, severity 0. -/
def PWR_EPOCH_SETTLED : Nat := 0x0406
/-- Event 0x0F02, severity 1. -/
def SDS_TRAIN_FAIL : Nat := 0x0F02
/-- Event 0x0F03, severity 1. -/
def SDS_LOCK_LOST : Nat := 0x0F03
/-- Event 0x0F04, severity 2. -/
def SDS_HI_BER : Nat := 0x0F04
/-- Event 0x1001, severity 0. -/
def PCI_LINK_UP : Nat := 0x1001
/-- Event 0x1002, severity 1. -/
def PCI_LINK_DOWN : Nat := 0x1002
/-- Event 0x1003, severity 1. -/
def PCI_FLR : Nat := 0x1003
/-- Event 0x1004, severity 2. -/
def PCI_WIDTH_REDUCED : Nat := 0x1004
/-- Event 0x1005, severity 2. -/
def PCI_AER : Nat := 0x1005
/-- Event 0x1006, severity 1. -/
def PCI_ACCESS_FAULT : Nat := 0x1006
/-- Event 0x1007, severity 1. -/
def PCI_PARTIAL_WRITE : Nat := 0x1007
end E

/-- Events of severity 0 (INFO). -/
def sev0 : List Nat := [E.CFG_STARTED, E.TLY_REBUILD_DONE, E.LVE_REPLAY_DONE, E.LVE_HANDBACK_DONE, E.LVE_TIME_ROLE, E.INJ_FIRED, E.HBM_EVAC_DONE, E.HBM_TEMP_DOUBLE, E.CRY_KEY_LOADED, E.CRY_KEY_RETIRED, E.CRY_REKEY_START, E.CRY_REKEY_DONE, E.CRY_LINK_KEYED, E.NOC_TARGET_RESTORED, E.NOC_RECONFIG_DONE, E.FAB_SPINE_RESTORED, E.FAB_RB_DONE, E.CFG_STAND_LOADED, E.CRU_FRAME_REPAIRED, E.CLK_REF_SWITCH, E.PWR_POLDER_OFF, E.PWR_POLDER_ON, E.PWR_STATE_CHANGE, E.PWR_EPOCH_SETTLED, E.PCI_LINK_UP]
/-- MED events of severity 0, by their number within the block. -/
def medSev0 : List Nat := [3, 7, 9]
/-- Events of severity 1 (NOTICE). -/
def sev1 : List Nat := [E.ADDR_UNMAPPED, E.ACCESS_DENIED, E.STATE_CONFLICT, E.RESULT_ACK_INVALID, E.CFG_PCIE_DEFERRED, E.DCK_POOL_EMPTY, E.TLY_FAULT_TABLE_FULL, E.TLY_MIRROR_RING_HIGH, E.LVE_SOLO, E.LVE_TAKEOVER_DONE, E.LVE_BUNDLE_DOWN, E.LVE_WIRE_SILENT, E.SDS_LANE_FELLED, E.EVT_SUPPRESSED, E.QQP_DOORBELL_INVALID, E.HBM_PC_UE, E.HBM_RH_TABLE_ERR, E.HBM_RETRAIN_FAIL, E.SPM_UE, E.SPM_SPARE_USED, E.CRY_KEY_REFUSED, E.CRY_RESEALED, E.CRY_WRAP_STALL, E.NOC_ROUTE_CLOSED, E.NOC_CRC_FAIL, E.FAB_MEM_UE, E.CFG_STAND_REFUSED, E.CRU_SIG_LOST, E.CLK_REF_LOST, E.CLK_GATED_ACCESS, E.PWR_REFUSED, E.SDS_TRAIN_FAIL, E.SDS_LOCK_LOST, E.PCI_LINK_DOWN, E.PCI_FLR, E.PCI_ACCESS_FAULT, E.PCI_PARTIAL_WRITE]
/-- MED events of severity 1, by their number within the block. -/
def medSev1 : List Nat := [1, 2, 5, 6, 13, 14, 16, 18]
/-- Events of severity 2 (ERROR). -/
def sev2 : List Nat := [E.RETRY_EXHAUSTED, E.CRU_FRAME_PERMANENT, E.DCK_SPILLWAY_FULL, E.DCK_SPILL_LOST, E.DCK_ENGINE_FELLED, E.TLY_ENTRY_INVALID, E.LVE_LINK_LOST, E.LVE_PARTNER_DEAD, E.LVE_TAKEOVER_ABORTED, E.LVE_PAIR_REFUSED, E.LVE_MAC_ALARM, E.LVE_HEAL_LOST, E.HBM_PC_FELLED, E.QQP_DATA_FAULT, E.HBM_HOT, E.SPM_FAB_SWEEP_FAIL, E.CRY_TAG_FAIL, E.CRY_LINK_KEY_FAIL, E.NOC_TARGET_ISOLATED, E.FAB_SPINE_CONTENTION, E.CFG_STAND_TORN, E.CRU_FRAME_UNREPAIRED, E.CLK_HOLDOVER, E.PWR_DRAIN_TIMEOUT, E.SDS_HI_BER, E.PCI_WIDTH_REDUCED, E.PCI_AER]
/-- MED events of severity 2, by their number within the block. -/
def medSev2 : List Nat := [4, 8, 12, 15]
/-- Events of severity 3 (CRITICAL). -/
def sev3 : List Nat := [E.TLY_MAP_PAGE_LOST, E.HBM_FELL_REFUSED, E.SPM_SPARES_OUT, E.CRY_NODE_DAMAGED, E.CLK_PLL_UNLOCK]
/-- MED events of severity 3, by their number within the block. -/
def medSev3 : List Nat := [10, 11, 17]

/-- Severity of an event code. -/
def sevOf (code : Nat) : Nat :=
  let n := code % 256
  if code / 256 = 9 ∨ code / 256 = 10 then
    if n ∈ medSev0 then 0 else if n ∈ medSev1 then 1 else if n ∈ medSev2 then 2 else 3
  else if code ∈ sev0 then 0 else if code ∈ sev1 then 1 else if code ∈ sev2 then 2 else 3

end Sys2Proof.Machine
end

