-- ==== Sys2Proof/Machine/Crypto.lean ====
section
/-! DEFINITION. The cryptographic algorithms that the spec names, on strings of bytes: SHA-384 (R53 to R55, R72), P-384 with ECDSA
and ECDH (R54, R542, R582, R583), AES-256 with CMAC, the KDF in counter mode, key wrap, XTS and GCM (R538, R541, R550, R553, R558,
R560). How numbers become bytes where the spec does not say is log entry 174. -/

namespace Sys2Proof.Machine
open Sys2Proof

/-! ### CRC-32C -/

/-- One step of the reflected CRC-32C register (PRESUMED: the polynomial of RFC 3720, log entry 16). -/
def crcStep (c : Nat) : Nat := if c % 2 = 1 then Nat.xor (c / 2) 0x82F63B78 else c / 2

/-- CRC-32C register after one byte. -/
def crcByte (c b : Nat) : Nat := (List.range 8).foldl (fun c _ => crcStep c) (Nat.xor c b)

/-- CRC-32C of the `n` bytes of a number. -/
def crc32c (n x : Nat) : Nat := Nat.xor ((toBytes n x).foldl crcByte 0xFFFFFFFF) 0xFFFFFFFF

/-! ### Strings of bytes -/

/-- `n` bytes of a number from byte `b` up. -/
def bytesAt (e b n : Nat) : Nat := bits e (8 * b) (8 * n)

/-- The number a string spells, most significant byte first. -/
def beNat (l : List Nat) : Nat := l.foldl (fun a b => 256 * a + b) 0

/-- `n` bytes of a number, most significant first. -/
def beBytes (n x : Nat) : List Nat := (toBytes n x).reverse

/-- Bytewise exclusive or. -/
def xorBytes (a b : List Nat) : List Nat := List.zipWith Nat.xor a b

/-- A string cut into pieces of `n` bytes, at most `f` of them. -/
def chunks (n : Nat) : Nat → List Nat → List (List Nat)
  | 0, _ => []
  | f + 1, l => if l.isEmpty then [] else l.take n :: chunks n f (l.drop n)

/-! ### SHA-384 (FIPS 180-4) -/

/-- Round constants 0 to 15. -/
def shaK0 : List Nat :=
  [0x428a2f98d728ae22, 0x7137449123ef65cd, 0xb5c0fbcfec4d3b2f, 0xe9b5dba58189dbbc,
   0x3956c25bf348b538, 0x59f111f1b605d019, 0x923f82a4af194f9b, 0xab1c5ed5da6d8118,
   0xd807aa98a3030242, 0x12835b0145706fbe, 0x243185be4ee4b28c, 0x550c7dc3d5ffb4e2,
   0x72be5d74f27b896f, 0x80deb1fe3b1696b1, 0x9bdc06a725c71235, 0xc19bf174cf692694]

/-- Round constants 16 to 31. -/
def shaK1 : List Nat :=
  [0xe49b69c19ef14ad2, 0xefbe4786384f25e3, 0x0fc19dc68b8cd5b5, 0x240ca1cc77ac9c65,
   0x2de92c6f592b0275, 0x4a7484aa6ea6e483, 0x5cb0a9dcbd41fbd4, 0x76f988da831153b5,
   0x983e5152ee66dfab, 0xa831c66d2db43210, 0xb00327c898fb213f, 0xbf597fc7beef0ee4,
   0xc6e00bf33da88fc2, 0xd5a79147930aa725, 0x06ca6351e003826f, 0x142929670a0e6e70]

/-- Round constants 32 to 47. -/
def shaK2 : List Nat :=
  [0x27b70a8546d22ffc, 0x2e1b21385c26c926, 0x4d2c6dfc5ac42aed, 0x53380d139d95b3df,
   0x650a73548baf63de, 0x766a0abb3c77b2a8, 0x81c2c92e47edaee6, 0x92722c851482353b,
   0xa2bfe8a14cf10364, 0xa81a664bbc423001, 0xc24b8b70d0f89791, 0xc76c51a30654be30,
   0xd192e819d6ef5218, 0xd69906245565a910, 0xf40e35855771202a, 0x106aa07032bbd1b8]

/-- Round constants 48 to 63. -/
def shaK3 : List Nat :=
  [0x19a4c116b8d2d0c8, 0x1e376c085141ab53, 0x2748774cdf8eeb99, 0x34b0bcb5e19b48a8,
   0x391c0cb3c5c95a63, 0x4ed8aa4ae3418acb, 0x5b9cca4f7763e373, 0x682e6ff3d6b2b8a3,
   0x748f82ee5defb2fc, 0x78a5636f43172f60, 0x84c87814a1f0ab72, 0x8cc702081a6439ec,
   0x90befffa23631e28, 0xa4506cebde82bde9, 0xbef9a3f7b2c67915, 0xc67178f2e372532b]

/-- Round constants 64 to 79. -/
def shaK4 : List Nat :=
  [0xca273eceea26619c, 0xd186b8c721c0c207, 0xeada7dd6cde0eb1e, 0xf57d4f7fee6ed178,
   0x06f067aa72176fba, 0x0a637dc5a2c898a6, 0x113f9804bef90dae, 0x1b710b35131c471b,
   0x28db77f523047d84, 0x32caab7b40c72493, 0x3c9ebe0a15c9bebc, 0x431d67c49c100d4c,
   0x4cc5d4becb3e42b6, 0x597f299cfc657e2a, 0x5fcb6fab3ad6faec, 0x6c44198c4a475817]

/-- The 80 round constants. -/
def shaK : List Nat := shaK0 ++ shaK1 ++ shaK2 ++ shaK3 ++ shaK4

/-- The eight working variables. -/
structure Sha where
  a : Nat
  b : Nat
  c : Nat
  d : Nat
  e : Nat
  f : Nat
  g : Nat
  h : Nat
  deriving DecidableEq, Repr

/-- A 64-bit word turned right. -/
def ror64 (n x : Nat) : Nat := x / 2 ^ n + x % 2 ^ n * 2 ^ (64 - n)

/-- The schedule, newest word first: `n` words more. -/
def shaSched : Nat → List Nat → List Nat
  | 0, l => l
  | n + 1, l =>
    let x := l.getD 1 0
    let y := l.getD 14 0
    let s1 := Nat.xor (Nat.xor (ror64 19 x) (ror64 61 x)) (x / 2 ^ 6)
    let s0 := Nat.xor (Nat.xor (ror64 1 y) (ror64 8 y)) (y / 2 ^ 7)
    shaSched n ((s1 + l.getD 6 0 + s0 + l.getD 15 0) % 2 ^ 64 :: l)

/-- One round: `kw` is the sum of its constant and its word. -/
def shaRound (v : Sha) (kw : Nat) : Sha :=
  let big1 := Nat.xor (Nat.xor (ror64 14 v.e) (ror64 18 v.e)) (ror64 41 v.e)
  let ch := Nat.xor (Nat.land v.e v.f) (Nat.land (2 ^ 64 - 1 - v.e) v.g)
  let t1 := v.h + big1 + ch + kw
  let big0 := Nat.xor (Nat.xor (ror64 28 v.a) (ror64 34 v.a)) (ror64 39 v.a)
  let maj := Nat.xor (Nat.xor (Nat.land v.a v.b) (Nat.land v.a v.c)) (Nat.land v.b v.c)
  { a := (t1 + big0 + maj) % 2 ^ 64, b := v.a, c := v.b, d := v.c, e := (v.d + t1) % 2 ^ 64, f := v.e, g := v.f, h := v.g }

/-- One block of 128 bytes. -/
def shaBlock (v : Sha) (blk : List Nat) : Sha :=
  let w := (shaSched 64 ((chunks 8 16 blk).map beNat).reverse).reverse
  let u := (List.zipWith (· + ·) shaK w).foldl shaRound v
  { a := (v.a + u.a) % 2 ^ 64, b := (v.b + u.b) % 2 ^ 64, c := (v.c + u.c) % 2 ^ 64, d := (v.d + u.d) % 2 ^ 64
    e := (v.e + u.e) % 2 ^ 64, f := (v.f + u.f) % 2 ^ 64, g := (v.g + u.g) % 2 ^ 64, h := (v.h + u.h) % 2 ^ 64 }

/-- The initial value of SHA-384. -/
def shaInit : List Nat :=
  [0xcbbb9d5dc1059ed8, 0x629a292a367cd507, 0x9159015a3070dd17, 0x152fecd8f70e5939,
   0x67332667ffc00b31, 0x8eb44a8768581511, 0xdb0c2e0d64f98fa7, 0x47b5481dbefa4fa4]

/-- The eight variables of a list of eight words. -/
def Sha.ofList (l : List Nat) : Sha :=
  { a := l.getD 0 0, b := l.getD 1 0, c := l.getD 2 0, d := l.getD 3 0, e := l.getD 4 0, f := l.getD 5 0, g := l.getD 6 0
    h := l.getD 7 0 }

/-- The 48 bytes of the SHA-384 digest of a string. -/
def sha384 (msg : List Nat) : List Nat :=
  let n := msg.length
  let pad := 0x80 :: List.replicate ((239 - n % 128) % 128) 0 ++ beBytes 16 (8 * n)
  let v := (chunks 128 (n / 128 + 2) (msg ++ pad)).foldl shaBlock (Sha.ofList shaInit)
  [v.a, v.b, v.c, v.d, v.e, v.f].flatMap (beBytes 8)

/-! ### P-384 (FIPS 186-5, SP 800-186) -/

/-- The prime of the field. -/
def p384 : Nat := 2 ^ 384 - 2 ^ 128 - 2 ^ 96 + 2 ^ 32 - 1

/-- The order of the group. -/
def n384 : Nat := 0xFFFFFFFFFFFFFFFFFFFFFFFFFFFFFFFFFFFFFFFFFFFFFFFFC7634D81F4372DDF581A0DB248B0A77AECEC196ACCC52973

/-- The constant term of the curve; the coefficient of x is -3. -/
def b384 : Nat := 0xB3312FA7E23EE7E4988E056BE3F82D19181D9C6EFE8141120314088F5013875AC656398D8A2ED19D2A85C8EDD3EC2AEF

/-- The base point. -/
def g384 : Nat × Nat :=
  (0xAA87CA22BE8B05378EB1C71EF320AD746E1D3B628BA79B9859F741E082542A385502F25DBF55296C3A545E3872760AB7,
   0x3617DE4A96262C6F5D9E98BF9292DC29F8F41DBD289A147CE9DA3113B5F0B8C00A60B1CE1D7E819D7A431D7C90EA0E5F)

/-- A power modulo `m`, by the exponent's low `f` bits. -/
def powMod (m : Nat) : Nat → Nat → Nat → Nat
  | 0, _, _ => 1
  | f + 1, x, e =>
    let r := powMod m f (x * x % m) (e / 2)
    if e % 2 = 1 then x * r % m else r

/-- The inverse modulo a prime below 2^384. -/
def invMod (m x : Nat) : Nat := powMod m 384 x (m - 2)

/-- The coordinates lie on the curve (Table CRY-4, check 5). -/
def onCurve (q : Nat × Nat) : Bool :=
  decide (q.1 < p384) && decide (q.2 < p384)
    && q.2 * q.2 % p384 == (q.1 * q.1 * q.1 + (p384 - 3) * q.1 + b384) % p384

/-- Sum of two points; none is the point at infinity. -/
def ecAdd (a b : Option (Nat × Nat)) : Option (Nat × Nat) :=
  match a, b with
  | none, b => b
  | a, none => a
  | some (x, y), some (u, v) =>
    if x = u ∧ (y + v) % p384 = 0 then none
    else
      let l := if x = u then (3 * x * x + (p384 - 3)) * invMod p384 (2 * y % p384) % p384
        else (v + (p384 - y)) * invMod p384 ((u + (p384 - x)) % p384) % p384
      let z := (l * l + 2 * p384 - x - u) % p384
      some (z, (l * (x + (p384 - z)) + (p384 - y)) % p384)

/-- A multiple of a point, by the factor's low `f` bits. -/
def ecMul : Nat → Nat → Option (Nat × Nat) → Option (Nat × Nat)
  | 0, _, _ => none
  | f + 1, k, q =>
    let r := ecMul f (k / 2) (ecAdd q q)
    if k % 2 = 1 then ecAdd q r else r

/-- An ECDSA P-384 signature over a digest verifies under a public key. -/
def ecdsaOk (digest : List Nat) (q : Nat × Nat) (r s : Nat) : Bool :=
  let w := invMod n384 s
  let z := beNat digest
  decide (1 ≤ r) && decide (r < n384) && decide (1 ≤ s) && decide (s < n384) && onCurve q
    && (match ecAdd (ecMul 384 (z * w % n384) (some g384)) (ecMul 384 (r * w % n384) (some q)) with
      | some x => x.1 % n384 == r
      | none => false)

/-- The ECDH secret: the x coordinate of a multiple of the other's point. -/
def ecdh (d : Nat) (q : Nat × Nat) : List Nat :=
  match ecMul 384 d (some q) with
  | some x => beBytes 48 x.1
  | none => []

/-! ### AES-256 (FIPS 197) -/

/-- The S-box, 32 bytes to a row, least significant byte first. -/
def sboxRows : List Nat :=
  [0xc072a49cafa2d4adf04759fa7dc982ca76abd7fe2b670130c56f6bf27b777c63,
   0x75b227ebe28012079a059618c323c7041531d871f1e5a534ccf73f362693fdb7,
   0xcf584c4a39becb6a5bb1fc20ed00d153842fe329b3d63b52a05a6e1b1a2c8309,
   0xd2f3ff1021dab6bcf5389d928f40a351a89f3c507f02f94585334d43fbaaefd0,
   0xdb0b5ede14b8ee4688902a22dc4f816073195d643d7ea7c41744975fec130ccd,
   0x08ae7a65eaf4566ca94ed58d6d37c8e779e4959162acd3c25c2406490a3a32e0,
   0x9e1dc186b95735610ef6034866b53e708a8bbd4b1f74dde8c6b4a61c2e2578ba,
   0x16bb54b00f2d99416842e6bf0d89a18cdf2855cee9871e9b948ed9691198f8e1]

/-- SubBytes of one byte. -/
def sbox (x : Nat) : Nat := sboxRows.getD (x / 32) 0 / 256 ^ (x % 32) % 256

/-- The inverse S-box, in the same form. -/
def sboxInvRows : List Nat :=
  [0xcbe9dec444438e3487ff2f9b8239e37cfbd7f3819ea340bf38a53630d56a0952,
   0x25d18b6d49a25b76b224d92866a12e084ec3fa420b954cee3d23c2a632947b54,
   0x849d8da75746155edab9edfd5048706c92b6655dcc5ca4d41698688664f6f872,
   0x6b8a130103bdafc1020f3fca8f1e2cd00645b3b80558e4f70ad3bc8c00abd890,
   0x6edf751ce837f9e28535ade72274ac9673e6b4f0cecff297eadc674f4111913a,
   0xf45acd78fec0db9a2079d2c64b3e56fc1bbe18aa0e62b76f89c5291d711af147,
   0xef9cc9939f7ae52d0d4ab519a97f51605fec8027591012b131c7078833a8dd1f,
   0x7d0c2155631469e126d677ba7e042b17619953833cbbebc8b0f52aae4d3be0a0]

/-- Its inverse. -/
def sboxInv (x : Nat) : Nat := sboxInvRows.getD (x / 32) 0 / 256 ^ (x % 32) % 256

/-- Product by x in the field of AES. -/
def xtime (a : Nat) : Nat := if a < 128 then 2 * a else Nat.xor (2 * a - 256) 0x1B

/-- Product in the field of AES, by the second factor's low four bits. -/
def gmul (a b : Nat) : Nat :=
  let t (k : Nat) (x : Nat) : Nat := if bit b k then x else 0
  let a2 := xtime a
  let a4 := xtime a2
  Nat.xor (Nat.xor (t 0 a) (t 1 a2)) (Nat.xor (t 2 a4) (t 3 (xtime a4)))

/-- The key schedule, newest word of four bytes first: `n` words more; `i` is the next word's index. -/
def keyWords : Nat → Nat → List (List Nat) → List (List Nat)
  | 0, _, l => l
  | n + 1, i, l =>
    let t := l.getD 0 []
    let u :=
      if i % 8 = 0 then xorBytes ((t.drop 1 ++ t.take 1).map sbox) [2 ^ (i / 8 - 1), 0, 0, 0]
      else if i % 8 = 4 then t.map sbox else t
    keyWords n (i + 1) (xorBytes u (l.getD 7 []) :: l)

/-- The 15 round keys of a key of 32 bytes. -/
def roundKeys (key : List Nat) : List (List Nat) :=
  chunks 16 15 (keyWords 52 8 (chunks 4 8 key).reverse).reverse.flatten

/-- A matrix of the field applied to a column; each row is the first one turned. -/
def mixCol (m c : List Nat) : List Nat :=
  (List.range 4).map (fun r => (List.range 4).foldl (fun x k => Nat.xor x (gmul (c.getD k 0) (m.getD ((k + 4 - r) % 4) 0))) 0)

/-- MixColumns, or its inverse. -/
def mixCols (m s : List Nat) : List Nat := (chunks 4 4 s).flatMap (mixCol m)

/-- ShiftRows, or its inverse: byte `r + 4 * c` comes from column `c + k * r`. -/
def shiftRows (k : Nat) (s : List Nat) : List Nat :=
  (List.range 16).map (fun j => s.getD (j % 4 + 4 * ((j / 4 + k * (j % 4)) % 4)) 0)

/-- Encryption of a block of 16 bytes under round keys. -/
def aesEnc (ks : List (List Nat)) (x : List Nat) : List Nat :=
  let s := ((ks.drop 1).take 13).foldl (fun s k => xorBytes (mixCols [2, 3, 1, 1] (shiftRows 1 (s.map sbox))) k)
    (xorBytes x (ks.getD 0 []))
  xorBytes (shiftRows 1 (s.map sbox)) (ks.getD 14 [])

/-- Decryption of a block of 16 bytes under round keys. -/
def aesDec (ks : List (List Nat)) (x : List Nat) : List Nat :=
  let s := ((ks.drop 1).take 13).reverse.foldl (fun s k =>
      mixCols [14, 11, 13, 9] (xorBytes ((shiftRows 3 s).map sboxInv) k))
    (xorBytes x (ks.getD 14 []))
  xorBytes ((shiftRows 3 s).map sboxInv) (ks.getD 0 [])

/-! ### CMAC (SP 800-38B), the KDF (SP 800-108) and key wrap (SP 800-38F) -/

/-- A block doubled, most significant byte first. -/
def dbl128 (x : List Nat) : List Nat :=
  let n := beNat x
  beBytes 16 (if n < 2 ^ 127 then 2 * n else Nat.xor (2 * n - 2 ^ 128) 0x87)

/-- AES-256-CMAC of a string. -/
def cmac (key msg : List Nat) : List Nat :=
  let ks := roundKeys key
  let k1 := dbl128 (aesEnc ks (List.replicate 16 0))
  let n := (msg.length - 1) / 16
  let last := msg.drop (16 * n)
  let m := if last.length = 16 then xorBytes last k1
    else xorBytes (last ++ 0x80 :: List.replicate (15 - last.length) 0) (dbl128 k1)
  (chunks 16 n (msg.take (16 * n)) ++ [m]).foldl (fun x b => aesEnc ks (xorBytes x b)) (List.replicate 16 0)

/-- The KDF in counter mode with AES-256-CMAC: 256 bits (R538). -/
def kdf (key label context : List Nat) : List Nat :=
  [1, 2].flatMap (fun i => cmac key (beBytes 4 i ++ label ++ 0 :: context ++ beBytes 4 256))

/-- The bytes of a label in ASCII. -/
def ascii (s : String) : List Nat := s.toList.map Char.toNat

/-- Unwrapping of a key (KW): none where the integrity check fails. -/
def kwUnwrap (kek c : List Nat) : Option (List Nat) :=
  let ks := roundKeys kek
  let b := chunks 8 (c.length / 8) c
  let n := b.length - 1
  let r := ((List.range (6 * n)).reverse).foldl (fun (x : List Nat × List (List Nat)) t =>
    let i := t % n
    let d := aesDec ks (xorBytes x.1 (beBytes 8 (t + 1)) ++ x.2.getD i [])
    (d.take 8, x.2.set i (d.drop 8))) (b.headD [], b.drop 1)
  if r.1 = List.replicate 8 0xA6 then some r.2.flatten else none

/-! ### XTS (SP 800-38E) and GCM (SP 800-38D) -/

/-- The tweak of the next block: a product by x, least significant byte first. -/
def xtsNext (t : List Nat) : List Nat :=
  let n := ofBytes t
  toBytes 16 (if n < 2 ^ 127 then 2 * n else Nat.xor (2 * n - 2 ^ 128) 0x87)

/-- XTS over whole blocks with one direction of the cipher. -/
def xtsRun (f : List Nat → List Nat) : List (List Nat) → List Nat → List Nat
  | [], _ => []
  | b :: l, t => xorBytes (f (xorBytes b t)) t ++ xtsRun f l (xtsNext t)

/-- AES-256-XTS of a data unit of whole blocks under a pair of keys and a 128-bit tweak. -/
def xts (enc : Bool) (k1 k2 : List Nat) (tweak : Nat) (data : List Nat) : List Nat :=
  let ks := roundKeys k1
  xtsRun (if enc then aesEnc ks else aesDec ks) (chunks 16 (data.length / 16) data) (aesEnc (roundKeys k2) (toBytes 16 tweak))

/-- Product in the field of GCM, blocks as numbers with the first bit the most significant: `v` times the low `f` bits of `x`. -/
def gfMul : Nat → Nat → Nat → Nat → Nat
  | 0, _, _, z => z
  | f + 1, x, v, z =>
    gfMul f x (if v % 2 = 1 then Nat.xor (v / 2) (0xE1 * 2 ^ 120) else v / 2) (if bit x f then Nat.xor z v else z)

/-- GHASH of a string of whole blocks. -/
def ghash (h : Nat) (l : List Nat) : Nat :=
  (chunks 16 (l.length / 16) l).foldl (fun y b => gfMul 128 (Nat.xor y (beNat b)) h 0) 0

/-- A string filled with zeros to whole blocks. -/
def pad16 (l : List Nat) : List Nat := l ++ List.replicate ((16 - l.length % 16) % 16) 0

/-- The key stream of GCM from counter 2. -/
def gcmStream (ks : List (List Nat)) (iv : List Nat) (n : Nat) : List Nat :=
  ((List.range ((n + 15) / 16)).flatMap (fun i => aesEnc ks (iv ++ beBytes 4 (i + 2)))).take n

/-- AES-256-GCM, ciphertext of a plaintext or the other way round. -/
def gcmCrypt (key iv data : List Nat) : List Nat := xorBytes data (gcmStream (roundKeys key) iv data.length)

/-- The 16-byte tag of AES-256-GCM over a ciphertext and additional data. -/
def gcmTag (key iv aad c : List Nat) : List Nat :=
  let ks := roundKeys key
  let h := beNat (aesEnc ks (List.replicate 16 0))
  let s := ghash h (pad16 aad ++ pad16 c ++ beBytes 8 (8 * aad.length) ++ beBytes 8 (8 * c.length))
  xorBytes (beBytes 16 s) (aesEnc ks (iv ++ [0, 0, 0, 1]))

end Sys2Proof.Machine
end

