-- ==== Sys2Proof/Machine/Image.lean ====
section
/-! DEFINITION. The Darut images as bytes: the fields of a full image's first 8 KiB (Tables BOT-2, BOT-3, R53), those of a partial
image (Table STD-4, R668 to R672), and the content of each type of segment (Table BOT-5). -/

namespace Sys2Proof.Machine
open Sys2Proof

/-! ### Hashes and signatures (R53 to R55, R669) -/

/-- SHA-384 of the first `n` bytes of a number, as a number whose least significant byte is the digest's first. -/
def shaNat (n x : Nat) : Nat := ofBytes (sha384 (toBytes n x))

/-- An authentication block; `zeros` says that its bytes from 0x0D0 up are 0. -/
structure Auth where
  slot : Nat := 0
  x : Nat := 0
  y : Nat := 0
  r : Nat := 0
  s : Nat := 0
  zeros : Bool := true
  deriving DecidableEq, Repr

/-- The authentication block of `n` bytes at byte `o`. -/
def authAt (v o n : Nat) : Auth :=
  { slot := bytesAt v o 1, x := bytesAt v (o + 0x10) 48, y := bytesAt v (o + 0x40) 48, r := bytesAt v (o + 0x70) 48
    s := bytesAt v (o + 0xA0) 48, zeros := bytesAt v (o + 0xD0) (n - 0xD0) == 0 }

/-- SHA-384 of X followed by Y. -/
def authKey (a : Auth) : Nat := ofBytes (sha384 (toBytes 48 a.x ++ toBytes 48 a.y))

/-- The signature verifies over the first `n` bytes of an image. -/
def sigOk (a : Auth) (v n : Nat) : Bool := ecdsaOk (sha384 (toBytes n v)) (a.x, a.y) a.r a.s

/-! ### The first 8 KiB of a full image -/

/-- An entry of the segment table (Table BOT-3). -/
structure SegHdr where
  ty : Nat := 0
  flags : Nat := 0
  slots : Nat := 0
  rsv : Nat := 0
  param : Nat := 0
  off : Nat := 0
  len : Nat := 0
  hash : Nat := 0
  deriving DecidableEq, Repr

/-- The entry at byte `o`. -/
def segHdrAt (v o : Nat) : SegHdr :=
  { ty := bytesAt v o 1, flags := bytesAt v (o + 1) 1, slots := bytesAt v (o + 2) 1, rsv := bytesAt v (o + 3) 1
    param := bytesAt v (o + 4) 4, off := bytesAt v (o + 8) 4, len := bytesAt v (o + 0xC) 4, hash := bytesAt v (o + 0x10) 48 }

/-- The header and the segment table of a full image (Table BOT-2). -/
structure FullHdr where
  magic : Nat := 0x54555244
  format : Nat := 1
  family : Nat := 0x51
  part : Nat := 0x256
  steppings : Nat := 1
  slots : Nat := 1
  flags : Nat := 0
  length : Nat := 0
  buildId : Nat := 0
  /-- XSPI_ENTRY: length, and the command's bytes, least significant first. -/
  entryLen : Nat := 0
  entry : Nat := 0
  /-- XSPI_READ: opcode, extension and dummy cycles, least significant first. -/
  read : Nat := 0
  /-- Byte 3 of XSPI_READ and bytes 0x34 to 0x7F are 0. -/
  zeros : Bool := true
  /-- SEG_COUNT, and its entries. -/
  count : Nat := 0
  segs : List SegHdr := []
  /-- Every entry beyond SEG_COUNT is 0. -/
  tableZeros : Bool := true
  deriving DecidableEq, Repr

/-- The fields of an image's first 8 KiB. -/
def fullHdr (v : Nat) : FullHdr :=
  let n := bytesAt v 0x0E 2
  let m := min n 64
  { magic := bytesAt v 0 4, format := bytesAt v 4 2, family := bytesAt v 6 2, part := bytesAt v 8 2, steppings := bytesAt v 0xA 2
    slots := bytesAt v 0xC 1, flags := bytesAt v 0xD 1, length := bytesAt v 0x10 8, buildId := bytesAt v 0x18 8
    entryLen := bytesAt v 0x20 1, entry := bytesAt v 0x21 15, read := bytesAt v 0x30 3
    zeros := bytesAt v 0x33 1 == 0 && bytesAt v 0x34 76 == 0, count := n
    segs := (List.range m).map (fun k => segHdrAt v (0x80 + 64 * k))
    tableZeros := bytesAt v (0x80 + 64 * m) (64 * (64 - m)) == 0 }

/-- The authentication block of a full image. -/
def fullAuth (v : Nat) : Auth := authAt v 0x1C00 0x400

/-! ### Segment bodies (Table BOT-5) -/

/-- Content of a segment. -/
inductive SegBody where
  /-- PCIe settings. -/
  | pcie (p : PcieSet)
  /-- Pairs of control-space offset and value. -/
  | hub (recs : List (Nat × Nat))
  /-- Training parameters, which only the analogue front end uses. -/
  | hbmtrain
  /-- The 4,096 bytes of the policy table. -/
  | policy (v : Nat)
  /-- Channel entries of the named dies in die order, timing sets, ring area (R298, R351). -/
  | media (entries tsets ring : Nat)
  /-- Stand table (32 bytes), run records (ADDR, frames of 256 bytes), and the spine-line drivers that the frames enable. -/
  | fabric (table : Nat) (runs : List (Nat × List Nat)) (drivers : List (Nat × Nat))
  /-- Records: device physical address, length in bytes, data. -/
  | preload (recs : List (Nat × Nat × Nat))
  /-- Entry count and other header bytes being 0, signatures in ascending frame address (R672). -/
  | golden (count : Nat) (zeros : Bool) (sigs : List Nat)
  deriving DecidableEq, Repr

/-- Pieces of `w` bytes each: `n` of them, from byte `o`. -/
def piecesAt (v o w n : Nat) : List Nat := (List.range n).map (fun k => bytesAt v (o + w * k) w)

/-- Run records from byte `o` to byte `e` (R663), and whether their headers and lengths are sound. -/
def runsAt (v e : Nat) : Nat → Nat → List (Nat × List Nat) × Bool
  | 0, o => ([], o == e)
  | f + 1, o =>
    if o = e then ([], true)
    else
      let n := bytesAt v (o + 4) 2
      if e < o + 16 + 256 * n ∨ bytesAt v (o + 6) 10 ≠ 0 then ([], false)
      else
        let r := runsAt v e f (o + 16 + 256 * n)
        ((bytesAt v o 4, piecesAt v (o + 16) 256 n) :: r.1, r.2)

/-- Records of a PRELOAD segment from byte `o` to byte `e`, and whether they end with it. -/
def recordsAt (v e : Nat) : Nat → Nat → List (Nat × Nat × Nat) × Bool
  | 0, o => ([], o == e)
  | f + 1, o =>
    if o = e then ([], true)
    else
      let n := bytesAt v (o + 8) 4
      if e < o + 16 + n then ([], false)
      else
        let r := recordsAt v e f (o + 16 + (n + 15) / 16 * 16)
        ((bytesAt v o 8, n, bytesAt v (o + 16) n) :: r.1, r.2)

/-- The content of a segment's bytes, and whether they have the layout of their type. -/
def segBody (ty len param v : Nat) (x : SegSense) : SegBody × Bool :=
  match ty with
  | 1 => (.pcie x.pcie, true)
  | 2 => (.hub ((List.range (len / 8)).map (fun k => (bytesAt v (8 * k) 4, bytesAt v (8 * k + 4) 4))), true)
  | 3 => (.hbmtrain, true)
  | 4 => (.policy (v % 2 ^ 32768), true)
  | 5 =>
    let r := runsAt v len (len / 16) 32
    (.fabric (bytesAt v 0 32) r.1 x.drivers, r.2 && decide (32 ≤ len))
  | 6 =>
    let r := recordsAt v len (len / 16) 0
    (.preload r.1, r.2)
  | 7 =>
    let n := bytesAt v 0 4
    (.golden n (bytesAt v 4 12 == 0) (piecesAt v 16 4 ((len - 16) / 4)), len == 16 + 4 * n)
  | 9 =>
    let n := 1024 * (param % 2 + param / 2 % 2)
    (.media (bytesAt v 0 n) (bytesAt v n 1024) (bytesAt v (n + 1024) 20544), len == n + 1024 + 20544)
  | _ => (.hbmtrain, false)

/-! ### Partial images -/

/-- The header of a partial image (Table STD-4). -/
structure PartHdr where
  magic : Nat := 0
  format : Nat := 0
  family : Nat := 0
  part : Nat := 0
  steppings : Nat := 0
  stand : Nat := 0
  flags : Nat := 0
  rowFirst : Nat := 0
  rowLast : Nat := 0
  dikes : Nat := 0
  borderOff : Nat := 0
  dmapOff : Nat := 0
  goldenOff : Nat := 0
  goldenCount : Nat := 0
  frameOff : Nat := 0
  frameLen : Nat := 0
  totalLen : Nat := 0
  buildId : Nat := 0
  landings : Nat := 0
  tableHash : Nat := 0
  frameHash : Nat := 0
  /-- Bytes 0x12, 0x13, 0x3C to 0x3F and 0xA0 to 0xFF are 0. -/
  zeros : Bool := true
  deriving DecidableEq, Repr

/-- The header of an image. -/
def partHdr (v : Nat) : PartHdr :=
  { magic := bytesAt v 0 4, format := bytesAt v 4 2, family := bytesAt v 6 2, part := bytesAt v 8 2, steppings := bytesAt v 0xA 2
    stand := bytesAt v 0xC 1, flags := bytesAt v 0xD 1, rowFirst := bytesAt v 0xE 1, rowLast := bytesAt v 0xF 1
    dikes := bytesAt v 0x10 2, borderOff := bytesAt v 0x14 4, dmapOff := bytesAt v 0x18 4, goldenOff := bytesAt v 0x1C 4
    goldenCount := bytesAt v 0x20 4, frameOff := bytesAt v 0x24 4, frameLen := bytesAt v 0x28 4, totalLen := bytesAt v 0x2C 4
    buildId := bytesAt v 0x30 8, landings := bytesAt v 0x38 4, tableHash := bytesAt v 0x40 48, frameHash := bytesAt v 0x70 48
    zeros := bytesAt v 0x12 2 == 0 && bytesAt v 0x3C 4 == 0 && bytesAt v 0xA0 96 == 0 }

/-- The authentication block of a partial image, with the bytes to 0x3FF that must be 0. -/
def partAuth (v : Nat) : Auth := authAt v 0x100 0x300

/-- Bytes of the border table. -/
def borderLen (h : PartHdr) : Nat := ((h.dikes + 3) / 4 + 15) / 16 * 16

/-- Rows of the driver map. -/
def dmapRows (h : PartHdr) : Nat := h.rowLast + 1 - h.rowFirst

/-- Border code of each dike latch (R670). -/
def borderOf (v : Nat) : List Nat :=
  let h := partHdr v
  (List.range h.dikes).map (fun n => bits v (8 * h.borderOff + 2 * n) 2)

/-- Driver-map rows of 256 bits (R671). -/
def dmapOf (v : Nat) : List Nat :=
  let h := partHdr v
  piecesAt v h.dmapOff 32 (dmapRows h)

/-- Golden signatures in ascending frame address (R672). -/
def goldenOf (v : Nat) : List Nat :=
  let h := partHdr v
  piecesAt v h.goldenOff 4 h.goldenCount

/-- The border table, the driver map and the golden section verify against TABLE_HASH. -/
def tablesOk (v : Nat) : Bool :=
  let h := partHdr v
  let b (o n : Nat) : List Nat := toBytes n (bytesAt v o n)
  ofBytes (sha384 (b h.borderOff (borderLen h) ++ b h.dmapOff (32 * dmapRows h) ++ b h.goldenOff (4 * h.goldenCount)))
    == h.tableHash

/-- The bytes of a run record (R663). -/
def runBytes (addr : Nat) (frames : List Nat) : List Nat :=
  toBytes 4 addr ++ toBytes 2 frames.length ++ List.replicate 10 0 ++ frames.flatMap (toBytes 256)

end Sys2Proof.Machine
end

