-- ==== Sys2Proof/Machine/Map.lean ====
section
/-! DEFINITION. Sparse tables as plain data: a list of (key, value) pairs in one canonical form, keys strictly
rising and no entry equal to the value an unlisted key reads as. Every RAM, ring, table and register store of
the model is held this way, so that equal contents are equal data. -/

namespace Sys2Proof.Machine

/-- A sparse table from Nat keys to values. -/
abbrev Map (α : Type) := List (Nat × α)

namespace Map
variable {α : Type}

/-- Value at a key; `d` is what an unlisted key reads as. -/
def get (d : α) : Map α → Nat → α
  | [], _ => d
  | (k', v) :: m, k => if k = k' then v else if k < k' then d else get d m k

/-- Removes a key. -/
def erase : Map α → Nat → Map α
  | [], _ => []
  | (k', v) :: m, k => if k = k' then m else if k < k' then (k', v) :: m else (k', v) :: erase m k

/-- Lists a key with a value, in its place. -/
def insert : Map α → Nat → α → Map α
  | [], k, x => [(k, x)]
  | (k', v) :: m, k, x =>
    if k = k' then (k, x) :: m else if k < k' then (k, x) :: (k', v) :: m else (k', v) :: insert m k x

/-- Writes a value; writing the value an unlisted key reads as removes the entry. -/
def set [DecidableEq α] (d : α) (m : Map α) (k : Nat) (x : α) : Map α :=
  if x = d then erase m k else insert m k x

/-- Changes the value at one key. -/
def upd [DecidableEq α] (d : α) (m : Map α) (k : Nat) (f : α → α) : Map α :=
  set d m k (f (get d m k))

/-- Keys strictly rising from a bound. -/
def above : Nat → Map α → Bool
  | _, [] => true
  | b, (k, _) :: m => decide (b ≤ k) && above (k + 1) m

/-- The canonical form: keys strictly rising, no entry equal to the unlisted value. -/
def wf [DecidableEq α] (d : α) (m : Map α) : Bool :=
  above 0 m && m.all (fun e => decide (e.2 ≠ d))

/-- Number of listed entries that satisfy a test. -/
def count (p : Nat → α → Bool) (m : Map α) : Nat :=
  (m.filter (fun e => p e.1 e.2)).length

/-- The lowest listed key whose value satisfies a test. -/
def find? (p : Nat → α → Bool) (m : Map α) : Option Nat :=
  (List.find? (fun e => p e.1 e.2) m).map Prod.fst

/-- Keeps the entries that satisfy a test. -/
def keep (p : Nat → α → Bool) (m : Map α) : Map α :=
  m.filter (fun e => p e.1 e.2)

/-- Applies a change to the value of every listed entry, dropping entries that become the unlisted value. -/
def mapAll [DecidableEq α] (d : α) (f : Nat → α → α) : Map α → Map α
  | [] => []
  | (k, v) :: m => if f k v = d then mapAll d f m else (k, f k v) :: mapAll d f m

end Map
end Sys2Proof.Machine
end

