-- ==== Sys2Proof/Machine/Regs.lean ====
section
/-! DEFINITION. The register fields of every block, transcribed row by row from the spec's register tables
(R808, R810, R831, R832 and the register rule of each chapter). A field has a place (BAR0 offset, up to two
index strides), a bit position, a width, a type of Table SCP-3 and a reset value. Where the Reset column
holds a word of Table REG-3 in place of a number, the value here is what the field reads before that source
is applied (R833 for image values; log entry 3 for fuses, straps and tables). -/

namespace Sys2Proof.Machine

/-- Register field types (Table SCP-3, R15). -/
inductive RegTy where
  | rw | ro | wo | rl | rs | ct
  deriving DecidableEq, Repr

/-- One register field, of one register or of a register array. The word of index (i, j) lies at BAR0 offset
base + s1 * i + s2 * j (R808). MED registers take i = die (0 MEDA, 1 MEDB); QQP registers take i = function
number, each function's view being placed 64 MiB above the one before, because the block shows each function
its own registers (R175). -/
structure Fld where
  base : Nat
  s1 : Nat := 0
  n1 : Nat := 1
  s2 : Nat := 0
  n2 : Nat := 1
  lo : Nat
  w : Nat
  ty : RegTy
  rst : List Nat
  deriving DecidableEq, Repr

/-- BAR0 offset of the word that holds the field, for index (i, j). -/
def Fld.off (f : Fld) (i j : Nat) : Nat := f.base + f.s1 * i + f.s2 * j

/-- Number of the block that holds the field: its 1 MiB window of BAR0. -/
def Fld.blk (f : Fld) : Nat := f.base / 2 ^ 20

/-- Key of the field in the register store: the number of its block above bit 40, and the bit address of its lowest bit within
the block's window; the windows of the other functions (R175) and of MEDB follow their block's own. -/
def Fld.key (f : Fld) (i j : Nat) : Nat :=
  2 ^ 40 * f.blk + (8 * (f.base % 2 ^ 20 + f.s1 * i + f.s2 * j) + f.lo) % 2 ^ 40

/-- Reset value of the field for index i (a single value serves every index). -/
def Fld.reset (f : Fld) (i : Nat) : Nat :=
  match f.rst[i]? with
  | some v => v
  | none => f.rst.getLastD 0

/-- A value cut to the field's width. -/
def Fld.cut (f : Fld) (v : Nat) : Nat := v % 2 ^ f.w

namespace F

/-- Table BOT-10. -/
def CFG_STATUS_STATE : Fld := ⟨0x100000, 0x0, 1, 0x0, 1, 0, 4, .ro, [1]⟩
/-- Table BOT-10. -/
def CFG_STATUS_PCIE_EARLY : Fld := ⟨0x100000, 0x0, 1, 0x0, 1, 4, 1, .ro, [0]⟩
/-- Table BOT-10. -/
def CFG_STATUS_FALLBACK_ACTIVE : Fld := ⟨0x100000, 0x0, 1, 0x0, 1, 5, 1, .ro, [0]⟩
/-- Table BOT-10, reset: strap. -/
def CFG_STATUS_ROLE : Fld := ⟨0x100000, 0x0, 1, 0x0, 1, 6, 2, .ro, [0]⟩
/-- Table BOT-10, reset: strap. -/
def CFG_STATUS_SLOT : Fld := ⟨0x100000, 0x0, 1, 0x0, 1, 8, 2, .ro, [0]⟩
/-- Table BOT-10. -/
def CFG_STATUS_KEY_SLOT : Fld := ⟨0x100000, 0x0, 1, 0x0, 1, 10, 2, .ro, [0]⟩
/-- Table BOT-10, reset: fuses. -/
def CFG_STATUS_REVOKED : Fld := ⟨0x100000, 0x0, 1, 0x0, 1, 12, 4, .ro, [0]⟩
/-- Table BOT-10. -/
def CFG_FAIL_CODE_PRIMARY : Fld := ⟨0x100004, 0x0, 1, 0x0, 1, 0, 8, .ro, [0]⟩
/-- Table BOT-10. -/
def CFG_FAIL_CODE_FALLBACK : Fld := ⟨0x100004, 0x0, 1, 0x0, 1, 8, 8, .ro, [0]⟩
/-- Table BOT-10. -/
def CFG_IMAGE_ID_LO : Fld := ⟨0x100008, 0x0, 1, 0x0, 1, 0, 32, .rl, [0]⟩
/-- Table BOT-10. -/
def CFG_IMAGE_ID_HI : Fld := ⟨0x10000C, 0x0, 1, 0x0, 1, 0, 32, .rs, [0]⟩
/-- Table BOT-10. -/
def CFG_LOAD_TIME : Fld := ⟨0x100010, 0x0, 1, 0x0, 1, 0, 32, .ro, [0]⟩
/-- Table BOT-10. -/
def CFG_RELOAD : Fld := ⟨0x100014, 0x0, 1, 0x0, 1, 0, 32, .wo, [0]⟩
/-- Table BOT-10. -/
def CFG_LOAD_FAILS : Fld := ⟨0x100018, 0x0, 1, 0x0, 1, 0, 16, .ct, [0]⟩
/-- Table QQP-10. -/
def QQP_CTL_ENABLE : Fld := ⟨0x1300000, 0x4000000, 257, 0x0, 1, 0, 1, .rw, [0]⟩
/-- Table QQP-10. -/
def QQP_STAT_READY : Fld := ⟨0x1300004, 0x4000000, 257, 0x0, 1, 0, 1, .ro, [0]⟩
/-- Table QQP-10. -/
def QQP_STAT_CFG_ERR : Fld := ⟨0x1300004, 0x4000000, 257, 0x0, 1, 1, 1, .ro, [0]⟩
/-- Table QQP-10. -/
def QQP_STAT_FETCH_STOP : Fld := ⟨0x1300004, 0x4000000, 257, 0x0, 1, 4, 3, .ro, [0]⟩
/-- Table QQP-10. -/
def QQP_STAT_CQ_FULL : Fld := ⟨0x1300004, 0x4000000, 257, 0x0, 1, 7, 1, .ro, [0]⟩
/-- Table QQP-10. -/
def QQP_ASQ_BASE_LO : Fld := ⟨0x1300008, 0x4000000, 257, 0x0, 1, 0, 32, .rl, [0]⟩
/-- Table QQP-10. -/
def QQP_ASQ_BASE_HI : Fld := ⟨0x130000C, 0x4000000, 257, 0x0, 1, 0, 32, .rs, [0]⟩
/-- Table QQP-10. -/
def QQP_ACQ_BASE_LO : Fld := ⟨0x1300010, 0x4000000, 257, 0x0, 1, 0, 32, .rl, [0]⟩
/-- Table QQP-10. -/
def QQP_ACQ_BASE_HI : Fld := ⟨0x1300014, 0x4000000, 257, 0x0, 1, 0, 32, .rs, [0]⟩
/-- Table QQP-10. -/
def QQP_AQ_SIZE_ASQS : Fld := ⟨0x1300018, 0x4000000, 257, 0x0, 1, 0, 12, .rw, [0]⟩
/-- Table QQP-10. -/
def QQP_AQ_SIZE_ACQS : Fld := ⟨0x1300018, 0x4000000, 257, 0x0, 1, 16, 12, .rw, [0]⟩
/-- Table QQP-10, reset: image. -/
def QQP_CAP_MAX_QP : Fld := ⟨0x130001C, 0x4000000, 257, 0x0, 1, 0, 11, .ro, [0]⟩
/-- Table QQP-10, reset: image. -/
def QQP_CAP_VECTORS : Fld := ⟨0x130001C, 0x4000000, 257, 0x0, 1, 12, 12, .ro, [0]⟩
/-- Table QQP-10. -/
def QQP_TAGS_HELD : Fld := ⟨0x1300020, 0x4000000, 257, 0x0, 1, 0, 17, .ro, [0]⟩
/-- Table QQP-10. -/
def QQP_FETCHED : Fld := ⟨0x1300024, 0x4000000, 257, 0x0, 1, 0, 32, .ct, [0]⟩
/-- Table QQP-10. -/
def QQP_STALL_US : Fld := ⟨0x1300028, 0x4000000, 257, 0x0, 1, 0, 32, .ct, [0]⟩
/-- Table QQP-10. -/
def QQP_DB_ERRORS : Fld := ⟨0x130002C, 0x4000000, 257, 0x0, 1, 0, 32, .ct, [0]⟩
/-- Table QQP-10. -/
def QQP_MBX_SQE : Fld := ⟨0x1300040, 0x4000000, 257, 0x4, 16, 0, 32, .rw, [0]⟩
/-- Table QQP-10. -/
def QQP_MBX_GO : Fld := ⟨0x1300080, 0x4000000, 257, 0x0, 1, 0, 32, .wo, [0]⟩
/-- Table QQP-10. -/
def QQP_MBX_CQE : Fld := ⟨0x13000A0, 0x4000000, 257, 0x4, 8, 0, 32, .ro, [0]⟩
/-- Table TLY-10. -/
def TLY_CTL_RA_EN : Fld := ⟨0x700000, 0x0, 1, 0x0, 1, 0, 1, .rw, [1]⟩
/-- Table TLY-10. -/
def TLY_CTL_RA_PAGES : Fld := ⟨0x700000, 0x0, 1, 0x0, 1, 1, 3, .rw, [2]⟩
/-- Table TLY-10. -/
def TLY_CTL_RA_IUS : Fld := ⟨0x700000, 0x0, 1, 0x0, 1, 8, 8, .rw, [64]⟩
/-- Table TLY-10. -/
def TLY_CKPT_TRIG_RECORDS : Fld := ⟨0x700004, 0x0, 1, 0x0, 1, 0, 16, .rw, [64]⟩
/-- Table TLY-10. -/
def TLY_CKPT_TRIG_PAGES : Fld := ⟨0x700004, 0x0, 1, 0x0, 1, 16, 16, .rw, [64]⟩
/-- Table TLY-10. -/
def TLY_CKPT_GO : Fld := ⟨0x700008, 0x0, 1, 0x0, 1, 0, 32, .wo, [0]⟩
/-- Table TLY-10. -/
def TLY_STAT_CKPT_ACTIVE : Fld := ⟨0x70000C, 0x0, 1, 0x0, 1, 0, 1, .ro, [0]⟩
/-- Table TLY-10. -/
def TLY_STAT_REBUILD : Fld := ⟨0x70000C, 0x0, 1, 0x0, 1, 1, 1, .ro, [0]⟩
/-- Table TLY-10. -/
def TLY_STAT_REPLAY_PENDING : Fld := ⟨0x70000C, 0x0, 1, 0x0, 1, 2, 1, .ro, [0]⟩
/-- Table TLY-10. -/
def TLY_STAT_FAULT_FULL : Fld := ⟨0x70000C, 0x0, 1, 0x0, 1, 3, 1, .ro, [0]⟩
/-- Table TLY-10. -/
def TLY_STAT_DESTAGE_STALL : Fld := ⟨0x70000C, 0x0, 1, 0x0, 1, 4, 1, .ro, [0]⟩
/-- Table TLY-10. -/
def TLY_STAT_FOREIGN : Fld := ⟨0x70000C, 0x0, 1, 0x0, 1, 5, 1, .ro, [0]⟩
/-- Table TLY-10. -/
def TLY_CKPT_NUM_LO : Fld := ⟨0x700010, 0x0, 1, 0x0, 1, 0, 32, .rl, [0]⟩
/-- Table TLY-10. -/
def TLY_CKPT_NUM_HI : Fld := ⟨0x700014, 0x0, 1, 0x0, 1, 0, 32, .rs, [0]⟩
/-- Table TLY-10. -/
def TLY_JSEQ_LO : Fld := ⟨0x700018, 0x0, 1, 0x0, 1, 0, 32, .rl, [1]⟩
/-- Table TLY-10. -/
def TLY_JSEQ_HI : Fld := ⟨0x70001C, 0x0, 1, 0x0, 1, 0, 32, .rs, [0]⟩
/-- Table TLY-10, reset: layout. -/
def TLY_FRAMES : Fld := ⟨0x700020, 0x0, 1, 0x0, 1, 0, 24, .ro, [0]⟩
/-- Table TLY-10. -/
def TLY_FRAMES_DIRTY : Fld := ⟨0x700024, 0x0, 1, 0x0, 1, 0, 24, .ro, [0]⟩
/-- Table TLY-10. -/
def TLY_FAULTS_OPEN : Fld := ⟨0x700028, 0x0, 1, 0x0, 1, 0, 13, .ro, [0]⟩
/-- Table TLY-10, reset: 2^26. -/
def TLY_MAP_FREE_MAX : Fld := ⟨0x70002C, 0x0, 1, 0x0, 1, 0, 27, .ro, [67108864]⟩
/-- Table TLY-10. -/
def TLY_MAP_USED : Fld := ⟨0x700030, 0x0, 1, 0x0, 1, 0, 27, .ro, [0]⟩
/-- Table TLY-10. -/
def TLY_LOOKUPS : Fld := ⟨0x700040, 0x0, 1, 0x0, 1, 0, 32, .ct, [0]⟩
/-- Table TLY-10. -/
def TLY_DIR_MISSES : Fld := ⟨0x700044, 0x0, 1, 0x0, 1, 0, 32, .ct, [0]⟩
/-- Table TLY-10. -/
def TLY_FAULTS : Fld := ⟨0x700048, 0x0, 1, 0x0, 1, 0, 32, .ct, [0]⟩
/-- Table TLY-10. -/
def TLY_FAULTS_COALESCED : Fld := ⟨0x70004C, 0x0, 1, 0x0, 1, 0, 32, .ct, [0]⟩
/-- Table TLY-10. -/
def TLY_RA_USED : Fld := ⟨0x700050, 0x0, 1, 0x0, 1, 0, 32, .ct, [0]⟩
/-- Table TLY-10. -/
def TLY_RA_DISCARDED : Fld := ⟨0x700054, 0x0, 1, 0x0, 1, 0, 32, .ct, [0]⟩
/-- Table TLY-10. -/
def TLY_EVICTIONS : Fld := ⟨0x700058, 0x0, 1, 0x0, 1, 0, 32, .ct, [0]⟩
/-- Table TLY-10. -/
def TLY_WRITEBACKS : Fld := ⟨0x70005C, 0x0, 1, 0x0, 1, 0, 32, .ct, [0]⟩
/-- Table TLY-10. -/
def TLY_CAS_FAILS : Fld := ⟨0x700060, 0x0, 1, 0x0, 1, 0, 32, .ct, [0]⟩
/-- Table TLY-10. -/
def TLY_FAULT_NS_MAX : Fld := ⟨0x700064, 0x0, 1, 0x0, 1, 0, 32, .ct, [0]⟩
/-- Table TLY-10; its Effect puts the foreign selector at bit 12, above the bits its Bits column gives (log entry 21). -/
def TLY_PROBE_TRACT : Fld := ⟨0x700080, 0x0, 1, 0x0, 1, 0, 13, .rw, [0]⟩
/-- Table TLY-10. -/
def TLY_PROBE_IU_LO : Fld := ⟨0x700084, 0x0, 1, 0x0, 1, 0, 32, .rl, [0]⟩
/-- Table TLY-10. -/
def TLY_PROBE_IU_HI : Fld := ⟨0x700088, 0x0, 1, 0x0, 1, 0, 32, .rs, [0]⟩
/-- Table TLY-10. -/
def TLY_PROBE_STAT_DONE : Fld := ⟨0x700090, 0x0, 1, 0x0, 1, 0, 1, .ro, [0]⟩
/-- Table TLY-10. -/
def TLY_PROBE_STAT_RESIDENT : Fld := ⟨0x700090, 0x0, 1, 0x0, 1, 1, 1, .ro, [0]⟩
/-- Table TLY-10. -/
def TLY_PROBE_STAT_RANGE : Fld := ⟨0x700090, 0x0, 1, 0x0, 1, 2, 1, .ro, [0]⟩
/-- Table TLY-10. -/
def TLY_PROBE_ENTRY_LO : Fld := ⟨0x700094, 0x0, 1, 0x0, 1, 0, 32, .rl, [0]⟩
/-- Table TLY-10. -/
def TLY_PROBE_ENTRY_HI : Fld := ⟨0x700098, 0x0, 1, 0x0, 1, 0, 32, .rs, [0]⟩
/-- Table DCK-7. -/
def DCK_CTL_PREEMPT_EN : Fld := ⟨0x600000, 0x0, 1, 0x0, 1, 0, 1, .rw, [1]⟩
/-- Table DCK-7. -/
def DCK_STAT_SPILLING : Fld := ⟨0x600004, 0x0, 1, 0x0, 1, 0, 1, .ro, [0]⟩
/-- Table DCK-7. -/
def DCK_STAT_SPILL_FULL : Fld := ⟨0x600004, 0x0, 1, 0x0, 1, 1, 1, .ro, [0]⟩
/-- Table DCK-7. -/
def DCK_STAT_CTX_FULL : Fld := ⟨0x600004, 0x0, 1, 0x0, 1, 2, 1, .ro, [0]⟩
/-- Table DCK-7. -/
def DCK_SPILL_DEPTH : Fld := ⟨0x600008, 0x0, 1, 0x0, 1, 0, 25, .ro, [0]⟩
/-- Table DCK-7. -/
def DCK_SPILL_HIGH : Fld := ⟨0x60000C, 0x0, 1, 0x0, 1, 0, 25, .ct, [0]⟩
/-- Table DCK-7. -/
def DCK_CTX_USED : Fld := ⟨0x600010, 0x0, 1, 0x0, 1, 0, 15, .ro, [0]⟩
/-- Table DCK-7. -/
def DCK_HIST_CTL_CLASS : Fld := ⟨0x600014, 0x0, 1, 0x0, 1, 0, 1, .rw, [0]⟩
/-- Table DCK-7. -/
def DCK_HIST_CTL_PRIO_MASK : Fld := ⟨0x600014, 0x0, 1, 0x0, 1, 8, 8, .rw, [255]⟩
/-- Table DCK-7. -/
def DCK_PREEMPT_VOID : Fld := ⟨0x600018, 0x0, 1, 0x0, 1, 0, 32, .ct, [0]⟩
/-- Table DCK-7. -/
def DCK_LD_REFUSALS : Fld := ⟨0x60001C, 0x0, 1, 0x0, 1, 0, 32, .ct, [0]⟩
/-- Table DCK-7. -/
def DCK_ENG_TMOS : Fld := ⟨0x600020, 0x0, 1, 0x0, 1, 0, 32, .ct, [0]⟩
/-- Table DCK-7. -/
def DCK_CTX_STALLS : Fld := ⟨0x600024, 0x0, 1, 0x0, 1, 0, 32, .ct, [0]⟩
/-- Table DCK-7. -/
def DCK_LATE_MSGS : Fld := ⟨0x600028, 0x0, 1, 0x0, 1, 0, 32, .ct, [0]⟩
/-- Table DCK-7. -/
def DCK_IPRIO : Fld := ⟨0x600030, 0x0, 1, 0x0, 1, 0, 18, .rw, [88436]⟩
/-- Table DCK-7. -/
def DCK_Q_DEPTH : Fld := ⟨0x600040, 0x4, 16, 0x0, 1, 0, 25, .ro, [0]⟩
/-- Table DCK-7. -/
def DCK_HIST : Fld := ⟨0x600080, 0x4, 16, 0x0, 1, 0, 32, .ct, [0]⟩
/-- Table DCK-7. -/
def DCK_POOL_CFG_PREEMPT_GAP : Fld := ⟨0x600100, 0x8, 32, 0x0, 1, 0, 3, .rw, [2]⟩
/-- Table DCK-7. -/
def DCK_POOL_CFG_PREEMPT_MAX : Fld := ⟨0x600100, 0x8, 32, 0x0, 1, 3, 3, .rw, [3]⟩
/-- Table DCK-7. -/
def DCK_POOL_CFG_PREEMPT_WAIT : Fld := ⟨0x600100, 0x8, 32, 0x0, 1, 8, 8, .rw, [32]⟩
/-- Table DCK-7. -/
def DCK_POOL_CFG_TMO : Fld := ⟨0x600100, 0x8, 32, 0x0, 1, 16, 16, .rw, [1000]⟩
/-- Table DCK-7. -/
def DCK_POOL_CFG2_STEAL_NS : Fld := ⟨0x600104, 0x8, 32, 0x0, 1, 0, 12, .rw, [64]⟩
/-- Table DCK-7. -/
def DCK_POOL_CFG2_LD_PREEMPT_TMO : Fld := ⟨0x600104, 0x8, 32, 0x0, 1, 16, 12, .rw, [10]⟩
/-- Table DCK-7, reset: pool. -/
def DCK_POOL_STAT_ENGINES : Fld := ⟨0x600200, 0x4, 32, 0x0, 1, 0, 9, .ro, [0]⟩
/-- Table DCK-7, reset: image. -/
def DCK_POOL_STAT_MODE : Fld := ⟨0x600200, 0x4, 32, 0x0, 1, 9, 2, .ro, [0]⟩
/-- Table DCK-7. -/
def DCK_POOL_STAT_FELLED : Fld := ⟨0x600200, 0x4, 32, 0x0, 1, 11, 9, .ro, [0]⟩
/-- Table DCK-7. -/
def DCK_POOL_LOAD : Fld := ⟨0x600280, 0x4, 32, 0x0, 1, 0, 11, .ro, [0]⟩
/-- Table DCK-7. -/
def DCK_PREEMPTS : Fld := ⟨0x600300, 0x4, 32, 0x0, 1, 0, 32, .ct, [0]⟩
/-- Table DCK-7, reset: table. -/
def DCK_ENG_STAT_POOL : Fld := ⟨0x600400, 0x4, 352, 0x0, 1, 0, 5, .ro, [0]⟩
/-- Table DCK-7. -/
def DCK_ENG_STAT_STATE : Fld := ⟨0x600400, 0x4, 352, 0x0, 1, 5, 3, .ro, [0]⟩
/-- Table DCK-7. -/
def DCK_ENG_STAT_LANDING : Fld := ⟨0x600400, 0x4, 352, 0x0, 1, 8, 7, .ro, [0]⟩
/-- Table DCK-7. -/
def DCK_ENG_STAT_TMOS : Fld := ⟨0x600400, 0x4, 352, 0x0, 1, 16, 2, .ro, [0]⟩
/-- Table MED-14. -/
def MED_CTL_SUSP_EN : Fld := ⟨0x900000, 0x100000, 2, 0x0, 1, 0, 1, .rw, [1]⟩
/-- Table MED-14. -/
def MED_CTL_CACHE_EN : Fld := ⟨0x900000, 0x100000, 2, 0x0, 1, 1, 1, .rw, [1]⟩
/-- Table MED-14. -/
def MED_CTL_MP_EN : Fld := ⟨0x900000, 0x100000, 2, 0x0, 1, 2, 1, .rw, [1]⟩
/-- Table MED-14. -/
def MED_STAT_GROUPS : Fld := ⟨0x900004, 0x100000, 2, 0x0, 1, 0, 8, .ro, [0]⟩
/-- Table MED-14. -/
def MED_STAT_KEEPER : Fld := ⟨0x900004, 0x100000, 2, 0x0, 1, 8, 1, .ro, [0]⟩
/-- Table MED-14. -/
def MED_SUSP_CFG_PRIO : Fld := ⟨0x900008, 0x100000, 2, 0x0, 1, 0, 3, .rw, [3]⟩
/-- Table MED-14. -/
def MED_SUSP_CFG_MAX_PROG : Fld := ⟨0x900008, 0x100000, 2, 0x0, 1, 4, 3, .rw, [2]⟩
/-- Table MED-14. -/
def MED_SUSP_CFG_MAX_ERASE : Fld := ⟨0x900008, 0x100000, 2, 0x0, 1, 8, 4, .rw, [8]⟩
/-- Table MED-14. -/
def MED_SUSP_CFG_SUSP_READS : Fld := ⟨0x900008, 0x100000, 2, 0x0, 1, 16, 4, .rw, [8]⟩
/-- Table MED-14. -/
def MED_SUSP_TIME_MIN_RUN_PROG : Fld := ⟨0x90000C, 0x100000, 2, 0x0, 1, 0, 8, .rw, [10]⟩
/-- Table MED-14. -/
def MED_SUSP_TIME_MIN_RUN_ERASE : Fld := ⟨0x90000C, 0x100000, 2, 0x0, 1, 8, 8, .rw, [30]⟩
/-- Table MED-14. -/
def MED_SUSP_TIME_HOLD : Fld := ⟨0x90000C, 0x100000, 2, 0x0, 1, 16, 8, .rw, [50]⟩
/-- Table MED-14. -/
def MED_SUSP_TIME_MIN_RESUME : Fld := ⟨0x90000C, 0x100000, 2, 0x0, 1, 24, 8, .rw, [20]⟩
/-- Table MED-14. -/
def MED_ZQ_CFG_SHORT_MS : Fld := ⟨0x900010, 0x100000, 2, 0x0, 1, 0, 8, .rw, [100]⟩
/-- Table MED-14. -/
def MED_CACHE_MAX : Fld := ⟨0x900014, 0x100000, 2, 0x0, 1, 0, 3, .rw, [4]⟩
/-- Table MED-14, reset: image. -/
def MED_RAW_EN : Fld := ⟨0x900020, 0x100000, 2, 0x4, 4, 0, 32, .rw, [0]⟩
/-- Table MED-14. -/
def MED_SUSPENDS : Fld := ⟨0x900040, 0x100000, 2, 0x0, 1, 0, 32, .ct, [0]⟩
/-- Table MED-14. -/
def MED_SUSP_LATE : Fld := ⟨0x900044, 0x100000, 2, 0x0, 1, 0, 32, .ct, [0]⟩
/-- Table MED-14. -/
def MED_RAW_DONE : Fld := ⟨0x900048, 0x100000, 2, 0x0, 1, 0, 32, .ct, [0]⟩
/-- Table MED-14. -/
def MED_RAW_REFUSED : Fld := ⟨0x90004C, 0x100000, 2, 0x0, 1, 0, 32, .ct, [0]⟩
/-- Table MED-14. -/
def MED_ARB_LOST : Fld := ⟨0x900050, 0x100000, 2, 0x0, 1, 0, 32, .ct, [0]⟩
/-- Table MED-14. -/
def MED_BACKSTOP_HITS : Fld := ⟨0x900054, 0x100000, 2, 0x0, 1, 0, 32, .ct, [0]⟩
/-- Table MED-14. -/
def MED_FORCED_CLAIMS : Fld := ⟨0x900058, 0x100000, 2, 0x0, 1, 0, 32, .ct, [0]⟩
/-- Table MED-14. -/
def MED_GRP_STAT_STATE : Fld := ⟨0x900080, 0x100000, 2, 0x4, 8, 0, 4, .ro, [0]⟩
/-- Table MED-14. -/
def MED_GRP_STAT_WIRE : Fld := ⟨0x900080, 0x100000, 2, 0x4, 8, 4, 1, .ro, [0]⟩
/-- Table MED-14. -/
def MED_GRP_STAT_DRIVE : Fld := ⟨0x900080, 0x100000, 2, 0x4, 8, 5, 1, .ro, [0]⟩
/-- Table MED-14. -/
def MED_GRP_STAT_FORCED : Fld := ⟨0x900080, 0x100000, 2, 0x4, 8, 6, 1, .ro, [0]⟩
/-- Table MED-14, reset: image. -/
def MED_GRP_STAT_HOME : Fld := ⟨0x900080, 0x100000, 2, 0x4, 8, 7, 1, .ro, [0]⟩
/-- Table MED-14. -/
def MED_GRP_CMD : Fld := ⟨0x9000A0, 0x100000, 2, 0x4, 8, 0, 2, .wo, [0]⟩
/-- Table MED-14, reset: image. -/
def MED_CH_CTL_RATE : Fld := ⟨0x901000, 0x100000, 2, 0x20, 128, 0, 3, .rw, [0]⟩
/-- Table MED-14. -/
def MED_CH_CTL_RETRAIN : Fld := ⟨0x901000, 0x100000, 2, 0x20, 128, 8, 1, .wo, [0]⟩
/-- Table MED-14. -/
def MED_CH_STAT_STATE : Fld := ⟨0x901004, 0x100000, 2, 0x20, 128, 0, 3, .ro, [0]⟩
/-- Table MED-14. -/
def MED_CH_STAT_RATE_NOW : Fld := ⟨0x901004, 0x100000, 2, 0x20, 128, 3, 3, .ro, [0]⟩
/-- Table MED-14. -/
def MED_CH_STAT_VOLS : Fld := ⟨0x901004, 0x100000, 2, 0x20, 128, 6, 5, .ro, [0]⟩
/-- Table MED-14. -/
def MED_CH_STAT_DRV_EN : Fld := ⟨0x901004, 0x100000, 2, 0x20, 128, 11, 1, .ro, [0]⟩
/-- Table MED-14. -/
def MED_CH_RETRAINS : Fld := ⟨0x901008, 0x100000, 2, 0x20, 128, 0, 32, .ct, [0]⟩
/-- Table MED-14. -/
def MED_CH_TRAIN_FAILS : Fld := ⟨0x90100C, 0x100000, 2, 0x20, 128, 0, 8, .ct, [0]⟩
/-- Table MED-14. -/
def MED_LUN_STAT_STATE : Fld := ⟨0x920000, 0x100000, 2, 0x4, 8192, 0, 4, .ro, [0]⟩
/-- Table MED-14. -/
def MED_LUN_STAT_QDEPTH : Fld := ⟨0x920000, 0x100000, 2, 0x4, 8192, 4, 6, .ro, [0]⟩
/-- Table MED-14. -/
def MED_LUN_STAT_SUSPS : Fld := ⟨0x920000, 0x100000, 2, 0x4, 8192, 10, 3, .ro, [0]⟩
/-- Table MED-14. -/
def MED_LUN_STAT_TMOS : Fld := ⟨0x920000, 0x100000, 2, 0x4, 8192, 13, 2, .ro, [0]⟩
/-- Table REL-10. -/
def MED_REL_CTL_UC_EN : Fld := ⟨0x900200, 0x100000, 2, 0x0, 1, 0, 1, .rw, [1]⟩
/-- Table REL-10, reset: header. -/
def MED_REL_CTL_UC_DEPTH : Fld := ⟨0x900200, 0x100000, 2, 0x0, 1, 1, 2, .rw, [0]⟩
/-- Table REL-10. -/
def MED_REL_CTL_PATROL_EN : Fld := ⟨0x900200, 0x100000, 2, 0x0, 1, 3, 1, .rw, [1]⟩
/-- Table REL-10. -/
def MED_REL_CTL_WL_EN : Fld := ⟨0x900200, 0x100000, 2, 0x0, 1, 4, 1, .rw, [1]⟩
/-- Table REL-10. -/
def MED_UC_PRED_UC_SW : Fld := ⟨0x900204, 0x100000, 2, 0x0, 1, 0, 12, .rw, [96]⟩
/-- Table REL-10. -/
def MED_UC_PRED_UC_AGE : Fld := ⟨0x900204, 0x100000, 2, 0x0, 1, 12, 4, .rw, [10]⟩
/-- Table REL-10. -/
def MED_UC_PRED_UC_RDC : Fld := ⟨0x900204, 0x100000, 2, 0x0, 1, 16, 8, .rw, [128]⟩
/-- Table REL-10. -/
def MED_REFRESH_CFG_REFRESH_STEP : Fld := ⟨0x900208, 0x100000, 2, 0x0, 1, 0, 4, .rw, [3]⟩
/-- Table REL-10. -/
def MED_REFRESH_CFG_REFRESH_AGE : Fld := ⟨0x900208, 0x100000, 2, 0x0, 1, 4, 4, .rw, [13]⟩
/-- Table REL-10. -/
def MED_REFRESH_CFG_DISTURB_LIMIT : Fld := ⟨0x900208, 0x100000, 2, 0x0, 1, 8, 8, .rw, [160]⟩
/-- Table REL-10. -/
def MED_REFRESH_CFG_PATROL_HOURS : Fld := ⟨0x900208, 0x100000, 2, 0x0, 1, 16, 16, .rw, [168]⟩
/-- Table REL-10. -/
def MED_GC_CFG_GC_LOW : Fld := ⟨0x90020C, 0x100000, 2, 0x0, 1, 0, 8, .rw, [8]⟩
/-- Table REL-10. -/
def MED_GC_CFG_GC_HIGH : Fld := ⟨0x90020C, 0x100000, 2, 0x0, 1, 8, 8, .rw, [16]⟩
/-- Table REL-10. -/
def MED_GC_CFG_GC_URGENT : Fld := ⟨0x90020C, 0x100000, 2, 0x0, 1, 16, 8, .rw, [2]⟩
/-- Table REL-10. -/
def MED_GC_CFG_WEAR_GAP : Fld := ⟨0x90020C, 0x100000, 2, 0x0, 1, 24, 8, .rw, [12]⟩
/-- Table REL-10, reset: by R364. -/
def MED_HOURS : Fld := ⟨0x900210, 0x100000, 2, 0x0, 1, 0, 32, .rw, [0]⟩
/-- Table REL-10. -/
def MED_REL_STAT_SYNCED : Fld := ⟨0x900214, 0x100000, 2, 0x0, 1, 0, 1, .ro, [0]⟩
/-- Table REL-10. -/
def MED_REL_STAT_PATROL_FAST : Fld := ⟨0x900214, 0x100000, 2, 0x0, 1, 1, 1, .ro, [0]⟩
/-- Table REL-10. -/
def MED_REL_STAT_REFUGE_READY : Fld := ⟨0x900214, 0x100000, 2, 0x0, 1, 2, 1, .ro, [0]⟩
/-- Table REL-10. -/
def MED_REL_STAT_RESTORING : Fld := ⟨0x900214, 0x100000, 2, 0x0, 1, 3, 1, .ro, [0]⟩
/-- Table REL-10. -/
def MED_RING_SEL_TSET : Fld := ⟨0x900218, 0x100000, 2, 0x0, 1, 0, 3, .rw, [0]⟩
/-- Table REL-10. -/
def MED_RING_SEL_ROW : Fld := ⟨0x900218, 0x100000, 2, 0x0, 1, 8, 8, .rw, [0]⟩
/-- Table REL-10, reset: image. -/
def MED_RING_DATA : Fld := ⟨0x900220, 0x100000, 2, 0x4, 4, 0, 32, .rw, [0]⟩
/-- Table REL-10. -/
def MED_REFUGE_MIB : Fld := ⟨0x900230, 0x100000, 2, 0x0, 1, 0, 24, .ro, [0]⟩
/-- Table REL-10. -/
def MED_DEGRADED : Fld := ⟨0x900234, 0x100000, 2, 0x0, 1, 0, 24, .ro, [0]⟩
/-- Table REL-10. -/
def MED_WEAR_MAX : Fld := ⟨0x900238, 0x100000, 2, 0x0, 1, 0, 16, .ro, [0]⟩
/-- Table REL-10. -/
def MED_WEAR_MIN : Fld := ⟨0x90023C, 0x100000, 2, 0x0, 1, 0, 16, .ro, [0]⟩
/-- Table REL-10. -/
def MED_FREE_STRIPES : Fld := ⟨0x900240, 0x100000, 2, 0x4, 8, 0, 20, .ro, [0]⟩
/-- Table REL-10. -/
def MED_LADDER_HIST : Fld := ⟨0x900260, 0x100000, 2, 0x4, 16, 0, 32, .ct, [0]⟩
/-- Table REL-10. -/
def MED_DEC_SOFT : Fld := ⟨0x9002A0, 0x100000, 2, 0x0, 1, 0, 32, .ct, [0]⟩
/-- Table REL-10. -/
def MED_DEC_REBUILD : Fld := ⟨0x9002A4, 0x100000, 2, 0x0, 1, 0, 32, .ct, [0]⟩
/-- Table REL-10. -/
def MED_DEC_FAIL : Fld := ⟨0x9002A8, 0x100000, 2, 0x0, 1, 0, 32, .ct, [0]⟩
/-- Table REL-10. -/
def MED_CRC_MISCORRECT : Fld := ⟨0x9002AC, 0x100000, 2, 0x0, 1, 0, 32, .ct, [0]⟩
/-- Table REL-10. -/
def MED_UC_ISSUED : Fld := ⟨0x9002B0, 0x100000, 2, 0x0, 1, 0, 32, .ct, [0]⟩
/-- Table REL-10. -/
def MED_UC_USED : Fld := ⟨0x9002B4, 0x100000, 2, 0x0, 1, 0, 32, .ct, [0]⟩
/-- Table REL-10. -/
def MED_UC_CANCELLED : Fld := ⟨0x9002B8, 0x100000, 2, 0x0, 1, 0, 32, .ct, [0]⟩
/-- Table REL-10. -/
def MED_UC_DIE : Fld := ⟨0x9002BC, 0x100000, 2, 0x0, 1, 0, 32, .ct, [0]⟩
/-- Table REL-10. -/
def MED_UC_NOBUF : Fld := ⟨0x9002C0, 0x100000, 2, 0x0, 1, 0, 32, .ct, [0]⟩
/-- Table REL-10. -/
def MED_REFRESHES : Fld := ⟨0x9002C4, 0x100000, 2, 0x0, 1, 0, 32, .ct, [0]⟩
/-- Table REL-10. -/
def MED_GC_STRIPES : Fld := ⟨0x9002C8, 0x100000, 2, 0x0, 1, 0, 32, .ct, [0]⟩
/-- Table REL-10. -/
def MED_FELL_COUNT : Fld := ⟨0x9002CC, 0x100000, 2, 0x0, 1, 0, 18, .ro, [0]⟩
/-- Table REL-10. -/
def MED_FELL_OVERFLOW : Fld := ⟨0x9002D0, 0x100000, 2, 0x0, 1, 0, 32, .ct, [0]⟩
/-- Table LVE-10. -/
def LVE_CTL_BUNDLE_EN : Fld := ⟨0xB00000, 0x0, 1, 0x0, 1, 0, 2, .rw, [3]⟩
/-- Table LVE-10. -/
def LVE_CTL_AUTO_HANDBACK : Fld := ⟨0xB00000, 0x0, 1, 0x0, 1, 2, 1, .rw, [1]⟩
/-- Table LVE-10. -/
def LVE_CTL_FORCE_EN : Fld := ⟨0xB00000, 0x0, 1, 0x0, 1, 3, 1, .rw, [0]⟩
/-- Table LVE-10. -/
def LVE_CTL_PROBE_EN : Fld := ⟨0xB00000, 0x0, 1, 0x0, 1, 4, 1, .rw, [1]⟩
/-- Table LVE-10. -/
def LVE_STAT_PAIR : Fld := ⟨0xB00004, 0x0, 1, 0x0, 1, 0, 3, .ro, [0]⟩
/-- Table LVE-10. -/
def LVE_STAT_ROLE : Fld := ⟨0xB00004, 0x0, 1, 0x0, 1, 3, 1, .ro, [0]⟩
/-- Table LVE-10. -/
def LVE_STAT_REFUSE : Fld := ⟨0xB00004, 0x0, 1, 0x0, 1, 4, 4, .ro, [0]⟩
/-- Table LVE-10. -/
def LVE_STAT_DEAD : Fld := ⟨0xB00004, 0x0, 1, 0x0, 1, 8, 1, .ro, [0]⟩
/-- Table LVE-10. -/
def LVE_STAT_WIRE_ALIVE : Fld := ⟨0xB00004, 0x0, 1, 0x0, 1, 9, 1, .ro, [0]⟩
/-- Table LVE-10. -/
def LVE_STAT_LINK_ALIVE : Fld := ⟨0xB00004, 0x0, 1, 0x0, 1, 10, 1, .ro, [0]⟩
/-- Table LVE-10. -/
def LVE_STAT_PFAIL_RX : Fld := ⟨0xB00004, 0x0, 1, 0x0, 1, 11, 1, .ro, [0]⟩
/-- Table LVE-10. -/
def LVE_PARTNER_ID_LO : Fld := ⟨0xB00008, 0x0, 1, 0x0, 1, 0, 32, .rl, [0]⟩
/-- Table LVE-10. -/
def LVE_PARTNER_ID_HI : Fld := ⟨0xB0000C, 0x0, 1, 0x0, 1, 0, 32, .rs, [0]⟩
/-- Table LVE-10. -/
def LVE_DEATH_CFG_WIRE_US : Fld := ⟨0xB00010, 0x0, 1, 0x0, 1, 0, 8, .rw, [20]⟩
/-- Table LVE-10. -/
def LVE_DEATH_CFG_LINK_US : Fld := ⟨0xB00010, 0x0, 1, 0x0, 1, 8, 8, .rw, [10]⟩
/-- Table LVE-10. -/
def LVE_DEATH_CFG_DEATH_US : Fld := ⟨0xB00010, 0x0, 1, 0x0, 1, 16, 12, .rw, [100]⟩
/-- Table LVE-10. -/
def LVE_ORPHAN : Fld := ⟨0xB00014, 0x0, 1, 0x0, 1, 0, 16, .rw, [0]⟩
/-- Table LVE-10, reset: DIRTY_LIMIT. -/
def LVE_DIRTY_EFF : Fld := ⟨0xB00018, 0x0, 1, 0x0, 1, 0, 24, .ro, [0]⟩
/-- Table LVE-10. -/
def LVE_HANDBACK : Fld := ⟨0xB0001C, 0x0, 1, 0x0, 1, 0, 32, .wo, [0]⟩
/-- Table LVE-10. -/
def LVE_PFAIL_CFG_ACK_US : Fld := ⟨0xB00020, 0x0, 1, 0x0, 1, 0, 8, .rw, [20]⟩
/-- Table LVE-10. -/
def LVE_FOREIGN_DIRTY : Fld := ⟨0xB00024, 0x0, 1, 0x0, 1, 0, 24, .ro, [0]⟩
/-- Table LVE-10. -/
def LVE_RESYNC_LEFT : Fld := ⟨0xB00028, 0x0, 1, 0x0, 1, 0, 24, .ro, [0]⟩
/-- Table LVE-10. -/
def LVE_MIRRORS : Fld := ⟨0xB00040, 0x0, 1, 0x0, 1, 0, 32, .ct, [0]⟩
/-- Table LVE-10. -/
def LVE_MIRROR_NS_MAX : Fld := ⟨0xB00044, 0x0, 1, 0x0, 1, 0, 32, .ct, [0]⟩
/-- Table LVE-10. -/
def LVE_SOLO_ACKS : Fld := ⟨0xB00048, 0x0, 1, 0x0, 1, 0, 32, .ct, [0]⟩
/-- Table LVE-10. -/
def LVE_TAKEOVERS : Fld := ⟨0xB0004C, 0x0, 1, 0x0, 1, 0, 16, .ct, [0]⟩
/-- Table LVE-10. -/
def LVE_PROBES : Fld := ⟨0xB00050, 0x0, 1, 0x0, 1, 0, 32, .ct, [0]⟩
/-- Table LVE-10. -/
def LVE_MSG_UNKNOWN : Fld := ⟨0xB00054, 0x0, 1, 0x0, 1, 0, 32, .ct, [0]⟩
/-- Table LVE-10, reset: image. -/
def LVE_BUNDLE_CTL_RATE : Fld := ⟨0xB00100, 0x40, 2, 0x0, 1, 0, 2, .rw, [0]⟩
/-- Table LVE-10. -/
def LVE_BUNDLE_CTL_RETRAIN : Fld := ⟨0xB00100, 0x40, 2, 0x0, 1, 4, 1, .wo, [0]⟩
/-- Table LVE-10. -/
def LVE_BUNDLE_STAT_STATE : Fld := ⟨0xB00104, 0x40, 2, 0x0, 1, 0, 3, .ro, [0]⟩
/-- Table LVE-10. -/
def LVE_BUNDLE_STAT_WIDTH : Fld := ⟨0xB00104, 0x40, 2, 0x0, 1, 3, 2, .ro, [0]⟩
/-- Table LVE-10. -/
def LVE_BUNDLE_STAT_REVERSED : Fld := ⟨0xB00104, 0x40, 2, 0x0, 1, 5, 1, .ro, [0]⟩
/-- Table LVE-10. -/
def LVE_BUNDLE_STAT_LANES : Fld := ⟨0xB00104, 0x40, 2, 0x0, 1, 16, 16, .ro, [0]⟩
/-- Table LVE-10. -/
def LVE_FLITS_TX : Fld := ⟨0xB00108, 0x40, 2, 0x0, 1, 0, 32, .ct, [0]⟩
/-- Table LVE-10. -/
def LVE_FEC_CORR : Fld := ⟨0xB0010C, 0x40, 2, 0x0, 1, 0, 32, .ct, [0]⟩
/-- Table LVE-10. -/
def LVE_FEC_LOST : Fld := ⟨0xB00110, 0x40, 2, 0x0, 1, 0, 32, .ct, [0]⟩
/-- Table LVE-10. -/
def LVE_MAC_FAILS : Fld := ⟨0xB00114, 0x40, 2, 0x0, 1, 0, 32, .ct, [0]⟩
/-- Table LVE-10. -/
def LVE_REPLAYS : Fld := ⟨0xB00118, 0x40, 2, 0x0, 1, 0, 32, .ct, [0]⟩
/-- Table LVE-10. -/
def LVE_RETRAINS : Fld := ⟨0xB0011C, 0x40, 2, 0x0, 1, 0, 32, .ct, [0]⟩
/-- Table FLT-11. -/
def EVT_CTL_INT_EN : Fld := ⟨0x1100000, 0x0, 1, 0x0, 1, 0, 1, .rw, [0]⟩
/-- Table FLT-11. -/
def EVT_CTL_PIN_EN : Fld := ⟨0x1100000, 0x0, 1, 0x0, 1, 1, 1, .rw, [0]⟩
/-- Table FLT-11. -/
def EVT_CTL_MIN_SEV : Fld := ⟨0x1100000, 0x0, 1, 0x0, 1, 2, 2, .rw, [2]⟩
/-- Table FLT-11. -/
def EVT_CTL_PIN_SEV : Fld := ⟨0x1100000, 0x0, 1, 0x0, 1, 4, 2, .rw, [3]⟩
/-- Table FLT-11. -/
def EVT_CTL_VECTOR : Fld := ⟨0x1100000, 0x0, 1, 0x0, 1, 16, 11, .rw, [0]⟩
/-- Table FLT-11. -/
def EVT_STAT_PIN : Fld := ⟨0x1100004, 0x0, 1, 0x0, 1, 0, 1, .ro, [0]⟩
/-- Table FLT-11. -/
def EVT_HEAD : Fld := ⟨0x1100008, 0x0, 1, 0x0, 1, 0, 12, .ro, [0]⟩
/-- Table FLT-11. -/
def EVT_SEQ : Fld := ⟨0x110000C, 0x0, 1, 0x0, 1, 0, 32, .ro, [1]⟩
/-- Table FLT-11. -/
def EVT_ACK : Fld := ⟨0x1100010, 0x0, 1, 0x0, 1, 0, 32, .rw, [1]⟩
/-- Table FLT-11. -/
def EVT_PENDING : Fld := ⟨0x1100014, 0x0, 1, 0x0, 1, 0, 13, .ro, [0]⟩
/-- Table FLT-11. -/
def EVT_LOST : Fld := ⟨0x1100018, 0x0, 1, 0x0, 1, 0, 32, .ct, [0]⟩
/-- Table FLT-11. -/
def EVT_SUPPRESSED : Fld := ⟨0x110001C, 0x0, 1, 0x0, 1, 0, 32, .ct, [0]⟩
/-- Table FLT-11. -/
def EVT_RATE : Fld := ⟨0x1100020, 0x0, 1, 0x0, 1, 0, 8, .rw, [64]⟩
/-- Table FLT-11. -/
def EVT_TAG_SEL : Fld := ⟨0x1100040, 0x0, 1, 0x0, 1, 0, 17, .rw, [0]⟩
/-- Table FLT-11. -/
def EVT_TAG_DATA : Fld := ⟨0x1100080, 0x4, 16, 0x0, 1, 0, 32, .ro, [0]⟩
/-- Table FLT-12. -/
def INJ_CTL_ENABLE : Fld := ⟨0x1400000, 0x0, 1, 0x0, 1, 0, 1, .rw, [0]⟩
/-- Table FLT-12. -/
def INJ_SEED : Fld := ⟨0x1400004, 0x0, 1, 0x0, 1, 0, 32, .rw, [1]⟩
/-- Table FLT-12. -/
def INJ_STAT_ACTIVE : Fld := ⟨0x1400008, 0x0, 1, 0x0, 1, 0, 16, .ro, [0]⟩
/-- Table FLT-12. -/
def INJ_GEN_CTL_POINT : Fld := ⟨0x1400100, 0x20, 16, 0x0, 1, 0, 5, .rw, [0]⟩
/-- Table FLT-12. -/
def INJ_GEN_CTL_MODE : Fld := ⟨0x1400100, 0x20, 16, 0x0, 1, 5, 3, .rw, [0]⟩
/-- Table FLT-12. -/
def INJ_GEN_CTL_TRIGGER : Fld := ⟨0x1400100, 0x20, 16, 0x0, 1, 8, 2, .rw, [0]⟩
/-- Table FLT-12. -/
def INJ_GEN_CTL_ARM : Fld := ⟨0x1400100, 0x20, 16, 0x0, 1, 12, 1, .rw, [0]⟩
/-- Table FLT-12. -/
def INJ_GEN_CTL_FILTER : Fld := ⟨0x1400100, 0x20, 16, 0x0, 1, 16, 8, .rw, [0]⟩
/-- Table FLT-12. -/
def INJ_GEN_RATE : Fld := ⟨0x1400104, 0x20, 16, 0x0, 1, 0, 24, .rw, [1]⟩
/-- Table FLT-12. -/
def INJ_GEN_CORR_OFFSET : Fld := ⟨0x1400108, 0x20, 16, 0x0, 1, 0, 9, .rw, [0]⟩
/-- Table FLT-12. -/
def INJ_GEN_CORR_BYTES : Fld := ⟨0x1400108, 0x20, 16, 0x0, 1, 16, 4, .rw, [0]⟩
/-- Table FLT-12. -/
def INJ_GEN_SEEN : Fld := ⟨0x140010C, 0x20, 16, 0x0, 1, 0, 32, .ct, [0]⟩
/-- Table FLT-12. -/
def INJ_GEN_HITS : Fld := ⟨0x1400110, 0x20, 16, 0x0, 1, 0, 32, .ct, [0]⟩
/-- Table HBM-4. -/
def HBM_CTL_REF_MODE : Fld := ⟨0xD00000, 0x0, 1, 0x0, 1, 0, 1, .rw, [1]⟩
/-- Table HBM-4. -/
def HBM_CTL_RH_EN : Fld := ⟨0xD00000, 0x0, 1, 0x0, 1, 1, 1, .rw, [1]⟩
/-- Table HBM-4. -/
def HBM_CTL_RH_MODE : Fld := ⟨0xD00000, 0x0, 1, 0x0, 1, 2, 1, .rw, [0]⟩
/-- Table HBM-4. -/
def HBM_CTL_RH_RADIUS : Fld := ⟨0xD00000, 0x0, 1, 0x0, 1, 3, 2, .rw, [2]⟩
/-- Table HBM-4. -/
def HBM_CTL_FORCE_DOUBLE : Fld := ⟨0xD00000, 0x0, 1, 0x0, 1, 5, 1, .rw, [0]⟩
/-- Table HBM-4. -/
def HBM_RH_THRESH : Fld := ⟨0xD00004, 0x0, 1, 0x0, 1, 0, 16, .rw, [2048]⟩
/-- Table HBM-4. -/
def HBM_SR_CTL_IDLE_US : Fld := ⟨0xD00008, 0x0, 1, 0x0, 1, 0, 16, .rw, [0]⟩
/-- Table HBM-4. -/
def HBM_TOP_LO : Fld := ⟨0xD00010, 0x0, 1, 0x0, 1, 0, 32, .rl, [0]⟩
/-- Table HBM-4. -/
def HBM_TOP_HI : Fld := ⟨0xD00014, 0x0, 1, 0x0, 1, 0, 32, .rs, [36]⟩
/-- Table HBM-4. -/
def HBM_FELL_FELLED : Fld := ⟨0xD00018, 0x0, 1, 0x0, 1, 0, 4, .ro, [0]⟩
/-- Table HBM-4, reset: layout. -/
def HBM_FELL_MAX : Fld := ⟨0xD00018, 0x0, 1, 0x0, 1, 4, 4, .ro, [0]⟩
/-- Table HBM-4. -/
def HBM_EVAC_PC : Fld := ⟨0xD0001C, 0x0, 1, 0x0, 1, 0, 7, .ro, [0]⟩
/-- Table HBM-4. -/
def HBM_EVAC_ACTIVE : Fld := ⟨0xD0001C, 0x0, 1, 0x0, 1, 7, 1, .ro, [0]⟩
/-- Table HBM-4. -/
def HBM_EVAC_DONE_MIB : Fld := ⟨0xD0001C, 0x0, 1, 0x0, 1, 8, 11, .ro, [0]⟩
/-- Table HBM-4, reset: Table HBM-2. -/
def HBM_LAT_TGT : Fld := ⟨0xD00020, 0x4, 8, 0x0, 1, 0, 16, .rw, [200, 400, 300, 500, 1000, 2000, 1000, 5000]⟩
/-- Table HBM-4. -/
def HBM_TEMP_DEGC : Fld := ⟨0xD00040, 0x4, 4, 0x0, 1, 0, 8, .ro, [0]⟩
/-- Table HBM-4. -/
def HBM_TEMP_DOUBLED : Fld := ⟨0xD00040, 0x4, 4, 0x0, 1, 8, 1, .ro, [0]⟩
/-- Table HBM-4. -/
def HBM_CE : Fld := ⟨0xD00060, 0x0, 1, 0x0, 1, 0, 32, .ct, [0]⟩
/-- Table HBM-4. -/
def HBM_UE : Fld := ⟨0xD00064, 0x0, 1, 0x0, 1, 0, 32, .ct, [0]⟩
/-- Table HBM-4. -/
def HBM_URGENT : Fld := ⟨0xD00068, 0x0, 1, 0x0, 1, 0, 32, .ct, [0]⟩
/-- Table HBM-4. -/
def HBM_REF_FORCED : Fld := ⟨0xD0006C, 0x0, 1, 0x0, 1, 0, 32, .ct, [0]⟩
/-- Table HBM-4. -/
def HBM_RH_TARGETED : Fld := ⟨0xD00070, 0x0, 1, 0x0, 1, 0, 32, .ct, [0]⟩
/-- Table HBM-4. -/
def HBM_RH_TBL_ERR : Fld := ⟨0xD00074, 0x0, 1, 0x0, 1, 0, 32, .ct, [0]⟩
/-- Table HBM-4. -/
def HBM_SR_ENTRIES : Fld := ⟨0xD00078, 0x0, 1, 0x0, 1, 0, 32, .ct, [0]⟩
/-- Table HBM-4. -/
def HBM_SR_CANCELS : Fld := ⟨0xD0007C, 0x0, 1, 0x0, 1, 0, 32, .ct, [0]⟩
/-- Table HBM-4. -/
def HBM_SR_ADDED_NS : Fld := ⟨0xD00080, 0x0, 1, 0x0, 1, 0, 32, .ct, [0]⟩
/-- Table HBM-4. -/
def HBM_RETRAINS : Fld := ⟨0xD00084, 0x0, 1, 0x0, 1, 0, 32, .ct, [0]⟩
/-- Table HBM-4. -/
def HBM_RETRAIN_FAILS : Fld := ⟨0xD00088, 0x0, 1, 0x0, 1, 0, 32, .ct, [0]⟩
/-- Table HBM-4. -/
def HBM_PC_STAT_STATE : Fld := ⟨0xD00800, 0x10, 128, 0x0, 1, 0, 2, .ro, [0]⟩
/-- Table HBM-4. -/
def HBM_PC_STAT_SR : Fld := ⟨0xD00800, 0x10, 128, 0x0, 1, 2, 1, .ro, [0]⟩
/-- Table HBM-4. -/
def HBM_PC_STAT_RH_FALLBACK : Fld := ⟨0xD00800, 0x10, 128, 0x0, 1, 3, 1, .ro, [0]⟩
/-- Table HBM-4. -/
def HBM_PC_STAT_DEBT : Fld := ⟨0xD00800, 0x10, 128, 0x0, 1, 4, 4, .ro, [0]⟩
/-- Table HBM-4. -/
def HBM_PC_CE : Fld := ⟨0xD00804, 0x10, 128, 0x0, 1, 0, 32, .ct, [0]⟩
/-- Table HBM-4. -/
def HBM_PC_UE : Fld := ⟨0xD00808, 0x10, 128, 0x0, 1, 0, 32, .ct, [0]⟩
/-- Table HBM-4. -/
def HBM_PC_RH : Fld := ⟨0xD0080C, 0x10, 128, 0x0, 1, 0, 32, .ct, [0]⟩
/-- Table HBM-5. -/
def SPM_CTL_SWEEP_EN : Fld := ⟨0xE00000, 0x0, 1, 0x0, 1, 0, 1, .rw, [1]⟩
/-- Table HBM-5. -/
def SPM_CTL_FAB_SWEEP_EN : Fld := ⟨0xE00000, 0x0, 1, 0x0, 1, 1, 1, .rw, [0]⟩
/-- Table HBM-5. -/
def SPM_SWEEP_CFG_STEP_NS : Fld := ⟨0xE00004, 0x0, 1, 0x0, 1, 0, 16, .rw, [1000]⟩
/-- Table HBM-5. -/
def SPM_SWEEP_PASS : Fld := ⟨0xE00008, 0x0, 1, 0x0, 1, 0, 32, .ct, [0]⟩
/-- Table HBM-5. -/
def SPM_CE : Fld := ⟨0xE0000C, 0x0, 1, 0x0, 1, 0, 32, .ct, [0]⟩
/-- Table HBM-5. -/
def SPM_UE : Fld := ⟨0xE00010, 0x0, 1, 0x0, 1, 0, 32, .ct, [0]⟩
/-- Table HBM-5. -/
def SPM_SWEEP_FAILS : Fld := ⟨0xE00014, 0x0, 1, 0x0, 1, 0, 32, .ct, [0]⟩
/-- Table HBM-5. -/
def SPM_ATOMICS : Fld := ⟨0xE00018, 0x0, 1, 0x0, 1, 0, 32, .ct, [0]⟩
/-- Table HBM-5. -/
def SPM_DENIED : Fld := ⟨0xE0001C, 0x0, 1, 0x0, 1, 0, 32, .ct, [0]⟩
/-- Table HBM-5. -/
def SPM_FAB_SWEEP_LO : Fld := ⟨0xE00020, 0x0, 1, 0x0, 1, 0, 32, .rl, [0]⟩
/-- Table HBM-5. -/
def SPM_FAB_SWEEP_HI : Fld := ⟨0xE00024, 0x0, 1, 0x0, 1, 0, 32, .rs, [0]⟩
/-- Table HBM-5, reset: image. -/
def SPM_BANK_STAT_MASTER : Fld := ⟨0xE00040, 0x4, 24, 0x0, 1, 0, 4, .ro, [0]⟩
/-- Table HBM-5, reset: image. -/
def SPM_BANK_STAT_GROUP : Fld := ⟨0xE00040, 0x4, 24, 0x0, 1, 4, 3, .ro, [0]⟩
/-- Table HBM-5. -/
def SPM_BANK_STAT_SPARES : Fld := ⟨0xE00040, 0x4, 24, 0x0, 1, 7, 6, .ro, [32]⟩
/-- Table HBM-5. -/
def SPM_RGN_A_BASE : Fld := ⟨0xE00100, 0x40, 6, 0x8, 8, 0, 10, .rw, [0]⟩
/-- Table HBM-5. -/
def SPM_RGN_A_SIZE : Fld := ⟨0xE00100, 0x40, 6, 0x8, 8, 16, 10, .rw, [0]⟩
/-- Table HBM-5. -/
def SPM_RGN_A_WR : Fld := ⟨0xE00100, 0x40, 6, 0x8, 8, 31, 1, .rw, [0]⟩
/-- Table HBM-5. -/
def SPM_RGN_B_MASK : Fld := ⟨0xE00104, 0x40, 6, 0x8, 8, 0, 16, .rw, [0]⟩
/-- Table CRY-11. -/
def CRY_CTL_REKEY_EN : Fld := ⟨0xC00000, 0x0, 1, 0x0, 1, 0, 1, .rw, [1]⟩
/-- Table CRY-11. -/
def CRY_CTL_AUTO_RESEAL : Fld := ⟨0xC00000, 0x0, 1, 0x0, 1, 1, 1, .rw, [1]⟩
/-- Table CRY-11. -/
def CRY_STAT_KEYS : Fld := ⟨0xC00004, 0x0, 1, 0x0, 1, 0, 8, .ro, [0]⟩
/-- Table CRY-11. -/
def CRY_STAT_REGION : Fld := ⟨0xC00004, 0x0, 1, 0x0, 1, 8, 3, .ro, [0]⟩
/-- Table CRY-11. -/
def CRY_STAT_REKEY : Fld := ⟨0xC00004, 0x0, 1, 0x0, 1, 11, 1, .ro, [0]⟩
/-- Table CRY-11. -/
def CRY_STAT_DAMAGED : Fld := ⟨0xC00004, 0x0, 1, 0x0, 1, 16, 8, .ro, [0]⟩
/-- Table CRY-11. -/
def CRY_REKEY_CFG_MARK : Fld := ⟨0xC00008, 0x0, 1, 0x0, 1, 0, 16, .rw, [65280]⟩
/-- Table CRY-11. -/
def CRY_REKEY_CFG_STEP_NS : Fld := ⟨0xC00008, 0x0, 1, 0x0, 1, 16, 16, .rw, [1000]⟩
/-- Table CRY-11. -/
def CRY_REKEY_GO : Fld := ⟨0xC0000C, 0x0, 1, 0x0, 1, 0, 32, .wo, [0]⟩
/-- Table CRY-11. -/
def CRY_TAG_FAILS : Fld := ⟨0xC00040, 0x0, 1, 0x0, 1, 0, 32, .ct, [0]⟩
/-- Table CRY-11. -/
def CRY_NODE_FAILS : Fld := ⟨0xC00044, 0x0, 1, 0x0, 1, 0, 32, .ct, [0]⟩
/-- Table CRY-11. -/
def CRY_MINOR_OVF : Fld := ⟨0xC00048, 0x0, 1, 0x0, 1, 0, 32, .ct, [0]⟩
/-- Table CRY-11. -/
def CRY_WRAP_STALLS : Fld := ⟨0xC0004C, 0x0, 1, 0x0, 1, 0, 32, .ct, [0]⟩
/-- Table CRY-11. -/
def CRY_HEALS : Fld := ⟨0xC00050, 0x0, 1, 0x0, 1, 0, 32, .ct, [0]⟩
/-- Table CRY-11. -/
def CRY_CACHE_MISS : Fld := ⟨0xC00054, 0x0, 1, 0x0, 1, 0, 32, .ct, [0]⟩
/-- Table CRY-11. -/
def CRY_LINK_UPDATES : Fld := ⟨0xC00058, 0x0, 1, 0x0, 1, 0, 32, .ct, [0]⟩
/-- Table CRY-11. -/
def CRY_KEY_DENIED : Fld := ⟨0xC0005C, 0x0, 1, 0x0, 1, 0, 32, .ct, [0]⟩
/-- Table CRY-11. -/
def CRY_KEY_SRC_LO : Fld := ⟨0xC00080, 0x0, 1, 0x0, 1, 0, 32, .rl, [0]⟩
/-- Table CRY-11. -/
def CRY_KEY_SRC_HI : Fld := ⟨0xC00084, 0x0, 1, 0x0, 1, 0, 32, .rs, [0]⟩
/-- Table CRY-11. -/
def CRY_KEY_CMD_KID : Fld := ⟨0xC00088, 0x0, 1, 0x0, 1, 0, 8, .wo, [0]⟩
/-- Table CRY-11. -/
def CRY_KEY_CMD_OP : Fld := ⟨0xC00088, 0x0, 1, 0x0, 1, 8, 2, .wo, [0]⟩
/-- Table CRY-11. -/
def CRY_KEY_RESULT_STATUS : Fld := ⟨0xC0008C, 0x0, 1, 0x0, 1, 0, 8, .ro, [0]⟩
/-- Table CRY-11. -/
def CRY_KEY_RESULT_BUSY : Fld := ⟨0xC0008C, 0x0, 1, 0x0, 1, 8, 1, .ro, [0]⟩
/-- Table CRY-11. -/
def CRY_KEY_RESULT_KID : Fld := ⟨0xC0008C, 0x0, 1, 0x0, 1, 16, 8, .ro, [0]⟩
/-- Table CRY-11. -/
def CRY_RESEAL_LO : Fld := ⟨0xC00090, 0x0, 1, 0x0, 1, 0, 32, .rl, [0]⟩
/-- Table CRY-11. -/
def CRY_RESEAL_HI : Fld := ⟨0xC00094, 0x0, 1, 0x0, 1, 0, 32, .rs, [0]⟩
/-- Table CRY-11. -/
def CRY_RESEAL_LEN : Fld := ⟨0xC00098, 0x0, 1, 0x0, 1, 0, 24, .rw, [0]⟩
/-- Table CRY-11. -/
def CRY_RESEAL_GO : Fld := ⟨0xC0009C, 0x0, 1, 0x0, 1, 0, 32, .wo, [0]⟩
/-- Table CRY-11, reset: fuses. -/
def CRY_DEVICE_PUB : Fld := ⟨0xC000A0, 0x4, 24, 0x0, 1, 0, 32, .ro, [0]⟩
/-- Table CRY-11, reset: layout. -/
def CRY_SEAL_CFG_BASE : Fld := ⟨0xC00100, 0x20, 8, 0x0, 1, 0, 16, .rw, [0]⟩
/-- Table CRY-11, reset: layout. -/
def CRY_SEAL_CFG_SIZE : Fld := ⟨0xC00100, 0x20, 8, 0x0, 1, 16, 16, .rw, [0]⟩
/-- Table CRY-11. -/
def CRY_SEAL_STAT_KID : Fld := ⟨0xC00104, 0x20, 8, 0x0, 1, 0, 8, .ro, [0]⟩
/-- Table CRY-11. -/
def CRY_SEAL_STAT_OLD_KID : Fld := ⟨0xC00104, 0x20, 8, 0x0, 1, 8, 8, .ro, [0]⟩
/-- Table CRY-11. -/
def CRY_SEAL_STAT_REKEY : Fld := ⟨0xC00104, 0x20, 8, 0x0, 1, 16, 1, .ro, [0]⟩
/-- Table CRY-11. -/
def CRY_SEAL_STAT_DAMAGED : Fld := ⟨0xC00104, 0x20, 8, 0x0, 1, 17, 1, .ro, [0]⟩
/-- Table CRY-11. -/
def CRY_SEAL_STAT_DNODES : Fld := ⟨0xC00104, 0x20, 8, 0x0, 1, 18, 14, .ro, [0]⟩
/-- Table CRY-11. -/
def CRY_SWEEP_LO : Fld := ⟨0xC00108, 0x20, 8, 0x0, 1, 0, 32, .rl, [0]⟩
/-- Table CRY-11. -/
def CRY_SWEEP_HI : Fld := ⟨0xC0010C, 0x20, 8, 0x0, 1, 0, 32, .rs, [0]⟩
/-- Table CRY-11. -/
def CRY_SEAL_GEN : Fld := ⟨0xC00110, 0x20, 8, 0x0, 1, 0, 16, .ro, [0]⟩
/-- Table CRY-11. -/
def CRY_MAJOR_MAX : Fld := ⟨0xC00114, 0x20, 8, 0x0, 1, 0, 32, .ro, [0]⟩
/-- Table CRY-11. -/
def CRY_KEY_STAT_LOADED : Fld := ⟨0xC00400, 0x4, 256, 0x0, 1, 0, 1, .ro, [0]⟩
/-- Table CRY-11. -/
def CRY_KEY_STAT_MEDIA : Fld := ⟨0xC00400, 0x4, 256, 0x0, 1, 1, 1, .ro, [0]⟩
/-- Table CRY-11. -/
def CRY_KEY_STAT_MEMORY : Fld := ⟨0xC00400, 0x4, 256, 0x0, 1, 2, 1, .ro, [0]⟩
/-- Table CRY-11. -/
def CRY_KEY_STAT_INTERNAL : Fld := ⟨0xC00400, 0x4, 256, 0x0, 1, 3, 1, .ro, [0]⟩
/-- Table CRY-11. -/
def CRY_KEY_STAT_TRACTS : Fld := ⟨0xC00400, 0x4, 256, 0x0, 1, 4, 12, .ro, [0]⟩
/-- Table NOC-7. -/
def NOC_CTL_ISO_EN : Fld := ⟨0x500000, 0x0, 1, 0x0, 1, 0, 1, .rw, [1]⟩
/-- Table NOC-7. -/
def NOC_ISO_CFG_COUNT : Fld := ⟨0x500004, 0x0, 1, 0x0, 1, 0, 4, .rw, [4]⟩
/-- Table NOC-7. -/
def NOC_ISO_CFG_PROBE_US : Fld := ⟨0x500004, 0x0, 1, 0x0, 1, 8, 8, .rw, [100]⟩
/-- Table NOC-7. -/
def NOC_STAT_RECONFIG : Fld := ⟨0x500008, 0x0, 1, 0x0, 1, 0, 1, .ro, [0]⟩
/-- Table NOC-7. -/
def NOC_STAT_ISOLATED : Fld := ⟨0x500008, 0x0, 1, 0x0, 1, 16, 10, .ro, [0]⟩
/-- Table NOC-7. -/
def NOC_ARB_CFG_AGE : Fld := ⟨0x50000C, 0x0, 1, 0x0, 1, 0, 16, .rw, [256]⟩
/-- Table NOC-7. -/
def NOC_ARB_CFG_RESP_YIELD : Fld := ⟨0x50000C, 0x0, 1, 0x0, 1, 16, 8, .rw, [64]⟩
/-- Table NOC-7. -/
def NOC_RT_SEL_NI : Fld := ⟨0x500010, 0x0, 1, 0x0, 1, 0, 10, .rw, [0]⟩
/-- Table NOC-7. -/
def NOC_RT_SEL_DST : Fld := ⟨0x500010, 0x0, 1, 0x0, 1, 16, 10, .rw, [0]⟩
/-- Table NOC-7, reset: table. -/
def NOC_RT_PRI_LO : Fld := ⟨0x500014, 0x0, 1, 0x0, 1, 0, 32, .rl, [0]⟩
/-- Table NOC-7, reset: table. -/
def NOC_RT_PRI_HI : Fld := ⟨0x500018, 0x0, 1, 0x0, 1, 0, 32, .rs, [0]⟩
/-- Table NOC-7, reset: table. -/
def NOC_RT_ALT_LO : Fld := ⟨0x50001C, 0x0, 1, 0x0, 1, 0, 32, .rl, [0]⟩
/-- Table NOC-7, reset: table. -/
def NOC_RT_ALT_HI : Fld := ⟨0x500020, 0x0, 1, 0x0, 1, 0, 32, .rs, [0]⟩
/-- Table NOC-7. -/
def NOC_RT_FLAGS_P_OK : Fld := ⟨0x500024, 0x0, 1, 0x0, 1, 0, 1, .rw, [1]⟩
/-- Table NOC-7. -/
def NOC_RT_FLAGS_A_OK : Fld := ⟨0x500024, 0x0, 1, 0x0, 1, 1, 1, .rw, [1]⟩
/-- Table NOC-7. -/
def NOC_RTR_SEL : Fld := ⟨0x500030, 0x0, 1, 0x0, 1, 0, 6, .rw, [0]⟩
/-- Table NOC-7. -/
def NOC_RTR_CLOSE : Fld := ⟨0x500034, 0x0, 1, 0x0, 1, 0, 31, .rw, [0]⟩
/-- Table NOC-7. -/
def NOC_RTR_STAT : Fld := ⟨0x500038, 0x0, 1, 0x0, 1, 0, 31, .ro, [0]⟩
/-- Table NOC-7. -/
def NOC_RECONFIG : Fld := ⟨0x500040, 0x0, 1, 0x0, 1, 0, 16, .wo, [0]⟩
/-- Table NOC-7. -/
def NOC_TMO : Fld := ⟨0x500080, 0x0, 1, 0x0, 1, 0, 32, .ct, [0]⟩
/-- Table NOC-7. -/
def NOC_ABSORBED : Fld := ⟨0x500084, 0x0, 1, 0x0, 1, 0, 32, .ct, [0]⟩
/-- Table NOC-7. -/
def NOC_PEER_RESETS : Fld := ⟨0x500088, 0x0, 1, 0x0, 1, 0, 32, .ct, [0]⟩
/-- Table NOC-7. -/
def NOC_FENCED_WRITES : Fld := ⟨0x50008C, 0x0, 1, 0x0, 1, 0, 32, .ct, [0]⟩
/-- Table NOC-7. -/
def NOC_STALE_RESP : Fld := ⟨0x500090, 0x0, 1, 0x0, 1, 0, 32, .ct, [0]⟩
/-- Table NOC-7. -/
def NOC_RETRIES : Fld := ⟨0x500094, 0x0, 1, 0x0, 1, 0, 32, .ct, [0]⟩
/-- Table NOC-7. -/
def NOC_RTT_NS_MAX : Fld := ⟨0x500098, 0x0, 1, 0x0, 1, 0, 32, .ct, [0]⟩
/-- Table NOC-7. -/
def NOC_BND_CRC : Fld := ⟨0x5000A0, 0x4, 6, 0x0, 1, 0, 32, .ct, [0]⟩
/-- Table NOC-7. -/
def NOC_NI_STAT_ISOLATED : Fld := ⟨0x501000, 0x4, 1024, 0x0, 1, 0, 1, .ro, [0]⟩
/-- Table NOC-7. -/
def NOC_NI_STAT_FENCED : Fld := ⟨0x501000, 0x4, 1024, 0x0, 1, 1, 1, .ro, [0]⟩
/-- Table NOC-7. -/
def NOC_NI_STAT_ALT : Fld := ⟨0x501000, 0x4, 1024, 0x0, 1, 2, 1, .ro, [0]⟩
/-- Table NOC-7. -/
def NOC_NI_STAT_OUTSTANDING : Fld := ⟨0x501000, 0x4, 1024, 0x0, 1, 3, 11, .ro, [0]⟩
/-- Table FAB-8. -/
def LDG_RB_CTL_GO : Fld := ⟨0x1200000, 0x0, 1, 0x0, 1, 0, 1, .wo, [0]⟩
/-- Table FAB-8. -/
def LDG_RB_CTL_MODE : Fld := ⟨0x1200000, 0x0, 1, 0x0, 1, 1, 1, .rw, [0]⟩
/-- Table FAB-8. -/
def LDG_RB_CTL_RESUME : Fld := ⟨0x1200000, 0x0, 1, 0x0, 1, 2, 1, .wo, [0]⟩
/-- Table FAB-8. -/
def LDG_RB_STAT_BUSY : Fld := ⟨0x1200004, 0x0, 1, 0x0, 1, 0, 1, .ro, [0]⟩
/-- Table FAB-8. -/
def LDG_RB_STAT_STOPPED : Fld := ⟨0x1200004, 0x0, 1, 0x0, 1, 1, 1, .ro, [0]⟩
/-- Table FAB-8. -/
def LDG_RB_STAT_RESULT : Fld := ⟨0x1200004, 0x0, 1, 0x0, 1, 8, 8, .ro, [0]⟩
/-- Table FAB-8. -/
def LDG_RB_SEL_LO : Fld := ⟨0x1200008, 0x0, 1, 0x0, 1, 0, 32, .rl, [0]⟩
/-- Table FAB-8. -/
def LDG_RB_SEL_HI : Fld := ⟨0x120000C, 0x0, 1, 0x0, 1, 0, 32, .rs, [0]⟩
/-- Table FAB-8. -/
def LDG_RB_DST_LO : Fld := ⟨0x1200010, 0x0, 1, 0x0, 1, 0, 32, .rl, [0]⟩
/-- Table FAB-8. -/
def LDG_RB_DST_HI : Fld := ⟨0x1200014, 0x0, 1, 0x0, 1, 0, 32, .rs, [0]⟩
/-- Table FAB-8. -/
def LDG_RB_BYTES : Fld := ⟨0x1200018, 0x0, 1, 0x0, 1, 0, 32, .ro, [0]⟩
/-- Table FAB-8. -/
def LDG_SPINE_STAT_DISABLED : Fld := ⟨0x1200020, 0x0, 1, 0x0, 1, 0, 13, .ro, [0]⟩
/-- Table FAB-8. -/
def LDG_SPINE_HITS : Fld := ⟨0x1200024, 0x0, 1, 0x0, 1, 0, 32, .ct, [0]⟩
/-- Table FAB-8. -/
def LDG_MEM_CE : Fld := ⟨0x1200030, 0x4, 4, 0x0, 1, 0, 32, .ct, [0]⟩
/-- Table FAB-8. -/
def LDG_MEM_UE : Fld := ⟨0x1200040, 0x4, 4, 0x0, 1, 0, 32, .ct, [0]⟩
/-- Table FAB-8, reset: image. -/
def LDG_CTL_EN : Fld := ⟨0x1200100, 0x4, 128, 0x0, 1, 0, 1, .rw, [0]⟩
/-- Table FAB-8, reset: image. -/
def LDG_CTL_CLK : Fld := ⟨0x1200100, 0x4, 128, 0x0, 1, 1, 5, .rw, [0]⟩
/-- Table FAB-8. -/
def LDG_STAT_OUTSTANDING : Fld := ⟨0x1200300, 0x4, 128, 0x0, 1, 0, 11, .ro, [0]⟩
/-- Table FAB-8. -/
def LDG_STAT_ENGINES : Fld := ⟨0x1200300, 0x4, 128, 0x0, 1, 11, 2, .ro, [0]⟩
/-- Table FAB-8. -/
def LDG_STAT_CREATES : Fld := ⟨0x1200300, 0x4, 128, 0x0, 1, 13, 4, .ro, [0]⟩
/-- Table STD-9. -/
def CFG_SL_SRC_LO : Fld := ⟨0x100100, 0x0, 1, 0x0, 1, 0, 32, .rl, [0]⟩
/-- Table STD-9. -/
def CFG_SL_SRC_HI : Fld := ⟨0x100104, 0x0, 1, 0x0, 1, 0, 32, .rs, [0]⟩
/-- Table STD-9. -/
def CFG_SL_CMD_STAND : Fld := ⟨0x100108, 0x0, 1, 0x0, 1, 0, 6, .wo, [0]⟩
/-- Table STD-9. -/
def CFG_SL_CMD_SOURCE : Fld := ⟨0x100108, 0x0, 1, 0x0, 1, 8, 1, .wo, [0]⟩
/-- Table STD-9. -/
def CFG_SL_CMD_KEY : Fld := ⟨0x100108, 0x0, 1, 0x0, 1, 24, 8, .wo, [0]⟩
/-- Table STD-9. -/
def CFG_SL_RESULT_STATUS : Fld := ⟨0x10010C, 0x0, 1, 0x0, 1, 0, 8, .ro, [0]⟩
/-- Table STD-9. -/
def CFG_SL_RESULT_CODE : Fld := ⟨0x10010C, 0x0, 1, 0x0, 1, 8, 8, .ro, [0]⟩
/-- Table STD-9. -/
def CFG_SL_RESULT_STAND : Fld := ⟨0x10010C, 0x0, 1, 0x0, 1, 16, 6, .ro, [0]⟩
/-- Table STD-9. -/
def CFG_SL_RESULT_SEQ : Fld := ⟨0x10010C, 0x0, 1, 0x0, 1, 24, 8, .ro, [0]⟩
/-- Table STD-9. -/
def CFG_SL_STAT_PHASE : Fld := ⟨0x100110, 0x0, 1, 0x0, 1, 0, 3, .ro, [0]⟩
/-- Table STD-9. -/
def CFG_SL_STAT_QUEUED : Fld := ⟨0x100110, 0x0, 1, 0x0, 1, 3, 4, .ro, [0]⟩
/-- Table STD-9. -/
def CFG_SL_STAT_STAND : Fld := ⟨0x100110, 0x0, 1, 0x0, 1, 8, 6, .ro, [0]⟩
/-- Table STD-9. -/
def CFG_SL_FRAMES : Fld := ⟨0x100114, 0x0, 1, 0x0, 1, 0, 24, .ro, [0]⟩
/-- Table STD-9. -/
def CFG_SL_CTL_DRAIN_US : Fld := ⟨0x100118, 0x0, 1, 0x0, 1, 0, 8, .rw, [20]⟩
/-- Table STD-9. -/
def CFG_SL_DIKE_SEL_STAND : Fld := ⟨0x100120, 0x0, 1, 0x0, 1, 0, 6, .rw, [0]⟩
/-- Table STD-9. -/
def CFG_SL_DIKE_SEL_LATCH : Fld := ⟨0x100120, 0x0, 1, 0x0, 1, 16, 13, .rw, [0]⟩
/-- Table STD-9. -/
def CFG_SL_DIKE_VAL_VALUE : Fld := ⟨0x100124, 0x0, 1, 0x0, 1, 0, 1, .ro, [0]⟩
/-- Table STD-9. -/
def CFG_SL_DIKE_VAL_HOLDING : Fld := ⟨0x100124, 0x0, 1, 0x0, 1, 1, 1, .ro, [0]⟩
/-- Table STD-9. -/
def CFG_SL_LOADS : Fld := ⟨0x100128, 0x0, 1, 0x0, 1, 0, 32, .ct, [0]⟩
/-- Table STD-9. -/
def CFG_SL_REFUSED : Fld := ⟨0x10012C, 0x0, 1, 0x0, 1, 0, 32, .ct, [0]⟩
/-- Table STD-9. -/
def CFG_SL_TORN : Fld := ⟨0x100130, 0x0, 1, 0x0, 1, 0, 32, .ct, [0]⟩
/-- Table STD-9, reset: image. -/
def CFG_ST_STAT_STATE : Fld := ⟨0x100200, 0x4, 64, 0x0, 1, 0, 3, .ro, [0]⟩
/-- Table STD-9. -/
def CFG_ST_STAT_PERMANENT : Fld := ⟨0x100200, 0x4, 64, 0x0, 1, 3, 1, .ro, [0]⟩
/-- Table STD-9, reset: image. -/
def CFG_ST_STAT_LOADABLE : Fld := ⟨0x100200, 0x4, 64, 0x0, 1, 4, 1, .ro, [0]⟩
/-- Table STD-9. -/
def CFG_ST_STAT_SOURCE : Fld := ⟨0x100200, 0x4, 64, 0x0, 1, 5, 2, .ro, [0]⟩
/-- Table STD-9, reset: image. -/
def CFG_ST_STAT_ROW_FIRST : Fld := ⟨0x100200, 0x4, 64, 0x0, 1, 8, 5, .ro, [0]⟩
/-- Table STD-9, reset: image. -/
def CFG_ST_STAT_ROW_LAST : Fld := ⟨0x100200, 0x4, 64, 0x0, 1, 16, 5, .ro, [0]⟩
/-- Table STD-9. -/
def CFG_ST_STAT_CODE : Fld := ⟨0x100200, 0x4, 64, 0x0, 1, 24, 8, .ro, [0]⟩
/-- Table STD-10. -/
def CRU_CTL_EN : Fld := ⟨0x200000, 0x0, 1, 0x0, 1, 0, 1, .rw, [1]⟩
/-- Table STD-10. -/
def CRU_CTL_NVM_EN : Fld := ⟨0x200000, 0x0, 1, 0x0, 1, 1, 1, .rw, [1]⟩
/-- Table STD-10. -/
def CRU_RATE_STEP_NS : Fld := ⟨0x200004, 0x0, 1, 0x0, 1, 0, 16, .rw, [200]⟩
/-- Table STD-10. -/
def CRU_STAT_ACTIVE : Fld := ⟨0x200008, 0x0, 1, 0x0, 1, 0, 1, .ro, [0]⟩
/-- Table STD-10. -/
def CRU_STAT_REPAIRING : Fld := ⟨0x200008, 0x0, 1, 0x0, 1, 1, 1, .ro, [0]⟩
/-- Table STD-10. -/
def CRU_POS : Fld := ⟨0x20000C, 0x0, 1, 0x0, 1, 0, 32, .ro, [0]⟩
/-- Table STD-10. -/
def CRU_PASS : Fld := ⟨0x200010, 0x0, 1, 0x0, 1, 0, 32, .ct, [0]⟩
/-- Table STD-10. -/
def CRU_PASS_US : Fld := ⟨0x200014, 0x0, 1, 0x0, 1, 0, 32, .ro, [0]⟩
/-- Table STD-10. -/
def CRU_MISMATCH : Fld := ⟨0x200018, 0x0, 1, 0x0, 1, 0, 32, .ct, [0]⟩
/-- Table STD-10. -/
def CRU_REPAIRED_CACHE : Fld := ⟨0x20001C, 0x0, 1, 0x0, 1, 0, 32, .ct, [0]⟩
/-- Table STD-10. -/
def CRU_REPAIRED_NVM : Fld := ⟨0x200020, 0x0, 1, 0x0, 1, 0, 32, .ct, [0]⟩
/-- Table STD-10. -/
def CRU_UNREPAIRED : Fld := ⟨0x200024, 0x0, 1, 0x0, 1, 0, 32, .ct, [0]⟩
/-- Table STD-10. -/
def CRU_SKIPPED : Fld := ⟨0x200028, 0x0, 1, 0x0, 1, 0, 32, .ct, [0]⟩
/-- Table STD-10. -/
def CRU_PERM_FRAMES : Fld := ⟨0x20002C, 0x0, 1, 0x0, 1, 0, 20, .ro, [0]⟩
/-- Table STD-10. -/
def CRU_PERM_MISMATCH : Fld := ⟨0x200030, 0x0, 1, 0x0, 1, 0, 32, .ct, [0]⟩
/-- Table STD-10. -/
def CRU_HIT_EVICT : Fld := ⟨0x200034, 0x0, 1, 0x0, 1, 0, 32, .ct, [0]⟩
/-- Table STD-10. -/
def CRU_LAST_ADDR : Fld := ⟨0x200038, 0x0, 1, 0x0, 1, 0, 32, .ro, [0]⟩
/-- Table STD-10. -/
def CRU_INJ_ADDR : Fld := ⟨0x200040, 0x0, 1, 0x0, 1, 0, 32, .rw, [0]⟩
/-- Table STD-10. -/
def CRU_INJ_GO : Fld := ⟨0x200044, 0x0, 1, 0x0, 1, 0, 11, .wo, [0]⟩
/-- Table CLK-3. -/
def CLK_REF_CTL_SEL : Fld := ⟨0x300000, 0x0, 1, 0x0, 1, 0, 1, .rw, [1]⟩
/-- Table CLK-3. -/
def CLK_REF_CFG_TOL_PPM : Fld := ⟨0x300004, 0x0, 1, 0x0, 1, 0, 12, .rw, [300]⟩
/-- Table CLK-3. -/
def CLK_REF_CFG_GOOD_WIN : Fld := ⟨0x300004, 0x0, 1, 0x0, 1, 16, 4, .rw, [8]⟩
/-- Table CLK-3. -/
def CLK_STAT_REF : Fld := ⟨0x300008, 0x0, 1, 0x0, 1, 0, 2, .ro, [0]⟩
/-- Table CLK-3. -/
def CLK_STAT_LOCAL_OK : Fld := ⟨0x300008, 0x0, 1, 0x0, 1, 2, 1, .ro, [0]⟩
/-- Table CLK-3. -/
def CLK_STAT_LEVEE_OK : Fld := ⟨0x300008, 0x0, 1, 0x0, 1, 3, 1, .ro, [0]⟩
/-- Table CLK-3. -/
def CLK_STAT_LOCK : Fld := ⟨0x300008, 0x0, 1, 0x0, 1, 4, 1, .ro, [0]⟩
/-- Table CLK-3. -/
def CLK_STAT_PSTATE : Fld := ⟨0x300008, 0x0, 1, 0x0, 1, 5, 2, .ro, [0]⟩
/-- Table CLK-3. -/
def CLK_OFFSET : Fld := ⟨0x30000C, 0x0, 1, 0x0, 1, 0, 16, .ro, [0]⟩
/-- Table CLK-3. -/
def CLK_DIV_HUB : Fld := ⟨0x300010, 0x0, 1, 0x0, 1, 0, 4, .rw, [4]⟩
/-- Table CLK-3. -/
def CLK_DIV_MED : Fld := ⟨0x300010, 0x0, 1, 0x0, 1, 4, 4, .rw, [4]⟩
/-- Table CLK-3. -/
def CLK_DIV_HBM : Fld := ⟨0x300010, 0x0, 1, 0x0, 1, 8, 4, .rw, [6]⟩
/-- Table CLK-3. -/
def CLK_DIV_CFG : Fld := ⟨0x300010, 0x0, 1, 0x0, 1, 16, 7, .rw, [36]⟩
/-- Table CLK-3. -/
def CLK_SSC_DEPTH : Fld := ⟨0x300014, 0x0, 1, 0x0, 1, 0, 4, .rw, [0]⟩
/-- Table CLK-3. -/
def CLK_SSC_RATE : Fld := ⟨0x300014, 0x0, 1, 0x0, 1, 4, 2, .rw, [0]⟩
/-- Table CLK-3. -/
def CLK_OUT_CTL_SEL : Fld := ⟨0x300018, 0x0, 1, 0x0, 1, 0, 3, .rw, [0]⟩
/-- Table CLK-3. -/
def CLK_OUT_CTL_UDIE : Fld := ⟨0x300018, 0x0, 1, 0x0, 1, 4, 2, .rw, [0]⟩
/-- Table CLK-3. -/
def CLK_OUT_CTL_USPINE : Fld := ⟨0x300018, 0x0, 1, 0x0, 1, 6, 5, .rw, [0]⟩
/-- Table CLK-3. -/
def CLK_OUT_CTL_DIV : Fld := ⟨0x300018, 0x0, 1, 0x0, 1, 16, 8, .rw, [1]⟩
/-- Table CLK-3. -/
def CLK_OUT_CTL_DIV_NOW : Fld := ⟨0x300018, 0x0, 1, 0x0, 1, 24, 8, .ro, [1]⟩
/-- Table CLK-3. -/
def CLK_SWITCHES : Fld := ⟨0x300020, 0x0, 1, 0x0, 1, 0, 32, .ct, [0]⟩
/-- Table CLK-3. -/
def CLK_HOLDOVER_US : Fld := ⟨0x300024, 0x0, 1, 0x0, 1, 0, 32, .ct, [0]⟩
/-- Table CLK-3. -/
def CLK_REF_LOSSES : Fld := ⟨0x300028, 0x0, 1, 0x0, 1, 0, 32, .ct, [0]⟩
/-- Table CLK-3, reset: image. -/
def CLK_UCLK_DIV : Fld := ⟨0x300100, 0x80, 4, 0x4, 32, 0, 13, .rw, [0]⟩
/-- Table CLK-3, reset: image. -/
def CLK_UCLK_EN : Fld := ⟨0x300100, 0x80, 4, 0x4, 32, 13, 1, .rw, [0]⟩
/-- Table CLK-3. -/
def CLK_GATE_RUN_EN : Fld := ⟨0x300400, 0x4, 81, 0x0, 1, 0, 1, .rw, [1]⟩
/-- Table CLK-3. -/
def CLK_GATE_SLEEP_EN : Fld := ⟨0x300400, 0x4, 81, 0x0, 1, 1, 1, .rw, [0]⟩
/-- Table CLK-3. -/
def CLK_GATE_DEEP_EN : Fld := ⟨0x300400, 0x4, 81, 0x0, 1, 2, 1, .rw, [0]⟩
/-- Table CLK-3. -/
def CLK_GATE_OPEN : Fld := ⟨0x300400, 0x4, 81, 0x0, 1, 3, 1, .ro, [1]⟩
/-- Table PWR-8. -/
def PWR_STATE_CMD_TARGET : Fld := ⟨0x400000, 0x0, 1, 0x0, 1, 0, 2, .wo, [0]⟩
/-- Table PWR-8. -/
def PWR_STAT_PSTATE : Fld := ⟨0x400004, 0x0, 1, 0x0, 1, 0, 2, .ro, [0]⟩
/-- Table PWR-8. -/
def PWR_STAT_CHANGING : Fld := ⟨0x400004, 0x0, 1, 0x0, 1, 2, 1, .ro, [0]⟩
/-- Table PWR-8. -/
def PWR_STAT_UP_QUEUE : Fld := ⟨0x400004, 0x0, 1, 0x0, 1, 3, 7, .ro, [0]⟩
/-- Table PWR-8. -/
def PWR_WAKE_MASK : Fld := ⟨0x400008, 0x0, 1, 0x0, 1, 0, 4, .rw, [15]⟩
/-- Table PWR-8. -/
def PWR_EP_COUNT : Fld := ⟨0x400010, 0x0, 1, 0x0, 1, 0, 7, .rw, [0]⟩
/-- Table PWR-8. -/
def PWR_XING_STAT : Fld := ⟨0x400014, 0x0, 1, 0x0, 1, 0, 7, .ro, [0]⟩
/-- Table PWR-8. -/
def PWR_WAKES : Fld := ⟨0x400020, 0x0, 1, 0x0, 1, 0, 32, .ct, [0]⟩
/-- Table PWR-8. -/
def PWR_DRAIN_TMOS : Fld := ⟨0x400024, 0x0, 1, 0x0, 1, 0, 32, .ct, [0]⟩
/-- Table PWR-8. -/
def PWR_REFUSED_CT : Fld := ⟨0x400028, 0x0, 1, 0x0, 1, 0, 32, .ct, [0]⟩
/-- Table PWR-8. -/
def PWR_UNIT_EPOCH_EPOCH : Fld := ⟨0x400040, 0x4, 14, 0x0, 1, 0, 16, .ro, [0]⟩
/-- Table PWR-8. -/
def PWR_UNIT_EPOCH_PENDING : Fld := ⟨0x400040, 0x4, 14, 0x0, 1, 16, 1, .ro, [0]⟩
/-- Table PWR-8. -/
def PWR_XING_FENCED : Fld := ⟨0x400080, 0x4, 7, 0x0, 1, 0, 32, .ct, [0]⟩
/-- Table PWR-8. -/
def PWR_POL_CMD : Fld := ⟨0x400100, 0x4, 81, 0x0, 1, 0, 2, .wo, [0]⟩
/-- Table PWR-8. -/
def PWR_POL_CFG_WAKE_EN : Fld := ⟨0x400600, 0x4, 81, 0x0, 1, 0, 1, .rw, [1]⟩
/-- Table PWR-8. -/
def PWR_POL_CFG_DEEP_OFF : Fld := ⟨0x400600, 0x4, 81, 0x0, 1, 1, 1, .rw, [0]⟩
/-- Table PWR-8. -/
def PWR_POL_CFG_CLOSE_US : Fld := ⟨0x400600, 0x4, 81, 0x0, 1, 8, 8, .rw, [10]⟩
/-- Table PWR-8. -/
def PWR_POL_CFG_DRAIN_US : Fld := ⟨0x400600, 0x4, 81, 0x0, 1, 16, 16, .rw, [20]⟩
/-- Table PWR-8, reset: image. -/
def PWR_POL_STAT_STATE : Fld := ⟨0x400400, 0x4, 81, 0x0, 1, 0, 3, .ro, [0]⟩
/-- Table PWR-8, reset: class. -/
def PWR_POL_STAT_SWITCHABLE : Fld := ⟨0x400400, 0x4, 81, 0x0, 1, 3, 1, .ro, [0]⟩
/-- Table PWR-8. -/
def PWR_POL_STAT_WAKE_PENDING : Fld := ⟨0x400400, 0x4, 81, 0x0, 1, 4, 1, .ro, [0]⟩
/-- Table PWR-8. -/
def PWR_EP_STAGE_OFF : Fld := ⟨0x400800, 0x8, 64, 0x0, 1, 0, 26, .rw, [0]⟩
/-- Table PWR-8. -/
def PWR_EP_STAGE_VAL : Fld := ⟨0x400804, 0x8, 64, 0x0, 1, 0, 32, .rw, [0]⟩
/-- Table SDS-6. -/
def SDS_STAT_FELLED : Fld := ⟨0xF00000, 0x0, 1, 0x0, 1, 0, 9, .ro, [0]⟩
/-- Table SDS-6. -/
def SDS_TRAIN_CFG_ATTEMPT_MS : Fld := ⟨0xF00004, 0x0, 1, 0x0, 1, 0, 8, .rw, [25]⟩
/-- Table SDS-6. -/
def SDS_ADAPT_CFG_DENS_MIN : Fld := ⟨0xF00008, 0x0, 1, 0x0, 1, 0, 8, .rw, [64]⟩
/-- Table SDS-6. -/
def SDS_ADAPT_CFG_LEVEL_MIN : Fld := ⟨0xF00008, 0x0, 1, 0x0, 1, 8, 8, .rw, [32]⟩
/-- Table SDS-6. -/
def SDS_ADAPT_CFG_LEVEL_MAX : Fld := ⟨0xF00008, 0x0, 1, 0x0, 1, 16, 8, .rw, [96]⟩
/-- Table SDS-6. -/
def SDS_ADAPT_CFG_NRZ_MIN : Fld := ⟨0xF00008, 0x0, 1, 0x0, 1, 24, 8, .rw, [102]⟩
/-- Table SDS-6, reset: image. -/
def SDS_QUAD_CTL_REFHZ : Fld := ⟨0xF00100, 0x4, 64, 0x0, 1, 0, 1, .rw, [0]⟩
/-- Table SDS-6, reset: image. -/
def SDS_QUAD_CTL_ETH_MODE : Fld := ⟨0xF00100, 0x4, 64, 0x0, 1, 4, 4, .rw, [0]⟩
/-- Table SDS-6, reset: image. -/
def SDS_QUAD_CTL_FEC : Fld := ⟨0xF00100, 0x4, 64, 0x0, 1, 8, 2, .rw, [0]⟩
/-- Table SDS-6. -/
def SDS_QUAD_STAT_BLOCK_LOCK : Fld := ⟨0xF00200, 0x4, 64, 0x0, 1, 0, 4, .ro, [0]⟩
/-- Table SDS-6. -/
def SDS_QUAD_STAT_AM_LOCK : Fld := ⟨0xF00200, 0x4, 64, 0x0, 1, 4, 1, .ro, [0]⟩
/-- Table SDS-6. -/
def SDS_QUAD_STAT_HI_BER : Fld := ⟨0xF00200, 0x4, 64, 0x0, 1, 5, 1, .ro, [0]⟩
/-- Table SDS-6. -/
def SDS_QUAD_STAT_REF_OK : Fld := ⟨0xF00200, 0x4, 64, 0x0, 1, 6, 1, .ro, [0]⟩
/-- Table SDS-6. -/
def SDS_FEC_CORR : Fld := ⟨0xF00300, 0x10, 64, 0x0, 1, 0, 32, .ct, [0]⟩
/-- Table SDS-6. -/
def SDS_FEC_UNCORR : Fld := ⟨0xF00304, 0x10, 64, 0x0, 1, 0, 32, .ct, [0]⟩
/-- Table SDS-6. -/
def SDS_FEC_SYM : Fld := ⟨0xF00308, 0x10, 64, 0x0, 1, 0, 32, .ct, [0]⟩
/-- Table SDS-6. -/
def SDS_TX_UNDERRUN : Fld := ⟨0xF0030C, 0x10, 64, 0x0, 1, 0, 32, .ct, [0]⟩
/-- Table SDS-7, reset: image. -/
def SDS_LANE_CTL_EN : Fld := ⟨0xF10000, 0x40, 256, 0x0, 1, 0, 1, .rw, [0]⟩
/-- Table SDS-7, reset: image. -/
def SDS_LANE_CTL_MODE : Fld := ⟨0xF10000, 0x40, 256, 0x0, 1, 1, 3, .rw, [0]⟩
/-- Table SDS-7, reset: image. -/
def SDS_LANE_CTL_RATE : Fld := ⟨0xF10000, 0x40, 256, 0x0, 1, 4, 13, .rw, [0]⟩
/-- Table SDS-7, reset: image. -/
def SDS_LANE_CTL_PRECODE : Fld := ⟨0xF10000, 0x40, 256, 0x0, 1, 17, 1, .rw, [0]⟩
/-- Table SDS-7. -/
def SDS_LANE_CTL_POL_TX : Fld := ⟨0xF10000, 0x40, 256, 0x0, 1, 18, 1, .rw, [0]⟩
/-- Table SDS-7. -/
def SDS_LANE_CTL_POL_RX : Fld := ⟨0xF10000, 0x40, 256, 0x0, 1, 19, 1, .rw, [0]⟩
/-- Table SDS-7, reset: image. -/
def SDS_LANE_CTL_TRAIN : Fld := ⟨0xF10000, 0x40, 256, 0x0, 1, 20, 1, .rw, [0]⟩
/-- Table SDS-7. -/
def SDS_LANE_CTL_LOOPBACK : Fld := ⟨0xF10000, 0x40, 256, 0x0, 1, 21, 2, .rw, [0]⟩
/-- Table SDS-7. -/
def SDS_LANE_CTL_RETRAIN : Fld := ⟨0xF10000, 0x40, 256, 0x0, 1, 24, 1, .wo, [0]⟩
/-- Table SDS-7. -/
def SDS_LANE_CTL_FREEZE : Fld := ⟨0xF10000, 0x40, 256, 0x0, 1, 25, 1, .rw, [0]⟩
/-- Table SDS-7, reset: image. -/
def SDS_LANE_CTL_PCLK : Fld := ⟨0xF10000, 0x40, 256, 0x0, 1, 26, 5, .rw, [0]⟩
/-- Table SDS-7. -/
def SDS_LANE_STAT_STATE : Fld := ⟨0xF10004, 0x40, 256, 0x0, 1, 0, 4, .ro, [0]⟩
/-- Table SDS-7. -/
def SDS_LANE_STAT_PARTNER : Fld := ⟨0xF10004, 0x40, 256, 0x0, 1, 4, 1, .ro, [0]⟩
/-- Table SDS-7. -/
def SDS_LANE_STAT_SIGNAL : Fld := ⟨0xF10004, 0x40, 256, 0x0, 1, 5, 1, .ro, [0]⟩
/-- Table SDS-7. -/
def SDS_LANE_STAT_FROZEN : Fld := ⟨0xF10004, 0x40, 256, 0x0, 1, 6, 1, .ro, [0]⟩
/-- Table SDS-7. -/
def SDS_LANE_STAT_FAILS : Fld := ⟨0xF10004, 0x40, 256, 0x0, 1, 7, 3, .ro, [0]⟩
/-- Table SDS-7, reset: preset. -/
def SDS_LANE_FFE_CM2 : Fld := ⟨0xF10008, 0x40, 256, 0x0, 1, 0, 6, .rw, [0]⟩
/-- Table SDS-7, reset: preset. -/
def SDS_LANE_FFE_CM1 : Fld := ⟨0xF10008, 0x40, 256, 0x0, 1, 6, 6, .rw, [58]⟩
/-- Table SDS-7, reset: preset. -/
def SDS_LANE_FFE_C0 : Fld := ⟨0xF10008, 0x40, 256, 0x0, 1, 12, 6, .rw, [50]⟩
/-- Table SDS-7, reset: preset. -/
def SDS_LANE_FFE_CP1 : Fld := ⟨0xF10008, 0x40, 256, 0x0, 1, 18, 6, .rw, [57]⟩
/-- Table SDS-7, reset: preset. -/
def SDS_LANE_FFE_CP2 : Fld := ⟨0xF10008, 0x40, 256, 0x0, 1, 24, 6, .rw, [0]⟩
/-- Table SDS-7. -/
def SDS_LANE_RX_CTLE : Fld := ⟨0xF1000C, 0x40, 256, 0x0, 1, 0, 5, .ro, [0]⟩
/-- Table SDS-7. -/
def SDS_LANE_RX_FLT1 : Fld := ⟨0xF1000C, 0x40, 256, 0x0, 1, 8, 6, .ro, [0]⟩
/-- Table SDS-7. -/
def SDS_LANE_RX_FLT2 : Fld := ⟨0xF1000C, 0x40, 256, 0x0, 1, 16, 6, .ro, [0]⟩
/-- Table SDS-7. -/
def SDS_LANE_RX_FLT3 : Fld := ⟨0xF1000C, 0x40, 256, 0x0, 1, 24, 6, .ro, [0]⟩
/-- Table SDS-7. -/
def SDS_LANE_EYE_HEIGHT_MV : Fld := ⟨0xF10010, 0x40, 256, 0x0, 1, 0, 10, .ro, [0]⟩
/-- Table SDS-7. -/
def SDS_LANE_EYE_WIDTH_MUI : Fld := ⟨0xF10010, 0x40, 256, 0x0, 1, 16, 10, .ro, [0]⟩
/-- Table SDS-7. -/
def SDS_PRBS_CTL_GEN_EN : Fld := ⟨0xF10014, 0x40, 256, 0x0, 1, 0, 1, .rw, [0]⟩
/-- Table SDS-7. -/
def SDS_PRBS_CTL_CHK_EN : Fld := ⟨0xF10014, 0x40, 256, 0x0, 1, 1, 1, .rw, [0]⟩
/-- Table SDS-7. -/
def SDS_PRBS_CTL_PATTERN : Fld := ⟨0xF10014, 0x40, 256, 0x0, 1, 2, 3, .rw, [4]⟩
/-- Table SDS-7. -/
def SDS_PRBS_CTL_INJ_MODE : Fld := ⟨0xF10014, 0x40, 256, 0x0, 1, 5, 2, .rw, [0]⟩
/-- Table SDS-7. -/
def SDS_PRBS_CTL_INJ_GO : Fld := ⟨0xF10014, 0x40, 256, 0x0, 1, 7, 1, .wo, [0]⟩
/-- Table SDS-7. -/
def SDS_PRBS_CTL_INJ_BITS : Fld := ⟨0xF10014, 0x40, 256, 0x0, 1, 8, 3, .rw, [0]⟩
/-- Table SDS-7. -/
def SDS_PRBS_PERIOD : Fld := ⟨0xF10018, 0x40, 256, 0x0, 1, 0, 24, .rw, [1]⟩
/-- Table SDS-7. -/
def SDS_PRBS_STAT_LOCK : Fld := ⟨0xF1001C, 0x40, 256, 0x0, 1, 0, 1, .ro, [0]⟩
/-- Table SDS-7. -/
def SDS_PRBS_ERR : Fld := ⟨0xF10020, 0x40, 256, 0x0, 1, 0, 32, .ct, [0]⟩
/-- Table SDS-7. -/
def SDS_PRBS_BITS : Fld := ⟨0xF10024, 0x40, 256, 0x0, 1, 0, 32, .ct, [0]⟩
/-- Table SDS-7. -/
def SDS_PRBS_INJECTED : Fld := ⟨0xF10028, 0x40, 256, 0x0, 1, 0, 32, .ct, [0]⟩
/-- Table SDS-7. -/
def SDS_LANE_TRAINS : Fld := ⟨0xF1002C, 0x40, 256, 0x0, 1, 0, 32, .ct, [0]⟩
/-- Table SDS-7. -/
def SDS_LANE_TFAILS : Fld := ⟨0xF10030, 0x40, 256, 0x0, 1, 0, 32, .ct, [0]⟩
/-- Table SDS-7. -/
def SDS_LANE_LOCK_LOSS : Fld := ⟨0xF10034, 0x40, 256, 0x0, 1, 0, 32, .ct, [0]⟩
/-- Table SDS-7. -/
def SDS_LANE_READAPTS : Fld := ⟨0xF10038, 0x40, 256, 0x0, 1, 0, 32, .ct, [0]⟩
/-- Table SDS-7. -/
def SDS_PORT_OVF : Fld := ⟨0xF1003C, 0x40, 256, 0x0, 1, 0, 32, .ct, [0]⟩
/-- Table PCI-6. -/
def PCI_CTL_L0P_INIT : Fld := ⟨0x1000000, 0x0, 1, 0x0, 1, 0, 1, .rw, [0]⟩
/-- Table PCI-6. -/
def PCI_CTL_L0P_WIDTH : Fld := ⟨0x1000000, 0x0, 1, 0x0, 1, 1, 2, .rw, [0]⟩
/-- Table PCI-6. -/
def PCI_CTL_MAX_SPEED : Fld := ⟨0x1000000, 0x0, 1, 0x0, 1, 4, 3, .rw, [6]⟩
/-- Table PCI-6. -/
def PCI_CTL_RETRAIN : Fld := ⟨0x1000000, 0x0, 1, 0x0, 1, 8, 1, .wo, [0]⟩
/-- Table PCI-6. -/
def PCI_STAT_LTSSM : Fld := ⟨0x1000004, 0x0, 1, 0x0, 1, 0, 6, .ro, [0]⟩
/-- Table PCI-6. -/
def PCI_STAT_SPEED : Fld := ⟨0x1000004, 0x0, 1, 0x0, 1, 6, 3, .ro, [0]⟩
/-- Table PCI-6. -/
def PCI_STAT_WIDTH : Fld := ⟨0x1000004, 0x0, 1, 0x0, 1, 9, 5, .ro, [0]⟩
/-- Table PCI-6. -/
def PCI_STAT_FLIT : Fld := ⟨0x1000004, 0x0, 1, 0x0, 1, 14, 1, .ro, [0]⟩
/-- Table PCI-6. -/
def PCI_STAT_L0P : Fld := ⟨0x1000004, 0x0, 1, 0x0, 1, 15, 1, .ro, [0]⟩
/-- Table PCI-6. -/
def PCI_STAT_REVERSED : Fld := ⟨0x1000004, 0x0, 1, 0x0, 1, 16, 1, .ro, [0]⟩
/-- Table PCI-6. -/
def PCI_STAT_READY : Fld := ⟨0x1000004, 0x0, 1, 0x0, 1, 17, 1, .ro, [0]⟩
/-- Table PCI-6, reset: image. -/
def PCI_STAT_CLOCKING : Fld := ⟨0x1000004, 0x0, 1, 0x0, 1, 18, 2, .ro, [0]⟩
/-- Table PCI-6. -/
def PCI_STAT_DL_UP : Fld := ⟨0x1000004, 0x0, 1, 0x0, 1, 20, 1, .ro, [0]⟩
/-- Table PCI-6. -/
def PCI_LANES_USED : Fld := ⟨0x1000008, 0x0, 1, 0x0, 1, 0, 16, .ro, [0]⟩
/-- Table PCI-6. -/
def PCI_LANES_FELLED : Fld := ⟨0x1000008, 0x0, 1, 0x0, 1, 16, 16, .ro, [0]⟩
/-- Table PCI-6. -/
def PCI_BRINGUP_US : Fld := ⟨0x100000C, 0x0, 1, 0x0, 1, 0, 32, .ro, [0]⟩
/-- Table PCI-6. -/
def PCI_RX_ERRS : Fld := ⟨0x1000040, 0x0, 1, 0x0, 1, 0, 32, .ct, [0]⟩
/-- Table PCI-6. -/
def PCI_REPLAYS : Fld := ⟨0x1000044, 0x0, 1, 0x0, 1, 0, 32, .ct, [0]⟩
/-- Table PCI-6. -/
def PCI_EB_SLIPS : Fld := ⟨0x1000048, 0x0, 1, 0x0, 1, 0, 32, .ct, [0]⟩
/-- Table PCI-6. -/
def PCI_LINK_DOWNS : Fld := ⟨0x100004C, 0x0, 1, 0x0, 1, 0, 32, .ct, [0]⟩
/-- Table PCI-6. -/
def PCI_L0P_CHANGES : Fld := ⟨0x1000050, 0x0, 1, 0x0, 1, 0, 32, .ct, [0]⟩
/-- Table PCI-6. -/
def PCI_CPL_TMOS : Fld := ⟨0x1000054, 0x0, 1, 0x0, 1, 0, 32, .ct, [0]⟩
/-- Table PCI-6. -/
def PCI_POISON_RX : Fld := ⟨0x1000058, 0x0, 1, 0x0, 1, 0, 32, .ct, [0]⟩
/-- Table PCI-6. -/
def PCI_UR_SENT : Fld := ⟨0x100005C, 0x0, 1, 0x0, 1, 0, 32, .ct, [0]⟩
/-- Table PCI-6. -/
def PCI_FLRS : Fld := ⟨0x1000060, 0x0, 1, 0x0, 1, 0, 32, .ct, [0]⟩
/-- Table PCI-6. -/
def PCI_PERSTS : Fld := ⟨0x1000064, 0x0, 1, 0x0, 1, 0, 32, .ct, [0]⟩
/-- Table PCI-6. -/
def PCI_ACCESS_FAULTS : Fld := ⟨0x1000068, 0x0, 1, 0x0, 1, 0, 32, .ct, [0]⟩
/-- Table PCI-6. -/
def PCI_FN_STAT_MSE : Fld := ⟨0x1000400, 0x4, 257, 0x0, 1, 0, 1, .ro, [0]⟩
/-- Table PCI-6. -/
def PCI_FN_STAT_BME : Fld := ⟨0x1000400, 0x4, 257, 0x0, 1, 1, 1, .ro, [0]⟩
/-- Table PCI-6. -/
def PCI_FN_STAT_MSIX_EN : Fld := ⟨0x1000400, 0x4, 257, 0x0, 1, 2, 1, .ro, [0]⟩
/-- Table PCI-6. -/
def PCI_FN_STAT_FN_MASK : Fld := ⟨0x1000400, 0x4, 257, 0x0, 1, 3, 1, .ro, [0]⟩
/-- Table PCI-6. -/
def PCI_FN_STAT_FLR : Fld := ⟨0x1000400, 0x4, 257, 0x0, 1, 4, 1, .ro, [0]⟩
/-- Table PCI-6. -/
def PCI_FN_STAT_DSTATE : Fld := ⟨0x1000400, 0x4, 257, 0x0, 1, 5, 2, .ro, [0]⟩
/-- Table PCI-6, reset: PF 1. -/
def PCI_FN_STAT_PRESENT : Fld := ⟨0x1000400, 0x4, 257, 0x0, 1, 7, 1, .ro, [1, 0]⟩
/-- Table REG-5. -/
def SKD_BLOCKS : Fld := ⟨0x800000, 0x0, 1, 0x0, 1, 0, 32, .ct, [0]⟩
/-- Table REG-5. -/
def SKD_PARKS_FAULT : Fld := ⟨0x800004, 0x0, 1, 0x0, 1, 0, 32, .ct, [0]⟩
/-- Table REG-5. -/
def SKD_PARKS_PREEMPT : Fld := ⟨0x800008, 0x0, 1, 0x0, 1, 0, 32, .ct, [0]⟩
/-- Table REG-5. -/
def SKD_HOST_FAULTS : Fld := ⟨0x80000C, 0x0, 1, 0x0, 1, 0, 32, .ct, [0]⟩
/-- Table REG-5. -/
def SKD_STAT_STATE : Fld := ⟨0x800100, 0x4, 64, 0x0, 1, 0, 3, .ro, [0]⟩
/-- Table REG-5. -/
def SKD_STAT_TAG : Fld := ⟨0x800100, 0x4, 64, 0x0, 1, 8, 17, .ro, [0]⟩
/-- Table REG-6. -/
def GLB_ID_PART : Fld := ⟨0x0, 0x0, 1, 0x0, 1, 0, 16, .ro, [598]⟩
/-- Table REG-6. -/
def GLB_ID_FAMILY : Fld := ⟨0x0, 0x0, 1, 0x0, 1, 16, 16, .ro, [81]⟩
/-- Table REG-6, reset: fuses. -/
def GLB_REV_STEPPING : Fld := ⟨0x4, 0x0, 1, 0x0, 1, 0, 8, .ro, [1]⟩
/-- Speed grade, a fuse (Table REG-6). DESIGN CHOICE, log entry 175: the part is a QMF-256-2E, so SPEED reads 2 and TEMP 0. -/
def GLB_REV_SPEED : Fld := ⟨0x4, 0x0, 1, 0x0, 1, 8, 2, .ro, [2]⟩
/-- Temperature grade, a fuse (Table REG-6); see SPEED. -/
def GLB_REV_TEMP : Fld := ⟨0x4, 0x0, 1, 0x0, 1, 10, 1, .ro, [0]⟩
/-- Table REG-6, reset: fuses. -/
def GLB_DIE_ID_LO : Fld := ⟨0x8, 0x0, 1, 0x0, 1, 0, 32, .rl, [0]⟩
/-- Table REG-6, reset: fuses. -/
def GLB_DIE_ID_HI : Fld := ⟨0xC, 0x0, 1, 0x0, 1, 0, 32, .rs, [0]⟩
/-- Table REG-6. -/
def GLB_TIME_LO : Fld := ⟨0x10, 0x0, 1, 0x0, 1, 0, 32, .rl, [0]⟩
/-- Table REG-6. -/
def GLB_TIME_HI : Fld := ⟨0x14, 0x0, 1, 0x0, 1, 0, 32, .rs, [0]⟩
/-- Table REG-6. -/
def GLB_STATE_DONE : Fld := ⟨0x18, 0x0, 1, 0x0, 1, 0, 1, .ro, [0]⟩
/-- Table REG-6. -/
def GLB_STATE_PFAIL : Fld := ⟨0x18, 0x0, 1, 0x0, 1, 1, 1, .ro, [0]⟩
/-- Table REG-6. -/
def GLB_STATE_PAIR : Fld := ⟨0x18, 0x0, 1, 0x0, 1, 2, 3, .ro, [0]⟩
/-- Table REG-6. -/
def GLB_STATE_REFUSED : Fld := ⟨0x18, 0x0, 1, 0x0, 1, 5, 1, .ro, [0]⟩
/-- Table REG-6. -/
def GLB_EPOCH_NEXT : Fld := ⟨0x20, 0x0, 1, 0x0, 1, 0, 32, .rw, [0]⟩
/-- Table REG-6. -/
def GLB_EPOCH_SETTLED : Fld := ⟨0x24, 0x0, 1, 0x0, 1, 0, 1, .ro, [1]⟩
/-- Table REG-6. -/
def GLB_RATCHETS : Fld := ⟨0x28, 0x0, 1, 0x0, 1, 0, 32, .ct, [0]⟩
/-- Table REG-6. -/
def GLB_RESULT_LO_VALID : Fld := ⟨0x30, 0x0, 1, 0x0, 1, 0, 1, .rl, [0]⟩
/-- Table REG-6. -/
def GLB_RESULT_LO_SEQ : Fld := ⟨0x30, 0x0, 1, 0x0, 1, 8, 8, .rl, [0]⟩
/-- Table REG-6. -/
def GLB_RESULT_LO_STATUS : Fld := ⟨0x30, 0x0, 1, 0x0, 1, 16, 8, .rl, [0]⟩
/-- Table REG-6. -/
def GLB_RESULT_LO_OPCODE : Fld := ⟨0x30, 0x0, 1, 0x0, 1, 24, 8, .rl, [0]⟩
/-- Table REG-6. -/
def GLB_RESULT_HI_CID : Fld := ⟨0x34, 0x0, 1, 0x0, 1, 0, 16, .rs, [0]⟩
/-- Table REG-6. -/
def GLB_RESULT_HI_RESULT : Fld := ⟨0x34, 0x0, 1, 0x0, 1, 16, 16, .rs, [0]⟩
/-- Table REG-6. -/
def GLB_RESULT_ACK_SEQ : Fld := ⟨0x38, 0x0, 1, 0x0, 1, 0, 8, .wo, [0]⟩
/-- Table REG-6, reset: policy. -/
def GLB_ACCESS_LO : Fld := ⟨0x40, 0x0, 1, 0x0, 1, 0, 32, .rl, [0]⟩
/-- Table REG-6, reset: policy. -/
def GLB_ACCESS_HI : Fld := ⟨0x44, 0x0, 1, 0x0, 1, 0, 32, .rs, [0]⟩
/-- Table REG-6, reset: policy. -/
def GLB_RETRY_EFF_LIMIT : Fld := ⟨0x48, 0x0, 1, 0x0, 1, 0, 3, .ro, [0]⟩
/-- Table REG-6, reset: policy. -/
def GLB_RETRY_EFF_STEP1 : Fld := ⟨0x48, 0x0, 1, 0x0, 1, 8, 8, .ro, [0]⟩
/-- Table REG-6, reset: policy. -/
def GLB_RETRY_EFF_STEP2 : Fld := ⟨0x48, 0x0, 1, 0x0, 1, 16, 8, .ro, [0]⟩
/-- Table REG-6, reset: policy. -/
def GLB_RETRY_EFF_STEP3 : Fld := ⟨0x48, 0x0, 1, 0x0, 1, 24, 8, .ro, [0]⟩
/-- Table REG-6. -/
def GLB_EVT_SEQ : Fld := ⟨0x50, 0x0, 1, 0x0, 1, 0, 32, .ro, [1]⟩
/-- Table REG-6. -/
def GLB_EVT_PENDING : Fld := ⟨0x54, 0x0, 1, 0x0, 1, 0, 13, .ro, [0]⟩
/-- Table REG-6. -/
def GLB_EVT_PEEK_SEL : Fld := ⟨0x58, 0x0, 1, 0x0, 1, 0, 32, .rw, [0]⟩
/-- Table REG-6. -/
def GLB_EVT_PEEK : Fld := ⟨0x60, 0x4, 8, 0x0, 1, 0, 32, .ro, [0]⟩
/-- Table REG-6. -/
def GLB_SCRATCH : Fld := ⟨0x80, 0x4, 4, 0x0, 1, 0, 32, .rw, [0]⟩
/-- Fields of block 0 (part 0). -/
def blk0_0 : List Fld := [GLB_ID_PART, GLB_ID_FAMILY, GLB_REV_STEPPING, GLB_REV_SPEED, GLB_REV_TEMP, GLB_DIE_ID_LO, GLB_DIE_ID_HI, GLB_TIME_LO, GLB_TIME_HI, GLB_STATE_DONE, GLB_STATE_PFAIL, GLB_STATE_PAIR, GLB_STATE_REFUSED, GLB_EPOCH_NEXT, GLB_EPOCH_SETTLED, GLB_RATCHETS, GLB_RESULT_LO_VALID, GLB_RESULT_LO_SEQ, GLB_RESULT_LO_STATUS, GLB_RESULT_LO_OPCODE, GLB_RESULT_HI_CID, GLB_RESULT_HI_RESULT, GLB_RESULT_ACK_SEQ, GLB_ACCESS_LO, GLB_ACCESS_HI, GLB_RETRY_EFF_LIMIT, GLB_RETRY_EFF_STEP1, GLB_RETRY_EFF_STEP2, GLB_RETRY_EFF_STEP3, GLB_EVT_SEQ]
/-- Fields of block 0 (part 1). -/
def blk0_1 : List Fld := [GLB_EVT_PENDING, GLB_EVT_PEEK_SEL, GLB_EVT_PEEK, GLB_SCRATCH]
/-- Fields of block index 0 (Table REG-2). -/
def block0 : List Fld := blk0_0 ++ blk0_1
/-- Fields of block 1 (part 0). -/
def blk1_0 : List Fld := [CFG_STATUS_STATE, CFG_STATUS_PCIE_EARLY, CFG_STATUS_FALLBACK_ACTIVE, CFG_STATUS_ROLE, CFG_STATUS_SLOT, CFG_STATUS_KEY_SLOT, CFG_STATUS_REVOKED, CFG_FAIL_CODE_PRIMARY, CFG_FAIL_CODE_FALLBACK, CFG_IMAGE_ID_LO, CFG_IMAGE_ID_HI, CFG_LOAD_TIME, CFG_RELOAD, CFG_LOAD_FAILS, CFG_SL_SRC_LO, CFG_SL_SRC_HI, CFG_SL_CMD_STAND, CFG_SL_CMD_SOURCE, CFG_SL_CMD_KEY, CFG_SL_RESULT_STATUS, CFG_SL_RESULT_CODE, CFG_SL_RESULT_STAND, CFG_SL_RESULT_SEQ, CFG_SL_STAT_PHASE, CFG_SL_STAT_QUEUED, CFG_SL_STAT_STAND, CFG_SL_FRAMES, CFG_SL_CTL_DRAIN_US, CFG_SL_DIKE_SEL_STAND, CFG_SL_DIKE_SEL_LATCH]
/-- Fields of block 1 (part 1). -/
def blk1_1 : List Fld := [CFG_SL_DIKE_VAL_VALUE, CFG_SL_DIKE_VAL_HOLDING, CFG_SL_LOADS, CFG_SL_REFUSED, CFG_SL_TORN, CFG_ST_STAT_STATE, CFG_ST_STAT_PERMANENT, CFG_ST_STAT_LOADABLE, CFG_ST_STAT_SOURCE, CFG_ST_STAT_ROW_FIRST, CFG_ST_STAT_ROW_LAST, CFG_ST_STAT_CODE]
/-- Fields of block index 1 (Table REG-2). -/
def block1 : List Fld := blk1_0 ++ blk1_1
/-- Fields of block 2 (part 0). -/
def blk2_0 : List Fld := [CRU_CTL_EN, CRU_CTL_NVM_EN, CRU_RATE_STEP_NS, CRU_STAT_ACTIVE, CRU_STAT_REPAIRING, CRU_POS, CRU_PASS, CRU_PASS_US, CRU_MISMATCH, CRU_REPAIRED_CACHE, CRU_REPAIRED_NVM, CRU_UNREPAIRED, CRU_SKIPPED, CRU_PERM_FRAMES, CRU_PERM_MISMATCH, CRU_HIT_EVICT, CRU_LAST_ADDR, CRU_INJ_ADDR, CRU_INJ_GO]
/-- Fields of block index 2 (Table REG-2). -/
def block2 : List Fld := blk2_0
/-- Fields of block 3 (part 0). -/
def blk3_0 : List Fld := [CLK_REF_CTL_SEL, CLK_REF_CFG_TOL_PPM, CLK_REF_CFG_GOOD_WIN, CLK_STAT_REF, CLK_STAT_LOCAL_OK, CLK_STAT_LEVEE_OK, CLK_STAT_LOCK, CLK_STAT_PSTATE, CLK_OFFSET, CLK_DIV_HUB, CLK_DIV_MED, CLK_DIV_HBM, CLK_DIV_CFG, CLK_SSC_DEPTH, CLK_SSC_RATE, CLK_OUT_CTL_SEL, CLK_OUT_CTL_UDIE, CLK_OUT_CTL_USPINE, CLK_OUT_CTL_DIV, CLK_OUT_CTL_DIV_NOW, CLK_SWITCHES, CLK_HOLDOVER_US, CLK_REF_LOSSES, CLK_UCLK_DIV, CLK_UCLK_EN, CLK_GATE_RUN_EN, CLK_GATE_SLEEP_EN, CLK_GATE_DEEP_EN, CLK_GATE_OPEN]
/-- Fields of block index 3 (Table REG-2). -/
def block3 : List Fld := blk3_0
/-- Fields of block 4 (part 0). -/
def blk4_0 : List Fld := [PWR_STATE_CMD_TARGET, PWR_STAT_PSTATE, PWR_STAT_CHANGING, PWR_STAT_UP_QUEUE, PWR_WAKE_MASK, PWR_EP_COUNT, PWR_XING_STAT, PWR_WAKES, PWR_DRAIN_TMOS, PWR_REFUSED_CT, PWR_UNIT_EPOCH_EPOCH, PWR_UNIT_EPOCH_PENDING, PWR_XING_FENCED, PWR_POL_CMD, PWR_POL_CFG_WAKE_EN, PWR_POL_CFG_DEEP_OFF, PWR_POL_CFG_CLOSE_US, PWR_POL_CFG_DRAIN_US, PWR_POL_STAT_STATE, PWR_POL_STAT_SWITCHABLE, PWR_POL_STAT_WAKE_PENDING, PWR_EP_STAGE_OFF, PWR_EP_STAGE_VAL]
/-- Fields of block index 4 (Table REG-2). -/
def block4 : List Fld := blk4_0
/-- Fields of block 5 (part 0). -/
def blk5_0 : List Fld := [NOC_CTL_ISO_EN, NOC_ISO_CFG_COUNT, NOC_ISO_CFG_PROBE_US, NOC_STAT_RECONFIG, NOC_STAT_ISOLATED, NOC_ARB_CFG_AGE, NOC_ARB_CFG_RESP_YIELD, NOC_RT_SEL_NI, NOC_RT_SEL_DST, NOC_RT_PRI_LO, NOC_RT_PRI_HI, NOC_RT_ALT_LO, NOC_RT_ALT_HI, NOC_RT_FLAGS_P_OK, NOC_RT_FLAGS_A_OK, NOC_RTR_SEL, NOC_RTR_CLOSE, NOC_RTR_STAT, NOC_RECONFIG, NOC_TMO, NOC_ABSORBED, NOC_PEER_RESETS, NOC_FENCED_WRITES, NOC_STALE_RESP, NOC_RETRIES, NOC_RTT_NS_MAX, NOC_BND_CRC, NOC_NI_STAT_ISOLATED, NOC_NI_STAT_FENCED, NOC_NI_STAT_ALT]
/-- Fields of block 5 (part 1). -/
def blk5_1 : List Fld := [NOC_NI_STAT_OUTSTANDING]
/-- Fields of block index 5 (Table REG-2). -/
def block5 : List Fld := blk5_0 ++ blk5_1
/-- Fields of block 6 (part 0). -/
def blk6_0 : List Fld := [DCK_CTL_PREEMPT_EN, DCK_STAT_SPILLING, DCK_STAT_SPILL_FULL, DCK_STAT_CTX_FULL, DCK_SPILL_DEPTH, DCK_SPILL_HIGH, DCK_CTX_USED, DCK_HIST_CTL_CLASS, DCK_HIST_CTL_PRIO_MASK, DCK_PREEMPT_VOID, DCK_LD_REFUSALS, DCK_ENG_TMOS, DCK_CTX_STALLS, DCK_LATE_MSGS, DCK_IPRIO, DCK_Q_DEPTH, DCK_HIST, DCK_POOL_CFG_PREEMPT_GAP, DCK_POOL_CFG_PREEMPT_MAX, DCK_POOL_CFG_PREEMPT_WAIT, DCK_POOL_CFG_TMO, DCK_POOL_CFG2_STEAL_NS, DCK_POOL_CFG2_LD_PREEMPT_TMO, DCK_POOL_STAT_ENGINES, DCK_POOL_STAT_MODE, DCK_POOL_STAT_FELLED, DCK_POOL_LOAD, DCK_PREEMPTS, DCK_ENG_STAT_POOL, DCK_ENG_STAT_STATE]
/-- Fields of block 6 (part 1). -/
def blk6_1 : List Fld := [DCK_ENG_STAT_LANDING, DCK_ENG_STAT_TMOS]
/-- Fields of block index 6 (Table REG-2). -/
def block6 : List Fld := blk6_0 ++ blk6_1
/-- Fields of block 7 (part 0). -/
def blk7_0 : List Fld := [TLY_CTL_RA_EN, TLY_CTL_RA_PAGES, TLY_CTL_RA_IUS, TLY_CKPT_TRIG_RECORDS, TLY_CKPT_TRIG_PAGES, TLY_CKPT_GO, TLY_STAT_CKPT_ACTIVE, TLY_STAT_REBUILD, TLY_STAT_REPLAY_PENDING, TLY_STAT_FAULT_FULL, TLY_STAT_DESTAGE_STALL, TLY_STAT_FOREIGN, TLY_CKPT_NUM_LO, TLY_CKPT_NUM_HI, TLY_JSEQ_LO, TLY_JSEQ_HI, TLY_FRAMES, TLY_FRAMES_DIRTY, TLY_FAULTS_OPEN, TLY_MAP_FREE_MAX, TLY_MAP_USED, TLY_LOOKUPS, TLY_DIR_MISSES, TLY_FAULTS, TLY_FAULTS_COALESCED, TLY_RA_USED, TLY_RA_DISCARDED, TLY_EVICTIONS, TLY_WRITEBACKS, TLY_CAS_FAILS]
/-- Fields of block 7 (part 1). -/
def blk7_1 : List Fld := [TLY_FAULT_NS_MAX, TLY_PROBE_TRACT, TLY_PROBE_IU_LO, TLY_PROBE_IU_HI, TLY_PROBE_STAT_DONE, TLY_PROBE_STAT_RESIDENT, TLY_PROBE_STAT_RANGE, TLY_PROBE_ENTRY_LO, TLY_PROBE_ENTRY_HI]
/-- Fields of block index 7 (Table REG-2). -/
def block7 : List Fld := blk7_0 ++ blk7_1
/-- Fields of block 8 (part 0). -/
def blk8_0 : List Fld := [SKD_BLOCKS, SKD_PARKS_FAULT, SKD_PARKS_PREEMPT, SKD_HOST_FAULTS, SKD_STAT_STATE, SKD_STAT_TAG]
/-- Fields of block index 8 (Table REG-2). -/
def block8 : List Fld := blk8_0
/-- Fields of block 9 (part 0). -/
def blk9_0 : List Fld := [MED_CTL_SUSP_EN, MED_CTL_CACHE_EN, MED_CTL_MP_EN, MED_STAT_GROUPS, MED_STAT_KEEPER, MED_SUSP_CFG_PRIO, MED_SUSP_CFG_MAX_PROG, MED_SUSP_CFG_MAX_ERASE, MED_SUSP_CFG_SUSP_READS, MED_SUSP_TIME_MIN_RUN_PROG, MED_SUSP_TIME_MIN_RUN_ERASE, MED_SUSP_TIME_HOLD, MED_SUSP_TIME_MIN_RESUME, MED_ZQ_CFG_SHORT_MS, MED_CACHE_MAX, MED_RAW_EN, MED_SUSPENDS, MED_SUSP_LATE, MED_RAW_DONE, MED_RAW_REFUSED, MED_ARB_LOST, MED_BACKSTOP_HITS, MED_FORCED_CLAIMS, MED_GRP_STAT_STATE, MED_GRP_STAT_WIRE, MED_GRP_STAT_DRIVE, MED_GRP_STAT_FORCED, MED_GRP_STAT_HOME, MED_GRP_CMD, MED_CH_CTL_RATE]
/-- Fields of block 9 (part 1). -/
def blk9_1 : List Fld := [MED_CH_CTL_RETRAIN, MED_CH_STAT_STATE, MED_CH_STAT_RATE_NOW, MED_CH_STAT_VOLS, MED_CH_STAT_DRV_EN, MED_CH_RETRAINS, MED_CH_TRAIN_FAILS, MED_LUN_STAT_STATE, MED_LUN_STAT_QDEPTH, MED_LUN_STAT_SUSPS, MED_LUN_STAT_TMOS, MED_REL_CTL_UC_EN, MED_REL_CTL_UC_DEPTH, MED_REL_CTL_PATROL_EN, MED_REL_CTL_WL_EN, MED_UC_PRED_UC_SW, MED_UC_PRED_UC_AGE, MED_UC_PRED_UC_RDC, MED_REFRESH_CFG_REFRESH_STEP, MED_REFRESH_CFG_REFRESH_AGE, MED_REFRESH_CFG_DISTURB_LIMIT, MED_REFRESH_CFG_PATROL_HOURS, MED_GC_CFG_GC_LOW, MED_GC_CFG_GC_HIGH, MED_GC_CFG_GC_URGENT, MED_GC_CFG_WEAR_GAP, MED_HOURS, MED_REL_STAT_SYNCED, MED_REL_STAT_PATROL_FAST, MED_REL_STAT_REFUGE_READY]
/-- Fields of block 9 (part 2). -/
def blk9_2 : List Fld := [MED_REL_STAT_RESTORING, MED_RING_SEL_TSET, MED_RING_SEL_ROW, MED_RING_DATA, MED_REFUGE_MIB, MED_DEGRADED, MED_WEAR_MAX, MED_WEAR_MIN, MED_FREE_STRIPES, MED_LADDER_HIST, MED_DEC_SOFT, MED_DEC_REBUILD, MED_DEC_FAIL, MED_CRC_MISCORRECT, MED_UC_ISSUED, MED_UC_USED, MED_UC_CANCELLED, MED_UC_DIE, MED_UC_NOBUF, MED_REFRESHES, MED_GC_STRIPES, MED_FELL_COUNT, MED_FELL_OVERFLOW]
/-- Fields of block index 9 (Table REG-2). -/
def block9 : List Fld := blk9_0 ++ blk9_1 ++ blk9_2
/-- Fields of block 11 (part 0). -/
def blk11_0 : List Fld := [LVE_CTL_BUNDLE_EN, LVE_CTL_AUTO_HANDBACK, LVE_CTL_FORCE_EN, LVE_CTL_PROBE_EN, LVE_STAT_PAIR, LVE_STAT_ROLE, LVE_STAT_REFUSE, LVE_STAT_DEAD, LVE_STAT_WIRE_ALIVE, LVE_STAT_LINK_ALIVE, LVE_STAT_PFAIL_RX, LVE_PARTNER_ID_LO, LVE_PARTNER_ID_HI, LVE_DEATH_CFG_WIRE_US, LVE_DEATH_CFG_LINK_US, LVE_DEATH_CFG_DEATH_US, LVE_ORPHAN, LVE_DIRTY_EFF, LVE_HANDBACK, LVE_PFAIL_CFG_ACK_US, LVE_FOREIGN_DIRTY, LVE_RESYNC_LEFT, LVE_MIRRORS, LVE_MIRROR_NS_MAX, LVE_SOLO_ACKS, LVE_TAKEOVERS, LVE_PROBES, LVE_MSG_UNKNOWN, LVE_BUNDLE_CTL_RATE, LVE_BUNDLE_CTL_RETRAIN]
/-- Fields of block 11 (part 1). -/
def blk11_1 : List Fld := [LVE_BUNDLE_STAT_STATE, LVE_BUNDLE_STAT_WIDTH, LVE_BUNDLE_STAT_REVERSED, LVE_BUNDLE_STAT_LANES, LVE_FLITS_TX, LVE_FEC_CORR, LVE_FEC_LOST, LVE_MAC_FAILS, LVE_REPLAYS, LVE_RETRAINS]
/-- Fields of block index 11 (Table REG-2). -/
def block11 : List Fld := blk11_0 ++ blk11_1
/-- Fields of block 12 (part 0). -/
def blk12_0 : List Fld := [CRY_CTL_REKEY_EN, CRY_CTL_AUTO_RESEAL, CRY_STAT_KEYS, CRY_STAT_REGION, CRY_STAT_REKEY, CRY_STAT_DAMAGED, CRY_REKEY_CFG_MARK, CRY_REKEY_CFG_STEP_NS, CRY_REKEY_GO, CRY_TAG_FAILS, CRY_NODE_FAILS, CRY_MINOR_OVF, CRY_WRAP_STALLS, CRY_HEALS, CRY_CACHE_MISS, CRY_LINK_UPDATES, CRY_KEY_DENIED, CRY_KEY_SRC_LO, CRY_KEY_SRC_HI, CRY_KEY_CMD_KID, CRY_KEY_CMD_OP, CRY_KEY_RESULT_STATUS, CRY_KEY_RESULT_BUSY, CRY_KEY_RESULT_KID, CRY_RESEAL_LO, CRY_RESEAL_HI, CRY_RESEAL_LEN, CRY_RESEAL_GO, CRY_DEVICE_PUB, CRY_SEAL_CFG_BASE]
/-- Fields of block 12 (part 1). -/
def blk12_1 : List Fld := [CRY_SEAL_CFG_SIZE, CRY_SEAL_STAT_KID, CRY_SEAL_STAT_OLD_KID, CRY_SEAL_STAT_REKEY, CRY_SEAL_STAT_DAMAGED, CRY_SEAL_STAT_DNODES, CRY_SWEEP_LO, CRY_SWEEP_HI, CRY_SEAL_GEN, CRY_MAJOR_MAX, CRY_KEY_STAT_LOADED, CRY_KEY_STAT_MEDIA, CRY_KEY_STAT_MEMORY, CRY_KEY_STAT_INTERNAL, CRY_KEY_STAT_TRACTS]
/-- Fields of block index 12 (Table REG-2). -/
def block12 : List Fld := blk12_0 ++ blk12_1
/-- Fields of block 13 (part 0). -/
def blk13_0 : List Fld := [HBM_CTL_REF_MODE, HBM_CTL_RH_EN, HBM_CTL_RH_MODE, HBM_CTL_RH_RADIUS, HBM_CTL_FORCE_DOUBLE, HBM_RH_THRESH, HBM_SR_CTL_IDLE_US, HBM_TOP_LO, HBM_TOP_HI, HBM_FELL_FELLED, HBM_FELL_MAX, HBM_EVAC_PC, HBM_EVAC_ACTIVE, HBM_EVAC_DONE_MIB, HBM_LAT_TGT, HBM_TEMP_DEGC, HBM_TEMP_DOUBLED, HBM_CE, HBM_UE, HBM_URGENT, HBM_REF_FORCED, HBM_RH_TARGETED, HBM_RH_TBL_ERR, HBM_SR_ENTRIES, HBM_SR_CANCELS, HBM_SR_ADDED_NS, HBM_RETRAINS, HBM_RETRAIN_FAILS, HBM_PC_STAT_STATE, HBM_PC_STAT_SR]
/-- Fields of block 13 (part 1). -/
def blk13_1 : List Fld := [HBM_PC_STAT_RH_FALLBACK, HBM_PC_STAT_DEBT, HBM_PC_CE, HBM_PC_UE, HBM_PC_RH]
/-- Fields of block index 13 (Table REG-2). -/
def block13 : List Fld := blk13_0 ++ blk13_1
/-- Fields of block 14 (part 0). -/
def blk14_0 : List Fld := [SPM_CTL_SWEEP_EN, SPM_CTL_FAB_SWEEP_EN, SPM_SWEEP_CFG_STEP_NS, SPM_SWEEP_PASS, SPM_CE, SPM_UE, SPM_SWEEP_FAILS, SPM_ATOMICS, SPM_DENIED, SPM_FAB_SWEEP_LO, SPM_FAB_SWEEP_HI, SPM_BANK_STAT_MASTER, SPM_BANK_STAT_GROUP, SPM_BANK_STAT_SPARES, SPM_RGN_A_BASE, SPM_RGN_A_SIZE, SPM_RGN_A_WR, SPM_RGN_B_MASK]
/-- Fields of block index 14 (Table REG-2). -/
def block14 : List Fld := blk14_0
/-- Fields of block 15 (part 0). -/
def blk15_0 : List Fld := [SDS_STAT_FELLED, SDS_TRAIN_CFG_ATTEMPT_MS, SDS_ADAPT_CFG_DENS_MIN, SDS_ADAPT_CFG_LEVEL_MIN, SDS_ADAPT_CFG_LEVEL_MAX, SDS_ADAPT_CFG_NRZ_MIN, SDS_QUAD_CTL_REFHZ, SDS_QUAD_CTL_ETH_MODE, SDS_QUAD_CTL_FEC, SDS_QUAD_STAT_BLOCK_LOCK, SDS_QUAD_STAT_AM_LOCK, SDS_QUAD_STAT_HI_BER, SDS_QUAD_STAT_REF_OK, SDS_FEC_CORR, SDS_FEC_UNCORR, SDS_FEC_SYM, SDS_TX_UNDERRUN, SDS_LANE_CTL_EN, SDS_LANE_CTL_MODE, SDS_LANE_CTL_RATE, SDS_LANE_CTL_PRECODE, SDS_LANE_CTL_POL_TX, SDS_LANE_CTL_POL_RX, SDS_LANE_CTL_TRAIN, SDS_LANE_CTL_LOOPBACK, SDS_LANE_CTL_RETRAIN, SDS_LANE_CTL_FREEZE, SDS_LANE_CTL_PCLK, SDS_LANE_STAT_STATE, SDS_LANE_STAT_PARTNER]
/-- Fields of block 15 (part 1). -/
def blk15_1 : List Fld := [SDS_LANE_STAT_SIGNAL, SDS_LANE_STAT_FROZEN, SDS_LANE_STAT_FAILS, SDS_LANE_FFE_CM2, SDS_LANE_FFE_CM1, SDS_LANE_FFE_C0, SDS_LANE_FFE_CP1, SDS_LANE_FFE_CP2, SDS_LANE_RX_CTLE, SDS_LANE_RX_FLT1, SDS_LANE_RX_FLT2, SDS_LANE_RX_FLT3, SDS_LANE_EYE_HEIGHT_MV, SDS_LANE_EYE_WIDTH_MUI, SDS_PRBS_CTL_GEN_EN, SDS_PRBS_CTL_CHK_EN, SDS_PRBS_CTL_PATTERN, SDS_PRBS_CTL_INJ_MODE, SDS_PRBS_CTL_INJ_GO, SDS_PRBS_CTL_INJ_BITS, SDS_PRBS_PERIOD, SDS_PRBS_STAT_LOCK, SDS_PRBS_ERR, SDS_PRBS_BITS, SDS_PRBS_INJECTED, SDS_LANE_TRAINS, SDS_LANE_TFAILS, SDS_LANE_LOCK_LOSS, SDS_LANE_READAPTS, SDS_PORT_OVF]
/-- Fields of block index 15 (Table REG-2). -/
def block15 : List Fld := blk15_0 ++ blk15_1
/-- Fields of block 16 (part 0). -/
def blk16_0 : List Fld := [PCI_CTL_L0P_INIT, PCI_CTL_L0P_WIDTH, PCI_CTL_MAX_SPEED, PCI_CTL_RETRAIN, PCI_STAT_LTSSM, PCI_STAT_SPEED, PCI_STAT_WIDTH, PCI_STAT_FLIT, PCI_STAT_L0P, PCI_STAT_REVERSED, PCI_STAT_READY, PCI_STAT_CLOCKING, PCI_STAT_DL_UP, PCI_LANES_USED, PCI_LANES_FELLED, PCI_BRINGUP_US, PCI_RX_ERRS, PCI_REPLAYS, PCI_EB_SLIPS, PCI_LINK_DOWNS, PCI_L0P_CHANGES, PCI_CPL_TMOS, PCI_POISON_RX, PCI_UR_SENT, PCI_FLRS, PCI_PERSTS, PCI_ACCESS_FAULTS, PCI_FN_STAT_MSE, PCI_FN_STAT_BME, PCI_FN_STAT_MSIX_EN]
/-- Fields of block 16 (part 1). -/
def blk16_1 : List Fld := [PCI_FN_STAT_FN_MASK, PCI_FN_STAT_FLR, PCI_FN_STAT_DSTATE, PCI_FN_STAT_PRESENT]
/-- Fields of block index 16 (Table REG-2). -/
def block16 : List Fld := blk16_0 ++ blk16_1
/-- Fields of block 17 (part 0). -/
def blk17_0 : List Fld := [EVT_CTL_INT_EN, EVT_CTL_PIN_EN, EVT_CTL_MIN_SEV, EVT_CTL_PIN_SEV, EVT_CTL_VECTOR, EVT_STAT_PIN, EVT_HEAD, EVT_SEQ, EVT_ACK, EVT_PENDING, EVT_LOST, EVT_SUPPRESSED, EVT_RATE, EVT_TAG_SEL, EVT_TAG_DATA]
/-- Fields of block index 17 (Table REG-2). -/
def block17 : List Fld := blk17_0
/-- Fields of block 18 (part 0). -/
def blk18_0 : List Fld := [LDG_RB_CTL_GO, LDG_RB_CTL_MODE, LDG_RB_CTL_RESUME, LDG_RB_STAT_BUSY, LDG_RB_STAT_STOPPED, LDG_RB_STAT_RESULT, LDG_RB_SEL_LO, LDG_RB_SEL_HI, LDG_RB_DST_LO, LDG_RB_DST_HI, LDG_RB_BYTES, LDG_SPINE_STAT_DISABLED, LDG_SPINE_HITS, LDG_MEM_CE, LDG_MEM_UE, LDG_CTL_EN, LDG_CTL_CLK, LDG_STAT_OUTSTANDING, LDG_STAT_ENGINES, LDG_STAT_CREATES]
/-- Fields of block index 18 (Table REG-2). -/
def block18 : List Fld := blk18_0
/-- Fields of block 19 (part 0). -/
def blk19_0 : List Fld := [QQP_CTL_ENABLE, QQP_STAT_READY, QQP_STAT_CFG_ERR, QQP_STAT_FETCH_STOP, QQP_STAT_CQ_FULL, QQP_ASQ_BASE_LO, QQP_ASQ_BASE_HI, QQP_ACQ_BASE_LO, QQP_ACQ_BASE_HI, QQP_AQ_SIZE_ASQS, QQP_AQ_SIZE_ACQS, QQP_CAP_MAX_QP, QQP_CAP_VECTORS, QQP_TAGS_HELD, QQP_FETCHED, QQP_STALL_US, QQP_DB_ERRORS, QQP_MBX_SQE, QQP_MBX_GO, QQP_MBX_CQE]
/-- Fields of block index 19 (Table REG-2). -/
def block19 : List Fld := blk19_0
/-- Fields of block 20 (part 0). -/
def blk20_0 : List Fld := [INJ_CTL_ENABLE, INJ_SEED, INJ_STAT_ACTIVE, INJ_GEN_CTL_POINT, INJ_GEN_CTL_MODE, INJ_GEN_CTL_TRIGGER, INJ_GEN_CTL_ARM, INJ_GEN_CTL_FILTER, INJ_GEN_RATE, INJ_GEN_CORR_OFFSET, INJ_GEN_CORR_BYTES, INJ_GEN_SEEN, INJ_GEN_HITS]
/-- Fields of block index 20 (Table REG-2). -/
def block20 : List Fld := blk20_0
/-- The fields of a block index (Table REG-2); MEDB (10) shares the descriptions of MEDA (9). -/
def ofBlock (b : Nat) : List Fld :=
  match b with
  | 0 => block0
  | 1 => block1
  | 2 => block2
  | 3 => block3
  | 4 => block4
  | 5 => block5
  | 6 => block6
  | 7 => block7
  | 8 => block8
  | 9 => block9
  | 11 => block11
  | 12 => block12
  | 13 => block13
  | 14 => block14
  | 15 => block15
  | 16 => block16
  | 17 => block17
  | 18 => block18
  | 19 => block19
  | 20 => block20
  | 10 => block9
  | _ => []
end F
end Sys2Proof.Machine
end

