-- ==== Sys2Proof/Machine/State.lean ====
section
/-! DEFINITION. The state of the part as plain data, unit by unit, and its value at reset. -/

namespace Sys2Proof.Machine

/-- Programmed at manufacture (Table REG-3 "fuses", R55). Every field's reset value is a DESIGN CHOICE of
log entry 3: each real part holds its own. -/
structure Fuses where
  dieId : Nat := 0
  /-- Key-hash slots (R55): the hash of a public key, for each of the four slots. -/
  keyHash : List Nat := [0, 0, 0, 0]
  /-- Bit k: slot k revoked. -/
  revoked : Nat := 0
  /-- Private key of the device key pair (R541, R542). -/
  devKey : Nat := 0
  /-- The CA's signature on the part's certificate (Table CRY-9). -/
  caSig : Nat × Nat := (0, 0)
  deriving DecidableEq, Repr

/-- An event record (Table FLT-8). A record of SEQ 0 is a slot not yet written (R897). -/
structure Rec where
  seq : Nat := 0
  code : Nat := 0
  sev : Nat := 0
  lostBefore : Bool := false
  source : Nat := 0
  time : Nat := 0
  arg0 : Nat := 0
  tag : Option Nat := none
  arg2 : Nat := 0
  deriving DecidableEq, Repr

/-- The 1 ms rate window of one event code (R476): the limit taken at its first posting, how many records it
let through, how many postings it suppressed. A window with limit 0 is not open. -/
structure Win where
  limit : Nat := 0
  posted : Nat := 0
  suppressed : Nat := 0
  deriving DecidableEq, Repr

/-- The event ledger's state beyond its registers (R473 to R480). -/
structure Evt where
  ring : Map Rec := []
  wins : Map Win := []
  /-- The 10 µs after the last MSI-X signal run (R478). -/
  sigBusy : Bool := false
  /-- A qualifying record waits for that 10 µs to end. -/
  sigPend : Bool := false
  deriving DecidableEq, Repr

/-- One injection generator beyond its registers (R485). -/
structure Gen where
  /-- Eligible units since the PERIODIC count last restarted. -/
  count : Nat := 0
  /-- The 32-bit LFSR of a RANDOM generator. -/
  lfsr : Nat := 1
  deriving DecidableEq, Repr

/-- What the part has sent out of the module towards the host, in order (R116, R125, R842). -/
inductive Out where
  /-- Completion entry written to host memory: function, queue, index, the 32-byte entry as a number. -/
  | cqe (fn qid idx entry : Nat)
  /-- Data written to host memory: address, length in bytes, content, Relaxed Ordering (R783). -/
  | data (addr len val : Nat) (relaxed : Bool)
  /-- An MSI-X message: function, vector. -/
  | msix (fn vec : Nat)
  /-- A completion of a host BAR access: function, completed with data?, data. -/
  | barCpl (fn : Nat) (ok : Bool) (val : Nat)
  /-- A command the media engine gives a NAND volume outside any LUN operation (R307): channel, volume, opcode. -/
  | nand (ch vol op : Nat)
  /-- The mode-entry command of XSPI_ENTRY, sent to the NOR device in 1S-1S-1S (R45, Table BOT-2): its bytes, least significant
  first, and their number. -/
  | xspi (cmd n : Nat)
  /-- CFG_PROG_N pulled low for a number of ns (R48). -/
  | progLow (ns : Nat)
  /-- A LEAVING message of a part that stops and loses its state with it (R419): bundle, reason. -/
  | leaving (b reason : Nat)
  deriving DecidableEq, Repr

/-- A segment table entry of a Darut image (Table BOT-3), as the header check stored it; `hash` is the HASH field, byte 0 least
significant. -/
structure SegEnt where
  ty : Nat := 0
  deferred : Bool := false
  slots : Nat := 0
  param : Nat := 0
  off : Nat := 0
  len : Nat := 0
  hash : Nat := 0
  done : Bool := false
  deriving DecidableEq, Repr

/-- The configuration controller (R45 to R100) beyond its registers. -/
structure Cfg where
  /-- Fuses and straps sampled (R47): CFG_ROLE and SLOT_ID stand in CFG_STATUS. The bytes of the POLICY segment in
  force, as one little-endian number (R90, R846). -/
  policy : Nat := 0
  /-- The policy has been applied. -/
  policyOk : Bool := false
  /-- Segment table of the image being loaded. -/
  segs : List SegEnt := []
  /-- BUILD_ID of the image being loaded, and its key slot. -/
  buildId : Nat := 0
  keySlot : Nat := 0
  /-- Checks 1 to 6 passed for the present image, whose first 8 KiB are kept for checks 7 to 9 (Table BOT-7, step 4). -/
  img : Option FullImg := none
  /-- Every header check passed for the present image. -/
  headerOk : Bool := false
  /-- The present image's load has failed. -/
  failed : Bool := false
  /-- The present image is the fallback. -/
  fallback : Bool := false
  /-- MAGIC and FORMAT of the present image are valid: the driver streams it to IMAGE_LENGTH (R64, R65). -/
  streaming : Bool := true
  /-- Device offset of the present image, IMAGE_LENGTH as its header gives it, and the image offset one past the last byte
  streamed (R60, R62). -/
  base : Nat := 0
  len : Nat := 0
  pos : Nat := 0
  /-- The device is read in 8D-8D-8D mode with the opcode, extension and dummy cycles of XSPI_READ (R45, R51). -/
  mode8 : Bool := false
  xspiRead : Nat := 0
  /-- Levels of the strap pins CFG_ROLE and SLOT_ID when they were last seen (log entry 3). -/
  pinRole : Nat := 0
  pinSlot : Nat := 0
  /-- ns at which this part's low pull of CFG_PROG_N ends (R48). -/
  progUntil : Nat := 0
  /-- Polders that the image sets OFF (R728). -/
  off : List Nat := []
  /-- The driver streams the fallback image (R67, R89). -/
  fbStream : Bool := false
  /-- Pins: CFG_DONE, CFG_ERR_N low, CFG_SYNC_N pulled by this part, CFG_CS_N and CFG_CK active. -/
  done : Bool := false
  err : Bool := false
  syncPull : Bool := false
  csActive : Bool := false
  /-- The driver latched a low CFG_SYNC_N during the primary stream (R67). -/
  syncLatch : Bool := false
  /-- PCIe settings have been applied in this power cycle, and stacks whose HBM training runs or has ended. -/
  pcieApplied : Bool := false
  hbmStarted : Nat := 0
  hbmDone : Nat := 0
  /-- The 30 ms hold of R77 has ended. -/
  preloadOk : Bool := false
  /-- All segments verified, the start sequence may run. -/
  ready : Bool := false
  /-- The fallback image has been streamed in this load (R70). -/
  fbUsed : Bool := false
  /-- Stand table bytes of each die, as the FABRIC segments received so far give them, and their runs of scanned frames:
  address and number (R664). -/
  tables : Map (Option Nat) := []
  runs : List (Nat × Nat) := []
  /-- ns of the internal power-on reset. -/
  t0 : Nat := 0
  /-- User flip-flops are released, the user clocks ungated, and the user I/O cells released (R80, steps 2 to 4). -/
  userOn : Bool := false
  clkOn : Bool := false
  ioOn : Bool := false
  /-- The internal power-on reset is asserted (R853, R854, R870). -/
  held : Bool := false
  /-- A test instruction that stops the part is in force (R874). -/
  test : Bool := false
  /-- Last temperature reading of each die, °C, in the order of Table ARC-2 (H, F0 to F3, M0, M1), and whether a die that
  reached 115 °C twice holds the reset until every die reads below 100 °C (R870). -/
  temps : List (Option Int) := [none, none, none, none, none, none, none]
  tripped : Bool := false
  deriving DecidableEq, Repr

/-- A submission or completion queue pair (R103, R105). -/
structure Qp where
  live : Bool := false
  /-- Queue base addresses in host memory. -/
  sqBase : Nat := 0
  cqBase : Nat := 0
  /-- Sizes in entries. -/
  sqSize : Nat := 0
  cqSize : Nat := 0
  /-- Admin sizes that take effect at the next wrap (QQP_AQ_SIZE, While busy); 0 none. -/
  sqNext : Nat := 0
  cqNext : Nat := 0
  /-- SQ head: entries consumed by the fetcher. -/
  sqHead : Nat := 0
  sqTail : Nat := 0
  cqHead : Nat := 0
  cqTail : Nat := 0
  /-- Entries posted and not yet returned by the host. -/
  cqUsed : Nat := 0
  /-- Phase of the present pass through the CQ (R114). -/
  phase : Bool := true
  vector : Nat := 0
  irqEn : Bool := false
  floor : Nat := 0
  coalCount : Nat := 0
  coalTime : Nat := 0
  /-- Completions posted since the last signal (R126). -/
  coalPending : Nat := 0
  /-- The coalescing time runs. -/
  coalTimer : Bool := false
  /-- A PCIe error on a queue access stopped the pair (R104). -/
  stopped : Bool := false
  /-- DELETE_QP is in progress: key of that command (R165). -/
  deleting : Option Nat := none
  /-- Why the fetcher left the next entry where it is, as bits of QQP_STAT.FETCH_STOP (R123), or 8 for a fused pair whose
  second entry is not available (R145); and how many tags or list places the entry needs. -/
  stop : Nat := 0
  need : Nat := 0
  deriving DecidableEq, Repr

/-- Where one block of an IU's version comes from (R23, R216): a write-buffer line, whose content is known, or the
media, at the address of its sector. Zeroes and poison are known contents. -/
structure Src where
  /-- BSEQ of the line the block is pinned in (R205). -/
  line : Option Nat := none
  /-- Media address of the 4 KiB sector. -/
  media : Option Nat := none
  /-- Content, when it does not need the media. -/
  blk : Option Blk := none
  deriving DecidableEq, Repr

/-- One transfer segment of a host command: one host-class task (R249, R250). -/
structure Seg where
  first : Nat := 0
  len : Nat := 0
  /-- Leading blocks of the segment finished; the most that were before a restart (R283). -/
  done : Nat := 0
  high : Nat := 0
  /-- Blocks finished at the last context record of its task. -/
  park : Nat := 0
  ended : Bool := false
  /-- Fault that stopped the segment; 0 none. -/
  stop : Nat := 0
  /-- Pinned translation of the IU in progress: sources of its blocks not yet transferred (R205, R206). -/
  pin : List Src := []
  /-- Map pages of the pinned IUs. -/
  pinPages : List Nat := []
  /-- Sources of the IU in progress whose blocks have moved already: pinned until the IU's transfer ends (R205). -/
  kept : List Src := []
  deriving DecidableEq, Repr

/-- A command or internal task that holds a ledger entry (Table FLT-5), with the work the part still has to do
for it. Host-class tags are 0 to 65,535, internal tags 65,536 to 131,071 (R122, R245); LEDGER_QUERY and
LEDGER_RELEASE stand at keys from 131,072 and the mailbox command at key 262,144, neither holding a tag. -/
structure Cmd where
  /-- The 64-byte submission entry as a number (Table QQP-1). -/
  sqe : Nat := 0
  internal : Bool := false
  /-- Table DCK-1 kind of an internal entry. -/
  kind : Nat := 0
  fn : Nat := 0
  sqid : Nat := 0
  phase : Nat := 0
  completed : Bool := false
  held : Bool := false
  fault : Nat := 0
  unit : Nat := 0
  retries : Nat := 0
  xfer : Nat := 0
  mirrored : Nat := 0
  programmed : Nat := 0
  doneBlks : Nat := 0
  parks : Nat := 0
  preempts : Nat := 0
  wher : Nat := 0
  tAdmit : Nat := 0
  tPhase : Nat := 0
  epoch : Nat := 0
  prio : Nat := 0
  /-- Tract and first block of an internal entry (R468). -/
  iTract : Nat := 0
  iLba : Nat := 0
  segs : List Seg := []
  /-- Blocks received from host memory, in order. -/
  hostData : List Nat := []
  sgl : List Sgl := []
  sglGot : Bool := false
  /-- The read of host memory stopped after `hostData` (R441). -/
  hostErr : Bool := false
  /-- A reset of Table PCI-3 has covered its function: it moves no more data over PCIe (R800). -/
  cut : Bool := false
  /-- The data has been put into the write buffer. -/
  buffered : Bool := false
  /-- Blocks the command has put into the write buffer. -/
  nBuf : Nat := 0
  /-- BSEQs of its lines not yet destaged, and of its lines not yet released. -/
  toDestage : List Nat := []
  toRelease : List Nat := []
  /-- FLUSH: BSEQs still to be destaged. TRIM and WRITE_ZEROES: journal SEQs still to be mirrored. -/
  waitLines : List Nat := []
  waitSeqs : List Nat := []
  /-- Rule that acknowledges the write: 0 mirrored (R22), 1 local commit, 2 destaged (FUA or STRICT), 3 stopped by
  partner loss after `lead` mirrored leading blocks (Table LVE-8). -/
  ack : Nat := 0
  lead : Nat := 0
  /-- Versions of the whole range of an ATOMIC READ, translated at one instant (R135). -/
  snap : List Src := []
  snapped : Bool := false
  /-- Map pages of that translation, pinned until the command completes (R205). -/
  snapPages : List Nat := []
  /-- The command's work has ended and its completion can be posted. -/
  ended : Bool := false
  status : Nat := 0
  cause : Nat := 0
  field : Nat := 255
  blocksDone : Nat := 0
  result : Nat := 0
  /-- Absolute deadline in µs of the time base plus 1; 0 none. -/
  deadline : Nat := 0
  missed : Bool := false
  /-- The completion is discarded (R106). -/
  discard : Bool := false
  /-- The other command of a fused pair. -/
  fused : Option Nat := none
  fusedFirst : Bool := false
  /-- One command of the pair is invalid: each completes with its own status (R146). -/
  pairOwn : Bool := false
  /-- Status both commands of the pair complete with, once the first has (R146). -/
  fusedSt : Option Nat := none
  /-- Waits for a FROZEN tract, and after that for its turn among the commands that waited (R130, R131). -/
  frozen : Bool := false
  /-- A READ has sent a data TLP (R166). -/
  sentData : Bool := false
  /-- Sectors the media engine has delivered for the command: media address, content of 4 KiB; none lost (R347). -/
  media : List (Nat × Option Blk) := []
  /-- The checks of its tract have passed (R128 to R133). -/
  checked : Bool := false
  /-- DELETE_QP: the queue whose commands it waits for (R165). -/
  delQ : Option Nat := none
  /-- ABORT: the command whose completion must be posted first (R166). -/
  after : Option Nat := none
  /-- Blocks that a TRIM superseded and that count in PROGRAMMED once its journal record is mirrored: SEQ, blocks (R878). -/
  progAt : List (Nat × Nat) := []
  /-- The READ has been noted in the stream table (R209). -/
  noted : Bool := false
  /-- Whole IUs a WRITE_ZEROES has trimmed: tract, first IU and count (R137). -/
  trim : Option (Nat × Nat × Nat) := none
  /-- Order of admission. -/
  order : Nat := 0
  deriving DecidableEq, Repr

/-- States of a tract (Table QQP-4). -/
inductive TState where
  | absent | formatting | ready | readOnly | frozen | deleting
  deriving DecidableEq, Repr

/-- A tract (R127). Own tracts stand at their 12-bit ID, foreign tracts at 4,096 + ID (R238). -/
structure Tract where
  st : TState := .absent
  /-- Block-size code: 0 512 B, 1 4 KiB. -/
  blk : Nat := 0
  /-- Indirection-unit code as given at TRACT_CREATE. -/
  iu : Nat := 0
  /-- Capacity in blocks. -/
  cap : Nat := 0
  kid : Nat := 0
  owner : Nat := 0
  /-- First global map page and number of map pages. -/
  mpn : Nat := 0
  pages : Nat := 0
  /-- State before FROZEN. -/
  was : TState := .absent
  /-- Command that waits for the present state change. -/
  waiter : Option Nat := none
  deriving DecidableEq, Repr

/-- The QQP front end (R101 to R175) beyond its registers. -/
structure Qqp where
  /-- Queue pairs at 2,048 × function + queue ID; queue 0 is the admin pair. -/
  qps : Map Qp := []
  /-- Commands in flight by key. -/
  cmds : Map (Option Cmd) := []
  /-- Admin queue and I/O queue served last by the fetcher (R121). -/
  rrAdmin : Nat := 0
  rr : Nat := 0
  /-- A mailbox completion that waits for the front end to leave reset (R803). -/
  mbxHeld : Option Nat := none
  /-- The mailbox runs a command (R171, R172). -/
  mbxBusy : Bool := false
  /-- Commands admitted since reset. -/
  admitted : Nat := 0
  deriving DecidableEq, Repr

/-- A frame of the map cache (Table TLY-4), with the DIRTY_GEN it had when its writeback began. -/
structure Frame where
  /-- Place of the frame in HBM. -/
  idx : Nat := 0
  /-- FLASH: media address of the page as last programmed, 0 for none. -/
  flash : Nat := 0
  /-- DIRTY: the page differs from flash. -/
  dirty : Bool := false
  /-- LOADING: its media read is in progress. -/
  loading : Bool := false
  /-- WRITEBACK: a writeback is in progress. -/
  wb : Bool := false
  /-- REF of CLOCK (R193). -/
  ref : Bool := false
  /-- DIRTY_GEN: changes of the page so far (R195). -/
  gen : Nat := 0
  /-- DIRTY_GEN when the present writeback began (R195). -/
  wbGen : Nat := 0
  /-- Journal SEQ at which the present writeback began, and the place it is programmed to (R194). -/
  wbSeq : Nat := 0
  wbPlace : Option Nat := none
  /-- The directory entry's FRESH as at load. -/
  fresh : Bool := false
  deriving DecidableEq, Repr

/-- Directory entry of a map page that is not resident, or as at its load (Table TLY-3), with the number of blocks that
the flash copy maps (R167). -/
structure Dir where
  /-- FLASH: media address of the page, 0 for none. -/
  flash : Nat := 0
  /-- FRESH: every entry is TRIMMED with WVER 0. -/
  fresh : Bool := true
  /-- REPLAY: journal records wait for the page (R234). -/
  replay : Bool := false
  /-- Blocks that the flash copy maps (R167). -/
  mapped : Nat := 0
  deriving DecidableEq, Repr

/-- What waits for a map page (R198, R881): a task, a map update of a line or of a relocated IU, a TRIM or WRITE_ZEROES. -/
inductive Waiter where
  | task (n : Nat)
  | line (bseq : Nat)
  | move (tract iu : Nat)
  | cmd (key : Nat)
  deriving DecidableEq, Repr

/-- A map-page load in progress: one fault-table slot (R198, R199, R211). -/
structure Load where
  /-- Who waits, in the order of the faults. -/
  waiters : List Waiter := []
  /-- ns of the fault. -/
  start : Nat := 0
  /-- Priority of the fault (R198). -/
  prio : Nat := 0
  /-- Asked for by run-ahead (R211). -/
  runAhead : Bool := false
  /-- It has its frame and its media read is issued; sectors of the page that have come, none lost. -/
  asked : Bool := false
  got : List (Nat × Option Blk) := []
  deriving DecidableEq, Repr

/-- A write-buffer line: one IU of one write (R411, R412), at its BSEQ. -/
structure Line where
  /-- Tract key: own ID, or 4,096 + ID for a foreign tract. -/
  tract : Nat := 0
  iu : Nat := 0
  kid : Nat := 0
  /-- Covered blocks of the IU with their content: (block index within the IU, content), in rising order. -/
  data : List (Nat × Blk) := []
  /-- Bytes it covers. -/
  bytes : Nat := 0
  /-- Command that wrote it. -/
  cmd : Option Nat := none
  fua : Bool := false
  /-- Byte offset of its data in the half of the write buffer that holds it (R32). -/
  off : Nat := 0
  /-- Its blocks count in PROGRAMMED of their write (R467). -/
  counted : Bool := false
  /-- The partner holds it, or no mirror is awaited. -/
  mirrored : Bool := false
  /-- A MIRROR_WRITE has been sent, at this time in ns; the partner may hold a copy. -/
  sent : Bool := false
  sentAt : Nat := 0
  /-- Its write's completion is posted, or its write has ended; order of acknowledgement (R215). -/
  acked : Bool := false
  ackNo : Nat := 0
  /-- BSEQ of the line that superseded it (R24, R425). -/
  superBy : Option Nat := none
  /-- A DESTAGE task has been made for it, and the task has handed it over (R886). -/
  tasked : Bool := false
  handed : Bool := false
  /-- Media address given at destage (R182), and the IU's blocks as programmed (R216). -/
  place : Option Nat := none
  merged : List Blk := []
  /-- Sectors of the older version the merge still needs, and those delivered (R216). -/
  got : List (Nat × Option Blk) := []
  /-- Its IU is programmed with its line's parity (R218). -/
  programmed : Bool := false
  /-- Journal SEQ of its map update, once made; the update was refused as older (R24). -/
  jseq : Option Nat := none
  /-- Its map update counts as mirrored (R218). -/
  destaged : Bool := false
  /-- HEAL_REQ outstanding (R460); not healed, content lost (R461, R462). -/
  healing : Bool := false
  lost : Bool := false
  /-- Blocks that lie under a damaged node (R578); healed while they do, to be written back after the reseal (R581). -/
  dark : List Nat := []
  healed : Bool := false
  /-- A line of the partner that a takeover replays (R424, R425). -/
  replay : Bool := false
  deriving DecidableEq, Repr

/-- A stream of the run-ahead table (R209). -/
structure Stream where
  tract : Nat := 0
  next : Nat := 0
  count : Nat := 0
  last : Nat := 0
  deriving DecidableEq, Repr

/-- A journal page that is closed: its SEQ range, and its place in a journal stripe once it has one (R225). -/
structure JPage where
  /-- First SEQ. -/
  first : Nat := 0
  /-- Last SEQ. -/
  last : Nat := 0
  /-- Media address. -/
  place : Option Nat := none
  deriving DecidableEq, Repr

/-- The map engine (R176 to R242) beyond its registers. -/
structure Tly where
  /-- Tracts by key: own IDs, or 4,096 + ID for foreign ones. -/
  tracts : Map Tract := []
  /-- Directory by global map page; an unlisted page is FRESH. -/
  dir : Map Dir := []
  /-- Map frames by global map page (R186). -/
  frames : Map (Option Frame) := []
  /-- Entries of resident pages, at 2,048 × page + index; an unlisted entry is TRIMMED with WVER 0. -/
  ent : Map Nat := []
  /-- Directory cache of B01 and B02: global map pages held in each of its 262,144 sets of four ways (Table TLY-6). -/
  dcache : Map (List Nat) := []
  /-- CLOCK hand of R193: the frame index swept last. -/
  hand : Nat := 0
  /-- The fault table, by map page (R198). -/
  loads : Map (Option Load) := []
  /-- Tasks waiting for a fault-table slot (R203). -/
  slotWait : List Waiter := []
  /-- The stream table (R209). -/
  streams : Map Stream := []
  /-- Pre-translations held: (tract, IU) (R210). -/
  pre : List (Nat × Nat) := []
  /-- Own lines by BSEQ, and foreign lines (the partner's mirror copies) by the partner's BSEQ. -/
  lines : Map (Option Line) := []
  flines : Map (Option Line) := []
  /-- Copies of this part's own data that the survivor holds and sends with OWN_HALF, by the survivor's BSEQ (R430). -/
  rlines : Map (Option Line) := []
  /-- Next BSEQ. -/
  bseq : Nat := 1
  /-- BSEQs named in a LINE_RELEASE and not yet in a RELEASE_ACK (R413). -/
  releasing : List Nat := []
  /-- Acknowledgements given so far, the order of R215. -/
  acks : Nat := 0
  /-- Anchor record last written, and the one whose pages are being programmed (R231). -/
  anchor : Option Anchor := none
  ckAnchor : Option Anchor := none
  /-- Group served last by the destage round robin (R215). -/
  rrGroup : Nat := 15
  /-- BSEQ of the line whose destage last updated an IU, at 2^40 × tract + IU (R24); 0 none. -/
  lastBseq : Map Nat := []
  /-- Own journal records by SEQ (R224). -/
  jr : Map (Option JRec) := []
  /-- Highest SEQ mirrored, and highest SEQ programmed to flash. -/
  jMir : Nat := 0
  jProg : Nat := 0
  /-- Journal pages closed and not yet on flash, and those on flash that rebuild still needs: last SEQ, place. -/
  jPages : List JPage := []
  jFlash : List (Nat × Nat) := []
  /-- First SEQ of the open journal page. -/
  jOpen : Nat := 1
  /-- CKPT_BEGIN SEQ of the checkpoint that runs, and of the last completed one. -/
  ckBegin : Nat := 0
  ckLast : Nat := 1
  /-- Pages the running checkpoint still writes (R230). -/
  ckPages : List Nat := []
  /-- Directory pages changed since the last checkpoint of their half (R230). -/
  ckDirs : List Nat := []
  /-- Media address of each directory page on flash: the content of the checkpoint root; and of each half's root (R230). -/
  root : Map Nat := []
  rootAt : List Nat := [0, 0]
  /-- Places of directory pages and root that the running checkpoint has handed to the programs: address, sectors. -/
  ckPlaces : List (Nat × Nat) := []
  /-- The running checkpoint has placed its root. -/
  ckRooted : Bool := false
  /-- A trigger fired while a checkpoint ran (R232). -/
  ckPend : Bool := false
  /-- A running checkpoint covers the foreign half (R240). -/
  ckForeign : Bool := false
  /-- Next SEQ, and highest checkpoint number, of the series of the partner whose map this part holds (R884). -/
  fSeq : Nat := 1
  fNum : Nat := 0
  /-- Map pages dirtied since the last CKPT_BEGIN. -/
  ckDirtied : List Nat := []
  /-- The own map is usable (R236); time its rebuild began, ns. -/
  usable : Bool := false
  rebuildAt : Nat := 0
  /-- Pages with records still to replay: page, records in SEQ order (R234). -/
  replay : Map (List (Nat × JRec)) := []
  /-- Mirror ring: the partner's records by SEQ, its start and the highest SEQ stored without a gap (R891). -/
  mring : Map (Option JRec) := []
  mStart : Nat := 1
  mAck : Nat := 0
  /-- TLY_FAULT_TABLE_FULL and TLY_MIRROR_RING_HIGH posted in this episode. -/
  fullEp : Bool := false
  ringEp : Bool := false
  deriving DecidableEq, Repr

/-- Where a task stands (R251, R254, R201, R443). -/
inductive TaskSt where
  /-- In the on-chip ready list. -/
  | ready
  /-- In the spillway. -/
  | spilled
  /-- On an engine; slot 1 of a prefetch-slot engine when the flag is set. -/
  | running (engine : Nat) (slot1 : Bool)
  /-- On the wait list of a map page. -/
  | waitPage (mpn : Nat)
  /-- Waits for a fault-table slot (R203). -/
  | waitSlot
  /-- Waits for a retry's backoff (R283). -/
  | backoff
  deriving DecidableEq, Repr

/-- A task (Table DCK-2). -/
structure Task where
  kind : Nat := 0
  internal : Bool := false
  prio : Nat := 0
  pool : Nat := 0
  aff : Option Nat := none
  preempts : Nat := 0
  noPreempt : Bool := false
  tag : Option Nat := none
  seg : Nat := 0
  epoch : Nat := 0
  deadline : Nat := 0
  ready : Nat := 0
  /-- Time of the last entry to the ready list, for R290. -/
  listed : Nat := 0
  /-- Its wait for a context slot has been counted (R280). -/
  stall : Bool := false
  /-- Time of the present dispatch, ns. -/
  started : Nat := 0
  /-- Context slot when RESUME = 1. -/
  ctx : Option Nat := none
  retries : Nat := 0
  requeued : Bool := false
  /-- Engine that must not take the task again (R283). -/
  notOn : Option Nat := none
  /-- Not asked to yield before this time, ns (Table DCK-6). -/
  notAsked : Nat := 0
  /-- Landing that created it, and the 16-byte payload (Table DCK-2 ARG3). -/
  landing : Option Nat := none
  payload : Nat := 0
  /-- Producer token of a CREATE (Table FAB-6). -/
  token : Nat := 0
  st : TaskSt := .ready
  deriving DecidableEq, Repr

/-- A context record (Table DCK-5). -/
structure Ctx where
  task : Nat := 0
  park : Nat := 0
  reason : Nat := 0
  /-- The task descriptor at park time; host address, SGL descriptor and offset, and tweak position at the park point. -/
  desc : Nat := 0
  haddr : Nat := 0
  sglIdx : Nat := 0
  sglOff : Nat := 0
  tweak : Nat := 0
  /-- Pinned translation: 1 media address, 2 buffer line. -/
  pinKind : Nat := 0
  pin : Nat := 0
  /-- Pins of R205: sources of the blocks of the IUs translated and not yet transferred wholly. -/
  pins : List Src := []
  /-- Engine state of pools 1 to 4: pages copied, source and target block. -/
  hard : Nat := 0
  /-- Context returned by a landing engine with YIELD. -/
  user : Nat := 0
  deriving DecidableEq, Repr

/-- An engine beyond its register fields. -/
structure Eng where
  preemptable : Bool := false
  /-- Deregistered: freed when its task ends or yields (R263). -/
  leaving : Bool := false
  /-- Answer timer expired while BUSY (Table DCK-6). -/
  late : Bool := false
  /-- Abandoned task whose late answer is still awaited. -/
  abandoned : Bool := false
  /-- The present ask is a yield by R264, not a pre-emption. -/
  yield264 : Bool := false
  deriving DecidableEq, Repr

/-- A message the Deck sends to a landing engine (R281). -/
inductive EngMsg where
  /-- DISPATCH: engine, task, RESUME with its USER context, whether for slot 1, and the 64-byte descriptor (R281, R288). -/
  | dispatch (engine task : Nat) (resume : Bool) (user : Nat) (slot1 : Bool) (desc : Nat)
  | preempt (engine tag : Nat)
  | abandon (engine tag : Nat)
  | registerAck (landing status engine : Nat)
  | createAck (landing token status : Nat)
  | descLost (landing token : Nat)
  deriving DecidableEq, Repr

/-- The Deck (R243 to R292) beyond its registers. -/
structure Dck where
  /-- Tasks by a running number, which also gives arrival order. -/
  tasks : Map (Option Task) := []
  nextTask : Nat := 0
  ctxs : Map (Option Ctx) := []
  engs : Map Eng := []
  /-- Pre-emption in progress: pool to victim task (R274). -/
  preempting : Map (Option Nat) := []
  /-- Messages sent to landing engines, in order. -/
  sent : List EngMsg := []
  /-- Episodes: DCK_SPILLWAY_FULL per priority, DCK_POOL_EMPTY per pool. -/
  spillEp : Map Bool := []
  emptyEp : Map Bool := []
  /-- Engine-busy ns of each pool in the present 1 ms window, and its start (R291). -/
  busy : Map Nat := []
  winStart : Nat := 0
  /-- Tasks that stalled producers hold until their ring takes them: CREATEs whose CREATE_ACK is withheld, and tasks of the part's
  own producers (R256, R647). -/
  creates : List Task := []
  deriving DecidableEq, Repr

/-- For whom the media engine works: a command's block reads, a map page, a merge of a line at destage, a data or
parity program of a page row, the erase of a stripe, a relocation, the patrol, a raw sequence of a landing, an anchor
record of a checkpoint. -/
inductive Who where
  | cmd (key : Nat)
  | page (mpn : Nat)
  | merge (bseq : Nat)
  | row (stripe row : Nat) (parity : Bool)
  | erase (stripe : Nat)
  | reloc (stripe : Nat)
  | patrol (stripe : Nat)
  | raw (landing : Nat)
  | anchor (num : Nat)
  /-- Marks of a felled block, or a fresh defect table (R376, R377). -/
  | mark
  deriving DecidableEq, Repr

/-- Kinds of a LUN operation (Table MED-6). -/
inductive OpKind where
  | read | prog | erase | raw
  deriving DecidableEq, Repr

/-- An operation of a LUN queue (R311), with what its later steps need. The ladder steps of one read share its
number and differ in `step`. -/
structure Op where
  id : Nat := 0
  kind : OpKind := .read
  /-- Media address of the page, or of the erase block. -/
  addr : Nat := 0
  /-- Sectors of the page still wanted. -/
  secs : List Nat := []
  prio : Nat := 0
  /-- Arrival order. -/
  arr : Nat := 0
  who : Who := .patrol 0
  slc : Bool := false
  /-- Ladder step of a read, and its parent's step when it is an undercut step (R354). -/
  step : Nat := 0
  undercut : Option Nat := none
  /-- Cancelled, by Table REL-5. -/
  cancelled : Bool := false
  /-- Predicted to fail its hard decode, as found at the end of its transfer (R353). -/
  pred : Bool := false
  /-- The ladder step whose failed decode left the lowest syndrome weight so far, and that weight (R346); the soft sense it is,
from 1 (R345). -/
  best : Option (Nat × Nat) := none
  sense : Nat := 0
  /-- Time of issue, of the last resume, ns of array time run before the last suspend, suspends so far. -/
  issued : Nat := 0
  resumed : Nat := 0
  ran : Nat := 0
  susps : Nat := 0
  /-- Raw sequence, the TXN of its submission, and its result record is written (R320, R321, R326). -/
  raw : Raw := {}
  txn : Nat := 0
  ended : Bool := false
  /-- Retries spent (R443). -/
  retries : Nat := 0
  /-- Tract key and IU of the host data it serves. -/
  tract : Nat := 0
  iu : Nat := 0
  deriving DecidableEq, Repr

/-- A LUN beyond its status register (R310 to R319, R348). Operations beyond the 32nd of the list wait in the engines
of their producers (R311). -/
structure Lun where
  /-- A bring-up has recorded it as not populated (R302). -/
  absent : Bool := false
  /-- Bit of the row address from which its LUN number stands, by the parameter page (R303). -/
  lunBit : Nat := 0
  /-- Operations waiting, in order of arrival (R311). -/
  queue : List Op := []
  /-- The operation that runs; one per plane where it is a multi-plane operation (R318). -/
  cur : List Op := []
  /-- The suspended operation while a suspension stands, and the time it was suspended. -/
  susp : List Op := []
  suspAt : Nat := 0
  /-- Reads served in this suspension, and SUSP_READS when it began (R315). -/
  suspReads : Nat := 0
  suspMax : Nat := 0
  /-- Pages the present cache pipeline has moved (R319). -/
  cached : Nat := 0
  /-- Read offsets in force, 16 bytes; none since bring-up (R348). -/
  offsets : Option Nat := none
  /-- Temperature class (R350). -/
  temp : Nat := 0
  deriving DecidableEq, Repr

/-- A read in flight beyond the LUN (R313, R346): 0 sensed and waiting for the bus, 1 transferred and in hard decode,
2 in soft decode or stripe rebuild, 3 an undercut step whose data is held in a buffer (R357). -/
structure Rd where
  op : Op := {}
  stage : Nat := 0
  /-- Codewords of it that hold a decoder of its stage's kind (R343). -/
  dec : Nat := 0
  deriving DecidableEq, Repr

/-- One channel beyond its registers. -/
structure Chan where
  /-- Volume last selected on each CE_N (R301). -/
  sel : List Nat := [0, 0]
  /-- A retrain is due: it starts once the bus is free (R308). -/
  retrain : Bool := false
  /-- A failed training waits for its retry (R309). -/
  backoff : Bool := false
  /-- Data transfers since the last training pattern (R307). -/
  xfers : Nat := 0
  /-- Temperature of the media die at the last training, °C (R307). -/
  trainedAt : Option Int := none
  deriving DecidableEq, Repr

/-- One channel group beyond its registers (R328 to R334, R889). -/
structure Grp where
  /-- Sampled level of MG_OWN[g] as others drive it: some other driver pulls it low. -/
  otherLow : Bool := false
  /-- A CLAIM waits in UNOWNED, or is held during the 10 µs after a drain (R889). -/
  claimPend : Bool := false
  /-- Arbitration slot, 0 to 64. -/
  slot : Nat := 0
  /-- DRAINING has ended, the wire is released 10 µs later. -/
  releasing : Bool := false
  /-- The 10 µs after a win have not ended. -/
  enablePend : Bool := false
  /-- The four blocks of R377. -/
  anchors : List Nat := []
  /-- Garbage collection runs (R368), and the group holds fewer free stripes than GC_URGENT. -/
  gc : Bool := false
  urgent : Bool := false
  deriving DecidableEq, Repr

/-- Block table entry (Table REL-6), with the landing a block is lent to. -/
structure Bte where
  valid : Nat := 0
  st : Nat := 0
  age : Nat := 0
  rdc : Nat := 0
  landing : Nat := 0
  deriving DecidableEq, Repr

/-- States of a stripe. -/
inductive StSt where
  | free | opened | closed | degraded | erasing | refuge | reserved
  deriving DecidableEq, Repr

/-- A stripe (R371), at the key of its group, volume, LUN, plane and block. -/
structure Stripe where
  st : StSt := .free
  /-- 0 host, 1 relocation, 2 map, 3 journal (Table TLY-9). -/
  cls : Nat := 0
  /-- Erase-block addresses of the members in channel order, fixed at opening (R371). -/
  members : List Nat := []
  /-- Next free sector position of each data member (R182), in the order of `members` without the parity ones. -/
  pos : List Nat := []
  /-- Page rows handed to the programs so far. -/
  row : Nat := 0
  /-- Time of the last placement, and placements stand in the unfinished row (R883). -/
  placedAt : Nat := 0
  fresh : Bool := false
  erases : Nat := 0
  /-- Highest ERASES decoded from it since it was last erased (R369). -/
  seen : Option Nat := none
  /-- Rows not yet wholly programmed: row, data programs left, parity programs left. -/
  rows : List (Nat × Nat × Nat) := []
  /-- Member erases not yet ended (R369). -/
  erasesLeft : Nat := 0
  slc : Bool := false
  /-- A RELOCATE, REFRESH or REBUILD task exists (R366), and the next page it reads. -/
  tasked : Bool := false
  cursor : Nat := 0
  deriving DecidableEq, Repr

/-- An IU moved by a relocation (R367): its old address and WVER, the sectors still to be read, its new place. -/
structure Move where
  tract : Nat := 0
  iu : Nat := 0
  old : Nat := 0
  wver : Nat := 0
  left : Nat := 0
  /-- Stripe it leaves. -/
  src : Nat := 0
  place : Option Nat := none
  programmed : Bool := false
  deriving DecidableEq, Repr

/-- A felled-list entry (Table REL-9). -/
structure Fell where
  kind : Nat := 0
  cause : Nat := 0
  wher : Nat := 0
  hours : Nat := 0
  deriving DecidableEq, Repr

/-- The media engines of both dies (R293 to R387) beyond their registers. -/
structure Med where
  /-- Channel entries (2,048 bytes), and timing sets of each die (1,024 bytes), of the MEDIA segments, as numbers. -/
  entries : Nat := 0
  tsets : List Nat := [0, 0]
  /-- Ring area of each die: reliability header and eight ring tables (R351). -/
  ring : List Nat := [0, 0]
  /-- Dies that each MEDIA segment names, in the order of the image, and MEDIA_HASH (R395). -/
  masks : List Nat := []
  hash : Nat := 0
  /-- LUNs, at 64 × channel + LUN of the channel. -/
  luns : Map Lun := []
  /-- Channels. -/
  chans : Map Chan := []
  /-- Groups. -/
  grps : Map Grp := []
  /-- Reads in progress, in order of arrival. -/
  reads : List Rd := []
  /-- Operations made so far, and arrivals. -/
  nextOp : Nat := 1
  /-- The block table, by erase block. -/
  blocks : Map Bte := []
  /-- Stripes, by their key. -/
  stripes : Map Stripe := []
  /-- Open stripes: host and relocation stripe of each group, at 2 g and 2 g + 1; map stripe of each die at 32 + die, journal stripe at
  34, map stripe of the partner's groups of each die at 36 + die. -/
  opened : Map (Option Nat) := []
  /-- Units that relocators move (R368). -/
  moves : List Move := []
  /-- Operations ended by a LUN status timer that wait for a retry (R443). -/
  retry : List Op := []
  /-- Queued reads that a refuge save removed (R385), asked for again when fetching resumes. -/
  parked : List Op := []
  /-- The felling list, oldest first. -/
  felled : List Fell := []
  /-- Hours of the last block fellings of a LUN, at 64 × channel + LUN, newest first (R451). -/
  fellTimes : Map (List Nat) := []
  /-- Highest RSEQ used, and the newest complete refuge that stands (R385, R386). -/
  rseq : Nat := 0
  save : Option Refuge := none
  /-- Restored lines of a refuge not yet destaged (R386). -/
  restored : List Nat := []
  /-- MED_REFUGE_SHORT has been posted. -/
  shortPosted : Bool := false
  /-- A refuge save has been refused for width. -/
  wideRefused : Bool := false
  /-- Channels whose present bring-up is cold (R304). -/
  cold : List Nat := []
  deriving DecidableEq, Repr

/-- A flit on which an injection generator fired at its last send (R483): its number in the message, MODE, OFFSET and bytes
altered. -/
structure Hit where
  flit : Nat
  mode : Nat
  off : Nat
  bytes : Nat
  deriving DecidableEq, Repr

/-- A message with flits unacknowledged on a bundle (R402, R408): its first FSEQ, its flit count, how often its
oldest flit has been sent and when last. -/
structure TxEnt where
  msg : Msg
  fseq : Nat := 0
  flits : Nat := 1
  sends : Nat := 1
  sentAt : Nat := 0
  /-- Slot of its oldest flit as last sent (R401, R586). -/
  slot : Nat := 0
  /-- What injection generators do to its flits. -/
  hits : List Hit := []
  deriving DecidableEq, Repr

/-- A Levee bundle beyond its registers (R394 to R405, R582 to R586). -/
structure Bnd where
  /-- Next FSEQ to send, and messages sent and not wholly acknowledged, oldest first. -/
  fseq : Nat := 0
  unacked : List TxEnt := []
  /-- Next FSEQ expected; NAK outstanding for the present gap; NAKs set. -/
  rx : Nat := 0
  nak : Bool := false
  naks : Nat := 0
  /-- Credits held for VC0 to VC2, and credits returned to the partner since ACTIVE. -/
  credit : List Nat := [0, 0, 0]
  give : List Nat := [0, 0, 0]
  /-- MAC failures and FEC failures of the present 1 ms, and its start (R401). -/
  macs : Nat := 0
  fecs : Nat := 0
  winStart : Nat := 0
  /-- Key phases of the two directions (R585). -/
  txPhase : Bool := false
  rxPhase : Bool := false
  session : Nat := 0
  /-- Keys of the two directions (R583, R585). -/
  txKey : Nat := 0
  rxKey : Nat := 0
  /-- Flit slots sent since ACTIVE up to `slotAt`, ns (R401). -/
  slot : Nat := 0
  slotAt : Nat := 0
  /-- Key exchange: CERT and SHARE of the partner verified; their contents, and the own ephemeral key and random bytes
  (R582, R583). -/
  cert : Bool := false
  share : Bool := false
  pCert : LinkCert := {}
  pShare : LinkShare := {}
  eph : Nat := 0
  rnd : Nat := 0
  /-- IDENT of the partner as last checked. -/
  identOk : Bool := false
  /-- RATE codes of Table LVE-10: that of the partner, and the one in use (R393). -/
  pRate : Nat := 0
  rate : Nat := 0
  /-- Lanes locked in EQUALISE, bit per lane. -/
  locked : Nat := 0
  /-- The present bring-up is a probe of R429. -/
  probe : Bool := false
  probeDue : Bool := false
  deriving DecidableEq, Repr

/-- The Levee engine and pair state (R388 to R439) beyond its registers. -/
structure Lve where
  bnds : Map Bnd := []
  /-- Messages waiting for credit or for an ACTIVE bundle, with the bundle where it is prescribed. -/
  txq : List (Option Nat × Msg) := []
  /-- PARTNER_ALIVE_OUT level. -/
  aliveOut : Bool := false
  /-- Signals seen alive since CFG_DONE (R894), and a bundle reached ACTIVE since then. -/
  wireSeen : Bool := false
  linkSeen : Bool := false
  everActive : Bool := false
  /-- LEAVING received (R418). -/
  leaving : Bool := false
  /-- Partner data of IDENT and HEARTBEAT: stepping-checked die ID stands in LVE_PARTNER_ID. -/
  pGroups : Nat := 0
  pUpperMiB : Nat := 0
  pHome : Option Nat := none
  pPair : Nat := 0
  /-- TIME_ROLE of the partner's IDENT. -/
  pRole : Nat := 0
  pPfail : Bool := false
  pLimit : Nat := 0
  pDirty : Nat := 0
  /-- The partner's tracts by ID, as its last TRACT_SET records gave them (R391). -/
  pTracts : Map Tract := []
  /-- Foreign groups held by this part. -/
  foreign : Nat := 0
  /-- Groups of a takeover: the partner's groups at death declaration, and those already OWNED. -/
  tkGroups : Nat := 0
  deathAt : Nat := 0
  /-- Groups to claim as soon as they are UNOWNED (R421, R433). -/
  claims : Nat := 0
  /-- The link has fallen silent and no HEARTBEAT has verified since (R417). -/
  linkDead : Bool := false
  mapStep : Bool := false
  /-- Takeover: the foreign map is usable, and the foreign data has been replayed. -/
  replaying : Bool := false
  replayedMiB : Nat := 0
  /-- SEQ of the RESYNC JOURNAL message that must be acknowledged before any other starts (R891). -/
  rsStart : Nat := 0
  /-- RESYNC: own RESYNC_DONE sent, partner's received (R430). -/
  rsSent : Bool := false
  rsRcvd : Bool := false
  /-- Lines still to be copied in RESYNC. -/
  rsLeft : List Nat := []
  /-- Groups given back, and those the partner reports OWNED; the joining part's view of a hand-back. -/
  hbGroups : Nat := 0
  hbStage : Nat := 0
  joining : Nat := 0
  /-- R95: LVE has reached PAIRED since start. -/
  pairedOnce : Bool := false
  /-- Power failure (R435 to R438): PFAIL_N low, taken as a failure, acknowledgement wait, save begun, save complete,
  fetching held. -/
  pfLow : Bool := false
  pfTaken : Bool := false
  pfWait : Bool := false
  pfSave : Bool := false
  pfSaved : Bool := false
  pfHold : Bool := false
  /-- HEAL_REQs outstanding: BSEQ, HBM line that was found bad. -/
  heals : List (Nat × Nat) := []
  /-- A keeper trip has stopped the part (R892). -/
  stopped : Bool := false
  deriving DecidableEq, Repr

/-- A 64-byte line of HBM or of a scratchpad bank, its bytes read as one little-endian number. What a line holds that
nothing has written is a DESIGN CHOICE (log entry 14): zeroes, in plaintext, without poison. -/
structure MLine where
  data : Nat := 0
  /-- Poisoned (R493, R524). -/
  poison : Bool := false
  /-- KID and root key the content is encrypted under (R553, R573); 0 and 0 for plaintext. -/
  kid : Nat := 0
  key : Nat := 0
  deriving DecidableEq, Repr

/-- A bank of a pseudo-channel (R506, R510, R513), at 64 × pseudo-channel + bank. -/
structure HBank where
  /-- Activate table in slot order: row and count; at most 32. -/
  table : List (Nat × Nat) := []
  debt : Nat := 0
  fallback : Bool := false
  /-- Activates since the last RFM of a bank in fallback. -/
  acts : Nat := 0
  /-- Rows of its last targeted refresh, and refresh-management commands it has had (R511, R513). -/
  rows : List Nat := []
  rfms : Nat := 0
  deriving DecidableEq, Repr

/-- The HBM controllers (R490 to R522) beyond their registers. -/
structure Hbm where
  /-- Lines by HBM address / 64. -/
  lines : Map MLine := []
  banks : Map HBank := []
  /-- Pseudo-channels whose current tREFI runs in all-bank mode (REF_MODE of Table HBM-4). -/
  allBank : List Nat := []
  /-- Pseudo-channels that reached their threshold during an evacuation, in order (R522). -/
  waiting : List Nat := []
  /-- Times in ns of the last uncorrectable errors of a pseudo-channel, newest first (R451). -/
  ueTimes : Map (List Nat) := []
  /-- Stacks at 85 °C or more, with the release at 83 °C (R508), and at 95 °C or more (R509). -/
  hot85 : List Nat := []
  hot95 : List Nat := []
  deriving DecidableEq, Repr

/-- The scratchpad (R523 to R533) beyond its registers. -/
structure Spm where
  /-- Lines at 65,536 × bank + line. -/
  lines : Map MLine := []
  /-- Next word of a bank's sweep, and passes it has completed. -/
  at_ : Map Nat := []
  passes : Map Nat := []
  /-- Rows remapped to spares, and rows skipped for want of one, at 16,384 × bank + row. -/
  remapped : List Nat := []
  skipped : List Nat := []
  deriving DecidableEq, Repr

/-- A counter node of a sealed region (R558), at (8 × region + level) × 2^32 + index. A node not listed is fresh. -/
structure CNode where
  minors : Map Nat := []
  major : Nat := 0
  gen : Nat := 0
  /-- In the on-chip cache (R562), and changed since its last write-back. -/
  cached : Bool := false
  dirty : Bool := false
  deriving DecidableEq, Repr

/-- The crypto engines (R537 to R581) beyond their registers. -/
structure Cry where
  /-- Root key, or sealing key, of a loaded slot. -/
  keys : Map Nat := []
  nodes : Map (Option CNode) := []
  /-- Root counters at 64 × region + top node (R559). -/
  roots : Map Nat := []
  /-- Lines of HBM whose tag fails, by address / 64. -/
  badTags : List Nat := []
  /-- Damaged nodes: region, level, index (R577). -/
  damaged : List (Nat × Nat × Nat) := []
  /-- Regions whose re-key waits for the running one (R571); start time of the running one, ns. -/
  rekeyQ : List Nat := []
  rekeyAt : Nat := 0
  deriving DecidableEq, Repr

/-- A Skidway request at its requester or its target (Table NOC-3), at 1,024 × source NI + TXN. -/
structure Pkt where
  req : SkReq := {}
  dst : Nat := 0
  /-- Who it acts for, for R828. -/
  who : Req := .part
  level : Nat := 2
  epoch : Nat := 0
  attempt : Nat := 0
  /-- Sent on the alternate route (R600). -/
  alt : Bool := false
  sentAt : Nat := 0
  /-- The packet in transit, request or completion: ns of its injection and its place in the order of injections. -/
  leftAt : Nat := 0
  seq : Nat := 0
  /-- Handed to its unit, whose answer is awaited: the target timer runs (R611). -/
  atUnit : Bool := false
  /-- Held before its target: for the epoch broadcast (R598), at a sluice (R613), for a heal or a re-key (Table CRY-8). -/
  held : Bool := false
  /-- The target has answered: status and data travel back. -/
  answer : Option (Nat × Nat) := none
  /-- The completion travels on the alternate route (R603). -/
  ralt : Bool := false
  /-- Router that absorbed the request and sends the completion by its return table (R602, R606). -/
  retFrom : Option Nat := none
  /-- The requester's attempt has ended by its own timer; what still comes is discarded (R609). -/
  late : Bool := false
  /-- Discarded on its way: dropped or damaged at a boundary, or its completion absorbed (R606, R618). -/
  lost : Bool := false
  /-- Injection point of the boundary that holds it back until the next packet has crossed there (REORDER of Table FLT-10). -/
  parked : Option Nat := none
  /-- Waits for a retry's backoff (R443); status of its last attempt. -/
  backoff : Bool := false
  last : Nat := 0
  deriving DecidableEq, Repr

/-- Route-table entry of a requesting NI (R600), at 1,024 × NI + destination. A ROUTE that nothing has written is the
one of Table NOC-4. -/
structure Rte where
  pri : Option Nat := none
  alt : Option Nat := none
  pOk : Bool := true
  aOk : Bool := true
  deriving DecidableEq, Repr

/-- What an NI has handed back to its unit or to user logic: NI, TXN, status, data of a read (R596, R617, R643). -/
structure Got where
  ni : Nat := 0
  txn : Nat := 0
  status : Nat := 0
  data : Nat := 0
  deriving DecidableEq, Repr

/-- The Skidway (R589 to R621) beyond its registers. -/
structure Noc where
  /-- Requests that the skidders' transfers have put on the Skidway (R616), in order. -/
  skid : List SkReq := []
  /-- Requests outstanding, at 1,024 × NI + TXN. -/
  pkts : Map (Option Pkt) := []
  /-- Route tables of the NIs, at 1,024 × source + destination (R600). -/
  routes : Map Rte := []
  /-- Return tables, at 1,024 × router + NI (R602). -/
  rets : Map Rte := []
  /-- Packets injected; input port granted last at an output port, at 32 × router + port (R605). -/
  seq : Nat := 0
  rr : Map Nat := []
  /-- Closed ports, at 32 × router + port. -/
  closed : List Nat := []
  /-- Consecutive target timeouts of an NI, and ns since which it isolates its unit (R612). -/
  tmos : Map Nat := []
  isoAt : Map (Option Nat) := []
  /-- Answers delivered, in order. -/
  got : List Got := []
  /-- Requests handed to a unit behind a closed clock gate and not yet performed (R716, R717), oldest first. -/
  stuck : List (Nat × Pkt) := []
  deriving DecidableEq, Repr

/-- An arithmetic slice (R638, R639): operands in its input registers, oldest first, its result or accumulator, and OVF. -/
structure SliceSt where
  /-- Operands in the pipeline registers, oldest first. -/
  pipe : List (Nat × Nat × Nat × Nat) := []
  /-- Result or accumulator. -/
  acc : Nat := 0
  /-- OVF. -/
  ovf : Bool := false
  deriving DecidableEq, Repr

/-- A port of a fabric memory (R631, R635, R636): the read register and the output register; ps of the last access plus 1, its word,
whether it wrote, the word before it; COLLISION. -/
structure PortSt where
  /-- Read register. -/
  r1 : Nat := 0
  /-- Output register. -/
  r2 : Nat := 0
  /-- ps of the last access within its ns, plus 1. -/
  at_ : Nat := 0
  /-- Word of the last access. -/
  word : Nat := 0
  /-- The last access wrote. -/
  wrote : Bool := false
  /-- The word before it. -/
  old : Nat := 0
  /-- COLLISION (R636). -/
  coll : Bool := false
  /-- SBITERR and DBITERR of the last read (R632, R633). -/
  sbit : Bool := false
  dbit : Bool := false
  deriving DecidableEq, Repr

/-- A user I/O cell (R649): the DDR registers of its output and of its input, bit 0 for the rising edge; the last level of its
pin, which a keeper holds. -/
structure UioSt where
  /-- DDR registers of the output: bit 0 for the rising edge, bit 1 for the falling one. -/
  o : Nat := 0
  /-- DDR registers of the input. -/
  i : Nat := 0
  /-- Level a keeper holds. -/
  keep : Bool := false
  deriving DecidableEq, Repr

/-- The landings and the fabric (R622 to R659) beyond their registers. -/
structure Fab where
  /-- Flip-flops of a cluster, bit 2k + f, at 64 × (768 × die + tile) + cluster (R622, R656). -/
  ffs : Map Nat := []
  /-- Content of a LUT that acts as distributed RAM, once written, at 16 × cluster key + cell (R623). -/
  luts : Map (Option Nat) := []
  /-- Last level of a logic clock, at 2 × cluster key + control set (R641). -/
  clks : Map Bool := []
  /-- Ports of memories, at 2 × (65,536 × die + memory) + port. -/
  ports : Map PortSt := []
  /-- Slices, at 1,152 × die + slice. -/
  slices : Map SliceSt := []
  /-- End registers of bridge lines: bit 0 at the sender, bit 1 at the receiver (R626). -/
  bridges : Map Nat := []
  /-- Value that the keeper of a spine line holds, at 1,536 × die + line (R629). -/
  keeper : Map Bool := []
  /-- User I/O cells, at 96 × die + cell. -/
  uio : Map UioSt := []
  /-- Draw of the content of memories that is undefined since the part was refused (Table BOT-9). -/
  memLost : Option Nat := none
  /-- Shadow cells of a running readback by cluster key: the flip-flops captured, and their values (R654). -/
  shadow : Map (Nat × Nat) := []
  /-- Requests handed to user logic on TREQ, by packet key (R644). -/
  treq : List Nat := []
  /-- Requests on TREQ that the target's timer has retired and user logic has not answered (R611). -/
  late : List Nat := []
  /-- Spine lines disabled, at 1,536 × die + line: frames reported and not yet compared or repaired (R629, R630). -/
  spines : Map (Option (List Nat)) := []
  /-- Stands of the running readback with state and tile count at the capture, and the stands held by MODE 1 (R653,
  R655); flip-flops still wait for an edge of their clock (R654). -/
  rbLeft : List (Nat × Nat × Nat) := []
  rbWait : Bool := false
  stopped : List Nat := []
  /-- EN of each landing as its image sets it (Table PWR-3). -/
  img : Map Nat := []
  deriving DecidableEq, Repr

/-- A polder's transition (Table PWR-2): ns of its cause, and whether a RESET runs rather than a DOWN. -/
structure Pol where
  at_ : Nat := 0
  reset : Bool := false
  /-- A DOWN waits for the end of the power-up (R729). -/
  downNext : Bool := false
  deriving DecidableEq, Repr

/-- Power control and the epoch ratchet (R725 to R743) beyond their registers. -/
structure Pwr where
  pols : Map Pol := []
  /-- Power-ups waiting, in order of their causes (R729). -/
  upQ : List Nat := []
  /-- Polders that DEEP powered down, in ascending order (R732). -/
  deepOff : List Nat := []
  /-- State to enter once they are up again. -/
  target : Option Nat := none
  /-- Doorbell writes held for a wake: function, CQ?, queue, value (R732). -/
  doorbells : List (Nat × Bool × Nat × Nat) := []
  /-- ns of the last accepted write of GLB_EPOCH_NEXT. -/
  ratchetAt : Nat := 0
  /-- Units that have not yet shown the new epoch. -/
  left : List Nat := []
  /-- Registers of the switched polders as the image had set them at the start sequence (Table REG-3). -/
  image : Map Nat := []
  /-- Crossings that fence an instance (Table PWR-6, 1 to 6; crossing 0 stands in NOC_NI_STAT.FENCED). -/
  fences : List (Nat × Nat) := []
  deriving DecidableEq, Repr

/-- A scanned or memory-content frame (R660, R690): the configuration memory's content, the image cache's copy, its
golden signature (none: the one of the content 0), skipped until a full load (R694), changed by CRU_INJ_GO (R696). -/
structure Frm where
  live : Nat := 0
  cache : Nat := 0
  gold : Option Nat := none
  skip : Bool := false
  inj : Bool := false
  deriving DecidableEq, Repr

/-- A load request (R674): stand, source (0 library, 1 HBM), index or address, the stand's state before, ns of its
admission, the STAND_LOAD command that made it. -/
structure SlReq where
  stand : Nat := 0
  src : Nat := 0
  addr : Nat := 0
  was : Nat := 1
  at_ : Nat := 0
  key : Option Nat := none
  deriving DecidableEq, Repr

/-- The stand loader (R674 to R687) beyond its registers. -/
structure Sl where
  /-- Requests whose stands are QUEUED, oldest first. -/
  queue : List SlReq := []
  /-- The load that runs: its request and image. -/
  cur : Option SlReq := none
  img : PImg := {}
  /-- Bytes of run records still to come, last frame address, scanned frames written, memories carried (frame address of
  frame 0 of the memory). -/
  left : Nat := 0
  last : Option Nat := none
  scanned : Nat := 0
  mems : List Nat := []
  /-- Bytes of the run records so far (FRAME_HASH of Table STD-4). -/
  runs : List Nat := []
  /-- Partial images of the running image's LIBRARY segment (R673). -/
  lib : Nat := 0
  /-- Dikes of a stand whose load has reached step 5 and not step 8: value held by each latch (R679, R680). -/
  dikes : Map (Option (List Bool)) := []
  /-- Enabled spine drivers of each line, at 1,536 × die + line: bit per column (R628). -/
  drivers : Map Nat := []
  frames : Map Frm := []
  deriving DecidableEq, Repr

/-- The Cruiser (R688 to R696) beyond its registers. -/
structure Cru where
  /-- Lowest frame address not yet scanned in this pass, and ns of its start. -/
  at_ : Nat := 0
  started : Nat := 0
  /-- Contention reports to serve, at most 8, and those that wait in the detectors. -/
  queue : List Nat := []
  waiting : List Nat := []
  /-- The repair that runs: frame address. -/
  repair : Option Nat := none
  /-- Times in ns of the last hits of a frame, newest first (R451); permanent frames. -/
  hits : Map (List Nat) := []
  perm : List Nat := []
  deriving DecidableEq, Repr

/-- A lane beyond its registers (R744 to R777). -/
structure Lane where
  /-- Own RX_READY sent, partner RX_READY received, RESULT of the partner's last request. -/
  own : Bool := false
  partner : Bool := false
  result : Nat := 0
  /-- ns at which an IDLE lane lost its signal, since which a balance freeze lasts, since which the transmitter has been in
  electrical idle. -/
  idleAt : Nat := 0
  frozenAt : Option Nat := none
  elecAt : Nat := 0
  /-- The transmitter sends only idle pattern (R757). -/
  pattern : Bool := false
  /-- RATE, PRECODE and TRAIN of the present bring-up. -/
  rate : Nat := 0
  precode : Bool := false
  train : Bool := false
  deriving DecidableEq, Repr

/-- The references and the root PLL (R700 to R707) beyond their registers. -/
structure Clk where
  /-- Consecutive good windows of the recovered clock and of the local reference. -/
  good : Nat := 0
  goodLocal : Nat := 0
  /-- Every derived clock has stopped (R707). -/
  stopped : Bool := false
  deriving DecidableEq, Repr

/-- One MSI-X vector of a function (R796, R798): an entry of its table and its PBA bit. Vectors are masked
after reset, as PCI Express requires of an MSI-X table entry (PRESUMED, log entry 5). -/
structure Vec where
  masked : Bool := true
  pending : Bool := false
  addr : Nat := 0
  data : Nat := 0
  deriving DecidableEq, Repr

/-- The PCIe port (R781 to R807) beyond its registers. -/
structure Pci where
  /-- PERST_N is low. Its level at power-on is the host's; high here (log entry 3). -/
  perst : Bool := false
  /-- A reset of Table PCI-3 holds the port: from PERST_N low to its rise, or from a link down to the next link up. -/
  inReset : Bool := false
  /-- Vectors at 4,096 × function + vector. -/
  vecs : Map Vec := []
  /-- MSI-X messages that wait for Bus Master Enable (R802). -/
  held : List (Nat × Nat) := []
  vfEn : Bool := false
  numVfs : Nat := 0
  totalVfs : Nat := 0
  /-- PCIe settings of a fallback image, applied at the next PERST_N (R88). -/
  deferred : Option PcieSet := none
  /-- Width before the L0p narrowing in force (R786). -/
  fullWidth : Nat := 0
  /-- BAR4: its size now and the largest of the PCIE segment, GiB (R792). -/
  bar4 : Nat := 1
  bar4Max : Nat := 1
  /-- Functions with Enable Relaxed Ordering set, and with Completion Timeout Disable set (R783, R784). -/
  relaxed : List Nat := []
  noTmo : List Nat := []
  /-- Max_Payload_Size and Max_Read_Request_Size of a function, as Device Control codes (R782). -/
  mps : Map Nat := []
  mrrs : Map Nat := []
  /-- Difference between the host's clock and the part's on this link, ppm (R789). -/
  ppm : Nat := 0
  /-- Correctable errors logged in the PF, in the layout of the Correctable Error Status register (R805). -/
  corr : Nat := 0
  deriving DecidableEq, Repr

/-- The test access port (R871 to R876): instruction register, boundary register, and what the driver-enable backstop of the MG_OWN
wires needs. -/
structure Tap where
  /-- Instruction register: IDCODE after Test-Logic-Reset (log entry 204). -/
  ir : Nat := 2
  bsr : List BCell := []
  /-- ns counted since power first came, whatever clocks stand; the count at which a wire was last sampled low. -/
  ns : Nat := 0
  lowAt : Map Nat := []
  /-- Wires that the boundary register pulls, and those that had been high for 200 µs at the pull (R875). -/
  pulls : Nat := 0
  free : Nat := 0
  deriving DecidableEq, Repr

/-- The part. Registers of every block stand in one store, each field at its own key (`Fld.key`); state that no
register shows stands in the unit's record. Plain data throughout. -/
structure State where
  /-- The commands that wait, first in, first out. -/
  pending : List Instr := []
  /-- Register fields by key; an unlisted key holds the field's reset value. -/
  regs : Map Nat := []
  /-- High word latched by a _LO read: requester code × 2^40 + offset of the _LO word (R817, R819). -/
  shadow : Map (Option Nat) := []
  /-- Low word staged by a _LO write, by the same key (R818, R819). -/
  stage : Map (Option Nat) := []
  /-- The 64-bit time base, ns (R834). -/
  time : Nat := 0
  /-- Free values drawn so far (the model's own field, log entry 4). -/
  fresh : Nat := 0
  /-- What the part has sent to the host. -/
  out : List Out := []
  fuses : Fuses := {}
  evt : Evt := {}
  gens : Map Gen := []
  qqp : Qqp := {}
  tly : Tly := {}
  dck : Dck := {}
  pci : Pci := {}
  cfg : Cfg := {}
  lve : Lve := {}
  med : Med := {}
  hbm : Hbm := {}
  spm : Spm := {}
  cry : Cry := {}
  noc : Noc := {}
  fab : Fab := {}
  pwr : Pwr := {}
  sl : Sl := {}
  cru : Cru := {}
  lanes : Map Lane := []
  clk : Clk := {}
  tap : Tap := {}
  deriving DecidableEq, Repr

/-- Stops of the block. The spec gives every command of the table an effect, so nothing faults. -/
inductive Fault where
  deriving DecidableEq, Repr

/-- Reasons to refuse a command. -/
inductive Refusal where
  /-- The command has no meaning yet; answered only by an arm of `exec` that names it. Safe. -/
  | notModelled (mnemonic : String)
  deriving DecidableEq, Repr

/-- The part right after power-on reset, with nothing commanded yet (R812, R853): every register at the value
its table's Reset column gives, every buffer and table empty. Values the spec does not state are those of log
entries 3 and 4. -/
def State.reset : State := {}

/-- The canonical form of what is kept by address: the register store and the lines of the HBM and of the scratchpad stand in
rising order of their keys, and no line equal to what an unlisted line reads as (zero plaintext, log entry 14) is listed.
Equal memories are so equal data. -/
def Memory.wf (s : State) : Bool := Map.above 0 s.regs && Map.wf {} s.hbm.lines && Map.wf {} s.spm.lines

end Sys2Proof.Machine
end

