-- ==== Sys2Proof/Machine/Ops.lean ====
section
/-! DEFINITION. The named operations every meaning is built from: reading and writing a register field, counting,
drawing a free value, sending an MSI-X message, posting an event record and recording a refused write. -/

namespace Sys2Proof.Machine
open Sys2Proof

/-! ### Register fields -/

/-- Value of a register field (R810). -/
def State.rd (s : State) (f : Fld) (i : Nat := 0) (j : Nat := 0) : Nat :=
  Map.get (f.reset i) s.regs (f.key i j)

/-- Sets a register field, cut to its width. -/
def State.put (s : State) (f : Fld) (v : Nat) (i : Nat := 0) (j : Nat := 0) : State :=
  { s with regs := Map.set (f.reset i) s.regs (f.key i j) (f.cut v) }

/-- A one-bit field as a Bool. -/
def State.on (s : State) (f : Fld) (i : Nat := 0) (j : Nat := 0) : Bool := s.rd f i j != 0

/-- Sets a one-bit field from a Bool. -/
def State.flag (s : State) (f : Fld) (b : Bool) (i : Nat := 0) (j : Nat := 0) : State := s.put f (b2n b) i j

/-- A counter rises by `n` and stops at the largest value its field holds (R822). -/
def State.bump (s : State) (f : Fld) (n : Nat := 1) (i : Nat := 0) (j : Nat := 0) : State :=
  s.put f (min (s.rd f i j + n) (2 ^ f.w - 1)) i j

/-- A follower value falls by `n`, not below 0. -/
def State.drop (s : State) (f : Fld) (n : Nat := 1) (i : Nat := 0) (j : Nat := 0) : State :=
  s.put f (s.rd f i j - n) i j

/-- A maximum register keeps the largest measurement (R822). -/
def State.raise (s : State) (f : Fld) (v : Nat) (i : Nat := 0) (j : Nat := 0) : State :=
  s.put f (max (s.rd f i j) (min v (2 ^ f.w - 1))) i j

/-- A 64-bit value held by a _LO and _HI pair (R816). -/
def State.rd64 (s : State) (lo hi : Fld) (i : Nat := 0) : Nat := s.rd lo i + 2 ^ 32 * s.rd hi i

/-- Sets both words of a pair. -/
def State.put64 (s : State) (lo hi : Fld) (v : Nat) (i : Nat := 0) : State :=
  (s.put lo (v % 2 ^ 32) i).put hi (v / 2 ^ 32) i

/-- Registers whose word offset satisfies `p` take their reset values (R812); shadows and stages of theirs go (R817). -/
def State.dropRegs (s : State) (p : Nat → Bool) : State :=
  { s with regs := Map.keep (fun k _ => !p (2 ^ 20 * (k / 2 ^ 40) + k % 2 ^ 40 / 32 * 4)) s.regs
           shadow := Map.keep (fun k _ => !p (k % 2 ^ 40)) s.shadow
           stage := Map.keep (fun k _ => !p (k % 2 ^ 40)) s.stage }

/-! ### Free values, time and guards -/

/-- The free number of this draw. -/
def State.freeNat (s : State) : Nat := Config.freeNat s.fresh

/-- The free choice of this draw. -/
def State.freeBool (s : State) : Bool := Config.freeBool s.fresh

/-- `n` draws are spent. -/
def State.draws (s : State) (n : Nat) : State := { s with fresh := s.fresh + n }

/-- The draw is spent. -/
def State.drawn (s : State) : State := s.draws 1

/-- Time base in whole µs, low 32 bits (Table FLT-5). -/
def State.us (s : State) : Nat := s.time / 1000 % 2 ^ 32

/-- Nothing of the part runs: its derived clocks have stopped (R707), the power-on reset is asserted (R854, R870), or a test
instruction holds it (R874). -/
def State.dark (s : State) : Bool := s.clk.stopped || s.cfg.held || s.cfg.test

/-- An effect that happens only while the part runs and under a condition; where the condition of an event does not hold
the event does not concern the part and nothing changes (log entry 6). -/
def State.when (s : State) (c : Bool) (f : State → State) : State := if c && !s.dark then f s else s

/-! ### Host-bound signals -/

/-- The part may send TLPs for a function: the link is up, no function-level reset runs, Bus Master Enable is set
and the function is in D0 (R800, R802). -/
def State.master (s : State) (fn : Nat) : Bool :=
  s.on F.PCI_FN_STAT_BME fn && s.rd F.PCI_FN_STAT_DSTATE fn == 0

/-- A TLP for a function can leave now: as `master`, with no reset of Table PCI-3 in progress (R800, R802). -/
def State.tlpOk (s : State) (fn : Nat) : Bool := s.master fn && !s.pci.inReset && !s.on F.PCI_FN_STAT_FLR fn

/-- Max_Payload_Size of a function, at most 512 bytes (R782, Table PCI-1). -/
def State.maxPayload (s : State) (fn : Nat) : Nat := min 512 (128 * 2 ^ Map.get 0 s.pci.mps fn)

/-- Max_Read_Request_Size of a function (R782). -/
def State.maxRead (s : State) (fn : Nat) : Nat := min 4096 (128 * 2 ^ Map.get 2 s.pci.mrrs fn)

/-- Spans of at most `f` requests that cover `n` bytes from a host address: none is longer than `mx` or crosses a 4 KiB boundary
(R782): address, offset, length. -/
def tlps (mx : Nat) : Nat → Nat → Nat → Nat → List (Nat × Nat × Nat)
  | 0, _, _, _ => []
  | f + 1, a, o, n =>
    if n = 0 then []
    else
      let m := min (min n mx) (4096 - a % 4096)
      (a, o, m) :: tlps mx f (a + m) (o + m) (n - m)

/-- Writes of function `fn` that carry `n` bytes to a host address. -/
def State.dataTlps (s : State) (fn a n val : Nat) (relaxed : Bool) : List Out :=
  let mx := s.maxPayload fn
  (tlps mx (n / 64 + 2) a 0 n).map (fun x => Out.data x.1 x.2.2 (val / 2 ^ (8 * x.2.1) % 2 ^ (8 * x.2.2)) relaxed)

/-- Sends an MSI-X message, or holds it: dropped while a port reset covers the function or MSI-X Enable is 0,
pending while masked, waiting while the function may not master the bus (R798, R800, R802). -/
def State.msix (s : State) (fn vec : Nat) : State :=
  if s.pci.inReset || s.on F.PCI_FN_STAT_FLR fn then s
  else if !s.on F.PCI_FN_STAT_MSIX_EN fn then s
  else
    let k := 4096 * fn + vec
    let v := Map.get {} s.pci.vecs k
    if v.masked || s.on F.PCI_FN_STAT_FN_MASK fn then
      { s with pci.vecs := Map.set {} s.pci.vecs k { v with pending := true } }
    else if !s.master fn then { s with pci.held := s.pci.held ++ [(fn, vec)] }
    else { s with out := s.out ++ [.msix fn vec] }

/-! ### The event ledger (R473 to R480) -/

/-- Record number `a` comes at or after `b`: `a` is reached from `b` by counting forward through fewer than 2^31
record numbers, 0 not counted (R474). Record numbers run from 1 to 2^32 - 1. -/
def seqAtOrAfter (a b : Nat) : Bool :=
  (a + (2 ^ 32 - 1) - b) % (2 ^ 32 - 1) < 2 ^ 31

/-- The record number after `n`, skipping 0 (R474). -/
def seqNext (n : Nat) : Nat := if n + 1 = 2 ^ 32 then 1 else n + 1

/-- Signals the event vector, at most once in any 10 µs (R478). -/
def State.evtSignal (s : State) : State :=
  if s.evt.sigBusy then { s with evt.sigPend := true }
  else { s.msix 0 (s.rd F.EVT_CTL_VECTOR) with evt.sigBusy := true }

/-- A record of this severity is signalled (R478). -/
def State.qualifies (s : State) (sev : Nat) : Bool :=
  s.on F.EVT_CTL_INT_EN && decide (s.rd F.EVT_CTL_MIN_SEV ≤ sev)

/-- The record that posting makes now (Table FLT-8, R474, R475). -/
def State.evtRec (s : State) (src code arg0 : Nat) (tag : Option Nat) (arg2 : Nat) : Rec :=
  let old := Map.get {} s.evt.ring (s.rd F.EVT_HEAD)
  { seq := s.rd F.EVT_SEQ, code := code, sev := sevOf code
    lostBefore := old.seq != 0 && seqAtOrAfter old.seq (s.rd F.EVT_ACK)
    source := src, time := s.time, arg0 := arg0 % 2 ^ 32, tag := tag, arg2 := arg2 % 2 ^ 64 }

/-- Writes a record at EVT_HEAD, over the oldest one, counting an unacknowledged record it overwrites; then
signals it if it qualifies (R474, R475, R478). -/
def State.evtWrite (s : State) (r : Rec) : State :=
  let h := s.rd F.EVT_HEAD
  let s1 := { s with evt.ring := Map.set {} s.evt.ring h r }
  let s2 := if r.lostBefore then s1.bump F.EVT_LOST else s1
  let s3 := (s2.put F.EVT_HEAD ((h + 1) % 4096)).put F.EVT_SEQ (seqNext r.seq)
  if s3.qualifies r.sev then s3.evtSignal else s3

/-- Posts an event from block `src`, within the code's rate limit (R476). -/
def State.postFrom (s : State) (src code arg0 : Nat) (tag : Option Nat) (arg2 : Nat) : State :=
  let w := Map.get {} s.evt.wins code
  let w := if w.limit = 0 then { w with limit := max 1 (s.rd F.EVT_RATE) } else w
  if w.posted < w.limit then
    { s with evt.wins := Map.set {} s.evt.wins code { w with posted := w.posted + 1 } }.evtWrite
      (s.evtRec src code arg0 tag arg2)
  else
    { s with evt.wins := Map.set {} s.evt.wins code { w with suppressed := w.suppressed + 1 } }.bump
      F.EVT_SUPPRESSED

/-- Posts an event of the block its code belongs to (R477). -/
def State.post (s : State) (code : Nat) (arg0 : Nat := 0) (arg2 : Nat := 0) (tag : Option Nat := none) : State :=
  s.postFrom (code / 256) code arg0 tag arg2

/-- A requester's number in event records (Table FLT-9). The part itself has none there: its code is the model's
(log entry 7). -/
def reqCode : Req → Nat
  | .host n => n
  | .landing n => 0x100 + n
  | .engine e => 0x200 + e
  | .part => 0x400

/-- Device physical address of a control-space offset (Table ARC-6). -/
def ctrlAddr (off : Nat) : Nat := 0x030000000000 + off

/-- A refused register write changes nothing but the event ledger: the block posts STATE_CONFLICT with the
control-space address in ARG2 (R815). The host's port additionally posts PCI_ACCESS_FAULT with status
STATE_CONFLICT, BAR 0 and the offset (R795). -/
def State.refuseWrite (s : State) (req : Req) (off : Nat) : State :=
  let s1 := s.postFrom (off / 0x100000 % 64) E.STATE_CONFLICT (reqCode req) none (ctrlAddr off)
  match req with
  | .host fn => (s1.bump F.PCI_ACCESS_FAULTS).post E.PCI_ACCESS_FAULT fn (0x04 + 2 ^ 16 * (off % 2 ^ 26))
  | _ => s1

/-- A command refused in the present state posts STATE_CONFLICT with its opcode in ARG2 (R170, Table QQP-8). -/
def State.conflict (s : State) (src fn opcode : Nat) (tag : Option Nat := none) : State :=
  s.postFrom src E.STATE_CONFLICT fn tag opcode

/-! ### Outcomes -/

/-- A meaning that completes. -/
abbrev Res := Host.Outcome State Fault Refusal

end Sys2Proof.Machine
end

