-- ==== Sys2Proof/Machine/Operands.lean ====
section
/-! DEFINITION. The operand forms: fields of a submission entry (Table QQP-1), of the policy table (Table BOT-8),
of a media address (Table ARC-9) and of a device physical address (Table ARC-6). -/

namespace Sys2Proof.Machine
open Sys2Proof

/-! ### Submission entry, 64 bytes (R110) -/

/-- OPCODE. -/
def sqOp (e : Nat) : Nat := bytesAt e 0 1
/-- FLAGS.FUSED. -/
def sqFused (e : Nat) : Bool := bit e 8
/-- FLAGS.SGL. -/
def sqSgl (e : Nat) : Bool := bit e 9
/-- FLAGS.FUA. -/
def sqFua (e : Nat) : Bool := bit e 10
/-- FLAGS.ATOMIC. -/
def sqAtomic (e : Nat) : Bool := bit e 11
/-- FLAGS.PRIORITY. -/
def sqPrio (e : Nat) : Nat := bits e 12 3
/-- FLAGS.DEADLINE_VALID. -/
def sqDlValid (e : Nat) : Bool := bit e 15
/-- CID. -/
def sqCid (e : Nat) : Nat := bytesAt e 2 2
/-- TRACT. -/
def sqTract (e : Nat) : Nat := bits e 32 12
/-- KID. -/
def sqKid (e : Nat) : Nat := bytesAt e 6 1
/-- LBA. -/
def sqLba (e : Nat) : Nat := bytesAt e 8 8
/-- Block count: NBLK + 1. -/
def sqLen (e : Nat) : Nat := bytesAt e 16 4 + 1
/-- DEADLINE. -/
def sqDeadline (e : Nat) : Nat := bytesAt e 20 4
/-- DP1. -/
def sqDp1 (e : Nat) : Nat := bytesAt e 24 8
/-- DP2. -/
def sqDp2 (e : Nat) : Nat := bytesAt e 32 8

/-- Bits of OS byte `b` that the opcode's row names (Tables QQP-5 and QQP-6); every other bit of bytes 40 to 63 is
reserved (R111; for bytes no row names, log entry 8). -/
def osUsed (op b : Nat) : Nat :=
  if op = 0x03 then (if b = 40 then 1 else 0)
  else if op = 0x06 then
    (if b = 40 ∨ b = 42 ∨ (48 ≤ b ∧ b ≤ 55) then 255 else if b = 41 then 15 else 0)
  else if op = 0x10 ∨ op = 0x11 then (if b = 40 ∨ b = 41 then 255 else if b = 42 then 1 else 0)
  else if op = 0x40 then (if b ≤ 49 then 255 else if b = 50 then 15 else 0)
  else if op = 0x41 then (if b ≤ 41 then 255 else if b = 42 then 1 else 0)
  else if op = 0x42 then (if b ≤ 43 then 255 else 0)
  else if op = 0x44 ∨ op = 0x47 then (if b = 40 then 255 else 0)
  else if op = 0x45 then (if b ≤ 41 then 255 else 0)
  else if op = 0x48 then (if b ≤ 41 ∨ (44 ≤ b ∧ b ≤ 55) then 255 else 0)
  else if op = 0x49 ∨ op = 0x4B then (if b ≤ 43 then 255 else 0)
  else if op = 0x4A then (if b ≤ 47 then 255 else 0)
  else if op = 0x4C then (if 48 ≤ b then 255 else 0)
  else 0

/-- Offsets of the OS bytes with a reserved bit that is set (R111). -/
def osReserved (e : Nat) : List Nat :=
  ((List.range 24).map (· + 40)).filter (fun b => bytesAt e b 1 &&& (255 - osUsed (sqOp e) b) != 0)

/-- Number of bits set below bit `n`. -/
def popcount (x : Nat) : Nat → Nat
  | 0 => 0
  | n + 1 => b2n (bit x n) + popcount x n

/-! ### Policy table (R90) -/

/-- A field of the policy table in force: `n` bytes at offset `off`. -/
def State.pol (s : State) (off n : Nat) : Nat := bytesAt s.cfg.policy off n

/-- FLAGS.PLAINTEXT_ALLOWED. -/
def State.polPlain (s : State) : Bool := bit (s.pol 0x30 4) 0
/-- FLAGS.HOST_STAND_LOAD. -/
def State.polStandLoad (s : State) : Bool := bit (s.pol 0x30 4) 1
/-- FLAGS.HOST_KEY_IMPORT. -/
def State.polKeyImport (s : State) : Bool := bit (s.pol 0x30 4) 2
/-- FLAGS.HOST_RELOAD. -/
def State.polReload (s : State) : Bool := bit (s.pol 0x30 4) 3
/-- FLAGS.TIME_ROLE. -/
def State.polTimeRole (s : State) : Nat := bits (s.pol 0x30 4) 4 2
/-- FLAGS.SOLO_ACK_POLICY is STRICT. -/
def State.polStrict (s : State) : Bool := bit (s.pol 0x30 4) 6
/-- HOME_GROUPS mask, when valid. -/
def State.polHome (s : State) : Option Nat :=
  if bit (s.pol 0x34 4) 16 then some (bits (s.pol 0x34 4) 0 16) else none
/-- RETRY_LIMIT with its default. -/
def State.retryLimit (s : State) : Nat := if s.pol 0x3C 1 = 0 then 3 else s.pol 0x3C 1
/-- RETRY_BACKOFF step n (1 to 3), µs, with its default. -/
def State.retryStep (s : State) (n : Nat) : Nat :=
  let v := s.pol (0x3C + n) 1
  if v ≠ 0 then v else if n = 1 then 1 else if n = 2 then 4 else 16
/-- HBM_LAYOUT region k (0 map cache, 1 write buffer, 2 spillway, 3 image cache, 4 integrity, 5 free): start and
size in 256 MiB units (Table BOT-8, default Table ARC-7). -/
def State.hbmRegion (s : State) (k : Nat) : Nat × Nat :=
  if bit (s.pol 0x40 1) 0 then (s.pol (0x40 + 4 * k + 4) 2, s.pol (0x40 + 4 * k + 6) 2)
  else [(0, 384), (384, 64), (448, 4), (452, 1), (453, 9), (462, 114)].getD k (0, 0)
/-- Size of the write buffer's own half, MiB (R32): half the region. -/
def State.ownHalfMiB (s : State) : Nat := (s.hbmRegion 1).2 * 128
/-- DIRTY_LIMIT in MiB (R33): the image's value or 8,192, and in the default case never above the own half. -/
def State.dirtyLimit (s : State) : Nat :=
  if s.pol 0x38 4 ≠ 0 then s.pol 0x38 4 else min 8192 s.ownHalfMiB
/-- DECK_MODE. -/
def State.deckMode (s : State) : Nat := s.pol 0x60 1
/-- A felling threshold with its default (Table FLT-3). -/
def State.fellTh (s : State) (off n dflt : Nat) : Nat :=
  if s.pol (0x70 + off) n = 0 then dflt else s.pol (0x70 + off) n
/-- LUN_FELLS and LUN_HOURS. -/
def State.lunFells (s : State) : Nat := s.fellTh 0 1 8
/-- LUN_HOURS. -/
def State.lunHours (s : State) : Nat := s.fellTh 1 1 1
/-- LANE_FAILS. -/
def State.laneFails (s : State) : Nat := s.fellTh 2 1 3
/-- ENG_TMOS. -/
def State.engTmos (s : State) : Nat := s.fellTh 3 1 3
/-- PC_UE. -/
def State.pcUe (s : State) : Nat := s.fellTh 4 2 16
/-- PC_HOURS. -/
def State.pcHours (s : State) : Nat := s.fellTh 6 1 24
/-- FRAME_HITS. -/
def State.frameHits (s : State) : Nat := s.fellTh 7 1 3
/-- FRAME_HOURS. -/
def State.frameHours (s : State) : Nat := s.fellTh 8 1 24

/-- Permission of a requester on a block, two bits of its mask: 3 read-write, 1 read-only, 0 and 2 hidden (R828,
Table BOT-8). The system controller reaches every block read-write. -/
def State.access (s : State) (req : Req) (blk : Nat) : Nat :=
  match req with
  | .host fn => bits (s.pol (if fn = 0 then 0x00 else 0x08) 8) (2 * blk) 2
  | .landing _ => bits (s.pol 0x10 8) (2 * blk) 2
  | .engine _ => bits (s.pol 0x18 8) (2 * blk) 2
  | .part => 3

/-! ### Permissions and answers (R91 to R98, R718, R828) -/

/-- The refused state (R84). -/
def State.refused (s : State) : Bool := s.rd F.CFG_STATUS_STATE == 0xF

/-- Permission of a requester on a block as it stands now: 3 read-write, 1 read-only, else hidden. Before CFG_DONE the PF
reaches GLB and CFG and nothing else is reached by the host; in the refused state it only reads them (R87, R96; log
entry 20). -/
def State.perm (s : State) (req : Req) (blk : Nat) : Nat :=
  match req with
  | .host fn =>
    if ¬ s.cfg.done then (if fn = 0 ∧ blk < 2 then (if s.refused then 1 else 3) else 0)
    else
      let m := s.access req blk
      if fn = 0 ∧ blk < 2 ∧ m ≠ 3 then 1 else m
  | _ => s.access req blk

/-- The permission lets the access through. -/
def State.permits (s : State) (req : Req) (blk : Nat) (write : Bool) : Bool :=
  s.perm req blk == 3 || (s.perm req blk == 1 && !write)

/-- State of a polder (Table PWR-2). -/
def State.polSt (s : State) (p : Nat) : Nat := s.rd F.PWR_POL_STAT_STATE p

/-- The gate of a polder is open. -/
def State.gate (s : State) (p : Nat) : Bool := s.on F.CLK_GATE_OPEN p

/-- The register at word offset `o` is in polder `p`, for blocks whose unit several polders hold (Table REG-2). -/
def fieldPolder (o : Nat) : Nat :=
  let b := o / 0x100000
  let x := o % 0x100000
  if b = 6 then 74 else if b = 7 then 73 else if b = 8 then 79
  else if b = 9 ∨ b = 10 then
    let d := b - 9
    if (0x80 ≤ x ∧ x < 0xC0) then 0
    else if 0x1000 ≤ x ∧ x < 0x2000 then 33 + 8 * d + (x - 0x1000) / 0x20 / 16
    else if 0x20000 ≤ x ∧ x < 0x28000 then 33 + 8 * d + (x - 0x20000) / 0x100 / 16
    else 0
  else if b = 15 then
    if 0x10000 ≤ x ∧ x < 0x14000 then 49 + (x - 0x10000) / 0x40 / 16
    else if 0x100 ≤ x ∧ x < 0x300 then 49 + x % 0x100 / 4 / 4
    else if 0x300 ≤ x ∧ x < 0x700 then 49 + (x - 0x300) / 0x10 / 4
    else 0
  else if b = 17 ∨ b = 19 then 80
  else if b = 13 then (if 0x800 ≤ x ∧ x < 0x1000 then 65 + (x - 0x800) / 0x10 / 32 else if 0x40 ≤ x ∧ x < 0x50 then 65 + (x - 0x40) / 4 else 65)
  else if b = 14 then (if 0x40 ≤ x ∧ x < 0xA0 then 77 + (x - 0x40) / 4 / 12 else if 0x100 ≤ x ∧ x < 0x280 then 78 else 77)
  else if b = 12 then (if x = 0x58 then 76 else 75)
  else if b = 16 then 49
  else 0

/-- The register answers: its polder is not OFF and its clock runs (R718, Table REG-2). -/
def State.answers (s : State) (o : Nat) : Bool :=
  let p := fieldPolder (o % 0x4000000)
  p == 0 || (s.polSt p != 4 && s.gate p)

/-- A write by a requester: denied where the policy does not permit it (R92), lost behind a closed gate (R718), or performed.
`off` is the offset written, `reg` the register word it names. -/
def State.writeGate (s : State) (req : Req) (blk off reg : Nat) (f : State → State) : State :=
  if ¬ s.permits req blk true then
    match req with
    | .host _ => if s.cfg.done then s.post E.ACCESS_DENIED (reqCode req) (ctrlAddr off) else s
    | _ => s.post E.ACCESS_DENIED (reqCode req) (ctrlAddr off)
  else if ¬ s.answers reg then
    match req with
    | .host _ => s.post E.CLK_GATED_ACCESS (reqCode req) (ctrlAddr off)
    | _ => s
  else f s

/-- A command that is the write of the register at `off` passes what such a write passes (log entry 24). -/
def State.byReq (s : State) (req : Req) (off : Nat) (f : State → State) : State := s.writeGate req (off / 0x100000) off off f

/-! ### Media address, 48 bits (R35) -/

/-- Channel. -/
def maCh (a : Nat) : Nat := bits a 40 8
/-- Volume. -/
def maVol (a : Nat) : Nat := bits a 36 4
/-- LUN. -/
def maLun (a : Nat) : Nat := bits a 34 2
/-- Plane. -/
def maPlane (a : Nat) : Nat := bits a 32 2
/-- Block. -/
def maBlock (a : Nat) : Nat := bits a 16 16
/-- Page. -/
def maPage (a : Nat) : Nat := bits a 4 12
/-- 4 KiB sector. -/
def maSector (a : Nat) : Nat := bits a 0 4
/-- Builds a media address. -/
def mkMaddr (ch vol lun plane block page sector : Nat) : Nat :=
  2 ^ 40 * (ch % 256) + 2 ^ 36 * (vol % 16) + 2 ^ 34 * (lun % 4) + 2 ^ 32 * (plane % 4) + 2 ^ 16 * (block % 65536)
    + 2 ^ 4 * (page % 4096) + sector % 16
/-- The erase block of a media address: the address with page and sector 0. -/
def maErase (a : Nat) : Nat := 2 ^ 16 * (a / 2 ^ 16)

/-! ### NAND geometry (R298, R299) -/

/-- Media die of a channel. -/
def dieOf (ch : Nat) : Nat := ch / 128 % 2

/-- Group of a channel. -/
def grpOf (ch : Nat) : Nat := ch / 16

/-- Channel entry of a channel (Table MED-3). -/
def State.chEnt (s : State) (ch : Nat) : Nat := bytesAt s.med.entries (8 * ch) 8
/-- TSET. -/
def State.chTset (s : State) (ch : Nat) : Nat := bits (s.chEnt ch) 0 3
/-- LOADS. -/
def State.chLoads (s : State) (ch : Nat) : Nat := bits (s.chEnt ch) 8 5
/-- RATE in use: an entry with 9 loads or more runs at 2,400 MT/s at most (R299). -/
def State.chRate (s : State) (ch : Nat) : Nat :=
  let r := bits (s.chEnt ch) 13 3
  if 9 ≤ s.chLoads ch ∧ 3 ≤ r then 2 else r
/-- VOLMASK. -/
def State.chVols (s : State) (ch : Nat) : Nat := bits (s.chEnt ch) 16 16

/-- `n` bytes at offset `off` of the timing set of a channel (Table MED-4). -/
def State.ts (s : State) (ch off n : Nat) : Nat :=
  bytesAt (s.med.tsets.getD (dieOf ch) 0) (128 * s.chTset ch + off) n
/-- 4 KiB sectors per page. -/
def State.tsSectors (s : State) (ch : Nat) : Nat := s.ts ch 0x00 1
/-- Planes. -/
def State.tsPlanes (s : State) (ch : Nat) : Nat := s.ts ch 0x01 1
/-- Pages per block. -/
def State.tsPages (s : State) (ch : Nat) : Nat := s.ts ch 0x02 2
/-- Blocks per plane; 0 encodes 65,536. -/
def State.tsBlocks (s : State) (ch : Nat) : Nat := if s.ts ch 0x04 2 = 0 then 65536 else s.ts ch 0x04 2
/-- LUNs per volume. -/
def State.tsLuns (s : State) (ch : Nat) : Nat := s.ts ch 0x06 1
/-- T_RST_BUSY, µs. -/
def State.tsRst (s : State) (ch : Nat) : Nat := s.ts ch 0x14 4

/-- The media address `n` sectors after `a`, in order of page and then sector (R182). -/
def State.maPlus (s : State) (a n : Nat) : Nat :=
  let sec := max 1 (s.tsSectors (maCh a))
  let p := maPage a * sec + maSector a + n
  maErase a + p / sec * 16 + p % sec

/-! ### Device physical address, 56 bits (R25) -/

/-- Where a device physical address points (Table ARC-6). -/
inductive Dest where
  | hbm (addr : Nat)
  | spm (bank off : Nat)
  | landing (n off : Nat)
  | control (off : Nat)
  | unmapped
  deriving DecidableEq, Repr

/-- KID bits. -/
def daKid (a : Nat) : Nat := bits a 48 8

/-- Decodes bits [47:0] of a device physical address by Table ARC-6. -/
def daDest (a : Nat) : Dest :=
  let x := bits a 0 48
  if x < 0x002400000000 then .hbm x
  else if 0x010000000000 ≤ x ∧ x < 0x010006000000 then
    .spm ((x - 0x010000000000) / 0x400000) ((x - 0x010000000000) % 0x400000)
  else if 0x020000000000 ≤ x ∧ x < 0x022000000000 then
    .landing ((x - 0x020000000000) / 0x40000000) ((x - 0x020000000000) % 0x40000000)
  else if 0x030000000000 ≤ x ∧ x < 0x030004000000 then .control (x - 0x030000000000)
  else .unmapped

end Sys2Proof.Machine
end

