-- ==== Sys2Proof/Machine/Clocks.lean ====
section
/-! DEFINITION. The references of the root PLL and the clock gates (R700 to R724). -/

namespace Sys2Proof.Machine
open Sys2Proof

/-! ### Change of reference (R703 to R706) -/

/-- Good windows needed. -/
def State.goodWin (s : State) : Nat := max 1 (s.rd F.CLK_REF_CFG_GOOD_WIN)

/-- Bundle A is ACTIVE. -/
def State.leveeClock (s : State) : Bool := s.rd F.LVE_BUNDLE_STAT_STATE 0 == 6

/-- The recovered clock may be selected (R703). -/
def State.leveeEligible (s : State) : Bool :=
  s.on F.CLK_REF_CTL_SEL && s.cfg.done && s.rd F.LVE_STAT_ROLE == 1 && s.leveeClock && decide (s.goodWin ≤ s.clk.good)

/-- Changes the reference (R705). -/
def State.refSwitch (s : State) (r : Nat) : State :=
  (((s.put F.CLK_STAT_REF r).bump F.CLK_SWITCHES).bump F.CLK_HOLDOVER_US).post E.CLK_REF_SWITCH r (s.rd F.CLK_OFFSET)

/-- The selected reference is lost (R704, R706): the other one when it is good, else holdover. -/
def State.refLost (s : State) : State :=
  let r := s.rd F.CLK_STAT_REF
  let s := s.bump F.CLK_REF_LOSSES
  if r = 0 then
    if s.leveeEligible then (s.post E.CLK_REF_LOST 0).refSwitch 1
    else (s.put F.CLK_STAT_REF 2).post E.CLK_HOLDOVER
  else if s.on F.CLK_STAT_LOCAL_OK then (s.post E.CLK_REF_LOST 1).refSwitch 0
  else (s.put F.CLK_STAT_REF 2).post E.CLK_HOLDOVER

/-- The recovered clock is lost when bundle A leaves ACTIVE (R704). -/
def State.leveeLost (s : State) : State :=
  let s : State := { s with clk.good := 0 }
  let s := s.put F.CLK_STAT_LEVEE_OK 0
  if s.rd F.CLK_STAT_REF = 1 then s.refLost else s

/-- Selects by R703 while the selected reference stands. -/
def State.refSelect (s : State) : State :=
  let r := s.rd F.CLK_STAT_REF
  if r = 0 then (if s.leveeEligible then s.refSwitch 1 else s)
  else if r = 1 then (if s.leveeEligible then s else s.refSwitch 0)
  else if s.goodWin ≤ s.clk.goodLocal then s.refSwitch 0
  else if s.leveeEligible then s.refSwitch 1 else s

/-- What a reference window of 1 ms leaves (R702, R703, R705): the measured offset `o`, 1 ms more of holdover, the windows each
reference has been good for and the two status bits; `lg` and `rg` say that the local and the recovered reference were good. -/
def State.measured (s : State) (o : Option Int) (lg rg : Bool) : State :=
  let s : State := match o with
    | some o => s.put F.CLK_OFFSET (o % 65536).toNat
    | none => s
  let s := if s.rd F.CLK_STAT_REF = 2 then s.bump F.CLK_HOLDOVER_US 1000 else s
  let s : State := { s with
    clk.good := if rg then s.clk.good + 1 else 0, clk.goodLocal := if lg then s.clk.goodLocal + 1 else 0 }
  (s.flag F.CLK_STAT_LOCAL_OK lg).flag F.CLK_STAT_LEVEE_OK (decide (s.goodWin ≤ s.clk.good))

/-- An offset of `o` tenths of a ppm lies within the tolerance of CLK_REF_CFG (R702). -/
def State.refNear (s : State) (o : Int) : Bool :=
  let tol : Int := 10 * max 50 (s.rd F.CLK_REF_CFG_TOL_PPM)
  decide (-tol ≤ o) && decide (o ≤ tol)

/-- REF_WINDOW_END (R702 to R706): a window of 1 ms ends. `localOk` says that the local reference showed no gap, the other
operand the same of the recovered clock, with its offset in 0.1 ppm, while there is one. -/
def execRefWindowEnd (localOk : Bool) (recovered : Option (Bool × Int)) (s : State) : Res :=
  .next (s.when (!s.clk.stopped) (fun s =>
    let rec_ : Option (Bool × Int) := if s.leveeClock then recovered else none
    let lg := localOk && (match rec_ with
      | some (_, o) => s.refNear o
      | none => true)
    let rg : Bool := match rec_ with
      | some (ok, o) => ok && s.refNear o
      | none => false
    let s := s.measured (rec_.map (·.2)) lg rg
    let r := s.rd F.CLK_STAT_REF
    if (r = 0 ∧ ¬ lg) ∨ (r = 1 ∧ ¬ rg) then s.refLost else s.refSelect))

/-- REFERENCE_GAP (R704, R706): the selected reference shows a gap of more than 100 ns. -/
def execReferenceGap (s : State) : Res :=
  .next (s.when (!s.clk.stopped && s.rd F.CLK_STAT_REF != 2) (fun s =>
    if s.rd F.CLK_STAT_REF = 1 then s.leveeLost
    else
      let s : State := { s with clk.goodLocal := 0 }
      (s.put F.CLK_STAT_LOCAL_OK 0).refLost))

/-! ### Gates (R712 to R715) -/

/-- Enable of a gate in the present system power state. -/
def State.gateEn (s : State) (p : Nat) : Bool :=
  match s.rd F.PWR_STAT_PSTATE with
  | 0 => s.on F.CLK_GATE_RUN_EN p
  | 1 => s.on F.CLK_GATE_SLEEP_EN p
  | _ => s.on F.CLK_GATE_DEEP_EN p

/-- Every HBM channel of a stack is in self-refresh. -/
def State.stackIdle (s : State) (k : Nat) : Bool :=
  (List.range 32).all (fun i => s.on F.HBM_PC_STAT_SR (32 * k + i))

/-- The gate of a polder follows its enable; that of an HBM polder closes once its channels are in self-refresh. -/
def State.gateFollow (s : State) (p : Nat) : State :=
  let en := s.gateEn p
  if 65 ≤ p ∧ p ≤ 68 ∧ ¬ en ∧ ¬ s.stackIdle (p - 65) then s else s.flag F.CLK_GATE_OPEN en p

/-- Every gate follows. -/
def State.gatesFollow (s : State) : State := ((List.range 80).map (· + 1)).foldl State.gateFollow s

end Sys2Proof.Machine
end

