-- ==== Sys2Proof/Machine/Buffer.lean ====
section
/-! DEFINITION. Operations over tracts, commands in flight and the lines of the write buffer: lookups, the blocks
of an IU's version (R23, R216), dirty data (R33), and what happens to writes when mirroring stops (R427). -/

namespace Sys2Proof.Machine
open Sys2Proof

/-! ### Tracts (R127, R176) -/

/-- Block size in bytes. -/
def Tract.blkBytes (t : Tract) : Nat := if t.blk = 0 then 512 else 4096

/-- Indirection unit in bytes (Table QQP-6, TRACT_CREATE). -/
def iuBytes (code : Nat) : Nat :=
  match code with
  | 1 => 4096
  | 2 => 8192
  | 3 => 16384
  | 4 => 32768
  | 5 => 65536
  | _ => 16384

/-- Blocks in one IU. -/
def Tract.perIu (t : Tract) : Nat := iuBytes t.iu / t.blkBytes

/-- Number of map entries of `cap` blocks (R176). -/
def mapEntries (cap blkB iuB : Nat) : Nat := (cap * blkB + iuB - 1) / iuB

/-- Map entries of a tract. -/
def Tract.entries (t : Tract) : Nat := mapEntries t.cap t.blkBytes (iuBytes t.iu)

/-- Map pages needed for a number of entries (R176). -/
def mapPages (e : Nat) : Nat := (e + 2047) / 2048

/-- The tract at a key. -/
def State.tract (s : State) (t : Nat) : Tract := Map.get {} s.tly.tracts t

/-- Changes a tract. -/
def State.setTract (s : State) (t : Nat) (x : Tract) : State :=
  { s with tly.tracts := Map.set {} s.tly.tracts t x }

/-- Key of the tract a function names: its own tract of that ID, else a foreign tract of that ID (R128, R391). -/
def State.tractKey (s : State) (fn id : Nat) : Option Nat :=
  let own := s.tract id
  let fo := s.tract (4096 + id)
  if own.st ≠ .absent ∧ own.owner = fn then some id
  else if fo.st ≠ .absent ∧ fo.owner = fn then some (4096 + id)
  else none

/-- Journal and message form of a tract key: its 12-bit ID. -/
def tractId (t : Nat) : Nat := t % 4096

/-- Table QQP-6 state code. -/
def TState.code : TState → Nat
  | .absent => 0
  | .formatting => 1
  | .ready => 2
  | .readOnly => 3
  | .frozen => 4
  | .deleting => 5

/-- State of a code. -/
def TState.ofCode (n : Nat) : TState :=
  match n with
  | 1 => .formatting
  | 2 => .ready
  | 3 => .readOnly
  | 4 => .frozen
  | 5 => .deleting
  | _ => .absent

/-- Global map page of an IU of a tract. -/
def Tract.page (t : Tract) (iu : Nat) : Nat := t.mpn + iu / 2048

/-! ### Commands -/

/-- The command or internal task at a ledger key. -/
def State.cmd (s : State) (k : Nat) : Option Cmd := Map.get none s.qqp.cmds k

/-- Writes a command. -/
def State.setCmd (s : State) (k : Nat) (c : Cmd) : State :=
  { s with qqp.cmds := Map.set none s.qqp.cmds k (some c) }

/-- Removes a command. -/
def State.dropCmd (s : State) (k : Nat) : State :=
  { s with qqp.cmds := Map.erase s.qqp.cmds k }

/-- Changes a command that exists. -/
def State.updCmd (s : State) (k : Nat) (f : Cmd → Cmd) : State :=
  match s.cmd k with
  | some c => s.setCmd k (f c)
  | none => s

/-- Commands that hold the data of a write: WRITE, WRITE_ZEROES, COPY, ATOMIC_WRITE (R465). -/
def isWriteOp (op : Nat) : Bool := op == 0x01 || op == 0x05 || op == 0x06 || op == 0x08

/-- PHASE rises, and T_PHASE takes the time (R464). -/
def Cmd.toPhase (c : Cmd) (p now : Nat) : Cmd :=
  if c.phase < p then { c with phase := p, tPhase := now } else c

/-- The first fault of the work is noted in FAULT, UNIT and WHERE (Table FLT-5). -/
def Cmd.note (c : Cmd) (fault unit wher : Nat) : Cmd :=
  if c.fault = 0 then { c with fault := fault, unit := unit, wher := wher } else c

/-- Blocks of the leading segments that are done, and the fault that ended them (R157, R250). -/
def leadSegs : List Seg → Nat × Nat
  | [] => (0, 0)
  | g :: gs =>
    if g.done = g.len then
      let r := leadSegs gs
      (g.len + r.1, r.2)
    else (g.done, g.stop)

/-- Every segment has ended (R250). -/
def Cmd.segsEnded (c : Cmd) : Bool := c.segs.all (fun g => g.ended)

/-- Changes segment `i`. -/
def Cmd.updSeg (c : Cmd) (i : Nat) (f : Seg → Seg) : Cmd := { c with segs := c.segs.modify i f }

/-! ### Lines of the write buffer -/

/-- The part mirrors its writes: RESYNC, PAIRED or HANDBACK (Table LVE-1, R431). -/
def State.mirroring (s : State) : Bool :=
  let p := s.rd F.LVE_STAT_PAIR
  p == 2 || p == 3 || p == 6

/-- An own line. -/
def State.line (s : State) (b : Nat) : Option Line := Map.get none s.tly.lines b

/-- Changes an own line that exists. -/
def State.updLine (s : State) (b : Nat) (f : Line → Line) : State :=
  match s.line b with
  | some l => { s with tly.lines := Map.set none s.tly.lines b (some (f l)) }
  | none => s

/-- Lines of an IU, highest BSEQ first; a line that a TRIM superseded and that a pin still holds is passed over. -/
def linesOf (m : Map (Option Line)) (t iu : Nat) : List (Nat × Line) :=
  (m.filterMap (fun e => match e.2 with
    | some l => if l.tract = t ∧ l.iu = iu ∧ l.superBy ≠ some e.1 then some (e.1, l) else none
    | none => none)).reverse

/-- Own lines of an IU. -/
def State.ownLines (s : State) (t iu : Nat) : List (Nat × Line) := linesOf s.tly.lines t iu

/-- Foreign lines of an IU, only for a foreign tract (R425): they stand at the partner's tract ID. -/
def State.foreignLines (s : State) (t iu : Nat) : List (Nat × Line) :=
  if t < 4096 then [] else linesOf s.tly.flines (t - 4096) iu

/-- Content of a block in a line; a line that could not be healed, and a block under a damaged node, reads as poison (R461, R578). -/
def Line.block? (l : Line) (i : Nat) : Option Blk :=
  match l.data.find? (fun d => d.1 = i) with
  | some d => some (if l.lost ∨ i ∈ l.dark then .poison else d.2)
  | none => none

/-- The first of the lines, in the order given, that covers block `i`. -/
def coverOf (ls : List (Nat × Line)) (i : Nat) : Option (Nat × Blk) :=
  match ls with
  | [] => none
  | (b, l) :: r =>
    match l.block? i with
    | some x => some (b, x)
    | none => coverOf r i

/-! ### Map entries (Table TLY-1) -/

/-- MADDR. -/
def eMaddr (e : Nat) : Nat := bits e 0 48
/-- VALID. -/
def eValid (e : Nat) : Bool := bit e 48
/-- TRIMMED. -/
def eTrimmed (e : Nat) : Bool := bit e 49
/-- POISONED. -/
def ePoisoned (e : Nat) : Bool := bit e 50
/-- WVER. -/
def eWver (e : Nat) : Nat := bits e 54 10
/-- An entry of the fields given; FOREIGN for a foreign tract. -/
def mkEntry (maddr : Nat) (valid trimmed poisoned foreign : Bool) (wver : Nat) : Nat :=
  maddr % 2 ^ 48 + 2 ^ 48 * b2n valid + 2 ^ 49 * b2n trimmed + 2 ^ 50 * b2n poisoned + 2 ^ 51 * b2n foreign
    + 2 ^ 54 * (wver % 1024)
/-- A TRIMMED entry with WVER 0, the fill of a FRESH page (R197). -/
def trimmedEntry : Nat := 2 ^ 49

/-- Entries of the foreign half carry FOREIGN, those of the own half do not (R180, R238). -/
def withForeign (page e : Nat) : Nat := setBits e 51 1 (b2n (decide (2 ^ 26 ≤ page)))

/-- Map entry of an IU of a resident page. -/
def State.entry (s : State) (page idx : Nat) : Nat := withForeign page (Map.get trimmedEntry s.tly.ent (2048 * page + idx))

/-- The page is resident: it has a frame that is not LOADING. -/
def State.resident (s : State) (page : Nat) : Bool :=
  match Map.get none s.tly.frames page with
  | some f => !f.loading
  | none => false

/-- Directory entry of a page that is not resident. -/
def State.dirOf (s : State) (page : Nat) : Dir := Map.get {} s.tly.dir page

/-- A page that was never written (R197). -/
def State.isFresh (s : State) (page : Nat) : Bool := (Map.get none s.tly.frames page).isNone && (s.dirOf page).fresh

/-- Key under which the last update of an IU is remembered (R24). -/
def iuKey (t iu : Nat) : Nat := 2 ^ 40 * t + iu

/-- Source of block `i` of an IU in its map version (Table TLY-2). Any combination the table does not name reads
as poison. -/
def State.mapSrc (s : State) (e blkB i : Nat) : Src :=
  if eValid e ∧ ¬ eTrimmed e ∧ ¬ ePoisoned e then { media := some (s.maPlus (eMaddr e) (i * blkB / 4096)) }
  else if ¬ eValid e ∧ eTrimmed e ∧ ¬ ePoisoned e then { blk := some (.data 0) }
  else { blk := some .poison }

/-- Blocks of an IU from the lines given, highest first, else from the map entry (R216). -/
def State.mergeSrc (s : State) (ls : List (Nat × Line)) (e blkB n : Nat) : List Src :=
  (List.range n).map (fun i =>
    match coverOf ls i with
    | some (b, x) => { line := some b, blk := some x }
    | none => s.mapSrc e blkB i)

/-- Version of an IU that a READ returns (R23): the acknowledged line with the highest BSEQ over the lower lines
and the map, except that the map's version serves where a line of a higher BSEQ made the entry's last update. Own
lines of a foreign tract count above every foreign line (R425). -/
def State.version (s : State) (t iu : Nat) : List Src :=
  let tr := s.tract t
  let e := s.entry (tr.page iu) (iu % 2048)
  let own := s.ownLines t iu
  let fo := s.foreignLines t iu
  let held := own.dropWhile (fun x => !x.2.acked)
  let last := Map.get 0 s.tly.lastBseq (iuKey t iu)
  let top := match held with
    | x :: _ => x.1
    | [] => 0
  if held.isEmpty ∧ fo.isEmpty then s.mergeSrc [] e tr.blkBytes tr.perIu
  else if top < last then s.mergeSrc [] e tr.blkBytes tr.perIu
  else s.mergeSrc (held ++ fo) e tr.blkBytes tr.perIu

/-- An own line counts as dirty data: its map update has not been made and no version superseded it (R33). -/
def Line.dirty (l : Line) : Bool := l.jseq.isNone && l.superBy.isNone

/-- Own dirty data, bytes. -/
def State.dirtyBytes (s : State) : Nat :=
  s.tly.lines.foldl (fun n e => match e.2 with
    | some l => if l.dirty then n + l.bytes else n
    | none => n) 0

/-- Foreign dirty data, bytes: foreign lines not released, each IU's newest (R425). -/
def State.foreignDirtyBytes (s : State) : Nat :=
  s.tly.flines.foldl (fun n e => match e.2 with
    | some l => if l.dirty then n + l.bytes else n
    | none => n) 0

/-- Effective DIRTY_LIMIT, MiB: the smaller of the own limit and the partner's upper half while the part mirrors
(R414). -/
def State.dirtyEff (s : State) : Nat := if s.mirroring then min s.dirtyLimit s.lve.pUpperMiB else s.dirtyLimit

/-- Effective DIRTY_LIMIT, bytes (R33, R414), held to the refuge reserve less REFUGE_EXTRA while the reserve falls
short (R384). -/
def State.dirtyEffBytes (s : State) : Nat :=
  let extra := bytesAt (s.med.ring.headD 0) 0x10 2
  let held := s.rd F.MED_REFUGE_MIB - (if extra = 0 then 256 else extra)
  2 ^ 20 * (if s.on F.MED_REL_STAT_REFUGE_READY then s.dirtyEff else min s.dirtyEff held)

/-- The dirty data has reached the limit (R33, R123). -/
def State.dirtyFull (s : State) : Bool := decide (s.dirtyEffBytes ≤ s.dirtyBytes)

/-- Lines of a command. -/
def State.linesOfCmd (s : State) (k : Nat) : List (Nat × Line) :=
  s.tly.lines.filterMap (fun e => match e.2 with
    | some l => if l.cmd = some k then some (e.1, l) else none
    | none => none)

/-- Block `n` of a command (counted from its first) is mirrored. -/
def blockMirrored (ls : List (Nat × Line)) (per lba n : Nat) : Bool :=
  ls.any (fun x => x.2.iu = (lba + n) / per && x.2.mirrored && x.2.data.any (fun d => d.1 = (lba + n) % per))

/-- Count of leading blocks below `n` that satisfy a test. -/
def leadCount (p : Nat → Bool) (n : Nat) : Nat := ((List.range n).takeWhile p).length

/-- First destination block of a write: COPY names it in OS bytes 55:48 (Table QQP-5). -/
def sqDest (e : Nat) : Nat := if sqOp e = 0x06 then bytesAt e 48 8 else sqLba e

/-- Table LVE-8 for one write in flight when mirroring stops (R427). A write under FUA keeps waiting for DESTAGED
(R134), and a write whose lines are all mirrored completes as mirrored. -/
def State.stopMirror1 (s : State) (k : Nat) (c : Cmd) : Cmd :=
  let ls := s.linesOfCmd k
  if c.internal ∨ ¬ isWriteOp (sqOp c.sqe) ∨ c.completed ∨ c.ack ≠ 0 then c
  else if c.buffered ∧ ls.all (fun x => x.2.mirrored) then c
  else if ¬ s.polStrict then { c with ack := 1 }
  else if c.buffered then
    let per := match s.tractKey c.fn (sqTract c.sqe) with
      | some t => (s.tract t).perIu
      | none => 1
    { c with ack := 3, lead := leadCount (blockMirrored ls per (sqDest c.sqe)) (leadSegs c.segs).1 }
      |>.note 0x0B 12 0
  else { c with ack := 2 }

/-- Posts LVE_HEAL_LOST for each line whose HEAL_REQ ends without an answer, and marks it poisoned (R461). -/
def State.healLost (s : State) (b : Nat) : State :=
  match s.line b with
  | some l =>
    if l.healing then
      (s.updLine b (fun l => { l with healing := false, lost := true })).post E.LVE_HEAL_LOST (tractId l.tract) l.iu
    else s
  | none => s

/-- Mirroring stops: every write in flight goes on by Table LVE-8, and outstanding HEAL_REQs end (R427, R893). -/
def State.stopMirror (s : State) : State :=
  let s1 := { s with qqp.cmds := Map.mapAll none (fun k o => o.map (s.stopMirror1 k)) s.qqp.cmds }
  s.lve.heals.foldl (fun s b => s.healLost b.1) { s1 with lve.heals := [] }

/-! ### Sector encryption (R538, R550 to R552) -/

/-- Subkey of a KID: 32 bytes derived from its root key by the KDF, with the label's ASCII bytes and the KID byte (Table CRY-2). -/
def State.subkey (s : State) (kid : Nat) (label : String) : List Nat :=
  kdf (toBytes 32 (Map.get 0 s.cry.keys kid)) (ascii label) [kid]

/-- A host block under AES-256-XTS with the MEDIA subkeys of its KID, or back: the tweak holds the LBA and the tract ID (R550). KID 0
is plaintext (R552). -/
def State.sector (s : State) (enc : Bool) (kid t lba blkB v : Nat) : Nat :=
  if kid = 0 then v
  else ofBytes (xts enc (s.subkey kid "MEDIA-1") (s.subkey kid "MEDIA-2") (lba % 2 ^ 64 + 2 ^ 64 * tractId t) (toBytes blkB v))

/-- Ciphertext of a block of tract `t` at an LBA (R550). -/
def State.encBlk (s : State) (t lba : Nat) : Blk → Blk
  | .data v => .data (s.sector true (s.tract t).kid t lba (s.tract t).blkBytes v)
  | .poison => .poison

/-- Plaintext of the content of a block of tract `t` at an LBA, as its source holds it: zero fill of a TRIMMED version is no
ciphertext (R138). -/
def State.decBlk (s : State) (t lba : Nat) (x : Src) (v : Nat) : Nat :=
  if x.line.isNone ∧ x.media.isNone then v else s.sector false (s.tract t).kid t lba (s.tract t).blkBytes v

/-- Content of a block as sector ciphertext: zero fill of a TRIMMED version is encrypted (R217, R552). -/
def State.cipherOf (s : State) (t lba : Nat) (x : Src) (v : Nat) : Blk :=
  if x.line.isNone ∧ x.media.isNone then s.encBlk t lba (.data v) else .data v

/-! ### Lines of the write-buffer halves (R32, R412) -/

/-- First 4 KiB sector of its IU that a line covers. -/
def Line.firstSec (l : Line) (blkB : Nat) : Nat := (l.data.headD (0, .poison)).1 * blkB / 4096

/-- Bytes a line takes in its half: the whole sectors from its first covered block to its last. -/
def Line.span (l : Line) (blkB : Nat) : Nat :=
  4096 * ((l.data.getLastD (0, .poison)).1 * blkB / 4096 + 1 - l.firstSec blkB)

/-- The line whose bytes lie at offset `o` of a half, with its BSEQ. -/
def State.bufOwner (s : State) (m : Map (Option Line)) (fo : Bool) (o : Nat) : Option (Nat × Line) :=
  (m.filterMap (fun e => e.2.bind (fun l =>
    let b := (s.tract (if fo then 4096 + l.tract else l.tract)).blkBytes
    if l.off ≤ o ∧ o < l.off + l.span b then some (e.1, l) else none))).head?

/-- The half's lines: own ones in region 0, the partner's in region 1. -/
def State.halfLines (s : State) (r : Nat) : Map (Option Line) := if r = 0 then s.tly.lines else s.tly.flines

/-- Block size of the tract of a line of region `r`. -/
def State.lineBlk (s : State) (r : Nat) (l : Line) : Nat := (s.tract (if r = 0 then l.tract else 4096 + l.tract % 4096)).blkBytes

/-- 64 bytes at offset `o` of a half as its lines hold them; none where no line lies or the block is not covered. -/
def State.halfData (s : State) (r o : Nat) : Option Nat :=
  match s.bufOwner (s.halfLines r) (r != 0) o with
  | none => none
  | some (_, l) =>
    let b := s.lineBlk r l
    let p := o - l.off + 4096 * l.firstSec b
    match l.data.find? (fun d => d.1 == p / b) with
    | some (_, .data v) => some (bits v (8 * (p % b)) 512)
    | _ => none

/-- The lines of a half with 64 bytes written at its offset `o`. -/
def State.halfWrite (s : State) (r o v : Nat) : Map (Option Line) :=
  match s.bufOwner (s.halfLines r) (r != 0) o with
  | none => s.halfLines r
  | some (q, l) =>
    let b := s.lineBlk r l
    let p := o - l.off + 4096 * l.firstSec b
    let upd (d : Nat × Blk) : Nat × Blk := match d.2 with
      | .data w => if d.1 = p / b then (d.1, .data (setBits w (8 * (p % b)) 512 v)) else d
      | .poison => d
    Map.set none (s.halfLines r) q (some { l with data := l.data.map upd })

/-- HBM address of a half of the write buffer: 0 own, 1 the partner's (R32). -/
def State.halfBase (s : State) (r : Nat) : Nat := 2 ^ 28 * (s.hbmRegion 1).1 + r * (2 ^ 20 * s.ownHalfMiB)

/-- Lowest place in the own half that takes `n` bytes; none where no gap is large enough. -/
def State.bufAlloc (s : State) (n : Nat) : Option Nat :=
  let ex := s.tly.lines.filterMap (fun e => e.2.map (fun l => (l.off, l.span (s.tract l.tract).blkBytes)))
  let ok := (0 :: ex.map (fun x => x.1 + x.2)).filter (fun c =>
    decide (c + n ≤ 2 ^ 20 * s.ownHalfMiB) && ex.all (fun x => decide (c + n ≤ x.1) || decide (x.1 + x.2 ≤ c)))
  ok.foldl (fun o c => match o with
    | none => some c
    | some x => some (min x c)) none

/-- Place of a new line of a tract for blocks `off` to `off + n - 1` of an IU; none while the half has no room for it (log entry
196). -/
def State.lineRoom (s : State) (t off n : Nat) : Option Nat :=
  let b := (s.tract t).blkBytes
  s.bufAlloc (4096 * ((off + n - 1) * b / 4096 + 1 - off * b / 4096))

/-! ### Device-side requests of the skidders (R616) -/

/-- Requests of at most 256 bytes, none across a 256-byte boundary, that cover `n` bytes from `a`: address, length. -/
def pieces : Nat → Nat → Nat → List (Nat × Nat)
  | 0, _, _ => []
  | f + 1, a, n => if n = 0 then [] else (a, min n (256 - a % 256)) :: pieces f (a + min n (256 - a % 256)) (n - min n (256 - a % 256))

/-- A skidder's requests for `n` bytes of a write-buffer half at HBM address `a`, with the task's ledger tag and priority, under
KID 255 (R549, R616); `v` is the data of a write. -/
def State.skidReqs (s : State) (e tag prio : Nat) (wr : Bool) (a n v : Nat) : State :=
  { s with noc.skid := s.noc.skid ++ (pieces (n / 256 + 2) a n).map (fun x =>
      { src := 0x60 + e, write := wr, addr := x.1 + 2 ^ 48 * 255, len := x.2
        data := if wr then bits v (8 * (x.1 - a)) (8 * x.2) else 0, prio := some prio, ltag := some tag }) }

/-- Skidder that runs a task. -/
def State.skidderOf (s : State) (w : Nat) : Nat :=
  match Map.get none s.dck.tasks w with
  | some t => match t.st with
    | .running e _ => e
    | _ => 0
  | none => 0

/-- HBM address of block `i` of line `b` of the own half. -/
def State.blockAddr (s : State) (b i : Nat) : Option Nat :=
  (Map.get none s.tly.lines b).map (fun l =>
    s.halfBase 0 + l.off + i * (s.tract l.tract).blkBytes - 4096 * l.firstSec (s.tract l.tract).blkBytes)

/-- The reads of buffered blocks that a task makes, block by block: `l` names line and index within the IU. -/
def State.skidReads (s : State) (e tag prio blkB : Nat) (l : List (Nat × Nat)) : State :=
  l.foldl (fun s x => match s.blockAddr x.1 x.2 with
    | some a => s.skidReqs e tag prio false a blkB 0
    | none => s) s

end Sys2Proof.Machine
end

