-- ==== Sys2Proof/Machine/Seal.lean ====
section
/-! DEFINITION. Lines of HBM, key slots, sealed regions with their counter nodes and re-keys, and the writes of the part's own units to
the write-buffer halves (R537 to R549, R554 to R573). -/

namespace Sys2Proof.Machine
open Sys2Proof

/-! ### Lines -/

/-- A line of HBM. -/
def State.hline (s : State) (n : Nat) : MLine := Map.get {} s.hbm.lines n

/-- Changes a line of HBM. -/
def State.updHline (s : State) (n : Nat) (f : MLine → MLine) : State :=
  { s with hbm.lines := Map.upd {} s.hbm.lines n f }

/-- HBM lines that satisfy `p` read as never written again. -/
def State.dropHlines (s : State) (p : Nat → Bool) : State :=
  { s with hbm.lines := Map.keep (fun n _ => !p n) s.hbm.lines }

/-! ### Keys (R537 to R549) -/

/-- A memory access under a KID from 1 to 239 finds its key (Table CRY-5). -/
def State.memKey (s : State) (k : Nat) : Bool :=
  decide (1 ≤ k) && decide (k ≤ 239) && s.on F.CRY_KEY_STAT_LOADED k && s.on F.CRY_KEY_STAT_MEMORY k

/-- Clears a key slot (R539). -/
def State.zeroise (s : State) (k : Nat) : State :=
  let s : State := { s with cry.keys := Map.erase s.cry.keys k }
  (((s.put F.CRY_KEY_STAT_LOADED 0 k).put F.CRY_KEY_STAT_MEDIA 0 k).put F.CRY_KEY_STAT_MEMORY 0 k).put
    F.CRY_KEY_STAT_INTERNAL 0 k

/-- Loads a slot with a key. -/
def State.loadKey (s : State) (k root use : Nat) (internal : Bool) : State :=
  let s : State := { s with cry.keys := Map.set 0 s.cry.keys k root }
  (((s.put F.CRY_KEY_STAT_LOADED 1 k).put F.CRY_KEY_STAT_MEDIA (use % 2) k).put F.CRY_KEY_STAT_MEMORY (use / 2 % 2) k).flag
    F.CRY_KEY_STAT_INTERNAL internal k

/-! ### Sealed regions: layout (R554 to R557) -/

/-- Start of sealed region `r`, in bytes (Table CRY-6). -/
def State.sealBase (s : State) (r : Nat) : Nat :=
  match r with
  | 0 => s.halfBase 0
  | 1 => s.halfBase 1
  | 2 => 2 ^ 28 * (s.hbmRegion 2).1
  | _ => 2 ^ 28 * s.rd F.CRY_SEAL_CFG_BASE r

/-- Size of sealed region `r`, in bytes; 0 disables it. -/
def State.sealSize (s : State) (r : Nat) : Nat :=
  match r with
  | 0 => 2 ^ 27 * (s.hbmRegion 1).2
  | 1 => 2 ^ 27 * (s.hbmRegion 1).2
  | 2 => 2 ^ 28 * (s.hbmRegion 2).2
  | _ => 2 ^ 28 * s.rd F.CRY_SEAL_CFG_SIZE r

/-- The sealed region that holds an HBM address. -/
def State.sealOf (s : State) (a : Nat) : Option Nat :=
  (List.range 8).find? (fun r => decide (s.sealBase r ≤ a) && decide (a < s.sealBase r + s.sealSize r))

/-- Nodes of level `l` of a region (R556). -/
def State.nodeCount (s : State) (r l : Nat) : Nat := (s.sealSize r / 64 + 64 ^ (l + 1) - 1) / 64 ^ (l + 1)

/-- The top level: the first that holds 64 nodes or fewer. -/
def State.topLevel (s : State) (r : Nat) : Nat :=
  ((List.range 7).find? (fun l => decide (s.nodeCount r l ≤ 64))).getD 6

/-- Device physical address of a node (R556). -/
def State.nodeAddr (s : State) (r l i : Nat) : Nat :=
  let area := 2 ^ 28 * (s.hbmRegion 4).1 + ((List.range r).map s.sealSize).sum / 8
  area + 3 * s.sealSize r / 32 + ((List.range l).map (fun j => 64 * s.nodeCount r j)).sum + 64 * i

/-- Device physical address of a line's tag (R557). -/
def State.tagAddr (s : State) (r n : Nat) : Nat :=
  2 ^ 28 * (s.hbmRegion 4).1 + ((List.range r).map s.sealSize).sum / 8 + 6 * n

/-- Key of a node. -/
def nodeKey (r l i : Nat) : Nat := 2 ^ 32 * (8 * r + l) + i

/-- A node that is not fresh. -/
def State.node? (s : State) (r l i : Nat) : Option CNode := Map.get none s.cry.nodes (nodeKey r l i)

/-- Reseal count of a region. -/
def State.sealGen (s : State) (r : Nat) : Nat := s.rd F.CRY_SEAL_GEN r

/-- GEN of a fresh node: its parent's, or the reseal count for a top node (R561). -/
def State.freshGen (s : State) (r : Nat) : Nat → Nat → Nat → Nat
  | 0, _, _ => s.sealGen r
  | f + 1, l, i =>
    if s.topLevel r ≤ l then s.sealGen r
    else match s.node? r (l + 1) (i / 64) with
      | some p => p.gen
      | none => State.freshGen s r f (l + 1) (i / 64)

/-- A node, fresh or not (R561). -/
def State.node (s : State) (r l i : Nat) : CNode := (s.node? r l i).getD { gen := s.freshGen r 8 l i }

/-- Writes a node. -/
def State.setNode (s : State) (r l i : Nat) (x : CNode) : State :=
  { s with cry.nodes := Map.set none s.cry.nodes (nodeKey r l i) (some x) }

/-- Line `n` of a region lies under a damaged node (R577, R578). -/
def State.underDamage (s : State) (r n : Nat) : Bool :=
  s.cry.damaged.any (fun d => d.1 == r && n / 64 ^ (d.2.1 + 1) == d.2.2)

/-- Line `n` of a region is fresh (R561). -/
def State.freshLine (s : State) (r n : Nat) : Bool :=
  let x := s.node r 0 (n / 64)
  x.major == 0 && Map.get 0 x.minors (n % 64) == 0

/-! ### Re-keying (R571 to R576) -/

/-- A region re-keys now. -/
def State.rekeying (s : State) (r : Nat) : Bool := s.on F.CRY_SEAL_STAT_REKEY r

/-- Starts the re-key of a region (R572). -/
def State.rekeyStart (s : State) (r : Nat) : State :=
  match ((List.range 15).map (· + 240)).find? (fun k => !s.on F.CRY_KEY_STAT_LOADED k) with
  | none => s
  | some k =>
    let old := s.rd F.CRY_SEAL_STAT_KID r
    let s := (s.loadKey k s.freeNat 0 true).drawn
    let s := ((s.put F.CRY_SEAL_STAT_KID k r).put F.CRY_SEAL_STAT_OLD_KID old r).put F.CRY_SEAL_STAT_REKEY 1 r
    let s := (s.put F.CRY_SEAL_GEN 0 r).put64 F.CRY_SWEEP_LO F.CRY_SWEEP_HI (s.sealBase r) r
    let s := (s.put F.CRY_STAT_REGION r).put F.CRY_STAT_REKEY 1
    { s with cry.roots := Map.keep (fun i _ => i / 64 != r) s.cry.roots, cry.rekeyAt := s.time }
      |>.post E.CRY_REKEY_START r (k + old * 256)

/-- A region meets its condition: its re-key starts, or waits for the running one (R571). -/
def State.rekeyAsk (s : State) (r : Nat) : State :=
  if s.rekeying r ∨ r ∈ s.cry.rekeyQ then s
  else if s.on F.CRY_STAT_REKEY then { s with cry.rekeyQ := s.cry.rekeyQ ++ [r] }
  else s.rekeyStart r

/-- A MAJOR of a region has become `major` (R571). -/
def State.majorIs (s : State) (r major : Nat) : State :=
  let s := s.raise F.CRY_MAJOR_MAX major r
  if s.on F.CRY_CTL_REKEY_EN ∧ 65536 * s.rd F.CRY_REKEY_CFG_MARK ≤ major then s.rekeyAsk r else s

/-! ### Counters (R562, R564, R568, R570) -/

/-- Child `c` of a node is written back, or a line of a leaf is written: its MINOR rises, or the MAJOR when it stands at
63. Children of an upper node become explicit nodes at an overflow (R570). -/
def State.raiseChild (s : State) (r l i c : Nat) : State :=
  let x := s.node r l i
  let m := Map.get 0 x.minors c
  if m < 63 then
    s.setNode r l i { x with minors := Map.set 0 x.minors c (m + 1), cached := true, dirty := true }
  else
    let s := s.setNode r l i { x with minors := [], major := x.major + 1, cached := true, dirty := true }
    let s := (s.bump F.CRY_MINOR_OVF).majorIs r (x.major + 1)
    if l = 0 then s
    else (List.range 64).foldl (fun s j =>
      if (s.node? r (l - 1) (64 * i + j)).isNone ∧ 64 * i + j < s.nodeCount r (l - 1) then
        s.setNode r (l - 1) (64 * i + j) { gen := x.gen, cached := true } else s) s

/-! ### Lines that units of the part write (R412, R549, R564) -/

/-- A write of `v` to the whole line at HBM address `a` in sealed region `r`: its counter rises and it is written anew, by R564; what it held,
its poison and a bad tag are gone (R457). Under a damaged node, and where a MAJOR would wrap, it is not performed (Table CRY-8). -/
def State.sealWrite (s : State) (r a v : Nat) : State :=
  let n := (a - s.sealBase r) / 64
  let x := s.node r 0 (n / 64)
  if s.underDamage r n then s
  else if 63 ≤ Map.get 0 x.minors (n % 64) ∧ 2 ^ 32 ≤ x.major + 1 then
    (s.bump F.CRY_WRAP_STALLS).post E.CRY_WRAP_STALL r (s.nodeAddr r 0 (n / 64))
  else
    let s := (s.raiseChild r 0 (n / 64) (n % 64)).updHline (a / 64) (fun _ => { data := v, kid := 255 })
    { s with cry.badTags := s.cry.badTags.filter (· ≠ a / 64) }

/-- The lines of the `n` bytes `v` from address `a` of sealed region `r` are written whole. -/
def State.sealWrites (s : State) (r a n v : Nat) : State :=
  (List.range (n / 64)).foldl (fun s i => s.sealWrite r (a + 64 * i) (bits v (512 * i) 512)) s

/-- HBM address of block `i` of line `l` of half `r`. -/
def State.blkAt (s : State) (r : Nat) (l : Line) (i : Nat) : Nat :=
  s.halfBase r + l.off + i * s.lineBlk r l - 4096 * l.firstSec (s.lineBlk r l)

/-- A block of a line of half `r` lies under a damaged node. -/
def State.blkDark (s : State) (r : Nat) (l : Line) (i : Nat) : Bool := s.underDamage r ((s.blkAt r l i - s.sealBase r) / 64)

/-- The lines of half `r`, each with the blocks under damaged nodes as they now are (R578). -/
def State.darkHalf (s : State) (r : Nat) : Map (Option Line) :=
  Map.mapAll none (fun _ (o : Option Line) => o.map (fun l =>
    { l with dark := (l.data.filter (fun d => s.blkDark r l d.1)).map Prod.fst })) (s.halfLines r)

/-- Damage shows in the lines of a write-buffer half. -/
def State.darken (s : State) (r : Nat) : State :=
  if r = 0 then { s with tly.lines := s.darkHalf 0 } else if r = 1 then { s with tly.flines := s.darkHalf 1 } else s

/-- Blocks `bl` of line `l` are written to their places in half `r` of the write buffer. -/
def State.sealBuf (s : State) (r : Nat) (l : Line) (bl : List (Nat × Blk)) : State :=
  let s := bl.foldl (fun s d => s.sealWrites r (s.blkAt r l d.1) (s.lineBlk r l) (match d.2 with
    | .data v => v
    | .poison => 0)) s
  if s.cry.damaged.isEmpty then s else s.darken r

end Sys2Proof.Machine
end

