-- ==== Sys2Proof/Machine/Link.lean ====
section
/-! DEFINITION. The transport of the Levee link (R398 to R409, R891, R893) and the injection generators that act on
what the part sends (R482 to R487). -/

namespace Sys2Proof.Machine
open Sys2Proof

/-! ### Injection generators -/

/-- Generator `g` can fire (R486). -/
def State.injActive (s : State) (g : Nat) : Bool := s.on F.INJ_CTL_ENABLE && s.on F.INJ_GEN_CTL_ARM g

/-- One eligible unit passes generator `g` (R485): the state after, and whether it fires. -/
def State.injUnit (s : State) (g : Nat) : State × Bool :=
  let s := s.bump F.INJ_GEN_SEEN 1 g
  let st := Map.get {} s.gens g
  match s.rd F.INJ_GEN_CTL_TRIGGER g with
  | 0 => (((s.flag F.INJ_GEN_CTL_ARM false g).bump F.INJ_GEN_HITS 1 g).post E.INJ_FIRED g, true)
  | 1 =>
    if s.rd F.INJ_GEN_RATE g ≤ st.count + 1 then
      ({ s with gens := Map.set {} s.gens g { st with count := 0 } }.bump F.INJ_GEN_HITS 1 g, true)
    else ({ s with gens := Map.set {} s.gens g { st with count := st.count + 1 } }, false)
  | _ =>
    let x := Config.lfsrNext st.lfsr
    let s := { s with gens := Map.set {} s.gens g { st with lfsr := x } }
    if x % 2 ^ 24 < s.rd F.INJ_GEN_RATE g then (s.bump F.INJ_GEN_HITS 1 g, true) else (s, false)

/-- A unit passes injection point `pt`: every active generator of the point whose FILTER it passes sees it. The
list names the generators that fired. -/
def State.inject (s : State) (pt fil : Nat) : State × List Nat :=
  (List.range 16).foldl (fun (r : State × List Nat) g =>
    let s := r.1
    if s.injActive g && s.rd F.INJ_GEN_CTL_POINT g == pt
        && (s.rd F.INJ_GEN_CTL_FILTER g == 0 || s.rd F.INJ_GEN_CTL_FILTER g == fil) then
      let u := s.injUnit g
      (u.1, if u.2 then r.2 ++ [g] else r.2)
    else r) (s, [])

/-- What generator `g` does to flit `k` of a message. -/
def State.hit (s : State) (k g : Nat) : Hit :=
  { flit := k, mode := s.rd F.INJ_GEN_CTL_MODE g, off := s.rd F.INJ_GEN_CORR_OFFSET g
    bytes := s.rd F.INJ_GEN_CORR_BYTES g + 1 }

/-- `n` flits of a message, from its flit `k` on, pass the transmit point of bundle `b` (POINT 0 and 1): the generators that fire on
them. -/
def State.injectFlits (s : State) (b mtype : Nat) : Nat → Nat → State × List Hit
  | 0, _ => (s, [])
  | n + 1, k =>
    let r := s.inject b mtype
    let t := State.injectFlits r.1 b mtype n (k + 1)
    (t.1, r.2.map (s.hit k) ++ t.2)

/-! ### Messages (Table LVE-5) -/

/-- MTYPE. -/
def mtype : Msg → Nat
  | .mirrorWrite .. => 0x01
  | .mirrorAck .. => 0x02
  | .journal .. => 0x03
  | .journalAck .. => 0x04
  | .lineRelease .. => 0x05
  | .releaseAck .. => 0x06
  | .heartbeat .. => 0x07
  | .leaving .. => 0x08
  | .pfail => 0x09
  | .resyncDone .. => 0x0A
  | .handbackReq .. => 0x0B
  | .handbackGrant .. => 0x0C
  | .healReq .. => 0x0D
  | .healData .. => 0x0E

/-- Virtual channel of an MTYPE. -/
def mtypeVc (t : Nat) : Nat :=
  if t = 0x01 ∨ t = 0x0E then 0 else if t = 0x02 ∨ t = 0x04 ∨ t = 0x06 ∨ t = 0x07 then 2 else 1

/-- Flits a message occupies (R406): 16 per sector after the first, and 7 then 8 records per JOURNAL flit. -/
def msgFlits : Msg → Nat
  | .mirrorWrite _ _ _ _ sec _ _ _ _ => 1 + 16 * (sec / 16 + 1)
  | .healData .. => 17
  | .journal _ recs _ => 1 + (recs.length - 7 + 7) / 8
  | _ => 1

/-- RESYNC traffic yields to other messages of its VC (R890). -/
def msgYields : Msg → Bool
  | .mirrorWrite _ _ _ _ _ _ _ r o => r || o
  | .journal _ _ r => r
  | _ => false

/-! ### Bundles -/

/-- A bundle's state beyond its registers. -/
def State.bnd (s : State) (b : Nat) : Bnd := Map.get {} s.lve.bnds b

/-- Changes a bundle. -/
def State.updBnd (s : State) (b : Nat) (f : Bnd → Bnd) : State :=
  { s with lve.bnds := Map.upd {} s.lve.bnds b f }

/-- LVE_BUNDLE_STAT[b].STATE (Table LVE-10): 0 DOWN to 7 RETRAIN. -/
def State.bst (s : State) (b : Nat) : Nat := s.rd F.LVE_BUNDLE_STAT_STATE b

/-- The bundle is ACTIVE. -/
def State.active (s : State) (b : Nat) : Bool := s.bst b == 6

/-- Some bundle is ACTIVE. -/
def State.anyActive (s : State) : Bool := s.active 0 || s.active 1

/-- Flits unacknowledged on a bundle (R403, R408). -/
def State.unackedFlits (s : State) (b : Nat) : Nat := ((s.bnd b).unacked.map (fun e => e.flits)).sum

/-- The ACTIVE bundle with fewer unacknowledged flits, A when equal (R408). -/
def State.pickBundle (s : State) : Option Nat :=
  match s.active 0, s.active 1 with
  | true, true => if s.unackedFlits 1 < s.unackedFlits 0 then some 1 else some 0
  | true, false => some 0
  | false, true => some 1
  | false, false => none

/-- A RESYNC JOURNAL message waits for the one that begins at the start SEQ (R891). -/
def State.rsBlocked (s : State) (m : Msg) : Bool :=
  match m with
  | .journal q _ true =>
    let first (m : Msg) : Bool := match m with
      | .journal q' _ true => q' == s.lve.rsStart
      | _ => false
    decide (q ≠ s.lve.rsStart) && (s.lve.txq.any (fun x => first x.2)
      || [0, 1].any (fun b => (s.bnd b).unacked.any (fun e => first e.msg)))
  | _ => false

/-- Bundle on which a queued message can start now: ACTIVE, with credit for every flit, and at most 2,048 flits
unacknowledged (R403, R404). -/
def State.startOn (s : State) (x : Option Nat × Msg) : Option Nat :=
  match (match x.1 with | some b => some b | none => s.pickBundle) with
  | some b =>
    if s.active b && decide (msgFlits x.2 ≤ (s.bnd b).credit.getD (mtypeVc (mtype x.2)) 0)
        && decide (s.unackedFlits b + msgFlits x.2 ≤ 2048) && !s.rsBlocked x.2 then some b else none
  | none => none

/-- Lanes a bundle runs on (LVE_BUNDLE_STAT.WIDTH). -/
def State.bndWidth (s : State) (b : Nat) : Nat :=
  match s.rd F.LVE_BUNDLE_STAT_WIDTH b with
  | 3 => 16
  | 2 => 8
  | 1 => 4
  | _ => 0

/-- Rate of a code of LVE_BUNDLE_CTL.RATE, in 1/64 Gb/s. -/
def bundleRate (code : Nat) : Nat :=
  match code with
  | 0 => 7200
  | 1 => 6800
  | 2 => 3600
  | _ => 1650

/-- Flit slots sent on a bundle since ACTIVE: those of message flits, and idle slots of 2,304 bits over the lanes at their rate
(R398, R401). -/
def State.slotNow (s : State) (b : Nat) : Nat :=
  let x := s.bnd b
  x.slot + (s.time - x.slotAt) * s.bndWidth b * bundleRate x.rate / (64 * 2304)

/-- Credits that still wait after `n` flits, each of which returned those of one VC (R404, Table LVE-4). -/
def returned : Nat → List Nat → List Nat
  | 0, l => l
  | n + 1, l =>
    match l.findIdx? (· ≠ 0) with
    | none => l
    | some i => returned n (l.set i 0)

/-- `n` message flits take the next slots of a bundle; they and the idle flits before them return credits. -/
def State.takeSlots (s : State) (b n : Nat) : State :=
  s.updBnd b (fun x =>
    { x with slot := s.slotNow b + n, slotAt := s.time, give := returned (min 3 (s.slotNow b + n - x.slot)) x.give })

/-- A message starts on a bundle: its flits use credit, take the next FSEQs and slots and wait for acknowledgement. -/
def State.startMsg (s : State) (b : Nat) (m : Msg) : State :=
  let n := msgFlits m
  let slot := s.slotNow b
  let s := (s.takeSlots b n).updBnd b (fun x =>
    { x with
      fseq := (x.fseq + n) % 4096
      credit := x.credit.modify (mtypeVc (mtype m)) (fun c => c - n)
      unacked := x.unacked ++ [{ msg := m, fseq := x.fseq, flits := n, sends := 1, sentAt := s.time, slot := slot }] })
  let s := s.bump F.LVE_FLITS_TX n b
  let s := match m with
    | .mirrorWrite q .. => s.updLine q (fun l => if l.sent then l else { l with sent := true, sentAt := s.time })
    | _ => s
  let r := s.injectFlits b (mtype m) n 0
  r.1.updBnd b (fun x => { x with unacked := x.unacked.modify (x.unacked.length - 1) (fun e => { e with hits := r.2 }) })

/-- Index in the queue of the first message of a VC that can start, RESYNC messages last (R405, R890). -/
def State.nextMsg (s : State) (vc : Nat) : Option Nat :=
  let ok (y : Bool) (x : Option Nat × Msg) : Bool :=
    mtypeVc (mtype x.2) == vc && msgYields x.2 == y && (s.startOn x).isSome
  match s.lve.txq.findIdx? (ok false) with
  | some i => some i
  | none =>
    if s.lve.txq.any (fun x => mtypeVc (mtype x.2) == vc && !msgYields x.2) then none
    else s.lve.txq.findIdx? (ok true)

/-- Starts queued messages, VC2 before VC1 before VC0, as long as one can start (R405). -/
def State.pump (s : State) : Nat → State
  | 0 => s
  | n + 1 =>
    match [2, 1, 0].findSome? s.nextMsg with
    | none => s
    | some i =>
      match s.lve.txq[i]? with
      | none => s
      | some x =>
        match s.startOn x with
        | none => s
        | some b => State.pump ({ s with lve.txq := s.lve.txq.eraseIdx i }.startMsg b x.2) n

/-- Starts whatever can start. -/
def State.pumpAll (s : State) : State := s.pump s.lve.txq.length

/-- Sends a message on the bundle of R408. With no bundle ACTIVE or in RETRAIN it is dropped (R893). -/
def State.send (s : State) (m : Msg) : State :=
  if [0, 1].any (fun b => s.bst b == 6 || s.bst b == 7) then
    { s with lve.txq := s.lve.txq ++ [(none, m)] }.pumpAll
  else s

/-- Sends a message on every ACTIVE bundle (R416, R419, R436). -/
def State.sendAll (s : State) (m : Msg) : State :=
  let l := ([0, 1].filter s.active).map (fun b => (some b, m))
  { s with lve.txq := s.lve.txq ++ l }.pumpAll

/-- Sends values in messages of at most 30 (Table LVE-5). -/
def State.sendChunks (s : State) (mk : List Nat → Msg) : Nat → List Nat → State
  | 0, _ => s
  | n + 1, l => if l.isEmpty then s else State.sendChunks (s.send (mk (l.take 30))) mk n (l.drop 30)

/-- Sends a list of BSEQs, 30 to a message. -/
def State.sendList (s : State) (mk : List Nat → Msg) (l : List Nat) : State := s.sendChunks mk l.length l

/-- Acknowledged flits leave the replay buffer: `k` of the oldest (R402). -/
def ackFlits : Nat → List TxEnt → List TxEnt
  | _, [] => []
  | k, e :: es =>
    if e.flits ≤ k then ackFlits (k - e.flits) es
    else { e with fseq := (e.fseq + k) % 4096, flits := e.flits - k, slot := e.slot + k } :: es

/-- ACKSEQ of a received flit acknowledges every flit up to it (R402). -/
def State.ackTo (s : State) (b ack : Nat) : State :=
  match (s.bnd b).unacked with
  | [] => s
  | e :: _ =>
    let k := (ack + 1 + 4096 - e.fseq) % 4096
    if k ≤ s.unackedFlits b then s.updBnd b (fun x => { x with unacked := ackFlits k x.unacked }) else s

/-- Entries sent one after the other from a slot on (R586). -/
def reslot : Nat → List TxEnt → List TxEnt
  | _, [] => []
  | n, e :: l => { e with slot := n } :: reslot (n + e.flits) l

/-- Every unacknowledged flit is sent again, oldest first, at new slots (R402, R586). -/
def State.resend (s : State) (b : Nat) : State :=
  let l := (s.bnd b).unacked
  let n := s.unackedFlits b
  let s := (s.takeSlots b n).updBnd b (fun x =>
    { x with unacked := reslot (s.slotNow b) (x.unacked.map (fun e => { e with sends := e.sends + 1, sentAt := s.time })) })
  let s := (s.bump F.LVE_REPLAYS n b).bump F.LVE_FLITS_TX n b
  l.zipIdx.foldl (fun s e =>
    let r := s.injectFlits b (mtype e.1.msg) e.1.flits (msgFlits e.1.msg - e.1.flits)
    r.1.updBnd b (fun x => { x with unacked := x.unacked.modify e.2 (fun y => { y with hits := r.2 }) })) s

/-- An ACTIVE bundle goes to RETRAIN (Table LVE-2, R896). -/
def State.toRetrain (s : State) (b : Nat) : State :=
  if s.active b then
    let s := ((s.takeSlots b 0).put F.LVE_BUNDLE_STAT_STATE 7 b).bump F.LVE_RETRAINS 1 b
    (if b = 0 then s.leveeLost else s).pumpAll
  else s

/-- A bundle goes DOWN. Its unacknowledged messages are sent whole on the other bundle (R409), or dropped when no
other bundle is ACTIVE, whereupon the writes that wait complete by Table LVE-8 (R893). -/
def State.bundleDown (s : State) (b : Nat) : State :=
  let o := 1 - b
  let was := s.bst b == 6 || s.bst b == 7
  let msgs := (s.bnd b).unacked.map (fun e => ((none : Option Nat), e.msg))
  let clkLost := b == 0 && s.bst b == 6
  let s := ((s.put F.LVE_BUNDLE_STAT_STATE 0 b).put F.LVE_BUNDLE_STAT_WIDTH 0 b).put F.LVE_BUNDLE_STAT_LANES 0 b
  let s := if clkLost then s.leveeLost else s
  let s := s.updBnd b (fun x =>
    { x with unacked := [], credit := [0, 0, 0], give := [0, 0, 0], nak := false, cert := false, share := false,
             identOk := false, locked := 0, probe := false })
  let s := { s with lve.txq := s.lve.txq.filter (fun x => x.1 ≠ some b) }
  if !was then s
  else if s.active o then { s with lve.txq := msgs ++ s.lve.txq }.pumpAll
  else if s.bst o == 7 then s.stopMirror
  else { s with lve.txq := [] }.stopMirror

/-- The mirror copy of a line as a message. -/
def mirrorMsg (id blkB b : Nat) (l : Line) (resync ownHalf : Bool) : Msg :=
  let secs := l.data.map (fun d => d.1 * blkB / 4096)
  let lo := secs.headD 0
  let hi := secs.getLastD 0
  .mirrorWrite b id l.kid l.iu (lo + 16 * (hi - lo)) l.off l.data resync ownHalf

/-- Sends the mirror copy of an own line (R412). Data of a tract of the partner belongs to the partner's own half. -/
def State.mirrorLine (s : State) (b : Nat) (resync : Bool) : State :=
  match s.line b with
  | some l => s.send (mirrorMsg (tractId l.tract) (s.tract l.tract).blkBytes b l resync (decide (4096 ≤ l.tract)))
  | none => s

end Sys2Proof.Machine
end

