-- ==== Sys2Proof/Machine/Tasks.lean ====
section
/-! DEFINITION. The Deck's operations on tasks, ready lists, the spillway, context records and engines
(R243 to R292). -/

namespace Sys2Proof.Machine
open Sys2Proof

/-! ### Free choices of an index -/

/-- The first unused index at or after `k`, wrapping at `n`. -/
def scanFree (used : Nat → Bool) (n : Nat) : Nat → Nat → Option Nat
  | 0, _ => none
  | f + 1, k => if used (k % n) then scanFree used n f (k + 1) else some (k % n)

/-- An unused index below `n`; which one the part takes is free (log entry 4). -/
def State.pickIndex (s : State) (used : Nat → Bool) (n : Nat) : Option Nat :=
  scanFree used n n (s.freeNat % n)

/-! ### Tasks and engines -/

/-- The task of a number. -/
def State.task (s : State) (t : Nat) : Option Task := Map.get none s.dck.tasks t

/-- Changes a task that exists. -/
def State.updTask (s : State) (t : Nat) (f : Task → Task) : State :=
  match s.task t with
  | some x => { s with dck.tasks := Map.set none s.dck.tasks t (some (f x)) }
  | none => s

/-- Engine state register values (Table DCK-7): 0 unregistered, 1 idle, 2 busy, 3 asked, 4 felled. -/
def State.engSt (s : State) (e : Nat) : Nat := s.rd F.DCK_ENG_STAT_STATE e

/-- An engine beyond its registers. -/
def State.eng (s : State) (e : Nat) : Eng := Map.get {} s.dck.engs e

/-- Changes an engine beyond its registers. -/
def State.updEng (s : State) (e : Nat) (f : Eng → Eng) : State :=
  { s with dck.engs := Map.upd {} s.dck.engs e f }

/-- Landing engines have IDs from 96 (Table DCK-3). -/
def isLandingEng (e : Nat) : Bool := decide (96 ≤ e)

/-- Idle skidders (R249, R284). -/
def State.idleSkidders (s : State) : Nat := ((List.range 64).filter (fun e => s.engSt e == 1)).length

/-- Engines of a pool that are registered and not felled (Table DCK-7). -/
def State.poolEngines (s : State) (p : Nat) : Nat :=
  ((List.range 352).filter (fun e => s.rd F.DCK_ENG_STAT_POOL e == p && s.engSt e != 0 && s.engSt e != 4)).length

/-- Dispatch mode of a pool (R265, Table DCK-7): 0 priority-FCFS, 1 affinity, 2 prefetch-slot. -/
def State.poolMode (s : State) (p : Nat) : Nat :=
  match s.deckMode with
  | 0 => b2n (decide (64 < s.poolEngines p))
  | 1 => 0
  | 2 => 1
  | _ => 2

/-- The number of the task that runs in slot `sl` of an engine. -/
def State.taskOn (s : State) (e : Nat) (sl : Bool) : Option Nat :=
  Map.find? (fun _ o => match o with
    | some t => decide (t.st = .running e sl)
    | none => false) s.dck.tasks

/-- Tasks that satisfy a test, with their numbers. -/
def State.tasksWhere (s : State) (p : Task → Bool) : List (Nat × Task) :=
  s.dck.tasks.filterMap (fun e => match e.2 with
    | some t => if p t then some (e.1, t) else none
    | none => none)

/-- Priority of an internal kind 0x10 to 0x15 (DCK_IPRIO, R246). -/
def State.iprio (s : State) (kind : Nat) : Nat := bits (s.rd F.DCK_IPRIO) (3 * (kind - 0x10)) 3

/-- Priority at which the Deck dispatches: DESTAGE and PARITY at 1 while the dirty data exceeds 7/8 of DIRTY_LIMIT
(R247), foreign DESTAGE at 1 in HANDBACK (Table LVE-9), and RELOCATE at 1 while the group of its stripe holds fewer
free stripes than GC_URGENT (R368). -/
def State.tprio (s : State) (t : Task) : Nat :=
  if (t.kind = 0x10 ∨ t.kind = 0x13) ∧ s.dirtyEffBytes * 7 < s.dirtyBytes * 8 then 1
  else if t.kind = 0x11 ∧ (Map.get {} s.med.grps (t.payload / 2 ^ 24)).urgent then 1
  else if (t.kind = 0x10 ∨ t.kind = 0x15) ∧ s.rd F.LVE_STAT_PAIR = 6 then min 1 t.prio
  else t.prio

/-! ### Ready lists and the spillway (R251 to R257) -/

/-- The host-class ready list is full: 32,768 tasks from admission to end (R251). -/
def State.hostListFull (s : State) (n : Nat) : Bool :=
  decide (32768 < (s.tasksWhere (fun t => !t.internal)).length + n)

/-- Internal tasks in the on-chip list (R253). -/
def State.onChip (s : State) : Nat := (s.tasksWhere (fun t => t.internal && decide (t.st = .ready))).length

/-- Descriptors of a priority in the spillway. -/
def State.spilled (s : State) (p : Nat) : Nat :=
  (s.tasksWhere (fun t => t.prio == p && decide (t.st = .spilled))).length

/-- All descriptors in the spillway: DCK_SPILL_DEPTH. -/
def State.spillDepth (s : State) : Nat := (s.tasksWhere (fun t => decide (t.st = .spilled))).length

/-- An internal task of priority `p` can enter the on-chip list: 1,024 of the 16,384 entries are kept for priorities
0 to 3 (R253). -/
def State.chipRoom (s : State) (p : Nat) : Bool := decide (s.onChip < if p ≤ 3 then 16384 else 15360)

/-- The ring of priority `p` holds 2,097,152 descriptors (R254). -/
def ringSize : Nat := 2097152

/-- A ready task of a pool without an engine waits; DCK_POOL_EMPTY is posted once per episode (R271). -/
def State.poolEmpty (s : State) (p : Nat) : State :=
  if s.poolEngines p ≠ 0 then { s with dck.emptyEp := Map.erase s.dck.emptyEp p }
  else if Map.get false s.dck.emptyEp p ∨ (s.tasksWhere (fun t => t.pool == p && decide (t.st = .ready))).isEmpty then s
  else { s with dck.emptyEp := Map.set false s.dck.emptyEp p true }.post E.DCK_POOL_EMPTY p

/-- A new task enters: a host task its ready list, an internal one the on-chip list, or the spillway while any task
of its priority is spilled or the list is full. READY_TIME is set here for a spilled task too: the spillway ring counts as a ready
list (DEDUCED, log entry 186). None is the refusal of R256. -/
def State.newTask (s : State) (t : Task) : Option (State × Nat) :=
  let n := s.dck.nextTask
  let t := { t with ready := s.time, listed := s.time }
  let put (st : TaskSt) : State :=
    { s with dck.tasks := Map.set none s.dck.tasks n (some { t with st := st }), dck.nextTask := n + 1 }.poolEmpty t.pool
  if !t.internal then some (put .ready, n)
  else if s.spilled t.prio = 0 ∧ s.chipRoom t.prio then some (put .ready, n)
  else if s.spilled t.prio < ringSize then
    let s1 := put .spilled
    some (s1.raise F.DCK_SPILL_HIGH s1.spillDepth, n)
  else none

/-- The refusal of R256: DCK_SPILLWAY_FULL once per episode. -/
def State.spillRefused (s : State) (p : Nat) : State :=
  if Map.get false s.dck.spillEp p then s
  else { s with dck.spillEp := Map.set false s.dck.spillEp p true }.post E.DCK_SPILLWAY_FULL p

/-- A new task, or the stall of its producer, which holds the task until its ring takes it (R256). -/
def State.addTask (s : State) (t : Task) : State :=
  match s.newTask t with
  | some r => r.1
  | none => { s with dck.creates := s.dck.creates ++ [t] }.spillRefused t.prio

/-- A task returns to its ready list, keeping its READY_TIME (R267): an internal one that cannot enter the on-chip list goes to
the spillway (R254). -/
def State.toReady (s : State) (t : Nat) : State :=
  match s.task t with
  | some x =>
    let spill : Bool := x.internal && !s.chipRoom x.prio && decide (s.spilled x.prio < ringSize)
    let s := (s.updTask t (fun x => { x with st := if spill then .spilled else .ready, listed := s.time, stall := false })).poolEmpty x.pool
    if spill then s.raise F.DCK_SPILL_HIGH s.spillDepth else s
  | none => s

/-- Wakes a task that waits for a map page or a fault-table slot (R202, R203). -/
def State.wakeTask (s : State) (t : Nat) : State :=
  match s.task t with
  | some x =>
    match x.st with
    | .waitPage _ => s.toReady t
    | .waitSlot => s.toReady t
    | _ => s
  | none => s

/-! ### Engines -/

/-- A pre-emption whose victim ends another way is void (Table DCK-4, Table DCK-6). -/
def State.voidPreempt (s : State) (t : Nat) (count : Bool) : State :=
  match Map.find? (fun _ o => o == some t) s.dck.preempting with
  | some p =>
    let s := { s with dck.preempting := Map.erase s.dck.preempting p }
    if count then s.bump F.DCK_PREEMPT_VOID else s
  | none => s

/-- An engine frees: slot 1 moves into slot 0 (R286), a deregistered engine gives its ID back (R263), a felled one
stays felled. -/
def State.freeEngine (s : State) (e : Nat) : State :=
  match s.taskOn e true with
  | some t => (s.updTask t (fun x => { x with st := .running e false, started := s.time })).put F.DCK_ENG_STAT_STATE 2 e
  | none =>
    if s.engSt e = 4 then s
    else if (s.eng e).leaving then
      { (s.put F.DCK_ENG_STAT_STATE 0 e).put F.DCK_ENG_STAT_LANDING 0 e with dck.engs := Map.erase s.dck.engs e }
        |>.put F.DCK_ENG_STAT_POOL 0 e |>.put F.DCK_ENG_STAT_TMOS 0 e
    else s.put F.DCK_ENG_STAT_STATE 1 e

/-- Adds the running time of a task that leaves its engine to its pool's busy time (R291). -/
def State.busyTime (s : State) (t : Task) : State :=
  let ns := s.time - max t.started s.dck.winStart
  { s with dck.busy := Map.set 0 s.dck.busy t.pool (Map.get 0 s.dck.busy t.pool + ns) }

/-- A task leaves the engine it runs on. -/
def State.leaveEngine (s : State) (t : Nat) : State :=
  match s.task t with
  | some x =>
    match x.st with
    | .running e sl =>
      let s := s.busyTime x
      let s := s.updTask t (fun x => { x with st := .ready })
      if sl then s else s.freeEngine e
    | _ => s
  | none => s

/-- Frees a task's context record (R279). -/
def State.freeCtx (s : State) (t : Nat) : State :=
  match s.task t with
  | some x =>
    match x.ctx with
    | some c => { s with dck.ctxs := Map.erase s.dck.ctxs c }.updTask t (fun x => { x with ctx := none })
    | none => s
  | none => s

/-- A task ends: its engine, context record and internal tag are freed (R245, R251). -/
def State.endTask (s : State) (t : Nat) : State :=
  match s.task t with
  | some x =>
    let s := ((s.voidPreempt t true).leaveEngine t).freeCtx t
    let s := { s with dck.tasks := Map.erase s.dck.tasks t }
    match x.tag with
    | some k => if x.internal then s.dropCmd k else s
    | none => s
  | none => s

/-- Saves a context record in a free slot (R279, Table DCK-5); none when every slot is in use. -/
def State.saveCtx (s : State) (t : Nat) (c : Ctx) : Option State :=
  match s.pickIndex (fun i => (Map.get none s.dck.ctxs i).isSome) 16384 with
  | some i =>
    some ({ s.drawn with dck.ctxs := Map.set none s.dck.ctxs i (some c) }.updTask t
      (fun x => { x with ctx := some i }))
  | none => none

/-- A context slot is free (R273, R280). -/
def State.ctxFree (s : State) : Bool := decide (s.dck.ctxs.length < 16384)

/-- An engine's timeout count rises and reaches the engine threshold: it is felled until power-on reset or a full
load (R284, Table DCK-6). -/
def State.engTimeout (s : State) (e : Nat) : State :=
  let n := s.rd F.DCK_ENG_STAT_TMOS e + 1
  let s := (s.bump F.DCK_ENG_TMOS).put F.DCK_ENG_STAT_TMOS n e
  if s.engTmos ≤ n ∧ s.engSt e ≠ 4 then
    ((s.put F.DCK_ENG_STAT_STATE 4 e).post E.DCK_ENGINE_FELLED e).poolEmpty (s.rd F.DCK_ENG_STAT_POOL e)
  else s

/-- Deregisters an engine: no further dispatch, and its ID is freed when it holds no task (R263). -/
def State.deregister (s : State) (e : Nat) : State :=
  if s.engSt e = 0 then s
  else
    let p := s.rd F.DCK_ENG_STAT_POOL e
    let s := s.updEng e (fun x => { x with leaving := true })
    if (s.taskOn e false).isNone then (s.freeEngine e).poolEmpty p else s

/-- Engines registered by a landing. -/
def State.landingEngines (s : State) (l : Nat) : List Nat :=
  ((List.range 256).map (· + 96)).filter (fun e => s.engSt e != 0 && s.rd F.DCK_ENG_STAT_LANDING e == l)

/-- The Deck asks a running PREEMPTABLE engine to yield; the yield is no pre-emption (R264). -/
def State.askYield (s : State) (e : Nat) : State :=
  match s.taskOn e false with
  | some t =>
    if s.engSt e = 2 ∧ (s.eng e).preemptable then
      let tag := match s.task t with
        | some x => x.tag.getD 0
        | none => 0
      { (s.put F.DCK_ENG_STAT_STATE 3 e).updEng e (fun x => { x with yield264 := true }) with
        dck.sent := s.dck.sent ++ [.preempt e tag] }
    else s
  | none => s

/-- Deregisters every engine of a landing and asks for yields (R264, R648). -/
def State.dropLanding (s : State) (l : Nat) : State :=
  (s.landingEngines l).foldl (fun s e => (s.askYield e).deregister e) s

/-- Tasks still on a landing's engines end with TARGET_DOWN (R264). -/
def State.endLandingTasks (s : State) (l : Nat) : State :=
  (s.landingEngines l).foldl (fun s e =>
    [true, false].foldl (fun s sl => match s.taskOn e sl with
      | some t => s.endTask t
      | none => s) s) s

/-! ### Choice of the next task (R266 to R271) -/

/-- Order of R266 between two ready tasks: priority, then valid deadlines by earliest, then READY_TIME; arrival
settles a tie. -/
def State.before (s : State) (a b : Nat × Task) : Bool :=
  let pa := s.tprio a.2
  let pb := s.tprio b.2
  let da : Nat := if a.2.deadline = 0 then 1 else 0
  let db : Nat := if b.2.deadline = 0 then 1 else 0
  if pa ≠ pb then decide (pa < pb)
  else if da ≠ db then decide (da < db)
  else if a.2.deadline ≠ b.2.deadline then decide (a.2.deadline < b.2.deadline)
  else if a.2.ready ≠ b.2.ready then decide (a.2.ready < b.2.ready)
  else decide (a.1 < b.1)

/-- The best of a list by R266. -/
def State.best (s : State) : List (Nat × Task) → Option (Nat × Task)
  | [] => none
  | x :: r =>
    match State.best s r with
    | some y => if s.before x y then some x else some y
    | none => some x

/-- Affinity set of an engine (R261). -/
def State.engSet (s : State) (e : Nat) : Nat :=
  if e < 96 then e / 8 else s.rd F.DCK_ENG_STAT_LANDING e / 4

/-- The task that engine `e` of pool `p` takes now (R266, R269, R270): tasks of the engine's set and of the common
list, else those of other sets that have waited STEAL_NS. -/
def State.choose (s : State) (p e : Nat) : Option (Nat × Task) :=
  let rdy := s.tasksWhere (fun t => decide (t.st = .ready) && t.pool == p && t.notOn != some e)
  if s.poolMode p = 1 then
    let set := s.engSet e
    match s.best (rdy.filter (fun x => x.2.aff.isNone || x.2.aff == some set)) with
    | some x => some x
    | none => s.best (rdy.filter (fun x => decide (16 * s.rd F.DCK_POOL_CFG2_STEAL_NS p ≤ s.time - x.2.listed)))
  else s.best rdy

/-- Histogram bin of a waiting time in ns (R290). -/
def histBin (ns : Nat) : Nat :=
  if ns < 128 then 0 else min 15 (Nat.log2 (ns / 64))

/-- An internal task takes a free internal-class tag at its first dispatch (R245). -/
def State.internalTag (s : State) : Option Nat :=
  (s.pickIndex (fun i => (s.cmd (65536 + i)).isSome) 65536).map (· + 65536)

/-- Dispatch of task `t` to engine `e`, into slot 1 when the flag is set (R245, R279, R286, R290). -/
def State.dispatch (s : State) (t e : Nat) (sl : Bool) : State :=
  match s.task t with
  | none => s
  | some x =>
    let s := if s.rd F.DCK_HIST_CTL_CLASS = b2n x.internal ∧ bit (s.rd F.DCK_HIST_CTL_PRIO_MASK) x.prio
      then s.bump F.DCK_HIST 1 (histBin (s.time - x.listed)) else s
    let s := (s.freeCtx t).updTask t (fun y =>
      { y with st := .running e sl, started := s.time, notOn := none })
    if sl then s else s.put F.DCK_ENG_STAT_STATE 2 e

end Sys2Proof.Machine
end

