-- ==== Sys2Proof/Machine/MapOps.lean ====
section
/-! DEFINITION. The Tally's operations: the journal, map-cache frames, translation faults, entry updates,
checkpoints, and the progress of buffer lines to DESTAGED and DONE (R176 to R242, R22 to R24, R878). -/

namespace Sys2Proof.Machine
open Sys2Proof

/-! ### Progress of writes -/

/-- A write all of whose buffered blocks are destaged is DESTAGED; once its lines' journal pages are programmed and
the partner's copies released it is DONE, and a completed one that succeeded gives its tag back (R160, R218, R464). -/
def Cmd.settle (now : Nat) (c : Cmd) : Option Cmd :=
  if c.internal ∨ ¬ isWriteOp (sqOp c.sqe) ∨ c.nBuf = 0 ∨ ¬ c.segsEnded ∨ c.toDestage ≠ [] ∨ c.waitSeqs ≠ [] then
    some c
  else
    let c := c.toPhase 4 now
    if c.toRelease ≠ [] then some c
    else
      let c := c.toPhase 5 now
      if c.completed ∧ (¬ c.held ∨ c.discard) then none else some c

/-- Changes every command in flight; none removes it. -/
def State.mapCmds (s : State) (f : Cmd → Option Cmd) : State :=
  { s with qqp.cmds := Map.mapAll none (fun _ o => o.bind f) s.qqp.cmds }

/-- A link to a key that holds no command any more is cleared: the key may be given out again (R106, R122). -/
def State.unlink (s : State) : State :=
  let keep (o : Option Nat) : Option Nat := o.filter (fun k => (s.cmd k).isSome)
  { s.mapCmds (fun c => some { c with after := keep c.after, fused := keep c.fused }) with
    tly.tracts := Map.mapAll {} (fun _ t => { t with waiter := keep t.waiter }) s.tly.tracts }

/-- Settles every write in flight. -/
def State.settleAll (s : State) : State := (s.mapCmds (Cmd.settle s.us)).unlink

/-- The blocks of lines that satisfy a test count in PROGRAMMED of their writes, each line once (R467, R878). -/
def State.countProgrammed (s : State) (p : Nat → Line → Bool) : State :=
  let ls := s.tly.lines.filterMap (fun e => match e.2 with
    | some l => if p e.1 l ∧ ¬ l.counted then some (e.1, l) else none
    | none => none)
  ls.foldl (fun s x =>
    let s := s.updLine x.1 (fun l => { l with counted := true })
    match x.2.cmd with
    | some k => s.updCmd k (fun c => { c with programmed := c.programmed + x.2.data.length })
    | none => s) s

/-- A line counts as destaged: its map update is mirrored (R218). The block counts of every write that waits for it
follow, superseded ones included (R878). -/
def State.lineDestaged (s : State) (b : Nat) : State :=
  let s := (s.updLine b (fun l => { l with destaged := true })).countProgrammed (fun _ l => l.superBy == some b)
  s.mapCmds (fun c => some
    { c with toDestage := c.toDestage.filter (· ≠ b), waitLines := c.waitLines.filter (· ≠ b) })

/-- A line is done: no partner copy is left to release (R218). -/
def State.lineDone (s : State) (b : Nat) : State :=
  { s with tly.releasing := s.tly.releasing.filter (· ≠ b) }.mapCmds (fun c => some
    { c with toRelease := c.toRelease.filter (· ≠ b) })

/-- Version `new` supersedes line `old`, and with it what `old` had superseded: whoever waits for the old line waits for the
new one (R24, R878), which may be destaged already. -/
def State.supersede (s : State) (old new : Nat) : State :=
  let sub (l : List Nat) : List Nat := (l.map (fun x => if x = old then new else x)).eraseDups
  let s : State := { s with tly.lines := Map.mapAll none (fun k (o : Option Line) => o.map (fun l =>
    if k = old ∨ l.superBy = some old then { l with superBy := some new } else l)) s.tly.lines }
  let s := s.mapCmds (fun c => some { c with toDestage := sub c.toDestage, waitLines := sub c.waitLines })
  match s.line new with
  | some l => if l.destaged then s.lineDestaged new else s
  | none => s

/-- Lines leave the buffer, and LINE_RELEASE names those of which the partner holds a copy (R413); the others are
done (R428). -/
def State.releaseLines (s : State) (bs : List Nat) : State :=
  let sent := bs.filter (fun b => s.mirroring && match s.line b with
    | some l => l.sent
    | none => true)
  let gone := bs.filter (fun b => !sent.contains b)
  let s := { s with tly.lines := bs.foldl Map.erase s.tly.lines, tly.releasing := s.tly.releasing ++ sent }
  let s := gone.foldl State.lineDone s
  if sent.isEmpty then s else s.sendList .lineRelease sent

/-- A line of which a READ holds a pin stays in the buffer (R205). -/
def State.linePinned (s : State) (b : Nat) : Bool :=
  s.qqp.cmds.any (fun e => match e.2 with
    | some c => c.snap.any (fun x => x.line == some b && !c.completed)
        || c.segs.any (fun g => (g.pin ++ g.kept).any (fun x => x.line == some b))
    | none => false)

/-- A TRIM supersedes lines `bs` (R222): who waits for one of them waits for the TRIM's journal record `q` (R878), and
the lines leave the buffer once no READ pins them. -/
def State.trimLines (s : State) (bs : List Nat) (q : Nat) : State :=
  let upd (c : Cmd) : Cmd :=
    if bs.any (fun b => c.toDestage.contains b || c.waitLines.contains b) then
      { c with toDestage := c.toDestage.filter (fun b => !bs.contains b)
               waitLines := c.waitLines.filter (fun b => !bs.contains b)
               waitSeqs := if q ∈ c.waitSeqs then c.waitSeqs else c.waitSeqs ++ [q] }
    else c
  let s := s.mapCmds (fun c => some (upd c))
  let gone := bs.filterMap (fun b => (s.line b).bind (fun l => if l.counted then none else l.cmd.map (fun k => (k, l.data.length))))
  let s := gone.foldl (fun s x => s.updCmd x.1 (fun c =>
    if q ≤ s.tly.jMir then { c with programmed := c.programmed + x.2 } else { c with progAt := c.progAt ++ [(q, x.2)] })) s
  let s := bs.foldl (fun s b => s.updLine b (fun l =>
    { l with superBy := some b, tasked := true, handed := true, counted := true })) s
  s.releaseLines (bs.filter (fun b => !s.linePinned b))

/-- Lines whose journal record lies in a programmed page are released, each with the lines it superseded
(R413, R218). -/
def State.releaseProgrammed (s : State) : State :=
  let top := s.tly.lines.filterMap (fun e => match e.2 with
    | some l => match l.jseq with
      | some q => if q ≤ s.tly.jProg ∧ l.destaged ∧ ¬ s.linePinned e.1 then some e.1 else none
      | none => none
    | none => none)
  let sup := s.tly.lines.filterMap (fun e => match e.2 with
    | some l => match l.superBy with
      | some b => if (b == e.1 || top.contains b || (s.line b).isNone) && !s.linePinned e.1 then some e.1 else none
      | none => none
    | none => none)
  (s.releaseLines (top ++ sup)).settleAll

/-! ### Journal (R224 to R227) -/

/-- Next journal SEQ. -/
def State.jseq (s : State) : Nat := s.rd64 F.TLY_JSEQ_LO F.TLY_JSEQ_HI

/-- Records the ring still needs for rebuild fill 7/8 of the journal ring (R227). -/
def State.ringHigh (s : State) : Bool := decide (7 * 8388608 ≤ 8 * (s.jseq - s.tly.ckLast))

/-- Destage stops while the ring is 7/8 full; TLY_MIRROR_RING_HIGH is posted once (R227). While mirroring both rings
hold the same records, and ARG0 names the mirror ring. -/
def State.ringCheck (s : State) : State :=
  if s.ringHigh then
    let s := s.put F.TLY_STAT_DESTAGE_STALL 1
    if s.tly.ringEp then s
    else { s with tly.ringEp := true }.post E.TLY_MIRROR_RING_HIGH (b2n s.mirroring)
  else { s with tly.ringEp := false }.put F.TLY_STAT_DESTAGE_STALL 0

/-- The open journal page closes with the last record written (R225). -/
def State.closeJPage (s : State) : State :=
  if s.jseq ≤ s.tly.jOpen then s
  else { s with tly.jPages := s.tly.jPages ++ [{ first := s.tly.jOpen, last := s.jseq - 1 }], tly.jOpen := s.jseq }

/-- Compares the record and page counts since the last CKPT_BEGIN with their triggers (R229, TLY_CKPT_TRIG): a trigger that
fires asks for a checkpoint, which starts at once or when the running one ends (R232). -/
def State.ckptDue (s : State) : State :=
  let base := max s.tly.ckBegin s.tly.ckLast
  if 65536 * s.rd F.TLY_CKPT_TRIG_RECORDS ≤ s.jseq - base
      ∨ 1024 * s.rd F.TLY_CKPT_TRIG_PAGES ≤ s.tly.ckDirtied.length then { s with tly.ckPend := true } else s

/-- Writes a record into the journal at the next SEQ, sends it to the partner, and closes the journal page when it
holds 511 records (R225, R226). While the journal is not mirrored the record counts as mirrored (R428). -/
def State.journal (s : State) (r : JRec) : State :=
  let q := s.jseq
  let s := s.put64 F.TLY_JSEQ_LO F.TLY_JSEQ_HI (q + 1)
  let s := { s with tly.jr := Map.set none s.tly.jr q (some r) }
  let s := if s.mirroring then s.send (.journal q [r] false) else { s with tly.jMir := q }
  let s := if q + 1 - s.tly.jOpen = 511 then s.closeJPage else s
  s.ckptDue.ringCheck

/-- Writes a list of records. -/
def State.journalAll (s : State) (l : List JRec) : State := l.foldl State.journal s

/-- Marks an atomic group: GROUP on every record, GROUP_END on the last (R219). -/
def asGroup : List JRec → List JRec
  | [] => []
  | [r] => [{ r with flags := r.flags ||| 3 }]
  | r :: l => { r with flags := r.flags ||| 1 } :: asGroup l

/-- FLAGS.FOREIGN of a record about a tract key (R238, R884). -/
def foreignFlag (t : Nat) : Nat := if t < 4096 then 0 else 4

/-- TRACT_SET record of a tract's present state (Table TLY-9, R895). -/
def State.tractSet (s : State) (t : Nat) : State :=
  let x := s.tract t
  s.journal { ty := 0x09, flags := foreignFlag t, tract := tractId t, arg0 := x.cap % 2 ^ 60
              arg1 := x.mpn % 2 ^ 27 + 2 ^ 32 * (x.iu % 16) + 2 ^ 36 * (x.blk % 2) + 2 ^ 40 * (x.kid % 256)
                + 2 ^ 48 * (x.owner % 512) + 2 ^ 60 * x.st.code }

/-- Everything that waits for journal records up to the mirrored SEQ goes on (R218, R223). -/
def State.journalMirrored (s : State) : State :=
  let m := s.tly.jMir
  let due := s.tly.lines.filterMap (fun e => match e.2 with
    | some l => match l.jseq with
      | some q => if q ≤ m ∧ ¬ l.destaged then some e.1 else none
      | none => none
    | none => none)
  let s := due.foldl State.lineDestaged s
  let s := s.mapCmds (fun c => some
    { c with waitSeqs := c.waitSeqs.filter (fun q => m < q), progAt := c.progAt.filter (fun x => m < x.1)
             programmed := c.programmed + ((c.progAt.filter (fun x => x.1 ≤ m)).map Prod.snd).sum })
  s.settleAll.releaseProgrammed

/-- The journal stops being mirrored: every record counts as mirrored, no release is awaited, and lines of writes
go on without the partner (R427, R428). -/
def State.goSolo (s : State) : State :=
  let s := s.stopMirror
  let s := s.tly.releasing.foldl State.lineDone s
  { s with tly.jMir := s.jseq - 1 }.journalMirrored

/-! ### Map cache (R184 to R204) -/

/-- The page holds the pinned translation of a transfer (R205): PINS of its frame is not 0. -/
def State.pagePinned (s : State) (page : Nat) : Bool :=
  s.qqp.cmds.any (fun e => match e.2 with
    | some c => (!c.completed && c.snapPages.contains page) || c.segs.any (fun g => g.pinPages.contains page)
    | none => false)

/-- Adds a frame for a page. -/
def State.addFrame (s : State) (page : Nat) (f : Frame) : State :=
  { s with tly.frames := Map.set none s.tly.frames page (some f) }

/-- Changes the frame of a resident page. -/
def State.updFrame (s : State) (page : Nat) (f : Frame → Frame) : State :=
  match Map.get none s.tly.frames page with
  | some x => s.addFrame page (f x)
  | none => s

/-- Entries of a page, removed. -/
def State.dropEntries (s : State) (page : Nat) : State :=
  { s with tly.ent := Map.keep (fun k _ => k / 2048 != page) s.tly.ent }

/-- Key of the tract that a map page belongs to. -/
def State.pageTract (s : State) (page : Nat) : Nat :=
  ((s.tly.tracts.find? (fun _ t => decide (t.st ≠ .absent) && decide (t.mpn ≤ page) && decide (page < t.mpn + t.pages)))).getD 0

/-- Blocks of the IUs of a resident page whose entry is VALID (R167). -/
def State.mappedIn (s : State) (page : Nat) : Nat :=
  let tr := s.tract (s.pageTract page)
  let l := s.tly.ent.filter (fun e => e.1 / 2048 == page && eValid e.2 && !eTrimmed e.2 && !ePoisoned e.2)
  (l.map (fun e =>
    let iu := 2048 * (page - tr.mpn) + e.1 % 2048
    min tr.perIu (tr.cap - iu * tr.perIu))).sum

/-- A frame leaves the cache; the directory names the page's flash copy again (Table TLY-3). -/
def State.evict (s : State) (page : Nat) : State :=
  match Map.get none s.tly.frames page with
  | some f =>
    let d : Dir := { flash := f.flash, fresh := f.fresh && f.flash == 0, replay := false, mapped := s.mappedIn page }
    let s := s.dropEntries page
    { s with
      tly.frames := Map.erase s.tly.frames page
      tly.dir := Map.set {} s.tly.dir page d
      tly.hand := page }.bump F.TLY_EVICTIONS
  | none => s

/-- Starts the writeback of a frame (R194); its place in a map stripe follows with the Tally's next step. -/
def State.startWb (s : State) (page : Nat) : State :=
  let q := s.jseq
  s.updFrame page (fun f => { f with wb := true, wbGen := f.gen, wbSeq := q, wbPlace := none })

/-- Resident pages in the order of the CLOCK sweep (R193): rising map page numbers from the page last evicted on (log entry
185). -/
def State.sweepOrder (s : State) : List (Nat × Frame) :=
  let l := s.tly.frames.filterMap (fun e => e.2.bind (fun f => if f.loading then none else some (e.1, f)))
  l.filter (fun x => s.tly.hand < x.1) ++ l.filter (fun x => x.1 ≤ s.tly.hand)

/-- Clears REF of the pages the sweep has passed. -/
def State.clearRef (s : State) (ps : List Nat) : State :=
  ps.foldl (fun s p => s.updFrame p (fun f => { f with ref := false })) s

/-- Makes room for one frame (R193): a free frame; else the CLOCK sweep evicts a clean frame whose REF is 0, then a
clean frame, and else starts the writeback of a dirty one. True when a frame is free afterwards. -/
def State.takeFrame (s : State) : State × Bool :=
  if s.tly.frames.length < s.rd F.TLY_FRAMES then (s, true)
  else
    let ord := s.sweepOrder
    let ok (x : Nat × Frame) : Bool := !x.2.wb && !s.pagePinned x.1
    match ord.find? (fun x => ok x && !x.2.dirty && !x.2.ref) with
    | some v => ((s.clearRef ((ord.takeWhile (fun x => x.1 ≠ v.1)).map Prod.fst)).evict v.1, true)
    | none =>
      let s1 := s.clearRef (ord.map Prod.fst)
      match ord.find? (fun x => ok x && !x.2.dirty) with
      | some v => (s1.evict v.1, true)
      | none =>
        match ord.find? ok with
        | some v => (s1.startWb v.1, false)
        | none => (s1, false)

/-- A frame for a run-ahead load: a free one, or a clean one whose REF is 0 (R211). -/
def State.raFrame (s : State) : State × Bool :=
  if s.tly.frames.length < s.rd F.TLY_FRAMES then (s, true)
  else match s.sweepOrder.find? (fun x => !x.2.wb && !s.pagePinned x.1 && !x.2.dirty && !x.2.ref) with
    | some v => (s.evict v.1, true)
    | none => (s, false)

/-- The lowest frame index in no use. -/
def State.frameIdx (s : State) : Nat :=
  (scanFree (fun i => s.tly.frames.any (fun e => match e.2 with
    | some f => f.idx == i
    | none => false)) (s.tly.frames.length + 1) (s.tly.frames.length + 1) 0).getD 0

/-- The load in progress of a page. -/
def State.load (s : State) (page : Nat) : Option Load := Map.get none s.tly.loads page

/-- Changes a load that exists. -/
def State.updLoad (s : State) (page : Nat) (f : Load → Load) : State :=
  match s.load page with
  | some l => { s with tly.loads := Map.set none s.tly.loads page (some (f l)) }
  | none => s

/-- Directory page of a map page, noted as changed since the last checkpoint (R230). -/
def State.dirChanged (s : State) (page : Nat) : State :=
  if page / 2048 ∈ s.tly.ckDirs then s else { s with tly.ckDirs := s.tly.ckDirs ++ [page / 2048] }

/-- Pre-translations that satisfy a test are discarded (R212). -/
def State.discardPre (s : State) (p : Nat × Nat → Bool) : State :=
  let n := (s.tly.pre.filter p).length
  if n = 0 then s else { s with tly.pre := s.tly.pre.filter (fun x => !p x) }.bump F.TLY_RA_DISCARDED n

/-- Entries of an update to a resident page: DIRTY set, DIRTY_GEN raised, any pre-translation of the IU discarded
(R195, R212, R229). -/
def State.setEntry (s : State) (t page idx e : Nat) : State :=
  let iu : Nat := 2048 * (page - (s.tract t).mpn) + idx
  let s : State := { s with tly.ent := Map.set trimmedEntry s.tly.ent (2048 * page + idx) (setBits e 51 1 0) }
  let s : State := s.updFrame page (fun f => { f with dirty := true, gen := (f.gen + 1) % 65536 })
  let s : State := if page ∈ s.tly.ckDirtied then s else { s with tly.ckDirtied := s.tly.ckDirtied ++ [page] }.ckptDue
  s.discardPre (fun x => x == (t, iu))

/-- A run of IUs from `a` covers page `p` of a tract wholly. -/
def Tract.coversPage (t : Tract) (a n p : Nat) : Bool :=
  decide (a ≤ 2048 * p) && decide (2048 * p < t.entries) && decide (min (2048 * p + 2048) t.entries ≤ a + n)

/-- A replayed record applied to a resident page (R235). A TRIM of the whole page leaves it as a FRESH one is filled, with
WVER 0 (R221). -/
def State.replayRec (s : State) (page : Nat) (r : JRec) : State :=
  let t := r.tract + (if bit r.flags 2 then 4096 else 0)
  let tr := s.tract t
  let p := page - tr.mpn
  let base := 2048 * p
  match r.ty with
  | 0x01 => if tr.page r.arg0 = page then s.setEntry t page (r.arg0 % 2048) r.arg1 else s
  | 0x02 =>
    let n := r.arg1 % 2 ^ 40
    if tr.coversPage r.arg0 n p then (s.dropEntries page).setEntry t page 0 trimmedEntry
    else (List.range 2048).foldl (fun s i =>
      if r.arg0 ≤ base + i ∧ base + i < r.arg0 + n then
        let e := s.entry page i
        if !eValid e && eTrimmed e && !ePoisoned e then s
        else s.setEntry t page i (mkEntry 0 false true false (4096 ≤ t) (eWver e + 1))
      else s) s
  | 0x0A =>
    if tr.page r.arg0 = page then
      let e := s.entry page (r.arg0 % 2048)
      s.setEntry t page (r.arg0 % 2048) (mkEntry 0 false false true (4096 ≤ t) (eWver e))
    else s
  | _ => s

/-- Applies the records that wait for a page, in SEQ order (R234). -/
def State.replayPage (s : State) (page : Nat) : State :=
  let l := Map.get [] s.tly.replay page
  let s := l.foldl (fun s r => s.replayRec page r.2) s
  let s : State := { s with tly.replay := Map.erase s.tly.replay page }
  if s.tly.replay = [] then s.put F.TLY_STAT_REPLAY_PENDING 0 else s

/-- Makes a page resident, or waits for it: a FRESH page is filled at once (R197), and takes the records that wait for it; a
miss that needs a media read takes a fault-table slot (R198), joins a load in progress (R199) or waits for a slot (R203). The
media read is issued with the Tally's next step (log entry 193). The flag is true when the page is resident afterwards. -/
def State.needPage (s : State) (page : Nat) (w : Waiter) (prio : Nat) : State × Bool :=
  if s.resident page then (s, true)
  else if s.isFresh page then
    let r := s.takeFrame
    if r.2 then ((r.1.addFrame page { idx := r.1.frameIdx, fresh := true }).replayPage page, true) else (r.1, false)
  else
    match s.load page with
    | some l =>
      if w ∈ l.waiters then (s, false)
      else
        let s := s.updLoad page (fun l =>
          { l with waiters := l.waiters ++ [w], runAhead := false, start := if l.runAhead then s.time else l.start })
        (s.bump F.TLY_FAULTS_COALESCED, false)
    | none =>
      if w ∈ s.tly.slotWait then (s, false)
      else if s.tly.loads.length < 4096 then
        let l : Load := { waiters := [w], start := s.time, prio := prio }
        ({ s with tly.loads := Map.set none s.tly.loads page (some l) }.bump F.TLY_FAULTS, false)
      else
        let s : State := { s with tly.slotWait := s.tly.slotWait ++ [w] }
        if s.tly.fullEp then (s, false)
        else ({ s with tly.fullEp := true }.post E.TLY_FAULT_TABLE_FULL, false)

/-! ### Checkpoints (R229 to R232) -/

/-- Number of the last completed checkpoint. -/
def State.ckptNum (s : State) : Nat := s.rd64 F.TLY_CKPT_NUM_LO F.TLY_CKPT_NUM_HI

/-- A dirty page whose writeback belongs to the half that is checkpointed. -/
def inHalf (foreign : Bool) (page : Nat) : Bool := if foreign then decide (2 ^ 26 ≤ page) else decide (page < 2 ^ 26)

/-- A checkpoint begins: CKPT_BEGIN is journalled and the writeback of every dirty page starts (R230). -/
def State.ckptStart (s : State) (foreign : Bool) : State :=
  let q := s.jseq
  let s := { s with tly.ckBegin := q, tly.ckForeign := foreign, tly.ckDirtied := [], tly.ckPend := false, tly.ckPlaces := [],
                    tly.ckRooted := false }.put F.TLY_STAT_CKPT_ACTIVE 1
  let s := s.journal { ty := 0x04, flags := if foreign then 4 else 0, arg0 := (if foreign then s.tly.fNum else s.ckptNum) + 1 }
  let ps := s.tly.frames.filterMap (fun e => match e.2 with
    | some f => if f.dirty ∧ inHalf foreign e.1 then some (e.1, f.wb) else none
    | none => none)
  (ps.filter (fun x => !x.2)).foldl (fun s p => s.startWb p.1) { s with tly.ckPages := ps.map Prod.fst }

/-- A trigger of R229: it starts a checkpoint, or another when the running one ends (R232). -/
def State.ckptTrigger (s : State) : State :=
  if s.on F.TLY_STAT_CKPT_ACTIVE then { s with tly.ckPend := true } else s.ckptStart false

/-- A checkpoint asked for starts, unless one runs (R229, R232). -/
def State.ckptCheck (s : State) : State :=
  let s := s.ckptDue
  if s.on F.TLY_STAT_CKPT_ACTIVE ∨ ¬ s.tly.ckPend then s else s.ckptStart false

/-! ### Map space of the own half (R178, R179) -/

/-- Page ranges in use by tracts of the own half: first page and count. -/
def State.usedRanges (s : State) : List (Nat × Nat) :=
  s.tly.tracts.filterMap (fun e =>
    if e.1 < 4096 ∧ e.2.st ≠ .absent then some (e.2.mpn, e.2.pages) else none)

/-- Inserts a range in order. -/
def insRange (r : Nat × Nat) : List (Nat × Nat) → List (Nat × Nat)
  | [] => [r]
  | x :: l => if r.1 ≤ x.1 then r :: x :: l else x :: insRange r l

/-- Free gaps between ordered ranges, from page `p` up to `n`. -/
def gaps (n : Nat) : Nat → List (Nat × Nat) → List (Nat × Nat)
  | p, [] => [(p, n - p)]
  | p, x :: l => (p, x.1 - p) :: gaps n (x.1 + x.2) l

/-- Free page ranges of the own half. -/
def State.freeRanges (s : State) : List (Nat × Nat) :=
  (gaps (2 ^ 26) 0 (s.usedRanges.foldr insRange [])).filter (fun g => g.2 ≠ 0)

/-- TLY_MAP_FREE_MAX: the largest free range (R179). -/
def State.mapFreeMax (s : State) : Nat := s.freeRanges.foldl (fun n g => max n g.2) 0

/-- A free range of `p` pages; which of them is free (log entry 4). -/
def State.allocPages (s : State) (p : Nat) : Option Nat :=
  let l := s.freeRanges.filter (fun g => p ≤ g.2)
  match l[s.freeNat % l.length]? with
  | some g => some (g.1 + Config.freeNat (s.fresh + 1) % (g.2 - p + 1))
  | none => none

end Sys2Proof.Machine
end

