-- ==== Sys2Proof/Machine/Qops.lean ====
section
/-! DEFINITION. The QQP front end's operations: queues, admission checks, segments, the ledger entry, the outcome of
a command and its completion entry (R101 to R175, R463 to R467). -/

namespace Sys2Proof.Machine
open Sys2Proof

/-! ### Queues -/

/-- Key of a queue pair. -/
def qpKey (fn q : Nat) : Nat := 2048 * fn + q

/-- The queue pair of a function and queue ID; an ID above 1,024 names none (R102). -/
def State.qp (s : State) (fn q : Nat) : Qp := if q ≤ 1024 then Map.get {} s.qqp.qps (qpKey fn q) else {}

/-- Changes a queue pair. -/
def State.updQp (s : State) (fn q : Nat) (f : Qp → Qp) : State :=
  { s with qqp.qps := Map.upd {} s.qqp.qps (qpKey fn q) f }

/-- The SQ takes a new size: an index beyond it wraps at once (Table QQP-10). -/
def Qp.sqResize (p : Qp) (n : Nat) : Qp :=
  let w (i : Nat) : Nat := if n ≤ i then 0 else i
  { p with sqHead := w p.sqHead, sqTail := w p.sqTail, sqSize := n, sqNext := 0 }

/-- The CQ takes a new size: an index beyond it wraps at once, and the tail's wrap inverts the phase (Table QQP-10, R114). -/
def Qp.cqResize (p : Qp) (m : Nat) : Qp :=
  let w (i : Nat) : Nat := if m ≤ i then 0 else i
  let moved : Bool := decide (m ≤ p.cqHead) || decide (m ≤ p.cqTail)
  { p with cqHead := w p.cqHead, cqTail := w p.cqTail, cqSize := m, cqNext := 0
           phase := if m ≤ p.cqTail then !p.phase else p.phase
           cqUsed := if moved then (w p.cqTail + m - w p.cqHead) % m else p.cqUsed }

/-- Entries available for fetch (R108). -/
def Qp.avail (q : Qp) : Nat := if q.sqSize = 0 then 0 else (q.sqTail + q.sqSize - q.sqHead) % q.sqSize

/-- A CQ with no room: the part never posts into it (R115). -/
def Qp.cqFull (q : Qp) : Bool := decide (q.cqSize ≤ q.cqUsed)

/-- First host-memory base of the SQ: for an admin queue the registers in force (Table QQP-10). -/
def State.sqBase (s : State) (fn q : Nat) : Nat :=
  if q = 0 then s.rd F.QQP_ASQ_BASE_LO fn + 2 ^ 32 * s.rd F.QQP_ASQ_BASE_HI fn else (s.qp fn q).sqBase

/-- First host-memory base of the CQ. -/
def State.cqBase (s : State) (fn q : Nat) : Nat :=
  if q = 0 then s.rd F.QQP_ACQ_BASE_LO fn + 2 ^ 32 * s.rd F.QQP_ACQ_BASE_HI fn else (s.qp fn q).cqBase

/-- A function exists: the PF, or a VF from 1 to NumVFs while VF Enable is set (R880). -/
def State.fnExists (s : State) (fn : Nat) : Bool :=
  fn == 0 || (s.pci.vfEn && decide (fn ≤ s.pci.numVfs))

/-! ### Opcodes (R132, R163) -/

/-- I/O opcodes (Table QQP-5). -/
def isIoOp (op : Nat) : Bool := (decide (1 ≤ op) && decide (op ≤ 8)) || op == 0x10 || op == 0x11

/-- Admin opcodes (Table QQP-6). -/
def isAdminOp (op : Nat) : Bool := decide (0x40 ≤ op) && decide (op ≤ 0x4C)

/-- LEDGER_QUERY and LEDGER_RELEASE, which take no tag (R122). -/
def isLedgerOp (op : Nat) : Bool := op == 0x10 || op == 0x11

/-- Opcodes that DIRTY_LIMIT holds back (R123). -/
def isDirtyOp (op : Nat) : Bool := isWriteOp op

/-- An admin opcode is available to a function (Table QQP-6). -/
def State.adminFor (s : State) (fn op : Nat) : Bool :=
  let pf := fn == 0
  match op with
  | 0x40 => true
  | 0x41 => true
  | 0x42 => pf
  | 0x43 => pf
  | 0x44 => true
  | 0x45 => pf && s.polKeyImport
  | 0x46 => pf && s.polKeyImport
  | 0x47 => true
  | 0x48 => pf && s.polStandLoad
  | 0x49 => pf
  | 0x4A => pf
  | 0x4B => true
  | 0x4C => pf
  | _ => false

/-- FLAGS holds a bit that the opcode does not allow (R120, R134, R135, R147). -/
def flagsBad (admin : Bool) (e : Nat) : Bool :=
  let op := sqOp e
  (sqFused e && op != 0x08) || (sqFua e && !isWriteOp op)
    || (sqAtomic e && !(op == 0x02 || op == 0x07 || op == 0x08)) || (sqSgl e && (admin || op == 0x10))

/-- DP1 is not aligned as its use asks; and DP2 holds what it must not (R118, R119). -/
def pointersBad (e : Nat) : Bool × Bool :=
  let op := sqOp e
  let sgl := (op == 0x01 || op == 0x02 || op == 0x08) && sqSgl e
  if op ∈ [0x01, 0x02, 0x08, 0x10, 0x45, 0x47, 0x49, 0x4A] then
    (sqDp1 e % (if sgl then 16 else 4) != 0, if sgl then decide (256 ≤ sqDp2 e) else sqDp2 e != 0)
  else (false, false)

/-- Byte offsets of the invalid fields of an entry, in rising order (R111, R113, R118 to R120, R134, R135, R147,
R156). -/
def invalidFields (admin : Bool) (e : Nat) : List Nat :=
  let p := pointersBad e
  (if flagsBad admin e then [1] else []) ++ (if bits e 44 4 ≠ 0 then [4] else [])
    ++ (if bytesAt e 7 1 ≠ 0 then [7] else []) ++ (if sqDlValid e ∧ sqDeadline e = 0 then [20] else [])
    ++ (if p.1 then [24] else []) ++ (if p.2 then [32] else []) ++ osReserved e

/-- The format check of an entry: status and FIELD, the first invalid field (R113, R132, R163). -/
def State.formatError (s : State) (fn : Nat) (admin : Bool) (e : Nat) : Option (Nat × Nat) :=
  let op := sqOp e
  if admin && !(isAdminOp op && s.adminFor fn op) then some (0x02, 0xFF)
  else if !admin && !isIoOp op then some (0x02, 0xFF)
  else (invalidFields admin e).head?.map (fun f => (0x03, f))

/-- A fused pair's second entry fails the conditions of R144: FIELD of the first command. -/
def fusedError (a b : Nat) : Option Nat :=
  if sqOp b ≠ 0x08 ∨ sqFused b then some 1
  else if sqTract a ≠ sqTract b then some 4
  else if sqLba a < sqLba b + sqLen b ∧ sqLba b < sqLba a + sqLen a then some 8
  else none

/-! ### Segments (R249) -/

/-- `k` segments of equal IU count over the blocks from `lba`, earlier ones taking the remainder. -/
def segList (lba len per k : Nat) : List Seg :=
  let i0 := lba / per
  let n := (lba + len - 1) / per + 1 - i0
  (List.range k).map (fun j =>
    let a := i0 + j * (n / k) + min j (n % k)
    let b := i0 + (j + 1) * (n / k) + min (j + 1) (n % k)
    let x := max lba (a * per)
    { first := x - lba, len := min (lba + len) (b * per) - x })

/-- Segments of a transfer of `len` blocks in a tract: the smallest of the four values of R249. -/
def State.segments (s : State) (tr : Tract) (lba len : Nat) : List Seg :=
  let per := max 1 tr.perIu
  let ius := (lba + len - 1) / per + 1 - lba / per
  let k := min (min (max 1 s.idleSkidders) (max 1 (len * tr.blkBytes / 32768))) (min 8 ius)
  segList lba len per k

/-! ### Ledger entry (R463) -/

/-- The 64-byte ledger entry of a key as a little-endian number (Table FLT-5). -/
def State.ledgerEntry (s : State) (k : Nat) : Nat :=
  match s.cmd k with
  | none => 0
  | some c =>
    let e := c.sqe
    k % 2 ^ 17 + 2 ^ 17 * b2n c.internal + 2 ^ 18 * b2n c.completed + 2 ^ 19 * b2n c.held + 2 ^ 20 * (c.phase % 8)
      + 2 ^ 32 * (if c.internal then c.kind else sqOp e) + 2 ^ 40 * (c.fault % 256) + 2 ^ 48 * (c.unit % 256)
      + 2 ^ 56 * min 255 c.retries + 2 ^ 64 * (c.fn % 512) + 2 ^ 80 * (c.sqid % 2 ^ 16)
      + 2 ^ 96 * (if c.internal then 0 else sqCid e) + 2 ^ 112 * ((if c.internal then c.iTract else sqTract e) % 4096)
      + 2 ^ 128 * ((if c.internal then c.iLba else sqLba e) % 2 ^ 64)
      + 2 ^ 192 * (if c.internal then 0 else sqLen e - 1) + 2 ^ 224 * (c.xfer % 2 ^ 32)
      + 2 ^ 256 * (c.mirrored % 2 ^ 32) + 2 ^ 288 * (c.programmed % 2 ^ 32) + 2 ^ 320 * (c.doneBlks % 2 ^ 32)
      + 2 ^ 352 * min 65535 c.parks + 2 ^ 368 * min 65535 c.preempts + 2 ^ 384 * (c.wher % 2 ^ 64)
      + 2 ^ 448 * (c.tAdmit % 2 ^ 32) + 2 ^ 480 * (c.tPhase % 2 ^ 32)

/-! ### Ending a command -/

/-- Tract IDs that a command uses: none for admin and ledger commands and for a FLUSH of every tract (R111, Table
QQP-5). -/
def sqTracts (e : Nat) : List Nat :=
  let op := sqOp e
  if ¬ isIoOp op ∨ isLedgerOp op ∨ (op = 0x03 ∧ bit e 320) then []
  else if op = 0x06 then [sqTract e, bytesAt e 40 2 % 4096] else [sqTract e]

/-- A tract the command uses satisfies a test of its key and the tract. -/
def State.anyTractOf (s : State) (c : Cmd) (p : Nat → Tract → Bool) : Bool :=
  (sqTracts c.sqe).any (fun id => match s.tractKey c.fn id with
    | some t => p t (s.tract t)
    | none => false)

/-- A tract the command uses is FROZEN: every next step of the command waits (R130, R131). -/
def State.ioFrozen (s : State) (c : Cmd) : Bool := s.anyTractOf c (fun _ t => decide (t.st = .frozen))

/-- Waits for lines to be destaged, or for journal records to be mirrored. -/
def Cmd.waits (c : Cmd) : Bool := !c.waitLines.isEmpty || !c.waitSeqs.isEmpty

/-- In phase RECEIVED with work left: READ, VERIFY, TRIM, FLUSH and admin commands leave RECEIVED when their work ends
(R465), and a STAND_LOAD when its load has begun (log entry 192). -/
def Cmd.received (c : Cmd) : Bool :=
  c.phase == 0 && !c.internal && !c.completed && !(sqOp c.sqe == 0x48 && c.checked)
    && (if c.ended then c.waits || c.delQ.isSome else c.segs.isEmpty || !c.segsEnded)

/-- Tasks of a command. -/
def State.cmdTasks (s : State) (k : Nat) : List Nat :=
  (s.tasksWhere (fun t => !t.internal && t.tag == some k)).map Prod.fst

/-- A command's work ends with a status of its own: its tasks end, and its completion can be posted. -/
def State.finish (s : State) (k status : Nat) (field : Nat := 0xFF) (blocks : Nat := 0) (result : Nat := 0) : State :=
  ((s.cmdTasks k).foldl State.endTask s).updCmd k (fun c =>
    { c with ended := true, status := status, field := field, blocksDone := blocks, result := result })

/-- As `finish`, noting the fault (Table FLT-5); the command waits for nothing more. -/
def State.failCmd (s : State) (k status unit wher : Nat) (field : Nat := 0xFF) : State :=
  (s.finish k status field).updCmd k (fun c =>
    Cmd.note { c with waitLines := [], waitSeqs := [], delQ := none, after := none } status unit wher)

/-- A segment of a command ends, stopped by a fault or done; its task ends with it (R250). -/
def State.segEnd (s : State) (k i stop unit wher : Nat) : State :=
  let s := s.updCmd k (fun c =>
    let c := c.updSeg i (fun g => { g with ended := true, stop := stop, pin := [], pinPages := [], kept := [] })
    if stop = 0 then c else c.note stop unit wher)
  match (s.tasksWhere (fun t => !t.internal && t.tag == some k && t.seg == i)).head? with
  | some t => s.endTask t.1
  | none => s

/-- The engine task that runs segment `i` of a command now (R250). -/
def State.segRunning (s : State) (k i : Nat) : Option Nat :=
  ((s.tasksWhere (fun t => !t.internal && t.tag == some k && t.seg == i && (match t.st with
    | .running _ false => true
    | _ => false))).head?).map Prod.fst

/-- Status of a command that stopped after `n` of `len` blocks (R158); Skidway codes the host never sees become
INTERNAL (R168, R446). -/
def stopStatus (n len stop : Nat) : Nat × Nat :=
  let x := if stop = 0x10 ∨ stop = 0x11 then 0x12 else stop
  if len ≤ n then (0, 0) else if n = 0 then (x, 0) else (0x01, x)

/-! ### Outcome (R22, R134, R158, R165, R427) -/

/-- A command in RECEIVED ends without effect: a tract it was creating returns to ABSENT, one it was deleting to the state it
had, and a queue it was deleting is served again (R155, R165, R166, log entry 192). -/
def State.undo (s : State) (k : Nat) : State :=
  let s := s.tly.tracts.foldl (fun s e =>
    if e.2.waiter ≠ some k then s
    else if e.2.st = .formatting then
      let s := (s.setTract e.1 { e.2 with st := .absent, waiter := none }).tractSet e.1
      (s.setTract e.1 {}).drop F.CRY_KEY_STAT_TRACTS 1 e.2.kid
    else (s.setTract e.1 { e.2 with st := e.2.was, waiter := none }).tractSet e.1) s
  { s with qqp.qps := Map.mapAll {} (fun _ p => if p.deleting = some k then { p with deleting := none } else p) s.qqp.qps }

/-- A command in RECEIVED completes with a status and no effect (R155, R165, R166). -/
def State.abortCmd (s : State) (k status : Nat) : State := (s.undo k).failCmd k status 2 0

/-- How a command completes. -/
structure Outc where
  status : Nat := 0
  cause : Nat := 0
  field : Nat := 0xFF
  blocks : Nat := 0
  result : Nat := 0
  deriving DecidableEq, Repr

/-- Commands of a queue that have not posted, other than `k`. -/
def State.queueBusy (s : State) (fn q k : Nat) : Bool :=
  s.qqp.cmds.any (fun e => match e.2 with
    | some c => !c.internal && e.1 != k && c.fn == fn && c.sqid == q && !c.completed
    | none => false)

/-- The outcome of a command whose work allows its completion to be posted; none while it does not. -/
def State.outcome (s : State) (k : Nat) (c : Cmd) : Option Outc :=
  let e := c.sqe
  let op := sqOp e
  let len := sqLen e
  if c.internal ∨ c.completed then none
  else if c.ended then
    let first : Bool := match c.after.bind s.cmd with
      | some d => !d.completed
      | none => false
    if c.waitLines ≠ [] ∨ c.waitSeqs ≠ [] ∨ first then none
    else match c.delQ with
    | some q => if s.queueBusy c.fn q k then none else some { status := c.status, field := c.field }
    | none =>
      some { status := c.status, cause := c.cause, field := c.field, blocks := c.blocksDone, result := c.result }
  else if c.segs = [] ∨ ¬ c.segsEnded then none
  else
    let (n, stop) := leadSegs c.segs
    let out (n stop : Nat) : Outc :=
      let r := stopStatus n len stop
      if op = 0x08 then { status := if len ≤ n then 0 else (stopStatus 0 len stop).1, blocks := if len ≤ n then len else 0 }
      else { status := r.1, cause := r.2, blocks := n }
    if ¬ isWriteOp op then some (out n stop)
    else if c.waitSeqs ≠ [] then none
    else match c.ack with
    | 0 => if (s.linesOfCmd k).all (fun x => x.2.mirrored) then some (out n stop) else none
    | 1 => some (out n stop)
    | 2 => if c.toDestage = [] then some (out n stop) else none
    | _ => some (out (min n c.lead) (if c.lead < n then 0x0B else stop))

/-- A WRITE_ZEROES that has not completed has trimmed the IU (R137). -/
def State.zeroing (s : State) (k t iu : Nat) : Bool :=
  s.qqp.cmds.any (fun e => match e.2 with
    | some d => e.1 != k && !d.completed && (match d.trim with
      | some (u, a, n) => u == t && decide (a ≤ iu) && decide (iu < a + n)
      | none => false)
    | none => false)

/-- A write of one of the same IUs that comes first has not completed: one of a lower BSEQ (R411), or a WRITE_ZEROES that
has trimmed the IU (R150, log entry 191). -/
def State.orderHeld (s : State) (k : Nat) : Bool :=
  (s.linesOfCmd k).any (fun x =>
    (s.ownLines x.2.tract x.2.iu).any (fun y => decide (y.1 < x.1) && !y.2.acked && y.2.cmd != some k)
      || s.zeroing k x.2.tract x.2.iu)

/-! ### Acknowledgement of a write (R24, R215, R411) -/

/-- The lines of a write are acknowledged: each supersedes every acknowledged line of its IU with a lower BSEQ. -/
def State.ackLines (s : State) (k : Nat) : State :=
  ((s.linesOfCmd k).filter (fun x => !x.2.acked)).foldl (fun s x =>
    let s := s.updLine x.1 (fun l => { l with acked := true, ackNo := s.tly.acks })
    let s := { s with tly.acks := s.tly.acks + 1 }
    (s.ownLines x.2.tract x.2.iu).foldl (fun s y =>
      if y.1 < x.1 ∧ y.2.acked then s.supersede y.1 x.1 else s) s) s

/-- The lines of a write that has no effect are dropped: an atomic write that failed (R143). -/
def State.dropLines (s : State) (k : Nat) : State :=
  let bs := (s.linesOfCmd k).map Prod.fst
  let s := s.releaseLines bs
  s.updCmd k (fun c => { c with toDestage := [], nBuf := 0 })

/-! ### Completion entry (R113) -/

/-- The 32-byte completion entry as a little-endian number (Table QQP-2). BLOCKS_DONE and RESULT hold a count of blocks modulo
2^32: a TRIM or WRITE_ZEROES of 2^32 blocks shows 0 (log entry 181). -/
def cqEntry (cid sqid status sqhd : Nat) (phase : Bool) (blocks : Nat) (tag : Option Nat) (cause field result : Nat)
    (missed : Bool) : Nat :=
  cid + 2 ^ 16 * sqid + 2 ^ 32 * status + 2 ^ 48 * sqhd + 2 ^ 64 * b2n phase + 2 ^ 96 * (blocks % 2 ^ 32)
    + (match tag with
      | some t => 2 ^ 128 * (t + 2 ^ 31)
      | none => 0)
    + 2 ^ 160 * (cause + 2 ^ 8 * field) + 2 ^ 192 * (result % 2 ^ 56) + 2 ^ 248 * b2n missed

/-- Signals a CQ's vector by its coalescing setting after a completion (R125, R126). -/
def State.cqSignal (s : State) (fn q : Nat) : State :=
  let p := s.qp fn q
  if q = 0 then s.msix fn 0
  else if !p.irqEn then s
  else if p.coalCount = 0 then s.msix fn p.vector
  else if p.coalCount ≤ p.coalPending + 1 then
    (s.updQp fn q (fun p => { p with coalPending := 0, coalTimer := false })).msix fn p.vector
  else s.updQp fn q (fun p => { p with coalPending := p.coalPending + 1, coalTimer := p.coalTimer || p.coalTime != 0 })

/-- Writes a completion entry into a CQ: tail and phase advance (R114), then the signal. -/
def State.postCqe (s : State) (fn q : Nat) (entry : Bool → Nat → Nat) : State :=
  let p := s.qp fn q
  let s := { s with out := s.out ++ [Out.cqe fn q p.cqTail (entry p.phase p.sqHead)] }
  let wrap : Bool := decide (p.cqSize ≤ p.cqTail + 1)
  let s := s.updQp fn q (fun p =>
    let x := { p with cqTail := if wrap then 0 else p.cqTail + 1, phase := if wrap then !p.phase else p.phase
                      cqUsed := p.cqUsed + 1 }
    if wrap && p.cqNext != 0 then x.cqResize p.cqNext else x)
  s.cqSignal fn q

/-- The deadline of a command has passed (R155). -/
def State.late (s : State) (c : Cmd) : Bool := c.deadline != 0 && decide (c.deadline - 1 < s.time / 1000)

/-- Ledger effects of a posted completion (R160, R464 to R466): COMPLETED, DONE_BLOCKS and PHASE. -/
def Cmd.posted (c : Cmd) (o : Outc) (now : Nat) : Cmd :=
  let c := { c with completed := true, doneBlks := o.blocks, held := o.status != 0 }
  let c := if o.status ≠ 0 then { c with fault := if c.fault = 0 then (if o.status = 1 then o.cause else o.status) else c.fault }
    else c
  if isWriteOp (sqOp c.sqe) ∧ c.nBuf ≠ 0 then
    if c.toDestage ≠ [] ∨ c.waitSeqs ≠ [] then c.toPhase 3 now else c
  else c.toPhase 5 now

/-- A command with its completion posted or discarded leaves the ledger, or stays for LEDGER_RELEASE or until its
data is destaged (R160). -/
def State.retire (s : State) (k : Nat) : State :=
  match s.cmd k with
  | none => s
  | some c =>
    if 65536 ≤ k then s.dropCmd k
    else if isWriteOp (sqOp c.sqe) ∧ c.nBuf ≠ 0 ∧ c.phase < 5 then
      if c.held then s.bump F.QQP_TAGS_HELD 1 c.fn else s
    else if c.held then s.bump F.QQP_TAGS_HELD 1 c.fn
    else s.dropCmd k

/-- Whole completion of a command with a given outcome: fused partner noted, lines acknowledged, tag kept or freed. An
unknown opcode is posted as an admin command is, with TAG_VALID 0 (log entry 180). -/
def State.complete (s : State) (k : Nat) (c : Cmd) (o : Outc) : State :=
  let missed := c.missed || s.late c
  let tag := if k < 65536 ∧ isIoOp (sqOp c.sqe) ∧ ¬ isLedgerOp (sqOp c.sqe) then some k else none
  let s := if c.discard then s
    else s.postCqe c.fn c.sqid (fun ph hd =>
      cqEntry (sqCid c.sqe) c.sqid o.status hd ph o.blocks tag o.cause o.field o.result missed)
  let s := if isWriteOp (sqOp c.sqe) ∧ c.ack = 1 ∧ c.nBuf ≠ 0 ∧ o.status ≤ 1 then s.bump F.LVE_SOLO_ACKS else s
  let s := s.setCmd k { c.posted o s.us with held := (o.status != 0) && !c.discard, missed := missed }
  let s := if isWriteOp (sqOp c.sqe) then
      if sqOp c.sqe = 0x08 ∧ o.status ≠ 0 then s.dropLines k
      else match c.fused with
        | some p => (s.ackLines k).ackLines p
        | none => s.ackLines k
    else s
  let s := match c.fused with
    | some p => s.updCmd p (fun x => { x with fusedSt := some o.status })
    | none => s
  let s := match c.delQ with
    | some q => if o.status = 0 then { s with qqp.qps := Map.erase s.qqp.qps (qpKey c.fn q) } else s
    | none => s
  (s.retire k).settleAll

/-- An outcome with the status of the pair. -/
def Outc.paired (o : Outc) (st : Nat) : Outc := if st = o.status then o else { o with status := st, field := 0xFF, blocks := 0 }

/-- The outcome with the rule of fused pairs (R146): the first command first, both with one status, or each with its own
where one of them is invalid. -/
def State.pairOutcome (s : State) (k : Nat) (c : Cmd) : Option Outc :=
  match s.outcome k c with
  | none => none
  | some o =>
    match c.fusedSt with
    | some st => some (if c.pairOwn then o else o.paired st)
    | none =>
      match c.fused.bind s.cmd, c.fused with
      | some d, some p =>
        if ¬ c.fusedFirst then none
        else if c.pairOwn then some o
        else (s.outcome p d).map (fun o' => o.paired (if o.status ≠ 0 then o.status else o'.status))
      | _, _ => some o

/-! ### Checks of an I/O command at execution (R128 to R133, R170) -/

/-- Why an I/O command cannot run. -/
inductive IoStop where
  /-- Completes with a status and FIELD. -/
  | fail (status field : Nat)
  /-- Completes with STATE_CONFLICT and its event. -/
  | conflict
  /-- Waits for a FROZEN tract. -/
  | frozen
  deriving DecidableEq, Repr

/-- A KID is accepted for a tract: bound to it and loaded, or 0 where plaintext is allowed (R129). -/
def State.kidOk (s : State) (tr : Tract) (kid : Nat) : Bool :=
  kid == tr.kid && (if kid = 0 then s.polPlain else s.on F.CRY_KEY_STAT_LOADED kid)

/-- Length limit of an opcode in bytes; none for limits in blocks or no limit (Table QQP-5, R135). -/
def lenLimit (op : Nat) (atomic : Bool) : Option Nat :=
  match op with
  | 0x01 => some 2097152
  | 0x02 => if atomic then some 262144 else some 2097152
  | 0x06 => some 67108864
  | 0x07 => if atomic then some 262144 else some 67108864
  | 0x08 => some 262144
  | _ => none

/-- Checks a range of a tract for an opcode. The order is the model's (log entry 9). -/
def State.rangeCheck (s : State) (t kid lba len op : Nat) (wr atomic : Bool) : Option IoStop :=
  let tr := s.tract t
  match tr.st with
  | .absent => some (.fail 0x03 4)
  | .formatting => some (.fail 0x05 0xFF)
  | .deleting => some (.fail 0x05 0xFF)
  | .frozen => some .frozen
  | st =>
    if !s.kidOk tr kid then some (.fail 0x09 0xFF)
    else if wr ∧ st = .readOnly then some .conflict
    else if tr.cap < lba + len then some (.fail 0x06 0xFF)
    else match lenLimit op atomic with
      | some m => if m < len * tr.blkBytes then some (.fail 0x03 16) else none
      | none => none

/-- Completes a command that cannot run by the reason given. -/
def State.ioStop (s : State) (k : Nat) (c : Cmd) (r : IoStop) : State :=
  match r with
  | .fail st fi => s.failCmd k st 2 0 fi
  | .conflict => (s.conflict 19 c.fn (sqOp c.sqe) (some k)).failCmd k 0x04 2 0
  | .frozen => s.updCmd k (fun c => { c with frozen := true })

end Sys2Proof.Machine
end

