-- ==== Sys2Proof/Machine/MediaOps.lean ====
section
/-! DEFINITION. The media engine's operations: geometry, LUN queues, stripes, block table, felling, garbage
collection and the refuge reserve (R293 to R387). -/

namespace Sys2Proof.Machine
open Sys2Proof

/-! ### Geometry (R35 to R37, R298, R299, R351) -/

/-- A field of the reliability header of a die with its default (Table REL-3). -/
def State.relHdr (s : State) (die off n dflt : Nat) : Nat :=
  let v := bytesAt (s.med.ring.getD die 0) off n
  if v = 0 then dflt else v
/-- MIN_MEMBERS. -/
def State.minMembers (s : State) (die : Nat) : Nat := s.relHdr die 0x02 1 8
/-- REFUGE_EXTRA, MiB. -/
def State.refugeExtra (s : State) : Nat := s.relHdr 0 0x10 2 256

/-- `n` bytes at offset `off` of the ring table of a channel (Table REL-4). -/
def State.ringT (s : State) (ch off n : Nat) : Nat :=
  bytesAt (s.med.ring.getD (dieOf ch) 0) (64 + 2560 * s.chTset ch + off) n
/-- STEPS. -/
def State.ringSteps (s : State) (ch : Nat) : Nat := s.ringT ch 0x002 1
/-- SLC_OP is 0: no SLC mode. -/
def State.noSlc (s : State) (ch : Nat) : Bool := s.ringT ch 0x007 1 == 0
/-- CODE_RATE: rate of the LDPC code. -/
def State.codeRate (s : State) (ch : Nat) : Nat := s.ringT ch 0x001 1
/-- Parity bytes of a codeword (Table REL-1). -/
def State.parityLen (s : State) (ch : Nat) : Nat := 384 + 64 * s.codeRate ch
/-- Stored length of a codeword: data, metadata and parity (R338). -/
def State.storedLen (s : State) (ch : Nat) : Nat := 4096 + 32 + s.parityLen ch
/-- Bits per cell, log2 (LEVELS + 1). -/
def State.cellBits (s : State) (ch : Nat) : Nat := max 1 (Nat.log2 (s.ringT ch 0x000 1 + 1))

/-! ### LUNs -/

/-- LUN index u within its channel: 4 × volume + LUN. -/
def uOf (a : Nat) : Nat := 4 * maVol a + maLun a

/-- Second register index of a LUN. -/
def lunJ (ch u : Nat) : Nat := 64 * (ch % 128) + u

/-- A LUN beyond its register. -/
def State.lun (s : State) (ch u : Nat) : Lun := Map.get {} s.med.luns (64 * ch + u)

/-- Changes a LUN beyond its register. -/
def State.updLun (s : State) (ch u : Nat) (f : Lun → Lun) : State :=
  { s with med.luns := Map.upd {} s.med.luns (64 * ch + u) f }

/-- MED_LUN_STAT.STATE: 0 UNKNOWN, 1 RESETTING, 2 IDLE, 3 BUSY_READ, 4 BUSY_PROG, 5 BUSY_ERASE, 6 SUSPENDING,
7 SUSPENDED_PROG, 8 SUSPENDED_ERASE, 9 CACHE, 10 BUSY_RAW, 15 FELLED. -/
def State.lunSt (s : State) (ch u : Nat) : Nat := s.rd F.MED_LUN_STAT_STATE (dieOf ch) (lunJ ch u)

/-- Sets it. -/
def State.putLunSt (s : State) (ch u st : Nat) : State := s.put F.MED_LUN_STAT_STATE st (dieOf ch) (lunJ ch u)

/-- A channel has been felled (R309, R378). -/
def State.chFelled (s : State) (ch : Nat) : Bool := s.rd F.MED_CH_STAT_STATE (dieOf ch) (ch % 128) == 4

/-- A channel beyond its registers. -/
def State.chan (s : State) (ch : Nat) : Chan := Map.get {} s.med.chans ch

/-- Changes a channel beyond its registers. -/
def State.updChan (s : State) (ch : Nat) (f : Chan → Chan) : State := { s with med.chans := Map.upd {} s.med.chans ch f }

/-- A group beyond its registers. -/
def State.grp (s : State) (g : Nat) : Grp := Map.get {} s.med.grps g

/-- Changes a group beyond its registers. -/
def State.updGrp (s : State) (g : Nat) (f : Grp → Grp) : State := { s with med.grps := Map.upd {} s.med.grps g f }

/-- MED_GRP_STAT.STATE: 0 UNOWNED, 1 PARTNER, 2 WAIT_QUIET, 3 ARBITRATING, 4 BRINGUP, 5 OWNED, 6 DRAINING,
7 FORCE_WAIT, 8 LOST. -/
def State.gst (s : State) (g : Nat) : Nat := s.rd F.MED_GRP_STAT_STATE (g / 8) (g % 8)

/-- This part owns a group. -/
def State.owned (s : State) (g : Nat) : Bool := s.gst g == 5

/-- A home group of this part. -/
def State.isHome (s : State) (g : Nat) : Bool := s.on F.MED_GRP_STAT_HOME (g / 8) (g % 8)

/-- LUN `u` of a channel is populated: the image names it, and no bring-up has recorded it as missing (R36, R302). -/
def State.populated (s : State) (ch u : Nat) : Bool :=
  s.chLoads ch != 0 && bit (s.chVols ch) (u / 4) && decide (u % 4 < s.tsLuns ch) && !(s.lun ch u).absent

/-- A media address is valid (R36): channel in use, LUN populated, every field within the geometry. -/
def State.maValid (s : State) (a : Nat) : Bool :=
  let ch := maCh a
  a < 2 ^ 48 && s.chLoads ch != 0 && s.populated ch (uOf a)
    && decide (maPlane a < s.tsPlanes ch) && decide (maBlock a < s.tsBlocks ch) && decide (maPage a < s.tsPages ch)
    && decide (maSector a < s.tsSectors ch)

/-! ### Block table (R361) -/

/-- Block table entry of an erase block. -/
def State.bte (s : State) (a : Nat) : Bte := Map.get {} s.med.blocks (a / 2 ^ 16)

/-- Changes a block table entry. -/
def State.updBte (s : State) (a : Nat) (f : Bte → Bte) : State :=
  { s with med.blocks := Map.upd {} s.med.blocks (a / 2 ^ 16) f }

/-! ### Stripes (R371 to R374) -/

/-- Key of a stripe. -/
def stripeKey (g vol lun plane block : Nat) : Nat := 65536 * (((g * 16 + vol) * 4 + lun) * 4 + plane) + block

/-- The stripe of a key. -/
def State.stripe (s : State) (k : Nat) : Stripe := Map.get {} s.med.stripes k

/-- Changes a stripe. -/
def State.updStripe (s : State) (k : Nat) (f : Stripe → Stripe) : State :=
  { s with med.stripes := Map.upd {} s.med.stripes k f }

/-- The pair of groups of `g` is marked in WIDE, and both are home groups of this part (R372). -/
def State.wide (s : State) (g : Nat) : Bool :=
  let e := g / 2 * 2
  bit (bytesAt (s.med.ring.getD (g / 8) 0) 0 2) (8 * (g / 8) + g % 8 / 2) && s.isHome e && s.isHome (e + 1)

/-- The group that names the stripes of `g`: the even one of a wide pair. -/
def State.stripeHome (s : State) (g : Nat) : Nat := if s.wide g then g / 2 * 2 else g

/-- Channels of the stripes named by group `g`. -/
def State.stripeChs (s : State) (g : Nat) : List Nat :=
  (List.range (if s.wide g then 32 else 16)).map (· + 16 * g)

/-- The part may write stripes named by `g`: it owns the group, or both of a wide pair (R372). -/
def State.stripeOwned (s : State) (g : Nat) : Bool :=
  s.owned g && (!s.wide g || s.owned (g / 2 * 2 + 1))

/-- A candidate member that is not skipped: populated, neither felled, factory-bad, lent nor reserved (R371, R879). -/
def State.memberOk (s : State) (a : Nat) : Bool :=
  let ch := maCh a
  s.maValid a && s.lunSt ch (uOf a) != 15 && !s.chFelled ch && decide ((s.bte a).st < 4)

/-- Good members of a stripe in channel order. -/
def State.goodMembers (s : State) (k : Nat) : List Nat :=
  ((s.stripeChs (k / 2 ^ 24)).map (fun ch =>
    mkMaddr ch (k / 2 ^ 20 % 16) (k / 2 ^ 18 % 4) (k / 2 ^ 16 % 4) (k % 65536) 0 0)).filter s.memberOk

/-- Position `i` of `n` members holds parity, in a stripe of block `b` (R373). -/
def isParity (b n i : Nat) : Bool := i == b % n || i == (b + 1) % n

/-- Data members of a stripe's members. -/
def dataMembers (k : Nat) (ms : List Nat) : List Nat :=
  (ms.zipIdx.filter (fun x => !isParity (k % 65536) ms.length x.2)).map Prod.fst

/-- Parity members. -/
def parityMembers (k : Nat) (ms : List Nat) : List Nat :=
  (ms.zipIdx.filter (fun x => isParity (k % 65536) ms.length x.2)).map Prod.fst

/-- Every stripe identifier of group `g` within the geometry of its first channel in use. -/
def State.stripeIds (s : State) (g : Nat) : List Nat :=
  match (s.stripeChs g).find? (fun ch => s.chLoads ch != 0) with
  | none => []
  | some ch =>
    ((List.range 16).filter (bit (s.chVols ch))).flatMap (fun v =>
      (List.range (s.tsLuns ch)).flatMap (fun l => (List.range (s.tsPlanes ch)).flatMap (fun p =>
        (List.range (s.tsBlocks ch)).map (fun b => stripeKey g v l p b))))

/-- Free stripes of group `g` that may be opened (R371). -/
def State.freeStripes (s : State) (g : Nat) : List Nat :=
  if s.stripeHome g ≠ g then []
  else (s.stripeIds g).filter (fun k =>
    decide ((s.stripe k).st = .free) && decide (s.minMembers (g / 8) ≤ (s.goodMembers k).length))

/-- The free stripe with the lowest erase count, the lowest identifier among equals (R369, log entry 11). -/
def State.lowestFree (s : State) (g : Nat) : Option Nat :=
  (s.freeStripes g).foldl (fun o k => match o with
    | none => some k
    | some b => if (s.stripe k).erases < (s.stripe b).erases then some k else some b) none

/-- Sum of VALID over a stripe's members. -/
def State.stripeValid (s : State) (k : Nat) : Nat := ((s.stripe k).members.map (fun a => (s.bte a).valid)).sum

/-- Stripe of a media address: the listed stripe whose members contain its erase block. -/
def State.stripeOf (s : State) (a : Nat) : Option Nat :=
  Map.find? (fun _ x => x.members.contains (maErase a)) s.med.stripes

/-! ### LUN queues (R311 to R313) -/

/-- An operation enters the queue of its LUN. -/
def State.enqueue (s : State) (o : Op) : State :=
  let n := s.med.nextOp
  let id := if o.id = 0 then n else o.id
  { s with med.nextOp := n + 1 }.updLun (maCh o.addr) (uOf o.addr) (fun l =>
    { l with queue := l.queue ++ [{ o with id := id, arr := if o.arr = 0 then n else o.arr }] })

/-- Every operation of a LUN: queued, running, suspended. -/
def Lun.ops (l : Lun) : List Op := l.queue ++ l.cur ++ l.susp

/-- Operations anywhere in the media engine. -/
def State.allOps (s : State) : List Op :=
  s.med.luns.flatMap (fun e => e.2.ops) ++ s.med.reads.map (fun r => r.op) ++ s.med.retry

/-- A read of sector `a` for `w` is under way. -/
def State.reading (s : State) (w : Who) (a : Nat) : Bool :=
  s.allOps.any (fun o => decide (o.kind = .read) && decide (o.who = w) && !o.cancelled && o.undercut.isNone
    && o.addr == a / 16 * 16 && o.secs.contains (a % 16))

/-- Asks for the sectors `l` of one IU that are not under way: one read for each page. A felled LUN or channel is not
sensed: the sectors go straight to the stripe rebuild (R346). -/
def State.askSectors (s : State) (w : Who) (prio tract iu : Nat) (l : List Nat) : State :=
  let l := l.filter (fun a => !s.reading w a)
  (l.map (fun a => a / 16 * 16)).eraseDups.foldl (fun s p =>
    let o : Op := { addr := p, secs := (l.filter (fun a => a / 16 * 16 = p)).map (· % 16), prio := prio, who := w
                    tract := tract, iu := iu }
    if s.lunSt (maCh p) (uOf p) = 15 ∨ s.chFelled (maCh p) then
      let n := s.med.nextOp
      { s with med.nextOp := n + 1, med.reads := s.med.reads ++ [{ op := { o with id := n }, stage := 2 }] }
    else s.enqueue o) s

/-- Undercut steps are cancelled (R359, Table REL-5): queued ones leave the queue, a sense in the LUN runs to its end
without use, sensed and held data is dropped. -/
def State.cancelUndercuts (s : State) (p : Op → Bool) : State :=
  let hit (o : Op) : Bool := o.undercut.isSome && !o.cancelled && p o
  let hits := s.allOps.filter hit
  let drops (r : Rd) : Bool := hit r.op && (r.stage == 0 || r.stage == 3)
  let gone := s.med.reads.filter drops
  let mark (o : Op) : Op := if hit o then { o with cancelled := true } else o
  let s := { s with
    med.luns := Map.mapAll {} (fun _ l =>
      { l with queue := l.queue.filter (fun o => !hit o), cur := l.cur.map mark }) s.med.luns
    med.reads := (s.med.reads.filter (fun r => !drops r)) }
  [0, 1].foldl (fun s d =>
    let n := (hits.filter (fun o => dieOf (maCh o.addr) == d)).length
    let ns := ((gone.filter (fun r => dieOf (maCh r.op.addr) == d)).map (fun r => r.op.ran / 100)).sum
    (s.bump F.MED_UC_CANCELLED n d).bump F.MED_UC_DIE ns d) s

/-! ### Tasks of the media engine (R259) -/

/-- A task of the media engine about a stripe: RELOCATE 0x11, REFRESH 0x12, PARITY 0x13, REBUILD 0x14. -/
def State.mediaTask (s : State) (kind k work : Nat) (prio : Option Nat := none) : State :=
  let die := k / 2 ^ 27 % 2
  let pool := (if kind = 0x13 ∨ kind = 0x14 then 3 else 1) + die
  s.addTask { kind := kind, internal := true, prio := prio.getD (s.iprio kind), pool := pool
              epoch := s.rd F.GLB_EPOCH_NEXT, payload := work }

/-- Creates the one REFRESH task of a stripe (R366). -/
def State.refresh (s : State) (k : Nat) : State :=
  let x := s.stripe k
  if x.tasked ∨ ¬ (x.st = .closed ∨ x.st = .degraded) then s
  else ((s.updStripe k (fun x => { x with tasked := true })).mediaTask 0x12 k k).bump F.MED_REFRESHES 1 (k / 2 ^ 27 % 2)

/-- Every DEGRADED stripe gets a REBUILD task, and a REFRESH trigger of Table REL-7 is served by it (R366, R381). -/
def State.rebuildTask (s : State) (k : Nat) : State :=
  let x := s.stripe k
  if x.tasked then s else (s.updStripe k (fun x => { x with tasked := true })).mediaTask 0x14 k k

/-- MED_DEGRADED: degraded stripes of a die. -/
def State.countDegraded (s : State) : State :=
  [0, 1].foldl (fun s d =>
    s.put F.MED_DEGRADED (Map.count (fun k x => decide (x.st = .degraded) && k / 2 ^ 27 % 2 == d) s.med.stripes) d) s

/-! ### Garbage collection and erase (R368, R369) -/

/-- Compares a group's free stripes with GC_LOW, GC_HIGH and GC_URGENT, and creates the next RELOCATE task. Only
closed host and relocation stripes are collected: they alone hold IUs (log entry 12). -/
def State.gcCheck (s : State) (g0 : Nat) : State :=
  let g := s.stripeHome g0
  let die := g / 8
  let n := (s.freeStripes g).length
  let on := if n < s.rd F.MED_GC_CFG_GC_LOW die then true else if s.rd F.MED_GC_CFG_GC_HIGH die ≤ n then false else (s.grp g).gc
  let s := s.updGrp g (fun x => { x with gc := on, urgent := decide (n < s.rd F.MED_GC_CFG_GC_URGENT die) })
  let busy := (s.tasksWhere (fun t => t.kind == 0x11 && t.payload / 2 ^ 24 == g)).length
  if !on ∨ busy ≠ 0 ∨ ¬ s.stripeOwned g then s
  else
    let c := s.med.stripes.filter (fun e => decide (e.2.st = .closed) && e.1 / 2 ^ 24 == g && !e.2.tasked && decide (e.2.cls < 2))
    match c.foldl (fun o e => match o with
      | none => some e.1
      | some b => if s.stripeValid e.1 < s.stripeValid b then some e.1 else some b) none with
    | some k => (s.updStripe k (fun x => { x with tasked := true })).mediaTask 0x11 k k
    | none => s

/-- A stripe whose members hold no valid sector joins the erase queue (R367). -/
def State.eraseCheck (s : State) (k : Nat) : State :=
  let x := s.stripe k
  if (x.st = .closed ∨ x.st = .degraded) ∧ x.rows = [] ∧ s.stripeValid k = 0 then
    let ms := x.members.filter (fun a => s.memberOk a)
    let s := s.updStripe k (fun x => { x with st := .erasing, erasesLeft := ms.length, tasked := false })
    let s := ms.foldl (fun s a =>
      s.enqueue { kind := .erase, addr := a, prio := s.iprio 0x11, who := .erase k }) s
    s.countDegraded
  else s

/-- Sectors of an IU at `a` become stale or valid: VALID of its erase block follows (R220). -/
def State.lowerValid (s : State) (a n : Nat) : State :=
  let s := s.updBte a (fun b => { b with valid := b.valid - n })
  match s.stripeOf a with
  | some k => s.eraseCheck k
  | none => s

/-- Sectors of an IU placed at `a` become valid. -/
def State.raiseValid (s : State) (a n : Nat) : State := s.updBte a (fun b => { b with valid := b.valid + n })

/-! ### Refuge reserve (R383, R384) -/

/-- SLC capacity of a reserved stripe's data members, KiB: members felled since do not count. -/
def State.slcKiB (s : State) (k : Nat) : Nat :=
  let ms := (s.stripe k).members.filter (fun a => decide ((s.bte a).st < 6))
  match ms with
  | [] => 0
  | a :: _ =>
    let ch := maCh a
    let blk := s.tsSectors ch * s.tsPages ch * 4
    (ms.length - 2) * (if s.noSlc ch then blk else blk / s.cellBits ch)

/-- SLC capacity of the reserve in a group, KiB. -/
def State.grpReserve (s : State) (g : Nat) : Nat :=
  ((s.med.stripes.filter (fun e => decide (e.2.st = .reserved) && e.1 / 2 ^ 24 == g)).map (fun e => s.slcKiB e.1)).sum

/-- Takes free stripes of group `g` into the reserve until its share is reached. -/
def State.reserveGrp (s : State) (g share : Nat) : Nat → State
  | 0 => s
  | n + 1 =>
    if share ≤ s.grpReserve g then s
    else match s.lowestFree g with
      | some k =>
        let ms := s.goodMembers k
        let s := ms.foldl (fun s a => s.updBte a (fun b => { b with st := 5 })) s
        State.reserveGrp (s.updStripe k (fun x => { x with st := .reserved, members := ms })) g share n
      | none => s

/-- Home groups of this part that name stripes: the reserve is spread over them. -/
def State.reserveGroups (s : State) : List Nat :=
  (List.range 16).filter (fun g => s.isHome g && s.stripeHome g == g && (s.stripeChs g).any (fun ch => s.chLoads ch != 0))

/-- Brings the reserve to DIRTY_LIMIT + REFUGE_EXTRA, spread evenly over the home groups, as far as they are owned, and reports
it. -/
def State.refillReserve (s : State) : State :=
  let gs := s.reserveGroups
  let need := s.dirtyLimit + s.refugeExtra
  let share := (1024 * need + gs.length - 1) / max 1 gs.length
  let s := (gs.filter s.stripeOwned).foldl (fun s g => s.reserveGrp g share (s.freeStripes g).length) s
  let have_ := (((List.range 16).map s.grpReserve).sum) / 1024
  let ok := decide (need ≤ have_)
  let s := [0, 1].foldl (fun s d => (s.put F.MED_REFUGE_MIB have_ d).flag F.MED_REL_STAT_REFUGE_READY ok d) s
  if ok then { s with med.shortPosted := false }
  else if s.med.shortPosted ∨ gs = [] then s
  else { s with med.shortPosted := true }.post (E.MED_REFUGE_SHORT (gs.headD 0 / 8)) have_

/-- Wear figures of a die. -/
def State.wearStats (s : State) (g : Nat) : State :=
  let l := (s.med.stripes.filter (fun e => e.1 / 2 ^ 27 % 2 == g / 8)).map (fun e => e.2.erases)
  (s.put F.MED_WEAR_MAX (l.foldl max 0) (g / 8)).put F.MED_WEAR_MIN (l.foldl min (l.headD 0)) (g / 8)

/-- An erase of a member has ended; when the last has, the stripe is free with its new count (R369). -/
def State.memberErased (s : State) (k a : Nat) (ok : Bool) : State :=
  let s := if ok then
      (s.updBte a (fun b => if b.st < 6 then {} else b)).journal { ty := 0x08, arg1 := a }
    else s
  let s := s.updStripe k (fun x => { x with erasesLeft := x.erasesLeft - 1 })
  if (s.stripe k).erasesLeft = 0 then
    let top := (s.med.stripes.filter (fun e => e.1 / 2 ^ 24 == k / 2 ^ 24)).foldl (fun m e => max m e.2.erases) 0
    let s := s.updStripe k (fun x => { st := .free, erases := (x.seen.getD (max top x.erases)) + 1 })
    ((s.wearStats (k / 2 ^ 24)).refillReserve).gcCheck (k / 2 ^ 24)
  else s

/-! ### Opening, filling and closing stripes (R214, R379, R883) -/

/-- Opens the next free stripe of a group for a class; its members are journalled BLOCK_OPEN. -/
def State.openStripe (s : State) (g cls slot : Nat) (slc : Bool) : State :=
  match s.lowestFree g with
  | some k =>
    let ms := s.goodMembers k
    let s := ms.foldl (fun s a =>
      (s.updBte a (fun b => { b with st := 1 })).journal { ty := 0x06, arg0 := cls, arg1 := a }) s
    let s := s.updStripe k (fun x =>
      { st := .opened, cls := cls, members := ms, pos := (dataMembers k ms).map (fun _ => 0), erases := x.erases
        slc := slc })
    { s with med.opened := Map.set none s.med.opened slot (some k) }.gcCheck g
  | none => s

/-- Closes a stripe (BLOCK_CLOSED); a degraded one gets its REBUILD task (R362, R379, R381). -/
def State.closeStripe (s : State) (k : Nat) (degraded : Bool) : State :=
  let x := s.stripe k
  let s := x.members.foldl (fun s a =>
    (s.updBte a (fun b => if b.st < 6 then { b with st := if degraded then 3 else 2, age := 0 } else b)).journal
      { ty := 0x07, arg0 := x.cls, arg1 := a }) s
  let s := s.updStripe k (fun x => { x with st := if degraded then .degraded else .closed })
  let s := { s with med.opened := Map.keep (fun _ o => o != some k) s.med.opened }
  if degraded then (s.rebuildTask k).countDegraded else s.eraseCheck k

/-- Sectors per page and pages per block of a stripe; fewer pages where it is programmed in SLC mode. -/
def State.stripeGeo (s : State) (k : Nat) : Nat × Nat :=
  let ch := maCh ((s.stripe k).members.headD 0)
  (s.tsSectors ch, if (s.stripe k).slc && !s.noSlc ch then s.tsPages ch / s.cellBits ch else s.tsPages ch)

/-- Programs of the next page row of a stripe: one for each data member (R374). -/
def State.issueRow (s : State) (k prio : Nat) : State :=
  let x := s.stripe k
  let dm := dataMembers k x.members
  let s := s.updStripe k (fun x =>
    { x with row := x.row + 1, fresh := false
             rows := x.rows ++ [(x.row, dm.length, x.members.length - dm.length)] })
  dm.foldl (fun s a =>
    s.enqueue { kind := .prog, addr := a + x.row * 16, prio := prio, who := .row k x.row false, slc := x.slc }) s

/-- Pads the present page row and programs it (R883). -/
def State.padRow (s : State) (k prio : Nat) : State :=
  let (sec, _) := s.stripeGeo k
  let s := s.updStripe k (fun x => { x with pos := x.pos.map (fun p => max p ((x.row + 1) * sec)) })
  s.issueRow k prio

/-- Programs every page row that is full. -/
def State.fullRows (s : State) (k prio : Nat) : Nat → State
  | 0 => s
  | n + 1 =>
    let x := s.stripe k
    let (sec, pages) := s.stripeGeo k
    if x.row < pages ∧ x.pos ≠ [] ∧ x.pos.all (fun p => (x.row + 1) * sec ≤ p)
    then State.fullRows (s.issueRow k prio) k prio n else s

/-- Pads and programs what is left of an open stripe and closes it to further placements. -/
def State.finishStripe (s : State) (k prio : Nat) : Nat → State
  | 0 => s
  | n + 1 =>
    let x := s.stripe k
    let (_, pages) := s.stripeGeo k
    if x.row < pages then State.finishStripe (s.padRow k prio) k prio n
    else { s with med.opened := Map.keep (fun _ o => o != some k) s.med.opened }

/-- Index of the data member with the lowest position in which `n` sectors fit (R182, log entry 11). -/
def State.fitMember (s : State) (k n : Nat) : Option Nat :=
  let (sec, pages) := s.stripeGeo k
  let x := s.stripe k
  x.pos.zipIdx.foldl (fun o e =>
    if e.1 + n ≤ sec * pages then match o with
      | none => some e.2
      | some b => if e.1 < x.pos.getD b 0 then some e.2 else some b
    else o) none

/-- Places `n` sectors in an open stripe: the state after, and the media address. -/
def State.placeIn (s : State) (k n prio : Nat) : Option (State × Nat) :=
  match s.fitMember k n with
  | none => none
  | some i =>
    let x := s.stripe k
    let (sec, pages) := s.stripeGeo k
    let p := x.pos.getD i 0
    let a := (dataMembers k x.members).getD i 0 + p / max 1 sec * 16 + p % max 1 sec
    let s := s.updStripe k (fun x =>
      { x with pos := x.pos.set i (p + n), placedAt := s.time, fresh := true })
    some ((s.raiseValid a n).fullRows k prio pages, a)

/-- Places `n` sectors in the open stripe of a slot, opening one of group `g` where it has no room; none while no free
stripe can be opened (R882). Map and journal stripes are programmed in SLC mode (R194, R225). -/
def State.placeAs (s : State) (g cls slot n prio : Nat) : Option (State × Nat) :=
  match (Map.get none s.med.opened slot).bind (fun k => s.placeIn k n prio) with
  | some r => some r
  | none =>
    let s := match Map.get none s.med.opened slot with
      | some k => s.finishStripe k prio (s.stripeGeo k).2
      | none => s
    let s := s.openStripe g cls slot (decide (2 ≤ cls))
    (Map.get none s.med.opened slot).bind (fun k => s.placeIn k n prio)

/-- Places `n` sectors for a group and class. -/
def State.place (s : State) (g cls n prio : Nat) : Option (State × Nat) := s.placeAs g cls (2 * g + cls) n prio

/-- Groups whose stripes take map and journal pages: the owned home groups, or the partner's home groups held here for its
map (R194, R240). -/
def State.mapGroups (s : State) (foreign : Bool) : List Nat :=
  (List.range 16).filter (fun g =>
    (if foreign then bit s.lve.foreign g else s.isHome g) && s.stripeOwned g && s.stripeHome g == g)

/-- Places `n` sectors in the first group of a list that has room for them. -/
def State.placeFirst (s : State) (cls n prio : Nat) (slot : Nat → Nat) : List Nat → Option (State × Nat)
  | [] => none
  | g :: gs =>
    match s.placeAs g cls (slot g) n prio with
    | some r => some r
    | none => State.placeFirst s cls n prio slot gs

/-- Places `n` sectors in the open map stripe of a media die, or of the other die where it has none (R194, R214, R885). -/
def State.placeMap (s : State) (foreign : Bool) (die n prio : Nat) : Option (State × Nat) :=
  let gs := s.mapGroups foreign
  s.placeFirst 2 n prio (fun g => (if foreign then 36 else 32) + g / 8)
    (gs.filter (fun g => g / 8 == die) ++ gs.filter (fun g => g / 8 != die))

/-- Pads the rows of the `n` sectors at `a` at once (R883). -/
def State.padFor (s : State) (a n prio : Nat) : State :=
  match s.stripeOf a with
  | none => s
  | some k =>
    let sec := max 1 (s.stripeGeo k).1
    let last := maPage a + (maSector a + n - 1) / sec
    (List.range (last + 1 - (s.stripe k).row)).foldl (fun s _ =>
      if (s.stripe k).st = .opened ∧ (s.stripe k).row ≤ last then s.padRow k prio else s) s

/-- Every page of the IU of `n` sectors at `a` is programmed with its parity (R218). -/
def State.placed (s : State) (a n : Nat) : Bool :=
  match s.stripeOf a with
  | none => false
  | some k =>
    let x := s.stripe k
    let (sec, _) := s.stripeGeo k
    let last := maPage a + (maSector a + n - 1) / max 1 sec
    decide (last < x.row) && x.rows.all (fun r => r.1 < maPage a || last < r.1)

/-- Sectors of an IU of a tract. -/
def Tract.secs (t : Tract) : Nat := max 1 (iuBytes t.iu / 4096)

/-- A page row with its parity is programmed: the lines and moves that it completes are programmed (R218). -/
def State.rowDone (s : State) (k row : Nat) : State :=
  let s := s.updStripe k (fun x => { x with rows := x.rows.filter (fun r => r.1 ≠ row) })
  let lines := Map.mapAll none (fun _ (o : Option Line) => o.map (fun l =>
    match l.place with
    | some a => if s.placed a (s.tract l.tract).secs then { l with programmed := true } else l
    | none => l)) s.tly.lines
  let s : State := { s with
    tly.lines := lines
    med.moves := s.med.moves.map (fun m => match m.place with
      | some a => if s.placed a (s.tract m.tract).secs then { m with programmed := true } else m
      | none => m) }
  let x := s.stripe k
  if x.st = .opened ∧ x.rows = [] ∧ (s.stripeGeo k).2 ≤ x.row then s.closeStripe k false else s

/-! ### Felling (R376 to R382, R449 to R452) -/

/-- Adds an entry to the felled list (R382). -/
def State.fellList (s : State) (e : Fell) : State :=
  let die := dieOf (maCh e.wher)
  let cnt (s : State) : State := [0, 1].foldl (fun s d =>
    s.put F.MED_FELL_COUNT (s.med.felled.filter (fun x => dieOf (maCh x.wher) = d)).length d) s
  if s.med.felled.length < 131072 then cnt { s with med.felled := s.med.felled ++ [e] }
  else if e.kind = 1 then s.bump F.MED_FELL_OVERFLOW 1 die
  else match s.med.felled.findIdx? (fun x => x.kind == 1) with
    | some i => cnt { s with med.felled := s.med.felled.eraseIdx i ++ [e] }
    | none => s.bump F.MED_FELL_OVERFLOW 1 die

/-- IUs of a stripe that are not wholly programmed are taken again from their buffer lines or source (R379, R882). -/
def State.replaceAll (s : State) (k : Nat) : State :=
  let inK (a : Option Nat) : Bool := match a with
    | some a => (s.stripe k).members.contains (maErase a)
    | none => false
  let again (l : Line) : Line := if inK l.place ∧ ¬ l.programmed ∧ l.jseq.isNone
    then { l with place := none, tasked := false, handed := false, merged := [], got := [] } else l
  let lost := (s.tly.lines.filterMap (fun e => e.2)).filter (fun l => inK l.place && !l.programmed && l.jseq.isNone)
  let s := lost.foldl (fun s l => match l.place with
    | some a => s.updBte a (fun b => { b with valid := b.valid - (s.tract l.tract).secs })
    | none => s) s
  let wbs := s.tly.frames.filterMap (fun e => match e.2 with
    | some f => if inK f.wbPlace ∧ ¬ s.placed (f.wbPlace.getD 0) 4 then some (e.1, f.wbPlace.getD 0) else none
    | none => none)
  let jps := s.tly.jPages.filter (fun p => inK p.place && !s.placed (p.place.getD 0) 4)
  let cks := s.tly.ckPlaces.filter (fun x => inK (some x.1) && !s.placed x.1 x.2)
  let less (s : State) (a n : Nat) : State := s.updBte a (fun b => { b with valid := b.valid - n })
  let s := wbs.foldl (fun s x => (less s x.2 4).updFrame x.1 (fun f => { f with wbPlace := none })) s
  let s := jps.foldl (fun s p => less s (p.place.getD 0) 4) s
  let s := cks.foldl (fun s x => less s x.1 x.2) s
  let s : State := { s with
    tly.jPages := s.tly.jPages.map (fun p => if jps.contains p then { p with place := none } else p)
    tly.ckDirs := (s.tly.ckDirs ++ (s.tly.root.filterMap (fun e => if cks.any (fun x => x.1 == e.2) then some e.1 else none))).eraseDups
    tly.ckPlaces := s.tly.ckPlaces.filter (fun x => !cks.contains x)
    tly.ckRooted := s.tly.ckRooted && cks.isEmpty }
  let s := (s.med.moves.filter (fun m => inK m.place && !m.programmed)).foldl (fun s m => match m.place with
    | some a => s.updBte a (fun b => { b with valid := b.valid - (s.tract m.tract).secs })
    | none => s) s
  { s with
    tly.lines := Map.mapAll none (fun _ (o : Option Line) => o.map again) s.tly.lines
    med.moves := s.med.moves.map (fun m => if inK m.place ∧ ¬ m.programmed then { m with place := none } else m) }

/-- Removes the queued programs of a stripe and closes it, DEGRADED or not (R379, R380). -/
def State.abandonStripe (s : State) (k : Nat) (degraded : Bool) : State :=
  let mine (o : Op) : Bool := match o.who with
    | .row j _ _ => j == k
    | _ => false
  let s : State := { s with med.luns := Map.mapAll {} (fun _ l => { l with queue := l.queue.filter (fun o => !mine o) }) s.med.luns }
  let s : State := (s.replaceAll k).updStripe k (fun x => { x with rows := [] })
  if (s.stripe k).st = .opened then s.closeStripe k degraded
  else if degraded ∧ (s.stripe k).st = .closed then
    ((s.updStripe k (fun x => { x with st := .degraded })).rebuildTask k).countDegraded
  else s

/-- Every listed stripe with a member that satisfies a test becomes DEGRADED (Table REL-8). -/
def State.degradeWhere (s : State) (p : Nat → Bool) : State :=
  let ks := (s.med.stripes.filter (fun e => (e.2.members.any p) && (decide (e.2.st = .opened) || decide (e.2.st = .closed)))).map Prod.fst
  ks.foldl (fun s k => s.abandonStripe k true) s

/-- Ends the operations queued at a LUN that is felled: reads go on to the stripe rebuild, programs end as failed, the
rest end with TARGET_DOWN (R310, R445). -/
def State.dropQueue (s : State) (ch u : Nat) : State :=
  let l := s.lun ch u
  let rds := (l.ops.filter (fun o => decide (o.kind = .read) && o.undercut.isNone && !o.cancelled)).map
    (fun o => ({ op := o, stage := 2 } : Rd))
  let ks := (l.ops.filterMap (fun o => match o.who with
    | .row k _ _ => some k
    | _ => none)).eraseDups
  let es := l.ops.filterMap (fun o => match o.who with
    | .erase k => some (k, o.addr)
    | _ => none)
  let raws := l.ops.filter (fun o => decide (o.kind = .raw))
  let s := { s with med.reads := s.med.reads ++ rds, med.retry := s.med.retry ++ raws }.updLun ch u (fun l =>
    { l with queue := [], cur := [], susp := [] })
  let s := ks.foldl (fun s k => s.abandonStripe k true) s
  es.foldl (fun s e => s.memberErased e.1 e.2 false) s

/-- Fells a LUN (R378). -/
def State.fellLun (s : State) (ch u cause : Nat) : State :=
  if s.lunSt ch u = 15 then s
  else
    let a := mkMaddr ch (u / 4) (u % 4) 0 0 0 0
    let s := (s.putLunSt ch u 15).fellList { kind := 2, cause := cause, wher := a, hours := s.rd F.MED_HOURS (dieOf ch) }
    let s := s.post (E.MED_LUN_FELLED (dieOf ch)) ch a
    ((s.dropQueue ch u).degradeWhere (fun m => maCh m == ch && uOf m == u)).refillReserve

/-- An anchor or defect-log block is felled (R377): its mark positions are programmed, the next erased block takes its role, and a
fresh anchor record or defect table is written there. -/
def State.roleMoves (s : State) (a : Nat) : State :=
  let g := grpOf (maCh a)
  let l := (s.grp g).anchors
  match l.findIdx? (· == a) with
  | none => s
  | some i =>
    let s := s.enqueue { kind := .prog, addr := a, prio := s.iprio 0x10, who := .mark }
    let lo := l.foldl (fun n x => max n (maBlock x)) 0 + 1
    let at_ (b : Nat) : Nat := mkMaddr (maCh a) 0 0 0 b 0 0
    match ((List.range (s.tsBlocks (maCh a))).drop lo).find? (fun b => (s.bte (at_ b)).st == 0) with
    | none => s.updGrp g (fun x => { x with anchors := l.erase a })
    | some b =>
      let s := (s.updGrp g (fun x => { x with anchors := l.set i (at_ b) })).updBte (at_ b) (fun t => { t with st := 5 })
      match s.tly.anchor with
      | some r => s.enqueue { kind := .prog, addr := at_ b, prio := s.iprio 0x10, who := if i < 2 then .anchor r.num else .mark, slc := true }
      | none => if i < 2 then s else s.enqueue { kind := .prog, addr := at_ b, prio := s.iprio 0x10, who := .mark, slc := true }

/-- Fells a block (R378): a count of LUN_FELLS fellings within LUN_HOURS fells its LUN (R451). -/
def State.fellBlock (s : State) (a cause : Nat) : State :=
  let a := maErase a
  let ch := maCh a
  let u := uOf a
  let h := s.rd F.MED_HOURS (dieOf ch)
  let s := s.roleMoves a
  let s := (s.updBte a (fun b => { b with st := 6 })).fellList { kind := 1, cause := cause, wher := a, hours := h }
  let s := s.post (E.MED_BLOCK_FELLED (dieOf ch)) ch a
  let t := (h :: Map.get [] s.med.fellTimes (64 * ch + u)).take s.lunFells
  let s := { s with med.fellTimes := Map.set [] s.med.fellTimes (64 * ch + u) t }
  if t.length = s.lunFells ∧ h - t.getLastD h ≤ s.lunHours then s.fellLun ch u 3 else s

/-- Fells a channel (R309, R378). -/
def State.fellChannel (s : State) (ch : Nat) : State :=
  let a := mkMaddr ch 0 0 0 0 0 0
  let s := (s.put F.MED_CH_STAT_STATE 4 (dieOf ch) (ch % 128)).put F.MED_CH_STAT_DRV_EN 0 (dieOf ch) (ch % 128)
  let s := s.fellList { kind := 3, cause := 5, wher := a, hours := s.rd F.MED_HOURS (dieOf ch) }
  let s := s.post (E.MED_CHANNEL_FELLED (dieOf ch)) ch
  let s := (List.range 64).foldl (fun s u => s.dropQueue ch u) s
  (s.degradeWhere (fun m => grpOf (maCh m) == grpOf ch)).refillReserve

/-- A program of a member failed (R379): the block is felled and the stripe closes DEGRADED. -/
def State.programFailed (s : State) (k a : Nat) : State := (s.fellBlock a 1).abandonStripe k true

/-! ### Relocation (R366 to R368, R381) -/

/-- The task that works on a stripe. -/
def State.stripeTask (s : State) (k : Nat) : Option (Nat × Task) :=
  (s.tasksWhere (fun t => (t.kind == 0x11 || t.kind == 0x12 || t.kind == 0x14) && t.payload == k)).head?

/-- The relocation of a stripe has read every page and moved every IU: its task ends. -/
def State.relocEnd (s : State) (k : Nat) : State :=
  match s.stripeTask k with
  | some (t, x) =>
    let s := (s.updStripe k (fun x => { x with tasked := false, cursor := 0 })).endTask t
    let s := if x.kind = 0x11 then s.bump F.MED_GC_STRIPES 1 (k / 2 ^ 27 % 2) else s
    (s.eraseCheck k).gcCheck (k / 2 ^ 24)
  | none => s

/-- Next page of a stripe that a relocation reads, from its cursor on: member and page. -/
def State.relocNext (s : State) (k : Nat) : Option (Nat × Nat × Nat) :=
  let x := s.stripe k
  let (_, pages) := s.stripeGeo k
  let dm := dataMembers k x.members
  let ok (c : Nat) : Bool :=
    decide (c % pages < x.row) && decide ((s.bte (dm.getD (c / pages) 0)).valid ≠ 0)
  match ((List.range (dm.length * pages)).drop x.cursor).find? ok with
  | some c => some (c, dm.getD (c / pages) 0, c % pages)
  | none => none

/-- Engine state of a relocation's context record: pages copied, source stripe, target block (log entry 195). -/
def State.relocHard (s : State) (k : Nat) : Nat :=
  let to_ := (s.med.moves.filterMap (fun m => if m.src = k then m.place else none)).headD 0
  (s.stripe k).cursor % 2 ^ 32 + 2 ^ 32 * (k % 2 ^ 32) + 2 ^ 64 * (maErase to_ % 2 ^ 64)

/-- Pages that a relocator asks for together, from page `pg` of a member on: those of one sequential cache read (R319). -/
def State.relocRun (s : State) (k pg : Nat) : Nat :=
  let d := k / 2 ^ 27 % 2
  if s.on F.MED_CTL_CACHE_EN d then min (max 1 (s.rd F.MED_CACHE_MAX d)) ((s.stripe k).row - pg) else 1

/-- A relocator reads its stripe's next page, or the next run of consecutive pages; with none and no move left its task `x` ends. -/
def State.relocPage (s : State) (k : Nat) (x : Task) : State :=
  match s.relocNext k with
  | some (c, a, pg) =>
    let n := s.relocRun k pg
    let s := s.updStripe k (fun x => { x with cursor := c + n })
    (List.range n).foldl (fun s j =>
      s.askSectors (.reloc k) (s.tprio x) 0 0 ((List.range (s.stripeGeo k).1).map (fun i => a + (pg + j) * 16 + i))) s
  | none => if s.med.moves.any (fun m => m.src == k) then s else s.relocEnd k

/-- A relocator takes the next page (R276, R367): a pre-emption parks the task here; with no page and no move left the
task ends. -/
def State.relocStep (s : State) (k : Nat) : State :=
  match s.stripeTask k with
  | none => s
  | some (t, x) =>
    let runs : Bool := match x.st with
      | .running _ _ => true
      | _ => false
    if !runs || s.allOps.any (fun o => decide (o.who = .reloc k) && !o.cancelled) then s
    else if Map.get none s.dck.preempting x.pool = some t then
      match s.saveCtx t { task := t, park := (s.stripe k).cursor, reason := 2, hard := s.relocHard k } with
      | some s =>
        let s := { s with dck.preempting := Map.erase s.dck.preempting x.pool }.bump F.DCK_PREEMPTS 1 x.pool
        ((s.leaveEngine t).updTask t (fun x => { x with preempts := x.preempts + 1 })).toReady t
      | none => s.relocPage k x
    else s.relocPage k x

/-! ### Capacity (R879) -/

/-- Native capacity of a stripe's data members, bytes. -/
def State.stripeBytes (s : State) (k : Nat) : Nat :=
  let ms := s.goodMembers k
  match ms with
  | [] => 0
  | a :: _ =>
    if ms.length < s.minMembers (k / 2 ^ 27 % 2) then 0
    else (ms.length - 2) * (4096 * (s.tsSectors (maCh a) * s.tsPages (maCh a)))

/-- User capacity: the home groups' stripes less the reserve and the GC_HIGH free stripes kept, each of which counts as the
group's largest stripe (log entry 183). -/
def State.userCapacity (s : State) : Nat :=
  ((List.range 16).filter (fun g => s.isHome g && s.stripeHome g == g)).foldl (fun n g =>
    let l := (s.stripeIds g).filter (fun k => (s.stripe k).st ≠ .reserved ∧ (s.stripe k).st ≠ .refuge)
    let tot := (l.map s.stripeBytes).sum
    let one := l.foldl (fun m k => max m (s.stripeBytes k)) 0
    n + (tot - s.rd F.MED_GC_CFG_GC_HIGH (g / 8) * one)) 0

/-- Charge of the own tracts. -/
def State.charged (s : State) : Nat :=
  s.tly.tracts.foldl (fun n e =>
    if e.1 < 4096 ∧ e.2.st ≠ .absent then n + e.2.cap * e.2.blkBytes + 16384 * e.2.pages else n) 0

/-- Free media capacity, bytes; 0 where the figure would be negative. -/
def State.freeCapacity (s : State) : Nat := s.userCapacity - s.charged

/-- Home groups a tract's IUs may go to, named by their stripes: the owned home groups, or for a foreign tract the
partner's home groups held here (R215). -/
def State.destGroups (s : State) (t : Nat) : List Nat := s.mapGroups (decide (4096 ≤ t))

/-- The capacity figure has fallen below 0 and no group that the tract's data may go to has room left: writes to it complete
with CAPACITY (R879). -/
def State.noMedia (s : State) (t : Nat) : Bool :=
  decide (s.userCapacity < s.charged) && (s.destGroups t).all (fun g => (s.place g 0 (s.tract t).secs 0).isNone)

/-! ### The decoder pool (R343, R727) -/

/-- Decoders of a kind on media die `d`: 32 hard ones for stage 1 and 8 soft ones for stage 2 in each of its two LDPC banks
that is ON (R343, R727). -/
def State.decoders (s : State) (d stage : Nat) : Nat :=
  (if stage = 1 then 32 else 8) * (b2n (s.polSt (69 + 2 * d) == 0) + b2n (s.polSt (70 + 2 * d) == 0))

/-- A read beyond the LUN whose codewords need a decoder of a stage's kind on die `d`: a read of a felled LUN or channel takes
only the rebuild (R346). -/
def State.wantsDec (s : State) (d stage : Nat) (r : Rd) : Bool :=
  let ch := maCh r.op.addr
  r.stage == stage && dieOf ch == d && decide (r.dec < r.op.secs.length)
    && (stage == 1 || (s.lunSt ch (uOf r.op.addr) != 15 && !s.chFelled ch))

/-- A waiting codeword of `r` is served before those of the others: by the priority of its read, then by its arrival. -/
def State.decFirst (s : State) (d stage : Nat) (r : Rd) : Bool :=
  s.med.reads.all (fun x => !s.wantsDec d stage x || x == r || decide (r.op.prio < x.op.prio)
    || (r.op.prio == x.op.prio && decide (r.op.arr ≤ x.op.arr)))

/-- Free decoders of a die take the codewords that wait, in their order (R343). -/
def State.feedStage (s : State) (d stage : Nat) : Nat → State
  | 0 => s
  | n + 1 =>
    let used := ((s.med.reads.filter (fun r => r.stage == stage && dieOf (maCh r.op.addr) == d)).map (fun r => r.dec)).sum
    match s.med.reads.find? (fun r => s.wantsDec d stage r && s.decFirst d stage r) with
    | none => s
    | some r =>
      if s.decoders d stage ≤ used then s
      else
        let k := min (s.decoders d stage - used) (r.op.secs.length - r.dec)
        State.feedStage { s with
          med.reads := s.med.reads.map (fun x => if x = r then { x with dec := x.dec + k } else x) } d stage n

/-- Both kinds of decoder of both media dies take what waits. -/
def State.feed (s : State) : State :=
  let n := s.med.reads.length
  (((s.feedStage 0 1 n).feedStage 1 1 n).feedStage 0 2 n).feedStage 1 2 n

/-- Every codeword of a read has a decoder, or needs none. -/
def State.inDecoders (s : State) (r : Rd) : Bool := !s.wantsDec (dieOf (maCh r.op.addr)) r.stage r

end Sys2Proof.Machine
end

