-- ==== Sys2Proof/Machine/IoCmds.lean ====
section
/-! DEFINITION. The I/O commands: READ, VERIFY, WRITE, ATOMIC_WRITE, COPY, FLUSH, TRIM, WRITE_ZEROES, and the
translation a skidder asks for (R22, R23, R133 to R151, R196 to R213, R221 to R223). A command that moves data is
executed step by step, one 4 KiB unit, IU or part of an IU at a time, for the segment whose task runs. -/

namespace Sys2Proof.Machine
open Sys2Proof

/-! ### Checks at execution -/

/-- The command's admission epoch is more than one epoch old (R169, R740). -/
def State.epochStale (s : State) (c : Cmd) : Bool :=
  decide (1 < (s.rd F.GLB_EPOCH_NEXT + 2 ^ 32 - c.epoch) % 2 ^ 32)

/-- Source tract ID of a COPY. -/
def copySrc (e : Nat) : Nat := bytesAt e 40 2 % 4096

/-- Ranges of a COPY overlap in one tract (R139). -/
def copyOverlap (e : Nat) : Bool :=
  copySrc e == sqTract e && decide (sqLba e < sqDest e + sqLen e) && decide (sqDest e < sqLba e + sqLen e)

/-- Checks of a command's tracts and ranges (R128 to R135, R139, R879): none when it can run. -/
def State.ioCheck (s : State) (c : Cmd) : Option IoStop :=
  let e := c.sqe
  let op := sqOp e
  if op = 0x03 ∧ bit e 320 then none
  else match s.tractKey c.fn (sqTract e) with
  | none => some (.fail 0x03 4)
  | some t =>
    if op = 0x03 then
      match (s.tract t).st with
      | .formatting => some (.fail 0x05 0xFF)
      | .deleting => some (.fail 0x05 0xFF)
      | .frozen => some .frozen
      | _ => none
    else if op = 0x06 then
      match s.tractKey c.fn (copySrc e) with
      | none => some (.fail 0x03 4)
      | some u =>
        match s.rangeCheck u (bytesAt e 42 1) (sqLba e) (sqLen e) op false false with
        | some r => some r
        | none =>
          match s.rangeCheck t (sqKid e) (sqDest e) (sqLen e) op true false with
          | some r => some r
          | none =>
            if (s.tract t).blk ≠ (s.tract u).blk then some (.fail 0x03 40)
            else if copyOverlap e then some (.fail 0x03 48)
            else if s.noMedia t then some (.fail 0x0D 0xFF) else none
    else match s.rangeCheck t (sqKid e) (sqLba e) (sqLen e) op (isWriteOp op || op == 0x04) (sqAtomic e || op == 0x08) with
      | some r => some r
      | none => if isWriteOp op ∧ s.noMedia t then some (.fail 0x0D 0xFF) else none

/-- Commands that a FROZEN tract held resume in admission order (R130): an earlier one that can take a step now goes
first. -/
def State.resumeTurn (s : State) (k : Nat) (c : Cmd) : Bool :=
  !c.frozen || s.qqp.cmds.all (fun e => match e.2 with
    | some d => e.1 == k || !d.frozen || d.internal || d.ended || d.completed || !isIoOp (sqOp d.sqe)
        || decide (c.order < d.order) || s.ioFrozen d
        || !(d.segs.isEmpty || (List.range d.segs.length).any (fun i => (s.segRunning e.1 i).isSome))
    | none => true)

/-- Blocks of both ranges of a fused pair exceed 256 KiB (R144). -/
def State.pairTooLong (s : State) (c d : Cmd) : Bool :=
  s.anyTractOf c (fun _ t => decide (262144 < (sqLen c.sqe + sqLen d.sqe) * t.blkBytes))

/-- The checks of a command, made for both commands of a fused pair at once: where one is invalid, it ends with its own
error and the other with ABORTED (R144, R146). The flag is true when the command may go on. -/
def State.ioChecks (s : State) (k : Nat) (c : Cmd) : State × Bool :=
  let pass (s : State) (j : Nat) : State := s.updCmd j (fun c => { c with checked := true })
  match c.fused, c.fused.bind s.cmd with
  | some p, some d =>
    if d.ended ∨ d.completed then
      match s.ioCheck c with
      | some r => (s.ioStop k c r, false)
      | none => (pass s k, true)
    else
      let first := if c.fusedFirst then s.ioCheck c else s.ioCheck d
      let second := if c.fusedFirst then s.ioCheck d else s.ioCheck c
      let first := if first.isNone ∧ second.isNone ∧ s.pairTooLong c d then some (.fail 0x03 16) else first
      if first.isNone ∧ second.isNone then (pass (pass s k) p, true)
      else
        let a := first.getD (.fail 0x0C 0xFF)
        let b := second.getD (.fail 0x0C 0xFF)
        let s := (s.ioStop k c (if c.fusedFirst then a else b)).ioStop p d (if c.fusedFirst then b else a)
        ((s.updCmd k (fun c => { c with pairOwn := true })).updCmd p (fun c => { c with pairOwn := true }), false)
  | _, _ =>
    match s.ioCheck c with
    | some r => (s.ioStop k c r, false)
    | none => (pass s k, true)

/-- A step of a command may go on: not ended, its tract not FROZEN, its turn come, its epoch not stale, its checks
passed. Otherwise the state tells what became of it. -/
def State.ioEnter (s : State) (k op : Nat) : State × Option Cmd :=
  match s.cmd k with
  | none => (s, none)
  | some c =>
    if c.internal ∨ c.ended ∨ c.completed ∨ sqOp c.sqe ≠ op then (s, none)
    else if s.ioFrozen c then (s.updCmd k (fun c => { c with frozen := true }), none)
    else if ¬ s.resumeTurn k c then (s, none)
    else if s.epochStale c then (s.failCmd k 0x0E 4 0, none)
    else
      let r := if c.checked then (s, true) else s.ioChecks k c
      if r.2 then
        let s := if c.frozen then r.1.updCmd k (fun c => { c with frozen := false }) else r.1
        (s, s.cmd k)
      else (r.1, none)

/-! ### Translation (R192, R196 to R206) -/

/-- The directory cache gives the entry of a page, or takes it in on a miss (R190, R191, Table TLY-6): 262,144 sets of four
ways; which way a full set gives up is free (log entry 4). -/
def State.dirLookup (s : State) (page : Nat) : State :=
  let l := Map.get [] s.tly.dcache (page % 262144)
  if page ∈ l then s
  else
    let l' := if l.length < 4 then l ++ [page] else l.set (s.freeNat % 4) page
    ({ s.drawn with tly.dcache := Map.set [] s.tly.dcache (page % 262144) l' }).bump F.TLY_DIR_MISSES

/-- Counters and marks of one translation (R190, R191, R209, R212); only a READ uses a pre-translation. -/
def State.noteLookup (s : State) (rd : Bool) (t iu page e : Nat) : State :=
  let s := (s.bump F.TLY_LOOKUPS).dirLookup page
  let s := s.updFrame page (fun f => { f with ref := true })
  let s := if rd ∧ (t, iu) ∈ s.tly.pre then { s with tly.pre := s.tly.pre.filter (· ≠ (t, iu)) }.bump F.TLY_RA_USED else s
  let ok := (eValid e && !eTrimmed e && !ePoisoned e) || (!eValid e && (eTrimmed e != ePoisoned e))
  if ok then s else s.post E.TLY_ENTRY_INVALID (tractId t) iu

/-- Translates the IU of block `lba` of tract `t` for a transfer: the sources of the IU's blocks from that block on,
once its map page is resident. -/
def State.translate (s : State) (rd : Bool) (t lba w prio : Nat) : State × Option (Nat × List Src) :=
  let tr := s.tract t
  let per := max 1 tr.perIu
  let iu := lba / per
  let page := tr.page iu
  let r := s.needPage page (.task w) prio
  if r.2 then
    let s := r.1.noteLookup rd t iu page (r.1.entry page (iu % 2048))
    (s, some (page, (s.version t iu).drop (lba % per)))
  else (r.1, none)

/-- Translates the whole range of an ATOMIC READ or VERIFY at one instant, once every page is resident (R135, R151). -/
def State.translateAll (s : State) (rd : Bool) (t lba len w prio : Nat) : State × Option (List Nat × List Src) :=
  let tr := s.tract t
  let per := max 1 tr.perIu
  let i0 := lba / per
  let n := (lba + len - 1) / per + 1 - i0
  let ius := (List.range n).map (· + i0)
  let ps := (ius.map tr.page).eraseDups
  let r := ps.foldl (fun (r : State × Bool) p =>
    let x := r.1.needPage p (.task w) prio
    (x.1, r.2 && x.2)) (s, true)
  if r.2 ∧ ius.all (fun i => r.1.resident (tr.page i)) then
    let s := ius.foldl (fun s i => s.noteLookup rd t i (tr.page i) (s.entry (tr.page i) (i % 2048))) r.1
    (s, some (ps, ((ius.flatMap (fun i => s.version t i)).drop (lba % per)).take len))
  else (r.1, none)

/-- The tract from which a command reads. -/
def State.srcTract (s : State) (c : Cmd) : Option Nat :=
  s.tractKey c.fn (if sqOp c.sqe = 0x06 then copySrc c.sqe else sqTract c.sqe)

/-- Adds the next IU's translation to the pins of segment `i` (R196, R205). -/
def State.pinNext (s : State) (k i : Nat) (c : Cmd) (w : Nat) : State :=
  match s.srcTract c, c.segs[i]? with
  | some t, some g =>
    let n := g.first + g.done + g.pin.length
    let room := g.len - g.done - g.pin.length
    if room = 0 then s
    else if sqAtomic c.sqe then
      if c.snapped then s.updCmd k (fun c => c.updSeg i (fun g => { g with pin := (c.snap.drop n).take room }))
      else
        let r := s.translateAll (sqOp c.sqe == 0x02) t (sqLba c.sqe) (sqLen c.sqe) w c.prio
        match r.2 with
        | some (ps, l) => r.1.updCmd k (fun c => Cmd.updSeg { c with snap := l, snapped := true, snapPages := ps } i (fun g =>
            { g with pin := (l.drop n).take room }))
        | none => r.1
    else
      let r := s.translate (sqOp c.sqe == 0x02) t (sqLba c.sqe + n) w c.prio
      match r.2 with
      | some (p, l) => r.1.updCmd k (fun c => c.updSeg i (fun g =>
          { g with pin := g.pin ++ l.take room, pinPages := (g.pinPages ++ [p]).eraseDups }))
      | none => r.1
  | _, _ => s

/-! ### Run-ahead (R209 to R213) -/

/-- Raises the stream a READ extends, or opens one with count 0 in place of the least recently used (R209, log entry 184). -/
def State.noteStream (s : State) (t lba len : Nat) : State × Nat :=
  match List.find? (fun (e : Nat × Stream) => e.2.tract == t && e.2.next == lba && decide (s.time - e.2.last ≤ 1000000))
    s.tly.streams with
  | some e =>
    let x : Stream := { e.2 with next := lba + len, count := e.2.count + 1, last := s.time }
    ({ s with tly.streams := Map.set {} s.tly.streams e.1 x }, x.count)
  | none =>
    let slot :=
      if s.tly.streams.length < 256 then (scanFree (fun i => s.tly.streams.any (fun e => e.1 == i)) 256 256 0).getD 0
      else (s.tly.streams.foldl (fun (b : Nat × Nat) e => if e.2.last < b.2 then (e.1, e.2.last) else b)
        ((s.tly.streams.headD (0, {})).1, (s.tly.streams.headD (0, {})).2.last)).1
    let x : Stream := { tract := t, next := lba + len, count := 0, last := s.time }
    ({ s with tly.streams := Map.insert s.tly.streams slot x }, 0)

/-- A run-ahead load of a page: at most 512 slots, and a frame that R211 allows; otherwise none. -/
def State.runAheadLoad (s : State) (p : Nat) : State :=
  let ra := (s.tly.loads.filter (fun e => match e.2 with
    | some l => l.runAhead
    | none => false)).length
  if (Map.get none s.tly.frames p).isSome ∨ s.isFresh p ∨ (s.load p).isSome ∨ 512 ≤ ra ∨ 4096 ≤ s.tly.loads.length then s
  else
    let r := s.raFrame
    if ¬ r.2 then s
    else
      let l : Load := { start := s.time, prio := 7, runAhead := true }
      let d := r.1.dirOf p
      { r.1.addFrame p { idx := r.1.frameIdx, flash := d.flash, loading := true } with
        tly.loads := Map.set none s.tly.loads p (some l) }

/-- Loads map pages and translates IUs ahead of a stream of count 2 or more (R210, R213). -/
def State.runAhead (s : State) (t lba len : Nat) : State :=
  if !s.on F.TLY_CTL_RA_EN then s
  else
    let r := s.noteStream t lba len
    if r.2 < 2 then r.1
    else
      let tr := s.tract t
      let per := max 1 tr.perIu
      let last := (lba + len - 1) / per
      let page := tr.page last
      let pages := (List.range (s.rd F.TLY_CTL_RA_PAGES)).map (fun i => page + 1 + i)
      let s := (pages.filter (fun p => p < tr.mpn + tr.pages)).foldl State.runAheadLoad r.1
      let ius := (List.range (s.rd F.TLY_CTL_RA_IUS)).map (fun i => last + 1 + i)
      { s with tly.pre := (s.tly.pre ++ ((ius.filter (fun i => i < tr.entries && s.resident (tr.page i))).map
          (fun i => (t, i)))).eraseDups }

/-- A READ that starts extends or opens a stream, once (R209). -/
def State.noteRead (s : State) (k : Nat) (c : Cmd) : State :=
  match s.srcTract c with
  | some t =>
    if sqOp c.sqe = 0x02 ∧ ¬ c.noted then
      (s.updCmd k (fun c => { c with noted := true })).runAhead t (sqLba c.sqe) (sqLen c.sqe)
    else s
  | none => s

/-- TRANSLATION_REQUEST (R196): a skidder translates the next IU of its segment, at most 2 IUs ahead of the IU it
transfers. -/
def execTranslationRequest (key seg : Nat) (s : State) : Res :=
  .next (s.when true (fun s => match s.cmd key with
    | some c =>
      match s.segRunning key seg, c.segs[seg]?, s.srcTract c with
      | some w, some g, some t =>
        if (sqOp c.sqe = 0x02 ∨ sqOp c.sqe = 0x06 ∨ sqOp c.sqe = 0x07) ∧ g.pin.length ≤ 2 * (s.tract t).perIu then
          let r := s.ioEnter key (sqOp c.sqe)
          match r.2 with
          | some c => (r.1.noteRead key c).pinNext key seg c w
          | none => r.1
        else s
      | _, _, _ => s
    | none => s))

/-! ### Transfers to the host -/

/-- Where bytes `off` to `off + n - 1` of a command's buffer go: host address, offset within the data, length, and
whether the span is discarded (R118, R119). -/
def sglSpans : List Sgl → Nat → Nat → List (Nat × Nat × Nat × Bool)
  | [], _, _ => []
  | d :: ds, off, n =>
    if n = 0 then []
    else if d.len ≤ off then sglSpans ds (off - d.len) n
    else
      let m := min n (d.len - off)
      (d.addr + off, 0, m, bit d.flags 0) :: (sglSpans ds 0 (n - m)).map (fun x => (x.1, x.2.1 + m, x.2.2.1, x.2.2.2))

/-- Sends bytes of a READ to host memory; false, with QQP_DATA_FAULT, when the function may not send (R800, R802). -/
def State.toHost (s : State) (k : Nat) (c : Cmd) (off n val : Nat) : State × Bool :=
  let spans := if sqSgl c.sqe then sglSpans c.sgl off n else [(sqDp1 c.sqe + off, 0, n, false)]
  if c.cut then (s, false)
  else if s.tlpOk c.fn then
    ({ s with out := s.out ++ (spans.filter (fun x => !x.2.2.2)).flatMap (fun x =>
        s.dataTlps c.fn x.1 x.2.2.1 (val / 2 ^ (8 * x.2.1)) (s.pci.relaxed.contains c.fn)) }, true)
  else (s.post E.QQP_DATA_FAULT c.fn (sqDp1 c.sqe + off) (some k), false)

/-- Data or an SGL the command still needs from host memory will not come (R441, R800, R802). -/
def State.hostStops (s : State) (c : Cmd) : Bool := c.hostErr || c.cut || !s.tlpOk c.fn

/-- A segment stops at host address `wher`. Where no request could be sent the stop itself posts QQP_DATA_FAULT; after a
failed read the completion has posted it. -/
def State.hostStop (s : State) (k i : Nat) (c : Cmd) (wher : Nat) : State :=
  let s := if c.hostErr then s else s.post E.QQP_DATA_FAULT c.fn wher (some k)
  (s.segEnd k i 0x12 1 wher).bump F.SKD_HOST_FAULTS

/-- Content of a pinned block: known, or from the sectors the media engine delivered; none while it is awaited. The
second component tells a block that stops the transfer: status, unit and WHERE. -/
def blockOf (media : List (Nat × Option Blk)) (blkB idx : Nat) (x : Src) : Option (Nat ⊕ (Nat × Nat × Nat)) :=
  match x.blk with
  | some (.data v) => some (.inl v)
  | some .poison => some (.inr (0x0F, 4, 0))
  | none =>
    match x.media with
    | none => some (.inr (0x0F, 4, 0))
    | some a =>
      match media.find? (fun m => m.1 == a) with
      | none => none
      | some (_, some (.data v)) => some (.inl (v / 2 ^ (8 * blkB * (idx % (4096 / blkB))) % 2 ^ (8 * blkB)))
      | some (_, some .poison) => some (.inr (0x0F, 4, 0))
      | some (_, none) => some (.inr (0x07, 7, a))

/-- Leading blocks of a list of contents that carry data, as one number; then the block that stops, if any. -/
def leadData (blkB : Nat) : List (Nat ⊕ (Nat × Nat × Nat)) → Nat × Nat × Option (Nat × Nat × Nat)
  | [] => (0, 0, none)
  | .inr x :: _ => (0, 0, some x)
  | .inl v :: l =>
    let r := leadData blkB l
    (r.1 + 1, v + 2 ^ (8 * blkB) * r.2.1, r.2.2)

/-- Blocks of the transfer's next step: to the next 4 KiB boundary of tract byte address (R200, R275). -/
def chunkLen (blkB lba room : Nat) : Nat :=
  let u := 4096 / blkB
  min room (u - lba % u)

/-- Media sectors that pinned blocks need and that have not been delivered. -/
def missing (media : List (Nat × Option Blk)) (l : List Src) : List Nat :=
  ((l.filterMap (fun x => if x.blk.isNone then x.media else none)).filter
    (fun a => !media.any (fun m => m.1 == a))).eraseDups

/-- A skidder has moved blocks `lba` to `lba + n - 1`: the 4 KiB boundaries it has reached count as units moved
(Table REG-5; DEDUCED, log entry 18). -/
def State.moved (s : State) (blkB lba n : Nat) : State :=
  s.bump F.SKD_BLOCKS ((lba + n) * blkB / 4096 - lba * blkB / 4096)

/-- Segment `i` has moved `n` more blocks, the first of those pinned by `srcs`; delivered sectors are given up. The IU keeps
its pins until its transfer ends (R205): `whole` says that it does with these blocks. -/
def Cmd.advance (c : Cmd) (i n : Nat) (srcs : List Src) (whole : Bool) : Cmd :=
  { c with media := c.media.filter (fun x => !srcs.any (fun y => y.media == some x.1)) }.updSeg i (fun g =>
    { g with done := g.done + n, high := max g.high (g.done + n), pin := g.pin.drop n
             kept := if whole then [] else g.kept ++ srcs.take n
             pinPages := if whole && decide (g.pin.length ≤ n) then [] else g.pinPages })

/-- A READ has delivered `n` more blocks of segment `i`; XFER counts each block once (R467). -/
def Cmd.delivered (c : Cmd) (i n : Nat) : Cmd :=
  match c.segs[i]? with
  | some g => { c with xfer := c.xfer + (g.done + n - g.high), sentData := c.sentData || n != 0 }
  | none => c

/-- Contents of blocks from `lba` on as the host sees them: decrypted, the stops left as they are (R550). -/
def State.plain (s : State) (t lba : Nat) (l : List ((Nat ⊕ (Nat × Nat × Nat)) × Src)) : List (Nat ⊕ (Nat × Nat × Nat)) :=
  l.zipIdx.map (fun x => match x.1.1 with
    | .inl v => .inl (s.decBlk t (lba + x.2) x.1.2 v)
    | .inr e => .inr e)

/-- Buffered blocks among those pinned by `srcs` from `lba` on: line, index within its IU of `per` blocks. -/
def lineReads (per lba : Nat) (srcs : List Src) : List (Nat × Nat) :=
  srcs.zipIdx.filterMap (fun x => x.1.line.map (fun b => (b, (lba + x.2) % max 1 per)))

/-- One step of a READ or VERIFY segment: translates an IU where none is pinned, asks the media engine for the sectors
it needs, and moves one 4 KiB unit once its data is there. -/
def State.readStep (s : State) (op k i : Nat) : State :=
  match s.segRunning k i with
  | none => s
  | some w =>
    let r := s.ioEnter k op
    match r.2 with
    | none => r.1
    | some c0 =>
      match r.1.srcTract c0 with
      | none => r.1
      | some t =>
        let tr := r.1.tract t
        let blkB := tr.blkBytes
        let s := r.1.noteRead k c0
        let s := match c0.segs[i]? with
          | some g => if g.pin = [] ∧ ¬ g.ended then s.pinNext k i c0 w else s
          | none => s
        match s.cmd k with
        | none => s
        | some c =>
          match c.segs[i]? with
          | none => s
          | some g =>
            let sg := sqSgl c.sqe && op == 0x02 && !c.sglGot
            if g.ended ∨ g.pin = [] ∨ (sg ∧ ¬ s.hostStops c) then s
            else if sg then s.hostStop k i c (sqDp1 c.sqe)
            else
              let lba := sqLba c.sqe + g.first + g.done
              let m := chunkLen blkB lba (min g.pin.length (g.len - g.done))
              let srcs := g.pin.take m
              let need := missing c.media srcs
              if need ≠ [] then
                s.askSectors (.cmd k) c.prio t (lba / max 1 tr.perIu) (missing c.media g.pin)
              else
                let cont := (srcs.zipIdx.map (fun x => blockOf c.media blkB ((lba + x.2) % max 1 tr.perIu) x.1)).filterMap id
                let d := leadData blkB (s.plain t lba (cont.zip srcs))
                let s := s.skidReads (s.skidderOf w) k c.prio blkB (lineReads tr.perIu lba srcs)
                let h := if op = 0x02 ∧ d.1 ≠ 0
                  then s.toHost k c ((g.first + g.done) * blkB) (d.1 * blkB) d.2.1 else (s, true)
                if !h.2 then (h.1.segEnd k i 0x12 1 (sqDp1 c.sqe + (g.first + g.done) * blkB)).bump F.SKD_HOST_FAULTS
                else
                  let s := (h.1.moved blkB lba d.1).updCmd k (fun c =>
                    (if op = 0x02 then c.delivered i d.1 else c).advance i d.1 srcs
                      (decide ((lba + d.1) % max 1 tr.perIu = 0)))
                  match d.2.2 with
                  | some (st, un, wh) => s.segEnd k i st un wh
                  | none => if g.len ≤ g.done + d.1 then s.segEnd k i 0 0 0 else s

/-- READ (R23, R138, R149 to R152). -/
def execRead (key seg : Nat) (s : State) : Res := .next (s.when true (fun s => s.readStep 0x02 key seg))

/-- VERIFY (R140): reads and decodes, and moves nothing to the host. -/
def execVerify (key seg : Nat) (s : State) : Res := .next (s.when true (fun s => s.readStep 0x07 key seg))

/-! ### Transfers into the write buffer -/

/-- The rule that acknowledges a write that starts now (R22, R134, R427). -/
def State.ackRule (s : State) (c : Cmd) : Nat :=
  if sqFua c.sqe then 2 else if s.mirroring then 0 else if s.polStrict then 2 else 1

/-- Commits blocks of one IU, encrypted under the tract's KID, to the write buffer as a new line and sends its mirror copy (R411,
R412, R550). -/
def State.commit (s : State) (k : Nat) (c : Cmd) (t iu off : Nat) (bl : List Blk) : State :=
  let tr := s.tract t
  let b := s.tly.bseq
  let l : Line :=
    { tract := t, iu := iu, kid := tr.kid
      data := bl.zipIdx.map (fun x => (off + x.2, s.encBlk t (iu * tr.perIu + off + x.2) x.1))
      bytes := bl.length * tr.blkBytes, cmd := some k, fua := sqFua c.sqe, mirrored := !s.mirroring
      off := (s.lineRoom t off bl.length).getD 0 }
  let s := { s with tly.lines := Map.set none s.tly.lines b (some l), tly.bseq := b + 1 }.sealBuf 0 l l.data
  let s := s.updCmd k (fun c => Cmd.toPhase
    { c with ack := if c.nBuf = 0 then s.ackRule c else c.ack, nBuf := c.nBuf + bl.length
             toDestage := c.toDestage ++ [b], toRelease := c.toRelease ++ [b] } 1 s.us)
  if s.mirroring then s.mirrorLine b false else s

/-- A skidder commits blocks: its requests write the ciphertext to the line (R549, R616). -/
def State.skidCommit (s : State) (w k : Nat) (c : Cmd) (t iu off : Nat) (bl : List Blk) : State :=
  let b := s.tly.bseq
  let s := s.commit k c t iu off bl
  let v := match s.line b with
    | some l => ofBytes (l.data.flatMap (fun d => toBytes (s.tract t).blkBytes (match d.2 with
      | .data v => v
      | .poison => 0)))
    | none => 0
  match s.blockAddr b off with
  | some a => s.skidReqs (s.skidderOf w) k c.prio true a (bl.length * (s.tract t).blkBytes) v
  | none => s

/-- Marks a write whose every segment has ended as wholly buffered. -/
def State.markBuffered (s : State) (k : Nat) : State :=
  s.updCmd k (fun c => { c with buffered := c.buffered || c.segsEnded })

/-- One step of a WRITE or ATOMIC_WRITE segment: the blocks of one IU, once the host has sent them (R22, R143, R877). -/
def State.writeStep (s : State) (op k i : Nat) : State :=
  match s.segRunning k i with
  | none => s
  | some w =>
    let r := s.ioEnter k op
    match r.2 with
    | none => r.1
    | some c =>
      match r.1.tractKey c.fn (sqTract c.sqe), c.segs[i]? with
      | some t, some g =>
        let s := r.1
        let tr := s.tract t
        let per := max 1 tr.perIu
        let lba := sqLba c.sqe + g.first + g.done
        let m := min (per - lba % per) (g.len - g.done)
        let have_ := c.hostData.length - (g.first + g.done)
        let n := if m ≤ have_ then m else if s.hostStops c then have_ else 0
        if g.ended ∨ (n < m ∧ ¬ s.hostStops c) ∨ (n ≠ 0 ∧ (s.lineRoom t (lba % per) n).isNone) then s
        else
          let bl := ((c.hostData.drop (g.first + g.done)).take n).map Blk.data
          let s := if n = 0 then s else s.skidCommit w k c t (lba / per) (lba % per) bl
          let s := (s.moved tr.blkBytes lba n).updCmd k (fun c => Cmd.advance { c with xfer := c.xfer + n } i n [] true)
          if n < m then (s.hostStop k i c (sqDp1 c.sqe + (g.first + g.done + n) * tr.blkBytes)).markBuffered k
          else if g.len ≤ g.done + n then (s.segEnd k i 0 0 0).markBuffered k
          else s
      | _, _ => r.1

/-- WRITE (R22, R133, R157). -/
def execWrite (key seg : Nat) (s : State) : Res := .next (s.when true (fun s => s.writeStep 0x01 key seg))

/-- ATOMIC_WRITE (R143): its lines stay invisible until its completion acknowledges them all at one instant. -/
def execAtomicWrite (key seg : Nat) (s : State) : Res := .next (s.when true (fun s => s.writeStep 0x08 key seg))

/-- One step of a COPY segment: blocks that lie in one source IU and one destination IU (R139, R459). -/
def State.copyStep (s : State) (k i : Nat) : State :=
  match s.segRunning k i with
  | none => s
  | some w =>
    let r := s.ioEnter k 0x06
    match r.2 with
    | none => r.1
    | some c0 =>
      match r.1.srcTract c0, r.1.tractKey c0.fn (sqTract c0.sqe) with
      | some u, some t =>
        let su := r.1.tract u
        let tr := r.1.tract t
        let blkB := su.blkBytes
        let per := max 1 su.perIu
        let dper := max 1 tr.perIu
        let s := match c0.segs[i]? with
          | some g => if g.pin = [] ∧ ¬ g.ended then r.1.pinNext k i c0 w else r.1
          | none => r.1
        match s.cmd k with
        | none => s
        | some c =>
          match c.segs[i]? with
          | none => s
          | some g =>
            if g.ended ∨ g.pin = [] then s
            else
              let lba := sqLba c.sqe + g.first + g.done
              let dst := sqDest c.sqe + g.first + g.done
              let m := min (min g.pin.length (g.len - g.done)) (min (per - lba % per) (dper - dst % dper))
              let srcs := g.pin.take m
              if missing c.media srcs ≠ [] then
                s.askSectors (.cmd k) c.prio u (lba / per) (missing c.media srcs)
              else if (s.lineRoom t (dst % dper) m).isNone then s
              else
                let cont := (srcs.zipIdx.map (fun x => blockOf c.media blkB ((lba + x.2) % per) x.1)).filterMap id
                let d := leadData blkB cont
                let bl := ((cont.take d.1).zip srcs).zipIdx.filterMap (fun x => match x.1.1 with
                  | .inl v => some (Blk.data (s.decBlk u (lba + x.2) x.1.2 v))
                  | .inr _ => none)
                let s := s.skidReads (s.skidderOf w) k c.prio blkB (lineReads per lba srcs)
                let s := if d.1 = 0 then s else s.skidCommit w k c t (dst / dper) (dst % dper) bl
                let s := (s.moved blkB lba d.1).updCmd k (fun c => c.advance i d.1 srcs (decide ((lba + d.1) % per = 0)))
                match d.2.2 with
                | some (st, un, wh) => (s.segEnd k i st un wh).markBuffered k
                | none => if g.len ≤ g.done + d.1 then (s.segEnd k i 0 0 0).markBuffered k else s
      | _, _ => r.1

/-- COPY (R139). -/
def execCopy (key seg : Nat) (s : State) : Res := .next (s.when true (fun s => s.copyStep key seg))

/-! ### FLUSH, TRIM, WRITE_ZEROES -/

/-- FLUSH (R141): the writes it waits for were taken at its fetch; it ends once they are destaged. -/
def execFlush (key : Nat) (s : State) : Res :=
  let r := s.ioEnter key 0x03
  .next (s.when true (fun _ => match r.2 with
    | some _ => r.1.finish key 0
    | none => r.1))

/-- Whole IUs that blocks `lba` to `lba + len - 1` of a tract cover: first and count. An IU that the tract's capacity
cuts short is covered when all its blocks are (DEDUCED, log entry 13). -/
def Tract.wholeIus (t : Tract) (lba len : Nat) : Nat × Nat :=
  let per := max 1 t.perIu
  let a := (lba + per - 1) / per
  let b := if t.cap ≤ lba + len then t.entries else (lba + len) / per
  (a, b - a)

/-- Trims one IU of a resident page (R221): MADDR 0, WVER raised unless it was TRIMMED, old sectors stale. -/
def State.trimIu (s : State) (t iu : Nat) : State :=
  let tr := s.tract t
  let page := tr.page iu
  let e := s.entry page (iu % 2048)
  let was := !eValid e && eTrimmed e && !ePoisoned e
  let s := s.setEntry t page (iu % 2048)
    (mkEntry 0 false true false (4096 ≤ t) (if was then eWver e else eWver e + 1))
  if eValid e then s.lowerValid (eMaddr e) tr.secs else s

/-- Who waited for a map page, or for a fault-table slot, goes on (R202, R881): a task is woken; a map update, a TRIM or a
WRITE_ZEROES is tried again with its next step. -/
def State.wake (s : State) (w : Waiter) : State :=
  match w with
  | .task n => s.wakeTask n
  | _ => s

/-- A fault-table slot frees: the first fault that waits for one goes on, and the episode of R203 ends with the last. -/
def State.slotFreed (s : State) : State :=
  match s.tly.slotWait with
  | w :: ws => { s with tly.slotWait := ws, tly.fullEp := s.tly.fullEp && !ws.isEmpty }.wake w
  | [] => { s with tly.fullEp := false }

/-- A page whose load is of no more use: its frame and slot are freed and who waited goes on. -/
def State.cancelLoad (s : State) (page : Nat) : State :=
  match s.load page with
  | some l =>
    let s : State := { s with tly.loads := Map.erase s.tly.loads page, tly.frames := Map.erase s.tly.frames page }
    (l.waiters.foldl State.wake s).slotFreed
  | none => s

/-- A range that covers a whole map page makes it FRESH without loading it (R221): a load of it under way is dropped, its
pre-translations are discarded, a checkpoint has no more to write of it. Sectors named by resident entries become stale, and
the page's flash copy with them. -/
def State.freshPage (s : State) (t page : Nat) : State :=
  let tr := s.tract t
  let old := s.tly.ent.filter (fun e => e.1 / 2048 == page && eValid e.2)
  let fl := match Map.get none s.tly.frames page with
    | some f => f.flash
    | none => if (s.dirOf page).fresh then 0 else (s.dirOf page).flash
  let s := ((s.cancelLoad page).dropEntries page).dirChanged page
  let s := s.discardPre (fun x => x.1 == t && tr.page x.2 == page)
  let s := { s with
    tly.frames := Map.erase s.tly.frames page
    tly.dir := Map.set {} s.tly.dir page {}
    tly.replay := Map.erase s.tly.replay page
    tly.ckPages := s.tly.ckPages.filter (· ≠ page) }
  let s := old.foldl (fun s e => s.lowerValid (eMaddr e.2) tr.secs) s
  if fl = 0 then s else s.lowerValid fl 4

/-- Pages that a run of IUs covers wholly, and pages it covers in part. -/
def Tract.trimPages (t : Tract) (a n : Nat) : List Nat × List Nat :=
  let ps := (List.range ((a + n - 1) / 2048 + 1 - a / 2048)).map (· + a / 2048)
  ((ps.filter (t.coversPage a n)).map (· + t.mpn), (ps.filter (fun p => !t.coversPage a n p)).map (· + t.mpn))

/-- Trims a run of whole IUs (R221, R222, R881): the pages it covers in part are loaded first; then entries, one
MAP_TRIM_RANGE record, and the buffered lines that the TRIM supersedes. The flag is false while a page is awaited. -/
def State.trimRun (s : State) (k t a n prio : Nat) : State × Bool :=
  if n = 0 then (s, true)
  else
    let tr := s.tract t
    let ps := tr.trimPages a n
    let r := ps.2.foldl (fun (r : State × Bool) p =>
      let x := r.1.needPage p (.cmd k) prio
      (x.1, r.2 && x.2)) (s, true)
    if ¬ r.2 ∨ ¬ ps.2.all r.1.resident then (r.1, false)
    else
      let part := ((List.range n).map (· + a)).filter (fun i => ps.2.contains (tr.page i))
      let s := part.foldl (fun s i => s.trimIu t i) r.1
      let s := ps.1.foldl (fun s p => s.freshPage t p) s
      let q := s.jseq
      let s := s.journal { ty := 0x02, flags := foreignFlag t, tract := tractId t, arg0 := a, arg1 := n }
      let gone := s.tly.lines.filterMap (fun e => match e.2 with
        | some l => if l.tract = t ∧ a ≤ l.iu ∧ l.iu < a + n ∧ l.acked ∧ l.jseq.isNone then some e.1 else none
        | none => none)
      let old := gone.filterMap (fun b => (s.line b).bind (fun l => l.place))
      let s := old.foldl (fun s p => s.lowerValid p tr.secs) s
      ((s.trimLines gone q).ckptCheck, true)

/-- Journal SEQs that still have to be mirrored. -/
def State.unmirrored (s : State) (q0 : Nat) : List Nat :=
  if s.tly.jMir < s.jseq - 1 ∧ q0 < s.jseq then [s.jseq - 1] else []

/-- TRIM (R136, R221 to R223). -/
def execTrim (key : Nat) (s : State) : Res :=
  let r := s.ioEnter key 0x04
  .next (s.when true (fun _ => match r.2 with
    | none => r.1
    | some c =>
      match r.1.tractKey c.fn (sqTract c.sqe) with
      | none => r.1
      | some t =>
        let tr := r.1.tract t
        let w := tr.wholeIus (sqLba c.sqe) (sqLen c.sqe)
        let q0 := r.1.jseq
        let x := r.1.trimRun key t w.1 w.2 c.prio
        if !x.2 then x.1
        else
          let blks := min (w.2 * tr.perIu) (tr.cap - w.1 * tr.perIu)
          (x.1.updCmd key (fun c => Cmd.toPhase { c with waitSeqs := x.1.unmirrored q0 } 5 s.us)).finish key 0 0xFF
            (sqLen c.sqe) (blks % 2 ^ 32)))

/-- Blocks of the range outside its whole IUs: (IU, first block in it, count), at most two runs. -/
def Tract.partRuns (t : Tract) (lba len : Nat) : List (Nat × Nat × Nat) :=
  let per := max 1 t.perIu
  let w := t.wholeIus lba len
  let i0 := lba / per
  let i1 := (lba + len - 1) / per
  ([i0, i1].eraseDups.filter (fun i => !(decide (w.1 ≤ i) && decide (i < w.1 + w.2)))).map (fun i =>
    let a := max lba (i * per)
    let b := min (lba + len) (i * per + per)
    (i, a - i * per, b - a))

/-- A write in flight holds an unacknowledged line of an IU that the blocks touch (R150). -/
def State.writesOver (s : State) (k t per lba len : Nat) : Bool :=
  s.tly.lines.any (fun e => match e.2 with
    | some l => l.tract == t && decide (lba / per ≤ l.iu) && decide (l.iu ≤ (lba + len - 1) / per) && !l.acked
        && l.cmd != some k
    | none => false)

/-- WRITE_ZEROES (R137): trims the whole IUs and commits zeroes to the partly covered ones, once every write in flight that
touches one of them is acknowledged, so that it orders among them as R150 asks (log entry 191). -/
def execWriteZeroes (key : Nat) (s : State) : Res :=
  let r := s.ioEnter key 0x05
  .next (s.when true (fun _ => match r.2 with
    | none => r.1
    | some c =>
      match r.1.tractKey c.fn (sqTract c.sqe) with
      | none => r.1
      | some t =>
        if c.segs ≠ [] ∨ r.1.writesOver key t (max 1 (r.1.tract t).perIu) (sqLba c.sqe) (sqLen c.sqe)
            ∨ ((r.1.tract t).partRuns (sqLba c.sqe) (sqLen c.sqe)).any (fun p => (r.1.lineRoom t p.2.1 p.2.2).isNone) then r.1
        else
          let tr := r.1.tract t
          let w := tr.wholeIus (sqLba c.sqe) (sqLen c.sqe)
          let q0 := r.1.jseq
          let x := r.1.trimRun key t w.1 w.2 c.prio
          if !x.2 then x.1
          else
            let s := (tr.partRuns (sqLba c.sqe) (sqLen c.sqe)).foldl (fun s p =>
              s.commit key c t p.1 p.2.1 (List.replicate p.2.2 (.data 0))) x.1
            s.updCmd key (fun c =>
              { c with segs := [{ len := sqLen c.sqe, done := sqLen c.sqe, ended := true }], buffered := true
                       trim := some (t, w.1, w.2)
                       waitSeqs := s.unmirrored q0, ack := if c.nBuf = 0 then s.ackRule c else c.ack })))

end Sys2Proof.Machine
end

