-- ==== Sys2Proof/Machine/Records.lean ====
section
/-! DEFINITION. The Deck's records as the scratchpad holds them: task descriptors (R248, Table DCK-2) and context records (R201,
R279, Table DCK-5). -/

namespace Sys2Proof.Machine
open Sys2Proof

/-- SGL descriptor and byte offset within it of byte `off` of a transfer (R118). -/
def sglPos : List Sgl → Nat → Nat → Nat × Nat
  | [], off, i => (i, off)
  | d :: ds, off, i => if d.len ≤ off then sglPos ds (off - d.len) (i + 1) else (i, off)

/-- Where byte `off` of a command's transfer lies in host memory: host address, SGL descriptor, byte offset within it. -/
def Cmd.hostPos (c : Cmd) (off : Nat) : Nat × Nat × Nat :=
  if sqSgl c.sqe then
    let p := sglPos c.sgl off 0
    (((c.sgl[p.1]?).map (fun d => d.addr + p.2)).getD (sqDp1 c.sqe), p.1, p.2)
  else (sqDp1 c.sqe + off, 0, 0)

/-- ARG0 to ARG3 of a descriptor (Table DCK-2) of a task for segment `g` of a host command; ARG3 of HOST_COPY is in log entry
195. -/
def State.hostArgs (s : State) (c : Cmd) (g : Seg) : Nat :=
  let blk := match s.srcTract c with
    | some t => (s.tract t).blkBytes
    | none => 512
  let p := c.hostPos (g.first * blk)
  let arg3 := if sqOp c.sqe = 0x06 then bytesAt c.sqe 40 3 else 0
  (sqLba c.sqe + g.first) * blk % 2 ^ 64 + 2 ^ 64 * ((if sqSgl c.sqe then sqDp1 c.sqe else p.1) % 2 ^ 64)
    + 2 ^ 128 * (g.len * blk % 2 ^ 32 + 2 ^ 32 * (p.2.1 % 256) + 2 ^ 40 * (p.2.2 % 2 ^ 24)) + 2 ^ 192 * arg3

/-- A task's descriptor (Table DCK-2). -/
def State.taskWord (s : State) (t : Task) : Nat :=
  let c := t.tag.bind s.cmd
  let nseg := match c with
    | some c => c.segs.length
    | none => 1
  let flags := b2n t.internal + 2 * b2n t.noPreempt + 4 * b2n (t.deadline != 0) + 8 * b2n t.ctx.isSome + 16 * b2n t.aff.isSome
  let args := match t.internal, c.bind (fun c => (c.segs[t.seg]?).map (s.hostArgs c)) with
    | false, some a => a
    | _, _ => if t.landing.isSome then 2 ^ 192 * (t.payload % 2 ^ 128) else t.payload % 2 ^ 256
  t.kind % 256 + 2 ^ 8 * flags + 2 ^ 16 * (s.tprio t % 8) + 2 ^ 24 * (t.pool % 32) + 2 ^ 32 * (t.aff.getD 0 % 128)
    + 2 ^ 40 * (t.preempts % 8) + 2 ^ 48 * (t.ctx.getD 0 % 2 ^ 14) + 2 ^ 64 * (t.tag.getD 0 % 2 ^ 17)
    + 2 ^ 96 * (t.seg % 256) + 2 ^ 104 * ((nseg - 1) % 256) + 2 ^ 112 * (t.epoch % 2 ^ 16) + 2 ^ 128 * (t.deadline % 2 ^ 32)
    + 2 ^ 160 * (t.ready % 2 ^ 32) + 2 ^ 192 * args

/-- A context record as 256 bytes (Table DCK-5). -/
def Ctx.word (c : Ctx) : Nat :=
  c.desc % 2 ^ 512 + 2 ^ 512 * (c.park % 2 ^ 64) + 2 ^ 576 * (c.haddr % 2 ^ 64) + 2 ^ 640 * (c.sglIdx % 2 ^ 32)
    + 2 ^ 672 * (c.sglOff % 2 ^ 32) + 2 ^ 704 * (c.tweak % 2 ^ 64) + 2 ^ 768 * (c.pin % 2 ^ 64) + 2 ^ 832 * (c.pinKind % 256)
    + 2 ^ 840 * (c.reason % 256) + 2 ^ 896 * (c.hard % 2 ^ 128) + 2 ^ 1024 * (c.user % 2 ^ 1024)

/-- Content of B07 at 64-byte line `n` (R279): 16,384 context records of four lines. -/
def State.ctxLine (s : State) (n : Nat) : Nat :=
  match Map.get none s.dck.ctxs (n / 4) with
  | some c => bits c.word (512 * (n % 4)) 512
  | none => 0

end Sys2Proof.Machine
end

