-- ==== Sys2Proof/Machine/Tally.lean ====
section
/-! DEFINITION. The Tally's steps: destage and map updates, map pages, the journal, checkpoints, rebuild and the probe
(R195 to R242, R878, R882, R883). -/

namespace Sys2Proof.Machine
open Sys2Proof

/-! ### Destage (R215, R216, R882, R886) -/

/-- Rule that acknowledges the write of a line; 1 where the write has left the ledger. -/
def State.lineAck (s : State) (l : Line) : Nat :=
  match l.cmd.bind s.cmd with
  | some c => c.ack
  | none => 1

/-- Every block of an ATOMIC_WRITE, and of both commands of a fused pair, is in the write buffer (R143). -/
def State.atomicWhole (s : State) (c : Cmd) : Bool :=
  let whole (c : Cmd) : Bool := !c.ended && c.segs.all (fun g => g.ended && g.done == g.len)
  sqOp c.sqe != 0x08 || (whole c && (match c.fused.bind s.cmd with
    | some d => whole d
    | none => true))

/-- A line that destage may take: acknowledged, or of a write that completes only when destaged and is mirrored as far
as it will be; of an atomic write only once all of it is there, so that no part of it can be left alone on the media (R134,
R143, R215). -/
def State.destageable (s : State) (l : Line) : Bool :=
  !l.tasked && l.jseq.isNone && l.superBy.isNone
    && (l.acked || (s.lineAck l == 2 && (l.mirrored || !s.mirroring) && (match l.cmd.bind s.cmd with
      | some c => s.atomicWhole c
      | none => true)))

/-- The next line to destage: lines of FUA writes first, then in order of acknowledgement (R215). -/
def State.nextLine (s : State) : Option (Nat × Line) :=
  let c := s.tly.lines.filterMap (fun e => match e.2 with
    | some l => if s.destageable l then some (e.1, l) else none
    | none => none)
  match List.find? (fun (x : Nat × Line) => !x.2.acked) c with
  | some x => some x
  | none => c.foldl (fun o x => match o with
    | none => some x
    | some y => if x.2.ackNo < y.2.ackNo then some x else some y) none

/-- DESTAGE (R215): makes a DESTAGE task for the next line, unless the journal ring holds destage back (R227) or the
spillway refuses the task (R256). -/
def execDestage (s : State) : Res :=
  .next (s.when (!s.on F.TLY_STAT_DESTAGE_STALL) (fun s =>
    match s.nextLine with
    | none => s
    | some x =>
      let t : Task := { kind := 0x10, internal := true, prio := s.iprio 0x10, pool := 0
                        epoch := s.rd F.GLB_EPOCH_NEXT, payload := x.1 }
      match s.newTask t with
      | some r => r.1.updLine x.1 (fun l => { l with tasked := true })
      | none => s.spillRefused t.prio))

/-- Sources of the IU's blocks for the destage of line `b`: the line itself, then the highest lower line held that
covers the block, then the map (R216, R425). -/
def State.mergeOf (s : State) (b : Nat) (l : Line) : List Src :=
  let tr := s.tract l.tract
  let e := s.entry (tr.page l.iu) (l.iu % 2048)
  let ls := (s.ownLines l.tract l.iu).filter (fun x => x.1 ≤ b)
  s.mergeSrc (ls ++ s.foreignLines l.tract l.iu) e tr.blkBytes tr.perIu

/-- A FLUSH, or a write that completes only when destaged, waits for a line (R883). -/
def State.lineUrgent (s : State) (b : Nat) (l : Line) : Bool :=
  (!l.acked && s.lineAck l == 2) || l.fua || s.qqp.cmds.any (fun e => match e.2 with
    | some c => c.waitLines.contains b
    | none => false)

/-- Places a line whose merge is complete, in the next group of the round robin with room (R215, R882). A write that completes
only when destaged ends with CAPACITY where R879 says so. -/
def State.placeLine (s : State) (b : Nat) : State :=
  match s.line b with
  | none => s
  | some l =>
    let tr := s.tract l.tract
    let gs := s.destGroups l.tract
    let order := gs.filter (fun g => s.tly.rrGroup < g) ++ gs.filter (fun g => g ≤ s.tly.rrGroup)
    let prio := s.iprio 0x10
    let r := order.foldl (fun (r : State × Option (Nat × Nat)) g => match r.2 with
      | some _ => r
      | none => match r.1.place g 0 tr.secs prio with
        | some (s', a) => (s', some (g, a))
        | none => r) (s, none)
    match r.2 with
    | none =>
      match l.cmd, l.cmd.bind s.cmd with
      | some k, some c =>
        if c.ack = 2 ∧ ¬ c.completed ∧ ¬ c.ended ∧ s.noMedia l.tract then r.1.failCmd k 0x0D 4 0 else r.1
      | _, _ => r.1
    | some (g, a) =>
      let s := { r.1 with tly.rrGroup := g }.updLine b (fun l => { l with place := some a })
      if s.lineUrgent b l then s.padFor a tr.secs prio else s

/-- The merge of a handed-over line has all it needs: its blocks are fixed and the IU is placed (R216, R217). An IU whose
merge encrypts zero fill waits until its KID is loaded (R539). -/
def State.mergeDone (s : State) (b : Nat) : State :=
  match s.line b with
  | none => s
  | some l =>
    if l.place.isSome ∨ ¬ l.handed ∨ l.superBy.isSome then s
    else
      let tr := s.tract l.tract
      let srcs := s.mergeOf b l
      if l.merged ≠ [] then s.placeLine b
      else if missing l.got srcs ≠ [] then s
      else if tr.kid ≠ 0 ∧ ¬ s.on F.CRY_KEY_STAT_LOADED tr.kid
          ∧ srcs.any (fun x => x.line.isNone && x.media.isNone && x.blk == some (Blk.data 0)) then s
      else
        let bl := srcs.zipIdx.map (fun x => match blockOf l.got tr.blkBytes x.2 x.1 with
          | some (.inl v) => s.cipherOf l.tract (l.iu * tr.perIu + x.2) x.1 v
          | _ => Blk.poison)
        (s.updLine b (fun l => { l with merged := bl })).placeLine b

/-- Priority of the work on a line: that of its DESTAGE or REPLAY_FOREIGN task (R246). -/
def State.linePrio (s : State) (l : Line) : Nat := s.iprio (if l.replay then 0x15 else 0x10)

/-- Hand-over of line `b` by its DESTAGE task (R881, R886). The flag is false while the task waits for the map page. -/
def State.handOver (s : State) (b w : Nat) : State × Bool :=
  match s.line b with
  | none => (s, true)
  | some l =>
    if l.superBy.isSome then (s, true)
    else
      let r := s.needPage ((s.tract l.tract).page l.iu) (.task w) (s.linePrio l)
      if ¬ r.2 then (r.1, false)
      else
        let s := r.1.updLine b (fun l => { l with handed := true })
        let need := missing l.got (s.mergeOf b l)
        let s := if need = [] then s else s.askSectors (.merge b) (s.iprio 0x10) l.tract l.iu need
        let tag := ((s.task w).bind (fun t => t.tag)).getD 0
        let s := s.skidReads (s.skidderOf w) tag (s.linePrio l) (s.tract l.tract).blkBytes
          (lineReads (s.tract l.tract).perIu (l.iu * (s.tract l.tract).perIu) (s.mergeOf b l))
        (s.mergeDone b, true)

/-- Lines whose merge is done and that found no free stripe are placed as soon as one can be opened (R882). -/
def State.placePending (s : State) : State :=
  (s.tly.lines.filterMap (fun e => match e.2 with
    | some l => if l.handed ∧ l.merged ≠ [] ∧ l.place.isNone ∧ l.superBy.isNone ∧ l.jseq.isNone then some e.1 else none
    | none => none)).foldl State.placeLine s

/-- Merges that waited for a KID go on once it is loaded (R539). -/
def State.resumeMerges (s : State) : State :=
  (s.tly.lines.filterMap (fun e => match e.2 with
    | some l => if l.handed ∧ l.merged = [] ∧ l.place.isNone ∧ l.jseq.isNone then some e.1 else none
    | none => none)).foldl State.mergeDone s

/-- PAGE_ROW_PAD_TIMER (R883): a page row that has received no new IU for 1 ms is padded and programmed. -/
def execPageRowPadTimer (stripe : Nat) (s : State) : Res :=
  .next (s.when (decide ((s.stripe stripe).st = .opened) && (s.stripe stripe).fresh)
    (fun s => s.padRow stripe (s.iprio 0x10)))

/-! ### Map updates (R24, R183, R218 to R220, R367) -/

/-- Every line of the IU with a lower BSEQ has been acknowledged, or its write has ended (R24). -/
def State.lowerSettled (s : State) (b : Nat) (l : Line) : Bool :=
  (s.ownLines l.tract l.iu).all (fun x => decide (b ≤ x.1) || x.2.acked || (match x.2.cmd.bind s.cmd with
    | some c => c.completed
    | none => true))

/-- Lines journalled together with line `b`: those of its ATOMIC_WRITE or fused pair (R219). -/
def State.groupOf (s : State) (b : Nat) (l : Line) : List Nat :=
  match l.cmd, l.cmd.bind s.cmd with
  | some k, some c =>
    if sqOp c.sqe = 0x08 then
      let ks := k :: c.fused.toList
      s.tly.lines.filterMap (fun e => match e.2 with
        | some x => if (match x.cmd with
            | some j => ks.contains j
            | none => false) && x.superBy.isNone && x.jseq.isNone then some e.1 else none
        | none => none)
    else [b]
  | _, _ => [b]

/-- The update of one line's entry, without its journal record: the new entry (R183, R220). -/
def State.updateEntry (s : State) (b : Nat) (l : Line) (a : Nat) : State × JRec :=
  let tr := s.tract l.tract
  let page := tr.page l.iu
  let e := s.entry page (l.iu % 2048)
  let n := mkEntry a true false false (4096 ≤ l.tract) (eWver e + 1)
  let s := s.setEntry l.tract page (l.iu % 2048) n
  let s := if eValid e then s.lowerValid (eMaddr e) tr.secs else s
  let s := { s with tly.lastBseq := Map.set 0 s.tly.lastBseq (iuKey l.tract l.iu) b }
  (s, { ty := 0x01, flags := foreignFlag l.tract, tract := tractId l.tract, arg0 := l.iu, arg1 := n })

/-- The sectors a line's destage programmed are stale (R24, R220). -/
def State.stalePlace (s : State) (b : Nat) : State :=
  match s.line b with
  | some l => match l.place with
    | some a => (s.updLine b (fun l => { l with place := none })).lowerValid a (s.tract l.tract).secs
    | none => s
  | none => s

/-- An update of the IU by a line of a higher BSEQ has been made already (R24). -/
def State.outdated (s : State) (b : Nat) (l : Line) : Bool := decide (b < Map.get 0 s.tly.lastBseq (iuKey l.tract l.iu))

/-- Updates the entries of a group of lines and journals them as one group (R218, R219). A line whose IU a higher one has
updated is refused, and its sectors are stale (R24). -/
def State.updateLines (s : State) (bs : List Nat) : State :=
  let r := bs.foldl (fun (r : State × List (Nat × JRec)) b => match r.1.line b with
    | some l => match l.place with
      | some a =>
        if r.1.outdated b l then (r.1.stalePlace b, r.2)
        else
          let x := r.1.updateEntry b l a
          (x.1, r.2 ++ [(b, x.2)])
      | none => r
    | none => r) (s, [])
  let recs := r.2.map Prod.snd
  let recs := if recs.length = 1 then recs else asGroup recs
  let s := ((r.2.map Prod.fst).zip recs).foldl (fun s x =>
    let q := s.jseq
    ((s.journal x.2).updLine x.1 (fun l => { l with jseq := some q })).countProgrammed (fun b _ => b == x.1)) r.1
  (s.journalMirrored).ckptCheck

/-- Refuge stripes that satisfy a test are erased back into the reserve (R386, R426). -/
def State.eraseRefuge (s : State) (p : Nat → Bool) : State :=
  let ks := (s.med.stripes.filter (fun e => decide (e.2.st = .refuge) && p e.1)).map Prod.fst
  ks.foldl (fun s k => (s.updStripe k (fun x => { x with st := .closed, rows := [] })).eraseCheck k) s

/-- Restored lines of a refuge that have reached DESTAGED; when none is left the refuge stripes are erased (R386). -/
def State.refugeCheck (s : State) : State :=
  if s.med.save.isNone ∨ s.lve.pfTaken then s
  else
    let left := s.med.restored.filter (fun b => match s.line b with
      | some l => !l.destaged && l.superBy.isNone
      | none => false)
    let s := { s with med.restored := left }
    if left ≠ [] then s
    else
      { s.eraseRefuge (fun k => !bit s.lve.foreign (k / 2 ^ 24)) with med.save := none }

/-- MAP_UPDATE for a line (R24, R218, R219, R881). -/
def State.updateLine (s : State) (b : Nat) : State :=
  match s.line b with
  | none => s
  | some l =>
    if ¬ l.programmed ∨ l.jseq.isSome then s
    else if l.superBy.isSome ∨ s.outdated b l then s.stalePlace b
    else
      let bs := s.groupOf b l
      let ls := bs.filterMap s.line
      if ¬ ls.all (fun x => x.programmed) ∨ ¬ bs.all (fun i => match s.line i with
          | some x => x.acked || s.lowerSettled i x
          | none => true) then s
      else
        let r := ls.foldl (fun (r : State × Bool) x =>
          let y := r.1.needPage ((r.1.tract x.tract).page x.iu) (.line b) (s.linePrio x)
          (y.1, r.2 && y.2)) (s, true)
        if r.2 then (r.1.updateLines bs).refugeCheck else r.1

/-- Priority of the task that relocates a stripe (R246). -/
def State.movePrio (s : State) (k : Nat) : Nat :=
  match s.stripeTask k with
  | some (_, x) => s.tprio x
  | none => s.iprio 0x11

/-- MAP_UPDATE for a relocated IU (R367, Table TLY-7): refused, counted and stale unless the entry still names the old
place with the WVER read. -/
def State.updateMove (s : State) (t iu : Nat) : State :=
  match s.med.moves.find? (fun m => m.tract == t && m.iu == iu && m.programmed) with
  | none => s
  | some m =>
    match m.place with
    | none => s
    | some a =>
      let tr := s.tract t
      let page := tr.page iu
      let r := s.needPage page (.move t iu) (s.movePrio m.src)
      if ¬ r.2 then r.1
      else
        let s : State := { r.1 with med.moves := r.1.med.moves.filter (fun x => x ≠ m) }
        let e := s.entry page (iu % 2048)
        if eValid e ∧ eMaddr e = m.old ∧ eWver e = m.wver then
          let n := mkEntry a true false false (4096 ≤ t) m.wver
          let s := s.setEntry t page (iu % 2048) n
          let s := s.journal { ty := 0x01, flags := foreignFlag t, tract := tractId t, arg0 := iu, arg1 := n }
          (((s.journalMirrored).lowerValid m.old tr.secs).ckptCheck).relocStep m.src
        else ((s.bump F.TLY_CAS_FAILS).lowerValid a tr.secs).relocStep m.src

/-- MAP_UPDATE (R218). -/
def execMapUpdate (u : Upd) (s : State) : Res :=
  .next (s.when true (fun s => match u with
    | .line b => s.updateLine b
    | .move t iu => s.updateMove t iu))

/-! ### Map pages (R194, R195, R202 to R204, R234) -/

/-- The background task of R234 starts the load of the next page that waits for replay. -/
def State.replayNext (s : State) : State :=
  match (s.tly.replay.map Prod.fst).find? (fun p => (Map.get none s.tly.frames p).isNone && (s.load p).isNone) with
  | some p =>
    if 4096 ≤ s.tly.loads.length then s
    else if s.isFresh p then (s.needPage p (.line 0) 7).1
    else { s with tly.loads := Map.set none s.tly.loads p (some { start := s.time, prio := 7 }) }.bump F.TLY_FAULTS
  | none => s

/-- What waited for a page goes on (R202, R881): tasks are woken, map updates are made. -/
def State.resume (s : State) (w : Waiter) : State :=
  match w with
  | .line b => s.updateLine b
  | .move t iu => s.updateMove t iu
  | w => s.wake w

/-- Entries of a map page from its four sectors as the media read delivered them; none where one is lost (R204). -/
def pageEntries (flash : List Nat) (got : List (Nat × Option Blk)) : Option (List Nat) :=
  let secs := flash.map (fun a => match got.find? (fun x => x.1 == a) with
    | some (_, some (.data v)) => some v
    | _ => none)
  if secs.any Option.isNone then none
  else some (secs.flatMap (fun x => (List.range 512).map (fun i => bits (x.getD 0) (64 * i) 64)))

/-- Media addresses of the four sectors of a map page. -/
def State.pageSectors (s : State) (a : Nat) : List Nat := (List.range 4).map (s.maPlus a)

/-- A loaded map page is installed in its frame (R202, R204): LOADING is cleared; a page that is lost is POISONED and DIRTY.
Records that wait for it are applied, and what waited for it goes on. A run-ahead load shows in no counter (R213). -/
def State.installPage (s : State) (mpn : Nat) (l : Load) (entries : Option (List Nat)) : State :=
  let s := s.updFrame mpn (fun f => { f with loading := false, dirty := entries.isNone })
  let es := entries.getD (List.replicate 2048 (2 ^ 50))
  let s := es.zipIdx.foldl (fun s e =>
    { s with tly.ent := Map.set trimmedEntry s.tly.ent (2048 * mpn + e.2) (setBits e.1 51 1 0) }) s
  let s := if entries.isNone then s.post E.TLY_MAP_PAGE_LOST (tractId (s.pageTract mpn)) mpn else s
  let s := s.replayPage mpn
  let s : State := { s with tly.loads := Map.erase s.tly.loads mpn }
  let s := if l.runAhead then s else s.raise F.TLY_FAULT_NS_MAX (s.time - l.start)
  let s := l.waiters.foldl State.resume s
  s.slotFreed.replayNext

/-- MAP_PAGE_INSTALLED (R202, R204): every sector of the page has come from media address `flash` for frame `frame`. -/
def execMapPageInstalled (mpn frame flash : Nat) (s : State) : Res :=
  .next (s.when true (fun s => match s.load mpn, Map.get none s.tly.frames mpn with
    | some l, some f =>
      let secs := s.pageSectors f.flash
      if f.idx = frame ∧ f.flash = flash ∧ l.asked ∧ secs.all (fun a => l.got.any (fun x => x.1 == a))
      then s.installPage mpn l (pageEntries secs l.got) else s
    | _, _ => s))

/-- A frame's page lies on flash at `place` (R194, R195); DIRTY stays set when the frame changed meanwhile. A checkpoint has the
page it needs unless the write began before it and left the page DIRTY (R230): it is then written again. -/
def State.writtenBack (s : State) (mpn place : Nat) (f : Frame) : State :=
  let s := s.updFrame mpn (fun f => { f with wb := false, wbPlace := none, flash := place, dirty := f.gen != f.wbGen })
  let s := if f.flash = 0 then s else s.lowerValid f.flash 4
  let s := (s.bump F.TLY_WRITEBACKS).dirChanged mpn
  let s := if mpn ∈ s.tly.ckPages ∧ f.gen ≠ f.wbGen ∧ f.wbSeq < s.tly.ckBegin then s.startWb mpn
    else { s with tly.ckPages := s.tly.ckPages.filter (· ≠ mpn) }
  (s.journal { ty := 0x03, flags := if 2 ^ 26 ≤ mpn then 4 else 0, arg0 := mpn, arg1 := place }).journalMirrored

/-- MAP_PAGE_WRITEBACK_DONE (R194, R195): the page's sectors at `place` in a map stripe are programmed with their parity. -/
def execMapPageWritebackDone (mpn place : Nat) (s : State) : Res :=
  .next (s.when true (fun s => match Map.get none s.tly.frames mpn with
    | none => s
    | some f => if f.wb ∧ f.wbPlace = some place ∧ s.placed place 4 then s.writtenBack mpn place f else s))

/-! ### Journal pages (R225, R413) -/

/-- JOURNAL_PAGE_TIMER (R225): 1 ms after its first record the open page is filled with PAD records and handed to its
program. -/
def execJournalPageTimer (s : State) : Res := .next (s.when true (fun s => s.closeJPage))

/-- A journal page is on flash: every record below the oldest page still missing counts as programmed (R218, R413). -/
def State.pageProgrammed (s : State) (p : JPage) (a : Nat) : State :=
  let l := s.tly.jPages.filter (fun x => x ≠ p)
  let top := l.foldl (fun n p => min n p.first) s.tly.jOpen
  { s with tly.jPages := l, tly.jFlash := s.tly.jFlash ++ [(p.last, a)], tly.jProg := top - 1 }.releaseProgrammed

/-- JOURNAL_PAGE_PROGRAMMED (R225, R413): the sectors of the page that begins at SEQ `first` are programmed with their parity. -/
def execJournalPageProgrammed (first : Nat) (s : State) : Res :=
  .next (s.when true (fun s => match s.tly.jPages.find? (fun p => p.first == first) with
    | some p => match p.place with
      | some a => if s.placed a 4 then s.pageProgrammed p a else s
      | none => s
    | none => s))

/-! ### Checkpoints (R229 to R232, R884, R885) -/

/-- Value 1 written to TLY_CKPT_GO starts a checkpoint, refused while one runs (R232); other values are ignored. -/
def State.ckptGo (s : State) (req : Req) (value : Nat) : State :=
  if value ≠ 1 then s
  else if s.on F.TLY_STAT_CKPT_ACTIVE then s.refuseWrite req (F.TLY_CKPT_GO.off 0 0)
  else s.ckptStart false

/-- TLY_CKPT_GO (R232). -/
def execTlyCkptGo (req : Req) (value : Nat) (s : State) : Res := .next (s.when true (fun s => s.byReq req (F.TLY_CKPT_GO.off 0 0) (fun s => s.ckptGo req value)))

/-- Own records below the last checkpoint's CKPT_BEGIN leave the journal ring (R227), and the sectors of journal pages that
hold no other record are stale. -/
def State.freeRecords (s : State) : State :=
  let old := s.tly.jFlash.filter (fun p => decide (p.1 < s.tly.ckLast))
  let s : State := { s with
    tly.jr := Map.keep (fun q _ => decide (s.tly.ckLast ≤ q)) s.tly.jr
    tly.jFlash := s.tly.jFlash.filter (fun p => !decide (p.1 < s.tly.ckLast)) }
  (old.foldl (fun s p => s.lowerValid p.2 4) s).ringCheck

/-! ### Tracts leave FROZEN, and the probe (R236, R242) -/

/-- A READY or READ_ONLY tract becomes FROZEN (Table QQP-4). -/
def Tract.freeze (t : Tract) : Tract :=
  if t.st = .ready ∨ t.st = .readOnly then { t with was := t.st, st := .frozen } else t

/-- A tract leaves FROZEN for the state it had before (Table QQP-4). -/
def Tract.thaw (t : Tract) : Tract := if t.st = .frozen then { t with st := t.was } else t

/-- Own tracts, or foreign ones, leave FROZEN. -/
def State.thawTracts (s : State) (foreign : Bool) : State :=
  { s with tly.tracts := Map.mapAll {} (fun k t => if (4096 ≤ k : Bool) = foreign then t.thaw else t) s.tly.tracts }

/-- A probe (R242): the tract selected, the IU committed by both halves; the entry of a resident page, else 0. -/
def State.probe (s : State) : State :=
  let t := s.rd F.TLY_PROBE_TRACT
  let key := t % 4096 + (if bit t 12 then 4096 else 0)
  let iu := s.rd64 F.TLY_PROBE_IU_LO F.TLY_PROBE_IU_HI
  let tr := s.tract key
  let out := decide (tr.st = .absent) || decide (tr.entries ≤ iu)
  let page := tr.page iu
  let res := !out && s.resident page
  let e := if res then s.entry page (iu % 2048) else 0
  let s := (s.bump F.TLY_LOOKUPS).put64 F.TLY_PROBE_ENTRY_LO F.TLY_PROBE_ENTRY_HI e
  ((s.put F.TLY_PROBE_STAT_DONE 1).flag F.TLY_PROBE_STAT_RESIDENT res).flag F.TLY_PROBE_STAT_RANGE out

/-- TLY_PROBE (R242): the write of TLY_PROBE_IU_HI commits both halves of the IU index and starts the probe. -/
def execTlyProbe (iu : Nat) (s : State) : Res :=
  .next (s.when true (fun s => (s.put64 F.TLY_PROBE_IU_LO F.TLY_PROBE_IU_HI iu).probe))

end Sys2Proof.Machine
end

