-- ==== Sys2Proof/Machine/Deck.lean ====
section
/-! DEFINITION. The Deck's steps: dispatch, pre-emption, parking, the spillway, timeouts, and the messages of landing
engines (R255 to R291, R645 to R647, R886). -/

namespace Sys2Proof.Machine
open Sys2Proof

/-! ### Dispatch (R245, R265 to R271, R285 to R288, R886) -/

/-- Engine `e` may take tasks of pool `p`: registered in it, not leaving, and where DECK_MODE 1 or 3 limits a pool of
more than 64 engines, among its first 64 engine IDs (R265). -/
def State.mayTake (s : State) (p e : Nat) : Bool :=
  s.rd F.DCK_ENG_STAT_POOL e == p && !(s.eng e).leaving && s.engSt e != 0 && s.engSt e != 4
    && (!(s.deckMode == 1 || s.deckMode == 3)
      || decide (((List.range e).filter (fun i => s.engSt i != 0 && s.rd F.DCK_ENG_STAT_POOL i == p)).length < 64))

/-- Ledger entry of an internal task at its first dispatch (R245, R468). -/
def internalCmd (t : Task) (tract lba now : Nat) : Cmd :=
  { internal := true, kind := t.kind, iTract := tract, iLba := lba, tAdmit := now, tPhase := now, epoch := t.epoch
    prio := t.prio }

/-- Tract and first block of the host data an internal task moves. -/
def State.taskData (s : State) (t : Task) : Nat × Nat :=
  if t.kind = 0x10 ∨ t.kind = 0x15 then
    match s.line t.payload with
    | some l => (tractId l.tract, l.iu * (s.tract l.tract).perIu)
    | none => (0, 0)
  else (0, 0)

/-- Gives an internal task its tag; none while no internal tag is free. -/
def State.giveTag (s : State) (n : Nat) (t : Task) : Option State :=
  if ¬ t.internal ∨ t.tag.isSome then some s
  else match s.internalTag with
    | none => none
    | some k =>
      let d := s.taskData t
      some ((s.drawn.setCmd k (internalCmd t d.1 d.2 s.us)).updTask n (fun x => { x with tag := some k }))

/-- What a hard engine does with an internal task as it takes it: DESTAGE and REPLAY_FOREIGN hand their line over,
PARITY programs a row's parity, the rest begin to read their stripe. -/
def State.startWork (s : State) (n : Nat) (t : Task) : State :=
  if t.kind = 0x10 ∨ t.kind = 0x15 then
    let r := s.handOver t.payload n
    if r.2 then r.1.endTask n
    else
      let page := match r.1.line t.payload with
        | some l => (r.1.tract l.tract).page l.iu
        | none => 0
      (r.1.leaveEngine n).updTask n (fun x => { x with st := .waitPage page })
  else if t.kind = 0x13 then
    let k := t.payload / 4096
    let row := t.payload % 4096
    if s.allOps.any (fun o => decide (o.who = .row k row true)) then s
    else (parityMembers k (s.stripe k).members).foldl (fun s a =>
      s.enqueue { kind := .prog, addr := a + row * 16, prio := s.tprio t, who := .row k row true, slc := (s.stripe k).slc }) s
  else if t.kind = 0x11 ∨ t.kind = 0x12 ∨ t.kind = 0x14 then s.relocStep t.payload
  else s

/-- Sends a message to a landing. -/
def State.tell (s : State) (m : EngMsg) : State := { s with dck.sent := s.dck.sent ++ [m] }

/-- The DISPATCH message of task `n` (R281): its descriptor, SLOT1 set for a slot-1 task (R288), and with RESUME the USER context. -/
def State.dispatchMsg (s : State) (n e : Nat) (slot1 : Bool) : EngMsg :=
  match s.task n with
  | some t =>
    let ctx := match t.ctx with
      | some c => (Map.get none s.dck.ctxs c).getD {}
      | none => {}
    .dispatch e n t.ctx.isSome ctx.user slot1 (s.taskWord t + 2 ^ 47 * b2n slot1)
  | none => .dispatch e n false 0 slot1 0

/-- Dispatches task `n` to engine `e`. A task whose epoch a unit would refuse as stale is requeued once with the current
epoch if it is internal; a second time, or if it is a host task, it ends with EPOCH_STALE (R285). -/
def State.dispatchTo (s : State) (n e : Nat) (slot1 : Bool) : State :=
  match s.task n with
  | none => s
  | some t =>
    let stale := decide (1 < (s.rd F.GLB_EPOCH_NEXT + 2 ^ 32 - t.epoch) % 2 ^ 32)
    if stale ∧ t.internal ∧ ¬ t.requeued then
      s.updTask n (fun x => { x with requeued := true, epoch := s.rd F.GLB_EPOCH_NEXT })
    else if stale ∧ t.internal then s.endTask n
    else match s.giveTag n t with
    | none => s
    | some s =>
      let m := s.dispatchMsg n e slot1
      let s := s.dispatch n e slot1
      if isLandingEng e then s.tell m else if slot1 then s else s.startWork n t

/-- TASK_DISPATCH (R266 to R270, R286): a free engine of the pool takes its best ready task; in prefetch-slot mode an
engine with an empty second slot does too. -/
def execTaskDispatch (pool engine : Nat) (s : State) : Res :=
  let slot1 := s.poolMode pool == 2 && s.engSt engine == 2 && (s.taskOn engine true).isNone
  .next (s.when (!s.lve.stopped && s.mayTake pool engine && (s.engSt engine == 1 || slot1)) (fun s =>
    match s.choose pool engine with
    | some x => s.dispatchTo x.1 engine slot1
    | none => s))

/-! ### Pre-emption (R272 to R278) -/

/-- The best of the ready tasks that have waited PREEMPT_WAIT. -/
def State.waiting (s : State) (p : Nat) : Option (Nat × Task) :=
  s.best (s.tasksWhere (fun t => decide (t.st = .ready) && t.pool == p
    && decide (16 * s.rd F.DCK_POOL_CFG_PREEMPT_WAIT p ≤ s.time - t.listed)))

/-- A running task can be pre-empted (R273, Table DCK-6). -/
def State.victimOk (s : State) (p : Nat) (t : Task) : Bool :=
  match t.st with
  | .running e false =>
    t.pool == p && !t.noPreempt && decide (t.preempts < s.rd F.DCK_POOL_CFG_PREEMPT_MAX p) && s.engSt e == 2
      && (!isLandingEng e || (s.eng e).preemptable) && decide (t.notAsked ≤ s.time)
  | _ => false

/-- The running task with the largest priority number that qualifies, the most recently dispatched among equals. -/
def State.victim (s : State) (p a : Nat) : Option (Nat × Task) :=
  let l := (s.tasksWhere (s.victimOk p)).filter (fun x => a + s.rd F.DCK_POOL_CFG_PREEMPT_GAP p ≤ s.tprio x.2)
  l.foldl (fun o x => match o with
    | none => some x
    | some y =>
      if s.tprio y.2 < s.tprio x.2 ∨ (s.tprio y.2 = s.tprio x.2 ∧ y.2.started ≤ x.2.started) then some x else some y) none

/-- No engine of a pool is free. -/
def State.noFree (s : State) (p : Nat) : Bool :=
  (List.range 352).all (fun e => !(s.mayTake p e && s.engSt e == 1))

/-- Chooses a victim in pool `p`: a landing engine is asked, a hard engine parks at its next boundary (R272, R275,
R281). -/
def State.startPreempt (s : State) (p : Nat) : State :=
  if ¬ s.on F.DCK_CTL_PREEMPT_EN ∨ s.rd F.DCK_POOL_CFG_PREEMPT_GAP p = 0 ∨ s.poolMode p = 2
      ∨ (Map.get none s.dck.preempting p).isSome ∨ ¬ s.ctxFree ∨ ¬ s.noFree p then s
  else match s.waiting p with
    | none => s
    | some x =>
      match s.victim p (s.tprio x.2) with
      | none => s
      | some v =>
        let s : State := { s with dck.preempting := Map.set none s.dck.preempting p (some v.1) }
        match v.2.st with
        | .running e _ =>
          if isLandingEng e then
            { s.put F.DCK_ENG_STAT_STATE 3 e with dck.sent := s.dck.sent ++ [.preempt e (v.2.tag.getD 0)] }
          else s
        | _ => s

/-- PREEMPTION_START (R272). -/
def execPreemptionStart (pool : Nat) (s : State) : Res := .next (s.when true (fun s => s.startPreempt pool))

/-! ### Parking (R200, R201, R275 to R280) -/

/-- Pinned translation of a context record. -/
def pinOf (l : List Src) : Nat × Nat :=
  match l with
  | [] => (0, 0)
  | x :: _ => match x.line, x.media with
    | some b, _ => (2, b)
    | none, some a => (1, a)
    | none, none => (0, 0)

/-- The context record of a skidder's segment: the park point is the highest 4 KiB boundary wholly delivered, or the
transfer's start (R200). The tweak position is the LBA there (R550). -/
def State.parkRec (s : State) (n : Nat) (c : Cmd) (g : Seg) (reason : Nat) : Ctx :=
  let blk := match s.srcTract c with
    | some t => (s.tract t).blkBytes
    | none => 512
  let start := (sqLba c.sqe + g.first) * blk
  let at_ := 4096 * ((start + g.done * blk) / 4096)
  let p := pinOf g.pin
  let park := max start at_
  let h := c.hostPos (park - sqLba c.sqe * blk)
  { task := n, park := park, reason := reason, pinKind := p.1, pin := p.2, pins := g.pin ++ g.kept, haddr := h.1, sglIdx := h.2.1
    sglOff := h.2.2, tweak := park / blk, desc := (s.task n).elim 0 s.taskWord }

/-- The load, or the slot, that a task waits for. -/
def State.faultOf (s : State) (n : Nat) : Option TaskSt :=
  match Map.find? (fun _ o => match o with
      | some (l : Load) => l.waiters.contains (.task n)
      | none => false) s.tly.loads with
  | some page => some (.waitPage page)
  | none => if s.tly.slotWait.contains (.task n) then some .waitSlot else none

/-- A skidder's task leaves it parked, with its context saved. -/
def State.parkTask (s : State) (n : Nat) (t : Task) (reason : Nat) (st : TaskSt) : Option State :=
  match t.tag.bind s.cmd with
  | none => none
  | some c =>
    match c.segs[t.seg]? with
    | none => none
    | some g =>
      match s.saveCtx n (s.parkRec n c g reason) with
      | none => none
      | some s =>
        let s := s.updCmd (t.tag.getD 0) (fun c => c.updSeg t.seg (fun g => { g with park := g.done }))
        some ((s.leaveEngine n).updTask n (fun x => { x with st := st, listed := s.time }))

/-- The segment of a skidder's task has reached a 4 KiB boundary of tract byte address (R275). -/
def State.atBoundary (s : State) (t : Task) : Bool :=
  match t.tag.bind s.cmd with
  | none => true
  | some c => match c.segs[t.seg]? with
    | none => true
    | some g =>
      let blk := match s.srcTract c with
        | some t => (s.tract t).blkBytes
        | none => 4096
      (sqLba c.sqe + g.first + g.done) * blk % 4096 == 0

/-- SKIDDER_PARK (R200, R201, R275, R277, R280): a faulting transfer that has moved every IU it had translated parks on
its page, and any pre-emption of it is void; otherwise a pre-empted one parks and returns to the ready list. With no
context slot free it does not park. -/
def execSkidderPark (engine : Nat) (s : State) : Res :=
  .next (s.when true (fun s => match s.taskOn engine false with
    | none => s
    | some n =>
      match s.task n with
      | none => s
      | some t =>
        let pre := Map.get none s.dck.preempting t.pool == some n
        let empty := match (t.tag.bind s.cmd).bind (fun c => c.segs[t.seg]?) with
          | some g => g.pin.isEmpty
          | none => false
        if 64 ≤ engine ∨ t.internal then s
        else match (if empty then s.faultOf n else none) with
        | some st =>
          match (s.voidPreempt n false).parkTask n t 1 st with
          | some s => (s.bump F.SKD_PARKS_FAULT).updCmd (t.tag.getD 0) (fun c => { c with parks := c.parks + 1 })
          | none => if s.ctxFree ∨ t.stall then s else (s.bump F.DCK_CTX_STALLS).updTask n (fun x => { x with stall := true })
        | none =>
          if ¬ pre ∨ ¬ s.atBoundary t then s
          else match s.parkTask n t 2 .ready with
          | some s =>
            let s := { s with dck.preempting := Map.erase s.dck.preempting t.pool }.bump F.DCK_PREEMPTS 1 t.pool
            ((s.bump F.SKD_PARKS_PREEMPT).updCmd (t.tag.getD 0) (fun c => { c with preempts := c.preempts + 1 })).updTask n
              (fun x => { x with preempts := x.preempts + 1 })
          | none => s))

/-! ### Spillway (R253 to R257) -/

/-- Spilled tasks in refill order: highest priority first, arrival order within a priority. -/
def State.spillOrder (s : State) : List (Nat × Task) :=
  (List.range 8).flatMap (fun p => s.tasksWhere (fun t => t.prio == p && decide (t.st = .spilled)))

/-- A task that a stalled producer holds enters once its ring takes it; a landing's CREATE is answered then (R256, R647,
log entry 207). -/
def State.retryCreates (s : State) : State :=
  s.dck.creates.foldl (fun s t => match s.newTask t with
    | some r =>
      let s : State := { r.1 with dck.creates := r.1.dck.creates.erase t }
      match t.landing with
      | some l => { s with dck.sent := s.dck.sent ++ [.createAck l t.token 0] }
      | none => s
    | none => s) s

/-- A spilled descriptor that reads back POISONED or fails its integrity check returns to its producer (R257): a landing is told, the
Tally and the media engines make the task anew. -/
def State.spillLost (s : State) (n : Nat) : State :=
  match s.task n with
  | none => s
  | some t =>
    let s := s.post E.DCK_SPILL_LOST t.kind
    let s := s.endTask n
    match t.landing with
    | some l => { s with dck.sent := s.dck.sent ++ [.descLost l t.token] }
    | none => s.addTask { t with tag := none, ctx := none, requeued := false, st := .ready }

/-- The first 256 spilled descriptors return to the on-chip list, those named in `lost` to their producers (R255, R257); the
entries kept for priorities 0 to 3 stay theirs (R253). An episode of a full ring ends with the ring no longer full. -/
def State.refilled (s : State) (lost : List Nat) : State :=
  let l := s.spillOrder.take 256
  let s := l.foldl (fun s x => if lost.contains x.1 then s.spillLost x.1
    else if s.chipRoom x.2.prio then s.updTask x.1 (fun t => { t with st := .ready }) else s) s
  { s with dck.spillEp := Map.keep (fun p _ => decide (ringSize ≤ s.spilled p)) s.dck.spillEp }

/-- SPILLWAY_REFILL (R255): up to 256 descriptors return while at least 256 entries are free; those named in `lost` are
the descriptors that read back bad. -/
def execSpillwayRefill (lost : List Nat) (s : State) : Res :=
  .next (s.when (decide (s.onChip + 256 ≤ 16384)) (fun s => (s.refilled lost).retryCreates))

/-! ### Timeouts and retries (R283, R284, R443 to R448) -/

/-- Part of a producer's work that a task leaves undone when it ends with TARGET_DOWN. -/
def State.workLost (s : State) (t : Task) : State :=
  if t.kind = 0x10 ∨ t.kind = 0x15 then s.updLine t.payload (fun l => { l with tasked := false })
  else if t.kind = 0x11 ∨ t.kind = 0x12 ∨ t.kind = 0x14 then
    s.updStripe t.payload (fun x => { x with tasked := false, cursor := 0 })
  else s

/-- A task whose retries are spent ends with TARGET_DOWN (R283, R446). -/
def State.taskDown (s : State) (n : Nat) (t : Task) : State :=
  let s := s.post E.RETRY_EXHAUSTED (3 + 0x0A * 256) 0 t.tag
  match t.internal, t.tag with
  | false, some k => s.segEnd k t.seg 0x0A 3 0
  | _, _ => (s.workLost t).endTask n

/-- A timed-out task is abandoned on its landing engine (R283). -/
def State.abandonOn (s : State) (e tag : Nat) : State :=
  if isLandingEng e then
    State.updEng { s with dck.sent := s.dck.sent ++ [EngMsg.abandon e tag] } e (fun x =>
      { x with abandoned := true, yield264 := false, late := false })
  else s

/-- A segment that reads goes back to its last context record, or to its start (R283). A segment that writes keeps the
lines it has committed: writing them again would store the same content. -/
def Cmd.rewind (c : Cmd) (i : Nat) : Cmd :=
  let c := { c with retries := c.retries + 1 }
  if isWriteOp (sqOp c.sqe) then c
  else c.updSeg i (fun g =>
    if g.park = g.done then g
    else { g with done := g.park, pin := [], pinPages := [], kept := [] })

/-- Its undercut reads are cancelled, and its segment is rewound (R359). -/
def State.rewindTask (s : State) (t : Task) : State :=
  match t.internal, t.tag with
  | false, some k => (s.cancelUndercuts (fun o => decide (o.who = Who.cmd k))).updCmd k (fun c => c.rewind t.seg)
  | _, _ => s

/-- A task that exceeds its time leaves its engine: any pre-emption of it is void, a landing engine is told, its segment is
rewound, and the engine's timeout counts (R283, R448). -/
def State.timedOut (s : State) (n : Nat) (t : Task) (e : Nat) : State :=
  let s := ((s.voidPreempt n true).abandonOn e (t.tag.getD 0)).rewindTask t
  (s.leaveEngine n).engTimeout e

/-- TASK_TIMEOUT (R283, R448): the running task `task` exceeds TMO. -/
def execTaskTimeout (task : Nat) (s : State) : Res :=
  .next (s.when true (fun s => match s.task task with
    | none => s
    | some t =>
      match t.st with
      | .running e false =>
        if s.rd F.DCK_POOL_CFG_TMO t.pool = 0 then s
        else
          let s := s.timedOut task t e
          if s.retryLimit ≤ t.retries ∨ s.lve.pfLow then s.taskDown task t
          else s.updTask task (fun x => { x with st := .backoff, retries := x.retries + 1, notOn := some e })
      | _ => s))

/-- RETRY_BACKOFF_EXPIRES (R443, R445): the operation named is tried again. -/
def State.retryTask (s : State) (n : Nat) : State :=
  match s.task n with
  | some t => if t.st = .backoff then s.toReady n else s
  | none => s

/-- A media operation whose LUN timer expired is queued again; where its LUN was felled meanwhile a read goes on to the
stripe rebuild and a program fails (R445). -/
def State.retryOp (s : State) (id step : Nat) : State :=
  match s.med.retry.find? (fun o => o.id == id && o.step == step) with
  | none => s
  | some o =>
    let s : State := { s with med.retry := s.med.retry.filter (fun x => x ≠ o) }
    let fell : Bool := s.lunSt (maCh o.addr) (uOf o.addr) == 15 || s.chFelled (maCh o.addr)
    match o.kind with
    | .read => if fell then { s with med.reads := s.med.reads ++ [{ op := o, stage := 2 }] } else s.enqueue o
    | .prog => match o.who with
      | .row k _ _ => if fell then s.programFailed k o.addr else s.enqueue o
      | _ => s
    | .erase => match o.who with
      | .erase k => if fell then s.memberErased k o.addr false else s.enqueue o
      | _ => s
    | .raw => s

/-! ### Load window (R291) -/

/-- Adds the running time of every task that runs to its pool's busy time. -/
def State.busyAll (s : State) : State :=
  (s.tasksWhere (fun _ => true)).foldl (fun s x => match x.2.st with
    | .running _ false => s.busyTime x.2
    | _ => s) s

/-- Share of its engines' time that a pool was busy in the window of 1 ms, in 1/1024 (R291). -/
def State.poolLoad (s : State) (p : Nat) : Nat :=
  let n := s.poolEngines p
  if n = 0 then 0 else min 1024 (1024 * Map.get 0 s.dck.busy p / (1000000 * n))

/-- Shows the load of every pool. -/
def State.showLoads (s : State) : State :=
  (List.range 32).foldl (fun r p => r.put F.DCK_POOL_LOAD (s.poolLoad p) p) s

/-- POOL_LOAD_WINDOW (R291): the 1 ms window ends. -/
def execPoolLoadWindow (s : State) : Res :=
  .next (s.when true (fun s =>
    let s := s.busyAll.showLoads
    { s with dck.busy := [], dck.winStart := s.time }))

/-! ### Landing engines (R260 to R264, R281, R282, R645 to R647) -/

/-- An asked engine keeps its task: it is not asked again for 100 µs, and another victim is sought (Table DCK-6). -/
def State.declined (s : State) (e : Nat) : State :=
  match s.taskOn e false with
  | none => s
  | some n =>
    let p := s.rd F.DCK_ENG_STAT_POOL e
    let s := (s.put F.DCK_ENG_STAT_STATE 2 e).updTask n (fun x => { x with notAsked := s.time + 100000 })
    let s := (s.updEng e (fun x => { x with yield264 := false })).bump F.DCK_LD_REFUSALS
    let was := Map.get none s.dck.preempting p == some n
    let s := s.voidPreempt n false
    if was then s.startPreempt p else s

/-- LD_PREEMPT_ANSWER_TIMEOUT (R281): as DECLINE, and the engine's timeout count rises. -/
def execLdPreemptAnswerTimeout (engine : Nat) (s : State) : Res :=
  .next (s.when (isLandingEng engine && s.engSt engine == 3) (fun s =>
    ((s.declined engine).updEng engine (fun x => { x with late := true })).engTimeout engine))

/-- REGISTER (R260, R262): the lowest free engine ID, at most 2 for a landing and 256 in all. -/
def execRegister (landing pool : Nat) (preemptable : Bool) (s : State) : Res :=
  .next (s.when true (fun s => if ¬ s.cfg.userOn ∨ 128 ≤ landing then s
    else if pool < 5 ∨ 32 ≤ pool then s.tell (.registerAck landing 0x03 0)
    else if 2 ≤ (s.landingEngines landing).length then s.tell (.registerAck landing 0x04 0)
    else match ((List.range 256).map (· + 96)).find? (fun e => s.engSt e == 0) with
    | none => s.tell (.registerAck landing 0x04 0)
    | some e =>
      let s := ((s.put F.DCK_ENG_STAT_STATE 1 e).put F.DCK_ENG_STAT_POOL pool e).put F.DCK_ENG_STAT_LANDING landing e
      let s := (s.put F.DCK_ENG_STAT_TMOS 0 e).updEng e (fun _ => { preemptable := preemptable })
      (s.poolEmpty pool).tell (.registerAck landing 0 e)))

/-- DEREGISTER (R263): from the landing that registered the engine. -/
def execDeregister (landing engine : Nat) (s : State) : Res :=
  .next (s.when ((s.landingEngines landing).contains engine) (fun s => s.deregister engine))

/-- CREATE (R647): a landing's task enters, or is refused, or waits without an answer while its ring is full. -/
def execCreate (landing token kind pool prio : Nat) (noPreempt : Bool) (aff : Option Nat) (deadline payload : Nat)
    (s : State) : Res :=
  .next (s.when true (fun s => if ¬ s.cfg.userOn then s
    else if kind ≠ 0x20 ∨ pool < 5 ∨ 32 ≤ pool then s.tell (.createAck landing token 0x03)
    else if 8 ≤ (s.dck.creates.filter (fun t => t.landing = some landing)).length then
      s.tell (.createAck landing token 0x04)
    else
      let t : Task :=
        { kind := 0x20, internal := true, prio := prio % 8, pool := pool, aff := aff, noPreempt := noPreempt
          deadline := deadline, landing := some landing, payload := payload, token := token
          epoch := s.rd F.GLB_EPOCH_NEXT }
      match s.newTask t with
      | some r => r.1.tell (.createAck landing token 0)
      | none => { s with dck.creates := s.dck.creates ++ [t] }.spillRefused t.prio))

/-- A message about an abandoned task is discarded and counted (R282). -/
def State.lateMsg (s : State) (e : Nat) : State :=
  (s.updEng e (fun x => { x with abandoned := false })).bump F.DCK_LATE_MSGS

/-- DONE (Table DCK-6): the engine's task ends with the status given; a pre-emption of it is void. -/
def execDone (engine status blocks : Nat) (s : State) : Res :=
  .next (s.when true (fun s => if ¬ isLandingEng engine then s
    else match s.taskOn engine false with
    | none => s.lateMsg engine
    | some n =>
      let s := s.updEng engine (fun x => { x with yield264 := false, late := false })
      let s := match (s.task n).bind (fun t => t.tag) with
        | some k => s.updCmd k (fun c => ({ c with doneBlks := blocks, completed := true }.note status 13 0).toPhase 5 s.us)
        | none => s
      s.endTask n))

/-- A landing engine's task leaves it with its context (R281): a pre-emption counts unless the Deck had asked by R264. -/
def State.yielded (s : State) (engine n ctx : Nat) : State :=
  let x := s.eng engine
  let p := s.rd F.DCK_ENG_STAT_POOL engine
  let s := (s.saveCtx n { task := n, reason := 3, user := ctx % 2 ^ 1024, desc := (s.task n).elim 0 s.taskWord }).getD s
  let s := if x.yield264 then s
    else (s.bump F.DCK_PREEMPTS 1 p).updTask n (fun t => { t with preempts := t.preempts + 1 })
  let s := s.voidPreempt n false
  let s := s.updEng engine (fun x => { x with yield264 := false, late := false })
  (s.leaveEngine n).toReady n

/-- YIELD (R264, Table DCK-6): accepted from an asked engine, or after its answer timer expired. -/
def execYield (engine ctx : Nat) (s : State) : Res :=
  .next (s.when true (fun s => if ¬ isLandingEng engine then s
    else match s.taskOn engine false with
    | none => s.lateMsg engine
    | some n =>
      if s.engSt engine ≠ 3 ∧ ¬ (s.eng engine).late then s.bump F.DCK_LATE_MSGS else s.yielded engine n ctx))

/-- DECLINE (Table DCK-6). -/
def execDecline (engine : Nat) (s : State) : Res :=
  .next (s.when true (fun s => if ¬ isLandingEng engine then s
    else match s.taskOn engine false with
    | none => s.lateMsg engine
    | some _ => if s.engSt engine = 3 then s.declined engine else s.bump F.DCK_LATE_MSGS))

/-- LANDING_MSG_UNKNOWN (R646). -/
def execLandingMsgUnknown (landing code : Nat) (s : State) : Res :=
  .next (s.when (s.cfg.userOn && decide (landing < 128)
    && !([0x01, 0x02, 0x03, 0x10, 0x11, 0x12].contains code)) (fun s => s.bump F.DCK_LATE_MSGS))

end Sys2Proof.Machine
end

