-- ==== Sys2Proof/Machine/Ledger.lean ====
section
/-! DEFINITION. The event ledger's commands and what of the ledgers a reader sees: ring slots, tag entries and the
felled list (R463 to R481, R897). -/

namespace Sys2Proof.Machine
open Sys2Proof

/-- The 32 bytes of an event record (Table FLT-8). -/
def recBytes (r : Rec) : Nat :=
  r.seq + 2 ^ 32 * r.code + 2 ^ 48 * (r.sev + 4 * b2n r.lostBefore) + 2 ^ 56 * r.source + 2 ^ 64 * (r.time % 2 ^ 64)
    + 2 ^ 128 * r.arg0 + (match r.tag with
      | some t => t + 2 ^ 31
      | none => 0) * 2 ^ 160 + 2 ^ 192 * r.arg2

/-- A ring slot; one not yet written is zero (R897). -/
def State.slot (s : State) (i : Nat) : Nat := recBytes (Map.get {} s.evt.ring (i % 4096))

/-- Slots from `i` on, `n` of them, as one number. -/
def State.slots (s : State) (i n : Nat) : Nat :=
  (List.range n).foldr (fun j v => s.slot (i + j) + 2 ^ 256 * v) 0

/-- EVT_ACK (R481): the record number of the first record not yet read; one that goes back or beyond EVT_SEQ is
discarded. -/
def State.evtAck (s : State) (v : Nat) : State :=
  let v := v % 2 ^ 32
  if v ≠ 0 ∧ seqAtOrAfter v (s.rd F.EVT_ACK) ∧ seqAtOrAfter (s.rd F.EVT_SEQ) v then s.put F.EVT_ACK v else s

/-- EVT_ACK (R481). -/
def execEvtAck (req : Req) (value : Nat) (s : State) : Res :=
  .next (s.when true (fun s => s.byReq req (F.EVT_ACK.off 0 0) (fun s => s.evtAck value)))

/-- EVT_TAG_SEL (R469): the 64 bytes of the entry at a tag are copied in one step. -/
def State.evtTagSel (s : State) (v : Nat) : State :=
  let s := s.put F.EVT_TAG_SEL v
  let e := s.ledgerEntry (s.rd F.EVT_TAG_SEL)
  (List.range 16).foldl (fun s i => s.put F.EVT_TAG_DATA (e / 2 ^ (32 * i)) i) s

/-- EVT_TAG_SEL (R469). -/
def execEvtTagSel (req : Req) (value : Nat) (s : State) : Res :=
  .next (s.when true (fun s => s.byReq req (F.EVT_TAG_SEL.off 0 0) (fun s => s.evtTagSel value)))

/-- EVT_RATE_WINDOW_END (R476): the code's 1 ms window ends, with one EVT_SUPPRESSED record, exempt from the limit, if
postings of it were suppressed. -/
def execEvtRateWindowEnd (code : Nat) (s : State) : Res :=
  let w := Map.get {} s.evt.wins code
  .next (s.when (w.limit != 0) (fun s =>
    let s : State := { s with evt.wins := Map.erase s.evt.wins code }
    if w.suppressed = 0 then s else s.evtWrite (s.evtRec 17 E.EVT_SUPPRESSED code none w.suppressed)))

/-- EVT_SIGNAL_TIMER (R478): 10 µs after a signal, a record that waited is signalled. -/
def execEvtSignalTimer (s : State) : Res :=
  .next (s.when s.evt.sigBusy (fun s =>
    let p := s.evt.sigPend
    let s : State := { s with evt.sigBusy := false, evt.sigPend := false }
    if p then s.evtSignal else s))

/-- The 16 bytes of a felled-list entry (Table REL-9). -/
def fellBytes (f : Fell) : Nat := f.kind + 2 ^ 8 * f.cause + 2 ^ 32 * (f.wher % 2 ^ 48) + 2 ^ 96 * (f.hours % 2 ^ 32)

end Sys2Proof.Machine
end

