-- ==== Sys2Proof/Machine/MapLayout.lean ====
section
/-! DEFINITION. The Tally's structures as HBM and the scratchpad hold them: the map cache region (R184 to R188, R361, Tables TLY-3 to
TLY-5 and REL-6), journal records and pages (R224, R225, Table TLY-8) and the root table (Table TLY-6). They are read off the state, which holds each of them once. -/

namespace Sys2Proof.Machine
open Sys2Proof

/-! ### Map cache region (R187) -/

/-- Bytes of the block table (Table TLY-5): 4 for each erase block of the channels in use, rounded up to 256 MiB; in MiB. -/
def State.blockTableMiB (s : State) : Nat :=
  let n := ((List.range 256).map (fun ch =>
    if s.chLoads ch = 0 then 0 else popcount (s.chVols ch) 16 * s.tsLuns ch * s.tsPlanes ch * s.tsBlocks ch)).sum
  (4 * n + 2 ^ 28 - 1) / 2 ^ 28 * 256

/-- Frame count (R188). -/
def State.frameCount (s : State) : Nat :=
  min 8388608 (((s.hbmRegion 0).2 * 256 - (1728 + s.blockTableMiB)) * 64)

/-- Sizes in MiB of the structures of Table TLY-5 before the frames, in their order. -/
def State.mapSizes (s : State) : List Nat := [1024, 128, 64, 256, 256, s.blockTableMiB]

/-- HBM address of structure `k` of Table TLY-5: 0 directory, 1 frame descriptors, 2 buffer index, 3 journal ring, 4 mirror
ring, 5 block table, 6 frames. -/
def State.mapStruct (s : State) (k : Nat) : Nat := 2 ^ 28 * (s.hbmRegion 0).1 + 2 ^ 20 * (s.mapSizes.take k).sum

/-- Root-table entry `k`: HBM address of directory page `k` (R184). -/
def State.rootEntry (s : State) (k : Nat) : Nat := s.mapStruct 0 + 16384 * k

/-- Directory entry of a map page (Table TLY-3). -/
def State.dirWord (s : State) (page : Nat) : Nat :=
  let fo := 2 ^ 51 * b2n (decide (2 ^ 26 ≤ page))
  match Map.get none s.tly.frames page with
  | some f => f.idx % 2 ^ 23 + 2 ^ 48 + 2 ^ 49 * b2n f.fresh + fo
  | none =>
    let d := s.dirOf page
    d.flash % 2 ^ 48 + 2 ^ 49 * b2n d.fresh + 2 ^ 50 * b2n d.replay + fo

/-- Waiters and pins on a page, saturating at 65,535 (Table TLY-4). -/
def State.pins (s : State) (page : Nat) : Nat :=
  let w := match s.load page with
    | some l => l.waiters.length
    | none => 0
  let p := s.qqp.cmds.map (fun e => match e.2 with
    | some c => (if c.completed then 0 else c.snapPages.count page) + (c.segs.map (fun g => g.pinPages.count page)).sum
    | none => 0)
  min 65535 (w + p.sum)

/-- Frame descriptor of the page in a frame (Table TLY-4). -/
def State.frameDesc (s : State) (page : Nat) (f : Frame) : Nat :=
  f.flash % 2 ^ 48 + 2 ^ 48 * b2n f.dirty + 2 ^ 49 * b2n f.loading + 2 ^ 50 * b2n f.wb + 2 ^ 51 * b2n f.ref
    + 2 ^ 64 * (page % 2 ^ 27) + 2 ^ 96 * s.pins page + 2 ^ 112 * (f.gen % 2 ^ 16)

/-- The page that a frame holds. -/
def State.pageOf (s : State) (idx : Nat) : Option (Nat × Frame) :=
  (s.tly.frames.filterMap (fun e => e.2.bind (fun f => if f.idx = idx then some (e.1, f) else none))).head?

/-- A journal record (Table TLY-8). -/
def jrecWord (r : JRec) (seq : Nat) : Nat :=
  seq % 2 ^ 64 + 2 ^ 64 * (r.ty % 256) + 2 ^ 72 * (r.flags % 8) + 2 ^ 80 * (r.tract % 4096) + 2 ^ 128 * (r.arg0 % 2 ^ 64)
    + 2 ^ 192 * (r.arg1 % 2 ^ 64)

/-- Record in slot `i` of a ring of 8,388,608 records: the one of the highest SEQ that the ring holds there. -/
def ringWord (m : Map (Option JRec)) (i : Nat) : Nat :=
  m.foldl (fun w e => match e.2 with
    | some r => if e.1 % 8388608 = i then jrecWord r e.1 else w
    | none => w) 0

/-- A block table entry (Table REL-6). -/
def Bte.word (b : Bte) : Nat := b.valid % 2 ^ 17 + 2 ^ 17 * (b.st % 8) + 2 ^ 20 * (b.age % 16) + 2 ^ 24 * (b.rdc % 256)

/-- Erase blocks of a channel in use, in the order of the block table: volumes, LUNs, planes, blocks (log entry 197). -/
def State.chBlocks (s : State) (ch : Nat) : Nat :=
  if s.chLoads ch = 0 then 0 else popcount (s.chVols ch) 16 * s.tsLuns ch * s.tsPlanes ch * s.tsBlocks ch

/-- Media address of entry `i` of the block table: channels in rising order, and of each its volumes, LUNs, planes, blocks. -/
def State.btAddr (s : State) : List Nat → Nat → Option Nat
  | [], _ => none
  | ch :: chs, i =>
    let n := s.chBlocks ch
    if n ≤ i then State.btAddr s chs (i - n)
    else
      let vols := (List.range 16).filter (bit (s.chVols ch))
      let per := s.tsLuns ch * s.tsPlanes ch * s.tsBlocks ch
      let r := i % max 1 per
      some (mkMaddr ch (vols.getD (i / max 1 per) 0) (r / max 1 (s.tsPlanes ch * s.tsBlocks ch))
        (r / max 1 (s.tsBlocks ch) % max 1 (s.tsPlanes ch)) (r % max 1 (s.tsBlocks ch)) 0 0)

/-- 64-bit word at byte offset `o` of structure `k` of the map cache region. -/
def State.mapWord (s : State) (k o : Nat) : Nat :=
  match k with
  | 0 => s.dirWord (o / 8)
  | 1 => match s.pageOf (o / 16) with
    | some (p, f) => bits (s.frameDesc p f) (64 * (o / 8 % 2)) 64
    | none => 0
  | 3 => bits (ringWord s.tly.jr (o / 32)) (64 * (o / 8 % 4)) 64
  | 4 => bits (ringWord s.tly.mring (o / 32)) (64 * (o / 8 % 4)) 64
  | 5 =>
    let e (i : Nat) : Nat := match s.btAddr (List.range 256) i with
      | some a => (s.bte a).word
      | none => 0
    e (o / 4) + 2 ^ 32 * e (o / 4 + 1)
  | 6 => match s.pageOf (o / 16384) with
    | some (p, f) => if f.loading then 0 else s.entry p (o / 8 % 2048)
    | none => 0
  | _ => 0

/-- Structure of Table TLY-5 that holds an HBM address of the map cache region. -/
def State.structAt (s : State) (a : Nat) : Nat := ((List.range 7).filter (fun k => decide (s.mapStruct k ≤ a))).getLastD 0

/-- Content of 64-byte line `n` of HBM where it lies in the map cache region and outside the buffer index, which has no layout;
none elsewhere. -/
def State.mapLine (s : State) (n : Nat) : Option Nat :=
  let a := 64 * n
  if 2 ^ 28 * (s.hbmRegion 0).1 ≤ a ∧ a < 2 ^ 28 * ((s.hbmRegion 0).1 + (s.hbmRegion 0).2) ∧ s.structAt a ≠ 2 then
    let k := s.structAt a
    some ((List.range 8).foldl (fun v i => v + 2 ^ (64 * i) * s.mapWord k (a + 8 * i - s.mapStruct k)) 0)
  else none

/-- Content of 64-byte line `n` of B00: the root table in its first 512 KiB (Table TLY-6). -/
def State.rootLine (s : State) (n : Nat) : Option Nat :=
  if n < 8192 then some ((List.range 8).foldl (fun v i => v + 2 ^ (64 * i) * s.rootEntry (8 * n + i)) 0) else none

/-! ### Journal pages (R225) -/

/-- Header of a journal page but for its CRC: MAGIC, die ID, first SEQ, record count (log entry 198). -/
def journalHeader (dieId first n : Nat) : Nat :=
  0x4A524E4C + 2 ^ 64 * (dieId % 2 ^ 64) + 2 ^ 128 * (first % 2 ^ 64) + 2 ^ 192 * (n % 2 ^ 32)

/-- Records of a journal page: its 511 slots in order, PAD records filling the rest (R225). -/
def State.pageRecords (s : State) (p : JPage) : List Nat :=
  (List.range 511).map (fun i =>
    match (if p.first + i ≤ p.last then Map.get none s.tly.jr (p.first + i) else none) with
    | some r => jrecWord r (p.first + i)
    | none => 2 ^ 64 * 0x0B)

/-- The 16 KiB of a journal page: header with the CRC-32C of the page, and 511 records. -/
def State.journalPage (s : State) (p : JPage) : List Nat :=
  let recs := (s.pageRecords p).flatMap (toBytes 32)
  let h := journalHeader s.fuses.dieId p.first (p.last + 1 - p.first)
  let crc := Nat.xor ((toBytes 28 h ++ recs).foldl crcByte 0xFFFFFFFF) 0xFFFFFFFF
  toBytes 28 h ++ toBytes 4 crc ++ recs

end Sys2Proof.Machine
end

