-- ==== Sys2Proof/Machine/Memory.lean ====
section
/-! DEFINITION. HBM and scratchpad accesses: layout, correction and poison, row-hammer tables, felling, line
encryption, sealed regions with their counter tree, re-keying and resealing (R490 to R581). -/

namespace Sys2Proof.Machine
open Sys2Proof

/-! ### HBM geometry and felling (R491, R517 to R522) -/

/-- Pseudo-channel of an HBM address (R491). -/
def hbmPc (a : Nat) : Nat := Nat.xor (bits a 8 7) (bits a 15 7)

/-- One past the last usable HBM address (R517). -/
def State.hbmTop (s : State) : Nat := s.rd64 F.HBM_TOP_LO F.HBM_TOP_HI

/-- Slices that may be withdrawn, at most 8, wholly within the free region (R521). -/
def State.fellMax (s : State) : Nat :=
  let r := s.hbmRegion 5
  let hi := 2 ^ 28 * (r.1 + r.2)
  if hi < 0x2400000000 then 0 else min 8 ((0x2400000000 - 2 ^ 28 * r.1) / 0x48000000)

/-- Fells pseudo-channel `p`, or refuses beyond HBM_FELL_MAX (R517, R521). -/
def State.pcFell (s : State) (p : Nat) : State :=
  let f := s.rd F.HBM_FELL_FELLED
  if s.fellMax ≤ f then (s.put F.HBM_PC_STAT_STATE 3 p).post E.HBM_FELL_REFUSED p
  else
    let s := s.put64 F.HBM_TOP_LO F.HBM_TOP_HI (0x2400000000 - 0x48000000 * (f + 1))
    let s := ((s.put F.HBM_FELL_FELLED (f + 1)).put F.HBM_PC_STAT_STATE 1 p).post E.HBM_PC_FELLED p
    ((s.put F.HBM_EVAC_PC p).put F.HBM_EVAC_ACTIVE 1).put F.HBM_EVAC_DONE_MIB 0

/-- A pseudo-channel reaches its threshold: felled at once, or when the running evacuation ends (R522). -/
def State.pcThreshold (s : State) (p : Nat) : State :=
  if s.rd F.HBM_PC_STAT_STATE p ≠ 0 ∨ p ∈ s.hbm.waiting then s
  else if s.on F.HBM_EVAC_ACTIVE then { s with hbm.waiting := s.hbm.waiting ++ [p] }
  else s.pcFell p

/-- An uncorrectable error of the line at HBM address `a` (R493): poison, counters, event, and the threshold of
Table FLT-2 in powered time (R451). `p` is the pseudo-channel that holds it. -/
def State.hbmUe (s : State) (a : Nat) (p : Nat := hbmPc a) : State :=
  let s := s.updHline (a / 64) (fun l => { l with poison := true })
  let s := ((s.bump F.HBM_UE).bump F.HBM_PC_UE 1 p).post E.HBM_PC_UE p a
  let t := (s.time :: Map.get [] s.hbm.ueTimes p).take s.pcUe
  let s := { s with hbm.ueTimes := Map.set [] s.hbm.ueTimes p t }
  if t.length = s.pcUe ∧ s.time - t.getLastD s.time ≤ 3600000000000 * s.pcHours then s.pcThreshold p else s

/-- A corrected error (R492). -/
def State.hbmCe (s : State) (a : Nat) (p : Nat := hbmPc a) : State := (s.bump F.HBM_CE).bump F.HBM_PC_CE 1 p

/-- The pseudo-channel that holds the granule of an access: of a felled one, or one being evacuated, the place the evacuation gave it,
which is internal and comes with the access (R518, R519). -/
def State.homePc (s : State) (a : Nat) (m : Meet) : Nat :=
  let x := s.rd F.HBM_PC_STAT_STATE (hbmPc a)
  if x = 1 ∨ x = 2 then m.home.getD (hbmPc a) else hbmPc a

/-! ### Row hammer (R510 to R513) -/

/-- Threshold in use: values outside 256 to 32,768 act as the nearer limit. -/
def State.rhThresh (s : State) : Nat := max 256 (min 32768 (s.rd F.HBM_RH_THRESH))

/-- A bank. -/
def State.hbank (s : State) (p b : Nat) : HBank := Map.get {} s.hbm.banks (64 * p + b)

/-- Changes a bank. -/
def State.updHbank (s : State) (p b : Nat) (f : HBank → HBank) : State :=
  { s with hbm.banks := Map.upd {} s.hbm.banks (64 * p + b) f }

/-- An activate of row `r` enters a table of 32 entries (R510): the table after, and the row's count. -/
def rhCount (t : List (Nat × Nat)) (r : Nat) : List (Nat × Nat) × Nat :=
  match t.find? (fun e => e.1 = r) with
  | some e => (t.map (fun x => if x.1 = r then (r, x.2 + 1) else x), e.2 + 1)
  | none =>
    if t.length < 32 then (t ++ [(r, 1)], 1)
    else
      let lo := t.foldl (fun m x => min m x.2) (t.headD (0, 0)).2
      match t.findIdx? (fun x => x.2 == lo) with
      | some i => (t.set i (r, lo + 1), lo + 1)
      | none => (t, 0)

/-- HBM_PC_STAT[p].RH_FALLBACK follows the banks. -/
def State.rhFallback (s : State) (p : Nat) : State :=
  s.flag F.HBM_PC_STAT_RH_FALLBACK (s.hbm.banks.any (fun e => e.1 / 64 == p && e.2.fallback)) p

/-- Rows around `r` that a targeted refresh activates: RH_RADIUS on either side, within the bank (R511). -/
def State.rhRows (s : State) (r : Nat) : List Nat :=
  let d := if s.rd F.HBM_CTL_RH_RADIUS = 1 then 1 else 2
  (List.range (2 * d + 1)).filterMap (fun i => if r + i < d ∨ r + i = r + d ∨ 24576 ≤ r + i - d then none else some (r + i - d))

/-- A targeted refresh for row `r` of a bank: the rows around it, or an RFMpb (R511). -/
def State.rhTarget (s : State) (p b r : Nat) : State :=
  if s.on F.HBM_CTL_RH_MODE then s.updHbank p b (fun x => { x with rfms := x.rfms + 1 })
  else s.updHbank p b (fun x => { x with rows := s.rhRows r })

/-- An access activates row `r` of a bank: a parity error clears the table and starts the fallback (R513), a count at
the threshold refreshes the neighbours and starts again at 0 (R511). -/
def State.activate (s : State) (p b r : Nat) (parity : Bool) : State :=
  if ¬ s.on F.HBM_CTL_RH_EN then s
  else if parity then
    let s := s.updHbank p b (fun x => { x with table := [], fallback := true, acts := 0 })
    ((s.rhFallback p).bump F.HBM_RH_TBL_ERR).post E.HBM_RH_TABLE_ERR p b
  else
    let x := s.hbank p b
    if x.fallback then
      let n := x.acts + 1
      if s.rhThresh / 8 ≤ n then s.updHbank p b (fun x => { x with acts := 0, rfms := x.rfms + 1 })
      else s.updHbank p b (fun x => { x with acts := n })
    else
      let c := rhCount x.table r
      if s.rhThresh ≤ c.2 then
        let t := c.1.map (fun e => if e.1 = r then (r, 0) else e)
        (((s.updHbank p b (fun x => { x with table := t })).rhTarget p b r).bump F.HBM_RH_TARGETED).bump F.HBM_PC_RH 1 p
      else s.updHbank p b (fun x => { x with table := c.1 })

/-! ### Self-refresh (R514, R515) -/

/-- A pseudo-channel carries no refresh debt (R514). -/
def State.noDebt (s : State) (p : Nat) : Bool := (List.range 48).all (fun b => (s.hbank p b).debt == 0)

/-- The channel's polder closes its clock gate for SLEEP or DEEP (R514, R712). -/
def State.hbmGateCloses (s : State) (ch : Nat) : Bool :=
  let p := 65 + ch / 16
  !s.gateEn p

/-- Channel `ch` may enter self-refresh: idle without debt, or for its gate (R514). -/
def State.srMay (s : State) (ch : Nat) : Bool :=
  (s.rd F.HBM_SR_CTL_IDLE_US != 0 && s.noDebt (2 * ch) && s.noDebt (2 * ch + 1)) || s.hbmGateCloses ch

/-- A request meets self-refresh (Table HBM-3). -/
def State.srExit (s : State) (p : Nat) (m : Meet) : State :=
  let e := p / 2 * 2
  if s.on F.HBM_PC_STAT_SR p then
    ((s.put F.HBM_PC_STAT_SR 0 e).put F.HBM_PC_STAT_SR 0 (e + 1)).bump F.HBM_SR_ADDED_NS (max 600 (min 620 m.added))
  else if m.cancels ∧ s.srMay (p / 2) then s.bump F.HBM_SR_CANCELS else s

/-! ### Keys of lines and nodes (R573) -/

/-- KID whose key line `line` of a region lies under: the new one below the sweep pointer, OLD_KID from it on (R573). -/
def State.lineKid (s : State) (r line : Nat) : Nat :=
  if s.rekeying r ∧ s.rd64 F.CRY_SWEEP_LO F.CRY_SWEEP_HI r ≤ 64 * line then s.rd F.CRY_SEAL_STAT_OLD_KID r
  else s.rd F.CRY_SEAL_STAT_KID r

/-- KID whose key a node lies under: the new one once its whole range is below the sweep pointer (R573). -/
def State.nodeKid (s : State) (r l i : Nat) : Nat :=
  let hi := s.sealBase r + min (s.sealSize r) (64 * 64 ^ (l + 1) * (i + 1))
  if s.rekeying r ∧ s.rd64 F.CRY_SWEEP_LO F.CRY_SWEEP_HI r < hi then s.rd F.CRY_SEAL_STAT_OLD_KID r
  else s.rd F.CRY_SEAL_STAT_KID r

/-! ### Line and node encryption (R553, R558 to R560) -/

/-- The 96-bit nonce of a line (R560), most significant byte first (log entry 174). -/
def lineNonce (a gen major minor : Nat) : List Nat :=
  beBytes 12 (bits a 6 42 * 2 ^ 54 + gen % 2 ^ 16 * 2 ^ 38 + major % 2 ^ 32 * 2 ^ 6 + minor % 2 ^ 6)

/-- Nonce of line `line` of region `r` under its present counter. -/
def State.lineIv (s : State) (r line : Nat) : List Nat :=
  let k := line - s.sealBase r / 64
  let x := s.node r 0 (k / 64)
  lineNonce (64 * line) x.gen x.major (Map.get 0 x.minors (k % 64))

/-- Content of 64-byte line `n` of HBM in plaintext: the write-buffer halves hold the lines of the buffer (R32), the map cache region
the Tally's structures (R187), the rest what was written there. -/
def State.lineData (s : State) (n : Nat) : Nat :=
  match s.sealOf (64 * n) with
  | some 0 => (s.halfData 0 (64 * n - s.sealBase 0)).getD (s.hline n).data
  | some 1 => (s.halfData 1 (64 * n - s.sealBase 1)).getD (s.hline n).data
  | some _ => (s.hline n).data
  | none => (s.mapLine n).getD (s.hline n).data

/-- Ciphertext of a sealed line (R560). -/
def State.lineCipher (s : State) (r line : Nat) : List Nat :=
  gcmCrypt (s.subkey (s.lineKid r line) "SEAL-ENC") (s.lineIv r line) (toBytes 64 (s.lineData line))

/-- The 48-bit tag of a ciphertext of a sealed line, with the line's device physical address as additional data (R560). -/
def State.tagOf (s : State) (r line : Nat) (c : List Nat) : List Nat :=
  (gcmTag (s.subkey (s.lineKid r line) "SEAL-ENC") (s.lineIv r line) (toBytes 8 (64 * line)) c).take 6

/-- A fetched line whose ciphertext and tag differ in `flip` and `tagFlip` from what was written fails its tag (R563). Unchanged, it
verifies. -/
def State.tagFails (s : State) (r line flip tagFlip : Nat) : Bool :=
  let c := s.lineCipher r line
  (flip != 0 || tagFlip != 0)
    && s.tagOf r line (xorBytes c (toBytes 64 flip)) != xorBytes (s.tagOf r line c) (toBytes 6 tagFlip)

/-- Bits [447:0] of a node (Table CRY-7). -/
def CNode.word (x : CNode) : Nat :=
  ((List.range 64).map (fun i => Map.get 0 x.minors i % 64 * 64 ^ i)).sum + 2 ^ 384 * (x.major % 2 ^ 32) + 2 ^ 416 * (x.gen % 2 ^ 16)

/-- Counter of a node in its parent, GEN in [53:38], MAJOR in [37:6] and MINOR in [5:0]; for a top node its root counter below the
reseal count (R558, R559). -/
def State.nodeCtr (s : State) (r l i : Nat) : Nat :=
  if s.topLevel r ≤ l then s.sealGen r * 2 ^ 64 + Map.get 0 s.cry.roots (64 * r + i) % 2 ^ 64
  else
    let p := s.node r (l + 1) (i / 64)
    p.gen % 2 ^ 16 * 2 ^ 38 + p.major % 2 ^ 32 * 2 ^ 6 + Map.get 0 p.minors (i % 64) % 2 ^ 6

/-- MAC of a node over its bits [447:0], its device physical address and its counter in its parent (Table CRY-7). -/
def State.nodeMac (s : State) (r l i w : Nat) : List Nat :=
  (cmac (s.subkey (s.nodeKid r l i) "SEAL-MAC")
    (toBytes 56 w ++ toBytes 8 (s.nodeAddr r l i) ++ toBytes 10 (s.nodeCtr r l i))).take 8

/-- A node fetched with `flip` of its bits changed fails its MAC (R567). -/
def State.nodeFails (s : State) (r l i flip : Nat) : Bool :=
  let w := (s.node r l i).word
  flip != 0 && s.nodeMac r l i (Nat.xor w (bits flip 0 448)) != xorBytes (s.nodeMac r l i w) (toBytes 8 (bits flip 448 64))

/-- A line of an unsealed region under the MEM subkeys of a root key and KID (R553), or back. -/
def memXts (enc : Bool) (kid key line v : Nat) : Nat :=
  if kid = 0 then v
  else
    let k (label : String) : List Nat := kdf (toBytes 32 key) (ascii label) [kid]
    ofBytes (xts enc (k "MEM-1") (k "MEM-2") (line % 2 ^ 42) (toBytes 64 v))

/-- Writes the content of a line of HBM: of a write-buffer half the line of the buffer that lies there changes. -/
def State.setLine (s : State) (n : Nat) (x : MLine) : State :=
  let s := s.updHline n (fun _ => x)
  match s.sealOf (64 * n) with
  | some 0 => { s with tly.lines := s.halfWrite 0 (64 * n - s.sealBase 0) x.data }
  | some 1 => { s with tly.flines := s.halfWrite 1 (64 * n - s.sealBase 1) x.data }
  | _ => s

/-! ### The cache of nodes (R562) -/

/-- A node leaves the cache; a dirty one raises its counter in its parent (R562). -/
def State.evictNode (s : State) (r l i : Nat) : State :=
  match s.node? r l i with
  | some x =>
    if ¬ x.cached then s
    else
      let s := s.setNode r l i { x with cached := false, dirty := false }
      if ¬ x.dirty then s
      else if s.topLevel r ≤ l then
        { s with cry.roots := Map.upd 0 s.cry.roots (64 * r + i) (· + 1) }
      else s.raiseChild r (l + 1) (i / 64) (i % 64)
  | none => s

/-! ### Damage and reseal (R577 to R581) -/

/-- CRY_STAT.DAMAGED, and DAMAGED and DNODES of a region; the buffer lines under its damaged nodes. -/
def State.showDamage (s : State) (r : Nat) : State :=
  let s := s.darken r
  let n := (s.cry.damaged.filter (fun d => d.1 = r)).length
  let s := (s.flag F.CRY_SEAL_STAT_DAMAGED (n != 0) r).put F.CRY_SEAL_STAT_DNODES (min 16383 n) r
  s.put F.CRY_STAT_DAMAGED (setBits (s.rd F.CRY_STAT_DAMAGED) r 1 (b2n (n != 0)))

/-- Marks a node damaged (R577). -/
def State.damage (s : State) (r l i : Nat) : State :=
  if s.cry.damaged.contains (r, l, i) then s
  else
    let s : State := { s with cry.damaged := s.cry.damaged ++ [(r, l, i)] }
    ((s.showDamage r).bump F.CRY_NODE_FAILS).post E.CRY_NODE_DAMAGED r (s.nodeAddr r l i)

/-- Half `r` of the write buffer with the blocks in `n` bytes from `a` zero. -/
def State.zeroHalf (s : State) (r a n : Nat) : Map (Option Line) :=
  Map.mapAll none (fun _ (o : Option Line) => o.map (fun l => { l with data := l.data.map (fun d =>
    if a ≤ s.blkAt r l d.1 ∧ s.blkAt r l d.1 < a + n then (d.1, .data 0) else d) })) (s.halfLines r)

/-- Rebuilds one damaged subtree (R579): its lines read as zeroes. -/
def State.resealNode (s : State) (r l i : Nat) : State :=
  let g := s.sealGen r + 1
  let s := s.put F.CRY_SEAL_GEN g r
  let lines := 64 ^ (l + 1)
  let lo := s.sealBase r / 64 + i * lines
  let inSub (k : Nat) : Bool :=
    k / 2 ^ 32 / 8 == r && decide (k / 2 ^ 32 % 8 < l) && k % 2 ^ 32 / 64 ^ (l - k / 2 ^ 32 % 8) == i
  let s : State := { s with
    cry.nodes := Map.keep (fun k _ => !inSub k) s.cry.nodes
    cry.damaged := s.cry.damaged.filter (fun d => d ≠ (r, l, i))
    cry.badTags := s.cry.badTags.filter (fun n => n < lo ∨ lo + lines ≤ n) }
  let s := s.dropHlines (fun n => decide (lo ≤ n) && decide (n < lo + lines))
  let s := if r = 0 then { s with tly.lines := s.zeroHalf 0 (64 * lo) (64 * lines) }
    else if r = 1 then { s with tly.flines := s.zeroHalf 1 (64 * lo) (64 * lines) } else s
  let s := s.setNode r l i { gen := g, cached := true }
  let s := if s.topLevel r ≤ l then { s with cry.roots := Map.upd 0 s.cry.roots (64 * r + i) (· + 1) }
    else s.raiseChild r (l + 1) (i / 64) (i % 64)
  let s := (s.showDamage r).post E.CRY_RESEALED r (s.nodeAddr r l i)
  if 0xFF00 ≤ g ∧ s.on F.CRY_CTL_REKEY_EN then s.rekeyAsk r else s

/-- First address and length of a damaged node's range. -/
def State.damageRange (s : State) (d : Nat × Nat × Nat) : Nat × Nat :=
  (s.sealBase d.1 + d.2.2 * 64 ^ (d.2.1 + 1) * 64, 64 ^ (d.2.1 + 1) * 64)

/-- RESEAL of a range (R579, R580, Table QQP-9): status and FIELD. -/
def State.resealRange (s : State) (a len : Nat) : State × Nat × Nat :=
  match s.sealOf a with
  | none => (s, 0x03, 48)
  | some r =>
    if s.sealBase r + s.sealSize r < a + len then (s, 0x03, 48)
    else if s.rekeying r ∨ ¬ s.on F.CRY_SEAL_STAT_DAMAGED r then (s, 0x04, 0xFF)
    else
      let ds := s.cry.damaged.filter (fun d =>
        d.1 = r ∧ (s.damageRange d).1 < a + len ∧ a < (s.damageRange d).1 + (s.damageRange d).2)
      let cut := ds.any (fun d =>
        decide ((s.damageRange d).1 < a) || decide (a + len < (s.damageRange d).1 + (s.damageRange d).2))
      if ds = [] ∨ cut then (s, 0x03, 56)
      else (ds.foldl (fun s d => s.resealNode d.1 d.2.1 d.2.2) s, 0, 0xFF)

/-! ### Healing (R460 to R462, R566) -/

/-- Asks the partner for a line of the own half, or gives it up where no partner mirrors (R460, R461). -/
def State.healAsk (s : State) (b line : Nat) : State :=
  match s.line b with
  | some l =>
    if l.healing ∨ l.lost then s
    else
      let s := s.updLine b (fun l => { l with healing := true })
      if s.mirroring then { s with lve.heals := s.lve.heals ++ [(b, line)] }.send (.healReq b) else s.healLost b
  | none => s

/-- A line of the foreign half is lost (R462). -/
def State.foreignLost (s : State) (b : Nat) : State :=
  match Map.get none s.tly.flines b with
  | some l => { s with tly.flines := Map.set none s.tly.flines b (some { l with lost := true }) }
  | none => s

/-- The buffer line whose bytes lie at a line of region 0 or 1; `task` is the spilled task of region 2. -/
def State.ownerOf (s : State) (r line task : Nat) : Nat :=
  match r with
  | 0 => ((s.bufOwner s.tly.lines false (64 * line - s.sealBase 0)).map Prod.fst).getD 0
  | 1 => ((s.bufOwner s.tly.flines true (64 * line - s.sealBase 1)).map Prod.fst).getD 0
  | _ => task

/-- A bad line of regions 0 to 2 is reported to its owner (R566). -/
def State.lineBad (s : State) (r owner line : Nat) : State :=
  match r with
  | 0 => s.healAsk owner line
  | 1 => s.foreignLost owner
  | 2 => s.spillLost owner
  | _ => s

/-- A read that found the bad line of region `r` waits for its heal (R566). -/
def State.healWaits (s : State) (r owner : Nat) : Bool :=
  r == 0 && (match s.line owner with
    | some l => l.healing
    | none => false)

/-- A tag failure is counted and posted (R563). -/
def State.tagFail (s : State) (r line : Nat) : State :=
  let s : State := if s.cry.badTags.contains line then s else { s with cry.badTags := s.cry.badTags ++ [line] }
  (s.bump F.CRY_TAG_FAILS).post E.CRY_TAG_FAIL r (line * 64)

/-! ### One line of an access -/

/-- Bytes `off` to `off + n - 1` of a line replaced. -/
def mergeBytes (old off n new : Nat) : Nat := setBits old (8 * off) (8 * n) new

/-- Fetches the path of a line, top node first: nodes not in the cache are fetched and verified, and one that fails is damaged. -/
def State.fetchPath (s : State) (r n : Nat) (m : Meet) : State :=
  ((List.range (s.topLevel r + 1)).reverse).foldl (fun s l =>
    let i := n / 64 ^ (l + 1)
    match s.node? r l i with
    | some x =>
      if x.cached ∨ s.underDamage r n then s
      else
        let s := s.bump F.CRY_CACHE_MISS
        if m.nodeUe.contains l then (s.hbmUe (s.nodeAddr r l i)).damage r l i
        else if s.nodeFails r l i (((m.nodeFlip.find? (fun x => x.1 == l)).map Prod.snd).getD 0) then s.damage r l i else s.setNode r l i { x with cached := true }
    | none => s) s

/-- Leaves whose tags lie in the tag line of line `n` (R577). -/
def State.tagLeaves (s : State) (r n : Nat) : List Nat :=
  let t := s.tagAddr r n / 64 * 64
  let b := s.tagAddr r 0
  (((List.range 64).filter (fun i => decide (b ≤ t + i) && decide (t + i < b + 6 * (s.sealSize r / 64)))).map
    (fun i => (t + i - b) / 6 / 64)).eraseDups

/-- Access to one line of a sealed region with KID 255 (R561 to R570, Table CRY-8): none while it waits. -/
def State.sealLine (s : State) (r line : Nat) (wr : Bool) (off n data : Nat) (m : Meet) : State × Option (Nat × Nat) :=
  let k := line - s.sealBase r / 64
  let s := s.fetchPath r k m
  let s := if m.tagMiss ∧ ¬ (wr ∧ n = 64) then s.bump F.CRY_CACHE_MISS else s
  let s := if m.tagMiss ∧ m.tagUe ∧ ¬ (wr ∧ n = 64) then (s.tagLeaves r k).foldl (fun s i => s.damage r 0 i) (s.hbmUe (s.tagAddr r k / 64 * 64)) else s
  let s := m.evict.foldl (fun s e => s.evictNode r e.1 e.2) s
  if s.underDamage r k then (s, some (0x0F, 0))
  else
    let fresh := s.freshLine r k
    let known := s.cry.badTags.contains line
    let full := wr && n == 64
    let x := s.node r 0 (k / 64)
    let ue := (m.ue || (s.hline line).poison) && !full && !fresh
    let bad := (known || s.tagFails r line m.flip m.tagFlip) && !full && !fresh
    let owner := s.ownerOf r line m.owner
    let s := if m.ue ∧ ¬ full then s.hbmUe (line * 64) (s.homePc (line * 64) m) else if m.ce ∧ ¬ full then s.hbmCe (line * 64) (s.homePc (line * 64) m) else s
    if ue ∨ bad then
      let wait := s.healWaits r owner
      let s := if ue then s else if known ∧ wait then s else s.tagFail r line
      let s := s.lineBad r owner line
      if ¬ wr ∧ s.healWaits r owner then (s, none) else (s, some (if ue then 0x0F else 0x08, 0))
    else if ¬ wr then (s, some (0, if fresh then 0 else s.lineData line / 2 ^ (8 * off) % 2 ^ (8 * n)))
    else if 63 ≤ Map.get 0 x.minors (k % 64) ∧ 2 ^ 32 ≤ x.major + 1 then
      ((s.bump F.CRY_WRAP_STALLS).post E.CRY_WRAP_STALL r (s.nodeAddr r 0 (k / 64)), none)
    else
      let ovf := decide (63 ≤ Map.get 0 x.minors (k % 64))
      let lost := (m.lineFlip.filter (fun e => e.1 != line && s.tagFails r e.1 e.2 0)).map Prod.fst
      let old := s.lineData line
      let s := (s.raiseChild r 0 (k / 64) (k % 64)).setLine line { data := mergeBytes (if fresh then 0 else old) off n data, kid := 255 }
      let s : State := { s with cry.badTags := s.cry.badTags.filter (· ≠ line) }
      let s := if ovf then lost.foldl (fun s i => (s.tagFail r i).lineBad r (s.ownerOf r i m.owner) i) s else s
      (s, some (0, 0))

/-- Access to one line of an unsealed region (R553, R456, R457, R494): a line written under another KID or key is decrypted as it
lies. -/
def State.plainLine (s : State) (line kid : Nat) (wr : Bool) (off n data : Nat) (m : Meet) : State × Option (Nat × Nat) :=
  let full := wr && n == 64
  let s := if full then s else if m.ue then s.hbmUe (line * 64) (s.homePc (line * 64) m) else if m.ce then s.hbmCe (line * 64) (s.homePc (line * 64) m) else s
  let key := if kid = 0 then 0 else Map.get 0 s.cry.keys kid
  let l := s.hline line
  let mine := l.kid == kid && l.key == key
  let old := if mine then s.lineData line else memXts false kid key line (memXts true l.kid l.key line (s.lineData line))
  if full then
    (s.setLine line { data := data % 2 ^ 512, kid := kid, key := key }, some (0, 0))
  else if l.poison then (s, some (0x0F, 0))
  else if wr then (s.setLine line { data := mergeBytes old off n data, kid := kid, key := key }, some (0, 0))
  else (s, some (0, old / 2 ^ (8 * off) % 2 ^ (8 * n)))

/-- Why Table CRY-5 and R549 refuse an HBM access; `adm` says the requester is admitted to regions 0 to 2. -/
def State.hbmRefusal (s : State) (a kid : Nat) (wr adm : Bool) : Option Nat :=
  match s.sealOf a with
  | some r =>
    if r < 3 ∧ ¬ adm then some 0x04
    else if kid = 255 ∨ (kid = 0 ∧ ¬ wr) then none
    else some 0x09
  | none => if kid = 0 then (if s.polPlain then none else some 0x09) else if s.memKey kid then none else some 0x09

/-- Access to the bytes of one line of HBM. With KID 0 a sealed line reads as it lies there (Table CRY-5); what lies at a fresh line is
a free value (log entry 4). -/
def State.hbmLine (s : State) (a kid : Nat) (wr : Bool) (n data : Nat) (m : Meet) : State × Option (Nat × Nat) :=
  let p := s.homePc a m
  let s := s.srExit p m
  let s := match m.act with
    | some (b, r) => s.activate p b r m.parity
    | none => s
  match s.sealOf a with
  | some r =>
    if kid = 255 then s.sealLine r (a / 64) wr (a % 64) n data m
    else if s.freshLine r (a / 64 - s.sealBase r / 64) then (s.drawn, some (0, s.freeNat % 2 ^ (8 * n)))
    else (s, some (0, ofBytes (s.lineCipher r (a / 64)) / 2 ^ (8 * (a % 64)) % 2 ^ (8 * n)))
  | none => s.plainLine (a / 64) kid wr (a % 64) n data m

/-- Access to `n` bytes from `a`, line by line in ascending order; it ends at the first line that does not complete with
SUCCESS. Data of a read is gathered above `sh` bytes. -/
def State.hbmSpan (s : State) (kid : Nat) (wr : Bool) : Nat → Nat → Nat → Nat → Nat → List Meet → State × Option (Nat × Nat)
  | 0, _, _, _, _, _ => (s, some (0, 0))
  | f + 1, a, n, data, sh, ms =>
    if n = 0 then (s, some (0, 0))
    else
      let c := min n (64 - a % 64)
      match s.hbmLine a kid wr c (data % 2 ^ (8 * c)) (ms.headD {}) with
      | (s, some (0, d)) =>
        match State.hbmSpan s kid wr f (a + c) (n - c) (data / 2 ^ (8 * c)) (sh + c) ms.tail with
        | (s, some (0, d')) => (s, some (0, 2 ^ (8 * sh) * d + d'))
        | r => r
      | r => r

/-- An HBM access as its NI hands it to the controller (R492 to R515, R548, R549). -/
def State.hbmAccess (s : State) (a kid : Nat) (wr adm : Bool) (n data : Nat) (ms : List Meet) : State × Option (Nat × Nat) :=
  match s.hbmRefusal a kid wr adm with
  | some st => (if st = 0x09 then s.bump F.CRY_KEY_DENIED else s, some (st, 0))
  | none => s.hbmSpan kid wr 6 a n data 0 ms

/-! ### Scratchpad (R523 to R527) -/

/-- Changes line `n` of a bank. -/
def State.updSline (s : State) (b n : Nat) (f : MLine → MLine) : State :=
  { s with spm.lines := Map.upd {} s.spm.lines (65536 * b + n) f }

/-- A line of a bank. -/
def State.sline (s : State) (b n : Nat) : MLine := Map.get {} s.spm.lines (65536 * b + n)

/-- The region registers of a landing bank let a landing of index `i` in its group make the access (R526). -/
def State.rgnAllows (s : State) (b i off n : Nat) (wr : Bool) : Bool :=
  let sz (r : Nat) : Nat := s.rd F.SPM_RGN_A_SIZE (b - 18) r
  if (List.range 8).all (fun r => sz r == 0) then true
  else (List.range 8).any (fun r =>
    let lo := 4096 * s.rd F.SPM_RGN_A_BASE (b - 18) r
    sz r != 0 && decide (lo ≤ off) && decide (off + n ≤ min (lo + 4096 * sz r) 0x400000)
      && bit (s.rd F.SPM_RGN_B_MASK (b - 18) r) i && (!wr || s.on F.SPM_RGN_A_WR (b - 18) r))

/-- Content of a line of a bank: tag-ledger entries fill B08 and B09 (R463), context records B07 (R279),
the root table the first 512 KiB of B00 (Table TLY-6). -/
def State.slineData (s : State) (b n : Nat) : Nat :=
  if b = 8 ∨ b = 9 then s.ledgerEntry (65536 * (b - 8) + n) else if b = 7 then s.ctxLine n
  else ((if b = 0 then s.rootLine n else none).getD (s.sline b n).data)

/-- An uncorrectable word poisons its line (R524). -/
def State.spmUe (s : State) (b off : Nat) : State :=
  let s := s.updSline b (off / 64) (fun l => { l with poison := true })
  (s.bump F.SPM_UE).post E.SPM_UE b (0x010000000000 + 0x400000 * b + off)

/-- Access to the bytes of one line of a bank; `op` is 0 plain, 1 bit-set, 2 bit-clear. -/
def State.spmLine (s : State) (b off : Nat) (wr : Bool) (op n data : Nat) (m : Meet) : State × (Nat × Nat) :=
  let whole := wr && n == 64
  let s := if whole then s else if m.ue then s.spmUe b off else if m.ce then s.bump F.SPM_CE else s
  let l := s.sline b (off / 64)
  let old := s.slineData b (off / 64) / 2 ^ (8 * (off % 64)) % 2 ^ (8 * n)
  if l.poison ∧ ¬ whole then (s, (0x0F, 0))
  else if ¬ wr then (s, (0, old))
  else
    let v := if op = 1 then Nat.lor old data else if op = 2 then old - Nat.land old data else data
    let x : MLine := { data := mergeBytes (s.slineData b (off / 64)) (off % 64) n v }
    (s.updSline b (off / 64) (fun _ => x), (0, if op = 0 then 0 else old))

/-- Access to `n` bytes of a bank, line by line. -/
def State.spmSpan (s : State) (b : Nat) (wr : Bool) (op : Nat) : Nat → Nat → Nat → Nat → Nat → List Meet → State × (Nat × Nat)
  | 0, _, _, _, _, _ => (s, (0, 0))
  | f + 1, off, n, data, sh, ms =>
    if n = 0 then (s, (0, 0))
    else
      let c := min n (64 - off % 64)
      match s.spmLine b off wr op c (data % 2 ^ (8 * c)) (ms.headD {}) with
      | (s, (0, d)) =>
        match State.spmSpan s b wr op f (off + c) (n - c) (data / 2 ^ (8 * c)) (sh + c) ms.tail with
        | (s, (0, d')) => (s, (0, 2 ^ (8 * sh) * d + d'))
        | r => r
      | r => r

/-- A scratchpad access at its bank: master (R34), landing group and regions (R526), atomics (R527). `master` is the
code of Table HBM-5, `ld` the landing. -/
def State.spmAccess (s : State) (b off master ld : Nat) (q : SkReq) (ms : List Meet) : State × (Nat × Nat) :=
  if s.rd F.SPM_BANK_STAT_MASTER b ≠ master ∨ (master = 7 ∧ s.rd F.SPM_BANK_STAT_GROUP b ≠ ld / 16) then (s, (0x04, 0))
  else if master = 7 ∧ ¬ s.rgnAllows b (ld % 16) off q.len q.write then (s.bump F.SPM_DENIED, (0x04, 0))
  else if (q.bitset ∨ q.bitclr) ∧ ¬ ((q.len = 4 ∨ q.len = 8) ∧ off % q.len = 0) then (s, (0x03, 0))
  else
    let op := if q.bitset then 1 else if q.bitclr then 2 else 0
    let r := s.spmSpan b q.write op 6 off q.len q.data 0 ms
    if op ≠ 0 ∧ r.2.1 = 0 then (r.1.bump F.SPM_ATOMICS, r.2) else r

end Sys2Proof.Machine
end

