-- ==== Sys2Proof/Machine/MemCmds.lean ====
section
/-! DEFINITION. The steps of the HBM controllers, of the scratchpad sweep and of the memory crypto engine (R496 to R499,
R503 to R514, R517 to R522, R528 to R533, R541 to R547, R571 to R581). -/

namespace Sys2Proof.Machine
open Sys2Proof

/-! ### HBM -/

/-- The doubled rate that stack `k` shall have (R508). -/
def State.wantDouble (s : State) (k : Nat) : Bool := s.on F.HBM_CTL_FORCE_DOUBLE || s.hbm.hot85.contains k

/-- Debt of a bank after a tREFI in which it received `n` refreshes (R506, R507). -/
def debtAfter (d n : Nat) : Nat := if n = 0 then min 8 (d + 1) else d - n

/-- Largest debt of a pseudo-channel's banks (HBM_PC_STAT.DEBT). -/
def State.maxDebt (s : State) (pc : Nat) : Nat := (List.range 48).foldl (fun m b => max m (s.hbank pc b).debt) 0

/-- At the boundary of a tREFI a pseudo-channel takes REF_MODE; when it changes, debt carries over as that of the whole
pseudo-channel (Table HBM-4). -/
def State.refMode (s : State) (pc : Nat) : State :=
  let all : Bool := s.rd F.HBM_CTL_REF_MODE == 0
  if all = s.hbm.allBank.contains pc then s
  else
    let d := s.maxDebt pc
    let s : State := { s with hbm.allBank := if all then s.hbm.allBank ++ [pc] else s.hbm.allBank.erase pc }
    (List.range 48).foldl (fun s b => s.updHbank pc b (fun x => { x with debt := d })) s

/-- A tREFI of pseudo-channel `pc` ends, with `done` the banks refreshed in it: forced refreshes are counted and every bank's
debt follows by the mode in force (R504 to R507). -/
def State.refDebts (s : State) (pc : Nat) (done : List Nat) : State :=
  let all : Bool := s.hbm.allBank.contains pc
  let n (b : Nat) : Nat := if all then done.length else (done.filter (· = b)).length
  let forced := ((List.range 48).filter (fun b => (s.hbank pc b).debt = 8 ∧ n b ≠ 0)).length
  let s := s.bump F.HBM_REF_FORCED (if all then min 1 forced else forced)
  ((List.range 48).foldl (fun s b => s.updHbank pc b (fun x => { x with debt := debtAfter x.debt (n b) })) s).refMode pc

/-- A refresh window begins: every bank's row-hammer table is empty (R510, R513). -/
def State.refWindow (s : State) (pc : Nat) : State :=
  (List.range 48).foldl (fun s b => s.updHbank pc b (fun x => { x with table := [], fallback := false, acts := 0 })) s

/-- HBM_REFRESH_INTERVAL (R504 to R508, R510, R513): a tREFI of pseudo-channel `pc` ends; `done` lists the banks
refreshed in it, `window` says that a refresh window of the stack begins. -/
def execHbmRefreshInterval (pc : Nat) (done : List Nat) (window : Bool) (s : State) : Res :=
  let k := pc / 32
  .next (s.when (decide (pc < 128) && s.rd F.HBM_PC_STAT_STATE pc != 2 && !s.on F.HBM_PC_STAT_SR pc) (fun s =>
    let s := s.refDebts pc done
    let s := if window then s.refWindow pc else s
    let s := s.rhFallback pc
    let s := s.put F.HBM_PC_STAT_DEBT (s.maxDebt pc) pc
    if s.on F.HBM_TEMP_DOUBLED k = s.wantDouble k then s
    else (s.flag F.HBM_TEMP_DOUBLED (s.wantDouble k) k).post E.HBM_TEMP_DOUBLE k (b2n (s.wantDouble k))))

/-- HBM_TEMP_READ (R508, R509). -/
def execHbmTempRead (stack degc : Nat) (s : State) : Res :=
  .next (s.when (decide (stack < 4)) (fun s =>
    let s := s.put F.HBM_TEMP_DEGC degc stack
    let h := if 85 ≤ degc then (if s.hbm.hot85.contains stack then s.hbm.hot85 else s.hbm.hot85 ++ [stack])
      else if degc ≤ 83 then s.hbm.hot85.erase stack else s.hbm.hot85
    let s := { s with hbm.hot85 := h }
    if degc < 95 then { s with hbm.hot95 := s.hbm.hot95.erase stack }
    else if s.hbm.hot95.contains stack then s
    else { s with hbm.hot95 := s.hbm.hot95 ++ [stack] }.post E.HBM_HOT stack degc))

/-- HBM_WRITE_EYE_RETRAIN (R498, R499). -/
def execHbmWriteEyeRetrain (ch : Nat) (ok : Bool) (s : State) : Res :=
  .next (s.when (s.cfg.done && decide (ch < 64)) (fun s =>
    let s := s.bump F.HBM_RETRAINS
    if ok then s else (s.bump F.HBM_RETRAIN_FAILS).post E.HBM_RETRAIN_FAIL ch))

/-- HBM_REQUEST_URGENT (R503). -/
def execHbmRequestUrgent (port : Nat) (s : State) : Res :=
  .next (s.when (decide (port < 8)) (fun s => s.bump F.HBM_URGENT))

/-- SELF_REFRESH_ENTRY (R514): the channel has been idle for IDLE_US without debt, or its gate is about to close. -/
def execSelfRefreshEntry (ch : Nat) (s : State) : Res :=
  .next (s.when (decide (ch < 64) && !s.on F.HBM_PC_STAT_SR (2 * ch)
      && s.srMay ch)
    (fun s => (((s.put F.HBM_PC_STAT_SR 1 (2 * ch)).put F.HBM_PC_STAT_SR 1 (2 * ch + 1)).bump F.HBM_SR_ENTRIES).gateFollow
      (65 + ch / 16)))

/-- EVACUATION_DONE (R519, R522): `mib` were copied, the lines at `ues` were uncorrectable and are written poisoned; the
next pseudo-channel that waits is felled. -/
def execEvacuationDone (mib : Nat) (ues : List Nat) (s : State) : Res :=
  .next (s.when (s.on F.HBM_EVAC_ACTIVE) (fun s =>
    let p := s.rd F.HBM_EVAC_PC
    let s := ues.foldl (fun s a => (((s.updHline (a / 64) (fun l => { l with poison := true })).bump F.HBM_UE).bump F.HBM_PC_UE 1 p).post
      E.HBM_PC_UE p a) s
    let s := ((s.put F.HBM_EVAC_ACTIVE 0).put F.HBM_EVAC_DONE_MIB mib).put F.HBM_PC_STAT_STATE 2 p
    let s := s.post E.HBM_EVAC_DONE p mib
    match s.hbm.waiting with
    | [] => s
    | q :: r => { s with hbm.waiting := r }.pcFell q))

/-! ### Scratchpad sweep (R528 to R533) -/

/-- The next word of a bank's sweep, past the rows without a spare (R530). -/
def State.sweepNext (s : State) (b w : Nat) : Nat :=
  let w1 := (w + 1) % 524288
  match (List.range 524288).find? (fun i => !s.spm.skipped.contains (16384 * b + (w1 + i) % 524288 / 32)) with
  | some i => (w1 + i) % 524288
  | none => w1

/-- The sweep of a bank moves on; a pass counts when every bank has completed one more. -/
def State.sweepAdvance (s : State) (b : Nat) : State :=
  let w := Map.get 0 s.spm.at_ b
  let n := s.sweepNext b w
  let s : State := { s with spm.at_ := Map.set 0 s.spm.at_ b n }
  if w < n then s
  else
    let low (s : State) : Nat := (List.range 24).foldl (fun m i => min m (Map.get 0 s.spm.passes i)) (Map.get 0 s.spm.passes 0)
    let s' : State := { s with spm.passes := Map.upd 0 s.spm.passes b (· + 1) }
    s'.bump F.SPM_SWEEP_PASS (low s' - low s)

/-- SWEEP_STEP (R528 to R530, R533): `read` tells how the word read (0 good, 1 corrected, 2 uncorrectable), `fails` how
many of its two tests failed. -/
def execSweepStep (bank read fails : Nat) (s : State) : Res :=
  .next (s.when (s.on F.SPM_CTL_SWEEP_EN && !s.lve.pfLow && decide (bank < 24)) (fun s =>
    let w := Map.get 0 s.spm.at_ bank
    let row := 16384 * bank + w / 32
    let addr := 0x010000000000 + 0x400000 * bank + w / 32 * 256
    let s := if read = 1 then s.bump F.SPM_CE else if read = 2 then s.spmUe bank (8 * w) else s
    let s := s.bump F.SPM_SWEEP_FAILS (min 2 fails)
    let s := if fails < 2 then s
      else if s.rd F.SPM_BANK_STAT_SPARES bank = 0 then
        { s with spm.skipped := s.spm.skipped ++ [row] }.post E.SPM_SPARES_OUT bank addr
      else
        { s.drop F.SPM_BANK_STAT_SPARES 1 bank with spm.remapped := s.spm.remapped ++ [row] }.post
          E.SPM_SPARE_USED bank addr
    s.sweepAdvance bank))

/-! ### Keys (R541 to R547) -/

/-- A blob from its parts (Table CRY-3): bytes 15:0, the ephemeral key, the wrapped key, and the last 8 bytes. -/
def blobOf (head eph wrapped rest : Nat) : Nat :=
  bits head 0 128 + 2 ^ 128 * bits eph 0 768 + 2 ^ 896 * bits wrapped 0 320 + 2 ^ 1216 * bits rest 0 64

/-- Ephemeral public key of a blob (Table CRY-3). -/
def blobPoint (blob : Nat) : Nat × Nat := (bytesAt blob 16 48, bytesAt blob 64 48)

/-- Key-encryption key of a blob (R542): the KDF of the ECDH secret, with label KEY-IMPORT and DIE_ID and the KID byte as context
(byte orders: log entry 174). -/
def State.importKek (s : State) (kid blob : Nat) : List Nat :=
  kdf ((ecdh s.fuses.devKey (blobPoint blob)).take 32) (ascii "KEY-IMPORT") (toBytes 8 (bytesAt blob 8 8) ++ [kid])

/-- The root key that a blob wraps; none where the integrity check of the key wrap fails. -/
def State.unwrapped (s : State) (kid blob : Nat) : Option Nat :=
  (kwUnwrap (s.importKek kid blob) (toBytes 40 (bytesAt blob 112 40))).map ofBytes

/-- First check of Table CRY-4 that an import fails: its status. The length is checked by the caller of an admin
command. -/
def State.importCheck (s : State) (kid blob : Nat) : Option Nat :=
  let use := bytesAt blob 6 1
  if bytesAt blob 0 4 ≠ 0x4B575250 ∨ bytesAt blob 4 1 ≠ 1 ∨ bytesAt blob 7 1 ≠ 0 ∨ bytesAt blob 152 8 ≠ 0
      ∨ use = 0 ∨ 4 ≤ use then some 0x03
  else if bytesAt blob 5 1 ≠ kid ∨ kid = 0 then some 0x03
  else if 240 ≤ kid ∨ s.on F.CRY_KEY_STAT_LOADED kid then some 0x04
  else if bytesAt blob 8 8 ≠ s.fuses.dieId then some 0x09
  else if ¬ onCurve (blobPoint blob) ∨ (s.unwrapped kid blob).isNone then some 0x09
  else none

/-- Imports a wrapped key (R543): the status. -/
def State.importKey (s : State) (kid blob : Nat) : State × Nat :=
  match s.importCheck kid blob with
  | some st => (s.post E.CRY_KEY_REFUSED kid st, st)
  | none => (((s.loadKey kid ((s.unwrapped kid blob).getD 0) (bytesAt blob 6 1) false).post E.CRY_KEY_LOADED kid).resumeMerges, 0)

/-- Retires a key (R544): the status. -/
def State.retireKey (s : State) (kid : Nat) : State × Nat :=
  if 240 ≤ kid ∨ ¬ s.on F.CRY_KEY_STAT_LOADED kid ∨ s.rd F.CRY_KEY_STAT_TRACTS kid ≠ 0 then (s, 0x04)
  else ((s.zeroise kid).post E.CRY_KEY_RETIRED kid, 0)

/-- An access by a unit of the part meets an address that Table ARC-6 does not map (R27). -/
def State.devUnmapped (s : State) (a : Nat) : State := s.post E.ADDR_UNMAPPED (reqCode .part) (a % 2 ^ 48)

/-- A read of device memory by a unit of the part, as its destination answers it: HBM and scratchpad from the model's
memory, a landing window from user logic (`win`). -/
def State.devRead (s : State) (a n master win : Nat) : State × Nat × Nat :=
  match daDest a with
  | .hbm x =>
    if s.hbmTop ≤ x then (s.devUnmapped a, 0x03, 0)
    else match s.hbmAccess x (daKid a) false false n 0 [] with
      | (s, some r) => (s, r)
      | (s, none) => (s, 0x0A, 0)
  | .spm b off => s.spmAccess b off master 0 { len := n } []
  | .landing _ _ => (s, 0, win % 2 ^ (8 * n))
  | .unmapped => (s.devUnmapped a, 0x03, 0)
  | _ => (s, 0x03, 0)

/-- A write of device memory by a unit of the part: the status. -/
def State.devWrite (s : State) (a n master data : Nat) : State × Nat :=
  match daDest a with
  | .hbm x =>
    if s.hbmTop ≤ x then (s.devUnmapped a, 0x03)
    else match s.hbmAccess x (daKid a) true false n data [] with
      | (s, some r) => (s, r.1)
      | (s, none) => (s, 0x0A)
  | .spm b off =>
    let r := s.spmAccess b off master 0 { len := n, write := true, data := data } []
    (r.1, r.2.1)
  | .landing _ _ => (s, 0)
  | .unmapped => (s.devUnmapped a, 0x03)
  | _ => (s, 0x03)

/-- Sets CRY_KEY_RESULT when a command ends. -/
def State.keyResult (s : State) (status kid : Nat) : State :=
  ((s.put F.CRY_KEY_RESULT_STATUS status).put F.CRY_KEY_RESULT_KID kid).put F.CRY_KEY_RESULT_BUSY 0

/-- CRY_KEY_CMD with OP 1 (R547): the blob is read at CRY_KEY_SRC, its 160 bytes in three parts. -/
def State.keyCmdImport (s : State) (req : Req) (kid win : Nat) : State :=
  if s.on F.CRY_KEY_RESULT_BUSY then s.refuseWrite req (F.CRY_KEY_CMD_KID.off 0 0)
  else
    let a := s.rd64 F.CRY_KEY_SRC_LO F.CRY_KEY_SRC_HI
    let r1 := s.devRead a 64 5 win
    let r2 := r1.1.devRead (a + 64) 64 5 (win / 2 ^ 512)
    let r3 := r2.1.devRead (a + 128) 32 5 (win / 2 ^ 1024)
    let st := [r1.2.1, r2.2.1, r3.2.1].foldl (fun x y => if x = 0 then y else x) 0
    if st ≠ 0 then (r3.1.post E.CRY_KEY_REFUSED kid st).keyResult st kid
    else
      let x := r3.1.importKey kid (r1.2.2 + 2 ^ 512 * r2.2.2 + 2 ^ 1024 * r3.2.2)
      x.1.keyResult x.2 kid

/-- KEY_CMD_IMPORT (R547): the blob's parts are what a landing window gives where CRY_KEY_SRC lies in one. -/
def execKeyCmdImport (req : Req) (kid head eph wrapped rest : Nat) (s : State) : Res :=
  .next (s.when true (fun s => s.byReq req (F.CRY_KEY_CMD_KID.off 0 0) (fun s =>
    s.keyCmdImport req kid (blobOf head eph wrapped rest))))

/-- CRY_KEY_CMD with OP 2 (R547). -/
def State.keyCmdRetire (s : State) (req : Req) (kid : Nat) : State :=
  if s.on F.CRY_KEY_RESULT_BUSY then s.refuseWrite req (F.CRY_KEY_CMD_KID.off 0 0)
  else
    let x := s.retireKey kid
    x.1.keyResult x.2 kid

/-- KEY_CMD_RETIRE (R547). -/
def execKeyCmdRetire (req : Req) (kid : Nat) (s : State) : Res := 
  .next (s.when true (fun s => s.byReq req (F.CRY_KEY_CMD_KID.off 0 0) (fun s => s.keyCmdRetire req kid)))

/-! ### Re-key and reseal -/

/-- A write of CRY_REKEY_GO (R571, Table CRY-11). -/
def State.rekeyGo (s : State) (req : Req) (value : Nat) : State :=
  let r := value % 16
  if value / 16 ≠ 0xA500000 ∨ 8 ≤ r ∨ s.on F.CRY_STAT_REKEY ∨ s.sealSize r = 0 then
    s.refuseWrite req (F.CRY_REKEY_GO.off 0 0)
  else s.rekeyStart r

/-- REKEY_GO (R571). -/
def execRekeyGo (req : Req) (value : Nat) (s : State) : Res := 
  .next (s.when true (fun s => s.byReq req (F.CRY_REKEY_GO.off 0 0) (fun s => s.rekeyGo req value)))

/-- Leaf `i` of region `r` is written under the new key (R574): MINOR 1 for each line that was not fresh. -/
def State.rekeyLeaf (s : State) (r i : Nat) : State :=
  let m := (List.range 64).foldl (fun (m : Map Nat) c => if s.freshLine r (64 * i + c) then m else Map.set 0 m c 1) []
  match s.node? r 0 i with
  | some _ => s.setNode r 0 i { minors := m, cached := true, dirty := true }
  | none => s

/-- Completes the nodes of levels `l` and above whose range ends at child `i` of level `l - 1` (R575). -/
def State.rekeyNodes (s : State) (r : Nat) : Nat → Nat → Nat → State
  | 0, _, _ => s
  | f + 1, l, i =>
    if s.topLevel r < l ∨ ¬ ((i + 1) % 64 = 0 ∨ i + 1 = s.nodeCount r (l - 1)) then s
    else
      let j := i / 64
      let s := match s.node? r l j with
        | some _ =>
          let m := (List.range 64).foldl (fun (m : Map Nat) c =>
            if (s.node? r (l - 1) (64 * j + c)).isSome then Map.set 0 m c 1 else m) []
          s.setNode r l j { minors := m, cached := true, dirty := true }
        | none => s
      State.rekeyNodes s r f (l + 1) j

/-- The region's end is reached (R576): OLD_KID goes, and a waiting region starts. -/
def State.rekeyEnd (s : State) (r : Nat) : State :=
  let s := (s.zeroise (s.rd F.CRY_SEAL_STAT_OLD_KID r)).put F.CRY_SEAL_STAT_OLD_KID 0 r
  let s := (s.put F.CRY_SEAL_STAT_REKEY 0 r).put F.CRY_STAT_REKEY 0
  let s := s.put F.CRY_MAJOR_MAX
    ((s.cry.nodes.filter (fun e => e.1 / 2 ^ 35 = r)).foldl (fun m e => max m ((e.2.map (fun x => x.major)).getD 0)) 0) r
  let s := s.post E.CRY_REKEY_DONE r ((s.time - s.cry.rekeyAt) / 1000000)
  match s.cry.rekeyQ with
  | [] => s
  | q :: l => if s.on F.CRY_CTL_REKEY_EN then { s with cry.rekeyQ := l }.rekeyStart q else { s with cry.rekeyQ := [] }

/-- REKEY_SWEEP_STEP (R574 to R576): the leaf at the pointer. Lines whose ciphertext is found changed, in the bits of `flips`, fail
their tag under OLD_KID and stay as they are; `owner` is the spilled task that a bad line of region 2 holds. -/
def execRekeySweepStep (flips : List (Nat × Nat)) (owner : Nat) (s : State) : Res :=
  .next (s.when (s.on F.CRY_STAT_REKEY) (fun s =>
    let r := s.rd F.CRY_STAT_REGION
    let p := s.rd64 F.CRY_SWEEP_LO F.CRY_SWEEP_HI r
    let i := (p - s.sealBase r) / 4096
    let s := if s.underDamage r (64 * i) then s
      else
        let bad := (flips.filter (fun e => s.tagFails r e.1 e.2 0)).map Prod.fst
        let s := bad.foldl (fun s n => (s.tagFail r n).lineBad r (s.ownerOf r n owner) n) s
        (s.rekeyLeaf r i).rekeyNodes r 7 1 i
    let s := s.put64 F.CRY_SWEEP_LO F.CRY_SWEEP_HI (p + 4096) r
    if s.sealBase r + s.sealSize r ≤ p + 4096 then s.rekeyEnd r else s))

/-- A write of CRY_RESEAL_GO (R579, R580): a value other than 1 is refused (R899). -/
def State.resealGo (s : State) (req : Req) (value : Nat) : State :=
  if value ≠ 1 then s.refuseWrite req (F.CRY_RESEAL_GO.off 0 0)
  else
    let x := s.resealRange (s.rd64 F.CRY_RESEAL_LO F.CRY_RESEAL_HI) (4096 * s.rd F.CRY_RESEAL_LEN)
    x.1.put F.CRY_KEY_RESULT_STATUS x.2.1

/-- RESEAL_GO (R579). -/
def execResealGo (req : Req) (value : Nat) (s : State) : Res := 
  .next (s.when true (fun s => s.byReq req (F.CRY_RESEAL_GO.off 0 0) (fun s => s.resealGo req value)))

/-- Buffer lines of half `r` with a block under a node, and those blocks. -/
def State.linesUnder (s : State) (r level idx : Nat) : List (Nat × Line × List (Nat × Blk)) :=
  let d := s.damageRange (r, level, idx)
  (s.halfLines r).filterMap (fun e => match e.2 with
    | some l =>
      let bl := l.data.filter (fun x => decide (d.1 ≤ s.blkAt r l x.1) && decide (s.blkAt r l x.1 < d.1 + d.2))
      if bl.isEmpty then none else some (e.1, l, bl)
    | none => none)

/-- A healed line of the own half is written back to the rebuilt node (R581, log entry 214). -/
def State.writeBack (s : State) (x : Nat × Line × List (Nat × Blk)) : State :=
  if x.2.1.lost then s
  else (s.updLine x.1 (fun l => { l with data := x.2.1.data, healed := false })).sealBuf 0 x.2.1 x.2.2

/-- AUTO_RESEAL (R581): the buffer lines under a damaged node of region 0 are healed or given up, those of region 1 given
up and the descriptors of region 2 returned (`owners` names them); then the node is rebuilt and the healed lines are written back. It
waits for a re-key, and for heals still outstanding. -/
def execAutoReseal (r level idx : Nat) (owners : List Nat) (s : State) : Res :=
  .next (s.when (s.on F.CRY_CTL_AUTO_RESEAL && decide (r < 3) && s.cry.damaged.contains (r, level, idx) && !s.rekeying r)
    (fun s =>
      let ls := if r < 2 then s.linesUnder r level idx else []
      let ask := if r = 2 then owners else (ls.filter (fun x => !x.2.1.healed)).map Prod.fst
      let s := ask.foldl (fun s b => s.lineBad r b ((s.damageRange (r, level, idx)).1 / 64)) s
      if r = 0 then
        if ls.any (fun x => s.healWaits 0 x.1) then s
        else (s.linesUnder 0 level idx).foldl State.writeBack (s.resealNode 0 level idx)
      else s.resealNode r level idx))

end Sys2Proof.Machine
end

