-- ==== Sys2Proof/Machine/Routes.lean ====
section
/-! DEFINITION. The Skidway's topology and routes: routers, ports and links, the NIs' route tables and the routers' return
tables (R589 to R592, R600 to R602). -/

namespace Sys2Proof.Machine
open Sys2Proof

/-! ### Topology (R589, R591, R592) -/

/-- Router and local port of an NI (Tables NOC-1 and NOC-2). Routers are numbered as in R621. -/
def niHome (n : Nat) : Nat × Nat :=
  if n < 0x20 then (n / 8, 4 + n % 8)
  else if n < 0x40 then (12 + (n - 0x20) / 8, 4 + n % 8)
  else if n < 0x58 then ([4, 8, 7, 11].getD ((n - 0x40) / 6) 0, 6 + (n - 0x40) % 6)
  else if 0x60 ≤ n ∧ n < 0xA0 then ([5, 6, 9, 10].getD ((n - 0x60) / 16) 0, 4 + n % 16)
  else if n = 0xA0 then (5, 20)
  else if n = 0xA1 then (6, 20)
  else if n = 0xA2 then (6, 21)
  else if n = 0xA3 then (9, 20)
  else if n = 0xA4 then (9, 21)
  else if n = 0xA5 then (10, 20)
  else if n < 0x180 then (16 + (n - 0x100) / 4, 4 + n % 4)
  else (48 + (n - 0x180) / 2, 4 + n % 2)

/-- Every NI of Table NOC-2. -/
def allNis : List Nat :=
  List.range 0x58 ++ (List.range 70).map (· + 0x60) ++ (List.range 128).map (· + 0x100) ++ (List.range 8).map (· + 0x180)

/-- Spine router and port of the boundary link of an even strip. -/
def stripLink (d s : Nat) : Nat × Nat := ([0, 2, 12, 14].getD d 0 + s / 4, 12 + s % 4 / 2)

/-- Spine router of a media router. -/
def mediaSpine (r : Nat) : Nat := [4, 8, 7, 11].getD (r - 48) 0

/-- The router at the far end of a port; none for a local port. -/
def neighbour (r p : Nat) : Option Nat :=
  if r < 16 then
    if p = 0 then (if r < 4 then none else some (r - 4))
    else if p = 1 then (if r % 4 = 3 then none else some (r + 1))
    else if p = 2 then (if 12 ≤ r then none else some (r + 4))
    else if p = 3 then (if r % 4 = 0 then none else some (r - 1))
    else if (r < 4 ∨ 12 ≤ r) ∧ (p = 12 ∨ p = 13) then
      (((List.range 4).flatMap (fun d => [0, 2, 4, 6].map (fun s => (d, s)))).find? (fun x => stripLink x.1 x.2 = (r, p))).map
        (fun x => 16 + 8 * x.1 + x.2)
    else if (p = 4 ∨ p = 5) ∧ (r = 4 ∨ r = 8 ∨ r = 7 ∨ r = 11) then
      (List.range 4).findSome? (fun i => if mediaSpine (48 + i) = r then some (48 + i) else none)
    else none
  else if r < 48 then
    let d := (r - 16) / 8
    let s := (r - 16) % 8
    if p = 0 then some (16 + 8 * d + (s + 1) % 8)
    else if p = 1 then some (16 + 8 * d + (s + 7) % 8)
    else if p = 2 ∧ s % 2 = 0 then some (stripLink d s).1
    else none
  else if p = 0 then some (48 + (r - 48) / 2 * 2 + (1 - r % 2))
  else if p = 2 ∨ p = 3 then some (mediaSpine r)
  else none

/-! ### Routes (R600, R601, Table NOC-4) -/

/-- Hops along a row from column x to column x'. -/
def hopsX (x x' : Nat) : List Nat := if x ≤ x' then List.replicate (x' - x) 1 else List.replicate (x - x') 3
/-- Hops along a column from row y to row y'. -/
def hopsY (y y' : Nat) : List Nat := if y ≤ y' then List.replicate (y' - y) 2 else List.replicate (y - y') 0

/-- Ports of a spine path. The alternate of a straight path steps aside, runs parallel and steps back into the
destination (log entry 15). -/
def spineHops (a b : Nat) (alt : Bool) : List Nat :=
  let x := a % 4
  let y := a / 4
  let x' := b % 4
  let y' := b / 4
  if ¬ alt ∨ a = b then hopsX x x' ++ hopsY y y'
  else if x ≠ x' ∧ y ≠ y' then hopsY y y' ++ hopsX x x'
  else if y = y' then (if y = 3 then [0] else [2]) ++ hopsX x x' ++ (if y = 3 then [2] else [0])
  else (if x = 3 then [3] else [1]) ++ hopsY y y' ++ (if x = 3 then [1] else [3])

/-- From a router to the spine: ports taken, and the spine router reached. -/
def upHops (r : Nat) (alt : Bool) : List Nat × Nat :=
  if r < 16 then ([], r)
  else if r < 48 then
    let d := (r - 16) / 8
    let s := (r - 16) % 8
    if s % 2 = 0 then
      if alt then ([0, 0, 2], (stripLink d ((s + 2) % 8)).1) else ([2], (stripLink d s).1)
    else if alt then ([0, 2], (stripLink d ((s + 1) % 8)).1) else ([1, 2], (stripLink d (s - 1)).1)
  else (if alt then [3] else [2], mediaSpine r)

/-- From the spine to an NI: the spine router left, and the ports taken from it on. -/
def downHops (n : Nat) (alt : Bool) : Nat × List Nat :=
  let h := niHome n
  let r := h.1
  if r < 16 then (r, [h.2])
  else if r < 48 then
    let d := (r - 16) / 8
    let s := (r - 16) % 8
    if s % 2 = 0 then
      if alt then
        let l := stripLink d ((s + 2) % 8)
        (l.1, [l.2, 1, 1, h.2])
      else
        let l := stripLink d s
        (l.1, [l.2, h.2])
    else if alt then
      let l := stripLink d ((s + 1) % 8)
      (l.1, [l.2, 1, h.2])
    else
      let l := stripLink d (s - 1)
      (l.1, [l.2, 0, h.2])
  else (mediaSpine r, [if alt then 5 else 4, h.2])

/-- ROUTE field of a list of ports (Table NOC-3). -/
def routeNum (l : List Nat) : Nat :=
  let l := l.take 12
  (if l.length < 12 then l ++ [31] else l).foldr (fun p n => p + 32 * n) 0

/-- Route from a router to an NI (R601, R602). -/
def routerRoute (r dst : Nat) (alt : Bool) : Nat :=
  let u := upHops r alt
  let d := downHops dst alt
  routeNum (u.1 ++ spineHops u.2 d.1 alt ++ d.2)

/-- Route that the system controller builds from one NI to another (R601). -/
def tableRoute (src dst : Nat) (alt : Bool) : Nat := routerRoute (niHome src).1 dst alt

/-- Router and port of each hop of a ROUTE from a router. -/
def walk : Nat → Nat → Nat → List (Nat × Nat)
  | 0, _, _ => []
  | f + 1, r, route =>
    let p := route % 32
    if p = 31 then []
    else match neighbour r p with
      | some r' => (r, p) :: walk f r' (route / 32)
      | none => [(r, p)]

/-- Route-table entry (R600). -/
def State.rte (s : State) (src dst : Nat) : Rte := Map.get {} s.noc.routes (1024 * src + dst)

/-- Changes a route-table entry. -/
def State.updRte (s : State) (src dst : Nat) (f : Rte → Rte) : State :=
  { s with noc.routes := Map.upd {} s.noc.routes (1024 * src + dst) f }

/-- Primary or alternate ROUTE in force. -/
def State.routeOf (s : State) (src dst : Nat) (alt : Bool) : Nat :=
  let e := s.rte src dst
  (if alt then e.alt else e.pri).getD (tableRoute src dst alt)

/-- Hops of a packet from one NI to another. -/
def State.hops (s : State) (src dst : Nat) (alt : Bool) : List (Nat × Nat) :=
  walk 12 (niHome src).1 (s.routeOf src dst alt)

/-- Entry of a router's return table (R602). -/
def State.ret (s : State) (r dst : Nat) : Rte := Map.get {} s.noc.rets (1024 * r + dst)

/-- Hops of a ROUTE_CLOSED completion from the router that absorbed the request (R602, R606). -/
def State.retHops (s : State) (r dst : Nat) (alt : Bool) : List (Nat × Nat) :=
  let e := s.ret r dst
  walk 12 r ((if alt then e.alt else e.pri).getD (routerRoute r dst alt))

/-- Port at the far end of a link (Table NOC-1). -/
def farPort (r p : Nat) : Nat :=
  if r < 16 then (if p < 4 then (p + 2) % 4 else if p = 4 ∨ p = 5 then p - 2 else 2)
  else if r < 48 then
    if p < 2 then 1 - p else (stripLink ((r - 16) / 8) ((r - 16) % 8)).2
  else if p = 0 then 0 else p + 2

/-- Die of a router: none for H, else its boundary number k (R619). -/
def routerDie (r : Nat) : Option Nat :=
  if r < 16 then none else if r < 48 then some ((r - 16) / 8) else some (4 + (r - 48) / 2)

/-- Boundaries that a path crosses, in order: k, and whether outbound from H (R619). -/
def crossings (path : List (Nat × Nat)) : List (Nat × Bool) :=
  path.filterMap (fun h => match neighbour h.1 h.2 with
    | some r => (match routerDie h.1, routerDie r with
      | none, some k => some (k, true)
      | some k, none => some (k, false)
      | _, _ => none)
    | none => none)

/-- HUBCLK cycles from injection to the last output port of a path (R20, R590). -/
def transit (path : List (Nat × Nat)) : Nat := 4 + 2 * path.length + 8 * (crossings path).length

/-- Input port at which a path from local port `p` reaches its last router. -/
def lastInput (p : Nat) : List (Nat × Nat) → Nat
  | a :: b :: l => lastInput (farPort a.1 a.2) (b :: l)
  | _ => p

end Sys2Proof.Machine
end

