-- ==== Sys2Proof/Machine/Noc.lean ====
section
/-! DEFINITION. The Skidway: the checks of a requesting NI, arbitration, completions, retries, timeouts, closed ports
and fences (R593 to R618). Deliveries to units stand in Machine/Access.lean. -/

namespace Sys2Proof.Machine
open Sys2Proof

/-! ### Packets -/

/-- Key of a request at its requester. -/
def pktKey (src txn : Nat) : Nat := 1024 * src + txn % 1024

/-- A request. -/
def State.pkt (s : State) (k : Nat) : Option Pkt := Map.get none s.noc.pkts k

/-- Writes a request. -/
def State.setPkt (s : State) (k : Nat) (p : Pkt) : State := { s with noc.pkts := Map.set none s.noc.pkts k (some p) }

/-- Changes a request that exists. -/
def State.updPkt (s : State) (k : Nat) (f : Pkt → Pkt) : State :=
  match s.pkt k with
  | some p => s.setPkt k (f p)
  | none => s

/-- Removes a request. -/
def State.dropPkt (s : State) (k : Nat) : State :=
  { s with noc.pkts := Map.erase s.noc.pkts k, fab.treq := s.fab.treq.filter (· ≠ k) }

/-- Requests outstanding at an NI (R594); a request whose attempt has ended is not. -/
def State.outstanding (s : State) (n : Nat) : Nat :=
  Map.count (fun k o => k / 1024 == n && (match o with
    | some p => !p.late
    | none => false)) s.noc.pkts

/-- Requests an NI can hold outstanding (R594). -/
def niLimit (n : Nat) : Nat := if 0x60 ≤ n ∧ n < 0xA0 then 64 else 1024

/-- Destination NI of a device physical address (Table NOC-2); none where nothing is mapped (R27, R520, R809). -/
def State.destNi (s : State) (a : Nat) : Option Nat :=
  match daDest a with
  | .hbm x => if s.hbmTop ≤ x then none else some (hbmPc x / 2)
  | .spm b _ => some (0x40 + b)
  | .landing n _ => some (0x100 + n)
  | .control o =>
    let i := if o < 0x2000000 then o / 0x100000 else if o < 0x2400000 then (o - 0x2000000) / 0x20000 else 31
    if 21 ≤ i then none
    else some (match i with
      | 7 => 0xA0
      | 6 => 0xA1
      | 19 => 0xA2
      | 16 => 0xA2
      | 12 => 0xA3
      | 11 => 0xA4
      | 9 => 0x180
      | 10 => 0x184
      | _ => 0xA5)
  | .unmapped => none

/-- Block index of a control-space offset, registers and bit-alias window alike (R93). -/
def ctrlBlock (o : Nat) : Nat := if o < 0x2000000 then o / 0x100000 else (o - 0x2000000) / 0x20000

/-- A raw port of MEDA or MEDB (R320), which takes a whole descriptor in one write. -/
def rawPort (o : Nat) : Bool :=
  (o / 0x100000 == 9 || o / 0x100000 == 10) && decide (0x80000 ≤ o % 0x100000) && decide (o % 0x100000 < 0x88000)

/-- Skidway level of a priority (R599). -/
def levelOf (p : Option Nat) : Nat :=
  match p with
  | some n => n / 2
  | none => 2

/-- Epoch unit of an NI's unit (Table PWR-7). -/
def niUnit (n : Nat) : Nat :=
  if n < 0x40 then 9 else if n < 0x58 then 10 else if n < 0xA0 then 3 else if n = 0xA0 then 2 else if n = 0xA1 then 1
  else if n = 0xA2 then 0 else if n = 0xA3 then 6 else if n = 0xA4 then 8 else if n = 0xA5 then 13
  else if n < 0x180 then 11 else if n < 0x184 then 4 else 5

/-- Epoch a unit shows (R736). -/
def State.unitEpoch (s : State) (u : Nat) : Nat := s.rd F.PWR_UNIT_EPOCH_EPOCH u

/-- Epoch a is older than b (R736). -/
def epochOlder (a b : Nat) : Bool :=
  let d := (b + 65536 - a % 65536) % 65536
  decide (1 ≤ d) && decide (d ≤ 32767)

/-- A packet crosses at injection point `pt`: one held back there by REORDER follows it (R483, R619). -/
def State.unpark (s : State) (pt : Nat) : State :=
  if s.noc.pkts.any (fun e => match e.2 with
    | some p => p.parked == some pt
    | none => false) then
    { s with
      noc.pkts := Map.mapAll none (fun _ (o : Option Pkt) => o.map (fun p =>
        if p.parked = some pt then { p with parked := none, leftAt := s.time, seq := s.noc.seq + 1 } else p)) s.noc.pkts
      noc.seq := s.noc.seq + 1 }
  else s

/-- A packet crosses boundary `k` outbound from H or inbound: generators of its point may fire. One that drops or damages it makes the
receiver lose it (R483, R618); one that reorders it holds it back until the next packet crosses (R619). -/
def State.cross (s : State) (k : Nat) (out resp : Bool) : State × Bool × Option Nat :=
  let pt := 2 + 2 * k + b2n (!out)
  let r := s.inject pt (if resp then 2 else 1)
  let mode (g : Nat) : Nat := r.1.rd F.INJ_GEN_CTL_MODE g
  let u := r.1.unpark pt
  if r.2.any (fun g => mode g == 0) then (u, true, none)
  else if r.2.any (fun g => mode g == 1) then ((u.bump F.NOC_BND_CRC 1 k).post E.NOC_CRC_FAIL k, true, none)
  else (u, false, if r.2.any (fun g => mode g == 3) then some pt else none)

/-- A packet crosses the boundaries of its path, up to the one that loses it or holds it back. -/
def State.crossAll (s : State) (resp : Bool) : List (Nat × Bool) → State × Bool × Option Nat
  | [] => (s, false, none)
  | x :: l =>
    let r := s.cross x.1 x.2 resp
    if r.2.1 ∨ r.2.2.isSome then r else State.crossAll r.1 resp l

/-! ### Delivery to the requester (R596, R607, R609, R617, R442 to R446) -/

/-- Codes the retry rule covers (R442). -/
def isTransient (st : Nat) : Bool := st == 0x0A || st == 0x10 || st == 0x11

/-- A Deck task's request ends its task's work: a host segment stops at its first block affected (R617), an internal task
that met EPOCH_STALE is requeued once and then ends (R285). -/
def State.taskFault (s : State) (e st wher : Nat) : State :=
  match s.taskOn e false with
  | none => s
  | some n =>
    match s.task n with
    | none => s
    | some t =>
      match t.internal, t.tag with
      | false, some k => s.segEnd k t.seg st 11 wher
      | true, _ =>
        if st = 0x0E ∧ ¬ t.requeued then
          (s.leaveEngine n).updTask n (fun x =>
            { x with st := .ready, requeued := true, epoch := s.rd F.GLB_EPOCH_NEXT, listed := s.time })
        else (s.workLost t).endTask n
      | _, _ => s

/-- A host access to a landing window ends on PCIe (R795): a completion with data for a read, 0 where the request did not
end with SUCCESS, which is reported as well. -/
def State.barDone (s : State) (fn : Nat) (p : Pkt) (st data : Nat) : State :=
  let s : State := if p.req.write ∨ s.pci.inReset ∨ s.on F.PCI_FN_STAT_FLR fn then s
    else { s with out := s.out ++ [.barCpl fn true (if st = 0 then data else 0)] }
  if st = 0 then s
  else (s.bump F.PCI_ACCESS_FAULTS).post E.PCI_ACCESS_FAULT fn
    (st + 4 * 2 ^ 8 + 2 ^ 16 * (p.req.addr % 2 ^ 48 - 0x020000000000))

/-- An NI hands an answer to its unit or to user logic. -/
def State.giveBack (s : State) (p : Pkt) (st data : Nat) : State :=
  let s := match p.who with
    | .host fn => s.barDone fn p st data
    | _ => s
  let s : State := { s with noc.got := s.noc.got ++ [{ ni := p.req.src, txn := p.req.txn, status := st, data := data }] }
  if st ≠ 0 ∧ 0x60 ≤ p.req.src ∧ p.req.src < 0xA0 then s.taskFault (p.req.src - 0x60) st p.req.addr else s

/-- A free TXN of an NI. -/
def State.freeTxn (s : State) (n : Nat) : Option Nat := s.pickIndex (fun i => (s.pkt (pktKey n i)).isSome) 1024

/-- An attempt of a request has ended with `st` at its NI: it is retried, or its status goes to the unit (R442, R443,
R446, R448); user logic applies its own rule (R643). `old` is the key of the attempt. -/
def State.attemptEnd (s : State) (old : Nat) (p : Pkt) (st data : Nat) : State :=
  let landing := decide (0x100 ≤ p.req.src) && decide (p.req.src < 0x180)
  if isTransient st ∧ ¬ landing then
    if p.attempt < s.retryLimit ∧ ¬ s.lve.pfLow then
      let s := match p.req.ltag with
        | some k => s.updCmd k (fun c => { c with retries := c.retries + 1 })
        | none => s
      let p : Pkt := { p with attempt := p.attempt + 1, backoff := true, last := st, answer := none, atUnit := false, held := false
                              lost := false, late := false, parked := none }
      if (s.pkt old).isNone then s.setPkt old p
      else match s.freeTxn p.req.src with
        | some t => s.drawn.setPkt (pktKey p.req.src t) { p with req := { p.req with txn := t } }
        | none => s.giveBack p st 0
    else (s.post E.RETRY_EXHAUSTED (11 + st * 256) p.req.addr p.req.ltag).giveBack p st 0
  else s.giveBack p st data

/-- An NI answers its own unit's request without sending it. -/
def State.niAnswer (s : State) (p : Pkt) (st data : Nat) : State := s.giveBack p st data

/-! ### Sending (R593 to R600, R604, R609, R610) -/

/-- Chooses the route and injects the packet. With both routes closed the NI answers ROUTE_CLOSED itself. -/
def State.launch (s : State) (k : Nat) (p : Pkt) : State :=
  let e := s.rte p.req.src p.dst
  if ¬ e.pOk ∧ ¬ e.aOk then (s.dropPkt k).attemptEnd k p 0x10 0
  else
    let alt := !e.pOk
    let r := s.crossAll false (crossings (s.hops p.req.src p.dst alt))
    { r.1.setPkt k { p with
        alt := alt, sentAt := s.time, leftAt := s.time, seq := s.noc.seq, retFrom := none, lost := r.2.1, parked := r.2.2, backoff := false
        epoch := s.unitEpoch (niUnit p.req.src) } with noc.seq := r.1.noc.seq + 1 }

/-- A request to the same destination is outstanding on the other route (R604). -/
def State.routeHeld (s : State) (src dst : Nat) : Bool :=
  let e := s.rte src dst
  (e.pOk || e.aOk) && s.noc.pkts.any (fun x => match x.2 with
    | some p => x.1 / 1024 == src && p.dst == dst && !p.late && !p.backoff && p.alt != !e.pOk
    | none => false)

/-- The checks of a requesting NI (R593, R597, R27, R92, R810): the answer the NI gives itself, with its event. -/
def State.niCheck (s : State) (who : Req) (q : SkReq) : State × Option Nat :=
  if q.len = 0 ∨ 256 < q.len ∨ 256 < q.addr % 256 + q.len ∨ (q.bitset ∧ q.bitclr) ∨ ((q.bitset ∨ q.bitclr) ∧ ¬ q.write) then
    (s, some 0x03)
  else match s.destNi q.addr with
    | none => (s.post E.ADDR_UNMAPPED (reqCode who) (q.addr % 2 ^ 48) q.ltag, some 0x03)
    | some _ =>
      match daDest q.addr with
      | .control o =>
        if (q.len ≠ 4 ∨ o % 4 ≠ 0) ∧ ¬ (q.write ∧ rawPort o) then (s, some 0x03)
        else
          let m := s.access who (ctrlBlock o)
          if m = 3 ∨ (m = 1 ∧ ¬ q.write) then (s, none)
          else (s.post E.ACCESS_DENIED (reqCode who) (q.addr % 2 ^ 48) q.ltag, some 0)
      | _ => (s, none)

/-- LONG of a request: set on every write to a raw port and on every request with WAKE (R610). -/
def longOf (q : SkReq) : Bool :=
  q.long || q.wake || (q.write && (match daDest q.addr with
    | .control o => rawPort o
    | _ => false))

/-- A unit gives its NI a request. A full NI (R594), a TXN in use and a changed route (R604) make it wait. -/
def State.skSend (s : State) (who : Req) (q : SkReq) : State :=
  let k := pktKey q.src q.txn
  if (s.pkt k).isSome ∨ niLimit q.src ≤ s.outstanding q.src then s
  else
    let p : Pkt := { req := { q with txn := q.txn % 1024 }, who := who, level := levelOf q.prio }
    match s.niCheck who q with
    | (s, some st) => s.niAnswer p st 0
    | (s, none) =>
      match s.destNi q.addr with
      | some d => if s.routeHeld q.src d then s else s.launch k { p with dst := d }
      | none => s

/-- SKIDWAY_REQUEST_SEND (R593 to R600, R609, R610): a unit's request. -/
def execSkidwayRequestSend (who : Req) (q : SkReq) (s : State) : Res :=
  .next (s.when (!(decide (0x100 ≤ q.src) && decide (q.src < 0x180))) (fun s =>
    s.skSend who { q with long := longOf q }))

/-! ### Answers -/

/-- The target sends its answer back (R596). A completion that a boundary loses leaves the requester to its timer. -/
def State.answer (s : State) (k : Nat) (st data : Nat) : State :=
  match s.pkt k with
  | none => s
  | some p =>
    let s := if st = 0x11 then s.bump F.NOC_PEER_RESETS else s
    let e := s.rte p.dst p.req.src
    let alt := !e.pOk && e.aOk
    let r := s.crossAll true (crossings (s.hops p.dst p.req.src alt))
    let data := if st = 0 then data else 0
    { r.1.setPkt k { p with
        answer := some (st, data), ralt := alt, leftAt := s.time, seq := s.noc.seq, atUnit := false, held := false
        lost := p.lost || r.2.1, parked := r.2.2 } with
      noc.seq := r.1.noc.seq + 1
      fab.treq := s.fab.treq.filter (· ≠ k)
      noc.tmos := if p.atUnit then Map.erase r.1.noc.tmos p.dst else r.1.noc.tmos }

/-- ROUTE_CLOSED clears P_OK of the entry, or A_OK when P_OK was already 0 (R607). -/
def State.routeClosed (s : State) (src dst : Nat) : State :=
  s.updRte src dst (fun e => if e.pOk then { e with pOk := false } else { e with aOk := false })

/-! ### Arbitration (R603 to R605) -/

/-- Path of the packet of a request that is in transit: of its completion once it is answered. -/
def State.pathOf (s : State) (p : Pkt) : List (Nat × Nat) :=
  if p.answer.isSome then
    (match p.retFrom with
    | some r => s.retHops r p.req.src p.ralt
    | none => s.hops p.dst p.req.src p.ralt)
  else s.hops p.req.src p.dst p.alt

/-- A packet of this request is in transit. -/
def Pkt.moving (p : Pkt) : Bool := !p.lost && !p.backoff && p.parked.isNone && (p.answer.isSome || (!p.atUnit && !p.held))

/-- Time, in ns, at which a packet's head is at its last output port (R20, R590, at 1.8 GHz). -/
def State.portAt (s : State) (p : Pkt) : Nat := p.leftAt + transit (s.pathOf p) * 5 / 9

/-- HUBCLK cycles a head has waited at its last output port. -/
def State.waited (s : State) (p : Pkt) : Nat := (s.time - s.portAt p) * 9 / 5

/-- Input port at which a packet waits at its last router. -/
def State.inPort (s : State) (p : Pkt) : Nat :=
  lastInput (if p.answer.isSome then (match p.retFrom with
    | some _ => 31
    | none => (niHome p.dst).2) else (niHome p.req.src).2) (s.pathOf p)

/-- Buffer class of a packet in transit (R603): response, alternate. -/
def Pkt.cls (p : Pkt) : Bool × Bool := if p.answer.isSome then (true, p.ralt) else (false, p.alt)

/-- Packets waiting with `p` at the last output port of its path; `p` is one of them. A packet whose path meets a closed
port is absorbed there (R606) and does not wait. -/
def State.rivals (s : State) (p : Pkt) : List Pkt :=
  let out := (s.pathOf p).getLast?
  s.noc.pkts.filterMap (fun e => match e.2 with
    | some q =>
      let h := s.pathOf q
      if q.seq = p.seq ∨ (q.moving ∧ h.getLast? = out ∧ s.portAt q ≤ s.time
          ∧ ¬ h.any (fun x => s.noc.closed.contains (32 * x.1 + x.2))) then some q else none
    | none => none)

/-- Compares two lists of numbers, the first different one decides. -/
def lexLess : List Nat → List Nat → Bool
  | a :: l, b :: m => decide (a < b) || (a == b && lexLess l m)
  | _, _ => false

/-- Order in which heads are granted (R605): the class, the age or level, the round robin of input ports. -/
def State.grantRank (s : State) (p : Pkt) : List Nat :=
  let w := s.waited p
  let last := match (s.pathOf p).getLast? with
    | some h => Map.get 31 s.noc.rr (32 * h.1 + h.2)
    | none => 31
  [if p.answer.isSome then 1 else if s.rd F.NOC_ARB_CFG_RESP_YIELD ≤ w then 0 else 2,
   if s.rd F.NOC_ARB_CFG_AGE ≤ w then 0 else 1 + p.level,
   (s.inPort p + 31 - last) % 32,
   p.seq]

/-- A packet is the head of its class at its input port: those before it in the order they came are gone (R604). -/
def State.isHead (s : State) (l : List Pkt) (p : Pkt) : Bool :=
  l.all (fun q => !(s.inPort q == s.inPort p && q.cls == p.cls && lexLess [s.portAt q, q.seq] [s.portAt p, p.seq]))

/-- The packet is the one its last output port grants now. -/
def State.granted (s : State) (p : Pkt) : Bool :=
  let l := s.rivals p
  s.isHead l p && l.all (fun q => !(s.isHead l q && lexLess (s.grantRank q) (s.grantRank p)))

/-- The port serves the packet: its input port is served last in the next round. -/
def State.grant (s : State) (p : Pkt) : State :=
  match (s.pathOf p).getLast? with
  | some h => { s with noc.rr := Map.set 31 s.noc.rr (32 * h.1 + h.2) (s.inPort p) }
  | none => s

/-- SKIDWAY_COMPLETION (R596, R605, R607, R617): the completion of request `key` reaches its requester, once its output
port grants it. -/
def execSkidwayCompletion (key : Nat) (s : State) : Res :=
  .next (s.when true (fun s => match s.pkt key with
    | some p =>
      match p.answer with
      | some (st, data) =>
        if p.lost ∨ p.parked.isSome ∨ ¬ s.granted p then s
        else if p.late then (s.grant p).dropPkt key
        else
          let s := ((s.grant p).dropPkt key).raise F.NOC_RTT_NS_MAX (s.time - p.sentAt)
          let s := if st = 0x10 then s.routeClosed p.req.src p.dst else s
          s.attemptEnd key p st data
      | none => s
    | none => s))

/-- REQUEST_TIMEOUT (R609): the requester's timer expires; the attempt ends with TARGET_DOWN and its TXN is retired. -/
def execRequestTimeout (key : Nat) (s : State) : Res :=
  .next (s.when true (fun s => match s.pkt key with
    | some p =>
      if p.late ∨ p.backoff then s
      else
        let s := s.bump F.NOC_TMO
        let s := if p.lost then s.dropPkt key else s.setPkt key { p with late := true }
        s.attemptEnd key p 0x0A 0
    | none => s))

/-- The backoff of a request's retry ends: it is sent again, once no request to its destination is outstanding on another route (R443,
R444, R604). -/
def State.retrySkid (s : State) (k : Nat) : State :=
  match s.pkt k with
  | some p => if p.backoff ∧ ¬ s.routeHeld p.req.src p.dst then (s.bump F.NOC_RETRIES).launch k p else s
  | none => s

/-- The target of an NI has now timed out `n` times in a row: at COUNT its unit is isolated (R612). -/
def State.tmoCount (s : State) (d n : Nat) : State :=
  let s : State := { s with noc.tmos := Map.set 0 s.noc.tmos d n }
  if s.on F.NOC_CTL_ISO_EN ∧ max 1 (s.rd F.NOC_ISO_CFG_COUNT) ≤ n ∧ ¬ s.on F.NOC_NI_STAT_ISOLATED d then
    { s.put F.NOC_NI_STAT_ISOLATED 1 d with noc.isoAt := Map.set none s.noc.isoAt d (some s.time) }.post
      E.NOC_TARGET_ISOLATED d
  else s

/-- TARGET_TIMEOUT (R611, R612, R644): the target's timer of a request expires. -/
def execTargetTimeout (key : Nat) (s : State) : Res :=
  .next (s.when true (fun s => match s.pkt key with
    | some p =>
      if ¬ p.atUnit then s
      else
        let n := Map.get 0 s.noc.tmos p.dst + 1
        let s : State := if s.fab.treq.contains key then { s with fab.late := s.fab.late ++ [key] } else s
        ((s.bump F.NOC_TMO).answer key 0x0A 0).tmoCount p.dst n
    | none => s))

/-- Ends the isolation of an NI's unit. -/
def State.isoEnd (s : State) (n : Nat) : State :=
  let t := (Map.get none s.noc.isoAt n).getD s.time
  let s : State := { s.put F.NOC_NI_STAT_ISOLATED 0 n with
    noc.isoAt := Map.erase s.noc.isoAt n, noc.tmos := Map.erase s.noc.tmos n }
  s.post E.NOC_TARGET_RESTORED n ((s.time - t) / 1000)

/-- ISOLATION_PROBE (R612): the first probe answered ends the isolation. -/
def execIsolationProbe (ni : Nat) (answered : Bool) (s : State) : Res :=
  .next (s.when (s.on F.NOC_NI_STAT_ISOLATED ni && answered) (fun s => s.isoEnd ni))

/-! ### Closed ports (R606, R608) -/

/-- A router sends ROUTE_CLOSED to the requester of the request it absorbed, by its return table (R602, R606). With both
flags of the entry 0 no completion leaves the router, and the requester's timer ends the attempt. -/
def State.absorbed (s : State) (key router : Nat) (p : Pkt) : State :=
  let e := s.ret router p.req.src
  let alt := !e.pOk && e.aOk
  let r := s.crossAll true (crossings (s.retHops router p.req.src alt))
  { r.1.setPkt key { p with
      answer := some (0x10, 0), ralt := alt, retFrom := some router, leftAt := s.time, seq := s.noc.seq
      lost := r.2.1 || (!e.pOk && !e.aOk), parked := r.2.2 } with noc.seq := r.1.noc.seq + 1 }

/-- ROUTER_ABSORB (R606): a packet of request `key` meets a closed port; `resp` says it is the completion. -/
def execRouterAbsorb (key router port : Nat) (resp : Bool) (s : State) : Res :=
  .next (s.when true (fun s => match s.pkt key with
    | some p =>
      if ¬ s.noc.closed.contains (32 * router + port) ∨ ¬ (s.pathOf p).contains (router, port) ∨ ¬ p.moving
          ∨ resp ≠ p.answer.isSome then s
      else
        let s := s.bump F.NOC_ABSORBED
        if resp then
          (s.setPkt key { p with lost := true }).post E.NOC_ROUTE_CLOSED router (p.dst + 2 ^ 16 * p.req.src)
        else
          (s.absorbed key router p).post E.NOC_ROUTE_CLOSED router (p.req.src + 2 ^ 16 * p.dst)
    | none => s))

/-- A route of an NI pair uses a port that satisfies a test. -/
def State.routeUses (s : State) (src dst : Nat) (alt : Bool) (p : Nat → Bool) : Bool :=
  (s.hops src dst alt).any (fun h => p (32 * h.1 + h.2))

/-- Changes every route-table entry. -/
def State.mapRoutes (s : State) (f : State → Nat → Nat → State) : State :=
  allNis.foldl (fun s a => allNis.foldl (fun s b => if a = b then s else f s a b) s) s

/-- A port closes (R608): routes that use it lose their flag first. -/
def State.portClose (s : State) (req : Req) (value : Nat) : State :=
  let r := bits value 0 6
  let p := bits value 6 5
  let k := 32 * r + p
  if s.on F.NOC_STAT_RECONFIG then s.refuseWrite req (F.NOC_RECONFIG.off 0 0)
  else
    let s := s.mapRoutes (fun s a b =>
      let x := s.routeUses a b false (· == k)
      let y := s.routeUses a b true (· == k)
      if x || y then s.updRte a b (fun e => { e with pOk := e.pOk && !x, aOk := e.aOk && !y }) else s)
    let s : State := if s.noc.closed.contains k then s else { s with noc.closed := s.noc.closed ++ [k] }
    s.post E.NOC_RECONFIG_DONE r (p + 256)

/-- NOC_RECONFIG_CLOSE (R608). -/
def execNocReconfigClose (req : Req) (value : Nat) (s : State) : Res := 
  .next (s.when true (fun s => s.byReq req (F.NOC_RECONFIG.off 0 0) (fun s => s.portClose req value)))

/-- A port opens (R608): entries whose primary uses no other closed port go back to it first. -/
def State.portOpen (s : State) (req : Req) (value : Nat) : State :=
  let r := bits value 0 6
  let p := bits value 6 5
  let k := 32 * r + p
  if s.on F.NOC_STAT_RECONFIG then s.refuseWrite req (F.NOC_RECONFIG.off 0 0)
  else
    let left := s.noc.closed.filter (· ≠ k)
    let s := s.mapRoutes (fun s a b =>
      if (s.rte a b).pOk ∨ s.routeUses a b false (fun x => left.contains x) then s
      else s.updRte a b (fun e => { e with pOk := true }))
    { s with noc.closed := left }.post E.NOC_RECONFIG_DONE r p

/-- NOC_RECONFIG_OPEN (R608). -/
def execNocReconfigOpen (req : Req) (value : Nat) (s : State) : Res := 
  .next (s.when true (fun s => s.byReq req (F.NOC_RECONFIG.off 0 0) (fun s => s.portOpen req value)))

/-- A write of NOC_RTR_CLOSE (R606): the ports of the router that NOC_RTR_SEL shows are closed or opened. -/
def State.rtrClose (s : State) (value : Nat) : State :=
  let r := s.rd F.NOC_RTR_SEL
  { s with noc.closed := s.noc.closed.filter (fun k => k / 32 ≠ r) ++
    ((List.range 31).filter (bit value)).map (fun p => 32 * r + p) }

/-- NOC_RTR_CLOSE (R606). -/
def execNocRtrClose (value : Nat) (s : State) : Res := .next (s.when true (fun s => s.rtrClose value))

/-! ### Fences (R614, R734, R735) -/

/-- The unit of an NI goes into reset while the NI stays up: requests pending at it complete with PEER_RESET. -/
def State.fence (s : State) (n : Nat) : State :=
  let ks := (s.noc.pkts.filter (fun e => match e.2 with
    | some p => p.dst == n && (p.atUnit || p.held) && p.answer.isNone
    | none => false)).map Prod.fst
  let s := ks.foldl (fun s k => s.answer k 0x11 0) s
  (s.put F.NOC_NI_STAT_FENCED 1 n).put F.PWR_XING_STAT (setBits (s.rd F.PWR_XING_STAT) 0 1 1)

/-- FENCE_OPEN (R614): 8 cycles after the unit has left reset. -/
def execFenceOpen (ni : Nat) (s : State) : Res :=
  .next (s.when (s.on F.NOC_NI_STAT_FENCED ni) (fun s =>
    let s := s.put F.NOC_NI_STAT_FENCED 0 ni
    s.put F.PWR_XING_STAT (setBits (s.rd F.PWR_XING_STAT) 0 1 (b2n (allNis.any (fun n => s.on F.NOC_NI_STAT_FENCED n))))))

end Sys2Proof.Machine
end

