-- ==== Sys2Proof/Machine/Frames.lean ====
section
/-! DEFINITION. The frames of the configuration memory, their addresses and content, and the stands that hold them (R660 to R662, R665
to R667). -/

namespace Sys2Proof.Machine
open Sys2Proof

/-! ### Frame addresses (R660 to R662) -/

/-- DIE of a frame address. -/
def faDie (a : Nat) : Nat := bits a 30 2
/-- STRIP. -/
def faStrip (a : Nat) : Nat := bits a 27 3
/-- COL. -/
def faCol (a : Nat) : Nat := bits a 24 3
/-- ROW. -/
def faRow (a : Nat) : Nat := bits a 19 5
/-- KIND. -/
def faKind (a : Nat) : Nat := bits a 16 3
/-- MINOR. -/
def faMinor (a : Nat) : Nat := bits a 0 16

/-- The address names a frame (Table STD-2). -/
def frameOk (a : Nat) : Bool :=
  let c := faCol a
  let m := faMinor a
  let k := faKind a
  decide (faRow a < 24) &&
    (if c < 4 then (k == 0 && decide (m < 48)) || (k == 1 && decide (m < 64))
     else if c = 4 then (k == 2 && decide (m < 270)) || (k == 3 && faRow a % 4 == 0 && decide (m < 720)) || (k == 4 && decide (m < 8))
     else c == 5 && k == 5 && m == 0)

/-- A scanned frame; the others hold memory content. -/
def frameScanned (a : Nat) : Bool := frameOk a && faKind a != 2 && faKind a != 3

/-- Frame 0 of the memory whose content a frame of kind 2 or 3 holds. -/
def frameMem (a : Nat) : Nat := a - faMinor a % (if faKind a = 2 then 18 else 144)

/-- A cell of the frame space: die, strip, column and row in ascending address, as a number below 4,608. -/
def cellBase (c : Nat) : Nat := 2 ^ 30 * (c / 1152) + 2 ^ 27 * (c / 144 % 8) + 2 ^ 24 * (c / 24 % 6) + 2 ^ 19 * (c % 24)

/-- Scanned frames of a cell in ascending address. -/
def cellFrames (c : Nat) : List Nat :=
  let b := cellBase c
  let col := c / 24 % 6
  if col < 4 then (List.range 48).map (b + ·) ++ (List.range 64).map (b + 0x10000 + ·)
  else if col = 4 then (List.range 8).map (b + 0x40000 + ·) else [b + 0x50000]

/-! ### Stands (R665 to R667) -/

/-- State of a stand (Table STD-3). -/
def State.standSt (s : State) (i : Nat) : Nat := s.rd F.CFG_ST_STAT_STATE i

/-- The stand that holds row `r` of strip `st` of die `d`. -/
def State.standAt (s : State) (d st r : Nat) : Nat :=
  let e := 16 * d + 2 * st
  if s.standSt e ≠ 0 ∧ r ≤ s.rd F.CFG_ST_STAT_ROW_LAST e then e else e + 1

/-- The stand of a frame. -/
def State.frameStand (s : State) (a : Nat) : Nat := s.standAt (faDie a) (faStrip a) (faRow a)

/-- Tile rows of a stand. -/
def State.standRows (s : State) (i : Nat) : Nat :=
  if s.standSt i = 0 then 0 else s.rd F.CFG_ST_STAT_ROW_LAST i + 1 - s.rd F.CFG_ST_STAT_ROW_FIRST i

/-- A row of its strip belongs to a stand. -/
def State.rowIn (s : State) (i r : Nat) : Bool :=
  s.standSt i != 0 && decide (s.rd F.CFG_ST_STAT_ROW_FIRST i ≤ r) && decide (r ≤ s.rd F.CFG_ST_STAT_ROW_LAST i)

/-- Landings of a stand in landing order (R666). -/
def State.standLandings (s : State) (i : Nat) : List Nat :=
  ((List.range 4).filter (fun k => s.rowIn i (6 * k + 3))).map (fun k => 32 * (i / 16) + 4 * (i / 2 % 8) + k)

/-- The stand of a landing. -/
def State.landingStand (s : State) (n : Nat) : Nat := s.standAt (n / 32) (n / 4 % 8) (6 * (n % 4) + 3)

/-- Polder of a stand (Table PWR-1). -/
def standPolder (i : Nat) : Nat := 1 + i / 2

/-- Scanned frames of a stand. -/
def State.standScanned (s : State) (i : Nat) : Nat := 457 * s.standRows i

/-! ### Content -/

/-- 2 to the number of bits of a frame. -/
def frameMod : Nat := 2 ^ 2048

/-- A frame of the configuration memory. -/
def State.frame (s : State) (a : Nat) : Frm := Map.get {} s.sl.frames a

/-- Content of a frame: that of a memory is undefined in a part that was refused (Table BOT-9). -/
def State.frameLive (s : State) (a : Nat) : Nat :=
  match s.fab.memLost with
  | some d => if frameScanned a then (s.frame a).live else Config.lostFrame d a
  | none => (s.frame a).live

/-- Changes a frame. -/
def State.updFrm (s : State) (a : Nat) (f : Frm → Frm) : State :=
  { s with sl.frames := Map.upd {} s.sl.frames a f }

/-- RAM_MODE of cluster `c` of the tile of frame `a`, as the image cache records it (R691). -/
def State.ramMode (s : State) (a c : Nat) : Bool :=
  let b := 192 * c + 128
  bit ((s.frame (a - faMinor a + b / 256)).cache / 2 ^ (8 * (b % 256))) 0

/-- Scanned frames of a stand in ascending address. -/
def State.standFrames (s : State) (i : Nat) : List Nat :=
  (List.range 144).flatMap (fun c =>
    if s.rowIn i (c % 24) then cellFrames (1152 * (i / 16) + i / 2 % 8 * 144 + c) else [])

end Sys2Proof.Machine
end

