-- ==== Sys2Proof/Machine/Cells.lean ====
section
/-! DEFINITION. What user logic is built from and how it runs: cells, clusters, routing, memories, slices and their clocks (R622 to R641, R652,
R684, R713). What the frames set beyond LUTs and RAM_MODE has no layout in the spec: `Config` reads it (log entry 203). -/

namespace Sys2Proof.Machine
open Sys2Proof

/-! ### Places -/

/-- Strip of a tile, on its die. -/
def tileStrip (t : Nat) : Nat := t % 32 / 4

/-- Polder of a tile's strip (Table PWR-1). -/
def tilePolder (d t : Nat) : Nat := 1 + 8 * d + tileStrip t

/-- Key of a cluster. -/
def clusterKey (d t c : Nat) : Nat := 64 * (768 * d + t) + c

/-- First logic frame of a tile. -/
def tileFrame (d t : Nat) : Nat := 2 ^ 30 * d + 2 ^ 27 * tileStrip t + 2 ^ 24 * (t % 4) + 2 ^ 19 * (t / 32)

/-- Content frame 0 of a memory of a die: block memory 360s + 15r + i, or 0x8000 + 30s + 5b + i (Table STD-2). -/
def memFrame (d m : Nat) : Nat :=
  if m < 0x8000 then 2 ^ 30 * d + 2 ^ 27 * (m / 360) + 2 ^ 26 + 2 ^ 19 * (m % 360 / 15) + 2 ^ 17 + 18 * (m % 15)
  else
    let k := m - 0x8000
    2 ^ 30 * d + 2 ^ 27 * (k / 30) + 2 ^ 26 + 2 ^ 19 * (4 * (k % 30 / 5)) + 3 * 2 ^ 16 + 144 * (k % 5)

/-- Row of the hard column that holds a memory, and its strip. -/
def memPlace (m : Nat) : Nat × Nat :=
  if m < 0x8000 then (m / 360, m % 360 / 15) else ((m - 0x8000) / 30, 4 * ((m - 0x8000) % 30 / 5))

/-- Tiles whose logic frames hold anything, by die: a tile of zeroes is not configured (log entry 203). -/
def State.tilesOn (s : State) : List (Nat × Nat) :=
  ((s.sl.frames.filter (fun e => faKind e.1 == 0)).map (fun e =>
    (faDie e.1, 32 * faRow e.1 + 4 * faStrip e.1 + faCol e.1))).eraseDups

/-- Rows of hard columns whose settings hold anything: die, strip, row. -/
def State.hardOn (s : State) : List (Nat × Nat × Nat) :=
  ((s.sl.frames.filter (fun e => faKind e.1 == 4)).map (fun e => (faDie e.1, faStrip e.1, faRow e.1))).eraseDups

/-! ### Clocks (R640, R641, R710, R713) -/

/-- Clock spine `n` runs in a strip of a die: user clocks are ungated, the strip's gate is open, and EN is set. -/
def State.spineRuns (s : State) (d n strip : Nat) : Bool :=
  s.cfg.clkOn && s.gate (1 + 8 * d + strip) && s.on F.CLK_UCLK_EN d n && !s.dark

/-- The dikes of a stand are closed: from the close to the end of a load, and while it is TORN (R680, R686). -/
def State.dikesShut (s : State) (i : Nat) : Bool := (Map.get none s.sl.dikes i).isSome

/-- User clocks reach a row of a strip: its stand runs, no readback stops it, and its dikes are open (R655, Table STD-7). -/
def State.rowClocked (s : State) (d strip row : Nat) : Bool :=
  let i := s.standAt d strip row
  decide (1 ≤ s.standSt i) && decide (s.standSt i ≤ 3) && !s.fab.stopped.contains i && !s.dikesShut i
    && decide (s.polSt (1 + 8 * d + strip) < 4)

/-- Value that a closed dike holds on a wire from a row of a strip: of an element that a load holds (R679, R680). -/
def State.diked (s : State) (d strip row : Nat) (x : Net) : Option Bool :=
  (Map.get none s.sl.dikes (s.standAt d strip row)).map (fun l => l.getD (Config.latch d x) false)

/-- Rising edge of UCLK[n] of a die within the present ns, in ps from its start: 7,200 MHz divided by N. -/
def State.uclkEdge (s : State) (d n : Nat) : Option Nat :=
  let n := max 9 (min 4096 (s.rd F.CLK_UCLK_DIV d n))
  let k := (9000 * s.time + 1250 * n - 1) / (1250 * n)
  let e := k * 1250 * n / 9
  if e < 1000 * (s.time + 1) then some (e - 1000 * s.time) else none

/-- Edge of a clock spine that an element of a row sees in the present ns. -/
def State.spineEdge (s : State) (d strip row : Nat) : ClkSel → Option Nat
  | .spine n => if s.spineRuns d n strip && s.rowClocked d strip row then s.uclkEdge d n else none
  | _ => none

/-! ### Content of cells (R622, R623, R662) -/

/-- Content of a LUT in the frames: bytes 8k to 8k + 7 of its cluster's 192. -/
def State.lutInit (s : State) (d t c k : Nat) : Nat :=
  let b := 192 * c + 8 * k
  bits (s.frameLive (tileFrame d t + b / 256)) (8 * (b % 256)) 64

/-- The LUTs of a cluster act as distributed RAMs: even clusters only (R623). -/
def State.ramOn (s : State) (d t c : Nat) : Bool :=
  let b := 192 * c + 128
  c % 2 == 0 && bit (s.frameLive (tileFrame d t + b / 256)) (8 * (b % 256))

/-- Content of a LUT now. -/
def State.lutWord (s : State) (d t c k : Nat) : Nat :=
  match (if s.ramOn d t c then Map.get none s.fab.luts (16 * clusterKey d t c + k) else none) with
  | some v => v
  | none => s.lutInit d t c k

/-- Settings of a cluster. -/
def State.cluster (s : State) (d t c : Nat) : ClusterCfg := Config.cluster s.frameLive d t c

/-- Flip-flops of a cluster. -/
def State.ffWord (s : State) (d t c : Nat) : Nat := Map.get 0 s.fab.ffs (clusterKey d t c)

/-- The number that levels spell, the first the least significant bit. -/
def levels : List Bool → Nat
  | [] => 0
  | b :: l => b2n b + 2 * levels l

/-- Output of a LUT: one function of six inputs, or two of the first five (R622). -/
def lutOut (w : Nat) (split : Bool) (ins : List Bool) (out : Nat) : Bool :=
  if split then bit w (32 * (out % 2) + levels (ins.take 5)) else bit w (levels (ins.take 6))

/-! ### Content of memories (R631 to R637) -/

/-- Word `w` of `n` bits of a memory. -/
def State.memWord (s : State) (d m n w : Nat) : Nat :=
  let a := memFrame d m
  levels ((List.range n).map (fun i =>
    let p := n * w + i
    bit (s.frameLive (a + p / 2048)) (p % 2048)))

/-- Writes it. -/
def State.setMemWord (s : State) (d m n w v : Nat) : State :=
  let a := memFrame d m
  [n * w / 2048, (n * w + n - 1) / 2048].eraseDups.foldl (fun s f =>
    let lo := max (n * w) (2048 * f)
    let hi := min (n * w + n) (2048 * (f + 1))
    s.updFrm (a + f) (fun x => { x with live := setBits x.live (lo - 2048 * f) (hi - lo) (bits v (lo - n * w) (hi - lo)) })) s

/-- A port of a memory. -/
def State.mport (s : State) (d m p : Nat) : PortSt := Map.get {} s.fab.ports (2 * (65536 * d + m) + p)

/-- Changes it. -/
def State.updMport (s : State) (d m p : Nat) (f : PortSt → PortSt) : State :=
  { s with fab.ports := Map.upd {} s.fab.ports (2 * (65536 * d + m) + p) f }

/-- A memory of a stand's die lies in the stand: a block memory's index, or a deep one's from 0x8000. -/
def State.memIn (s : State) (stand m : Nat) : Bool :=
  (decide (m < 2880) || (decide (0x8000 ≤ m) && decide (m < 0x80F0)))
    && s.standAt (stand / 16) (memPlace m).1 (memPlace m).2 == stand

/-- Settings of a memory. -/
def State.memCfg (s : State) (d m : Nat) : MemCfg := Config.memory s.frameLive d m

/-- What a port shows: the read register, or the output register where it is in use; a deep memory reads in 2 cycles (R631). In ECC
shape the user ports carry 64 bits (R632). -/
def State.portOut (s : State) (d m p : Nat) : Nat :=
  let c := s.memCfg d m
  let x := s.mport d m p
  let v := if 0x8000 ≤ m ∨ (if p = 0 then c.a else c.b).outReg then x.r2 else x.r1
  if c.ecc then v % 2 ^ 64 else v

/-! ### Slices (R638, R639) -/

/-- A slice. -/
def State.slice (s : State) (d k : Nat) : SliceSt := Map.get {} s.fab.slices (1152 * d + k)

/-- Settings of a slice. -/
def State.sliceCfg (s : State) (d k : Nat) : SliceCfg := Config.slice s.frameLive d k

/-- A number of `n` bits as the integer it stands for. -/
def toInt (signed : Bool) (n v : Nat) : Int :=
  if signed && bit v (n - 1) then (v % 2 ^ n : Nat) - (2 ^ n : Nat) else (v % 2 ^ n : Nat)

/-- The exact result of a slice's operation (Table FAB-4). -/
def sliceExact (c : SliceCfg) (acc : Nat) (x : Nat × Nat × Nat × Nat) : Int :=
  let base (v : Nat) : Int := toInt true 64 (if c.fromC then v else acc)
  let ab := toInt c.signA 27 x.1 * toInt c.signB 27 x.2.1
  match c.mode with
  | 0 => ab
  | 1 => if c.minus then base x.2.2.1 - ab else base x.2.2.1 + ab
  | 2 => toInt true 64 acc + ((List.range 4).map (fun i =>
      toInt c.signA 8 (bits x.1 (8 * i) 8) * toInt c.signB 8 (bits x.2.1 (8 * i) 8))).sum
  | _ =>
    let cc := toInt true 64 x.2.2.1
    if c.minus then base x.2.2.2 - cc else base x.2.2.2 + cc

/-- The result does not fit in 64 signed bits: OVF. -/
def sliceOvf (v : Int) : Bool := decide (v < -2 ^ 63) || decide (2 ^ 63 ≤ v)

/-- The 64 bits of a result: it saturates or wraps. -/
def sliceFit (saturate : Bool) (v : Int) : Nat :=
  if saturate && sliceOvf v then (if v < 0 then 2 ^ 63 else 2 ^ 63 - 1) else (v % 2 ^ 64).toNat

/-- One clock cycle of a slice that takes operands `x`: with r pipeline registers the operands wait r - 1 cycles before the result
register. -/
def SliceSt.step (c : SliceCfg) (z : SliceSt) (x : Nat × Nat × Nat × Nat) : SliceSt :=
  let q := z.pipe ++ [x]
  if q.length < max 1 c.regs then { z with pipe := q }
  else
    let v := sliceExact c z.acc (q.headD (0, 0, 0, 0))
    { pipe := q.drop 1, acc := sliceFit c.saturate v, ovf := sliceOvf v }

/-! ### Spine and bridge lines (R625 to R629) -/

/-- Tile columns whose drivers of a spine line are enabled, in stands whose dikes are open (R681, R686). -/
def State.spineDrivers (s : State) (d line : Nat) : List Nat :=
  (List.range 32).filter (fun c =>
    let j := s.standAt d (c / 4) (line / 64)
    bit (Map.get 0 s.sl.drivers (1536 * d + line)) c && !s.dikesShut j)

/-- Dies of a bridge line: its driver's and its receiver's (R19, R626). -/
def bridgeDies (l : Nat) : Nat × Nat :=
  let p := [(0, 1), (2, 3), (0, 2), (1, 3)].getD (l / 9216) (0, 1)
  if l / 4608 % 2 = 0 then p else (p.2, p.1)

/-- Settings of a bridge line. -/
def State.bridgeCfg (s : State) (l : Nat) : BridgeCfg := Config.bridge s.frameLive l

/-- The strip of a driver is off or CLOSING: a line from it reads 0 in every other polder (R627). -/
def State.clamped (s : State) (d strip from_ : Nat) : Bool :=
  let p := 1 + 8 * d + strip
  p != from_ && (s.polSt p == 1 || s.polSt p == 4)

/-! ### User I/O cells (R649 to R651) -/

/-- Settings of a user I/O cell of a die. -/
def State.uioCfg (s : State) (d c : Nat) : UioCfg := Config.uio s.frameLive d c

/-- A user I/O cell. -/
def State.uio (s : State) (d c : Nat) : UioSt := Map.get {} s.fab.uio (96 * d + c)

/-- A user I/O cell has its setting: the part has released its cells, and its strip's polder is not off (R650). -/
def State.uioOn (s : State) (d c : Nat) : Bool :=
  let p := s.polSt (1 + 8 * d + c / 12)
  s.cfg.ioOn && p != 4 && p != 5

/-- The clock of UCLK[n] is in its low half at the present ns. -/
def State.uclkLow (s : State) (d n : Nat) : Bool :=
  let n := max 9 (min 4096 (s.rd F.CLK_UCLK_DIV d n))
  18000 * s.time / (1250 * n) % 2 == 1

/-- A falling edge of UCLK[n] lies within the present ns. -/
def State.uclkFall (s : State) (d n : Nat) : Bool :=
  let n := max 9 (min 4096 (s.rd F.CLK_UCLK_DIV d n))
  let c (t : Nat) : Nat := (18000 * t + 1250 * n - 1) / (1250 * n)
  decide (c s.time / 2 < c (s.time + 1) / 2)

/-- What a user I/O cell drives, if it does, where `v` values its inputs: a cell of a stand that is loaded holds its dikes'
value and enable (R651); the odd cell of an LVDS pair shows the complement of the even one. -/
def State.uioDrive (s : State) (v : Net → Bool) (d c : Nat) : Option Bool :=
  let l := (s.uioCfg d (c / 2 * 2)).lvds
  let e := if l then c / 2 * 2 else c
  let u := s.uioCfg d e
  let at_ (x : Net) := s.diked d (e / 12) (2 * (e % 12)) x
  if ¬ s.uioOn d c ∨ ¬ (at_ (.pin (96 + e))).getD (v u.oe) then none
  else
    let low : Bool := match u.clk with
      | .spine n => s.uclkLow d n
      | _ => false
    let b := (at_ (.pin e)).getD (if u.ddr then bit (s.uio d e).o (b2n low) else v u.out)
    some (if l then xor b (c % 2 == 1) else b)

/-- Level of a user I/O pin: what the cell drives, what the board drives, or the pull. -/
def State.uioLevel (s : State) (v : Net → Bool) (d c : Nat) : Bool :=
  match s.uioDrive v d c with
  | some b => b
  | none =>
    let u := s.uioCfg d c
    match Config.pad (1000 * s.time - 25 * (u.taps % 32)) d c, (if s.uioOn d c then u.pull else 0) with
    | some b, _ => b
    | none, 1 => true
    | none, 2 => false
    | none, 3 => (s.uio d c).keep
    | none, _ => Config.outer s.time d (65536 + c)

/-! ### Values of nets -/

/-- Value of a net at an element of polder `r` of die `d`; `fuel` bounds the LUTs it passes, and a loop without end has a free value. -/
def State.net (s : State) : Nat → Nat → Nat → Net → Bool
  | 0, _, _, _ => s.freeBool
  | fuel + 1, d, r, x =>
    match x with
    | .const b => b
    | .ff t c k f =>
      !s.clamped d (tileStrip t) r && (s.diked d (tileStrip t) (t / 32) x).getD (bit (s.ffWord d t c) (2 * k + f))
    | .lut t c k o =>
      if s.clamped d (tileStrip t) r then false
      else match s.diked d (tileStrip t) (t / 32) x with
      | some b => b
      | none =>
        let cell := (s.cluster d t c).cells.getD k {}
        let w := s.lutWord d t c k
        let v := cell.ins.map (State.net s fuel d (tilePolder d t))
        if o < 2 then lutOut w cell.split v o
        else xor (lutOut w cell.split v 0) (State.net s fuel d (tilePolder d t) (.carry t c k))
    | .carry t c k =>
      if k = 0 then
        let cl := s.cluster d t c
        if ¬ cl.chain then State.net s fuel d r cl.cin
        else if 0 < c then State.net s fuel d r (.carry t (c - 1) 16)
        else if 32 ≤ t then State.net s fuel d r (.carry (t - 32) 63 16)
        else false
      else if State.net s fuel d r (.lut t c (k - 1) 0) then State.net s fuel d r (.carry t c (k - 1))
      else State.net s fuel d r (.lut t c (k - 1) 1)
    | .spine l =>
      match s.spineDrivers d l with
      | [c] =>
        if (Map.get none s.fab.spines (1536 * d + l)).isSome then Map.get false s.fab.keeper (1536 * d + l)
        else if s.clamped d (c / 4) r then false
        else State.net s fuel d (1 + 8 * d + c / 4) (Config.spineNet s.frameLive d l c)
      | [] => Map.get false s.fab.keeper (1536 * d + l)
      | _ => if (Map.get none s.fab.spines (1536 * d + l)).isSome then Map.get false s.fab.keeper (1536 * d + l)
        else Config.outer s.time d l
    | .bridge l =>
      let b := s.bridgeCfg l
      let w := (bridgeDies l).1
      if s.clamped w (tileStrip b.tile) 0 then false
      else match s.diked w (tileStrip b.tile) (b.tile / 32) x with
      | some b => b
      | none =>
      if b.regRecv then bit (Map.get 0 s.fab.bridges l) 1
      else if b.regSend then bit (Map.get 0 s.fab.bridges l) 0
      else State.net s fuel w (tilePolder w b.tile) b.drv
    | .mem m p n =>
      !s.clamped d (memPlace m).1 r && (s.diked d (memPlace m).1 (memPlace m).2 x).getD (bit (s.portOut d m p) n)
    | .collision m p =>
      !s.clamped d (memPlace m).1 r && (s.diked d (memPlace m).1 (memPlace m).2 x).getD (s.mport d m p).coll
    | .sbiterr m p =>
      !s.clamped d (memPlace m).1 r && (s.diked d (memPlace m).1 (memPlace m).2 x).getD (s.mport d m p).sbit
    | .dbiterr m p =>
      !s.clamped d (memPlace m).1 r && (s.diked d (memPlace m).1 (memPlace m).2 x).getD (s.mport d m p).dbit
    | .slice k n =>
      if s.clamped d (k / 144) r then false
      else match s.diked d (k / 144) (k % 144 / 6) x with
      | some b => b
      | none =>
        let c := s.sliceCfg d k
        if c.regs = 0 ∧ (c.mode = 0 ∨ c.fromC) then
          let v (l : List Net) : Nat := levels (l.map (State.net s fuel d (1 + 8 * d + k / 144)))
          let cc := if c.cascade then (s.slice d (k + 1)).acc else v c.c
          bit (sliceFit c.saturate (sliceExact c 0 (v c.a, v c.b, cc, v c.d))) n
        else bit (s.slice d k).acc n
    | .ovf k => !s.clamped d (k / 144) r && (s.diked d (k / 144) (k % 144 / 6) x).getD (s.slice d k).ovf
    | .pin n =>
      let c := n % 96
      if s.clamped d (c / 12) r then false
      else if (s.uioCfg d c).ddr then bit (s.uio d c).i (n / 96)
      else s.uioLevel (State.net s fuel d (1 + 8 * d + c / 12)) d c
    | .hard n => Config.outer s.time d (131072 + n)

/-- LUTs a path may pass: as many as a die has. -/
def netFuel : Nat := 1048576

/-- Value of a net at an element of a strip of a die. -/
def State.val (s : State) (d strip : Nat) (x : Net) : Bool := s.net netFuel d (1 + 8 * d + strip) x

/-- The number that a list of nets carries. -/
def State.vals (s : State) (d strip : Nat) (l : List Net) : Nat := levels (l.map (s.val d strip))

/-! ### Release of user logic (R652, R684, Table PWR-3) -/

/-- What becomes of memories when user logic is released: content by the frames, kept, or zeroes (R652, Table PWR-3). -/
inductive Ram where
  | frames
  | kept
  | zeroes
  deriving DecidableEq, Repr

/-- A tile's flip-flops take their initial values. -/
def State.releaseTile (s : State) (m : Ram) (d t : Nat) : State :=
  (List.range 64).foldl (fun s c =>
    let k := clusterKey d t c
    { s with
      fab.ffs := Map.set 0 s.fab.ffs k ((s.cluster d t c).init % 2 ^ 32)
      fab.luts := match m with
        | .kept => s.fab.luts
        | .frames => Map.keep (fun a _ => a / 16 != k) s.fab.luts
        | .zeroes => (List.range 16).foldl (fun l i => Map.set none l (16 * k + i) (some 0)) s.fab.luts
      fab.clks := Map.keep (fun a _ => a / 2 != k) s.fab.clks }) s

/-- Rows of a strip of a die are released: flip-flops to their initial values, slices and their registers to 0. -/
def State.releaseRows (s : State) (m : Ram) (d strip : Nat) (inRow : Nat → Bool) : State :=
  let l := s.tilesOn.filter (fun x => x.1 == d && tileStrip x.2 == strip && inRow (x.2 / 32))
  let s := l.foldl (fun s x => s.releaseTile m x.1 x.2) s
  { s with
    fab.slices := Map.keep (fun k _ => !(k / 1152 == d && k % 1152 / 144 == strip && inRow (k % 144 / 6))) s.fab.slices
    fab.uio := Map.keep (fun k _ => !(k / 96 == d && k % 96 / 12 == strip && inRow (2 * (k % 12)))) s.fab.uio
    fab.ports := Map.keep (fun k _ =>
             let m := k / 2 % 65536
             !(k / 131072 == d && (memPlace m).1 == strip && inRow (memPlace m).2)) s.fab.ports }

/-- The user logic of a stand is released. -/
def State.releaseStand (s : State) (i : Nat) : State := s.releaseRows .frames (i / 16) (i / 2 % 8) (s.rowIn i)

/-- User logic of the whole part is released. -/
def State.releaseAll (s : State) : State := (List.range 64).foldl State.releaseStand s

/-- The user logic of a fabric polder starts as after its reset, or after its rail was off (Table PWR-3). -/
def State.releasePolder (s : State) (p : Nat) (off : Bool) : State :=
  s.releaseRows (if off then .zeroes else .kept) ((p - 1) / 8) ((p - 1) % 8) (fun _ => true)

/-! ### One ns of user logic -/

/-- Edge that a control set of a cluster sees: of a spine, or the rise of a cluster output. -/
def State.setEdge (s : State) (d t c i : Nat) (cs : CtrlSet) : Bool :=
  match cs.clk with
  | .logic x => s.rowClocked d (tileStrip t) (t / 32) && s.cfg.clkOn
      && !Map.get false s.fab.clks (2 * clusterKey d t c + i) && s.val d (tileStrip t) x
  | k => (s.spineEdge d (tileStrip t) (t / 32) k).isSome

/-- Next value of flip-flop `f` of cell `k` of a cluster: reset, clock enable, data (R623). A reset gives 0 (log entry 203). A load
of its stand, or its polder's switch, holds it. -/
def State.ffNext (s : State) (d t c : Nat) (cl : ClusterCfg) (k f : Nat) : Bool :=
  let cell := cl.cells.getD k {}
  let i := cell.cs.getD f 0
  let cs := cl.sets.getD i {}
  let v := s.val d (tileStrip t)
  let now := bit (s.ffWord d t c) (2 * k + f)
  if s.dikesShut (s.standAt d (tileStrip t) (t / 32)) ∨ 4 ≤ s.polSt (tilePolder d t) then now
  else if ¬ cs.sync ∧ v cs.rst then false
  else if ¬ s.setEdge d t c i cs then now
  else if cs.sync ∧ v cs.rst then false
  else if v cs.en then v (cell.d.getD f (.const now)) else now

/-- A cluster over one ns, from the state `o` at its start: its flip-flops, its distributed RAMs' write port, its logic clocks, and
its shadow cells, which copy at the first edge after the capture (R654). -/
def clusterStep (o : State) (d t : Nat) (s : State) (c : Nat) : State :=
  let k := clusterKey d t c
  let cl := o.cluster d t c
  let v := o.val d (tileStrip t)
  let w := levels ((List.range 32).map (fun i => o.ffNext d t c cl (i / 2) (i % 2)))
  let edges := (List.range 2).map (fun i => o.setEdge d t c i (cl.sets.getD i {}))
  let s : State := { s with fab.ffs := Map.set 0 s.fab.ffs k w }
  let s : State := if o.ramOn d t c ∧ edges.getD 0 false ∧ v cl.wen then
      { s with fab.luts := (List.range 16).foldl (fun m j => Map.set none m (16 * k + j)
        (some (setBits (o.lutWord d t c j) (levels (cl.waddr.map v) % 64) 1 (b2n (v (cl.wdata.getD j (.const false))))))) s.fab.luts }
    else s
  let clks := (List.range 2).foldl (fun m i => match (cl.sets.getD i {}).clk with
    | .logic x => Map.set false m (2 * k + i) (v x)
    | _ => m) s.fab.clks
  let s : State := { s with fab.clks := clks }
  if o.fab.rbWait then
    let m := levels ((List.range 32).map (fun i => edges.getD (((cl.cells.getD (i / 2) {}).cs).getD (i % 2) 0) false))
    { s with fab.shadow := Map.upd (0, 0) s.fab.shadow k (fun x =>
      let n := m - Nat.land m x.1
      (Nat.lor x.1 n, Nat.lor x.2 (Nat.land n (o.ffWord d t c)))) }
  else s

/-- Word that a port addresses, enabled or not, and what it writes. -/
structure Touch where
  word : Nat
  wr : Option Nat
  deriving DecidableEq, Repr

/-- What a port does at an edge. -/
def State.touch (s : State) (d strip : Nat) (c : MemCfg) (p : PortCfg) : Option Touch :=
  if s.val d strip p.en then
    let v := s.vals d strip p.din
    some { word := s.vals d strip p.addr
           wr := if s.val d strip p.we then some (if c.ecc then v % 2 ^ 64 + 2 ^ 64 * (Config.checkBits (v % 2 ^ 64) % 256) else v % 2 ^ c.width)
             else none }
  else none

/-- A port's registers after an edge at `at_` ps: what it read, and what it did. -/
def PortSt.edge (x : PortSt) (at_ : Nat) (t : Option Touch) (old rd : Nat) (coll : Bool) : PortSt :=
  let x := { x with r2 := x.r1, coll := coll, sbit := false, dbit := false }
  match t with
  | none => x
  | some t => { x with r1 := if t.wr.isSome then x.r1 else rd, at_ := at_ + 1, word := t.word, wrote := t.wr.isSome, old := old }

/-- The other port has touched the word within 0.5 ns, on another clock, and one of the two writes (R636). -/
def collides (same : Bool) (y : PortSt) (at_ : Nat) (t : Touch) : Bool :=
  !same && y.at_ != 0 && y.word == t.word && decide (at_ + 1 < y.at_ + 500) && (t.wr.isSome || y.wrote)

/-- An edge of port `p` of a memory alone, at `at_` ps. In the window of R636 the outcome is a free choice between the whole
words. -/
def portStep (o : State) (d m p at_ : Nat) (s : State) : State :=
  let c := o.memCfg d m
  let pc := if p = 0 then c.a else c.b
  let t := o.touch d (memPlace m).1 c pc
  match t with
  | none => s.updMport d m p (fun x => x.edge at_ none 0 0 false)
  | some x =>
    let cur := s.memWord d m c.width x.word
    let y := s.mport d m (1 - p)
    if collides (c.a.clk == c.b.clk) y at_ x then
      let b := s.freeBool
      let s := (s.drawn.updMport d m (1 - p) (fun z =>
        { z with coll := true, r1 := match x.wr with
          | some v => if ¬ z.wrote ∧ b then v else z.r1
          | none => z.r1 })).updMport d m p (fun z => z.edge at_ t cur (if b then y.old else cur) true)
      match x.wr with
      | some v => if y.wrote ∧ b then s else s.setMemWord d m c.width x.word v
      | none => s
    else
      let s := s.updMport d m p (fun z => z.edge at_ t cur cur false)
      match x.wr with
      | some v => s.setMemWord d m c.width x.word v
      | none => s

/-- An edge of both ports of a block memory on one clock (R635): two writes of a word leave port A's data; a read while the other
port writes its word takes the old one, or the new one in WRITE_FIRST mode. -/
def portsStep (o : State) (d m at_ : Nat) (s : State) : State :=
  let c := o.memCfg d m
  let ta := o.touch d (memPlace m).1 c c.a
  let tb := o.touch d (memPlace m).1 c c.b
  let old (t : Option Touch) : Nat := match t with
    | some x => s.memWord d m c.width x.word
    | none => 0
  let rd (pc : PortCfg) (t u : Option Touch) : Nat := match t, u with
    | some x, some y => (match y.wr with
      | some v => if x.word = y.word ∧ pc.writeFirst then v else old t
      | none => old t)
    | _, _ => old t
  let put (s : State) (t : Option Touch) : State := match t with
    | some x => (match x.wr with
      | some v => s.setMemWord d m c.width x.word v
      | none => s)
    | none => s
  let s := put (put s tb) ta
  (s.updMport d m 0 (fun x => x.edge at_ ta (old ta) (rd c.a ta tb) false)).updMport d m 1
    (fun x => x.edge at_ tb (old tb) (rd c.b tb ta) false)

/-- A memory over one ns: the edges of its ports in their order. -/
def memStep (o : State) (d : Nat) (s : State) (m : Nat) : State :=
  let c := o.memCfg d m
  let (strip, row) := memPlace m
  let at_ (x : Nat) : Nat := 1000 * o.time + x
  match o.spineEdge d strip row c.a.clk, o.spineEdge d strip row c.b.clk with
  | none, none => s
  | some a, none => portStep o d m 0 (at_ a) s
  | none, some b => portStep o d m 1 (at_ b) s
  | some a, some b =>
    if c.a.clk = c.b.clk then portsStep o d m (at_ a) s
    else if a ≤ b then portStep o d m 1 (at_ b) (portStep o d m 0 (at_ a) s)
    else portStep o d m 0 (at_ a) (portStep o d m 1 (at_ b) s)

/-- A slice over one ns. Its C input is the cascade of the slice below where it is in use. -/
def sliceStep (o : State) (d : Nat) (s : State) (k : Nat) : State :=
  let c := o.sliceCfg d k
  let strip := k / 144
  if (o.spineEdge d strip (k % 144 / 6) c.clk).isSome ∧ o.val d strip c.en then
    let cc := if c.cascade then (o.slice d (k + 1)).acc else o.vals d strip c.c
    { s with fab.slices := Map.upd {} s.fab.slices (1152 * d + k) (fun z =>
      z.step c (o.vals d strip c.a, o.vals d strip c.b, cc, o.vals d strip c.d)) }
  else s

/-- The memories and slices of a row of a hard column over one ns. -/
def hardStep (o s : State) (x : Nat × Nat × Nat) : State :=
  let (d, strip, row) := x
  let s := ((List.range 15).map (fun i => 360 * strip + 15 * row + i)).foldl (memStep o d) s
  let s := if row % 4 = 0 then ((List.range 5).map (fun i => 0x8000 + 30 * strip + 5 * (row / 4) + i)).foldl (memStep o d) s else s
  ((List.range 6).map (fun i => 144 * strip + 6 * row + i)).foldl (sliceStep o d) s

/-- The end registers of a bridge line over one ns; its clock is a spine of the die of each end. -/
def bridgeStep (o s : State) (l : Nat) : State :=
  let b := o.bridgeCfg l
  let (w, r) := bridgeDies l
  let strip := tileStrip b.tile
  let x := Map.get 0 o.fab.bridges l
  let send := b.regSend && (o.spineEdge w strip (b.tile / 32) b.clk).isSome
  let recv := b.regRecv && (o.spineEdge r strip (b.tile / 32) b.clk).isSome
  if send || recv then
    let v := o.val w strip b.drv
    let x1 := if recv then setBits x 1 1 (b2n (if b.regSend then bit x 0 else v)) else x
    { s with fab.bridges := Map.set 0 s.fab.bridges l (if send then setBits x1 0 1 (b2n v) else x1) }
  else s

/-- The keeper of a spine line follows it while one driver alone is enabled (R629). -/
def keeperStep (o s : State) (x : Nat × Nat) : State :=
  match o.spineDrivers (x.1 / 1536) (x.1 % 1536) with
  | [c] =>
    if (Map.get none o.fab.spines x.1).isSome then s
    else { s with fab.keeper := Map.set false s.fab.keeper x.1 (o.val (x.1 / 1536) (c / 4) (.spine (x.1 % 1536))) }
  | _ => s

/-- User I/O cells whose settings hold anything: die and cell; cell 12s + j sits at row 2j (R666). -/
def State.uioCells (s : State) : List (Nat × Nat) :=
  (s.sl.frames.filter (fun e => faKind e.1 == 5 && faRow e.1 % 2 == 0)).map (fun e =>
    (faDie e.1, 12 * faStrip e.1 + faRow e.1 / 2))

/-- A user I/O cell over one ns: the DDR registers of both directions, and the keeper's level. -/
def uioStep (o s : State) (x : Nat × Nat) : State :=
  let (d, c) := x
  let u := o.uioCfg d c
  let v := o.val d (c / 12)
  let pad := o.uioLevel v d c
  let run : Bool := o.rowClocked d (c / 12) (2 * (c % 12))
  let (up, down) : Bool × Bool := match u.clk with
    | .spine n => ((o.spineEdge d (c / 12) (2 * (c % 12)) u.clk).isSome, run && o.spineRuns d n (c / 12) && o.uclkFall d n)
    | _ => (false, false)
  { s with fab.uio := Map.upd {} s.fab.uio (96 * d + c) (fun z =>
    { o := if up then b2n (v u.out) + 2 * b2n (v u.out2) else z.o,
      i := (let i := if up then setBits z.i 0 1 (b2n pad) else z.i
            if down then setBits i 1 1 (b2n pad) else i),
      keep := pad }) }

/-- User logic over the ns that begins now (R622 to R641, R649). -/
def State.fabricNs (s : State) : State :=
  if ¬ s.cfg.clkOn ∨ s.sl.frames = [] then s
  else
    let t := s.tilesOn.foldl (fun t x => (List.range 64).foldl (clusterStep s x.1 x.2) t) s
    let t := s.hardOn.foldl (hardStep s) t
    let t := s.uioCells.foldl (uioStep s) ((List.range 36864).foldl (bridgeStep s) t)
    s.sl.drivers.foldl (keeperStep s) t

end Sys2Proof.Machine
end

