-- ==== Sys2Proof/Machine/Stands.lean ====
section
/-! DEFINITION. Frames and stands, the stand loader and its checks, dikes, and the Cruiser (R628 to R630, R660 to R699). -/

namespace Sys2Proof.Machine
open Sys2Proof

/-! ### Landings closing (R648) -/

/-- LDG_CTL.EN of a landing falls from 1 to 0: MREQ closes, its engines are deregistered and asked to yield. -/
def State.landingOff (s : State) (n : Nat) : State :=
  if s.on F.LDG_CTL_EN n then (s.put F.LDG_CTL_EN 0 n).dropLanding n else s

/-- LANDING_DISABLE (R648). -/
def execLandingDisable (landing : Nat) (s : State) : Res :=
  .next (s.when (decide (landing < 128)) (fun s => s.landingOff landing))

/-! ### Authentication and identity (R55, Table BOT-6) -/

/-- The key of an authentication block is accepted (R55). -/
def State.keyOk (s : State) (a : Auth) : Bool :=
  decide (a.slot < 4) && !bit s.fuses.revoked a.slot && s.fuses.keyHash.getD a.slot 0 == authKey a

/-- FAMILY, PART and STEPPING_MASK: the failing check of Table BOT-6. -/
def State.identityFail (s : State) (family part steppings : Nat) : Option Nat :=
  if family ≠ 0x51 then some 3
  else if part ≠ 0x256 then some 4
  else if bit steppings (s.rd F.GLB_REV_STEPPING) then none else some 5

/-! ### Requests (R674 to R678) -/

/-- Enters a code of a request that ends into the loader's result registers and, for a command, completes it. -/
def State.slResult (s : State) (q : SlReq) (status code field : Nat) : State :=
  let s := ((s.put F.CFG_SL_RESULT_STATUS status).put F.CFG_SL_RESULT_CODE code).put F.CFG_SL_RESULT_STAND q.stand
  let s := (s.put F.CFG_SL_RESULT_SEQ ((s.rd F.CFG_SL_RESULT_SEQ + 1) % 256)).put F.CFG_ST_STAT_CODE code q.stand
  match q.key with
  | some k => if status = 0 then s.finish k 0 0xFF 0 (s.standSt q.stand)
    else (s.finish k status field 0 (s.standSt q.stand)).updCmd k (fun c => c.note status 13 0)
  | none => s

/-- A request is refused: its event, its count and its result (R678). -/
def State.slRefuse (s : State) (q : SlReq) (status code field : Nat) : State :=
  ((s.bump F.CFG_SL_REFUSED).post E.CFG_STAND_REFUSED q.stand code).slResult q status code field

/-- Shows the queue and its head (Table STD-9). -/
def State.slShow (s : State) : State :=
  let s := s.put F.CFG_SL_STAT_QUEUED s.sl.queue.length
  match s.sl.cur, s.sl.queue with
  | some _, _ => s
  | none, q :: _ => (s.put F.CFG_SL_STAT_PHASE 1).put F.CFG_SL_STAT_STAND q.stand
  | none, [] => s.put F.CFG_SL_STAT_PHASE 0

/-- Checks of admission (R675): status, code and FIELD of a refusal. -/
def State.slCheck (s : State) (q : SlReq) : Option (Nat × Nat × Nat) :=
  let st := s.standSt q.stand
  let p := s.polSt (standPolder q.stand)
  if st = 2 ∨ st = 3 ∨ st = 5 ∨ s.fab.stopped.contains q.stand ∨ p = 4 ∨ p = 1 ∨ 8 ≤ s.sl.queue.length
      ∨ (q.src = 0 ∧ s.rd F.CFG_STATUS_ROLE = 2) then some (0x04, 0x29, 0xFF)
  else if st = 0 ∨ ¬ s.on F.CFG_ST_STAT_LOADABLE q.stand then some (0x03, 0x24, 40)
  else if q.src = 1 ∧ q.addr % 16 ≠ 0 then some (0x03, 0x21, 48)
  else none

/-- Admits or refuses a load request (R675). -/
def State.slRequest (s : State) (stand src addr : Nat) (key : Option Nat) : State :=
  let q : SlReq := { stand := stand, src := src, addr := addr, was := s.standSt stand, at_ := s.time, key := key }
  match s.slCheck q with
  | some (st, code, f) => s.slRefuse q st code f
  | none => ({ s with sl.queue := s.sl.queue ++ [q] }.put F.CFG_ST_STAT_STATE 2 stand).slShow

/-- STAND_LOAD (R678, Table QQP-6). -/
def execStandLoad (key : Nat) (s : State) : Res :=
  .next (s.when true (fun s => match s.cmd key with
    | some c =>
      if sqOp c.sqe = 0x48 ∧ ¬ c.ended ∧ ¬ c.internal ∧ ¬ c.checked then
        let st := bytesAt c.sqe 40 1
        let src := bytesAt c.sqe 41 1
        if 64 ≤ st then s.failCmd key 0x03 2 0 40
        else if 2 ≤ src then s.failCmd key 0x03 2 0 41
        else (s.updCmd key (fun c => { c with checked := true })).slRequest st src
          (if src = 0 then bytesAt c.sqe 44 4 else bytesAt c.sqe 48 8) (some key)
      else s
    | none => s))

/-- A write of CFG_SL_CMD (R675): another KEY than 0xA5 is ignored. -/
def State.slCmd (s : State) (value : Nat) : State :=
  if bits value 24 8 = 0xA5 then
    let src := bits value 8 1
    s.slRequest (bits value 0 6) src
      (if src = 0 then s.rd F.CFG_SL_SRC_LO else s.rd64 F.CFG_SL_SRC_LO F.CFG_SL_SRC_HI) none
  else s

/-- CFG_SL_CMD (R674, R675). -/
def execCfgSlCmd (req : Req) (value : Nat) (s : State) : Res :=
  .next (s.when true (fun s => s.byReq req (F.CFG_SL_CMD_KEY.off 0 0) (fun s => s.slCmd value)))

/-! ### Checks of a partial image (Table STD-6) -/

/-- Check 0x22 FORMAT. -/
def pimgOk (h : PartHdr) (a : Auth) : Bool :=
  let fits (off n : Nat) : Bool := off % 16 == 0 && decide (off + n ≤ h.totalLen)
  h.magic == 0x54555250 && h.format == 1 && h.flags % 2 == 1 && h.flags / 4 == 0 && h.zeros && a.zeros
    && decide (h.dikes ≤ 8192) && fits h.borderOff (borderLen h) && fits h.dmapOff (32 * dmapRows h)
    && fits h.goldenOff (4 * h.goldenCount) && fits h.frameOff h.frameLen

/-- Enabled drivers of a line outside a stand: those of stands that load or are TORN are disabled (R681, R686). -/
def State.outside (s : State) (i line : Nat) : Nat :=
  let m := Map.get 0 s.sl.drivers line
  ((List.range 32).filter (fun c =>
    let j := s.standAt (line / 1536) (c / 4) (line % 1536 / 64)
    bit m c && j != i && s.standSt j != 3 && s.standSt j != 4)).length

/-- Check 0x28 CONTENTION (R628): no spine line gets a second driver. -/
def State.dmapOk (s : State) (i : Nat) (img : PImg) : Bool :=
  (dmapOf img.bytes).zipIdx.all (fun x => (List.range 64).all (fun t =>
    let n := popcount (bits x.1 (4 * t) 4) 4
    n == 0 || n + s.outside i (1536 * (i / 16) + 64 * ((partHdr img.bytes).rowFirst + x.2) + t) ≤ 1))

/-- First check up to CONTENTION that fails: status, code and FIELD. -/
def State.imgFail (s : State) (q : SlReq) (i : PImg) : Option (Nat × Nat × Nat) :=
  let h := partHdr i.bytes
  let a := partAuth i.bytes
  let inHbm : Bool := match daDest q.addr with
    | .hbm x => decide (x < s.hbmTop)
    | _ => false
  if (q.src = 0 ∧ s.sl.lib ≤ q.addr) ∨ (q.src = 1 ∧ ¬ inHbm) ∨ ¬ i.readable then
    some (0x03, 0x21, if q.src = 0 then 44 else 48)
  else if ¬ pimgOk h a then some (0x03, 0x22, 0xFF)
  else if (s.identityFail h.family h.part h.steppings).isSome then some (0x03, 0x23, 0xFF)
  else if h.stand ≠ q.stand then some (0x03, 0x24, 40)
  else if ¬ s.keyOk a ∨ ¬ sigOk a i.bytes 0x100 then some (0x09, 0x25, 0xFF)
  else if ¬ tablesOk i.bytes ∨ (borderOf i.bytes).any (fun b => b == 3) ∨ h.goldenCount ≠ s.standScanned q.stand then
    some (0x08, 0x26, 0xFF)
  else if h.rowFirst ≠ s.rd F.CFG_ST_STAT_ROW_FIRST q.stand ∨ h.rowLast ≠ s.rd F.CFG_ST_STAT_ROW_LAST q.stand then
    some (0x03, 0x27, 0xFF)
  else if ¬ s.dmapOk q.stand i then some (0x04, 0x28, 0xFF)
  else none

/-- The stand-load requests that still wait. -/
def State.slRest (s : State) (r : List SlReq) : State := { s with sl.queue := r }

/-- A stand load that passed its checks begins (R682, R683): the stand is LOADING, the phase DRAIN, and its landings take no
new work. -/
def State.slOpen (s : State) (q : SlReq) (img : PImg) : State :=
  let s : State := { s with
    sl.cur := some q, sl.img := img, sl.left := (partHdr img.bytes).frameLen, sl.last := none, sl.scanned := 0, sl.mems := []
    sl.runs := [] }
  let s := ((s.put F.CFG_ST_STAT_STATE 3 q.stand).put F.CFG_SL_STAT_PHASE 2).put F.CFG_SL_FRAMES 0
  (s.standLandings q.stand).foldl State.dropLanding s

/-- STAND_LOAD_START (R677, R682, R683): the request at the head. A library read waits for a fallback stream (R676), a
load for the records of a readback of its stand (R657). -/
def execStandLoadStart (img : PImg) (s : State) : Res :=
  .next (s.when true (fun s => match s.sl.cur, s.sl.queue with
    | none, q :: r =>
      if (q.src = 0 ∧ s.cfg.fbStream) ∨ s.fab.rbLeft.any (fun x => x.1 == q.stand) then s
      else
        let s := s.slRest r
        match s.imgFail q img with
        | some (st, code, f) => ((s.put F.CFG_ST_STAT_STATE q.was q.stand).slRefuse q st code f).slShow
        | none => (s.slOpen q img).slShow
    | _, _ => s))

/-! ### Loading (R679 to R687) -/

/-- Values the dike latches of a stand take at the close: by border code, a latch that holds already keeps its value
(R680, R686). -/
def dikeValues (border : List Nat) (wires : List Bool) (old : Option (List Bool)) : List Bool :=
  border.zipIdx.map (fun x =>
    if x.1 = 1 then false else if x.1 = 2 then true
    else match old with
      | some l => l.getD x.2 (wires.getD x.2 false)
      | none => wires.getD x.2 false)

/-- Writes a driver map into the loader's map (R628, R671). -/
def putDrivers (i : Nat) (img : PImg) (m : Map Nat) : Map Nat :=
  (dmapOf img.bytes).zipIdx.foldl (fun m x => (List.range 64).foldl (fun m t =>
    Map.upd 0 m (1536 * (i / 16) + 64 * ((partHdr img.bytes).rowFirst + x.2) + t) (fun v => setBits v (4 * (i / 2 % 8)) 4 (bits x.1 (4 * t) 4))) m) m

/-- The bits of a frame that a repair leaves as they are: the excluded ones, and the ones that do not take the write. -/
def stuckMask (excluded stuck : Nat) : Nat := Nat.lor excluded (stuck % frameMod)

/-- The load that runs ends. -/
def State.slEnd (s : State) (q : SlReq) (status code : Nat) : State :=
  ({ s with sl.cur := none }.slResult q status code 0xFF).slShow

/-- The load tears its stand (R686). -/
def State.slTear (s : State) (q : SlReq) (a status code : Nat) : State :=
  let s := (s.put F.CFG_ST_STAT_STATE 4 q.stand).bump F.CFG_SL_TORN
  (s.post E.CFG_STAND_TORN q.stand (a % 2 ^ 32 + 2 ^ 32 * code)).slEnd q status code

/-- Memory content frames of a stand that a load with KEEP_MEM 0 does not carry become zeroes (R685). -/
def State.clearMems (s : State) (i : Nat) : State :=
  if bit (partHdr s.sl.img.bytes).flags 1 then s
  else { s with sl.frames := Map.keep (fun a _ => !(!frameScanned a && s.frameStand a == i && !s.sl.mems.contains (frameMem a))) s.sl.frames }

/-- Steps 7 and 8 of Table STD-7 once the run records are complete; FRAME_HASH covers every record of the load. -/
def State.slFinish (s : State) (q : SlReq) : State :=
  let hash := ofBytes (sha384 s.sl.runs) == (partHdr s.sl.img.bytes).frameHash
  let s := (s.clearMems q.stand).put F.CFG_SL_STAT_PHASE 4
  let a := s.sl.last.getD 0
  if ¬ hash then s.slTear q a 0x08 0x2D
  else if s.sl.scanned ≠ s.standScanned q.stand then s.slTear q a 0x03 0x2E
  else
    let s := ((s.standFrames q.stand).zip (goldenOf s.sl.img.bytes)).foldl (fun s x =>
      s.updFrm x.1 (fun f => { f with gold := some x.2, skip := false, inj := false })) s
    let s : State := { s with
      sl.drivers := putDrivers q.stand s.sl.img s.sl.drivers, sl.dikes := Map.erase s.sl.dikes q.stand }
    let s := (s.standLandings q.stand).zipIdx.foldl (fun s x =>
      let b := bits (partHdr s.sl.img.bytes).landings (8 * x.2) 8
      let s : State := { s with fab.img := Map.set 0 s.fab.img x.1 (b % 2) }
      (s.put F.LDG_CTL_EN (b % 2) x.1).put F.LDG_CTL_CLK (b / 2 % 32) x.1) s
    let s := s.releaseStand q.stand
    let s := ((s.put F.CFG_ST_STAT_STATE 1 q.stand).put F.CFG_ST_STAT_SOURCE (q.src + 1) q.stand).bump F.CFG_SL_LOADS
    (s.post E.CFG_STAND_LOADED q.stand ((s.time - q.at_) / 1000)).slEnd q 0 0

/-- The landings of the stand being loaded have drained (R680, R682, R683): their tasks end, their requests count as late, the dike values
of the new image stand, and the phase is WRITE. -/
def State.slDrained (s : State) (q : SlReq) (wires : List Bool) : State :=
  let ls := s.standLandings q.stand
  let s := ls.foldl State.endLandingTasks s
  let s : State := { s with
    noc.pkts := s.noc.pkts.filterMap (fun x => match x.2 with
      | some p => if ls.any (fun n => p.req.src == 0x100 + n) then
          (if p.lost then none else some (x.1, some { p with late := true })) else some x
      | none => some x)
    sl.dikes := Map.set none s.sl.dikes q.stand
      (some (dikeValues (borderOf s.sl.img.bytes) wires (Map.get none s.sl.dikes q.stand))) }
  s.put F.CFG_SL_STAT_PHASE 3

/-- STAND_DRAIN_END (R680 to R684, R769): the landings are drained or DRAIN_US has passed; `wires` are the levels of the
wires that leave the stand at the closing edge. A repair write in the stand ends first (Table STD-8). -/
def execStandDrainEnd (wires : List Bool) (s : State) : Res :=
  .next (s.when true (fun s => match s.sl.cur with
    | some q =>
      let busy : Bool := match s.cru.repair with
        | some a => s.frameStand a == q.stand
        | none => false
      if s.rd F.CFG_SL_STAT_PHASE ≠ 2 ∨ busy then s
      else
        let s := s.slDrained q wires
        if s.sl.left = 0 then s.slFinish q else s
    | none => s))

/-- First check of a frame that fails (Table STD-6): status and code. -/
def State.frameFail (s : State) (q : SlReq) (a : Nat) (f : FrameIn) : Option (Nat × Nat) :=
  if ¬ frameOk a ∨ faDie a ≠ q.stand / 16 ∨ faStrip a ≠ q.stand / 2 % 8 ∨ ¬ s.rowIn q.stand (faRow a) then some (0x03, 0x2A)
  else if (match s.sl.last with
      | some l => decide (a ≤ l)
      | none => false) then some (0x03, 0x2B)
  else if faKind a = 1 ∧ ¬ f.drivers then some (0x03, 0x2C)
  else none

/-- Writes the frames of a run: the fabric and the image cache (R683, R690). It stops at the first that fails. -/
def State.writeRun (s : State) (q : SlReq) : Nat → List FrameIn → State × Bool
  | _, [] => (s, true)
  | a, f :: r =>
    match s.frameFail q a f with
    | some (st, code) => (s.slTear q a st code, false)
    | none =>
      let s := s.updFrm a (fun x => if frameScanned a
        then { x with live := f.data, cache := f.data, inj := false } else { x with live := f.data })
      let s : State := { s with
        sl.last := some a
        sl.scanned := s.sl.scanned + b2n (frameScanned a)
        sl.mems := if frameScanned a ∨ s.sl.mems.contains (frameMem a) then s.sl.mems else s.sl.mems ++ [frameMem a] }
      State.writeRun (s.bump F.CFG_SL_FRAMES) q (a + 1) r

/-- RUN_RECORD (R677, R683 to R686, R690): the header's ADDR and COUNT, its frames, and a failed read after them. The record's bytes count
toward FRAME_HASH. -/
def execRunRecord (addr count : Nat) (frames : List FrameIn) (err : Option SrcErr) (s : State) : Res :=
  .next (s.when true (fun s => match s.sl.cur with
    | some q =>
      if s.rd F.CFG_SL_STAT_PHASE ≠ 3 ∨ err.isNone ∧ frames.length ≠ count then s
      else match s.writeRun q addr frames with
        | (s, false) => s
        | (s, true) =>
          match err with
          | some e => s.slTear q (addr + frames.length) (match e with
            | .poisoned => 0x0F
            | .nvm => 0x12) 0x2F
          | none =>
            let s : State := { s with
              sl.left := s.sl.left - (16 + 256 * frames.length)
              sl.runs := s.sl.runs ++ runBytes addr (frames.map FrameIn.data) }
            if s.sl.left = 0 then s.slFinish q else s
    | none => s))

/-! ### Signatures (R689) -/

/-- Excluded bits of a frame as a mask (R689). -/
def State.excluded (s : State) (a : Nat) : Nat :=
  if faKind a ≠ 0 then 0
  else ofBytes ((List.range 256).map (fun k =>
    let p := 256 * faMinor a + k
    if p % 192 < 128 ∧ s.ramMode a (p / 192) then 255 else 0))

/-- Signature of a content of frame `a`. -/
def State.sig (s : State) (a x : Nat) : Nat :=
  let m := s.excluded a
  crc32c 256 (x - Nat.land x m)

/-- Golden signature of a frame. -/
def State.gold (s : State) (a : Nat) : Nat := (s.frame a).gold.getD (crc32c 256 0)

/-- A content of frame `a` has the golden signature. -/
def State.matchesGold (s : State) (a x : Nat) : Bool := s.sig a x == s.gold a

/-! ### The Cruiser (R688 to R696) -/

/-- The Cruiser scans the frames of stand `i`: RUNNING, QUEUED or STOPPED, in a polder that is not off. -/
def State.scanned (s : State) (i : Nat) : Bool :=
  (s.standSt i == 1 || s.standSt i == 2 || s.standSt i == 5) && s.polSt (standPolder i) != 4

/-- The next frame of the pass at or above an address. -/
def State.nextScan (s : State) (lo : Nat) : Option Nat :=
  (List.range 4608).findSome? (fun c =>
    if cellBase c + 0x80000 ≤ lo ∨ ¬ s.scanned (s.frameStand (cellBase c)) then none
    else (cellFrames c).find? (fun a => decide (lo ≤ a) && !(s.frame a).skip))

/-- Contention reports enter the queue of 8; the rest wait (R695). -/
def State.cruFill (s : State) : State :=
  let n := 8 - s.cru.queue.length
  { s with cru.queue := s.cru.queue ++ s.cru.waiting.take n, cru.waiting := s.cru.waiting.drop n }

/-- A reported frame has been compared or repaired and is golden: a line whose frames are all golden again enables its one
driver (R630). -/
def State.spineClear (s : State) (a : Nat) : State :=
  s.fab.spines.foldl (fun s x => match x.2 with
    | some l =>
      if l.contains a then
        let l := l.filter (· ≠ a)
        if l = [] ∧ s.outside 64 x.1 = 1 then
          { s with fab.spines := Map.erase s.fab.spines x.1 }.post E.FAB_SPINE_RESTORED (x.1 / 1536) (x.1 % 1536)
        else { s with fab.spines := Map.set none s.fab.spines x.1 (some l) }
      else s
    | none => s) s

/-- A hit of a frame (R693, R451): the table of 4,096 frames, and the threshold. -/
def State.frameHit (s : State) (a : Nat) : State :=
  let h := s.cru.hits
  let full := decide (4096 ≤ h.length) && (Map.get [] h a).isEmpty
  let old := (h.foldl (fun (o : Option (Nat × Nat)) x => match o with
    | none => some (x.1, x.2.headD 0)
    | some b => if x.2.headD 0 < b.2 then some (x.1, x.2.headD 0) else some b) none).map Prod.fst
  let h := match full, old with
    | true, some k => Map.erase h k
    | _, _ => h
  let s := if full then s.bump F.CRU_HIT_EVICT else s
  let t := (s.time :: Map.get [] h a).take s.frameHits
  let s : State := { s with cru.hits := Map.set [] h a t }
  if t.length = s.frameHits ∧ s.time - t.getLastD s.time ≤ 3600000000000 * s.frameHours ∧ ¬ s.cru.perm.contains a then
    let s : State := { s with cru.perm := s.cru.perm ++ [a] }
    ((s.put F.CRU_PERM_FRAMES s.cru.perm.length).put F.CFG_ST_STAT_PERMANENT 1 (s.frameStand a)).post
      E.CRU_FRAME_PERMANENT (s.frameStand a) a
  else s

/-- NVM repair is allowed for a frame (R691). -/
def State.nvmAllowed (s : State) (a : Nat) : Bool :=
  s.on F.CRU_CTL_NVM_EN && decide (s.rd F.CFG_STATUS_ROLE < 2) && decide (s.rd F.CFG_ST_STAT_SOURCE (s.frameStand a) < 2)

/-- Reads a frame and compares it: a mismatch counts and starts a repair. -/
def State.cruRead (s : State) (a upset : Nat) (poison : Bool) (nvm : Option Nat) : State :=
  let f := s.frame a
  let s := s.updFrm a (fun f => { f with live := Nat.xor f.live (upset % frameMod) })
  let s := if poison then match (if s.nvmAllowed a then nvm else none) with
      | some x => s.updFrm a (fun f => { f with cache := x })
      | none => ((s.updFrm a (fun f => { f with skip := true })).bump F.CRU_SKIPPED).post E.CRU_SIG_LOST (s.frameStand a) a
    else s
  if (s.frame a).skip then s
  else if s.sig a (s.frame a).live = s.gold a then s.spineClear a
  else
    let s := (s.bump F.CRU_MISMATCH).put F.CRU_LAST_ADDR a
    let s := if f.inj ∧ upset = 0 then s else s.frameHit a
    let s := s.put F.CRU_STAT_REPAIRING 1
    { s with cru.repair := some a }

/-- The step serves the next contention report, unless its stand is not scanned now. -/
def State.cruReport (s : State) (a upset : Nat) (poison : Bool) (nvm : Option Nat) : State :=
  s.when (s.scanned (s.frameStand a) && !(s.frame a).skip) (fun s => s.cruRead a upset poison nvm)

/-- The step reads the next frame of the pass, or ends the pass. -/
def State.cruScan (s : State) (upset : Nat) (poison : Bool) (nvm : Option Nat) : State :=
  match s.nextScan s.cru.at_ with
  | some a =>
    let s := s.put F.CRU_POS a
    { s with cru.at_ := a + 1 }.cruRead a upset poison nvm
  | none =>
    let s := (s.bump F.CRU_PASS).put F.CRU_PASS_US ((s.time - s.cru.started) / 1000)
    { s with cru.at_ := 0, cru.started := s.time }

/-- CRUISER_SCAN_STEP (R688 to R695): the next contention report, else the next frame of the pass. `upset` are the bits of
the frame that upsets have changed; `poison` says that its signature or cache copy reads POISONED, `nvm` is its copy as the
NVM gives it. -/
def execCruiserScanStep (upset : Nat) (poison : Bool) (nvm : Option Nat) (s : State) : Res :=
  .next (s.when (s.cfg.done && s.on F.CRU_CTL_EN && s.cru.repair.isNone && s.rd F.CFG_SL_STAT_PHASE != 3
      && !s.on F.LDG_RB_STAT_BUSY) (fun s =>
    match s.cru.queue with
    | a :: r => ({ s with cru.queue := r }.cruFill).cruReport a upset poison nvm
    | [] => (s.put F.CRU_STAT_ACTIVE 1).cruScan upset poison nvm))

/-- No repair is under way. -/
def State.repairOver (s : State) : State := { s with cru.repair := none }

/-- A frame that could not be repaired is counted and posted (R691). -/
def State.unrepaired (s : State) (a : Nat) : State :=
  (s.bump F.CRU_UNREPAIRED).post E.CRU_FRAME_UNREPAIRED (s.frameStand a) a

/-- A repair writes a good copy into a frame: the bits in `keep` stay as they are; a copy from the NVM goes into the cache
as well (R690 to R692). -/
def State.repairWrite (s : State) (a x : Nat) (nvm : Bool) (keep : Nat) : State :=
  s.updFrm a (fun f =>
    { f with live := Nat.lor (Nat.land f.live keep) (x - Nat.land x keep), cache := if nvm then x else f.cache })

/-- A repair that left the frame right (R691, R693): counted, posted unless the frame is known permanently bad, and its spine lines
are released. -/
def State.repaired (s : State) (a : Nat) (nvm : Bool) : State :=
  let s := (s.updFrm a (fun f => { f with inj := false })).bump (if nvm then F.CRU_REPAIRED_NVM else F.CRU_REPAIRED_CACHE)
  let s := if s.cru.perm.contains a then s.bump F.CRU_PERM_MISMATCH
    else s.post E.CRU_FRAME_REPAIRED (s.frameStand a) (a + 2 ^ 32 * b2n nvm)
  s.spineClear a

/-- CRUISER_REPAIR_DONE (R691 to R693, R630): `nvm` is the frame's copy in the NVM, read when the image cache fails its
test; `stuck` are bits the write does not change. An NVM repair waits while a fallback is streamed (R676). -/
def execCruiserRepairDone (nvm : Option Nat) (stuck : Nat) (s : State) : Res :=
  .next (s.when true (fun s => match s.cru.repair with
    | none => s
    | some a =>
      let f := s.frame a
      let m := s.excluded a
      let byCache : Bool := s.matchesGold a f.cache
      let src : Option (Nat × Bool) :=
        if byCache then some (f.cache, false)
        else match (if s.nvmAllowed a then nvm else none) with
          | some x => if s.matchesGold a x then some (x, true) else none
          | none => none
      if !byCache && s.nvmAllowed a && s.cfg.fbStream then s
      else
        let s := match src with
          | some (x, n) => s.repairWrite a x n (stuckMask m stuck)
          | none => s
        let s := (s.put F.CRU_STAT_REPAIRING 0).repairOver
        match src with
        | none => s.unrepaired a
        | some (_, n) =>
          if !s.matchesGold a (s.frame a).live then s.unrepaired a
          else s.repaired a n))

/-- CRU_INJ (R696): CRU_INJ_GO flips one bit of the frame at CRU_INJ_ADDR. -/
def State.cruInject (s : State) (req : Req) (value : Nat) : State :=
  let a := s.rd F.CRU_INJ_ADDR
  if frameScanned a ∧ s.standSt (s.frameStand a) = 1 then
    s.updFrm a (fun f => { f with live := Nat.xor f.live (2 ^ (value % 2048)), inj := true })
  else s.refuseWrite req (F.CRU_INJ_GO.off 0 0)

/-- CRU_INJ (R696). -/
def execCruInj (req : Req) (value : Nat) (s : State) : Res := 
  .next (s.when true (fun s => s.byReq req (F.CRU_INJ_GO.off 0 0) (fun s => s.cruInject req value)))

/-- SPINE_CONTENTION (R629, R695): the detector of a line finds the drivers `a` and `b` enabled. -/
def execSpineContention (die line : Nat) (a b : Driver) (s : State) : Res :=
  let l := 1536 * die + line
  .next (s.when (s.cfg.done && decide (die < 4) && decide (line < 1536) && (Map.get none s.fab.spines l).isNone) (fun s =>
    let s := [a, b].foldl (fun s d => s.updFrm d.frame (fun f => { f with live := Nat.xor f.live (d.upset % frameMod) })) s
    let rep := [a.frame, b.frame].filter (fun x => s.standSt (s.frameStand x) != 3)
    let s : State := { s with
      fab.spines := Map.set none s.fab.spines l (some rep), cru.waiting := s.cru.waiting ++ rep }
    ((s.bump F.LDG_SPINE_HITS).post E.FAB_SPINE_CONTENTION die line).cruFill))

end Sys2Proof.Machine
end

