-- ==== Sys2Proof/Machine/Lanes.lean ====
section
/-! DEFINITION. The serial lanes: bring-up, training, adaptation, the PCS reports and PRBS (R744 to R780). -/

namespace Sys2Proof.Machine
open Sys2Proof

/-! ### Lanes and their uses (R744, R768) -/

/-- A PCIe lane. -/
def lanePcie (l : Nat) : Bool := decide (l < 16)

/-- Levee bundle of a lane. -/
def laneBundle (l : Nat) : Option Nat :=
  if 64 ≤ l ∧ l < 80 then some 0 else if 128 ≤ l ∧ l < 144 then some 1 else none

/-- A general lane. -/
def laneGeneral (l : Nat) : Bool := decide (l < 256) && !lanePcie l && (laneBundle l).isNone

/-- Polder of a lane (Table ARC-10). -/
def lanePolder (l : Nat) : Nat := 49 + l / 16

/-- Stand that holds the fabric port of a general lane (R768). -/
def State.portStand (s : State) (l : Nat) : Nat :=
  let j := l % 64
  s.standAt (l / 64) (if j < 32 then 0 else 7) (3 * (j % 32) / 4)

/-- A lane's state beyond its registers. -/
def State.lane (s : State) (l : Nat) : Lane := Map.get {} s.lanes l

/-- Changes it. -/
def State.updLane (s : State) (l : Nat) (f : Lane → Lane) : State := { s with lanes := Map.upd {} s.lanes l f }

/-- State of a lane (Table SDS-2). -/
def State.laneSt (s : State) (l : Nat) : Nat := s.rd F.SDS_LANE_STAT_STATE l

/-- What enables a lane: EN, its bundle, or the PCIe hard block; with its reference and its polder (R747, R758). -/
def State.laneEn (s : State) (l : Nat) : Bool :=
  (match laneBundle l with
    | some b => s.rd F.LVE_BUNDLE_STAT_STATE b != 0
    | none => if lanePcie l then s.on F.PCI_STAT_READY && !s.pci.perst else s.on F.SDS_LANE_CTL_EN l && s.cfg.done)
  && s.on F.SDS_QUAD_STAT_REF_OK (l / 4) && s.polSt (lanePolder l) == 0

/-- OFF: at once, unless felled (Table SDS-2). -/
def State.laneOff (s : State) (l : Nat) : State :=
  if s.laneSt l = 8 ∨ s.laneSt l = 0 then s
  else
    let s := if s.laneSt l = 1 then s else s.updLane l (fun x => { x with elecAt := s.time })
    let s := ((s.put F.SDS_LANE_STAT_STATE 0 l).put F.SDS_LANE_STAT_PARTNER 0 l).put F.SDS_LANE_STAT_SIGNAL 0 l
    (s.put F.SDS_LANE_STAT_FROZEN 0 l).updLane l (fun x => { elecAt := x.elecAt })

/-- OFF to DETECT where the lane is enabled. -/
def State.laneOn (s : State) (l : Nat) : State :=
  if s.laneSt l = 0 ∧ s.laneEn l then s.put F.SDS_LANE_STAT_STATE 1 l else s

/-- A lane is restarted from SIGNAL. -/
def State.laneSignal (s : State) (l : Nat) : State :=
  let s := (s.put F.SDS_LANE_STAT_STATE 2 l).put F.SDS_LANE_STAT_FROZEN 0 l
  s.updLane l (fun x =>
    { x with own := false, partner := false, result := 0, frozenAt := none
             rate := match laneBundle l with
               | some b => bundleRate (s.rd F.LVE_BUNDLE_CTL_RATE b)
               | none => s.rd F.SDS_LANE_CTL_RATE l
             precode := s.on F.SDS_LANE_CTL_PRECODE l, train := s.on F.SDS_LANE_CTL_TRAIN l })

/-- A lane that trains: Levee lanes, and general lanes with TRAIN = 1 outside TEST (R753, R775). -/
def State.laneTrains (s : State) (l : Nat) : Bool :=
  (laneBundle l).isSome || (laneGeneral l && (s.lane l).train && s.rd F.SDS_LANE_CTL_MODE l != 2)

/-- An attempt starts. -/
def State.laneAttempt (s : State) (l : Nat) : State :=
  ((s.put F.SDS_LANE_STAT_STATE 3 l).bump F.SDS_LANE_TRAINS 1 l).updLane l (fun x => { x with own := false, partner := false })

/-- Fells a lane (R762). A felled PCIe lane of a link that is up makes it retrain (R785). -/
def State.fellLane (s : State) (l : Nat) : State :=
  let s := ((s.put F.SDS_LANE_STAT_STATE 8 l).put F.SDS_LANE_STAT_SIGNAL 0 l).put F.SDS_LANE_STAT_FROZEN 0 l
  let s := (s.bump F.SDS_STAT_FELLED).updLane l (fun _ => { elecAt := s.time })
  let s := if lanePcie l then
      let s := s.put F.PCI_LANES_FELLED (setBits (s.rd F.PCI_LANES_FELLED) l 1 1)
      if s.on F.PCI_STAT_DL_UP then s.put F.PCI_STAT_LTSSM 0x0B else s
    else s
  s.post E.SDS_LANE_FELLED l

/-- An attempt that had not made the own receiver ready has failed (Table SDS-2). -/
def State.laneFail (s : State) (l : Nat) : State :=
  let n := s.rd F.SDS_LANE_STAT_FAILS l + 1
  let s := ((s.put F.SDS_LANE_STAT_FAILS n l).bump F.SDS_LANE_TFAILS 1 l).post E.SDS_TRAIN_FAIL l n
  if s.laneFails ≤ n then s.fellLane l else s

/-- The attempt timer of a lane ends (Table SDS-2). -/
def State.laneTimeout (s : State) (l : Nat) : State :=
  if s.laneSt l = 3 ∨ s.laneSt l = 4 then
    let own := s.laneSt l == 4 && (s.lane l).own
    let s := s.laneSignal l
    if own then s else s.laneFail l
  else s

/-! ### Bring-up (R757 to R763) -/

/-- Lanes of a bundle. -/
def bundleLanes (b : Nat) : List Nat := (List.range 16).map (· + (if b = 0 then 64 else 128))

/-- A bundle in DETECT that sees the partner's termination on 4 or more lanes goes to EQUALISE (Table LVE-2). -/
def State.bundleSeen (s : State) (l : Nat) : State :=
  match laneBundle l with
  | some b =>
    if s.bst b = 1 ∧ 4 ≤ ((bundleLanes b).filter (fun l => s.on F.SDS_LANE_STAT_PARTNER l)).length
    then s.put F.LVE_BUNDLE_STAT_STATE 2 b else s
  | none => s

/-- LANE_DETECT_POLL (R394, R758, R759): `seen` says that the partner's termination is there. -/
def execLaneDetectPoll (lane : Nat) (seen : Bool) (s : State) : Res :=
  .next (s.when (s.laneSt lane == 1) (fun s =>
    if seen then
      let long := decide (1000000 < s.time - (s.lane lane).elecAt)
      (((s.put F.SDS_LANE_STAT_PARTNER 1 lane).laneSignal lane).updLane lane (fun x => { x with pattern := long })).bundleSeen lane
    else s.put F.SDS_LANE_STAT_PARTNER 0 lane))

/-- IDLE_PATTERN_END (R757). -/
def execIdlePatternEnd (lane : Nat) (s : State) : Res :=
  .next (s.when true (fun s => s.updLane lane (fun x => { x with pattern := false })))

/-- LANE_SIGNAL_PRESENT (R758). -/
def execLaneSignalPresent (lane : Nat) (s : State) : Res :=
  .next (s.when (s.laneSt lane == 2) (fun s => (s.put F.SDS_LANE_STAT_SIGNAL 1 lane).laneAttempt lane))

/-- PARTNER_TERMINATION_LOST (R758). -/
def execPartnerTerminationLost (lane : Nat) (s : State) : Res :=
  .next (s.when (s.laneSt lane == 2) (fun s =>
    ((s.put F.SDS_LANE_STAT_STATE 1 lane).put F.SDS_LANE_STAT_PARTNER 0 lane).updLane lane (fun x =>
      { x with elecAt := s.time, pattern := false })))

/-- LANE_ACQUIRED (R758). -/
def execLaneAcquired (lane : Nat) (s : State) : Res :=
  .next (s.when (s.laneSt lane == 3) (fun s => s.put F.SDS_LANE_STAT_STATE (if s.laneTrains lane then 4 else 5) lane))

/-- A tap register as a signed number. -/
def tapVal (v : Nat) : Int := if 32 ≤ v then (v : Int) - 64 else v

/-- The five taps of a lane, C(-2) to C(+2). -/
def State.taps (s : State) (l : Nat) : List Int :=
  [tapVal (s.rd F.SDS_LANE_FFE_CM2 l), tapVal (s.rd F.SDS_LANE_FFE_CM1 l), (s.rd F.SDS_LANE_FFE_C0 l : Int),
   tapVal (s.rd F.SDS_LANE_FFE_CP1 l), tapVal (s.rd F.SDS_LANE_FFE_CP2 l)]

/-- Limits of R752. -/
def tapsOk (t : List Int) : Bool :=
  let g (i : Nat) : Int := t.getD i 0
  decide (0 ≤ g 2) && decide (g 2 ≤ 63) && [0, 1, 3, 4].all (fun i => decide (-31 ≤ g i) && decide (g i ≤ 31))
    && decide ((t.map Int.natAbs).sum ≤ 63)

/-- Sets the taps. -/
def State.putTaps (s : State) (l : Nat) (t : List Int) : State :=
  let g (i : Nat) : Nat := (t.getD i 0 % 64).toNat
  ((((s.put F.SDS_LANE_FFE_CM2 (g 0) l).put F.SDS_LANE_FFE_CM1 (g 1) l).put F.SDS_LANE_FFE_C0 (g 2) l).put
    F.SDS_LANE_FFE_CP1 (g 3) l).put F.SDS_LANE_FFE_CP2 (g 4) l

/-- Preset taps. -/
def presetTaps : List Int := [0, -6, 50, -7, 0]

/-- A coefficient request of a control word (Table SDS-3, R761): the state and RESULT. -/
def State.tapRequest (s : State) (l control : Nat) : State × Nat :=
  let tap := bits control 0 3
  let q := bits control 3 2
  if q = 0 then (s, 0)
  else if q = 3 then (s.putTaps l presetTaps, 1)
  else if 5 ≤ tap then (s, 0)
  else
    let t := (s.taps l).modify tap (fun v => if q = 1 then v + 1 else v - 1)
    if tapsOk t then (s.putTaps l t, 1) else (s, 2)

/-- LANE_TRAINING_FRAME (R752, R753, R760, R761): the partner's control and status words; `ready` says that the own
receiver has converged and its RX_READY is sent. -/
def execLaneTrainingFrame (lane control status : Nat) (ready : Bool) (s : State) : Res :=
  .next (s.when (s.laneSt lane == 4) (fun s =>
    let r := s.tapRequest lane control
    let s := r.1.updLane lane (fun x =>
      { x with result := r.2, own := x.own || ready, partner := x.partner || bit status 2 })
    if (s.lane lane).own ∧ (s.lane lane).partner then (s.put F.SDS_LANE_STAT_STATE 5 lane).put F.SDS_LANE_STAT_FAILS 0 lane
    else s))

/-- LANE_ATTEMPT_TIMEOUT (R758, R759, R762). -/
def execLaneAttemptTimeout (lane : Nat) (s : State) : Res := .next (s.when true (fun s => s.laneTimeout lane))

/-- LANE_SIGNAL_ABSENT (R758): the attempt ends uncounted. -/
def execLaneSignalAbsent (lane : Nat) (s : State) : Res :=
  .next (s.when (s.laneSt lane == 3 || s.laneSt lane == 4) (fun s =>
    ((s.put F.SDS_LANE_STAT_STATE 1 lane).put F.SDS_LANE_STAT_SIGNAL 0 lane).updLane lane (fun x => { x with elecAt := s.time })))

/-- LANE_LOCK_LOST (R758). -/
def execLaneLockLost (lane : Nat) (s : State) : Res :=
  .next (s.when (s.laneSt lane == 5) (fun s =>
    ((s.laneAttempt lane).bump F.SDS_LANE_LOCK_LOSS 1 lane).post E.SDS_LOCK_LOST lane))

/-! ### Signal loss and adaptation (R754 to R756) -/

/-- LANE_SIGNAL_LOSS (R756). -/
def execLaneSignalLoss (lane : Nat) (s : State) : Res :=
  .next (s.when (s.laneSt lane == 5) (fun s =>
    (((s.put F.SDS_LANE_STAT_STATE 6 lane).put F.SDS_LANE_STAT_SIGNAL 0 lane).put F.SDS_LANE_STAT_FROZEN 1 lane).updLane lane
      (fun x => { x with idleAt := s.time })))

/-- Enters READAPT. -/
def State.laneReadapt (s : State) (l : Nat) : State :=
  ((s.put F.SDS_LANE_STAT_STATE 7 l).put F.SDS_LANE_STAT_FROZEN 0 l).bump F.SDS_LANE_READAPTS 1 l

/-- LANE_SIGNAL_RETURN (R756): READAPT after more than 1 ms. -/
def execLaneSignalReturn (lane : Nat) (s : State) : Res :=
  .next (s.when (s.laneSt lane == 6) (fun s =>
    let s := s.put F.SDS_LANE_STAT_SIGNAL 1 lane
    if s.time - (s.lane lane).idleAt ≤ 1000000 then
      (s.put F.SDS_LANE_STAT_STATE 5 lane).flag F.SDS_LANE_STAT_FROZEN (s.on F.SDS_LANE_CTL_FREEZE lane) lane
    else s.laneReadapt lane))

/-- LANE_READAPT_DONE (R756). -/
def execLaneReadaptDone (lane : Nat) (s : State) : Res :=
  .next (s.when (s.laneSt lane == 7) (fun s => s.put F.SDS_LANE_STAT_STATE 5 lane))

/-- The balance conditions of R755. -/
def State.balanced (s : State) (w : AdaptWin) (pam4 : Bool) : Bool :=
  decide (s.rd F.SDS_ADAPT_CFG_DENS_MIN * 16 ≤ w.trans) && w.levels.all (fun n =>
    if pam4 then decide (s.rd F.SDS_ADAPT_CFG_LEVEL_MIN * 16 ≤ n) && decide (n ≤ s.rd F.SDS_ADAPT_CFG_LEVEL_MAX * 16)
    else decide (s.rd F.SDS_ADAPT_CFG_NRZ_MIN * 16 ≤ n))

/-- ADAPT_WINDOW (R754 to R756): a window in ACQUIRE, TRAIN or ACTIVE. -/
def execAdaptWindow (lane : Nat) (w : AdaptWin) (s : State) : Res :=
  .next (s.when (s.laneSt lane == 3 || s.laneSt lane == 4 || s.laneSt lane == 5) (fun s =>
    let ok := s.balanced w (decide (3400 ≤ (s.lane lane).rate))
    let frz := !ok || s.on F.SDS_LANE_CTL_FREEZE lane
    let since := (s.lane lane).frozenAt
    let s := (s.put F.SDS_LANE_EYE_HEIGHT_MV w.height lane).put F.SDS_LANE_EYE_WIDTH_MUI w.width lane
    let s := (s.bump F.SDS_PORT_OVF w.ovf lane).flag F.SDS_LANE_STAT_FROZEN frz lane
    let s := if frz then s
      else (((s.put F.SDS_LANE_RX_CTLE w.ctle lane).put F.SDS_LANE_RX_FLT1 w.flt1 lane).put F.SDS_LANE_RX_FLT2 w.flt2 lane).put
        F.SDS_LANE_RX_FLT3 w.flt3 lane
    let s := s.updLane lane (fun x => { x with frozenAt := if ok then none else some (since.getD s.time) })
    match since with
    | some t => if ok ∧ s.laneSt lane = 5 ∧ 1000000 < s.time - t then s.laneReadapt lane else s
    | none => s))

/-- RETRAIN (R758): any state but OFF and FELLED. -/
def State.retrainLane (s : State) (l : Nat) : State :=
  if s.laneSt l = 0 ∨ s.laneSt l = 8 then s else s.laneSignal l

/-- LANE_RETRAIN (R758). -/
def execLaneRetrain (lane : Nat) (s : State) : Res := .next (s.when (decide (lane < 256)) (fun s => s.retrainLane lane))

/-- QUAD_REFCLK_CHANGE (R747). -/
def execQuadRefclkChange (quad : Nat) (present : Bool) (s : State) : Res :=
  .next (s.when (decide (quad < 64)) (fun s =>
    let s := s.flag F.SDS_QUAD_STAT_REF_OK present quad
    (List.range 4).foldl (fun s i => if present then s.laneOn (4 * quad + i) else s.laneOff (4 * quad + i)) s))

/-- BUNDLE_LANE_SIGNAL (R763): signal on the lanes of an enabled bundle that is DOWN; 4 or more make a probe due. -/
def execBundleLaneSignal (b lanes : Nat) (s : State) : Res :=
  .next (s.when (decide (b < 2) && bit (s.rd F.LVE_CTL_BUNDLE_EN) b && s.bst b == 0) (fun s =>
    let l0 := if b = 0 then 64 else 128
    let s := (List.range 16).foldl (fun s i => s.flag F.SDS_LANE_STAT_SIGNAL (bit lanes i) (l0 + i)) s
    if 4 ≤ popcount (lanes % 65536) 16 then s.updBnd b (fun x => { x with probeDue := true }) else s))

/-! ### PCS reports (R770 to R773) -/

/-- BLOCK_LOCK (R771): the ETH lanes of a quad in block lock, and its alignment lock. -/
def execBlockLock (quad lanes : Nat) (am : Bool) (s : State) : Res :=
  .next (s.when (decide (quad < 64)) (fun s =>
    let m := (List.range 4).foldl (fun m i =>
      let l := 4 * quad + i
      if bit lanes i ∧ laneGeneral l ∧ s.rd F.SDS_LANE_CTL_MODE l = 1 ∧ s.laneSt l = 5 then m + 2 ^ i else m) 0
    (s.put F.SDS_QUAD_STAT_BLOCK_LOCK m quad).flag F.SDS_QUAD_STAT_AM_LOCK am quad))

/-- HI_BER (R766, R773): the monitor reports or clears hi_ber; the codewords, symbols and missing blocks counted since its
last report come with it. -/
def execHiBer (quad : Nat) (rises : Bool) (corr uncorr sym under : Nat) (s : State) : Res :=
  .next (s.when (decide (quad < 64)) (fun s =>
    let was := s.on F.SDS_QUAD_STAT_HI_BER quad
    let s := ((s.bump F.SDS_FEC_CORR corr quad).bump F.SDS_FEC_UNCORR uncorr quad).bump F.SDS_FEC_SYM sym quad
    let s := (s.bump F.SDS_TX_UNDERRUN under quad).flag F.SDS_QUAD_STAT_HI_BER rises quad
    if rises ∧ ¬ was then s.post E.SDS_HI_BER quad else s))

/-! ### PRBS (R774 to R777) -/

/-- One injection: a near-end loopback's own locked checker counts its bits. -/
def State.prbsFlip (s : State) (l : Nat) : State :=
  let n := s.rd F.SDS_PRBS_CTL_INJ_BITS l + 1
  let s := s.bump F.SDS_PRBS_INJECTED 1 l
  if s.rd F.SDS_LANE_CTL_LOOPBACK l = 1 ∧ s.on F.SDS_PRBS_CTL_CHK_EN l ∧ s.on F.SDS_PRBS_STAT_LOCK l
  then s.bump F.SDS_PRBS_ERR n l else s

/-- The generator of a lane runs in TEST. -/
def State.prbsRuns (s : State) (l : Nat) : Bool :=
  laneGeneral l && s.rd F.SDS_LANE_CTL_MODE l == 2 && s.on F.SDS_PRBS_CTL_GEN_EN l

/-- PRBS_INJECT (R777): INJ_GO, in INJ_MODE 1 only. -/
def execPrbsInject (lane : Nat) (s : State) : Res :=
  .next (s.when (s.prbsRuns lane && s.rd F.SDS_PRBS_CTL_INJ_MODE lane == 1) (fun s => s.prbsFlip lane))

/-- PRBS_PERIODIC_INJECT (R777). -/
def execPrbsPeriodicInject (lane : Nat) (s : State) : Res :=
  .next (s.when (s.prbsRuns lane && s.rd F.SDS_PRBS_CTL_INJ_MODE lane == 2) (fun s => s.prbsFlip lane))

/-- PRBS_CHECKER_LOCK (R776): the checker of an ACTIVE TEST lane locks or loses lock; the errors and units of 65,536 bits it
counted while locked, since its last report, come with it. -/
def execPrbsCheckerLock (lane : Nat) (lock : Bool) (errs units : Nat) (s : State) : Res :=
  .next (s.when (laneGeneral lane && s.rd F.SDS_LANE_CTL_MODE lane == 2 && s.laneSt lane == 5
      && s.on F.SDS_PRBS_CTL_CHK_EN lane) (fun s =>
    let s := if s.on F.SDS_PRBS_STAT_LOCK lane then (s.bump F.SDS_PRBS_ERR errs lane).bump F.SDS_PRBS_BITS units lane else s
    s.flag F.SDS_PRBS_STAT_LOCK lock lane))

/-! ### Coefficients (R752, R753) -/

/-- Taps of an SDS_LANE_FFE word. -/
def wordTaps (v : Nat) : List Int :=
  [tapVal (bits v 0 6), tapVal (bits v 6 6), (bits v 12 6 : Int), tapVal (bits v 18 6), tapVal (bits v 24 6)]

/-- Training sets the lane's taps: its FFE register cannot be written (R753). -/
def State.ffeTrained (s : State) (l : Nat) : Bool := !laneGeneral l || s.on F.SDS_LANE_CTL_TRAIN l

/-- The lane takes no notice of its fabric port (R769). -/
def State.portShut (s : State) (l : Nat) : Bool :=
  let i := s.portStand l
  let st := s.standSt i
  st == 3 || st == 4 || st == 5 || s.polSt (standPolder i) != 0

/-- COEFFICIENT_INPUT_WRITE (R752, R753, R769): taps from the fabric port, in the layout of SDS_LANE_FFE. Taps outside R752
are discarded with STATE_CONFLICT. -/
def execCoefficientInputWrite (lane value : Nat) (s : State) : Res :=
  .next (s.when (laneGeneral lane && !s.ffeTrained lane && !s.portShut lane) (fun s =>
    if tapsOk (wordTaps value) then s.putTaps lane (wordTaps value)
    else s.postFrom 15 E.STATE_CONFLICT (reqCode .part) none (ctrlAddr (F.SDS_LANE_FFE_CM2.off lane 0))))

end Sys2Proof.Machine
end

