-- ==== Sys2Proof/Machine/Queue.lean ====
section
/-! DEFINITION. Queue pairs, doorbells, fetching, completion posting, the mailbox and the ledger commands (R101 to
R126, R155, R160 to R162, R171 to R174, R838 to R841). -/

namespace Sys2Proof.Machine
open Sys2Proof

/-! ### Admin queue -/

/-- ENABLE changes from 0 to 1 and the admin queue pair begins to start (R105). -/
def State.queueOn (s : State) (fn : Nat) : State :=
  s.when (s.fnExists fn && !s.on F.QQP_CTL_ENABLE fn && !s.pci.inReset && !s.on F.PCI_FN_STAT_FLR fn)
    (fun s => s.put F.QQP_CTL_ENABLE 1 fn)

/-- ADMIN_QUEUE_ENABLE (R105). -/
def execAdminQueueEnable (fn : Nat) (s : State) : Res := .next (s.when true (fun s => s.queueOn fn))

/-- ADMIN_QUEUE_READY (R105): READY rises with the queue running, or CFG_ERR for a base that is not 4 KiB aligned. -/
def execAdminQueueReady (fn : Nat) (s : State) : Res :=
  .next (s.when (s.on F.QQP_CTL_ENABLE fn && !s.on F.QQP_STAT_READY fn && !s.on F.QQP_STAT_CFG_ERR fn) (fun s =>
    if s.sqBase fn 0 % 4096 ≠ 0 ∨ s.cqBase fn 0 % 4096 ≠ 0 then s.put F.QQP_STAT_CFG_ERR 1 fn
    else (s.put F.QQP_STAT_READY 1 fn).updQp fn 0 (fun _ =>
      { live := true, sqSize := s.rd F.QQP_AQ_SIZE_ASQS fn + 1, cqSize := s.rd F.QQP_AQ_SIZE_ACQS fn + 1
        irqEn := true })))

/-- A command of a function whose queues go: dropped while in RECEIVED, otherwise its completion is discarded and its
entry goes as it ends (R106, R470). A fused pair is dropped as one (R144). -/
def dropForReset (s : State) (fn : Nat) (e : Nat × Option Cmd) : State :=
  match e.2 with
  | some c =>
    if c.internal ∨ c.fn ≠ fn ∨ e.1 = 262144 then s
    else if c.phase = 0 ∧ ¬ c.completed ∧ (c.fused.bind s.cmd).all (fun d => d.phase = 0) then
      (((s.undo e.1).cmdTasks e.1).foldl State.endTask (s.undo e.1)).dropCmd e.1
    else if c.completed ∧ (c.phase = 5 ∨ ¬ isWriteOp (sqOp c.sqe) ∨ c.nBuf = 0) then s.dropCmd e.1
    else s.setCmd e.1 { c with discard := true }
  | none => s

/-- Commands of functions that a reset of Table PCI-3 covers: dropped as by R106, and those that run on are cut off
from PCIe (R800). -/
def State.cutCmds (s : State) (p : Nat → Bool) : State :=
  let s := s.qqp.cmds.foldl (fun s e => match e.2 with
    | some c => if p c.fn then dropForReset s c.fn e else s
    | none => s) s
  let s : State := { s with
    qqp.cmds := Map.mapAll none (fun k x => x.map (fun c => if p c.fn && !c.internal && k != 262144 then { c with cut := true } else c)) s.qqp.cmds
    qqp.qps := Map.keep (fun k _ => !p (k / 2048)) s.qqp.qps }
  s.settleAll

/-- Every queue pair of a function is deleted (R106). -/
def State.dropQueues (s : State) (fn : Nat) : State :=
  let s := s.qqp.cmds.foldl (fun s e => dropForReset s fn e) s
  let s := { s with qqp.qps := Map.keep (fun k _ => k / 2048 != fn) s.qqp.qps }
  ((((s.put F.QQP_CTL_ENABLE 0 fn).put F.QQP_STAT_READY 0 fn).put F.QQP_STAT_CFG_ERR 0 fn).put
    F.QQP_TAGS_HELD 0 fn).settleAll

/-- QUEUE_DISABLE (R106): ENABLE changes from 1 to 0. -/
def execQueueDisable (fn : Nat) (s : State) : Res :=
  .next (s.when (s.on F.QQP_CTL_ENABLE fn) (fun s => s.dropQueues fn))

/-! ### Doorbells (R107 to R109) -/

/-- A doorbell write discarded by R109. -/
def State.doorbellBad (s : State) (fn q v : Nat) : State :=
  (s.bump F.QQP_DB_ERRORS 1 fn).post E.QQP_DOORBELL_INVALID fn (q % 2 ^ 16 + 2 ^ 32 * (v % 2 ^ 16))

/-- A write of an SQ tail doorbell reaches the front end (R108). -/
def State.sqDoorbell (s : State) (fn q v : Nat) : State :=
  let p := s.qp fn q
  if !p.live || decide (p.sqSize ≤ v) then s.doorbellBad fn q v
  else s.updQp fn q (fun p => { p with sqTail := v, stop := if p.stop = 8 then 0 else p.stop })

/-- A write of a CQ head doorbell reaches the front end: entries up to the written index return to the part. -/
def State.cqDoorbell (s : State) (fn q v : Nat) : State :=
  let p := s.qp fn q
  let n := (v + p.cqSize - p.cqHead) % p.cqSize
  if !p.live || decide (p.cqSize ≤ v) || decide (p.cqUsed < n) then s.doorbellBad fn q v
  else s.updQp fn q (fun p => { p with cqHead := v, cqUsed := p.cqUsed - n })

/-- While the front end's gate is closed the port holds a doorbell (R732). -/
def State.holdDoorbell (s : State) (fn : Nat) (cq : Bool) (q v : Nat) : State :=
  { s with pwr.doorbells := s.pwr.doorbells ++ [(fn, cq, q, v)] }

/-- Held doorbells are delivered in order once the gate is open. -/
def State.deliverDoorbells (s : State) : State :=
  if s.on F.CLK_GATE_OPEN 80 then
    let l := s.pwr.doorbells
    l.foldl (fun s x => if x.2.1 then s.cqDoorbell x.1 x.2.2.1 x.2.2.2 else s.sqDoorbell x.1 x.2.2.1 x.2.2.2)
      { s with pwr.doorbells := [] }
  else s

/-- SQ_TAIL_DOORBELL (R108, R109, R732). -/
def execSqTailDoorbell (fn qid value : Nat) (s : State) : Res :=
  .next (s.when true (fun s => if s.on F.CLK_GATE_OPEN 80 then s.sqDoorbell fn qid value else s.holdDoorbell fn false qid value))

/-- CQ_HEAD_DOORBELL (R108, R109, R732). -/
def execCqHeadDoorbell (fn qid value : Nat) (s : State) : Res :=
  .next (s.when true (fun s => if s.on F.CLK_GATE_OPEN 80 then s.cqDoorbell fn qid value else s.holdDoorbell fn true qid value))

/-! ### Fetching (R121 to R124, R169) -/

/-- The fetcher runs: no power-failure hold and no keeper stop (R436, R438, R892). -/
def State.fetching (s : State) : Bool :=
  !s.lve.pfHold && !s.lve.stopped && !s.pci.inReset && s.on F.CLK_GATE_OPEN 80

/-- Host-class tags in use. -/
def State.tagsUsed (s : State) : Nat := Map.count (fun k _ => decide (k < 65536)) s.qqp.cmds

/-- The cause for which the fetcher left a queue's next entry where it is still holds (R123, R145). -/
def State.stopHolds (s : State) (p : Qp) : Bool :=
  match p.stop with
  | 0 => false
  | 1 => decide (65536 < s.tagsUsed + p.need)
  | 2 => s.hostListFull p.need
  | 4 => s.dirtyFull
  | _ => true

/-- The fetcher may serve a queue: it exists, runs, is not being deleted, has entries, the next of which it has not found
held, and its function may master the bus (R104, R123, R165, R802). -/
def State.servable (s : State) (k : Nat) : Bool :=
  let p := Map.get {} s.qqp.qps k
  p.live && !p.stopped && p.deleting.isNone && decide (0 < p.avail) && !s.stopHolds p && s.master (k / 2048)
    && !s.on F.PCI_FN_STAT_FLR (k / 2048)

/-- The queue whose turn it is: admin SQs before I/O SQs, each class in round robin (R121). -/
def State.nextQueue (s : State) : Option Nat :=
  let ks := (s.qqp.qps.map Prod.fst).filter s.servable
  let turn (l : List Nat) (last : Nat) : Option Nat :=
    match l.find? (fun k => last < k) with
    | some k => some k
    | none => l.head?
  match turn (ks.filter (fun k => k % 2048 = 0)) s.qqp.rrAdmin with
  | some k => some k
  | none => turn (ks.filter (fun k => k % 2048 ≠ 0)) s.qqp.rr

/-- A free host-class tag (R122); which one is free (log entry 4). -/
def State.hostTag (s : State) : Option Nat := s.pickIndex (fun i => (s.cmd i).isSome) 65536

/-- A ledger key for a command that takes no tag (R122). -/
def State.noTagKey (s : State) : Option Nat :=
  (s.pickIndex (fun i => (s.cmd (131072 + i)).isSome) 131072).map (· + 131072)

/-- Writes whose completion was posted before now and which a FLUSH of the command must see destaged (R141): their
lines, and the TRIM records that superseded lines. -/
def State.flushSet (s : State) (fn e : Nat) : List Nat × List Nat :=
  let all := bit e 320
  let hit (t : Nat) : Bool :=
    if all then decide ((s.tract t).owner = fn) else s.tractKey fn (sqTract e) == some t
  let lines := s.tly.lines.filterMap (fun x => match x.2 with
    | some l => if l.acked && !l.destaged && hit l.tract && l.superBy.isNone then some x.1 else none
    | none => none)
  let seqs := s.qqp.cmds.flatMap (fun x => match x.2 with
    | some c => if !c.internal && c.completed && (match s.tractKey c.fn (sqTract c.sqe) with
        | some t => hit t
        | none => false) then c.waitSeqs else []
    | none => [])
  (lines, seqs.eraseDups)

/-- Table DCK-1 kind of a transfer opcode; 0 for commands without Deck tasks. -/
def hostKind (op : Nat) : Nat :=
  match op with
  | 0x01 => 2
  | 0x02 => 1
  | 0x06 => 3
  | 0x07 => 4
  | 0x08 => 2
  | _ => 0

/-- Segments of a command at admission (R249): COPY is cut at the IUs of its source (log entry 10). -/
def State.admitSegs (s : State) (fn e : Nat) : List Seg :=
  let id := if sqOp e = 0x06 then bytesAt e 40 2 % 4096 else sqTract e
  if hostKind (sqOp e) = 0 then []
  else match s.tractKey fn id with
    | some t => s.segments (s.tract t) (sqLba e) (sqLen e)
    | none => [{ len := sqLen e }]

/-- Admits one entry at a ledger key: ledger entry, effective priority (R153), deadline, epoch (R169), segments and
their tasks (R244). A format error ends it at once. -/
def State.admitEntry (s : State) (fn q e k : Nat) (err : Option (Nat × Nat)) : State :=
  let op := sqOp e
  let prio := max (sqPrio e) (s.qp fn q).floor
  let dl := if sqDlValid e then s.time / 1000 + sqDeadline e + 1 else 0
  let segs := if err.isSome then [] else s.admitSegs fn e
  let fl := if op = 0x03 ∧ err.isNone then s.flushSet fn e else ([], [])
  let c : Cmd :=
    { sqe := e, fn := fn, sqid := q, tAdmit := s.us, tPhase := s.us, epoch := s.rd F.GLB_EPOCH_NEXT, prio := prio
      segs := segs, deadline := dl, order := s.qqp.admitted, waitLines := fl.1, waitSeqs := fl.2 }
  let s := { s with qqp.admitted := s.qqp.admitted + 1 }.setCmd k c
  match err with
  | some (st, f) => s.failCmd k st 2 0 f
  | none =>
    (List.range segs.length).foldl (fun s i =>
      s.addTask { kind := hostKind op, prio := prio, pool := 0, tag := some k, seg := i, epoch := c.epoch
                  deadline := dl }) s

/-- Consumes entries of an SQ. -/
def State.consume (s : State) (fn q n : Nat) : State :=
  (s.updQp fn q (fun p =>
    let h := p.sqHead + n
    if p.sqSize ≤ h then
      let x := { p with sqHead := h - p.sqSize }
      if p.sqNext = 0 then x else x.sqResize p.sqNext
    else { p with sqHead := h })).bump F.QQP_FETCHED n fn

/-- Places of the host ready list that an entry needs: its tasks. -/
def State.placesFor (s : State) (fn e : Nat) (err : Option (Nat × Nat)) : Nat :=
  if err.isSome then 0 else (s.admitSegs fn e).length

/-- Errors of a fused pair's entries (R144, R146, R147): an entry that is invalid has its own error, the other is ABORTED. -/
def State.pairErrors (s : State) (fn e e2 : Nat) : Option (Nat × Nat) × Option (Nat × Nat) :=
  let a := match s.formatError fn false e with
    | some x => some x
    | none => (fusedError e e2).map (fun f => (0x03, f))
  let b := if sqOp e2 = 0x08 ∧ sqFused e2 then some (0x03, 1) else s.formatError fn false e2
  if a.isNone ∧ b.isNone then (none, none) else (some (a.getD (0x0C, 0xFF)), some (b.getD (0x0C, 0xFF)))

/-- One entry, or one fused pair, is taken from the front of the entries given: the state and the number taken; or 0 with the cause
for which the fetcher leaves it and the tags or places it needs (R122, R123, R145). -/
def State.fetchOne (s : State) (fn q : Nat) (es : List Nat) : State × Nat × Nat × Nat :=
  match es with
  | [] => (s, 0, 0, 0)
  | e :: rest =>
    let admin := q == 0
    let err := s.formatError fn admin e
    if isLedgerOp (sqOp e) then
      if s.hostListFull 1 then (s, 0, 2, 1)
      else match s.noTagKey with
        | some k => ((s.consume fn q 1).drawn.admitEntry fn q e k err, 1, 0, 0)
        | none => (s, 0, 1, 1)
    else if isDirtyOp (sqOp e) && !admin && s.dirtyFull then (s, 0, 4, 1)
    else if sqOp e = 0x08 ∧ sqFused e ∧ ¬ admin then
      match rest with
      | [] => (s, 0, 8, 2)
      | e2 :: _ =>
        let errs := s.pairErrors fn e e2
        let n := max 1 (s.placesFor fn e errs.1 + s.placesFor fn e2 errs.2)
        if s.hostListFull n then (s, 0, 2, n)
        else match s.hostTag with
        | none => (s, 0, 1, 2)
        | some k =>
          let s1 := (s.consume fn q 2).drawn.admitEntry fn q e k errs.1
          match s1.hostTag with
          | none => (s, 0, 1, 2)
          | some k2 =>
            let s2 := s1.drawn.admitEntry fn q e2 k2 errs.2
            ((s2.updCmd k (fun c => { c with fused := some k2, fusedFirst := true, pairOwn := errs.1.isSome })).updCmd k2
              (fun c => { c with fused := some k, pairOwn := errs.1.isSome }), 2, 0, 0)
    else
      let n := max 1 (s.placesFor fn e err)
      if s.hostListFull n then (s, 0, 2, n)
      else match s.hostTag with
        | some k => ((s.consume fn q 1).drawn.admitEntry fn q e k err, 1, 0, 0)
        | none => (s, 0, 1, 1)

/-- Takes entries in order until the turn ends or the fetcher stops; the queue keeps the cause of a stop (R123). -/
def State.fetchMany (s : State) (fn q : Nat) : Nat → List Nat → State
  | 0, _ => s
  | n + 1, es =>
    match s.fetchOne fn q es with
    | (s', 0, r, m) => s'.updQp fn q (fun p => { p with stop := r, need := m })
    | (s', 1, _) => State.fetchMany s' fn q n (es.drop 1)
    | (s', _, _) => State.fetchMany s' fn q (n - 1) (es.drop 2)

/-- SUBMISSION_FETCH (R121): the queue whose turn it is gives up to 8 of its available entries. -/
def execSubmissionFetch (fn qid : Nat) (entries : List Nat) (s : State) : Res :=
  .next (s.when (s.fetching && s.nextQueue == some (qpKey fn qid)) (fun s =>
    let n := min 8 (s.qp fn qid).avail
    let s := if qid = 0 then { s with qqp.rrAdmin := qpKey fn qid } else { s with qqp.rr := qpKey fn qid }
    (s.updQp fn qid (fun p => { p with stop := 0, need := 0 })).fetchMany fn qid n (entries.take n)))

/-! ### Completion -/

/-- A completion of the function can be written now: queue there and running, function in D0 with Bus Master Enable
(R104, R115, R802). -/
def State.canPost (s : State) (c : Cmd) : Bool :=
  let p := s.qp c.fn c.sqid
  p.live && !p.stopped && !p.cqFull && s.master c.fn

/-- COMPLETION_POST (R114 to R117, R146, R157 to R160, R411). -/
def execCompletionPost (key : Nat) (s : State) : Res :=
  .next (s.when true (fun s => match s.cmd key with
    | some c =>
      match s.pairOutcome key c with
      | some o =>
        if key ≠ 262144 ∧ ¬ s.lve.stopped ∧ ¬ s.orderHeld key ∧ (c.discard ∨ s.canPost c) then s.complete key c o else s
      | none => s
    | none => s))

/-- COALESCE_TIMER_EXPIRES (R126). -/
def execCoalesceTimerExpires (fn qid : Nat) (s : State) : Res :=
  let p := s.qp fn qid
  .next (s.when (p.coalTimer && decide (0 < p.coalPending)) (fun s =>
    (s.updQp fn qid (fun p => { p with coalPending := 0, coalTimer := false })).msix fn p.vector))

/-- DEADLINE_EXPIRES (R131, R155): a command still in RECEIVED ends with ABORTED, or with TRACT_NOT_READY while it waits for
a FROZEN tract, or for the own map as for one (R884). -/
def execDeadlineExpires (key : Nat) (s : State) : Res :=
  .next (s.when true (fun s => match s.cmd key with
    | some c =>
      if c.deadline ≠ 0 ∧ c.deadline - 1 ≤ s.time / 1000 ∧ c.received then
        let fz := s.ioFrozen c || (isAdminOp (sqOp c.sqe) && c.frozen && !s.tly.usable)
        (s.abortCmd key (if fz then 0x05 else 0x0C)).updCmd key (fun c => { c with missed := true })
      else s
    | none => s))

/-! ### Mailbox (R171 to R174, R838 to R841) -/

/-- The 64-byte mailbox entry. -/
def State.mbxEntry (s : State) : Nat :=
  (List.range 16).foldl (fun n i => n + 2 ^ (32 * i) * s.rd F.QQP_MBX_SQE 0 i) 0

/-- A write of 1 to QQP_MBX_GO (R171): the entry is taken as an admin command, unless a result waits or a command runs. -/
def State.mbxGo (s : State) (req : Req) : State :=
  if s.pci.inReset then s
  else if s.on F.GLB_RESULT_LO_VALID ∨ s.qqp.mbxBusy then s.refuseWrite req (F.QQP_MBX_GO.off 0 0)
  else
    let e := s.mbxEntry
    let s : State := { s with qqp.mbxBusy := true }
    s.admitEntry 0 0 e 262144 (s.formatError 0 true e)

/-- MAILBOX_GO (R171), from the PF. -/
def execMailboxGo (s : State) : Res := .next (s.when true (fun s => s.mbxGo (.host 0)))

/-- Writes QQP_MBX_CQE. -/
def State.putMbxCqe (s : State) (v : Nat) : State :=
  (List.range 8).foldl (fun s i => s.put F.QQP_MBX_CQE (v / 2 ^ (32 * i)) 0 i) s

/-- The GLB result becomes VALID with the next SEQ and the values given (R838, R839). -/
def State.showResult (s : State) (status op cid result : Nat) : State :=
  let s := (s.put F.GLB_RESULT_LO_VALID 1).put F.GLB_RESULT_LO_SEQ (s.rd F.GLB_RESULT_LO_SEQ + 1)
  let s := (s.put F.GLB_RESULT_LO_STATUS status).put F.GLB_RESULT_LO_OPCODE op
  (s.put F.GLB_RESULT_HI_CID cid).put F.GLB_RESULT_HI_RESULT result

/-- MAILBOX_COMMAND_END (R172, R838, R839): the completion is written, then the GLB result becomes VALID with the
next SEQ. While the front end is in reset the registers wait (R803). -/
def execMailboxCommandEnd (s : State) : Res :=
  .next (s.when true (fun s => match s.cmd 262144 with
    | some c =>
      match s.outcome 262144 c with
      | some o =>
        let v := cqEntry (sqCid c.sqe) 0 o.status 0 true o.blocks none o.cause o.field o.result (c.missed || s.late c)
        let s := if s.pci.inReset then { s with qqp.mbxHeld := some v } else s.putMbxCqe v
        let s := { (s.dropCmd 262144).unlink with qqp.mbxBusy := false }
        let s := match c.delQ with
          | some q => if o.status = 0 then { s with qqp.qps := Map.erase s.qqp.qps (qpKey 0 q) } else s
          | none => s
        s.showResult o.status (sqOp c.sqe) (sqCid c.sqe) o.result
      | none => s
    | none => s))

/-- A write of GLB_RESULT_ACK (R174, R840): the current SEQ releases the result; any other write posts
RESULT_ACK_INVALID. -/
def State.resultAck (s : State) (value : Nat) : State :=
  if s.on F.GLB_RESULT_LO_VALID ∧ value % 256 = s.rd F.GLB_RESULT_LO_SEQ then
    let s := (s.put F.GLB_RESULT_LO_VALID 0).put F.GLB_RESULT_LO_STATUS 0
    ((s.put F.GLB_RESULT_LO_OPCODE 0).put F.GLB_RESULT_HI_CID 0).put F.GLB_RESULT_HI_RESULT 0
  else s.post E.RESULT_ACK_INVALID value

/-- RESULT_ACK (R174, R840). -/
def execResultAck (value : Nat) (s : State) : Res := .next (s.when true (fun s => s.resultAck value))

/-! ### Ledger commands (R161, R162) -/

/-- Data for host memory, while the function may master the bus; a write that cannot leave stops the command as a
host-memory fault (R441, R800, R802). -/
def State.hostData (s : State) (k fn addr len val : Nat) : State × Bool :=
  let cut : Bool := match s.cmd k with
    | some c => c.cut
    | none => false
  if s.tlpOk fn ∧ ¬ cut then ({ s with out := s.out ++ s.dataTlps fn addr len val false }, true)
  else ((s.post E.QQP_DATA_FAULT fn addr (if k < 65536 then some k else none)).failCmd k 0x12 1 addr, false)

/-- Tag named in OS bytes 43:40 (Table QQP-5). -/
def sqTag (e : Nat) : Nat := bits e 320 17

/-- LEDGER_QUERY (R161). -/
def execLedgerQuery (key : Nat) (s : State) : Res :=
  .next (s.when true (fun s => match s.cmd key with
    | some c =>
      if sqOp c.sqe = 0x10 ∧ ¬ c.ended ∧ ¬ c.internal then
        let t := sqTag c.sqe
        match (if t < 65536 then s.cmd t else none) with
        | some d =>
          if d.fn = c.fn then
            let r := s.hostData key c.fn (sqDp1 c.sqe) 64 (s.ledgerEntry t)
            if r.2 then r.1.finish key 0 0xFF 0 (d.phase + d.fault * 256) else r.1
          else s.failCmd key 0x03 2 0 40
        | none => s.failCmd key 0x03 2 0 40
      else s
    | none => s))

/-- LEDGER_RELEASE (R162). -/
def execLedgerRelease (key : Nat) (s : State) : Res :=
  .next (s.when true (fun s => match s.cmd key with
    | some c =>
      if sqOp c.sqe = 0x11 ∧ ¬ c.ended ∧ ¬ c.internal then
        let t := sqTag c.sqe
        match (if t < 65536 then s.cmd t else none) with
        | some d =>
          if d.fn ≠ c.fn then s.failCmd key 0x03 2 0 40
          else if ¬ d.completed ∨ d.phase = 3 ∨ d.phase = 4 ∨ ¬ d.held then
            (s.conflict 19 c.fn 0x11 (some t)).failCmd key 0x04 2 0
          else ((s.dropCmd t).unlink.drop F.QQP_TAGS_HELD 1 c.fn).finish key 0
        | none => s.failCmd key 0x03 2 0 40
      else s
    | none => s))

end Sys2Proof.Machine
end

