-- ==== Sys2Proof/Machine/Admin.lean ====
section
/-! DEFINITION. The admin commands (R163 to R167, Table QQP-6): queues, tracts, keys, IDENTIFY, the ledgers' copies, ABORT
and RESEAL. Each acts on the command admitted at a key; one that has begun or ended is not run again. -/

namespace Sys2Proof.Machine
open Sys2Proof

/-- The admin command at a key, when it is of the opcode and its work has not begun. -/
def State.adminCmd (s : State) (k op : Nat) : Option Cmd :=
  match s.cmd k with
  | some c => if sqOp c.sqe = op ∧ ¬ c.ended ∧ ¬ c.internal ∧ ¬ c.checked ∧ ¬ c.completed then some c else none
  | none => none

/-- An admin command refused in the present state (R170). -/
def State.adminConflict (s : State) (k : Nat) (c : Cmd) : State := (s.conflict 19 c.fn (sqOp c.sqe)).failCmd k 0x04 2 0

/-- An admin command with a wrong field (R168). -/
def State.adminField (s : State) (k field : Nat) : State := s.failCmd k 0x03 2 0 field

/-! ### Queues (R102 to R104, R165, R797) -/

/-- First wrong field of CREATE_QP (log entry 9). -/
def State.createQpField (s : State) (c : Cmd) : Option Nat :=
  let e := c.sqe
  let q := bytesAt e 40 2
  if sqDp1 e % 4096 ≠ 0 then some 24
  else if sqDp2 e % 4096 ≠ 0 then some 32
  else if q = 0 ∨ s.rd F.QQP_CAP_MAX_QP c.fn < q then some 40
  else if bytesAt e 42 2 = 0 then some 42
  else if bytesAt e 44 2 < bytesAt e 42 2 then some 44
  else if s.rd F.QQP_CAP_VECTORS c.fn ≤ bytesAt e 46 2 then some 46
  else none

/-- CREATE_QP (R103, R104, R125, R126, R153, R797). -/
def execCreateQp (key : Nat) (s : State) : Res :=
  .next (s.when true (fun s => match s.adminCmd key 0x40 with
    | some c =>
      let e := c.sqe
      let q := bytesAt e 40 2
      match s.createQpField c with
      | some f => s.adminField key f
      | none =>
        if (s.qp c.fn q).live then s.adminConflict key c
        else
          let p : Qp :=
            { live := true, sqBase := sqDp1 e, cqBase := sqDp2 e, sqSize := bytesAt e 42 2 + 1, cqSize := bytesAt e 44 2 + 1
              vector := bytesAt e 46 2, coalCount := bytesAt e 48 1, coalTime := bytesAt e 49 1, irqEn := bit e 400
              floor := bits e 401 3 }
          (s.updQp c.fn q (fun _ => p)).finish key 0
    | none => s))

/-- DELETE_QP (R165): fetching stops at once; the completion waits for the commands already fetched. A second DELETE_QP of
the queue meanwhile is refused (log entry 182). -/
def execDeleteQp (key : Nat) (s : State) : Res :=
  .next (s.when true (fun s => match s.adminCmd key 0x41 with
    | some c =>
      let q := bytesAt c.sqe 40 2
      if q = 0 ∨ s.rd F.QQP_CAP_MAX_QP c.fn < q ∨ ¬ (s.qp c.fn q).live then s.adminField key 40
      else if (s.qp c.fn q).deleting.isSome then s.adminConflict key c
      else
        let s := s.updQp c.fn q (fun p => { p with deleting := some key })
        let s := if bit c.sqe 336 then
            s.qqp.cmds.foldl (fun s e => match e.2 with
              | some d => if e.1 ≠ 262144 ∧ d.fn = c.fn ∧ d.sqid = q ∧ d.received then s.abortCmd e.1 0x0C else s
              | none => s) s
          else s
        (s.updCmd key (fun c => { c with delQ := some q })).finish key 0
    | none => s))

/-! ### Tracts (R127 to R131, R164, R177, R179, R391, R545, R880, R895) -/

/-- A command that would write a journal record waits until the own map is usable, as one for a FROZEN tract waits (R884). -/
def State.mapWait (s : State) (k : Nat) : State := s.updCmd k (fun c => { c with frozen := true })

/-- The tract of an ID, whoever owns it: own, else foreign. -/
def State.anyTract (s : State) (id : Nat) : Option Nat :=
  if (s.tract id).st ≠ .absent then some id else if (s.tract (4096 + id)).st ≠ .absent then some (4096 + id) else none

/-- First wrong field of TRACT_CREATE (R177, R880), in byte order (log entry 9). -/
def State.createField (s : State) (e : Nat) : Option Nat :=
  if sqLba e = 0 then some 8
  else if 2 ≤ bytesAt e 40 1 then some 40
  else if 6 ≤ bytesAt e 41 1 ∨ iuBytes (bytesAt e 41 1) < (if bytesAt e 40 1 = 0 then 512 else 4096) then some 41
  else if ¬ s.fnExists (bytesAt e 42 2) then some 42
  else none

/-- The KID can be bound to a tract: its slot holds a MEDIA key, or it is 0 where plaintext is allowed (R28, R545). -/
def State.bindable (s : State) (kid : Nat) : Bool :=
  if kid = 0 then s.polPlain else s.on F.CRY_KEY_STAT_LOADED kid && s.on F.CRY_KEY_STAT_MEDIA kid

/-- TRACT_CREATE: the tract enters FORMATTING with its map pages allocated, every entry TRIMMED. -/
def execTractCreate (key : Nat) (s : State) : Res :=
  .next (s.when true (fun s => match s.adminCmd key 0x42 with
    | some c =>
      let e := c.sqe
      let id := sqTract e
      match s.createField e with
      | some f => s.adminField key f
      | none =>
        let blk := bytesAt e 40 1
        let blkB := if blk = 0 then 512 else 4096
        let pages := mapPages (mapEntries (sqLba e) blkB (iuBytes (bytesAt e 41 1)))
        if ¬ s.tly.usable then s.mapWait key
        else if (s.anyTract id).isSome ∨ (Map.get {} s.lve.pTracts id).st ≠ .absent then s.adminConflict key c
        else if ¬ s.bindable (sqKid e) then s.failCmd key 0x09 2 0
        else if s.freeCapacity < sqLba e * blkB then s.failCmd key 0x0D 2 0
        else match s.allocPages pages with
        | none => s.failCmd key 0x0D 2 0
        | some p =>
          let tr : Tract :=
            { st := .formatting, blk := blk, iu := bytesAt e 41 1, cap := sqLba e, kid := sqKid e, owner := bytesAt e 42 2
              mpn := p, pages := pages, waiter := some key }
          let s := (s.setTract id tr).bump F.CRY_KEY_STAT_TRACTS 1 (sqKid e)
          let s := s.draws 2
          (s.updCmd key (fun c => { c with checked := true })).tractSet id
    | none => s))

/-- TRACT_FORMAT_DONE: the map is built (Table QQP-4). -/
def execTractFormatDone (t : Nat) (s : State) : Res :=
  .next (s.when (decide ((s.tract t).st = .formatting)) (fun s =>
    let tr := s.tract t
    let s := (s.setTract t { tr with st := .ready, waiter := none }).tractSet t
    match tr.waiter with
    | some k => s.finish k 0
    | none => s))

/-- TRACT_DELETE: the tract enters DELETING. -/
def execTractDelete (key : Nat) (s : State) : Res :=
  .next (s.when true (fun s => match s.adminCmd key 0x43 with
    | some c =>
      match s.anyTract (sqTract c.sqe) with
      | none => s.adminField key 4
      | some t =>
        let tr := s.tract t
        if ¬ s.tly.usable then s.mapWait key
        else if tr.st = .ready ∨ tr.st = .readOnly then
          ((s.setTract t { tr with st := .deleting, was := tr.st, waiter := some key }).updCmd key (fun c => { c with checked := true })).tractSet t
        else s.adminConflict key c
    | none => s))

/-- A command to a tract is still in flight. -/
def State.tractBusy (s : State) (t : Nat) : Bool :=
  s.qqp.cmds.any (fun e => match e.2 with
    | some c => !c.internal && !c.completed && isIoOp (sqOp c.sqe) && !isLedgerOp (sqOp c.sqe)
        && (s.tractKey c.fn (sqTract c.sqe) == some t || s.srcTract c == some t)
    | none => false)

/-- The tract's map is released: pages, entries, run-ahead, and what its lines hold; sectors named by resident entries become
stale (R130, R179). -/
def State.releaseTract (s : State) (t : Nat) : State :=
  let tr := s.tract t
  let inn (p : Nat) : Bool := decide (tr.mpn ≤ p) && decide (p < tr.mpn + tr.pages)
  let old := s.tly.ent.filter (fun e => inn (e.1 / 2048) && eValid e.2)
  let copies := (s.tly.dir.filter (fun e => inn e.1 && !s.resident e.1 && decide (e.2.flash ≠ 0))).map (fun e => e.2.flash)
    ++ s.tly.frames.filterMap (fun e => match e.2 with
      | some f => if inn e.1 ∧ f.flash ≠ 0 then some f.flash else none
      | none => none)
    ++ s.tly.frames.filterMap (fun e => match e.2 with
      | some f => if inn e.1 then f.wbPlace else none
      | none => none)
  let dirs := ((s.tly.dir.map Prod.fst).filter inn).map (· / 2048)
  let s : State := { s with
    tly.frames := Map.keep (fun p _ => !inn p) s.tly.frames
    tly.ent := Map.keep (fun k _ => !inn (k / 2048)) s.tly.ent
    tly.dir := Map.keep (fun p _ => !inn p) s.tly.dir
    tly.replay := Map.keep (fun p _ => !inn p) s.tly.replay
    tly.loads := Map.keep (fun p _ => !inn p) s.tly.loads
    tly.ckPages := s.tly.ckPages.filter (fun p => !inn p)
    tly.ckDirtied := s.tly.ckDirtied.filter (fun p => !inn p)
    tly.ckDirs := (s.tly.ckDirs ++ dirs).eraseDups
    tly.dcache := Map.mapAll [] (fun _ l => l.filter (fun p => !inn p)) s.tly.dcache
    tly.streams := Map.keep (fun _ x => x.tract != t) s.tly.streams
    tly.pre := s.tly.pre.filter (fun x => x.1 != t)
    tly.lastBseq := Map.keep (fun k _ => k / 2 ^ 40 != t) s.tly.lastBseq }
  let s := old.foldl (fun s e => s.lowerValid (eMaddr e.2) tr.secs) s
  copies.foldl (fun s a => s.lowerValid a 4) s

/-- TRACT_DELETE_DONE: with no command to the tract left in flight it returns to ABSENT. -/
def execTractDeleteDone (t : Nat) (s : State) : Res :=
  .next (s.when (decide ((s.tract t).st = .deleting) && !s.tractBusy t) (fun s =>
    let tr := s.tract t
    let s := s.releaseTract t
    let s := (s.setTract t { tr with st := .absent }).tractSet t
    let bs := (s.tly.lines.filter (fun e => match e.2 with
      | some l => l.tract == t
      | none => false)).map Prod.fst
    let s := s.trimLines bs (s.jseq - 1)
    let s := (s.setTract t {}).drop F.CRY_KEY_STAT_TRACTS 1 tr.kid
    match tr.waiter with
    | some k => s.finish k 0
    | none => s))

/-- TRACT_STATE_QUERY: OS byte 40 is 0; a byte above 2 is out of range. -/
def execTractStateQuery (key : Nat) (s : State) : Res :=
  .next (s.when true (fun s => match s.adminCmd key 0x44 with
    | some c =>
      let a := bytesAt c.sqe 40 1
      if a = 1 ∨ a = 2 then s
      else if a ≠ 0 then s.adminField key 40
      else match s.tractKey c.fn (sqTract c.sqe) with
      | none => s.adminField key 4
      | some t => s.finish key 0 0xFF 0 (s.tract t).st.code
    | none => s))

/-- TRACT_STATE sets READ_ONLY or READY: the PF only (Table QQP-6). -/
def State.tractStateSet (s : State) (key act : Nat) (st : TState) : State :=
  match s.adminCmd key 0x44 with
  | some c =>
    if bytesAt c.sqe 40 1 ≠ act then s
    else if c.fn ≠ 0 then s.failCmd key 0x02 2 0
    else match s.anyTract (sqTract c.sqe) with
    | none => s.adminField key 4
    | some t =>
      let tr := s.tract t
      if ¬ s.tly.usable then s.mapWait key
      else if tr.st = .ready ∨ tr.st = .readOnly then
        (if tr.st = st then s else (s.setTract t { tr with st := st }).tractSet t).finish key 0 0xFF 0 st.code
      else s.adminConflict key c
  | none => s

/-- TRACT_STATE_SET_READ_ONLY. -/
def execTractStateSetReadOnly (key : Nat) (s : State) : Res := .next (s.when true (fun s => s.tractStateSet key 1 .readOnly))

/-- TRACT_STATE_SET_READY. -/
def execTractStateSetReady (key : Nat) (s : State) : Res := .next (s.when true (fun s => s.tractStateSet key 2 .ready))

/-! ### Keys (R543, R544) -/

/-- FIELD of an import whose blob or KID is wrong: DP1 for the blob itself, the KID otherwise (log entry 9). -/
def importField (kid blob : Nat) : Nat :=
  let use := bytesAt blob 6 1
  if bytesAt blob 0 4 ≠ 0x4B575250 ∨ bytesAt blob 4 1 ≠ 1 ∨ bytesAt blob 7 1 ≠ 0 ∨ bytesAt blob 152 8 ≠ 0
      ∨ use = 0 ∨ 4 ≤ use then 24
  else if bytesAt blob 5 1 ≠ kid ∨ kid = 0 then 6
  else 0xFF

/-- KEY_IMPORT (R543, Table CRY-4): the operands are the 160 bytes read from host memory, as in `blobOf`. -/
def execKeyImport (key head eph wrapped rest : Nat) (s : State) : Res :=
  .next (s.when true (fun s => match s.adminCmd key 0x45 with
    | some c =>
      let kid := sqKid c.sqe
      if bytesAt c.sqe 40 2 ≠ 160 then (s.post E.CRY_KEY_REFUSED kid 0x03).adminField key 40
      else if c.hostErr then s.failCmd key 0x12 1 (sqDp1 c.sqe)
      else if c.cut ∨ ¬ s.tlpOk c.fn then
        (s.post E.QQP_DATA_FAULT c.fn (sqDp1 c.sqe)).failCmd key 0x12 1 (sqDp1 c.sqe)
      else
        let blob := blobOf head eph wrapped rest
        let r := s.importKey kid blob
        if r.2 = 0 then r.1.finish key 0
        else r.1.failCmd key r.2 2 0 (if r.2 = 0x03 then importField kid blob else 0xFF)
    | none => s))

/-- KEY_RETIRE (R544). -/
def execKeyRetire (key : Nat) (s : State) : Res :=
  .next (s.when true (fun s => match s.adminCmd key 0x46 with
    | some c =>
      let r := s.retireKey (sqKid c.sqe)
      if r.2 = 0 then r.1.finish key 0 else s.adminConflict key c
    | none => s))

/-! ### IDENTIFY (R167) -/

/-- Tracts a function owns, by ascending ID. -/
def State.ownedTracts (s : State) (fn : Nat) : List Nat :=
  (s.tly.tracts.filter (fun e => decide (e.2.st ≠ .absent) && e.2.owner == fn)).map Prod.fst

/-- Blocks of IUs whose entry is VALID (R167): those of the resident pages, and those that the flash copy of each other page
maps. -/
def State.mappedBlocks (s : State) (t : Nat) : Nat :=
  let tr := s.tract t
  let inn (p : Nat) : Bool := decide (tr.mpn ≤ p) && decide (p < tr.mpn + tr.pages)
  (s.tly.frames.map (fun e => if inn e.1 ∧ s.resident e.1 then s.mappedIn e.1 else 0)).sum
    + (s.tly.dir.map (fun e => if inn e.1 ∧ ¬ s.resident e.1 then e.2.mapped else 0)).sum

/-- The structure that IDENTIFY `what` writes, 4 KiB as one number; none for a wrong operand, with its FIELD. -/
def State.identity (s : State) (c : Cmd) (what : Nat) : Nat ⊕ Nat :=
  let own := s.ownedTracts c.fn
  match what with
  | 0 =>
    let grps := (List.range 16).foldl (fun m g => m + b2n (s.owned g) * 2 ^ g) 0
    .inr (0x0256 + 2 ^ 16 * s.rd F.GLB_REV_STEPPING + 2 ^ 64 * s.fuses.dieId
      + 2 ^ 128 * s.rd64 F.CFG_IMAGE_ID_LO F.CFG_IMAGE_ID_HI + 2097152 * 2 ^ 192 + 262144 * 2 ^ 224
      + 2 ^ 256 * s.rd F.QQP_CAP_MAX_QP c.fn + 2 ^ 272 * s.rd F.QQP_CAP_VECTORS c.fn + 2 ^ 288 * own.length
      + 2 ^ 320 * b2n s.mirroring + 2 ^ 336 * grps + 2 ^ 384 * (s.freeCapacity % 2 ^ 64))
  | 1 =>
    match s.tractKey c.fn (sqTract c.sqe) with
    | none => .inl 4
    | some t =>
      let tr := s.tract t
      .inr (tractId t + 2 ^ 16 * tr.st.code + 2 ^ 24 * tr.blk + 2 ^ 32 * tr.iu + 2 ^ 40 * tr.kid + 2 ^ 48 * tr.owner
        + 2 ^ 64 * (tr.cap % 2 ^ 64) + 2 ^ 128 * (s.mappedBlocks t % 2 ^ 64))
  | 2 => .inr ((own.map tractId).take 2048 |>.foldr (fun i v => i + 2 ^ 16 * v) 0)
  | _ => .inl 40

/-- IDENTIFY (R167). The list of IDs is written as 2-byte IDs in ascending order (log entry 17). -/
def execIdentify (key : Nat) (s : State) : Res :=
  .next (s.when true (fun s => match s.adminCmd key 0x47 with
    | some c =>
      match s.identity c (bytesAt c.sqe 40 1) with
      | .inl f => s.adminField key f
      | .inr v =>
        let r := s.hostData key c.fn (sqDp1 c.sqe) 4096 v
        if r.2 then r.1.finish key 0 else r.1
    | none => s))

/-! ### Copies of the ledgers (R382, R897) -/

/-- EVENT_FETCH (R897). -/
def execEventFetch (key : Nat) (s : State) : Res :=
  .next (s.when true (fun s => match s.adminCmd key 0x49 with
    | some c =>
      let i := bytesAt c.sqe 40 2
      let n := bytesAt c.sqe 42 2
      if 4096 ≤ i then s.adminField key 40
      else if n = 0 ∨ 4096 < n then s.adminField key 42
      else
        let r := s.hostData key c.fn (sqDp1 c.sqe) (32 * n) (s.slots i n)
        if r.2 then r.1.finish key 0 0xFF 0 (n + 2 ^ 32 * ((i + n) % 4096)) else r.1
    | none => s))

/-- FELL_QUERY (R382): entries from the first one asked for, as far as the list goes. -/
def execFellQuery (key : Nat) (s : State) : Res :=
  .next (s.when true (fun s => match s.adminCmd key 0x4A with
    | some c =>
      let l := (s.med.felled.drop (bytesAt c.sqe 40 4)).take (bytesAt c.sqe 44 4)
      if l = [] then s.finish key 0
      else
        let r := s.hostData key c.fn (sqDp1 c.sqe) (16 * l.length) (l.foldr (fun f v => fellBytes f + 2 ^ 128 * v) 0)
        if r.2 then r.1.finish key 0 0xFF 0 l.length else r.1
    | none => s))

/-! ### ABORT (R166) -/

/-- The command of a queue and CID. -/
def State.findCmd (s : State) (fn q cid : Nat) : Option (Nat × Cmd) :=
  (s.qqp.cmds.filterMap (fun e => match e.2 with
    | some c => if ¬ c.internal ∧ e.1 ≠ 262144 ∧ c.fn = fn ∧ c.sqid = q ∧ sqCid c.sqe = cid ∧ ¬ c.completed
      then some (e.1, c) else none
    | none => none)).head?

/-- A command in RECEIVED that has moved no data. -/
def Cmd.abortable (c : Cmd) : Bool := c.received && !c.sentData && c.xfer == 0 && c.nBuf == 0

/-- ABORT. The commands of a fused pair are aborted together (R146). -/
def execAbort (key : Nat) (s : State) : Res :=
  .next (s.when true (fun s => match s.adminCmd key 0x4B with
    | some c =>
      match s.findCmd c.fn (bytesAt c.sqe 40 2) (bytesAt c.sqe 42 2) with
      | none => s.finish key 0 0xFF 0 1
      | some (k, d) =>
        let two : Bool := match d.fused.bind s.cmd with
          | some x => x.abortable
          | none => true
        if k = key ∨ ¬ d.abortable ∨ ¬ two then s.finish key 0 0xFF 0 2
        else
          let s := s.abortCmd k 0x0C
          let s := match d.fused with
            | some p => s.abortCmd p 0x0C
            | none => s
          (s.updCmd key (fun c => { c with after := some k })).finish key 0
    | none => s))

/-! ### RESEAL (R579, R580) -/

/-- RESEAL. -/
def execReseal (key : Nat) (s : State) : Res :=
  .next (s.when true (fun s => match s.adminCmd key 0x4C with
    | some c =>
      let a := bytesAt c.sqe 48 8
      let n := bytesAt c.sqe 56 8
      if a % 4096 ≠ 0 then s.adminField key 48
      else if n % 4096 ≠ 0 ∨ n = 0 then s.adminField key 56
      else
        let r := s.resealRange (bits a 0 48) n
        if r.2.1 = 0 then r.1.finish key 0
        else if r.2.1 = 0x04 then s.adminConflict key c
        else s.failCmd key r.2.1 2 0 r.2.2
    | none => s))

end Sys2Proof.Machine
end

