-- ==== Sys2Proof/Machine/Fabric.lean ====
section
/-! DEFINITION. The landings' channels, flip-flop readback, the fabric sweep and reads of fabric memories (R531 to R533,
R632 to R634, R643, R644, R653 to R659). -/

namespace Sys2Proof.Machine
open Sys2Proof

/-! ### Landings -/

/-- User logic of a landing runs and its channels are open. -/
def State.landingOpen (s : State) (n : Nat) : Bool :=
  let st := s.standSt (s.landingStand n)
  s.cfg.userOn && decide (n < 128) && s.on F.LDG_CTL_EN n && (st == 1 || st == 2) && s.polSt (1 + n / 4) == 0

/-- LANDING_MREQ (R643): a request whose TXN is outstanding is answered by the NI; more than 1,024 cannot stand. -/
def execLandingMreq (landing : Nat) (q : SkReq) (s : State) : Res :=
  let q : SkReq := { q with src := 0x100 + landing, txn := q.txn % 1024, long := longOf q }
  .next (s.when (s.landingOpen landing) (fun s =>
    if (s.pkt (pktKey q.src q.txn)).isSome then s.niAnswer { req := q, who := .landing landing } 0x03 0
    else s.skSend (.landing landing) q))

/-- LANDING_TRSP (R644): user logic answers window request `key`; an answer to no request it holds is discarded, and
counted where the target's timer had retired the request (R611). -/
def execLandingTrsp (landing key status data : Nat) (s : State) : Res :=
  .next (s.when true (fun s => if s.fab.late.contains key then
      { s with fab.late := s.fab.late.erase key }.bump F.NOC_STALE_RESP
    else match s.pkt key with
      | some p => if p.dst = 0x100 + landing ∧ s.fab.treq.contains key then s.answer key (status % 256) data else s
      | none => s))

/-! ### Readback (R653 to R657) -/

/-- Stands that LDG_RB_SEL selects, in ascending order. -/
def State.rbSel (s : State) : List Nat :=
  (List.range 64).filter (fun i => bit (s.rd64 F.LDG_RB_SEL_LO F.LDG_RB_SEL_HI) i)

/-- Tiles a readback writes for a stand: none while it loads or is TORN. -/
def State.rbTiles (s : State) (i : Nat) : Nat :=
  if s.standSt i = 3 ∨ s.standSt i = 4 then 0 else 4 * s.standRows i

/-- Tiles of a stand in order of tile row and tile column. -/
def State.rbTileList (s : State) (i : Nat) : List Nat :=
  ((List.range 24).filter (s.rowIn i)).flatMap (fun r => (List.range 4).map (fun c => 32 * r + 4 * (i / 2 % 8) + c))

/-- Bytes of the output. -/
def rbBytes (l : List (Nat × Nat × Nat)) : Nat := (l.map (fun x => 64 + 256 * x.2.2)).sum

/-- The output lies wholly in the free-for-fabric region. -/
def State.rbFits (s : State) (dst n : Nat) : Bool :=
  let r := s.hbmRegion 5
  match daDest dst with
  | .hbm x => decide (2 ^ 28 * r.1 ≤ x) && decide (x + n ≤ 2 ^ 28 * (r.1 + r.2)) && decide (x + n ≤ s.hbmTop)
  | _ => false

/-- Status of a GO that is refused; 0 when it is not. -/
def State.rbRefusal (s : State) (mode : Nat) : Nat :=
  let dst := s.rd64 F.LDG_RB_DST_LO F.LDG_RB_DST_HI
  let l := s.rbSel.map (fun i => (i, s.standSt i, s.rbTiles i))
  if s.on F.LDG_RB_STAT_BUSY then 0x04
  else if dst % 64 ≠ 0 ∨ ¬ s.rbFits dst (rbBytes l) then 0x03
  else if mode = 1 ∧ l.any (fun x => x.2.1 == 3) then 0x04
  else 0

/-- Clusters of a stand in order of tile row, tile column and cluster: cluster keys. -/
def State.rbClusters (s : State) (i : Nat) : List Nat :=
  (s.rbTileList i).flatMap (fun t => (List.range 64).map (clusterKey (i / 16) t))

/-- Flip-flops of a cluster as the shadow cells hold them; those not captured as they stand. -/
def State.rbWord (s : State) (k : Nat) : Nat :=
  let x := Map.get (0, 0) s.fab.shadow k
  let v := Map.get 0 s.fab.ffs k
  Nat.lor x.2 (v - Nat.land v x.1)

/-- Every flip-flop of the selected stands is captured: those not yet in a shadow cell directly (R654). -/
def State.rbCaptured (s : State) : State :=
  { s with
    fab.rbWait := false
    fab.shadow := (s.fab.rbLeft.flatMap (fun x => if x.2.2 = 0 then [] else s.rbClusters x.1)).foldl (fun m k =>
      Map.set (0, 0) m k (2 ^ 32 - 1, s.rbWord k)) s.fab.shadow }

/-- A GO (R653 to R655): the states of the stands at the capture; MODE 1 stops them. -/
def State.rbGo (s : State) (req : Req) (value : Nat) : State :=
  let mode := bits value 1 1
  let st := s.rbRefusal mode
  if st = 0x04 then (s.put F.LDG_RB_STAT_RESULT st).refuseWrite req (F.LDG_RB_CTL_GO.off 0 0)
  else if st ≠ 0 then (s.put F.LDG_RB_CTL_MODE mode).put F.LDG_RB_STAT_RESULT st
  else
    let s := (s.put F.LDG_RB_CTL_MODE mode).put F.LDG_RB_STAT_BUSY 1
    let s := if mode = 0 then s
      else
        let l := s.rbSel.filter (fun i => s.standSt i == 1 || s.standSt i == 2)
        let s := l.foldl (fun s i => if s.standSt i = 1 then s.put F.CFG_ST_STAT_STATE 5 i else s) s
        { s with fab.stopped := (s.fab.stopped ++ l).eraseDups }.flag F.LDG_RB_STAT_STOPPED (l != [] || s.fab.stopped != [])
    let s : State := { s with
      fab.rbWait := mode == 0, fab.shadow := [], fab.rbLeft := s.rbSel.map (fun i => (i, s.standSt i, s.rbTiles i)) }
    if mode = 0 then s else s.rbCaptured

/-- READBACK_GO (R653): a write of LDG_RB_CTL with GO = 1. -/
def execReadbackGo (req : Req) (value : Nat) (s : State) : Res :=
  .next (s.when true (fun s => s.byReq req (F.LDG_RB_CTL_GO.off 0 0) (fun s => if value % 2 = 1 then s.rbGo req value else s)))

/-- READBACK_CAPTURE_TIMEOUT (R654): flip-flops that saw no edge are captured directly. -/
def execReadbackCaptureTimeout (s : State) : Res :=
  .next (s.when s.fab.rbWait State.rbCaptured)

/-- Header of a stand in the output (R656). -/
def State.rbHead (s : State) (x : Nat × Nat × Nat) : Nat :=
  x.1 + 2 ^ 8 * x.2.1 + 2 ^ 32 * x.2.2 + 2 ^ 64 * (s.rd F.CFG_ST_STAT_ROW_FIRST x.1 * 32 + 4 * (x.1 / 2 % 8))

/-- Writes records at an address until one is refused: the state, the bytes written and the status. -/
def State.rbWrite (s : State) : Nat → List (Nat × Nat) → State × Nat × Nat
  | _, [] => (s, 0, 0)
  | a, (n, v) :: r =>
    match s.devWrite a n 15 v with
    | (s, 0) =>
      let x := State.rbWrite s (a + n) r
      (x.1, n + x.2.1, x.2.2)
    | (s, st) => (s, 0, st)

/-- Record of a tile: bit 32c + 2k + f holds flip-flop f of cell k of cluster c (R656). -/
def State.rbTile (s : State) (d t : Nat) : Nat :=
  (List.range 64).foldl (fun v c => v + s.rbWord (clusterKey d t c) % 2 ^ 32 * 2 ^ (32 * c)) 0

/-- Records of the output: (length, content), for each stand a header and its tiles (R656). -/
def State.rbRecords (s : State) (l : List (Nat × Nat × Nat)) : List (Nat × Nat) :=
  l.flatMap (fun x =>
    (64, s.rbHead x) :: (if x.2.2 = 0 then [] else (s.rbTileList x.1).map (fun t => (256, s.rbTile (x.1 / 16) t))))

/-- READBACK_DONE (R656, R657): the last record of the stands selected is written. -/
def execReadbackDone (stands : List Nat) (s : State) : Res :=
  .next (s.when (s.on F.LDG_RB_STAT_BUSY && stands == s.fab.rbLeft.map Prod.fst) (fun s =>
    let l := s.fab.rbLeft
    let s := if s.fab.rbWait then s.rbCaptured else s
    let x := s.rbWrite (s.rd64 F.LDG_RB_DST_LO F.LDG_RB_DST_HI) (s.rbRecords l)
    let s := ((x.1.put F.LDG_RB_BYTES x.2.1).put F.LDG_RB_STAT_RESULT x.2.2).put F.LDG_RB_STAT_BUSY 0
    let s : State := { s with fab.rbLeft := [], fab.shadow := [] }
    s.post E.FAB_RB_DONE l.length x.2.1))

/-- RESUME (R655): the stopped stands run on. -/
def State.rbResume (s : State) : State :=
  let s := s.fab.stopped.foldl (fun s i => if s.standSt i = 5 then s.put F.CFG_ST_STAT_STATE 1 i else s) s
  { s with fab.stopped := [] }.put F.LDG_RB_STAT_STOPPED 0

/-- READBACK_RESUME (R655): ignored while no stand is stopped. -/
def execReadbackResume (s : State) : Res := .next (s.when (s.on F.LDG_RB_STAT_STOPPED) State.rbResume)

/-! ### Fabric memories -/

/-- FAB_SWEEP_STEP (R531 to R533, R632, R634): a word of a selected stand; `read` tells how it read (0 good or without
check bits, 1 corrected, 2 uncorrectable), `fails` how many of its two tests failed. -/
def execFabSweepStep (stand mem word read fails : Nat) (s : State) : Res :=
  .next (s.when (s.on F.SPM_CTL_FAB_SWEEP_EN && !s.lve.pfLow && decide (stand < 64)
      && bit (s.rd64 F.SPM_FAB_SWEEP_LO F.SPM_FAB_SWEEP_HI) stand && s.standSt stand != 0 && s.standSt stand != 3
      && s.standSt stand != 4 && s.memIn stand mem) (fun s =>
    let s := if read = 1 then s.bump F.LDG_MEM_CE 1 (stand / 16) else s
    let s := s.bump F.SPM_SWEEP_FAILS (min 2 fails)
    if fails < 2 then s else s.post E.SPM_FAB_SWEEP_FAIL stand (mem % 2 ^ 16 + 2 ^ 16 * (word % 2 ^ 32))))

/-- USER_PORT_READ (R632, R633): a read in ECC shape on a port of memory `mem` of die `die` corrects its output, with SBITERR, or
finds the word lost, with DBITERR. -/
def execUserPortRead (die mem word : Nat) (e : EccRead) (s : State) : Res :=
  .next (s.when (s.cfg.userOn && decide (die < 4)) (fun s =>
    let s := s.updMport die mem (e.port % 2) (fun x => { x with sbit := !e.lost, dbit := e.lost })
    if e.lost then (s.bump F.LDG_MEM_UE 1 die).post E.FAB_MEM_UE die (mem % 2 ^ 16 + 2 ^ 16 * (word % 2 ^ 32))
    else s.bump F.LDG_MEM_CE 1 die))

end Sys2Proof.Machine
end

