-- ==== Sys2Proof/Machine/Polders.lean ====
section
/-! DEFINITION. Polders and their sluices, system power states, crossings and the start of an epoch ratchet (R725 to R738,
R741). -/

namespace Sys2Proof.Machine
open Sys2Proof

/-! ### What a polder holds -/

/-- Landings of a fabric-strip polder. -/
def polLandings (p : Nat) : List Nat := if 1 ≤ p ∧ p ≤ 32 then (List.range 4).map (4 * (p - 1) + ·) else []

/-- Lanes of a lane polder. -/
def polLanes (p : Nat) : List Nat := if 49 ≤ p ∧ p ≤ 64 then (List.range 16).map (16 * (p - 49) + ·) else []

/-- Levee bundle of PD53 and PD57. -/
def polBundle (p : Nat) : Option Nat := if p = 53 then some 0 else if p = 57 then some 1 else none

/-- Conditions of Table PWR-1 for a power-down or a reset. -/
def State.polAllowed (s : State) (p : Nat) : Bool :=
  if 1 ≤ p ∧ p ≤ 32 then
    [2 * (p - 1), 2 * (p - 1) + 1].all (fun i =>
      s.standSt i != 2 && s.standSt i != 3 && s.standSt i != 5 && !s.fab.stopped.contains i
        && !s.fab.rbLeft.any (fun x => x.1 == i))
  else if 33 ≤ p ∧ p ≤ 48 then s.gst (p - 33) == 0 || s.gst (p - 33) == 1 || s.gst (p - 33) == 8
  else match polBundle p with
    | some b => s.bst b == 0 && !bit (s.rd F.LVE_CTL_BUNDLE_EN) b
    | none =>
      if 50 ≤ p ∧ p ≤ 64 then true
      else if 69 ≤ p ∧ p ≤ 72 then s.polSt (if p % 2 = 1 then p + 1 else p - 1) == 0
      else p == 76 && s.bst 0 == 0 && s.bst 1 == 0

/-- A polder's transition record. -/
def State.polr (s : State) (p : Nat) : Pol := Map.get {} s.pwr.pols p

/-- Changes it. -/
def State.updPol (s : State) (p : Nat) (f : Pol → Pol) : State := { s with pwr.pols := Map.upd {} s.pwr.pols p f }

/-! ### Power-ups (R729, Table PWR-4) -/

/-- A power-up runs. -/
def State.powering (s : State) : Bool := (List.range 81).any (fun p => s.polSt p == 5)

/-- The next waiting power-up starts. -/
def State.upNext (s : State) : State :=
  if s.powering then s
  else match s.pwr.upQ with
    | p :: r => ({ s with pwr.upQ := r }.put F.PWR_POL_STAT_STATE 5 p).put F.PWR_STAT_UP_QUEUE r.length
    | [] => s

/-- A cause to power up an OFF polder: an UP, a WAKE request, an exit from DEEP, or a CLAIM (R726, R728). -/
def State.polUp (s : State) (p : Nat) : State :=
  if s.polSt p ≠ 4 ∨ s.pwr.upQ.contains p then s
  else
    let s := s.updPol p (fun x => { x with at_ := s.time, reset := false, downNext := false })
    let s : State := { s with pwr.upQ := s.pwr.upQ ++ [p] }
    (s.put F.PWR_STAT_UP_QUEUE s.pwr.upQ.length).upNext

/-! ### Power-downs and resets (R728) -/

/-- A DOWN or RESET is accepted: the sluice closes, the landings close (R648), the lanes go OFF (R758). -/
def State.polClose (s : State) (p : Nat) (reset : Bool) : State :=
  let s := (s.put F.PWR_POL_STAT_STATE 1 p).updPol p (fun x => { x with at_ := s.time, reset := reset, downNext := false })
  let s := (polLandings p).foldl State.dropLanding s
  (polLanes p).foldl State.laneOff s

/-- A command that Table PWR-1 refuses (R725). -/
def State.polRefuse (s : State) (p cmd : Nat) : State := (s.bump F.PWR_REFUSED_CT).post E.PWR_REFUSED p cmd

/-- A write of PWR_POL_CMD (R725, R729): 1 DOWN, 2 UP, 3 RESET. -/
def State.polCmd (s : State) (req : Req) (p cmd : Nat) : State :=
  if p = 0 ∨ 81 ≤ p then s
  else if cmd = 2 then s.polUp p
  else if s.polSt p = 5 ∧ cmd = 1 then
    if s.polAllowed p then s.updPol p (fun x => { x with downNext := true })
    else (s.polRefuse p cmd).refuseWrite req (F.PWR_POL_CMD.off p 0)
  else if s.polSt p ≠ 0 then s.refuseWrite req (F.PWR_POL_CMD.off p 0)
  else if s.polAllowed p then s.polClose p (cmd == 3)
  else (s.polRefuse p cmd).refuseWrite req (F.PWR_POL_CMD.off p 0)

/-- POLDER_DOWN (R725). -/
def execPolderDown (req : Req) (p : Nat) (s : State) : Res := 
  .next (s.when true (fun s => s.byReq req (F.PWR_POL_CMD.off p 0) (fun s => s.polCmd req p 1)))

/-- POLDER_UP (R728). -/
def execPolderUp (req : Req) (p : Nat) (s : State) : Res := 
  .next (s.when true (fun s => s.byReq req (F.PWR_POL_CMD.off p 0) (fun s => s.polCmd req p 2)))

/-- POLDER_RESET (R728). -/
def execPolderReset (req : Req) (p : Nat) (s : State) : Res := 
  .next (s.when true (fun s => s.byReq req (F.PWR_POL_CMD.off p 0) (fun s => s.polCmd req p 3)))

/-- POLDER_CLOSE_TIMEOUT (R728). -/
def execPolderCloseTimeout (p : Nat) (s : State) : Res :=
  .next (s.when (s.polSt p == 1) (fun s => s.put F.PWR_POL_STAT_STATE 2 p))

/-- Requests inside a polder and responses in transit to or from it. -/
def State.polInside (s : State) (p : Nat) : List Nat :=
  (s.noc.pkts.filter (fun x => match x.2 with
    | some q => (polLandings p).any (fun n =>
        (q.dst == 0x100 + n && (q.atUnit || q.answer.isSome)) || (q.req.src == 0x100 + n && !q.late))
    | none => false)).map Prod.fst

/-- Engines of a polder's landings that still hold a task. -/
def State.polEngines (s : State) (p : Nat) : List Nat :=
  (polLandings p).flatMap (fun n => (s.landingEngines n).filter (fun e => (s.taskOn e false).isSome))

/-- The polder leaves DRAINING: tasks still on its engines end (R264), its NIs and landing crossings fence (R734, R735). -/
def State.polFence (s : State) (p : Nat) : State :=
  let ls := polLandings p
  let s := ls.foldl State.endLandingTasks s
  let s := ls.foldl (fun s n => s.fence (0x100 + n)) s
  let s : State := { s with
    noc.pkts := s.noc.pkts.filterMap (fun x => match x.2 with
      | some q => if ls.any (fun n => q.req.src == 0x100 + n) then
          (if q.lost then none else some (x.1, some { q with late := true })) else some x
      | none => some x)
    pwr.fences := s.pwr.fences ++ ls.map (fun n => (1, n)) ++ (match polBundle p with
      | some b => [(5, b)]
      | none => []) }
  s.put F.PWR_POL_STAT_STATE (if (s.polr p).reset then 6 else 3) p

/-- POLDER_DRAIN_END (R728): nothing is left inside. -/
def execPolderDrainEnd (p : Nat) (s : State) : Res :=
  .next (s.when (s.polSt p == 2 && (s.polInside p).isEmpty && (s.polEngines p).isEmpty) (fun s => s.polFence p))

/-- POLDER_DRAIN_TIMEOUT (R728): the remaining work is abandoned. -/
def execPolderDrainTimeout (p : Nat) (s : State) : Res :=
  .next (s.when (s.polSt p == 2) (fun s =>
    let n := (s.polInside p).length
    ((s.bump F.PWR_DRAIN_TMOS).post E.PWR_DRAIN_TIMEOUT p n).polFence p))

/-! ### Loss of state (R730, Table PWR-3) -/

/-- A channel of a switched or reset group polder is down; a felled one stays so. -/
def State.chReset (s : State) (cold : Bool) (ch : Nat) : State :=
  let d := dieOf ch
  let j := ch % 128
  let s : State := if cold ∧ ¬ s.med.cold.contains ch then { s with med.cold := s.med.cold ++ [ch] } else s
  if s.chFelled ch then s else s.put F.MED_CH_STAT_STATE 0 d j

/-- The word at offset `o` takes its reset value when its polder is reset or powered up: not the state of a felled lane, the
state of a channel and its LUNs, and what follows a quad's reference (R812, Table PWR-3). -/
def State.regLost (s : State) (p o : Nat) : Bool :=
  let x := o % 0x100000
  p != 0 && fieldPolder o == p && (if o / 0x100000 = 15 then
      !(decide (0x200 ≤ x) && decide (x < 0x300))
        && !(decide (0x10000 ≤ x) && x % 0x40 == 4 && s.laneSt ((x - 0x10000) / 0x40) == 8)
    else decide (x < 0x2000) && x % 0x20 != 4)

/-- The registers of a polder's units take their reset values (R812, log entry 215). -/
def State.regsLost (s : State) (p : Nat) : State :=
  { s with regs := Map.keep (fun k _ => !([9, 12, 15].contains (k / 2 ^ 40)
      && s.regLost p (2 ^ 20 * (k / 2 ^ 40) + k % 2 ^ 40 / 32 * 4))) s.regs }

/-- The value that the image had given a field (Table REG-3). -/
def State.imageVal (s : State) (f : Fld) (i : Nat) (j : Nat := 0) : Nat := Map.get (f.reset i) s.pwr.image (f.key i j)

/-- The settings of a lane that the image gives. -/
def State.laneImage (s : State) (l : Nat) : State :=
  let s := (s.put F.SDS_LANE_CTL_EN (s.imageVal F.SDS_LANE_CTL_EN l) l).put F.SDS_LANE_CTL_MODE (s.imageVal F.SDS_LANE_CTL_MODE l) l
  let s := s.put F.SDS_LANE_CTL_RATE (s.imageVal F.SDS_LANE_CTL_RATE l) l
  let s := s.put F.SDS_LANE_CTL_PRECODE (s.imageVal F.SDS_LANE_CTL_PRECODE l) l
  let s := s.put F.SDS_LANE_CTL_TRAIN (s.imageVal F.SDS_LANE_CTL_TRAIN l) l
  let s := s.put F.SDS_LANE_CTL_PCLK (s.imageVal F.SDS_LANE_CTL_PCLK l) l
  if l % 4 ≠ 0 then s
  else
    let q := l / 4
    let s := s.put F.SDS_QUAD_CTL_REFHZ (s.imageVal F.SDS_QUAD_CTL_REFHZ q) q
    let s := s.put F.SDS_QUAD_CTL_ETH_MODE (s.imageVal F.SDS_QUAD_CTL_ETH_MODE q) q
    let s := s.put F.SDS_QUAD_CTL_FEC (s.imageVal F.SDS_QUAD_CTL_FEC q) q
    ((s.put F.SDS_QUAD_STAT_BLOCK_LOCK 0 q).put F.SDS_QUAD_STAT_AM_LOCK 0 q).put F.SDS_QUAD_STAT_HI_BER 0 q

/-- The registers of a polder's units take their reset values (R812): a number, or what the image gave. -/
def State.polRegs (s : State) (p : Nat) : State :=
  let s := (polLanes p).foldl State.laneImage (s.regsLost p)
  if 33 ≤ p ∧ p ≤ 48 then
    (List.range 16).foldl (fun s i =>
      let d := (p - 33) / 8
      let j := 16 * ((p - 33) % 8) + i
      s.put F.MED_CH_CTL_RATE (s.imageVal F.MED_CH_CTL_RATE d j) d j) s
  else s

/-- Units of a polder start as after reset; `off` says that the switch was opened. -/
def State.polLose (s : State) (p : Nat) (off : Bool) : State :=
  let s := (polLandings p).foldl (fun s n => s.put F.LDG_CTL_EN (Map.get 0 s.fab.img n) n) s
  let s : State := if 1 ≤ p ∧ p ≤ 32 ∧ off then
      { s with sl.frames := Map.keep (fun a _ => frameScanned a || standPolder (s.frameStand a) != p) s.sl.frames }
    else s
  let s := if 1 ≤ p ∧ p ≤ 32 then s.releasePolder p off else s
  let s := if 33 ≤ p ∧ p ≤ 48 then (List.range 16).foldl (fun s i => s.chReset off (16 * (p - 33) + i)) s else s
  let s := (polLanes p).foldl State.laneOff s
  s.polRegs p

/-! ### System power states (R731, R732) -/

/-- A change of state ends. -/
def State.stateEnd (s : State) (t : Nat) : State :=
  ({ s with pwr.target := none }.put F.PWR_STAT_CHANGING 0).post E.PWR_STATE_CHANGE t

/-- Sets the system power state; every gate follows. -/
def State.setPstate (s : State) (t : Nat) : State :=
  (((s.put F.PWR_STAT_PSTATE t).put F.CLK_STAT_PSTATE t).gatesFollow).deliverDoorbells

/-- A polder that a change of state waits for has reached its end. -/
def State.stateStep (s : State) : State :=
  match s.pwr.target with
  | none => s
  | some 2 => if s.pwr.deepOff.all (fun p => s.polSt p == 4) then s.stateEnd 2 else s
  | some t =>
    if s.pwr.deepOff.all (fun p => s.polSt p == 0) then ({ s with pwr.deepOff := [] }.setPstate t).stateEnd t else s

/-- A change to state `t` runs (R732). -/
def State.toState (s : State) (t : Nat) : State :=
  let old := s.rd F.PWR_STAT_PSTATE
  if old = t then s
  else
    let s := { s with pwr.target := some t }.put F.PWR_STAT_CHANGING 1
    if t = 2 then
      let s := s.setPstate 2
      (((List.range 80).map (· + 1)).foldl (fun s p =>
        if ¬ s.on F.PWR_POL_CFG_DEEP_OFF p ∨ s.polSt p = 4 then s
        else if s.polSt p = 0 ∧ s.polAllowed p then
          let s := s.polClose p false
          { s with pwr.deepOff := s.pwr.deepOff ++ [p] }
        else s.polRefuse p 1) s).stateStep
    else if old = 2 then (s.pwr.deepOff.foldl State.polUp s).stateStep
    else (s.setPstate t).stateEnd t

/-- This part holds a channel group. -/
def State.ownsGroup (s : State) : Bool := (List.range 16).any (fun g => s.gst g == 4 || s.gst g == 5 || s.gst g == 6)

/-- A write of PWR_STATE_CMD (R731). -/
def State.stateCmd (s : State) (req : Req) (t : Nat) : State :=
  if t = 3 then s
  else if s.on F.PWR_STAT_CHANGING then s.refuseWrite req (F.PWR_STATE_CMD_TARGET.off 0 0)
  else if t ≠ 0 ∧ (s.ownsGroup ∨ s.bst 0 ≠ 0 ∨ s.bst 1 ≠ 0 ∨ s.lve.pfLow) then
    ((s.bump F.PWR_REFUSED_CT).post E.PWR_REFUSED (0x100 + t) t).refuseWrite req (F.PWR_STATE_CMD_TARGET.off 0 0)
  else s.toState t

/-- STATE_RUN (R732). -/
def execStateRun (req : Req) (s : State) : Res := 
  .next (s.when true (fun s => s.byReq req (F.PWR_STATE_CMD_TARGET.off 0 0) (fun s => s.stateCmd req 0)))

/-- STATE_SLEEP (R731). -/
def execStateSleep (req : Req) (s : State) : Res := 
  .next (s.when true (fun s => s.byReq req (F.PWR_STATE_CMD_TARGET.off 0 0) (fun s => s.stateCmd req 1)))

/-- STATE_DEEP (R732). -/
def execStateDeep (req : Req) (s : State) : Res := 
  .next (s.when true (fun s => s.byReq req (F.PWR_STATE_CMD_TARGET.off 0 0) (fun s => s.stateCmd req 2)))

/-- SYSTEM_WAKE (R732): source 0 to 3 of PWR_WAKE_MASK. -/
def execSystemWake (source : Nat) (s : State) : Res :=
  .next (s.when (decide (source < 4) && bit (s.rd F.PWR_WAKE_MASK) source && s.rd F.PWR_STAT_PSTATE != 0
      && !s.on F.PWR_STAT_CHANGING) (fun s => (s.bump F.PWR_WAKES).toState 0))

/-! ### Ends of the transitions -/

/-- POLDER_ISOLATE_DONE (R728, R730). -/
def execPolderIsolateDone (p : Nat) (s : State) : Res :=
  .next (s.when (s.polSt p == 3) (fun s =>
    let s := (s.polLose p true).put F.PWR_POL_STAT_STATE 4 p
    (s.post E.PWR_POLDER_OFF p ((s.time - (s.polr p).at_) / 1000)).stateStep))

/-- A window request reaches its landing (R644, R648): TREQ, or TARGET_DOWN where the landing is closed. -/
def State.landingTake (s : State) (n k : Nat) : State :=
  let st := s.standSt (s.landingStand n)
  if s.on F.LDG_CTL_EN n ∧ st ≠ 3 ∧ st ≠ 4 ∧ s.cfg.userOn then
    let s := s.updPkt k (fun q => { q with atUnit := true, held := false })
    { s with fab.treq := s.fab.treq ++ [k] }
  else s.answer k 0x0A 0

/-- Inserts a held request by its time of arrival. -/
def insHeld (x : Nat × Nat) : List (Nat × Nat) → List (Nat × Nat)
  | [] => [x]
  | y :: l => if x.1 < y.1 then x :: y :: l else y :: insHeld x l

/-- Requests held at a sluice, in arrival order. -/
def State.heldAt (s : State) (p : Nat) : List (Nat × Nat) :=
  s.noc.pkts.foldl (fun l x => match x.2 with
    | some q => if q.held ∧ q.answer.isNone ∧ (polLandings p).any (fun n => q.dst == 0x100 + n)
        then insHeld (q.sentAt, x.1) l else l
    | none => l) []

/-- The sluice opens: held requests are served in arrival order. -/
def State.sluiceOpen (s : State) (p : Nat) : State :=
  let l := s.heldAt p
  let s := l.foldl (fun s x => match s.pkt x.2 with
    | some q => s.landingTake (q.dst - 0x100) x.2
    | none => s) s
  s.put F.PWR_POL_STAT_WAKE_PENDING 0 p

/-- NI fences and crossings of a polder open. -/
def State.polUnfence (s : State) (p : Nat) : State :=
  let ls := polLandings p
  let s := ls.foldl (fun s n => s.put F.NOC_NI_STAT_FENCED 0 (0x100 + n)) s
  { s with pwr.fences := s.pwr.fences.filter (fun x =>
      !(x.1 == 1 && ls.contains x.2) && !(x.1 == 5 && polBundle p == some x.2)) }

/-- A unit takes the new epoch and shows it (R739, R741). -/
def State.takeEpoch (s : State) (u : Nat) : State :=
  let s := (s.put F.PWR_UNIT_EPOCH_EPOCH (s.rd F.GLB_EPOCH_NEXT % 65536) u).put F.PWR_UNIT_EPOCH_PENDING 0 u
  if s.pwr.left.contains u then
    let s : State := { s with pwr.left := s.pwr.left.filter (· ≠ u) }
    if s.pwr.left = [] then
      (s.put F.GLB_EPOCH_SETTLED 1).post E.PWR_EPOCH_SETTLED (s.rd F.GLB_EPOCH_NEXT) (s.time - s.pwr.ratchetAt)
    else s
  else s

/-- A polder is powered (R728 to R730): its fences open, it is ON, its lanes and engines follow, a power-down commanded
meanwhile starts, and the next polder in line is powered up. -/
def State.polPowered (s : State) (p : Nat) : State :=
  let s := (s.polUnfence p).put F.PWR_POL_STAT_STATE 0 p
  let s := if p = 76 then s.takeEpoch 7 else s
  let s := if 69 ≤ p ∧ p ≤ 72 then s.feed else s
  let s := (polLanes p).foldl State.laneOn ((s.gateFollow p).sluiceOpen p)
  let s := s.post E.PWR_POLDER_ON p ((s.time - (s.polr p).at_) / 1000)
  let s := if (s.polr p).downNext ∧ s.polAllowed p then s.polClose p false else s.updPol p (fun _ => {})
  s.upNext.stateStep

/-- POLDER_POWERUP_DONE (R728 to R730, R741, Table PWR-4). -/
def execPolderPowerupDone (p : Nat) (s : State) : Res := .next (s.when (s.polSt p == 5) (fun s => s.polPowered p))

/-- POLDER_RESET_DONE (R728, R730). -/
def execPolderResetDone (p : Nat) (s : State) : Res :=
  .next (s.when (s.polSt p == 6) (fun s =>
    let s := (s.polLose p false).put F.PWR_POL_STAT_STATE 0 p
    let s := if p = 76 then s.takeEpoch 7 else s
    let s := if 69 ≤ p ∧ p ≤ 72 then s.feed else s
    ((polLanes p).foldl State.laneOn s).updPol p (fun _ => {})))

/-- A WAKE request cancels a power-down in CLOSING (R728): back to ON. -/
def State.polCancel (s : State) (p : Nat) : State :=
  let s := ((s.put F.PWR_POL_STAT_STATE 0 p).bump F.PWR_WAKES).updPol p (fun _ => {})
  let s : State := { s with pwr.deepOff := s.pwr.deepOff.filter (· ≠ p) }
  ((polLanes p).foldl State.laneOn s).stateStep

/-- CROSSING_REOPEN (R735): the fence of instance `inst` of crossing `x` opens, with both sides empty. -/
def execCrossingReopen (x inst : Nat) (s : State) : Res :=
  .next (s.when (x != 4 || !s.pci.perst) (fun s => { s with pwr.fences := s.pwr.fences.filter (· ≠ (x, inst)) }))

/-! ### The epoch ratchet (R736 to R741) -/

/-- Polders a unit of Table PWR-7 lies in. -/
def unitPolders (u : Nat) : List Nat :=
  match u with
  | 0 => [80]
  | 1 => [74]
  | 2 => [73]
  | 3 => [79]
  | 6 => [75]
  | 7 => [76]
  | 9 => [65, 66, 67, 68]
  | 10 => [77, 78]
  | _ => []

/-- EPOCH_RATCHET (R738, R836, R741): a write of GLB_EPOCH_NEXT. -/
def State.ratchet (s : State) (req : Req) (value : Nat) : State :=
  if ¬ s.on F.GLB_EPOCH_SETTLED ∨ value ≠ (s.rd F.GLB_EPOCH_NEXT + 1) % 2 ^ 32 then
    s.refuseWrite req (F.GLB_EPOCH_NEXT.off 0 0)
  else
    let s := ((s.put F.GLB_EPOCH_NEXT value).put F.GLB_EPOCH_SETTLED 0).bump F.GLB_RATCHETS
    let us := (List.range 14).filter (fun u => !(unitPolders u).any (fun p => s.polSt p == 4))
    { s with pwr.left := us, pwr.ratchetAt := s.time }

/-- EPOCH_RATCHET (R836). -/
def execEpochRatchet (req : Req) (value : Nat) (s : State) : Res := 
  .next (s.when true (fun s => s.byReq req (F.GLB_EPOCH_NEXT.off 0 0) (fun s => s.ratchet req value)))

end Sys2Proof.Machine
end

