-- ==== Sys2Proof/Machine/Luns.lean ====
section
/-! DEFINITION. The LUNs: issue of queued operations, suspend and resume, status and timers, and how the operations of
each producer end (R310 to R319, R348 to R363, R378 to R380). -/

namespace Sys2Proof.Machine
open Sys2Proof

/-! ### Read offsets (R348, R349) -/

/-- A byte as a signed number. -/
def sgnByte (x : Nat) : Int := if 128 ≤ x then (x : Int) - 256 else x

/-- Sum of two signed bytes, held to the range of one. -/
def satByte (a b : Nat) : Nat := ((max (-128) (min 127 (sgnByte a + sgnByte b))) % 256).toNat

/-- Offset that soft sense `n` adds to each level: none for the first, then plus and minus SOFT_DELTA, plus and minus twice that
(R345). -/
def State.softDelta (s : State) (ch n : Nat) : Nat :=
  let d := s.ringT ch 0x004 1
  let neg (x : Nat) : Nat := (256 - x % 256) % 256
  match n with
  | 2 => d
  | 3 => neg d
  | 4 => satByte d d
  | 5 => satByte (neg d) (neg d)
  | _ => 0

/-- Offsets of a read: the cell of the block's AGE and the LUN's temperature class, plus the ladder row of its step; a soft sense
stands beside them by its delta. -/
def State.readOffsets (s : State) (o : Op) : Nat :=
  let ch := maCh o.addr
  let cell := 0x080 + 16 * (8 * (s.bte o.addr).age + (s.lun ch (uOf o.addr)).temp)
  (List.range 16).foldl (fun n i =>
    let row := if o.step = 0 then 0 else s.ringT ch (0x880 + 16 * (o.step - 1) + i) 1
    n + satByte (satByte (s.ringT ch (cell + i) 1) row) (s.softDelta ch o.sense) * 256 ^ i) 0

/-! ### Issue order (R205, R311, R312) -/

/-- A READ holds a pin on a sector of the erase block of `a`, which is then not erased (R205). -/
def State.pinnedBlock (s : State) (a : Nat) : Bool :=
  let hit (x : Src) : Bool := match x.media with
    | some m => maErase m == maErase a
    | none => false
  s.qqp.cmds.any (fun e => match e.2 with
    | some c => (!c.completed && c.snap.any hit) || c.segs.any (fun g => (g.pin ++ g.kept).any hit)
    | none => false)

/-- Nothing queued for its block arrived before operation `o`, and an erase meets no pin. -/
def State.mayIssue (s : State) (q : List Op) (o : Op) : Bool :=
  q.all (fun p => !(maErase p.addr == maErase o.addr && decide (p.arr < o.arr)))
    && !(decide (o.kind = .erase) && s.pinnedBlock o.addr)

/-- The next operation of a queue: highest priority, then oldest. -/
def State.nextOp (s : State) (q : List Op) (p : Op → Bool) : Option Op :=
  (q.filter (fun o => p o && s.mayIssue q o)).foldl (fun b o => match b with
    | none => some o
    | some x => if o.prio < x.prio ∨ (o.prio = x.prio ∧ o.arr < x.arr) then some o else some x) none

/-- The queue proper of a LUN: 32 operations. -/
def Lun.window (l : Lun) : List Op := l.queue.take 32

/-- Operations of one kind on the same page of further planes that follow `o` in issue order (R318). -/
def State.planeMates (s : State) (o : Op) : List Op → List Op → Nat → List Op
  | _, _, 0 => []
  | q, got, n + 1 =>
    match s.nextOp q (fun _ => true) with
    | none => []
    | some x =>
      if x.kind = o.kind ∧ maPage x.addr = maPage o.addr ∧ x.slc = o.slc ∧ x.step = o.step ∧ x.sense = o.sense
          ∧ ¬ (o :: got).any (fun y => maPlane y.addr == maPlane x.addr)
      then x :: State.planeMates s o (q.erase x) (x :: got) n else []

/-- Operation `x` continues a cache pipeline after `o`: a program, or a relocation read, of the next page of the block
(R319). -/
def cacheNext (o x : Op) : Bool :=
  decide (x.kind = o.kind) && x.addr == o.addr + 16 && decide (x.slc = o.slc)
    && (decide (o.kind = .prog) || (decide (o.kind = .read) && x.step == 0 && o.step == 0 && x.sense == 0 && o.sense == 0 && (match o.who, x.who with
      | .reloc _, .reloc _ => true
      | _, _ => false)))

/-- A queued read can make the part suspend (R314, R356). -/
def State.suspRead (s : State) (ch u : Nat) : Bool :=
  let q := (s.lun ch u).window
  q.any (fun o => decide (o.kind = .read) && o.undercut.isNone && s.mayIssue q o
    && decide (o.prio ≤ s.rd F.MED_SUSP_CFG_PRIO (dieOf ch)))

/-! ### Results of raw sequences (R321) -/

/-- Writes `n` bytes at a device physical address, 64 bytes at a time. -/
def State.devWrites (s : State) (master : Nat) : Nat → Nat → Nat → Nat → State
  | 0, _, _, _ => s
  | f + 1, a, n, v =>
    if n = 0 then s
    else
      let k := min n (64 - a % 64)
      State.devWrites (s.devWrite a k master (v % 2 ^ (8 * k))).1 master f (a + k) (n - k) (v / 2 ^ (8 * k))

/-- Answers a landing's write to its raw port. -/
def State.rawAnswer (s : State) (landing txn st : Nat) : State :=
  let k := pktKey (0x100 + landing) txn
  match s.pkt k with
  | some p => if p.atUnit then s.answer k st 0 else s
  | none => { s with noc.got := s.noc.got ++ [{ ni := 0x100 + landing, txn := txn, status := st }] }

/-- Bytes a sequence moves in one direction: 2 DIN, 3 DOUT. -/
def rawBytes (d : Raw) (ty : Nat) : Nat := ((d.cycles.filter (fun c => c.ty == ty)).map (fun c => c.len)).sum

/-- The result record, the DOUT data behind it, and the answer to the landing. -/
def State.rawResult (s : State) (landing txn die st : Nat) (d : Raw) (r : RawEnd) : State :=
  let head := st % 256 + 2 ^ 8 * (r.sr % 256) + 2 ^ 16 * (r.cycles % 2 ^ 16) + 2 ^ 32 * (r.moved % 2 ^ 32) + 2 ^ 64 * (r.dieNs % 2 ^ 64)
  let s := s.devWrites (3 + die) 2 d.buf 16 head
  let n := if st = 0 then rawBytes d 3 else 0
  (s.devWrites (3 + die) (n / 64 + 2) (d.buf + 16) n r.dout).rawAnswer landing txn st

/-- A raw sequence ends (R321, R326). -/
def State.rawEnd (s : State) (o : Op) (st : Nat) (r : RawEnd) : State :=
  match o.who with
  | .raw n =>
    if o.ended then s
    else
      let die := dieOf (maCh o.addr)
      let s := if st = 0 then s.bump F.MED_RAW_DONE 1 die else s
      s.rawResult n o.txn die st o.raw r
  | _ => s

/-- Raw sequences queued on a LUN that was felled end with TARGET_DOWN (Table MED-6). -/
def State.rawFlush (s : State) : State :=
  let l := s.med.retry.filter (fun o => decide (o.kind = .raw))
  l.foldl (fun s o => s.rawEnd o 0x0A {}) { s with med.retry := s.med.retry.filter (fun o => o.kind ≠ .raw) }

/-! ### Ends of operations -/

/-- A page has been sensed: its block's RDC rises with probability 1/256 (R363), and its data transfer is queued unless it
is a cancelled undercut step (Table REL-5). -/
def State.readSensed (s : State) (o : Op) : State :=
  let die := dieOf (maCh o.addr)
  let up := s.freeNat % 256 = 0
  let s := s.drawn
  let rdc := min 255 ((s.bte o.addr).rdc + 1)
  let s := if up then s.updBte o.addr (fun b => { b with rdc := rdc }) else s
  let s := if up ∧ s.rd F.MED_REFRESH_CFG_DISTURB_LIMIT die ≤ rdc then
      (match s.stripeOf o.addr with
       | some k => s.refresh k
       | none => s)
    else s
  let ran := s.time - o.issued
  if o.cancelled then s.bump F.MED_UC_DIE (ran / 100) die
  else { s with med.reads := s.med.reads ++ [{ op := { o with ran := ran } }] }

/-- IUs a relocation has read wholly are placed in the relocation stripe of their group (R367). -/
def State.placeMoves (s : State) : State :=
  (s.med.moves.filter (fun m => m.left == 0 && m.place.isNone)).foldl (fun s m =>
    match s.place (m.src / 2 ^ 24) 1 (s.tract m.tract).secs (s.iprio 0x11) with
    | some (s, a) => { s with med.moves := s.med.moves.map (fun x => if x = m then { x with place := some a } else x) }
    | none => s) s

/-- Work that waits for a free stripe goes on (R882). -/
def State.placeAll (s : State) : State := s.placePending.placeMoves

/-- A program has ended (R218, R374, R379): the last data program of a row makes its PARITY task, the last parity program
completes the row. -/
def State.progDone (s : State) (o : Op) (ok : Bool) : State :=
  match o.who with
  | .row k row par =>
    if ¬ ok then (s.programFailed k o.addr).placeAll
    else match (s.stripe k).rows.find? (fun r => r.1 == row) with
    | none => s
    | some (_, d, p) =>
      let d' := if par then d else d - 1
      let p' := if par then p - 1 else p
      let s := s.updStripe k (fun x =>
        { x with rows := x.rows.map (fun r => if r.1 = row then (row, d', p') else r) })
      if d' ≠ 0 then s
      else if p' ≠ 0 then (if par then s else s.mediaTask 0x13 k (4096 * k + row))
      else
        let s := (s.tasksWhere (fun t => t.kind == 0x13 && t.payload == 4096 * k + row)).foldl (fun s t => s.endTask t.1) s
        s.rowDone k row
  | .anchor _ => if ok then s else s.fellBlock o.addr 1
  | _ => s

/-- An erase has ended (R325, R369, R380). -/
def State.eraseDone (s : State) (o : Op) (ok : Bool) : State :=
  match o.who with
  | .erase k => ((if ok then s else s.fellBlock o.addr 2).memberErased k o.addr ok).placeAll
  | .raw _ =>
    if ok then ((s.updBte o.addr (fun _ => {})).journal { ty := 0x08, arg1 := maErase o.addr }).placeAll
    else s.fellBlock o.addr 2
  | .anchor _ => if ok then s else s.fellBlock o.addr 2
  | _ => s

/-- One operation of a LUN has ended with status ready. -/
def State.opDone (s : State) (fail : List Nat) (raw : RawEnd) (o : Op) : State :=
  let ok := !fail.contains (maPlane o.addr)
  match o.kind with
  | .read => s.readSensed o
  | .prog => s.progDone o ok
  | .erase => s.eraseDone o ok
  | .raw => s.rawEnd o 0 raw

/-- A read that ends with TARGET_DOWN: the command's segment stops there, a merge starts over, a relocation gives up. -/
def State.readDown (s : State) (o : Op) : State :=
  match o.who with
  | .cmd k =>
    match s.cmd k with
    | some c =>
      (c.segs.zipIdx.filter (fun g => g.1.pin.any (fun x => match x.media with
        | some a => a / 16 * 16 == o.addr
        | none => false))).foldl (fun s g => s.segEnd k g.2 0x0A 5 o.addr) s
    | none => s
  | .merge b => s.updLine b (fun l => if l.place.isSome then l else { l with tasked := false, handed := false })
  | .page p => s.updLoad p (fun l => { l with asked := false, got := [] })
  | .reloc k =>
    match s.stripeTask k with
    | some (t, x) => (s.workLost x).endTask t
    | none => s
  | _ => s

/-- An operation ended by a Reset LUN that follows a timer (Table MED-6, R442 to R448): it is retried after its backoff; with
its retries spent, or while PFAIL_N is low, it ends with TARGET_DOWN. -/
def State.opDown (s : State) (o : Op) : State :=
  let die := dieOf (maCh o.addr)
  if o.kind = .raw then s.rawEnd o 0x0A {}
  else if o.undercut.isSome then
    (s.bump F.MED_UC_CANCELLED (if o.cancelled then 0 else 1) die).bump F.MED_UC_DIE ((s.time - o.issued) / 100) die
  else if o.retries < s.retryLimit ∧ ¬ s.lve.pfLow then
    let s : State := { s with med.retry := s.med.retry ++ [{ o with retries := o.retries + 1 }] }
    match o.who with
    | .cmd k => s.updCmd k (fun c => { c with retries := c.retries + 1 })
    | _ => s
  else
    let s := s.post E.RETRY_EXHAUSTED (5 + 0x0A * 256) o.addr
    match o.kind with
    | .read => s.readDown o
    | .prog => match o.who with
      | .row k _ _ => (s.abandonStripe k false).placeAll
      | _ => s.enqueue { o with retries := 0 }
    | _ => s.enqueue { o with retries := 0 }

/-- An operation aborted by the Reset LUN of a bring-up or of a drain (R306, R334, R380): its producer queues it again. -/
def State.opAbort (s : State) (o : Op) : State :=
  match o.kind with
  | .raw => s.rawEnd o 0x0A {}
  | .prog => match o.who with
    | .row k _ _ => s.abandonStripe k false
    | _ => s.enqueue o
  | _ =>
    if o.undercut.isSome then
      let die := dieOf (maCh o.addr)
      (s.bump F.MED_UC_CANCELLED (if o.cancelled then 0 else 1) die).bump F.MED_UC_DIE ((s.time - o.issued) / 100) die
    else s.enqueue o

/-- Reset LUN: what runs and what is suspended is aborted. -/
def State.lunReset (s : State) (ch u : Nat) : State :=
  let l := s.lun ch u
  if s.lunSt ch u = 15 then s
  else
    let s := (s.updLun ch u (fun l => { l with cur := [], susp := [], offsets := none })).putLunSt ch u 1
    (l.cur ++ l.susp).foldl State.opAbort s

/-! ### Issue (R311 to R319) -/

/-- The next page of a cache pipeline, if the pipeline goes on after `o`, its page number `n` (R319, MED_CTL.CACHE_EN). -/
def State.pipeNext (s : State) (ch u n : Nat) (o : Op) : Option Op :=
  let d := dieOf ch
  if ¬ s.on F.MED_CTL_CACHE_EN d ∨ ¬ s.owned (grpOf ch) then none
  else if max 1 (s.rd F.MED_CACHE_MAX d) ≤ n ∧ s.suspRead ch u then none
  else match s.nextOp (s.lun ch u).window (fun _ => true) with
  | some x => if cacheNext o x then some x else none
  | none => none

/-- Volume Select before a command to a volume other than the last one on that CE_N (R301). -/
def State.selVolume (s : State) (ch u : Nat) : State :=
  s.updChan ch (fun c => { c with sel := c.sel.set (u / 32) (u / 4) })

/-- Operations leave the queue and run. -/
def State.runOps (s : State) (ch u : Nat) (l : List Op) (st : Nat) : State :=
  let go := l.map (fun o => { o with issued := s.time, resumed := s.time, ran := 0, susps := 0 })
  let offs := (go.filter (fun o => decide (o.kind = .read))).map s.readOffsets
  let uc := (l.filter (fun o => o.undercut.isSome)).length
  let s := (s.updLun ch u (fun x =>
    { x with queue := x.queue.filter (fun o => !l.contains o), cur := go
             offsets := match offs with
               | [] => x.offsets
               | v :: _ => some v })).selVolume ch u
  (s.putLunSt ch u st).bump F.MED_UC_ISSUED uc (dieOf ch)

/-- A refused sequence (R323). -/
def State.rawRefuse (s : State) (n txn die st : Nat) (d : Raw) : State :=
  (((s.bump F.MED_RAW_REFUSED 1 die).post (E.MED_RAW_REFUSED die) n st)).rawResult n txn die st d {}

/-- Check 7 of Table MED-9 at the head of the queue of a felled LUN, or of a felled channel's (R324, log entry 209): the sequence
is refused. -/
def State.rawFelled (s : State) (ch u : Nat) : State :=
  match s.nextOp (s.lun ch u).window (fun o => decide (o.kind = .raw)) with
  | none => s
  | some o =>
    let s := s.updLun ch u (fun l => { l with queue := l.queue.erase o })
    match o.who with
    | .raw n => s.rawRefuse n o.txn (dieOf ch) 0x04 o.raw
    | _ => s

/-- LUN_ISSUE (R312, R315, R318, R319, R324): the next operation of LUN `u` of channel `ch`. `planes` says that the parameter
page's plane-address rules allow a merge; `raw` is how a raw sequence without FINAL_WAIT ends. -/
def State.lunIssue (s : State) (ch u : Nat) (planes : Bool) (raw : RawEnd) : State :=
  let d := dieOf ch
  let l := s.lun ch u
  let st := s.lunSt ch u
  if ¬ s.owned (grpOf ch) then s
  else if st = 15 ∨ s.chFelled ch then s.rawFelled ch u
  else if s.rd F.MED_CH_STAT_STATE d (ch % 128) ≠ 1 then s
  else if st = 7 ∨ st = 8 then
    if l.cur ≠ [] ∨ l.suspMax ≤ l.suspReads ∨ s.lve.pfLow ∨ ¬ s.on F.MED_CTL_SUSP_EN d
        ∨ 10000 * s.rd F.MED_SUSP_TIME_HOLD d ≤ s.time - l.suspAt then s
    else match s.nextOp l.window (fun o => decide (o.kind = .read)) with
    | none => s
    | some o => (s.runOps ch u [o] st).updLun ch u (fun l => { l with suspReads := l.suspReads + 1 })
  else if st ≠ 2 then s
  else match s.nextOp l.window (fun _ => true) with
  | none => s
  | some o =>
    let mates := if planes ∧ s.on F.MED_CTL_MP_EN d ∧ o.kind ≠ .raw
      then s.planeMates o (l.window.erase o) [] (s.tsPlanes ch - 1) else []
    let r := s.put F.MED_LUN_STAT_SUSPS 0 d (lunJ ch u)
    match o.kind with
    | .raw =>
      let s := r.runOps ch u [o] 10
      if bit o.raw.flags 0 then s
      else (s.rawEnd o 0 raw).updLun ch u (fun l => { l with cur := l.cur.map (fun x => { x with ended := true }) })
    | .erase => r.runOps ch u (o :: mates) 5
    | _ =>
      let pipe : Bool := mates.isEmpty && s.on F.MED_CTL_CACHE_EN d
        && (match s.nextOp (l.window.erase o) (fun _ => true) with
          | some x => cacheNext o x
          | none => false)
      if pipe then (r.runOps ch u [o] 9).updLun ch u (fun l => { l with cached := 1 })
      else r.runOps ch u (o :: mates) (if o.kind = .read then 3 else 4)

/-- LUN_ISSUE (R312). -/
def execLunIssue (ch u : Nat) (planes : Bool) (raw : RawEnd) (s : State) : Res := .next (s.when true (fun s => s.lunIssue ch u planes raw))

/-! ### Suspend and resume (R314 to R317) -/

/-- SUSPEND (R314): a queued read suspends the program or erase that runs. -/
def execSuspend (ch u : Nat) (s : State) : Res :=
  let d := dieOf ch
  let st := s.lunSt ch u
  .next (s.when true (fun s => match (s.lun ch u).cur with
    | [] => s
    | o :: _ =>
      let prog : Bool := st == 4
      let minRun := 10000 * (if prog then s.rd F.MED_SUSP_TIME_MIN_RUN_PROG d else s.rd F.MED_SUSP_TIME_MIN_RUN_ERASE d)
      let mx := if prog then s.rd F.MED_SUSP_CFG_MAX_PROG d else s.rd F.MED_SUSP_CFG_MAX_ERASE d
      let run := o.ran + (s.time - o.resumed)
      if (st = 4 ∨ st = 5) ∧ s.on F.MED_CTL_SUSP_EN d ∧ ¬ s.lve.pfLow ∧ s.owned (grpOf ch) ∧ s.suspRead ch u
          ∧ minRun ≤ run ∧ o.susps < mx
          ∧ (o.susps = 0 ∨ 10000 * s.rd F.MED_SUSP_TIME_MIN_RESUME d ≤ s.time - o.resumed)
      then s.putLunSt ch u 6 else s))

/-- Resumes the suspended operation of a LUN once no read runs in the suspension. -/
def State.lunResume (s : State) (ch u : Nat) : State :=
  let l := s.lun ch u
  let st := s.lunSt ch u
  if (st = 7 ∨ st = 8) ∧ l.cur = [] then
    (s.updLun ch u (fun l =>
      { l with cur := l.susp.map (fun o => { o with resumed := s.time }), susp := [] })).putLunSt ch u (st - 3)
  else s

/-- OPERATION_RESUME (R315, R317, R334): after SUSP_READS reads, after HOLD, with no eligible read left, or where suspends
are no longer allowed. -/
def execOperationResume (ch u : Nat) (s : State) : Res :=
  let d := dieOf ch
  let l := s.lun ch u
  .next (s.when (decide (l.suspMax ≤ l.suspReads) || s.lve.pfLow || !s.on F.MED_CTL_SUSP_EN d || !s.owned (grpOf ch)
      || decide (10000 * s.rd F.MED_SUSP_TIME_HOLD d ≤ s.time - l.suspAt)
      || (s.nextOp l.window (fun o => decide (o.kind = .read))).isNone)
    (fun s => s.lunResume ch u))

/-! ### Status and timers (Table MED-6) -/

/-- A suspend has taken hold: the operation stands suspended. -/
def State.lunSuspended (s : State) (ch u : Nat) : State :=
  let d := dieOf ch
  let l := s.lun ch u
  let n := ((l.cur.headD {}).susps) + 1
  let st := if (l.cur.headD {}).kind = .erase then 8 else 7
  let s := s.updLun ch u (fun l =>
    { l with susp := l.cur.map (fun o => { o with susps := n, ran := o.ran + (s.time - o.resumed) }), cur := []
             suspAt := s.time, suspReads := 0, suspMax := s.rd F.MED_SUSP_CFG_SUSP_READS d })
  ((s.putLunSt ch u st).put F.MED_LUN_STAT_SUSPS n d (lunJ ch u)).bump F.MED_SUSPENDS 1 d

/-- LUN_STATUS_READY (R310): Read Status Enhanced shows the LUN ready. `fail` lists the planes whose operation failed,
`suspended` the SR_SUSPENDED bits after a suspend, `raw` how a raw sequence ended. -/
def State.lunReady (s : State) (ch u : Nat) (fail : List Nat) (suspended : Bool) (raw : RawEnd) : State :=
  let l := s.lun ch u
  let st := s.lunSt ch u
  let idle := (s.updLun ch u (fun l => { l with cur := [] })).putLunSt ch u 2
  if st = 1 then s.putLunSt ch u 2
  else if st = 6 then
    if suspended then s.lunSuspended ch u
    else l.cur.foldl (fun s o => s.opDone fail raw o) (idle.bump F.MED_SUSP_LATE 1 (dieOf ch))
  else if st = 7 ∨ st = 8 then
    l.cur.foldl (fun s o => s.opDone fail raw o) (s.updLun ch u (fun l => { l with cur := [] }))
  else if st = 9 then
    let o := l.cur.headD {}
    match s.pipeNext ch u l.cached o with
    | some x =>
      let s := (s.runOps ch u [x] 9).updLun ch u (fun l => { l with cached := l.cached + 1 })
      s.opDone fail raw o
    | none => l.cur.foldl (fun s o => s.opDone fail raw o) idle
  else if st = 3 ∨ st = 4 ∨ st = 5 ∨ st = 10 then l.cur.foldl (fun s o => s.opDone fail raw o) idle
  else s

/-- LUN_STATUS_READY (R310). -/
def execLunStatusReady (ch u : Nat) (fail : List Nat) (suspended : Bool) (raw : RawEnd) (s : State) : Res :=
  .next (s.when true (fun s => (s.lunReady ch u fail suspended raw).rawFlush))

/-- LUN_TIMEOUT (R310, R442): the first expiry since bring-up resets the LUN, the second fells it. -/
def execLunTimeout (ch u : Nat) (s : State) : Res :=
  let d := dieOf ch
  let l := s.lun ch u
  let st := s.lunSt ch u
  let busy : Bool := decide (st = 1) || (decide (3 ≤ st) && decide (st ≤ 6)) || decide (st = 9) || decide (st = 10)
    || ((decide (st = 7) || decide (st = 8)) && !l.cur.isEmpty)
  .next (s.when busy (fun s =>
    let n := s.rd F.MED_LUN_STAT_TMOS d (lunJ ch u) + 1
    let a := match l.cur with
      | o :: _ => o.addr
      | [] => mkMaddr ch (u / 4) (u % 4) 0 0 0 0
    let s := (s.put F.MED_LUN_STAT_TMOS (min 3 n) d (lunJ ch u)).post (E.MED_LUN_TIMEOUT d) ch a
    if 2 ≤ n then (s.fellLun ch u 4).placeAll.rawFlush
    else
      let s := (s.updLun ch u (fun l => { l with cur := [], susp := [], offsets := none })).putLunSt ch u 1
      (l.cur ++ l.susp).foldl State.opDown s))

end Sys2Proof.Machine
end

