-- ==== Sys2Proof/Machine/Reads.lean ====
section
/-! DEFINITION. What happens to a page read beyond its LUN: the bus, undercut steps, the decoders, delivery to the reader,
relocation, the patrol, and the channel events around them (R307 to R309, R343 to R370, R442). -/

namespace Sys2Proof.Machine
open Sys2Proof

/-! ### Bus transfers and undercut steps (R313, R353 to R358) -/

/-- The engine undercuts reads whose data it decodes, not the patrol's (R358). -/
def undercuts (w : Who) : Bool :=
  match w with
  | .cmd _ | .page _ | .merge _ | .reloc _ => true
  | _ => false

/-- Issues the undercut step after `step` for the read `o` whose present step is `base`, within UC_DEPTH and STEPS, when one
of the die's 256 buffers is free (R354, R355). -/
def State.undercutNext (s : State) (o : Op) (base step : Nat) : State :=
  let ch := maCh o.addr
  let d := dieOf ch
  if ¬ s.on F.MED_REL_CTL_UC_EN d ∨ base + s.rd F.MED_REL_CTL_UC_DEPTH d < step + 1 ∨ s.ringSteps ch < step + 1
      ∨ s.lve.pfLow ∨ ¬ s.owned (grpOf ch) ∨ ¬ undercuts o.who ∨ s.lunSt ch (uOf o.addr) = 15 ∨ s.chFelled ch then s
  else if 256 ≤ (s.allOps.filter (fun x => x.undercut.isSome && dieOf (maCh x.addr) == d)).length then s.bump F.MED_UC_NOBUF 1 d
  else s.enqueue { o with step := step + 1, undercut := some base, pred := false, cancelled := false, issued := 0, ran := 0 }

/-- A read is predicted to fail its hard decode: `sw` is the syndrome weight of its first codeword (R353). -/
def State.predicted (s : State) (o : Op) (sw : Nat) : Bool :=
  let d := dieOf (maCh o.addr)
  let b := s.bte o.addr
  decide (s.rd F.MED_UC_PRED_UC_SW d < sw) || decide (s.rd F.MED_UC_PRED_UC_AGE d ≤ b.age)
    || decide (s.rd F.MED_UC_PRED_UC_RDC d ≤ b.rdc)

/-- Sensed page `r` comes first among those of its channel that wait for the bus. -/
def State.busFirst (s : State) (r : Rd) : Bool :=
  s.med.reads.all (fun x => x.stage != 0 || maCh x.op.addr != maCh r.op.addr || x == r
    || decide (r.op.prio < x.op.prio) || (r.op.prio == x.op.prio && decide (r.op.arr ≤ x.op.arr)))

/-- A data transfer of a channel has ended: the part appends its training pattern to every 64th, and retrains the channel whose
pattern fails (R307). -/
def State.transferred (s : State) (ch : Nat) (pattern : Bool) : State :=
  s.updChan ch (fun c =>
    if c.xfers < 63 then { c with xfers := c.xfers + 1 } else { c with xfers := 0, retrain := c.retrain || !pattern })

/-- Senses of a soft decode: SOFT_SENSES, 3 or 5. -/
def State.softSenses (s : State) (ch : Nat) : Nat := s.ringT ch 0x005 1

/-- The next soft sense of a read, or none is to come: its codewords go to the soft decoders (R345). -/
def State.senseNext (s : State) (o : Op) : State :=
  let ch := maCh o.addr
  if o.sense < s.softSenses ch ∧ s.lunSt ch (uOf o.addr) ≠ 15 ∧ ¬ s.chFelled ch then
    s.enqueue { o with sense := o.sense + 1, pred := false, issued := 0, ran := 0 }
  else { s with med.reads := s.med.reads ++ [{ op := o, stage := 2 }] }

/-- BUS_TRANSFER_DONE (R307, R313, R345): the granted page is transferred; an undercut step's data is held in its buffer, a soft
sense leads to the next. -/
def execBusTransferDone (id step : Nat) (e : BusEnd) (s : State) : Res :=
  .next (s.when true (fun s => match s.med.reads.find? (fun r => r.op.id == id && r.op.step == step && r.stage == 0) with
    | none => s
    | some r =>
      let ch := maCh r.op.addr
      if s.rd F.MED_CH_STAT_STATE (dieOf ch) (ch % 128) ≠ 1 ∨ ¬ s.busFirst r then s
      else
        let s := s.transferred ch e.pattern
        let p := s.predicted r.op e.weight
        let o : Op := { r.op with pred := p, ran := s.time - r.op.issued }
        if o.sense ≠ 0 then ({ s with med.reads := s.med.reads.filter (fun x => x ≠ r) }.senseNext o).feed
        else
          let s : State := { s with med.reads := s.med.reads.map (fun x =>
            if x = r then { op := o, stage := if o.undercut.isSome then 3 else 1 } else x) }
          (if o.undercut.isSome ∨ p then s.undercutNext o (o.undercut.getD step) step else s).feed))

/-! ### Metadata of decoded sectors (R362, R366, R369) -/

/-- Age class of an age in hours: the first whose upper edge it does not exceed. -/
def State.ageClass (s : State) (ch h : Nat) : Nat :=
  ((List.range 15).filter (fun c => s.ringT ch (0x010 + 4 * c) 4 < h)).length

/-- A trigger of Table REL-7 for the stripe of `a`. -/
def State.refreshAt (s : State) (a : Nat) : State :=
  match s.stripeOf a with
  | some k => s.refresh k
  | none => s

/-- A sector of a read has decoded: the block's AGE rises to its class, and the stripe's highest ERASES is noted. -/
def State.decoded (s : State) (o : Op) (r : SecRes) : State :=
  let ch := maCh o.addr
  let old := (s.bte o.addr).age
  let new := max old (s.ageClass ch (s.rd F.MED_HOURS (dieOf ch) - r.ptime))
  let s := s.updBte o.addr (fun b => { b with age := new })
  let s := match s.stripeOf o.addr with
    | some k => s.updStripe k (fun x => { x with seen := some (max (x.seen.getD 0) r.erases) })
    | none => s
  if new ≠ old ∧ s.rd F.MED_REFRESH_CFG_REFRESH_AGE (dieOf ch) ≤ new then s.refreshAt o.addr else s

/-! ### Loss (R347, R381) -/

/-- The IU of a lost sector of the map version is POISONED, and MAP_POISON is journalled; a page that is not resident takes
the record when it is loaded. -/
def State.poisonIu (s : State) (t iu a : Nat) : State :=
  let tr := s.tract t
  let page := tr.page iu
  let r : JRec := { ty := 0x0A, flags := foreignFlag t, tract := tractId t, arg0 := iu }
  if s.resident page then
    let e := s.entry page (iu % 2048)
    if ¬ eValid e ∨ a < eMaddr e ∨ maErase (eMaddr e) ≠ maErase a then s
    else
      let s := s.setEntry t page (iu % 2048) (mkEntry 0 false false true (4096 ≤ t) (eWver e))
      ((s.lowerValid (eMaddr e) tr.secs).journal r).journalMirrored
  else
    let l := Map.get [] s.tly.replay page
    if l.any (fun x => x.2 == r) then s
    else
      let q := s.jseq
      let s : State := { s with tly.replay := Map.set [] s.tly.replay page (l ++ [(q, r)]) }
      ((s.journal r).put F.TLY_STAT_REPLAY_PENDING 1).journalMirrored

/-- PARITY_DEGRADED, bit 52, of the entry of an IU that a read had to rebuild (R381). -/
def State.markDegraded (s : State) (t iu a : Nat) : State :=
  let page := (s.tract t).page iu
  let e := s.entry page (iu % 2048)
  if s.resident page ∧ eValid e ∧ ¬ bit e 52 ∧ maErase (eMaddr e) = maErase a then s.setEntry t page (iu % 2048) (e + 2 ^ 52)
  else s

/-! ### Delivery -/

/-- Media address `n` sectors before `a` in its block. -/
def State.maMinus (s : State) (a n : Nat) : Nat :=
  let sec := max 1 (s.tsSectors (maCh a))
  let p := maPage a * sec + maSector a - n
  maErase a + p / sec * 16 + p % sec

/-- A sector a relocation has read (R367): it belongs to an IU whose entry still names the place, or it is passed over. A
lost sector drops its IU. -/
def State.relocSector (s : State) (k a : Nat) (r : SecRes) : State :=
  if r.out = .lost then
    match s.med.moves.find? (fun m => m.src == k && m.place.isNone && decide (m.old ≤ a)
        && decide (a < m.old + 16 * (s.tract m.tract).secs) && decide (maErase m.old = maErase a)) with
    | some m => { s with med.moves := s.med.moves.filter (fun x => x ≠ m) }.poisonIu m.tract m.iu a
    | none => s
  else if r.kind ≠ 0 ∨ (r.tract = 0 ∧ r.sidx = 0 ∧ r.wver = 0 ∧ r.ptime = 0) then s
  else
    let t := r.tract % 8192
    let tr := s.tract t
    let n := tr.secs
    let iu := r.sidx / n
    let base := s.maMinus a (r.sidx % n)
    let page := tr.page iu
    let e := s.entry page (iu % 2048)
    if tr.st = .absent ∨ (s.resident page ∧ ¬ (eValid e ∧ eMaddr e = base)) then s
    else
      let s : State := if s.med.moves.any (fun m => m.tract == t && m.iu == iu && m.old == base) then
          { s with med.moves := s.med.moves.map (fun m =>
            if m.tract = t ∧ m.iu = iu ∧ m.old = base then { m with left := m.left - 1 } else m) }
        else
          let m : Move := { tract := t, iu := iu, old := base, wver := r.wver % 1024, left := n - 1, src := k }
          { s with med.moves := s.med.moves ++ [m] }
      s.placeMoves

/-- Content of a sector for its reader. -/
def secBlk (r : SecRes) : Option Blk :=
  if r.out = .lost then none else some (if r.poison then .poison else .data r.data)

/-- Sectors of a read reach its reader. -/
def State.deliver (s : State) (o : Op) (l : List SecRes) : State :=
  let xs := l.map (fun r => (o.addr + r.sec, secBlk r))
  match o.who with
  | .cmd k => s.updCmd k (fun c => { c with media := c.media ++ xs })
  | .merge b => (s.updLine b (fun x => { x with got := x.got ++ xs })).mergeDone b
  | .page p => s.updLoad p (fun x => { x with got := x.got ++ xs })
  | .reloc k => l.foldl (fun s r => s.relocSector k (o.addr + r.sec) r) s
  | _ => s

/-- Every sector of a read is settled: a relocation goes on to its next page. -/
def State.readEnd (s : State) (o : Op) : State :=
  match o.who with
  | .reloc k => s.relocStep k
  | _ => s

/-! ### Decoders (R343 to R347) -/

/-- A read leaves the list of reads beyond the LUN. -/
def State.dropRead (s : State) (r : Rd) : State := { s with med.reads := s.med.reads.filter (fun x => x ≠ r) }

/-- The next ladder step of a read whose sectors `bad` have failed: an undercut step already under way becomes it (R356,
R357), or a new sense is queued; after the last step comes soft decode. -/
def State.ladderNext (s : State) (o : Op) (bad : List Nat) : State :=
  let ch := maCh o.addr
  let next := o.step + 1
  let sib (x : Op) : Bool := x.id == o.id && x.undercut.isSome && !x.cancelled
  if s.ringSteps ch < next ∨ s.lunSt ch (uOf o.addr) = 15 ∨ s.chFelled ch then
    let s := s.cancelUndercuts (fun x => x.id == o.id)
    s.senseNext { o with secs := bad, step := (o.best.getD (0, o.step)).2 }
  else match s.allOps.find? (fun x => sib x && x.step == next) with
  | none => s.enqueue { o with step := next, secs := bad, pred := false, issued := 0, ran := 0 }
  | some u =>
    let promote (x : Op) : Op :=
      if sib x then { x with secs := bad, best := o.best, undercut := if x.step = next then none else some next } else x
    let s : State := { s with
      med.luns := Map.mapAll {} (fun _ l => { l with queue := l.queue.map promote, cur := l.cur.map promote }) s.med.luns
      med.reads := s.med.reads.map (fun r =>
        { r with op := promote r.op, stage := if sib r.op && r.op.step == next && r.stage == 3 then 1 else r.stage }) }
    let s := s.bump F.MED_UC_USED 1 (dieOf ch)
    if u.pred ∧ ¬ s.allOps.any sib then s.undercutNext { u with secs := bad } next next else s

/-- The failed step of a read is the best one so far if its syndrome weight, the lowest of its failed codewords, is the lowest
(R346, log entry 210). -/
def Op.weighed (o : Op) (res : List SecRes) (bad : List Nat) : Op :=
  let ws := (res.filter (fun r => bad.contains r.sec)).map (fun r => r.weight)
  let w := ws.foldl min (ws.headD 0)
  match o.best with
  | some b => if w < b.1 then { o with best := some (w, o.step) } else o
  | none => { o with best := some (w, o.step) }

/-- HARD_DECODE_DONE (R341, R343, R346): a read whose codewords have their decoders is decoded; the sectors of `res` that converge with a good CRC are delivered; the others go on. -/
def execHardDecodeDone (id step : Nat) (res : List SecRes) (s : State) : Res :=
  .next (s.when true (fun s =>
    let s := s.feed
    match s.med.reads.find? (fun r => r.op.id == id && r.op.step == step && r.stage == 1 && s.inDecoders r) with
    | none => s
    | some rd =>
      let o := rd.op
      let d := dieOf (maCh o.addr)
      let s := (s.dropRead rd).bump F.MED_CRC_MISCORRECT ((res.filter (fun r => r.crc && o.secs.contains r.sec)).length) d
      let of_ (x : Nat) : Option SecRes := res.find? (fun r => r.sec == x && decide (r.out = .good) && !r.crc)
      let good := o.secs.filterMap of_
      let bad := o.secs.filter (fun x => (of_ x).isNone)
      let s := good.foldl (fun s r => s.decoded o r) s
      let s := s.deliver o good
      if bad ≠ [] then (s.ladderNext (o.weighed res bad) bad).feed
      else
        let s := (s.bump F.MED_LADDER_HIST 1 d step).cancelUndercuts (fun x => x.id == id)
        let s := if s.rd F.MED_REFRESH_CFG_REFRESH_STEP d ≤ step then s.refreshAt o.addr else s
        (s.readEnd o).feed))

/-- Counters and marks of one sector after soft decode and rebuild. -/
def State.softSector (s : State) (o : Op) (felled : Bool) (r : SecRes) : State :=
  let ch := maCh o.addr
  let d := dieOf ch
  let a := o.addr + r.sec
  let iuRead : Bool := match o.who with
    | .cmd _ | .merge _ => true
    | _ => false
  match r.out with
  | .good => (if felled then s.bump F.MED_DEC_REBUILD 1 d else s.bump F.MED_DEC_SOFT 1 d).decoded o r
  | .soft => (if felled then s.bump F.MED_DEC_REBUILD 1 d else s.bump F.MED_DEC_SOFT 1 d).decoded o r
  | .rebuilt =>
    let s := s.bump F.MED_DEC_REBUILD 1 d
    if iuRead then s.markDegraded o.tract o.iu a else s
  | .lost =>
    let s := (s.bump F.MED_DEC_FAIL 1 d).post (E.MED_DECODE_FAIL d) ch a
    if iuRead then s.poisonIu o.tract o.iu a else s

/-- SOFT_DECODE_DONE (R343, R345 to R347): soft decode, and where it fails the rebuild from the stripe, settle every sector left. A
read of a felled LUN or channel takes only the rebuild. -/
def execSoftDecodeDone (id : Nat) (res : List SecRes) (s : State) : Res :=
  .next (s.when true (fun s =>
    let s := s.feed
    match s.med.reads.find? (fun r => r.op.id == id && r.stage == 2 && s.inDecoders r) with
    | none => s
    | some rd =>
      let o := rd.op
      let ch := maCh o.addr
      let felled := s.lunSt ch (uOf o.addr) == 15 || s.chFelled ch
      let s := (s.dropRead rd).bump F.MED_CRC_MISCORRECT ((res.filter (fun r => r.crc && o.secs.contains r.sec)).length) (dieOf ch)
      let l := o.secs.map (fun x => (res.find? (fun r => r.sec == x)).getD { sec := x, out := .lost })
      let s := l.foldl (fun s r => s.softSector o felled r) s
      (((s.refreshAt o.addr).deliver o l).readEnd o).feed))

/-! ### Patrol (R365, R370) -/

/-- The reads of a patrol visit (R365): the last programmed page and a freely chosen one of each member. -/
def State.patrolAsk (s : State) (stripe : Nat) : State :=
  let x := s.stripe stripe
  let (sec, _) := s.stripeGeo stripe
  let pg := s.freeNat % max 1 x.row
  x.members.foldl (fun s a => [x.row - 1, pg].eraseDups.foldl (fun s p =>
    s.askSectors (.patrol stripe) 7 0 0 ((List.range sec).map (fun i => a + p * 16 + i))) s) s.drawn

/-- A stripe whose oldest member has reached REFRESH_AGE is refreshed (R366, Table REL-7). -/
def State.patrolAge (s : State) (stripe : Nat) : State :=
  let x := s.stripe stripe
  let old := x.members.foldl (fun m a => max m (s.bte a).age) 0
  if s.rd F.MED_REFRESH_CFG_REFRESH_AGE (stripe / 2 ^ 24 / 8) ≤ old then s.refresh stripe else s

/-- A closed stripe worn by WEAR_GAP less than its group's most worn is collected for wear levelling (R370). -/
def State.patrolWear (s : State) (stripe : Nat) : State :=
  let g := stripe / 2 ^ 24
  let d := g / 8
  let top := (s.med.stripes.filter (fun e => e.1 / 2 ^ 24 == g)).foldl (fun m e => max m e.2.erases) 0
  let y := s.stripe stripe
  if s.on F.MED_REL_CTL_WL_EN d ∧ y.st = .closed ∧ ¬ y.tasked
      ∧ y.erases + 16 * s.rd F.MED_GC_CFG_WEAR_GAP d ≤ top then
    (s.updStripe stripe (fun x => { x with tasked := true })).mediaTask 0x11 stripe stripe (some 7)
  else s

/-- PATROL_VISIT (R365, R370): two pages of each member of a closed or degraded stripe are read, the last programmed and one
chosen at random; `passEnd` says that the pass ends with this visit. -/
def execPatrolVisit (stripe : Nat) (passEnd : Bool) (s : State) : Res :=
  let x := s.stripe stripe
  let g := stripe / 2 ^ 24
  let d := g / 8
  .next (s.when (s.on F.MED_REL_CTL_PATROL_EN d && !s.lve.pfLow && s.stripeOwned g
      && (decide (x.st = .closed) || decide (x.st = .degraded))) (fun s =>
    let s := ((s.patrolAsk stripe).patrolAge stripe).patrolWear stripe
    if passEnd then s.put F.MED_REL_STAT_PATROL_FAST 0 d else s))

/-! ### Hours (R364) -/

/-- MED_HOURS_WRITE (R364): a write that lowers the count is refused. -/
def State.hoursWrite (s : State) (req : Req) (die v : Nat) : State :=
  if v < s.rd F.MED_HOURS die then s.refuseWrite req (F.MED_HOURS.off die 0)
  else ((s.put F.MED_HOURS v die).put F.MED_REL_STAT_SYNCED 1 die).put F.MED_REL_STAT_PATROL_FAST 0 die

/-- MED_HOURS_WRITE (R364). -/
def execMedHoursWrite (req : Req) (die value : Nat) (s : State) : Res := 
  .next (s.when true (fun s => s.byReq req (F.MED_HOURS.off (die % 2) 0) (fun s => s.hoursWrite req (die % 2) value)))

/-- MED_HOURS_TICK (R364): an hour of powered time has passed. -/
def execMedHoursTick (die : Nat) (s : State) : Res :=
  .next (s.when true (fun s => s.put F.MED_HOURS (s.rd F.MED_HOURS (die % 2) + 1) (die % 2)))

/-! ### Channels: retraining, ZQ calibration, temperature (R307 to R309, R350) -/

/-- Rate a channel runs at: MED_CH_CTL.RATE, held to 2,400 MT/s with 9 loads or more (R299). -/
def State.rateNow (s : State) (ch : Nat) : Nat :=
  let r := s.rd F.MED_CH_CTL_RATE (dieOf ch) (ch % 128)
  if 9 ≤ s.chLoads ch then min 2 r else r

/-- A training of a channel that is up ends (R309): after a failure it is retried, and after three failed retrains the channel
is felled. -/
def State.trainEnd (s : State) (ch : Nat) (ok : Bool) : State :=
  let d := dieOf ch
  let j := ch % 128
  if ok then
    ((s.put F.MED_CH_TRAIN_FAILS 0 d j).put F.MED_CH_STAT_RATE_NOW (s.rateNow ch) d j).put F.MED_CH_STAT_STATE 1 d j
      |>.updChan ch (fun c => { c with backoff := false, trainedAt := s.cfg.temps.getD (5 + d) none })
  else
    let s := s.bump F.MED_CH_TRAIN_FAILS 1 d j
    if 4 ≤ s.rd F.MED_CH_TRAIN_FAILS d j then
      ((s.updChan ch (fun c => { c with backoff := false })).fellChannel ch).placeAll.rawFlush
    else (s.put F.MED_CH_STAT_STATE 3 d j).updChan ch (fun c => { c with backoff := true })

/-- CHANNEL_RETRAIN (R307 to R309): a retrain that the temperature or the training pattern starts (`auto`), or a register
write, ends with `ok`. -/
def execChannelRetrain (ch : Nat) (auto ok : Bool) (s : State) : Res :=
  let d := dieOf ch
  let j := ch % 128
  .next (s.when (s.owned (grpOf ch) && s.rd F.MED_CH_STAT_STATE d j == 1 && (auto || (s.chan ch).retrain)) (fun s =>
    ((s.bump F.MED_CH_RETRAINS 1 d j).updChan ch (fun c => { c with retrain := false })).trainEnd ch ok))

/-- ZQ_SHORT_TIMER (R307): ZQ short, 0xD9, goes to each populated volume of every channel that is up. -/
def execZqShortTimer (die : Nat) (s : State) : Res :=
  .next (s.when (s.rd F.MED_ZQ_CFG_SHORT_MS (die % 2) != 0) (fun s =>
    let chs := ((List.range 128).map (· + 128 * (die % 2))).filter (fun ch =>
      s.owned (grpOf ch) && s.rd F.MED_CH_STAT_STATE (dieOf ch) (ch % 128) == 1)
    let l := chs.flatMap (fun ch => ((List.range 16).filter (fun v =>
      (List.range 4).any (fun i => s.populated ch (4 * v + i)))).map (fun v => Out.nand ch v 0xD9))
    { s with out := s.out ++ l }))

/-- Temperature class of a channel's timing set (Table REL-4): TEMP_EDGES below the temperature. -/
def State.tempClass (s : State) (ch : Nat) (degc : Int) : Nat :=
  ((List.range 7).filter (fun c => sgnByte (s.ringT ch (8 + c) 1) < degc)).length

/-- Sets the temperature class of the LUNs of a volume. -/
def State.setTemp (s : State) (ch vol : Nat) (degc : Int) : State :=
  let t := s.tempClass ch degc
  (List.range 4).foldl (fun s i =>
    if s.populated ch (4 * vol + i) then s.updLun ch (4 * vol + i) (fun l => { l with temp := t }) else s) s

/-- NAND_TEMPERATURE_READ (R350): Get Features at TEMP_FEAT has given the temperature of a volume, once per second. -/
def execNandTemperatureRead (ch vol : Nat) (degc : Int) (s : State) : Res :=
  .next (s.when (s.owned (grpOf ch) && s.ringT ch 0x006 1 != 0 && s.rd F.MED_CH_STAT_STATE (dieOf ch) (ch % 128) == 1)
    (fun s => s.setTemp ch vol degc))

/-! ### Retries (R442 to R448) -/

/-- RETRY_BACKOFF_EXPIRES (R443, R448): the backoff of an operation ends and it is tried again; a training's retry ends with
the verdict given. While PFAIL_N is low nothing is retried. -/
def execRetryBackoffExpires (r : RetryOf) (s : State) : Res :=
  .next (s.when (!s.lve.pfLow) (fun s => match r with
    | .task n => s.retryTask n
    | .media id step => (s.retryOp id step).placeAll.rawFlush
    | .channel ch ok =>
      if (s.chan ch).backoff then (s.bump F.MED_CH_RETRAINS 1 (dieOf ch) (ch % 128)).trainEnd ch ok else s
    | .skidway key => s.retrySkid key))

end Sys2Proof.Machine
end

