-- ==== Sys2Proof/Machine/Groups.lean ====
section
/-! DEFINITION. Ownership of channel groups over the MG_OWN wires, bring-up, drain and the ownership keeper (R302 to R306, R328
to R334, R889, R892). -/

namespace Sys2Proof.Machine
open Sys2Proof

/-! ### Wires and drivers -/

/-- Sets the state of a group (Table MED-11); MED_STAT.GROUPS follows. -/
def State.setGst (s : State) (g st : Nat) : State :=
  let s := s.put F.MED_GRP_STAT_STATE st (g / 8) (g % 8)
  s.put F.MED_STAT_GROUPS (((List.range 8).map (fun k => b2n (s.gst (g / 8 * 8 + k) == 5) * 2 ^ k)).sum) (g / 8)

/-- The part pulls the wire low, or releases it. -/
def State.drive (s : State) (g : Nat) (on : Bool) : State := s.flag F.MED_GRP_STAT_DRIVE on (g / 8) (g % 8)

/-- The part pulls the wire. -/
def State.drives (s : State) (g : Nat) : Bool := s.on F.MED_GRP_STAT_DRIVE (g / 8) (g % 8)

/-- The partner has been declared dead and not come back: TAKEOVER or SURVIVOR. -/
def State.partnerDead (s : State) : Bool := s.rd F.LVE_STAT_PAIR == 4 || s.rd F.LVE_STAT_PAIR == 5

/-- Channels of a group. -/
def grpChs (g : Nat) : List Nat := (List.range 16).map (16 * g + ·)

/-- LUNs a channel's image names: 4 × volume + LUN. -/
def State.expLuns (s : State) (ch : Nat) : List Nat :=
  if s.chLoads ch = 0 then []
  else ((List.range 16).filter (bit (s.chVols ch))).flatMap (fun v => (List.range (s.tsLuns ch)).map (4 * v + ·))

/-- Drivers enabled and Reset LUN sent: steps 1 and 2 of a bring-up (R306, R331). -/
def State.driversOn (s : State) (g : Nat) : State :=
  (grpChs g).foldl (fun s ch =>
    let d := dieOf ch
    let j := ch % 128
    if s.chFelled ch ∨ s.chLoads ch = 0 then s
    else
      let s := ((s.put F.MED_CH_STAT_DRV_EN 1 d j).put F.MED_CH_STAT_STATE 2 d j).updChan ch (fun _ => {})
      (s.expLuns ch).foldl (fun s u =>
        ((s.lunReset ch u).put F.MED_LUN_STAT_TMOS 0 d (lunJ ch u)).put F.MED_LUN_STAT_SUSPS 0 d (lunJ ch u)) s) s

/-- Every driver of the group to high impedance. -/
def State.driversOff (s : State) (g : Nat) : State :=
  (grpChs g).foldl (fun s ch =>
    let d := dieOf ch
    let s := s.put F.MED_CH_STAT_DRV_EN 0 d (ch % 128)
    if s.chFelled ch then s else s.put F.MED_CH_STAT_STATE 0 d (ch % 128)) s

/-- LUNs of a group that this part has let go are UNKNOWN; the tables of a group that is no home group go with it. -/
def State.groupGone (s : State) (g : Nat) : State :=
  let s := (grpChs g).foldl (fun s ch => (s.expLuns ch).foldl (fun s u =>
    if s.lunSt ch u = 15 then s else s.putLunSt ch u 0) s) s
  if s.isHome g then s
  else { s with
    med.blocks := Map.keep (fun k _ => grpOf (maCh (2 ^ 16 * k)) != g) s.med.blocks
    med.stripes := Map.keep (fun k _ => k / 2 ^ 24 != g) s.med.stripes
    med.opened := Map.keep (fun k _ => k / 2 != g) s.med.opened }

/-! ### CLAIM (R328, R330, R889) -/

/-- A CLAIM acts in the present state (Table MED-11); outside the rows of the table it is refused. A CLAIM is also a cause to
power up the group's polder (R728). A part whose PFAIL_N is low claims no group (R437). -/
def State.claimOp (s : State) (req : Req) (g : Nat) : State :=
  let s := s.polUp (33 + g)
  let no := s.refuseWrite req (F.MED_GRP_CMD.off (g / 8) (g % 8))
  if s.lve.pfLow then no
  else match s.gst g with
  | 0 => if (s.grp g).releasing then s.updGrp g (fun x => { x with claimPend := true }) else s.setGst g 2
  | 1 => if s.partnerDead then s.setGst g 7 else no
  | 8 => if (s.grp g).otherLow then no else s.setGst g 2
  | _ => no

/-- The pair logic claims a group that it waits for once the group is UNOWNED (R421, R433). -/
def State.claimDue (s : State) (g : Nat) : State :=
  if bit s.lve.claims g ∧ s.gst g = 0 ∧ ¬ s.lve.pfLow then
    { s with lve.claims := setBits s.lve.claims g 1 0 }.claimOp .part g
  else s

/-- CLAIM (R328). -/
def execClaim (req : Req) (g : Nat) (s : State) : Res := 
  .next (s.when (decide (g < 16)) (fun s => s.byReq req (F.MED_GRP_CMD.off (g / 8) (g % 8)) (fun s => s.claimOp req g)))

/-- The part drives its start bit, or joins the one it sees (R329, R330). -/
def State.arbStart (s : State) (g : Nat) : State := ((s.setGst g 3).drive g true).updGrp g (fun x => { x with slot := 0 })

/-- MG_OWN_WIRE_LOW (R889): another driver pulls the wire; `fall` says that its falling edge was seen. -/
def execMgOwnWireLow (g : Nat) (fall : Bool) (s : State) : Res :=
  let s := if g < 16 then s.updGrp g (fun x => { x with otherLow := true }) else s
  .next (s.when (decide (g < 16)) (fun s =>
    match s.gst g with
    | 0 => if s.drives g then s else if fall ∧ (s.grp g).claimPend then s.arbStart g else s.setGst g 1
    | 2 => if fall then s.arbStart g else s
    | 8 => if s.drives g then s else s.setGst g 1
    | _ => s))

/-- MG_OWN_WIRE_HIGH (R889). -/
def execMgOwnWireHigh (g : Nat) (s : State) : Res :=
  let s := if g < 16 then s.updGrp g (fun x => { x with otherLow := false }) else s
  .next (s.when (decide (g < 16)) (fun s =>
    if s.gst g = 7 then s.setGst g 2 else s))

/-- MG_OWN_QUIET_TIMER (R328): the wire has been high for 200 µs. -/
def execMgOwnQuietTimer (g : Nat) (s : State) : Res :=
  .next (s.when (decide (g < 16) && !(s.grp g).otherLow && !s.drives g) (fun s =>
    match s.gst g with
    | 1 => (s.setGst g 0).claimDue g
    | 2 => s.arbStart g
    | _ => s))

/-- ARBITRATION_SLOT (R329): one slot, for bit 63 − slot of the die ID; `low` is the sample where the part released. -/
def execArbitrationSlot (g : Nat) (low : Bool) (s : State) : Res :=
  .next (s.when (decide (g < 16) && s.gst g == 3 && decide ((s.grp g).slot < 64)) (fun s =>
    let one := bit s.fuses.dieId (63 - (s.grp g).slot)
    let s := s.drive g (!one)
    if one ∧ low then
      let s := (s.setGst g 1).updGrp g (fun x => { x with otherLow := true })
      (s.bump F.MED_ARB_LOST 1 (g / 8)).post (E.MED_OWN_LOST_ARB (g / 8)) g
    else s.updGrp g (fun x => { x with slot := x.slot + 1 })))

/-- ARBITRATION_COMPLETE (R330): 64 slots without a loss. -/
def execArbitrationComplete (g : Nat) (s : State) : Res :=
  .next (s.when (s.gst g == 3 && (s.grp g).slot == 64) (fun s =>
    ((s.setGst g 4).drive g true).updGrp g (fun x => { x with enablePend := true, otherLow := false })))

/-- DRIVER_ENABLE_DELAY (R331): the media die blocks an enable for a group whose wire the part no longer holds (log entry 209). -/
def execDriverEnableDelay (g : Nat) (s : State) : Res :=
  .next (s.when (decide (g < 16) && (s.grp g).enablePend) (fun s =>
    let t := s.updGrp g (fun x => { x with enablePend := false })
    if s.gst g = 4 ∧ s.drives g then t.driversOn g
    else (t.bump F.MED_BACKSTOP_HITS 1 (g / 8)).post (E.MED_BACKSTOP (g / 8)) (16 * g)))

/-- FORCE_WAIT_EXPIRES (R328): the 2 ms end with the wire low. -/
def execForceWaitExpires (g : Nat) (s : State) : Res :=
  .next (s.when (s.gst g == 7 && (s.grp g).otherLow) (fun s =>
    let s := ((s.setGst g 4).drive g true).put F.MED_GRP_STAT_FORCED 1 (g / 8) (g % 8)
    ((s.bump F.MED_FORCED_CLAIMS 1 (g / 8)).post (E.MED_OWN_FORCED (g / 8)) g).driversOn g))

/-! ### Bring-up (R302 to R305, R309, Table MED-5) -/

/-- A parameter page agrees with the timing set of its channel, and its pages hold the codewords (R302, R339). -/
def State.pageFits (s : State) (ch : Nat) (p : ParamPage) : Bool :=
  p.dataBytes == 4096 * s.tsSectors ch && p.planes == s.tsPlanes ch && p.pages == s.tsPages ch && p.blocks == s.tsBlocks ch
    && p.luns == s.tsLuns ch && decide (s.tsSectors ch * s.storedLen ch ≤ p.dataBytes + p.spare)

/-- A channel at the end of its bring-up. -/
def State.chanUp (s : State) (ch : Nat) (c : ChanUp) : State :=
  let d := dieOf ch
  let j := ch % 128
  if s.chLoads ch = 0 ∨ s.chFelled ch then s
  else if ¬ c.up then s.fellChannel ch
  else
    let s := if c.cold then s.post (E.MED_CHANNEL_COLD d) ch else s
    let cold := c.cold || s.med.cold.contains ch
    let s : State := { s with med.cold := s.med.cold.filter (· ≠ ch) }
    let s := (s.expLuns ch).foldl (fun s u =>
      let pg := c.params.lookup u
      let ok := c.luns.contains u && (!cold || pg.any (s.pageFits ch))
      let s := s.updLun ch u (fun l =>
        { l with absent := !ok, offsets := none, lunBit := match pg with
          | some p => p.lunBit
          | none => l.lunBit })
      if ok then (if s.lunSt ch u = 15 then s else s.putLunSt ch u 2)
      else if cold then (s.putLunSt ch u 0).post (E.MED_LUN_MISMATCH d) ch (mkMaddr ch (u / 4) (u % 4) 0 0 0 0)
      else s.putLunSt ch u 0) s
    let vols := ((List.range 16).filter (fun v => (List.range 4).any (fun i => s.populated ch (4 * v + i)))).length
    ((s.put F.MED_CH_STAT_VOLS vols d j).put F.MED_CH_STAT_RATE_NOW (s.rateNow ch) d j).put F.MED_CH_STAT_STATE 1 d j
      |>.put F.MED_CH_TRAIN_FAILS 0 d j |>.updChan ch (fun c => { c with trainedAt := s.cfg.temps.getD (5 + d) none })

/-- The block table and the stripes of a group as its media shows them, where the part holds none. -/
def State.groupTables (s : State) (g : Nat) (b : BringUp) : State :=
  if s.med.blocks.any (fun e => grpOf (maCh (2 ^ 16 * e.1)) == g) || s.med.stripes.any (fun e => e.1 / 2 ^ 24 == g) then s
  else
    let s := (b.blocks.filter (fun x => grpOf (maCh x.addr) == g)).foldl (fun s x =>
      s.updBte x.addr (fun t => { t with st := x.st % 8, landing := x.landing })) s
    let s := (b.stripes.filter (fun x => x.key / 2 ^ 24 == g)).foldl (fun s x =>
      let ms := x.members.map Prod.fst
      let s := x.members.foldl (fun s m =>
        s.updBte m.1 (fun t => { t with valid := m.2, st := if t.st < 6 then (if x.refuge then 5 else if x.degraded then 3 else 2) else t.st })) s
      let rows := s.tsPages (maCh (ms.headD 0))
      let s := s.updStripe x.key (fun _ =>
        { st := if x.refuge then .refuge else if x.degraded then .degraded else .closed, slc := x.refuge, cls := x.cls, members := ms, erases := x.erases, row := rows })
      if x.degraded then s.rebuildTask x.key else s) s
    s.countDegraded.wearStats g

/-- FACTORY_MARK of a die: pages that carry the factory mark. -/
def State.factoryMark (s : State) (die : Nat) : Nat := s.relHdr die 0x12 1 5

/-- Every mark position that FACTORY_MARK names reads 0xFF. -/
def marksClear (fm : Nat) (b : MarkLook) : Bool := (List.range 3).all (fun i => !bit fm i || b.marks.getD i 0xFF == 0xFF)

/-- A block that counts as good for the anchor search (R377). -/
def searchGood (fm : Nat) (b : MarkLook) : Bool := b.decodes || marksClear fm b

/-- The anchor search: the first four good blocks of the group's first channel become the two anchor blocks and the two
defect-log blocks (R377). -/
def State.anchorSearch (s : State) (g : Nat) (b : BringUp) : State :=
  let good := (b.search.zipIdx.filter (fun x => searchGood (s.factoryMark (g / 8)) x.1)).map Prod.snd
  let l := (good.take 4).map (fun n => mkMaddr (16 * g) 0 0 0 n 0 0)
  l.foldl (fun s a => s.updBte a (fun t => { t with st := 5 })) (s.updGrp g (fun x => { x with anchors := l }))

/-- The factory scan of a group without a factory defect table: marked blocks are BAD, and the table goes to the defect-log blocks
(R376). -/
def State.factoryScan (s : State) (g : Nat) (b : BringUp) : State :=
  match b.scan with
  | none => s
  | some l =>
    let bad := (l.filter (fun x => grpOf (maCh x.1) == g && !marksClear (s.factoryMark (g / 8)) x.2)).map Prod.fst
    let s := bad.foldl (fun s a => s.updBte a (fun t => { t with st := 7 })) s
    ((s.grp g).anchors.drop 2).foldl (fun s a =>
      s.enqueue { kind := .prog, addr := a, prio := s.iprio 0x10, who := .mark, slc := true }) s

/-- WIDE applies only while both groups of a pair are home groups (R372). -/
def State.wideCheck (s : State) (g : Nat) : State :=
  let marked := bit (bytesAt (s.med.ring.getD (g / 8) 0) 0 2) (8 * (g / 8) + g % 8 / 2)
  if marked ∧ ¬ s.wide g ∧ s.isHome g ∧ ¬ s.med.wideRefused then
    { s with med.wideRefused := true }.post (E.MED_WIDE_REFUSED (g / 8)) g
  else s

/-- Every channel of group `g` is up or felled: the group is OWNED. -/
def State.groupUp (s : State) (g : Nat) (b : BringUp) : State :=
  let s := (grpChs g).zipIdx.foldl (fun s c => s.chanUp c.1 (b.chans.getD c.2 {})) s
  let s := ((((s.setGst g 5).groupTables g b).anchorSearch g b).factoryScan g b)
  let s := (s.post (E.MED_GROUP_OWNED (g / 8)) g).wideCheck g
  (s.refillReserve.gcCheck g).placeAll.rawFlush

/-! ### Loss and release (R332, R334, R889) -/

/-- OWN_WIRE_FAULT (R328): the wire is high although the part pulls it. -/
def execOwnWireFault (g : Nat) (s : State) : Res :=
  .next (s.when (s.gst g == 4 || s.gst g == 5) (fun s =>
    let s := ((s.driversOff g).setGst g 8).drive g false
    (s.updGrp g (fun x => { x with otherLow := false })).post (E.MED_OWN_WIRE_FAULT (g / 8)) g))

/-- Longest time an operation can still take, ns (Table MED-4, R888). -/
def State.opLeft (s : State) (o : Op) : Nat :=
  let ch := maCh o.addr
  let mx := match o.kind with
    | .read => s.ts ch 0x08 4
    | .prog => 1000 * s.ts ch 0x0C 4
    | .erase => 1000 * s.ts ch 0x10 4
    | .raw => 1000 * o.raw.tmo
  mx - (o.ran + (s.time - o.resumed))

/-- The owner of a group drains it (R334): suspended operations resume, those that need more than 3 ms are aborted. -/
def State.releaseOp (s : State) (req : Req) (g : Nat) : State :=
  if ¬ s.owned g then s.refuseWrite req (F.MED_GRP_CMD.off (g / 8) (g % 8))
  else
    let s := (s.setGst g 6).cancelUndercuts (fun o => grpOf (maCh o.addr) == g)
    (grpChs g).foldl (fun s ch => (s.expLuns ch).foldl (fun s u =>
      let s := s.lunResume ch u
      if (s.lun ch u).cur.any (fun o => decide (3000000 < s.opLeft o)) then s.lunReset ch u else s) s) s

/-- RELEASE (R334). -/
def execRelease (req : Req) (g : Nat) (s : State) : Res := 
  .next (s.when (decide (g < 16)) (fun s => s.byReq req (F.MED_GRP_CMD.off (g / 8) (g % 8)) (fun s => s.releaseOp req g)))

/-- Nothing of a group is in flight. -/
def State.groupQuiet (s : State) (g : Nat) : Bool :=
  (grpChs g).all (fun ch => (s.expLuns ch).all (fun u =>
    (s.lun ch u).cur.isEmpty && (s.lun ch u).susp.isEmpty && s.lunSt ch u != 1))
    && s.med.reads.all (fun r => !(r.stage == 0 && grpOf (maCh r.op.addr) == g))

/-- A returned group goes UNOWNED: HANDBACK_GRANT tells the joining part (Table LVE-9, step 4). -/
def State.handGrant (s : State) (g : Nat) : State :=
  if s.rd F.LVE_STAT_PAIR = 6 ∧ bit s.lve.foreign g ∧ s.lve.hbStage = 4 then
    { s with lve.foreign := setBits s.lve.foreign g 1 0 }.send (.handbackGrant (2 ^ g))
  else s

/-- A drain ends: drivers off, the wire held 10 µs longer. -/
def State.drainDone (s : State) (g : Nat) : State :=
  let s := ((s.driversOff g).setGst g 0).put F.MED_GRP_STAT_FORCED 0 (g / 8) (g % 8)
  ((s.groupGone g).updGrp g (fun x => { x with releasing := true })).handGrant g

/-- GROUP_DRAIN_END (R334). -/
def execGroupDrainEnd (g : Nat) (s : State) : Res :=
  .next (s.when (s.gst g == 6 && s.groupQuiet g) (fun s => s.drainDone g))

/-- What still runs on a group when its drain takes too long: busy LUNs are reset, and reads in decoding are asked again
(R334). -/
def State.drainCut (s : State) (g : Nat) : State :=
  let s := (grpChs g).foldl (fun s ch => (s.expLuns ch).foldl (fun s u =>
    if (s.lun ch u).cur.isEmpty && (s.lun ch u).susp.isEmpty then s else s.lunReset ch u) s) s
  let l := s.med.reads.filter (fun r => r.stage == 0 && grpOf (maCh r.op.addr) == g)
  l.foldl (fun s r => (s.dropRead r).enqueue r.op) s

/-- GROUP_DRAIN_TIMEOUT (R334): what is left goes back to its producers. -/
def execGroupDrainTimeout (g : Nat) (s : State) : Res :=
  .next (s.when (s.gst g == 6) (fun s => (s.drainCut g).drainDone g))

/-- WIRE_RELEASE_DELAY (R889): the wire is released and its level judged; a held CLAIM acts. -/
def execWireReleaseDelay (g : Nat) (s : State) : Res :=
  .next (s.when (s.gst g == 0 && (s.grp g).releasing) (fun s =>
    let x := s.grp g
    let s := (s.drive g false).updGrp g (fun x => { x with releasing := false, claimPend := false })
    let s := if x.otherLow then s.setGst g 1 else s
    if x.claimPend then s.claimOp .part g else s))

/-- The drivers of a die go to high impedance and its wires are released (R332). -/
def State.keeperDie (s : State) (die : Nat) : State :=
  ((List.range 8).map (8 * die + ·)).foldl (fun s g =>
    let s := s.driversOff g
    if s.drives g || s.gst g == 3 then
      let low := (s.grp g).otherLow
      let s := ((s.setGst g (if low then 1 else 0)).drive g false).put F.MED_GRP_STAT_FORCED 0 (g / 8) (g % 8)
      (s.updGrp g (fun x => { x with releasing := false, claimPend := false })).groupGone g
    else s) (s.put F.MED_STAT_KEEPER 0 die)

/-- The keepers of both dies trip, LEAVING goes out with the reason given, and the part stops (R419, R892). -/
def State.keeperStop (s : State) (die reason : Nat) : State :=
  let s := (s.keeperDie die).sendAll (.leaving reason)
  { s with lve.stopped := true }

/-- KEEPER_TRIP (R332, R892): the hub has not refreshed the keeper of a die for 100 µs. -/
def execKeeperTrip (die : Nat) (s : State) : Res :=
  .next (s.when (decide (die < 2) && s.on F.MED_STAT_KEEPER die) (fun s => s.keeperStop die 3))

end Sys2Proof.Machine
end

