-- ==== Sys2Proof/Machine/Pair.lean ====
section
/-! DEFINITION. The pair: rebuild of a map, pair states, resynchronisation, takeover, hand-back and power failure (R231, R233
to R240, R385, R386, R388 to R391, R418 to R438, R884, R891 to R895). -/

namespace Sys2Proof.Machine
open Sys2Proof

/-! ### Masks of groups -/

/-- Mask of the groups that satisfy a test. -/
def maskOf (p : Nat → Bool) : Nat := ((List.range 16).map (fun g => b2n (p g) * 2 ^ g)).sum

/-- Groups of a mask. -/
def groupsOf (m : Nat) : List Nat := (List.range 16).filter (bit m)

/-- Groups this part owns. -/
def State.heldMask (s : State) : Nat := maskOf s.owned

/-- Home groups of this part. -/
def State.homeMask (s : State) : Nat := maskOf s.isHome

/-- LVE_STAT.PAIR: 0 TRAINING, 1 SOLO, 2 RESYNC, 3 PAIRED, 4 TAKEOVER, 5 SURVIVOR, 6 HANDBACK. -/
def State.pair (s : State) : Nat := s.rd F.LVE_STAT_PAIR

/-- Sets the pair state. -/
def State.putPair (s : State) (p : Nat) : State := s.put F.LVE_STAT_PAIR p

/-- Die ID of the partner. -/
def State.partnerId (s : State) : Nat := s.rd64 F.LVE_PARTNER_ID_LO F.LVE_PARTNER_ID_HI

/-- Sets the home groups. -/
def State.putHome (s : State) (m : Nat) : State :=
  (List.range 16).foldl (fun s g => s.flag F.MED_GRP_STAT_HOME (bit m g) (g / 8) (g % 8)) s

/-! ### Tracts and records of a series (Tables TLY-8 and TLY-9) -/

/-- A tract with its place in the own half or the foreign half of the map space. -/
def TractIn.tract (x : TractIn) (foreign : Bool) (st was : TState) : Tract :=
  let t : Tract := { st := st, blk := x.blk, iu := x.iu, cap := x.cap, kid := x.kid, owner := x.owner
                     mpn := x.mpn % 2 ^ 26 + (if foreign then 2 ^ 26 else 0), was := was }
  { t with pages := mapPages t.entries }

/-- Fields of a TRACT_SET record. -/
def recTract (r : JRec) : TractIn :=
  { id := r.tract, st := bits r.arg1 60 4, blk := bits r.arg1 36 1, iu := bits r.arg1 32 4, cap := bits r.arg0 0 60
    kid := bits r.arg1 40 8, owner := bits r.arg1 48 9, mpn := bits r.arg1 0 27 }

/-- Records of atomic groups that lack their GROUP_END are skipped (R235). -/
def closedGroups : List (Nat × JRec) → List (Nat × JRec) → List (Nat × JRec)
  | _, [] => []
  | buf, r :: l =>
    if ¬ bit r.2.flags 0 then r :: closedGroups [] l
    else if bit r.2.flags 1 then buf ++ r :: closedGroups [] l
    else closedGroups (buf ++ [r]) l

/-- Map pages that a record touches. -/
def State.recPages (s : State) (r : JRec) : List Nat :=
  let tr := s.tract (r.tract + (if bit r.flags 2 then 4096 else 0))
  match r.ty with
  | 0x01 => [tr.page r.arg0]
  | 0x0A => [tr.page r.arg0]
  | 0x02 =>
    let n := r.arg1 % 2 ^ 40
    if n = 0 then []
    else (List.range ((r.arg0 + n - 1) / 2048 + 1 - r.arg0 / 2048)).map (tr.mpn + r.arg0 / 2048 + ·)
  | _ => []

/-- A record waits for each page it touches, whose directory entry shows REPLAY (R233). A TRIM of a whole page leaves it FRESH,
and the records before it count no more (R221); a page written to flash lies at its new place. -/
def State.indexRec (s : State) (x : Nat × JRec) : State :=
  if x.2.ty = 0x03 then
    let p := x.2.arg0
    { s with tly.dir := Map.upd {} s.tly.dir p (fun d => { d with flash := x.2.arg1, fresh := false }) }.dirChanged p
  else
    let tr := s.tract (x.2.tract + (if bit x.2.flags 2 then 4096 else 0))
    (s.recPages x.2).foldl (fun s p =>
      if x.2.ty = 0x02 ∧ tr.coversPage x.2.arg0 (x.2.arg1 % 2 ^ 40) (p - tr.mpn) then
        { s with
          tly.replay := Map.erase s.tly.replay p
          tly.dir := Map.upd {} s.tly.dir p (fun d => { d with replay := false, fresh := true, flash := 0 }) }.dirChanged p
      else
        { s with
          tly.replay := Map.upd [] s.tly.replay p (· ++ [x])
          tly.dir := Map.upd {} s.tly.dir p (fun d => { d with replay := true }) }) s

/-! ### Anchors and refuges on flash (R231, R236, R385, R386, R426) -/

/-- Bytes of an anchor record that its CRC-32C covers: number, root, CKPT_BEGIN SEQ and die ID, 8 bytes each (log entry 194). -/
def Anchor.body (a : Anchor) : List Nat :=
  toBytes 8 a.num ++ toBytes 8 a.root ++ toBytes 8 a.begin_ ++ toBytes 8 a.dieId

/-- An anchor record with its CRC-32C. -/
def Anchor.seal (a : Anchor) : Anchor := { a with crc := crc32c 32 (ofBytes (Anchor.body a)) }

/-- The newest anchor record of a part whose CRC verifies (R236, R238). -/
def newestAnchor (die : Nat) (l : List Anchor) : Option Anchor :=
  (l.filter (fun a => Anchor.seal a == a && a.dieId == die)).foldl (fun o a => match o with
    | none => some a
    | some b => if b.num < a.num then some a else some b) none

/-- Bytes of a refuge's header page that its CRC-32C covers: MAGIC in 4, die ID, RSEQ and IU count in 8 each (log entry 206). -/
def RefugePage.body (p : RefugePage) : List Nat :=
  toBytes 4 p.magic ++ toBytes 8 p.dieId ++ toBytes 8 p.rseq ++ toBytes 8 p.count

/-- A header page with its CRC-32C. -/
def RefugePage.seal (p : RefugePage) : RefugePage := { p with crc := crc32c 28 (ofBytes (RefugePage.body p)) }

/-- A header or completion page of a part's refuge verifies. -/
def RefugePage.ok (p : RefugePage) (die : Nat) : Bool := p.magic == 0x52464745 && p.dieId == die && RefugePage.seal p == p

/-- Manifest entry of an IU: 8 bytes of tract, FOREIGN and IU index (R385, log entry 206). -/
def refugeEntry (t iu : Nat) : Nat := tractId t + 2 ^ 12 * b2n (decide (4096 ≤ t)) + 2 ^ 16 * (iu % 2 ^ 48)

/-- FOREIGN of a manifest entry. -/
def refForeign (e : Nat) : Bool := bit e 12
/-- Tract key of a manifest entry. -/
def refTract (e : Nat) : Nat := bits e 0 12 + 4096 * b2n (refForeign e)
/-- IU index of a manifest entry. -/
def refIu (e : Nat) : Nat := bits e 16 48

/-- A refuge of a part is complete: header and completion page verify with equal RSEQ (R386). -/
def Refuge.complete (f : Refuge) (die : Nat) : Bool :=
  RefugePage.ok f.header die && (match f.last with
    | some p => RefugePage.ok p die && p.rseq == f.header.rseq
    | none => false)

/-- The complete refuges of a part by rising RSEQ. -/
def refugesOf (die : Nat) (l : List Refuge) : List Refuge :=
  let ins (f : Refuge) (r : List Refuge) : List Refuge :=
    r.filter (fun x => decide (x.header.rseq < f.header.rseq)) ++ f :: r.filter (fun x => decide (f.header.rseq ≤ x.header.rseq))
  (l.filter (fun f => Refuge.complete f die)).foldr ins []

/-! ### Index of a rebuild (R233) -/

/-- Root, directory and records of a rebuild, by page (R233). -/
def State.indexMap (s : State) (r : RebuildIn) (rootAt : Nat) (recs : List (Nat × JRec)) (base : Nat) : State :=
  let s := r.dir.foldl (fun s d =>
    { s with tly.dir := Map.set {} s.tly.dir (d.1 % 2 ^ 26 + base) { flash := d.2, fresh := false } }) s
  let s := (closedGroups [] recs).foldl State.indexRec s
  let s := r.mapped.foldl (fun s d =>
    { s with tly.dir := Map.upd {} s.tly.dir (d.1 % 2 ^ 26 + base) (fun x => { x with mapped := d.2 }) }) s
  let s : State := { s with
    tly.root := r.root.foldl (fun m d => Map.set 0 m (d.1 % 2 ^ 15 + base / 2048) d.2) s.tly.root
    tly.rootAt := s.tly.rootAt.set (if base = 0 then 0 else 1) rootAt }
  s.flag F.TLY_STAT_REPLAY_PENDING (!s.tly.replay.isEmpty)

/-- A line returns to the write buffer as acknowledged dirty data: restored from a refuge, or taken over (R386, R425). -/
def State.restoreLine (s : State) (t iu : Nat) (data : List (Nat × Blk)) (replay lost : Bool) : State :=
  let tr := s.tract t
  let b := s.tly.bseq
  let l : Line := { tract := t, iu := iu, kid := tr.kid, data := data, bytes := data.length * tr.blkBytes
                    mirrored := !s.mirroring, acked := true, ackNo := s.tly.acks, replay := replay, lost := lost,
                    off := (s.lineRoom t (data.headD (0, .poison)).1
                      ((data.getLastD (0, .poison)).1 + 1 - (data.headD (0, .poison)).1)).getD 0 }
  let s := { s with tly.lines := Map.set none s.tly.lines b (some l), tly.bseq := b + 1, tly.acks := s.tly.acks + 1 }.sealBuf 0 l l.data
  let s := (s.ownLines t iu).foldl (fun s y => if y.1 < b ∧ y.2.acked then s.supersede y.1 b else s) s
  if s.mirroring then s.mirrorLine b false else s

/-! ### RESYNC (R430, R890, R891) -/

/-- RESYNC JOURNAL messages: every own record from the CKPT_BEGIN of the last completed checkpoint on, 2,055 to a message. -/
def journalMsgs : Nat → List (Nat × JRec) → List Msg
  | 0, _ => []
  | n + 1, l =>
    match l with
    | [] => []
    | x :: _ => .journal x.1 ((l.take 2055).map Prod.snd) true :: journalMsgs n (l.drop 2055)

/-- Sends the own journal for RESYNC. Where it holds no record yet, an empty message names the start of the series. -/
def State.resyncJournal (s : State) : State :=
  let l := s.tly.jr.filterMap (fun e => match e.2 with
    | some r => if s.tly.ckLast ≤ e.1 then some (e.1, r) else none
    | none => none)
  let q := match l with
    | x :: _ => x.1
    | [] => s.jseq
  let s : State := { s with lve.rsStart := q, tly.jMir := min s.tly.jMir (q - 1) }
  let ms := if l = [] then [.journal q [] true] else journalMsgs l.length l
  ms.foldl State.send s

/-- A hand-back starts: the foreign tracts are FROZEN again (Table LVE-9, step 1). -/
def State.handbackBegin (s : State) : State :=
  let s : State := { s.putPair 6 with
    lve.hbGroups := s.lve.foreign, lve.hbStage := 2
    tly.tracts := Map.mapAll {} (fun k t =>
      if 4096 ≤ k then t.freeze else t) s.tly.tracts }
  s.send (.handbackReq s.lve.foreign)

/-- At the first PAIRED the part with the lower die ID takes the groups that are in neither home set (R95). -/
def State.firstPaired (s : State) : State :=
  if s.lve.pairedOnce then s
  else
    let s : State := { s with lve.pairedOnce := true }
    let theirs := match s.lve.pHome with
      | some m => m
      | none => 0xFFFF - s.homeMask
    if s.partnerId ≤ s.fuses.dieId then s
    else ((List.range 16).filter (fun g => !s.isHome g && !bit theirs g)).foldl (fun s g =>
      let s := s.flag F.MED_GRP_STAT_HOME true (g / 8) (g % 8)
      let s : State := { s with lve.claims := setBits s.lve.claims g 1 1 }
      (s.claimDue g).post (E.MED_HOME_UNASSIGNED (g / 8)) g) s

/-- Both parts have sent RESYNC_DONE: PAIRED, and a hand-back where foreign groups are held (R388, R433). -/
def State.pairedCheck (s : State) : State :=
  if s.pair = 2 ∧ s.lve.rsSent ∧ s.lve.rsRcvd then
    let s := (s.putPair 3).firstPaired
    if s.lve.foreign ≠ 0 ∧ s.on F.LVE_CTL_AUTO_HANDBACK then s.handbackBegin else s
  else s

/-- RESYNC_DONE goes out once every RESYNC message has been started; a part whose own map is not usable yet has its journal
still to send. -/
def State.rsCheck (s : State) : State :=
  if s.pair = 2 ∧ s.tly.usable ∧ ¬ s.lve.rsSent ∧ ¬ s.lve.txq.any (fun x => msgYields x.2) ∧ s.anyActive then
    ({ s with lve.rsSent := true }.send (.resyncDone (s.tly.bseq - 1) (s.jseq - 1))).pairedCheck
  else s

/-- RESYNC begins: the mirror ring is taken up afresh, the upper half too unless foreign groups are held, and the own
dirty lines and journal are sent (R430, R891, R893). -/
def State.resyncStart (s : State) : State :=
  let left := s.tly.lines.filterMap (fun e => match e.2 with
    | some l => if l.dirty then some e.1 else none
    | none => none)
  let s : State := { s.putPair 2 with
    lve.rsSent := false, lve.rsRcvd := false, lve.rsLeft := left
    tly.lines := Map.mapAll none (fun _ (o : Option Line) => o.map (fun l => { l with sent := false })) s.tly.lines
    tly.mring := [], tly.mStart := 0, tly.mAck := 0
    tly.flines := if s.lve.foreign = 0 then [] else s.tly.flines }
  let s := if s.tly.usable then s.resyncJournal else s
  (left.foldl (fun s b => s.mirrorLine b true) s).rsCheck

/-! ### Link lost (R388, R420, R427) -/

/-- A group that this part has claimed and no longer wants: released by the drain of R334, or let go before it is owned. -/
def State.unclaim (s : State) (g : Nat) : State :=
  let s : State := { s with lve.claims := setBits s.lve.claims g 1 0 }
  let st := if (s.grp g).otherLow then 1 else 0
  match s.gst g with
  | 5 => s.releaseOp .part g
  | 2 => s.setGst g st
  | 3 => (s.drive g false).setGst g st
  | 4 => ((s.driversOff g).setGst g st |>.drive g false |>.groupGone g).updGrp g (fun x => { x with enablePend := false })
  | 7 => s.setGst g 1
  | _ => s

/-- The link is silent while the wire lives: SOLO, or SURVIVOR while foreign groups are held. In HANDBACK the groups already
released are left to the partner; foreign tracts leave FROZEN where none has been. -/
def State.linkLost (s : State) : State :=
  if s.pair = 2 ∨ s.pair = 3 then
    ((s.putPair (if s.lve.foreign = 0 then 1 else 5)).goSolo).post E.LVE_LINK_LOST
  else if s.pair = 6 then
    let s := (s.putPair 5).goSolo
    let s := if s.lve.foreign = s.lve.hbGroups then s.thawTracts true else s
    { s with lve.hbGroups := 0, lve.hbStage := 0 }
  else s

/-! ### Takeover (R418 to R425) -/

/-- Commands that name a foreign tract complete with INVALID_FIELD, FIELD 4, and the foreign half is freed (R422, R434). -/
def State.dropForeign (s : State) : State :=
  let s := s.qqp.cmds.foldl (fun s e => match e.2 with
    | some c =>
      if s.anyTractOf c (fun t _ => decide (4096 ≤ t)) ∧ c.received ∧ ¬ c.ended then s.failCmd e.1 0x03 2 0 4 else s
    | none => s) s
  { s.put F.TLY_STAT_FOREIGN 0 with
    tly.tracts := Map.keep (fun k _ => decide (k < 4096)) s.tly.tracts
    tly.frames := Map.keep (fun p _ => decide (p < 2 ^ 26)) s.tly.frames
    tly.ent := Map.keep (fun k _ => decide (k / 2048 < 2 ^ 26)) s.tly.ent
    tly.dir := Map.keep (fun p _ => decide (p < 2 ^ 26)) s.tly.dir
    tly.replay := Map.keep (fun p _ => decide (p < 2 ^ 26)) s.tly.replay
    tly.loads := Map.keep (fun p _ => decide (p < 2 ^ 26)) s.tly.loads
    tly.dcache := Map.mapAll [] (fun _ l => l.filter (fun p => decide (p < 2 ^ 26))) s.tly.dcache
    tly.root := Map.keep (fun d _ => decide (d < 2 ^ 15)) s.tly.root
    tly.rootAt := s.tly.rootAt.set 1 0
    tly.ckDirs := s.tly.ckDirs.filter (fun d => decide (d < 2 ^ 15))
    tly.ckDirtied := s.tly.ckDirtied.filter (fun p => decide (p < 2 ^ 26))
    tly.pre := s.tly.pre.filter (fun x => decide (x.1 < 4096))
    tly.streams := Map.keep (fun _ x => decide (x.tract < 4096)) s.tly.streams
    tly.lastBseq := Map.keep (fun k _ => decide (k / 2 ^ 40 < 4096)) s.tly.lastBseq
    lve.foreign := 0, lve.tkGroups := 0, lve.mapStep := false, lve.replaying := false }

/-- The map step begins once the last of the partner's groups is OWNED (Table LVE-7, step 3). -/
def State.takeoverStep (s : State) : State :=
  if s.pair = 4 ∧ ¬ s.lve.mapStep ∧ (groupsOf s.lve.tkGroups).all s.owned then
    { s with lve.mapStep := true, lve.foreign := s.lve.tkGroups }.put F.TLY_STAT_FOREIGN 1
  else s

/-- Groups the partner held: as its last HEARTBEAT or IDENT said; before any, every group that is no home group. -/
def State.partnerGroups (s : State) : Nat :=
  maskOf (fun g => !s.owned g && (if s.lve.linkSeen || s.lve.everActive then bit s.lve.pGroups g else !s.isHome g))

/-- The partner is declared dead: writes go on alone, its tracts appear FROZEN, its groups are claimed (R421, Table LVE-7). -/
def State.takeover (s : State) : State :=
  let tk := s.partnerGroups
  let s := ((s.put F.LVE_STAT_DEAD 1).putPair 4).post E.LVE_PARTNER_DEAD tk
  let s : State := { s with lve.deathAt := s.time, lve.tkGroups := tk, lve.mapStep := false, lve.replaying := false }
  let s := s.goSolo
  let s := s.lve.pTracts.foldl (fun s e =>
    if e.2.st = .absent then s
    else s.setTract (4096 + e.1) { e.2.freeze with mpn := e.2.mpn % 2 ^ 26 + 2 ^ 26 }) s
  let s := (groupsOf tk).foldl (fun s g =>
    if s.gst g = 0 ∨ s.gst g = 8 ∨ (s.on F.LVE_CTL_FORCE_EN ∧ s.gst g = 1 ∧ (s.grp g).otherLow) then s.claimOp .part g
    else { s with lve.claims := setBits s.lve.claims g 1 1 }) s
  s.takeoverStep

/-- The pair states from which a death is declared. -/
def State.mayDeclare (s : State) : Bool := decide (s.pair ≤ 3) && !s.lve.pfLow && !s.lve.stopped && s.cfg.done

/-- DEATH_DECLARED (R418, R894): both signals silent once one has been seen alive, or the wire silent after LEAVING. -/
def execDeathDeclared (s : State) : Res :=
  .next (s.when (s.mayDeclare && !s.on F.LVE_STAT_WIRE_ALIVE
      && (s.lve.leaving || (!s.on F.LVE_STAT_LINK_ALIVE && (s.lve.wireSeen || s.lve.linkSeen)))) (fun s => s.takeover))

/-- ORPHAN_TIMEOUT (R418): no edge and no ACTIVE bundle since CFG_DONE for LVE_ORPHAN seconds. -/
def execOrphanTimeout (s : State) : Res :=
  .next (s.when (s.mayDeclare && s.rd F.LVE_ORPHAN != 0 && !s.lve.wireSeen && !s.lve.everActive) (fun s => s.takeover))

/-- Groups of the takeover whose wire is still low. -/
def State.lowGroups (s : State) : Nat := maskOf (fun g => bit s.lve.tkGroups g && (s.grp g).otherLow && !s.drives g)

/-- TAKEOVER_WITHDRAW (R422): 10 ms after the declaration a partner group's wire is still low. -/
def execTakeoverWithdraw (s : State) : Res :=
  .next (s.when (s.pair == 4 && !s.on F.LVE_CTL_FORCE_EN && s.lowGroups != 0) (fun s =>
    let low := s.lowGroups
    let s := (groupsOf s.lve.tkGroups).foldl State.unclaim s
    (s.dropForeign.putPair 1).post E.LVE_TAKEOVER_ABORTED low))

/-- GROUP_BRINGUP_DONE (R306, R328): every channel of group `g` is up or felled. -/
def execGroupBringupDone (g : Nat) (b : BringUp) (s : State) : Res :=
  .next (s.when (decide (g < 16) && s.gst g == 4 && !(s.grp g).enablePend && s.polSt (33 + g) == 0) (fun s =>
    (s.groupUp g b).takeoverStep))

/-- Lines of the partner become own lines of the foreign tracts, oldest first; a kept line that was lost is destaged poisoned
(R425, R462). -/
def State.takeLines (s : State) : State :=
  let l := s.tly.flines.filterMap (fun e => e.2)
  let s := l.foldl (fun s x => s.restoreLine (4096 + x.tract % 4096) x.iu x.data true x.lost) { s with tly.flines := [] }
  s.tly.lines.foldl (fun s e => match e.2 with
    | some x => if x.replay ∧ x.lost ∧ x.superBy.isNone then s.post E.LVE_HEAL_LOST (tractId x.tract) x.iu else s
    | none => s) s

/-- A REPLAY_FOREIGN task for each foreign line that replay keeps. -/
def State.replayTasks (s : State) : State :=
  s.tly.lines.foldl (fun s e => match e.2 with
    | some x =>
      if x.replay ∧ x.superBy.isNone ∧ ¬ x.tasked then
        let t : Task := { kind := 0x15, internal := true, prio := s.iprio 0x15, pool := 0, epoch := s.rd F.GLB_EPOCH_NEXT
                          payload := e.1 }
        (s.addTask t).updLine e.1 (fun l => { l with tasked := true })
      else s
    | none => s) s

/-- The checkpoint of the partner that a takeover starts from (R238): the newest CKPT_END in the mirror ring, with the SEQ of its
CKPT_BEGIN there; else the newest anchor record on the partner's home groups (log entry 208). -/
def State.foreignAnchor (s : State) (r : RebuildIn) : Anchor :=
  let recs := s.tly.mring.filterMap (fun e => e.2.map (fun x => (e.1, x)))
  match ((recs.filter (fun x => x.2.ty == 0x05)).getLast?).map Prod.snd with
  | some x =>
    { num := x.arg0, root := x.arg1, dieId := s.partnerId
      begin_ := ((recs.find? (fun y => y.2.ty == 0x04 && y.2.arg0 == x.arg0)).map Prod.fst).getD s.tly.mStart }
  | none => (newestAnchor s.partnerId r.anchors).getD { dieId := s.partnerId }

/-- The partner's map is usable (R424 to R426): its checkpoint and the records of its ring index its map, its lines and its complete
refuges are taken over, its tracts thaw, and the part is a SURVIVOR that replays. -/
def State.foreignMap (s : State) (r : RebuildIn) : State :=
  let a := s.foreignAnchor r
  let recs := s.tly.mring.filterMap (fun e => e.2.bind (fun x =>
    if a.begin_ ≤ e.1 then some (e.1, { x with flags := x.flags ||| 4 }) else none))
  let s := s.indexMap r a.root recs (2 ^ 26)
  let s : State := { s with tly.fNum := a.num, tly.fSeq := max a.begin_ (s.tly.mAck + 1) }
  let s := s.takeLines
  let s := (refugesOf s.partnerId r.refuges).foldl (fun s f => (f.ius.filter (fun x => x.ok && !refForeign x.entry)).foldl (fun s x =>
    s.restoreLine (4096 + refTract x.entry) (refIu x.entry) x.data true false) s) s
  let s := s.thawTracts true
  let s := ((s.putPair 5).bump F.LVE_TAKEOVERS).post E.LVE_TAKEOVER_DONE ((s.time - s.lve.deathAt) / 1000000)
  let mib := s.tly.lines.foldl (fun n e => match e.2 with
    | some x => if x.replay && x.superBy.isNone then n + x.bytes else n
    | none => n) 0
  ({ s with lve.replaying := true, lve.replayedMiB := mib / 2 ^ 20 }.replayTasks).replayNext

/-- FOREIGN_MAP_USABLE (R238, R239, R424 to R426): the map from the partner's checkpoint and the mirror ring, its refuge, and
then its buffered lines to replay. -/
def execForeignMapUsable (r : RebuildIn) (s : State) : Res :=
  .next (s.when (s.pair == 4 && s.lve.mapStep && !s.lve.replaying) (fun s => s.foreignMap r))

/-- Lines of foreign tracts that are still dirty. -/
def State.foreignDirty (s : State) : Bool :=
  s.tly.lines.any (fun e => match e.2 with
    | some x => decide (4096 ≤ x.tract) && x.dirty
    | none => false)

/-- A line that is replayed is still dirty. -/
def State.replayDirty (s : State) : Bool :=
  s.tly.lines.any (fun e => match e.2 with
    | some x => x.replay && x.dirty
    | none => false)

/-- The replay is over: the refuge stripes of the partner's groups are closed and can be erased, and LVE_REPLAY_DONE is
posted (R425, R426). -/
def State.replayOver (s : State) : State :=
  let s := s.eraseRefuge (fun k => bit s.lve.foreign (k / 2 ^ 24))
  { s with lve.replaying := false }.post E.LVE_REPLAY_DONE s.lve.replayedMiB

/-- FOREIGN_REPLAY_DONE (R424): the taken-over lines are destaged; the partner's refuge stripes return to its reserve. -/
def execForeignReplayDone (s : State) : Res :=
  .next (s.when (s.lve.replaying && !s.replayDirty) (fun s => s.replayOver))

/-! ### Rebuild of the own map (R233 to R237, R386, R432) -/

/-- The home groups are here: owned, or named by the partner's home set too (R94, R432). -/
def State.homesHere (s : State) : Bool :=
  (List.range 16).all (fun g => !s.isHome g || s.owned g || (match s.lve.pHome with
    | some m => bit m g
    | none => false))

/-- The IUs of the newest complete refuge return to the write buffer; those that do not verify are poisoned; every other refuge is
erased without being read (R386). -/
def State.restoreRefuge (s : State) (l : List Refuge) : State :=
  let f := (refugesOf s.fuses.dieId l).getLast?
  let ius := ((f.map (fun f => f.ius)).getD []).filter (fun x =>
    !refForeign x.entry || decide ((s.tract (refTract x.entry)).st ≠ .absent))
  let b0 := s.tly.bseq
  let s := (ius.filter (fun x => x.ok)).foldl (fun s x => s.restoreLine (refTract x.entry) (refIu x.entry) x.data false false) s
  let s : State := { s with
    med.restored := (List.range (s.tly.bseq - b0)).map (b0 + ·)
    med.rseq := l.foldl (fun n f => max n f.header.rseq) s.med.rseq, med.save := f }
  let keep := (f.map (fun f => f.stripes)).getD []
  let s := s.eraseRefuge (fun k => !keep.contains k && s.isHome (k / 2 ^ 24))
  let bad := ius.filter (fun x => !x.ok)
  let s := bad.foldl (fun s x =>
    let q := s.jseq
    let j : JRec := { ty := 0x0A, flags := foreignFlag (refTract x.entry), tract := tractId (refTract x.entry), arg0 := refIu x.entry }
    (s.journal j).indexRec (q, j)) s
  if bad.isEmpty then s else (s.flag F.TLY_STAT_REPLAY_PENDING true).post (E.MED_REFUGE_LOST 0) bad.length

/-- Data of this part that a survivor sent for its own half and has not released. -/
def State.restoreCopies (s : State) : State :=
  if s.lve.joining ≠ 0 then s
  else s.tly.rlines.foldl (fun s e => match e.2 with
    | some x => s.restoreLine (x.tract % 4096) x.iu x.data false x.lost
    | none => s) { s with tly.rlines := [] }

/-- The part's own map is rebuilt (R233, R236, R386): from the newest anchor whose CRC verifies and the journal records from its
CKPT_BEGIN on; the refuge and the copies are back, and its tracts thaw. The series goes on above the highest SEQ found and from the
anchor's (R884). -/
def State.rebuilt (s : State) (r : RebuildIn) : State :=
  let a := (newestAnchor s.fuses.dieId r.anchors).getD { dieId := s.fuses.dieId }
  let q := r.recs.foldl (fun n x => max n (x.1 + 1)) (max a.begin_ s.jseq)
  let recs := r.recs.filter (fun x => decide (a.begin_ ≤ x.1))
  let s := s.indexMap r a.root recs 0
  let s := (s.put64 F.TLY_JSEQ_LO F.TLY_JSEQ_HI q).put64 F.TLY_CKPT_NUM_LO F.TLY_CKPT_NUM_HI a.num
  let s : State := { s with
    tly.jr := recs.foldl (fun m x => Map.set none m x.1 (some x.2)) s.tly.jr
    tly.jFlash := r.jpages, tly.jPages := [], tly.anchor := some a
    tly.ckLast := max 1 a.begin_, tly.jMir := q - 1, tly.jProg := q - 1, tly.jOpen := q, tly.usable := true }
  let s := if s.mirroring then s.resyncJournal else s
  let s := (s.restoreRefuge r.refuges).restoreCopies
  let s := ((s.put F.TLY_STAT_REBUILD 0).thawTracts false).post E.TLY_REBUILD_DONE
    ((s.time - s.tly.rebuildAt) / 1000000)
  let s : State := { s with lve.joining := 0 }
  (([0, 1].foldl (fun s d => s.put F.MED_REL_STAT_RESTORING 0 d) s).replayNext).rsCheck

/-- REBUILD_DONE (R233 to R237, R386, R884): what the rebuild finds on flash makes the own map usable. -/
def execRebuildDone (r : RebuildIn) (s : State) : Res :=
  .next (s.when (s.on F.TLY_STAT_REBUILD && s.homesHere) (fun s => s.rebuilt r))

/-! ### Checkpoint end and hand-back (R230, R231, R240, R433, R884) -/

/-- The hand-back's checkpoint of the foreign half starts, once no other runs. -/
def State.handbackCkpt (s : State) : State :=
  if s.pair = 6 ∧ s.lve.hbStage = 3 ∧ ¬ s.on F.TLY_STAT_CKPT_ACTIVE then s.ckptStart true else s

/-- The foreign half is checkpointed: every foreign group is released (Table LVE-9, step 4). -/
def State.handbackRelease (s : State) : State :=
  if s.pair = 6 ∧ s.lve.hbStage = 3 then
    (groupsOf s.lve.foreign).foldl (fun s g => s.releaseOp .part g) { s with lve.hbStage := 4 }
  else s

/-- Page of an anchor block that the record of checkpoint `num` takes, of `n` pages: the two blocks in turn, each filled page by
page (R231, log entry 194). -/
def anchorPage (num n : Nat) : Nat := num / 2 % max 1 n

/-- Writes the anchor record: one page in one of the two anchor blocks of every home group (R231). -/
def State.writeAnchor (s : State) (a : Anchor) (fo : Bool) : State :=
  let gs := (List.range 16).filter (fun g => (if fo then bit s.lve.foreign g else s.isHome g) && s.owned g)
  let prio := s.iprio 0x10
  gs.foldl (fun s g => match (s.grp g).anchors[a.num % 2]? with
    | some b =>
      let pg := anchorPage a.num (s.tsPages (maCh b))
      let s := if pg = 0 then s.enqueue { kind := .erase, addr := b, prio := prio, who := .anchor a.num } else s
      s.enqueue { kind := .prog, addr := b + pg * 16, prio := prio, who := .anchor a.num, slc := !s.noSlc (maCh b) }
    | none => s) { s with tly.ckAnchor := some a }

/-- Pages of the anchor record are still to be programmed. -/
def State.anchorBusy (s : State) : Bool := s.allOps.any (fun o => match o.who with
  | .anchor _ => true
  | _ => false)

/-- The anchor record is written: the checkpoint has ended (R885), and a pending one starts (R232). -/
def State.ckptOver (s : State) : State :=
  match s.tly.ckAnchor with
  | none => s
  | some a =>
    if s.anchorBusy then s
    else
      let fo := s.tly.ckForeign
      let s := if fo then s else s.put64 F.TLY_CKPT_NUM_LO F.TLY_CKPT_NUM_HI a.num
      let s : State := { s with
        tly.ckLast := if fo then s.tly.ckLast else s.tly.ckBegin
        tly.ckForeign := false
        tly.fNum := if fo then a.num else s.tly.fNum
        tly.anchor := some a, tly.ckAnchor := none, tly.ckPlaces := [], tly.ckRooted := false }
      let s := (s.put F.TLY_STAT_CKPT_ACTIVE 0).freeRecords.journalMirrored
      (if fo then s.handbackRelease else s.handbackCkpt).ckptCheck

/-- The root lies on flash (R230): CKPT_END is journalled with its number and root, and the anchor record goes to its blocks. The
record of a foreign half carries the partner's die ID and the next SEQ of the partner's series (R884). -/
def State.ckptEnded (s : State) : State :=
  let fo := s.tly.ckForeign
  let n := (if fo then s.tly.fNum else s.ckptNum) + 1
  let root := s.tly.rootAt.getD (b2n fo) 0
  let s := s.journal { ty := 0x05, flags := if fo then 4 else 0, arg0 := n, arg1 := root }
  let a : Anchor := if fo then { num := n, root := root, begin_ := s.tly.fSeq, dieId := s.partnerId }
    else { num := n, root := root, begin_ := s.tly.ckBegin, dieId := s.fuses.dieId }
  (s.writeAnchor (Anchor.seal a) fo).ckptOver

/-- Map pages, directory pages and root of the running checkpoint are programmed with their parity, and CKPT_END is not
journalled yet. -/
def State.ckptWritten (s : State) : Bool :=
  s.on F.TLY_STAT_CKPT_ACTIVE && s.tly.ckPages.isEmpty && s.tly.ckRooted && s.tly.ckPlaces.all (fun x => s.placed x.1 x.2)
    && s.tly.ckAnchor.isNone

/-- CHECKPOINT_END (R230, R231, R884): the running checkpoint, with its root at `root`, is on flash. -/
def execCheckpointEnd (root : Nat) (s : State) : Res :=
  .next (s.when (s.ckptWritten && root == s.tly.rootAt.getD (b2n s.tly.ckForeign) 0) State.ckptEnded)

/-- A write of LVE_HANDBACK (R433, Table LVE-10): a value other than 1 is refused (R899). -/
def State.handbackGo (s : State) (req : Req) (value : Nat) : State :=
  if value = 1 ∧ s.pair = 3 ∧ s.lve.foreign ≠ 0 then s.handbackBegin
  else s.refuseWrite req (F.LVE_HANDBACK.off 0 0)

/-- HANDBACK_START (R433). -/
def execHandbackStart (req : Req) (value : Nat) (s : State) : Res := 
  .next (s.when true (fun s => s.byReq req (F.LVE_HANDBACK.off 0 0) (fun s => s.handbackGo req value)))

/-- HANDBACK_DESTAGE_DONE (R433): no foreign data is dirty; the foreign half is checkpointed onto the partner's groups. -/
def execHandbackDestageDone (s : State) : Res :=
  .next (s.when (s.pair == 6 && s.lve.hbStage == 2 && !s.foreignDirty) (fun s =>
    { s with lve.hbStage := 3 }.handbackCkpt))

/-- The partner reports every returned group OWNED: the foreign half is freed, and so are the partner's copies of it
(Table LVE-9, step 6). -/
def State.handbackEnd (s : State) : State :=
  let hb := s.lve.hbGroups
  let ls := s.tly.lines.filterMap (fun e => match e.2 with
    | some l => if 4096 ≤ l.tract then some e.1 else none
    | none => none)
  let s := (s.putPair 3).dropForeign
  let s := s.releaseLines ls
  { s with lve.hbGroups := 0, lve.hbStage := 0 }.post E.LVE_HANDBACK_DONE hb

/-! ### Signals of the partner (R415 to R420) -/

/-- The keepers of both media dies are armed and refreshed (R415, R416). -/
def State.keepersOn (s : State) : Bool := s.on F.MED_STAT_KEEPER 0 && s.on F.MED_STAT_KEEPER 1 && !s.lve.stopped && s.cfg.done

/-- PARTNER_ALIVE_OUT_TOGGLE (R415). -/
def execPartnerAliveOutToggle (s : State) : Res :=
  .next (s.when s.keepersOn (fun s => { s with lve.aliveOut := !s.lve.aliveOut }))

/-- PARTNER_ALIVE_EDGE (R417, R420): the wire lives; with the link silent meanwhile the part leaves PAIRED now. -/
def execPartnerAliveEdge (s : State) : Res :=
  .next (s.when s.cfg.done (fun s =>
    let s : State := { s with lve.wireSeen := true }.put F.LVE_STAT_WIRE_ALIVE 1
    if s.lve.linkDead ∧ ¬ s.lve.stopped then s.linkLost else s))

/-- WIRE_SILENT (R417, R420). -/
def execWireSilent (s : State) : Res :=
  .next (s.when (s.on F.LVE_STAT_WIRE_ALIVE) (fun s =>
    let s := s.put F.LVE_STAT_WIRE_ALIVE 0
    if s.on F.LVE_STAT_LINK_ALIVE then s.post E.LVE_WIRE_SILENT else s))

/-- LINK_SILENT (R417, R420): no HEARTBEAT has verified for LINK_US. -/
def execLinkSilent (s : State) : Res :=
  .next (s.when (s.cfg.done && !s.lve.linkDead) (fun s =>
    let s := { s with lve.linkDead := true }.put F.LVE_STAT_LINK_ALIVE 0
    if s.on F.LVE_STAT_WIRE_ALIVE ∧ ¬ s.lve.stopped then s.linkLost
    else if s.pair = 6 ∧ ¬ s.lve.stopped then s.linkLost
    else s))

/-- TRAINING_TIMEOUT (R388): 500 ms in TRAINING without an ACTIVE bundle. -/
def execTrainingTimeout (s : State) : Res :=
  .next (s.when (s.cfg.done && s.pair == 0 && !s.anyActive) (fun s => (s.putPair 1).post E.LVE_SOLO))

/-! ### Power failure (R385, R435 to R438, R448) -/

/-- What stops as PFAIL_N falls (R385, R448, R486): error injection is disabled, suspended LUNs resume, undercut reads are cancelled, and every retry that
waits ends. -/
def State.pfailCut (s : State) : State :=
  let s := s.put F.INJ_CTL_ENABLE 0
  let s := s.med.luns.foldl (fun s e => s.lunResume (e.1 / 64) (e.1 % 64)) s
  let s := s.cancelUndercuts (fun _ => true)
  let s := (s.tasksWhere (fun t => decide (t.st = .backoff))).foldl (fun s x => s.taskDown x.1 x.2) s
  let ops := s.med.retry
  let s := ops.foldl State.opDown { s with med.retry := [] }
  let s : State := { s with med.chans := Map.mapAll {} (fun _ c => { c with backoff := false }) s.med.chans }
  s.noc.pkts.foldl (fun s e => match e.2 with
    | some p => if p.backoff then (s.dropPkt e.1).attemptEnd e.1 p p.last 0 else s
    | none => s) s

/-- Suspended operations resume, undercut reads stop, and every waiting retry ends with its last status (R317, R448). -/
def execPfailNFall (s : State) : Res :=
  let low := s.lve.pfLow
  let s : State := { s with lve.pfLow := true }
  .next (s.when (!low) (fun s => s.pfailCut))

/-- PFAIL_DETECTED (R435, R436): PFAIL_N has been low for 2 µs. -/
def execPfailDetected (s : State) : Res :=
  .next (s.when (s.lve.pfLow && !s.lve.pfTaken) (fun s =>
    { s with lve.pfTaken := true, lve.pfHold := true, lve.pfWait := true, lve.pfSaved := false }.sendAll .pfail))

/-- The partner has acknowledged PFAIL or has been waited for (R385, R436): mirroring stops, queued reads are parked, and
the refuge save is due. -/
def State.pfailHeld (s : State) : State :=
  let s := s.stopMirror
  let rd (o : Op) : Bool := decide (o.kind = .read)
  { s with
    lve.pfWait := false, lve.pfSave := true
    med.parked := s.med.parked ++ (s.med.luns.flatMap (fun e => e.2.queue.filter rd)).filter (fun o => o.undercut.isNone)
    med.luns := Map.mapAll {} (fun _ l => { l with queue := l.queue.filter (fun o => !rd o) }) s.med.luns }

/-- PFAIL_ACK_TIMEOUT (R385, R436): the wait for acknowledgements ends, the remaining writes complete by Table LVE-8, and
queued reads leave the LUN queues for the save. -/
def execPfailAckTimeout (s : State) : Res :=
  .next (s.when s.lve.pfWait (fun s => s.pfailHeld))

/-- Reserved stripes that a save of `kib` fills, of those of the owned groups. -/
def takeStripes : Nat → List (Nat × Nat) → List Nat
  | _, [] => []
  | kib, (k, c) :: l => if kib ≤ c then [k] else k :: takeStripes (kib - c) l

/-- Latest buffered version of an IU: each block from the newest own line that covers it (R385). -/
def State.latest (s : State) (t iu : Nat) : List (Nat × Blk) :=
  (List.range (s.tract t).perIu).filterMap (fun i => ((s.ownLines t iu).findSome? (fun x => x.2.block? i)).map (fun b => (i, b)))

/-- The refuge of lines `bs` in stripes `ks` (R385): header page, manifest and data, and the completion page. -/
def State.refugeOf (s : State) (bs ks : List Nat) : Refuge :=
  let ids := (bs.filterMap (fun b => (s.line b).map (fun l => (l.tract, l.iu)))).eraseDups
  let ius := ids.map (fun x => ({ entry := refugeEntry x.1 x.2, data := s.latest x.1 x.2 } : RefIu))
  let h : RefugePage := { dieId := s.fuses.dieId, rseq := s.med.rseq + 1, count := ius.length }
  { header := RefugePage.seal h, last := some (RefugePage.seal h), ius := ius, stripes := ks }

/-- The refuge is written (R385, R436): the dirty lines not yet on flash, in SLC stripes of the reserve. -/
def State.refugeSaved (s : State) : State :=
  let ls := s.tly.lines.filterMap (fun e => match e.2 with
    | some l => if ¬ l.destaged ∧ l.superBy.isNone ∧ (l.tract < 4096 ∨ s.lve.foreign ≠ 0) then some (e.1, l.bytes) else none
    | none => none)
  let pool := (s.med.stripes.filter (fun e => decide (e.2.st = .reserved) && s.stripeOwned (e.1 / 2 ^ 24))).map
    (fun e => (e.1, s.slcKiB e.1))
  let ks := takeStripes ((ls.map Prod.snd).sum / 1024) pool
  let s := ks.foldl (fun s k => s.updStripe k (fun x => { x with st := .refuge, slc := true })) s
  let f := s.refugeOf (ls.map Prod.fst) ks
  { s with
    med.rseq := s.med.rseq + 1, med.save := some f, med.restored := ls.map Prod.fst
    lve.pfSave := false, lve.pfSaved := true }.refillReserve

/-- REFUGE_SAVE (R385, R386, R438): once the programs in flight have ended the refuge is written and its completion page
ends the save. -/
def execRefugeSave (s : State) : Res :=
  .next (s.when (s.lve.pfSave && s.med.luns.all (fun e => e.2.cur.all (fun o => o.kind != .prog))) (fun s => s.refugeSaved))

/-- PFAIL_N_RISE (R438). -/
def execPfailNRise (s : State) : Res := .next { s with lve.pfLow := false }

/-- FETCH_RESUME (R438): PFAIL_N has been high for 10 ms after a completed save. -/
def execFetchResume (s : State) : Res :=
  .next (s.when (!s.lve.pfLow && s.lve.pfTaken && s.lve.pfSaved) (fun s =>
    let ops := s.med.parked
    ops.foldl State.enqueue { s with lve.pfTaken := false, lve.pfHold := false, lve.pfSaved := false, med.parked := [] }))

end Sys2Proof.Machine
end

