-- ==== Sys2Proof/Machine/Levee.lean ====
section
/-! DEFINITION. The Levee link: bundles, pair formation, key exchange, flits and the messages of the partner (R388 to R397,
R401 to R418, R429 to R433, R460 to R462, R582 to R586, R763, R891 to R896). -/

namespace Sys2Proof.Machine
open Sys2Proof

/-! ### Bundles (Table LVE-2) -/

/-- A bundle leaves DOWN for DETECT, and its lanes are enabled (R758). -/
def State.bundleStart (s : State) (b : Nat) (probe : Bool) : State :=
  if s.bst b ≠ 0 ∨ ¬ s.cfg.ioOn ∨ 2 ≤ b then s
  else
    let s := (s.put F.LVE_BUNDLE_STAT_STATE 1 b).updBnd b (fun x => { x with probe := probe, probeDue := false })
    let s := if probe then s.bump F.LVE_PROBES else s
    (bundleLanes b).foldl State.laneOn s

/-- A bundle goes DOWN with its lanes. -/
def State.bundleFall (s : State) (b : Nat) : State :=
  if s.bst b = 0 then s else (bundleLanes b).foldl State.laneOff (s.bundleDown b)

/-- A write of LVE_CTL.BUNDLE_EN: a bundle newly enabled trains, one disabled goes DOWN at once (R439). -/
def State.bundleEn (s : State) (value : Nat) : State :=
  let old := s.rd F.LVE_CTL_BUNDLE_EN
  [0, 1].foldl (fun s b =>
    if bit value b ∧ ¬ bit old b then s.bundleStart b false
    else if bit old b ∧ ¬ bit value b then s.bundleFall b else s) (s.put F.LVE_CTL_BUNDLE_EN value)

/-- BUNDLE_ENABLE_WRITE (R439). -/
def execBundleEnableWrite (req : Req) (value : Nat) (s : State) : Res :=
  .next (s.when true (fun s => s.byReq req (F.LVE_CTL_BUNDLE_EN.off 0 0) (fun s => s.bundleEn value)))

/-- BUNDLE_DETECT_TIMEOUT (R394). -/
def execBundleDetectTimeout (b : Nat) (s : State) : Res := .next (s.when (s.bst b == 1) (fun s => s.bundleFall b))

/-- A lane for which EQUALISE need not wait (R763). -/
def State.laneSettled (s : State) (l : Nat) : Bool :=
  s.laneSt l == 5 || s.laneSt l == 8 || (s.laneSt l == 1 && !s.on F.SDS_LANE_STAT_PARTNER l)

/-- Lanes of a bundle that are ACTIVE, bit per lane. -/
def State.lockedLanes (s : State) (b : Nat) : Nat :=
  ((bundleLanes b).zipIdx.map (fun x => b2n (s.laneSt x.1 == 5) * 2 ^ x.2)).sum

/-- BUNDLE_EQUALISE_END (R763): every lane has settled, or 100 ms have passed and running attempts end. -/
def execBundleEqualiseEnd (b : Nat) (atLimit : Bool) (s : State) : Res :=
  .next (s.when (s.bst b == 2 && (atLimit || (bundleLanes b).all s.laneSettled)) (fun s =>
    let m := s.lockedLanes b
    let s := if atLimit then (bundleLanes b).foldl State.laneTimeout s else s
    (s.put F.LVE_BUNDLE_STAT_STATE 3 b).updBnd b (fun x => { x with locked := m })))

/-- Width code and lanes that R396 gives for the lanes that lock. -/
def widthOf (m : Nat) : Nat × Nat :=
  let all (lo n : Nat) : Bool := bits m lo n == 2 ^ n - 1
  if all 0 16 then (3, 0xFFFF)
  else if all 0 8 then (2, 0xFF) else if all 8 8 then (2, 0xFF00)
  else if all 0 4 then (1, 0xF) else if all 4 4 then (1, 0xF0) else if all 8 4 then (1, 0xF00)
  else if all 12 4 then (1, 0xF000) else (0, 0)

/-- Shows the width and the lanes in use. -/
def State.putWidth (s : State) (b : Nat) (w : Nat × Nat) : State :=
  (s.put F.LVE_BUNDLE_STAT_WIDTH w.1 b).put F.LVE_BUNDLE_STAT_LANES w.2 b

/-- The bundle runs at the lower of the rates that the two parts set: a higher code is a lower rate (R393, log
entry 212). -/
def State.putRate (s : State) (b pRate : Nat) : State :=
  let r := max (s.rd F.LVE_BUNDLE_CTL_RATE b) (pRate % 4)
  (bundleLanes b).foldl (fun s l => s.updLane l (fun x => { x with rate := bundleRate r }))
    (s.updBnd b (fun x => { x with pRate := pRate % 4, rate := r }))

/-- BUNDLE_ALIGN_DONE (R392, R393, R396): lane order, polarity, deskew and flit boundary found, with the RATE that the partner
sets, or not found. -/
def execBundleAlignDone (b : Nat) (rev : Bool) (found : Option Nat) (s : State) : Res :=
  .next (s.when (s.bst b == 3) (fun s =>
    let w := widthOf (s.bnd b).locked
    let s := s.flag F.LVE_BUNDLE_STAT_REVERSED rev b
    match found with
    | none => (s.bundleFall b).post E.LVE_BUNDLE_DOWN b
    | some r =>
      if w.1 = 0 then (s.bundleFall b).post E.LVE_BUNDLE_DOWN b
      else ((s.putRate b r).putWidth b w).put F.LVE_BUNDLE_STAT_STATE 4 b))

/-! ### IDENT (R40, R41, R95, R395) -/

/-- REFUSE code of a partner's IDENT; 0 for a pass (Table LVE-3). -/
def State.refusal (s : State) (i : IdentIn) : Nat :=
  if i.dieId = s.fuses.dieId then 1 else if i.stepping ≠ s.rd F.GLB_REV_STEPPING then 2 else if i.media = s.med.hash then 0 else 3

/-- The part's own IDENT (Table LVE-3). -/
def State.ownIdent (s : State) : IdentIn :=
  { dieId := s.fuses.dieId, stepping := s.rd F.GLB_REV_STEPPING, media := s.med.hash, role := s.polTimeRole, pair := s.pair
    groups := s.heldMask, upperMiB := s.ownHalfMiB, home := s.polHome }

/-- Home groups once the partner is known (R41, R95): the own mask, else the complement of the partner's, else the even groups
of the part with the lower die ID and the odd ones of the other. -/
def State.homeWith (s : State) (i : IdentIn) : Nat :=
  match s.polHome, i.home with
  | some _, _ => s.homeMask
  | none, some m => 0xFFFF - m % 65536
  | none, none => if s.fuses.dieId < i.dieId then 0x5555 else 0xAAAA

/-- The home set changes: new home groups are claimed, the others let go. -/
def State.rehome (s : State) (m : Nat) : State :=
  let old := s.homeMask
  let s := s.putHome m
  let s := (groupsOf (old - (old &&& m))).foldl State.unclaim s
  (groupsOf (m - (m &&& old))).foldl (fun s g =>
    if s.gst g = 0 ∨ s.gst g = 8 then s.claimOp .part g else { s with lve.claims := setBits s.lve.claims g 1 1 }) s

/-- The partner's IDENT is accepted (R395): what it says of itself is kept, a clash of time roles is posted, the home
groups follow and the keys are exchanged next. -/
def State.identified (s : State) (b : Nat) (i : IdentIn) : State :=
  let s : State := { s with
    lve.pGroups := i.groups, lve.pUpperMiB := i.upperMiB, lve.pHome := i.home, lve.pPair := i.pair, lve.pRole := i.role }
  let mine := s.polTimeRole
  let s := if mine ≠ 0 ∧ mine = i.role then s.post E.LVE_TIME_ROLE (b2n (decide (i.dieId < s.fuses.dieId))) else s
  ((s.rehome (s.homeWith i)).put F.LVE_BUNDLE_STAT_STATE 5 b).updBnd b (fun x =>
    { x with identOk := true, cert := false, share := false })

/-- IDENT (R395). -/
def execIdent (b : Nat) (i : IdentIn) (s : State) : Res :=
  .next (s.when (s.bst b == 4) (fun s =>
    let s := s.put64 F.LVE_PARTNER_ID_LO F.LVE_PARTNER_ID_HI i.dieId
    let r := s.refusal i
    let s := s.put F.LVE_STAT_REFUSE r
    if r ≠ 0 then (s.bundleFall b).post E.LVE_PAIR_REFUSED r i.dieId
    else s.identified b i))

/-! ### Key exchange (R582 to R584) -/

/-- The key exchange fails: the bundle goes DOWN. -/
def State.keyFail (s : State) (b code : Nat) : State := (s.bundleFall b).post E.CRY_LINK_KEY_FAIL b code

/-- CERT (R582): the die ID equals IDENT's, and the signature verifies under the CA key of the fused hash. -/
def execCert (b : Nat) (c : CertIn) (s : State) : Res :=
  .next (s.when (s.bst b == 5 && !(s.bnd b).cert) (fun s =>
    if c.ok ∧ c.cert.dieId = s.partnerId then s.updBnd b (fun x => { x with cert := true, pCert := c.cert }) else s.keyFail b 0))

/-- SHARE (R582): the point lies on P-384. The part's own ephemeral key and random bytes are free values. -/
def execShare (b : Nat) (p : LinkShare) (s : State) : Res :=
  .next (s.when (s.bst b == 5 && (s.bnd b).cert && !(s.bnd b).share) (fun s =>
    if onCurve (p.x, p.y) then
      (s.updBnd b (fun x => { x with
        share := true, pShare := p, eph := s.freeNat, rnd := s.drawn.freeNat % 2 ^ 128 })).draws 2
    else s.keyFail b 1))

/-- A public key of the part: the base point times a private key. -/
def pubKey (d : Nat) : Nat × Nat := (ecMul 384 d (some g384)).getD (0, 0)

/-- Content of a CERT flit. -/
def certBytes (c : LinkCert) : List Nat :=
  toBytes 8 c.dieId ++ toBytes 48 c.x ++ toBytes 48 c.y ++ toBytes 48 c.r ++ toBytes 48 c.s

/-- Content of a SHARE flit. -/
def shareBytes (p : LinkShare) : List Nat := toBytes 48 p.x ++ toBytes 48 p.y ++ toBytes 16 p.rnd

/-- CERT that the part sends. -/
def State.ownCert (s : State) : LinkCert :=
  let k := pubKey s.fuses.devKey
  { dieId := s.fuses.dieId, x := k.1, y := k.2, r := s.fuses.caSig.1, s := s.fuses.caSig.2 }

/-- SHARE that the part sends. -/
def State.ownShare (s : State) (b : Nat) : LinkShare :=
  let k := pubKey (s.bnd b).eph
  { x := k.1, y := k.2, rnd := (s.bnd b).rnd }

/-- The part has the lower die ID of the two. -/
def State.lowDie (s : State) : Bool := decide (s.fuses.dieId < s.partnerId)

/-- Transcript hash (R583): the contents of CERT and SHARE of the part with the lower die ID, then of the other (log entry
200). -/
def State.transcript (s : State) (b : Nat) : List Nat :=
  let own := certBytes s.ownCert ++ shareBytes (s.ownShare b)
  let his := certBytes (s.bnd b).pCert ++ shareBytes (s.bnd b).pShare
  sha384 (if s.lowDie then own ++ his else his ++ own)

/-- Session key of a label (R583). -/
def State.linkKey (s : State) (b : Nat) (label : String) : Nat :=
  ofBytes (kdf ((ecdh (s.bnd b).eph ((s.bnd b).pShare.x, (s.bnd b).pShare.y)).take 32) (ascii label) (s.transcript b))

/-- The signature of a FINISH verifies under the partner's device key over the transcript hash (Table CRY-9). -/
def State.finishOk (s : State) (b r sg : Nat) : Bool :=
  ecdsaOk (s.transcript b) ((s.bnd b).pCert.x, (s.bnd b).pCert.y) r sg

/-- Time role (R40, R389, Table LVE-3): 0 anchor, 1 follower. -/
def State.timeRole (s : State) : Nat :=
  if s.lve.foreign ≠ 0 then 0
  else if s.lve.pGroups &&& s.homeMask ≠ 0 then 1
  else
    let mine := s.polTimeRole
    let theirs := s.lve.pRole
    if mine = 1 ∧ theirs ≠ 1 then 0
    else if mine = 2 ∧ theirs ≠ 2 then 1
    else if mine = 0 ∧ theirs = 1 then 1
    else if mine = 0 ∧ theirs = 2 then 0
    else b2n (decide (s.partnerId < s.fuses.dieId))

/-- Training completes: roles and time base are taken, and RESYNC begins from TRAINING, SOLO and SURVIVOR (R388 to R390). The
silence of the link is measured anew. -/
def State.pairUp (s : State) (time : Nat) : State :=
  let s := ((s.put F.LVE_STAT_DEAD 0).put F.LVE_STAT_PFAIL_RX 0).put F.LVE_STAT_ROLE s.timeRole
  let s : State := { s with lve.leaving := false, lve.everActive := true, lve.linkDead := false }
  let s : State := if s.rd F.LVE_STAT_ROLE = 1 then { s with time := time % 2 ^ 64 } else s
  if s.pair = 0 ∨ s.pair = 1 ∨ s.pair = 5 then s.resyncStart else s

/-- A bundle is ACTIVE with new keys: sequence numbers, credits and counts start again (R395, R401 to R404). -/
def State.keyed (s : State) (b : Nat) : State :=
  let session := beNat ((s.transcript b).take 2)
  let l := s.linkKey b "LEVEE-L"
  let h := s.linkKey b "LEVEE-H"
  let s := (s.put F.LVE_BUNDLE_STAT_STATE 6 b).updBnd b (fun x =>
    { x with fseq := 0, unacked := [], rx := 0, nak := false, naks := 0, credit := [4096, 512, 128], give := [0, 0, 0]
             macs := 0, fecs := 0, winStart := s.time, txPhase := false, rxPhase := false, session := session
             txKey := if s.lowDie then l else h, rxKey := if s.lowDie then h else l, slot := 0, slotAt := s.time
             probe := false })
  s.post E.CRY_LINK_KEYED b session

/-- FINISH (R583, R584): the partner's signature over the transcript hash; `time` is the anchor's time base. -/
def execFinish (b r sg time : Nat) (s : State) : Res :=
  .next (s.when (s.bst b == 5 && (s.bnd b).share) (fun s =>
    if ¬ s.finishOk b r sg then s.keyFail b 2
    else
      let first := !s.anyActive
      let s := s.keyed b
      let s := if first then s.pairUp time else s
      s.pumpAll.rsCheck))

/-- KEY_TIMEOUT (R584). -/
def execKeyTimeout (b : Nat) (s : State) : Res := .next (s.when (s.bst b == 5) (fun s => s.keyFail b 3))

/-! ### RETRAIN (R896) -/

/-- An ACTIVE bundle retrains: its lanes restart from SIGNAL. -/
def State.bundleRetrain (s : State) (b : Nat) : State :=
  if s.active b then (bundleLanes b).foldl State.retrainLane (s.toRetrain b) else s

/-- BUNDLE_RETRAIN (R439, R896): 1 written to LVE_BUNDLE_CTL[b].RETRAIN. -/
def execBundleRetrain (req : Req) (b : Nat) (s : State) : Res :=
  .next (s.when (decide (b < 2)) (fun s => s.byReq req (F.LVE_BUNDLE_CTL_RETRAIN.off b 0) (fun s => s.bundleRetrain b)))

/-- The key after a key update (R585; the KDF's context is empty, log entry 200). -/
def nextKey (k : Nat) : Nat := ofBytes (kdf (toBytes 32 k) (ascii "LEVEE-UPDATE") [])

/-- The sender takes a new key (R585). -/
def State.keyUpdate (s : State) (b : Nat) : State :=
  (s.updBnd b (fun x => { x with txPhase := !x.txPhase, txKey := nextKey x.txKey })).bump F.CRY_LINK_UPDATES

/-- BUNDLE_RETRAIN_DONE (R396, R585, R896): the lanes that lock carry the bundle on, and unacknowledged flits are sent again. -/
def execBundleRetrainDone (b : Nat) (rev : Bool) (s : State) : Res :=
  .next (s.when (s.bst b == 7 && (widthOf (s.lockedLanes b)).1 != 0) (fun s =>
    let s := (((s.putRate b (s.bnd b).pRate).putWidth b (widthOf (s.lockedLanes b))).flag F.LVE_BUNDLE_STAT_REVERSED rev b).put F.LVE_BUNDLE_STAT_STATE 6 b
    let s := (s.keyUpdate b).updBnd b (fun x =>
      { x with slotAt := s.time, unacked := x.unacked.map (fun e => { e with sends := 0 }) })
    ((if (s.bnd b).unacked = [] then s else s.resend b).pumpAll).rsCheck))

/-- BUNDLE_RETRAIN_TIMEOUT (R394, R409). -/
def execBundleRetrainTimeout (b : Nat) (s : State) : Res := .next (s.when (s.bst b == 7) (fun s => s.bundleFall b))

/-- LINK_KEY_UPDATE (R585). -/
def execLinkKeyUpdate (b : Nat) (s : State) : Res := .next (s.when (s.active b) (fun s => s.keyUpdate b))

/-! ### Flits (R400 to R404) -/

/-- The receiver asks for the flit after the last one received in order, once for each gap (R402). -/
def State.nakOnce (s : State) (b : Nat) : State :=
  s.updBnd b (fun x => if x.nak then x else { x with nak := true, naks := x.naks + 1 })

/-- The 1 ms window of the MAC alarm begins anew once it has passed (R401). -/
def State.macWindow (s : State) (b : Nat) : State :=
  s.updBnd b (fun x => if 1000000 < s.time - x.winStart then { x with macs := 0, fecs := 0, winStart := s.time } else x)

/-- A verified flit: key phase, acknowledgement, credit, NAK and, for a MESSAGE flit, its place in the sequence. -/
def State.flitIn (s : State) (b : Nat) (f : FlitIn) : State :=
  let s := (s.updBnd b (fun x => if f.phase = x.rxPhase then x
    else { x with rxPhase := f.phase, rxKey := nextKey x.rxKey })).ackTo b f.ackSeq
  let s := s.updBnd b (fun x => { x with credit := x.credit.modify f.crvc (· + f.crcnt) })
  let s := if f.nak ∧ (s.bnd b).unacked ≠ [] then s.resend b else s
  let s := if f.fseq ≠ (s.bnd b).rx then s.nakOnce b
    else s.updBnd b (fun x =>
      { x with nak := false, rx := if f.message then (x.rx + 1) % 4096 else x.rx
               give := if f.message then x.give.modify f.vc (· + 1) else x.give })
  s.pumpAll.rsCheck

/-- FLIT_RECEIVE (R400 to R404, R586). -/
def execFlitReceive (b : Nat) (f : FlitIn) (s : State) : Res :=
  .next (s.when (s.active b) (fun s =>
    if f.lost then
      (((s.macWindow b).bump F.LVE_FEC_LOST 1 b).updBnd b (fun x => { x with fecs := x.fecs + 1 })).nakOnce b
    else
      let s := if f.corr then s.bump F.LVE_FEC_CORR 1 b else s
      if f.mac then s.flitIn b f
      else
        let s := ((s.macWindow b).bump F.LVE_MAC_FAILS 1 b).updBnd b (fun x => { x with macs := x.macs + 1 })
        let s := s.nakOnce b
        if 16 ≤ (s.bnd b).macs ∧ (s.bnd b).fecs = 0 then
          ((s.updBnd b (fun x => { x with macs := 0 })).bundleRetrain b).post E.LVE_MAC_ALARM b
        else s))

/-- REPLAY_TIMER (R402, R403): the oldest unacknowledged flit has waited 4 µs. -/
def execReplayTimer (b : Nat) (s : State) : Res :=
  .next (s.when (s.active b) (fun s =>
    match (s.bnd b).unacked with
    | [] => s
    | e :: _ => if 5 ≤ e.sends then s.bundleRetrain b else s.resend b))

/-- NAK_REPEAT_TIMER (R402). -/
def execNakRepeatTimer (b : Nat) (s : State) : Res :=
  .next (s.when (s.active b && (s.bnd b).nak) (fun s => s.updBnd b (fun x => { x with naks := x.naks + 1 })))

/-! ### Messages of the partner (Table LVE-5) -/

/-- A message reaches the part: a bundle is ACTIVE and no keeper trip has stopped it (R892). -/
def State.hears (s : State) : Bool := s.anyActive && !s.lve.stopped

/-- MIRROR_WRITE (R410, R412, R430): the line enters the upper half, or with OWN_HALF the copies of the own half. -/
def execMirrorWrite (bseq tract kid iu : Nat) (at_ : LinePos) (data : List (Nat × Blk)) (resync ownHalf : Bool) (s : State) : Res :=
  .next (s.when s.hears (fun s =>
    let _ := resync
    let l : Line := { tract := tract % 4096, iu := iu, kid := kid, data := data, bytes := 4096 * (at_.sec / 16 % 16 + 1), off := at_.off
                      mirrored := true, acked := true }
    let s : State :=
      if ownHalf then
        (if (Map.get none s.tly.rlines bseq).isSome then s
         else { s with tly.rlines := Map.set none s.tly.rlines bseq (some l) })
      else if (Map.get none s.tly.flines bseq).isSome then s
      else { s with tly.flines := Map.set none s.tly.flines bseq (some l) }.sealBuf 1 l l.data
    s.send (.mirrorAck [bseq])))

/-- One line's mirror copy is acknowledged: counters, the longest time, and the write's block count (R412, R467). -/
def State.mirrored1 (s : State) (b : Nat) : State :=
  match s.line b with
  | some l =>
    if l.mirrored ∧ ¬ s.lve.rsLeft.contains b then s
    else
      let s := ((s.bump F.LVE_MIRRORS).raise F.LVE_MIRROR_NS_MAX (s.time - l.sentAt)).updLine b (fun l => { l with mirrored := true })
      let s : State := { s with lve.rsLeft := s.lve.rsLeft.filter (· ≠ b) }
      match l.cmd with
      | some k => s.updCmd k (fun c =>
          let c : Cmd := { c with mirrored := c.mirrored + l.data.length }
          if c.buffered ∧ c.nBuf ≤ c.mirrored then c.toPhase 2 s.us else c)
      | none => s
  | none => s

/-- MIRROR_ACK (R412). -/
def execMirrorAck (bseqs : List Nat) (s : State) : Res :=
  .next (s.when s.hears (fun s => (bseqs.foldl State.mirrored1 s).settleAll))

/-- Own FORMATTING tract and the partner's of the same ID: the part with the higher die ID gives its tract up (R895). -/
def State.tractClash (s : State) (id : Nat) : State :=
  let tr := s.tract id
  if tr.st = .formatting ∧ s.partnerId < s.fuses.dieId then
    let s := match tr.waiter with
      | some k => match s.cmd k with
        | some c => s.adminConflict k c
        | none => s
      | none => s
    let s := (s.setTract id { tr with st := .absent }).tractSet id
    (s.setTract id {}).drop F.CRY_KEY_STAT_TRACTS 1 tr.kid
  else s

/-- A TRACT_SET record of the partner, unless a later one of the tract is stored (R391, R895). -/
def State.partnerTract (s : State) (q : Nat) (r : JRec) : State :=
  let later := s.tly.mring.any (fun e => match e.2 with
    | some x => decide (q < e.1) && x.ty == 0x09 && x.tract == r.tract && !bit x.flags 2
    | none => false)
  if later then s
  else
    let x := recTract r
    let st := TState.ofCode x.st
    let t : Tract := if st = .absent then {} else TractIn.tract x false st st
    let s : State := { s with lve.pTracts := Map.set {} s.lve.pTracts x.id t }
    if st = .formatting then s.tractClash x.id else s

/-- Mirror-ring records below the CKPT_BEGIN of a completed checkpoint are freed (R228). -/
def State.freeMirror (s : State) (num : Nat) : State :=
  match (s.tly.mring.filter (fun e => match e.2 with
      | some x => x.ty == 0x04 && x.arg0 == num && !bit x.flags 2
      | none => false)).getLast? with
  | some e => { s with tly.mring := Map.keep (fun q _ => decide (e.1 ≤ q)) s.tly.mring }
  | none => s

/-- One record of the partner is stored (R391, R410, R891). -/
def State.storeRec (s : State) (q : Nat) (r : JRec) : State :=
  if q < s.tly.mStart ∨ q ≤ s.tly.mAck ∨ (Map.get none s.tly.mring q).isSome then s
  else
    let s : State := { s with tly.mring := Map.set none s.tly.mring q (some r) }
    if bit r.flags 2 then s
    else if r.ty = 0x09 then s.partnerTract q r
    else if r.ty = 0x05 then s.freeMirror r.arg0 else s

/-- Highest SEQ up to which every record is stored (R891). -/
def contig (m : Map (Option JRec)) : Nat → Nat → Nat
  | 0, q => q
  | n + 1, q => if (Map.get none m (q + 1)).isSome then contig m n (q + 1) else q

/-- Journal records from SEQ `q` on go into the mirror ring, and the last SEQ up to which none is missing follows (R226,
R410). -/
def State.journalIn (s : State) (q : Nat) (recs : List JRec) : State :=
  let s := recs.zipIdx.foldl (fun s r => s.storeRec (q + r.2) r.1) s
  if s.tly.mStart = 0 then s else { s with tly.mAck := contig s.tly.mring s.tly.mring.length s.tly.mAck }

/-- JOURNAL (R226, R391, R410, R891): the first RESYNC message names the start of the ring. -/
def execJournal (seq : Nat) (recs : List JRec) (resync : Bool) (s : State) : Res :=
  .next (s.when s.hears (fun s =>
    let s : State := if resync ∧ s.tly.mStart = 0 ∧ 1 ≤ seq then
        { s with tly.mStart := seq, tly.mAck := seq - 1, tly.mring := Map.keep (fun q _ => decide (seq ≤ q)) s.tly.mring }
      else s
    let s := s.journalIn seq recs
    s.send (.journalAck s.tly.mAck)))

/-- JOURNAL_ACK (R226): records up to `seq` are mirrored. -/
def execJournalAck (seq : Nat) (s : State) : Res :=
  .next (s.when s.hears (fun s =>
    ({ s with tly.jMir := max s.tly.jMir (min seq (s.jseq - 1)) }.journalMirrored).rsCheck))

/-- LINE_RELEASE (R410, R413): the partner's lines named are freed. -/
def execLineRelease (bseqs : List Nat) (s : State) : Res :=
  .next (s.when s.hears (fun s =>
    { s with
      tly.flines := bseqs.foldl Map.erase s.tly.flines
      tly.rlines := bseqs.foldl Map.erase s.tly.rlines }.sendList .releaseAck bseqs))

/-- RELEASE_ACK (R218, R413). -/
def execReleaseAck (bseqs : List Nat) (s : State) : Res :=
  .next (s.when s.hears (fun s =>
    ((bseqs.filter (fun b => s.tly.releasing.contains b)).foldl State.lineDone s).settleAll))

/-- HEARTBEAT (R390, R417, R434): the link lives, the follower steers its time base to within 50 ns of the anchor's, and the
partner's report may end a hand-back. -/
def execHeartbeat (time pair groups : Nat) (pfailLow : Bool) (limit dirty : Nat) (s : State) : Res :=
  .next (s.when s.hears (fun s =>
    let s : State := { s.put F.LVE_STAT_LINK_ALIVE 1 with
      lve.linkSeen := true, lve.linkDead := false, lve.pPair := pair, lve.pGroups := groups, lve.pPfail := pfailLow
      lve.pLimit := limit, lve.pDirty := dirty }
    let s : State := if s.rd F.LVE_STAT_ROLE = 1 then { s.drawn with time := (time + 2 ^ 64 + s.freeNat % 101 - 50) % 2 ^ 64 } else s
    if s.pair = 6 ∧ s.lve.hbStage = 4 ∧ s.lve.foreign = 0 ∧ s.lve.hbGroups &&& groups = s.lve.hbGroups then s.handbackEnd else s))

/-- LEAVING (R418). -/
def execLeaving (reason : Nat) (s : State) : Res :=
  .next (s.when s.hears (fun s => let _ := reason; { s with lve.leaving := true }))

/-- PFAIL (R437). -/
def execPfail (s : State) : Res := .next (s.when s.hears (fun s => s.put F.LVE_STAT_PFAIL_RX 1))

/-- RESYNC_DONE (R388, R430). -/
def execResyncDone (bseq seq : Nat) (s : State) : Res :=
  .next (s.when (s.hears && s.pair == 2) (fun s => let _ := (bseq, seq); { s with lve.rsRcvd := true }.pairedCheck))

/-- HANDBACK_REQ (R433). -/
def execHandbackReq (groups : Nat) (s : State) : Res :=
  .next (s.when s.hears (fun s => { s with lve.joining := groups % 65536 }))

/-- HANDBACK_GRANT (R433): the released groups are claimed as their wires are found high. -/
def execHandbackGrant (groups : Nat) (s : State) : Res :=
  .next (s.when s.hears (fun s =>
    (groupsOf groups).foldl (fun s g => { s with lve.claims := setBits s.lve.claims g 1 1 }.claimDue g) s))

/-! ### Healing (R460 to R462) -/

/-- HEAL_REQ (R460): the partner's line is sent back when it is held and good. -/
def execHealReq (bseq : Nat) (s : State) : Res :=
  .next (s.when s.hears (fun s => match Map.get none s.tly.flines bseq with
    | some l => if l.lost then s else s.send (.healData bseq l.data)
    | none => s))

/-- HEAL_DATA (R460, R566): the line is written whole over the bad one. -/
def execHealData (bseq : Nat) (data : List (Nat × Blk)) (s : State) : Res :=
  .next (s.when s.hears (fun s =>
    match s.line bseq, s.lve.heals.find? (fun x => x.1 == bseq) with
    | some l, some h =>
      if ¬ l.healing then s
      else
        let s := s.updLine bseq (fun l => { l with healing := false, data := data, healed := !l.dark.isEmpty })
        let s : State := { s with lve.heals := s.lve.heals.filter (fun x => x.1 ≠ bseq) }
        (s.hbmLine (h.2 * 64) 255 true 64 (s.lineData h.2) {}).1.bump F.CRY_HEALS
    | _, _ => s))

/-- HEAL_TIMEOUT (R461). -/
def execHealTimeout (bseq : Nat) (s : State) : Res :=
  .next (s.when (s.lve.heals.any (fun x => x.1 == bseq)) (fun s =>
    { s with lve.heals := s.lve.heals.filter (fun x => x.1 ≠ bseq) }.healLost bseq))

/-- UNKNOWN_MESSAGE (R407). -/
def execUnknownMessage (s : State) : Res := .next (s.when s.anyActive (fun s => s.bump F.LVE_MSG_UNKNOWN))

/-! ### Heartbeat and probes (R416, R429) -/

/-- HEARTBEAT_SEND (R416). -/
def execHeartbeatSend (s : State) : Res :=
  .next (s.when s.keepersOn (fun s =>
    s.sendAll (.heartbeat s.time s.pair s.heldMask s.lve.pfLow s.dirtyEff (s.dirtyBytes / 2 ^ 20))))

/-- PROBE_DUE (R429, R763): of SOLO each second, or of signal seen on a DOWN bundle. -/
def execProbeDue (b : Nat) (s : State) : Res :=
  .next (s.when (bit (s.rd F.LVE_CTL_BUNDLE_EN) b && !s.lve.stopped
      && ((s.pair == 1 && s.on F.LVE_CTL_PROBE_EN) || (s.bnd b).probeDue)) (fun s => s.bundleStart b true))

/-- PROBE_GIVES_UP (R429). -/
def execProbeGivesUp (b : Nat) (s : State) : Res :=
  .next (s.when ((s.bnd b).probe && !s.active b) (fun s => s.bundleFall b))

end Sys2Proof.Machine
end

