-- ==== Sys2Proof/Machine/Pcie.lean ====
section
/-! DEFINITION. The PCIe port: resets, function-level resets, link bring-up and widths, configuration requests, MSI-X
and what a read of host memory brings back (R781 to R807). -/

namespace Sys2Proof.Machine
open Sys2Proof

/-! ### PCIE settings (R790, R791) -/

/-- Applies the settings of a PCIE segment: the PF takes what the VFs leave (R791). -/
def State.applyPcie (s : State) (p : PcieSet) : State :=
  let s : State := { s with
    pci.totalVfs := p.totalVfs, pci.bar4Max := p.bar4Max, pci.bar4 := 1, pci.deferred := none, cfg.pcieApplied := true }
  let s := s.put F.PCI_STAT_CLOCKING p.clocking
  let s := (s.put F.QQP_CAP_MAX_QP (1024 - p.qps.sum)).put F.QQP_CAP_VECTORS (2048 - p.vecs.sum)
  (List.range p.totalVfs).foldl (fun s i =>
    (s.put F.QQP_CAP_MAX_QP (p.qps.getD i 0) (i + 1)).put F.QQP_CAP_VECTORS (p.vecs.getD i 0) (i + 1)) s

/-! ### Resets (R799 to R803) -/

/-- Offset within QQP of the functions `p`, other than QQP_CAP, whose source is the image (R812). -/
def qqpReset (p : Nat → Bool) (o : Nat) : Bool :=
  o % 0x4000000 / 0x100000 == 19 && o % 0x100000 != 0x1C && p (o / 0x4000000)

/-- The functions' configuration space is reset: enables, masks, power state, MSI-X tables; messages held for them
are dropped (R800). -/
def State.resetFns (s : State) (p : Nat → Bool) : State :=
  let st (o : Nat) : Bool := decide (0x1000400 ≤ o) && decide (o < 0x1000400 + 4 * 257) && p ((o - 0x1000400) / 4)
  let s := s.dropRegs (fun o => st o || qqpReset p o)
  { s with pci.vecs := Map.keep (fun k _ => !p (k / 4096)) s.pci.vecs
           pci.held := s.pci.held.filter (fun x => !p x.1)
           pwr.doorbells := s.pwr.doorbells.filter (fun x => !p x.1)
           pci.relaxed := s.pci.relaxed.filter (fun f => !p f)
           pci.noTmo := s.pci.noTmo.filter (fun f => !p f)
           pci.mps := Map.keep (fun f _ => !p f) s.pci.mps
           pci.mrrs := Map.keep (fun f _ => !p f) s.pci.mrrs }

/-- Every VF is removed (R791, R801). -/
def State.removeVfs (s : State) : State :=
  let s := (s.cutCmds (fun f => f != 0)).resetFns (fun f => f != 0)
  { s with pci.vfEn := false }

/-- The hard block and the QQP front end are reset (R49, R799, R812): queues, configuration space, and the writable
registers and counters of PCI. -/
def State.portReset (s : State) : State :=
  let s := (s.cutCmds (fun _ => true)).resetFns (fun _ => true)
  let s := s.dropRegs (fun o => o == 0x1000000 || (decide (0x1000040 ≤ o) && decide (o ≤ 0x1000068)))
  let s := ((s.put F.PCI_STAT_LTSSM 0).put F.PCI_STAT_SPEED 0).put F.PCI_STAT_WIDTH 0
  let s := ((s.put F.PCI_STAT_FLIT 0).put F.PCI_STAT_L0P 0).put F.PCI_STAT_REVERSED 0
  let s := (s.put F.PCI_STAT_DL_UP 0).put F.PCI_LANES_USED 0
  { s with pci.inReset := true, pci.vfEn := false, pci.numVfs := 0, pci.bar4 := 1, qqp.rr := 0, qqp.rrAdmin := 0
           pwr.doorbells := [], pwr.fences := if s.pwr.fences.contains (4, 0) then s.pwr.fences else s.pwr.fences ++ [(4, 0)] }

/-- The front end leaves reset: a mailbox completion that waited is written (R803). -/
def State.portLeave (s : State) : State :=
  let s : State := { s with pci.inReset := false }
  match s.qqp.mbxHeld with
  | some v => { s.putMbxCqe v with qqp.mbxHeld := none }
  | none => s

/-- PERST_N falls in a part that runs: the port is reset, its lanes go OFF, and the fall is counted (R799). -/
def State.perstCut (s : State) : State :=
  let t := ((List.range 16).foldl State.laneOff s.portReset).bump F.PCI_PERSTS
  if s.on F.PCI_STAT_DL_UP then t.post E.PCI_LINK_DOWN 0 else t

/-- Settings of a PCIE segment that waited for PERST_N apply (R791). -/
def State.applyDeferred (s : State) : State :=
  match s.pci.deferred with
  | some p => s.applyPcie p
  | none => s

/-- PERST_N_ASSERT (R49, R88, R106, R734, R799, R898). -/
def execPerstNAssert (s : State) : Res :=
  let low := s.pci.perst
  let s : State := { s with pci.perst := true, pci.inReset := true }
  .next (s.when (!low) (fun s => s.perstCut.applyDeferred))

/-- PERST_N_RISE (R785, R804, R898): Detect starts where the hard block is ready. -/
def execPerstNRise (s : State) : Res :=
  let low := s.pci.perst
  let s : State := { s with pci.perst := false, pci.inReset := s.pci.inReset && !(low && s.dark) }
  .next (s.when low (fun s => (List.range 16).foldl State.laneOn s.portLeave))

/-- LINK_DOWN (R799, R800): a hot reset, or the data link going down. -/
def execLinkDown (hot : Bool) (s : State) : Res :=
  .next (s.when (s.on F.PCI_STAT_DL_UP) (fun s =>
    let s := s.portReset
    let s := if hot then s else s.bump F.PCI_LINK_DOWNS
    s.post E.PCI_LINK_DOWN (if hot then 1 else 2)))

/-- FLR (R106, R799 to R801): the FLR of the PF clears VF Enable. -/
def execFlr (fn : Nat) (s : State) : Res :=
  .next (s.when (s.fnExists fn && s.on F.PCI_STAT_DL_UP && !s.on F.PCI_FN_STAT_FLR fn) (fun s =>
    let s := if fn = 0 then s.removeVfs else s
    let s := (s.cutCmds (fun f => f == fn)).resetFns (fun f => f == fn)
    ((s.flag F.PCI_FN_STAT_PRESENT true fn).put F.PCI_FN_STAT_FLR 1 fn)))

/-- FLR_DONE (R801). -/
def execFlrDone (fn us : Nat) (s : State) : Res :=
  .next (s.when (s.on F.PCI_FN_STAT_FLR fn) (fun s =>
    ((s.put F.PCI_FN_STAT_FLR 0 fn).bump F.PCI_FLRS).post E.PCI_FLR fn us))

/-! ### Link, widths, L0p (R785, R786, R804) -/

/-- PCIE_HARD_BLOCK_READY (R79, R804): the receivers present termination. -/
def execPcieHardBlockReady (s : State) : Res :=
  .next (s.when (s.cfg.pcieApplied && !s.on F.PCI_STAT_READY) (fun s =>
    let s := (s.put F.PCI_STAT_READY 1).put F.PCI_BRINGUP_US ((s.time - s.cfg.t0) / 1000)
    (List.range 16).foldl State.laneOn s))

/-- Widest width up to `max` without a felled lane, and whether its lanes are taken in reverse (R785). -/
def linkWidth (felled max : Nat) : Option (Nat × Bool) :=
  ([16, 8, 4, 2, 1].filter (· ≤ max)).findSome? (fun w =>
    if bits felled 0 w = 0 then some (w, false)
    else if w < 16 ∧ bits felled (16 - w) w = 0 then some (w, true)
    else none)

/-- The link is in L0 at width `w`: its speed is the lowest of the host's offer, MAX_SPEED and what flit mode allows (R785). -/
def State.linkTrained (s : State) (speed w : Nat) (rev flit : Bool) : State :=
  let up := s.on F.PCI_STAT_DL_UP
  let m := s.rd F.PCI_CTL_MAX_SPEED
  let m := if m = 0 ∨ m = 7 then 6 else m
  let sp := max 1 (min (min speed m) (if flit then 6 else 5))
  let s := ((s.put F.PCI_STAT_LTSSM 0x13).put F.PCI_STAT_SPEED sp).put F.PCI_STAT_WIDTH w
  let s := ((s.flag F.PCI_STAT_FLIT flit).put F.PCI_STAT_L0P 0).flag F.PCI_STAT_REVERSED rev
  let s := (s.put F.PCI_STAT_DL_UP 1).put F.PCI_LANES_USED (if rev then 2 ^ (16 - w) * (2 ^ w - 1) else 2 ^ w - 1)
  let s := ({ s with pci.fullWidth := w }).portLeave
  let s := if up then s else s.post E.PCI_LINK_UP sp w
  if w < 16 then s.post E.PCI_WIDTH_REDUCED w (s.rd F.PCI_LANES_FELLED) else s

/-- PCIE_LINK_UP (R785, R804, R898): the link reaches L0, from Detect or from a retrain. The operands are what the host's
side offers; 64 GT/s needs flit mode. -/
def execPcieLinkUp (speed width : Nat) (m : LinkMode) (s : State) : Res :=
  .next (s.when (s.on F.PCI_STAT_READY && !s.pci.perst && s.rd F.PCI_STAT_LTSSM != 0x13) (fun s =>
    match linkWidth (s.rd F.PCI_LANES_FELLED) width with
    | none => s
    | some (w, rev) =>
      State.linkTrained { s with pci.ppm := m.ppm } speed w rev m.flit))

/-- The link is in L0 in flit mode, where alone L0p works. -/
def State.l0pOk (s : State) : Bool :=
  s.on F.PCI_STAT_DL_UP && s.rd F.PCI_STAT_LTSSM == 0x13 && s.on F.PCI_STAT_FLIT

/-- The width changes by L0p. -/
def State.l0pTo (s : State) (w : Nat) : State :=
  if w = s.rd F.PCI_STAT_WIDTH then s
  else ((s.put F.PCI_STAT_WIDTH w).flag F.PCI_STAT_L0P (decide (w < s.pci.fullWidth))).bump F.PCI_L0P_CHANGES

/-- L0P_HOST_REQUEST (R786): every width change the host asks for is accepted. -/
def execL0pHostRequest (width : Nat) (s : State) : Res :=
  .next (s.when (s.l0pOk && [1, 2, 4, 8, 16].contains width && decide (width ≤ s.pci.fullWidth)) (fun s => s.l0pTo width))

/-- L0P_NARROW (R786): after 100 µs of low load, to PCI_CTL.L0P_WIDTH. -/
def execL0pNarrow (s : State) : Res :=
  let w := 8 / 2 ^ s.rd F.PCI_CTL_L0P_WIDTH
  .next (s.when (s.l0pOk && s.on F.PCI_CTL_L0P_INIT && decide (w < s.rd F.PCI_STAT_WIDTH)) (fun s => s.l0pTo w))

/-- L0P_WIDEN (R786): a TLP has waited 1 µs. -/
def execL0pWiden (s : State) : Res :=
  .next (s.when (s.l0pOk && s.on F.PCI_STAT_L0P) (fun s => s.l0pTo s.pci.fullWidth))

/-- A write of PCI_CTL: RETRAIN = 1 retrains a link that is up; a retrain in progress absorbs it (R806). -/
def State.pciCtl (s : State) (v : Nat) : State :=
  let s := (s.put F.PCI_CTL_L0P_INIT (bits v 0 1)).put F.PCI_CTL_L0P_WIDTH (bits v 1 2)
  let s := s.put F.PCI_CTL_MAX_SPEED (bits v 4 3)
  if bit v 8 ∧ s.rd F.PCI_STAT_LTSSM = 0x13 then s.put F.PCI_STAT_LTSSM 0x0B else s

/-- PCIE_RETRAIN (R806): PCI_CTL is written. -/
def execPcieRetrain (req : Req) (value : Nat) (s : State) : Res :=
  .next (s.when true (fun s => s.byReq req (F.PCI_CTL_RETRAIN.off 0 0) (fun s => s.pciCtl value)))

/-! ### MSI-X (R798) -/

/-- A message whose masks have cleared is sent. -/
def State.msixRelease (s : State) (fn vec : Nat) : State :=
  let k := 4096 * fn + vec
  let v := Map.get {} s.pci.vecs k
  if v.pending ∧ ¬ v.masked ∧ ¬ s.on F.PCI_FN_STAT_FN_MASK fn then
    ({ s with pci.vecs := Map.set {} s.pci.vecs k { v with pending := false } }).msix fn vec
  else s

/-- MSIX_UNMASK (R798): the mask of one vector clears. -/
def execMsixUnmask (fn vec : Nat) (s : State) : Res :=
  .next (s.when (s.fnExists fn && decide (vec < s.rd F.QQP_CAP_VECTORS fn)) (fun s =>
    { s with pci.vecs := Map.upd {} s.pci.vecs (4096 * fn + vec) (fun v => { v with masked := false }) }.msixRelease fn vec))

/-- Every vector of a function whose masks allow it is released, in order. -/
def State.msixAll (s : State) (fn : Nat) : State :=
  ((s.pci.vecs.filter (fun e => e.1 / 4096 == fn)).map (fun e => e.1 % 4096)).foldl (fun s v => s.msixRelease fn v) s

/-- Messages that waited for Bus Master Enable and D0 leave (R802). -/
def State.heldRelease (s : State) (fn : Nat) : State :=
  if s.master fn then
    let l := s.pci.held.filter (fun x => x.1 == fn)
    l.foldl (fun s x => s.msix x.1 x.2) { s with pci.held := s.pci.held.filter (fun x => x.1 != fn) }
  else s

/-! ### Configuration requests (R801, R802, R806) -/

/-- An Unsupported Request answer (Table PCI-5). -/
def State.urSent (s : State) (fn : Nat) : State := (s.bump F.PCI_UR_SENT).post E.PCI_AER fn (2 ^ 20)

/-- VF Enable is set: VFs 1 to `num` exist, each with the PF's VF Memory Space Enable. -/
def State.addVfs (s : State) (num : Nat) : State :=
  (List.range num).foldl (fun s i => s.put F.PCI_FN_STAT_PRESENT 1 (i + 1)) { s with pci.vfEn := true, pci.numVfs := num }

/-- What a configuration write changes (Table PCI-6). -/
def State.cfgWrite (s : State) (fn : Nat) (r : CfgReq) : State :=
  match r with
  | .other => s
  | .command mse bme =>
    let s := if fn = 0 then s.flag F.PCI_FN_STAT_MSE mse 0 else s
    (s.flag F.PCI_FN_STAT_BME bme fn).heldRelease fn
  | .msix en mask =>
    let s := (s.flag F.PCI_FN_STAT_MSIX_EN en fn).flag F.PCI_FN_STAT_FN_MASK mask fn
    if en then s.msixAll fn
    else { s with
      pci.vecs := Map.mapAll {} (fun k v => if k / 4096 = fn then { v with pending := false } else v) s.pci.vecs
      pci.held := s.pci.held.filter (fun x => x.1 != fn) }
  | .power d => if d = 0 ∨ d = 3 then (s.put F.PCI_FN_STAT_DSTATE d fn).heldRelease fn else s
  | .sriov en mse num =>
    if fn ≠ 0 then s
    else
      let s := if ¬ en then (if s.pci.vfEn then s.removeVfs else s)
        else if s.pci.vfEn then s
        else if num ≤ s.pci.totalVfs then s.addVfs num
        else s
      if s.pci.vfEn then (List.range s.pci.numVfs).foldl (fun s i => s.flag F.PCI_FN_STAT_MSE mse (i + 1)) s else s
  | .bar4 gib => if fn = 0 ∧ [1, 2, 4, 8, 16, 32, 64, 128].contains gib ∧ gib ≤ s.pci.bar4Max then { s with pci.bar4 := gib } else s
  | .device ro nt mps mrrs =>
    let upd (l : List Nat) (b : Bool) : List Nat := if b then (if l.contains fn then l else l ++ [fn]) else l.filter (· ≠ fn)
    { s with pci.relaxed := upd s.pci.relaxed ro, pci.noTmo := upd s.pci.noTmo nt
             pci.mps := Map.set 0 s.pci.mps fn (mps % 8), pci.mrrs := Map.set 2 s.pci.mrrs fn (mrrs % 8) }

/-- CONFIGURATION_REQUEST (R798, R801, R802, R804): answered while the data link is up; to a function that is not there
the answer is Unsupported Request. -/
def execConfigurationRequest (fn : Nat) (r : CfgReq) (s : State) : Res :=
  .next (s.when (s.on F.PCI_STAT_DL_UP && !s.on F.PCI_FN_STAT_FLR fn) (fun s =>
    if s.fnExists fn then s.cfgWrite fn r else s.bump F.PCI_UR_SENT))

/-! ### Reads of host memory (R104, R441, R784, R805) -/

/-- The descriptors of an SGL are well formed and cover the transfer (Table QQP-3, R120). -/
def sglOk (e blkB : Nat) (l : List Sgl) : Bool :=
  l.length == sqDp2 e % 256 + 1
    && l.all (fun d => d.addr % 4 == 0 && d.len != 0 && d.len % 4 == 0 && d.flags / 2 == 0
      && (d.flags % 2 == 0 || sqOp e == 0x02))
    && (l.map (fun d => d.len)).sum == sqLen e * blkB

/-- A command waits for host memory: an SGL not yet read, data blocks of a write, or the key blob of KEY_IMPORT. -/
def Cmd.hostWaits (c : Cmd) : Bool :=
  let op := sqOp c.sqe
  !c.internal && !c.ended && !c.completed && !c.hostErr && !c.cut
    && ((sqSgl c.sqe && !c.sglGot && (op == 0x01 || op == 0x02 || op == 0x08))
      || ((op == 0x01 || op == 0x08) && decide (c.hostData.length < sqLen c.sqe)) || op == 0x45)

/-- Block size that a transfer command counts in. -/
def State.cmdBlk (s : State) (c : Cmd) : Nat :=
  match s.tractKey c.fn (sqTract c.sqe) with
  | some t => (s.tract t).blkBytes
  | none => 512

/-- Host address of the first byte that a read of host memory did not bring. -/
def State.hostNext (s : State) (c : Cmd) : Nat :=
  if sqSgl c.sqe then
    if c.sglGot then ((sglSpans c.sgl (c.hostData.length * s.cmdBlk c) 1).head?.map Prod.fst).getD (sqDp1 c.sqe) else sqDp1 c.sqe
  else sqDp1 c.sqe + c.hostData.length * s.cmdBlk c

/-- Requests that `n` bytes from a host address take, at most `mx` bytes each (R782). -/
def reqCount (mx a n : Nat) : Nat :=
  let f := min n (4096 - a % 4096)
  let up (x : Nat) : Nat := (x + mx - 1) / mx
  up f + (n - f) / 4096 * up 4096 + up ((n - f) % 4096)

/-- Bytes that the first `g` of them bring. -/
def reqBytes (mx a n g : Nat) : Nat :=
  let f := min n (4096 - a % 4096)
  let up (x : Nat) : Nat := (x + mx - 1) / mx
  if g ≤ up f then min f (g * mx)
  else
    let h := g - up f
    min n (f + h / up 4096 * 4096 + min 4096 (h % up 4096 * mx))

/-- Data that a write still needs from host memory: address and length of each span. -/
def State.readSpans (s : State) (c : Cmd) : List (Nat × Nat) :=
  let b := s.cmdBlk c
  let o := c.hostData.length * b
  let n := sqLen c.sqe * b - o
  if ¬ c.hostWaits ∨ ¬ isWriteOp (sqOp c.sqe) ∨ (sqSgl c.sqe ∧ ¬ c.sglGot) then []
  else if sqSgl c.sqe then (sglSpans c.sgl o n).map (fun x => (x.1, x.2.2.1))
  else [(sqDp1 c.sqe + o, n)]

/-- Requests a command has for host memory. -/
def State.readsOf (s : State) (c : Cmd) : Nat :=
  if ¬ c.hostWaits then 0
  else if sqSgl c.sqe ∧ ¬ c.sglGot ∨ ¬ isWriteOp (sqOp c.sqe) then 1
  else ((s.readSpans c).map (fun x => reqCount (s.maxRead c.fn) x.1 x.2)).sum

/-- Bytes that `g` requests bring from a list of spans. -/
def spanBytes (mx : Nat) : List (Nat × Nat) → Nat → Nat
  | [], _ => 0
  | x :: l, g =>
    let k := reqCount mx x.1 x.2
    if g ≤ k then reqBytes mx x.1 x.2 g else x.2 + spanBytes mx l (g - k)

/-- Requests of the commands before `k`, by the time of their fetch and then by their tag: the port serves them first (log entry 202). -/
def State.readsBefore (s : State) (k : Nat) : Nat :=
  match s.cmd k with
  | none => 0
  | some c => (s.qqp.cmds.map (fun e => match e.2 with
    | some d => if d.tAdmit < c.tAdmit ∨ (d.tAdmit = c.tAdmit ∧ e.1 < k) then s.readsOf d else 0
    | none => 0)).sum

/-- The port holds at most 4,096 host reads outstanding (R782): blocks that the outstanding ones of a command can bring. -/
def State.readRoom (s : State) (k : Nat) (c : Cmd) : Nat :=
  spanBytes (s.maxRead c.fn) (s.readSpans c) (4096 - s.readsBefore k) / s.cmdBlk c

/-- A read of host memory has failed: an AER report, and the data fault or the stop of the queue pair (Table PCI-5). -/
def State.hostFault (s : State) (t : HostTgt) (aer : Nat) (tmo poi : Bool) : State :=
  let count (s : State) : State :=
    let s := if tmo then s.bump F.PCI_CPL_TMOS else s
    if poi then s.bump F.PCI_POISON_RX else s
  match t with
  | .cmd k =>
    match s.cmd k with
    | some c =>
      if c.hostWaits ∧ s.tlpOk c.fn then
        let s := (count s).post E.QQP_DATA_FAULT c.fn (s.hostNext c) (if k < 65536 then some k else none)
        (s.post E.PCI_AER c.fn (2 ^ aer)).updCmd k (fun c => { c with hostErr := true })
      else s
    | none => s
  | .queue fn q =>
    if (s.qp fn q).live ∧ s.tlpOk fn then
      ((count s).post E.PCI_AER fn (2 ^ aer)).updQp fn q (fun p => { p with stopped := true })
    else s

/-- HOST_READ_COMPLETION (R104, R119, R120, R441, R782, R805): data or descriptors arrive, or an error. -/
def execHostReadCompletion (t : HostTgt) (d : HostRead) (s : State) : Res :=
  .next (s.when true (fun s => match d with
    | .error .ur => s.hostFault t 20 false false
    | .error .ca => s.hostFault t 15 false false
    | .error .poisoned => s.hostFault t 12 false true
    | .error .ecrc => s.hostFault t 19 false false
    | .blocks l =>
      match t with
      | .queue _ _ => s
      | .cmd k =>
        match s.cmd k with
        | some c =>
          if c.hostWaits ∧ s.tlpOk c.fn ∧ isWriteOp (sqOp c.sqe) ∧ (c.sglGot ∨ ¬ sqSgl c.sqe) then
            let m := 2 ^ (8 * s.cmdBlk c)
            let l := l.take (s.readRoom k c)
            s.updCmd k (fun c => { c with hostData := (c.hostData ++ l.map (· % m)).take (sqLen c.sqe) })
          else s
        | none => s
    | .sgl l =>
      match t with
      | .queue _ _ => s
      | .cmd k =>
        match s.cmd k with
        | some c =>
          if c.hostWaits ∧ s.tlpOk c.fn ∧ sqSgl c.sqe ∧ ¬ c.sglGot then
            if (s.tractKey c.fn (sqTract c.sqe)).isNone ∨ sglOk c.sqe (s.cmdBlk c) l then s.updCmd k (fun c => { c with sgl := l, sglGot := true })
            else s.failCmd k 0x03 2 0 24
          else s
        | none => s))

/-- HOST_COMPLETION_TIMEOUT (R441, R784, R805): not while the function's completion timeout is disabled. -/
def execHostCompletionTimeout (t : HostTgt) (s : State) : Res :=
  let fn := match t with
    | .cmd k => ((s.cmd k).map (fun c => c.fn)).getD 0
    | .queue fn _ => fn
  .next (s.when (!s.pci.noTmo.contains fn) (fun s => s.hostFault t 14 true false))

end Sys2Proof.Machine
end

