-- ==== Sys2Proof/Machine/RawPort.lean ====
section
/-! DEFINITION. Raw NAND sequences of user logic and the lending of blocks (R320 to R326). -/

namespace Sys2Proof.Machine
open Sys2Proof

/-! ### Checks (R322, Table MED-9) -/

/-- Format of a descriptor (Tables MED-7 and MED-8), check 2. -/
def rawFormat (hbmTop : Nat) (d : Raw) : Bool :=
  let bufOk : Bool := match daDest d.buf with
    | .hbm x => decide (x < hbmTop)
    | .spm _ _ => true
    | .landing _ _ => true
    | _ => false
  decide (d.cls < 8) && d.zeros && decide (d.flags < 4) && decide (d.prio < 8) && decide (d.target < 2 ^ 48) && bufOk
    && decide (16 ≤ d.bufLen) && decide (d.bufLen ≤ 65552) && decide (1 ≤ d.tmo) && decide (d.tmo ≤ 1000000)
    && decide (d.cycles.length = d.count)
    && (if d.cls = 6 ∨ d.cls = 7 then d.count == 0 else decide (1 ≤ d.count) && decide (d.count ≤ 32))
    && d.cycles.all (fun c => decide (c.ty < 6) && c.zeros)
    && decide (rawBytes d 2 + rawBytes d 3 + 16 ≤ d.bufLen)

/-- A Set Features (0xEF) to feature address 0x01, 0x02 or 0x10 stands in the cycles. -/
def setsFeature : List RawCyc → Bool
  | c :: l => (c.ty == 0 && c.val == 0xEF && (match l.find? (fun x => x.ty == 1) with
      | some a => a.val == 0x01 || a.val == 0x02 || a.val == 0x10
      | none => false)) || setsFeature l
  | [] => false

/-- Opcodes a sequence may hold (R322), check 3. `susp` are the timing set's suspend and resume opcodes. -/
def rawOpcodes (susp : List Nat) (d : Raw) : Bool :=
  let cmds := (d.cycles.filter (fun c => c.ty == 0)).map (fun c => c.val)
  cmds.all (fun v => !([0xFF, 0xE1, 0xF9, 0xD9] ++ susp).contains v)
    && (!cmds.contains 0xFA || (d.cls == 5 && cmds.length == 1)) && !setsFeature d.cycles

/-- Blocks lent to a landing. -/
def State.lent (s : State) (n : Nat) : Nat := Map.count (fun _ b => b.st == 4 && b.landing == n) s.med.blocks

/-- Check 6: the block's state for the class. A landing that holds 4,096 lent blocks gets no more (R325). -/
def State.rawBlock (s : State) (n : Nat) (d : Raw) : Bool :=
  let b := s.bte d.target
  let mine := b.st == 4 && b.landing == n
  if d.cls = 2 ∨ d.cls = 3 ∨ d.cls = 7 then mine
  else if d.cls = 6 then b.st == 0 && decide (s.lent n < 4096)
  else true

/-- Check 7 for an IMMEDIATE sequence (Table MED-10). -/
def State.rawState (s : State) (n : Nat) (d : Raw) : Bool :=
  let ch := maCh d.target
  let u := uOf d.target
  let st := s.lunSt ch u
  let own := (s.lun ch u).cur.any (fun o => decide (o.who = .raw n))
  if ¬ bit d.flags 1 then true
  else if d.cls = 0 then st != 15
  else if d.cls = 1 then st == 2 || ((st == 7 || st == 8) && (s.lun ch u).cur.isEmpty)
  else if d.cls = 5 then st == 2 || (st == 10 && own)
  else st == 2

/-- First check of Table MED-9 that a submission of landing `n` fails at its port of a media die: its code. -/
def State.rawCheck (s : State) (n : Nat) (die : Nat) (d : Raw) : Option Nat :=
  let ch := maCh d.target
  if ¬ bit (s.rd F.MED_RAW_EN die (n / 32)) (n % 32) then some 0x04
  else if ¬ rawFormat s.hbmTop d then some 0x03
  else if ¬ rawOpcodes ((List.range 4).map (fun i => s.ts ch (0x1C + i) 1)) d then some 0x03
  else if ¬ (s.maValid d.target ∧ dieOf ch = die) then some 0x03
  else if ¬ s.owned (grpOf ch) then some 0x04
  else if ¬ s.rawBlock n d then some 0x04
  else if d.cls < 6 ∧ ¬ s.rawState n d then some 0x04
  else none

/-! ### Submission -/

/-- Checks common to every class; the sequence of an accepted submission goes on with `f`. A write to another landing's port
is discarded (R320). -/
def State.rawSubmit (s : State) (n port die txn cls : Nat) (d : Raw) (f : State → State) : State :=
  let k := min d.cls 8
  if ¬ s.cfg.userOn ∨ 128 ≤ n ∨ 2 ≤ die ∨ ¬ (k = cls ∨ (cls = 0 ∧ k = 8)) then s
  else if port ≠ n then
    (s.post E.ACCESS_DENIED (reqCode (.landing n)) (ctrlAddr (0x100000 * (9 + die) + 0x80000 + 0x100 * port))).rawAnswer n txn 0
  else match s.rawCheck n die d with
  | some st => s.rawRefuse n txn die st d
  | none => f s

/-- The operation of a sequence. -/
def rawOp (n txn : Nat) (d : Raw) : Op := { kind := .raw, addr := d.target, prio := d.prio, who := .raw n, raw := d, txn := txn }

/-- A sequence without IMMEDIATE waits in the LUN's queue; one with it starts at once (R324). -/
def State.rawStart (s : State) (n txn : Nat) (d : Raw) : State :=
  let ch := maCh d.target
  let u := uOf d.target
  let o := { rawOp n txn d with id := s.med.nextOp }
  if ¬ bit d.flags 1 then s.enqueue o
  else
    let st := s.lunSt ch u
    let old := (s.lun ch u).cur.filter (fun x => !x.ended)
    let s : State := { s with med.nextOp := s.med.nextOp + 1 }
    let s := s.runOps ch u [o] (if st = 7 ∨ st = 8 then st else 10)
    if st = 10 then old.foldl (fun s x => s.drawn.rawEnd x (s.freeNat % 256) {}) s else s

/-- RAW_STATUS (R320 to R324): the class with CLASS 0; a reserved CLASS is refused here by check 2. With IMMEDIATE it reads
the status at once, in whatever state the LUN is. -/
def execRawStatus (landing port die txn : Nat) (d : Raw) (r : RawEnd) (s : State) : Res :=
  .next (s.when true (fun s => s.rawSubmit landing port die txn 0 d (fun s =>
    if bit d.flags 1 then s.rawEnd (rawOp landing txn d) 0 r else s.rawStart landing txn d)))

/-- RAW_READ_LIKE (R320 to R324). -/
def execRawReadLike (landing port die txn : Nat) (d : Raw) (s : State) : Res :=
  .next (s.when true (fun s => s.rawSubmit landing port die txn 1 d (fun s => s.rawStart landing txn d)))

/-- RAW_PROGRAM_LIKE (R320 to R325). -/
def execRawProgramLike (landing port die txn : Nat) (d : Raw) (s : State) : Res :=
  .next (s.when true (fun s => s.rawSubmit landing port die txn 2 d (fun s => s.rawStart landing txn d)))

/-- RAW_ERASE_LIKE (R320 to R325). -/
def execRawEraseLike (landing port die txn : Nat) (d : Raw) (s : State) : Res :=
  .next (s.when true (fun s => s.rawSubmit landing port die txn 3 d (fun s => s.rawStart landing txn d)))

/-- RAW_FEATURE (R320 to R324). -/
def execRawFeature (landing port die txn : Nat) (d : Raw) (s : State) : Res :=
  .next (s.when true (fun s => s.rawSubmit landing port die txn 4 d (fun s => s.rawStart landing txn d)))

/-- RAW_RESET_LUN (R320 to R324): over a running sequence of its own landing, that sequence ends; the status it ends with is
open (a free value). -/
def execRawResetLun (landing port die txn : Nat) (d : Raw) (s : State) : Res :=
  .next (s.when true (fun s => s.rawSubmit landing port die txn 5 d (fun s => s.rawStart landing txn d)))

/-- RAW_LEND (R325): the free block is taken out of the part's use. -/
def execRawLend (landing port die txn : Nat) (d : Raw) (s : State) : Res :=
  .next (s.when true (fun s => s.rawSubmit landing port die txn 6 d (fun s =>
    let s := s.updBte d.target (fun b => { b with st := 4, landing := landing })
    (s.rawEnd (rawOp landing txn d) 0 {}).gcCheck (grpOf (maCh d.target)))))

/-- RAW_RETURN (R325): the block is queued for erase and then for the free pool. -/
def execRawReturn (landing port die txn : Nat) (d : Raw) (s : State) : Res :=
  .next (s.when true (fun s => s.rawSubmit landing port die txn 7 d (fun s =>
    let s := s.updBte d.target (fun b => { b with st := 2, landing := 0 })
    let s := s.enqueue { kind := .erase, addr := maErase d.target, prio := s.iprio 0x11, who := .raw landing }
    s.rawEnd (rawOp landing txn d) 0 {})))

end Sys2Proof.Machine
end

