-- ==== Sys2Proof/Machine/Flags.lean ====
section
/-! DEFINITION. What a register reads: the fields at a word, the values that the part derives from its state, pairs and
their shadows, the windows beyond the control pages and the bit-alias window (R810 to R833, R843 to R846, R488). -/

namespace Sys2Proof.Machine
open Sys2Proof

/-! ### Words and fields -/

/-- Indexes of a field's array for which the word at offset `o` holds it. -/
def Fld.at? (f : Fld) (o : Nat) : Option (Nat × Nat) :=
  if o < f.base then none
  else
    let d := o - f.base
    let i := if f.s1 = 0 then 0 else d / f.s1
    let r := d - f.s1 * i
    let j := if f.s2 = 0 then 0 else r / f.s2
    if i < f.n1 ∧ j < f.n2 ∧ f.off i j = o then some (i, j) else none

/-- Fields of the register at word offset `o`, with their indexes. -/
def fieldsAt (o : Nat) : List (Fld × Nat × Nat) :=
  (F.ofBlock (o % 0x4000000 / 0x100000)).filterMap (fun f => (f.at? o).map (fun x => (f, x)))

/-- Offset of a word in the register store: the QQP block shows each function its own registers (R175). A requester that
is no function sees those of the PF (DEDUCED, log entry 19). -/
def viewOff (req : Req) (o : Nat) : Nat :=
  match req with
  | .host fn => if o / 0x100000 = 19 then o + 0x4000000 * fn else o
  | _ => o

/-- Code of a requester for its shadows and stages (R819). -/
def stageKey (req : Req) (o : Nat) : Nat := 2 ^ 40 * reqCode req + o

/-! ### Values that follow the state -/

/-- Records from EVT_ACK to EVT_SEQ − 1, capped at 4,096 (Table FLT-11, R474). -/
def State.evtPending (s : State) : Nat :=
  min 4096 ((s.rd F.EVT_SEQ + (2 ^ 32 - 1) - s.rd F.EVT_ACK) % (2 ^ 32 - 1))

/-- EVT_STAT.PIN (R480): an unacknowledged record of PIN_SEV or higher is held in the ring. -/
def State.evtPin (s : State) : Bool :=
  s.evt.ring.any (fun e => e.2.seq != 0 && seqAtOrAfter e.2.seq (s.rd F.EVT_ACK)
    && decide (s.rd F.EVT_CTL_PIN_SEV ≤ e.2.sev))

/-- GLB_ACCESS of a requester (R830, R833): its two bits for each block index, 0b10 shown as 0b00; the PF reaches GLB and
CFG at least read-only (R91). -/
def State.accessPair (s : State) (req : Req) : Nat :=
  if ¬ s.cfg.policyOk then 0
  else (List.range 32).foldr (fun n v =>
    let m := s.access req n
    let m := if m = 2 then 0 else m
    let m := if req = .host 0 ∧ n < 2 ∧ m = 0 then 1 else m
    v + m * 4 ^ n) 0

/-- Fields of GLB. -/
def State.viewGlb (s : State) (req : Req) (f : Fld) (i j : Nat) : Nat :=
  if f = F.GLB_DIE_ID_LO then s.fuses.dieId % 2 ^ 32
  else if f = F.GLB_DIE_ID_HI then s.fuses.dieId / 2 ^ 32
  else if f = F.GLB_TIME_LO then s.time % 2 ^ 32
  else if f = F.GLB_TIME_HI then s.time / 2 ^ 32
  else if f = F.GLB_STATE_DONE then b2n s.cfg.done
  else if f = F.GLB_STATE_PFAIL then b2n s.lve.pfLow
  else if f = F.GLB_STATE_PAIR then s.rd F.LVE_STAT_PAIR
  else if f = F.GLB_STATE_REFUSED then b2n s.refused
  else if f = F.GLB_ACCESS_LO then s.accessPair req % 2 ^ 32
  else if f = F.GLB_ACCESS_HI then s.accessPair req / 2 ^ 32
  else if f = F.GLB_RETRY_EFF_LIMIT then if s.cfg.policyOk then s.retryLimit else 0
  else if f = F.GLB_RETRY_EFF_STEP1 then if s.cfg.policyOk then s.retryStep 1 else 0
  else if f = F.GLB_RETRY_EFF_STEP2 then if s.cfg.policyOk then s.retryStep 2 else 0
  else if f = F.GLB_RETRY_EFF_STEP3 then if s.cfg.policyOk then s.retryStep 3 else 0
  else if f = F.GLB_EVT_SEQ then s.rd F.EVT_SEQ
  else if f = F.GLB_EVT_PENDING then s.evtPending
  else if f.base = F.GLB_RESULT_LO_VALID.base ∨ f.base = F.GLB_RESULT_HI_CID.base then
    match req with
    | .host (_ + 1) => 0
    | _ => s.rd f i j
  else s.rd f i j

/-- Fields of CFG. -/
def State.viewCfg (s : State) (f : Fld) (i j : Nat) : Nat :=
  let d := Map.get none s.sl.dikes (s.rd F.CFG_SL_DIKE_SEL_STAND)
  if f = F.CFG_LOAD_TIME then
    if s.cfg.done then s.rd f else min (2 ^ 32 - 1) ((s.time - s.cfg.t0) / 1000)
  else if f = F.CFG_STATUS_REVOKED then s.fuses.revoked
  else if f = F.CFG_SL_DIKE_VAL_HOLDING then b2n d.isSome
  else if f = F.CFG_SL_DIKE_VAL_VALUE then
    b2n ((d.bind (fun l => l[s.rd F.CFG_SL_DIKE_SEL_LATCH]?)).getD s.freeBool)
  else s.rd f i j

/-- Divider of the root PLL behind the clock that CLK_OUT shows (Table CLK-1, R722). -/
def State.outDiv (s : State) : Nat :=
  match s.rd F.CLK_OUT_CTL_SEL with
  | 2 => s.rd F.CLK_DIV_HUB
  | 3 => s.rd F.CLK_DIV_MED
  | 4 => s.rd F.CLK_DIV_HBM
  | 5 => s.rd F.CLK_DIV_CFG
  | 6 => max 9 (min 4096 (s.rd F.CLK_UCLK_DIV (s.rd F.CLK_OUT_CTL_UDIE) (s.rd F.CLK_OUT_CTL_USPINE)))
  | _ => 72

/-- Fields of CLK: the divider in use keeps the pin at 200 MHz or below (R722). -/
def State.viewClk (s : State) (f : Fld) (i j : Nat) : Nat :=
  if f = F.CLK_OUT_CTL_DIV_NOW then
    max (max 1 (s.rd F.CLK_OUT_CTL_DIV)) ((36 + s.outDiv - 1) / max 1 s.outDiv)
  else s.rd f i j

/-- Fields of SDS: PCIe and Levee lanes have fixed modes and are enabled by their units (R744, R747). -/
def State.viewSds (s : State) (f : Fld) (i j : Nat) : Nat :=
  if f = F.SDS_LANE_CTL_MODE ∧ ¬ laneGeneral i then (if lanePcie i then 4 else 5)
  else if f = F.SDS_LANE_CTL_EN ∧ ¬ laneGeneral i then b2n (s.laneEn i)
  else s.rd f i j

/-- Polders that Table PWR-1 lets go down at all. -/
def switchable (p : Nat) : Bool :=
  (decide (1 ≤ p) && decide (p ≤ 48)) || (decide (50 ≤ p) && decide (p ≤ 64)) || (decide (69 ≤ p) && decide (p ≤ 72)) || p == 76

/-- Fields of PWR. -/
def State.viewPwr (s : State) (f : Fld) (i j : Nat) : Nat :=
  if f = F.PWR_POL_STAT_SWITCHABLE then b2n (switchable i)
  else if f = F.PWR_XING_STAT then
    (List.range 6).foldl (fun v x => v + b2n (s.pwr.fences.any (fun y => y.1 == x + 1)) * 2 ^ (x + 1))
      (s.rd F.PWR_XING_STAT % 2)
  else s.rd f i j

/-- Entry that NOC_RT_SEL shows. -/
def State.rtShown (s : State) : Nat × Nat := (s.rd F.NOC_RT_SEL_NI, s.rd F.NOC_RT_SEL_DST)

/-- Closed ports of the router that NOC_RTR_SEL shows, as a mask. -/
def State.rtrMask (s : State) : Nat :=
  ((List.range 31).filter (fun p => s.noc.closed.contains (32 * s.rd F.NOC_RTR_SEL + p))).foldl (fun v p => v + 2 ^ p) 0

/-- Fields of NOC. -/
def State.viewNoc (s : State) (f : Fld) (i j : Nat) : Nat :=
  let x := s.rtShown
  if f = F.NOC_STAT_ISOLATED then ((List.range 1024).filter (fun n => s.on F.NOC_NI_STAT_ISOLATED n)).length
  else if f = F.NOC_RT_PRI_LO then s.routeOf x.1 x.2 false % 2 ^ 32
  else if f = F.NOC_RT_PRI_HI then s.routeOf x.1 x.2 false / 2 ^ 32
  else if f = F.NOC_RT_ALT_LO then s.routeOf x.1 x.2 true % 2 ^ 32
  else if f = F.NOC_RT_ALT_HI then s.routeOf x.1 x.2 true / 2 ^ 32
  else if f = F.NOC_RT_FLAGS_P_OK then b2n (s.rte x.1 x.2).pOk
  else if f = F.NOC_RT_FLAGS_A_OK then b2n (s.rte x.1 x.2).aOk
  else if f = F.NOC_RTR_CLOSE ∨ f = F.NOC_RTR_STAT then s.rtrMask
  else if f = F.NOC_NI_STAT_ALT then
    b2n (s.noc.routes.any (fun e => e.1 / 1024 == i && !e.2.pOk && e.2.aOk))
  else if f = F.NOC_NI_STAT_OUTSTANDING then s.outstanding i
  else s.rd f i j

/-- Fields of DCK (R255, R256, R280, R289, Table DCK-7). -/
def State.viewDck (s : State) (f : Fld) (i j : Nat) : Nat :=
  if f = F.DCK_STAT_SPILLING then b2n (s.spillDepth != 0)
  else if f = F.DCK_STAT_SPILL_FULL then b2n ((List.range 8).any (fun p => decide (ringSize ≤ s.spilled p)))
  else if f = F.DCK_STAT_CTX_FULL then b2n (!s.ctxFree)
  else if f = F.DCK_SPILL_DEPTH then s.spillDepth
  else if f = F.DCK_CTX_USED then s.dck.ctxs.length
  else if f = F.DCK_Q_DEPTH then
    (s.tasksWhere (fun t => t.prio == i % 8 && t.internal == decide (8 ≤ i)
      && (decide (t.st = .ready) || decide (t.st = .spilled)))).length
  else if f = F.DCK_POOL_STAT_ENGINES then s.poolEngines i
  else if f = F.DCK_POOL_STAT_MODE then s.poolMode i
  else if f = F.DCK_POOL_STAT_FELLED then
    ((List.range 352).filter (fun e => s.rd F.DCK_ENG_STAT_POOL e == i && s.engSt e == 4)).length
  else s.rd f i j

/-- Fields of TLY. -/
def State.viewTly (s : State) (f : Fld) (i j : Nat) : Nat :=
  if f = F.TLY_STAT_FAULT_FULL then b2n s.tly.fullEp
  else if f = F.TLY_FRAMES_DIRTY then
    Map.count (fun _ o => (o.map (fun x => x.dirty)).getD false) s.tly.frames
  else if f = F.TLY_FAULTS_OPEN then s.tly.loads.length
  else if f = F.TLY_MAP_FREE_MAX then s.mapFreeMax
  else if f = F.TLY_MAP_USED then (s.usedRanges.map Prod.snd).sum
  else s.rd f i j

/-- The task a skidder holds. -/
def State.skdTask (s : State) (e : Nat) : Option Task := (s.taskOn e false).bind s.task

/-- Fields of SKD (Table REG-5): a skidder parks once the Deck has chosen its task as a victim, and waits once its segment
has no translated IU left and a load of its page stands. -/
def State.viewSkd (s : State) (f : Fld) (i j : Nat) : Nat :=
  if f = F.SKD_STAT_TAG then ((s.skdTask i).bind (fun t => t.tag)).getD 0
  else if f = F.SKD_STAT_STATE then
    if s.engSt i = 4 then 4
    else match s.taskOn i false, s.skdTask i with
      | some n, some t =>
        if Map.get none s.dck.preempting t.pool = some n then 3
        else if (s.faultOf n).isSome then 2 else 1
      | _, _ => 0
  else s.rd f i j

/-- Fields of MEDA and MEDB. -/
def State.viewMed (s : State) (f : Fld) (i j : Nat) : Nat :=
  let g := 8 * i + j
  if f = F.MED_GRP_STAT_WIRE then b2n (!(s.drives g || (s.grp g).otherLow))
  else if f = F.MED_LUN_STAT_QDEPTH then min 32 (s.lun (128 * i + j / 64) (j % 64)).queue.length
  else if f = F.MED_FREE_STRIPES then (s.freeStripes g).length
  else if f = F.MED_RING_DATA then
    bytesAt (s.med.ring.getD i 0)
      (0xC0 + 2560 * s.rd F.MED_RING_SEL_TSET i + 16 * s.rd F.MED_RING_SEL_ROW i + 4 * j) 4
  else s.rd f i j

/-- Foreign dirty data in bytes: lines of foreign tracts that this part writes, and the dead partner's lines (Table
LVE-10). -/
def State.foreignHeld (s : State) : Nat :=
  let own := (s.tly.lines.map (fun e => match e.2 with
    | some l => if 4096 ≤ l.tract ∧ l.dirty then l.bytes else 0
    | none => 0)).sum
  own + (if s.lve.foreign ≠ 0 ∨ s.pair = 4 then
    (s.tly.flines.map (fun e => match e.2 with
      | some l => if l.dirty then l.bytes else 0
      | none => 0)).sum else 0)

/-- Bytes still to be copied in RESYNC (R431). -/
def State.resyncLeft (s : State) : Nat :=
  (s.lve.rsLeft.map (fun b => ((s.line b).map (fun l => l.bytes)).getD 0)).sum

/-- Fields of LVE. -/
def State.viewLve (s : State) (f : Fld) (i j : Nat) : Nat :=
  if f = F.LVE_DIRTY_EFF then s.dirtyEff
  else if f = F.LVE_FOREIGN_DIRTY then s.foreignHeld / 2 ^ 20
  else if f = F.LVE_RESYNC_LEFT then s.resyncLeft / 2 ^ 20
  else s.rd f i j

/-- Fields of CRY: the first three regions follow the layout (Table CRY-11). -/
def State.viewCry (s : State) (f : Fld) (i j : Nat) : Nat :=
  if f = F.CRY_STAT_KEYS then ((List.range 239).filter (fun k => s.on F.CRY_KEY_STAT_LOADED (k + 1))).length
  else if f = F.CRY_SEAL_CFG_BASE then s.sealBase i / 2 ^ 28
  else if f = F.CRY_SEAL_CFG_SIZE then s.sealSize i / 2 ^ 28
  else s.rd f i j

/-- Fields of EVT. -/
def State.viewEvt (s : State) (f : Fld) (i j : Nat) : Nat :=
  if f = F.EVT_STAT_PIN then b2n s.evtPin
  else if f = F.EVT_PENDING then s.evtPending
  else s.rd f i j

/-- CREATEs of a landing whose CREATE_ACK is withheld (R647). -/
def State.createsOf (s : State) (n : Nat) : Nat := (s.dck.creates.filter (fun t => t.landing == some n)).length

/-- Fields of LDG. -/
def State.viewLdg (s : State) (f : Fld) (i j : Nat) : Nat :=
  if f = F.LDG_SPINE_STAT_DISABLED then s.fab.spines.length
  else if f = F.LDG_STAT_OUTSTANDING then s.outstanding (0x100 + i)
  else if f = F.LDG_STAT_ENGINES then (s.landingEngines i).length
  else if f = F.LDG_STAT_CREATES then s.createsOf i
  else s.rd f i j

/-- A completion of a function waits for CQ space (Table QQP-10). -/
def State.cqWaits (s : State) (fn : Nat) : Bool :=
  s.qqp.cmds.any (fun e => match e.2 with
    | some c => !c.internal && !c.completed && c.fn == fn && (s.qp fn c.sqid).live && (s.qp fn c.sqid).cqFull
        && (s.outcome e.1 c).isSome
    | none => false)

/-- A queue of the function has its next entry left for cause `r`, which still holds (R123). -/
def State.queueStop (s : State) (fn r : Nat) : Bool :=
  s.qqp.qps.any (fun e => e.1 / 2048 == fn && e.2.live && e.2.stop == r && s.stopHolds e.2)

/-- Causes for which the fetcher stops (R123): no tag free, ready list full, DIRTY_LIMIT reached. -/
def State.fetchStop (s : State) (fn : Nat) : Nat :=
  b2n (decide (65536 ≤ s.tagsUsed) || s.queueStop fn 1) + 2 * b2n (s.hostListFull 1 || s.queueStop fn 2)
    + 4 * b2n (s.dirtyFull || s.queueStop fn 4)

/-- Fields of QQP; the mailbox exists in the PF's view alone (R175). -/
def State.viewQqp (s : State) (f : Fld) (i j : Nat) : Nat :=
  if f = F.QQP_STAT_FETCH_STOP then s.fetchStop i
  else if f = F.QQP_STAT_CQ_FULL then b2n (s.cqWaits i)
  else if (f = F.QQP_MBX_SQE ∨ f = F.QQP_MBX_CQE) ∧ i ≠ 0 then 0
  else s.rd f i j

/-- Value of a field as `req` reads it. A WO field reads 0. -/
def State.view (s : State) (req : Req) (f : Fld) (i j : Nat) : Nat :=
  if f.ty = .wo then 0
  else f.cut (match f.base / 0x100000 with
    | 0 => s.viewGlb req f i j
    | 1 => s.viewCfg f i j
    | 3 => s.viewClk f i j
    | 4 => s.viewPwr f i j
    | 5 => s.viewNoc f i j
    | 6 => s.viewDck f i j
    | 7 => s.viewTly f i j
    | 8 => s.viewSkd f i j
    | 9 => s.viewMed f i j
    | 11 => s.viewLve f i j
    | 12 => s.viewCry f i j
    | 13 => if f = F.HBM_FELL_MAX then s.fellMax else s.rd f i j
    | 15 => s.viewSds f i j
    | 17 => s.viewEvt f i j
    | 18 => s.viewLdg f i j
    | 19 => s.viewQqp f i j
    | 20 => if f = F.INJ_STAT_ACTIVE then
        (List.range 16).foldl (fun v g => v + b2n (s.injActive g) * 2 ^ g) 0 else s.rd f i j
    | _ => s.rd f i j)

/-! ### Words -/

/-- Current value of the register word at store offset `o`; what no field claims reads 0 (R811). -/
def State.word (s : State) (req : Req) (o : Nat) : Nat :=
  (fieldsAt o).foldl (fun v x => v + s.view req x.1 x.2.1 x.2.2 * 2 ^ x.1.lo) 0

/-- The policy window of GLB (R846): the bytes of the running image, zero before CFG_DONE. -/
def State.polWord (s : State) (o : Nat) : Nat := if s.cfg.done then s.pol (o - 0x10000) 4 else 0

/-- The record window of EVT (R488). -/
def State.recWord (s : State) (o : Nat) : Nat := bits (s.slot ((o - 0x1110000) / 32)) (8 * (o % 32)) 32

/-- The _HI word of a pair is latched into the requester's shadow by a read of its _LO word (R817). -/
def State.latch (s : State) (req : Req) (o : Nat) : State :=
  { s with shadow := Map.set none s.shadow (stageKey req o) (some (s.word req (o + 4))) }

/-- The word at `o` has a field of type `t`. -/
def hasTy (o : Nat) (t : RegTy) : Bool := (fieldsAt o).any (fun x => x.1.ty == t)

/-- A read of the register word at store offset `o` (R810, R811, R817): RL latches, RS returns the shadow. -/
def State.readWord (s : State) (req : Req) (o : Nat) : State × Nat :=
  let x := o % 0x4000000
  if 0x10000 ≤ x ∧ x < 0x11000 then (s, s.polWord x)
  else if 0x1110000 ≤ x ∧ x < 0x1130000 then (s, s.recWord x)
  else if ¬ s.answers o then (s, 0)
  else if hasTy o .rs then (s, (Map.get none s.shadow (stageKey req (o - 4))).getD 0)
  else if hasTy o .rl then (s.latch req o, s.word req o)
  else (s, s.word req o)

/-- A read of an alias word (R825 to R827): one bit of the current value. -/
def State.aliasRead (s : State) (req : Req) (a : Nat) : Nat :=
  let x := a - 0x2000000
  let o := viewOff req (0x100000 * (x / 0x20000) + x % 0x20000 / 32 / 4 * 4)
  if s.answers o then s.word req o / 2 ^ (x % 128 / 4) % 2 else 0

end Sys2Proof.Machine
end

