-- ==== Sys2Proof/Machine/Pins.lean ====
section
/-! DEFINITION. The pins of the part and what they show (Table BOT-9, R83, R84, R480, R649 to R651, R722), and the test access port
(R871 to R876). Each pin is a function of the state. -/

namespace Sys2Proof.Machine
open Sys2Proof

/-- What a pin shows: high impedance without a pull; a pull up, a pull down or a keeper; a level driven, low or high; what its own
protocol sends; a lane in electrical idle. -/
inductive Pin where
  | highZ
  | pullUp
  | pullDown
  | keeper
  | drive (level : Bool)
  | active
  | idle
  deriving DecidableEq, Repr

/-! ### The test access port (R871 to R876) -/

/-- Data register that an instruction selects; every opcode outside Table ELE-8 acts as BYPASS (R872). CLAMP and HIGHZ select the
bypass register (log entry 204). -/
inductive TapReg where
  | boundary
  | idcode
  | bypass
  deriving DecidableEq, Repr

/-- Data register of an instruction. -/
def tapReg (ir : Nat) : TapReg :=
  match ir with
  | 0 | 1 | 5 | 6 => .boundary
  | 2 => .idcode
  | _ => .bypass

/-- IDCODE (R873): stepping A1, the part, Serrov's code, and 1. -/
def idcode : Nat := 1 + 2 * (Config.jep106 % 2048) + 2 ^ 12 * 0x0256 + 2 ^ 28 * 1

/-- Instructions that stop the part (Table ELE-8). -/
def stopsPart (ir : Nat) : Bool := [0x00, 0x03, 0x04, 0x05, 0x06].contains ir

/-- EXTEST, EXTEST_PULSE and EXTEST_TRAIN: the boundary register drives the pins. -/
def isExtest (ir : Nat) : Bool := ir == 0 || ir == 5 || ir == 6

/-- Boundary cell of a pin, as last shifted in. -/
def State.bcell (s : State) (p : BPin) : Option BCell := s.tap.bsr.find? (fun c => c.pin == p)

/-- The boundary register drives the pins: EXTEST and its kin, and CLAMP. -/
def State.bsrDrives (s : State) : Bool := isExtest s.tap.ir || s.tap.ir == 3

/-- Wires that the boundary register pulls low while it drives. -/
def State.bsrPulls (s : State) : Nat :=
  if s.bsrDrives then maskOf (fun g => match s.bcell (.own g) with
    | some c => c.drive && !c.level
    | none => false)
  else 0

/-- A wire is high: nobody pulls it. -/
def State.wireHigh (s : State) (g : Nat) : Bool := !s.drives g && !(s.grp g).otherLow && !bit s.tap.pulls g

/-- The wire has been sampled high for 200 µs (R875). -/
def State.wireQuiet (s : State) (g : Nat) : Bool :=
  s.wireHigh g && decide (Map.get 0 s.tap.lowAt g + 200000 ≤ s.tap.ns)

/-- The test access port samples the MG_OWN wires for a ns. -/
def State.tapSample (s : State) : State :=
  { s with
    tap.lowAt := (List.range 16).foldl (fun m g => if s.wireHigh g then m else Map.set 0 m g (s.tap.ns + 1)) s.tap.lowAt
    tap.ns := s.tap.ns + 1 }

/-- A new instruction or new boundary content takes effect: of the wires pulled now, those stay free that were, and those become
free that were high for 200 µs. -/
def State.tapUpdate (s : State) (ir : Nat) (cells : List BCell) : State :=
  let t : State := { s with tap.ir := ir, tap.bsr := if cells = [] then s.tap.bsr else cells }
  let p := t.bsrPulls
  { t with
    tap.pulls := p
    tap.free := maskOf (fun g => bit p g && (if bit s.tap.pulls g then bit s.tap.free g else s.wireQuiet g)) }

/-- The port enters Test-Logic-Reset. -/
def State.tapReset (s : State) : State := s.tapUpdate 2 []

/-! ### What the pins show -/

/-- The part is loading or refused, or its reset holds it: Table BOT-9 before CFG_DONE. -/
def State.unconfigured (s : State) : Bool := !s.cfg.done || s.cfg.held

/-- A pin under the test access port, where its instruction governs the pins: HIGHZ, or a boundary cell. -/
def State.underTest (s : State) (p : BPin) : Option Pin :=
  if s.tap.ir = 4 then some .highZ
  else if s.bsrDrives then some (match s.bcell p with
    | some c => if c.drive then .drive c.level else .highZ
    | none => .highZ)
  else none

/-- Output pins of a media channel (R42, R81, R331; under test R875). -/
def State.mchPin (s : State) (ch pin : Nat) : Pin :=
  match s.underTest (.mch ch pin) with
  | some x => if bit s.tap.free (ch / 16) then x else .highZ
  | none => if ¬ s.unconfigured ∧ s.on F.MED_CH_STAT_DRV_EN (ch / 128) (ch % 128) then .active else .highZ

/-- MG_OWN[g], open drain. -/
def State.ownPin (s : State) (g : Nat) : Pin :=
  match s.underTest (.own g) with
  | some (.drive false) => .drive false
  | some _ => .highZ
  | none => if s.drives g then .drive false else .highZ

/-- PARTNER_ALIVE_OUT (R415). -/
def State.alivePin (s : State) : Pin :=
  match s.underTest .aliveOut with
  | some x => x
  | none => if s.unconfigured then .highZ else .drive s.lve.aliveOut

/-- CLKOUT (R722): low in a load and in the refused state; else high in the first half of each period. -/
def State.clkoutPin (s : State) : Pin :=
  match s.underTest (.ctl 3) with
  | some x => x
  | none =>
    if s.cfg.held then .highZ
    else if s.unconfigured ∨ s.rd F.CLK_OUT_CTL_SEL = 0 then .drive false
    else .drive (18000 * s.time / (1250 * (s.outDiv * s.viewClk F.CLK_OUT_CTL_DIV_NOW 0 0)) % 2 == 0)

/-- EVT_INT_N, open drain (R480). -/
def State.intPin (s : State) : Pin :=
  match s.underTest (.ctl 2) with
  | some (.drive false) => .drive false
  | some _ => .highZ
  | none => if s.on F.EVT_CTL_PIN_EN ∧ s.evtPin then .drive false else .highZ

/-- A lane's transmitter: electrical idle in OFF, DETECT and FELLED (R758). -/
def State.txPin (s : State) (l : Nat) : Pin :=
  match s.underTest (.laneTx l) with
  | some (.drive b) => .drive b
  | some _ => .idle
  | none => if s.cfg.held ∨ [0, 1, 8].contains (s.rd F.SDS_LANE_STAT_STATE l) then .idle else .active

/-- A configuration pin by its place in Table BOT-1 (CFG_CK 0, CFG_CS_N 1 and 2, CFG_DQ 3 to 10, CFG_DS 11, CFG_NVM_RST_N 12,
CFG_ROLE 13 and 14, SLOT_ID 15 and 16, CFG_PROG_N 17, CFG_SYNC_N 18, CFG_ERR_N 19, CFG_DONE 20): a driver drives clock, selects,
data and reset; the open-drain pins are low or released. -/
def State.cfgPin (s : State) (n : Nat) : Pin :=
  match s.underTest (.cfg n) with
  | some x => if 17 ≤ n ∧ n ≤ 19 ∧ x ≠ .drive false then .highZ else x
  | none =>
    if s.cfg.held then .highZ
    else match n with
    | 12 => if s.rd F.CFG_STATUS_ROLE < 2 then .drive true else .highZ
    | 17 => if s.time < s.cfg.progUntil then .drive false else .highZ
    | 18 => if s.cfg.syncPull then .drive false else .highZ
    | 19 => if s.cfg.err then .drive false else .highZ
    | 20 => .drive s.cfg.done
    | _ => if n ≤ 10 ∧ s.rd F.CFG_STATUS_ROLE < 2 ∧ s.cfg.csActive then .active else .highZ

/-- A user I/O pin: its cell's output, else its pull, which takes effect at step 4 of the start sequence (R650). -/
def State.uioPin (s : State) (d c : Nat) : Pin :=
  match s.underTest (.uio d c) with
  | some x => x
  | none =>
    if ¬ s.uioOn d c ∨ s.cfg.held then .highZ
    else match s.uioDrive (s.val d (c / 12)) d c, (s.uioCfg d c).pull with
    | some b, _ => .drive b
    | none, 1 => .pullUp
    | none, 2 => .pullDown
    | none, 3 => .keeper
    | none, _ => .highZ

/-- Supply of a user I/O cell, in mV: VCCIO of its bank (R649). -/
def uioVolts (d c : Nat) : Nat := if Config.vccio18 d (c / 24) then 1800 else 1200

/-- Drive strength of a user I/O cell, in mA: 4, 8 or 12. -/
def State.uioDrive_mA (s : State) (d c : Nat) : Nat :=
  match (s.uioCfg d c).drive with
  | 8 => 8
  | 12 => 12
  | _ => 4

/-! ### Commands -/

/-- What a boundary cell captures, where the pin has a driven level. -/
def State.captured (s : State) : BPin → Option Bool
  | .own g => some (s.wireHigh g)
  | .uio d c => some (s.uioLevel (s.val d (c / 12)) d c)
  | .cfg n => match s.cfgPin n with
    | .drive b => some b
    | _ => none
  | .aliveOut => match s.alivePin with
    | .drive b => some b
    | _ => none
  | _ => none

/-- Bits that the data register captures: IDCODE, a 0 of BYPASS, or the pins in the order of the boundary cells shifted in. -/
def State.tapCapture (s : State) : List Bool :=
  match tapReg s.tap.ir with
  | .idcode => (List.range 32).map (bit idcode)
  | .bypass => [false]
  | .boundary => s.tap.bsr.map (fun c => (s.captured c.pin).getD c.level)

end Sys2Proof.Machine
end

