-- ==== Sys2Proof/Machine/Resets.lean ====
section
/-! DEFINITION. Resets of the whole part and what starts a configuration load: power-on reset, CFG_PROG_N, a reload, rails,
temperature, test instructions and the loss of the root PLL (R47, R48, R84 to R86, R332, R419, R700, R707, R733, R812, R853,
R854, R870 to R876). -/

namespace Sys2Proof.Machine
open Sys2Proof

/-! ### Reset of the whole part (Table PWR-5) -/

/-- The whole part is reset. Fuses stay; so do the commands that wait, what has been sent, the draws of free values, the levels
others drive on PERST_N, PFAIL_N and MG_OWN, and the readings of the thermal sensors, none of which is state of a reset unit. -/
def State.partReset (s : State) : State :=
  { State.reset with
    pending := s.pending
    fresh := s.fresh
    out := s.out
    fuses := s.fuses
    lve.pfLow := s.lve.pfLow
    pci.perst := s.pci.perst
    pci.inReset := s.pci.perst
    pwr.fences := if s.pci.perst then [(4, 0)] else []
    med.grps := Map.mapAll {} (fun _ x => { otherLow := x.otherLow }) s.med.grps
    cfg.temps := s.cfg.temps
    tap := s.tap
    cfg.pinRole := s.cfg.pinRole
    cfg.pinSlot := s.cfg.pinSlot
    cfg.tripped := s.cfg.tripped }

/-- The refused state (R84, R86): CFG_ERR_N low, the contents of the fabric's memories undefined, pins by Table BOT-9, until a
power-on reset or a CFG_PROG_N pulse. -/
def State.refuse (s : State) : State :=
  let s := { s with fab.memLost := some s.fresh }.drawn
  let s := (s.put F.CFG_STATUS_STATE 0xF).put F.CFG_STATUS_FALLBACK_ACTIVE 0
  { s with cfg.err := true, cfg.syncPull := false }

/-- A load ends at once with a code that no fallback follows: STRAP and NO_STREAM (R61, R86). -/
def State.refuseAtOnce (s : State) (code : Nat) : State :=
  ((s.put F.CFG_FAIL_CODE_PRIMARY code).bump F.CFG_LOAD_FAILS).refuse

/-- A full load starts: the straps are sampled (R47), and the root PLL locks where the local reference is there (R700, R701).
A driver then reads at once (R67). CFG_ROLE = 0b11 is refused (R86). -/
def State.loadStart (s : State) (role slot : Nat) (ref : Bool) : State :=
  let s := (s.put F.CFG_STATUS_ROLE role).put F.CFG_STATUS_SLOT slot
  let s := (s.flag F.CLK_STAT_LOCK ref).flag F.CLK_STAT_LOCAL_OK ref
  let s : State := { s with
    cfg.pinRole := role % 4, cfg.pinSlot := slot % 4, cfg.t0 := s.time, cfg.csActive := ref && decide (role % 4 < 2) }
  if role % 4 = 3 then s.refuseAtOnce 0x0D else s

/-- What a part that stops on CFG_PROG_N or a reload still does (R419): LEAVING goes out on every ACTIVE bundle. Its drivers
and MG_OWN wires are released by the reset that follows (R332). -/
def State.leave (s : State) (reason : Nat) : State :=
  if s.dark ∨ s.lve.stopped then s
  else { s with out := s.out ++ ([0, 1].filter s.active).map (fun b => .leaving b reason) }

/-- A CFG_PROG_N pulse (R48): a reset of the whole part but for fuses and identity, and a full load. No load starts while a
test instruction holds the part (R874), nor while the power-on reset is asserted. -/
def State.progN (s : State) (reason role slot : Nat) (ref : Bool) : State :=
  let held := s.cfg.held
  let test := s.cfg.test
  let s := (s.leave reason).partReset
  if held ∨ test then { s with cfg.held := held, cfg.test := test } else s.loadStart role slot ref

/-- POWER_ON_RESET (R4, R47, R86, R700, R733, R812, R853): the internal power-on reset is released, not before every die
reads below 100 °C where a temperature trip holds it (R870). -/
def execPowerOnReset (role slot : Nat) (ref : Bool) (s : State) : Res :=
  let hot : Bool := s.cfg.tripped && s.cfg.temps.any (fun t => match t with
    | some x => decide (100 ≤ x)
    | none => false)
  .next (if hot then s
    else
      let s := s.partReset.tapReset
      { s with cfg.tripped := false }.loadStart role slot ref)

/-- CFG_PROG_N_PULSE (R47, R48, R86, R332, R419): another part, or the host system, pulls the pin low. -/
def execCfgProgNPulse (role slot : Nat) (ref : Bool) (s : State) : Res := .next (s.progN 1 role slot ref)

/-- This part pulls CFG_PROG_N low for 2 µs (R48). -/
def State.progPull (s : State) : State :=
  { s with cfg.progUntil := s.time + 2000, out := s.out ++ [.progLow 2000] }

/-- A write of CFG_RELOAD (R48, Table BOT-10): the pin is pulled low, and the load that this starts samples the strap pins. -/
def State.reload (s : State) (req : Req) (value : Nat) : State :=
  if value = 0xA5 ∧ s.polReload ∧ s.cfg.done then
    (s.progN 2 s.cfg.pinRole s.cfg.pinSlot (s.on F.CLK_STAT_LOCAL_OK)).progPull
  else s.refuseWrite req (F.CFG_RELOAD.off 0 0)

/-- CFG_RELOAD (R47, R48, R419). -/
def execCfgReload (req : Req) (x : ReloadIn) (s : State) : Res :=
  .next (s.when true (fun s => s.byReq req (F.CFG_RELOAD.off 0 0) (fun s =>
    { s with cfg.pinRole := x.role % 4, cfg.pinSlot := x.slot % 4 }.reload req x.value)))

/-! ### Rails and temperature (R333, R854, R870) -/

/-- The internal power-on reset is asserted: the whole part is reset, its outputs are released, and it stays so until the
reset's release. -/
def State.assertPor (s : State) (trip : Bool) : State :=
  let s := s.partReset.tapReset
  { s with cfg.held := true, cfg.tripped := s.cfg.tripped || trip }

/-- RAIL_FAULT (R333, R854). -/
def execRailFault (s : State) : Res := .next (s.assertPor false)

/-- Channels of a media die that are up and whose die has moved 10 °C or more since their last training (R307). -/
def State.driftRetrain (s : State) (die : Nat) (degc : Int) : State :=
  ((List.range 128).map (· + 128 * die)).foldl (fun s ch =>
    let moved : Bool := match (s.chan ch).trainedAt with
      | some t => decide (10 ≤ (degc - t).natAbs)
      | none => false
    if moved ∧ s.owned (grpOf ch) ∧ s.rd F.MED_CH_STAT_STATE die (ch % 128) = 1 then
      s.updChan ch (fun c => { c with retrain := true }) else s) s

/-- A media die's reading sets the temperature class where the ring table names no NAND sensor (R350), and may call for a
retrain. -/
def State.mediaTemp (s : State) (die : Nat) (degc : Int) : State :=
  let s := ((List.range 128).map (· + 128 * die)).foldl (fun s ch =>
    if s.ringT ch 0x006 1 = 0 ∧ s.owned (grpOf ch) then
      (List.range 16).foldl (fun s v => s.setTemp ch v degc) s else s) s
  s.driftRetrain die degc

/-- THERMAL_READ (R307, R350, R870): the sensor of a die, numbered in the order of Table ARC-2. Two consecutive readings of
115 °C or more assert the power-on reset. -/
def execThermalRead (die : Nat) (degc : Int) (s : State) : Res :=
  .next (if 7 ≤ die then s
    else
      let last := s.cfg.temps.getD die none
      let s : State := { s with cfg.temps := s.cfg.temps.set die (some degc) }
      let hot : Bool := match last with
        | some t => decide (115 ≤ t)
        | none => false
      if ¬ s.cfg.held ∧ 115 ≤ degc ∧ hot then s.assertPor true
      else s.when (decide (5 ≤ die)) (fun s => s.mediaTemp (die - 5) degc))

/-! ### Test access (R872 to R876) -/

/-- TEST_INSTRUCTION_LOAD (R872, R874 to R876): EXTEST, CLAMP, HIGHZ, EXTEST_PULSE and EXTEST_TRAIN stop the part as a
CFG_PROG_N pulse does, and no load starts while one is in force; any other instruction changes nothing but the port. -/
def execTestInstructionLoad (x : TestIn) (s : State) : Res :=
  let ir := x.opcode % 256
  .next ((if stopsPart ir then
      let held := s.cfg.held
      let s := (s.leave 1).partReset
      { s with cfg.held := held, cfg.test := true }
    else s).tapUpdate ir (if tapReg ir = .boundary then x.cells else []))

/-- TEST_LOGIC_RESET (R874): after a stopping instruction, a full load starts as R48 gives. -/
def execTestLogicReset (role slot : Nat) (ref : Bool) (s : State) : Res :=
  let s := s.tapReset
  .next (if s.cfg.test then { s with cfg.test := false }.progN 1 role slot ref else s)

/-! ### Root PLL (R332, R707) -/

/-- The derived clocks stop, and the keepers trip. -/
def State.pllLost (s : State) : State :=
  let s := ((s.put F.CLK_STAT_LOCK 0).post E.CLK_PLL_UNLOCK).keeperDie 0 |>.keeperDie 1
  { s with clk.stopped := true, lve.stopped := true }

/-- PLL_UNLOCK (R332, R707): with a good reference the root PLL loses lock. The derived clocks stop, and the keepers trip;
no LEAVING can be sent. -/
def execPllUnlock (s : State) : Res :=
  .next (s.when (s.on F.CLK_STAT_LOCK && s.rd F.CLK_STAT_REF != 2) (fun s => s.pllLost))

end Sys2Proof.Machine
end

