-- ==== Sys2Proof/Machine/RegWrite.lean ====
section
/-! DEFINITION. What a register write does: the values each register refuses, what a write starts or stops, pairs and
their stages, and the bit-alias window (R811, R813 to R820, R824 to R827, R899 and the While busy columns). -/

namespace Sys2Proof.Machine
open Sys2Proof

/-! ### A write as the register sees it -/

/-- A write of the register at a word offset: requester, offset in the register store, the written word, the bits of it that
are written, and the fields of the register. -/
structure RegWr where
  req : Req
  off : Nat
  v : Nat
  mask : Nat
  fs : List (Fld × Nat × Nat)
  deriving DecidableEq, Repr

/-- A field is written. -/
def RegWr.has (a : RegWr) (f : Fld) : Bool := bit a.mask f.lo

/-- The value written to a field. -/
def RegWr.val (a : RegWr) (f : Fld) : Nat := bits a.v f.lo f.w

/-- A field is written with 1. -/
def RegWr.sets (a : RegWr) (f : Fld) : Bool := a.has f && a.val f != 0

/-- Value of a field after the write. -/
def State.nv (s : State) (a : RegWr) (f : Fld) (i : Nat := 0) (j : Nat := 0) : Nat :=
  if a.has f then a.val f else s.rd f i j

/-- A field is written with another value than it shows. -/
def State.changes (s : State) (a : RegWr) (f : Fld) (i : Nat := 0) (j : Nat := 0) : Bool :=
  a.has f && a.val f != s.view a.req f i j

/-- The written RW and CT fields take their values (R814, R822). -/
def State.putAll (s : State) (a : RegWr) : State :=
  a.fs.foldl (fun s x =>
    if a.has x.1 ∧ (x.1.ty = .rw ∨ x.1.ty = .ct) then s.put x.1 (a.val x.1) x.2.1 x.2.2 else s) s

/-! ### Values and times a register refuses (R815, R899) -/

/-- CLK (Tables CLK-1 and CLK-3). -/
def State.noClk (s : State) (a : RegWr) (f : Fld) : Bool :=
  let out (g : Fld) (lo hi : Nat) : Bool := a.has g && (decide (a.val g < lo) || decide (hi < a.val g))
  f.base == F.CLK_DIV_HUB.base &&
    (s.cfg.done || out F.CLK_DIV_HUB 4 8 || out F.CLK_DIV_MED 4 8 || out F.CLK_DIV_HBM 6 12 || out F.CLK_DIV_CFG 36 64)

/-- PWR (R737). -/
def State.noPwr (s : State) (a : RegWr) (f : Fld) : Bool :=
  if f.base = F.PWR_EP_COUNT.base then !s.on F.GLB_EPOCH_SETTLED || decide (64 < a.val F.PWR_EP_COUNT)
  else if f.base = F.PWR_EP_STAGE_OFF.base ∨ f.base = F.PWR_EP_STAGE_VAL.base then !s.on F.GLB_EPOCH_SETTLED
  else f.base == F.PWR_POL_CMD.base && a.val F.PWR_POL_CMD == 0

/-- TLY (Table TLY-10). -/
def noTly (a : RegWr) (f : Fld) : Bool :=
  let out (g : Fld) (hi : Nat) : Bool := a.has g && (a.val g == 0 || decide (hi < a.val g))
  f.base == F.TLY_CKPT_TRIG_RECORDS.base && (out F.TLY_CKPT_TRIG_RECORDS 96 || out F.TLY_CKPT_TRIG_PAGES 4096)

/-- MED (Tables MED-9 and REL-10). -/
def noMed (a : RegWr) (f : Fld) : Bool :=
  if f.base = F.MED_CACHE_MAX.base then a.val F.MED_CACHE_MAX == 0
  else if f.base = F.MED_REL_CTL_UC_EN.base then a.has F.MED_REL_CTL_UC_DEPTH && a.val F.MED_REL_CTL_UC_DEPTH == 3
  else if f.base = F.MED_RING_SEL_TSET.base then a.has F.MED_RING_SEL_ROW && decide (142 < a.val F.MED_RING_SEL_ROW)
  else f.base == F.MED_CH_CTL_RATE.base && a.has F.MED_CH_CTL_RATE && decide (4 < a.val F.MED_CH_CTL_RATE)

/-- LVE (Table LVE-10). -/
def noLve (a : RegWr) (f : Fld) : Bool :=
  f.base == F.LVE_DEATH_CFG_WIRE_US.base &&
    ((a.has F.LVE_DEATH_CFG_WIRE_US && decide (a.val F.LVE_DEATH_CFG_WIRE_US < 4))
      || (a.has F.LVE_DEATH_CFG_LINK_US && decide (a.val F.LVE_DEATH_CFG_LINK_US < 3))
      || (a.has F.LVE_DEATH_CFG_DEATH_US && decide (a.val F.LVE_DEATH_CFG_DEATH_US < 20)))

/-- CRY (Table CRY-11). -/
def State.noCry (s : State) (a : RegWr) (f : Fld) (i : Nat) : Bool :=
  if f.base = F.CRY_REKEY_CFG_MARK.base then a.has F.CRY_REKEY_CFG_STEP_NS && decide (a.val F.CRY_REKEY_CFG_STEP_NS < 100)
  else f.base == F.CRY_SEAL_CFG_BASE.base && decide (3 ≤ i) && s.cfg.done

/-- A rate of R748. -/
def rateOk (r : Nat) : Bool := (decide (80 ≤ r) && decide (r ≤ 2048)) || (decide (3400 ≤ r) && decide (r ≤ 7200))

/-- FEC codes that go with an ETH_MODE (Table SDS-5). -/
def fecOf (mode : Nat) : List Nat :=
  if mode ≤ 1 then [0] else if mode = 2 ∨ mode = 4 then [0, 1] else if mode ≤ 10 then [2] else []

/-- Lanes of the group that a quad belongs to under a mode (R770). -/
def quadLanes (q mode : Nat) : List Nat :=
  if mode = 9 then (List.range 8).map (8 * (q / 2) + ·) else (List.range 4).map (4 * q + ·)

/-- SDS (R748, R752, R753, R770, R774, R779, Tables SDS-6 and SDS-7). A write that leaves a field as it is shown does not
count as a write to it where the rule names a change of state (log entry 22). -/
def State.noSds (s : State) (a : RegWr) (f : Fld) (i : Nat) : Bool :=
  let lane (g : Fld) : Bool := s.changes a g i
  if f.base = F.SDS_QUAD_CTL_REFHZ.base then
    let mode := s.nv a F.SDS_QUAD_CTL_ETH_MODE i
    let busy (m : Nat) : Bool := (quadLanes i m).any (fun l => s.laneSt l != 0)
    busy mode || busy (s.rd F.SDS_QUAD_CTL_ETH_MODE i) || !(fecOf mode).contains (s.nv a F.SDS_QUAD_CTL_FEC i)
  else if f.base = F.SDS_LANE_CTL_EN.base then
    if laneGeneral i then
      let en := s.on F.SDS_LANE_CTL_EN i
      (lane F.SDS_LANE_CTL_MODE && (en || decide (2 < a.val F.SDS_LANE_CTL_MODE))) || (lane F.SDS_LANE_CTL_PCLK && en)
        || (a.has F.SDS_LANE_CTL_RATE && !rateOk (a.val F.SDS_LANE_CTL_RATE))
    else
      lane F.SDS_LANE_CTL_EN || lane F.SDS_LANE_CTL_MODE || lane F.SDS_LANE_CTL_RATE || lane F.SDS_LANE_CTL_TRAIN
        || lane F.SDS_LANE_CTL_PRECODE || lane F.SDS_LANE_CTL_POL_TX || lane F.SDS_LANE_CTL_POL_RX
  else if f.base = F.SDS_LANE_FFE_CM2.base then s.ffeTrained i || !tapsOk (wordTaps a.v)
  else f.base == F.SDS_PRBS_CTL_GEN_EN.base && a.has F.SDS_PRBS_CTL_PATTERN
    && (a.val F.SDS_PRBS_CTL_PATTERN == 7
      || (decide (5 ≤ a.val F.SDS_PRBS_CTL_PATTERN) && decide (s.rd F.SDS_LANE_CTL_RATE i < 3400)))

/-- EVT (R479, Table FLT-11). -/
def State.noEvt (s : State) (a : RegWr) (f : Fld) : Bool :=
  if f.base = F.EVT_RATE.base then a.val F.EVT_RATE == 0
  else f.base == F.EVT_CTL_INT_EN.base && a.has F.EVT_CTL_VECTOR && decide (s.rd F.QQP_CAP_VECTORS 0 ≤ a.val F.EVT_CTL_VECTOR)

/-- LDG (R642): a landing that is enabled keeps its clock. -/
def State.noLdg (s : State) (a : RegWr) (f : Fld) (i : Nat) : Bool :=
  f.base == F.LDG_CTL_EN.base && (s.changes a F.LDG_CTL_CLK i && s.on F.LDG_CTL_EN i)

/-- QQP (Table QQP-10). -/
def noQqp (a : RegWr) (f : Fld) : Bool :=
  f.base == F.QQP_AQ_SIZE_ASQS.base && ((a.has F.QQP_AQ_SIZE_ASQS && a.val F.QQP_AQ_SIZE_ASQS == 0)
    || (a.has F.QQP_AQ_SIZE_ACQS && a.val F.QQP_AQ_SIZE_ACQS == 0))

/-- INJ (R484, Table FLT-12): reserved values, and MODE 2 outside the Levee's transmit points. -/
def State.noInj (s : State) (a : RegWr) (f : Fld) (i : Nat) : Bool :=
  f.base == F.INJ_GEN_CTL_POINT.base &&
    (let p := s.nv a F.INJ_GEN_CTL_POINT i
     let m := s.nv a F.INJ_GEN_CTL_MODE i
     decide (14 ≤ p) || decide (4 ≤ m) || s.nv a F.INJ_GEN_CTL_TRIGGER i == 3 || (m == 2 && decide (2 ≤ p)))

/-- The register refuses the write (R815). -/
def State.refuses (s : State) (a : RegWr) (f : Fld) (i : Nat) : Bool :=
  match f.base / 0x100000 % 64 with
  | 3 => s.noClk a f
  | 4 => s.noPwr a f
  | 7 => noTly a f
  | 9 => noMed a f
  | 11 => noLve a f
  | 12 => s.noCry a f i
  | 15 => s.noSds a f i
  | 17 => s.noEvt a f
  | 18 => s.noLdg a f i
  | 19 => noQqp a f
  | 20 => s.noInj a f i
  | _ => false

/-! ### What a write does -/

/-- GLB_EVT_PEEK takes the record of a SEQ, zeroes where the ring does not hold it (R844). -/
def State.evtPeek (s : State) (v : Nat) : State :=
  let s := s.put F.GLB_EVT_PEEK_SEL v
  let r := match List.find? (fun e => e.2.seq == s.rd F.GLB_EVT_PEEK_SEL && e.2.seq != 0) s.evt.ring with
    | some e => recBytes e.2
    | none => 0
  (List.range 8).foldl (fun s i => s.put F.GLB_EVT_PEEK (r / 2 ^ (32 * i)) i) s

/-- GLB (R829, R836, R840, R844). -/
def State.wrGlb (s : State) (a : RegWr) (f : Fld) : State :=
  if f.base = F.GLB_EPOCH_NEXT.base then s.ratchet a.req (a.val F.GLB_EPOCH_NEXT)
  else if f.base = F.GLB_RESULT_ACK_SEQ.base then
    match a.req with
    | .host (_ + 1) => s
    | _ => s.resultAck a.v
  else if f.base = F.GLB_EVT_PEEK_SEL.base then s.evtPeek (a.val F.GLB_EVT_PEEK_SEL)
  else s.putAll a

/-- CFG (Tables BOT-10 and STD-7). -/
def State.wrCfg (s : State) (a : RegWr) (f : Fld) : State :=
  if f.base = F.CFG_RELOAD.base then s.reload a.req (a.val F.CFG_RELOAD)
  else if f.base = F.CFG_SL_CMD_STAND.base then s.slCmd a.v
  else s.putAll a

/-- CRU (Table STD-8). -/
def State.wrCru (s : State) (a : RegWr) (f : Fld) : State :=
  if f.base = F.CRU_INJ_GO.base then s.cruInject a.req (a.val F.CRU_INJ_GO)
  else
    let s := s.putAll a
    if s.on F.CRU_CTL_EN then s else s.put F.CRU_STAT_ACTIVE 0

/-- CLK (Table CLK-3): SEL 1→0 on the recovered clock changes to the local reference; a gate follows its enables. -/
def State.wrClk (s : State) (a : RegWr) (f : Fld) (i : Nat) : State :=
  if f.base = F.CLK_REF_CTL_SEL.base then
    let was := s.on F.CLK_REF_CTL_SEL
    let s := s.putAll a
    if was ∧ ¬ s.on F.CLK_REF_CTL_SEL ∧ s.rd F.CLK_STAT_REF = 1 then s.refSwitch 0 else s
  else if f.base = F.CLK_GATE_RUN_EN.base then ((s.putAll a).gateFollow i).deliverDoorbells
  else s.putAll a

/-- PWR (Table PWR-8). A staged offset in a block of index 21 to 31 is discarded as an unmapped address (R737). -/
def State.wrPwr (s : State) (a : RegWr) (f : Fld) (i : Nat) : State :=
  if f.base = F.PWR_STATE_CMD_TARGET.base then s.stateCmd a.req (a.val F.PWR_STATE_CMD_TARGET)
  else if f.base = F.PWR_POL_CMD.base then s.polCmd a.req i (a.val F.PWR_POL_CMD)
  else if f.base = F.PWR_EP_STAGE_OFF.base then
    let v := s.nv a F.PWR_EP_STAGE_OFF i
    if 21 ≤ ctrlBlock v then s.postFrom 4 E.ADDR_UNMAPPED (reqCode a.req) none (ctrlAddr v) else s.putAll a
  else s.putAll a

/-- NOC (Table NOC-6). -/
def State.wrNoc (s : State) (a : RegWr) (f : Fld) : State :=
  if f.base = F.NOC_RTR_CLOSE.base then s.rtrClose (a.val F.NOC_RTR_CLOSE)
  else if f.base = F.NOC_RECONFIG.base then
    if bit a.v 15 then s.portClose a.req a.v else s.portOpen a.req a.v
  else if f.base = F.NOC_RT_FLAGS_P_OK.base then
    let x := s.rtShown
    s.updRte x.1 x.2 (fun e => { e with
      pOk := if a.has F.NOC_RT_FLAGS_P_OK then a.sets F.NOC_RT_FLAGS_P_OK else e.pOk
      aOk := if a.has F.NOC_RT_FLAGS_A_OK then a.sets F.NOC_RT_FLAGS_A_OK else e.aOk })
  else
    let s := s.putAll a
    if f.base = F.NOC_CTL_ISO_EN.base ∧ ¬ s.on F.NOC_CTL_ISO_EN then
      (allNis.filter (fun n => s.on F.NOC_NI_STAT_ISOLATED n)).foldl State.isoEnd s
    else s

/-- TLY (Table TLY-10). -/
def State.wrTly (s : State) (a : RegWr) (f : Fld) : State :=
  if f.base = F.TLY_CKPT_GO.base then s.ckptGo a.req (a.val F.TLY_CKPT_GO)
  else if f.base = F.TLY_CKPT_TRIG_RECORDS.base then (s.putAll a).ckptCheck
  else
    let s := s.putAll a
    if f.base ≠ F.TLY_CTL_RA_EN.base then s
    else if ¬ s.on F.TLY_CTL_RA_EN then { s with tly.pre := [] }
    else
      let n := s.rd F.TLY_CTL_RA_IUS
      { s with tly.pre := s.tly.pre.drop (s.tly.pre.length - n) }

/-- LUNs of a media die: (channel, 4 × volume + LUN). -/
def dieLuns (d : Nat) : List (Nat × Nat) :=
  ((List.range 128).map (· + 128 * d)).flatMap (fun ch => (List.range 64).map (fun u => (ch, u)))

/-- Undercut steps that a lowered UC_EN or UC_DEPTH still allows (Table REL-5): `undercut` holds the parent's step. -/
def State.ucCut (s : State) (d : Nat) : State :=
  let n := if s.on F.MED_REL_CTL_UC_EN d then s.rd F.MED_REL_CTL_UC_DEPTH d else 0
  s.cancelUndercuts (fun o => dieOf (maCh o.addr) == d && (match o.undercut with
    | some b => decide (b + n < o.step)
    | none => false))

/-- MED (Tables MED-9 and REL-10). -/
def State.wrMed (s : State) (a : RegWr) (f : Fld) (i j : Nat) : State :=
  if f.base = F.MED_GRP_CMD.base then
    let g := 8 * i + j
    if a.v % 4 = 1 then s.claimOp a.req g else if a.v % 4 = 2 then s.releaseOp a.req g else s
  else if f.base = F.MED_HOURS.base then s.hoursWrite a.req i (a.val F.MED_HOURS)
  else if f.base = F.MED_RING_DATA.base then
    let k := 0xC0 + 2560 * s.rd F.MED_RING_SEL_TSET i + 16 * s.rd F.MED_RING_SEL_ROW i + 4 * j
    { s with med.ring := s.med.ring.modify i (fun r => setBits r (8 * k) 32 (a.val F.MED_RING_DATA)) }
  else if f.base = F.MED_CH_CTL_RATE.base then
    let ch := 128 * i + j
    let new := s.changes a F.MED_CH_CTL_RATE i j || a.sets F.MED_CH_CTL_RETRAIN
    let s := s.putAll a
    if new ∧ s.rd F.MED_CH_STAT_STATE i j ≠ 3 then s.updChan ch (fun c => { c with retrain := true }) else s
  else
    let was := s.on F.MED_CTL_SUSP_EN i
    let s := s.putAll a
    if f.base = F.MED_CTL_SUSP_EN.base then
      if was ∧ ¬ s.on F.MED_CTL_SUSP_EN i then (dieLuns i).foldl (fun s x => s.lunResume x.1 x.2) s else s
    else if f.base = F.MED_REL_CTL_UC_EN.base then s.ucCut i
    else if f.base = F.MED_GC_CFG_GC_LOW.base then
      (List.range 8).foldl (fun s g => s.updGrp (8 * i + g) (fun x =>
        { x with urgent := decide ((s.freeStripes (8 * i + g)).length < s.rd F.MED_GC_CFG_GC_URGENT i) })) s
    else s

/-- LVE (Table LVE-10). -/
def State.wrLve (s : State) (a : RegWr) (f : Fld) (i : Nat) : State :=
  if f.base = F.LVE_CTL_BUNDLE_EN.base then
    let s := (a.fs.filter (fun x => x.1 ≠ F.LVE_CTL_BUNDLE_EN)).foldl (fun s x =>
      if a.has x.1 then s.put x.1 (a.val x.1) else s) s
    let s := if s.on F.LVE_CTL_PROBE_EN then s
      else ([0, 1].filter (fun b => (s.bnd b).probe)).foldl State.bundleFall s
    if a.has F.LVE_CTL_BUNDLE_EN then s.bundleEn (a.val F.LVE_CTL_BUNDLE_EN) else s
  else if f.base = F.LVE_HANDBACK.base then s.handbackGo a.req (a.val F.LVE_HANDBACK)
  else if f.base = F.LVE_BUNDLE_CTL_RATE.base then
    let s := s.putAll a
    if a.sets F.LVE_BUNDLE_CTL_RETRAIN then s.bundleRetrain i else s
  else s.putAll a

/-- CRY (Table CRY-11). The content of a landing window that an import by register reads is free here; KEY_CMD_IMPORT carries it as
an operand (log entry 2). SEAL_CFG is RO for regions 0 to 2. -/
def State.wrCry (s : State) (a : RegWr) (f : Fld) (i : Nat) : State :=
  if f.base = F.CRY_REKEY_GO.base then s.rekeyGo a.req (a.val F.CRY_REKEY_GO)
  else if f.base = F.CRY_RESEAL_GO.base then s.resealGo a.req (a.val F.CRY_RESEAL_GO)
  else if f.base = F.CRY_KEY_CMD_KID.base then
    let kid := a.val F.CRY_KEY_CMD_KID
    if a.val F.CRY_KEY_CMD_OP = 1 then
      s.drawn.keyCmdImport a.req kid s.freeNat
    else if a.val F.CRY_KEY_CMD_OP = 2 then s.keyCmdRetire a.req kid
    else s
  else if f.base = F.CRY_SEAL_CFG_BASE.base ∧ i < 3 then s
  else s.putAll a

/-- SDS (Tables SDS-6 and SDS-7). REFHZ is RO 0 for the quads of the PCIe lanes. -/
def State.wrSds (s : State) (a : RegWr) (f : Fld) (i : Nat) : State :=
  if f.base = F.SDS_QUAD_CTL_REFHZ.base then
    let s := s.putAll a
    if i < 4 then s.put F.SDS_QUAD_CTL_REFHZ 0 i else s
  else if f.base = F.SDS_LANE_CTL_EN.base then
    let pol := s.changes a F.SDS_LANE_CTL_POL_RX i
    let loop := s.changes a F.SDS_LANE_CTL_LOOPBACK i
    let s := s.putAll a
    let s := if ¬ laneGeneral i then s else if s.on F.SDS_LANE_CTL_EN i then s.laneOn i else s.laneOff i
    let run := decide (2 ≤ s.laneSt i) && s.laneSt i != 8
    if (loop ∨ a.sets F.SDS_LANE_CTL_RETRAIN) ∧ run then s.laneSignal i
    else if pol ∧ decide (3 ≤ s.laneSt i) ∧ s.laneSt i ≠ 8 then s.put F.SDS_LANE_STAT_STATE 3 i
    else s
  else if f.base = F.SDS_PRBS_CTL_GEN_EN.base then
    let fresh := (a.sets F.SDS_PRBS_CTL_CHK_EN && !s.on F.SDS_PRBS_CTL_CHK_EN i) || s.changes a F.SDS_PRBS_CTL_PATTERN i
    let s := s.putAll a
    let s := if fresh then s.put F.SDS_PRBS_STAT_LOCK 0 i else s
    if a.sets F.SDS_PRBS_CTL_INJ_GO ∧ s.rd F.SDS_PRBS_CTL_INJ_MODE i = 1 ∧ s.prbsRuns i then s.prbsFlip i else s
  else s.putAll a

/-- PCI (Table PCI-7). -/
def State.wrPci (s : State) (a : RegWr) (f : Fld) : State :=
  if f.base = F.PCI_CTL_L0P_INIT.base then
    s.pciCtl (s.nv a F.PCI_CTL_L0P_INIT + 2 * s.nv a F.PCI_CTL_L0P_WIDTH + 16 * s.nv a F.PCI_CTL_MAX_SPEED
      + 256 * b2n (a.sets F.PCI_CTL_RETRAIN))
  else s.putAll a

/-- EVT (R469, R478, R481, Table FLT-11): INT_EN 0→1 signals records that are pending and qualify. -/
def State.wrEvt (s : State) (a : RegWr) (f : Fld) : State :=
  if f.base = F.EVT_ACK.base then s.evtAck (a.val F.EVT_ACK)
  else if f.base = F.EVT_TAG_SEL.base then s.evtTagSel (a.val F.EVT_TAG_SEL)
  else
    let was := s.on F.EVT_CTL_INT_EN
    let s := s.putAll a
    if ¬ was ∧ s.on F.EVT_CTL_INT_EN ∧ s.evt.ring.any (fun e => e.2.seq != 0
        && seqAtOrAfter e.2.seq (s.rd F.EVT_ACK) && decide (s.rd F.EVT_CTL_MIN_SEV ≤ e.2.sev)) then s.evtSignal
    else s

/-- LDG (Table FAB-9). -/
def State.wrLdg (s : State) (a : RegWr) (f : Fld) (i : Nat) : State :=
  if f.base = F.LDG_RB_CTL_GO.base then
    let s := if a.sets F.LDG_RB_CTL_RESUME ∧ s.on F.LDG_RB_STAT_STOPPED then s.rbResume else s
    if a.sets F.LDG_RB_CTL_GO then s.rbGo a.req (1 + 2 * s.nv a F.LDG_RB_CTL_MODE) else s.putAll a
  else if f.base = F.LDG_CTL_EN.base then
    let off := a.has F.LDG_CTL_EN && a.val F.LDG_CTL_EN == 0
    let s := if off then s.landingOff i else s
    s.putAll a
  else s.putAll a

/-- Sizes of the admin queues take effect at the next wrap; an index beyond the new size wraps at once (Table QQP-10). -/
def State.aqSize (s : State) (fn : Nat) : State :=
  let p := s.qp fn 0
  if ¬ p.live then s
  else
    let n := s.rd F.QQP_AQ_SIZE_ASQS fn + 1
    let m := s.rd F.QQP_AQ_SIZE_ACQS fn + 1
    let p := if n ≤ p.sqHead ∨ n ≤ p.sqTail then p.sqResize n else { p with sqNext := n }
    let p := if m ≤ p.cqHead ∨ m ≤ p.cqTail then p.cqResize m else { p with cqNext := m }
    s.updQp fn 0 (fun _ => p)

/-- QQP (R105, R106, R171, R175, Table QQP-10); the mailbox exists in the PF's view alone. -/
def State.wrQqp (s : State) (a : RegWr) (f : Fld) (i : Nat) : State :=
  if f.base = F.QQP_CTL_ENABLE.base then
    if ¬ a.has F.QQP_CTL_ENABLE then s
    else if a.val F.QQP_CTL_ENABLE = 1 then s.queueOn i
    else if s.on F.QQP_CTL_ENABLE i then s.dropQueues i
    else s
  else if f.base = F.QQP_AQ_SIZE_ASQS.base then (s.putAll a).aqSize i
  else if f.base = F.QQP_MBX_GO.base then
    if i = 0 ∧ a.val F.QQP_MBX_GO = 1 then s.mbxGo a.req else s
  else if f.base = F.QQP_MBX_SQE.base ∧ i ≠ 0 then s
  else s.putAll a

/-- INJ (R485, Table FLT-12): a rise of ARM loads the LFSR, a write of TRIGGER restarts the PERIODIC count. -/
def State.wrInj (s : State) (a : RegWr) (f : Fld) (i : Nat) : State :=
  if f.base = F.INJ_GEN_CTL_POINT.base then
    let rise := a.sets F.INJ_GEN_CTL_ARM && !s.on F.INJ_GEN_CTL_ARM i
    let s := s.putAll a
    let g := Map.get {} s.gens i
    let g := if rise then { g with lfsr := max 1 (s.rd F.INJ_SEED) } else g
    let g := if a.has F.INJ_GEN_CTL_TRIGGER then { g with count := 0 } else g
    { s with gens := Map.set {} s.gens i g }
  else s.putAll a

/-- An accepted write takes effect (R814). -/
def State.regEffect (s : State) (a : RegWr) (f : Fld) (i j : Nat) : State :=
  match f.base / 0x100000 % 64 with
  | 0 => s.wrGlb a f
  | 1 => s.wrCfg a f
  | 2 => s.wrCru a f
  | 3 => s.wrClk a f i
  | 4 => s.wrPwr a f i
  | 5 => s.wrNoc a f
  | 7 => s.wrTly a f
  | 9 => s.wrMed a f i j
  | 11 => s.wrLve a f i
  | 12 => s.wrCry a f i
  | 15 => s.wrSds a f i
  | 16 => s.wrPci a f
  | 17 => s.wrEvt a f
  | 18 => s.wrLdg a f i
  | 19 => s.wrQqp a f i
  | 20 => s.wrInj a f i
  | _ => s.putAll a

/-! ### Pairs (R816 to R820) -/

/-- Pairs whose value the hardware maintains (R820). -/
def pairRo (lo : Nat) : Bool :=
  [F.CFG_IMAGE_ID_LO, F.TLY_CKPT_NUM_LO, F.TLY_JSEQ_LO, F.TLY_PROBE_ENTRY_LO, F.LVE_PARTNER_ID_LO, F.HBM_TOP_LO, F.GLB_DIE_ID_LO,
    F.GLB_TIME_LO, F.GLB_RESULT_LO_VALID, F.GLB_ACCESS_LO].any (fun f => f.base == lo)
    || (F.CRY_SWEEP_LO.at? lo).isSome

/-- The words of a pair take their values, and what the commit of the pair starts begins. -/
def State.pairEffect (s : State) (lo v w : Nat) : State :=
  let x := s.rtShown
  if lo = F.NOC_RT_PRI_LO.base then s.updRte x.1 x.2 (fun e => { e with pri := some (v + 2 ^ 32 * w) })
  else if lo = F.NOC_RT_ALT_LO.base then s.updRte x.1 x.2 (fun e => { e with alt := some (v + 2 ^ 32 * w) })
  else
    let s := (fieldsAt lo).foldl (fun s y => s.put y.1 v y.2.1 y.2.2) s
    let s := (fieldsAt (lo + 4)).foldl (fun s y => s.put y.1 w y.2.1 y.2.2) s
    if lo = F.TLY_PROBE_IU_LO.base then s.probe else s

/-- A write of a _HI word commits the pair with the low word the requester staged, or the current one. -/
def State.commitPair (s : State) (req : Req) (o v : Nat) : State :=
  let lo := o - 4
  if pairRo lo then s
  else
    let k := stageKey req lo
    let w := (Map.get none s.stage k).getD (s.word req lo)
    { s with stage := Map.erase s.stage k }.pairEffect lo w v

/-! ### Writes of words and of alias bits -/

/-- A write whose fields are given: refused, or taking effect. -/
def State.regApply (s : State) (a : RegWr) : State :=
  match a.fs with
  | [] => s
  | (f, i, j) :: _ =>
    if s.refuses a f i then s.refuseWrite a.req (a.off % 0x4000000) else s.regEffect a f i j

/-- A write of the 32-bit register word at store offset `o` (R810, R811, R814, R818, R820). -/
def State.regWrite (s : State) (req : Req) (o v : Nat) : State :=
  let v := v % 2 ^ 32
  let x := o % 0x4000000
  if (0x10000 ≤ x ∧ x < 0x11000) ∨ (0x1110000 ≤ x ∧ x < 0x1130000) then s
  else if hasTy o .rl then
    if pairRo o then s else { s with stage := Map.set none s.stage (stageKey req o) (some v) }
  else if hasTy o .rs then s.commitPair req o v
  else s.regApply { req := req, off := o, v := v, mask := 2 ^ 32 - 1, fs := fieldsAt o }

/-- A write of bit `b` of the register at store offset `o` through its alias word (R825, Table REG-4). -/
def State.aliasWrite (s : State) (req : Req) (o b v : Nat) : State :=
  let fs := fieldsAt o
  match fs.find? (fun x => decide (x.1.lo ≤ b) && decide (b < x.1.lo + x.1.w)) with
  | none => s
  | some (f, i, j) =>
    match f.ty with
    | .ro => s
    | .rl | .rs => s.refuseWrite req (o % 0x4000000)
    | .wo =>
      let mask := (fs.filter (fun x => x.1.ty == .wo)).foldl (fun m x => m + (2 ^ x.1.w - 1) * 2 ^ x.1.lo) 0
      s.regApply { req := req, off := o, v := v % 2 * 2 ^ b, mask := mask, fs := fs }
    | _ =>
      let cur := s.view req f i j * 2 ^ f.lo
      s.regApply { req := req, off := o, v := setBits cur b 1 v, mask := (2 ^ f.w - 1) * 2 ^ f.lo, fs := fs }

/-- Postings and suppressions of STATE_CONFLICT so far in its window: they rise with every refused write. -/
def State.conflicts (s : State) : Nat :=
  let w := Map.get {} s.evt.wins E.STATE_CONFLICT
  w.posted + w.suppressed

/-- Status that a Skidway requester receives for a register write (R811, R815). -/
def wrStatus (s t : State) : Nat := if s.conflicts < t.conflicts then 0x04 else 0

end Sys2Proof.Machine
end

