-- ==== Sys2Proof/Machine/Access.lean ====
section
/-! DEFINITION. How an access reaches what it names: the permissions of Table BOT-8, host requests to BAR0, BAR2 and BAR4,
requests that arrive at a target NI, and the staged writes of an epoch ratchet (R27, R87, R91 to R98, R107, R598, R611 to
R614, R716 to R718, R737 to R741, R793 to R796, R802, R809, R828, R829). -/

namespace Sys2Proof.Machine
open Sys2Proof

/-! ### The control space -/

/-- Register word that an offset of the control space names: its own, or that of an alias word. -/
def ctrlReg (req : Req) (off : Nat) : Nat :=
  if off < 0x2000000 then viewOff req off
  else viewOff req (0x100000 * ((off - 0x2000000) / 0x20000) + off % 0x20000 / 128 * 4)

/-- A write of a word of the control space. -/
def State.ctrlWrite (s : State) (req : Req) (off v : Nat) : State :=
  if off < 0x2000000 then s.regWrite req (ctrlReg req off) v
  else s.aliasWrite req (ctrlReg req off) (off % 128 / 4) v

/-- A read of a word of the control space. -/
def State.ctrlRead (s : State) (req : Req) (off : Nat) : State × Nat :=
  if off < 0x2000000 then s.readWord req (ctrlReg req off) else (s, s.aliasRead req off)

/-- An access to a reserved block (R27); before CFG_DONE the host's posts no event (R96). -/
def State.unmapped (s : State) (req : Req) (off : Nat) : State :=
  match req with
  | .host _ => if s.cfg.done then s.post E.ADDR_UNMAPPED (reqCode req) (ctrlAddr off) else s
  | _ => s.post E.ADDR_UNMAPPED (reqCode req) (ctrlAddr off)

/-- A write by a requester arrives at a block. -/
def State.reqWrite (s : State) (req : Req) (off v : Nat) : State :=
  let blk := ctrlBlock off
  if 21 ≤ blk then s.unmapped req off
  else s.writeGate req blk off (ctrlReg req off) (fun s => s.ctrlWrite req off v)

/-- A read by a requester arrives at a block. -/
def State.reqRead (s : State) (req : Req) (off : Nat) : State × Nat :=
  let blk := ctrlBlock off
  if 21 ≤ blk then (s.unmapped req off, 0)
  else if ¬ s.permits req blk false then
    (match req with
      | .host _ => if s.cfg.done then s.post E.ACCESS_DENIED (reqCode req) (ctrlAddr off) else s
      | _ => s.post E.ACCESS_DENIED (reqCode req) (ctrlAddr off), 0)
  else if ¬ s.answers (ctrlReg req off) then
    (match req with
      | .host _ => s.post E.CLK_GATED_ACCESS (reqCode req) (ctrlAddr off)
      | _ => s, 0)
  else s.ctrlRead req off

/-- REGISTER_WRITE (R811, R814, R815, R818, R820, R822, R899): a write of a register of the control pages and windows. -/
def execRegisterWrite (req : Req) (off value : Nat) (s : State) : Res :=
  .next (s.when (decide (off < 0x2000000) && off % 4 == 0) (fun s => s.reqWrite req off value))

/-- BIT_ALIAS_WRITE (R93, R824, R825, R827): bit `b` of the register at offset `reg` of block `blk`. -/
def execBitAliasWrite (req : Req) (blk reg b value : Nat) (s : State) : Res :=
  .next (s.when (decide (blk < 32) && decide (reg < 0x1000) && reg % 4 == 0 && decide (b < 32)) (fun s =>
    s.reqWrite req (0x2000000 + 0x20000 * blk + reg * 32 + b * 4) value))

/-- PAIR_LO_READ (R173, R817): a read of a _LO word latches the high word into the requester's shadow. -/
def execPairLoRead (req : Req) (off : Nat) (s : State) : Res :=
  .next (s.when (decide (off < 0x2000000) && hasTy (ctrlReg req off) .rl) (fun s => (s.reqRead req off).1))

/-- EVT_PEEK (R844): a write of GLB_EVT_PEEK_SEL. -/
def execEvtPeek (req : Req) (value : Nat) (s : State) : Res :=
  .next (s.when true (fun s => s.byReq req (F.GLB_EVT_PEEK_SEL.off 0 0) (fun s => s.evtPeek (value % 2 ^ 32))))

/-! ### Host requests (R87, R91, R92, R96, R98, R107, R718, R793 to R796, R802, R809) -/

/-- One DW of the MSI-X table of a function: address, data and mask of a vector (R796). -/
def State.vecWord (s : State) (fn x : Nat) : Nat :=
  let v := Map.get {} s.pci.vecs (4096 * fn + x / 16)
  if s.rd F.QQP_CAP_VECTORS fn ≤ x / 16 then 0
  else match x % 16 / 4 with
    | 0 => v.addr % 2 ^ 32
    | 1 => v.addr / 2 ^ 32
    | 2 => v.data
    | _ => b2n v.masked

/-- A write of one DW of the MSI-X table; clearing a mask releases a pending message (R798). -/
def State.vecWrite (s : State) (fn x v : Nat) : State :=
  let n := x / 16
  let put (f : Vec → Vec) : State := { s with pci.vecs := Map.upd {} s.pci.vecs (4096 * fn + n) f }
  if s.rd F.QQP_CAP_VECTORS fn ≤ n then s
  else match x % 16 / 4 with
    | 0 => put (fun y => { y with addr := setBits y.addr 0 32 v })
    | 1 => put (fun y => { y with addr := setBits y.addr 32 32 v })
    | 2 => put (fun y => { y with data := v })
    | _ => (put (fun y => { y with masked := bit v 0 })).msixRelease fn n

/-- One DW of the PBA of a function. -/
def State.pbaWord (s : State) (fn x : Nat) : Nat :=
  (List.range 32).foldl (fun v i => v + b2n (Map.get {} s.pci.vecs (4096 * fn + 8 * x + i)).pending * 2 ^ i) 0

/-- A BAR0 offset in the MSI-X table or PBA of the function's view. -/
def inMsix (off : Nat) : Bool := decide (0x1010000 ≤ off) && decide (off < 0x1020000)

/-- One DW of a BAR0 access: value and byte enables (R794). The answer is the DW read. -/
def State.bar0 (s : State) (fn off : Nat) (write : Bool) (v be : Nat) : State × Nat :=
  let req := Req.host fn
  if write ∧ be % 16 ≠ 15 then ((if s.cfg.done then s.post E.PCI_PARTIAL_WRITE fn off else s), 0)
  else if inMsix off ∧ s.cfg.done then
    let x := off - 0x1010000
    if write then ((if x < 0x8000 then s.vecWrite fn x v else s), 0)
    else (s, if x < 0x8000 then s.vecWord fn x else s.pbaWord fn (x - 0x8000))
  else if write then (s.reqWrite req off v, 0)
  else s.reqRead req off

/-- The DWs of a BAR0 access in ascending order (R794), and the data of a read. -/
def State.bar0All (s : State) (fn : Nat) (write : Bool) : Nat → List (Nat × Nat) → State × Nat
  | _, [] => (s, 0)
  | off, (v, be) :: l =>
    let r := s.bar0 fn off write (v % 2 ^ 32) be
    let t := State.bar0All r.1 fn write (off + 4) l
    (t.1, r.2 + 2 ^ 32 * t.2)

/-- One DW written to BAR2: a doorbell (R107, R732). -/
def State.bar2 (s : State) (fn off v : Nat) : State :=
  let q := off / 8
  let cq := off % 8 == 4
  if ¬ s.gate 80 then s.holdDoorbell fn cq q v
  else if cq then s.cqDoorbell fn q v else s.sqDoorbell fn q v

/-- Enabled bytes of an access from offset `o`: (offset, byte). -/
def enabledBytes : Nat → List (Nat × Nat) → List (Nat × Nat)
  | _, [] => []
  | o, (v, be) :: l =>
    ((List.range 4).filter (bit be)).map (fun i => (o + i, bits v (8 * i) 8)) ++ enabledBytes (o + 4) l

/-- Runs of consecutive bytes, cut at 256-byte boundaries (R794): first offset and bytes. -/
def byteRuns : List (Nat × Nat) → List (Nat × List Nat)
  | [] => []
  | (o, b) :: l =>
    match byteRuns l with
    | (o', bs) :: r => if o' = o + 1 ∧ o' % 256 ≠ 0 then (o, b :: bs) :: r else (o, [b]) :: (o', bs) :: r
    | [] => [(o, [b])]

/-- Landing windows that BAR4 reaches now: those of its size that the policy opens (R793). -/
def State.windowOpen (s : State) (n : Nat) : Bool := decide (n < s.pci.bar4) && bit (s.pol 0x20 16) n

/-- One run of a BAR4 access goes to its window as a Skidway request from NI 0x0A2 with KID 0. -/
def State.bar4Run (s : State) (fn : Nat) (write : Bool) (x : Nat × List Nat) : State :=
  let a := 0x020000000000 + x.1
  let fail (s : State) : State :=
    if write then s else { s with out := s.out ++ [.barCpl fn true 0] }
  if ¬ s.cfg.done then fail s
  else if ¬ s.windowOpen (x.1 / 2 ^ 30) then fail (s.post E.ACCESS_DENIED (reqCode (.host fn)) a)
  else match s.freeTxn 0xA2 with
    | some t => s.drawn.skSend (.host fn)
        { src := 0xA2, write := write, addr := a, len := x.2.length, data := if write then ofBytes x.2 else 0, txn := t }
    | none => s

/-- HOST_BAR_ACCESS (R27, R87, R91, R92, R96, R98, R107, R718, R793 to R796, R802, R809): `dws` are the DWs from offset
`off`, each with its byte enables. A function that is not there, Memory Space Enable 0, or a BAR the function does not have is
answered with Unsupported Request. A BAR4 access for which NI 0x0A2 has no room waits at the port. -/
def execHostBarAccess (fn bar off : Nat) (write : Bool) (dws : List (Nat × Nat)) (s : State) : Res :=
  .next (s.when (s.on F.PCI_STAT_DL_UP && !s.pci.inReset && !s.on F.PCI_FN_STAT_FLR fn) (fun s =>
    let ur (s : State) : State := if write then s else { s with out := s.out ++ [.barCpl fn false 0] }
    if ¬ s.fnExists fn then ur (s.bump F.PCI_UR_SENT)
    else if ¬ s.on F.PCI_FN_STAT_MSE fn ∨ ¬ (bar = 0 ∨ bar = 2 ∨ (bar = 4 ∧ fn = 0)) then ur (s.urSent fn)
    else if bar = 0 then
      let r := s.bar0All fn write (off / 4 * 4 % 0x4000000) dws
      if write then r.1 else { r.1 with out := r.1.out ++ [.barCpl fn true r.2] }
    else if bar = 2 then
      if ¬ write then { s with out := s.out ++ [.barCpl fn true 0] }
      else if ¬ s.cfg.done then s
      else (dws.zipIdx).foldl (fun s x => s.bar2 fn ((off / 4 + x.2) * 4 % 0x4000) x.1.1) s
    else
      let l := byteRuns (enabledBytes (off / 4 * 4) dws)
      if 1024 < s.outstanding 0xA2 + l.length then s
      else l.foldl (fun s x => s.bar4Run fn write x) s))

/-! ### Arrival at a target NI (R598, R611 to R614, R716, R717, R728, R734, R740) -/

/-- Polder whose clock gate and power the destination of a request depends on. -/
def destGate (q : SkReq) : Nat :=
  match daDest q.addr with
  | .hbm x => 65 + hbmPc x / 32
  | .spm b _ => 77 + b / 12
  | .landing n _ => 1 + n / 4
  | _ => 0

/-- The unit can perform the request now (R716, R718). -/
def State.unitRuns (s : State) (p : Pkt) : Bool :=
  match daDest p.req.addr with
  | .control o => s.answers (ctrlReg p.who o)
  | _ => s.gate (destGate p.req)

/-- Scratchpad master of a source NI (Table HBM-5). -/
def niMaster (n : Nat) : Nat :=
  if n = 0xA0 then 0 else if n = 0xA1 then 1 else if n = 0xA2 then 2 else if 0x180 ≤ n ∧ n < 0x184 then 3
  else if 0x184 ≤ n ∧ n < 0x188 then 4 else if n = 0xA3 then 5 else if n = 0xA4 then 6
  else if 0x100 ≤ n ∧ n < 0x180 then 7 else 15

/-- Source NIs that sealed regions 0 to 2 accept (R549). -/
def niAdmitted (n : Nat) : Bool :=
  (decide (0x60 ≤ n) && decide (n < 0xA0)) || n == 0xA4 || n == 0xA0 || n == 0xA1
    || (decide (0x180 ≤ n) && decide (n < 0x188))

/-- The unit performs a request: its status and data, or none where no answer is given yet: HBM work that waits, a raw
sequence, a window access handed to user logic. -/
def State.perform (s : State) (k : Nat) (p : Pkt) (ms : List Meet) : State × Option (Nat × Nat) :=
  let q := p.req
  match daDest q.addr with
  | .hbm x =>
    if q.bitset ∨ q.bitclr then (s, some (0x03, 0))
    else s.hbmAccess x (daKid q.addr) q.write (niAdmitted q.src) q.len q.data ms
  | .spm b off =>
    let r := s.spmAccess b off (niMaster q.src) (q.src - 0x100) q ms
    (r.1, some r.2)
  | .landing n _ => (s.landingTake n k, none)
  | .control o =>
    if rawPort o then (s, none)
    else if q.write then
      let t := s.ctrlWrite p.who o q.data
      (t, some (wrStatus s t, 0))
    else
      let r := s.ctrlRead p.who o
      (r.1, some (0, r.2))
  | .unmapped => (s, some (0x03, 0))

/-- The unit performs a request and its answer goes back; HBM work that waits stays at the unit. -/
def State.serve (s : State) (k : Nat) (p : Pkt) (ms : List Meet) : State :=
  let s := s.updPkt k (fun p => { p with atUnit := true, held := false })
  let r := s.perform k p ms
  match r.2 with
  | some (st, d) => r.1.answer k st d
  | none =>
    match daDest p.req.addr with
    | .hbm _ => r.1.updPkt k (fun p => { p with held := true })
    | _ => r.1

/-- A request is handed to its unit; behind a closed gate it is not performed and stays there. -/
def State.handTo (s : State) (k : Nat) (p : Pkt) (ms : List Meet) : State :=
  if s.unitRuns p then s.serve k p ms
  else { s.updPkt k (fun p => { p with atUnit := true, held := false }) with noc.stuck := s.noc.stuck ++ [(k, p)] }

/-- A request meets the sluice of its polder (R613, R728, Table PWR-2). -/
def State.atSluice (s : State) (k : Nat) (p : Pkt) (ms : List Meet) : State :=
  match daDest p.req.addr with
  | .landing n _ =>
    let pd := 1 + n / 4
    let wake := p.req.wake && s.on F.PWR_POL_CFG_WAKE_EN pd
    let st := s.polSt pd
    if st = 0 then s.handTo k p ms
    else if st = 1 ∧ wake then (s.polCancel pd).handTo k p ms
    else if (st = 4 ∨ st = 5) ∧ wake then
      let s := if st = 4 ∧ ¬ s.on F.PWR_POL_STAT_WAKE_PENDING pd then s.bump F.PWR_WAKES else s
      ((s.updPkt k (fun p => { p with held := true, sentAt := s.time })).put F.PWR_POL_STAT_WAKE_PENDING 1 pd).polUp pd
    else s.answer k 0x0A 0
  | _ => s.handTo k p ms

/-- A request arrives at its target NI: fence, isolation, epoch, then the sluice and the unit. -/
def State.arrive (s : State) (k : Nat) (p : Pkt) (ms : List Meet) : State :=
  let n := p.dst
  let e := s.unitEpoch (niUnit n)
  if s.on F.NOC_NI_STAT_FENCED n then
    let s := if p.req.write then (s.bump F.NOC_FENCED_WRITES).bump F.PWR_XING_FENCED 1 0 else s
    s.answer k 0x11 0
  else if s.on F.NOC_NI_STAT_ISOLATED n then s.answer k 0x0A 0
  else if epochOlder p.epoch ((e + 65535) % 65536) then s.answer k 0x0E 0
  else if epochOlder e p.epoch then s.updPkt k (fun p => { p with held := true })
  else s.atSluice k p ms

/-- A request that a unit held behind its closed gate is performed once the gate is open; the answer of one that the NI has
retired is discarded and counted (R717). -/
def State.unstick (s : State) (k : Nat) (p : Pkt) (ms : List Meet) : State :=
  if ¬ s.unitRuns p then s
  else
    let s : State := { s with noc.stuck := s.noc.stuck.filter (fun x => x.1 ≠ k) }
    match s.pkt k with
    | some q => if q.atUnit ∧ q.answer.isNone then s.serve k p ms else (s.perform k p ms).1.bump F.NOC_STALE_RESP
    | none => (s.perform k p ms).1.bump F.NOC_STALE_RESP

/-- SKIDWAY_REQUEST_ARRIVE (R28, R34, R448 to R462, R492 to R530, R548 to R578, R598, R605, R611 to R618, R644, R716, R717, R728,
R734, R740, R810): request `key` reaches its target NI, or one that waits there, for an epoch, a heal, a re-key or a gate, is
taken up again (log entry 23). `ms` says line by line what the memory hardware meets. -/
def execSkidwayRequestArrive (key : Nat) (ms : List Meet) (s : State) : Res :=
  .next (s.when true (fun s =>
    match s.noc.stuck.find? (fun x => x.1 == key) with
    | some x => s.unstick key x.2 ms
    | none =>
      match s.pkt key with
      | some p =>
        if p.lost ∨ p.parked.isSome ∨ p.backoff ∨ p.answer.isSome ∨ (p.atUnit ∧ ¬ p.held) then s
        else if p.held then s.arrive key p ms
        else if s.granted p then (s.grant p).arrive key p ms
        else s
      | none => s))

/-! ### The epoch broadcast (R737 to R741) -/

/-- Blocks whose staged writes a unit applies (Table PWR-7). -/
def unitBlocks (u : Nat) : List Nat :=
  match u with
  | 0 => [19]
  | 1 => [6]
  | 2 => [7]
  | 3 => [8]
  | 4 => [9]
  | 5 => [10]
  | 6 => [12]
  | 8 => [11]
  | 9 => [13]
  | 10 => [14]
  | 11 => [5]
  | 12 => [1, 2]
  | 13 => [0, 3, 4, 15, 16, 17, 18, 20]
  | _ => []

/-- The staged writes of a unit's blocks, in stage order (R739). -/
def State.applyStage (s : State) (u : Nat) : State :=
  (List.range (s.rd F.PWR_EP_COUNT)).foldl (fun s i =>
    let o := s.rd F.PWR_EP_STAGE_OFF i
    if (unitBlocks u).contains (ctrlBlock o) then s.ctrlWrite .part o (s.rd F.PWR_EP_STAGE_VAL i) else s) s

/-- EPOCH_BROADCAST_ARRIVE (R598, R739 to R741): the broadcast reaches unit `u`; behind a closed gate it waits. -/
def execEpochBroadcastArrive (u : Nat) (s : State) : Res :=
  .next (s.when (decide (u < 14) && s.pwr.left.contains u) (fun s =>
    if (unitPolders u).any (fun p => !s.gate p) then s.put F.PWR_UNIT_EPOCH_PENDING 1 u
    else (s.applyStage u).takeEpoch u))

end Sys2Proof.Machine
end

