-- ==== Sys2Proof/Machine/Boot.lean ====
section
/-! DEFINITION. Loading the Darut image: the checks of its header and of its segments, what each segment sets, the fallback,
and the start sequence (R45 to R100 and the checks other chapters name: R31, R299, R450, R525, R555, R628, R664, R791, R887). -/

namespace Sys2Proof.Machine
open Sys2Proof

/-! ### Header and segment table (Table BOT-6, R50 to R59) -/

/-- FLAGS.DEFERRED. -/
def segDeferred (h : SegHdr) : Bool := bit h.flags 0

/-- Rank of a type in the order of Table BOT-5; the deferred LIBRARY segments have none. -/
def segRank (ty : Nat) : Nat :=
  match ty with
  | 0x09 => 5
  | 0x05 => 6
  | 0x06 => 7
  | 0x07 => 8
  | n => n

/-- PARAM has only the bits its type gives it. -/
def paramOk (ty param : Nat) : Bool :=
  match ty with
  | 0x03 => decide (param < 16)
  | 0x05 => decide (param < 16)
  | 0x09 => decide (param < 4)
  | _ => param == 0

/-- Rules of a single entry (R52, Tables BOT-3 and BOT-5). -/
def segOk (h : SegHdr) : Bool :=
  decide (1 ≤ h.ty) && decide (h.ty ≤ 9) && decide (h.flags < 4) && decide (h.slots < 16) && h.rsv == 0
    && paramOk h.ty h.param && h.off % 16 == 0 && decide (0x2000 ≤ h.off) && h.len % 16 == 0
    && (segDeferred h == (h.ty == 8))
    && (h.ty != 1 || (bit h.flags 1 && decide (h.len ≤ 0x40000) && decide (h.off + h.len ≤ 0x100000)))
    && (h.ty != 4 || h.len == 4096)

/-- Non-deferred segments lie at ascending offsets and follow the type order (R56). -/
def segsRise : List SegHdr → Bool
  | a :: b :: l => decide (a.off < b.off) && decide (segRank a.ty ≤ segRank b.ty) && segsRise (b :: l)
  | _ => true

/-- What a slot must find among the non-deferred segments that name it (R56). -/
def slotOk (l : List SegHdr) (slot : Nat) : Bool :=
  let m := l.filter (fun h => bit h.slots slot)
  let one (t : Nat) : Bool := (m.filter (fun h => h.ty == t)).length == 1
  let die (d : Nat) : Bool := (m.filter (fun h => h.ty == 9 && bit h.param d)).length == 1
  one 1 && one 4 && one 7 && die 0 && die 1

/-- Offset one past the last byte of the non-deferred segment that lies last (R62). -/
def lastEnd (l : List SegHdr) : Nat := (l.getLast?.map (fun h => h.off + h.len)).getD 0

/-- Check 9. -/
def layoutOk (h : FullHdr) (a : Auth) (cap : Bool) : Bool :=
  let l := h.segs.filter (fun x => !segDeferred x)
  decide (1 ≤ h.count) && decide (h.count ≤ 64) && h.tableZeros && a.zeros && h.segs.all segOk
    && segsRise l && (List.range 4).all (fun k => !bit h.slots k || slotOk l k) && h.length == lastEnd l
    && (!cap || h.segs.all (fun x => decide (x.off + x.len ≤ 0x8000000)))

/-- The first of checks 1 to 6 of Table BOT-6 that fails. -/
def State.headFail (s : State) (i : FullImg) : Option Nat :=
  let h := fullHdr i.bytes
  if ¬ i.readable ∨ h.magic ≠ 0x54555244 then some 0x01
  else if h.format ≠ 1 ∨ h.flags ≠ 0 ∨ 16 ≤ h.slots ∨ ¬ h.zeros then some 0x02
  else match s.identityFail h.family h.part h.steppings with
    | some c => some c
    | none => if ¬ bit h.slots (s.rd F.CFG_STATUS_SLOT) then some 0x06 else none

/-- The first of checks 7 to 9 that fails. -/
def State.authFail (s : State) (i : FullImg) : Option Nat :=
  let a := fullAuth i.bytes
  if ¬ s.keyOk a then some 0x07
  else if ¬ sigOk a i.bytes 0x1C00 then some 0x08
  else if ¬ layoutOk (fullHdr i.bytes) a (s.rd F.CFG_STATUS_ROLE == 0 && !s.cfg.fallback) then some 0x09
  else none

/-! ### The stream, failure and fallback (R45, R51, R60 to R70, R84, R85) -/

/-- This part is the driver of its load group. -/
def State.driver (s : State) : Bool := decide (s.rd F.CFG_STATUS_ROLE < 2)

/-- Device offset at which the driver's present image starts (Table BOT-4). -/
def State.imageBase (s : State) : Nat := if s.cfg.fallback ∧ s.rd F.CFG_STATUS_ROLE = 0 then 0x8000000 else 0

/-- Image offset at which the driver's primary stream ends: IMAGE_LENGTH, but never past 0x0800_0000 with one device, nor past
the end of device 0 with two (R62). -/
def State.streamEnd (s : State) : Nat :=
  min s.cfg.len (if s.rd F.CFG_STATUS_ROLE = 0 then 0x8000000 else Config.nvmBytes)

/-- The part begins to load the fallback image. -/
def State.fallbackLoad (s : State) : State :=
  let s := (s.put F.CFG_STATUS_FALLBACK_ACTIVE 1).put F.CFG_STATUS_STATE 1
  { s with
    cfg.fallback := true, cfg.failed := false, cfg.img := none, cfg.headerOk := false, cfg.segs := [], cfg.ready := false
    cfg.hbmStarted := 0, cfg.hbmDone := 0, cfg.preloadOk := false, cfg.off := [] }

/-- The driver streams the fallback image, once in a load, and loads it if its own load failed (R67, R70). The devices are reset
and read in 1S-1S-1S mode first (log entry 187). -/
def State.fallbackStream (s : State) : State :=
  let s : State := { s with cfg.fbStream := true, cfg.fbUsed := true, cfg.csActive := true, cfg.mode8 := false, cfg.pos := 0 }
  if s.cfg.failed then s.fallbackLoad else s

/-- The load of the present image fails with a code (R66, R70, R71, R84, R85). A driver that found MAGIC or FORMAT invalid stops
its primary stream (R65); a driver whose primary stream has ended starts the fallback at once. A part that fails after the
fallback's stream has begun stays as it is, neither loading nor refused (DESIGN CHOICE, log entry 179). -/
def State.loadFail (s : State) (code : Nat) : State :=
  let s := s.bump F.CFG_LOAD_FAILS
  if s.cfg.fallback then
    { s.put F.CFG_FAIL_CODE_FALLBACK code with
      cfg.failed := true, cfg.img := none, cfg.headerOk := false, cfg.ready := false }.refuse
  else
    let s := (s.put F.CFG_FAIL_CODE_PRIMARY code).put F.CFG_STATUS_STATE 1
    let s : State := { s with
      cfg.failed := true, cfg.img := none, cfg.headerOk := false, cfg.ready := false, cfg.syncPull := !s.driver
      cfg.csActive := s.cfg.csActive && (!s.driver || s.cfg.streaming || s.cfg.fbStream) }
    if s.driver && !s.cfg.csActive && !s.cfg.fbUsed then s.fallbackStream else s

/-- The part stores this entry (R63). -/
def State.stores (s : State) (e : SegEnt) : Bool := !e.deferred && bit e.slots (s.rd F.CFG_STATUS_SLOT)

/-- Index and entry of the stored segment that arrives next. -/
def State.nextSeg (s : State) : Option (SegEnt × Nat) := s.cfg.segs.zipIdx.find? (fun x => s.stores x.1 && !x.1.done)

/-- A load runs: nothing has ended it, and its clock is there (R701). -/
def State.loading (s : State) : Bool :=
  !s.cfg.done && !s.cfg.failed && !s.refused && s.on F.CLK_STAT_LOCK

/-- A segment table entry as the part keeps it. -/
def segEnt (h : SegHdr) : SegEnt :=
  { ty := h.ty, deferred := segDeferred h, slots := h.slots, param := h.param, off := h.off, len := h.len, hash := h.hash }

/-- Checks 7 to 9 have passed: the segment table and what the header says of the image are kept, and the segments follow. -/
def State.headerTaken (s : State) (i : FullImg) : State :=
  let h := fullHdr i.bytes
  { s.put F.CFG_STATUS_STATE 3 with
    cfg.img := none, cfg.segs := h.segs.map segEnt, cfg.headerOk := true, cfg.buildId := h.buildId
    cfg.keySlot := (fullAuth i.bytes).slot, cfg.tables := [], cfg.runs := [], sl.frames := [], sl.drivers := [] }

/-- The system controller finishes checks 7 to 9 of the header it holds (Table BOT-7, step 4). They take time: they end at the
first tick after the header, or before the next segment, whichever comes first (log entry 188). -/
def State.authenticate (s : State) : State :=
  match s.cfg.img with
  | some i =>
    if ¬ s.loading then s
    else match s.authFail i with
      | some c => s.loadFail c
      | none => s.headerTaken i
  | none => s

/-- The header has been read (Table BOT-7, steps 2 and 3): where its stream lies, and the mode-entry command by which the driver
turns the device to 8D-8D-8D, unless XSPI_ENTRY has length 0 (R45, R51). -/
def State.headerRead (s : State) (i : FullImg) : State :=
  let h := fullHdr i.bytes
  let valid : Bool := i.readable && h.magic == 0x54555244 && h.format == 1
  let n := h.entryLen % 16
  let s : State := { s with
    cfg.csActive := true, cfg.base := i.addr, cfg.len := h.length, cfg.pos := 0x2000, cfg.streaming := valid
    cfg.mode8 := valid && n != 0, cfg.xspiRead := h.read }
  if valid ∧ n ≠ 0 ∧ s.driver then { s with out := s.out ++ [.xspi (h.entry % 2 ^ (8 * n)) n] } else s

/-- Checks 1 to 6 decide whether the header goes on to authentication. -/
def State.headerChecked (s : State) (i : FullImg) : State :=
  match s.headFail i with
  | some c => s.loadFail c
  | none => { s.put F.CFG_STATUS_STATE 2 with cfg.img := some i }

/-- HEADER_RECEIVED (R45, R50 to R71, R85): the first 8 KiB of an image, read from device offset `addr`, have arrived. A driver
reads where Table BOT-4 says; a listener takes the address from the read it follows (R60). -/
def execHeaderReceived (img : FullImg) (s : State) : Res :=
  .next (s.when (s.loading && !s.cfg.headerOk && s.cfg.img.isNone && (!s.driver || img.addr == s.imageBase)) (fun s =>
    (s.headerRead img).headerChecked img))

/-- NO_STREAM_TIMEOUT (R61). -/
def execNoStreamTimeout (s : State) : Res :=
  .next (s.when (s.loading && !s.driver && !s.cfg.csActive) (fun s => s.refuseAtOnce 0x0E))

/-- CFG_SYNC_LOW (R67): a listener pulls CFG_SYNC_N while the driver streams the primary image, which it does from its first
read. -/
def execCfgSyncLow (s : State) : Res :=
  .next (s.when (s.driver && s.cfg.csActive && !s.cfg.fbStream) (fun s => { s with cfg.syncLatch := true }))

/-- PRIMARY_STREAM_END (R62, R64, R67, R68, R89): the stream has reached its end; it does not while the driver's own load still
waits for a part of it. -/
def execPrimaryStreamEnd (s : State) : Res :=
  .next (s.when (s.driver && s.cfg.csActive && !s.cfg.fbStream && (!s.loading || s.cfg.headerOk && s.nextSeg.isNone)) (fun s =>
    let s : State := { s with cfg.pos := max s.cfg.pos s.streamEnd }
    if (s.cfg.syncLatch || s.cfg.failed) && !s.cfg.fbUsed then s.fallbackStream
    else { s with cfg.csActive := false }))

/-- FALLBACK_FIRST_READ (R66): a listener releases CFG_SYNC_N; one whose load failed loads the fallback. -/
def execFallbackFirstRead (s : State) : Res :=
  .next (s.when (!s.driver && !s.refused) (fun s =>
    let s : State := { s with cfg.syncPull := false }
    if s.cfg.failed ∧ ¬ s.cfg.fallback then s.fallbackLoad else s))

/-- FALLBACK_STREAM_END (R89). -/
def execFallbackStreamEnd (s : State) : Res :=
  .next (s.when s.cfg.fbStream (fun s => { s with cfg.fbStream := false, cfg.csActive := false }))

/-! ### POLICY (Table BOT-8, R30, R31, R33, R73, R450, R525, R690) -/

/-- Every byte that Table BOT-8 does not list is 0; one that is not fails the load with code 0x0B (R90 names no code: DESIGN
CHOICE, log entry 178). -/
def policyZeros (v : Nat) : Bool :=
  bytesAt v 0x61 3 == 0 && bytesAt v 0x6A 6 == 0 && v / 2 ^ (8 * 0x90) == 0

/-- Ranges of FELL_THRESHOLDS (Table FLT-3). -/
def fellOk (v : Nat) : Bool :=
  let le (o hi : Nat) : Bool := decide (bytesAt v (0x70 + o) 1 ≤ hi)
  le 0 64 && le 1 24 && le 2 7 && le 3 3 && le 6 168 && le 7 15 && le 8 168 && bytesAt v 0x79 23 == 0

/-- Ranges [start, start + size) that share no unit. -/
def apart : List (Nat × Nat) → Bool
  | [] => true
  | a :: l => l.all (fun b => a.2 == 0 || b.2 == 0 || decide (a.1 + a.2 ≤ b.1) || decide (b.1 + b.2 ≤ a.1)) && apart l

/-- HBM_LAYOUT: reserved bits, regions within the 576 units of HBM without overlap, an integrity region of one eighth of
regions 0 to 2, an image cache of 256 MiB (R30, R31, R690). -/
def State.hbmLayoutOk (s : State) : Bool :=
  let r := (List.range 6).map s.hbmRegion
  s.pol 0x40 1 / 2 == 0 && s.pol 0x41 3 == 0 && s.pol 0x5C 4 == 0
    && (!bit (s.pol 0x40 1) 0
      || (r.all (fun x => decide (x.1 + x.2 ≤ 576)) && apart r
        && decide ((s.hbmRegion 1).2 + (s.hbmRegion 2).2 ≤ 8 * (s.hbmRegion 4).2) && decide (1 ≤ (s.hbmRegion 3).2)))

/-- The policy in force obeys the ranges of its table (R73). -/
def State.policyRangesOk (s : State) : Bool :=
  let v := s.cfg.policy
  policyZeros v && s.pol 0x30 4 / 128 == 0 && s.polTimeRole != 3 && s.pol 0x34 4 / 2 ^ 17 == 0
    && (s.pol 0x38 4 == 0 || (decide (1024 ≤ s.pol 0x38 4) && decide (s.pol 0x38 4 ≤ s.ownHalfMiB)))
    && decide (s.pol 0x3C 1 ≤ 7) && s.hbmLayoutOk && decide (s.deckMode ≤ 3)
    && (List.range 6).all (fun k => decide (s.pol (0x64 + k) 1 ≤ 7)) && fellOk v

/-- Sealed regions 3 to 7 in 256 MiB units. -/
def State.extraSeals (s : State) : List (Nat × Nat) :=
  (List.range 5).map (fun k => (s.rd F.CRY_SEAL_CFG_BASE (k + 3), s.rd F.CRY_SEAL_CFG_SIZE (k + 3)))

/-- Sealed regions 3 to 7 against the layout (R555). -/
def State.sealsOk (s : State) : Bool :=
  let f := s.hbmRegion 5
  let l := s.extraSeals
  l.all (fun x => x.2 == 0 || (decide (f.1 ≤ x.1) && decide (x.1 + x.2 ≤ f.1 + f.2))) && apart l
    && decide ((s.hbmRegion 1).2 + (s.hbmRegion 2).2 + (l.map Prod.snd).sum ≤ 8 * (s.hbmRegion 4).2)

/-! ### MEDIA (R298, R299, R351, R887) -/

/-- Entries of a MEDIA segment: `n` dies of 128. -/
def mediaEnts (n entries : Nat) : List Nat := (List.range (128 * n)).map (fun k => bytesAt entries (8 * k) 8)

/-- Timing sets that an entry in use names. -/
def usedSets (ents : List Nat) : List Nat :=
  (List.range 8).filter (fun t => ents.any (fun e => bits e 0 3 == t && bits e 8 5 != 0))

/-- A timing set (Table MED-4). -/
def tsetOk (t : Nat) : Bool :=
  let b (o n : Nat) : Nat := bytesAt t o n
  [4, 8, 16].contains (b 0 1) && [1, 2, 4].contains (b 1 1) && decide (64 ≤ b 2 2) && decide (b 2 2 ≤ 4096)
    && decide (1 ≤ b 6 1) && decide (b 6 1 ≤ 4) && b 7 1 == 0 && decide (1 ≤ b 0x14 4) && decide (b 0x14 4 ≤ 2000)
    && b 0x23 1 % 4 != 3 && decide (b 0x23 1 < 16) && b 0x28 88 == 0

/-- Strictly rising from entry to entry. -/
def rising : List Int → Bool
  | a :: b :: l => decide (a < b) && rising (b :: l)
  | _ => true

/-- A ring table (Table REL-4). -/
def ringOk (r : Nat) : Bool :=
  let b (o n : Nat) : Nat := bytesAt r o n
  [1, 3, 7, 15].contains (b 0 1) && decide (b 1 1 ≤ 3) && decide (1 ≤ b 2 1) && decide (b 2 1 ≤ 15)
    && (b 5 1 == 3 || b 5 1 == 5) && b 0xF 1 == 0 && b 0x4C 52 == 0 && b 0x970 144 == 0
    && rising ((List.range 7).map (fun c => sgnByte (b (8 + c) 1)))
    && rising ((List.range 15).map (fun c => (b (0x10 + 4 * c) 4 : Int)))

/-- The reliability header (Table REL-3). A field that holds 0 takes its default. -/
def relHdrOk (h : Nat) : Bool :=
  let b (o n : Nat) : Nat := bytesAt h o n
  b 0 1 / 16 == 0 && b 1 1 / 16 == 0 && (b 2 1 == 0 || (decide (6 ≤ b 2 1) && decide (b 2 1 ≤ 16))) && decide (b 3 1 ≤ 2)
    && (b 0x10 2 == 0 || (decide (64 ≤ b 0x10 2) && decide (b 0x10 2 ≤ 4096))) && decide (b 0x12 1 < 8) && b 0x13 45 == 0

/-- Checks of a MEDIA segment. -/
def mediaOk (n entries tsets ring : Nat) : Bool :=
  let es := mediaEnts n entries
  es.all (fun e => decide (bits e 8 5 ≤ 16) && decide (bits e 13 3 ≤ 4)) && relHdrOk (bytesAt ring 0 64)
    && (usedSets es).all (fun t => tsetOk (bytesAt tsets (128 * t) 128) && ringOk (bytesAt ring (64 + 2560 * t) 2560))

/-- Registers of a die whose reset values the reliability header and the channel entries give; capped channels are named. -/
def State.mediaRegs (s : State) (d : Nat) : State :=
  let h := s.med.ring.getD d 0
  let b (o n : Nat) : Nat := bytesAt h o n
  let s := s.put F.MED_REL_CTL_UC_DEPTH (if b 3 1 = 0 then 1 else b 3 1) d
  let s := if b 4 4 = 0 then s else
    ((s.put F.MED_UC_PRED_UC_SW (bits (b 4 4) 0 12) d).put F.MED_UC_PRED_UC_AGE (bits (b 4 4) 12 4) d).put
      F.MED_UC_PRED_UC_RDC (bits (b 4 4) 16 8) d
  let s := if b 8 4 = 0 then s else
    (((s.put F.MED_REFRESH_CFG_REFRESH_STEP (bits (b 8 4) 0 4) d).put F.MED_REFRESH_CFG_REFRESH_AGE (bits (b 8 4) 4 4) d).put
      F.MED_REFRESH_CFG_DISTURB_LIMIT (bits (b 8 4) 8 8) d).put F.MED_REFRESH_CFG_PATROL_HOURS (bits (b 8 4) 16 16) d
  let s := if b 12 4 = 0 then s else
    (((s.put F.MED_GC_CFG_GC_LOW (bits (b 12 4) 0 8) d).put F.MED_GC_CFG_GC_HIGH (bits (b 12 4) 8 8) d).put
      F.MED_GC_CFG_GC_URGENT (bits (b 12 4) 16 8) d).put F.MED_GC_CFG_WEAR_GAP (bits (b 12 4) 24 8) d
  ((List.range 128).map (· + 128 * d)).foldl (fun s ch =>
    let s := s.put F.MED_CH_CTL_RATE (s.chRate ch) d (ch % 128)
    if 9 ≤ s.chLoads ch ∧ 3 ≤ bits (s.chEnt ch) 13 3 then s.post (E.MED_LOAD_CAP d) ch else s) s

/-- MEDIA_HASH over the channel entries and timing sets of both dies, each MEDIA segment's in the order of the image (R56, Table
LVE-3, log entry 211). -/
def State.mediaHash (s : State) : Nat :=
  ofBytes ((sha384 (s.med.masks.flatMap (fun m =>
    let dies := [0, 1].filter (bit m)
    dies.flatMap (fun d => toBytes 1024 (bits s.med.entries (8192 * d) 8192))
      ++ toBytes 1024 (s.med.tsets.getD (dies.headD 0) 0)))).take 8)

/-- A MEDIA segment takes effect for the dies its PARAM names, in place of one of a failed primary image. -/
def State.applyMedia (s : State) (mask entries tsets ring : Nat) : State :=
  let dies := [0, 1].filter (bit mask)
  let s := dies.zipIdx.foldl (fun s x =>
    let e := bytesAt entries (1024 * x.2) 1024
    { s with med.entries := setBits s.med.entries (8192 * x.1) 8192 e, med.tsets := s.med.tsets.set x.1 tsets
             med.ring := s.med.ring.set x.1 ring }) s
  let s : State := { s with med.masks := s.med.masks.filter (fun m => m &&& mask == 0) ++ [mask] }
  dies.foldl State.mediaRegs { s with med.hash := s.mediaHash }

/-! ### HUB, FABRIC, PRELOAD and GOLDEN (R57, R628, R663, R664, R672, R813) -/

/-- Offset a HUB record may write (R57). -/
def hubOff (o : Nat) : Bool :=
  o % 4 == 0 && ((decide (o / 0x100000 ≤ 20) && decide (o % 0x100000 < 0x1000))
    || (o / 0x100000 == 15 && decide (0x10000 ≤ o % 0x100000) && decide (o % 0x100000 < 0x14000)))

/-- HUB records take effect in order, as writes of the system controller; the first that lies outside the allowed offsets or is
refused fails the load (R57, R813). Those before it stay applied (DESIGN CHOICE, log entry 176). -/
def State.hubRecords (s : State) : List (Nat × Nat) → State × Bool
  | [] => (s, true)
  | x :: l =>
    if ¬ hubOff x.1 then (s, false)
    else
      let t := s.regWrite .part x.1 x.2
      if wrStatus s t ≠ 0 then (t, false) else State.hubRecords t l

/-- Frame addresses of runs with their contents. -/
def runFrames (runs : List (Nat × List Nat)) : List (Nat × Nat) :=
  runs.flatMap (fun r => r.2.zipIdx.map (fun x => (r.1 + x.2, x.1)))

/-- Each run lies above the one before it (R663). -/
def runsRise : List (Nat × List Nat) → Bool
  | a :: b :: l => decide (a.1 + a.2.length ≤ b.1) && runsRise (b :: l)
  | _ => true

/-- Runs of a FABRIC segment: 1 to 720 frames each, every frame exists on a named die, addresses rise (R661, R663). -/
def runsOk (mask : Nat) (runs : List (Nat × List Nat)) : Bool :=
  runs.all (fun r => decide (1 ≤ r.2.length) && decide (r.2.length ≤ 720)
    && (List.range r.2.length).all (fun k => frameOk (r.1 + k) && bit mask (faDie (r.1 + k)))) && runsRise runs

/-- Stand table bytes of a die: reserved bits, SPLIT, and 0 where the segment does not name the die (R664). -/
def tableOk (mask table d : Nat) : Bool :=
  let b := bytesAt table (8 * d) 8
  if bit mask d then (List.range 8).all (fun k =>
    decide (bytesAt b k 1 % 8 ≤ 6) && !bit (bytesAt b k 1) 3 && bytesAt b k 1 / 64 == 0) else b == 0

/-- Scanned runs of a segment share no frame with those received before. -/
def runsNew (old new : List (Nat × Nat)) : Bool :=
  new.all (fun a => old.all (fun b => decide (a.1 + a.2 ≤ b.1) || decide (b.1 + b.2 ≤ a.1)))

/-- Rows of the two stands of a strip (R665): a stand without rows shows 0 to 0. -/
def State.putStand (s : State) (e b : Nat) : State :=
  let sp := 4 * (b % 8)
  let s := (s.flag F.CFG_ST_STAT_LOADABLE (bit b 4 && sp != 0) e).flag F.CFG_ST_STAT_LOADABLE (bit b 5 && sp != 24) (e + 1)
  let s := (s.put F.CFG_ST_STAT_ROW_FIRST 0 e).put F.CFG_ST_STAT_ROW_LAST (sp - 1) e
  (s.put F.CFG_ST_STAT_ROW_FIRST (if sp = 24 then 0 else sp) (e + 1)).put F.CFG_ST_STAT_ROW_LAST (if sp = 24 then 0 else 23) (e + 1)

/-- Frames that arrive before the first breach of R661 and R663: existing frames of the named dies at rising addresses. -/
def soundFrames (mask : Nat) : Option Nat → List (Nat × Nat) → List (Nat × Nat)
  | _, [] => []
  | last, x :: l =>
    if frameOk x.1 && bit mask (faDie x.1) && (last.map (fun a => decide (a < x.1))).getD true then
      x :: soundFrames mask (some x.1) l
    else []

/-- Frames reach the configuration memory and, where scanned, the image cache as they arrive (R75, R690). -/
def State.writeFrames (s : State) (mask : Nat) (runs : List (Nat × List Nat)) : State :=
  (soundFrames mask none (runFrames runs)).foldl (fun s x => s.updFrm x.1 (fun f =>
    if frameScanned x.1 then { f with live := x.2, cache := x.2 } else { f with live := x.2 })) s

/-- Runs of scanned frames: address and number. -/
def scannedRuns (runs : List (Nat × List Nat)) : List (Nat × Nat) :=
  (runs.filter (fun r => frameScanned r.1)).map (fun r => (r.1, r.2.length))

/-- The loader's map of spine-line drivers with those of a segment. -/
def State.withDrivers (s : State) (drv : List (Nat × Nat)) : Map Nat :=
  drv.foldl (fun m x => Map.upd 0 m x.1 (fun v => Nat.lor v x.2)) s.sl.drivers

/-- A FABRIC segment keeps R628, R663 and R664. -/
def State.fabricOk (s : State) (mask table : Nat) (runs : List (Nat × List Nat)) (drv : List (Nat × Nat)) : Bool :=
  let same := (List.range 4).all (fun d => !bit mask d || (match Map.get none s.cfg.tables d with
    | some b => b == bytesAt table (8 * d) 8
    | none => true))
  let double := drv.any (fun x => decide (1 < popcount x.2 32) || Nat.land (Map.get 0 s.sl.drivers x.1) x.2 != 0
    || decide (1 < popcount (Map.get 0 (s.withDrivers drv) x.1) 32))
  runsOk mask runs && (List.range 4).all (tableOk mask table) && same && runsNew s.cfg.runs (scannedRuns runs) && !double

/-- A verified FABRIC segment: the stands of its dies, its runs and its drivers. -/
def State.applyFabric (s : State) (mask table : Nat) (runs : List (Nat × List Nat)) (drv : List (Nat × Nat)) : State :=
  let m := s.withDrivers drv
  let s := ((List.range 4).filter (bit mask)).foldl (fun s d =>
    let b := bytesAt table (8 * d) 8
    let s : State := { s with cfg.tables := Map.set none s.cfg.tables d (some b) }
    (List.range 8).foldl (fun s k => s.putStand (16 * d + 2 * k) (bytesAt b k 1)) s) s
  { s with cfg.runs := s.cfg.runs ++ scannedRuns runs, sl.drivers := m }

/-- Every scanned frame of the part has been received (R664). -/
def State.framesFull (s : State) : Bool := (s.cfg.runs.map Prod.snd).sum == 350976

/-- A PRELOAD record lies wholly in HBM or wholly in the scratchpad (R57). -/
def preloadOk (a n : Nat) : Bool :=
  decide (a + n ≤ 0x002400000000) || (decide (0x010000000000 ≤ a) && decide (a + n ≤ 0x010006000000))

/-- Bytes of a record, line by line, in plaintext: no key is loaded yet. -/
def State.preloadBytes (s : State) : Nat → Nat → Nat → Nat → State
  | 0, _, _, _ => s
  | f + 1, a, n, v =>
    if n = 0 then s
    else
      let c := min n (64 - a % 64)
      let line (old : MLine) : MLine := { data := mergeBytes old.data (a % 64) c (v % 2 ^ (8 * c)) }
      let s := match daDest a with
        | .hbm x => s.updHline (x / 64) line
        | .spm b o => s.updSline b (o / 64) line
        | _ => s
      State.preloadBytes s f (a + c) (n - c) (v / 2 ^ (8 * c))

/-- Records of a PRELOAD segment are written as they arrive. -/
def State.preloadRecords (s : State) : List (Nat × Nat × Nat) → State × Bool
  | [] => (s, true)
  | (a, n, v) :: l => if preloadOk a n then State.preloadRecords (s.preloadBytes (n / 64 + 2) a n v) l else (s, false)

/-- Scanned frames of the part in ascending address (R672). -/
def allScanned : List Nat := (List.range 4608).flatMap cellFrames

/-- Golden signatures. -/
def State.applyGolden (s : State) (sigs : List Nat) : State :=
  (allScanned.zip sigs).foldl (fun s x => s.updFrm x.1 (fun f => { f with gold := some (x.2 % 2 ^ 32) })) s

/-! ### Segments (R63, R72 to R75, R77, R80, R88) -/

/-- A PCIE segment's allocations (R102, R791). -/
def pcieOk (p : PcieSet) : Bool :=
  decide (p.totalVfs ≤ 256) && p.qps.length == p.totalVfs && p.vecs.length == p.totalVfs && p.qps.all (fun n => decide (1 ≤ n))
    && p.vecs.all (fun n => decide (2 ≤ n)) && decide (p.qps.sum + 1 ≤ 1024) && decide (p.vecs.sum + 2 ≤ 2048)

/-- A PCIE segment takes effect, or waits for PERST_N in a fallback load (R88). -/
def State.takePcie (s : State) (p : PcieSet) : State :=
  let s := if s.cfg.fallback ∧ s.cfg.pcieApplied then { s with pci.deferred := some p }.post E.CFG_PCIE_DEFERRED else s.applyPcie p
  s.put F.CFG_STATUS_PCIE_EARLY 1

/-- Frames and memory data are staged as they arrive, whatever the hash turns out to be (R75): the state, and whether the
PRELOAD records lie where they may. -/
def State.stage1 (s : State) (e : SegEnt) (b : SegBody) : State × Bool :=
  match b with
  | .fabric _ runs _ => (s.writeFrames e.param runs, true)
  | .preload recs => s.preloadRecords recs
  | _ => (s, true)

/-- The content of a verified segment takes effect: the state, or the code of the failure (R73, R75). -/
def State.applySeg (s : State) (e : SegEnt) (b : SegBody) : State × Option Nat :=
  match b with
  | .pcie p => if pcieOk p then (s.takePcie p, none) else (s, some 0x0B)
  | .hub recs =>
    let r := s.hubRecords recs
    (r.1, if r.2 then none else some 0x09)
  | .hbmtrain => ({ s with cfg.hbmStarted := Nat.lor s.cfg.hbmStarted e.param }, none)
  | .policy v =>
    let t : State := { s with cfg.policy := v % 2 ^ 32768 }
    if ¬ t.policyRangesOk then (s, some 0x0B)
    else if ¬ t.sealsOk then (s, some 0x09)
    else ({ t with cfg.policyOk := true }, none)
  | .media en ts ring =>
    if mediaOk (popcount e.param 2) en ts ring then (s.applyMedia e.param en ts ring, none) else (s, some 0x0B)
  | .fabric t runs drv =>
    if ¬ s.fabricOk e.param t runs drv then (s, some 0x09)
    else
      let s := s.applyFabric e.param t runs drv
      (s, if s.cfg.segs.any (fun x => s.stores x && !x.done && x.ty == 5) || s.framesFull then none else some 0x09)
  | .preload _ => (s, none)
  | .golden n z sigs => if n = 350976 ∧ z ∧ sigs.length = n then (s.applyGolden sigs, none) else (s, some 0x09)

/-- Every stored segment has verified and HBM training has ended: the start sequence may run (R80). -/
def State.loadCheck (s : State) : State :=
  if s.cfg.segs.any (fun x => s.stores x && !x.done) ∨ s.cfg.hbmDone ≠ s.cfg.hbmStarted then s
  else if ¬ s.framesFull then s.loadFail 0x09
  else { s.put F.CFG_STATUS_STATE 4 with cfg.ready := true }

/-- A verified segment, entry `i` of the table, takes effect; the load goes on, ends, or fails (R73, R75, R80). -/
def State.segmentTaken (s : State) (e : SegEnt) (i : Nat) (body : SegBody) (off : List Nat) : State :=
  let s : State := { s with
    cfg.segs := s.cfg.segs.modify i (fun x => { x with done := true }), cfg.off := s.cfg.off ++ off }
  match s.applySeg e body with
  | (t, some c) => t.loadFail c
  | (t, none) => t.loadCheck

/-- The last byte of stored segment `e`, entry `i` of the table, has arrived (R72 to R75): its hash first, then its layout (of the
two the spec gives no order: DESIGN CHOICE, log entry 177), then its effect. -/
def State.segmentArrived (s : State) (e : SegEnt) (i bytes : Nat) (x : SegSense) : State :=
  let b := segBody e.ty e.len e.param bytes x
  let r := { s with cfg.pos := e.off + e.len }.stage1 e b.1
  if shaNat e.len bytes ≠ e.hash then r.1.loadFail 0x0A
  else if ¬ b.2 ∨ ¬ r.2 then r.1.loadFail 0x09
  else r.1.segmentTaken e i b.1 x.off

/-- SEGMENT_RECEIVED (R60, R63, R72 to R77, R84, R88, R90, R791, R813): the last byte of the next stored segment, whose first lies
at device offset `x.addr`, arrives; `bytes` are its LENGTH bytes. A PRELOAD segment does not come before the hold of R77 ends. -/
def execSegmentReceived (bytes : Nat) (x : SegSense) (s : State) : Res :=
  .next (s.when true (fun s =>
    let s := s.authenticate
    if ¬ s.loading ∨ ¬ s.cfg.headerOk ∨ s.cfg.ready then s
    else match s.nextSeg with
      | none => s
      | some (e, i) =>
        let held : Bool := e.ty == 6 && !s.cfg.preloadOk && s.cfg.segs.any (fun x => x.ty == 3)
        if x.addr ≠ s.cfg.base + e.off ∨ held then s else s.segmentArrived e i bytes x))

/-- PRELOAD_HOLD_EXPIRES (R77): 30 ms have passed since the last HBMTRAIN segment. -/
def execPreloadHoldExpires (s : State) : Res :=
  .next (s.when (s.loading && s.cfg.headerOk && s.cfg.segs.all (fun x => !(s.stores x && x.ty == 3) || x.done)) (fun s =>
    { s with cfg.preloadOk := true }))

/-- HBM_TRAINING_DONE (R74, R78, R80, R496, R497): a stack's training completes, or fails. -/
def execHbmTrainingDone (stack : Nat) (ok : Bool) (s : State) : Res :=
  .next (s.when (s.loading && s.cfg.headerOk && bit s.cfg.hbmStarted stack && !bit s.cfg.hbmDone stack) (fun s =>
    if ok then { s with cfg.hbmDone := Nat.lor s.cfg.hbmDone (2 ^ stack) }.loadCheck else s.loadFail 0x0C))

/-! ### Start sequence (R39 to R42, R80 to R82, R188, R236, R265, R388, R525, R539, R667) -/

/-- Home groups at start: HOME_GROUPS, or one half by R41. Which half is known only from the partner's die ID at IDENT; until then
it is a free choice (log entry 4). -/
def State.startHome (s : State) : State :=
  match s.polHome with
  | some m => s.putHome m
  | none => (s.putHome (if s.freeBool then 0x5555 else 0xAAAA)).drawn

/-- Fresh sealing keys in KIDs 240 to 242 and in one internal KID for each further sealed region (R539). -/
def State.sealKeys (s : State) : State :=
  let l : List (Nat × Nat) :=
    ([0, 1, 2] ++ (List.range 5).filterMap (fun k => if s.sealSize (k + 3) = 0 then none else some (k + 3))).zipIdx
  l.foldl (fun s x => ((s.loadKey (240 + x.2) s.freeNat 0 true).put F.CRY_SEAL_STAT_KID (240 + x.2) x.1).drawn) s

/-- Hard engines stand in their pools (Table DCK-3). -/
def State.startEngines (s : State) : State :=
  (List.range 96).foldl (fun s e =>
    (s.put F.DCK_ENG_STAT_STATE 1 e).put F.DCK_ENG_STAT_POOL (if e < 64 then 0 else 1 + (e - 64) / 8) e) s

/-- Masters of the scratchpad banks (R34, R525, Table HBM-3 of banks). -/
def State.startBanks (s : State) : State :=
  (List.range 24).foldl (fun s n =>
    let m := if n < 6 then 0 else if n < 18 then 1 + (n - 6) / 2 else 7
    let s := s.put F.SPM_BANK_STAT_MASTER m n
    if n < 18 then s else s.put F.SPM_BANK_STAT_GROUP (s.pol (0x64 + (n - 18)) 1) n) s

/-- Every stand that has rows is RUNNING (R667). -/
def State.startStands (s : State) : State :=
  (List.range 64).foldl (fun s i =>
    s.put F.CFG_ST_STAT_STATE (if s.rd F.CFG_ST_STAT_ROW_LAST i = 0 then 0 else 1) i) s

/-- The part's own tracts as its journal gives them: FROZEN until the map is usable (R236). -/
def State.startTracts (s : State) (l : List TractIn) : State :=
  l.foldl (fun s x =>
    let t := TractIn.tract x false .frozen (TState.ofCode x.st)
    { s with tly.tracts := Map.set {} s.tly.tracts (x.id % 4096) t }.bump F.CRY_KEY_STAT_TRACTS 1 x.kid) s

/-- Steps 1 to 4: polders that the image sets OFF, user flip-flops, user clocks, user I/O; and the landings. -/
def State.startUser (s : State) : State :=
  let s := (s.cfg.off.filter switchable).foldl (fun s p => s.put F.PWR_POL_STAT_STATE 4 p) s
  let s := s.startStands.releaseAll
  let s : State := { s with
    cfg.userOn := true, cfg.clkOn := true, cfg.ioOn := true
    fab.img := (List.range 128).foldl (fun m n => Map.set 0 m n (s.rd F.LDG_CTL_EN n)) s.fab.img
    pwr.image := Map.keep (fun k _ => fieldPolder (2 ^ 20 * (k / 2 ^ 40) + k % 2 ^ 40 / 32 * 4) != 0) s.regs }
  s.startBanks

/-- Step 5: Tally, Deck and media engines; the rebuild of the own map begins (R236). -/
def State.startEngine5 (s : State) (tracts : List TractIn) (hours0 hours1 : Nat) : State :=
  let s := (s.sealKeys.startEngines.put F.TLY_FRAMES s.frameCount).startTracts tracts
  let s := s.put F.TLY_STAT_REBUILD 1
  let s := [0, 1].foldl (fun s d => (((s.put F.MED_STAT_KEEPER 1 d).put F.MED_REL_STAT_RESTORING 1 d).put
    F.MED_REL_STAT_PATROL_FAST 1 d).put F.MED_HOURS (if d = 0 then hours0 else hours1) d) s
  { s with tly.rebuildAt := s.time, dck.winStart := s.time, cru.started := s.time }

/-- Lanes that are enabled leave electrical idle. -/
def State.startLanes (s : State) : State := (List.range 256).foldl State.laneOn s

/-- Step 6: Levee training starts (R82). -/
def State.startLinks (s : State) : State :=
  let s := s.startLanes
  [0, 1].foldl (fun s b => if bit (s.rd F.LVE_CTL_BUNDLE_EN) b then s.bundleStart b false else s) s

/-- Step 7: CFG_DONE rises, and general lanes are as configured (Table BOT-9), with what a host finds of the load (R99). -/
def State.startDone (s : State) (lib : Nat) : State :=
  let us := (s.time - s.cfg.t0) / 1000
  let s := (s.put F.CFG_LOAD_TIME us).put F.CFG_STATUS_STATE 5
  let s := (s.put F.CFG_STATUS_KEY_SLOT s.cfg.keySlot).put64 F.CFG_IMAGE_ID_LO F.CFG_IMAGE_ID_HI s.cfg.buildId
  ({ s with cfg.done := true, sl.lib := lib }.post E.CFG_STARTED us).startLanes

/-- The home groups are claimed (R42, R81, R388). -/
def State.startClaims (s : State) : State :=
  (groupsOf s.homeMask).foldl (fun s g =>
    (if (s.grp g).otherLow then s.setGst g 1 else s).claimOp .part g) s

/-- The start sequence in its order, to CFG_DONE and to the claims of the home groups (R80 to R83, R41, R99, R388). -/
def State.started (s : State) (tracts : List TractIn) (hours0 hours1 lib : Nat) : State :=
  let hasLib := s.cfg.segs.any (fun x => x.ty == 8 && bit x.slots (s.rd F.CFG_STATUS_SLOT))
  let s := (s.startUser.startEngine5 tracts hours0 hours1).startHome.startLinks
  (s.startDone (if hasLib then lib else 0)).startClaims

/-- START_SEQUENCE (R4, R41, R42, R80 to R83, R94, R97, R99, R236, R388, R637, R652, R667, R735): `tracts` are the part's tracts on
flash, `hours` is the highest PTIME found (R364), `lib` the entry count of the LIBRARY segment (R673). -/
def execStartSequence (tracts : List TractIn) (hours0 hours1 lib : Nat) (s : State) : Res :=
  .next (s.when (s.loading && s.cfg.ready) (fun s => s.started tracts hours0 hours1 lib))

end Sys2Proof.Machine
end

