-- ==== Sys2Proof/Machine/Dispatch.lean ====
section
/-! DEFINITION. One arm per command: each is one direct call of that command's meaning. -/

namespace Sys2Proof.Machine
open Host

def exec (i : Instr) (s : State) : Host.Outcome State Fault Refusal :=
  match i with
  | .powerOnReset role slot ref => Sys2Proof.Machine.execPowerOnReset role slot ref s
  | .cfgProgNPulse role slot ref => Sys2Proof.Machine.execCfgProgNPulse role slot ref s
  | .cfgReload req x => Sys2Proof.Machine.execCfgReload req x s
  | .headerReceived img => Sys2Proof.Machine.execHeaderReceived img s
  | .segmentReceived bytes x => Sys2Proof.Machine.execSegmentReceived bytes x s
  | .preloadHoldExpires => Sys2Proof.Machine.execPreloadHoldExpires s
  | .hbmTrainingDone stack ok => Sys2Proof.Machine.execHbmTrainingDone stack ok s
  | .startSequence tracts hours0 hours1 lib => Sys2Proof.Machine.execStartSequence tracts hours0 hours1 lib s
  | .noStreamTimeout => Sys2Proof.Machine.execNoStreamTimeout s
  | .cfgSyncLow => Sys2Proof.Machine.execCfgSyncLow s
  | .primaryStreamEnd => Sys2Proof.Machine.execPrimaryStreamEnd s
  | .fallbackFirstRead => Sys2Proof.Machine.execFallbackFirstRead s
  | .fallbackStreamEnd => Sys2Proof.Machine.execFallbackStreamEnd s
  | .pcieHardBlockReady => Sys2Proof.Machine.execPcieHardBlockReady s
  | .adminQueueEnable fn => Sys2Proof.Machine.execAdminQueueEnable fn s
  | .adminQueueReady fn => Sys2Proof.Machine.execAdminQueueReady fn s
  | .queueDisable fn => Sys2Proof.Machine.execQueueDisable fn s
  | .sqTailDoorbell fn qid value => Sys2Proof.Machine.execSqTailDoorbell fn qid value s
  | .cqHeadDoorbell fn qid value => Sys2Proof.Machine.execCqHeadDoorbell fn qid value s
  | .submissionFetch fn qid entries => Sys2Proof.Machine.execSubmissionFetch fn qid entries s
  | .write key seg => Sys2Proof.Machine.execWrite key seg s
  | .read key seg => Sys2Proof.Machine.execRead key seg s
  | .flush key => Sys2Proof.Machine.execFlush key s
  | .trim key => Sys2Proof.Machine.execTrim key s
  | .writeZeroes key => Sys2Proof.Machine.execWriteZeroes key s
  | .copy key seg => Sys2Proof.Machine.execCopy key seg s
  | .verify key seg => Sys2Proof.Machine.execVerify key seg s
  | .atomicWrite key seg => Sys2Proof.Machine.execAtomicWrite key seg s
  | .ledgerQuery key => Sys2Proof.Machine.execLedgerQuery key s
  | .ledgerRelease key => Sys2Proof.Machine.execLedgerRelease key s
  | .createQp key => Sys2Proof.Machine.execCreateQp key s
  | .deleteQp key => Sys2Proof.Machine.execDeleteQp key s
  | .tractCreate key => Sys2Proof.Machine.execTractCreate key s
  | .tractDelete key => Sys2Proof.Machine.execTractDelete key s
  | .tractStateQuery key => Sys2Proof.Machine.execTractStateQuery key s
  | .tractStateSetReadOnly key => Sys2Proof.Machine.execTractStateSetReadOnly key s
  | .tractStateSetReady key => Sys2Proof.Machine.execTractStateSetReady key s
  | .tractFormatDone t => Sys2Proof.Machine.execTractFormatDone t s
  | .tractDeleteDone t => Sys2Proof.Machine.execTractDeleteDone t s
  | .keyImport key head eph wrapped rest => Sys2Proof.Machine.execKeyImport key head eph wrapped rest s
  | .keyRetire key => Sys2Proof.Machine.execKeyRetire key s
  | .identify key => Sys2Proof.Machine.execIdentify key s
  | .standLoad key => Sys2Proof.Machine.execStandLoad key s
  | .eventFetch key => Sys2Proof.Machine.execEventFetch key s
  | .fellQuery key => Sys2Proof.Machine.execFellQuery key s
  | .abort key => Sys2Proof.Machine.execAbort key s
  | .reseal key => Sys2Proof.Machine.execReseal key s
  | .completionPost key => Sys2Proof.Machine.execCompletionPost key s
  | .coalesceTimerExpires fn qid => Sys2Proof.Machine.execCoalesceTimerExpires fn qid s
  | .deadlineExpires key => Sys2Proof.Machine.execDeadlineExpires key s
  | .mailboxGo => Sys2Proof.Machine.execMailboxGo s
  | .mailboxCommandEnd => Sys2Proof.Machine.execMailboxCommandEnd s
  | .resultAck value => Sys2Proof.Machine.execResultAck value s
  | .translationRequest key seg => Sys2Proof.Machine.execTranslationRequest key seg s
  | .mapPageInstalled mpn frame flash => Sys2Proof.Machine.execMapPageInstalled mpn frame flash s
  | .mapPageWritebackDone mpn place => Sys2Proof.Machine.execMapPageWritebackDone mpn place s
  | .destage => Sys2Proof.Machine.execDestage s
  | .mapUpdate u => Sys2Proof.Machine.execMapUpdate u s
  | .journalPageTimer => Sys2Proof.Machine.execJournalPageTimer s
  | .journalPageProgrammed first => Sys2Proof.Machine.execJournalPageProgrammed first s
  | .tlyCkptGo req value => Sys2Proof.Machine.execTlyCkptGo req value s
  | .checkpointEnd root => Sys2Proof.Machine.execCheckpointEnd root s
  | .rebuildDone r => Sys2Proof.Machine.execRebuildDone r s
  | .tlyProbe iu => Sys2Proof.Machine.execTlyProbe iu s
  | .taskDispatch pool engine => Sys2Proof.Machine.execTaskDispatch pool engine s
  | .preemptionStart pool => Sys2Proof.Machine.execPreemptionStart pool s
  | .skidderPark engine => Sys2Proof.Machine.execSkidderPark engine s
  | .spillwayRefill lost => Sys2Proof.Machine.execSpillwayRefill lost s
  | .taskTimeout task => Sys2Proof.Machine.execTaskTimeout task s
  | .retryBackoffExpires r => Sys2Proof.Machine.execRetryBackoffExpires r s
  | .poolLoadWindow => Sys2Proof.Machine.execPoolLoadWindow s
  | .ldPreemptAnswerTimeout engine => Sys2Proof.Machine.execLdPreemptAnswerTimeout engine s
  | .register landing pool preemptable => Sys2Proof.Machine.execRegister landing pool preemptable s
  | .deregister landing engine => Sys2Proof.Machine.execDeregister landing engine s
  | .create landing token kind pool prio noPreempt aff deadline payload => Sys2Proof.Machine.execCreate landing token kind pool prio noPreempt aff deadline payload s
  | .done engine status blocks => Sys2Proof.Machine.execDone engine status blocks s
  | .yield engine ctx => Sys2Proof.Machine.execYield engine ctx s
  | .decline engine => Sys2Proof.Machine.execDecline engine s
  | .landingMsgUnknown landing code => Sys2Proof.Machine.execLandingMsgUnknown landing code s
  | .claim req g => Sys2Proof.Machine.execClaim req g s
  | .release req g => Sys2Proof.Machine.execRelease req g s
  | .mgOwnWireLow g fall => Sys2Proof.Machine.execMgOwnWireLow g fall s
  | .mgOwnWireHigh g => Sys2Proof.Machine.execMgOwnWireHigh g s
  | .mgOwnQuietTimer g => Sys2Proof.Machine.execMgOwnQuietTimer g s
  | .arbitrationSlot g low => Sys2Proof.Machine.execArbitrationSlot g low s
  | .arbitrationComplete g => Sys2Proof.Machine.execArbitrationComplete g s
  | .driverEnableDelay g => Sys2Proof.Machine.execDriverEnableDelay g s
  | .forceWaitExpires g => Sys2Proof.Machine.execForceWaitExpires g s
  | .groupBringupDone g b => Sys2Proof.Machine.execGroupBringupDone g b s
  | .ownWireFault g => Sys2Proof.Machine.execOwnWireFault g s
  | .groupDrainEnd g => Sys2Proof.Machine.execGroupDrainEnd g s
  | .groupDrainTimeout g => Sys2Proof.Machine.execGroupDrainTimeout g s
  | .wireReleaseDelay g => Sys2Proof.Machine.execWireReleaseDelay g s
  | .keeperTrip die => Sys2Proof.Machine.execKeeperTrip die s
  | .channelRetrain ch auto ok => Sys2Proof.Machine.execChannelRetrain ch auto ok s
  | .zqShortTimer die => Sys2Proof.Machine.execZqShortTimer die s
  | .lunIssue ch u planes raw => Sys2Proof.Machine.execLunIssue ch u planes raw s
  | .suspend ch u => Sys2Proof.Machine.execSuspend ch u s
  | .operationResume ch u => Sys2Proof.Machine.execOperationResume ch u s
  | .lunStatusReady ch u fail suspended raw => Sys2Proof.Machine.execLunStatusReady ch u fail suspended raw s
  | .lunTimeout ch u => Sys2Proof.Machine.execLunTimeout ch u s
  | .busTransferDone id step e => Sys2Proof.Machine.execBusTransferDone id step e s
  | .hardDecodeDone id step res => Sys2Proof.Machine.execHardDecodeDone id step res s
  | .softDecodeDone id res => Sys2Proof.Machine.execSoftDecodeDone id res s
  | .patrolVisit stripe passEnd => Sys2Proof.Machine.execPatrolVisit stripe passEnd s
  | .pageRowPadTimer stripe => Sys2Proof.Machine.execPageRowPadTimer stripe s
  | .rawStatus landing port die txn d r => Sys2Proof.Machine.execRawStatus landing port die txn d r s
  | .rawReadLike landing port die txn d => Sys2Proof.Machine.execRawReadLike landing port die txn d s
  | .rawProgramLike landing port die txn d => Sys2Proof.Machine.execRawProgramLike landing port die txn d s
  | .rawEraseLike landing port die txn d => Sys2Proof.Machine.execRawEraseLike landing port die txn d s
  | .rawFeature landing port die txn d => Sys2Proof.Machine.execRawFeature landing port die txn d s
  | .rawResetLun landing port die txn d => Sys2Proof.Machine.execRawResetLun landing port die txn d s
  | .rawLend landing port die txn d => Sys2Proof.Machine.execRawLend landing port die txn d s
  | .rawReturn landing port die txn d => Sys2Proof.Machine.execRawReturn landing port die txn d s
  | .medHoursWrite req die value => Sys2Proof.Machine.execMedHoursWrite req die value s
  | .medHoursTick die => Sys2Proof.Machine.execMedHoursTick die s
  | .refugeSave => Sys2Proof.Machine.execRefugeSave s
  | .trainingTimeout => Sys2Proof.Machine.execTrainingTimeout s
  | .bundleEnableWrite req value => Sys2Proof.Machine.execBundleEnableWrite req value s
  | .bundleDetectTimeout b => Sys2Proof.Machine.execBundleDetectTimeout b s
  | .bundleEqualiseEnd b atLimit => Sys2Proof.Machine.execBundleEqualiseEnd b atLimit s
  | .bundleAlignDone b rev found => Sys2Proof.Machine.execBundleAlignDone b rev found s
  | .ident b x => Sys2Proof.Machine.execIdent b x s
  | .cert b c => Sys2Proof.Machine.execCert b c s
  | .share b p => Sys2Proof.Machine.execShare b p s
  | .finish b r sg time => Sys2Proof.Machine.execFinish b r sg time s
  | .keyTimeout b => Sys2Proof.Machine.execKeyTimeout b s
  | .bundleRetrain req b => Sys2Proof.Machine.execBundleRetrain req b s
  | .bundleRetrainDone b rev => Sys2Proof.Machine.execBundleRetrainDone b rev s
  | .bundleRetrainTimeout b => Sys2Proof.Machine.execBundleRetrainTimeout b s
  | .flitReceive b f => Sys2Proof.Machine.execFlitReceive b f s
  | .replayTimer b => Sys2Proof.Machine.execReplayTimer b s
  | .nakRepeatTimer b => Sys2Proof.Machine.execNakRepeatTimer b s
  | .mirrorWrite bseq tract kid iu at_ data resync ownHalf => Sys2Proof.Machine.execMirrorWrite bseq tract kid iu at_ data resync ownHalf s
  | .mirrorAck bseqs => Sys2Proof.Machine.execMirrorAck bseqs s
  | .journal seq recs resync => Sys2Proof.Machine.execJournal seq recs resync s
  | .journalAck seq => Sys2Proof.Machine.execJournalAck seq s
  | .lineRelease bseqs => Sys2Proof.Machine.execLineRelease bseqs s
  | .releaseAck bseqs => Sys2Proof.Machine.execReleaseAck bseqs s
  | .heartbeat time pair groups pfailLow limit dirty => Sys2Proof.Machine.execHeartbeat time pair groups pfailLow limit dirty s
  | .leaving reason => Sys2Proof.Machine.execLeaving reason s
  | .pfail => Sys2Proof.Machine.execPfail s
  | .resyncDone bseq seq => Sys2Proof.Machine.execResyncDone bseq seq s
  | .handbackReq groups => Sys2Proof.Machine.execHandbackReq groups s
  | .handbackGrant groups => Sys2Proof.Machine.execHandbackGrant groups s
  | .healReq bseq => Sys2Proof.Machine.execHealReq bseq s
  | .healData bseq data => Sys2Proof.Machine.execHealData bseq data s
  | .unknownMessage => Sys2Proof.Machine.execUnknownMessage s
  | .heartbeatSend => Sys2Proof.Machine.execHeartbeatSend s
  | .partnerAliveEdge => Sys2Proof.Machine.execPartnerAliveEdge s
  | .wireSilent => Sys2Proof.Machine.execWireSilent s
  | .linkSilent => Sys2Proof.Machine.execLinkSilent s
  | .deathDeclared => Sys2Proof.Machine.execDeathDeclared s
  | .orphanTimeout => Sys2Proof.Machine.execOrphanTimeout s
  | .takeoverWithdraw => Sys2Proof.Machine.execTakeoverWithdraw s
  | .foreignMapUsable r => Sys2Proof.Machine.execForeignMapUsable r s
  | .foreignReplayDone => Sys2Proof.Machine.execForeignReplayDone s
  | .probeDue b => Sys2Proof.Machine.execProbeDue b s
  | .handbackStart req value => Sys2Proof.Machine.execHandbackStart req value s
  | .handbackDestageDone => Sys2Proof.Machine.execHandbackDestageDone s
  | .pfailNFall => Sys2Proof.Machine.execPfailNFall s
  | .pfailDetected => Sys2Proof.Machine.execPfailDetected s
  | .pfailAckTimeout => Sys2Proof.Machine.execPfailAckTimeout s
  | .pfailNRise => Sys2Proof.Machine.execPfailNRise s
  | .healTimeout bseq => Sys2Proof.Machine.execHealTimeout bseq s
  | .linkKeyUpdate b => Sys2Proof.Machine.execLinkKeyUpdate b s
  | .evtAck req value => Sys2Proof.Machine.execEvtAck req value s
  | .evtTagSel req value => Sys2Proof.Machine.execEvtTagSel req value s
  | .evtRateWindowEnd code => Sys2Proof.Machine.execEvtRateWindowEnd code s
  | .evtSignalTimer => Sys2Proof.Machine.execEvtSignalTimer s
  | .hbmRefreshInterval pc done window => Sys2Proof.Machine.execHbmRefreshInterval pc done window s
  | .hbmTempRead stack degc => Sys2Proof.Machine.execHbmTempRead stack degc s
  | .hbmWriteEyeRetrain ch ok => Sys2Proof.Machine.execHbmWriteEyeRetrain ch ok s
  | .hbmRequestUrgent port => Sys2Proof.Machine.execHbmRequestUrgent port s
  | .selfRefreshEntry ch => Sys2Proof.Machine.execSelfRefreshEntry ch s
  | .evacuationDone mib ues => Sys2Proof.Machine.execEvacuationDone mib ues s
  | .sweepStep bank read fails => Sys2Proof.Machine.execSweepStep bank read fails s
  | .fabSweepStep stand mem word read fails => Sys2Proof.Machine.execFabSweepStep stand mem word read fails s
  | .rekeyGo req value => Sys2Proof.Machine.execRekeyGo req value s
  | .rekeySweepStep flips owner => Sys2Proof.Machine.execRekeySweepStep flips owner s
  | .resealGo req value => Sys2Proof.Machine.execResealGo req value s
  | .autoReseal r level idx owners => Sys2Proof.Machine.execAutoReseal r level idx owners s
  | .keyCmdImport req kid head eph wrapped rest => Sys2Proof.Machine.execKeyCmdImport req kid head eph wrapped rest s
  | .keyCmdRetire req kid => Sys2Proof.Machine.execKeyCmdRetire req kid s
  | .skidwayRequestSend who q => Sys2Proof.Machine.execSkidwayRequestSend who q s
  | .skidwayRequestArrive key ms => Sys2Proof.Machine.execSkidwayRequestArrive key ms s
  | .skidwayCompletion key => Sys2Proof.Machine.execSkidwayCompletion key s
  | .routerAbsorb key router port resp => Sys2Proof.Machine.execRouterAbsorb key router port resp s
  | .requestTimeout key => Sys2Proof.Machine.execRequestTimeout key s
  | .targetTimeout key => Sys2Proof.Machine.execTargetTimeout key s
  | .isolationProbe ni answered => Sys2Proof.Machine.execIsolationProbe ni answered s
  | .nocReconfigClose req value => Sys2Proof.Machine.execNocReconfigClose req value s
  | .nocReconfigOpen req value => Sys2Proof.Machine.execNocReconfigOpen req value s
  | .nocRtrClose value => Sys2Proof.Machine.execNocRtrClose value s
  | .fenceOpen ni => Sys2Proof.Machine.execFenceOpen ni s
  | .spineContention die line a b => Sys2Proof.Machine.execSpineContention die line a b s
  | .landingMreq landing q => Sys2Proof.Machine.execLandingMreq landing q s
  | .landingTrsp landing key status data => Sys2Proof.Machine.execLandingTrsp landing key status data s
  | .landingDisable landing => Sys2Proof.Machine.execLandingDisable landing s
  | .readbackGo req value => Sys2Proof.Machine.execReadbackGo req value s
  | .readbackCaptureTimeout => Sys2Proof.Machine.execReadbackCaptureTimeout s
  | .readbackDone stands => Sys2Proof.Machine.execReadbackDone stands s
  | .readbackResume => Sys2Proof.Machine.execReadbackResume s
  | .cfgSlCmd req value => Sys2Proof.Machine.execCfgSlCmd req value s
  | .standLoadStart img => Sys2Proof.Machine.execStandLoadStart img s
  | .standDrainEnd wires => Sys2Proof.Machine.execStandDrainEnd wires s
  | .runRecord addr count frames err => Sys2Proof.Machine.execRunRecord addr count frames err s
  | .cruiserScanStep upset poison nvm => Sys2Proof.Machine.execCruiserScanStep upset poison nvm s
  | .cruiserRepairDone nvm stuck => Sys2Proof.Machine.execCruiserRepairDone nvm stuck s
  | .cruInj req value => Sys2Proof.Machine.execCruInj req value s
  | .refWindowEnd localOk recovered => Sys2Proof.Machine.execRefWindowEnd localOk recovered s
  | .referenceGap => Sys2Proof.Machine.execReferenceGap s
  | .pllUnlock => Sys2Proof.Machine.execPllUnlock s
  | .polderDown req p => Sys2Proof.Machine.execPolderDown req p s
  | .polderUp req p => Sys2Proof.Machine.execPolderUp req p s
  | .polderReset req p => Sys2Proof.Machine.execPolderReset req p s
  | .polderCloseTimeout p => Sys2Proof.Machine.execPolderCloseTimeout p s
  | .polderDrainEnd p => Sys2Proof.Machine.execPolderDrainEnd p s
  | .polderDrainTimeout p => Sys2Proof.Machine.execPolderDrainTimeout p s
  | .polderIsolateDone p => Sys2Proof.Machine.execPolderIsolateDone p s
  | .polderPowerupDone p => Sys2Proof.Machine.execPolderPowerupDone p s
  | .polderResetDone p => Sys2Proof.Machine.execPolderResetDone p s
  | .stateRun req => Sys2Proof.Machine.execStateRun req s
  | .stateSleep req => Sys2Proof.Machine.execStateSleep req s
  | .stateDeep req => Sys2Proof.Machine.execStateDeep req s
  | .systemWake source => Sys2Proof.Machine.execSystemWake source s
  | .crossingReopen x inst => Sys2Proof.Machine.execCrossingReopen x inst s
  | .epochRatchet req value => Sys2Proof.Machine.execEpochRatchet req value s
  | .epochBroadcastArrive u => Sys2Proof.Machine.execEpochBroadcastArrive u s
  | .laneDetectPoll lane seen => Sys2Proof.Machine.execLaneDetectPoll lane seen s
  | .laneSignalPresent lane => Sys2Proof.Machine.execLaneSignalPresent lane s
  | .laneAcquired lane => Sys2Proof.Machine.execLaneAcquired lane s
  | .laneTrainingFrame lane control status ready => Sys2Proof.Machine.execLaneTrainingFrame lane control status ready s
  | .laneAttemptTimeout lane => Sys2Proof.Machine.execLaneAttemptTimeout lane s
  | .laneSignalAbsent lane => Sys2Proof.Machine.execLaneSignalAbsent lane s
  | .laneLockLost lane => Sys2Proof.Machine.execLaneLockLost lane s
  | .laneSignalLoss lane => Sys2Proof.Machine.execLaneSignalLoss lane s
  | .laneSignalReturn lane => Sys2Proof.Machine.execLaneSignalReturn lane s
  | .laneReadaptDone lane => Sys2Proof.Machine.execLaneReadaptDone lane s
  | .adaptWindow lane w => Sys2Proof.Machine.execAdaptWindow lane w s
  | .laneRetrain lane => Sys2Proof.Machine.execLaneRetrain lane s
  | .quadRefclkChange quad present => Sys2Proof.Machine.execQuadRefclkChange quad present s
  | .prbsInject lane => Sys2Proof.Machine.execPrbsInject lane s
  | .prbsPeriodicInject lane => Sys2Proof.Machine.execPrbsPeriodicInject lane s
  | .perstNAssert => Sys2Proof.Machine.execPerstNAssert s
  | .perstNRise => Sys2Proof.Machine.execPerstNRise s
  | .linkDown hot => Sys2Proof.Machine.execLinkDown hot s
  | .flr fn => Sys2Proof.Machine.execFlr fn s
  | .flrDone fn us => Sys2Proof.Machine.execFlrDone fn us s
  | .l0pHostRequest width => Sys2Proof.Machine.execL0pHostRequest width s
  | .l0pNarrow => Sys2Proof.Machine.execL0pNarrow s
  | .l0pWiden => Sys2Proof.Machine.execL0pWiden s
  | .hostBarAccess fn bar off write dws => Sys2Proof.Machine.execHostBarAccess fn bar off write dws s
  | .hostReadCompletion t d => Sys2Proof.Machine.execHostReadCompletion t d s
  | .hostCompletionTimeout t => Sys2Proof.Machine.execHostCompletionTimeout t s
  | .msixUnmask fn vec => Sys2Proof.Machine.execMsixUnmask fn vec s
  | .pcieRetrain req value => Sys2Proof.Machine.execPcieRetrain req value s
  | .registerWrite req off value => Sys2Proof.Machine.execRegisterWrite req off value s
  | .bitAliasWrite req blk reg b value => Sys2Proof.Machine.execBitAliasWrite req blk reg b value s
  | .pairLoRead req off => Sys2Proof.Machine.execPairLoRead req off s
  | .evtPeek req value => Sys2Proof.Machine.execEvtPeek req value s
  | .railFault => Sys2Proof.Machine.execRailFault s
  | .thermalRead die degc => Sys2Proof.Machine.execThermalRead die degc s
  | .testInstructionLoad x => Sys2Proof.Machine.execTestInstructionLoad x s
  | .testLogicReset role slot ref => Sys2Proof.Machine.execTestLogicReset role slot ref s
  | .partnerTerminationLost lane => Sys2Proof.Machine.execPartnerTerminationLost lane s
  | .bundleLaneSignal b lanes => Sys2Proof.Machine.execBundleLaneSignal b lanes s
  | .probeGivesUp b => Sys2Proof.Machine.execProbeGivesUp b s
  | .partnerAliveOutToggle => Sys2Proof.Machine.execPartnerAliveOutToggle s
  | .nandTemperatureRead ch vol degc => Sys2Proof.Machine.execNandTemperatureRead ch vol degc s
  | .idlePatternEnd lane => Sys2Proof.Machine.execIdlePatternEnd lane s
  | .fetchResume => Sys2Proof.Machine.execFetchResume s
  | .pcieLinkUp speed width m => Sys2Proof.Machine.execPcieLinkUp speed width m s
  | .configurationRequest fn r => Sys2Proof.Machine.execConfigurationRequest fn r s
  | .blockLock quad lanes am => Sys2Proof.Machine.execBlockLock quad lanes am s
  | .hiBer quad rises corr uncorr sym under => Sys2Proof.Machine.execHiBer quad rises corr uncorr sym under s
  | .prbsCheckerLock lane lock errs units => Sys2Proof.Machine.execPrbsCheckerLock lane lock errs units s
  | .userPortRead die mem word e => Sys2Proof.Machine.execUserPortRead die mem word e s
  | .coefficientInputWrite lane value => Sys2Proof.Machine.execCoefficientInputWrite lane value s

end Sys2Proof.Machine
end

