-- ==== Sys2Proof/Machine/MapWork.lean ====
section
/-! DEFINITION. What the Tally does by itself between commands: media reads of faults, writebacks, journal pages, the pages of a
checkpoint, and the stripes it keeps open (R194, R198, R214, R225, R230, R885). It happens at a tick (log entry 193). -/

namespace Sys2Proof.Machine
open Sys2Proof

/-- The media read of a load is issued once it has its frame (R193, R198), at the priority of the fault. -/
def State.askLoad (s : State) (page : Nat) : State :=
  match s.load page with
  | none => s
  | some l =>
    if l.asked then s
    else
      let r : State × Bool := match Map.get none s.tly.frames page with
        | some _ => (s, true)
        | none =>
          let r := s.takeFrame
          (if r.2 then r.1.addFrame page { idx := r.1.frameIdx, flash := (s.dirOf page).flash, loading := true } else r.1, r.2)
      match Map.get none r.1.tly.frames page with
      | some f => (r.1.updLoad page (fun l => { l with asked := true, got := [] })).askSectors (.page page) l.prio 0 0
          (s.pageSectors f.flash)
      | none => r.1

/-- The media reads that are due. -/
def State.askLoads (s : State) : State := (s.tly.loads.map Prod.fst).foldl State.askLoad s

/-- A writeback gets its place in the open map stripe of a media die, of its own half (R194, R240, R885). -/
def State.placeWb (s : State) (page : Nat) : State :=
  match Map.get none s.tly.frames page with
  | none => s
  | some f =>
    if ¬ f.wb ∨ f.wbPlace.isSome then s
    else match s.placeMap (decide (2 ^ 26 ≤ page)) (page % 2) 4 (s.iprio 0x10) with
    | some (s, a) => s.updFrame page (fun f => { f with wbPlace := some a })
    | none => s

/-- A closed journal page gets its place in a journal stripe, whose row is programmed at once (R225). -/
def State.placeJPage (s : State) (p : JPage) : State :=
  if p.place.isSome then s
  else match s.placeFirst 3 4 (s.iprio 0x10) (fun _ => 34) (s.mapGroups false) with
  | some (s, a) =>
    { s with tly.jPages := s.tly.jPages.map (fun (x : JPage) => if x.first = p.first then { x with place := some a } else x) }.padFor a 4
      (s.iprio 0x10)
  | none => s

/-- A changed directory page of the running checkpoint is written (R230, step 3). -/
def State.placeDir (s : State) (d : Nat) : State :=
  match s.placeMap (decide (2 ^ 15 ≤ d)) (d % 2) 4 (s.iprio 0x10) with
  | none => s
  | some (s, a) =>
    let old := Map.get 0 s.tly.root d
    let s : State := { s with
      tly.root := Map.set 0 s.tly.root d a
      tly.ckDirs := s.tly.ckDirs.filter (· ≠ d)
      tly.ckPlaces := s.tly.ckPlaces ++ [(a, 4)] }
    if old = 0 then s else s.lowerValid old 4

/-- The checkpoint root is written: 512 KiB in 32 consecutive map-block pages (R230, step 4). -/
def State.placeRoot (s : State) : State :=
  let h := b2n s.tly.ckForeign
  match s.placeMap s.tly.ckForeign 0 128 (s.iprio 0x10) with
  | none => s
  | some (s, a) =>
    let old := s.tly.rootAt.getD h 0
    let s : State := { s with
      tly.rootAt := s.tly.rootAt.set h a, tly.ckRooted := true, tly.ckPlaces := s.tly.ckPlaces ++ [(a, 128)] }
    if old = 0 then s else s.lowerValid old 128

/-- The running checkpoint goes on: once its map pages are written the changed directory pages of its half follow, and after them
the root (R230, R885). -/
def State.ckptStep (s : State) : State :=
  if ¬ s.on F.TLY_STAT_CKPT_ACTIVE ∨ s.tly.ckPages ≠ [] ∨ s.tly.ckRooted ∨ s.tly.ckAnchor.isSome then s
  else
    let mine (d : Nat) : Bool := decide (2 ^ 15 ≤ d) == s.tly.ckForeign
    let s := (s.tly.ckDirs.filter mine).foldl State.placeDir s
    if s.tly.ckDirs.any mine then s else s.placeRoot

/-- A slot that has no open stripe gets one of the first group of a list that has a free one. -/
def State.keepSlot (s : State) (slot cls : Nat) : List Nat → State
  | [] => s
  | g :: gs =>
    if (Map.get none s.med.opened slot).isSome then s
    else State.keepSlot (s.openStripe g cls slot (decide (2 ≤ cls))) slot cls gs

/-- One open host stripe and one open relocation stripe in each owned group, and one open map stripe on each media die
(R214). -/
def State.keepOpen (s : State) : State :=
  let own := (List.range 16).filter (fun g => s.stripeOwned g && s.stripeHome g == g)
  let s := own.foldl (fun s g => (s.keepSlot (2 * g) 0 [g]).keepSlot (2 * g + 1) 1 [g]) s
  let gs := s.mapGroups false
  [0, 1].foldl (fun s d => s.keepSlot (32 + d) 2 (gs.filter (fun g => g / 8 == d))) s

/-- The Tally's own work at a tick; it writes its series only once its map is usable (R884). -/
def State.mapWork (s : State) : State :=
  if ¬ s.tly.usable then s
  else
    let s := s.keepOpen.askLoads
    let s := (s.tly.frames.map Prod.fst).foldl State.placeWb s
    let s := s.tly.jPages.foldl State.placeJPage s
    s.ckptStep.ckptOver.ckptCheck

end Sys2Proof.Machine
end

