-- ==== Sys2Proof/Machine/Tick.lean ====
section
/-! DEFINITION. What time alone does: the time base and the counters of time (R834, Table QQP-10). A step on an empty queue is one
count of the time base (log entry 1). -/

namespace Sys2Proof.Machine
open Sys2Proof

/-- QQP_STALL_US of every function counts a µs during which the fetcher is stopped. -/
def State.stallTick (s : State) : State :=
  if s.cfg.done then
    ((List.range 257).filter (fun fn => s.fnExists fn && s.fetchStop fn != 0)).foldl (fun s fn => s.bump F.QQP_STALL_US 1 fn) s
  else s

/-- The elastic buffer of the PCIe receiver (R789): clocks further apart than the clocking mode absorbs make it overflow or underflow
at times that are free; the receiver error is logged in the PF, and the damaged TLP is replayed (R805). -/
def State.elastic (s : State) : State :=
  if s.rd F.PCI_STAT_LTSSM = 0x13 ∧ (if s.rd F.PCI_STAT_CLOCKING = 2 then 5600 else 600) < s.pci.ppm then
    if s.freeBool then
      { (s.drawn.bump F.PCI_EB_SLIPS).bump F.PCI_RX_ERRS with pci.corr := setBits s.pci.corr 0 1 1 }.bump F.PCI_REPLAYS
    else s.drawn
  else s

/-- One count of the 64-bit time base, 1 ns; a part whose clocks stand does not count. User logic runs on its clocks, a header's
authentication ends (log entry 188), and the Tally does what is due (log entry 193). The test access port samples the MG_OWN
wires in any case. -/
def State.tick (s : State) : State :=
  let s : State := s.tapSample
  if s.dark then s
  else
    let s : State := s.fabricNs
    let s : State := { s with time := (s.time + 1) % 2 ^ 64 }.authenticate.mapWork.elastic
    if s.time % 1000 = 0 then s.stallTick else s

end Sys2Proof.Machine
end

