-- ==== Sys2Proof/Machine/Parts.lean ====
section
/-! DEFINITION. Names for the parts of State, so that a statement can say which of them a command leaves as they are. -/

namespace Sys2Proof.Machine

/-- The parts of State that a command may change. The registers of each block are one part; the queue and the fuses are
none, since no command changes them. -/
inductive Part where
  /-- The registers of the block with this number (R810). -/
  | regs (blk : Nat)
  | shadow | stage | time | fresh | out | evt | gens | qqp | tly | dck | pci | cfg | lve | med | hbm | spm | cry | noc
  | fab | pwr | sl | cru | lanes | clk | tap
  deriving DecidableEq, Repr

/-- The registers of a block. -/
def State.regsOf (s : State) (b : Nat) : Map Nat := Map.keep (fun k _ => k / 2 ^ 40 == b) s.regs

/-- A part is the same in two states. -/
def Part.same (s t : State) : Part → Prop
  | .regs b => t.regsOf b = s.regsOf b
  | .shadow => t.shadow = s.shadow
  | .stage => t.stage = s.stage
  | .time => t.time = s.time
  | .fresh => t.fresh = s.fresh
  | .out => t.out = s.out
  | .evt => t.evt = s.evt
  | .gens => t.gens = s.gens
  | .qqp => t.qqp = s.qqp
  | .tly => t.tly = s.tly
  | .dck => t.dck = s.dck
  | .pci => t.pci = s.pci
  | .cfg => t.cfg = s.cfg
  | .lve => t.lve = s.lve
  | .med => t.med = s.med
  | .hbm => t.hbm = s.hbm
  | .spm => t.spm = s.spm
  | .cry => t.cry = s.cry
  | .noc => t.noc = s.noc
  | .fab => t.fab = s.fab
  | .pwr => t.pwr = s.pwr
  | .sl => t.sl = s.sl
  | .cru => t.cru = s.cru
  | .lanes => t.lanes = s.lanes
  | .clk => t.clk = s.clk
  | .tap => t.tap = s.tap

/-- From `s` to `t` at most the listed parts change: every other part, the queue and the fuses are as they were. -/
structure Touches (l : List Part) (s t : State) : Prop where
  pending : t.pending = s.pending
  fuses : t.fuses = s.fuses
  same : ∀ p, p ∉ l → p.same s t

end Sys2Proof.Machine
end

