-- ==== Sys2Proof/Safety.lean ====
section
/-! DEFINITION. What counts as a safe run, in the words the statements use: a part that runs and whose tables are in their
canonical form, a command that completes, and a step that answers a next state. -/

namespace Sys2Proof.Machine
open Sys2Proof

/-- The part runs (its clocks run, no reset or test instruction holds it), and what it keeps by address is in canonical form,
as after reset and after every step. -/
structure Live (s : State) : Prop where
  runs : s.dark = false
  wf : Memory.wf s = true

/-- What every step keeps: register words and memory lines in canonical form, and a time base within its 64 bits (R834). -/
structure InForm (s : State) : Prop where
  wf : Memory.wf s = true
  base : s.time < 2 ^ 64

/-- The command answers a next state, and `P` holds of it. -/
def Completes (c : Instr) (s : State) (P : State → Prop) : Prop := ∃ t, exec c s = .next t ∧ P t

/-- The step is safe: it answers a next state, neither a fault nor a refusal. -/
def State.safe (s : State) : Prop := ∃ t, step s = .next t

/-- A requester's write of the register at `off` is performed: its permission on the block is read-write, and the register's
clock runs. -/
def State.mayWrite (s : State) (req : Req) (off : Nat) : Prop :=
  s.permits req (off / 0x100000) true = true ∧ s.answers off = true

/-- The command at key `k` has opcode `op`, has passed its checks and may take its next step: it has not ended, no tract it
uses is FROZEN or has held it, and its admission epoch is not stale. -/
structure Runs (s : State) (k op : Nat) (c : Cmd) : Prop where
  cmd : s.cmd k = some c
  host : c.internal = false
  going : c.ended = false
  open_ : c.completed = false
  opcode : sqOp c.sqe = op
  thawed : s.ioFrozen c = false
  unheld : c.frozen = false
  fresh : s.epochStale c = false
  checked : c.checked = true

end Sys2Proof.Machine
end

