-- ==== Sys2Proof/Certificates/Slice0/Obligations.lean ====
section
/-! DEFINITION. The statements for the provers. Those about single commands give the state a command answers with under
hypotheses on the state and the operands alone; the frames give what each command leaves as it was. -/

open Sys2Proof Sys2Proof.Machine

/-- EVT_ACK, EVT_TAG_SEL, the end of a code's 1 ms window and the end of the 10 µs after a signal (R469, R476, R478, R481). -/
def Obligations.EventLedgerCommands : Prop := ∀ s : State, Live s →
  -- R481: a write from EVT_ACK up to EVT_SEQ moves EVT_ACK; any other is discarded
  (∀ req v, s.mayWrite req (F.EVT_ACK.off 0 0) → v < 2 ^ 32 → v ≠ 0 → seqAtOrAfter v (s.rd F.EVT_ACK) = true →
    seqAtOrAfter (s.rd F.EVT_SEQ) v = true →
    Completes (.evtAck req v) s (fun t => t.rd F.EVT_ACK = v ∧ Touches [.regs 17] s t)) ∧
  (∀ req v, s.mayWrite req (F.EVT_ACK.off 0 0) → v < 2 ^ 32 → (seqAtOrAfter v (s.rd F.EVT_ACK) && seqAtOrAfter (s.rd F.EVT_SEQ) v) = false →
    exec (.evtAck req v) s = .next s) ∧
  -- R469: the entry of the tag stands in the sixteen data words
  (∀ req v, s.mayWrite req (F.EVT_TAG_SEL.off 0 0) → v < 2 ^ 16 →
    Completes (.evtTagSel req v) s (fun t => t.rd F.EVT_TAG_SEL = v ∧
      (∀ i < 16, t.rd F.EVT_TAG_DATA i = s.ledgerEntry v / 2 ^ (32 * i) % 2 ^ 32) ∧ Touches [.regs 17] s t)) ∧
  -- R476: the window of the code ends; what it suppressed is written, with the code and the count
  (∀ code, (Map.get {} s.evt.wins code).limit ≠ 0 →
    Completes (.evtRateWindowEnd code) s (fun t =>
      t.evt.wins = Map.erase s.evt.wins code ∧
      ((Map.get {} s.evt.wins code).suppressed ≠ 0 → t.evt.ring = Map.set {} s.evt.ring (s.rd F.EVT_HEAD)
        (s.evtRec 17 E.EVT_SUPPRESSED code none (Map.get {} s.evt.wins code).suppressed)) ∧
      Touches [.regs 17, .evt, .out, .pci] s t)) ∧
  -- R478: a record that waited is signalled, and no signal follows it for another 10 µs
  (s.evt.sigBusy = true →
    Completes .evtSignalTimer s (fun t => t.evt.sigPend = false ∧ t.evt.sigBusy = s.evt.sigPend ∧
      (s.evt.sigPend = false → t.out = s.out) ∧ Touches [.evt, .out, .pci] s t))

/-- The steps of the commands that move data (R22, R23, R139, R140, R143, R196): each hypothesis names a step whose data is
there; the conclusion gives what the step moves. -/
def Obligations.DataCommandSteps : Prop := ∀ s : State, Live s → ∀ (k i w : Nat) (c : Cmd) (g : Seg),
  s.segRunning k i = some w → c.segs[i]? = some g → g.ended = false →
  -- TRANSLATION_REQUEST: the pins of the segment grow by the next IU
  (∀ op t, Runs s k op c → op = 0x02 ∨ op = 0x06 ∨ op = 0x07 → s.srcTract c = some t →
    g.pin.length ≤ 2 * (s.tract t).perIu → g.done + g.pin.length < g.len → sqAtomic c.sqe = false →
    (op = 0x02 → c.noted = true) →
    ∀ r p l, s.translate (op == 0x02) t (sqLba c.sqe + (g.first + g.done + g.pin.length)) w c.prio = (r, some (p, l)) →
    exec (.translationRequest k i) s = .next (r.updCmd k (fun c => c.updSeg i (fun x =>
      { x with pin := x.pin ++ l.take (g.len - g.done - g.pin.length), pinPages := (x.pinPages ++ [p]).eraseDups })))) ∧
  -- READ: the next blocks, decrypted, go to host memory, and the segment moves on
  (∀ t n v, Runs s k 0x02 c → s.srcTract c = some t → c.noted = true → g.pin ≠ [] → sqSgl c.sqe = false → c.cut = false →
    s.tlpOk c.fn = true →
    let blkB := (s.tract t).blkBytes
    let lba := sqLba c.sqe + g.first + g.done
    let srcs := g.pin.take (chunkLen blkB lba (min g.pin.length (g.len - g.done)))
    missing c.media srcs = [] →
    leadData blkB (s.plain t lba (((srcs.zipIdx.map (fun x =>
      blockOf c.media blkB ((lba + x.2) % max 1 (s.tract t).perIu) x.1)).filterMap id).zip srcs)) = (n, v, none) →
    n ≠ 0 → g.done + n < g.len →
    Completes (.read k i) s (fun u =>
      u.out = s.out ++ s.dataTlps c.fn (sqDp1 c.sqe + (g.first + g.done) * blkB) (n * blkB) v (s.pci.relaxed.contains c.fn) ∧
      u.cmd k = some ((c.delivered i n).advance i n srcs (decide ((lba + n) % max 1 (s.tract t).perIu = 0))) ∧
      u.noc = (s.skidReads (s.skidderOf w) k c.prio blkB (lineReads (s.tract t).perIu lba srcs)).noc ∧
      Touches [.regs 8, .out, .qqp, .noc] s u)) ∧
  -- VERIFY: the same without the host
  (∀ t n v, Runs s k 0x07 c → s.srcTract c = some t → g.pin ≠ [] →
    let blkB := (s.tract t).blkBytes
    let lba := sqLba c.sqe + g.first + g.done
    let srcs := g.pin.take (chunkLen blkB lba (min g.pin.length (g.len - g.done)))
    missing c.media srcs = [] →
    leadData blkB (s.plain t lba (((srcs.zipIdx.map (fun x =>
      blockOf c.media blkB ((lba + x.2) % max 1 (s.tract t).perIu) x.1)).filterMap id).zip srcs)) = (n, v, none) →
    g.done + n < g.len →
    Completes (.verify k i) s (fun u => u.out = s.out ∧
      u.cmd k = some (c.advance i n srcs (decide ((lba + n) % max 1 (s.tract t).perIu = 0))) ∧
      Touches [.regs 8, .qqp, .noc] s u)) ∧
  -- WRITE and ATOMIC_WRITE: the blocks of one IU that the host has sent become a line of the write buffer, which has room
  (∀ t, s.tractKey c.fn (sqTract c.sqe) = some t →
    let per := max 1 (s.tract t).perIu
    let lba := sqLba c.sqe + g.first + g.done
    let m := min (per - lba % per) (g.len - g.done)
    g.first + g.done + m ≤ c.hostData.length → g.done + m < g.len → m ≠ 0 → (s.lineRoom t (lba % per) m).isSome = true →
    let bl := ((c.hostData.drop (g.first + g.done)).take m).map Blk.data
    let u := ((s.skidCommit w k c t (lba / per) (lba % per) bl).moved (s.tract t).blkBytes lba m).updCmd k
      (fun c => Cmd.advance { c with xfer := c.xfer + m } i m [] true)
    (Runs s k 0x01 c → exec (.write k i) s = .next u) ∧
    (Runs s k 0x08 c → exec (.atomicWrite k i) s = .next u)) ∧
  -- COPY: blocks of one source IU become a line of the destination tract, which has room
  (∀ u t n v, Runs s k 0x06 c → s.srcTract c = some u → s.tractKey c.fn (sqTract c.sqe) = some t → g.pin ≠ [] →
    let per := max 1 (s.tract u).perIu
    let dper := max 1 (s.tract t).perIu
    let lba := sqLba c.sqe + g.first + g.done
    let dst := sqDest c.sqe + g.first + g.done
    let m := min (min g.pin.length (g.len - g.done)) (min (per - lba % per) (dper - dst % dper))
    let srcs := g.pin.take m
    let cont := (srcs.zipIdx.map (fun x => blockOf c.media (s.tract u).blkBytes ((lba + x.2) % per) x.1)).filterMap id
    missing c.media srcs = [] → leadData (s.tract u).blkBytes cont = (n, v, none) → n ≠ 0 → g.done + n < g.len →
    (s.lineRoom t (dst % dper) m).isSome = true →
    let bl := ((cont.take n).zip srcs).zipIdx.filterMap (fun x => match x.1.1 with
      | .inl v => some (Blk.data (s.decBlk u (lba + x.2) x.1.2 v))
      | .inr _ => none)
    let z := s.skidReads (s.skidderOf w) k c.prio (s.tract u).blkBytes (lineReads per lba srcs)
    exec (.copy k i) s = .next (((z.skidCommit w k c t (dst / dper) (dst % dper) bl).moved (s.tract u).blkBytes lba n).updCmd k
      (fun c => c.advance i n srcs (decide ((lba + n) % per = 0)))))

/-- FLUSH, TRIM and WRITE_ZEROES, each at the step that ends its work (R136, R137, R141, R221). -/
def Obligations.RangeCommandsEnd : Prop := ∀ s : State, Live s → ∀ (k : Nat) (c : Cmd),
  (Runs s k 0x03 c → exec (.flush k) s = .next (s.finish k 0)) ∧
  (∀ t u, Runs s k 0x04 c → s.tractKey c.fn (sqTract c.sqe) = some t →
    let w := (s.tract t).wholeIus (sqLba c.sqe) (sqLen c.sqe)
    s.trimRun k t w.1 w.2 c.prio = (u, true) →
    exec (.trim k) s = .next ((u.updCmd k (fun c => Cmd.toPhase { c with waitSeqs := u.unmirrored s.jseq } 5 s.us)).finish k 0 0xFF
      (sqLen c.sqe) (min (w.2 * (s.tract t).perIu) ((s.tract t).cap - w.1 * (s.tract t).perIu) % 2 ^ 32))) ∧
  -- the whole IUs are trimmed, and zeroes are committed for the blocks outside them, each run of which has room in the buffer
  (∀ t u, Runs s k 0x05 c → s.tractKey c.fn (sqTract c.sqe) = some t → c.segs = [] →
    let tr := s.tract t
    let w := tr.wholeIus (sqLba c.sqe) (sqLen c.sqe)
    let runs := tr.partRuns (sqLba c.sqe) (sqLen c.sqe)
    s.writesOver k t (max 1 tr.perIu) (sqLba c.sqe) (sqLen c.sqe) = false →
    runs.all (fun p => (s.lineRoom t p.2.1 p.2.2).isSome) = true →
    s.trimRun k t w.1 w.2 c.prio = (u, true) →
    let z := runs.foldl (fun s p => s.commit k c t p.1 p.2.1 (List.replicate p.2.2 (.data 0))) u
    exec (.writeZeroes k) s = .next (z.updCmd k (fun c =>
      { c with segs := [{ len := sqLen c.sqe, done := sqLen c.sqe, ended := true }], buffered := true, trim := some (t, w.1, w.2)
               waitSeqs := z.unmirrored s.jseq, ack := if c.nBuf = 0 then z.ackRule c else c.ack })))

/-- Destage and what the map and the journal do by themselves (R195, R202, R215, R218, R225, R413, R883). -/
def Obligations.MapAndJournalSteps : Prop := ∀ s : State, Live s →
  -- R215: the next line gets its DESTAGE task
  (∀ b l r n, s.on F.TLY_STAT_DESTAGE_STALL = false → s.nextLine = some (b, l) →
    s.newTask { kind := 0x10, internal := true, prio := s.iprio 0x10, pool := 0, epoch := s.rd F.GLB_EPOCH_NEXT, payload := b }
      = some (r, n) →
    exec .destage s = .next (r.updLine b (fun l => { l with tasked := true }))) ∧
  -- R883: the open row of the stripe is padded
  (∀ k, (s.stripe k).st = .opened → (s.stripe k).fresh = true →
    exec (.pageRowPadTimer k) s = .next (s.padRow k (s.iprio 0x10))) ∧
  -- R218: the entry of a programmed line that stands alone is updated
  (∀ b l r, s.line b = some l → l.programmed = true → l.jseq = none → l.superBy = none →
    s.outdated b l = false → s.groupOf b l = [b] → l.acked = true →
    s.needPage ((s.tract l.tract).page l.iu) (.line b) (s.linePrio l) = (r, true) →
    exec (.mapUpdate (.line b)) s = .next (r.updateLines [b]).refugeCheck) ∧
  -- R202: a page whose sectors have come is installed in its frame
  (∀ mpn l f, s.load mpn = some l → Map.get none s.tly.frames mpn = some f → l.asked = true →
    (s.pageSectors f.flash).all (fun a => l.got.any (fun x => x.1 == a)) = true →
    exec (.mapPageInstalled mpn f.idx f.flash) s = .next (s.installPage mpn l (pageEntries (s.pageSectors f.flash) l.got))) ∧
  -- R195: a written page is on flash
  (∀ mpn place f, Map.get none s.tly.frames mpn = some f → f.wb = true → f.wbPlace = some place → s.placed place 4 = true →
    exec (.mapPageWritebackDone mpn place) s = .next (s.writtenBack mpn place f)) ∧
  -- R225: the open page is handed to its program
  (s.tly.jOpen < s.jseq → Completes .journalPageTimer s (fun t =>
    t.tly.jPages = s.tly.jPages ++ [{ first := s.tly.jOpen, last := s.jseq - 1 }] ∧ t.tly.jOpen = s.jseq ∧ Touches [.tly] s t)) ∧
  -- R413: a page is on flash, and the lines it covers are released
  (∀ first p a, s.tly.jPages.find? (fun p => p.first == first) = some p → p.place = some a → s.placed a 4 = true →
    let l := s.tly.jPages.filter (fun x => x ≠ p)
    exec (.journalPageProgrammed first) s = .next
      ({ s with tly.jPages := l, tly.jFlash := s.tly.jFlash ++ [(p.last, a)]
                tly.jProg := l.foldl (fun n p => min n p.first) s.tly.jOpen - 1 } : State).releaseProgrammed)

/-- TLY_CKPT_GO (R232) and the probe (R242; the tract's class bit is the model's, log entry 21). -/
def Obligations.TallyRegisterCommands : Prop := ∀ s : State, Live s →
  (∀ req, s.mayWrite req (F.TLY_CKPT_GO.off 0 0) → s.on F.TLY_STAT_CKPT_ACTIVE = false →
    exec (.tlyCkptGo req 1) s = .next (s.ckptStart false)) ∧
  (∀ req, s.mayWrite req (F.TLY_CKPT_GO.off 0 0) → s.on F.TLY_STAT_CKPT_ACTIVE = true →
    exec (.tlyCkptGo req 1) s = .next (s.refuseWrite req (F.TLY_CKPT_GO.off 0 0))) ∧
  (∀ iu, iu < 2 ^ 64 →
    let t := s.rd F.TLY_PROBE_TRACT
    let key := t % 4096 + (if bit t 12 then 4096 else 0)
    let tr := s.tract key
    let out := decide (tr.st = .absent) || decide (tr.entries ≤ iu)
    let res := !out && s.resident (tr.page iu)
    Completes (.tlyProbe iu) s (fun u => u.rd F.TLY_PROBE_STAT_DONE = 1 ∧ u.rd F.TLY_PROBE_STAT_RANGE = b2n out ∧
      u.rd F.TLY_PROBE_STAT_RESIDENT = b2n res ∧
      u.rd64 F.TLY_PROBE_ENTRY_LO F.TLY_PROBE_ENTRY_HI = (if res then s.entry (tr.page iu) (iu % 2048) else 0) % 2 ^ 64 ∧
      Touches [.regs 7] s u))

/-- The clock references (R702, R704, R706): what a window of 1 ms measures, and the loss of the selected reference with no
other to take. -/
def Obligations.ClockReferenceEvents : Prop := ∀ s : State, Live s → s.clk.stopped = false →
  (∀ (localOk ok : Bool) (o : Int), s.leveeClock = true →
    let lg := localOk && s.refNear o
    let rg := ok && s.refNear o
    let t := s.measured (some o) lg rg
    exec (.refWindowEnd localOk (some (ok, o))) s = .next (
      if (t.rd F.CLK_STAT_REF = 0 ∧ ¬ lg) ∨ (t.rd F.CLK_STAT_REF = 1 ∧ ¬ rg) then t.refLost else t.refSelect)) ∧
  (s.rd F.CLK_STAT_REF = 0 → s.leveeEligible = false →
    Completes .referenceGap s (fun t => t.rd F.CLK_STAT_REF = 2 ∧ t.rd F.CLK_STAT_LOCAL_OK = 0 ∧
      t.rd F.CLK_REF_LOSSES = min (s.rd F.CLK_REF_LOSSES + 1) (2 ^ 32 - 1) ∧ t.clk.goodLocal = 0 ∧
      Touches [.regs 3, .regs 17, .clk, .evt, .out, .pci] s t))

/-- The Deck's own steps (R255, R266, R272, R275, R283, R291): each hypothesis makes the step act. -/
def Obligations.DeckSteps : Prop := ∀ s : State, Live s →
  -- R266: a free engine takes the task that its pool's order chooses
  (∀ p e n x t, s.lve.stopped = false → s.mayTake p e = true → s.engSt e = 1 → s.choose p e = some (n, x) →
    s.task n = some t → t.internal = false →
    exec (.taskDispatch p e) s = .next (
      if isLandingEng e then (s.dispatch n e false).tell (s.dispatchMsg n e false)
      else (s.dispatch n e false).startWork n t)) ∧
  -- R272: the victim of a starved task is asked to yield
  (∀ p x n t e, s.rd F.DCK_CTL_PREEMPT_EN = 1 → s.rd F.DCK_POOL_CFG_PREEMPT_GAP p ≠ 0 → s.poolMode p ≠ 2 →
    Map.get none s.dck.preempting p = none → s.ctxFree = true → s.noFree p = true → s.waiting p = some x →
    s.victim p (s.tprio x.2) = some (n, t) → t.st = .running e false → isLandingEng e = true → e < 352 →
    Completes (.preemptionStart p) s (fun u => u.rd F.DCK_ENG_STAT_STATE e = 3 ∧
      u.dck.preempting = Map.set none s.dck.preempting p (some n) ∧
      u.dck.sent = s.dck.sent ++ [.preempt e (t.tag.getD 0)] ∧ Touches [.regs 6, .dck] s u)) ∧
  -- R200, R275: a transfer that has moved all it had translated parks on what it waits for
  (∀ e n t k c g st u, e < 64 → s.taskOn e false = some n → s.task n = some t → t.internal = false → t.tag = some k →
    s.cmd k = some c → c.segs[t.seg]? = some g → g.pin = [] → s.faultOf n = some st →
    (s.voidPreempt n false).parkTask n t 1 st = some u →
    exec (.skidderPark e) s = .next ((u.bump F.SKD_PARKS_FAULT).updCmd k (fun c => { c with parks := c.parks + 1 }))) ∧
  -- R255: descriptors return from the spillway, and withheld CREATEs are tried again
  (∀ lost, s.onChip + 256 ≤ 16384 → exec (.spillwayRefill lost) s = .next (s.refilled lost).retryCreates) ∧
  -- R283: a task that exceeds TMO is retried on another engine, or ends once its retries are spent
  (∀ n t e, s.task n = some t → t.st = .running e false → s.rd F.DCK_POOL_CFG_TMO t.pool ≠ 0 →
    let u := s.timedOut n t e
    exec (.taskTimeout n) s = .next (if u.retryLimit ≤ t.retries ∨ u.lve.pfLow = true then u.taskDown n t
      else u.updTask n (fun x => { x with st := .backoff, retries := x.retries + 1, notOn := some e }))) ∧
  -- R291: the window of 1 ms ends
  Completes .poolLoadWindow s (fun u => u.dck.busy = [] ∧ u.dck.winStart = s.time ∧
    (∀ p < 32, u.rd F.DCK_POOL_LOAD p = s.busyAll.poolLoad p) ∧ Touches [.regs 6, .dck] s u)

/-- What landing engines and their landings send (R260, R263, R264, R281, R282, R646, R647, Table DCK-6). -/
def Obligations.LandingMessages : Prop := ∀ s : State, Live s →
  (∀ l p pre e, s.cfg.userOn = true → l < 128 → 5 ≤ p → p < 32 → (s.landingEngines l).length < 2 →
    ((List.range 256).map (· + 96)).find? (fun e => s.engSt e == 0) = some e →
    Completes (.register l p pre) s (fun u => u.rd F.DCK_ENG_STAT_STATE e = 1 ∧ u.rd F.DCK_ENG_STAT_POOL e = p ∧
      u.rd F.DCK_ENG_STAT_LANDING e = l ∧ u.rd F.DCK_ENG_STAT_TMOS e = 0 ∧
      u.dck.sent = s.dck.sent ++ [.registerAck l 0 e] ∧ Touches [.regs 6, .regs 17, .dck, .evt, .out, .pci] s u)) ∧
  (∀ l e, (s.landingEngines l).contains e = true → exec (.deregister l e) s = .next (s.deregister e)) ∧
  (∀ l token p prio noPre aff dl pay u n, s.cfg.userOn = true → 5 ≤ p → p < 32 →
    (s.dck.creates.filter (fun t => t.landing = some l)).length < 8 →
    s.newTask { kind := 0x20, internal := true, prio := prio % 8, pool := p, aff := aff, noPreempt := noPre, deadline := dl,
                landing := some l, payload := pay, token := token, epoch := s.rd F.GLB_EPOCH_NEXT } = some (u, n) →
    exec (.create l token 0x20 p prio noPre aff dl pay) s = .next (u.tell (.createAck l token 0))) ∧
  (∀ e status blocks n t k, isLandingEng e = true → s.taskOn e false = some n → s.task n = some t → t.tag = some k →
    let u := s.updEng e (fun x => { x with yield264 := false, late := false })
    exec (.done e status blocks) s = .next ((u.updCmd k (fun c =>
      Cmd.toPhase (Cmd.note { c with doneBlks := blocks, completed := true } status 13 0) 5 u.us)).endTask n)) ∧
  (∀ e ctx n, isLandingEng e = true → s.taskOn e false = some n → s.engSt e = 3 →
    exec (.yield e ctx) s = .next (s.yielded e n ctx)) ∧
  (∀ e n, isLandingEng e = true → s.taskOn e false = some n → s.engSt e = 3 →
    exec (.decline e) s = .next (s.declined e)) ∧
  (∀ e, isLandingEng e = true → s.engSt e = 3 →
    exec (.ldPreemptAnswerTimeout e) s = .next (((s.declined e).updEng e (fun x => { x with late := true })).engTimeout e)) ∧
  (∀ l code, s.cfg.userOn = true → l < 128 → [0x01, 0x02, 0x03, 0x10, 0x11, 0x12].contains code = false →
    Completes (.landingMsgUnknown l code) s (fun u =>
      u.rd F.DCK_LATE_MSGS = min (s.rd F.DCK_LATE_MSGS + 1) (2 ^ 32 - 1) ∧ Touches [.regs 6] s u))

/-- Queue pairs and doorbells (R105, R106, R108, R109, R114, R121, R126). -/
def Obligations.QueuePairs : Prop := ∀ s : State, Live s →
  -- R105: ENABLE begins the start of the admin queue pair; READY rises with it, or CFG_ERR for a base that is not aligned
  (∀ fn, s.fnExists fn = true → s.rd F.QQP_CTL_ENABLE fn = 0 → s.pci.inReset = false → s.rd F.PCI_FN_STAT_FLR fn = 0 →
    Completes (.adminQueueEnable fn) s (fun t => t.rd F.QQP_CTL_ENABLE fn = 1 ∧ Touches [.regs 19] s t)) ∧
  (∀ fn, s.rd F.QQP_CTL_ENABLE fn = 1 → s.rd F.QQP_STAT_READY fn = 0 → s.rd F.QQP_STAT_CFG_ERR fn = 0 →
    Completes (.adminQueueReady fn) s (fun t =>
      (if s.sqBase fn 0 % 4096 = 0 ∧ s.cqBase fn 0 % 4096 = 0 then
        t.rd F.QQP_STAT_READY fn = 1 ∧ t.rd F.QQP_STAT_CFG_ERR fn = 0 ∧
        t.qqp.qps = Map.upd {} s.qqp.qps (qpKey fn 0) (fun _ =>
          { live := true, sqSize := s.rd F.QQP_AQ_SIZE_ASQS fn + 1, cqSize := s.rd F.QQP_AQ_SIZE_ACQS fn + 1, irqEn := true })
      else t.rd F.QQP_STAT_READY fn = 0 ∧ t.rd F.QQP_STAT_CFG_ERR fn = 1 ∧ t.qqp.qps = s.qqp.qps) ∧
      Touches [.regs 19, .qqp] s t)) ∧
  -- R106: ENABLE falls, and every queue pair of the function goes
  (∀ fn, s.rd F.QQP_CTL_ENABLE fn = 1 → exec (.queueDisable fn) s = .next (s.dropQueues fn)) ∧
  -- R108: a tail the queue can hold makes its entries available
  (∀ fn q v, s.rd F.CLK_GATE_OPEN 80 = 1 → (s.qp fn q).live = true → v < (s.qp fn q).sqSize →
    exec (.sqTailDoorbell fn q v) s = .next (s.updQp fn q (fun p =>
      { p with sqTail := v, stop := if p.stop = 8 then 0 else p.stop }))) ∧
  -- R108: a head up to the tail gives entries back
  (∀ fn q v, s.rd F.CLK_GATE_OPEN 80 = 1 → (s.qp fn q).live = true → v < (s.qp fn q).cqSize →
    let n := (v + (s.qp fn q).cqSize - (s.qp fn q).cqHead) % (s.qp fn q).cqSize
    n ≤ (s.qp fn q).cqUsed →
    exec (.cqHeadDoorbell fn q v) s = .next (s.updQp fn q (fun p => { p with cqHead := v, cqUsed := p.cqUsed - n }))) ∧
  -- R109: any other doorbell is discarded, counted and posted
  (∀ fn q v, s.rd F.CLK_GATE_OPEN 80 = 1 → ((s.qp fn q).live = false ∨ (s.qp fn q).sqSize ≤ v) →
    Completes (.sqTailDoorbell fn q v) s (fun t =>
      t.rd F.QQP_DB_ERRORS fn = min (s.rd F.QQP_DB_ERRORS fn + 1) (2 ^ 32 - 1) ∧
      Touches [.regs 19, .regs 17, .evt, .out, .pci] s t)) ∧
  -- R121: the queue whose turn it is gives up to 8 entries
  (∀ fn q es, q ≠ 0 → s.fetching = true → s.nextQueue = some (qpKey fn q) →
    exec (.submissionFetch fn q es) s = .next (State.fetchMany
      (State.updQp { s with qqp.rr := qpKey fn q } fn q (fun p => { p with stop := 0, need := 0 })) fn q
      (min 8 (s.qp fn q).avail) (es.take (min 8 (s.qp fn q).avail)))) ∧
  -- R114: a completion whose queue has room is written
  (∀ k c o, k ≠ 262144 → s.cmd k = some c → s.pairOutcome k c = some o → s.lve.stopped = false → s.orderHeld k = false →
    s.canPost c = true → exec (.completionPost k) s = .next (s.complete k c o)) ∧
  -- R126: completions that wait for the timer are signalled
  (∀ fn q, (s.qp fn q).coalTimer = true → 0 < (s.qp fn q).coalPending →
    exec (.coalesceTimerExpires fn q) s =
      .next ((s.updQp fn q (fun p => { p with coalPending := 0, coalTimer := false })).msix fn (s.qp fn q).vector))

/-- Deadlines, the mailbox and the ledger's commands (R155, R161, R162, R171, R172, R174, R838 to R840). -/
def Obligations.MailboxAndLedgerCommands : Prop := ∀ s : State, Live s →
  -- R155, R131: a command still in RECEIVED ends with ABORTED at its deadline, or with TRACT_NOT_READY while it waits for a
  -- FROZEN tract or for the map
  (∀ k c, s.cmd k = some c → c.deadline ≠ 0 → c.deadline - 1 ≤ s.time / 1000 → c.received = true →
    exec (.deadlineExpires k) s = .next ((s.abortCmd k
      (if s.ioFrozen c || (isAdminOp (sqOp c.sqe) && c.frozen && !s.tly.usable) then 0x05 else 0x0C)).updCmd k
      (fun c => { c with missed := true }))) ∧
  -- R171: the mailbox entry is taken as an admin command, unless a result waits or a command runs
  (s.pci.inReset = false → s.rd F.GLB_RESULT_LO_VALID = 0 → s.qqp.mbxBusy = false →
    exec .mailboxGo s = .next (State.admitEntry { s with qqp.mbxBusy := true } 0 0 s.mbxEntry 262144
      (s.formatError 0 true s.mbxEntry))) ∧
  (s.pci.inReset = false → s.qqp.mbxBusy = true →
    exec .mailboxGo s = .next (s.refuseWrite (.host 0) (F.QQP_MBX_GO.off 0 0))) ∧
  -- R172, R838, R839: its completion, and the result with the next SEQ
  (∀ c o, s.cmd 262144 = some c → s.outcome 262144 c = some o → s.pci.inReset = false → c.delQ = none →
    exec .mailboxCommandEnd s = .next (State.showResult { (s.putMbxCqe (cqEntry (sqCid c.sqe) 0 o.status 0 true o.blocks
      none o.cause o.field o.result (c.missed || s.late c))).dropCmd 262144 |>.unlink with qqp.mbxBusy := false } o.status (sqOp c.sqe) (sqCid c.sqe)
      o.result)) ∧
  (∀ st op cid res, st < 2 ^ 8 → let t := s.showResult st op cid res
    t.rd F.GLB_RESULT_LO_VALID = 1 ∧ t.rd F.GLB_RESULT_LO_SEQ = (s.rd F.GLB_RESULT_LO_SEQ + 1) % 2 ^ 8 ∧
    t.rd F.GLB_RESULT_LO_STATUS = st ∧ Touches [.regs 0] s t) ∧
  -- R174, R840: the current SEQ releases the result; any other value is posted and releases nothing
  (∀ v, s.rd F.GLB_RESULT_LO_VALID = 1 → v % 256 = s.rd F.GLB_RESULT_LO_SEQ →
    Completes (.resultAck v) s (fun t => t.rd F.GLB_RESULT_LO_VALID = 0 ∧ t.rd F.GLB_RESULT_LO_STATUS = 0 ∧
      t.rd F.GLB_RESULT_LO_OPCODE = 0 ∧ t.rd F.GLB_RESULT_HI_CID = 0 ∧ t.rd F.GLB_RESULT_HI_RESULT = 0 ∧
      t.rd F.GLB_RESULT_LO_SEQ = s.rd F.GLB_RESULT_LO_SEQ ∧ Touches [.regs 0] s t)) ∧
  (∀ v, s.rd F.GLB_RESULT_LO_VALID = 0 ∨ v % 256 ≠ s.rd F.GLB_RESULT_LO_SEQ →
    exec (.resultAck v) s = .next (s.post E.RESULT_ACK_INVALID v)) ∧
  -- R161: the ledger entry of the tag goes to host memory
  (∀ k c d r, s.cmd k = some c → sqOp c.sqe = 0x10 → c.ended = false → c.internal = false → sqTag c.sqe < 65536 →
    s.cmd (sqTag c.sqe) = some d → d.fn = c.fn →
    s.hostData k c.fn (sqDp1 c.sqe) 64 (s.ledgerEntry (sqTag c.sqe)) = (r, true) →
    exec (.ledgerQuery k) s = .next (r.finish k 0 0xFF 0 (d.phase + d.fault * 256))) ∧
  -- R162: an entry held after its completion is released
  (∀ k c d, s.cmd k = some c → sqOp c.sqe = 0x11 → c.ended = false → c.internal = false → sqTag c.sqe < 65536 →
    s.cmd (sqTag c.sqe) = some d → d.fn = c.fn → d.completed = true → d.phase ≠ 3 → d.phase ≠ 4 → d.held = true →
    exec (.ledgerRelease k) s = .next (((s.dropCmd (sqTag c.sqe)).unlink.drop F.QQP_TAGS_HELD 1 c.fn).finish k 0))

/-- Queue and tract commands of the admin set (R125, R163 to R165, R177, R179, R391, R545, R880, R895): each hypothesis is a command
that passes its own checks. -/
def Obligations.QueueAndTractAdmin : Prop := ∀ s : State, Live s → ∀ (k : Nat) (c : Cmd),
  (s.adminCmd k 0x40 = some c → s.createQpField c = none → (s.qp c.fn (bytesAt c.sqe 40 2)).live = false →
    let e := c.sqe
    exec (.createQp k) s = .next ((s.updQp c.fn (bytesAt e 40 2) (fun _ =>
      { live := true, sqBase := sqDp1 e, cqBase := sqDp2 e, sqSize := bytesAt e 42 2 + 1, cqSize := bytesAt e 44 2 + 1,
        vector := bytesAt e 46 2, coalCount := bytesAt e 48 1, coalTime := bytesAt e 49 1, irqEn := bit e 400,
        floor := bits e 401 3 })).finish k 0)) ∧
  (s.adminCmd k 0x41 = some c → bytesAt c.sqe 40 2 ≠ 0 → bytesAt c.sqe 40 2 ≤ s.rd F.QQP_CAP_MAX_QP c.fn → (s.qp c.fn (bytesAt c.sqe 40 2)).live = true →
    (s.qp c.fn (bytesAt c.sqe 40 2)).deleting = none → bit c.sqe 336 = false →
    exec (.deleteQp k) s = .next (((s.updQp c.fn (bytesAt c.sqe 40 2) (fun p => { p with deleting := some k })).updCmd k
      (fun d => { d with delQ := some (bytesAt c.sqe 40 2) })).finish k 0)) ∧
  (∀ p, s.adminCmd k 0x42 = some c → s.createField c.sqe = none → s.tly.usable = true →
    s.anyTract (sqTract c.sqe) = none → (Map.get {} s.lve.pTracts (sqTract c.sqe)).st = .absent →
    s.bindable (sqKid c.sqe) = true →
    let e := c.sqe
    let blkB := if bytesAt e 40 1 = 0 then 512 else 4096
    let pages := mapPages (mapEntries (sqLba e) blkB (iuBytes (bytesAt e 41 1)))
    sqLba e * blkB ≤ s.freeCapacity → s.allocPages pages = some p →
    exec (.tractCreate k) s = .next (((((s.setTract (sqTract e)
      { st := .formatting, blk := bytesAt e 40 1, iu := bytesAt e 41 1, cap := sqLba e, kid := sqKid e,
        owner := bytesAt e 42 2, mpn := p, pages := pages, waiter := some k }).bump F.CRY_KEY_STAT_TRACTS 1 (sqKid e)).draws 2).updCmd
      k (fun c => { c with checked := true })).tractSet (sqTract e))) ∧
  (∀ t, (s.tract t).st = .formatting → (s.tract t).waiter = some k →
    exec (.tractFormatDone t) s = .next
      (((s.setTract t { s.tract t with st := .ready, waiter := none }).tractSet t).finish k 0)) ∧
  (∀ t, s.adminCmd k 0x43 = some c → s.anyTract (sqTract c.sqe) = some t → s.tly.usable = true →
    (s.tract t).st = .ready ∨ (s.tract t).st = .readOnly →
    exec (.tractDelete k) s = .next (((s.setTract t { s.tract t with st := .deleting, was := (s.tract t).st, waiter := some k }).updCmd k
      (fun c => { c with checked := true })).tractSet t)) ∧
  (∀ t, (s.tract t).st = .deleting → s.tractBusy t = false → (s.tract t).waiter = some k →
    let u := (((s.releaseTract t).setTract t { s.tract t with st := .absent }).tractSet t)
    exec (.tractDeleteDone t) s = .next ((((u.trimLines ((u.tly.lines.filter (fun e => match e.2 with
      | some l => l.tract == t
      | none => false)).map Prod.fst) (u.jseq - 1)).setTract t {}).drop F.CRY_KEY_STAT_TRACTS 1 (s.tract t).kid).finish k 0)) ∧
  (∀ t, s.adminCmd k 0x44 = some c → bytesAt c.sqe 40 1 = 0 → s.tractKey c.fn (sqTract c.sqe) = some t →
    exec (.tractStateQuery k) s = .next (s.finish k 0 0xFF 0 (s.tract t).st.code)) ∧
  (∀ t, s.adminCmd k 0x44 = some c → bytesAt c.sqe 40 1 = 1 → c.fn = 0 → s.tly.usable = true →
    s.anyTract (sqTract c.sqe) = some t → (s.tract t).st = .ready →
    exec (.tractStateSetReadOnly k) s = .next (((s.setTract t { s.tract t with st := .readOnly }).tractSet t).finish k 0 0xFF 0
      TState.readOnly.code)) ∧
  (∀ t, s.adminCmd k 0x44 = some c → bytesAt c.sqe 40 1 = 2 → c.fn = 0 → s.tly.usable = true →
    s.anyTract (sqTract c.sqe) = some t → (s.tract t).st = .readOnly →
    exec (.tractStateSetReady k) s = .next (((s.setTract t { s.tract t with st := .ready }).tractSet t).finish k 0 0xFF 0
      TState.ready.code))

/-- The other admin commands (R163, R166, R167, R481, R541, R543, R544, R579, R580, R897). -/
def Obligations.OtherAdminCommands : Prop := ∀ s : State, Live s → ∀ (k : Nat) (c : Cmd),
  -- a blob that passes the checks of Table CRY-4 loads its root key; one that does not completes with the check's status
  (∀ head eph wrapped rest, s.adminCmd k 0x45 = some c → bytesAt c.sqe 40 2 = 160 → c.hostErr = false → c.cut = false →
    s.tlpOk c.fn = true →
    let kid := sqKid c.sqe
    let blob := blobOf head eph wrapped rest
    exec (.keyImport k head eph wrapped rest) s = .next (match s.importCheck kid blob with
      | none => (((s.loadKey kid ((s.unwrapped kid blob).getD 0) (bytesAt blob 6 1) false).post E.CRY_KEY_LOADED kid).resumeMerges).finish k 0
      | some st => (s.post E.CRY_KEY_REFUSED kid st).failCmd k st 2 0 (if st = 0x03 then importField kid blob else 0xFF))) ∧
  (∀ r, s.adminCmd k 0x46 = some c → s.retireKey (sqKid c.sqe) = (r, 0) →
    exec (.keyRetire k) s = .next (r.finish k 0)) ∧
  (∀ v r, s.adminCmd k 0x47 = some c → s.identity c (bytesAt c.sqe 40 1) = .inr v →
    s.hostData k c.fn (sqDp1 c.sqe) 4096 v = (r, true) →
    exec (.identify k) s = .next (r.finish k 0)) ∧
  (∀ r, s.adminCmd k 0x49 = some c →
    let i := bytesAt c.sqe 40 2
    let n := bytesAt c.sqe 42 2
    i < 4096 → n ≠ 0 → n ≤ 4096 → s.hostData k c.fn (sqDp1 c.sqe) (32 * n) (s.slots i n) = (r, true) →
    exec (.eventFetch k) s = .next (r.finish k 0 0xFF 0 (n + 2 ^ 32 * ((i + n) % 4096)))) ∧
  (∀ r, s.adminCmd k 0x4A = some c →
    let l := (s.med.felled.drop (bytesAt c.sqe 40 4)).take (bytesAt c.sqe 44 4)
    l ≠ [] → s.hostData k c.fn (sqDp1 c.sqe) (16 * l.length) (l.foldr (fun f v => fellBytes f + 2 ^ 128 * v) 0) = (r, true) →
    exec (.fellQuery k) s = .next (r.finish k 0 0xFF 0 l.length)) ∧
  (s.adminCmd k 0x4A = some c → (s.med.felled.drop (bytesAt c.sqe 40 4)).take (bytesAt c.sqe 44 4) = [] →
    exec (.fellQuery k) s = .next (s.finish k 0)) ∧
  (∀ j d, s.adminCmd k 0x4B = some c → s.findCmd c.fn (bytesAt c.sqe 40 2) (bytesAt c.sqe 42 2) = some (j, d) →
    j ≠ k → d.abortable = true → d.fused = none →
    exec (.abort k) s = .next (((s.abortCmd j 0x0C).updCmd k (fun c => { c with after := some j })).finish k 0)) ∧
  (∀ r f, s.adminCmd k 0x4C = some c → bytesAt c.sqe 48 8 % 4096 = 0 → bytesAt c.sqe 56 8 % 4096 = 0 →
    bytesAt c.sqe 56 8 ≠ 0 → s.resealRange (bits (bytesAt c.sqe 48 8) 0 48) (bytesAt c.sqe 56 8) = (r, 0, f) →
    exec (.reseal k) s = .next (r.finish k 0))

/-- HBM and the scratchpad sweep (R498, R499, R503, R505 to R509, R514, R519, R528, R530). -/
def Obligations.HbmAndSweepEvents : Prop := ∀ s : State, Live s →
  (∀ pc done window, pc < 128 → s.rd F.HBM_PC_STAT_STATE pc ≠ 2 → s.rd F.HBM_PC_STAT_SR pc = 0 →
    let t := s.refDebts pc done
    let u := (if window = true then t.refWindow pc else t).rhFallback pc
    let v := u.put F.HBM_PC_STAT_DEBT (u.maxDebt pc) pc
    v.on F.HBM_TEMP_DOUBLED (pc / 32) = v.wantDouble (pc / 32) →
    exec (.hbmRefreshInterval pc done window) s = .next v) ∧
  (∀ k d, k < 4 → d < 85 → 83 < d →
    Completes (.hbmTempRead k d) s (fun t => t.rd F.HBM_TEMP_DEGC k = d ∧ t.hbm.hot85 = s.hbm.hot85 ∧
      t.hbm.hot95 = s.hbm.hot95.erase k ∧ Touches [.regs 13, .regs 17, .hbm, .evt, .out, .pci] s t)) ∧
  (∀ k d, k < 4 → 95 ≤ d → d < 2 ^ 8 → s.hbm.hot85.contains k = false → s.hbm.hot95.contains k = false →
    Completes (.hbmTempRead k d) s (fun t => t.rd F.HBM_TEMP_DEGC k = d ∧ t.hbm.hot85 = s.hbm.hot85 ++ [k] ∧
      t.hbm.hot95 = s.hbm.hot95 ++ [k] ∧ Touches [.regs 13, .regs 17, .hbm, .evt, .out, .pci] s t)) ∧
  (∀ ch, ch < 64 → s.cfg.done = true →
    Completes (.hbmWriteEyeRetrain ch true) s (fun t => t.rd F.HBM_RETRAINS = min (s.rd F.HBM_RETRAINS + 1) (2 ^ 32 - 1) ∧
      t.rd F.HBM_RETRAIN_FAILS = s.rd F.HBM_RETRAIN_FAILS ∧ Touches [.regs 13] s t) ∧
    Completes (.hbmWriteEyeRetrain ch false) s (fun t => t.rd F.HBM_RETRAINS = min (s.rd F.HBM_RETRAINS + 1) (2 ^ 32 - 1) ∧
      t.rd F.HBM_RETRAIN_FAILS = min (s.rd F.HBM_RETRAIN_FAILS + 1) (2 ^ 32 - 1) ∧
      Touches [.regs 13, .regs 17, .evt, .out, .pci] s t)) ∧
  (∀ p, p < 8 → Completes (.hbmRequestUrgent p) s (fun t =>
      t.rd F.HBM_URGENT = min (s.rd F.HBM_URGENT + 1) (2 ^ 32 - 1) ∧ Touches [.regs 13] s t)) ∧
  (∀ ch, ch < 64 → s.rd F.HBM_PC_STAT_SR (2 * ch) = 0 →
    (s.rd F.HBM_SR_CTL_IDLE_US ≠ 0 ∧ s.noDebt (2 * ch) = true ∧ s.noDebt (2 * ch + 1) = true ∨ s.hbmGateCloses ch = true) →
    exec (.selfRefreshEntry ch) s = .next ((((s.put F.HBM_PC_STAT_SR 1 (2 * ch)).put F.HBM_PC_STAT_SR 1 (2 * ch + 1)).bump
      F.HBM_SR_ENTRIES).gateFollow (65 + ch / 16))) ∧
  (∀ mib, s.rd F.HBM_EVAC_ACTIVE = 1 → s.rd F.HBM_EVAC_PC < 128 → s.hbm.waiting = [] →
    mib < 2 ^ 11 →
    Completes (.evacuationDone mib []) s (fun t => t.rd F.HBM_EVAC_ACTIVE = 0 ∧ t.rd F.HBM_EVAC_DONE_MIB = mib ∧
      t.rd F.HBM_PC_STAT_STATE (s.rd F.HBM_EVAC_PC) = 2 ∧ Touches [.regs 13, .regs 17, .evt, .out, .pci] s t)) ∧
  (∀ b, b < 24 → s.rd F.SPM_CTL_SWEEP_EN = 1 → s.lve.pfLow = false →
    exec (.sweepStep b 1 0) s = .next (((s.bump F.SPM_CE).bump F.SPM_SWEEP_FAILS 0).sweepAdvance b))

/-- Keys, re-keys and reseals commanded by registers, and the sweeps of the memory crypto engine (R544, R547, R571, R574 to
R576, R579 to R581). -/
def Obligations.CryptoRegisterCommands : Prop := ∀ s : State, Live s →
  (∀ req kid head eph wrapped rest, s.mayWrite req (F.CRY_KEY_CMD_KID.off 0 0) → s.rd F.CRY_KEY_RESULT_BUSY = 0 →
    let win := blobOf head eph wrapped rest
    let a := s.rd64 F.CRY_KEY_SRC_LO F.CRY_KEY_SRC_HI
    let r1 := s.devRead a 64 5 win
    let r2 := r1.1.devRead (a + 64) 64 5 (win / 2 ^ 512)
    let r3 := r2.1.devRead (a + 128) 32 5 (win / 2 ^ 1024)
    r1.2.1 = 0 → r2.2.1 = 0 → r3.2.1 = 0 →
    let x := r3.1.importKey kid (r1.2.2 + 2 ^ 512 * r2.2.2 + 2 ^ 1024 * r3.2.2)
    exec (.keyCmdImport req kid head eph wrapped rest) s = .next (x.1.keyResult x.2 kid)) ∧
  (∀ req kid, s.mayWrite req (F.CRY_KEY_CMD_KID.off 0 0) → s.rd F.CRY_KEY_RESULT_BUSY = 0 →
    exec (.keyCmdRetire req kid) s = .next ((s.retireKey kid).1.keyResult (s.retireKey kid).2 kid)) ∧
  (∀ req r, s.mayWrite req (F.CRY_REKEY_GO.off 0 0) → r < 8 → s.rd F.CRY_STAT_REKEY = 0 → s.sealSize r ≠ 0 →
    exec (.rekeyGo req (0xA5000000 + r)) s = .next (s.rekeyStart r)) ∧
  (∀ req v, s.mayWrite req (F.CRY_REKEY_GO.off 0 0) → v / 16 ≠ 0xA500000 →
    exec (.rekeyGo req v) s = .next (s.refuseWrite req (F.CRY_REKEY_GO.off 0 0))) ∧
  (∀ owner, s.rd F.CRY_STAT_REKEY = 1 →
    let r := s.rd F.CRY_STAT_REGION
    let p := s.rd64 F.CRY_SWEEP_LO F.CRY_SWEEP_HI r
    let i := (p - s.sealBase r) / 4096
    let u := ((s.rekeyLeaf r i).rekeyNodes r 7 1 i).put64 F.CRY_SWEEP_LO F.CRY_SWEEP_HI (p + 4096) r
    s.underDamage r (64 * i) = false →
    exec (.rekeySweepStep [] owner) s = .next (if u.sealBase r + u.sealSize r ≤ p + 4096 then u.rekeyEnd r else u)) ∧
  (∀ req, s.mayWrite req (F.CRY_RESEAL_GO.off 0 0) →
    let x := s.resealRange (s.rd64 F.CRY_RESEAL_LO F.CRY_RESEAL_HI) (4096 * s.rd F.CRY_RESEAL_LEN)
    exec (.resealGo req 1) s = .next (x.1.put F.CRY_KEY_RESULT_STATUS x.2.1)) ∧
  (∀ req v, s.mayWrite req (F.CRY_RESEAL_GO.off 0 0) → v ≠ 1 →
    exec (.resealGo req v) s = .next (s.refuseWrite req (F.CRY_RESEAL_GO.off 0 0))) ∧
  (∀ r level idx, s.rd F.CRY_CTL_AUTO_RESEAL = 1 → r < 3 → s.cry.damaged.contains (r, level, idx) = true →
    s.rekeying r = false →
    (r = 2 → exec (.autoReseal r level idx []) s = .next (s.resealNode r level idx)) ∧
    (r < 2 → s.linesUnder r level idx = [] →
      (∀ t : State, t = s.resealNode r level idx → exec (.autoReseal r level idx []) s = .next t)) ∧
    -- healed lines are written back to the rebuilt node; while a heal is outstanding the part waits
    (r = 0 → (∀ x ∈ s.linesUnder r level idx, x.2.1.healed = true ∧ x.2.1.healing = false) →
      (∀ x ∈ s.linesUnder r level idx, s.line x.1 = some x.2.1) →
      exec (.autoReseal r level idx []) s =
        .next ((s.linesUnder 0 level idx).foldl State.writeBack (s.resealNode 0 level idx))))

/-- The Skidway (R593, R597, R600, R606 to R614): requests, answers, timers, closed ports and fences. -/
def Obligations.SkidwaySteps : Prop := ∀ s : State, Live s →
  (∀ who q, ¬ (0x100 ≤ q.src ∧ q.src < 0x180) →
    exec (.skidwayRequestSend who q) s = .next (s.skSend who { q with long := longOf q })) ∧
  (∀ k p st data, s.pkt k = some p → p.answer = some (st, data) → p.parked = none → p.lost = false → p.late = false → s.granted p = true → st ≠ 0x10 →
    exec (.skidwayCompletion k) s =
      .next ((((s.grant p).dropPkt k).raise F.NOC_RTT_NS_MAX (s.time - p.sentAt)).attemptEnd k p st data)) ∧
  (∀ k p data, s.pkt k = some p → p.answer = some (0x10, data) → p.parked = none → p.lost = false → p.late = false →
    s.granted p = true →
    exec (.skidwayCompletion k) s = .next
      (((((s.grant p).dropPkt k).raise F.NOC_RTT_NS_MAX (s.time - p.sentAt)).routeClosed p.req.src p.dst).attemptEnd k p 0x10 data)) ∧
  (∀ k p, s.pkt k = some p → p.late = false → p.backoff = false → p.lost = false →
    exec (.requestTimeout k) s =
      .next (((s.bump F.NOC_TMO).setPkt k { p with late := true }).attemptEnd k p 0x0A 0)) ∧
  (∀ k p, s.pkt k = some p → p.atUnit = true → s.fab.treq.contains k = false →
    exec (.targetTimeout k) s =
      .next (((s.bump F.NOC_TMO).answer k 0x0A 0).tmoCount p.dst (Map.get 0 s.noc.tmos p.dst + 1))) ∧
  (∀ n, s.rd F.NOC_NI_STAT_ISOLATED n = 1 → exec (.isolationProbe n true) s = .next (s.isoEnd n)) ∧
  (∀ k p r q, s.pkt k = some p → s.noc.closed.contains (32 * r + q) = true →
    (s.pathOf p).contains (r, q) = true → p.moving = true → p.answer = none →
    exec (.routerAbsorb k r q false) s = .next
      (((s.bump F.NOC_ABSORBED).absorbed k r p).post E.NOC_ROUTE_CLOSED r (p.req.src + 2 ^ 16 * p.dst))) ∧
  (∀ k p r, ((s.absorbed k r p).pkt k).map (fun t => (t.answer, t.retFrom, t.req, t.dst)) =
    some (some (0x10, 0), some r, p.req, p.dst)) ∧
  (∀ req v, s.mayWrite req (F.NOC_RECONFIG.off 0 0) → exec (.nocReconfigClose req v) s = .next (s.portClose req v)) ∧
  (∀ req v, s.mayWrite req (F.NOC_RECONFIG.off 0 0) → exec (.nocReconfigOpen req v) s = .next (s.portOpen req v)) ∧
  (∀ v, Completes (.nocRtrClose v) s (fun t =>
    (∀ p, p < 31 → t.noc.closed.contains (32 * s.rd F.NOC_RTR_SEL + p) = bit v p) ∧
    (∀ k, k / 32 ≠ s.rd F.NOC_RTR_SEL → t.noc.closed.contains k = s.noc.closed.contains k) ∧ Touches [.noc] s t)) ∧
  (∀ n, n < 1024 → s.rd F.NOC_NI_STAT_FENCED n = 1 →
    Completes (.fenceOpen n) s (fun t => t.rd F.NOC_NI_STAT_FENCED n = 0 ∧ Touches [.regs 4, .regs 5] s t))

/-- Stand loads (R648, R667, R674 to R678, R682, R683, R686): requests, the start of a load, its drain, its run
records and its frame hash. -/
def Obligations.StandLoads : Prop := ∀ s : State, Live s →
  (∀ n, n < 128 → s.rd F.LDG_CTL_EN n = 1 → exec (.landingDisable n) s = .next ((s.put F.LDG_CTL_EN 0 n).dropLanding n)) ∧
  (∀ k c, s.cmd k = some c → sqOp c.sqe = 0x48 → c.ended = false → c.internal = false → c.checked = false →
    bytesAt c.sqe 40 1 < 64 → bytesAt c.sqe 41 1 = 0 →
    exec (.standLoad k) s = .next ((s.updCmd k (fun c => { c with checked := true })).slRequest (bytesAt c.sqe 40 1) 0
      (bytesAt c.sqe 44 4) (some k))) ∧
  (∀ req v, s.mayWrite req (F.CFG_SL_CMD_KEY.off 0 0) → bits v 24 8 = 0xA5 → bits v 8 1 = 0 →
    exec (.cfgSlCmd req v) s = .next (s.slRequest (bits v 0 6) 0 (s.rd F.CFG_SL_SRC_LO) none)) ∧
  (∀ q r img, s.sl.cur = none → s.sl.queue = q :: r → s.cfg.fbStream = false →
    s.fab.rbLeft.any (fun x => x.1 == q.stand) = false → (s.slRest r).imgFail q img = none →
    exec (.standLoadStart img) s = .next ((s.slRest r).slOpen q img).slShow) ∧
  (∀ q r img st code f, s.sl.cur = none → s.sl.queue = q :: r → s.cfg.fbStream = false →
    s.fab.rbLeft.any (fun x => x.1 == q.stand) = false → (s.slRest r).imgFail q img = some (st, code, f) →
    exec (.standLoadStart img) s =
      .next ((((s.slRest r).put F.CFG_ST_STAT_STATE q.was q.stand).slRefuse q st code f).slShow)) ∧
  (∀ q wires, s.sl.cur = some q → s.rd F.CFG_SL_STAT_PHASE = 2 → s.cru.repair = none →
    let t := s.slDrained q wires
    exec (.standDrainEnd wires) s = .next (if t.sl.left = 0 then t.slFinish q else t)) ∧
  (∀ q a frames t, s.sl.cur = some q → s.rd F.CFG_SL_STAT_PHASE = 3 → s.writeRun q a frames = (t, true) →
    let u : State := { t with
      sl.left := t.sl.left - (16 + 256 * frames.length)
      sl.runs := t.sl.runs ++ runBytes a (frames.map FrameIn.data) }
    exec (.runRecord a frames.length frames none) s = .next (if u.sl.left = 0 then u.slFinish q else u)) ∧
  (∀ q a n frames t e, s.sl.cur = some q → s.rd F.CFG_SL_STAT_PHASE = 3 → s.writeRun q a frames = (t, true) →
    exec (.runRecord a n frames (some e)) s = .next (t.slTear q (a + frames.length) (match e with
      | .poisoned => 0x0F
      | .nvm => 0x12) 0x2F)) ∧
  (∀ q a n frames err t, n = frames.length ∨ err ≠ none → s.sl.cur = some q → s.rd F.CFG_SL_STAT_PHASE = 3 → s.writeRun q a frames = (t, false) →
    exec (.runRecord a n frames err) s = .next t) ∧
  (∀ q, ofBytes (sha384 s.sl.runs) ≠ (partHdr s.sl.img.bytes).frameHash →
    s.slFinish q = ((s.clearMems q.stand).put F.CFG_SL_STAT_PHASE 4).slTear q
      (s.sl.last.getD 0) 0x08 0x2D)

/-- The Cruiser and contention on spine lines (R629, R688, R691, R695, R696). -/
def Obligations.CruiserSteps : Prop := ∀ s : State, Live s →
  (∀ upset poison nvm, s.cfg.done = true → s.rd F.CRU_CTL_EN = 1 → s.cru.repair = none → s.rd F.CFG_SL_STAT_PHASE ≠ 3 →
    s.rd F.LDG_RB_STAT_BUSY = 0 → s.cru.queue = [] →
    exec (.cruiserScanStep upset poison nvm) s = .next ((s.put F.CRU_STAT_ACTIVE 1).cruScan upset poison nvm)) ∧
  (∀ upset poison nvm a r, s.cfg.done = true → s.rd F.CRU_CTL_EN = 1 → s.cru.repair = none →
    s.rd F.CFG_SL_STAT_PHASE ≠ 3 → s.rd F.LDG_RB_STAT_BUSY = 0 → s.cru.queue = a :: r →
    exec (.cruiserScanStep upset poison nvm) s =
      .next ((State.cruFill { s with cru.queue := r }).cruReport a upset poison nvm)) ∧
  (∀ a nvm stuck, s.cru.repair = some a → s.matchesGold a (s.frame a).cache = true →
    let t := ((s.repairWrite a (s.frame a).cache false (stuckMask (s.excluded a) stuck)).put F.CRU_STAT_REPAIRING 0).repairOver
    t.matchesGold a (t.frame a).live = true → exec (.cruiserRepairDone nvm stuck) s = .next (t.repaired a false)) ∧
  (∀ a stuck, s.cru.repair = some a → s.matchesGold a (s.frame a).cache = false → s.nvmAllowed a = false →
    exec (.cruiserRepairDone none stuck) s = .next ((s.put F.CRU_STAT_REPAIRING 0).repairOver.unrepaired a)) ∧
  (∀ req v, s.mayWrite req (F.CRU_INJ_GO.off 0 0) → frameScanned (s.rd F.CRU_INJ_ADDR) = true →
    s.standSt (s.frameStand (s.rd F.CRU_INJ_ADDR)) = 1 →
    exec (.cruInj req v) s = .next (s.updFrm (s.rd F.CRU_INJ_ADDR) (fun f =>
      { f with live := Nat.xor f.live (2 ^ (v % 2048)), inj := true }))) ∧
  (∀ d l a b, s.cfg.done = true → d < 4 → l < 1536 → Map.get none s.fab.spines (1536 * d + l) = none →
    let t := (s.updFrm a.frame (fun f => { f with live := Nat.xor f.live (a.upset % frameMod) })).updFrm b.frame
      (fun f => { f with live := Nat.xor f.live (b.upset % frameMod) })
    let rep := [a.frame, b.frame].filter (fun x => t.standSt (t.frameStand x) != 3)
    exec (.spineContention d l a b) s = .next ((((State.bump { t with
      fab.spines := Map.set none t.fab.spines (1536 * d + l) (some rep), cru.waiting := t.cru.waiting ++ rep }
      F.LDG_SPINE_HITS).post E.FAB_SPINE_CONTENTION d l)).cruFill))

/-- Landings, readback and the memories of the fabric (R532, R622, R623, R632, R638, R639, R643, R644, R654 to R657). -/
def Obligations.FabricSteps : Prop := ∀ s : State, Live s →
  (∀ n q, s.landingOpen n = true → s.pkt (pktKey (0x100 + n) (q.txn % 1024)) = none →
    exec (.landingMreq n q) s = .next (s.skSend (.landing n)
      { q with src := 0x100 + n, txn := q.txn % 1024, long := longOf q })) ∧
  (∀ n k st data p, s.fab.late.contains k = false → s.pkt k = some p → p.dst = 0x100 + n → s.fab.treq.contains k = true →
    exec (.landingTrsp n k st data) s = .next (s.answer k (st % 256) data)) ∧
  (∀ n k st data, s.fab.late.contains k = true →
    Completes (.landingTrsp n k st data) s (fun t => t.fab.late = s.fab.late.erase k ∧
      t.rd F.NOC_STALE_RESP = min (s.rd F.NOC_STALE_RESP + 1) (2 ^ 32 - 1) ∧ t.noc = s.noc)) ∧
  (∀ req v, s.mayWrite req (F.LDG_RB_CTL_GO.off 0 0) → v % 2 = 1 → exec (.readbackGo req v) s = .next (s.rbGo req v)) ∧
  (s.fab.rbWait = true → Completes .readbackCaptureTimeout s (fun t => t = s.rbCaptured ∧ t.fab.rbWait = false ∧
    Touches [.fab] s t)) ∧
  (s.rd F.LDG_RB_STAT_BUSY = 1 →
    let c := if s.fab.rbWait then s.rbCaptured else s
    let x := c.rbWrite (c.rd64 F.LDG_RB_DST_LO F.LDG_RB_DST_HI) (c.rbRecords s.fab.rbLeft)
    Completes (.readbackDone (s.fab.rbLeft.map Prod.fst)) s (fun t => t.rd F.LDG_RB_STAT_BUSY = 0 ∧ t.rd F.LDG_RB_BYTES = x.2.1 % 2 ^ 32 ∧
      t.rd F.LDG_RB_STAT_RESULT = x.2.2 % 2 ^ 8 ∧ t.fab.rbLeft = [] ∧ t.fab.shadow = [])) ∧
  (s.rd F.LDG_RB_STAT_STOPPED = 1 → exec .readbackResume s = .next s.rbResume) ∧
  (∀ st mem word, s.rd F.SPM_CTL_FAB_SWEEP_EN = 1 → s.lve.pfLow = false → st < 64 →
    bit (s.rd64 F.SPM_FAB_SWEEP_LO F.SPM_FAB_SWEEP_HI) st = true → s.standSt st = 1 → s.memIn st mem = true →
    exec (.fabSweepStep st mem word 1 0) s =
      .next ((s.bump F.LDG_MEM_CE 1 (st / 16)).bump F.SPM_SWEEP_FAILS 0)) ∧
  (∀ st mem word fails, s.rd F.SPM_CTL_FAB_SWEEP_EN = 1 → s.lve.pfLow = false → st < 64 → 2 ≤ fails →
    bit (s.rd64 F.SPM_FAB_SWEEP_LO F.SPM_FAB_SWEEP_HI) st = true → s.standSt st = 1 → s.memIn st mem = true →
    exec (.fabSweepStep st mem word 0 fails) s =
      .next ((s.bump F.SPM_SWEEP_FAILS 2).post E.SPM_FAB_SWEEP_FAIL st (mem % 2 ^ 16 + 2 ^ 16 * (word % 2 ^ 32)))) ∧
  -- R632: the port shows SBITERR for a corrected word and DBITERR for a lost one
  (∀ d mem word p, d < 4 → p < 2 → s.cfg.userOn = true →
    Completes (.userPortRead d mem word { lost := false, port := p }) s (fun t =>
      (t.mport d mem p).sbit = true ∧ (t.mport d mem p).dbit = false ∧
      t.rd F.LDG_MEM_CE d = min (s.rd F.LDG_MEM_CE d + 1) (2 ^ 32 - 1) ∧ Touches [.regs 18, .fab] s t) ∧
    Completes (.userPortRead d mem word { lost := true, port := p }) s (fun t =>
      (t.mport d mem p).sbit = false ∧ (t.mport d mem p).dbit = true ∧
      t.rd F.LDG_MEM_UE d = min (s.rd F.LDG_MEM_UE d + 1) (2 ^ 32 - 1) ∧
      Touches [.regs 17, .regs 18, .fab, .evt, .out, .pci] s t)) ∧
  -- R622: a LUT is one function of its six inputs, or two of the first five
  (∀ w ins out, ins.length = 6 → lutOut w false ins out = bit w (levels ins) ∧
    lutOut w true ins out = bit (bits w (32 * (out % 2)) 32) (levels (ins.take 5))) ∧
  -- R623: while its stand loads a flip-flop keeps its value; an asynchronous reset clears it; without an edge it keeps its value
  (∀ d t c cl k f, k < 16 → f < 2 →
    let cs := cl.sets.getD ((cl.cells.getD k {}).cs.getD f 0) {}
    let now := bit (s.ffWord d t c) (2 * k + f)
    (s.dikesShut (s.standAt d (tileStrip t) (t / 32)) = true → s.ffNext d t c cl k f = now) ∧
    (s.dikesShut (s.standAt d (tileStrip t) (t / 32)) = false → s.polSt (tilePolder d t) < 4 →
      (cs.sync = false → s.val d (tileStrip t) cs.rst = true → s.ffNext d t c cl k f = false) ∧
      (cs.sync = true ∨ s.val d (tileStrip t) cs.rst = false →
        s.setEdge d t c ((cl.cells.getD k {}).cs.getD f 0) cs = false → s.ffNext d t c cl k f = now))) ∧
  -- R638: a result that fits in 64 bits is kept exactly; any other raises OVF, and wraps or saturates
  (∀ v : Int, ∀ sat, -2 ^ 63 ≤ v → v < 2 ^ 63 → sliceOvf v = false ∧ toInt true 64 (sliceFit sat v) = v) ∧
  (∀ v : Int, v < -2 ^ 63 ∨ 2 ^ 63 ≤ v → sliceOvf v = true ∧ ((sliceFit false v : Nat) : Int) = v % 2 ^ 64 ∧
    toInt true 64 (sliceFit true v) = if v < 0 then -2 ^ 63 else 2 ^ 63 - 1) ∧
  -- R639: operands pass the pipeline registers in their order, and reach the accumulator with the last
  (∀ c z x, SliceSt.step c z x = if z.pipe.length + 1 < max 1 c.regs then { z with pipe := z.pipe ++ [x] } else
    { pipe := (z.pipe ++ [x]).drop 1, acc := sliceFit c.saturate (sliceExact c z.acc ((z.pipe ++ [x]).headD (0, 0, 0, 0)))
      ovf := sliceOvf (sliceExact c z.acc ((z.pipe ++ [x]).headD (0, 0, 0, 0))) })

/-- Polders and the part's power states (R725, R728 to R732, R735, R738, Table PWR-2): what a command or the end of a phase does. -/
def Obligations.PolderAndStateSteps : Prop := ∀ s : State, Live s →
  (∀ req p, s.mayWrite req (F.PWR_POL_CMD.off p 0) → 1 ≤ p → p ≤ 80 → s.polSt p = 0 → s.polAllowed p = true →
    exec (.polderDown req p) s = .next (s.polClose p false) ∧ exec (.polderReset req p) s = .next (s.polClose p true)) ∧
  (∀ req p, s.mayWrite req (F.PWR_POL_CMD.off p 0) → 1 ≤ p → p ≤ 80 → s.polSt p = 0 → s.polAllowed p = false →
    exec (.polderDown req p) s = .next ((s.polRefuse p 1).refuseWrite req (F.PWR_POL_CMD.off p 0))) ∧
  (∀ req p, s.mayWrite req (F.PWR_POL_CMD.off p 0) → 1 ≤ p → p ≤ 80 → exec (.polderUp req p) s = .next (s.polUp p)) ∧
  (∀ p, s.polSt p = 1 → Completes (.polderCloseTimeout p) s (fun t => t.polSt p = 2 ∧ Touches [.regs 4] s t)) ∧
  (∀ p, s.polSt p = 2 → s.polInside p = [] → s.polEngines p = [] → exec (.polderDrainEnd p) s = .next (s.polFence p)) ∧
  (∀ p, s.polSt p = 2 → exec (.polderDrainTimeout p) s =
    .next (((s.bump F.PWR_DRAIN_TMOS).post E.PWR_DRAIN_TIMEOUT p (s.polInside p).length).polFence p)) ∧
  (∀ p, s.polSt p = 3 → exec (.polderIsolateDone p) s = .next (let t := (s.polLose p true).put F.PWR_POL_STAT_STATE 4 p
    (t.post E.PWR_POLDER_OFF p ((t.time - (t.polr p).at_) / 1000)).stateStep)) ∧
  (∀ p, s.polSt p = 5 → exec (.polderPowerupDone p) s = .next (s.polPowered p)) ∧
  (∀ p, s.polSt p = 6 → p ≠ 76 → ¬ (69 ≤ p ∧ p ≤ 72) → exec (.polderResetDone p) s = .next
    (((polLanes p).foldl State.laneOn ((s.polLose p false).put F.PWR_POL_STAT_STATE 0 p)).updPol p (fun _ => {}))) ∧
  -- R741: the link crypto takes the current epoch; R727: a bank takes waiting codewords again
  (s.polSt 76 = 6 → exec (.polderResetDone 76) s = .next
    ((((s.polLose 76 false).put F.PWR_POL_STAT_STATE 0 76).takeEpoch 7).updPol 76 (fun _ => {}))) ∧
  (∀ p, 69 ≤ p ∧ p ≤ 72 → s.polSt p = 6 → exec (.polderResetDone p) s = .next
    ((((s.polLose p false).put F.PWR_POL_STAT_STATE 0 p).feed).updPol p (fun _ => {}))) ∧
  (∀ x i, x ≠ 4 → Completes (.crossingReopen x i) s (fun t => t.pwr.fences.contains (x, i) = false ∧
    (∀ y, y ≠ (x, i) → t.pwr.fences.contains y = s.pwr.fences.contains y) ∧ Touches [.pwr] s t)) ∧
  (∀ req, s.mayWrite req (F.PWR_STATE_CMD_TARGET.off 0 0) → s.rd F.PWR_STAT_CHANGING = 0 →
    exec (.stateRun req) s = .next (s.toState 0) ∧
    (s.ownsGroup = false → s.bst 0 = 0 → s.bst 1 = 0 → s.lve.pfLow = false →
      exec (.stateSleep req) s = .next (s.toState 1) ∧ exec (.stateDeep req) s = .next (s.toState 2))) ∧
  (∀ src, src < 4 → bit (s.rd F.PWR_WAKE_MASK) src = true → s.rd F.PWR_STAT_PSTATE ≠ 0 → s.rd F.PWR_STAT_CHANGING = 0 →
    exec (.systemWake src) s = .next ((s.bump F.PWR_WAKES).toState 0)) ∧
  -- R738: a ratchet by one is taken; any other value is refused
  (∀ req v, s.mayWrite req (F.GLB_EPOCH_NEXT.off 0 0) → s.rd F.GLB_EPOCH_SETTLED = 1 →
    v = (s.rd F.GLB_EPOCH_NEXT + 1) % 2 ^ 32 →
    Completes (.epochRatchet req v) s (fun t => t.rd F.GLB_EPOCH_NEXT = v ∧ t.rd F.GLB_EPOCH_SETTLED = 0 ∧
      t.pwr.ratchetAt = s.time ∧ Touches [.regs 0, .pwr] s t)) ∧
  (∀ req v, s.mayWrite req (F.GLB_EPOCH_NEXT.off 0 0) →
    s.rd F.GLB_EPOCH_SETTLED = 0 ∨ v ≠ (s.rd F.GLB_EPOCH_NEXT + 1) % 2 ^ 32 →
    exec (.epochRatchet req v) s = .next (s.refuseWrite req (F.GLB_EPOCH_NEXT.off 0 0)))

/-- The groups of media channels (R327 to R332, R334, Table MED-11): claims, arbitration, forced claims, release and the keepers. -/
def Obligations.GroupOwnership : Prop := ∀ s : State, Live s → ∀ g : Nat, g < 16 →
  (∀ req, s.mayWrite req (F.MED_GRP_CMD.off (g / 8) (g % 8)) → exec (.claim req g) s = .next (s.claimOp req g)) ∧
  (s.gst g = 0 → s.drives g = false → (s.grp g).claimPend = false →
    exec (.mgOwnWireLow g true) s = .next ((s.updGrp g (fun x => { x with otherLow := true })).setGst g 1)) ∧
  (s.gst g = 2 → exec (.mgOwnWireLow g true) s = .next ((s.updGrp g (fun x => { x with otherLow := true })).arbStart g)) ∧
  (s.gst g = 7 → exec (.mgOwnWireHigh g) s = .next ((s.updGrp g (fun x => { x with otherLow := false })).setGst g 2)) ∧
  (s.gst g ≠ 7 → exec (.mgOwnWireHigh g) s = .next (s.updGrp g (fun x => { x with otherLow := false }))) ∧
  ((s.grp g).otherLow = false → s.drives g = false →
    (s.gst g = 1 → exec (.mgOwnQuietTimer g) s = .next ((s.setGst g 0).claimDue g)) ∧
    (s.gst g = 2 → exec (.mgOwnQuietTimer g) s = .next (s.arbStart g))) ∧
  (∀ low, s.gst g = 3 → (s.grp g).slot < 64 →
    let one := bit s.fuses.dieId (63 - (s.grp g).slot)
    let t := s.drive g (!one)
    exec (.arbitrationSlot g low) s = .next (if one = true ∧ low = true then
      (((t.setGst g 1).updGrp g (fun x => { x with otherLow := true })).bump F.MED_ARB_LOST 1 (g / 8)).post
        (E.MED_OWN_LOST_ARB (g / 8)) g
      else t.updGrp g (fun x => { x with slot := x.slot + 1 }))) ∧
  (s.gst g = 3 → (s.grp g).slot = 64 →
    exec (.arbitrationComplete g) s =
      .next (((s.setGst g 4).drive g true).updGrp g (fun x => { x with enablePend := true, otherLow := false }))) ∧
  (s.gst g = 4 → s.drives g = true → (s.grp g).enablePend = true →
    exec (.driverEnableDelay g) s = .next ((s.updGrp g (fun x => { x with enablePend := false })).driversOn g)) ∧
  (s.gst g = 7 → (s.grp g).otherLow = true →
    exec (.forceWaitExpires g) s = .next ((((((s.setGst g 4).drive g true).put F.MED_GRP_STAT_FORCED 1 (g / 8) (g % 8)).bump
      F.MED_FORCED_CLAIMS 1 (g / 8)).post (E.MED_OWN_FORCED (g / 8)) g).driversOn g)) ∧
  (s.gst g = 4 ∨ s.gst g = 5 →
    exec (.ownWireFault g) s = .next (((((s.driversOff g).setGst g 8).drive g false).updGrp g
      (fun x => { x with otherLow := false })).post (E.MED_OWN_WIRE_FAULT (g / 8)) g)) ∧
  (∀ req, s.mayWrite req (F.MED_GRP_CMD.off (g / 8) (g % 8)) → exec (.release req g) s = .next (s.releaseOp req g)) ∧
  (s.gst g = 6 → s.groupQuiet g = true → exec (.groupDrainEnd g) s = .next (s.drainDone g)) ∧
  (s.gst g = 6 → exec (.groupDrainTimeout g) s = .next ((s.drainCut g).drainDone g)) ∧
  (s.gst g = 0 → (s.grp g).releasing = true → (s.grp g).claimPend = false →
    let t := (s.drive g false).updGrp g (fun x => { x with releasing := false, claimPend := false })
    exec (.wireReleaseDelay g) s = .next (if (s.grp g).otherLow = true then t.setGst g 1 else t)) ∧
  (∀ d, d < 2 → s.rd F.MED_STAT_KEEPER d = 1 → exec (.keeperTrip d) s = .next (s.keeperStop d 3))

/-- LUNs and reads of the media engine (R311 to R316, R346, R348, R364, R365, R443). -/
def Obligations.LunAndReadSteps : Prop := ∀ s : State, Live s →
  -- an idle LUN takes the read that its window puts first
  (∀ ch u o raw, s.owned (grpOf ch) = true → s.rd F.MED_CH_STAT_STATE (dieOf ch) (ch % 128) = 1 → s.lunSt ch u = 2 →
    s.nextOp (s.lun ch u).window (fun _ => true) = some o → o.kind = .read → s.rd F.MED_CTL_CACHE_EN (dieOf ch) = 0 →
    exec (.lunIssue ch u false raw) s = .next ((s.put F.MED_LUN_STAT_SUSPS 0 (dieOf ch) (lunJ ch u)).runOps ch u [o] 3)) ∧
  -- a running program or erase is suspended for a waiting read
  (∀ ch u o l, (s.lun ch u).cur = o :: l → s.lunSt ch u = 5 → s.rd F.MED_CTL_SUSP_EN (dieOf ch) = 1 → s.lve.pfLow = false →
    s.owned (grpOf ch) = true → s.suspRead ch u = true →
    10000 * s.rd F.MED_SUSP_TIME_MIN_RUN_ERASE (dieOf ch) ≤ o.ran + (s.time - o.resumed) → o.susps = 0 →
    0 < s.rd F.MED_SUSP_CFG_MAX_ERASE (dieOf ch) →
    exec (.suspend ch u) s = .next (s.putLunSt ch u 6)) ∧
  (∀ ch u, s.rd F.MED_CTL_SUSP_EN (dieOf ch) = 0 → exec (.operationResume ch u) s = .next (s.lunResume ch u)) ∧
  (∀ ch u fail susp raw, exec (.lunStatusReady ch u fail susp raw) s = .next (s.lunReady ch u fail susp raw).rawFlush) ∧
  (∀ ch u, s.lunSt ch u = 3 → 1 ≤ s.rd F.MED_LUN_STAT_TMOS (dieOf ch) (lunJ ch u) →
    let a := match (s.lun ch u).cur with
      | o :: _ => o.addr
      | [] => mkMaddr ch (u / 4) (u % 4) 0 0 0 0
    exec (.lunTimeout ch u) s = .next (((((s.put F.MED_LUN_STAT_TMOS
      (min 3 (s.rd F.MED_LUN_STAT_TMOS (dieOf ch) (lunJ ch u) + 1)) (dieOf ch) (lunJ ch u)).post
      (E.MED_LUN_TIMEOUT (dieOf ch)) ch a).fellLun ch u 4).placeAll).rawFlush)) ∧
  (∀ id step e r, s.med.reads.find? (fun r => r.op.id == id && r.op.step == step && r.stage == 0) = some r →
    s.rd F.MED_CH_STAT_STATE (dieOf (maCh r.op.addr)) (maCh r.op.addr % 128) = 1 → s.busFirst r = true →
    r.op.undercut = none → (s.transferred (maCh r.op.addr) e.pattern).predicted r.op e.weight = false →
    let u := s.transferred (maCh r.op.addr) e.pattern
    let o : Op := { r.op with pred := false, ran := s.time - r.op.issued }
    (r.op.sense = 0 → Completes (.busTransferDone id step e) s (fun t => t = State.feed { u with med.reads := u.med.reads.map (fun x =>
      if x = r then { op := o, stage := 1 } else x) } ∧ Touches [.med] s t)) ∧
    (r.op.sense ≠ 0 → exec (.busTransferDone id step e) s =
      .next ({ u with med.reads := u.med.reads.filter (fun x => x ≠ r) }.senseNext o).feed)) ∧
  (∀ id res rd, s.feed.med.reads.find? (fun r => r.op.id == id && r.stage == 2 && s.feed.inDecoders r) = some rd →
    let o := rd.op
    let felled := s.feed.lunSt (maCh o.addr) (uOf o.addr) == 15 || s.feed.chFelled (maCh o.addr)
    let l := o.secs.map (fun x => (res.find? (fun r => r.sec == x)).getD { sec := x, out := .lost })
    let t := (s.feed.dropRead rd).bump F.MED_CRC_MISCORRECT ((res.filter (fun r => r.crc && o.secs.contains r.sec)).length)
      (dieOf (maCh o.addr))
    exec (.softDecodeDone id res) s = .next
      ((((l.foldl (fun s r => s.softSector o felled r) t).refreshAt o.addr).deliver o l).readEnd o).feed) ∧
  (∀ st, s.rd F.MED_REL_CTL_PATROL_EN (st / 2 ^ 24 / 8) = 1 → s.lve.pfLow = false → s.stripeOwned (st / 2 ^ 24) = true →
    (s.stripe st).st = .closed →
    exec (.patrolVisit st false) s = .next (((s.patrolAsk st).patrolAge st).patrolWear st)) ∧
  (∀ req d v, d < 2 → v < 2 ^ 32 → s.mayWrite req (F.MED_HOURS.off d 0) →
    exec (.medHoursWrite req d v) s = .next (s.hoursWrite req d v)) ∧
  (∀ d, d < 2 → Completes (.medHoursTick d) s (fun t => t.rd F.MED_HOURS d = (s.rd F.MED_HOURS d + 1) % 2 ^ 32 ∧
    Touches [.regs 9] s t))

/-- A hard decode that succeeds, and the channels' own timers (R307, R346, R350, R443 to R445, R448). -/
def Obligations.DecodeAndChannelSteps : Prop := ∀ s : State, Live s →
  (∀ id step res rd, s.feed.med.reads.find?
      (fun r => r.op.id == id && r.op.step == step && r.stage == 1 && s.feed.inDecoders r) = some rd →
    let o := rd.op
    let d := dieOf (maCh o.addr)
    let good := o.secs.filterMap (fun x => res.find? (fun r => r.sec == x && decide (r.out = .good) && !r.crc))
    let t := (s.feed.dropRead rd).bump F.MED_CRC_MISCORRECT ((res.filter (fun r => r.crc && o.secs.contains r.sec)).length) d
    let u := (good.foldl (fun s r => s.decoded o r) t).deliver o good
    let bad := o.secs.filter (fun x => (res.find? (fun r => r.sec == x && decide (r.out = .good) && !r.crc)).isNone)
    (bad ≠ [] → exec (.hardDecodeDone id step res) s = .next (u.ladderNext (o.weighed res bad) bad).feed) ∧
    (bad = [] → exec (.hardDecodeDone id step res) s = .next (
      let v := (u.bump F.MED_LADDER_HIST 1 d step).cancelUndercuts (fun x => x.id == id)
      (if v.rd F.MED_REFRESH_CFG_REFRESH_STEP d ≤ step then v.refreshAt o.addr else v).readEnd o).feed)) ∧
  (∀ ch auto ok, s.owned (grpOf ch) = true → s.rd F.MED_CH_STAT_STATE (dieOf ch) (ch % 128) = 1 → auto = true ∨ (s.chan ch).retrain = true →
    exec (.channelRetrain ch auto ok) s = .next (((s.bump F.MED_CH_RETRAINS 1 (dieOf ch) (ch % 128)).updChan ch
      (fun c => { c with retrain := false })).trainEnd ch ok)) ∧
  (∀ d, s.rd F.MED_ZQ_CFG_SHORT_MS (d % 2) ≠ 0 →
    Completes (.zqShortTimer d) s (fun t => t.out = s.out ++ ((((List.range 128).map (· + 128 * (d % 2))).filter (fun ch =>
      s.owned (grpOf ch) && s.rd F.MED_CH_STAT_STATE (dieOf ch) (ch % 128) == 1)).flatMap (fun ch =>
        ((List.range 16).filter (fun v => (List.range 4).any (fun i => s.populated ch (4 * v + i)))).map
          (fun v => Out.nand ch v 0xD9))) ∧ Touches [.out] s t)) ∧
  (∀ ch v c, s.owned (grpOf ch) = true → s.ringT ch 0x006 1 ≠ 0 → s.rd F.MED_CH_STAT_STATE (dieOf ch) (ch % 128) = 1 →
    exec (.nandTemperatureRead ch v c) s = .next (s.setTemp ch v c)) ∧
  (s.lve.pfLow = false →
    (∀ n t, s.task n = some t → t.st = .backoff → exec (.retryBackoffExpires (.task n)) s = .next (s.toReady n)) ∧
    (∀ id step, exec (.retryBackoffExpires (.media id step)) s = .next (s.retryOp id step).placeAll.rawFlush) ∧
    (∀ ch ok, (s.chan ch).backoff = true → exec (.retryBackoffExpires (.channel ch ok)) s =
      .next ((s.bump F.MED_CH_RETRAINS 1 (dieOf ch) (ch % 128)).trainEnd ch ok)) ∧
    (∀ k p, s.pkt k = some p → p.backoff = true → s.routeHeld p.req.src p.dst = false →
      exec (.retryBackoffExpires (.skidway k)) s = .next ((s.bump F.NOC_RETRIES).launch k p)))

/-- Death of the partner, takeover, rebuild and hand-back (R230, R233, R418, R421, R422, R424 to R426, R432 to R434,
Table LVE-1). -/
def Obligations.TakeoverAndHandback : Prop := ∀ s : State, Live s →
  -- R418: the partner is declared dead
  (s.mayDeclare = true → s.rd F.LVE_STAT_WIRE_ALIVE = 0 → s.lve.leaving = true → exec .deathDeclared s = .next s.takeover) ∧
  (s.mayDeclare = true → s.rd F.LVE_STAT_WIRE_ALIVE = 0 → s.rd F.LVE_STAT_LINK_ALIVE = 0 → s.lve.wireSeen = true →
    exec .deathDeclared s = .next s.takeover) ∧
  -- R418: neither signal of a partner was ever seen
  (s.mayDeclare = true → s.rd F.LVE_ORPHAN ≠ 0 → s.lve.wireSeen = false → s.lve.everActive = false →
    exec .orphanTimeout s = .next s.takeover) ∧
  -- R422: a takeover is withdrawn
  (s.pair = 4 → s.rd F.LVE_CTL_FORCE_EN = 0 → s.lowGroups ≠ 0 →
    exec .takeoverWithdraw s = .next ((((groupsOf s.lve.tkGroups).foldl State.unclaim s).dropForeign.putPair 1).post
      E.LVE_TAKEOVER_ABORTED s.lowGroups)) ∧
  (∀ g b, g < 16 → s.gst g = 4 → (s.grp g).enablePend = false → s.polSt (33 + g) = 0 →
    exec (.groupBringupDone g b) s = .next (s.groupUp g b).takeoverStep) ∧
  (∀ r, s.pair = 4 → s.lve.mapStep = true → s.lve.replaying = false →
    exec (.foreignMapUsable r) s = .next (s.foreignMap r)) ∧
  (s.lve.replaying = true → s.replayDirty = false →
    exec .foreignReplayDone s = .next s.replayOver) ∧
  (∀ r, s.rd F.TLY_STAT_REBUILD = 1 → s.homesHere = true → exec (.rebuildDone r) s = .next (s.rebuilt r)) ∧
  (s.ckptWritten = true → exec (.checkpointEnd (s.tly.rootAt.getD (b2n s.tly.ckForeign) 0)) s = .next s.ckptEnded) ∧
  -- R433: a hand-back starts where the part is PAIRED and holds foreign groups; elsewhere the write is refused
  (∀ req, s.mayWrite req (F.LVE_HANDBACK.off 0 0) → s.pair = 3 → s.lve.foreign ≠ 0 →
    exec (.handbackStart req 1) s = .next s.handbackBegin) ∧
  (∀ req v, s.mayWrite req (F.LVE_HANDBACK.off 0 0) → v ≠ 1 ∨ s.pair ≠ 3 ∨ s.lve.foreign = 0 →
    exec (.handbackStart req v) s = .next (s.refuseWrite req (F.LVE_HANDBACK.off 0 0))) ∧
  (s.pair = 6 → s.lve.hbStage = 2 → s.foreignDirty = false →
    exec .handbackDestageDone s = .next (State.handbackCkpt { s with lve.hbStage := 3 }))

/-- The heartbeat wire, the link and the end of training (R82, R415, R417, R420, Table LVE-1). -/
def Obligations.PartnerSignals : Prop := ∀ s : State, Live s →
  (s.keepersOn = true → Completes .partnerAliveOutToggle s (fun t => t.lve = { s.lve with aliveOut := !s.lve.aliveOut } ∧
    Touches [.lve] s t)) ∧
  (s.cfg.done = true → s.lve.linkDead = false → Completes .partnerAliveEdge s (fun t =>
    t.rd F.LVE_STAT_WIRE_ALIVE = 1 ∧ t.lve = { s.lve with wireSeen := true })) ∧
  (s.rd F.LVE_STAT_WIRE_ALIVE = 1 → Completes .wireSilent s (fun t => t.rd F.LVE_STAT_WIRE_ALIVE = 0 ∧
    t.pair = s.pair ∧ t.lve = s.lve ∧ (s.rd F.LVE_STAT_LINK_ALIVE = 0 → t.out = s.out) ∧
    Touches [.regs 11, .regs 17, .evt, .out, .pci] s t)) ∧
  (s.cfg.done = true → s.lve.linkDead = false → s.rd F.LVE_STAT_WIRE_ALIVE = 0 → s.pair ≠ 6 →
    Completes .linkSilent s (fun t => t.rd F.LVE_STAT_LINK_ALIVE = 0 ∧ t.pair = s.pair ∧
      t.lve = { s.lve with linkDead := true })) ∧
  (s.cfg.done = true → s.lve.linkDead = false → s.rd F.LVE_STAT_WIRE_ALIVE = 1 → s.lve.stopped = false →
    exec .linkSilent s = .next (State.put { s with lve.linkDead := true } F.LVE_STAT_LINK_ALIVE 0).linkLost) ∧
  (s.cfg.done = true → s.pair = 0 → s.anyActive = false → Completes .trainingTimeout s (fun t => t.pair = 1 ∧
    Touches [.regs 11, .regs 17, .evt, .out, .pci] s t))

/-- Power failure (R385, R435, R436, R438, R448). The pin's two edges change the state of a dark part too. -/
def Obligations.PowerFailure : Prop := ∀ s : State, Live s →
  (s.lve.pfLow = false → exec .pfailNFall s = .next (State.pfailCut { s with lve.pfLow := true })) ∧
  (s.lve.pfLow = true → s.lve.pfTaken = false → exec .pfailDetected s = .next (State.sendAll { s with
    lve.pfTaken := true, lve.pfHold := true, lve.pfWait := true, lve.pfSaved := false } .pfail)) ∧
  (s.lve.pfWait = true → exec .pfailAckTimeout s = .next s.pfailHeld) ∧
  (s.lve.pfSave = true → (∀ e ∈ s.med.luns, ∀ o ∈ e.2.cur, o.kind ≠ .prog) → exec .refugeSave s = .next s.refugeSaved) ∧
  Completes .pfailNRise s (fun t => t.lve = { s.lve with pfLow := false } ∧ Touches [.lve] s t) ∧
  (s.lve.pfLow = false → s.lve.pfTaken = true → s.lve.pfSaved = true → exec .fetchResume s =
    .next (s.med.parked.foldl State.enqueue { s with
      lve.pfTaken := false, lve.pfHold := false, lve.pfSaved := false, med.parked := [] }))

/-- The bundles of the Levee (R394 to R396, R401, R402, R429, Table LVE-2): each hypothesis names the state the step acts in. -/
def Obligations.BundleStates : Prop := ∀ s : State, Live s → ∀ b : Nat, b < 2 →
  (∀ req v, s.mayWrite req (F.LVE_CTL_BUNDLE_EN.off 0 0) → exec (.bundleEnableWrite req v) s = .next (s.bundleEn v)) ∧
  (s.bst b = 1 → exec (.bundleDetectTimeout b) s = .next (s.bundleFall b)) ∧
  (s.bst b = 2 → (bundleLanes b).all s.laneSettled = true → Completes (.bundleEqualiseEnd b false) s (fun t =>
    t.bst b = 3 ∧ Touches [.regs 11, .lve] s t ∧ t.lve.bnds = Map.upd {} s.lve.bnds b (fun x => { x with locked := s.lockedLanes b }))) ∧
  -- R393: the bundle runs at the lower of the two parts' rates
  (∀ rev r, s.bst b = 3 → (widthOf (s.bnd b).locked).1 ≠ 0 → exec (.bundleAlignDone b rev (some r)) s =
    .next ((((s.flag F.LVE_BUNDLE_STAT_REVERSED rev b).putRate b r).putWidth b (widthOf (s.bnd b).locked)).put
      F.LVE_BUNDLE_STAT_STATE 4 b)) ∧
  (∀ rev found, s.bst b = 3 → found = none ∨ (widthOf (s.bnd b).locked).1 = 0 → exec (.bundleAlignDone b rev found) s =
    .next (((s.flag F.LVE_BUNDLE_STAT_REVERSED rev b).bundleFall b).post E.LVE_BUNDLE_DOWN b)) ∧
  (∀ i, s.bst b = 4 →
    let t := s.put64 F.LVE_PARTNER_ID_LO F.LVE_PARTNER_ID_HI i.dieId
    let u := t.put F.LVE_STAT_REFUSE (t.refusal i)
    exec (.ident b i) s = .next (if t.refusal i ≠ 0 then (u.bundleFall b).post E.LVE_PAIR_REFUSED (t.refusal i) i.dieId
      else u.identified b i)) ∧
  (s.bst b = 5 →
    ((s.bnd b).cert = false → ∀ c : LinkCert,
      (c.dieId = s.partnerId → exec (.cert b { cert := c, ok := true }) s = .next (s.updBnd b (fun x => { x with cert := true, pCert := c }))) ∧
      (c.dieId ≠ s.partnerId → exec (.cert b { cert := c, ok := true }) s = .next (s.keyFail b 0)) ∧
      exec (.cert b { cert := c, ok := false }) s = .next (s.keyFail b 0)) ∧
    ((s.bnd b).cert = true → (s.bnd b).share = false → ∀ p : LinkShare,
      exec (.share b p) s = .next (if onCurve (p.x, p.y) = true then (s.updBnd b (fun x => { x with
          share := true, pShare := p, eph := s.freeNat, rnd := s.drawn.freeNat % 2 ^ 128 })).draws 2
        else s.keyFail b 1)) ∧
    ((s.bnd b).share = true → ∀ r sg time, exec (.finish b r sg time) s = .next
      (if s.finishOk b r sg = true then
         (if s.anyActive = true then (s.keyed b).pumpAll.rsCheck else ((s.keyed b).pairUp time).pumpAll.rsCheck)
       else s.keyFail b 2)) ∧
    exec (.keyTimeout b) s = .next (s.keyFail b 3)) ∧
  (∀ req, s.mayWrite req (F.LVE_BUNDLE_CTL_RETRAIN.off b 0) → exec (.bundleRetrain req b) s = .next (s.bundleRetrain b)) ∧
  (s.bst b = 7 →
    exec (.bundleRetrainTimeout b) s = .next (s.bundleFall b) ∧
    ∀ rev, (widthOf (s.lockedLanes b)).1 ≠ 0 →
      let t := (((s.putRate b (s.bnd b).pRate).putWidth b (widthOf (s.lockedLanes b))).flag F.LVE_BUNDLE_STAT_REVERSED rev b).put F.LVE_BUNDLE_STAT_STATE 6 b
      let u := (t.keyUpdate b).updBnd b (fun x => { x with slotAt := t.time, unacked := x.unacked.map (fun e => { e with sends := 0 }) })
      exec (.bundleRetrainDone b rev) s = .next (if (u.bnd b).unacked = [] then u.pumpAll.rsCheck
        else (u.resend b).pumpAll.rsCheck)) ∧
  (s.active b = true →
    exec (.linkKeyUpdate b) s = .next (s.keyUpdate b) ∧
    (∀ f : FlitIn, f.lost = false → f.mac = true → f.corr = false → exec (.flitReceive b f) s = .next (s.flitIn b f)) ∧
    (∀ f : FlitIn, f.lost = true → exec (.flitReceive b f) s = .next
      ((((s.macWindow b).bump F.LVE_FEC_LOST 1 b).updBnd b (fun x => { x with fecs := x.fecs + 1 })).nakOnce b)) ∧
    (∀ e l, (s.bnd b).unacked = e :: l → exec (.replayTimer b) s =
      .next (if 5 ≤ e.sends then s.bundleRetrain b else s.resend b)) ∧
    ((s.bnd b).nak = true → exec (.nakRepeatTimer b) s = .next (s.updBnd b (fun x => { x with naks := x.naks + 1 })))) ∧
  (bit (s.rd F.LVE_CTL_BUNDLE_EN) b = true → s.lve.stopped = false → s.pair = 1 → s.rd F.LVE_CTL_PROBE_EN = 1 →
    exec (.probeDue b) s = .next (s.bundleStart b true)) ∧
  ((s.bnd b).probe = true → s.active b = false → exec (.probeGivesUp b) s = .next (s.bundleFall b))

/-- The messages of the partner (R407, R410 to R414, R416, R419, R430, R433, R437, R460, Table LVE-5): a part with an
ACTIVE bundle that has not stopped takes each of them. -/
def Obligations.PartnerMessages : Prop := ∀ s : State, Live s → s.anyActive = true → s.lve.stopped = false →
  -- R412: an IU not yet held becomes a foreign line, and is acknowledged; R410: one already held changes nothing
  (∀ q t kid iu sec off data rs, Map.get none s.tly.flines q = none →
    let l : Line := { tract := t % 4096, iu := iu, kid := kid, data := data, bytes := 4096 * (sec / 16 % 16 + 1),
                      off := off, mirrored := true, acked := true }
    exec (.mirrorWrite q t kid iu { sec := sec, off := off } data rs false) s =
      .next ((State.sealBuf { s with tly.flines := Map.set none s.tly.flines q (some l) } 1 l data).send (.mirrorAck [q]))) ∧
  (∀ q t kid iu p data rs l, Map.get none s.tly.flines q = some l →
    exec (.mirrorWrite q t kid iu p data rs false) s = .next (s.send (.mirrorAck [q]))) ∧
  (∀ qs, exec (.mirrorAck qs) s = .next (qs.foldl State.mirrored1 s).settleAll) ∧
  (∀ q recs, exec (.journal q recs false) s =
    .next ((s.journalIn q recs).send (.journalAck (s.journalIn q recs).tly.mAck))) ∧
  (∀ q, exec (.journalAck q) s = .next
    (State.journalMirrored { s with tly.jMir := max s.tly.jMir (min q (s.jseq - 1)) }).rsCheck) ∧
  (∀ qs, exec (.lineRelease qs) s = .next (State.sendList { s with
      tly.flines := qs.foldl Map.erase s.tly.flines, tly.rlines := qs.foldl Map.erase s.tly.rlines } .releaseAck qs)) ∧
  (∀ qs, exec (.releaseAck qs) s = .next ((qs.filter (fun b => s.tly.releasing.contains b)).foldl State.lineDone s).settleAll) ∧
  (∀ time pair groups pf limit dirty, s.rd F.LVE_STAT_ROLE = 0 → s.pair ≠ 6 →
    Completes (.heartbeat time pair groups pf limit dirty) s (fun t => t.rd F.LVE_STAT_LINK_ALIVE = 1 ∧ t.time = s.time ∧
      t.lve = { s.lve with linkSeen := true, linkDead := false, pPair := pair, pGroups := groups, pPfail := pf,
                           pLimit := limit, pDirty := dirty })) ∧
  (∀ r, Completes (.leaving r) s (fun t => t.lve = { s.lve with leaving := true })) ∧
  Completes .pfail s (fun t => t.rd F.LVE_STAT_PFAIL_RX = 1 ∧ Touches [.regs 11] s t) ∧
  (∀ q j, s.pair = 2 → exec (.resyncDone q j) s = .next (State.pairedCheck { s with lve.rsRcvd := true })) ∧
  (∀ g, Completes (.handbackReq g) s (fun t => t.lve = { s.lve with joining := g % 65536 })) ∧
  (∀ g, exec (.handbackGrant g) s = .next ((groupsOf g).foldl (fun s g =>
    State.claimDue { s with lve.claims := setBits s.lve.claims g 1 1 } g) s)) ∧
  (∀ q l, Map.get none s.tly.flines q = some l → l.lost = false →
    exec (.healReq q) s = .next (s.send (.healData q l.data))) ∧
  (∀ q data l n, s.line q = some l → l.healing = true → s.lve.heals.find? (fun x => x.1 == q) = some (q, n) →
    let t := s.updLine q (fun l => { l with healing := false, data := data, healed := !l.dark.isEmpty })
    let u : State := { t with lve.heals := t.lve.heals.filter (fun x => x.1 ≠ q) }
    exec (.healData q data) s = .next ((u.hbmLine (n * 64) 255 true 64 (u.lineData n) {}).1.bump F.CRY_HEALS)) ∧
  (∀ q, s.lve.heals.any (fun x => x.1 == q) = true → exec (.healTimeout q) s = .next
    (State.healLost { s with lve.heals := s.lve.heals.filter (fun x => x.1 ≠ q) } q)) ∧
  Completes .unknownMessage s (fun t => t.rd F.LVE_MSG_UNKNOWN = min (s.rd F.LVE_MSG_UNKNOWN + 1) (2 ^ 32 - 1) ∧
    Touches [.regs 11] s t) ∧
  (s.keepersOn = true → exec .heartbeatSend s = .next (s.sendAll
    (.heartbeat s.time s.pair s.heldMask s.lve.pfLow s.dirtyEff (s.dirtyBytes / 2 ^ 20))))

/-- Bring-up, training, signal loss and return of one lane (R752, R753, R756 to R763, Tables SDS-2 and SDS-3). -/
def Obligations.LaneBringUp : Prop := ∀ s : State, Live s → ∀ l : Nat,
  -- R758: the partner's termination is found, and the lane goes from DETECT to SIGNAL; without it nothing but PARTNER
  (s.laneSt l = 1 → exec (.laneDetectPoll l true) s = .next ((((s.put F.SDS_LANE_STAT_PARTNER 1 l).laneSignal l).updLane l
    (fun x => { x with pattern := decide (1000000 < s.time - (s.lane l).elecAt) })).bundleSeen l)) ∧
  (s.laneSt l = 1 → Completes (.laneDetectPoll l false) s (fun t =>
    t.rd F.SDS_LANE_STAT_PARTNER l = 0 ∧ t.laneSt l = 1 ∧ Touches [.regs 15, .lanes, .regs 11] s t)) ∧
  exec (.idlePatternEnd l) s = .next (s.updLane l (fun x => { x with pattern := false })) ∧
  (s.laneSt l = 2 → exec (.laneSignalPresent l) s = .next ((s.put F.SDS_LANE_STAT_SIGNAL 1 l).laneAttempt l)) ∧
  (s.laneSt l = 2 → Completes (.partnerTerminationLost l) s (fun t =>
    t.laneSt l = 1 ∧ t.rd F.SDS_LANE_STAT_PARTNER l = 0 ∧ Touches [.regs 15, .lanes] s t)) ∧
  (s.laneSt l = 3 → Completes (.laneAcquired l) s (fun t =>
    t.laneSt l = (if s.laneTrains l then 4 else 5) ∧ Touches [.regs 15] s t)) ∧
  -- R760, R761: both ends are ready, and the lane is ACTIVE with its count of failures at 0
  (∀ control status ready, s.laneSt l = 4 → (s.lane l).own = true ∨ ready = true →
    (s.lane l).partner = true ∨ bit status 2 = true → Completes (.laneTrainingFrame l control status ready) s (fun t =>
      t.laneSt l = 5 ∧ t.rd F.SDS_LANE_STAT_FAILS l = 0 ∧ Touches [.regs 15, .lanes] s t)) ∧
  (∀ control status ready, s.laneSt l = 4 →
    let r := s.tapRequest l control
    let t := r.1.updLane l (fun x =>
      { x with result := r.2, own := x.own || ready, partner := x.partner || bit status 2 })
    (t.lane l).own = false ∨ (t.lane l).partner = false → exec (.laneTrainingFrame l control status ready) s = .next t) ∧
  -- R762: an attempt that ends without the own receiver ready is a failure, and the lane is felled at FAIL_LIMIT
  (s.laneSt l = 3 → exec (.laneAttemptTimeout l) s = .next ((s.laneSignal l).laneFail l)) ∧
  (s.laneSt l = 4 → (s.lane l).own = true → exec (.laneAttemptTimeout l) s = .next (s.laneSignal l)) ∧
  (s.laneSt l = 3 ∨ s.laneSt l = 4 → Completes (.laneSignalAbsent l) s (fun t =>
    t.laneSt l = 1 ∧ t.rd F.SDS_LANE_STAT_SIGNAL l = 0 ∧ t.rd F.SDS_LANE_STAT_FAILS l = s.rd F.SDS_LANE_STAT_FAILS l ∧
    Touches [.regs 15, .lanes] s t)) ∧
  (s.laneSt l = 5 → exec (.laneLockLost l) s =
    .next (((s.laneAttempt l).bump F.SDS_LANE_LOCK_LOSS 1 l).post E.SDS_LOCK_LOST l)) ∧
  -- R756: a lane without signal is IDLE with its adaptation frozen, and adapts again only after more than 1 ms
  (s.laneSt l = 5 → Completes (.laneSignalLoss l) s (fun t =>
    t.laneSt l = 6 ∧ t.rd F.SDS_LANE_STAT_SIGNAL l = 0 ∧ t.rd F.SDS_LANE_STAT_FROZEN l = 1 ∧
    t.lanes = (s.updLane l (fun x => { x with idleAt := s.time })).lanes ∧
    Touches [.regs 15, .lanes] s t)) ∧
  (s.laneSt l = 6 → Completes (.laneSignalReturn l) s (fun t =>
    t.rd F.SDS_LANE_STAT_SIGNAL l = 1 ∧ t.laneSt l = (if s.time - (s.lane l).idleAt ≤ 1000000 then 5 else 7) ∧
    Touches [.regs 15] s t)) ∧
  (s.laneSt l = 7 → Completes (.laneReadaptDone l) s (fun t => t.laneSt l = 5 ∧ Touches [.regs 15] s t))

/-- Adaptation, retraining, quad references, PCS reports, PRBS and coefficients (R747, R752 to R755, R763, R766, R773, R776, R777). -/
def Obligations.LaneServices : Prop := ∀ s : State, Live s →
  -- R755: a window that is not balanced freezes adaptation, and keeps the moment from which it has been frozen
  (∀ l w, s.laneSt l = 3 ∨ s.laneSt l = 4 ∨ s.laneSt l = 5 → s.balanced w (decide (3400 ≤ (s.lane l).rate)) = false →
    Completes (.adaptWindow l w) s (fun t =>
      t.rd F.SDS_LANE_STAT_FROZEN l = 1 ∧ t.laneSt l = s.laneSt l ∧ t.rd F.SDS_LANE_RX_CTLE l = s.rd F.SDS_LANE_RX_CTLE l ∧
      t.lanes = (s.updLane l (fun x => { x with frozenAt := some ((s.lane l).frozenAt.getD s.time) })).lanes ∧
      Touches [.regs 15, .lanes] s t)) ∧
  -- R754: a balanced window adapts the receiver
  (∀ l w, s.laneSt l = 3 ∨ s.laneSt l = 4 ∨ s.laneSt l = 5 → s.balanced w (decide (3400 ≤ (s.lane l).rate)) = true →
    s.rd F.SDS_LANE_CTL_FREEZE l = 0 → (s.lane l).frozenAt = none →
    Completes (.adaptWindow l w) s (fun t =>
      t.rd F.SDS_LANE_STAT_FROZEN l = 0 ∧ t.laneSt l = s.laneSt l ∧
      t.rd F.SDS_LANE_RX_CTLE l = F.SDS_LANE_RX_CTLE.cut w.ctle ∧ t.rd F.SDS_LANE_RX_FLT1 l = F.SDS_LANE_RX_FLT1.cut w.flt1 ∧
      t.rd F.SDS_LANE_RX_FLT2 l = F.SDS_LANE_RX_FLT2.cut w.flt2 ∧ t.rd F.SDS_LANE_RX_FLT3 l = F.SDS_LANE_RX_FLT3.cut w.flt3 ∧
      t.rd F.SDS_LANE_EYE_HEIGHT_MV l = F.SDS_LANE_EYE_HEIGHT_MV.cut w.height ∧
      t.rd F.SDS_LANE_EYE_WIDTH_MUI l = F.SDS_LANE_EYE_WIDTH_MUI.cut w.width ∧ Touches [.regs 15, .lanes] s t)) ∧
  (∀ l, l < 256 → s.laneSt l ≠ 0 → s.laneSt l ≠ 8 → exec (.laneRetrain l) s = .next (s.laneSignal l)) ∧
  (∀ q, q < 64 → exec (.quadRefclkChange q false) s = .next ((List.range 4).foldl (fun s i => s.laneOff (4 * q + i))
    (s.put F.SDS_QUAD_STAT_REF_OK 0 q))) ∧
  (∀ q, q < 64 → exec (.quadRefclkChange q true) s = .next ((List.range 4).foldl (fun s i => s.laneOn (4 * q + i))
    (s.put F.SDS_QUAD_STAT_REF_OK 1 q))) ∧
  -- R763: signal on four lanes of an enabled bundle that is DOWN makes a probe due
  (∀ b m, b < 2 → bit (s.rd F.LVE_CTL_BUNDLE_EN) b = true → s.bst b = 0 → 4 ≤ popcount (m % 65536) 16 →
    Completes (.bundleLaneSignal b m) s (fun t => (t.bnd b).probeDue = true ∧ Touches [.regs 15, .lve] s t)) ∧
  (∀ q m am, q < 64 → Completes (.blockLock q m am) s (fun t =>
    t.rd F.SDS_QUAD_STAT_AM_LOCK q = b2n am ∧ Touches [.regs 15] s t)) ∧
  -- R766, R773: hi_ber rises and its event is posted; when it falls or stays nothing is
  (∀ q c u y n, q < 64 → Completes (.hiBer q true c u y n) s (fun t =>
    t.rd F.SDS_QUAD_STAT_HI_BER q = 1 ∧ t.rd F.SDS_FEC_CORR q = min (s.rd F.SDS_FEC_CORR q + c) (2 ^ 32 - 1) ∧
    t.rd F.SDS_FEC_UNCORR q = min (s.rd F.SDS_FEC_UNCORR q + u) (2 ^ 32 - 1) ∧
    (s.rd F.SDS_QUAD_STAT_HI_BER q ≠ 0 → t.evt = s.evt) ∧ Touches [.regs 15, .regs 17, .evt, .out, .pci] s t)) ∧
  (∀ q c u y n, q < 64 → Completes (.hiBer q false c u y n) s (fun t =>
    t.rd F.SDS_QUAD_STAT_HI_BER q = 0 ∧ t.rd F.SDS_FEC_SYM q = min (s.rd F.SDS_FEC_SYM q + y) (2 ^ 32 - 1) ∧
    t.rd F.SDS_TX_UNDERRUN q = min (s.rd F.SDS_TX_UNDERRUN q + n) (2 ^ 32 - 1) ∧ t.evt = s.evt ∧
    Touches [.regs 15, .regs 17, .evt, .out, .pci] s t)) ∧
  -- R777: an injection, which a near-end loopback's own locked checker counts
  (∀ l, s.prbsRuns l = true → s.rd F.SDS_PRBS_CTL_INJ_MODE l = 1 → exec (.prbsInject l) s = .next (s.prbsFlip l)) ∧
  (∀ l, s.prbsRuns l = true → s.rd F.SDS_PRBS_CTL_INJ_MODE l = 2 → exec (.prbsPeriodicInject l) s = .next (s.prbsFlip l)) ∧
  (∀ l lock errs units, laneGeneral l = true → s.rd F.SDS_LANE_CTL_MODE l = 2 → s.laneSt l = 5 →
    s.rd F.SDS_PRBS_CTL_CHK_EN l = 1 → Completes (.prbsCheckerLock l lock errs units) s (fun t =>
      t.rd F.SDS_PRBS_STAT_LOCK l = b2n lock ∧
      t.rd F.SDS_PRBS_ERR l = (if s.rd F.SDS_PRBS_STAT_LOCK l = 0 then s.rd F.SDS_PRBS_ERR l
        else min (s.rd F.SDS_PRBS_ERR l + errs) (2 ^ 32 - 1)) ∧ Touches [.regs 15] s t)) ∧
  -- R752, R769: taps from the fabric port are taken, or discarded with STATE_CONFLICT
  (∀ l v, laneGeneral l = true → s.ffeTrained l = false → s.portShut l = false → tapsOk (wordTaps v) = true →
    exec (.coefficientInputWrite l v) s = .next (s.putTaps l (wordTaps v))) ∧
  (∀ l v, laneGeneral l = true → s.ffeTrained l = false → s.portShut l = false → tapsOk (wordTaps v) = false →
    exec (.coefficientInputWrite l v) s =
      .next (s.postFrom 15 E.STATE_CONFLICT (reqCode .part) none (ctrlAddr (F.SDS_LANE_FFE_CM2.off l 0))))

/-- Resets, bring-up, widths and functions of the PCIe port (R79, R785, R786, R799 to R801, R804, R806, R898). -/
def Obligations.PciePort : Prop := ∀ s : State, Live s →
  -- R799, R898: PERST_N falls: the port is reset, its lanes go OFF, and settings that waited apply
  (s.pci.perst = false → exec .perstNAssert s =
    .next (State.perstCut { s with pci.perst := true, pci.inReset := true }).applyDeferred) ∧
  (s.pci.perst = true → exec .perstNRise s =
    .next ((List.range 16).foldl State.laneOn (State.portLeave { s with pci.perst := false }))) ∧
  -- R799, R800: the two ways a link that is up goes down; only DL_Down is counted
  (s.rd F.PCI_STAT_DL_UP = 1 → exec (.linkDown true) s = .next (s.portReset.post E.PCI_LINK_DOWN 1)) ∧
  (s.rd F.PCI_STAT_DL_UP = 1 → exec (.linkDown false) s =
    .next ((s.portReset.bump F.PCI_LINK_DOWNS).post E.PCI_LINK_DOWN 2)) ∧
  -- R801: an FLR resets one function; the FLR of the PF removes the VFs first
  (∀ fn, fn ≠ 0 → s.fnExists fn = true → s.rd F.PCI_STAT_DL_UP = 1 → s.rd F.PCI_FN_STAT_FLR fn = 0 →
    exec (.flr fn) s = .next ((((s.cutCmds (fun f => f == fn)).resetFns (fun f => f == fn)).put
      F.PCI_FN_STAT_PRESENT 1 fn).put F.PCI_FN_STAT_FLR 1 fn)) ∧
  (s.rd F.PCI_STAT_DL_UP = 1 → s.fnExists 0 = true → s.rd F.PCI_FN_STAT_FLR 0 = 0 →
    Completes (.flr 0) s (fun t => t.rd F.PCI_FN_STAT_FLR = 1 ∧ t.rd F.PCI_FN_STAT_PRESENT = 1)) ∧
  (∀ fn us, s.rd F.PCI_FN_STAT_FLR fn = 1 → Completes (.flrDone fn us) s (fun t =>
    t.rd F.PCI_FN_STAT_FLR fn = 0 ∧ t.rd F.PCI_FLRS = min (s.rd F.PCI_FLRS + 1) (2 ^ 32 - 1) ∧
    Touches [.evt, .out, .pci, .regs 16, .regs 17] s t)) ∧
  -- R804: the hard block is ready, and its receivers present termination
  (s.cfg.pcieApplied = true → s.rd F.PCI_STAT_READY = 0 → exec .pcieHardBlockReady s =
    .next ((List.range 16).foldl State.laneOn
      ((s.put F.PCI_STAT_READY 1).put F.PCI_BRINGUP_US ((s.time - s.cfg.t0) / 1000)))) ∧
  -- R785: the widest width without a felled lane
  (∀ speed width m w rev, s.rd F.PCI_STAT_READY = 1 → s.pci.perst = false → s.rd F.PCI_STAT_LTSSM ≠ 0x13 →
    linkWidth (s.rd F.PCI_LANES_FELLED) width = some (w, rev) →
    exec (.pcieLinkUp speed width m) s = .next (State.linkTrained { s with pci.ppm := m.ppm } speed w rev m.flit)) ∧
  -- R786: L0p
  (∀ w, s.l0pOk = true → w = 1 ∨ w = 2 ∨ w = 4 ∨ w = 8 ∨ w = 16 → w ≤ s.pci.fullWidth → w ≠ s.rd F.PCI_STAT_WIDTH →
    Completes (.l0pHostRequest w) s (fun t => t.rd F.PCI_STAT_WIDTH = w ∧
      t.rd F.PCI_STAT_L0P = (if w < s.pci.fullWidth then 1 else 0) ∧
      t.rd F.PCI_L0P_CHANGES = min (s.rd F.PCI_L0P_CHANGES + 1) (2 ^ 32 - 1) ∧ Touches [.regs 16] s t)) ∧
  (∀ w, w = 8 / 2 ^ s.rd F.PCI_CTL_L0P_WIDTH → s.l0pOk = true → s.rd F.PCI_CTL_L0P_INIT = 1 → w < s.rd F.PCI_STAT_WIDTH →
    Completes .l0pNarrow s (fun t => t.rd F.PCI_STAT_WIDTH = w ∧
      t.rd F.PCI_L0P_CHANGES = min (s.rd F.PCI_L0P_CHANGES + 1) (2 ^ 32 - 1) ∧ Touches [.regs 16] s t)) ∧
  (s.l0pOk = true → s.rd F.PCI_STAT_L0P = 1 → s.pci.fullWidth < 32 → s.rd F.PCI_STAT_WIDTH ≠ s.pci.fullWidth →
    Completes .l0pWiden s (fun t => t.rd F.PCI_STAT_WIDTH = s.pci.fullWidth ∧ t.rd F.PCI_STAT_L0P = 0 ∧ Touches [.regs 16] s t)) ∧
  -- R806: RETRAIN retrains a link that is in L0; the other fields are kept as written
  (∀ req v, s.mayWrite req (F.PCI_CTL_RETRAIN.off 0 0) → Completes (.pcieRetrain req v) s (fun t =>
    t.rd F.PCI_CTL_L0P_INIT = bits v 0 1 ∧ t.rd F.PCI_CTL_L0P_WIDTH = bits v 1 2 ∧ t.rd F.PCI_CTL_MAX_SPEED = bits v 4 3 ∧
    t.rd F.PCI_STAT_LTSSM = (if bit v 8 = true ∧ s.rd F.PCI_STAT_LTSSM = 0x13 then 0x0B else s.rd F.PCI_STAT_LTSSM) ∧
    Touches [.regs 16, .regs 17, .evt, .out, .pci] s t))

/-- MSI-X masks, configuration requests and what reads of host memory bring back (R119, R120, R441, R784, R798, R801, R805,
Tables PCI-5 and PCI-6). -/
def Obligations.PcieFunctions : Prop := ∀ s : State, Live s →
  (∀ fn vec, s.fnExists fn = true → vec < s.rd F.QQP_CAP_VECTORS fn → exec (.msixUnmask fn vec) s =
    .next (State.msixRelease { s with
      pci.vecs := Map.upd {} s.pci.vecs (4096 * fn + vec) (fun v => { v with masked := false }) } fn vec)) ∧
  -- R801: requests are answered while the data link is up and the function is not in FLR
  (∀ fn r, s.rd F.PCI_STAT_DL_UP = 1 → s.rd F.PCI_FN_STAT_FLR fn = 0 → s.fnExists fn = true →
    exec (.configurationRequest fn r) s = .next (s.cfgWrite fn r)) ∧
  -- a function that is not there: Unsupported Request, which is counted
  (∀ fn r, s.rd F.PCI_STAT_DL_UP = 1 → s.rd F.PCI_FN_STAT_FLR fn = 0 → s.fnExists fn = false →
    Completes (.configurationRequest fn r) s (fun t =>
      t.rd F.PCI_UR_SENT = min (s.rd F.PCI_UR_SENT + 1) (2 ^ 32 - 1) ∧ Touches [.regs 16] s t)) ∧
  -- Table PCI-6: what a write of a power state, of the mask bits and of the device control changes
  (∀ fn ro nt mps mrrs, s.rd F.PCI_STAT_DL_UP = 1 → s.rd F.PCI_FN_STAT_FLR fn = 0 → s.fnExists fn = true →
    Completes (.configurationRequest fn (.device ro nt mps mrrs)) s (fun t =>
      (fn ∈ t.pci.relaxed ↔ ro = true) ∧ (fn ∈ t.pci.noTmo ↔ nt = true) ∧
      t.pci.mps = Map.set 0 s.pci.mps fn (mps % 8) ∧ t.pci.mrrs = Map.set 2 s.pci.mrrs fn (mrrs % 8) ∧ Touches [.pci] s t)) ∧
  -- R119: data blocks for a command that waits for them
  (∀ k c l, s.cmd k = some c → c.hostWaits = true → s.tlpOk c.fn = true → isWriteOp (sqOp c.sqe) = true →
    c.sglGot = true ∨ sqSgl c.sqe = false →
    Completes (.hostReadCompletion (.cmd k) (.blocks l)) s (fun t =>
      t.cmd k = some { c with
        hostData := (c.hostData ++ (l.take (s.readRoom k c)).map (· % 2 ^ (8 * s.cmdBlk c))).take (sqLen c.sqe) } ∧
      Touches [.qqp] s t)) ∧
  -- R120: a list that covers the transfer is taken; any other fails the command
  (∀ k c l, s.cmd k = some c → c.hostWaits = true → s.tlpOk c.fn = true → sqSgl c.sqe = true → c.sglGot = false →
    sglOk c.sqe (s.cmdBlk c) l = true →
    Completes (.hostReadCompletion (.cmd k) (.sgl l)) s (fun t =>
      t.cmd k = some { c with sgl := l, sglGot := true } ∧ Touches [.qqp] s t)) ∧
  (∀ k c l t, s.cmd k = some c → c.hostWaits = true → s.tlpOk c.fn = true → sqSgl c.sqe = true → c.sglGot = false →
    s.tractKey c.fn (sqTract c.sqe) = some t → sglOk c.sqe (s.cmdBlk c) l = false →
    exec (.hostReadCompletion (.cmd k) (.sgl l)) s = .next (s.failCmd k 0x03 2 0 24)) ∧
  -- Table PCI-5: each error answer reports its AER bit, and poison is counted
  (∀ t, exec (.hostReadCompletion t (.error .ur)) s = .next (s.hostFault t 20 false false)) ∧
  (∀ t, exec (.hostReadCompletion t (.error .ca)) s = .next (s.hostFault t 15 false false)) ∧
  (∀ t, exec (.hostReadCompletion t (.error .poisoned)) s = .next (s.hostFault t 12 false true)) ∧
  (∀ t, exec (.hostReadCompletion t (.error .ecrc)) s = .next (s.hostFault t 19 false false)) ∧
  -- R784: the completion timeout, where the function has not disabled it
  (∀ k c, s.cmd k = some c → c.fn ∉ s.pci.noTmo →
    exec (.hostCompletionTimeout (.cmd k)) s = .next (s.hostFault (.cmd k) 14 true false)) ∧
  (∀ fn q, fn ∉ s.pci.noTmo →
    exec (.hostCompletionTimeout (.queue fn q)) s = .next (s.hostFault (.queue fn q) 14 true false))

/-- Raw NAND sequences of user logic (R320 to R325, Table MED-9): an accepted one starts or takes effect, a refused one is
counted and answered, and one sent to another landing's port is denied. -/
def Obligations.RawSequences : Prop := ∀ s : State, Live s → s.cfg.userOn = true → ∀ n die txn d, n < 128 → die < 2 →
  (s.rawCheck n die d = none →
    (∀ r, d.cls = 0 → bit d.flags 1 = true → exec (.rawStatus n n die txn d r) s = .next (s.rawEnd (rawOp n txn d) 0 r)) ∧
    (∀ r, d.cls = 0 → bit d.flags 1 = false → exec (.rawStatus n n die txn d r) s = .next (s.rawStart n txn d)) ∧
    (d.cls = 1 → exec (.rawReadLike n n die txn d) s = .next (s.rawStart n txn d)) ∧
    (d.cls = 2 → exec (.rawProgramLike n n die txn d) s = .next (s.rawStart n txn d)) ∧
    (d.cls = 3 → exec (.rawEraseLike n n die txn d) s = .next (s.rawStart n txn d)) ∧
    (d.cls = 4 → exec (.rawFeature n n die txn d) s = .next (s.rawStart n txn d)) ∧
    (d.cls = 5 → exec (.rawResetLun n n die txn d) s = .next (s.rawStart n txn d)) ∧
    (d.cls = 6 → exec (.rawLend n n die txn d) s =
      .next (((s.updBte d.target (fun b => { b with st := 4, landing := n })).rawEnd (rawOp n txn d) 0 {}).gcCheck
        (grpOf (maCh d.target)))) ∧
    (d.cls = 7 → exec (.rawReturn n n die txn d) s =
      .next (((s.updBte d.target (fun b => { b with st := 2, landing := 0 })).enqueue
        { kind := .erase, addr := maErase d.target, prio := s.iprio 0x11, who := .raw n }).rawEnd (rawOp n txn d) 0 {}))) ∧
  (∀ st, s.rawCheck n die d = some st →
    (∀ r, d.cls = 0 → exec (.rawStatus n n die txn d r) s = .next (s.rawRefuse n txn die st d)) ∧
    (∀ r, 8 ≤ d.cls → exec (.rawStatus n n die txn d r) s = .next (s.rawRefuse n txn die st d)) ∧
    (d.cls = 1 → exec (.rawReadLike n n die txn d) s = .next (s.rawRefuse n txn die st d)) ∧
    (d.cls = 2 → exec (.rawProgramLike n n die txn d) s = .next (s.rawRefuse n txn die st d)) ∧
    (d.cls = 3 → exec (.rawEraseLike n n die txn d) s = .next (s.rawRefuse n txn die st d)) ∧
    (d.cls = 4 → exec (.rawFeature n n die txn d) s = .next (s.rawRefuse n txn die st d)) ∧
    (d.cls = 5 → exec (.rawResetLun n n die txn d) s = .next (s.rawRefuse n txn die st d)) ∧
    (d.cls = 6 → exec (.rawLend n n die txn d) s = .next (s.rawRefuse n txn die st d)) ∧
    (d.cls = 7 → exec (.rawReturn n n die txn d) s = .next (s.rawRefuse n txn die st d))) ∧
  -- R320: a write to another landing's port is discarded, with ACCESS_DENIED
  (∀ p, p ≠ n → d.cls = 1 → exec (.rawReadLike n p die txn d) s =
    .next ((s.post E.ACCESS_DENIED (reqCode (.landing n)) (ctrlAddr (0x100000 * (9 + die) + 0x80000 + 0x100 * p))).rawAnswer
      n txn 0))

/-- Resets of the whole part and what starts a load (R47, R48, R332, R333, R419, R707, R812, R854, R870, R872, R874,
R876). Pins, rails, sensors and test instructions reach a dark part too. -/
def Obligations.PartResets : Prop := ∀ s : State, Memory.wf s = true →
  -- R812: the release of the power-on reset; nothing but a hot die of a part that tripped holds it
  (∀ role slot ref, s.cfg.tripped = false → exec (.powerOnReset role slot ref) s =
    .next (State.loadStart { s.partReset.tapReset with cfg.tripped := false } role slot ref)) ∧
  (∀ role slot ref, s.cfg.tripped = true → (∀ x, some x ∈ s.cfg.temps → x < 100) → exec (.powerOnReset role slot ref) s =
    .next (State.loadStart { s.partReset.tapReset with cfg.tripped := false } role slot ref)) ∧
  (∀ role slot ref x, s.cfg.tripped = true → some x ∈ s.cfg.temps → 100 ≤ x →
    exec (.powerOnReset role slot ref) s = .next s) ∧
  -- R48, R419: CFG_PROG_N says LEAVING, resets the part and loads again
  (∀ role slot ref, s.cfg.held = false → s.cfg.test = false →
    exec (.cfgProgNPulse role slot ref) s = .next ((s.leave 1).partReset.loadStart role slot ref)) ∧
  -- R333, R854: a rail out of range holds the whole part reset
  (exec .railFault s = .next { s.partReset.tapReset with cfg.held := true, cfg.tripped := s.cfg.tripped }) ∧
  -- R870: the second reading of 115 °C or more in a row trips; a reading below is kept
  (∀ die t u, die < 7 → s.cfg.temps.getD die none = some t → 115 ≤ t → 115 ≤ u → s.cfg.held = false →
    exec (.thermalRead die u) s = .next (State.assertPor { s with cfg.temps := s.cfg.temps.set die (some u) } true)) ∧
  (∀ die u, die < 5 → u < 115 → Completes (.thermalRead die u) s (fun t =>
    t.cfg = { s.cfg with temps := s.cfg.temps.set die (some u) } ∧ Touches [.cfg] s t)) ∧
  -- R874 to R876: an instruction that drives the pins stops the part until Test-Logic-Reset, which starts a load
  (∀ op cells, op = 0 ∨ op = 5 ∨ op = 6 → exec (.testInstructionLoad { opcode := op, cells := cells }) s =
    .next (State.tapUpdate { (s.leave 1).partReset with cfg.held := s.cfg.held, cfg.test := true } op cells)) ∧
  (∀ op cells, op = 3 ∨ op = 4 → exec (.testInstructionLoad { opcode := op, cells := cells }) s =
    .next (State.tapUpdate { (s.leave 1).partReset with cfg.held := s.cfg.held, cfg.test := true } op [])) ∧
  (∀ cells, Completes (.testInstructionLoad { opcode := 1, cells := cells }) s (fun t => t = s.tapUpdate 1 cells ∧ Touches [.tap] s t)) ∧
  (∀ op cells, op = 2 ∨ op = 0xFF → Completes (.testInstructionLoad { opcode := op, cells := cells }) s (fun t =>
    t = s.tapUpdate op [] ∧ t.tap.bsr = s.tap.bsr ∧ Touches [.tap] s t)) ∧
  (∀ role slot ref, s.cfg.test = true → s.cfg.held = false → exec (.testLogicReset role slot ref) s =
    .next ((State.leave { s.tapReset with cfg.test := false } 1).partReset.loadStart role slot ref)) ∧
  (∀ role slot ref, s.cfg.test = false → exec (.testLogicReset role slot ref) s = .next s.tapReset) ∧
  -- Table BOT-10: CFG_RELOAD loads again where the policy allows it and the part has started; anything else is refused
  (∀ req, s.dark = false → s.mayWrite req (F.CFG_RELOAD.off 0 0) → s.polReload = true → s.cfg.done = true →
    ∀ role slot, role < 4 → slot < 4 → exec (.cfgReload req { value := 0xA5, role := role, slot := slot }) s =
      .next ((State.progN { s with cfg.pinRole := role, cfg.pinSlot := slot } 2 role slot (s.on F.CLK_STAT_LOCAL_OK)).progPull)) ∧
  (∀ req v role slot, s.dark = false → s.mayWrite req (F.CFG_RELOAD.off 0 0) → v ≠ 0xA5 ∨ s.polReload = false ∨ s.cfg.done = false →
    exec (.cfgReload req { value := v, role := role, slot := slot }) s =
      .next (State.refuseWrite { s with cfg.pinRole := role % 4, cfg.pinSlot := slot % 4 } req (F.CFG_RELOAD.off 0 0))) ∧
  -- R332, R707: the root PLL unlocks, the derived clocks stop and the keepers trip
  (s.dark = false → s.rd F.CLK_STAT_LOCK = 1 → s.rd F.CLK_STAT_REF ≠ 2 → exec .pllUnlock s = .next s.pllLost)

/-- Accesses to registers: permission, gate and effect (R93, R718, R811, R817, R824, R825, R844). -/
def Obligations.RegisterAccesses : Prop := ∀ s : State, Live s →
  -- a permitted write of a register whose clock runs acts on the register the requester's view names
  (∀ req off v, off < 0x2000000 → off % 4 = 0 → off / 0x100000 < 21 → s.mayWrite req off →
    exec (.registerWrite req off v) s = .next (s.regWrite req (viewOff req off) v)) ∧
  -- an offset that no register occupies discards the write and posts nothing
  (∀ req off v, off < 0x2000000 → off % 4 = 0 → off / 0x100000 < 21 → s.mayWrite req off →
    fieldsAt (viewOff req off) = [] → exec (.registerWrite req off v) s = .next s) ∧
  (∀ req off v, off < 0x2000000 → off % 4 = 0 → 21 ≤ off / 0x100000 → s.cfg.done = true →
    exec (.registerWrite req off v) s = .next (s.post E.ADDR_UNMAPPED (reqCode req) (ctrlAddr off))) ∧
  -- R96: before CFG_DONE a host's access to a reserved offset of BAR0 posts nothing
  (∀ fn off v, off < 0x2000000 → off % 4 = 0 → 21 ≤ off / 0x100000 → s.cfg.done = false →
    exec (.registerWrite (.host fn) off v) s = .next s) ∧
  -- R824, R825: one bit of a register, under the permission of its block
  (∀ req blk reg b v, blk < 21 → reg < 0x1000 → reg % 4 = 0 → b < 32 → s.mayWrite req (0x100000 * blk + reg) →
    exec (.bitAliasWrite req blk reg b v) s = .next (s.aliasWrite req (viewOff req (0x100000 * blk + reg)) b v)) ∧
  -- R817: a read of a low word latches the high word for this requester and changes nothing else
  (∀ req off, off < 0x2000000 → off / 0x100000 < 21 → off / 0x1000 ≠ 0x10 → ¬ (0x1110 ≤ off / 0x1000 ∧ off / 0x1000 < 0x1130) →
    hasTy (viewOff req off) .rl = true → hasTy (viewOff req off) .rs = false →
    s.permits req (off / 0x100000) false = true → s.answers off = true →
    Completes (.pairLoRead req off) s (fun t => t = s.latch req (viewOff req off) ∧ Touches [.shadow] s t)) ∧
  (∀ req v, s.mayWrite req (F.GLB_EVT_PEEK_SEL.off 0 0) → exec (.evtPeek req v) s = .next (s.evtPeek (v % 2 ^ 32)))

/-- Host requests to the BARs (R107, R793 to R796). -/
def Obligations.HostAccesses : Prop := ∀ s : State, Live s → s.rd F.PCI_STAT_DL_UP = 1 → s.pci.inReset = false →
  -- Unsupported Request: a function that is not there, one whose Memory Space Enable is 0, or a BAR it has not
  (∀ fn bar off dws, s.rd F.PCI_FN_STAT_FLR fn = 0 → s.fnExists fn = false →
    exec (.hostBarAccess fn bar off true dws) s = .next (s.bump F.PCI_UR_SENT)) ∧
  (∀ fn bar off dws, s.rd F.PCI_FN_STAT_FLR fn = 0 → s.fnExists fn = false →
    Completes (.hostBarAccess fn bar off false dws) s (fun t =>
      t.out = s.out ++ [.barCpl fn false 0] ∧ t.rd F.PCI_UR_SENT = min (s.rd F.PCI_UR_SENT + 1) (2 ^ 32 - 1) ∧
      Touches [.out, .regs 16] s t)) ∧
  (∀ fn bar off dws, s.rd F.PCI_FN_STAT_FLR fn = 0 → s.fnExists fn = true →
    s.rd F.PCI_FN_STAT_MSE fn = 0 ∨ (bar ≠ 0 ∧ bar ≠ 2 ∧ (bar ≠ 4 ∨ fn ≠ 0)) →
    exec (.hostBarAccess fn bar off true dws) s = .next (s.urSent fn)) ∧
  -- BAR0: DW by DW in ascending order; a read is answered with what was read
  (∀ fn off dws, s.rd F.PCI_FN_STAT_FLR fn = 0 → s.fnExists fn = true → s.rd F.PCI_FN_STAT_MSE fn = 1 →
    exec (.hostBarAccess fn 0 off true dws) s = .next (s.bar0All fn true (off / 4 * 4 % 0x4000000) dws).1) ∧
  (∀ fn off dws, s.rd F.PCI_FN_STAT_FLR fn = 0 → s.fnExists fn = true → s.rd F.PCI_FN_STAT_MSE fn = 1 →
    let r := s.bar0All fn false (off / 4 * 4 % 0x4000000) dws
    exec (.hostBarAccess fn 0 off false dws) s = .next { r.1 with out := r.1.out ++ [.barCpl fn true r.2] }) ∧
  -- R794: a BAR0 write of less than a DW is discarded with an event
  (∀ fn off v be, s.rd F.PCI_FN_STAT_FLR fn = 0 → s.fnExists fn = true → s.rd F.PCI_FN_STAT_MSE fn = 1 → s.cfg.done = true →
    off % 4 = 0 → off < 0x4000000 → be % 16 ≠ 15 →
    exec (.hostBarAccess fn 0 off true [(v, be)]) s = .next (s.post E.PCI_PARTIAL_WRITE fn off)) ∧
  -- BAR2: a doorbell; reads return 0
  (∀ fn off v be, s.rd F.PCI_FN_STAT_FLR fn = 0 → s.fnExists fn = true → s.rd F.PCI_FN_STAT_MSE fn = 1 → s.cfg.done = true →
    off % 4 = 0 → off < 0x4000 → exec (.hostBarAccess fn 2 off true [(v, be)]) s = .next (s.bar2 fn off v)) ∧
  (∀ fn off dws, s.rd F.PCI_FN_STAT_FLR fn = 0 → s.fnExists fn = true → s.rd F.PCI_FN_STAT_MSE fn = 1 →
    exec (.hostBarAccess fn 2 off false dws) s = .next { s with out := s.out ++ [.barCpl fn true 0] }) ∧
  -- BAR4: runs of bytes to the landing windows
  (∀ off write dws, s.rd F.PCI_FN_STAT_FLR = 0 → s.fnExists 0 = true → s.rd F.PCI_FN_STAT_MSE = 1 →
    let l := byteRuns (enabledBytes (off / 4 * 4) dws)
    s.outstanding 0xA2 + l.length ≤ 1024 →
    exec (.hostBarAccess 0 4 off write dws) s = .next (l.foldl (fun s x => s.bar4Run 0 write x) s))

/-- Requests at their target NI and the broadcast of an epoch (R598, R611, R614, R716, R717, R739, R740). -/
def Obligations.Arrivals : Prop := ∀ s : State, Live s →
  (∀ k ms p, s.noc.stuck.find? (fun x => x.1 == k) = none → s.pkt k = some p → p.parked = none → p.lost = false → p.backoff = false →
    p.answer = none → p.held = true →
    exec (.skidwayRequestArrive k ms) s = .next (s.arrive k p ms)) ∧
  -- R605: a packet in transit arrives once its output port grants it
  (∀ k ms p, s.noc.stuck.find? (fun x => x.1 == k) = none → s.pkt k = some p → p.parked = none → p.lost = false → p.backoff = false →
    p.answer = none → p.atUnit = false → p.held = false → s.granted p = true →
    exec (.skidwayRequestArrive k ms) s = .next ((s.grant p).arrive k p ms)) ∧
  (∀ k ms p, s.noc.stuck.find? (fun x => x.1 == k) = none → s.pkt k = some p → p.held = false → s.granted p = false →
    exec (.skidwayRequestArrive k ms) s = .next s) ∧
  -- R734: a fenced NI answers PEER_RESET; R612: an epoch older than the one before the current is stale
  (∀ k ms p, s.noc.stuck.find? (fun x => x.1 == k) = none → s.pkt k = some p → p.parked = none → p.lost = false → p.backoff = false →
    p.answer = none → p.atUnit = false → p.held = false → s.granted p = true →
    s.rd F.NOC_NI_STAT_FENCED p.dst = 1 → p.req.write = false →
    exec (.skidwayRequestArrive k ms) s = .next ((s.grant p).answer k 0x11 0)) ∧
  (∀ k ms p, s.noc.stuck.find? (fun x => x.1 == k) = none → s.pkt k = some p → p.parked = none → p.lost = false → p.backoff = false →
    p.answer = none → p.atUnit = false → p.held = false → s.granted p = true →
    s.rd F.NOC_NI_STAT_FENCED p.dst = 0 → s.rd F.NOC_NI_STAT_ISOLATED p.dst = 0 →
    epochOlder p.epoch ((s.unitEpoch (niUnit p.dst) + 65535) % 65536) = true →
    exec (.skidwayRequestArrive k ms) s = .next ((s.grant p).answer k 0x0E 0)) ∧
  -- R717: what a unit held behind a closed gate is performed once the gate is open
  (∀ k ms p, s.noc.stuck.find? (fun x => x.1 == k) = some (k, p) →
    exec (.skidwayRequestArrive k ms) s = .next (s.unstick k p ms)) ∧
  -- R739: a unit applies its staged writes and takes the epoch; behind a closed gate the broadcast waits
  (∀ u, u < 14 → u ∈ s.pwr.left → (∀ p ∈ unitPolders u, s.rd F.CLK_GATE_OPEN p ≠ 0) →
    exec (.epochBroadcastArrive u) s = .next ((s.applyStage u).takeEpoch u)) ∧
  (∀ u p, u < 14 → u ∈ s.pwr.left → p ∈ unitPolders u → s.rd F.CLK_GATE_OPEN p = 0 →
    Completes (.epochBroadcastArrive u) s (fun t => t.rd F.PWR_UNIT_EPOCH_PENDING u = 1 ∧ Touches [.regs 4] s t))

/-- Loading the image: header, segments, fallback and the start sequence (R50, R56, R61, R66 to R68, R71, R72, R74, R75, R77, R80). -/
def Obligations.ImageLoad : Prop := ∀ s : State, Live s →
  -- the header passes checks 1 to 6 of Table BOT-6 and is authenticated, or the load fails with the code of the first failure
  (∀ img, s.loading = true → s.cfg.headerOk = false → s.cfg.img = none → s.driver = false ∨ img.addr = s.imageBase →
    exec (.headerReceived img) s = .next (match (s.headerRead img).headFail img with
      | some c => (s.headerRead img).loadFail c
      | none => { (s.headerRead img).put F.CFG_STATUS_STATE 2 with cfg.img := some img })) ∧
  -- checks 7 to 9
  (∀ img, s.loading = true → s.cfg.img = some img → s.authenticate = match s.authFail img with
    | some c => s.loadFail c
    | none => s.headerTaken img) ∧
  -- R72 to R75: content that is memory is staged as it arrives; the hash decides whether the segment takes effect
  (∀ e i v x, s.loading = true → s.cfg.headerOk = true → s.cfg.img = none → s.cfg.ready = false → s.nextSeg = some (e, i) →
    e.ty ≠ 6 ∨ s.cfg.preloadOk = true → x.addr = s.cfg.base + e.off →
    let b := segBody e.ty e.len e.param v x
    let r := State.stage1 { s with cfg.pos := e.off + e.len } e b.1
    (shaNat e.len v ≠ e.hash → exec (.segmentReceived v x) s = .next (r.1.loadFail 0x0A)) ∧
    (shaNat e.len v = e.hash → b.2 = false ∨ r.2 = false →
      exec (.segmentReceived v x) s = .next (r.1.loadFail 0x09)) ∧
    (shaNat e.len v = e.hash → b.2 = true → r.2 = true →
      exec (.segmentReceived v x) s = .next (r.1.segmentTaken e i b.1 x.off))) ∧
  -- R60: bytes from another place of the stream are not the next segment
  (∀ e i v x, s.loading = true → s.cfg.headerOk = true → s.cfg.img = none → s.cfg.ready = false → s.nextSeg = some (e, i) →
    x.addr ≠ s.cfg.base + e.off → exec (.segmentReceived v x) s = .next s) ∧
  -- R77: the hold of PRELOAD segments ends
  (s.loading = true → s.cfg.headerOk = true → (∀ x ∈ s.cfg.segs, s.stores x = true → x.ty = 3 → x.done = true) →
    Completes .preloadHoldExpires s (fun t => t.cfg = { s.cfg with preloadOk := true } ∧ Touches [.cfg] s t)) ∧
  (∀ k, s.loading = true → s.cfg.headerOk = true → bit s.cfg.hbmStarted k = true → bit s.cfg.hbmDone k = false →
    exec (.hbmTrainingDone k true) s =
      .next (State.loadCheck { s with cfg.hbmDone := Nat.lor s.cfg.hbmDone (2 ^ k) })) ∧
  (∀ k, s.loading = true → s.cfg.headerOk = true → bit s.cfg.hbmStarted k = true → bit s.cfg.hbmDone k = false →
    exec (.hbmTrainingDone k false) s = .next (s.loadFail 0x0C)) ∧
  (∀ tracts hours0 hours1 lib, s.loading = true → s.cfg.ready = true →
    exec (.startSequence tracts hours0 hours1 lib) s = .next (s.started tracts hours0 hours1 lib)) ∧
  -- R61: a listener that sees no stream is refused at once
  (s.loading = true → s.driver = false → s.cfg.csActive = false →
    exec .noStreamTimeout s = .next (s.refuseAtOnce 0x0E)) ∧
  -- R67, R68: a listener's CFG_SYNC_N during the primary stream makes the driver stream the fallback image after it
  (s.driver = true → s.cfg.csActive = true → s.cfg.fbStream = false →
    Completes .cfgSyncLow s (fun t => t.cfg = { s.cfg with syncLatch := true } ∧ Touches [.cfg] s t)) ∧
  (s.driver = true → s.cfg.csActive = true → s.cfg.fbStream = false → s.loading = false ∨ s.cfg.headerOk = true ∧ s.nextSeg = none →
    s.cfg.syncLatch = true ∨ s.cfg.failed = true → s.cfg.fbUsed = false →
    exec .primaryStreamEnd s = .next (State.fallbackStream { s with cfg.pos := max s.cfg.pos s.streamEnd })) ∧
  (s.driver = true → s.cfg.csActive = true → s.cfg.fbStream = false → s.loading = false ∨ s.cfg.headerOk = true ∧ s.nextSeg = none →
    (s.cfg.syncLatch = false ∧ s.cfg.failed = false) ∨ s.cfg.fbUsed = true →
    Completes .primaryStreamEnd s (fun t =>
      t.cfg = { s.cfg with csActive := false, pos := max s.cfg.pos s.streamEnd } ∧ Touches [.cfg] s t)) ∧
  -- R66: a listener whose load failed loads the fallback; any other only releases the wire
  (s.driver = false → s.refused = false → s.cfg.failed = true → s.cfg.fallback = false →
    exec .fallbackFirstRead s = .next (State.fallbackLoad { s with cfg.syncPull := false })) ∧
  (s.driver = false → s.refused = false → s.cfg.failed = false ∨ s.cfg.fallback = true →
    Completes .fallbackFirstRead s (fun t => t.cfg = { s.cfg with syncPull := false } ∧ Touches [.cfg] s t)) ∧
  (s.cfg.fbStream = true → Completes .fallbackStreamEnd s (fun t =>
    t.cfg = { s.cfg with fbStream := false, csActive := false } ∧ Touches [.cfg] s t))

/-- Frames of clocks, transfers and map commands: what each leaves as it was. -/
def Obligations.FramesOfTransfers : Prop := ∀ s t : State,
  (∀ localOk recovered, exec (.refWindowEnd localOk recovered) s = .next t →
    Touches [.regs 3, .regs 17, .out, .evt, .pci, .clk] s t) ∧
  (exec .referenceGap s = .next t → Touches [.regs 3, .regs 17, .out, .evt, .pci, .clk] s t) ∧
  (∀ key seg, exec (.translationRequest key seg) s = .next t →
    Touches [.regs 6, .regs 7, .regs 17, .fresh, .out, .evt, .qqp, .tly, .dck, .pci] s t) ∧
  (∀ key seg, exec (.read key seg) s = .next t →
    Touches [.regs 6, .regs 7, .regs 8, .regs 17, .fresh, .out, .evt, .qqp, .tly, .dck, .pci, .med, .noc] s t) ∧
  (∀ key seg, exec (.verify key seg) s = .next t →
    Touches [.regs 6, .regs 7, .regs 8, .regs 17, .fresh, .out, .evt, .qqp, .tly, .dck, .pci, .med, .noc] s t) ∧
  (∀ key seg, exec (.write key seg) s = .next t →
    Touches [.regs 6, .regs 8, .regs 11, .regs 12, .regs 17, .regs 20, .fresh, .out, .evt, .gens, .qqp, .tly, .dck,
      .pci, .lve, .hbm, .cry, .noc] s
      t) ∧
  (∀ key seg, exec (.atomicWrite key seg) s = .next t →
    Touches [.regs 6, .regs 8, .regs 11, .regs 12, .regs 17, .regs 20, .fresh, .out, .evt, .gens, .qqp, .tly, .dck,
      .pci, .lve, .hbm, .cry, .noc] s
      t) ∧
  (∀ key seg, exec (.copy key seg) s = .next t →
    Touches [.regs 6, .regs 7, .regs 8, .regs 11, .regs 12, .regs 17, .regs 20, .fresh, .out, .evt, .gens, .qqp,
      .tly, .dck, .pci, .lve, .med, .hbm, .cry, .noc] s t) ∧
  (∀ key, exec (.flush key) s = .next t → Touches [.regs 6, .regs 17, .out, .evt, .qqp, .dck, .pci] s t) ∧
  (∀ key, exec (.trim key) s = .next t →
    Touches [.regs 6, .regs 7, .regs 9, .regs 11, .regs 17, .regs 20, .out, .evt, .gens, .qqp, .tly, .dck, .pci,
      .lve, .med] s t) ∧
  (∀ key, exec (.writeZeroes key) s = .next t →
    Touches [.regs 6, .regs 7, .regs 9, .regs 11, .regs 12, .regs 17, .regs 20, .fresh, .out, .evt, .gens, .qqp,
      .tly, .dck, .pci, .lve, .med, .hbm, .cry] s t) ∧
  (exec .destage s = .next t → Touches [.regs 6, .regs 17, .out, .evt, .tly, .dck, .pci] s t) ∧
  (∀ stripe, exec (.pageRowPadTimer stripe) s = .next t → Touches [.med] s t) ∧
  (∀ u, exec (.mapUpdate u) s = .next t →
    Touches [.regs 6, .regs 7, .regs 9, .regs 11, .regs 17, .regs 20, .fresh, .out, .evt, .gens, .qqp, .tly, .dck,
      .pci, .lve, .med] s t) ∧
  (∀ mpn frame flash, exec (.mapPageInstalled mpn frame flash) s = .next t →
    Touches [.regs 6, .regs 7, .regs 9, .regs 11, .regs 17, .regs 20, .fresh, .out, .evt, .gens, .qqp, .tly, .dck,
      .pci, .lve, .med] s t) ∧
  (∀ mpn place, exec (.mapPageWritebackDone mpn place) s = .next t →
    Touches [.regs 7, .regs 9, .regs 11, .regs 17, .regs 20, .out, .evt, .gens, .qqp, .tly, .pci, .lve, .med] s t) ∧
  (exec .journalPageTimer s = .next t → Touches [.tly] s t) ∧
  (∀ first, exec (.journalPageProgrammed first) s = .next t →
    Touches [.regs 11, .regs 17, .regs 20, .out, .evt, .gens, .qqp, .tly, .pci, .lve] s t) ∧
  (∀ req value, exec (.tlyCkptGo req value) s = .next t →
    Touches [.regs 7, .regs 11, .regs 16, .regs 17, .regs 20, .out, .evt, .gens, .tly, .pci, .lve] s t) ∧
  (∀ iu, exec (.tlyProbe iu) s = .next t → Touches [.regs 7] s t)

/-- Frames of queues, tasks of the Deck and the event ledger. -/
def Obligations.FramesOfQueuesAndTasks : Prop := ∀ s t : State,
  (∀ pool engine, exec (.taskDispatch pool engine) s = .next t →
    Touches [.regs 6, .regs 7, .regs 9, .regs 11, .regs 17, .regs 20, .fresh, .out, .evt, .gens, .qqp, .tly, .dck,
      .pci, .lve, .med, .noc] s t) ∧
  (∀ pool, exec (.preemptionStart pool) s = .next t → Touches [.regs 6, .dck] s t) ∧
  (exec .poolLoadWindow s = .next t → Touches [.regs 6, .dck] s t) ∧
  (∀ engine, exec (.decline engine) s = .next t → Touches [.regs 6, .dck] s t) ∧
  (∀ engine, exec (.skidderPark engine) s = .next t → Touches [.regs 6, .regs 8, .fresh, .qqp, .dck] s t) ∧
  (∀ lost, exec (.spillwayRefill lost) s = .next t → Touches [.regs 6, .regs 17, .out, .evt, .qqp, .dck, .pci] s t) ∧
  (∀ engine, exec (.ldPreemptAnswerTimeout engine) s = .next t →
    Touches [.regs 6, .regs 17, .out, .evt, .dck, .pci] s t) ∧
  (∀ landing pool preemptable, exec (.register landing pool preemptable) s = .next t →
    Touches [.regs 6, .regs 17, .out, .evt, .dck, .pci] s t) ∧
  (∀ landing engine, exec (.deregister landing engine) s = .next t →
    Touches [.regs 6, .regs 17, .out, .evt, .dck, .pci] s t) ∧
  (∀ landing token kind pool prio noPreempt aff deadline payload, exec (.create landing token kind pool prio noPreempt aff deadline payload) s = .next t →
    Touches [.regs 6, .regs 17, .out, .evt, .dck, .pci] s t) ∧
  (∀ task, exec (.taskTimeout task) s = .next t →
    Touches [.regs 6, .regs 9, .regs 17, .out, .evt, .qqp, .tly, .dck, .pci, .med] s t) ∧
  (∀ engine status blocks, exec (.done engine status blocks) s = .next t → Touches [.regs 6, .qqp, .dck] s t) ∧
  (∀ key, exec (.deadlineExpires key) s = .next t →
    Touches [.regs 6, .regs 7, .regs 11, .regs 12, .regs 17, .regs 20, .out, .evt, .gens, .qqp, .tly, .dck, .pci,
      .lve] s t) ∧
  (∀ engine ctx, exec (.yield engine ctx) s = .next t →
    Touches [.regs 6, .regs 17, .fresh, .out, .evt, .dck, .pci] s t) ∧
  (∀ landing code, exec (.landingMsgUnknown landing code) s = .next t → Touches [.regs 6] s t) ∧
  (∀ req value, exec (.evtAck req value) s = .next t → Touches [.regs 17, .out, .evt, .pci] s t) ∧
  (∀ req value, exec (.evtTagSel req value) s = .next t → Touches [.regs 17, .out, .evt, .pci] s t) ∧
  (∀ code, exec (.evtRateWindowEnd code) s = .next t → Touches [.regs 17, .out, .evt, .pci] s t) ∧
  (exec .evtSignalTimer s = .next t → Touches [.out, .evt, .pci] s t) ∧
  (∀ fn, exec (.adminQueueEnable fn) s = .next t → Touches [.regs 19] s t) ∧
  (∀ fn, exec (.adminQueueReady fn) s = .next t → Touches [.regs 19, .qqp] s t) ∧
  (∀ fn, exec (.queueDisable fn) s = .next t →
    Touches [.regs 6, .regs 7, .regs 11, .regs 12, .regs 17, .regs 19, .regs 20, .out, .evt, .gens, .qqp, .tly, .dck,
      .pci, .lve] s t) ∧
  (∀ fn qid value, exec (.sqTailDoorbell fn qid value) s = .next t →
    Touches [.regs 17, .regs 19, .out, .evt, .qqp, .pci, .pwr] s t) ∧
  (∀ fn qid value, exec (.cqHeadDoorbell fn qid value) s = .next t →
    Touches [.regs 17, .regs 19, .out, .evt, .qqp, .pci, .pwr] s t) ∧
  (∀ fn qid entries, exec (.submissionFetch fn qid entries) s = .next t →
    Touches [.regs 6, .regs 17, .regs 19, .fresh, .out, .evt, .qqp, .dck, .pci] s t) ∧
  (∀ key, exec (.completionPost key) s = .next t →
    Touches [.regs 11, .regs 17, .regs 19, .regs 20, .out, .evt, .gens, .qqp, .tly, .pci, .lve] s t) ∧
  (∀ fn qid, exec (.coalesceTimerExpires fn qid) s = .next t → Touches [.out, .qqp, .pci] s t) ∧
  (exec .mailboxGo s = .next t → Touches [.regs 6, .regs 16, .regs 17, .out, .evt, .qqp, .dck, .pci] s t) ∧
  (exec .mailboxCommandEnd s = .next t → Touches [.regs 0, .regs 19, .qqp, .tly] s t) ∧
  (∀ value, exec (.resultAck value) s = .next t → Touches [.regs 0, .regs 17, .out, .evt, .pci] s t) ∧
  (∀ key, exec (.ledgerQuery key) s = .next t → Touches [.regs 6, .regs 17, .out, .evt, .qqp, .dck, .pci] s t) ∧
  (∀ key, exec (.ledgerRelease key) s = .next t →
    Touches [.regs 6, .regs 17, .regs 19, .out, .evt, .qqp, .tly, .dck, .pci] s t)

/-- Frames of admin commands and of the memory commands. -/
def Obligations.FramesOfAdminAndMemory : Prop := ∀ s t : State,
  (∀ pc done window, exec (.hbmRefreshInterval pc done window) s = .next t →
    Touches [.regs 13, .regs 17, .out, .evt, .pci, .hbm] s t) ∧
  (∀ stack degc, exec (.hbmTempRead stack degc) s = .next t →
    Touches [.regs 13, .regs 17, .out, .evt, .pci, .hbm] s t) ∧
  (∀ mib ues, exec (.evacuationDone mib ues) s = .next t → Touches [.regs 13, .regs 17, .out, .evt, .pci, .hbm] s t) ∧
  (∀ ch ok, exec (.hbmWriteEyeRetrain ch ok) s = .next t → Touches [.regs 13, .regs 17, .out, .evt, .pci] s t) ∧
  (∀ port, exec (.hbmRequestUrgent port) s = .next t → Touches [.regs 13] s t) ∧
  (∀ ch, exec (.selfRefreshEntry ch) s = .next t → Touches [.regs 3, .regs 13] s t) ∧
  (∀ bank read fails, exec (.sweepStep bank read fails) s = .next t →
    Touches [.regs 14, .regs 17, .out, .evt, .pci, .spm] s t) ∧
  (∀ req kid head eph wrapped rest, exec (.keyCmdImport req kid head eph wrapped rest) s = .next t →
    Touches [.regs 6, .regs 7, .regs 11, .regs 12, .regs 13, .regs 14, .regs 16, .regs 17, .regs 20, .fresh, .out,
      .evt, .gens, .qqp, .tly, .dck, .pci, .lve, .med, .hbm, .spm, .cry] s t) ∧
  (∀ req kid, exec (.keyCmdRetire req kid) s = .next t →
    Touches [.regs 12, .regs 16, .regs 17, .out, .evt, .pci, .cry] s t) ∧
  (∀ req value, exec (.rekeyGo req value) s = .next t →
    Touches [.regs 12, .regs 16, .regs 17, .fresh, .out, .evt, .pci, .cry] s t) ∧
  (∀ flips owner, exec (.rekeySweepStep flips owner) s = .next t →
    Touches [.regs 6, .regs 11, .regs 12, .regs 17, .regs 20, .fresh, .out, .evt, .gens, .qqp, .tly, .dck, .pci,
      .lve, .cry] s t) ∧
  (∀ req value, exec (.resealGo req value) s = .next t →
    Touches [.regs 12, .regs 16, .regs 17, .fresh, .out, .evt, .tly, .pci, .hbm, .cry] s t) ∧
  (∀ r level idx owners, exec (.autoReseal r level idx owners) s = .next t →
    Touches [.regs 6, .regs 11, .regs 12, .regs 17, .regs 20, .fresh, .out, .evt, .gens, .qqp, .tly, .dck, .pci,
      .lve, .hbm, .cry]
      s t) ∧
  (∀ key, exec (.createQp key) s = .next t → Touches [.regs 6, .regs 17, .out, .evt, .qqp, .dck, .pci] s t) ∧
  (∀ key, exec (.deleteQp key) s = .next t →
    Touches [.regs 6, .regs 7, .regs 11, .regs 12, .regs 17, .regs 20, .out, .evt, .gens, .qqp, .tly, .dck, .pci,
      .lve] s t) ∧
  (∀ key, exec (.eventFetch key) s = .next t → Touches [.regs 6, .regs 17, .out, .evt, .qqp, .dck, .pci] s t) ∧
  (∀ key, exec (.fellQuery key) s = .next t → Touches [.regs 6, .regs 17, .out, .evt, .qqp, .dck, .pci] s t) ∧
  (∀ key, exec (.tractCreate key) s = .next t →
    Touches [.regs 6, .regs 7, .regs 11, .regs 12, .regs 17, .regs 20, .fresh, .out, .evt, .gens, .qqp, .tly, .dck,
      .pci, .lve] s t) ∧
  (∀ t', exec (.tractFormatDone t') s = .next t →
    Touches [.regs 6, .regs 7, .regs 11, .regs 17, .regs 20, .out, .evt, .gens, .qqp, .tly, .dck, .pci, .lve] s t) ∧
  (∀ key, exec (.tractDelete key) s = .next t →
    Touches [.regs 6, .regs 7, .regs 11, .regs 17, .regs 20, .out, .evt, .gens, .qqp, .tly, .dck, .pci, .lve] s t) ∧
  (∀ key, exec (.tractStateSetReadOnly key) s = .next t →
    Touches [.regs 6, .regs 7, .regs 11, .regs 17, .regs 20, .out, .evt, .gens, .qqp, .tly, .dck, .pci, .lve] s t) ∧
  (∀ key, exec (.tractStateSetReady key) s = .next t →
    Touches [.regs 6, .regs 7, .regs 11, .regs 17, .regs 20, .out, .evt, .gens, .qqp, .tly, .dck, .pci, .lve] s t) ∧
  (∀ t', exec (.tractDeleteDone t') s = .next t →
    Touches [.regs 6, .regs 7, .regs 9, .regs 11, .regs 12, .regs 17, .regs 20, .out, .evt, .gens, .qqp, .tly, .dck,
      .pci, .lve, .med] s t) ∧
  (∀ key, exec (.tractStateQuery key) s = .next t → Touches [.regs 6, .qqp, .dck] s t) ∧
  (∀ key, exec (.abort key) s = .next t →
    Touches [.regs 6, .regs 7, .regs 11, .regs 12, .regs 17, .regs 20, .out, .evt, .gens, .qqp, .tly, .dck, .pci,
      .lve] s t) ∧
  (∀ key head eph wrapped rest, exec (.keyImport key head eph wrapped rest) s = .next t →
    Touches [.regs 6, .regs 7, .regs 11, .regs 12, .regs 17, .regs 20, .out, .evt, .gens, .qqp, .tly, .dck, .pci,
      .lve, .med, .cry] s t) ∧
  (∀ key, exec (.keyRetire key) s = .next t →
    Touches [.regs 6, .regs 12, .regs 17, .out, .evt, .qqp, .dck, .pci, .cry] s t) ∧
  (∀ key, exec (.identify key) s = .next t → Touches [.regs 6, .regs 17, .out, .evt, .qqp, .dck, .pci] s t) ∧
  (∀ key, exec (.reseal key) s = .next t →
    Touches [.regs 6, .regs 12, .regs 17, .fresh, .out, .evt, .qqp, .tly, .dck, .pci, .hbm, .cry] s t)

/-- Frames of the Skidway network, the fabric and the stands. -/
def Obligations.FramesOfNetworkAndStands : Prop := ∀ s t : State,
  (∀ who q, exec (.skidwayRequestSend who q) s = .next t →
    Touches [.regs 5, .regs 6, .regs 16, .regs 17, .regs 20, .fresh, .out, .evt, .gens, .qqp, .tly, .dck, .pci,
      .med, .noc, .fab] s t) ∧
  (∀ landing q, exec (.landingMreq landing q) s = .next t →
    Touches [.regs 5, .regs 6, .regs 16, .regs 17, .regs 20, .fresh, .out, .evt, .gens, .qqp, .tly, .dck, .pci,
      .med, .noc, .fab] s t) ∧
  (∀ key, exec (.skidwayCompletion key) s = .next t →
    Touches [.regs 5, .regs 6, .regs 16, .regs 17, .fresh, .out, .evt, .qqp, .tly, .dck, .pci, .med, .noc, .fab] s
      t) ∧
  (∀ key, exec (.requestTimeout key) s = .next t →
    Touches [.regs 5, .regs 6, .regs 16, .regs 17, .fresh, .out, .evt, .qqp, .tly, .dck, .pci, .med, .noc, .fab] s
      t) ∧
  (∀ key, exec (.targetTimeout key) s = .next t →
    Touches [.regs 5, .regs 17, .regs 20, .out, .evt, .gens, .pci, .noc, .fab] s t) ∧
  (∀ landing key status data, exec (.landingTrsp landing key status data) s = .next t →
    Touches [.regs 5, .regs 17, .regs 20, .out, .evt, .gens, .pci, .noc, .fab] s t) ∧
  (∀ ni answered, exec (.isolationProbe ni answered) s = .next t →
    Touches [.regs 5, .regs 17, .out, .evt, .pci, .noc] s t) ∧
  (∀ key router port resp, exec (.routerAbsorb key router port resp) s = .next t →
    Touches [.regs 5, .regs 17, .regs 20, .out, .evt, .gens, .pci, .noc] s t) ∧
  (∀ req value, exec (.nocReconfigClose req value) s = .next t →
    Touches [.regs 16, .regs 17, .out, .evt, .pci, .noc] s t) ∧
  (∀ req value, exec (.nocReconfigOpen req value) s = .next t →
    Touches [.regs 16, .regs 17, .out, .evt, .pci, .noc] s t) ∧
  (∀ value, exec (.nocRtrClose value) s = .next t → Touches [.noc] s t) ∧
  (∀ ni, exec (.fenceOpen ni) s = .next t → Touches [.regs 4, .regs 5] s t) ∧
  (∀ landing, exec (.landingDisable landing) s = .next t →
    Touches [.regs 6, .regs 17, .regs 18, .out, .evt, .dck, .pci] s t) ∧
  (∀ key, exec (.standLoad key) s = .next t →
    Touches [.regs 1, .regs 6, .regs 17, .out, .evt, .qqp, .dck, .pci, .sl] s t) ∧
  (∀ req value, exec (.cfgSlCmd req value) s = .next t →
    Touches [.regs 1, .regs 6, .regs 17, .out, .evt, .qqp, .dck, .pci, .sl] s t) ∧
  (∀ img, exec (.standLoadStart img) s = .next t →
    Touches [.regs 1, .regs 6, .regs 17, .out, .evt, .qqp, .dck, .pci, .sl] s t) ∧
  (∀ wires, exec (.standDrainEnd wires) s = .next t →
    Touches [.regs 1, .regs 6, .regs 17, .regs 18, .out, .evt, .qqp, .dck, .pci, .noc, .fab, .sl] s t) ∧
  (∀ addr count frames err, exec (.runRecord addr count frames err) s = .next t →
    Touches [.regs 1, .regs 6, .regs 17, .regs 18, .out, .evt, .qqp, .dck, .pci, .fab, .sl] s t) ∧
  (∀ upset poison nvm, exec (.cruiserScanStep upset poison nvm) s = .next t →
    Touches [.regs 1, .regs 2, .regs 17, .out, .evt, .pci, .fab, .sl, .cru] s t) ∧
  (∀ nvm stuck, exec (.cruiserRepairDone nvm stuck) s = .next t →
    Touches [.regs 2, .regs 17, .out, .evt, .pci, .fab, .sl, .cru] s t) ∧
  (∀ req value, exec (.cruInj req value) s = .next t → Touches [.regs 16, .regs 17, .out, .evt, .pci, .sl] s t) ∧
  (∀ die line a b, exec (.spineContention die line a b) s = .next t →
    Touches [.regs 17, .regs 18, .out, .evt, .pci, .fab, .sl, .cru] s t) ∧
  (∀ req value, exec (.readbackGo req value) s = .next t →
    Touches [.regs 1, .regs 16, .regs 17, .regs 18, .out, .evt, .pci, .fab] s t) ∧
  (exec .readbackCaptureTimeout s = .next t → Touches [.fab] s t) ∧
  (∀ stands, exec (.readbackDone stands) s = .next t →
    Touches [.regs 6, .regs 11, .regs 12, .regs 13, .regs 14, .regs 17, .regs 18, .regs 20, .fresh, .out, .evt,
      .gens, .qqp, .tly, .dck, .pci, .lve, .hbm, .spm, .cry, .fab] s t) ∧
  (exec .readbackResume s = .next t → Touches [.regs 1, .regs 18, .fab] s t) ∧
  (∀ stand mem word read fails, exec (.fabSweepStep stand mem word read fails) s = .next t →
    Touches [.regs 14, .regs 17, .regs 18, .out, .evt, .pci] s t) ∧
  (∀ die mem word lost, exec (.userPortRead die mem word lost) s = .next t →
    Touches [.regs 17, .regs 18, .out, .evt, .pci, .fab] s t)

/-- Frames of polders, of LUNs, reads and raw sequences. -/
def Obligations.FramesOfPoldersAndMedia : Prop := ∀ s t : State,
  (∀ req p, exec (.polderDown req p) s = .next t →
    Touches [.regs 4, .regs 6, .regs 15, .regs 16, .regs 17, .out, .evt, .dck, .pci, .pwr, .lanes] s t) ∧
  (∀ req p, exec (.polderUp req p) s = .next t →
    Touches [.regs 4, .regs 6, .regs 15, .regs 16, .regs 17, .out, .evt, .dck, .pci, .pwr, .lanes] s t) ∧
  (∀ req p, exec (.polderReset req p) s = .next t →
    Touches [.regs 4, .regs 6, .regs 15, .regs 16, .regs 17, .out, .evt, .dck, .pci, .pwr, .lanes] s t) ∧
  (∀ p, exec (.polderCloseTimeout p) s = .next t → Touches [.regs 4] s t) ∧
  (∀ p, exec (.polderDrainEnd p) s = .next t →
    Touches [.regs 4, .regs 5, .regs 6, .regs 17, .regs 20, .out, .evt, .gens, .qqp, .dck, .pci, .noc, .fab, .pwr] s
      t) ∧
  (∀ p, exec (.polderDrainTimeout p) s = .next t →
    Touches [.regs 4, .regs 5, .regs 6, .regs 17, .regs 20, .out, .evt, .gens, .qqp, .dck, .pci, .noc, .fab, .pwr] s
      t) ∧
  (∀ req, exec (.stateRun req) s = .next t →
    Touches [.regs 3, .regs 4, .regs 6, .regs 15, .regs 16, .regs 17, .regs 19, .out, .evt, .qqp, .dck, .pci, .pwr,
      .lanes] s t) ∧
  (∀ req, exec (.stateSleep req) s = .next t →
    Touches [.regs 3, .regs 4, .regs 6, .regs 15, .regs 16, .regs 17, .regs 19, .out, .evt, .qqp, .dck, .pci, .pwr,
      .lanes] s t) ∧
  (∀ req, exec (.stateDeep req) s = .next t →
    Touches [.regs 3, .regs 4, .regs 6, .regs 15, .regs 16, .regs 17, .regs 19, .out, .evt, .qqp, .dck, .pci, .pwr,
      .lanes] s t) ∧
  (∀ source, exec (.systemWake source) s = .next t →
    Touches [.regs 3, .regs 4, .regs 6, .regs 15, .regs 17, .regs 19, .out, .evt, .qqp, .dck, .pci, .pwr, .lanes] s
      t) ∧
  (∀ p, exec (.polderIsolateDone p) s = .next t →
    Touches [.regs 3, .regs 4, .regs 9, .regs 12, .regs 15, .regs 17, .regs 18, .regs 19, .out, .evt, .qqp, .pci,
      .med, .fab, .pwr, .sl, .lanes] s t) ∧
  (∀ p, exec (.polderPowerupDone p) s = .next t →
    Touches [.regs 0, .regs 3, .regs 4, .regs 5, .regs 6, .regs 15, .regs 17, .regs 19, .regs 20, .out, .evt, .gens,
      .qqp, .dck, .pci, .med, .noc, .fab, .pwr, .lanes] s t) ∧
  (∀ p, exec (.polderResetDone p) s = .next t →
    Touches [.regs 0, .regs 4, .regs 9, .regs 12, .regs 15, .regs 17, .regs 18, .out, .evt, .pci, .med, .fab, .pwr,
      .sl, .lanes] s t) ∧
  (∀ x inst, exec (.crossingReopen x inst) s = .next t → Touches [.pwr] s t) ∧
  (∀ req value, exec (.epochRatchet req value) s = .next t →
    Touches [.regs 0, .regs 16, .regs 17, .out, .evt, .pci, .pwr] s t) ∧
  (∀ ch u planes raw, exec (.lunIssue ch u planes raw) s = .next t →
    Touches [.regs 5, .regs 6, .regs 9, .regs 11, .regs 12, .regs 13, .regs 14, .regs 17, .regs 20, .fresh, .out,
      .evt, .gens, .qqp, .tly, .dck, .pci, .lve, .med, .hbm, .spm, .cry, .noc, .fab] s t) ∧
  (∀ landing port die txn d r, exec (.rawStatus landing port die txn d r) s = .next t →
    Touches [.regs 5, .regs 6, .regs 9, .regs 11, .regs 12, .regs 13, .regs 14, .regs 17, .regs 20, .fresh, .out,
      .evt, .gens, .qqp, .tly, .dck, .pci, .lve, .med, .hbm, .spm, .cry, .noc, .fab] s t) ∧
  (∀ landing port die txn d, exec (.rawReadLike landing port die txn d) s = .next t →
    Touches [.regs 5, .regs 6, .regs 9, .regs 11, .regs 12, .regs 13, .regs 14, .regs 17, .regs 20, .fresh, .out,
      .evt, .gens, .qqp, .tly, .dck, .pci, .lve, .med, .hbm, .spm, .cry, .noc, .fab] s t) ∧
  (∀ landing port die txn d, exec (.rawProgramLike landing port die txn d) s = .next t →
    Touches [.regs 5, .regs 6, .regs 9, .regs 11, .regs 12, .regs 13, .regs 14, .regs 17, .regs 20, .fresh, .out,
      .evt, .gens, .qqp, .tly, .dck, .pci, .lve, .med, .hbm, .spm, .cry, .noc, .fab] s t) ∧
  (∀ landing port die txn d, exec (.rawEraseLike landing port die txn d) s = .next t →
    Touches [.regs 5, .regs 6, .regs 9, .regs 11, .regs 12, .regs 13, .regs 14, .regs 17, .regs 20, .fresh, .out,
      .evt, .gens, .qqp, .tly, .dck, .pci, .lve, .med, .hbm, .spm, .cry, .noc, .fab] s t) ∧
  (∀ landing port die txn d, exec (.rawFeature landing port die txn d) s = .next t →
    Touches [.regs 5, .regs 6, .regs 9, .regs 11, .regs 12, .regs 13, .regs 14, .regs 17, .regs 20, .fresh, .out,
      .evt, .gens, .qqp, .tly, .dck, .pci, .lve, .med, .hbm, .spm, .cry, .noc, .fab] s t) ∧
  (∀ landing port die txn d, exec (.rawResetLun landing port die txn d) s = .next t →
    Touches [.regs 5, .regs 6, .regs 9, .regs 11, .regs 12, .regs 13, .regs 14, .regs 17, .regs 20, .fresh, .out,
      .evt, .gens, .qqp, .tly, .dck, .pci, .lve, .med, .hbm, .spm, .cry, .noc, .fab] s t) ∧
  (∀ landing port die txn d, exec (.rawReturn landing port die txn d) s = .next t →
    Touches [.regs 5, .regs 6, .regs 9, .regs 11, .regs 12, .regs 13, .regs 14, .regs 17, .regs 20, .fresh, .out,
      .evt, .gens, .qqp, .tly, .dck, .pci, .lve, .med, .hbm, .spm, .cry, .noc, .fab] s t) ∧
  (∀ ch u, exec (.suspend ch u) s = .next t → Touches [.regs 9] s t) ∧
  (∀ die, exec (.medHoursTick die) s = .next t → Touches [.regs 9] s t) ∧
  (∀ ch u, exec (.operationResume ch u) s = .next t → Touches [.regs 9, .med] s t) ∧
  (∀ id step sw, exec (.busTransferDone id step sw) s = .next t → Touches [.regs 9, .med] s t) ∧
  (∀ ch u fail suspended raw, exec (.lunStatusReady ch u fail suspended raw) s = .next t →
    Touches [.regs 5, .regs 6, .regs 7, .regs 9, .regs 11, .regs 12, .regs 13, .regs 14, .regs 17, .regs 20, .fresh,
      .out, .evt, .gens, .qqp, .tly, .dck, .pci, .lve, .med, .hbm, .spm, .cry, .noc, .fab] s t) ∧
  (∀ ch u, exec (.lunTimeout ch u) s = .next t →
    Touches [.regs 5, .regs 6, .regs 7, .regs 9, .regs 11, .regs 12, .regs 13, .regs 14, .regs 17, .regs 20, .fresh,
      .out, .evt, .gens, .qqp, .tly, .dck, .pci, .lve, .med, .hbm, .spm, .cry, .noc, .fab] s t) ∧
  (∀ id step res, exec (.hardDecodeDone id step res) s = .next t →
    Touches [.regs 6, .regs 7, .regs 9, .regs 11, .regs 17, .regs 20, .fresh, .out, .evt, .gens, .qqp, .tly, .dck,
      .pci, .lve, .med] s t) ∧
  (∀ id res, exec (.softDecodeDone id res) s = .next t →
    Touches [.regs 6, .regs 7, .regs 9, .regs 11, .regs 17, .regs 20, .fresh, .out, .evt, .gens, .qqp, .tly, .dck,
      .pci, .lve, .med] s t) ∧
  (∀ stripe passEnd, exec (.patrolVisit stripe passEnd) s = .next t →
    Touches [.regs 6, .regs 9, .regs 17, .fresh, .out, .evt, .dck, .pci, .med] s t) ∧
  (∀ req die value, exec (.medHoursWrite req die value) s = .next t →
    Touches [.regs 9, .regs 16, .regs 17, .out, .evt, .pci] s t) ∧
  (∀ ch auto ok, exec (.channelRetrain ch auto ok) s = .next t →
    Touches [.regs 5, .regs 6, .regs 7, .regs 9, .regs 11, .regs 12, .regs 13, .regs 14, .regs 17, .regs 20, .fresh,
      .out, .evt, .gens, .qqp, .tly, .dck, .pci, .lve, .med, .hbm, .spm, .cry, .noc, .fab] s t) ∧
  (∀ die, exec (.zqShortTimer die) s = .next t → Touches [.out] s t) ∧
  (∀ ch vol degc, exec (.nandTemperatureRead ch vol degc) s = .next t → Touches [.med] s t) ∧
  (∀ r, exec (.retryBackoffExpires r) s = .next t →
    Touches [.regs 5, .regs 6, .regs 7, .regs 9, .regs 11, .regs 12, .regs 13, .regs 14, .regs 16, .regs 17, .regs
      20, .fresh, .out, .evt, .gens, .qqp, .tly, .dck, .pci, .lve, .med, .hbm, .spm, .cry, .noc, .fab] s t) ∧
  (∀ landing port die txn d, exec (.rawLend landing port die txn d) s = .next t →
    Touches [.regs 5, .regs 6, .regs 9, .regs 11, .regs 12, .regs 13, .regs 14, .regs 17, .regs 20, .fresh, .out,
      .evt, .gens, .qqp, .tly, .dck, .pci, .lve, .med, .hbm, .spm, .cry, .noc, .fab] s t)

/-- Frames of group ownership and of the pair of parts. -/
def Obligations.FramesOfPairing : Prop := ∀ s t : State,
  (∀ req g, exec (.claim req g) s = .next t →
    Touches [.regs 4, .regs 9, .regs 16, .regs 17, .out, .evt, .pci, .med, .pwr] s t) ∧
  (∀ g, exec (.wireReleaseDelay g) s = .next t →
    Touches [.regs 4, .regs 9, .regs 16, .regs 17, .out, .evt, .pci, .med, .pwr] s t) ∧
  (∀ g fall, exec (.mgOwnWireLow g fall) s = .next t → Touches [.regs 9, .med] s t) ∧
  (∀ g, exec (.mgOwnWireHigh g) s = .next t → Touches [.regs 9, .med] s t) ∧
  (∀ g, exec (.arbitrationComplete g) s = .next t → Touches [.regs 9, .med] s t) ∧
  (∀ g, exec (.mgOwnQuietTimer g) s = .next t →
    Touches [.regs 4, .regs 9, .regs 16, .regs 17, .out, .evt, .pci, .lve, .med, .pwr] s t) ∧
  (∀ g low, exec (.arbitrationSlot g low) s = .next t → Touches [.regs 9, .regs 17, .out, .evt, .pci, .med] s t) ∧
  (∀ g, exec (.ownWireFault g) s = .next t → Touches [.regs 9, .regs 17, .out, .evt, .pci, .med] s t) ∧
  (∀ g, exec (.driverEnableDelay g) s = .next t →
    Touches [.regs 5, .regs 6, .regs 7, .regs 9, .regs 11, .regs 12, .regs 13, .regs 14, .regs 17, .regs 20, .fresh,
      .out, .evt, .gens, .qqp, .tly, .dck, .pci, .lve, .med, .hbm, .spm, .cry, .noc, .fab] s t) ∧
  (∀ g, exec (.forceWaitExpires g) s = .next t →
    Touches [.regs 5, .regs 6, .regs 7, .regs 9, .regs 11, .regs 12, .regs 13, .regs 14, .regs 17, .regs 20, .fresh,
      .out, .evt, .gens, .qqp, .tly, .dck, .pci, .lve, .med, .hbm, .spm, .cry, .noc, .fab] s t) ∧
  (∀ g, exec (.groupDrainTimeout g) s = .next t →
    Touches [.regs 5, .regs 6, .regs 7, .regs 9, .regs 11, .regs 12, .regs 13, .regs 14, .regs 17, .regs 20, .fresh,
      .out, .evt, .gens, .qqp, .tly, .dck, .pci, .lve, .med, .hbm, .spm, .cry, .noc, .fab] s t) ∧
  (∀ g b, exec (.groupBringupDone g b) s = .next t →
    Touches [.regs 5, .regs 6, .regs 7, .regs 9, .regs 11, .regs 12, .regs 13, .regs 14, .regs 17, .regs 20, .fresh,
      .out, .evt, .gens, .qqp, .tly, .dck, .pci, .lve, .med, .hbm, .spm, .cry, .noc, .fab] s t) ∧
  (∀ req g, exec (.release req g) s = .next t →
    Touches [.regs 5, .regs 6, .regs 7, .regs 9, .regs 11, .regs 12, .regs 13, .regs 14, .regs 16, .regs 17, .regs
      20, .fresh, .out, .evt, .gens, .qqp, .tly, .dck, .pci, .lve, .med, .hbm, .spm, .cry, .noc, .fab] s t) ∧
  (∀ g, exec (.groupDrainEnd g) s = .next t →
    Touches [.regs 9, .regs 11, .regs 17, .regs 20, .out, .evt, .gens, .tly, .pci, .lve, .med] s t) ∧
  (∀ die, exec (.keeperTrip die) s = .next t →
    Touches [.regs 9, .regs 11, .regs 17, .regs 20, .out, .evt, .gens, .tly, .pci, .lve, .med] s t) ∧
  (exec .deathDeclared s = .next t →
    Touches [.regs 4, .regs 7, .regs 9, .regs 11, .regs 16, .regs 17, .regs 20, .out, .evt, .gens, .qqp, .tly, .pci,
      .lve, .med, .pwr] s t) ∧
  (exec .orphanTimeout s = .next t →
    Touches [.regs 4, .regs 7, .regs 9, .regs 11, .regs 16, .regs 17, .regs 20, .out, .evt, .gens, .qqp, .tly, .pci,
      .lve, .med, .pwr] s t) ∧
  (∀ r, exec (.rebuildDone r) s = .next t →
    Touches [.regs 4, .regs 7, .regs 9, .regs 11, .regs 12, .regs 16, .regs 17, .regs 20, .fresh, .out, .evt, .gens,
      .qqp, .tly, .pci, .lve, .med, .hbm, .cry, .pwr] s t) ∧
  (exec .takeoverWithdraw s = .next t →
    Touches [.regs 5, .regs 6, .regs 7, .regs 9, .regs 11, .regs 12, .regs 13, .regs 14, .regs 16, .regs 17, .regs
      20, .fresh, .out, .evt, .gens, .qqp, .tly, .dck, .pci, .lve, .med, .hbm, .spm, .cry, .noc, .fab] s t) ∧
  (∀ root, exec (.checkpointEnd root) s = .next t →
    Touches [.regs 5, .regs 6, .regs 7, .regs 9, .regs 11, .regs 12, .regs 13, .regs 14, .regs 16, .regs 17, .regs 20,
      .fresh, .out, .evt, .gens, .qqp, .tly, .dck, .pci, .lve, .med, .hbm, .spm, .cry, .noc, .fab] s t) ∧
  (exec .pfailNFall s = .next t →
    Touches [.regs 5, .regs 6, .regs 7, .regs 9, .regs 11, .regs 12, .regs 13, .regs 14, .regs 16, .regs 17, .regs
      20, .fresh, .out, .evt, .gens, .qqp, .tly, .dck, .pci, .lve, .med, .hbm, .spm, .cry, .noc, .fab] s t) ∧
  (∀ r, exec (.foreignMapUsable r) s = .next t →
    Touches [.regs 6, .regs 7, .regs 11, .regs 12, .regs 17, .regs 20, .fresh, .out, .evt, .gens, .qqp, .tly, .dck,
      .pci, .lve, .hbm, .cry] s t) ∧
  (exec .foreignReplayDone s = .next t → Touches [.regs 9, .regs 17, .out, .evt, .pci, .lve, .med] s t) ∧
  (exec .refugeSave s = .next t → Touches [.regs 9, .regs 17, .out, .evt, .pci, .lve, .med] s t) ∧
  (∀ req value, exec (.handbackStart req value) s = .next t →
    Touches [.regs 11, .regs 16, .regs 17, .regs 20, .out, .evt, .gens, .tly, .pci, .lve] s t) ∧
  (exec .handbackDestageDone s = .next t →
    Touches [.regs 7, .regs 11, .regs 17, .regs 20, .out, .evt, .gens, .tly, .pci, .lve] s t) ∧
  (exec .partnerAliveOutToggle s = .next t → Touches [.lve] s t) ∧
  (exec .pfailNRise s = .next t → Touches [.lve] s t) ∧
  (exec .partnerAliveEdge s = .next t →
    Touches [.regs 11, .regs 17, .regs 20, .out, .evt, .gens, .qqp, .tly, .pci, .lve] s t) ∧
  (exec .linkSilent s = .next t →
    Touches [.regs 11, .regs 17, .regs 20, .out, .evt, .gens, .qqp, .tly, .pci, .lve] s t) ∧
  (exec .wireSilent s = .next t → Touches [.regs 11, .regs 17, .out, .evt, .pci] s t) ∧
  (exec .trainingTimeout s = .next t → Touches [.regs 11, .regs 17, .out, .evt, .pci] s t) ∧
  (exec .pfailDetected s = .next t → Touches [.regs 11, .regs 17, .regs 20, .out, .evt, .gens, .tly, .pci, .lve] s t) ∧
  (exec .pfailAckTimeout s = .next t → Touches [.regs 17, .out, .evt, .qqp, .tly, .pci, .lve, .med] s t) ∧
  (exec .fetchResume s = .next t → Touches [.lve, .med] s t)

/-- Frames of the Levee link. -/
def Obligations.FramesOfLevee : Prop := ∀ s t : State,
  (∀ req value, exec (.bundleEnableWrite req value) s = .next t →
    Touches [.regs 3, .regs 11, .regs 15, .regs 17, .regs 20, .out, .evt, .gens, .qqp, .tly, .pci, .lve, .lanes,
      .clk] s t) ∧
  (∀ b, exec (.bundleDetectTimeout b) s = .next t →
    Touches [.regs 3, .regs 11, .regs 15, .regs 17, .regs 20, .out, .evt, .gens, .qqp, .tly, .pci, .lve, .lanes,
      .clk] s t) ∧
  (∀ b rev found, exec (.bundleAlignDone b rev found) s = .next t →
    Touches [.regs 3, .regs 11, .regs 15, .regs 17, .regs 20, .out, .evt, .gens, .qqp, .tly, .pci, .lve, .lanes,
      .clk] s t) ∧
  (∀ b c, exec (.cert b c) s = .next t →
    Touches [.regs 3, .regs 11, .regs 15, .regs 17, .regs 20, .out, .evt, .gens, .qqp, .tly, .pci, .lve, .lanes, .clk]
      s t) ∧
  (∀ b p, exec (.share b p) s = .next t →
    Touches [.regs 3, .regs 11, .regs 15, .regs 17, .regs 20, .fresh, .out, .evt, .gens, .qqp, .tly, .pci, .lve,
      .lanes, .clk] s t) ∧
  (∀ b, exec (.keyTimeout b) s = .next t →
    Touches [.regs 3, .regs 11, .regs 15, .regs 17, .regs 20, .out, .evt, .gens, .qqp, .tly, .pci, .lve, .lanes,
      .clk] s t) ∧
  (∀ b, exec (.bundleRetrainTimeout b) s = .next t →
    Touches [.regs 3, .regs 11, .regs 15, .regs 17, .regs 20, .out, .evt, .gens, .qqp, .tly, .pci, .lve, .lanes,
      .clk] s t) ∧
  (∀ b, exec (.probeGivesUp b) s = .next t →
    Touches [.regs 3, .regs 11, .regs 15, .regs 17, .regs 20, .out, .evt, .gens, .qqp, .tly, .pci, .lve, .lanes,
      .clk] s t) ∧
  (∀ b atLimit, exec (.bundleEqualiseEnd b atLimit) s = .next t →
    Touches [.regs 11, .regs 15, .regs 16, .regs 17, .out, .evt, .pci, .lve, .lanes] s t) ∧
  (∀ b x, exec (.ident b x) s = .next t →
    Touches [.regs 3, .regs 4, .regs 5, .regs 6, .regs 7, .regs 9, .regs 11, .regs 12, .regs 13, .regs 14, .regs 15,
      .regs 16, .regs 17, .regs 20, .fresh, .out, .evt, .gens, .qqp, .tly, .dck, .pci, .lve, .med, .hbm, .spm, .cry,
      .noc, .fab, .pwr, .lanes, .clk] s t) ∧
  (∀ b r sg time, exec (.finish b r sg time) s = .next t →
    Touches [.regs 3, .regs 4, .regs 9, .regs 11, .regs 15, .regs 16, .regs 17, .regs 20, .time, .out, .evt, .gens,
      .qqp, .tly, .pci, .lve, .med, .pwr, .lanes, .clk] s t) ∧
  (∀ req b, exec (.bundleRetrain req b) s = .next t →
    Touches [.regs 3, .regs 11, .regs 15, .regs 17, .regs 20, .out, .evt, .gens, .tly, .pci, .lve, .lanes, .clk] s
      t) ∧
  (∀ b, exec (.replayTimer b) s = .next t →
    Touches [.regs 3, .regs 11, .regs 15, .regs 17, .regs 20, .out, .evt, .gens, .tly, .pci, .lve, .lanes, .clk] s
      t) ∧
  (∀ b rev, exec (.bundleRetrainDone b rev) s = .next t →
    Touches [.regs 4, .regs 9, .regs 11, .regs 12, .regs 16, .regs 17, .regs 20, .out, .evt, .gens, .tly, .pci,
      .lve, .med, .pwr, .lanes] s t) ∧
  (∀ b, exec (.linkKeyUpdate b) s = .next t → Touches [.regs 12, .lve] s t) ∧
  (∀ b f, exec (.flitReceive b f) s = .next t →
    Touches [.regs 3, .regs 4, .regs 9, .regs 11, .regs 15, .regs 16, .regs 17, .regs 20, .out, .evt, .gens, .tly,
      .pci, .lve, .med, .pwr, .lanes, .clk] s t) ∧
  (∀ b, exec (.nakRepeatTimer b) s = .next t → Touches [.lve] s t) ∧
  (∀ reason, exec (.leaving reason) s = .next t → Touches [.lve] s t) ∧
  (∀ groups, exec (.handbackReq groups) s = .next t → Touches [.lve] s t) ∧
  (∀ bseq tract kid iu p data resync ownHalf, exec (.mirrorWrite bseq tract kid iu p data resync ownHalf) s = .next t →
    Touches [.regs 11, .regs 12, .regs 17, .regs 20, .fresh, .out, .evt, .gens, .tly, .pci, .lve, .hbm, .cry] s t) ∧
  (∀ bseqs, exec (.lineRelease bseqs) s = .next t →
    Touches [.regs 11, .regs 17, .regs 20, .out, .evt, .gens, .tly, .pci, .lve] s t) ∧
  (∀ bseq, exec (.healReq bseq) s = .next t →
    Touches [.regs 11, .regs 17, .regs 20, .out, .evt, .gens, .tly, .pci, .lve] s t) ∧
  (exec .heartbeatSend s = .next t → Touches [.regs 11, .regs 17, .regs 20, .out, .evt, .gens, .tly, .pci, .lve] s t) ∧
  (∀ bseqs, exec (.mirrorAck bseqs) s = .next t → Touches [.regs 11, .qqp, .tly, .lve] s t) ∧
  (∀ seq recs resync, exec (.journal seq recs resync) s = .next t →
    Touches [.regs 6, .regs 7, .regs 11, .regs 12, .regs 17, .regs 20, .out, .evt, .gens, .qqp, .tly, .dck, .pci,
      .lve] s t) ∧
  (∀ seq, exec (.journalAck seq) s = .next t →
    Touches [.regs 4, .regs 9, .regs 11, .regs 16, .regs 17, .regs 20, .out, .evt, .gens, .qqp, .tly, .pci, .lve,
      .med, .pwr] s t) ∧
  (∀ bseqs, exec (.releaseAck bseqs) s = .next t → Touches [.qqp, .tly] s t) ∧
  (∀ time pair groups pfailLow limit dirty, exec (.heartbeat time pair groups pfailLow limit dirty) s = .next t →
    Touches [.regs 6, .regs 7, .regs 11, .regs 17, .regs 20, .time, .fresh, .out, .evt, .gens, .qqp, .tly, .dck,
      .pci, .lve] s t) ∧
  (exec .pfail s = .next t → Touches [.regs 11] s t) ∧
  (exec .unknownMessage s = .next t → Touches [.regs 11] s t) ∧
  (∀ bseq seq, exec (.resyncDone bseq seq) s = .next t →
    Touches [.regs 4, .regs 9, .regs 11, .regs 16, .regs 17, .regs 20, .out, .evt, .gens, .tly, .pci, .lve, .med,
      .pwr] s t) ∧
  (∀ groups, exec (.handbackGrant groups) s = .next t →
    Touches [.regs 4, .regs 9, .regs 16, .regs 17, .out, .evt, .pci, .lve, .med, .pwr] s t) ∧
  (∀ bseq data, exec (.healData bseq data) s = .next t →
    Touches [.regs 6, .regs 11, .regs 12, .regs 13, .regs 17, .regs 20, .fresh, .out, .evt, .gens, .qqp, .tly, .dck,
      .pci, .lve, .hbm, .cry] s t) ∧
  (∀ bseq, exec (.healTimeout bseq) s = .next t → Touches [.regs 17, .out, .evt, .tly, .pci, .lve] s t) ∧
  (∀ b, exec (.probeDue b) s = .next t → Touches [.regs 11, .regs 15, .lve] s t)

/-- Frames of the lanes, the PCIe port, accesses, the root PLL and the image load. -/
def Obligations.FramesOfLanesAndPorts : Prop := ∀ s t : State,
  (∀ lane seen, exec (.laneDetectPoll lane seen) s = .next t → Touches [.regs 11, .regs 15, .lanes] s t) ∧
  (∀ lane, exec (.idlePatternEnd lane) s = .next t → Touches [.lanes] s t) ∧
  (∀ lane, exec (.laneSignalPresent lane) s = .next t → Touches [.regs 15, .lanes] s t) ∧
  (∀ lane, exec (.partnerTerminationLost lane) s = .next t → Touches [.regs 15, .lanes] s t) ∧
  (∀ lane control status ready, exec (.laneTrainingFrame lane control status ready) s = .next t →
    Touches [.regs 15, .lanes] s t) ∧
  (∀ lane, exec (.laneSignalAbsent lane) s = .next t → Touches [.regs 15, .lanes] s t) ∧
  (∀ lane, exec (.laneSignalLoss lane) s = .next t → Touches [.regs 15, .lanes] s t) ∧
  (∀ lane w, exec (.adaptWindow lane w) s = .next t → Touches [.regs 15, .lanes] s t) ∧
  (∀ lane, exec (.laneRetrain lane) s = .next t → Touches [.regs 15, .lanes] s t) ∧
  (∀ quad present, exec (.quadRefclkChange quad present) s = .next t → Touches [.regs 15, .lanes] s t) ∧
  (∀ lane, exec (.laneAcquired lane) s = .next t → Touches [.regs 15] s t) ∧
  (∀ lane, exec (.laneSignalReturn lane) s = .next t → Touches [.regs 15] s t) ∧
  (∀ lane, exec (.laneReadaptDone lane) s = .next t → Touches [.regs 15] s t) ∧
  (∀ quad lanes am, exec (.blockLock quad lanes am) s = .next t → Touches [.regs 15] s t) ∧
  (∀ lane, exec (.prbsInject lane) s = .next t → Touches [.regs 15] s t) ∧
  (∀ lane, exec (.prbsPeriodicInject lane) s = .next t → Touches [.regs 15] s t) ∧
  (∀ lane lock errs units, exec (.prbsCheckerLock lane lock errs units) s = .next t → Touches [.regs 15] s t) ∧
  (∀ lane, exec (.laneAttemptTimeout lane) s = .next t →
    Touches [.regs 15, .regs 16, .regs 17, .out, .evt, .pci, .lanes] s t) ∧
  (∀ lane, exec (.laneLockLost lane) s = .next t → Touches [.regs 15, .regs 17, .out, .evt, .pci, .lanes] s t) ∧
  (∀ b lanes, exec (.bundleLaneSignal b lanes) s = .next t → Touches [.regs 15, .lve] s t) ∧
  (∀ quad rises corr uncorr sym under, exec (.hiBer quad rises corr uncorr sym under) s = .next t →
    Touches [.regs 15, .regs 17, .out, .evt, .pci] s t) ∧
  (∀ lane value, exec (.coefficientInputWrite lane value) s = .next t →
    Touches [.regs 15, .regs 17, .out, .evt, .pci] s t) ∧
  (exec .perstNRise s = .next t → Touches [.regs 15, .regs 19, .qqp, .pci] s t) ∧
  (∀ fn us, exec (.flrDone fn us) s = .next t → Touches [.regs 16, .regs 17, .out, .evt, .pci] s t) ∧
  (∀ req value, exec (.pcieRetrain req value) s = .next t → Touches [.regs 16, .regs 17, .out, .evt, .pci] s t) ∧
  (exec .pcieHardBlockReady s = .next t → Touches [.regs 15, .regs 16] s t) ∧
  (∀ speed width m, exec (.pcieLinkUp speed width m) s = .next t →
    Touches [.regs 16, .regs 17, .regs 19, .out, .evt, .qqp, .pci] s t) ∧
  (∀ width, exec (.l0pHostRequest width) s = .next t → Touches [.regs 16] s t) ∧
  (exec .l0pNarrow s = .next t → Touches [.regs 16] s t) ∧
  (exec .l0pWiden s = .next t → Touches [.regs 16] s t) ∧
  (∀ fn vec, exec (.msixUnmask fn vec) s = .next t → Touches [.out, .pci] s t) ∧
  (∀ t' d, exec (.hostReadCompletion t' d) s = .next t →
    Touches [.regs 6, .regs 16, .regs 17, .out, .evt, .qqp, .dck, .pci] s t) ∧
  (∀ t', exec (.hostCompletionTimeout t') s = .next t → Touches [.regs 16, .regs 17, .out, .evt, .qqp, .pci] s t) ∧
  (exec .pllUnlock s = .next t → Touches [.regs 3, .regs 9, .regs 17, .out, .evt, .pci, .lve, .med, .clk] s t) ∧
  (∀ req off, exec (.pairLoRead req off) s = .next t → Touches [.regs 17, .shadow, .out, .evt, .pci] s t) ∧
  (∀ req value, exec (.evtPeek req value) s = .next t → Touches [.regs 0, .regs 17, .out, .evt, .pci] s t) ∧
  (∀ img, exec (.headerReceived img) s = .next t → Touches [.regs 1, .fresh, .out, .cfg, .fab] s t) ∧
  (exec .noStreamTimeout s = .next t → Touches [.regs 1, .fresh, .cfg, .fab] s t) ∧
  (exec .primaryStreamEnd s = .next t → Touches [.regs 1, .cfg] s t) ∧
  (exec .fallbackFirstRead s = .next t → Touches [.regs 1, .cfg] s t) ∧
  (∀ stack ok, exec (.hbmTrainingDone stack ok) s = .next t → Touches [.regs 1, .fresh, .cfg, .fab] s t) ∧
  (exec .cfgSyncLow s = .next t → Touches [.cfg] s t) ∧
  (exec .fallbackStreamEnd s = .next t → Touches [.cfg] s t) ∧
  (exec .preloadHoldExpires s = .next t → Touches [.cfg] s t) ∧
  (∀ tracts hours0 hours1 lib, exec (.startSequence tracts hours0 hours1 lib) s = .next t →
    Touches [.regs 1, .regs 4, .regs 6, .regs 7, .regs 9, .regs 11, .regs 12, .regs 14, .regs 15, .regs 16, .regs 17,
      .fresh, .out, .evt, .tly, .dck, .pci, .cfg, .lve, .med, .cry, .fab, .pwr, .sl, .cru] s t) ∧
  (exec .perstNAssert s = .next t →
    ∀ p, (∀ b, p ≠ .regs b) → p ∉
    ([.shadow, .stage, .out, .evt, .gens, .qqp, .tly, .dck, .pci, .cfg, .lve, .pwr, .lanes] : List Part) → p.same s t) ∧
  (∀ hot, exec (.linkDown hot) s = .next t →
    ∀ p, (∀ b, p ≠ .regs b) → p ∉ ([.shadow, .stage, .out, .evt, .gens, .qqp, .tly, .dck, .pci, .lve, .pwr] : List Part) →
    p.same s t) ∧
  (∀ fn, exec (.flr fn) s = .next t →
    ∀ p, (∀ b, p ≠ .regs b) → p ∉ ([.shadow, .stage, .out, .evt, .gens, .qqp, .tly, .dck, .pci, .lve, .pwr] : List Part) →
    p.same s t) ∧
  (∀ fn r, exec (.configurationRequest fn r) s = .next t →
    ∀ p, (∀ b, p ≠ .regs b) → p ∉ ([.shadow, .stage, .out, .evt, .gens, .qqp, .tly, .dck, .pci, .lve, .pwr] : List Part) →
    p.same s t)

/-- A step takes the command at the front of the queue, runs it with the queue's rest, and answers its outcome. -/
def Obligations.StepRunsFrontCommand : Prop := ∀ (s : State) (c : Instr) (rest : List Instr), s.pending = c :: rest →
  step s = exec c { s with pending := rest }

/-- With nothing waiting the block idles: in a part that runs the time base counts on by one, modulo 2^64, user logic, a header's
authentication, the Tally and the elastic buffer do what is due, and with none of them due nothing but the time base, the test
access port's samples and the stall counters of QQP changes; in a dark part only the test access port samples its wires. This is the
model's choice (log entry 1). -/
def Obligations.IdleStepCountsTime : Prop := ∀ s : State, s.pending = [] →
  (s.dark = false → ∃ t, step s = .next t ∧ t.time = (s.time + 1) % 2 ^ 64 ∧
    Touches [.regs 1, .regs 5, .regs 6, .regs 7, .regs 9, .regs 11, .regs 12, .regs 13, .regs 14, .regs 16, .regs 17, .regs 19,
      .regs 20, .time, .fresh, .out, .evt, .gens, .qqp, .tly, .dck, .pci, .cfg, .lve, .med, .hbm, .spm, .cry, .noc, .fab, .sl,
      .tap] s t ∧
    (s.cfg.clkOn = false ∨ s.sl.frames = [] → s.cfg.img = none → s.tly.usable = false → s.pci.ppm = 0 →
      Touches [.time, .tap, .regs 19] s t)) ∧
  (s.dark = true → step s = .next s.tapSample ∧ Touches [.tap] s s.tapSample)

/-- Every step answers a next state: nothing that can stand in the queue, and no state, makes the model stop. -/
def Obligations.EveryStepAnswers : Prop := ∀ s : State, s.safe

/-- After reset nothing waits and nothing has been sent, no register word, HBM line or scratchpad line is listed, so each
reads as its table or a log entry gives, and the state is in the form that every step keeps. -/
def Obligations.ResetState : Prop :=
  State.reset.pending = [] ∧ State.reset.out = [] ∧ State.reset.dark = false ∧ State.reset.cfg.done = false ∧
  State.reset.refused = false ∧ (∀ f i j, State.reset.rd f i j = f.reset i) ∧ (∀ n, State.reset.hline n = {}) ∧
  (∀ b n, State.reset.sline b n = {}) ∧ InForm State.reset ∧
  -- reset values of Table BOT-10 and of the register tables of the blocks
  State.reset.rd F.CFG_STATUS_STATE = 1 ∧ State.reset.rd F.TLY_JSEQ_LO = 1 ∧ State.reset.rd F.TLY_CKPT_TRIG_RECORDS = 64 ∧
  (∀ p, State.reset.rd F.DCK_POOL_CFG_TMO p = 1000) ∧ (∀ d, State.reset.rd F.MED_GC_CFG_GC_LOW d = 8) ∧
  State.reset.rd F.LVE_DEATH_CFG_DEATH_US = 100 ∧ State.reset.rd F.EVT_SEQ = 1 ∧ State.reset.rd F.EVT_ACK = 1 ∧
  State.reset.rd F.EVT_RATE = 64 ∧ State.reset.rd F.PCI_CTL_MAX_SPEED = 6 ∧ State.reset.rd F.INJ_SEED = 1

/-- Nothing but the power-on reset and its causes, CFG_PROG_N, test instructions and the levels that others drive on the
part's pins reaches a part whose clocks stand, that a reset holds or that a test instruction holds (R707, R854, R870, R874). -/
def Obligations.DarkPartStandsStill : Prop := ∀ (s : State) (c : Instr), s.dark = true →
  (∀ role slot ref, c ≠ .powerOnReset role slot ref) → (∀ role slot ref, c ≠ .cfgProgNPulse role slot ref) → c ≠ .railFault →
  (∀ die degc, c ≠ .thermalRead die degc) → (∀ x, c ≠ .testInstructionLoad x) →
  (∀ role slot ref, c ≠ .testLogicReset role slot ref) → c ≠ .perstNAssert → c ≠ .perstNRise → c ≠ .pfailNFall →
  c ≠ .pfailNRise → (∀ g fall, c ≠ .mgOwnWireLow g fall) → (∀ g, c ≠ .mgOwnWireHigh g) → exec c s = .next s

/-- No command changes the commands that wait behind it or the fuses, and free values are drawn but
never drawn twice. -/
def Obligations.CommandsKeepQueueAndFuses : Prop := ∀ (s t : State) (c : Instr), exec c s = .next t →
  t.pending = s.pending ∧ t.fuses = s.fuses ∧ s.fresh ≤ t.fresh

/-- The whole machine keeps its form: from every state whose register words and memory lines are in canonical form and whose
time base fits its 64 bits (R834), every step, whatever command it runs, leads to such a state. -/
def Obligations.StepKeepsForm : Prop := ∀ s t : State, InForm s → step s = .next t → InForm t

/-- R817: a read of a low word returns it and latches the high word for this requester; a read of a high word returns what the
requester's last read of the low word latched, and 0 where it has latched nothing since the block's reset. -/
def Obligations.PairReads : Prop := ∀ (s : State) (req : Req) (o : Nat), s.answers o = true →
  ¬ (0x10000 ≤ o % 0x4000000 ∧ o % 0x4000000 < 0x11000) → ¬ (0x1110000 ≤ o % 0x4000000 ∧ o % 0x4000000 < 0x1130000) →
  (hasTy o .rl = true → hasTy o .rs = false → s.readWord req o = (s.latch req o, s.word req o)) ∧
  (hasTy o .rs = true → Map.get none s.shadow (stageKey req (o - 4)) = none → s.readWord req o = (s, 0)) ∧
  (∀ x, hasTy o .rs = true → Map.get none s.shadow (stageKey req (o - 4)) = some x → s.readWord req o = (s, x)) ∧
  (∀ p, Map.above 0 s.shadow = true → hasTy o .rs = true → o = p + 4 →
    (s.latch req p).readWord req o = (s.latch req p, s.word req o)) ∧
  -- a reset that reaches the pair takes the shadow
  (∀ p : Nat → Bool, o < 2 ^ 40 → p o = true → Map.get none (s.dropRegs p).shadow (stageKey req o) = none) ∧
  Map.get none State.reset.shadow (stageKey req o) = none

/-- R818: a write of a low word stages it for its requester and changes nothing else; a write of a high word commits it together
with the low word that this requester last staged for the pair since its last commit, or with the current low word where it has
staged nothing, and leaves what every other requester has staged. The pairs of R820, which the hardware maintains, are those of
`pairRo`. -/
def Obligations.PairWrites : Prop := ∀ s : State, Memory.wf s = true → Map.above 0 s.stage = true →
  ∀ (req : Req) (lo v : Nat), lo % 0x100000 < 0xFFC → pairRo lo = false →
  (hasTy lo .rl = true →
    let t := s.regWrite req lo v
    Touches [.stage] s t ∧ Map.get none t.stage (stageKey req lo) = some (v % 2 ^ 32) ∧
    ∀ k, k ≠ stageKey req lo → Map.get none t.stage k = Map.get none s.stage k) ∧
  (hasTy (lo + 4) .rl = false → hasTy (lo + 4) .rs = true →
    let t := s.regWrite req (lo + 4) v
    let w := (Map.get none s.stage (stageKey req lo)).getD (s.word req lo)
    Map.get none t.stage (stageKey req lo) = none ∧
    (∀ k, k ≠ stageKey req lo → Map.get none t.stage k = Map.get none s.stage k) ∧
    (∀ f g i j x y, lo ≠ F.NOC_RT_PRI_LO.base → lo ≠ F.NOC_RT_ALT_LO.base → lo ≠ F.TLY_PROBE_IU_LO.base →
      fieldsAt lo = [(f, i, j)] → fieldsAt (lo + 4) = [(g, x, y)] →
      t.rd f i j = f.cut w ∧ t.rd g x y = g.cut (v % 2 ^ 32)) ∧
    (lo = F.TLY_PROBE_IU_LO.base → t.rd F.TLY_PROBE_IU_LO = w % 2 ^ 32 ∧ t.rd F.TLY_PROBE_IU_HI = v % 2 ^ 32) ∧
    (lo = F.NOC_RT_PRI_LO.base → t.noc.routes = Map.upd {} s.noc.routes (1024 * s.rtShown.1 + s.rtShown.2)
      (fun e => { e with pri := some (w + 2 ^ 32 * (v % 2 ^ 32)) })) ∧
    (lo = F.NOC_RT_ALT_LO.base → t.noc.routes = Map.upd {} s.noc.routes (1024 * s.rtShown.1 + s.rtShown.2)
      (fun e => { e with alt := some (w + 2 ^ 32 * (v % 2 ^ 32)) })))

/-- R823: a read of a register leaves everything as it is but the shadow latched by R817, and a second read returns the same
value. -/
def Obligations.ReadsChangeNothing : Prop := ∀ (s : State) (req : Req) (o : Nat), Map.above 0 s.shadow = true →
  Touches [.shadow] s (s.readWord req o).1 ∧
  (hasTy o .rl = false → (s.readWord req o).1 = s) ∧
  ((s.readWord req o).1.readWord req o).2 = (s.readWord req o).2

/-- R826: a read of an alias word shows the bit of the current value, latches nothing, and shows nothing from a shadow. -/
def Obligations.AliasReads : Prop := ∀ (s : State) (req : Req) (blk reg b : Nat), blk < 21 → reg < 0x1000 → reg % 4 = 0 →
  b < 32 → s.answers (viewOff req (0x100000 * blk + reg)) = true →
  s.ctrlRead req (0x2000000 + 0x20000 * blk + reg * 32 + b * 4) =
    (s, s.word req (viewOff req (0x100000 * blk + reg)) / 2 ^ b % 2) ∧
  ∀ x, ({ s with shadow := x } : State).word req (viewOff req (0x100000 * blk + reg)) =
    s.word req (viewOff req (0x100000 * blk + reg))

/-- R91: the PF may always read GLB and CFG. R92: an access that the policy does not permit, a write of a read-only block among
them, reads 0, discards the write, completes normally on PCIe and posts ACCESS_DENIED. -/
def Obligations.DeniedAccesses : Prop := ∀ s : State, Live s → s.cfg.done = true →
  s.permits (.host 0) 0 false = true ∧ s.permits (.host 0) 1 false = true ∧
  (∀ req blk, s.perm req blk = 1 → s.permits req blk true = false) ∧
  (∀ req off v, off < 0x2000000 → off % 4 = 0 → off / 0x100000 < 21 → s.permits req (off / 0x100000) true = false →
    exec (.registerWrite req off v) s = .next (s.post E.ACCESS_DENIED (reqCode req) (ctrlAddr off))) ∧
  (∀ req off, off < 0x2000000 → off / 0x100000 < 21 → s.permits req (off / 0x100000) false = false →
    s.reqRead req off = (s.post E.ACCESS_DENIED (reqCode req) (ctrlAddr off), 0)) ∧
  (∀ fn off be, s.rd F.PCI_STAT_DL_UP = 1 → s.pci.inReset = false → s.rd F.PCI_FN_STAT_FLR fn = 0 → s.fnExists fn = true →
    s.rd F.PCI_FN_STAT_MSE fn = 1 → off % 4 = 0 → off < 0x1010000 → off / 0x100000 < 21 →
    s.permits (.host fn) (off / 0x100000) false = false →
    let t := s.post E.ACCESS_DENIED fn (ctrlAddr off)
    exec (.hostBarAccess fn 0 off false [(0, be)]) s = .next { t with out := t.out ++ [.barCpl fn true 0] }) ∧
  (∀ fn off v, s.rd F.PCI_STAT_DL_UP = 1 → s.pci.inReset = false → s.rd F.PCI_FN_STAT_FLR fn = 0 → s.fnExists fn = true →
    s.rd F.PCI_FN_STAT_MSE fn = 1 → off % 4 = 0 → off < 0x1010000 → off / 0x100000 < 21 →
    s.permits (.host fn) (off / 0x100000) true = false →
    exec (.hostBarAccess fn 0 off true [(v, 15)]) s = .next (s.post E.ACCESS_DENIED fn (ctrlAddr off)))

/-- Lines of HBM outside the sealed regions and the map cache region, and lines of the scratchpad: an access changes no line but its own, what a write
stores is what a read under the same key brings back, and the other bytes of the line stay (R456, R494, R523, R524, R553). -/
def Obligations.MemoryLines : Prop := ∀ s : State, InForm s →
  (∀ line kid wr off n data m k, k ≠ line → (s.plainLine line kid wr off n data m).1.hline k = s.hline k) ∧
  (∀ line kid off n data, 0 < n → off + n ≤ 64 → s.sealOf (64 * line) = none → s.mapLine line = none →
    (s.hline line).poison = false → (s.hline line).kid = kid →
    (s.hline line).key = (if kid = 0 then 0 else Map.get 0 s.cry.keys kid) →
    ∃ t, s.plainLine line kid true off n data {} = (t, some (0, 0)) ∧
      (t.plainLine line kid false off n 0 {}).2 = some (0, data % 2 ^ (8 * n)) ∧
      ∀ o l, 0 < l → o + l ≤ 64 → o + l ≤ off ∨ off + n ≤ o →
        (t.plainLine line kid false o l 0 {}).2 = (s.plainLine line kid false o l 0 {}).2) ∧
  (∀ b off wr op n data m c k, 65536 * c + k ≠ 65536 * b + off / 64 →
    (s.spmLine b off wr op n data m).1.sline c k = s.sline c k) ∧
  (∀ b off n data, b ≠ 7 → b ≠ 8 → b ≠ 9 → b ≠ 0 ∨ 8192 ≤ off / 64 → 0 < n → off % 64 + n ≤ 64 → (s.sline b (off / 64)).poison = false →
    ∃ t, s.spmLine b off true 0 n data {} = (t, (0, 0)) ∧ (t.spmLine b off false 0 n 0 {}).2 = (0, data % 2 ^ (8 * n)) ∧
      ∀ o l, o / 64 = off / 64 → 0 < l → o % 64 + l ≤ 64 → o % 64 + l ≤ off % 64 ∨ off % 64 + n ≤ o % 64 →
        (t.spmLine b o false 0 l 0 {}).2 = (s.spmLine b o false 0 l 0 {}).2)

/-- Posting an event (R473 to R476): within the code's limit the record is written at EVT_HEAD, which advances, and takes EVT_SEQ,
which passes to the next record number; beyond the limit it is only counted. -/
def Obligations.EventPosting : Prop := ∀ s : State, Live s → ∀ (src code a b : Nat) (tag : Option Nat),
  let w := Map.get {} s.evt.wins code
  let limit := if w.limit = 0 then max 1 (s.rd F.EVT_RATE) else w.limit
  let t := s.postFrom src code a tag b
  Touches [.regs 17, .evt, .out, .pci] s t ∧
  (w.posted < limit → s.rd F.EVT_SEQ < 2 ^ 32 →
    t.evt.ring = Map.set {} s.evt.ring (s.rd F.EVT_HEAD) (s.evtRec src code a tag b) ∧
    t.rd F.EVT_HEAD = (s.rd F.EVT_HEAD + 1) % 4096 ∧
    t.rd F.EVT_SEQ = (if s.rd F.EVT_SEQ + 1 = 2 ^ 32 then 1 else s.rd F.EVT_SEQ + 1) ∧
    t.rd F.EVT_ACK = s.rd F.EVT_ACK ∧ t.rd F.EVT_SUPPRESSED = s.rd F.EVT_SUPPRESSED ∧
    t.rd F.EVT_LOST = (if (s.evtRec src code a tag b).lostBefore then min (s.rd F.EVT_LOST + 1) (2 ^ F.EVT_LOST.w - 1)
      else s.rd F.EVT_LOST)) ∧
  (limit ≤ w.posted → t.evt.ring = s.evt.ring ∧ t.rd F.EVT_HEAD = s.rd F.EVT_HEAD ∧ t.rd F.EVT_SEQ = s.rd F.EVT_SEQ ∧
    t.rd F.EVT_LOST = s.rd F.EVT_LOST ∧
    t.rd F.EVT_SUPPRESSED = min (s.rd F.EVT_SUPPRESSED + 1) (2 ^ F.EVT_SUPPRESSED.w - 1))

/-- A counter rises by what it counts and stops at the largest value its field holds; a maximum register holds the largest
measurement; no other field changes with either (R822). -/
def Obligations.CountersSaturate : Prop := ∀ s : State, Live s → ∀ (f : Fld) (n i j : Nat),
  (s.bump f n i j).rd f i j = min (s.rd f i j + n) (2 ^ f.w - 1) ∧
  (s.rd f i j < 2 ^ f.w → (s.raise f n i j).rd f i j = max (s.rd f i j) (min n (2 ^ f.w - 1))) ∧
  (∀ g x y, g.key x y ≠ f.key i j → (s.bump f n i j).rd g x y = s.rd g x y ∧ (s.raise f n i j).rd g x y = s.rd g x y)
end

