-- ==== Sys2Proof/Laws/Maps.lean ====
section
/-! SUPPORT. The keyed lists of State (Map): every change keeps their canonical form, and what a filter on the keys says of a change. -/

-- The package as one text is checked in one process: its proofs are checked one after another, and its linters keep quiet.
set_option Elab.async false
set_option linter.all false

namespace Sys2Proof.Machine
open Sys2Proof

theorem Map.above_mono {α : Type} {m : Map α} {b c : Nat} (h : b ≤ c) (hm : Map.above c m = true) : Map.above b m = true := by
  cases m with
  | nil => rfl
  | cons e m => simp only [Map.above, Bool.and_eq_true, decide_eq_true_eq] at hm ⊢; exact ⟨by omega, hm.2⟩

theorem Map.above_erase {α : Type} (m : Map α) (k b : Nat) (h : Map.above b m = true) : Map.above b (Map.erase m k) = true := by
  induction m generalizing b with
  | nil => rfl
  | cons e m ih =>
    simp only [Map.above, Bool.and_eq_true, decide_eq_true_eq] at h
    simp only [Map.erase]
    split
    · exact Map.above_mono (by omega) h.2
    · split
      · simp [Map.above, h.1, h.2]
      · simp [Map.above, h.1, ih _ h.2]

theorem Map.above_insert {α : Type} (m : Map α) (k b : Nat) (x : α) (hk : b ≤ k) (h : Map.above b m = true) :
    Map.above b (Map.insert m k x) = true := by
  induction m generalizing b with
  | nil => simp [Map.insert, Map.above, hk]
  | cons e m ih =>
    simp only [Map.above, Bool.and_eq_true, decide_eq_true_eq] at h
    simp only [Map.insert]
    split
    · rename_i e1; simp [Map.above, e1, h.1, h.2]
    · split
      · simp only [Map.above, Bool.and_eq_true, decide_eq_true_eq]; exact ⟨hk, by omega, h.2⟩
      · simp only [Map.above, Bool.and_eq_true, decide_eq_true_eq]; exact ⟨h.1, ih _ (by omega) h.2⟩

theorem Map.above_filter {α : Type} (p : Nat × α → Bool) (m : Map α) (b : Nat) (h : Map.above b m = true) :
    Map.above b (m.filter p) = true := by
  induction m generalizing b with
  | nil => rfl
  | cons e m ih =>
    simp only [Map.above, Bool.and_eq_true, decide_eq_true_eq] at h
    simp only [List.filter_cons]
    split
    · simp [Map.above, h.1, ih _ h.2]
    · exact Map.above_mono (by omega) (ih _ h.2)

theorem Map.above_set {α : Type} [DecidableEq α] (d : α) (m : Map α) (k : Nat) (x : α) (h : Map.above 0 m = true) :
    Map.above 0 (Map.set d m k x) = true := by
  unfold Map.set; split
  · exact Map.above_erase m k 0 h
  · exact Map.above_insert m k 0 x (Nat.zero_le _) h

theorem Map.mem_erase {α : Type} {m : Map α} {k : Nat} {e : Nat × α} (h : e ∈ Map.erase m k) : e ∈ m := by
  induction m with
  | nil => exact h
  | cons a m ih =>
    simp only [Map.erase] at h
    split at h
    · exact List.mem_cons_of_mem _ h
    · split at h
      · exact h
      · rcases List.mem_cons.1 h with h | h
        · simp [h]
        · exact List.mem_cons_of_mem _ (ih h)

theorem Map.mem_insert {α : Type} {m : Map α} {k : Nat} {x : α} {e : Nat × α} (h : e ∈ Map.insert m k x) : e = (k, x) ∨ e ∈ m := by
  induction m with
  | nil => simpa [Map.insert] using h
  | cons a m ih =>
    simp only [Map.insert] at h
    split at h
    · rcases List.mem_cons.1 h with h | h
      · exact .inl h
      · exact .inr (List.mem_cons_of_mem _ h)
    · split at h
      · exact List.mem_cons.1 h
      · rcases List.mem_cons.1 h with h | h
        · exact .inr (by simp [h])
        · rcases ih h with h | h
          · exact .inl h
          · exact .inr (List.mem_cons_of_mem _ h)

theorem Map.wf_iff {α : Type} [DecidableEq α] {d : α} {m : Map α} :
    Map.wf d m = true ↔ Map.above 0 m = true ∧ ∀ e ∈ m, e.2 ≠ d := by
  simp [Map.wf]

theorem Map.wf_set {α : Type} [DecidableEq α] {d : α} {m : Map α} (k : Nat) (x : α) (h : Map.wf d m = true) :
    Map.wf d (Map.set d m k x) = true := by
  rw [Map.wf_iff] at h ⊢
  refine ⟨Map.above_set d m k x h.1, fun e he => ?_⟩
  unfold Map.set at he
  split at he
  · exact h.2 e (Map.mem_erase he)
  · rcases Map.mem_insert he with rfl | he
    · assumption
    · exact h.2 e he

theorem Map.wf_upd {α : Type} [DecidableEq α] {d : α} {m : Map α} (k : Nat) (f : α → α) (h : Map.wf d m = true) :
    Map.wf d (Map.upd d m k f) = true := Map.wf_set k _ h

theorem Map.wf_keep {α : Type} [DecidableEq α] {d : α} {m : Map α} (p : Nat → α → Bool) (h : Map.wf d m = true) :
    Map.wf d (Map.keep p m) = true := by
  rw [Map.wf_iff] at h ⊢
  exact ⟨Map.above_filter _ m 0 h.1, fun e he => h.2 e (List.mem_filter.1 he).1⟩

theorem Map.keep_erase {α : Type} (p : Nat → α → Bool) {k : Nat} (hp : ∀ v, p k v = false) (m : Map α) :
    Map.keep p (Map.erase m k) = Map.keep p m := by
  induction m with
  | nil => rfl
  | cons e m ih =>
    simp only [Map.erase]
    split
    · rename_i h; subst h; simp [Map.keep, hp]
    · split
      · rfl
      · simp only [Map.keep, List.filter_cons] at ih ⊢; rw [ih]

theorem Map.keep_insert {α : Type} (p : Nat → α → Bool) {k : Nat} (hp : ∀ v, p k v = false) (m : Map α) (x : α) :
    Map.keep p (Map.insert m k x) = Map.keep p m := by
  induction m with
  | nil => simp [Map.insert, Map.keep, hp]
  | cons e m ih =>
    simp only [Map.insert]
    split
    · rename_i h; subst h; simp [Map.keep, hp]
    · split
      · simp [Map.keep, List.filter_cons, hp]
      · simp only [Map.keep, List.filter_cons] at ih ⊢; rw [ih]

theorem Map.keep_set {α : Type} [DecidableEq α] (p : Nat → α → Bool) {k : Nat} (hp : ∀ v, p k v = false) (d : α) (m : Map α)
    (x : α) : Map.keep p (Map.set d m k x) = Map.keep p m := by
  unfold Map.set
  split
  · exact Map.keep_erase p hp m
  · exact Map.keep_insert p hp m x

theorem Fld.key_blk (f : Fld) (i j : Nat) : f.key i j / 2 ^ 40 = f.blk := by
  unfold Fld.key
  omega

end Sys2Proof.Machine
end

