-- ==== Sys2Proof/Laws/Keeps.lean ====
section
/-! SUPPORT. The relation Keeps between a state and one that follows it, and how it is put together. -/

-- The package as one text is checked in one process: its proofs are checked one after another, and its linters keep quiet.
set_option Elab.async false
set_option linter.all false

namespace Sys2Proof.Machine
open Sys2Proof

/-- What a change of the part keeps that touches at most the parts `ps` lets it touch: the queue, the fuses, the count of
draws (it only rises), the canonical form of the register store and of the two memories, and every other part. -/
structure Keeps (ps : Part → Prop) (s t : State) : Prop where
  pending : t.pending = s.pending
  fuses : t.fuses = s.fuses
  fresh : s.fresh ≤ t.fresh
  regs : Map.above 0 s.regs = true → Map.above 0 t.regs = true
  hbm : Map.wf {} s.hbm.lines = true → Map.wf {} t.hbm.lines = true
  spm : Map.wf {} s.spm.lines = true → Map.wf {} t.spm.lines = true
  same : ∀ p, ¬ ps p → p.same s t
  base : s.time < 2 ^ 64 → t.time < 2 ^ 64

theorem Part.same_refl (s : State) (p : Part) : p.same s s := by cases p <;> rfl

theorem Part.same_trans {s t u : State} {p : Part} (h : p.same s t) (k : p.same t u) : p.same s u := by
  cases p <;> exact Eq.trans k h

theorem Keeps.refl {ps : Part → Prop} (s : State) : Keeps ps s s :=
  ⟨rfl, rfl, Nat.le_refl _, id, id, id, fun p _ => Part.same_refl s p, id⟩

theorem Keeps.lit {ps : Part → Prop} {s0 s : State} {x_shadow x_stage x_time x_out x_evt x_gens x_qqp x_tly x_dck x_pci x_cfg x_lve x_med x_cry x_noc x_fab x_pwr x_sl x_cru x_lanes x_clk x_tap hbm spm} (e5 : hbm.lines = s.hbm.lines) (e6 : spm.lines = s.spm.lines)
    (h : Keeps ps s0 s)
    (h_shadow : x_shadow = s.shadow ∨ ps .shadow := by first | exact Or.inr (by with_reducible assumption) | with_reducible exact Or.inl rfl)
    (h_stage : x_stage = s.stage ∨ ps .stage := by first | exact Or.inr (by with_reducible assumption) | with_reducible exact Or.inl rfl)
    (h_time : x_time = s.time ∨ ps .time := by first | exact Or.inr (by with_reducible assumption) | with_reducible exact Or.inl rfl)
    (h_out : x_out = s.out ∨ ps .out := by first | exact Or.inr (by with_reducible assumption) | with_reducible exact Or.inl rfl)
    (h_evt : x_evt = s.evt ∨ ps .evt := by first | exact Or.inr (by with_reducible assumption) | with_reducible exact Or.inl rfl)
    (h_gens : x_gens = s.gens ∨ ps .gens := by first | exact Or.inr (by with_reducible assumption) | with_reducible exact Or.inl rfl)
    (h_qqp : x_qqp = s.qqp ∨ ps .qqp := by first | exact Or.inr (by with_reducible assumption) | with_reducible exact Or.inl rfl)
    (h_tly : x_tly = s.tly ∨ ps .tly := by first | exact Or.inr (by with_reducible assumption) | with_reducible exact Or.inl rfl)
    (h_dck : x_dck = s.dck ∨ ps .dck := by first | exact Or.inr (by with_reducible assumption) | with_reducible exact Or.inl rfl)
    (h_pci : x_pci = s.pci ∨ ps .pci := by first | exact Or.inr (by with_reducible assumption) | with_reducible exact Or.inl rfl)
    (h_cfg : x_cfg = s.cfg ∨ ps .cfg := by first | exact Or.inr (by with_reducible assumption) | with_reducible exact Or.inl rfl)
    (h_lve : x_lve = s.lve ∨ ps .lve := by first | exact Or.inr (by with_reducible assumption) | with_reducible exact Or.inl rfl)
    (h_med : x_med = s.med ∨ ps .med := by first | exact Or.inr (by with_reducible assumption) | with_reducible exact Or.inl rfl)
    (h_cry : x_cry = s.cry ∨ ps .cry := by first | exact Or.inr (by with_reducible assumption) | with_reducible exact Or.inl rfl)
    (h_noc : x_noc = s.noc ∨ ps .noc := by first | exact Or.inr (by with_reducible assumption) | with_reducible exact Or.inl rfl)
    (h_fab : x_fab = s.fab ∨ ps .fab := by first | exact Or.inr (by with_reducible assumption) | with_reducible exact Or.inl rfl)
    (h_pwr : x_pwr = s.pwr ∨ ps .pwr := by first | exact Or.inr (by with_reducible assumption) | with_reducible exact Or.inl rfl)
    (h_sl : x_sl = s.sl ∨ ps .sl := by first | exact Or.inr (by with_reducible assumption) | with_reducible exact Or.inl rfl)
    (h_cru : x_cru = s.cru ∨ ps .cru := by first | exact Or.inr (by with_reducible assumption) | with_reducible exact Or.inl rfl)
    (h_lanes : x_lanes = s.lanes ∨ ps .lanes := by first | exact Or.inr (by with_reducible assumption) | with_reducible exact Or.inl rfl)
    (h_clk : x_clk = s.clk ∨ ps .clk := by first | exact Or.inr (by with_reducible assumption) | with_reducible exact Or.inl rfl)
    (h_tap : x_tap = s.tap ∨ ps .tap := by first | exact Or.inr (by with_reducible assumption) | with_reducible exact Or.inl rfl)
    (h_hbm : hbm = s.hbm ∨ ps .hbm := by first | exact Or.inr (by with_reducible assumption) | with_reducible exact Or.inl rfl)
    (h_spm : spm = s.spm ∨ ps .spm := by first | exact Or.inr (by with_reducible assumption) | with_reducible exact Or.inl rfl)
    (h_base : s.time < 2 ^ 64 → x_time < 2 ^ 64 := by first | with_reducible exact id | exact fun _ => Nat.mod_lt _ (by decide)) :
    Keeps ps s0 (State.mk s.pending s.regs x_shadow x_stage x_time s.fresh x_out s.fuses x_evt x_gens x_qqp x_tly x_dck x_pci x_cfg x_lve x_med hbm spm x_cry x_noc x_fab x_pwr x_sl x_cru x_lanes x_clk x_tap) :=
  ⟨h.1, h.2, h.3, h.4, fun k => by rw [e5]; exact h.5 k, fun k => by rw [e6]; exact h.6 k, fun p np =>
    Part.same_trans (h.7 p np) (by
      cases p
      case regs => rfl
      case fresh => rfl
      case shadow => exact h_shadow.elim id (fun k => absurd k np)
      case stage => exact h_stage.elim id (fun k => absurd k np)
      case time => exact h_time.elim id (fun k => absurd k np)
      case out => exact h_out.elim id (fun k => absurd k np)
      case evt => exact h_evt.elim id (fun k => absurd k np)
      case gens => exact h_gens.elim id (fun k => absurd k np)
      case qqp => exact h_qqp.elim id (fun k => absurd k np)
      case tly => exact h_tly.elim id (fun k => absurd k np)
      case dck => exact h_dck.elim id (fun k => absurd k np)
      case pci => exact h_pci.elim id (fun k => absurd k np)
      case cfg => exact h_cfg.elim id (fun k => absurd k np)
      case lve => exact h_lve.elim id (fun k => absurd k np)
      case med => exact h_med.elim id (fun k => absurd k np)
      case cry => exact h_cry.elim id (fun k => absurd k np)
      case noc => exact h_noc.elim id (fun k => absurd k np)
      case fab => exact h_fab.elim id (fun k => absurd k np)
      case pwr => exact h_pwr.elim id (fun k => absurd k np)
      case sl => exact h_sl.elim id (fun k => absurd k np)
      case cru => exact h_cru.elim id (fun k => absurd k np)
      case lanes => exact h_lanes.elim id (fun k => absurd k np)
      case clk => exact h_clk.elim id (fun k => absurd k np)
      case tap => exact h_tap.elim id (fun k => absurd k np)
      case hbm => exact h_hbm.elim id (fun k => absurd k np)
      case spm => exact h_spm.elim id (fun k => absurd k np)), fun k => h_base (h.8 k)⟩
theorem Keeps.cut {ps : Part → Prop} {s0 x t : State} (h : Keeps ps s0 x) (k : Keeps ps s0 x → Keeps ps s0 t) : Keeps ps s0 t := k h

theorem Keeps.foldl {α : Type} {g : State → α → State} {ps : Part → Prop} {s0 s : State} (hg : ∀ s a, Keeps ps s0 s → Keeps ps s0 (g s a))
    (l : List α) (h : Keeps ps s0 s) : Keeps ps s0 (l.foldl g s) := by
  induction l generalizing s with
  | nil => exact h
  | cons a l ih => exact ih (hg _ _ h)

theorem Keeps.foldlFst {α β : Type} {g : State × β → α → State × β}
    {ps : Part → Prop} {s0 : State} (hg : ∀ s a, Keeps ps s0 s.1 → Keeps ps s0 (g s a).1) {p : State × β}
    (l : List α) (h : Keeps ps s0 p.1) : Keeps ps s0 (l.foldl g p).1 := by
  induction l generalizing p with
  | nil => exact h
  | cons a l ih => exact ih (hg _ _ h)

theorem Keeps.pair {α : Type} {ps : Part → Prop} {s0 : State} {p : State × α} {t : State} {a : α} (e : p = (t, a)) (h : Keeps ps s0 p.1) : Keeps ps s0 t := by
  subst e; exact h


/-- Every state an optional result holds keeps what `Keeps` says. -/
structure KO (ps : Part → Prop) (s0 : State) (o : Option State) : Prop where
  prf : ∀ r, o = some r → Keeps ps s0 r
/-- The same for a result that holds more than the state. -/
structure KP {α : Type} (ps : Part → Prop) (s0 : State) (o : Option (State × α)) : Prop where
  prf : ∀ r, o = some r → Keeps ps s0 r.1
theorem KO.none' {ps : Part → Prop} {s0 : State} : KO ps s0 none := ⟨fun _ e => nomatch e⟩
theorem KO.some' {ps : Part → Prop} {s0 t : State} (h : Keeps ps s0 t) : KO ps s0 (some t) := ⟨fun _ e => by cases e; exact h⟩
theorem KP.none' {α : Type} {ps : Part → Prop} {s0 : State} : KP ps s0 (none : Option (State × α)) := ⟨fun _ e => nomatch e⟩
theorem KP.some' {α : Type} {ps : Part → Prop} {s0 : State} {p : State × α} (h : Keeps ps s0 p.1) : KP ps s0 (some p) := ⟨fun _ e => by cases e; exact h⟩
theorem KO.get {ps : Part → Prop} {s0 t : State} {o : Option State} (e : o = some t) (h : KO ps s0 o) : Keeps ps s0 t := h.prf t e
theorem KP.get {α : Type} {ps : Part → Prop} {s0 : State} {p : State × α} {o : Option (State × α)} (e : o = some p) (h : KP ps s0 o) : Keeps ps s0 p.1 := h.prf p e
theorem KP.get2 {α : Type} {ps : Part → Prop} {s0 t : State} {a : α} {o : Option (State × α)} (e : o = some (t, a)) (h : KP ps s0 o) : Keeps ps s0 t := h.prf _ e
theorem KO.cut {ps : Part → Prop} {s0 x : State} {o} (h : Keeps ps s0 x) (k : Keeps ps s0 x → KO ps s0 o) : KO ps s0 o := k h
theorem KP.cut {α : Type} {ps : Part → Prop} {s0 x : State} {o : Option (State × α)} (h : Keeps ps s0 x) (k : Keeps ps s0 x → KP ps s0 o) : KP ps s0 o := k h
theorem KO.bind {α : Type} {ps : Part → Prop} {s0 : State} {o : Option α} {g : α → Option State} (h : ∀ a, KO ps s0 (g a)) : KO ps s0 (o.bind g) := by
  cases o with
  | none => exact KO.none'
  | some a => exact h a
theorem KP.bind {α β : Type} {ps : Part → Prop} {s0 : State} {o : Option α} {g : α → Option (State × β)} (h : ∀ a, KP ps s0 (g a)) : KP ps s0 (o.bind g) := by
  cases o with
  | none => exact KP.none'
  | some a => exact h a
theorem Keeps.getO {ps : Part → Prop} {s0 d : State} {o : Option State} (h : KO ps s0 o) (hd : Keeps ps s0 d) : Keeps ps s0 (o.getD d) := by
  cases o with
  | none => exact hd
  | some a => exact h.prf a rfl

end Sys2Proof.Machine
end

