-- ==== Sys2Proof/Laws/Flags.lean ====
section
/-! SUPPORT. What each operation and each meaning of Machine/Flags.lean keeps (Keeps): one lemma a definition. -/

-- The package as one text is checked in one process: its proofs are checked one after another, and its linters keep quiet.
set_option Elab.async false
set_option linter.all false

namespace Sys2Proof.Machine
open Sys2Proof

theorem State.latch_keeps {ps : Part → Prop} {a1 : Req} {a2 : Nat} {s0 s : State} (h_shadow : ps .shadow) (h : Keeps ps s0 s) : Keeps ps s0 (State.latch s a1 a2) := by
  unfold State.latch
  repeat' first
    | with_reducible assumption
    | (intro _; skip) | split
    | (dsimp only; skip)
    | (with_reducible refine Keeps.lit rfl rfl ?_; first | with_reducible assumption | (split; skip))

theorem State.readWord_keeps {ps : Part → Prop} {a1 : Req} {a2 : Nat} {s0 s : State} (h_shadow : ps .shadow) (h : Keeps ps s0 s) : Keeps ps s0 (State.readWord s a1 a2).1 := by
  unfold State.readWord
  repeat' first
    | (extract_lets +onlyGivenNames x; first | (with_reducible refine Keeps.cut (x := x) ?_ ?_; rotate_left; (try clear_value x); (intro _; skip); rotate_right; subst x) | subst x)
    | with_reducible assumption | with_reducible apply State.latch_keeps
    | (intro _; skip) | split
    | (dsimp only; skip)
    | with_reducible refine Keeps.pair (by assumption) ?_

end Sys2Proof.Machine
end

