-- ==== Sys2Proof/Laws/Ops.lean ====
section
/-! SUPPORT. What each operation and each meaning of Machine/Ops.lean keeps (Keeps): one lemma a definition. -/

-- The package as one text is checked in one process: its proofs are checked one after another, and its linters keep quiet.
set_option Elab.async false
set_option linter.all false

namespace Sys2Proof.Machine
open Sys2Proof

theorem State.put_keeps {ps : Part → Prop} {a1 : Fld} {a2 a3 a4 : Nat} {s0 s : State} (hb : ps (.regs a1.blk)) (h : Keeps ps s0 s) : Keeps ps s0 (State.put s a1 a2 a3 a4) :=
  ⟨h.1, h.2, h.3, fun k => Map.above_set _ _ _ _ (h.4 k), h.5, h.6, fun p np => Part.same_trans (h.7 p np) (by
    cases p
    case regs b =>
      refine Map.keep_set _ (fun v => ?_) _ _ _
      rw [Fld.key_blk]
      exact beq_false_of_ne (fun e => np (e ▸ hb))
    all_goals rfl), h.8⟩


theorem State.flag_keeps {ps : Part → Prop} {a1 : Fld} {a2 : Bool} {a3 a4 : Nat} {s0 s : State} (hb : ps (.regs a1.blk)) (h : Keeps ps s0 s) : Keeps ps s0 (State.flag s a1 a2 a3 a4) := by
  unfold State.flag
  repeat' first
    | with_reducible assumption | exact hb | with_reducible apply State.put_keeps
    | (intro _; skip) | split
    | (dsimp only; skip)

theorem State.bump_keeps {ps : Part → Prop} {a1 : Fld} {a2 a3 a4 : Nat} {s0 s : State} (hb : ps (.regs a1.blk)) (h : Keeps ps s0 s) : Keeps ps s0 (State.bump s a1 a2 a3 a4) := by
  unfold State.bump
  repeat' first
    | with_reducible assumption | exact hb | with_reducible apply State.put_keeps
    | (intro _; skip) | split
    | (dsimp only; skip)

theorem State.drop_keeps {ps : Part → Prop} {a1 : Fld} {a2 a3 a4 : Nat} {s0 s : State} (hb : ps (.regs a1.blk)) (h : Keeps ps s0 s) : Keeps ps s0 (State.drop s a1 a2 a3 a4) := by
  unfold State.drop
  repeat' first
    | with_reducible assumption | exact hb | with_reducible apply State.put_keeps
    | (intro _; skip) | split
    | (dsimp only; skip)

theorem State.raise_keeps {ps : Part → Prop} {a1 : Fld} {a2 a3 a4 : Nat} {s0 s : State} (hb : ps (.regs a1.blk)) (h : Keeps ps s0 s) : Keeps ps s0 (State.raise s a1 a2 a3 a4) := by
  unfold State.raise
  repeat' first
    | with_reducible assumption | exact hb | with_reducible apply State.put_keeps
    | (intro _; skip) | split
    | (dsimp only; skip)

theorem State.put64_keeps {ps : Part → Prop} {a1 a2 : Fld} {a3 a4 : Nat} {s0 s : State} (hb : ps (.regs a1.blk)) (hb2 : ps (.regs a2.blk)) (h : Keeps ps s0 s) : Keeps ps s0 (State.put64 s a1 a2 a3 a4) := by
  unfold State.put64
  repeat' first
    | with_reducible assumption | exact hb | exact hb2 | with_reducible apply State.put_keeps
    | (intro _; skip) | split
    | (dsimp only; skip)

theorem State.dropRegs_keeps {ps : Part → Prop} {a1 : Nat → Bool} {s0 s : State} (hregs : ∀ b, ps (.regs b)) (h_shadow : ps .shadow) (h_stage : ps .stage) (h : Keeps ps s0 s) : Keeps ps s0 (State.dropRegs s a1) :=
  ⟨h.1, h.2, h.3, fun k => Map.above_filter _ _ _ (h.4 k), h.5, h.6, fun p np => Part.same_trans (h.7 p np) (by
    cases p
    case regs b => exact absurd (hregs b) np
    case shadow => exact absurd h_shadow np
    case stage => exact absurd h_stage np
    all_goals rfl), h.8⟩


theorem State.draws_keeps {ps : Part → Prop} {a1 : Nat} {s0 s : State} (h_fresh : ps .fresh) (h : Keeps ps s0 s) : Keeps ps s0 (State.draws s a1) :=
  ⟨h.1, h.2, Nat.le_add_right_of_le h.3, h.4, h.5, h.6, fun p np => Part.same_trans (h.7 p np) (by
    cases p
    case fresh => exact absurd h_fresh np
    all_goals rfl), h.8⟩


theorem State.drawn_keeps {ps : Part → Prop} {s0 s : State} (h_fresh : ps .fresh) (h : Keeps ps s0 s) : Keeps ps s0 (State.drawn s) := by
  unfold State.drawn
  repeat' first
    | with_reducible assumption | with_reducible apply State.draws_keeps
    | (intro _; skip) | split
    | (dsimp only; skip)

theorem State.when_keeps {ps : Part → Prop} {s0 s : State} {c : Bool} {f : State → State} (hf : Keeps ps s0 s → Keeps ps s0 (f s)) (h : Keeps ps s0 s) : Keeps ps s0 (State.when s c f) := by
  unfold State.when; split
  · exact hf h
  · exact h


theorem State.msix_keeps {ps : Part → Prop} {a1 a2 : Nat} {s0 s : State} (h_out : ps .out) (h_pci : ps .pci) (h : Keeps ps s0 s) : Keeps ps s0 (State.msix s a1 a2) := by
  unfold State.msix
  repeat' first
    | (extract_lets +onlyGivenNames x; first | (with_reducible refine Keeps.cut (x := x) ?_ ?_; rotate_left; (try clear_value x); (intro _; skip); rotate_right; subst x) | subst x)
    | with_reducible assumption
    | (intro _; skip) | split
    | (dsimp only; skip)
    | (with_reducible refine Keeps.lit rfl rfl ?_; first | with_reducible assumption | (split; skip))

theorem State.evtSignal_keeps {ps : Part → Prop} {s0 s : State} (h_evt : ps .evt) (h_out : ps .out) (h_pci : ps .pci) (h : Keeps ps s0 s) : Keeps ps s0 (State.evtSignal s) := by
  unfold State.evtSignal
  repeat' first
    | with_reducible assumption | with_reducible apply State.msix_keeps
    | (intro _; skip) | split
    | (dsimp only; skip)
    | (with_reducible refine Keeps.lit rfl rfl ?_; first | with_reducible assumption | with_reducible apply State.msix_keeps | (split; skip))

theorem State.evtWrite_keeps {ps : Part → Prop} {a1 : Rec} {s0 s : State} (h17 : ps (.regs 17)) (h_evt : ps .evt) (h_out : ps .out) (h_pci : ps .pci) (h : Keeps ps s0 s) : Keeps ps s0 (State.evtWrite s a1) := by
  unfold State.evtWrite
  repeat' first
    | (extract_lets +onlyGivenNames x; first | (with_reducible refine Keeps.cut (x := x) ?_ ?_; rotate_left; (try clear_value x); (intro _; skip); rotate_right; subst x) | subst x)
    | with_reducible assumption | exact h17 | with_reducible apply State.bump_keeps | with_reducible apply State.put_keeps | with_reducible apply State.evtSignal_keeps
    | (intro _; skip) | split
    | (dsimp only; skip)
    | (with_reducible refine Keeps.lit rfl rfl ?_; first | with_reducible assumption | exact h17 | with_reducible apply State.bump_keeps | with_reducible apply State.put_keeps | with_reducible apply State.evtSignal_keeps | (split; skip))

theorem State.postFrom_keeps {ps : Part → Prop} {a1 a2 a3 : Nat} {a4 : Option Nat} {a5 : Nat} {s0 s : State} (h17 : ps (.regs 17)) (h_evt : ps .evt) (h_out : ps .out) (h_pci : ps .pci) (h : Keeps ps s0 s) : Keeps ps s0 (State.postFrom s a1 a2 a3 a4 a5) := by
  unfold State.postFrom
  repeat' first
    | (extract_lets +onlyGivenNames x; first | (with_reducible refine Keeps.cut (x := x) ?_ ?_; rotate_left; (try clear_value x); (intro _; skip); rotate_right; subst x) | subst x)
    | with_reducible assumption | exact h17 | with_reducible apply State.evtWrite_keeps | with_reducible apply State.bump_keeps
    | (intro _; skip) | split
    | (dsimp only; skip)
    | (with_reducible refine Keeps.lit rfl rfl ?_; first | with_reducible assumption | exact h17 | with_reducible apply State.evtWrite_keeps | with_reducible apply State.bump_keeps | (split; skip))

theorem State.post_keeps {ps : Part → Prop} {a1 a2 a3 : Nat} {a4 : Option Nat} {s0 s : State} (h17 : ps (.regs 17)) (h_evt : ps .evt) (h_out : ps .out) (h_pci : ps .pci) (h : Keeps ps s0 s) : Keeps ps s0 (State.post s a1 a2 a3 a4) := by
  unfold State.post
  repeat' first
    | with_reducible assumption | exact h17 | with_reducible apply State.postFrom_keeps
    | (intro _; skip) | split
    | (dsimp only; skip)

theorem State.refuseWrite_keeps {ps : Part → Prop} {a1 : Req} {a2 : Nat} {s0 s : State} (h16 : ps (.regs 16)) (h17 : ps (.regs 17)) (h_evt : ps .evt) (h_out : ps .out) (h_pci : ps .pci) (h : Keeps ps s0 s) : Keeps ps s0 (State.refuseWrite s a1 a2) := by
  unfold State.refuseWrite
  repeat' first
    | (extract_lets +onlyGivenNames x; first | (with_reducible refine Keeps.cut (x := x) ?_ ?_; rotate_left; (try clear_value x); (intro _; skip); rotate_right; subst x) | subst x)
    | with_reducible assumption | exact h16 | exact h17 | with_reducible apply State.postFrom_keeps | with_reducible apply State.post_keeps | with_reducible apply State.bump_keeps
    | (intro _; skip) | split
    | (dsimp only; skip)
    | (with_reducible refine Keeps.lit rfl rfl ?_; first | with_reducible assumption | exact h16 | exact h17 | with_reducible apply State.postFrom_keeps | with_reducible apply State.post_keeps | with_reducible apply State.bump_keeps | (split; skip))

theorem State.conflict_keeps {ps : Part → Prop} {a1 a2 a3 : Nat} {a4 : Option Nat} {s0 s : State} (h17 : ps (.regs 17)) (h_evt : ps .evt) (h_out : ps .out) (h_pci : ps .pci) (h : Keeps ps s0 s) : Keeps ps s0 (State.conflict s a1 a2 a3 a4) := by
  unfold State.conflict
  repeat' first
    | with_reducible assumption | exact h17 | with_reducible apply State.postFrom_keeps
    | (intro _; skip) | split
    | (dsimp only; skip)

end Sys2Proof.Machine
end

