-- ==== Sys2Proof/Laws/Buffer.lean ====
section
/-! SUPPORT. What each operation and each meaning of Machine/Buffer.lean keeps (Keeps): one lemma a definition. -/

-- The package as one text is checked in one process: its proofs are checked one after another, and its linters keep quiet.
set_option Elab.async false
set_option linter.all false

namespace Sys2Proof.Machine
open Sys2Proof

theorem State.setTract_keeps {ps : Part → Prop} {a1 : Nat} {a2 : Tract} {s0 s : State} (h_tly : ps .tly) (h : Keeps ps s0 s) : Keeps ps s0 (State.setTract s a1 a2) := by
  unfold State.setTract
  repeat' first
    | with_reducible assumption
    | (intro _; skip) | split
    | (dsimp only; skip)
    | (with_reducible refine Keeps.lit rfl rfl ?_; first | with_reducible assumption | (split; skip))

theorem State.setCmd_keeps {ps : Part → Prop} {a1 : Nat} {a2 : Cmd} {s0 s : State} (h_qqp : ps .qqp) (h : Keeps ps s0 s) : Keeps ps s0 (State.setCmd s a1 a2) := by
  unfold State.setCmd
  repeat' first
    | with_reducible assumption
    | (intro _; skip) | split
    | (dsimp only; skip)
    | (with_reducible refine Keeps.lit rfl rfl ?_; first | with_reducible assumption | (split; skip))

theorem State.dropCmd_keeps {ps : Part → Prop} {a1 : Nat} {s0 s : State} (h_qqp : ps .qqp) (h : Keeps ps s0 s) : Keeps ps s0 (State.dropCmd s a1) := by
  unfold State.dropCmd
  repeat' first
    | with_reducible assumption
    | (intro _; skip) | split
    | (dsimp only; skip)
    | (with_reducible refine Keeps.lit rfl rfl ?_; first | with_reducible assumption | (split; skip))

theorem State.updCmd_keeps {ps : Part → Prop} {a1 : Nat} {a2 : Cmd → Cmd} {s0 s : State} (h_qqp : ps .qqp) (h : Keeps ps s0 s) : Keeps ps s0 (State.updCmd s a1 a2) := by
  unfold State.updCmd
  repeat' first
    | with_reducible assumption | with_reducible apply State.setCmd_keeps
    | (intro _; skip) | split
    | (dsimp only; skip)
    | (with_reducible refine Keeps.lit rfl rfl ?_; first | with_reducible assumption | with_reducible apply State.setCmd_keeps | (split; skip))

theorem State.updLine_keeps {ps : Part → Prop} {a1 : Nat} {a2 : Line → Line} {s0 s : State} (h_tly : ps .tly) (h : Keeps ps s0 s) : Keeps ps s0 (State.updLine s a1 a2) := by
  unfold State.updLine
  repeat' first
    | with_reducible assumption
    | (intro _; skip) | split
    | (dsimp only; skip)
    | (with_reducible refine Keeps.lit rfl rfl ?_; first | with_reducible assumption | (split; skip))

theorem State.healLost_keeps {ps : Part → Prop} {a1 : Nat} {s0 s : State} (h17 : ps (.regs 17)) (h_evt : ps .evt) (h_out : ps .out) (h_pci : ps .pci) (h_tly : ps .tly) (h : Keeps ps s0 s) : Keeps ps s0 (State.healLost s a1) := by
  unfold State.healLost
  repeat' first
    | with_reducible assumption | exact h17 | with_reducible apply State.post_keeps | with_reducible apply State.updLine_keeps
    | (intro _; skip) | split
    | (dsimp only; skip)
    | (with_reducible refine Keeps.lit rfl rfl ?_; first | with_reducible assumption | exact h17 | with_reducible apply State.post_keeps | with_reducible apply State.updLine_keeps | (split; skip))

theorem State.stopMirror_keeps {ps : Part → Prop} {s0 s : State} (h17 : ps (.regs 17)) (h_evt : ps .evt) (h_lve : ps .lve) (h_out : ps .out) (h_pci : ps .pci) (h_qqp : ps .qqp) (h_tly : ps .tly) (h : Keeps ps s0 s) : Keeps ps s0 (State.stopMirror s) := by
  unfold State.stopMirror
  repeat' first
    | (extract_lets +onlyGivenNames x; first | (with_reducible refine Keeps.cut (x := x) ?_ ?_; rotate_left; (try clear_value x); (intro _; skip); rotate_right; subst x) | subst x)
    | with_reducible assumption | exact h17 | with_reducible apply State.healLost_keeps | with_reducible apply Keeps.foldl | with_reducible apply Keeps.foldlFst
    | (intro _; skip) | split
    | (dsimp only; skip)
    | (with_reducible refine Keeps.lit rfl rfl ?_; first | with_reducible assumption | exact h17 | with_reducible apply State.healLost_keeps | with_reducible apply Keeps.foldl | with_reducible apply Keeps.foldlFst | (split; skip))

theorem State.skidReqs_keeps {ps : Part → Prop} {a1 a2 a3 : Nat} {a4 : Bool} {a5 a6 a7 : Nat} {s0 s : State} (h_noc : ps .noc) (h : Keeps ps s0 s) : Keeps ps s0 (State.skidReqs s a1 a2 a3 a4 a5 a6 a7) := by
  unfold State.skidReqs
  repeat' first
    | with_reducible assumption
    | (intro _; skip) | split
    | (dsimp only; skip)
    | (with_reducible refine Keeps.lit rfl rfl ?_; first | with_reducible assumption | (split; skip))

theorem State.skidReads_keeps {ps : Part → Prop} {a1 a2 a3 a4 : Nat} {a5 : List (Nat × Nat)} {s0 s : State} (h_noc : ps .noc) (h : Keeps ps s0 s) : Keeps ps s0 (State.skidReads s a1 a2 a3 a4 a5) := by
  unfold State.skidReads
  repeat' first
    | with_reducible assumption | with_reducible apply State.skidReqs_keeps | with_reducible apply Keeps.foldl | with_reducible apply Keeps.foldlFst
    | (intro _; skip) | split
    | (dsimp only; skip)
    | (with_reducible refine Keeps.lit rfl rfl ?_; first | with_reducible assumption | with_reducible apply State.skidReqs_keeps | with_reducible apply Keeps.foldl | with_reducible apply Keeps.foldlFst | (split; skip))

end Sys2Proof.Machine
end

