-- ==== Sys2Proof/Laws/Clocks.lean ====
section
/-! SUPPORT. What each operation and each meaning of Machine/Clocks.lean keeps (Keeps): one lemma a definition. -/

-- The package as one text is checked in one process: its proofs are checked one after another, and its linters keep quiet.
set_option Elab.async false
set_option linter.all false

namespace Sys2Proof.Machine
open Sys2Proof

theorem State.refSwitch_keeps {ps : Part → Prop} {a1 : Nat} {s0 s : State} (h3 : ps (.regs 3)) (h17 : ps (.regs 17)) (h_evt : ps .evt) (h_out : ps .out) (h_pci : ps .pci) (h : Keeps ps s0 s) : Keeps ps s0 (State.refSwitch s a1) := by
  unfold State.refSwitch
  repeat' first
    | with_reducible assumption | exact h3 | exact h17 | with_reducible apply State.post_keeps | with_reducible apply State.bump_keeps | with_reducible apply State.put_keeps
    | (intro _; skip) | split
    | (dsimp only; skip)

theorem State.refLost_keeps {ps : Part → Prop} {s0 s : State} (h3 : ps (.regs 3)) (h17 : ps (.regs 17)) (h_evt : ps .evt) (h_out : ps .out) (h_pci : ps .pci) (h : Keeps ps s0 s) : Keeps ps s0 (State.refLost s) := by
  unfold State.refLost
  repeat' first
    | (extract_lets +onlyGivenNames x; first | (with_reducible refine Keeps.cut (x := x) ?_ ?_; rotate_left; (try clear_value x); (intro _; skip); rotate_right; subst x) | subst x)
    | with_reducible assumption | exact h3 | exact h17 | with_reducible apply State.bump_keeps | with_reducible apply State.refSwitch_keeps | with_reducible apply State.post_keeps | with_reducible apply State.put_keeps
    | (intro _; skip) | split
    | (dsimp only; skip)

theorem State.leveeLost_keeps {ps : Part → Prop} {s0 s : State} (h3 : ps (.regs 3)) (h17 : ps (.regs 17)) (h_clk : ps .clk) (h_evt : ps .evt) (h_out : ps .out) (h_pci : ps .pci) (h : Keeps ps s0 s) : Keeps ps s0 (State.leveeLost s) := by
  unfold State.leveeLost
  repeat' first
    | (extract_lets +onlyGivenNames x; first | (with_reducible refine Keeps.cut (x := x) ?_ ?_; rotate_left; (try clear_value x); (intro _; skip); rotate_right; subst x) | subst x)
    | with_reducible assumption | exact h3 | exact h17 | with_reducible apply State.put_keeps | with_reducible apply State.refLost_keeps
    | (intro _; skip) | split
    | (dsimp only; skip)
    | (with_reducible refine Keeps.lit rfl rfl ?_; first | with_reducible assumption | exact h3 | exact h17 | with_reducible apply State.put_keeps | with_reducible apply State.refLost_keeps | (split; skip))

theorem State.refSelect_keeps {ps : Part → Prop} {s0 s : State} (h3 : ps (.regs 3)) (h17 : ps (.regs 17)) (h_evt : ps .evt) (h_out : ps .out) (h_pci : ps .pci) (h : Keeps ps s0 s) : Keeps ps s0 (State.refSelect s) := by
  unfold State.refSelect
  repeat' first
    | (extract_lets +onlyGivenNames x; first | (with_reducible refine Keeps.cut (x := x) ?_ ?_; rotate_left; (try clear_value x); (intro _; skip); rotate_right; subst x) | subst x)
    | with_reducible assumption | exact h3 | exact h17 | with_reducible apply State.refSwitch_keeps
    | (intro _; skip) | split
    | (dsimp only; skip)

theorem State.measured_keeps {ps : Part → Prop} {a1 : Option Int} {a2 a3 : Bool} {s0 s : State} (h3 : ps (.regs 3)) (h_clk : ps .clk) (h : Keeps ps s0 s) : Keeps ps s0 (State.measured s a1 a2 a3) := by
  unfold State.measured
  repeat' first
    | (extract_lets +onlyGivenNames x; first | (with_reducible refine Keeps.cut (x := x) ?_ ?_; rotate_left; (try clear_value x); (intro _; skip); rotate_right; subst x) | subst x)
    | with_reducible assumption | exact h3 | with_reducible apply State.put_keeps | with_reducible apply State.bump_keeps | with_reducible apply State.flag_keeps
    | (intro _; skip) | split
    | (dsimp only; skip)
    | (with_reducible refine Keeps.lit rfl rfl ?_; first | with_reducible assumption | exact h3 | with_reducible apply State.put_keeps | with_reducible apply State.bump_keeps | with_reducible apply State.flag_keeps | (split; skip))

theorem execRefWindowEnd_keeps {ps : Part → Prop} {s : State} {a1 : Bool} {a2 : Option (Bool × Int)} (h3 : ps (.regs 3)) (h17 : ps (.regs 17)) (h_clk : ps .clk) (h_evt : ps .evt) (h_out : ps .out) (h_pci : ps .pci) : ∀ r, (execRefWindowEnd a1 a2 s) = .next r → Keeps ps s r := by
  intro r e
  cases e
  have h := Keeps.refl (ps := ps) s
  repeat' first
    | (extract_lets +onlyGivenNames x; first | (with_reducible refine Keeps.cut (x := x) ?_ ?_; rotate_left; (try clear_value x); (intro _; skip); rotate_right; subst x) | subst x)
    | with_reducible assumption | exact h3 | exact h17 | with_reducible apply State.when_keeps | with_reducible apply State.measured_keeps | with_reducible apply State.refLost_keeps | with_reducible apply State.refSelect_keeps
    | (intro _; skip) | split
    | (dsimp only; skip)
    | (with_reducible refine Keeps.lit rfl rfl ?_; first | with_reducible assumption | exact h3 | exact h17 | with_reducible apply State.when_keeps | with_reducible apply State.measured_keeps | with_reducible apply State.refLost_keeps | with_reducible apply State.refSelect_keeps | (split; skip))

theorem execReferenceGap_keeps {ps : Part → Prop} {s : State} (h3 : ps (.regs 3)) (h17 : ps (.regs 17)) (h_clk : ps .clk) (h_evt : ps .evt) (h_out : ps .out) (h_pci : ps .pci) : ∀ r, (execReferenceGap s) = .next r → Keeps ps s r := by
  intro r e
  cases e
  have h := Keeps.refl (ps := ps) s
  repeat' first
    | (extract_lets +onlyGivenNames x; first | (with_reducible refine Keeps.cut (x := x) ?_ ?_; rotate_left; (try clear_value x); (intro _; skip); rotate_right; subst x) | subst x)
    | with_reducible assumption | exact h3 | exact h17 | with_reducible apply State.when_keeps | with_reducible apply State.leveeLost_keeps | with_reducible apply State.refLost_keeps | with_reducible apply State.put_keeps
    | (intro _; skip) | split
    | (dsimp only; skip)
    | (with_reducible refine Keeps.lit rfl rfl ?_; first | with_reducible assumption | exact h3 | exact h17 | with_reducible apply State.when_keeps | with_reducible apply State.leveeLost_keeps | with_reducible apply State.refLost_keeps | with_reducible apply State.put_keeps | (split; skip))

theorem State.gateFollow_keeps {ps : Part → Prop} {a1 : Nat} {s0 s : State} (h3 : ps (.regs 3)) (h : Keeps ps s0 s) : Keeps ps s0 (State.gateFollow s a1) := by
  unfold State.gateFollow
  repeat' first
    | (extract_lets +onlyGivenNames x; first | (with_reducible refine Keeps.cut (x := x) ?_ ?_; rotate_left; (try clear_value x); (intro _; skip); rotate_right; subst x) | subst x)
    | with_reducible assumption | exact h3 | with_reducible apply State.flag_keeps
    | (intro _; skip) | split
    | (dsimp only; skip)

theorem State.gatesFollow_keeps {ps : Part → Prop} {s0 s : State} (h3 : ps (.regs 3)) (h : Keeps ps s0 s) : Keeps ps s0 (State.gatesFollow s) := by
  unfold State.gatesFollow
  repeat' first
    | with_reducible assumption | exact h3 | with_reducible apply State.gateFollow_keeps | with_reducible apply Keeps.foldl | with_reducible apply Keeps.foldlFst
    | (intro _; skip) | split
    | (dsimp only; skip)

end Sys2Proof.Machine
end

