-- ==== Sys2Proof/Laws/Link.lean ====
section
/-! SUPPORT. What each operation and each meaning of Machine/Link.lean keeps (Keeps): one lemma a definition. -/

-- The package as one text is checked in one process: its proofs are checked one after another, and its linters keep quiet.
set_option Elab.async false
set_option linter.all false

namespace Sys2Proof.Machine
open Sys2Proof

theorem State.injUnit_keeps {ps : Part → Prop} {a1 : Nat} {s0 s : State} (h17 : ps (.regs 17)) (h20 : ps (.regs 20)) (h_evt : ps .evt) (h_gens : ps .gens) (h_out : ps .out) (h_pci : ps .pci) (h : Keeps ps s0 s) : Keeps ps s0 (State.injUnit s a1).1 := by
  unfold State.injUnit
  repeat' first
    | (extract_lets +onlyGivenNames x; first | (with_reducible refine Keeps.cut (x := x) ?_ ?_; rotate_left; (try clear_value x); (intro _; skip); rotate_right; subst x) | subst x)
    | with_reducible assumption | exact h17 | exact h20 | with_reducible apply State.bump_keeps | with_reducible apply State.post_keeps | with_reducible apply State.flag_keeps
    | (intro _; skip) | split
    | (dsimp only; skip)
    | with_reducible refine Keeps.pair (by assumption) ?_
    | (with_reducible refine Keeps.lit rfl rfl ?_; first | with_reducible assumption | exact h17 | exact h20 | with_reducible apply State.bump_keeps | with_reducible apply State.post_keeps | with_reducible apply State.flag_keeps | with_reducible refine Keeps.pair (by assumption) ?_ | (split; skip))

theorem State.inject_keeps {ps : Part → Prop} {a1 a2 : Nat} {s0 s : State} (h17 : ps (.regs 17)) (h20 : ps (.regs 20)) (h_evt : ps .evt) (h_gens : ps .gens) (h_out : ps .out) (h_pci : ps .pci) (h : Keeps ps s0 s) : Keeps ps s0 (State.inject s a1 a2).1 := by
  unfold State.inject
  repeat' first
    | (extract_lets +onlyGivenNames x; first | (with_reducible refine Keeps.cut (x := x) ?_ ?_; rotate_left; (try clear_value x); (intro _; skip); rotate_right; subst x) | subst x)
    | with_reducible assumption | exact h17 | exact h20 | with_reducible apply State.injUnit_keeps | with_reducible apply Keeps.foldl | with_reducible apply Keeps.foldlFst
    | (intro _; skip) | split
    | (dsimp only; skip)
    | with_reducible refine Keeps.pair (by assumption) ?_

theorem State.injectFlits_keeps {ps : Part → Prop} {a1 a2 a3 a4 : Nat} {s0 s : State} (h17 : ps (.regs 17)) (h20 : ps (.regs 20)) (h_evt : ps .evt) (h_gens : ps .gens) (h_out : ps .out) (h_pci : ps .pci) (h : Keeps ps s0 s) : Keeps ps s0 (State.injectFlits s a1 a2 a3 a4).1 := by
  induction a3 generalizing s a1 a2 a4 with
  | zero =>
    unfold State.injectFlits
    repeat' first
      | (extract_lets +onlyGivenNames x; first | (with_reducible refine Keeps.cut (x := x) ?_ ?_; rotate_left; (try clear_value x); (intro _; skip); rotate_right; subst x) | subst x)
      | with_reducible assumption | exact h17 | exact h20 | with_reducible apply State.inject_keeps
      | (intro _; skip) | split
      | (dsimp only; skip)
      | with_reducible refine Keeps.pair (by assumption) ?_
  | succ n ih =>
    unfold State.injectFlits
    repeat' first
      | (extract_lets +onlyGivenNames x; first | (with_reducible refine Keeps.cut (x := x) ?_ ?_; rotate_left; (try clear_value x); (intro _; skip); rotate_right; subst x) | subst x)
      | with_reducible assumption | exact h17 | exact h20 | with_reducible apply State.inject_keeps | with_reducible apply ih
      | (intro _; skip) | split
      | (dsimp only; skip)
      | with_reducible refine Keeps.pair (by assumption) ?_

theorem State.updBnd_keeps {ps : Part → Prop} {a1 : Nat} {a2 : Bnd → Bnd} {s0 s : State} (h_lve : ps .lve) (h : Keeps ps s0 s) : Keeps ps s0 (State.updBnd s a1 a2) := by
  unfold State.updBnd
  repeat' first
    | with_reducible assumption
    | (intro _; skip) | split
    | (dsimp only; skip)
    | (with_reducible refine Keeps.lit rfl rfl ?_; first | with_reducible assumption | (split; skip))

theorem State.takeSlots_keeps {ps : Part → Prop} {a1 a2 : Nat} {s0 s : State} (h_lve : ps .lve) (h : Keeps ps s0 s) : Keeps ps s0 (State.takeSlots s a1 a2) := by
  unfold State.takeSlots
  repeat' first
    | with_reducible assumption | with_reducible apply State.updBnd_keeps
    | (intro _; skip) | split
    | (dsimp only; skip)
    | (with_reducible refine Keeps.lit rfl rfl ?_; first | with_reducible assumption | with_reducible apply State.updBnd_keeps | (split; skip))

theorem State.startMsg_keeps {ps : Part → Prop} {a1 : Nat} {a2 : Msg} {s0 s : State} (h11 : ps (.regs 11)) (h17 : ps (.regs 17)) (h20 : ps (.regs 20)) (h_evt : ps .evt) (h_gens : ps .gens) (h_lve : ps .lve) (h_out : ps .out) (h_pci : ps .pci) (h_tly : ps .tly) (h : Keeps ps s0 s) : Keeps ps s0 (State.startMsg s a1 a2) := by
  unfold State.startMsg
  repeat' first
    | (extract_lets +onlyGivenNames x; first | (with_reducible refine Keeps.cut (x := x) ?_ ?_; rotate_left; (try clear_value x); (intro _; skip); rotate_right; subst x) | subst x)
    | with_reducible assumption | exact h11 | exact h17 | exact h20 | with_reducible apply State.updBnd_keeps | with_reducible apply State.takeSlots_keeps | with_reducible apply State.bump_keeps | with_reducible apply State.updLine_keeps | with_reducible apply State.injectFlits_keeps
    | (intro _; skip) | split
    | (dsimp only; skip)
    | with_reducible refine Keeps.pair (by assumption) ?_
    | (with_reducible refine Keeps.lit rfl rfl ?_; first | with_reducible assumption | exact h11 | exact h17 | exact h20 | with_reducible apply State.updBnd_keeps | with_reducible apply State.takeSlots_keeps | with_reducible apply State.bump_keeps | with_reducible apply State.updLine_keeps | with_reducible apply State.injectFlits_keeps | with_reducible refine Keeps.pair (by assumption) ?_ | (split; skip))

theorem State.pump_keeps {ps : Part → Prop} {a1 : Nat} {s0 s : State} (h11 : ps (.regs 11)) (h17 : ps (.regs 17)) (h20 : ps (.regs 20)) (h_evt : ps .evt) (h_gens : ps .gens) (h_lve : ps .lve) (h_out : ps .out) (h_pci : ps .pci) (h_tly : ps .tly) (h : Keeps ps s0 s) : Keeps ps s0 (State.pump s a1) := by
  induction a1 generalizing s  with
  | zero =>
    unfold State.pump
    repeat' first
      | with_reducible assumption | exact h11 | exact h17 | exact h20 | with_reducible apply State.startMsg_keeps
      | (intro _; skip) | split
      | (dsimp only; skip)
      | (with_reducible refine Keeps.lit rfl rfl ?_; first | with_reducible assumption | exact h11 | exact h17 | exact h20 | with_reducible apply State.startMsg_keeps | (split; skip))
  | succ n ih =>
    unfold State.pump
    repeat' first
      | with_reducible assumption | exact h11 | exact h17 | exact h20 | with_reducible apply State.startMsg_keeps | with_reducible apply ih
      | (intro _; skip) | split
      | (dsimp only; skip)
      | (with_reducible refine Keeps.lit rfl rfl ?_; first | with_reducible assumption | exact h11 | exact h17 | exact h20 | with_reducible apply State.startMsg_keeps | with_reducible apply ih | (split; skip))

theorem State.pumpAll_keeps {ps : Part → Prop} {s0 s : State} (h11 : ps (.regs 11)) (h17 : ps (.regs 17)) (h20 : ps (.regs 20)) (h_evt : ps .evt) (h_gens : ps .gens) (h_lve : ps .lve) (h_out : ps .out) (h_pci : ps .pci) (h_tly : ps .tly) (h : Keeps ps s0 s) : Keeps ps s0 (State.pumpAll s) := by
  unfold State.pumpAll
  repeat' first
    | with_reducible assumption | exact h11 | exact h17 | exact h20 | with_reducible apply State.pump_keeps
    | (intro _; skip) | split
    | (dsimp only; skip)

theorem State.send_keeps {ps : Part → Prop} {a1 : Msg} {s0 s : State} (h11 : ps (.regs 11)) (h17 : ps (.regs 17)) (h20 : ps (.regs 20)) (h_evt : ps .evt) (h_gens : ps .gens) (h_lve : ps .lve) (h_out : ps .out) (h_pci : ps .pci) (h_tly : ps .tly) (h : Keeps ps s0 s) : Keeps ps s0 (State.send s a1) := by
  unfold State.send
  repeat' first
    | with_reducible assumption | exact h11 | exact h17 | exact h20 | with_reducible apply State.pumpAll_keeps
    | (intro _; skip) | split
    | (dsimp only; skip)
    | (with_reducible refine Keeps.lit rfl rfl ?_; first | with_reducible assumption | exact h11 | exact h17 | exact h20 | with_reducible apply State.pumpAll_keeps | (split; skip))

theorem State.sendAll_keeps {ps : Part → Prop} {a1 : Msg} {s0 s : State} (h11 : ps (.regs 11)) (h17 : ps (.regs 17)) (h20 : ps (.regs 20)) (h_evt : ps .evt) (h_gens : ps .gens) (h_lve : ps .lve) (h_out : ps .out) (h_pci : ps .pci) (h_tly : ps .tly) (h : Keeps ps s0 s) : Keeps ps s0 (State.sendAll s a1) := by
  unfold State.sendAll
  repeat' first
    | (extract_lets +onlyGivenNames x; first | (with_reducible refine Keeps.cut (x := x) ?_ ?_; rotate_left; (try clear_value x); (intro _; skip); rotate_right; subst x) | subst x)
    | with_reducible assumption | exact h11 | exact h17 | exact h20 | with_reducible apply State.pumpAll_keeps
    | (intro _; skip) | split
    | (dsimp only; skip)
    | (with_reducible refine Keeps.lit rfl rfl ?_; first | with_reducible assumption | exact h11 | exact h17 | exact h20 | with_reducible apply State.pumpAll_keeps | (split; skip))

theorem State.sendChunks_keeps {ps : Part → Prop} {a1 : List Nat → Msg} {a2 : Nat} {a3 : List Nat} {s0 s : State} (h11 : ps (.regs 11)) (h17 : ps (.regs 17)) (h20 : ps (.regs 20)) (h_evt : ps .evt) (h_gens : ps .gens) (h_lve : ps .lve) (h_out : ps .out) (h_pci : ps .pci) (h_tly : ps .tly) (h : Keeps ps s0 s) : Keeps ps s0 (State.sendChunks s a1 a2 a3) := by
  induction a2 generalizing s a1 a3 with
  | zero =>
    unfold State.sendChunks
    repeat' first
      | with_reducible assumption | exact h11 | exact h17 | exact h20 | with_reducible apply State.send_keeps
      | (intro _; skip) | split
      | (dsimp only; skip)
  | succ n ih =>
    unfold State.sendChunks
    repeat' first
      | with_reducible assumption | exact h11 | exact h17 | exact h20 | with_reducible apply State.send_keeps | with_reducible apply ih
      | (intro _; skip) | split
      | (dsimp only; skip)

theorem State.sendList_keeps {ps : Part → Prop} {a1 : List Nat → Msg} {a2 : List Nat} {s0 s : State} (h11 : ps (.regs 11)) (h17 : ps (.regs 17)) (h20 : ps (.regs 20)) (h_evt : ps .evt) (h_gens : ps .gens) (h_lve : ps .lve) (h_out : ps .out) (h_pci : ps .pci) (h_tly : ps .tly) (h : Keeps ps s0 s) : Keeps ps s0 (State.sendList s a1 a2) := by
  unfold State.sendList
  repeat' first
    | with_reducible assumption | exact h11 | exact h17 | exact h20 | with_reducible apply State.sendChunks_keeps
    | (intro _; skip) | split
    | (dsimp only; skip)

theorem State.ackTo_keeps {ps : Part → Prop} {a1 a2 : Nat} {s0 s : State} (h_lve : ps .lve) (h : Keeps ps s0 s) : Keeps ps s0 (State.ackTo s a1 a2) := by
  unfold State.ackTo
  repeat' first
    | (extract_lets +onlyGivenNames x; first | (with_reducible refine Keeps.cut (x := x) ?_ ?_; rotate_left; (try clear_value x); (intro _; skip); rotate_right; subst x) | subst x)
    | with_reducible assumption | with_reducible apply State.updBnd_keeps
    | (intro _; skip) | split
    | (dsimp only; skip)
    | (with_reducible refine Keeps.lit rfl rfl ?_; first | with_reducible assumption | with_reducible apply State.updBnd_keeps | (split; skip))

theorem State.resend_keeps {ps : Part → Prop} {a1 : Nat} {s0 s : State} (h11 : ps (.regs 11)) (h17 : ps (.regs 17)) (h20 : ps (.regs 20)) (h_evt : ps .evt) (h_gens : ps .gens) (h_lve : ps .lve) (h_out : ps .out) (h_pci : ps .pci) (h : Keeps ps s0 s) : Keeps ps s0 (State.resend s a1) := by
  unfold State.resend
  repeat' first
    | (extract_lets +onlyGivenNames x; first | (with_reducible refine Keeps.cut (x := x) ?_ ?_; rotate_left; (try clear_value x); (intro _; skip); rotate_right; subst x) | subst x)
    | with_reducible assumption | exact h11 | exact h17 | exact h20 | with_reducible apply State.updBnd_keeps | with_reducible apply State.takeSlots_keeps | with_reducible apply State.bump_keeps | with_reducible apply State.injectFlits_keeps | with_reducible apply Keeps.foldl | with_reducible apply Keeps.foldlFst
    | (intro _; skip) | split
    | (dsimp only; skip)
    | with_reducible refine Keeps.pair (by assumption) ?_
    | (with_reducible refine Keeps.lit rfl rfl ?_; first | with_reducible assumption | exact h11 | exact h17 | exact h20 | with_reducible apply State.updBnd_keeps | with_reducible apply State.takeSlots_keeps | with_reducible apply State.bump_keeps | with_reducible apply State.injectFlits_keeps | with_reducible apply Keeps.foldl | with_reducible apply Keeps.foldlFst | with_reducible refine Keeps.pair (by assumption) ?_ | (split; skip))

theorem State.toRetrain_keeps {ps : Part → Prop} {a1 : Nat} {s0 s : State} (h3 : ps (.regs 3)) (h11 : ps (.regs 11)) (h17 : ps (.regs 17)) (h20 : ps (.regs 20)) (h_clk : ps .clk) (h_evt : ps .evt) (h_gens : ps .gens) (h_lve : ps .lve) (h_out : ps .out) (h_pci : ps .pci) (h_tly : ps .tly) (h : Keeps ps s0 s) : Keeps ps s0 (State.toRetrain s a1) := by
  unfold State.toRetrain
  repeat' first
    | (extract_lets +onlyGivenNames x; first | (with_reducible refine Keeps.cut (x := x) ?_ ?_; rotate_left; (try clear_value x); (intro _; skip); rotate_right; subst x) | subst x)
    | with_reducible assumption | exact h3 | exact h11 | exact h17 | exact h20 | with_reducible apply State.bump_keeps | with_reducible apply State.put_keeps | with_reducible apply State.takeSlots_keeps | with_reducible apply State.pumpAll_keeps | with_reducible apply State.leveeLost_keeps
    | (intro _; skip) | split
    | (dsimp only; skip)

theorem State.bundleDown_keeps {ps : Part → Prop} {a1 : Nat} {s0 s : State} (h3 : ps (.regs 3)) (h11 : ps (.regs 11)) (h17 : ps (.regs 17)) (h20 : ps (.regs 20)) (h_clk : ps .clk) (h_evt : ps .evt) (h_gens : ps .gens) (h_lve : ps .lve) (h_out : ps .out) (h_pci : ps .pci) (h_qqp : ps .qqp) (h_tly : ps .tly) (h : Keeps ps s0 s) : Keeps ps s0 (State.bundleDown s a1) := by
  unfold State.bundleDown
  repeat' first
    | (extract_lets +onlyGivenNames x; first | (with_reducible refine Keeps.cut (x := x) ?_ ?_; rotate_left; (try clear_value x); (intro _; skip); rotate_right; subst x) | subst x)
    | with_reducible assumption | exact h3 | exact h11 | exact h17 | exact h20 | with_reducible apply State.put_keeps | with_reducible apply State.leveeLost_keeps | with_reducible apply State.updBnd_keeps | with_reducible apply State.pumpAll_keeps | with_reducible apply State.stopMirror_keeps
    | (intro _; skip) | split
    | (dsimp only; skip)
    | (with_reducible refine Keeps.lit rfl rfl ?_; first | with_reducible assumption | exact h3 | exact h11 | exact h17 | exact h20 | with_reducible apply State.put_keeps | with_reducible apply State.leveeLost_keeps | with_reducible apply State.updBnd_keeps | with_reducible apply State.pumpAll_keeps | with_reducible apply State.stopMirror_keeps | (split; skip))

theorem State.mirrorLine_keeps {ps : Part → Prop} {a1 : Nat} {a2 : Bool} {s0 s : State} (h11 : ps (.regs 11)) (h17 : ps (.regs 17)) (h20 : ps (.regs 20)) (h_evt : ps .evt) (h_gens : ps .gens) (h_lve : ps .lve) (h_out : ps .out) (h_pci : ps .pci) (h_tly : ps .tly) (h : Keeps ps s0 s) : Keeps ps s0 (State.mirrorLine s a1 a2) := by
  unfold State.mirrorLine
  repeat' first
    | with_reducible assumption | exact h11 | exact h17 | exact h20 | with_reducible apply State.send_keeps
    | (intro _; skip) | split
    | (dsimp only; skip)
    | (with_reducible refine Keeps.lit rfl rfl ?_; first | with_reducible assumption | exact h11 | exact h17 | exact h20 | with_reducible apply State.send_keeps | (split; skip))

end Sys2Proof.Machine
end

