-- ==== Sys2Proof/Laws/MapOps.lean ====
section
/-! SUPPORT. What each operation and each meaning of Machine/MapOps.lean keeps (Keeps): one lemma a definition. -/

-- The package as one text is checked in one process: its proofs are checked one after another, and its linters keep quiet.
set_option Elab.async false
set_option linter.all false

namespace Sys2Proof.Machine
open Sys2Proof

theorem State.mapCmds_keeps {ps : Part → Prop} {a1 : Cmd → Option Cmd} {s0 s : State} (h_qqp : ps .qqp) (h : Keeps ps s0 s) : Keeps ps s0 (State.mapCmds s a1) := by
  unfold State.mapCmds
  repeat' first
    | with_reducible assumption
    | (intro _; skip) | split
    | (dsimp only; skip)
    | (with_reducible refine Keeps.lit rfl rfl ?_; first | with_reducible assumption | (split; skip))

theorem State.unlink_keeps {ps : Part → Prop} {s0 s : State} (h_qqp : ps .qqp) (h_tly : ps .tly) (h : Keeps ps s0 s) : Keeps ps s0 (State.unlink s) := by
  unfold State.unlink
  repeat' first
    | (extract_lets +onlyGivenNames x; first | (with_reducible refine Keeps.cut (x := x) ?_ ?_; rotate_left; (try clear_value x); (intro _; skip); rotate_right; subst x) | subst x)
    | with_reducible assumption | with_reducible apply State.mapCmds_keeps
    | (intro _; skip) | split
    | (dsimp only; skip)
    | (with_reducible refine Keeps.lit rfl rfl ?_; first | with_reducible assumption | with_reducible apply State.mapCmds_keeps | (split; skip))

theorem State.settleAll_keeps {ps : Part → Prop} {s0 s : State} (h_qqp : ps .qqp) (h_tly : ps .tly) (h : Keeps ps s0 s) : Keeps ps s0 (State.settleAll s) := by
  unfold State.settleAll
  repeat' first
    | with_reducible assumption | with_reducible apply State.unlink_keeps | with_reducible apply State.mapCmds_keeps
    | (intro _; skip) | split
    | (dsimp only; skip)

theorem State.countProgrammed_keeps {ps : Part → Prop} {a1 : Nat → Line → Bool} {s0 s : State} (h_qqp : ps .qqp) (h_tly : ps .tly) (h : Keeps ps s0 s) : Keeps ps s0 (State.countProgrammed s a1) := by
  unfold State.countProgrammed
  repeat' first
    | (extract_lets +onlyGivenNames x; first | (with_reducible refine Keeps.cut (x := x) ?_ ?_; rotate_left; (try clear_value x); (intro _; skip); rotate_right; subst x) | subst x)
    | with_reducible assumption | with_reducible apply State.updLine_keeps | with_reducible apply State.updCmd_keeps | with_reducible apply Keeps.foldl | with_reducible apply Keeps.foldlFst
    | (intro _; skip) | split
    | (dsimp only; skip)
    | (with_reducible refine Keeps.lit rfl rfl ?_; first | with_reducible assumption | with_reducible apply State.updLine_keeps | with_reducible apply State.updCmd_keeps | with_reducible apply Keeps.foldl | with_reducible apply Keeps.foldlFst | (split; skip))

theorem State.lineDestaged_keeps {ps : Part → Prop} {a1 : Nat} {s0 s : State} (h_qqp : ps .qqp) (h_tly : ps .tly) (h : Keeps ps s0 s) : Keeps ps s0 (State.lineDestaged s a1) := by
  unfold State.lineDestaged
  repeat' first
    | (extract_lets +onlyGivenNames x; first | (with_reducible refine Keeps.cut (x := x) ?_ ?_; rotate_left; (try clear_value x); (intro _; skip); rotate_right; subst x) | subst x)
    | with_reducible assumption | with_reducible apply State.countProgrammed_keeps | with_reducible apply State.updLine_keeps | with_reducible apply State.mapCmds_keeps
    | (intro _; skip) | split
    | (dsimp only; skip)
    | (with_reducible refine Keeps.lit rfl rfl ?_; first | with_reducible assumption | with_reducible apply State.countProgrammed_keeps | with_reducible apply State.updLine_keeps | with_reducible apply State.mapCmds_keeps | (split; skip))

theorem State.lineDone_keeps {ps : Part → Prop} {a1 : Nat} {s0 s : State} (h_qqp : ps .qqp) (h_tly : ps .tly) (h : Keeps ps s0 s) : Keeps ps s0 (State.lineDone s a1) := by
  unfold State.lineDone
  repeat' first
    | with_reducible assumption | with_reducible apply State.mapCmds_keeps
    | (intro _; skip) | split
    | (dsimp only; skip)
    | (with_reducible refine Keeps.lit rfl rfl ?_; first | with_reducible assumption | with_reducible apply State.mapCmds_keeps | (split; skip))

theorem State.supersede_keeps {ps : Part → Prop} {a1 a2 : Nat} {s0 s : State} (h_qqp : ps .qqp) (h_tly : ps .tly) (h : Keeps ps s0 s) : Keeps ps s0 (State.supersede s a1 a2) := by
  unfold State.supersede
  repeat' first
    | (extract_lets +onlyGivenNames x; first | (with_reducible refine Keeps.cut (x := x) ?_ ?_; rotate_left; (try clear_value x); (intro _; skip); rotate_right; subst x) | subst x)
    | with_reducible assumption | with_reducible apply State.mapCmds_keeps | with_reducible apply State.lineDestaged_keeps
    | (intro _; skip) | split
    | (dsimp only; skip)
    | (with_reducible refine Keeps.lit rfl rfl ?_; first | with_reducible assumption | with_reducible apply State.mapCmds_keeps | with_reducible apply State.lineDestaged_keeps | (split; skip))

theorem State.releaseLines_keeps {ps : Part → Prop} {a1 : List Nat} {s0 s : State} (h11 : ps (.regs 11)) (h17 : ps (.regs 17)) (h20 : ps (.regs 20)) (h_evt : ps .evt) (h_gens : ps .gens) (h_lve : ps .lve) (h_out : ps .out) (h_pci : ps .pci) (h_qqp : ps .qqp) (h_tly : ps .tly) (h : Keeps ps s0 s) : Keeps ps s0 (State.releaseLines s a1) := by
  unfold State.releaseLines
  repeat' first
    | (extract_lets +onlyGivenNames x; first | (with_reducible refine Keeps.cut (x := x) ?_ ?_; rotate_left; (try clear_value x); (intro _; skip); rotate_right; subst x) | subst x)
    | with_reducible assumption | exact h11 | exact h17 | exact h20 | with_reducible apply State.lineDone_keeps | with_reducible apply State.sendList_keeps | with_reducible apply Keeps.foldl | with_reducible apply Keeps.foldlFst
    | (intro _; skip) | split
    | (dsimp only; skip)
    | (with_reducible refine Keeps.lit rfl rfl ?_; first | with_reducible assumption | exact h11 | exact h17 | exact h20 | with_reducible apply State.lineDone_keeps | with_reducible apply State.sendList_keeps | with_reducible apply Keeps.foldl | with_reducible apply Keeps.foldlFst | (split; skip))

theorem State.trimLines_keeps {ps : Part → Prop} {a1 : List Nat} {a2 : Nat} {s0 s : State} (h11 : ps (.regs 11)) (h17 : ps (.regs 17)) (h20 : ps (.regs 20)) (h_evt : ps .evt) (h_gens : ps .gens) (h_lve : ps .lve) (h_out : ps .out) (h_pci : ps .pci) (h_qqp : ps .qqp) (h_tly : ps .tly) (h : Keeps ps s0 s) : Keeps ps s0 (State.trimLines s a1 a2) := by
  unfold State.trimLines
  repeat' first
    | (extract_lets +onlyGivenNames x; first | (with_reducible refine Keeps.cut (x := x) ?_ ?_; rotate_left; (try clear_value x); (intro _; skip); rotate_right; subst x) | subst x)
    | with_reducible assumption | exact h11 | exact h17 | exact h20 | with_reducible apply State.mapCmds_keeps | with_reducible apply State.updCmd_keeps | with_reducible apply State.updLine_keeps | with_reducible apply State.releaseLines_keeps | with_reducible apply Keeps.foldl | with_reducible apply Keeps.foldlFst
    | (intro _; skip) | split
    | (dsimp only; skip)
    | (with_reducible refine Keeps.lit rfl rfl ?_; first | with_reducible assumption | exact h11 | exact h17 | exact h20 | with_reducible apply State.mapCmds_keeps | with_reducible apply State.updCmd_keeps | with_reducible apply State.updLine_keeps | with_reducible apply State.releaseLines_keeps | with_reducible apply Keeps.foldl | with_reducible apply Keeps.foldlFst | (split; skip))

theorem State.releaseProgrammed_keeps {ps : Part → Prop} {s0 s : State} (h11 : ps (.regs 11)) (h17 : ps (.regs 17)) (h20 : ps (.regs 20)) (h_evt : ps .evt) (h_gens : ps .gens) (h_lve : ps .lve) (h_out : ps .out) (h_pci : ps .pci) (h_qqp : ps .qqp) (h_tly : ps .tly) (h : Keeps ps s0 s) : Keeps ps s0 (State.releaseProgrammed s) := by
  unfold State.releaseProgrammed
  repeat' first
    | (extract_lets +onlyGivenNames x; first | (with_reducible refine Keeps.cut (x := x) ?_ ?_; rotate_left; (try clear_value x); (intro _; skip); rotate_right; subst x) | subst x)
    | with_reducible assumption | exact h11 | exact h17 | exact h20 | with_reducible apply State.settleAll_keeps | with_reducible apply State.releaseLines_keeps
    | (intro _; skip) | split
    | (dsimp only; skip)
    | (with_reducible refine Keeps.lit rfl rfl ?_; first | with_reducible assumption | exact h11 | exact h17 | exact h20 | with_reducible apply State.settleAll_keeps | with_reducible apply State.releaseLines_keeps | (split; skip))

theorem State.ringCheck_keeps {ps : Part → Prop} {s0 s : State} (h7 : ps (.regs 7)) (h17 : ps (.regs 17)) (h_evt : ps .evt) (h_out : ps .out) (h_pci : ps .pci) (h_tly : ps .tly) (h : Keeps ps s0 s) : Keeps ps s0 (State.ringCheck s) := by
  unfold State.ringCheck
  repeat' first
    | (extract_lets +onlyGivenNames x; first | (with_reducible refine Keeps.cut (x := x) ?_ ?_; rotate_left; (try clear_value x); (intro _; skip); rotate_right; subst x) | subst x)
    | with_reducible assumption | exact h7 | exact h17 | with_reducible apply State.put_keeps | with_reducible apply State.post_keeps
    | (intro _; skip) | split
    | (dsimp only; skip)
    | (with_reducible refine Keeps.lit rfl rfl ?_; first | with_reducible assumption | exact h7 | exact h17 | with_reducible apply State.put_keeps | with_reducible apply State.post_keeps | (split; skip))

theorem State.closeJPage_keeps {ps : Part → Prop} {s0 s : State} (h_tly : ps .tly) (h : Keeps ps s0 s) : Keeps ps s0 (State.closeJPage s) := by
  unfold State.closeJPage
  repeat' first
    | with_reducible assumption
    | (intro _; skip) | split
    | (dsimp only; skip)
    | (with_reducible refine Keeps.lit rfl rfl ?_; first | with_reducible assumption | (split; skip))

theorem State.ckptDue_keeps {ps : Part → Prop} {s0 s : State} (h_tly : ps .tly) (h : Keeps ps s0 s) : Keeps ps s0 (State.ckptDue s) := by
  unfold State.ckptDue
  repeat' first
    | (extract_lets +onlyGivenNames x; first | (with_reducible refine Keeps.cut (x := x) ?_ ?_; rotate_left; (try clear_value x); (intro _; skip); rotate_right; subst x) | subst x)
    | with_reducible assumption
    | (intro _; skip) | split
    | (dsimp only; skip)
    | (with_reducible refine Keeps.lit rfl rfl ?_; first | with_reducible assumption | (split; skip))

theorem State.journal_keeps {ps : Part → Prop} {a1 : JRec} {s0 s : State} (h7 : ps (.regs 7)) (h11 : ps (.regs 11)) (h17 : ps (.regs 17)) (h20 : ps (.regs 20)) (h_evt : ps .evt) (h_gens : ps .gens) (h_lve : ps .lve) (h_out : ps .out) (h_pci : ps .pci) (h_tly : ps .tly) (h : Keeps ps s0 s) : Keeps ps s0 (State.journal s a1) := by
  unfold State.journal
  repeat' first
    | (extract_lets +onlyGivenNames x; first | (with_reducible refine Keeps.cut (x := x) ?_ ?_; rotate_left; (try clear_value x); (intro _; skip); rotate_right; subst x) | subst x)
    | with_reducible assumption | exact h7 | exact h11 | exact h17 | exact h20 | with_reducible apply State.put64_keeps | with_reducible apply State.send_keeps | with_reducible apply State.closeJPage_keeps | with_reducible apply State.ringCheck_keeps | with_reducible apply State.ckptDue_keeps
    | (intro _; skip) | split
    | (dsimp only; skip)
    | (with_reducible refine Keeps.lit rfl rfl ?_; first | with_reducible assumption | exact h7 | exact h11 | exact h17 | exact h20 | with_reducible apply State.put64_keeps | with_reducible apply State.send_keeps | with_reducible apply State.closeJPage_keeps | with_reducible apply State.ringCheck_keeps | with_reducible apply State.ckptDue_keeps | (split; skip))

theorem State.journalAll_keeps {ps : Part → Prop} {a1 : List JRec} {s0 s : State} (h7 : ps (.regs 7)) (h11 : ps (.regs 11)) (h17 : ps (.regs 17)) (h20 : ps (.regs 20)) (h_evt : ps .evt) (h_gens : ps .gens) (h_lve : ps .lve) (h_out : ps .out) (h_pci : ps .pci) (h_tly : ps .tly) (h : Keeps ps s0 s) : Keeps ps s0 (State.journalAll s a1) := by
  unfold State.journalAll
  repeat' first
    | with_reducible assumption | exact h7 | exact h11 | exact h17 | exact h20 | with_reducible apply State.journal_keeps | with_reducible apply Keeps.foldl | with_reducible apply Keeps.foldlFst
    | (intro _; skip) | split
    | (dsimp only; skip)

theorem State.tractSet_keeps {ps : Part → Prop} {a1 : Nat} {s0 s : State} (h7 : ps (.regs 7)) (h11 : ps (.regs 11)) (h17 : ps (.regs 17)) (h20 : ps (.regs 20)) (h_evt : ps .evt) (h_gens : ps .gens) (h_lve : ps .lve) (h_out : ps .out) (h_pci : ps .pci) (h_tly : ps .tly) (h : Keeps ps s0 s) : Keeps ps s0 (State.tractSet s a1) := by
  unfold State.tractSet
  repeat' first
    | (extract_lets +onlyGivenNames x; first | (with_reducible refine Keeps.cut (x := x) ?_ ?_; rotate_left; (try clear_value x); (intro _; skip); rotate_right; subst x) | subst x)
    | with_reducible assumption | exact h7 | exact h11 | exact h17 | exact h20 | with_reducible apply State.journal_keeps
    | (intro _; skip) | split
    | (dsimp only; skip)

theorem State.journalMirrored_keeps {ps : Part → Prop} {s0 s : State} (h11 : ps (.regs 11)) (h17 : ps (.regs 17)) (h20 : ps (.regs 20)) (h_evt : ps .evt) (h_gens : ps .gens) (h_lve : ps .lve) (h_out : ps .out) (h_pci : ps .pci) (h_qqp : ps .qqp) (h_tly : ps .tly) (h : Keeps ps s0 s) : Keeps ps s0 (State.journalMirrored s) := by
  unfold State.journalMirrored
  repeat' first
    | (extract_lets +onlyGivenNames x; first | (with_reducible refine Keeps.cut (x := x) ?_ ?_; rotate_left; (try clear_value x); (intro _; skip); rotate_right; subst x) | subst x)
    | with_reducible assumption | exact h11 | exact h17 | exact h20 | with_reducible apply State.lineDestaged_keeps | with_reducible apply State.mapCmds_keeps | with_reducible apply State.releaseProgrammed_keeps | with_reducible apply State.settleAll_keeps | with_reducible apply Keeps.foldl | with_reducible apply Keeps.foldlFst
    | (intro _; skip) | split
    | (dsimp only; skip)
    | (with_reducible refine Keeps.lit rfl rfl ?_; first | with_reducible assumption | exact h11 | exact h17 | exact h20 | with_reducible apply State.lineDestaged_keeps | with_reducible apply State.mapCmds_keeps | with_reducible apply State.releaseProgrammed_keeps | with_reducible apply State.settleAll_keeps | with_reducible apply Keeps.foldl | with_reducible apply Keeps.foldlFst | (split; skip))

theorem State.goSolo_keeps {ps : Part → Prop} {s0 s : State} (h11 : ps (.regs 11)) (h17 : ps (.regs 17)) (h20 : ps (.regs 20)) (h_evt : ps .evt) (h_gens : ps .gens) (h_lve : ps .lve) (h_out : ps .out) (h_pci : ps .pci) (h_qqp : ps .qqp) (h_tly : ps .tly) (h : Keeps ps s0 s) : Keeps ps s0 (State.goSolo s) := by
  unfold State.goSolo
  repeat' first
    | (extract_lets +onlyGivenNames x; first | (with_reducible refine Keeps.cut (x := x) ?_ ?_; rotate_left; (try clear_value x); (intro _; skip); rotate_right; subst x) | subst x)
    | with_reducible assumption | exact h11 | exact h17 | exact h20 | with_reducible apply State.stopMirror_keeps | with_reducible apply State.lineDone_keeps | with_reducible apply State.journalMirrored_keeps | with_reducible apply Keeps.foldl | with_reducible apply Keeps.foldlFst
    | (intro _; skip) | split
    | (dsimp only; skip)
    | (with_reducible refine Keeps.lit rfl rfl ?_; first | with_reducible assumption | exact h11 | exact h17 | exact h20 | with_reducible apply State.stopMirror_keeps | with_reducible apply State.lineDone_keeps | with_reducible apply State.journalMirrored_keeps | with_reducible apply Keeps.foldl | with_reducible apply Keeps.foldlFst | (split; skip))

theorem State.addFrame_keeps {ps : Part → Prop} {a1 : Nat} {a2 : Frame} {s0 s : State} (h_tly : ps .tly) (h : Keeps ps s0 s) : Keeps ps s0 (State.addFrame s a1 a2) := by
  unfold State.addFrame
  repeat' first
    | with_reducible assumption
    | (intro _; skip) | split
    | (dsimp only; skip)
    | (with_reducible refine Keeps.lit rfl rfl ?_; first | with_reducible assumption | (split; skip))

theorem State.updFrame_keeps {ps : Part → Prop} {a1 : Nat} {a2 : Frame → Frame} {s0 s : State} (h_tly : ps .tly) (h : Keeps ps s0 s) : Keeps ps s0 (State.updFrame s a1 a2) := by
  unfold State.updFrame
  repeat' first
    | with_reducible assumption | with_reducible apply State.addFrame_keeps
    | (intro _; skip) | split
    | (dsimp only; skip)
    | (with_reducible refine Keeps.lit rfl rfl ?_; first | with_reducible assumption | with_reducible apply State.addFrame_keeps | (split; skip))

theorem State.dropEntries_keeps {ps : Part → Prop} {a1 : Nat} {s0 s : State} (h_tly : ps .tly) (h : Keeps ps s0 s) : Keeps ps s0 (State.dropEntries s a1) := by
  unfold State.dropEntries
  repeat' first
    | with_reducible assumption
    | (intro _; skip) | split
    | (dsimp only; skip)
    | (with_reducible refine Keeps.lit rfl rfl ?_; first | with_reducible assumption | (split; skip))

theorem State.evict_keeps {ps : Part → Prop} {a1 : Nat} {s0 s : State} (h7 : ps (.regs 7)) (h_tly : ps .tly) (h : Keeps ps s0 s) : Keeps ps s0 (State.evict s a1) := by
  unfold State.evict
  repeat' first
    | (extract_lets +onlyGivenNames x; first | (with_reducible refine Keeps.cut (x := x) ?_ ?_; rotate_left; (try clear_value x); (intro _; skip); rotate_right; subst x) | subst x)
    | with_reducible assumption | exact h7 | with_reducible apply State.dropEntries_keeps | with_reducible apply State.bump_keeps
    | (intro _; skip) | split
    | (dsimp only; skip)
    | (with_reducible refine Keeps.lit rfl rfl ?_; first | with_reducible assumption | exact h7 | with_reducible apply State.dropEntries_keeps | with_reducible apply State.bump_keeps | (split; skip))

theorem State.startWb_keeps {ps : Part → Prop} {a1 : Nat} {s0 s : State} (h_tly : ps .tly) (h : Keeps ps s0 s) : Keeps ps s0 (State.startWb s a1) := by
  unfold State.startWb
  repeat' first
    | (extract_lets +onlyGivenNames x; first | (with_reducible refine Keeps.cut (x := x) ?_ ?_; rotate_left; (try clear_value x); (intro _; skip); rotate_right; subst x) | subst x)
    | with_reducible assumption | with_reducible apply State.updFrame_keeps
    | (intro _; skip) | split
    | (dsimp only; skip)
    | (with_reducible refine Keeps.lit rfl rfl ?_; first | with_reducible assumption | with_reducible apply State.updFrame_keeps | (split; skip))

theorem State.clearRef_keeps {ps : Part → Prop} {a1 : List Nat} {s0 s : State} (h_tly : ps .tly) (h : Keeps ps s0 s) : Keeps ps s0 (State.clearRef s a1) := by
  unfold State.clearRef
  repeat' first
    | with_reducible assumption | with_reducible apply State.updFrame_keeps | with_reducible apply Keeps.foldl | with_reducible apply Keeps.foldlFst
    | (intro _; skip) | split
    | (dsimp only; skip)
    | (with_reducible refine Keeps.lit rfl rfl ?_; first | with_reducible assumption | with_reducible apply State.updFrame_keeps | with_reducible apply Keeps.foldl | with_reducible apply Keeps.foldlFst | (split; skip))

theorem State.takeFrame_keeps {ps : Part → Prop} {s0 s : State} (h7 : ps (.regs 7)) (h_tly : ps .tly) (h : Keeps ps s0 s) : Keeps ps s0 (State.takeFrame s).1 := by
  unfold State.takeFrame
  repeat' first
    | (extract_lets +onlyGivenNames x; first | (with_reducible refine Keeps.cut (x := x) ?_ ?_; rotate_left; (try clear_value x); (intro _; skip); rotate_right; subst x) | subst x)
    | with_reducible assumption | exact h7 | with_reducible apply State.evict_keeps | with_reducible apply State.clearRef_keeps | with_reducible apply State.startWb_keeps
    | (intro _; skip) | split
    | (dsimp only; skip)
    | with_reducible refine Keeps.pair (by assumption) ?_
    | (with_reducible refine Keeps.lit rfl rfl ?_; first | with_reducible assumption | exact h7 | with_reducible apply State.evict_keeps | with_reducible apply State.clearRef_keeps | with_reducible apply State.startWb_keeps | with_reducible refine Keeps.pair (by assumption) ?_ | (split; skip))

theorem State.raFrame_keeps {ps : Part → Prop} {s0 s : State} (h7 : ps (.regs 7)) (h_tly : ps .tly) (h : Keeps ps s0 s) : Keeps ps s0 (State.raFrame s).1 := by
  unfold State.raFrame
  repeat' first
    | with_reducible assumption | exact h7 | with_reducible apply State.evict_keeps
    | (intro _; skip) | split
    | (dsimp only; skip)
    | with_reducible refine Keeps.pair (by assumption) ?_
    | (with_reducible refine Keeps.lit rfl rfl ?_; first | with_reducible assumption | exact h7 | with_reducible apply State.evict_keeps | with_reducible refine Keeps.pair (by assumption) ?_ | (split; skip))

theorem State.updLoad_keeps {ps : Part → Prop} {a1 : Nat} {a2 : Load → Load} {s0 s : State} (h_tly : ps .tly) (h : Keeps ps s0 s) : Keeps ps s0 (State.updLoad s a1 a2) := by
  unfold State.updLoad
  repeat' first
    | with_reducible assumption
    | (intro _; skip) | split
    | (dsimp only; skip)
    | (with_reducible refine Keeps.lit rfl rfl ?_; first | with_reducible assumption | (split; skip))

theorem State.dirChanged_keeps {ps : Part → Prop} {a1 : Nat} {s0 s : State} (h_tly : ps .tly) (h : Keeps ps s0 s) : Keeps ps s0 (State.dirChanged s a1) := by
  unfold State.dirChanged
  repeat' first
    | with_reducible assumption
    | (intro _; skip) | split
    | (dsimp only; skip)
    | (with_reducible refine Keeps.lit rfl rfl ?_; first | with_reducible assumption | (split; skip))

theorem State.discardPre_keeps {ps : Part → Prop} {a1 : Nat × Nat → Bool} {s0 s : State} (h7 : ps (.regs 7)) (h_tly : ps .tly) (h : Keeps ps s0 s) : Keeps ps s0 (State.discardPre s a1) := by
  unfold State.discardPre
  repeat' first
    | (extract_lets +onlyGivenNames x; first | (with_reducible refine Keeps.cut (x := x) ?_ ?_; rotate_left; (try clear_value x); (intro _; skip); rotate_right; subst x) | subst x)
    | with_reducible assumption | exact h7 | with_reducible apply State.bump_keeps
    | (intro _; skip) | split
    | (dsimp only; skip)
    | (with_reducible refine Keeps.lit rfl rfl ?_; first | with_reducible assumption | exact h7 | with_reducible apply State.bump_keeps | (split; skip))

theorem State.setEntry_keeps {ps : Part → Prop} {a1 a2 a3 a4 : Nat} {s0 s : State} (h7 : ps (.regs 7)) (h_tly : ps .tly) (h : Keeps ps s0 s) : Keeps ps s0 (State.setEntry s a1 a2 a3 a4) := by
  unfold State.setEntry
  repeat' first
    | (extract_lets +onlyGivenNames x; first | (with_reducible refine Keeps.cut (x := x) ?_ ?_; rotate_left; (try clear_value x); (intro _; skip); rotate_right; subst x) | subst x)
    | with_reducible assumption | exact h7 | with_reducible apply State.updFrame_keeps | with_reducible apply State.ckptDue_keeps | with_reducible apply State.discardPre_keeps
    | (intro _; skip) | split
    | (dsimp only; skip)
    | (with_reducible refine Keeps.lit rfl rfl ?_; first | with_reducible assumption | exact h7 | with_reducible apply State.updFrame_keeps | with_reducible apply State.ckptDue_keeps | with_reducible apply State.discardPre_keeps | (split; skip))

theorem State.replayRec_keeps {ps : Part → Prop} {a1 : Nat} {a2 : JRec} {s0 s : State} (h7 : ps (.regs 7)) (h_tly : ps .tly) (h : Keeps ps s0 s) : Keeps ps s0 (State.replayRec s a1 a2) := by
  unfold State.replayRec
  repeat' first
    | (extract_lets +onlyGivenNames x; first | (with_reducible refine Keeps.cut (x := x) ?_ ?_; rotate_left; (try clear_value x); (intro _; skip); rotate_right; subst x) | subst x)
    | with_reducible assumption | exact h7 | with_reducible apply State.setEntry_keeps | with_reducible apply State.dropEntries_keeps | with_reducible apply Keeps.foldl | with_reducible apply Keeps.foldlFst
    | (intro _; skip) | split
    | (dsimp only; skip)
    | (with_reducible refine Keeps.lit rfl rfl ?_; first | with_reducible assumption | exact h7 | with_reducible apply State.setEntry_keeps | with_reducible apply State.dropEntries_keeps | with_reducible apply Keeps.foldl | with_reducible apply Keeps.foldlFst | (split; skip))

theorem State.replayPage_keeps {ps : Part → Prop} {a1 : Nat} {s0 s : State} (h7 : ps (.regs 7)) (h_tly : ps .tly) (h : Keeps ps s0 s) : Keeps ps s0 (State.replayPage s a1) := by
  unfold State.replayPage
  repeat' first
    | (extract_lets +onlyGivenNames x; first | (with_reducible refine Keeps.cut (x := x) ?_ ?_; rotate_left; (try clear_value x); (intro _; skip); rotate_right; subst x) | subst x)
    | with_reducible assumption | exact h7 | with_reducible apply State.replayRec_keeps | with_reducible apply State.put_keeps | with_reducible apply Keeps.foldl | with_reducible apply Keeps.foldlFst
    | (intro _; skip) | split
    | (dsimp only; skip)
    | (with_reducible refine Keeps.lit rfl rfl ?_; first | with_reducible assumption | exact h7 | with_reducible apply State.replayRec_keeps | with_reducible apply State.put_keeps | with_reducible apply Keeps.foldl | with_reducible apply Keeps.foldlFst | (split; skip))

theorem State.needPage_keeps {ps : Part → Prop} {a1 : Nat} {a2 : Waiter} {a3 : Nat} {s0 s : State} (h7 : ps (.regs 7)) (h17 : ps (.regs 17)) (h_evt : ps .evt) (h_out : ps .out) (h_pci : ps .pci) (h_tly : ps .tly) (h : Keeps ps s0 s) : Keeps ps s0 (State.needPage s a1 a2 a3).1 := by
  unfold State.needPage
  repeat' first
    | (extract_lets +onlyGivenNames x; first | (with_reducible refine Keeps.cut (x := x) ?_ ?_; rotate_left; (try clear_value x); (intro _; skip); rotate_right; subst x) | subst x)
    | with_reducible assumption | exact h7 | exact h17 | with_reducible apply State.takeFrame_keeps | with_reducible apply State.replayPage_keeps | with_reducible apply State.addFrame_keeps | with_reducible apply State.updLoad_keeps | with_reducible apply State.bump_keeps | with_reducible apply State.post_keeps
    | (intro _; skip) | split
    | (dsimp only; skip)
    | with_reducible refine Keeps.pair (by assumption) ?_
    | (with_reducible refine Keeps.lit rfl rfl ?_; first | with_reducible assumption | exact h7 | exact h17 | with_reducible apply State.takeFrame_keeps | with_reducible apply State.replayPage_keeps | with_reducible apply State.addFrame_keeps | with_reducible apply State.updLoad_keeps | with_reducible apply State.bump_keeps | with_reducible apply State.post_keeps | with_reducible refine Keeps.pair (by assumption) ?_ | (split; skip))

theorem State.ckptStart_keeps {ps : Part → Prop} {a1 : Bool} {s0 s : State} (h7 : ps (.regs 7)) (h11 : ps (.regs 11)) (h17 : ps (.regs 17)) (h20 : ps (.regs 20)) (h_evt : ps .evt) (h_gens : ps .gens) (h_lve : ps .lve) (h_out : ps .out) (h_pci : ps .pci) (h_tly : ps .tly) (h : Keeps ps s0 s) : Keeps ps s0 (State.ckptStart s a1) := by
  unfold State.ckptStart
  repeat' first
    | (extract_lets +onlyGivenNames x; first | (with_reducible refine Keeps.cut (x := x) ?_ ?_; rotate_left; (try clear_value x); (intro _; skip); rotate_right; subst x) | subst x)
    | with_reducible assumption | exact h7 | exact h11 | exact h17 | exact h20 | with_reducible apply State.put_keeps | with_reducible apply State.journal_keeps | with_reducible apply State.startWb_keeps | with_reducible apply Keeps.foldl | with_reducible apply Keeps.foldlFst
    | (intro _; skip) | split
    | (dsimp only; skip)
    | (with_reducible refine Keeps.lit rfl rfl ?_; first | with_reducible assumption | exact h7 | exact h11 | exact h17 | exact h20 | with_reducible apply State.put_keeps | with_reducible apply State.journal_keeps | with_reducible apply State.startWb_keeps | with_reducible apply Keeps.foldl | with_reducible apply Keeps.foldlFst | (split; skip))

theorem State.ckptTrigger_keeps {ps : Part → Prop} {s0 s : State} (h7 : ps (.regs 7)) (h11 : ps (.regs 11)) (h17 : ps (.regs 17)) (h20 : ps (.regs 20)) (h_evt : ps .evt) (h_gens : ps .gens) (h_lve : ps .lve) (h_out : ps .out) (h_pci : ps .pci) (h_tly : ps .tly) (h : Keeps ps s0 s) : Keeps ps s0 (State.ckptTrigger s) := by
  unfold State.ckptTrigger
  repeat' first
    | with_reducible assumption | exact h7 | exact h11 | exact h17 | exact h20 | with_reducible apply State.ckptStart_keeps
    | (intro _; skip) | split
    | (dsimp only; skip)
    | (with_reducible refine Keeps.lit rfl rfl ?_; first | with_reducible assumption | exact h7 | exact h11 | exact h17 | exact h20 | with_reducible apply State.ckptStart_keeps | (split; skip))

theorem State.ckptCheck_keeps {ps : Part → Prop} {s0 s : State} (h7 : ps (.regs 7)) (h11 : ps (.regs 11)) (h17 : ps (.regs 17)) (h20 : ps (.regs 20)) (h_evt : ps .evt) (h_gens : ps .gens) (h_lve : ps .lve) (h_out : ps .out) (h_pci : ps .pci) (h_tly : ps .tly) (h : Keeps ps s0 s) : Keeps ps s0 (State.ckptCheck s) := by
  unfold State.ckptCheck
  repeat' first
    | (extract_lets +onlyGivenNames x; first | (with_reducible refine Keeps.cut (x := x) ?_ ?_; rotate_left; (try clear_value x); (intro _; skip); rotate_right; subst x) | subst x)
    | with_reducible assumption | exact h7 | exact h11 | exact h17 | exact h20 | with_reducible apply State.ckptDue_keeps | with_reducible apply State.ckptStart_keeps
    | (intro _; skip) | split
    | (dsimp only; skip)

end Sys2Proof.Machine
end

