-- ==== Sys2Proof/Laws/Tasks.lean ====
section
/-! SUPPORT. What each operation and each meaning of Machine/Tasks.lean keeps (Keeps): one lemma a definition. -/

-- The package as one text is checked in one process: its proofs are checked one after another, and its linters keep quiet.
set_option Elab.async false
set_option linter.all false

namespace Sys2Proof.Machine
open Sys2Proof

theorem State.updTask_keeps {ps : Part → Prop} {a1 : Nat} {a2 : Task → Task} {s0 s : State} (h_dck : ps .dck) (h : Keeps ps s0 s) : Keeps ps s0 (State.updTask s a1 a2) := by
  unfold State.updTask
  repeat' first
    | with_reducible assumption
    | (intro _; skip) | split
    | (dsimp only; skip)
    | (with_reducible refine Keeps.lit rfl rfl ?_; first | with_reducible assumption | (split; skip))

theorem State.updEng_keeps {ps : Part → Prop} {a1 : Nat} {a2 : Eng → Eng} {s0 s : State} (h_dck : ps .dck) (h : Keeps ps s0 s) : Keeps ps s0 (State.updEng s a1 a2) := by
  unfold State.updEng
  repeat' first
    | with_reducible assumption
    | (intro _; skip) | split
    | (dsimp only; skip)
    | (with_reducible refine Keeps.lit rfl rfl ?_; first | with_reducible assumption | (split; skip))

theorem State.poolEmpty_keeps {ps : Part → Prop} {a1 : Nat} {s0 s : State} (h17 : ps (.regs 17)) (h_dck : ps .dck) (h_evt : ps .evt) (h_out : ps .out) (h_pci : ps .pci) (h : Keeps ps s0 s) : Keeps ps s0 (State.poolEmpty s a1) := by
  unfold State.poolEmpty
  repeat' first
    | with_reducible assumption | exact h17 | with_reducible apply State.post_keeps
    | (intro _; skip) | split
    | (dsimp only; skip)
    | (with_reducible refine Keeps.lit rfl rfl ?_; first | with_reducible assumption | exact h17 | with_reducible apply State.post_keeps | (split; skip))

theorem State.newTask_keeps {ps : Part → Prop} {a1 : Task} {s0 s : State} (h6 : ps (.regs 6)) (h17 : ps (.regs 17)) (h_dck : ps .dck) (h_evt : ps .evt) (h_out : ps .out) (h_pci : ps .pci) (h : Keeps ps s0 s) : KP ps s0 (State.newTask s a1) := by
  unfold State.newTask
  repeat' first
    | (extract_lets +onlyGivenNames x; first | ((first | with_reducible refine KP.cut (x := x) ?_ ?_ | with_reducible refine Keeps.cut (x := x) ?_ ?_); rotate_left; (try clear_value x); (intro _; skip); rotate_right; subst x) | subst x)
    | with_reducible assumption | exact h6 | exact h17 | with_reducible apply State.poolEmpty_keeps | with_reducible apply State.raise_keeps
    | (intro _; skip) | split
    | (dsimp only; skip)
    | with_reducible refine KO.get (by assumption) ?_ | with_reducible refine KP.get (by assumption) ?_ | with_reducible refine KP.get2 (by assumption) ?_ | with_reducible apply KO.none' | with_reducible apply KP.none' | with_reducible apply KO.some' | with_reducible apply KP.some' | with_reducible apply KO.bind | with_reducible apply KP.bind | with_reducible apply Keeps.getO
    | (with_reducible refine Keeps.lit rfl rfl ?_; first | with_reducible assumption | exact h6 | exact h17 | with_reducible apply State.poolEmpty_keeps | with_reducible apply State.raise_keeps | with_reducible refine KO.get (by assumption) ?_ | with_reducible refine KP.get (by assumption) ?_ | with_reducible refine KP.get2 (by assumption) ?_ | with_reducible apply KO.none' | with_reducible apply KP.none' | with_reducible apply KO.some' | with_reducible apply KP.some' | with_reducible apply KO.bind | with_reducible apply KP.bind | with_reducible apply Keeps.getO | (split; skip))

theorem State.spillRefused_keeps {ps : Part → Prop} {a1 : Nat} {s0 s : State} (h17 : ps (.regs 17)) (h_dck : ps .dck) (h_evt : ps .evt) (h_out : ps .out) (h_pci : ps .pci) (h : Keeps ps s0 s) : Keeps ps s0 (State.spillRefused s a1) := by
  unfold State.spillRefused
  repeat' first
    | with_reducible assumption | exact h17 | with_reducible apply State.post_keeps
    | (intro _; skip) | split
    | (dsimp only; skip)
    | (with_reducible refine Keeps.lit rfl rfl ?_; first | with_reducible assumption | exact h17 | with_reducible apply State.post_keeps | (split; skip))

theorem State.addTask_keeps {ps : Part → Prop} {a1 : Task} {s0 s : State} (h6 : ps (.regs 6)) (h17 : ps (.regs 17)) (h_dck : ps .dck) (h_evt : ps .evt) (h_out : ps .out) (h_pci : ps .pci) (h : Keeps ps s0 s) : Keeps ps s0 (State.addTask s a1) := by
  unfold State.addTask
  repeat' first
    | with_reducible assumption | exact h6 | exact h17 | with_reducible apply State.newTask_keeps | with_reducible apply State.spillRefused_keeps
    | (intro _; skip) | split
    | (dsimp only; skip)
    | with_reducible refine KO.get (by assumption) ?_ | with_reducible refine KP.get (by assumption) ?_ | with_reducible refine KP.get2 (by assumption) ?_ | with_reducible apply KO.none' | with_reducible apply KP.none' | with_reducible apply KO.some' | with_reducible apply KP.some' | with_reducible apply KO.bind | with_reducible apply KP.bind | with_reducible apply Keeps.getO
    | (with_reducible refine Keeps.lit rfl rfl ?_; first | with_reducible assumption | exact h6 | exact h17 | with_reducible apply State.newTask_keeps | with_reducible apply State.spillRefused_keeps | with_reducible refine KO.get (by assumption) ?_ | with_reducible refine KP.get (by assumption) ?_ | with_reducible refine KP.get2 (by assumption) ?_ | with_reducible apply KO.none' | with_reducible apply KP.none' | with_reducible apply KO.some' | with_reducible apply KP.some' | with_reducible apply KO.bind | with_reducible apply KP.bind | with_reducible apply Keeps.getO | (split; skip))

theorem State.toReady_keeps {ps : Part → Prop} {a1 : Nat} {s0 s : State} (h6 : ps (.regs 6)) (h17 : ps (.regs 17)) (h_dck : ps .dck) (h_evt : ps .evt) (h_out : ps .out) (h_pci : ps .pci) (h : Keeps ps s0 s) : Keeps ps s0 (State.toReady s a1) := by
  unfold State.toReady
  repeat' first
    | (extract_lets +onlyGivenNames x; first | (with_reducible refine Keeps.cut (x := x) ?_ ?_; rotate_left; (try clear_value x); (intro _; skip); rotate_right; subst x) | subst x)
    | with_reducible assumption | exact h6 | exact h17 | with_reducible apply State.poolEmpty_keeps | with_reducible apply State.updTask_keeps | with_reducible apply State.raise_keeps
    | (intro _; skip) | split
    | (dsimp only; skip)
    | (with_reducible refine Keeps.lit rfl rfl ?_; first | with_reducible assumption | exact h6 | exact h17 | with_reducible apply State.poolEmpty_keeps | with_reducible apply State.updTask_keeps | with_reducible apply State.raise_keeps | (split; skip))

theorem State.wakeTask_keeps {ps : Part → Prop} {a1 : Nat} {s0 s : State} (h6 : ps (.regs 6)) (h17 : ps (.regs 17)) (h_dck : ps .dck) (h_evt : ps .evt) (h_out : ps .out) (h_pci : ps .pci) (h : Keeps ps s0 s) : Keeps ps s0 (State.wakeTask s a1) := by
  unfold State.wakeTask
  repeat' first
    | with_reducible assumption | exact h6 | exact h17 | with_reducible apply State.toReady_keeps
    | (intro _; skip) | split
    | (dsimp only; skip)
    | (with_reducible refine Keeps.lit rfl rfl ?_; first | with_reducible assumption | exact h6 | exact h17 | with_reducible apply State.toReady_keeps | (split; skip))

theorem State.voidPreempt_keeps {ps : Part → Prop} {a1 : Nat} {a2 : Bool} {s0 s : State} (h6 : ps (.regs 6)) (h_dck : ps .dck) (h : Keeps ps s0 s) : Keeps ps s0 (State.voidPreempt s a1 a2) := by
  unfold State.voidPreempt
  repeat' first
    | (extract_lets +onlyGivenNames x; first | (with_reducible refine Keeps.cut (x := x) ?_ ?_; rotate_left; (try clear_value x); (intro _; skip); rotate_right; subst x) | subst x)
    | with_reducible assumption | exact h6 | with_reducible apply State.bump_keeps
    | (intro _; skip) | split
    | (dsimp only; skip)
    | (with_reducible refine Keeps.lit rfl rfl ?_; first | with_reducible assumption | exact h6 | with_reducible apply State.bump_keeps | (split; skip))

theorem State.freeEngine_keeps {ps : Part → Prop} {a1 : Nat} {s0 s : State} (h6 : ps (.regs 6)) (h_dck : ps .dck) (h : Keeps ps s0 s) : Keeps ps s0 (State.freeEngine s a1) := by
  unfold State.freeEngine
  repeat' first
    | with_reducible assumption | exact h6 | with_reducible apply State.put_keeps | with_reducible apply State.updTask_keeps
    | (intro _; skip) | split
    | (dsimp only; skip)
    | (with_reducible refine Keeps.lit rfl rfl ?_; first | with_reducible assumption | exact h6 | with_reducible apply State.put_keeps | with_reducible apply State.updTask_keeps | (split; skip))

theorem State.busyTime_keeps {ps : Part → Prop} {a1 : Task} {s0 s : State} (h_dck : ps .dck) (h : Keeps ps s0 s) : Keeps ps s0 (State.busyTime s a1) := by
  unfold State.busyTime
  repeat' first
    | (extract_lets +onlyGivenNames x; first | (with_reducible refine Keeps.cut (x := x) ?_ ?_; rotate_left; (try clear_value x); (intro _; skip); rotate_right; subst x) | subst x)
    | with_reducible assumption
    | (intro _; skip) | split
    | (dsimp only; skip)
    | (with_reducible refine Keeps.lit rfl rfl ?_; first | with_reducible assumption | (split; skip))

theorem State.leaveEngine_keeps {ps : Part → Prop} {a1 : Nat} {s0 s : State} (h6 : ps (.regs 6)) (h_dck : ps .dck) (h : Keeps ps s0 s) : Keeps ps s0 (State.leaveEngine s a1) := by
  unfold State.leaveEngine
  repeat' first
    | (extract_lets +onlyGivenNames x; first | (with_reducible refine Keeps.cut (x := x) ?_ ?_; rotate_left; (try clear_value x); (intro _; skip); rotate_right; subst x) | subst x)
    | with_reducible assumption | exact h6 | with_reducible apply State.busyTime_keeps | with_reducible apply State.updTask_keeps | with_reducible apply State.freeEngine_keeps
    | (intro _; skip) | split
    | (dsimp only; skip)
    | (with_reducible refine Keeps.lit rfl rfl ?_; first | with_reducible assumption | exact h6 | with_reducible apply State.busyTime_keeps | with_reducible apply State.updTask_keeps | with_reducible apply State.freeEngine_keeps | (split; skip))

theorem State.freeCtx_keeps {ps : Part → Prop} {a1 : Nat} {s0 s : State} (h_dck : ps .dck) (h : Keeps ps s0 s) : Keeps ps s0 (State.freeCtx s a1) := by
  unfold State.freeCtx
  repeat' first
    | with_reducible assumption | with_reducible apply State.updTask_keeps
    | (intro _; skip) | split
    | (dsimp only; skip)
    | (with_reducible refine Keeps.lit rfl rfl ?_; first | with_reducible assumption | with_reducible apply State.updTask_keeps | (split; skip))

theorem State.endTask_keeps {ps : Part → Prop} {a1 : Nat} {s0 s : State} (h6 : ps (.regs 6)) (h_dck : ps .dck) (h_qqp : ps .qqp) (h : Keeps ps s0 s) : Keeps ps s0 (State.endTask s a1) := by
  unfold State.endTask
  repeat' first
    | (extract_lets +onlyGivenNames x; first | (with_reducible refine Keeps.cut (x := x) ?_ ?_; rotate_left; (try clear_value x); (intro _; skip); rotate_right; subst x) | subst x)
    | with_reducible assumption | exact h6 | with_reducible apply State.freeCtx_keeps | with_reducible apply State.leaveEngine_keeps | with_reducible apply State.voidPreempt_keeps | with_reducible apply State.dropCmd_keeps
    | (intro _; skip) | split
    | (dsimp only; skip)
    | (with_reducible refine Keeps.lit rfl rfl ?_; first | with_reducible assumption | exact h6 | with_reducible apply State.freeCtx_keeps | with_reducible apply State.leaveEngine_keeps | with_reducible apply State.voidPreempt_keeps | with_reducible apply State.dropCmd_keeps | (split; skip))

theorem State.saveCtx_keeps {ps : Part → Prop} {a1 : Nat} {a2 : Ctx} {s0 s : State} (h_dck : ps .dck) (h_fresh : ps .fresh) (h : Keeps ps s0 s) : KO ps s0 (State.saveCtx s a1 a2) := by
  unfold State.saveCtx
  repeat' first
    | with_reducible assumption | with_reducible apply State.updTask_keeps | with_reducible apply State.drawn_keeps
    | (intro _; skip) | split
    | (dsimp only; skip)
    | with_reducible refine KO.get (by assumption) ?_ | with_reducible refine KP.get (by assumption) ?_ | with_reducible refine KP.get2 (by assumption) ?_ | with_reducible apply KO.none' | with_reducible apply KP.none' | with_reducible apply KO.some' | with_reducible apply KP.some' | with_reducible apply KO.bind | with_reducible apply KP.bind | with_reducible apply Keeps.getO
    | (with_reducible refine Keeps.lit rfl rfl ?_; first | with_reducible assumption | with_reducible apply State.updTask_keeps | with_reducible apply State.drawn_keeps | with_reducible refine KO.get (by assumption) ?_ | with_reducible refine KP.get (by assumption) ?_ | with_reducible refine KP.get2 (by assumption) ?_ | with_reducible apply KO.none' | with_reducible apply KP.none' | with_reducible apply KO.some' | with_reducible apply KP.some' | with_reducible apply KO.bind | with_reducible apply KP.bind | with_reducible apply Keeps.getO | (split; skip))

theorem State.engTimeout_keeps {ps : Part → Prop} {a1 : Nat} {s0 s : State} (h6 : ps (.regs 6)) (h17 : ps (.regs 17)) (h_dck : ps .dck) (h_evt : ps .evt) (h_out : ps .out) (h_pci : ps .pci) (h : Keeps ps s0 s) : Keeps ps s0 (State.engTimeout s a1) := by
  unfold State.engTimeout
  repeat' first
    | (extract_lets +onlyGivenNames x; first | (with_reducible refine Keeps.cut (x := x) ?_ ?_; rotate_left; (try clear_value x); (intro _; skip); rotate_right; subst x) | subst x)
    | with_reducible assumption | exact h6 | exact h17 | with_reducible apply State.put_keeps | with_reducible apply State.bump_keeps | with_reducible apply State.poolEmpty_keeps | with_reducible apply State.post_keeps
    | (intro _; skip) | split
    | (dsimp only; skip)

theorem State.deregister_keeps {ps : Part → Prop} {a1 : Nat} {s0 s : State} (h6 : ps (.regs 6)) (h17 : ps (.regs 17)) (h_dck : ps .dck) (h_evt : ps .evt) (h_out : ps .out) (h_pci : ps .pci) (h : Keeps ps s0 s) : Keeps ps s0 (State.deregister s a1) := by
  unfold State.deregister
  repeat' first
    | (extract_lets +onlyGivenNames x; first | (with_reducible refine Keeps.cut (x := x) ?_ ?_; rotate_left; (try clear_value x); (intro _; skip); rotate_right; subst x) | subst x)
    | with_reducible assumption | exact h6 | exact h17 | with_reducible apply State.updEng_keeps | with_reducible apply State.poolEmpty_keeps | with_reducible apply State.freeEngine_keeps
    | (intro _; skip) | split
    | (dsimp only; skip)
    | (with_reducible refine Keeps.lit rfl rfl ?_; first | with_reducible assumption | exact h6 | exact h17 | with_reducible apply State.updEng_keeps | with_reducible apply State.poolEmpty_keeps | with_reducible apply State.freeEngine_keeps | (split; skip))

theorem State.askYield_keeps {ps : Part → Prop} {a1 : Nat} {s0 s : State} (h6 : ps (.regs 6)) (h_dck : ps .dck) (h : Keeps ps s0 s) : Keeps ps s0 (State.askYield s a1) := by
  unfold State.askYield
  repeat' first
    | (extract_lets +onlyGivenNames x; first | (with_reducible refine Keeps.cut (x := x) ?_ ?_; rotate_left; (try clear_value x); (intro _; skip); rotate_right; subst x) | subst x)
    | with_reducible assumption | exact h6 | with_reducible apply State.updEng_keeps | with_reducible apply State.put_keeps
    | (intro _; skip) | split
    | (dsimp only; skip)
    | (with_reducible refine Keeps.lit rfl rfl ?_; first | with_reducible assumption | exact h6 | with_reducible apply State.updEng_keeps | with_reducible apply State.put_keeps | (split; skip))

theorem State.dropLanding_keeps {ps : Part → Prop} {a1 : Nat} {s0 s : State} (h6 : ps (.regs 6)) (h17 : ps (.regs 17)) (h_dck : ps .dck) (h_evt : ps .evt) (h_out : ps .out) (h_pci : ps .pci) (h : Keeps ps s0 s) : Keeps ps s0 (State.dropLanding s a1) := by
  unfold State.dropLanding
  repeat' first
    | with_reducible assumption | exact h6 | exact h17 | with_reducible apply State.deregister_keeps | with_reducible apply State.askYield_keeps | with_reducible apply Keeps.foldl | with_reducible apply Keeps.foldlFst
    | (intro _; skip) | split
    | (dsimp only; skip)

theorem State.endLandingTasks_keeps {ps : Part → Prop} {a1 : Nat} {s0 s : State} (h6 : ps (.regs 6)) (h_dck : ps .dck) (h_qqp : ps .qqp) (h : Keeps ps s0 s) : Keeps ps s0 (State.endLandingTasks s a1) := by
  unfold State.endLandingTasks
  repeat' first
    | with_reducible assumption | exact h6 | with_reducible apply State.endTask_keeps | with_reducible apply Keeps.foldl | with_reducible apply Keeps.foldlFst
    | (intro _; skip) | split
    | (dsimp only; skip)
    | (with_reducible refine Keeps.lit rfl rfl ?_; first | with_reducible assumption | exact h6 | with_reducible apply State.endTask_keeps | with_reducible apply Keeps.foldl | with_reducible apply Keeps.foldlFst | (split; skip))

theorem State.dispatch_keeps {ps : Part → Prop} {a1 a2 : Nat} {a3 : Bool} {s0 s : State} (h6 : ps (.regs 6)) (h_dck : ps .dck) (h : Keeps ps s0 s) : Keeps ps s0 (State.dispatch s a1 a2 a3) := by
  unfold State.dispatch
  repeat' first
    | (extract_lets +onlyGivenNames x; first | (with_reducible refine Keeps.cut (x := x) ?_ ?_; rotate_left; (try clear_value x); (intro _; skip); rotate_right; subst x) | subst x)
    | with_reducible assumption | exact h6 | with_reducible apply State.bump_keeps | with_reducible apply State.updTask_keeps | with_reducible apply State.freeCtx_keeps | with_reducible apply State.put_keeps
    | (intro _; skip) | split
    | (dsimp only; skip)
    | (with_reducible refine Keeps.lit rfl rfl ?_; first | with_reducible assumption | exact h6 | with_reducible apply State.bump_keeps | with_reducible apply State.updTask_keeps | with_reducible apply State.freeCtx_keeps | with_reducible apply State.put_keeps | (split; skip))

end Sys2Proof.Machine
end

