-- ==== Sys2Proof/Laws/MediaOps.lean ====
section
/-! SUPPORT. What each operation and each meaning of Machine/MediaOps.lean keeps (Keeps): one lemma a definition. -/

-- The package as one text is checked in one process: its proofs are checked one after another, and its linters keep quiet.
set_option Elab.async false
set_option linter.all false

namespace Sys2Proof.Machine
open Sys2Proof

theorem State.updLun_keeps {ps : Part → Prop} {a1 a2 : Nat} {a3 : Lun → Lun} {s0 s : State} (h_med : ps .med) (h : Keeps ps s0 s) : Keeps ps s0 (State.updLun s a1 a2 a3) := by
  unfold State.updLun
  repeat' first
    | with_reducible assumption
    | (intro _; skip) | split
    | (dsimp only; skip)
    | (with_reducible refine Keeps.lit rfl rfl ?_; first | with_reducible assumption | (split; skip))

theorem State.putLunSt_keeps {ps : Part → Prop} {a1 a2 a3 : Nat} {s0 s : State} (h9 : ps (.regs 9)) (h : Keeps ps s0 s) : Keeps ps s0 (State.putLunSt s a1 a2 a3) := by
  unfold State.putLunSt
  repeat' first
    | with_reducible assumption | exact h9 | with_reducible apply State.put_keeps
    | (intro _; skip) | split
    | (dsimp only; skip)

theorem State.updChan_keeps {ps : Part → Prop} {a1 : Nat} {a2 : Chan → Chan} {s0 s : State} (h_med : ps .med) (h : Keeps ps s0 s) : Keeps ps s0 (State.updChan s a1 a2) := by
  unfold State.updChan
  repeat' first
    | with_reducible assumption
    | (intro _; skip) | split
    | (dsimp only; skip)
    | (with_reducible refine Keeps.lit rfl rfl ?_; first | with_reducible assumption | (split; skip))

theorem State.updGrp_keeps {ps : Part → Prop} {a1 : Nat} {a2 : Grp → Grp} {s0 s : State} (h_med : ps .med) (h : Keeps ps s0 s) : Keeps ps s0 (State.updGrp s a1 a2) := by
  unfold State.updGrp
  repeat' first
    | with_reducible assumption
    | (intro _; skip) | split
    | (dsimp only; skip)
    | (with_reducible refine Keeps.lit rfl rfl ?_; first | with_reducible assumption | (split; skip))

theorem State.updBte_keeps {ps : Part → Prop} {a1 : Nat} {a2 : Bte → Bte} {s0 s : State} (h_med : ps .med) (h : Keeps ps s0 s) : Keeps ps s0 (State.updBte s a1 a2) := by
  unfold State.updBte
  repeat' first
    | with_reducible assumption
    | (intro _; skip) | split
    | (dsimp only; skip)
    | (with_reducible refine Keeps.lit rfl rfl ?_; first | with_reducible assumption | (split; skip))

theorem State.updStripe_keeps {ps : Part → Prop} {a1 : Nat} {a2 : Stripe → Stripe} {s0 s : State} (h_med : ps .med) (h : Keeps ps s0 s) : Keeps ps s0 (State.updStripe s a1 a2) := by
  unfold State.updStripe
  repeat' first
    | with_reducible assumption
    | (intro _; skip) | split
    | (dsimp only; skip)
    | (with_reducible refine Keeps.lit rfl rfl ?_; first | with_reducible assumption | (split; skip))

theorem State.enqueue_keeps {ps : Part → Prop} {a1 : Op} {s0 s : State} (h_med : ps .med) (h : Keeps ps s0 s) : Keeps ps s0 (State.enqueue s a1) := by
  unfold State.enqueue
  repeat' first
    | (extract_lets +onlyGivenNames x; first | (with_reducible refine Keeps.cut (x := x) ?_ ?_; rotate_left; (try clear_value x); (intro _; skip); rotate_right; subst x) | subst x)
    | with_reducible assumption | with_reducible apply State.updLun_keeps
    | (intro _; skip) | split
    | (dsimp only; skip)
    | (with_reducible refine Keeps.lit rfl rfl ?_; first | with_reducible assumption | with_reducible apply State.updLun_keeps | (split; skip))

theorem State.askSectors_keeps {ps : Part → Prop} {a1 : Who} {a2 a3 a4 : Nat} {a5 : List Nat} {s0 s : State} (h_med : ps .med) (h : Keeps ps s0 s) : Keeps ps s0 (State.askSectors s a1 a2 a3 a4 a5) := by
  unfold State.askSectors
  repeat' first
    | (extract_lets +onlyGivenNames x; first | (with_reducible refine Keeps.cut (x := x) ?_ ?_; rotate_left; (try clear_value x); (intro _; skip); rotate_right; subst x) | subst x)
    | with_reducible assumption | with_reducible apply State.enqueue_keeps | with_reducible apply Keeps.foldl | with_reducible apply Keeps.foldlFst
    | (intro _; skip) | split
    | (dsimp only; skip)
    | (with_reducible refine Keeps.lit rfl rfl ?_; first | with_reducible assumption | with_reducible apply State.enqueue_keeps | with_reducible apply Keeps.foldl | with_reducible apply Keeps.foldlFst | (split; skip))

theorem State.cancelUndercuts_keeps {ps : Part → Prop} {a1 : Op → Bool} {s0 s : State} (h9 : ps (.regs 9)) (h_med : ps .med) (h : Keeps ps s0 s) : Keeps ps s0 (State.cancelUndercuts s a1) := by
  unfold State.cancelUndercuts
  repeat' first
    | (extract_lets +onlyGivenNames x; first | (with_reducible refine Keeps.cut (x := x) ?_ ?_; rotate_left; (try clear_value x); (intro _; skip); rotate_right; subst x) | subst x)
    | with_reducible assumption | exact h9 | with_reducible apply State.bump_keeps | with_reducible apply Keeps.foldl | with_reducible apply Keeps.foldlFst
    | (intro _; skip) | split
    | (dsimp only; skip)
    | (with_reducible refine Keeps.lit rfl rfl ?_; first | with_reducible assumption | exact h9 | with_reducible apply State.bump_keeps | with_reducible apply Keeps.foldl | with_reducible apply Keeps.foldlFst | (split; skip))

theorem State.mediaTask_keeps {ps : Part → Prop} {a1 a2 a3 : Nat} {a4 : Option Nat} {s0 s : State} (h6 : ps (.regs 6)) (h17 : ps (.regs 17)) (h_dck : ps .dck) (h_evt : ps .evt) (h_out : ps .out) (h_pci : ps .pci) (h : Keeps ps s0 s) : Keeps ps s0 (State.mediaTask s a1 a2 a3 a4) := by
  unfold State.mediaTask
  repeat' first
    | (extract_lets +onlyGivenNames x; first | (with_reducible refine Keeps.cut (x := x) ?_ ?_; rotate_left; (try clear_value x); (intro _; skip); rotate_right; subst x) | subst x)
    | with_reducible assumption | exact h6 | exact h17 | with_reducible apply State.addTask_keeps
    | (intro _; skip) | split
    | (dsimp only; skip)

theorem State.refresh_keeps {ps : Part → Prop} {a1 : Nat} {s0 s : State} (h6 : ps (.regs 6)) (h9 : ps (.regs 9)) (h17 : ps (.regs 17)) (h_dck : ps .dck) (h_evt : ps .evt) (h_med : ps .med) (h_out : ps .out) (h_pci : ps .pci) (h : Keeps ps s0 s) : Keeps ps s0 (State.refresh s a1) := by
  unfold State.refresh
  repeat' first
    | (extract_lets +onlyGivenNames x; first | (with_reducible refine Keeps.cut (x := x) ?_ ?_; rotate_left; (try clear_value x); (intro _; skip); rotate_right; subst x) | subst x)
    | with_reducible assumption | exact h6 | exact h9 | exact h17 | with_reducible apply State.bump_keeps | with_reducible apply State.mediaTask_keeps | with_reducible apply State.updStripe_keeps
    | (intro _; skip) | split
    | (dsimp only; skip)
    | (with_reducible refine Keeps.lit rfl rfl ?_; first | with_reducible assumption | exact h6 | exact h9 | exact h17 | with_reducible apply State.bump_keeps | with_reducible apply State.mediaTask_keeps | with_reducible apply State.updStripe_keeps | (split; skip))

theorem State.rebuildTask_keeps {ps : Part → Prop} {a1 : Nat} {s0 s : State} (h6 : ps (.regs 6)) (h17 : ps (.regs 17)) (h_dck : ps .dck) (h_evt : ps .evt) (h_med : ps .med) (h_out : ps .out) (h_pci : ps .pci) (h : Keeps ps s0 s) : Keeps ps s0 (State.rebuildTask s a1) := by
  unfold State.rebuildTask
  repeat' first
    | (extract_lets +onlyGivenNames x; first | (with_reducible refine Keeps.cut (x := x) ?_ ?_; rotate_left; (try clear_value x); (intro _; skip); rotate_right; subst x) | subst x)
    | with_reducible assumption | exact h6 | exact h17 | with_reducible apply State.mediaTask_keeps | with_reducible apply State.updStripe_keeps
    | (intro _; skip) | split
    | (dsimp only; skip)
    | (with_reducible refine Keeps.lit rfl rfl ?_; first | with_reducible assumption | exact h6 | exact h17 | with_reducible apply State.mediaTask_keeps | with_reducible apply State.updStripe_keeps | (split; skip))

theorem State.countDegraded_keeps {ps : Part → Prop} {s0 s : State} (h9 : ps (.regs 9)) (h : Keeps ps s0 s) : Keeps ps s0 (State.countDegraded s) := by
  unfold State.countDegraded
  repeat' first
    | with_reducible assumption | exact h9 | with_reducible apply State.put_keeps | with_reducible apply Keeps.foldl | with_reducible apply Keeps.foldlFst
    | (intro _; skip) | split
    | (dsimp only; skip)

theorem State.gcCheck_keeps {ps : Part → Prop} {a1 : Nat} {s0 s : State} (h6 : ps (.regs 6)) (h17 : ps (.regs 17)) (h_dck : ps .dck) (h_evt : ps .evt) (h_med : ps .med) (h_out : ps .out) (h_pci : ps .pci) (h : Keeps ps s0 s) : Keeps ps s0 (State.gcCheck s a1) := by
  unfold State.gcCheck
  repeat' first
    | (extract_lets +onlyGivenNames x; first | (with_reducible refine Keeps.cut (x := x) ?_ ?_; rotate_left; (try clear_value x); (intro _; skip); rotate_right; subst x) | subst x)
    | with_reducible assumption | exact h6 | exact h17 | with_reducible apply State.updGrp_keeps | with_reducible apply State.mediaTask_keeps | with_reducible apply State.updStripe_keeps | with_reducible apply Keeps.foldl | with_reducible apply Keeps.foldlFst
    | (intro _; skip) | split
    | (dsimp only; skip)
    | (with_reducible refine Keeps.lit rfl rfl ?_; first | with_reducible assumption | exact h6 | exact h17 | with_reducible apply State.updGrp_keeps | with_reducible apply State.mediaTask_keeps | with_reducible apply State.updStripe_keeps | with_reducible apply Keeps.foldl | with_reducible apply Keeps.foldlFst | (split; skip))

theorem State.eraseCheck_keeps {ps : Part → Prop} {a1 : Nat} {s0 s : State} (h9 : ps (.regs 9)) (h_med : ps .med) (h : Keeps ps s0 s) : Keeps ps s0 (State.eraseCheck s a1) := by
  unfold State.eraseCheck
  repeat' first
    | (extract_lets +onlyGivenNames x; first | (with_reducible refine Keeps.cut (x := x) ?_ ?_; rotate_left; (try clear_value x); (intro _; skip); rotate_right; subst x) | subst x)
    | with_reducible assumption | exact h9 | with_reducible apply State.updStripe_keeps | with_reducible apply State.enqueue_keeps | with_reducible apply State.countDegraded_keeps | with_reducible apply Keeps.foldl | with_reducible apply Keeps.foldlFst
    | (intro _; skip) | split
    | (dsimp only; skip)
    | (with_reducible refine Keeps.lit rfl rfl ?_; first | with_reducible assumption | exact h9 | with_reducible apply State.updStripe_keeps | with_reducible apply State.enqueue_keeps | with_reducible apply State.countDegraded_keeps | with_reducible apply Keeps.foldl | with_reducible apply Keeps.foldlFst | (split; skip))

theorem State.lowerValid_keeps {ps : Part → Prop} {a1 a2 : Nat} {s0 s : State} (h9 : ps (.regs 9)) (h_med : ps .med) (h : Keeps ps s0 s) : Keeps ps s0 (State.lowerValid s a1 a2) := by
  unfold State.lowerValid
  repeat' first
    | (extract_lets +onlyGivenNames x; first | (with_reducible refine Keeps.cut (x := x) ?_ ?_; rotate_left; (try clear_value x); (intro _; skip); rotate_right; subst x) | subst x)
    | with_reducible assumption | exact h9 | with_reducible apply State.updBte_keeps | with_reducible apply State.eraseCheck_keeps
    | (intro _; skip) | split
    | (dsimp only; skip)
    | (with_reducible refine Keeps.lit rfl rfl ?_; first | with_reducible assumption | exact h9 | with_reducible apply State.updBte_keeps | with_reducible apply State.eraseCheck_keeps | (split; skip))

theorem State.raiseValid_keeps {ps : Part → Prop} {a1 a2 : Nat} {s0 s : State} (h_med : ps .med) (h : Keeps ps s0 s) : Keeps ps s0 (State.raiseValid s a1 a2) := by
  unfold State.raiseValid
  repeat' first
    | with_reducible assumption | with_reducible apply State.updBte_keeps
    | (intro _; skip) | split
    | (dsimp only; skip)
    | (with_reducible refine Keeps.lit rfl rfl ?_; first | with_reducible assumption | with_reducible apply State.updBte_keeps | (split; skip))

theorem State.reserveGrp_keeps {ps : Part → Prop} {a1 a2 a3 : Nat} {s0 s : State} (h_med : ps .med) (h : Keeps ps s0 s) : Keeps ps s0 (State.reserveGrp s a1 a2 a3) := by
  induction a3 generalizing s a1 a2 with
  | zero =>
    unfold State.reserveGrp
    repeat' first
      | (extract_lets +onlyGivenNames x; first | (with_reducible refine Keeps.cut (x := x) ?_ ?_; rotate_left; (try clear_value x); (intro _; skip); rotate_right; subst x) | subst x)
      | with_reducible assumption | with_reducible apply State.updBte_keeps | with_reducible apply State.updStripe_keeps | with_reducible apply Keeps.foldl | with_reducible apply Keeps.foldlFst
      | (intro _; skip) | split
      | (dsimp only; skip)
      | (with_reducible refine Keeps.lit rfl rfl ?_; first | with_reducible assumption | with_reducible apply State.updBte_keeps | with_reducible apply State.updStripe_keeps | with_reducible apply Keeps.foldl | with_reducible apply Keeps.foldlFst | (split; skip))
  | succ n ih =>
    unfold State.reserveGrp
    repeat' first
      | (extract_lets +onlyGivenNames x; first | (with_reducible refine Keeps.cut (x := x) ?_ ?_; rotate_left; (try clear_value x); (intro _; skip); rotate_right; subst x) | subst x)
      | with_reducible assumption | with_reducible apply State.updBte_keeps | with_reducible apply State.updStripe_keeps | with_reducible apply ih | with_reducible apply Keeps.foldl | with_reducible apply Keeps.foldlFst
      | (intro _; skip) | split
      | (dsimp only; skip)
      | (with_reducible refine Keeps.lit rfl rfl ?_; first | with_reducible assumption | with_reducible apply State.updBte_keeps | with_reducible apply State.updStripe_keeps | with_reducible apply ih | with_reducible apply Keeps.foldl | with_reducible apply Keeps.foldlFst | (split; skip))

theorem State.refillReserve_keeps {ps : Part → Prop} {s0 s : State} (h9 : ps (.regs 9)) (h17 : ps (.regs 17)) (h_evt : ps .evt) (h_med : ps .med) (h_out : ps .out) (h_pci : ps .pci) (h : Keeps ps s0 s) : Keeps ps s0 (State.refillReserve s) := by
  unfold State.refillReserve
  repeat' first
    | (extract_lets +onlyGivenNames x; first | (with_reducible refine Keeps.cut (x := x) ?_ ?_; rotate_left; (try clear_value x); (intro _; skip); rotate_right; subst x) | subst x)
    | with_reducible assumption | exact h9 | exact h17 | with_reducible apply State.reserveGrp_keeps | with_reducible apply State.flag_keeps | with_reducible apply State.put_keeps | with_reducible apply State.post_keeps | with_reducible apply Keeps.foldl | with_reducible apply Keeps.foldlFst
    | (intro _; skip) | split
    | (dsimp only; skip)
    | (with_reducible refine Keeps.lit rfl rfl ?_; first | with_reducible assumption | exact h9 | exact h17 | with_reducible apply State.reserveGrp_keeps | with_reducible apply State.flag_keeps | with_reducible apply State.put_keeps | with_reducible apply State.post_keeps | with_reducible apply Keeps.foldl | with_reducible apply Keeps.foldlFst | (split; skip))

theorem State.wearStats_keeps {ps : Part → Prop} {a1 : Nat} {s0 s : State} (h9 : ps (.regs 9)) (h : Keeps ps s0 s) : Keeps ps s0 (State.wearStats s a1) := by
  unfold State.wearStats
  repeat' first
    | (extract_lets +onlyGivenNames x; first | (with_reducible refine Keeps.cut (x := x) ?_ ?_; rotate_left; (try clear_value x); (intro _; skip); rotate_right; subst x) | subst x)
    | with_reducible assumption | exact h9 | with_reducible apply State.put_keeps | with_reducible apply Keeps.foldl | with_reducible apply Keeps.foldlFst
    | (intro _; skip) | split
    | (dsimp only; skip)

theorem State.memberErased_keeps {ps : Part → Prop} {a1 a2 : Nat} {a3 : Bool} {s0 s : State} (h6 : ps (.regs 6)) (h7 : ps (.regs 7)) (h9 : ps (.regs 9)) (h11 : ps (.regs 11)) (h17 : ps (.regs 17)) (h20 : ps (.regs 20)) (h_dck : ps .dck) (h_evt : ps .evt) (h_gens : ps .gens) (h_lve : ps .lve) (h_med : ps .med) (h_out : ps .out) (h_pci : ps .pci) (h_tly : ps .tly) (h : Keeps ps s0 s) : Keeps ps s0 (State.memberErased s a1 a2 a3) := by
  unfold State.memberErased
  repeat' first
    | (extract_lets +onlyGivenNames x; first | (with_reducible refine Keeps.cut (x := x) ?_ ?_; rotate_left; (try clear_value x); (intro _; skip); rotate_right; subst x) | subst x)
    | with_reducible assumption | exact h6 | exact h7 | exact h9 | exact h11 | exact h17 | exact h20 | with_reducible apply State.journal_keeps | with_reducible apply State.updBte_keeps | with_reducible apply State.updStripe_keeps | with_reducible apply State.gcCheck_keeps | with_reducible apply State.refillReserve_keeps | with_reducible apply State.wearStats_keeps | with_reducible apply Keeps.foldl | with_reducible apply Keeps.foldlFst
    | (intro _; skip) | split
    | (dsimp only; skip)
    | (with_reducible refine Keeps.lit rfl rfl ?_; first | with_reducible assumption | exact h6 | exact h7 | exact h9 | exact h11 | exact h17 | exact h20 | with_reducible apply State.journal_keeps | with_reducible apply State.updBte_keeps | with_reducible apply State.updStripe_keeps | with_reducible apply State.gcCheck_keeps | with_reducible apply State.refillReserve_keeps | with_reducible apply State.wearStats_keeps | with_reducible apply Keeps.foldl | with_reducible apply Keeps.foldlFst | (split; skip))

theorem State.openStripe_keeps {ps : Part → Prop} {a1 a2 a3 : Nat} {a4 : Bool} {s0 s : State} (h6 : ps (.regs 6)) (h7 : ps (.regs 7)) (h11 : ps (.regs 11)) (h17 : ps (.regs 17)) (h20 : ps (.regs 20)) (h_dck : ps .dck) (h_evt : ps .evt) (h_gens : ps .gens) (h_lve : ps .lve) (h_med : ps .med) (h_out : ps .out) (h_pci : ps .pci) (h_tly : ps .tly) (h : Keeps ps s0 s) : Keeps ps s0 (State.openStripe s a1 a2 a3 a4) := by
  unfold State.openStripe
  repeat' first
    | (extract_lets +onlyGivenNames x; first | (with_reducible refine Keeps.cut (x := x) ?_ ?_; rotate_left; (try clear_value x); (intro _; skip); rotate_right; subst x) | subst x)
    | with_reducible assumption | exact h6 | exact h7 | exact h11 | exact h17 | exact h20 | with_reducible apply State.journal_keeps | with_reducible apply State.updBte_keeps | with_reducible apply State.updStripe_keeps | with_reducible apply State.gcCheck_keeps | with_reducible apply Keeps.foldl | with_reducible apply Keeps.foldlFst
    | (intro _; skip) | split
    | (dsimp only; skip)
    | (with_reducible refine Keeps.lit rfl rfl ?_; first | with_reducible assumption | exact h6 | exact h7 | exact h11 | exact h17 | exact h20 | with_reducible apply State.journal_keeps | with_reducible apply State.updBte_keeps | with_reducible apply State.updStripe_keeps | with_reducible apply State.gcCheck_keeps | with_reducible apply Keeps.foldl | with_reducible apply Keeps.foldlFst | (split; skip))

theorem State.closeStripe_keeps {ps : Part → Prop} {a1 : Nat} {a2 : Bool} {s0 s : State} (h6 : ps (.regs 6)) (h7 : ps (.regs 7)) (h9 : ps (.regs 9)) (h11 : ps (.regs 11)) (h17 : ps (.regs 17)) (h20 : ps (.regs 20)) (h_dck : ps .dck) (h_evt : ps .evt) (h_gens : ps .gens) (h_lve : ps .lve) (h_med : ps .med) (h_out : ps .out) (h_pci : ps .pci) (h_tly : ps .tly) (h : Keeps ps s0 s) : Keeps ps s0 (State.closeStripe s a1 a2) := by
  unfold State.closeStripe
  repeat' first
    | (extract_lets +onlyGivenNames x; first | (with_reducible refine Keeps.cut (x := x) ?_ ?_; rotate_left; (try clear_value x); (intro _; skip); rotate_right; subst x) | subst x)
    | with_reducible assumption | exact h6 | exact h7 | exact h9 | exact h11 | exact h17 | exact h20 | with_reducible apply State.journal_keeps | with_reducible apply State.updBte_keeps | with_reducible apply State.updStripe_keeps | with_reducible apply State.countDegraded_keeps | with_reducible apply State.rebuildTask_keeps | with_reducible apply State.eraseCheck_keeps | with_reducible apply Keeps.foldl | with_reducible apply Keeps.foldlFst
    | (intro _; skip) | split
    | (dsimp only; skip)
    | (with_reducible refine Keeps.lit rfl rfl ?_; first | with_reducible assumption | exact h6 | exact h7 | exact h9 | exact h11 | exact h17 | exact h20 | with_reducible apply State.journal_keeps | with_reducible apply State.updBte_keeps | with_reducible apply State.updStripe_keeps | with_reducible apply State.countDegraded_keeps | with_reducible apply State.rebuildTask_keeps | with_reducible apply State.eraseCheck_keeps | with_reducible apply Keeps.foldl | with_reducible apply Keeps.foldlFst | (split; skip))

theorem State.issueRow_keeps {ps : Part → Prop} {a1 a2 : Nat} {s0 s : State} (h_med : ps .med) (h : Keeps ps s0 s) : Keeps ps s0 (State.issueRow s a1 a2) := by
  unfold State.issueRow
  repeat' first
    | (extract_lets +onlyGivenNames x; first | (with_reducible refine Keeps.cut (x := x) ?_ ?_; rotate_left; (try clear_value x); (intro _; skip); rotate_right; subst x) | subst x)
    | with_reducible assumption | with_reducible apply State.updStripe_keeps | with_reducible apply State.enqueue_keeps | with_reducible apply Keeps.foldl | with_reducible apply Keeps.foldlFst
    | (intro _; skip) | split
    | (dsimp only; skip)
    | (with_reducible refine Keeps.lit rfl rfl ?_; first | with_reducible assumption | with_reducible apply State.updStripe_keeps | with_reducible apply State.enqueue_keeps | with_reducible apply Keeps.foldl | with_reducible apply Keeps.foldlFst | (split; skip))

theorem State.padRow_keeps {ps : Part → Prop} {a1 a2 : Nat} {s0 s : State} (h_med : ps .med) (h : Keeps ps s0 s) : Keeps ps s0 (State.padRow s a1 a2) := by
  unfold State.padRow
  repeat' first
    | (extract_lets +onlyGivenNames x; first | (with_reducible refine Keeps.cut (x := x) ?_ ?_; rotate_left; (try clear_value x); (intro _; skip); rotate_right; subst x) | subst x)
    | with_reducible assumption | with_reducible apply State.updStripe_keeps | with_reducible apply State.issueRow_keeps
    | (intro _; skip) | split
    | (dsimp only; skip)
    | (with_reducible refine Keeps.lit rfl rfl ?_; first | with_reducible assumption | with_reducible apply State.updStripe_keeps | with_reducible apply State.issueRow_keeps | (split; skip))

theorem State.fullRows_keeps {ps : Part → Prop} {a1 a2 a3 : Nat} {s0 s : State} (h_med : ps .med) (h : Keeps ps s0 s) : Keeps ps s0 (State.fullRows s a1 a2 a3) := by
  induction a3 generalizing s a1 a2 with
  | zero =>
    unfold State.fullRows
    repeat' first
      | (extract_lets +onlyGivenNames x; first | (with_reducible refine Keeps.cut (x := x) ?_ ?_; rotate_left; (try clear_value x); (intro _; skip); rotate_right; subst x) | subst x)
      | with_reducible assumption | with_reducible apply State.issueRow_keeps
      | (intro _; skip) | split
      | (dsimp only; skip)
  | succ n ih =>
    unfold State.fullRows
    repeat' first
      | (extract_lets +onlyGivenNames x; first | (with_reducible refine Keeps.cut (x := x) ?_ ?_; rotate_left; (try clear_value x); (intro _; skip); rotate_right; subst x) | subst x)
      | with_reducible assumption | with_reducible apply State.issueRow_keeps | with_reducible apply ih
      | (intro _; skip) | split
      | (dsimp only; skip)

theorem State.finishStripe_keeps {ps : Part → Prop} {a1 a2 a3 : Nat} {s0 s : State} (h_med : ps .med) (h : Keeps ps s0 s) : Keeps ps s0 (State.finishStripe s a1 a2 a3) := by
  induction a3 generalizing s a1 a2 with
  | zero =>
    unfold State.finishStripe
    repeat' first
      | (extract_lets +onlyGivenNames x; first | (with_reducible refine Keeps.cut (x := x) ?_ ?_; rotate_left; (try clear_value x); (intro _; skip); rotate_right; subst x) | subst x)
      | with_reducible assumption | with_reducible apply State.padRow_keeps
      | (intro _; skip) | split
      | (dsimp only; skip)
      | (with_reducible refine Keeps.lit rfl rfl ?_; first | with_reducible assumption | with_reducible apply State.padRow_keeps | (split; skip))
  | succ n ih =>
    unfold State.finishStripe
    repeat' first
      | (extract_lets +onlyGivenNames x; first | (with_reducible refine Keeps.cut (x := x) ?_ ?_; rotate_left; (try clear_value x); (intro _; skip); rotate_right; subst x) | subst x)
      | with_reducible assumption | with_reducible apply State.padRow_keeps | with_reducible apply ih
      | (intro _; skip) | split
      | (dsimp only; skip)
      | (with_reducible refine Keeps.lit rfl rfl ?_; first | with_reducible assumption | with_reducible apply State.padRow_keeps | with_reducible apply ih | (split; skip))

theorem State.placeIn_keeps {ps : Part → Prop} {a1 a2 a3 : Nat} {s0 s : State} (h_med : ps .med) (h : Keeps ps s0 s) : KP ps s0 (State.placeIn s a1 a2 a3) := by
  unfold State.placeIn
  repeat' first
    | (extract_lets +onlyGivenNames x; first | ((first | with_reducible refine KP.cut (x := x) ?_ ?_ | with_reducible refine Keeps.cut (x := x) ?_ ?_); rotate_left; (try clear_value x); (intro _; skip); rotate_right; subst x) | subst x)
    | with_reducible assumption | with_reducible apply State.updStripe_keeps | with_reducible apply State.fullRows_keeps | with_reducible apply State.raiseValid_keeps
    | (intro _; skip) | split
    | (dsimp only; skip)
    | with_reducible refine KO.get (by assumption) ?_ | with_reducible refine KP.get (by assumption) ?_ | with_reducible refine KP.get2 (by assumption) ?_ | with_reducible apply KO.none' | with_reducible apply KP.none' | with_reducible apply KO.some' | with_reducible apply KP.some' | with_reducible apply KO.bind | with_reducible apply KP.bind | with_reducible apply Keeps.getO
    | (with_reducible refine Keeps.lit rfl rfl ?_; first | with_reducible assumption | with_reducible apply State.updStripe_keeps | with_reducible apply State.fullRows_keeps | with_reducible apply State.raiseValid_keeps | with_reducible refine KO.get (by assumption) ?_ | with_reducible refine KP.get (by assumption) ?_ | with_reducible refine KP.get2 (by assumption) ?_ | with_reducible apply KO.none' | with_reducible apply KP.none' | with_reducible apply KO.some' | with_reducible apply KP.some' | with_reducible apply KO.bind | with_reducible apply KP.bind | with_reducible apply Keeps.getO | (split; skip))

theorem State.placeAs_keeps {ps : Part → Prop} {a1 a2 a3 a4 a5 : Nat} {s0 s : State} (h6 : ps (.regs 6)) (h7 : ps (.regs 7)) (h11 : ps (.regs 11)) (h17 : ps (.regs 17)) (h20 : ps (.regs 20)) (h_dck : ps .dck) (h_evt : ps .evt) (h_gens : ps .gens) (h_lve : ps .lve) (h_med : ps .med) (h_out : ps .out) (h_pci : ps .pci) (h_tly : ps .tly) (h : Keeps ps s0 s) : KP ps s0 (State.placeAs s a1 a2 a3 a4 a5) := by
  unfold State.placeAs
  repeat' first
    | (extract_lets +onlyGivenNames x; first | ((first | with_reducible refine KP.cut (x := x) ?_ ?_ | with_reducible refine Keeps.cut (x := x) ?_ ?_); rotate_left; (try clear_value x); (intro _; skip); rotate_right; subst x) | subst x)
    | with_reducible assumption | exact h6 | exact h7 | exact h11 | exact h17 | exact h20 | with_reducible apply State.placeIn_keeps | with_reducible apply State.finishStripe_keeps | with_reducible apply State.openStripe_keeps
    | (intro _; skip) | split
    | (dsimp only; skip)
    | with_reducible refine KO.get (by assumption) ?_ | with_reducible refine KP.get (by assumption) ?_ | with_reducible refine KP.get2 (by assumption) ?_ | with_reducible apply KO.none' | with_reducible apply KP.none' | with_reducible apply KO.some' | with_reducible apply KP.some' | with_reducible apply KO.bind | with_reducible apply KP.bind | with_reducible apply Keeps.getO
    | (with_reducible refine Keeps.lit rfl rfl ?_; first | with_reducible assumption | exact h6 | exact h7 | exact h11 | exact h17 | exact h20 | with_reducible apply State.placeIn_keeps | with_reducible apply State.finishStripe_keeps | with_reducible apply State.openStripe_keeps | with_reducible refine KO.get (by assumption) ?_ | with_reducible refine KP.get (by assumption) ?_ | with_reducible refine KP.get2 (by assumption) ?_ | with_reducible apply KO.none' | with_reducible apply KP.none' | with_reducible apply KO.some' | with_reducible apply KP.some' | with_reducible apply KO.bind | with_reducible apply KP.bind | with_reducible apply Keeps.getO | (split; skip))

theorem State.place_keeps {ps : Part → Prop} {a1 a2 a3 a4 : Nat} {s0 s : State} (h6 : ps (.regs 6)) (h7 : ps (.regs 7)) (h11 : ps (.regs 11)) (h17 : ps (.regs 17)) (h20 : ps (.regs 20)) (h_dck : ps .dck) (h_evt : ps .evt) (h_gens : ps .gens) (h_lve : ps .lve) (h_med : ps .med) (h_out : ps .out) (h_pci : ps .pci) (h_tly : ps .tly) (h : Keeps ps s0 s) : KP ps s0 (State.place s a1 a2 a3 a4) := by
  unfold State.place
  repeat' first
    | with_reducible assumption | exact h6 | exact h7 | exact h11 | exact h17 | exact h20 | with_reducible apply State.placeAs_keeps
    | (intro _; skip) | split
    | (dsimp only; skip)
    | with_reducible refine KO.get (by assumption) ?_ | with_reducible refine KP.get (by assumption) ?_ | with_reducible refine KP.get2 (by assumption) ?_ | with_reducible apply KO.none' | with_reducible apply KP.none' | with_reducible apply KO.some' | with_reducible apply KP.some' | with_reducible apply KO.bind | with_reducible apply KP.bind | with_reducible apply Keeps.getO

theorem State.placeFirst_keeps {ps : Part → Prop} {a1 a2 a3 : Nat} {a4 : Nat → Nat} {a5 : List Nat} {s0 s : State} (h6 : ps (.regs 6)) (h7 : ps (.regs 7)) (h11 : ps (.regs 11)) (h17 : ps (.regs 17)) (h20 : ps (.regs 20)) (h_dck : ps .dck) (h_evt : ps .evt) (h_gens : ps .gens) (h_lve : ps .lve) (h_med : ps .med) (h_out : ps .out) (h_pci : ps .pci) (h_tly : ps .tly) (h : Keeps ps s0 s) : KP ps s0 (State.placeFirst s a1 a2 a3 a4 a5) := by
  induction a5 generalizing s a1 a2 a3 a4 with
  | nil =>
    unfold State.placeFirst
    repeat' first
      | with_reducible assumption | exact h6 | exact h7 | exact h11 | exact h17 | exact h20 | with_reducible apply State.placeAs_keeps
      | (intro _; skip) | split
      | (dsimp only; skip)
      | with_reducible refine KO.get (by assumption) ?_ | with_reducible refine KP.get (by assumption) ?_ | with_reducible refine KP.get2 (by assumption) ?_ | with_reducible apply KO.none' | with_reducible apply KP.none' | with_reducible apply KO.some' | with_reducible apply KP.some' | with_reducible apply KO.bind | with_reducible apply KP.bind | with_reducible apply Keeps.getO
      | (with_reducible refine Keeps.lit rfl rfl ?_; first | with_reducible assumption | exact h6 | exact h7 | exact h11 | exact h17 | exact h20 | with_reducible apply State.placeAs_keeps | with_reducible refine KO.get (by assumption) ?_ | with_reducible refine KP.get (by assumption) ?_ | with_reducible refine KP.get2 (by assumption) ?_ | with_reducible apply KO.none' | with_reducible apply KP.none' | with_reducible apply KO.some' | with_reducible apply KP.some' | with_reducible apply KO.bind | with_reducible apply KP.bind | with_reducible apply Keeps.getO | (split; skip))
  | cons x l ih =>
    unfold State.placeFirst
    repeat' first
      | with_reducible assumption | exact h6 | exact h7 | exact h11 | exact h17 | exact h20 | with_reducible apply State.placeAs_keeps | with_reducible apply ih
      | (intro _; skip) | split
      | (dsimp only; skip)
      | with_reducible refine KO.get (by assumption) ?_ | with_reducible refine KP.get (by assumption) ?_ | with_reducible refine KP.get2 (by assumption) ?_ | with_reducible apply KO.none' | with_reducible apply KP.none' | with_reducible apply KO.some' | with_reducible apply KP.some' | with_reducible apply KO.bind | with_reducible apply KP.bind | with_reducible apply Keeps.getO
      | (with_reducible refine Keeps.lit rfl rfl ?_; first | with_reducible assumption | exact h6 | exact h7 | exact h11 | exact h17 | exact h20 | with_reducible apply State.placeAs_keeps | with_reducible apply ih | with_reducible refine KO.get (by assumption) ?_ | with_reducible refine KP.get (by assumption) ?_ | with_reducible refine KP.get2 (by assumption) ?_ | with_reducible apply KO.none' | with_reducible apply KP.none' | with_reducible apply KO.some' | with_reducible apply KP.some' | with_reducible apply KO.bind | with_reducible apply KP.bind | with_reducible apply Keeps.getO | (split; skip))

theorem State.placeMap_keeps {ps : Part → Prop} {a1 : Bool} {a2 a3 a4 : Nat} {s0 s : State} (h6 : ps (.regs 6)) (h7 : ps (.regs 7)) (h11 : ps (.regs 11)) (h17 : ps (.regs 17)) (h20 : ps (.regs 20)) (h_dck : ps .dck) (h_evt : ps .evt) (h_gens : ps .gens) (h_lve : ps .lve) (h_med : ps .med) (h_out : ps .out) (h_pci : ps .pci) (h_tly : ps .tly) (h : Keeps ps s0 s) : KP ps s0 (State.placeMap s a1 a2 a3 a4) := by
  unfold State.placeMap
  repeat' first
    | (extract_lets +onlyGivenNames x; first | ((first | with_reducible refine KP.cut (x := x) ?_ ?_ | with_reducible refine Keeps.cut (x := x) ?_ ?_); rotate_left; (try clear_value x); (intro _; skip); rotate_right; subst x) | subst x)
    | with_reducible assumption | exact h6 | exact h7 | exact h11 | exact h17 | exact h20 | with_reducible apply State.placeFirst_keeps
    | (intro _; skip) | split
    | (dsimp only; skip)
    | with_reducible refine KO.get (by assumption) ?_ | with_reducible refine KP.get (by assumption) ?_ | with_reducible refine KP.get2 (by assumption) ?_ | with_reducible apply KO.none' | with_reducible apply KP.none' | with_reducible apply KO.some' | with_reducible apply KP.some' | with_reducible apply KO.bind | with_reducible apply KP.bind | with_reducible apply Keeps.getO

theorem State.padFor_keeps {ps : Part → Prop} {a1 a2 a3 : Nat} {s0 s : State} (h_med : ps .med) (h : Keeps ps s0 s) : Keeps ps s0 (State.padFor s a1 a2 a3) := by
  unfold State.padFor
  repeat' first
    | (extract_lets +onlyGivenNames x; first | (with_reducible refine Keeps.cut (x := x) ?_ ?_; rotate_left; (try clear_value x); (intro _; skip); rotate_right; subst x) | subst x)
    | with_reducible assumption | with_reducible apply State.padRow_keeps | with_reducible apply Keeps.foldl | with_reducible apply Keeps.foldlFst
    | (intro _; skip) | split
    | (dsimp only; skip)
    | (with_reducible refine Keeps.lit rfl rfl ?_; first | with_reducible assumption | with_reducible apply State.padRow_keeps | with_reducible apply Keeps.foldl | with_reducible apply Keeps.foldlFst | (split; skip))

theorem State.rowDone_keeps {ps : Part → Prop} {a1 a2 : Nat} {s0 s : State} (h6 : ps (.regs 6)) (h7 : ps (.regs 7)) (h9 : ps (.regs 9)) (h11 : ps (.regs 11)) (h17 : ps (.regs 17)) (h20 : ps (.regs 20)) (h_dck : ps .dck) (h_evt : ps .evt) (h_gens : ps .gens) (h_lve : ps .lve) (h_med : ps .med) (h_out : ps .out) (h_pci : ps .pci) (h_tly : ps .tly) (h : Keeps ps s0 s) : Keeps ps s0 (State.rowDone s a1 a2) := by
  unfold State.rowDone
  repeat' first
    | (extract_lets +onlyGivenNames x; first | (with_reducible refine Keeps.cut (x := x) ?_ ?_; rotate_left; (try clear_value x); (intro _; skip); rotate_right; subst x) | subst x)
    | with_reducible assumption | exact h6 | exact h7 | exact h9 | exact h11 | exact h17 | exact h20 | with_reducible apply State.updStripe_keeps | with_reducible apply State.closeStripe_keeps
    | (intro _; skip) | split
    | (dsimp only; skip)
    | (with_reducible refine Keeps.lit rfl rfl ?_; first | with_reducible assumption | exact h6 | exact h7 | exact h9 | exact h11 | exact h17 | exact h20 | with_reducible apply State.updStripe_keeps | with_reducible apply State.closeStripe_keeps | (split; skip))

theorem State.fellList_keeps {ps : Part → Prop} {a1 : Fell} {s0 s : State} (h9 : ps (.regs 9)) (h_med : ps .med) (h : Keeps ps s0 s) : Keeps ps s0 (State.fellList s a1) := by
  unfold State.fellList
  repeat' first
    | (extract_lets +onlyGivenNames x; first | (with_reducible refine Keeps.cut (x := x) ?_ ?_; rotate_left; (try clear_value x); (intro _; skip); rotate_right; subst x) | subst x)
    | with_reducible assumption | exact h9 | with_reducible apply State.put_keeps | with_reducible apply State.bump_keeps | with_reducible apply Keeps.foldl | with_reducible apply Keeps.foldlFst
    | (intro _; skip) | split
    | (dsimp only; skip)
    | (with_reducible refine Keeps.lit rfl rfl ?_; first | with_reducible assumption | exact h9 | with_reducible apply State.put_keeps | with_reducible apply State.bump_keeps | with_reducible apply Keeps.foldl | with_reducible apply Keeps.foldlFst | (split; skip))

theorem State.replaceAll_keeps {ps : Part → Prop} {a1 : Nat} {s0 s : State} (h_med : ps .med) (h_tly : ps .tly) (h : Keeps ps s0 s) : Keeps ps s0 (State.replaceAll s a1) := by
  unfold State.replaceAll
  repeat' first
    | (extract_lets +onlyGivenNames x; first | (with_reducible refine Keeps.cut (x := x) ?_ ?_; rotate_left; (try clear_value x); (intro _; skip); rotate_right; subst x) | subst x)
    | with_reducible assumption | with_reducible apply State.updBte_keeps | with_reducible apply State.updFrame_keeps | with_reducible apply Keeps.foldl | with_reducible apply Keeps.foldlFst
    | (intro _; skip) | split
    | (dsimp only; skip)
    | (with_reducible refine Keeps.lit rfl rfl ?_; first | with_reducible assumption | with_reducible apply State.updBte_keeps | with_reducible apply State.updFrame_keeps | with_reducible apply Keeps.foldl | with_reducible apply Keeps.foldlFst | (split; skip))

theorem State.abandonStripe_keeps {ps : Part → Prop} {a1 : Nat} {a2 : Bool} {s0 s : State} (h6 : ps (.regs 6)) (h7 : ps (.regs 7)) (h9 : ps (.regs 9)) (h11 : ps (.regs 11)) (h17 : ps (.regs 17)) (h20 : ps (.regs 20)) (h_dck : ps .dck) (h_evt : ps .evt) (h_gens : ps .gens) (h_lve : ps .lve) (h_med : ps .med) (h_out : ps .out) (h_pci : ps .pci) (h_tly : ps .tly) (h : Keeps ps s0 s) : Keeps ps s0 (State.abandonStripe s a1 a2) := by
  unfold State.abandonStripe
  repeat' first
    | (extract_lets +onlyGivenNames x; first | (with_reducible refine Keeps.cut (x := x) ?_ ?_; rotate_left; (try clear_value x); (intro _; skip); rotate_right; subst x) | subst x)
    | with_reducible assumption | exact h6 | exact h7 | exact h9 | exact h11 | exact h17 | exact h20 | with_reducible apply State.updStripe_keeps | with_reducible apply State.replaceAll_keeps | with_reducible apply State.closeStripe_keeps | with_reducible apply State.countDegraded_keeps | with_reducible apply State.rebuildTask_keeps
    | (intro _; skip) | split
    | (dsimp only; skip)
    | (with_reducible refine Keeps.lit rfl rfl ?_; first | with_reducible assumption | exact h6 | exact h7 | exact h9 | exact h11 | exact h17 | exact h20 | with_reducible apply State.updStripe_keeps | with_reducible apply State.replaceAll_keeps | with_reducible apply State.closeStripe_keeps | with_reducible apply State.countDegraded_keeps | with_reducible apply State.rebuildTask_keeps | (split; skip))

theorem State.degradeWhere_keeps {ps : Part → Prop} {a1 : Nat → Bool} {s0 s : State} (h6 : ps (.regs 6)) (h7 : ps (.regs 7)) (h9 : ps (.regs 9)) (h11 : ps (.regs 11)) (h17 : ps (.regs 17)) (h20 : ps (.regs 20)) (h_dck : ps .dck) (h_evt : ps .evt) (h_gens : ps .gens) (h_lve : ps .lve) (h_med : ps .med) (h_out : ps .out) (h_pci : ps .pci) (h_tly : ps .tly) (h : Keeps ps s0 s) : Keeps ps s0 (State.degradeWhere s a1) := by
  unfold State.degradeWhere
  repeat' first
    | (extract_lets +onlyGivenNames x; first | (with_reducible refine Keeps.cut (x := x) ?_ ?_; rotate_left; (try clear_value x); (intro _; skip); rotate_right; subst x) | subst x)
    | with_reducible assumption | exact h6 | exact h7 | exact h9 | exact h11 | exact h17 | exact h20 | with_reducible apply State.abandonStripe_keeps | with_reducible apply Keeps.foldl | with_reducible apply Keeps.foldlFst
    | (intro _; skip) | split
    | (dsimp only; skip)

theorem State.dropQueue_keeps {ps : Part → Prop} {a1 a2 : Nat} {s0 s : State} (h6 : ps (.regs 6)) (h7 : ps (.regs 7)) (h9 : ps (.regs 9)) (h11 : ps (.regs 11)) (h17 : ps (.regs 17)) (h20 : ps (.regs 20)) (h_dck : ps .dck) (h_evt : ps .evt) (h_gens : ps .gens) (h_lve : ps .lve) (h_med : ps .med) (h_out : ps .out) (h_pci : ps .pci) (h_tly : ps .tly) (h : Keeps ps s0 s) : Keeps ps s0 (State.dropQueue s a1 a2) := by
  unfold State.dropQueue
  repeat' first
    | (extract_lets +onlyGivenNames x; first | (with_reducible refine Keeps.cut (x := x) ?_ ?_; rotate_left; (try clear_value x); (intro _; skip); rotate_right; subst x) | subst x)
    | with_reducible assumption | exact h6 | exact h7 | exact h9 | exact h11 | exact h17 | exact h20 | with_reducible apply State.updLun_keeps | with_reducible apply State.abandonStripe_keeps | with_reducible apply State.memberErased_keeps | with_reducible apply Keeps.foldl | with_reducible apply Keeps.foldlFst
    | (intro _; skip) | split
    | (dsimp only; skip)
    | (with_reducible refine Keeps.lit rfl rfl ?_; first | with_reducible assumption | exact h6 | exact h7 | exact h9 | exact h11 | exact h17 | exact h20 | with_reducible apply State.updLun_keeps | with_reducible apply State.abandonStripe_keeps | with_reducible apply State.memberErased_keeps | with_reducible apply Keeps.foldl | with_reducible apply Keeps.foldlFst | (split; skip))

theorem State.fellLun_keeps {ps : Part → Prop} {a1 a2 a3 : Nat} {s0 s : State} (h6 : ps (.regs 6)) (h7 : ps (.regs 7)) (h9 : ps (.regs 9)) (h11 : ps (.regs 11)) (h17 : ps (.regs 17)) (h20 : ps (.regs 20)) (h_dck : ps .dck) (h_evt : ps .evt) (h_gens : ps .gens) (h_lve : ps .lve) (h_med : ps .med) (h_out : ps .out) (h_pci : ps .pci) (h_tly : ps .tly) (h : Keeps ps s0 s) : Keeps ps s0 (State.fellLun s a1 a2 a3) := by
  unfold State.fellLun
  repeat' first
    | (extract_lets +onlyGivenNames x; first | (with_reducible refine Keeps.cut (x := x) ?_ ?_; rotate_left; (try clear_value x); (intro _; skip); rotate_right; subst x) | subst x)
    | with_reducible assumption | exact h6 | exact h7 | exact h9 | exact h11 | exact h17 | exact h20 | with_reducible apply State.fellList_keeps | with_reducible apply State.putLunSt_keeps | with_reducible apply State.post_keeps | with_reducible apply State.refillReserve_keeps | with_reducible apply State.degradeWhere_keeps | with_reducible apply State.dropQueue_keeps
    | (intro _; skip) | split
    | (dsimp only; skip)

theorem State.roleMoves_keeps {ps : Part → Prop} {a1 : Nat} {s0 s : State} (h_med : ps .med) (h : Keeps ps s0 s) : Keeps ps s0 (State.roleMoves s a1) := by
  unfold State.roleMoves
  repeat' first
    | (extract_lets +onlyGivenNames x; first | (with_reducible refine Keeps.cut (x := x) ?_ ?_; rotate_left; (try clear_value x); (intro _; skip); rotate_right; subst x) | subst x)
    | with_reducible assumption | with_reducible apply State.enqueue_keeps | with_reducible apply State.updGrp_keeps | with_reducible apply State.updBte_keeps | with_reducible apply Keeps.foldl | with_reducible apply Keeps.foldlFst
    | (intro _; skip) | split
    | (dsimp only; skip)
    | (with_reducible refine Keeps.lit rfl rfl ?_; first | with_reducible assumption | with_reducible apply State.enqueue_keeps | with_reducible apply State.updGrp_keeps | with_reducible apply State.updBte_keeps | with_reducible apply Keeps.foldl | with_reducible apply Keeps.foldlFst | (split; skip))

theorem State.fellBlock_keeps {ps : Part → Prop} {a1 a2 : Nat} {s0 s : State} (h6 : ps (.regs 6)) (h7 : ps (.regs 7)) (h9 : ps (.regs 9)) (h11 : ps (.regs 11)) (h17 : ps (.regs 17)) (h20 : ps (.regs 20)) (h_dck : ps .dck) (h_evt : ps .evt) (h_gens : ps .gens) (h_lve : ps .lve) (h_med : ps .med) (h_out : ps .out) (h_pci : ps .pci) (h_tly : ps .tly) (h : Keeps ps s0 s) : Keeps ps s0 (State.fellBlock s a1 a2) := by
  unfold State.fellBlock
  repeat' first
    | (extract_lets +onlyGivenNames x; first | (with_reducible refine Keeps.cut (x := x) ?_ ?_; rotate_left; (try clear_value x); (intro _; skip); rotate_right; subst x) | subst x)
    | with_reducible assumption | exact h6 | exact h7 | exact h9 | exact h11 | exact h17 | exact h20 | with_reducible apply State.roleMoves_keeps | with_reducible apply State.fellList_keeps | with_reducible apply State.updBte_keeps | with_reducible apply State.post_keeps | with_reducible apply State.fellLun_keeps
    | (intro _; skip) | split
    | (dsimp only; skip)
    | (with_reducible refine Keeps.lit rfl rfl ?_; first | with_reducible assumption | exact h6 | exact h7 | exact h9 | exact h11 | exact h17 | exact h20 | with_reducible apply State.roleMoves_keeps | with_reducible apply State.fellList_keeps | with_reducible apply State.updBte_keeps | with_reducible apply State.post_keeps | with_reducible apply State.fellLun_keeps | (split; skip))

theorem State.fellChannel_keeps {ps : Part → Prop} {a1 : Nat} {s0 s : State} (h6 : ps (.regs 6)) (h7 : ps (.regs 7)) (h9 : ps (.regs 9)) (h11 : ps (.regs 11)) (h17 : ps (.regs 17)) (h20 : ps (.regs 20)) (h_dck : ps .dck) (h_evt : ps .evt) (h_gens : ps .gens) (h_lve : ps .lve) (h_med : ps .med) (h_out : ps .out) (h_pci : ps .pci) (h_tly : ps .tly) (h : Keeps ps s0 s) : Keeps ps s0 (State.fellChannel s a1) := by
  unfold State.fellChannel
  repeat' first
    | (extract_lets +onlyGivenNames x; first | (with_reducible refine Keeps.cut (x := x) ?_ ?_; rotate_left; (try clear_value x); (intro _; skip); rotate_right; subst x) | subst x)
    | with_reducible assumption | exact h6 | exact h7 | exact h9 | exact h11 | exact h17 | exact h20 | with_reducible apply State.put_keeps | with_reducible apply State.fellList_keeps | with_reducible apply State.post_keeps | with_reducible apply State.dropQueue_keeps | with_reducible apply State.refillReserve_keeps | with_reducible apply State.degradeWhere_keeps | with_reducible apply Keeps.foldl | with_reducible apply Keeps.foldlFst
    | (intro _; skip) | split
    | (dsimp only; skip)

theorem State.programFailed_keeps {ps : Part → Prop} {a1 a2 : Nat} {s0 s : State} (h6 : ps (.regs 6)) (h7 : ps (.regs 7)) (h9 : ps (.regs 9)) (h11 : ps (.regs 11)) (h17 : ps (.regs 17)) (h20 : ps (.regs 20)) (h_dck : ps .dck) (h_evt : ps .evt) (h_gens : ps .gens) (h_lve : ps .lve) (h_med : ps .med) (h_out : ps .out) (h_pci : ps .pci) (h_tly : ps .tly) (h : Keeps ps s0 s) : Keeps ps s0 (State.programFailed s a1 a2) := by
  unfold State.programFailed
  repeat' first
    | with_reducible assumption | exact h6 | exact h7 | exact h9 | exact h11 | exact h17 | exact h20 | with_reducible apply State.abandonStripe_keeps | with_reducible apply State.fellBlock_keeps
    | (intro _; skip) | split
    | (dsimp only; skip)

theorem State.relocEnd_keeps {ps : Part → Prop} {a1 : Nat} {s0 s : State} (h6 : ps (.regs 6)) (h9 : ps (.regs 9)) (h17 : ps (.regs 17)) (h_dck : ps .dck) (h_evt : ps .evt) (h_med : ps .med) (h_out : ps .out) (h_pci : ps .pci) (h_qqp : ps .qqp) (h : Keeps ps s0 s) : Keeps ps s0 (State.relocEnd s a1) := by
  unfold State.relocEnd
  repeat' first
    | (extract_lets +onlyGivenNames x; first | (with_reducible refine Keeps.cut (x := x) ?_ ?_; rotate_left; (try clear_value x); (intro _; skip); rotate_right; subst x) | subst x)
    | with_reducible assumption | exact h6 | exact h9 | exact h17 | with_reducible apply State.endTask_keeps | with_reducible apply State.updStripe_keeps | with_reducible apply State.bump_keeps | with_reducible apply State.gcCheck_keeps | with_reducible apply State.eraseCheck_keeps
    | (intro _; skip) | split
    | (dsimp only; skip)
    | (with_reducible refine Keeps.lit rfl rfl ?_; first | with_reducible assumption | exact h6 | exact h9 | exact h17 | with_reducible apply State.endTask_keeps | with_reducible apply State.updStripe_keeps | with_reducible apply State.bump_keeps | with_reducible apply State.gcCheck_keeps | with_reducible apply State.eraseCheck_keeps | (split; skip))

theorem State.relocPage_keeps {ps : Part → Prop} {a1 : Nat} {a2 : Task} {s0 s : State} (h6 : ps (.regs 6)) (h9 : ps (.regs 9)) (h17 : ps (.regs 17)) (h_dck : ps .dck) (h_evt : ps .evt) (h_med : ps .med) (h_out : ps .out) (h_pci : ps .pci) (h_qqp : ps .qqp) (h : Keeps ps s0 s) : Keeps ps s0 (State.relocPage s a1 a2) := by
  unfold State.relocPage
  repeat' first
    | (extract_lets +onlyGivenNames x; first | (with_reducible refine Keeps.cut (x := x) ?_ ?_; rotate_left; (try clear_value x); (intro _; skip); rotate_right; subst x) | subst x)
    | with_reducible assumption | exact h6 | exact h9 | exact h17 | with_reducible apply State.updStripe_keeps | with_reducible apply State.askSectors_keeps | with_reducible apply State.relocEnd_keeps | with_reducible apply Keeps.foldl | with_reducible apply Keeps.foldlFst
    | (intro _; skip) | split
    | (dsimp only; skip)
    | (with_reducible refine Keeps.lit rfl rfl ?_; first | with_reducible assumption | exact h6 | exact h9 | exact h17 | with_reducible apply State.updStripe_keeps | with_reducible apply State.askSectors_keeps | with_reducible apply State.relocEnd_keeps | with_reducible apply Keeps.foldl | with_reducible apply Keeps.foldlFst | (split; skip))

theorem State.relocStep_keeps {ps : Part → Prop} {a1 : Nat} {s0 s : State} (h6 : ps (.regs 6)) (h9 : ps (.regs 9)) (h17 : ps (.regs 17)) (h_dck : ps .dck) (h_evt : ps .evt) (h_fresh : ps .fresh) (h_med : ps .med) (h_out : ps .out) (h_pci : ps .pci) (h_qqp : ps .qqp) (h : Keeps ps s0 s) : Keeps ps s0 (State.relocStep s a1) := by
  unfold State.relocStep
  repeat' first
    | (extract_lets +onlyGivenNames x; first | ((first | with_reducible refine Keeps.cut (x := x) ?_ ?_ | with_reducible refine KO.cut (x := x) ?_ ?_); rotate_left; (try clear_value x); (intro _; skip); rotate_right; subst x) | subst x)
    | with_reducible assumption | exact h6 | exact h9 | exact h17 | with_reducible apply State.saveCtx_keeps | with_reducible apply State.bump_keeps | with_reducible apply State.toReady_keeps | with_reducible apply State.updTask_keeps | with_reducible apply State.leaveEngine_keeps | with_reducible apply State.relocPage_keeps
    | (intro _; skip) | split
    | (dsimp only; skip)
    | with_reducible refine KO.get (by assumption) ?_ | with_reducible refine KP.get (by assumption) ?_ | with_reducible refine KP.get2 (by assumption) ?_ | with_reducible apply KO.none' | with_reducible apply KP.none' | with_reducible apply KO.some' | with_reducible apply KP.some' | with_reducible apply KO.bind | with_reducible apply KP.bind | with_reducible apply Keeps.getO
    | (with_reducible refine Keeps.lit rfl rfl ?_; first | with_reducible assumption | exact h6 | exact h9 | exact h17 | with_reducible apply State.saveCtx_keeps | with_reducible apply State.bump_keeps | with_reducible apply State.toReady_keeps | with_reducible apply State.updTask_keeps | with_reducible apply State.leaveEngine_keeps | with_reducible apply State.relocPage_keeps | with_reducible refine KO.get (by assumption) ?_ | with_reducible refine KP.get (by assumption) ?_ | with_reducible refine KP.get2 (by assumption) ?_ | with_reducible apply KO.none' | with_reducible apply KP.none' | with_reducible apply KO.some' | with_reducible apply KP.some' | with_reducible apply KO.bind | with_reducible apply KP.bind | with_reducible apply Keeps.getO | (split; skip))

theorem State.feedStage_keeps {ps : Part → Prop} {a1 a2 a3 : Nat} {s0 s : State} (h_med : ps .med) (h : Keeps ps s0 s) : Keeps ps s0 (State.feedStage s a1 a2 a3) := by
  induction a3 generalizing s a1 a2 with
  | zero =>
    unfold State.feedStage
    repeat' first
      | (extract_lets +onlyGivenNames x; first | (with_reducible refine Keeps.cut (x := x) ?_ ?_; rotate_left; (try clear_value x); (intro _; skip); rotate_right; subst x) | subst x)
      | with_reducible assumption
      | (intro _; skip) | split
      | (dsimp only; skip)
      | (with_reducible refine Keeps.lit rfl rfl ?_; first | with_reducible assumption | (split; skip))
  | succ n ih =>
    unfold State.feedStage
    repeat' first
      | (extract_lets +onlyGivenNames x; first | (with_reducible refine Keeps.cut (x := x) ?_ ?_; rotate_left; (try clear_value x); (intro _; skip); rotate_right; subst x) | subst x)
      | with_reducible assumption | with_reducible apply ih
      | (intro _; skip) | split
      | (dsimp only; skip)
      | (with_reducible refine Keeps.lit rfl rfl ?_; first | with_reducible assumption | with_reducible apply ih | (split; skip))

theorem State.feed_keeps {ps : Part → Prop} {s0 s : State} (h_med : ps .med) (h : Keeps ps s0 s) : Keeps ps s0 (State.feed s) := by
  unfold State.feed
  repeat' first
    | (extract_lets +onlyGivenNames x; first | (with_reducible refine Keeps.cut (x := x) ?_ ?_; rotate_left; (try clear_value x); (intro _; skip); rotate_right; subst x) | subst x)
    | with_reducible assumption | with_reducible apply State.feedStage_keeps
    | (intro _; skip) | split
    | (dsimp only; skip)

end Sys2Proof.Machine
end

