-- ==== Sys2Proof/Laws/Qops.lean ====
section
/-! SUPPORT. What each operation and each meaning of Machine/Qops.lean keeps (Keeps): one lemma a definition. -/

-- The package as one text is checked in one process: its proofs are checked one after another, and its linters keep quiet.
set_option Elab.async false
set_option linter.all false

namespace Sys2Proof.Machine
open Sys2Proof

theorem State.updQp_keeps {ps : Part → Prop} {a1 a2 : Nat} {a3 : Qp → Qp} {s0 s : State} (h_qqp : ps .qqp) (h : Keeps ps s0 s) : Keeps ps s0 (State.updQp s a1 a2 a3) := by
  unfold State.updQp
  repeat' first
    | with_reducible assumption
    | (intro _; skip) | split
    | (dsimp only; skip)
    | (with_reducible refine Keeps.lit rfl rfl ?_; first | with_reducible assumption | (split; skip))

theorem State.finish_keeps {ps : Part → Prop} {a1 a2 a3 a4 a5 : Nat} {s0 s : State} (h6 : ps (.regs 6)) (h_dck : ps .dck) (h_qqp : ps .qqp) (h : Keeps ps s0 s) : Keeps ps s0 (State.finish s a1 a2 a3 a4 a5) := by
  unfold State.finish
  repeat' first
    | with_reducible assumption | exact h6 | with_reducible apply State.updCmd_keeps | with_reducible apply State.endTask_keeps | with_reducible apply Keeps.foldl | with_reducible apply Keeps.foldlFst
    | (intro _; skip) | split
    | (dsimp only; skip)
    | (with_reducible refine Keeps.lit rfl rfl ?_; first | with_reducible assumption | exact h6 | with_reducible apply State.updCmd_keeps | with_reducible apply State.endTask_keeps | with_reducible apply Keeps.foldl | with_reducible apply Keeps.foldlFst | (split; skip))

theorem State.failCmd_keeps {ps : Part → Prop} {a1 a2 a3 a4 a5 : Nat} {s0 s : State} (h6 : ps (.regs 6)) (h_dck : ps .dck) (h_qqp : ps .qqp) (h : Keeps ps s0 s) : Keeps ps s0 (State.failCmd s a1 a2 a3 a4 a5) := by
  unfold State.failCmd
  repeat' first
    | with_reducible assumption | exact h6 | with_reducible apply State.updCmd_keeps | with_reducible apply State.finish_keeps
    | (intro _; skip) | split
    | (dsimp only; skip)
    | (with_reducible refine Keeps.lit rfl rfl ?_; first | with_reducible assumption | exact h6 | with_reducible apply State.updCmd_keeps | with_reducible apply State.finish_keeps | (split; skip))

theorem State.segEnd_keeps {ps : Part → Prop} {a1 a2 a3 a4 a5 : Nat} {s0 s : State} (h6 : ps (.regs 6)) (h_dck : ps .dck) (h_qqp : ps .qqp) (h : Keeps ps s0 s) : Keeps ps s0 (State.segEnd s a1 a2 a3 a4 a5) := by
  unfold State.segEnd
  repeat' first
    | (extract_lets +onlyGivenNames x; first | (with_reducible refine Keeps.cut (x := x) ?_ ?_; rotate_left; (try clear_value x); (intro _; skip); rotate_right; subst x) | subst x)
    | with_reducible assumption | exact h6 | with_reducible apply State.updCmd_keeps | with_reducible apply State.endTask_keeps
    | (intro _; skip) | split
    | (dsimp only; skip)
    | (with_reducible refine Keeps.lit rfl rfl ?_; first | with_reducible assumption | exact h6 | with_reducible apply State.updCmd_keeps | with_reducible apply State.endTask_keeps | (split; skip))

theorem State.undo_keeps {ps : Part → Prop} {a1 : Nat} {s0 s : State} (h7 : ps (.regs 7)) (h11 : ps (.regs 11)) (h12 : ps (.regs 12)) (h17 : ps (.regs 17)) (h20 : ps (.regs 20)) (h_evt : ps .evt) (h_gens : ps .gens) (h_lve : ps .lve) (h_out : ps .out) (h_pci : ps .pci) (h_qqp : ps .qqp) (h_tly : ps .tly) (h : Keeps ps s0 s) : Keeps ps s0 (State.undo s a1) := by
  unfold State.undo
  repeat' first
    | (extract_lets +onlyGivenNames x; first | (with_reducible refine Keeps.cut (x := x) ?_ ?_; rotate_left; (try clear_value x); (intro _; skip); rotate_right; subst x) | subst x)
    | with_reducible assumption | exact h7 | exact h11 | exact h12 | exact h17 | exact h20 | with_reducible apply State.tractSet_keeps | with_reducible apply State.setTract_keeps | with_reducible apply State.drop_keeps | with_reducible apply Keeps.foldl | with_reducible apply Keeps.foldlFst
    | (intro _; skip) | split
    | (dsimp only; skip)
    | (with_reducible refine Keeps.lit rfl rfl ?_; first | with_reducible assumption | exact h7 | exact h11 | exact h12 | exact h17 | exact h20 | with_reducible apply State.tractSet_keeps | with_reducible apply State.setTract_keeps | with_reducible apply State.drop_keeps | with_reducible apply Keeps.foldl | with_reducible apply Keeps.foldlFst | (split; skip))

theorem State.abortCmd_keeps {ps : Part → Prop} {a1 a2 : Nat} {s0 s : State} (h6 : ps (.regs 6)) (h7 : ps (.regs 7)) (h11 : ps (.regs 11)) (h12 : ps (.regs 12)) (h17 : ps (.regs 17)) (h20 : ps (.regs 20)) (h_dck : ps .dck) (h_evt : ps .evt) (h_gens : ps .gens) (h_lve : ps .lve) (h_out : ps .out) (h_pci : ps .pci) (h_qqp : ps .qqp) (h_tly : ps .tly) (h : Keeps ps s0 s) : Keeps ps s0 (State.abortCmd s a1 a2) := by
  unfold State.abortCmd
  repeat' first
    | with_reducible assumption | exact h6 | exact h7 | exact h11 | exact h12 | exact h17 | exact h20 | with_reducible apply State.failCmd_keeps | with_reducible apply State.undo_keeps
    | (intro _; skip) | split
    | (dsimp only; skip)

theorem State.ackLines_keeps {ps : Part → Prop} {a1 : Nat} {s0 s : State} (h_qqp : ps .qqp) (h_tly : ps .tly) (h : Keeps ps s0 s) : Keeps ps s0 (State.ackLines s a1) := by
  unfold State.ackLines
  repeat' first
    | (extract_lets +onlyGivenNames x; first | (with_reducible refine Keeps.cut (x := x) ?_ ?_; rotate_left; (try clear_value x); (intro _; skip); rotate_right; subst x) | subst x)
    | with_reducible assumption | with_reducible apply State.updLine_keeps | with_reducible apply State.supersede_keeps | with_reducible apply Keeps.foldl | with_reducible apply Keeps.foldlFst
    | (intro _; skip) | split
    | (dsimp only; skip)
    | (with_reducible refine Keeps.lit rfl rfl ?_; first | with_reducible assumption | with_reducible apply State.updLine_keeps | with_reducible apply State.supersede_keeps | with_reducible apply Keeps.foldl | with_reducible apply Keeps.foldlFst | (split; skip))

theorem State.dropLines_keeps {ps : Part → Prop} {a1 : Nat} {s0 s : State} (h11 : ps (.regs 11)) (h17 : ps (.regs 17)) (h20 : ps (.regs 20)) (h_evt : ps .evt) (h_gens : ps .gens) (h_lve : ps .lve) (h_out : ps .out) (h_pci : ps .pci) (h_qqp : ps .qqp) (h_tly : ps .tly) (h : Keeps ps s0 s) : Keeps ps s0 (State.dropLines s a1) := by
  unfold State.dropLines
  repeat' first
    | (extract_lets +onlyGivenNames x; first | (with_reducible refine Keeps.cut (x := x) ?_ ?_; rotate_left; (try clear_value x); (intro _; skip); rotate_right; subst x) | subst x)
    | with_reducible assumption | exact h11 | exact h17 | exact h20 | with_reducible apply State.releaseLines_keeps | with_reducible apply State.updCmd_keeps
    | (intro _; skip) | split
    | (dsimp only; skip)
    | (with_reducible refine Keeps.lit rfl rfl ?_; first | with_reducible assumption | exact h11 | exact h17 | exact h20 | with_reducible apply State.releaseLines_keeps | with_reducible apply State.updCmd_keeps | (split; skip))

theorem State.cqSignal_keeps {ps : Part → Prop} {a1 a2 : Nat} {s0 s : State} (h_out : ps .out) (h_pci : ps .pci) (h_qqp : ps .qqp) (h : Keeps ps s0 s) : Keeps ps s0 (State.cqSignal s a1 a2) := by
  unfold State.cqSignal
  repeat' first
    | (extract_lets +onlyGivenNames x; first | (with_reducible refine Keeps.cut (x := x) ?_ ?_; rotate_left; (try clear_value x); (intro _; skip); rotate_right; subst x) | subst x)
    | with_reducible assumption | with_reducible apply State.msix_keeps | with_reducible apply State.updQp_keeps
    | (intro _; skip) | split
    | (dsimp only; skip)
    | (with_reducible refine Keeps.lit rfl rfl ?_; first | with_reducible assumption | with_reducible apply State.msix_keeps | with_reducible apply State.updQp_keeps | (split; skip))

theorem State.postCqe_keeps {ps : Part → Prop} {a1 a2 : Nat} {a3 : Bool → Nat → Nat} {s0 s : State} (h_out : ps .out) (h_pci : ps .pci) (h_qqp : ps .qqp) (h : Keeps ps s0 s) : Keeps ps s0 (State.postCqe s a1 a2 a3) := by
  unfold State.postCqe
  repeat' first
    | (extract_lets +onlyGivenNames x; first | (with_reducible refine Keeps.cut (x := x) ?_ ?_; rotate_left; (try clear_value x); (intro _; skip); rotate_right; subst x) | subst x)
    | with_reducible assumption | with_reducible apply State.updQp_keeps | with_reducible apply State.cqSignal_keeps
    | (intro _; skip) | split
    | (dsimp only; skip)
    | (with_reducible refine Keeps.lit rfl rfl ?_; first | with_reducible assumption | with_reducible apply State.updQp_keeps | with_reducible apply State.cqSignal_keeps | (split; skip))

theorem State.retire_keeps {ps : Part → Prop} {a1 : Nat} {s0 s : State} (h19 : ps (.regs 19)) (h_qqp : ps .qqp) (h : Keeps ps s0 s) : Keeps ps s0 (State.retire s a1) := by
  unfold State.retire
  repeat' first
    | with_reducible assumption | exact h19 | with_reducible apply State.dropCmd_keeps | with_reducible apply State.bump_keeps
    | (intro _; skip) | split
    | (dsimp only; skip)
    | (with_reducible refine Keeps.lit rfl rfl ?_; first | with_reducible assumption | exact h19 | with_reducible apply State.dropCmd_keeps | with_reducible apply State.bump_keeps | (split; skip))

theorem State.complete_keeps {ps : Part → Prop} {a1 : Nat} {a2 : Cmd} {a3 : Outc} {s0 s : State} (h11 : ps (.regs 11)) (h17 : ps (.regs 17)) (h19 : ps (.regs 19)) (h20 : ps (.regs 20)) (h_evt : ps .evt) (h_gens : ps .gens) (h_lve : ps .lve) (h_out : ps .out) (h_pci : ps .pci) (h_qqp : ps .qqp) (h_tly : ps .tly) (h : Keeps ps s0 s) : Keeps ps s0 (State.complete s a1 a2 a3) := by
  unfold State.complete
  repeat' first
    | (extract_lets +onlyGivenNames x; first | (with_reducible refine Keeps.cut (x := x) ?_ ?_; rotate_left; (try clear_value x); (intro _; skip); rotate_right; subst x) | subst x)
    | with_reducible assumption | exact h11 | exact h17 | exact h19 | exact h20 | with_reducible apply State.postCqe_keeps | with_reducible apply State.bump_keeps | with_reducible apply State.setCmd_keeps | with_reducible apply State.dropLines_keeps | with_reducible apply State.ackLines_keeps | with_reducible apply State.updCmd_keeps | with_reducible apply State.settleAll_keeps | with_reducible apply State.retire_keeps
    | (intro _; skip) | split
    | (dsimp only; skip)
    | (with_reducible refine Keeps.lit rfl rfl ?_; first | with_reducible assumption | exact h11 | exact h17 | exact h19 | exact h20 | with_reducible apply State.postCqe_keeps | with_reducible apply State.bump_keeps | with_reducible apply State.setCmd_keeps | with_reducible apply State.dropLines_keeps | with_reducible apply State.ackLines_keeps | with_reducible apply State.updCmd_keeps | with_reducible apply State.settleAll_keeps | with_reducible apply State.retire_keeps | (split; skip))

theorem State.ioStop_keeps {ps : Part → Prop} {a1 : Nat} {a2 : Cmd} {a3 : IoStop} {s0 s : State} (h6 : ps (.regs 6)) (h17 : ps (.regs 17)) (h_dck : ps .dck) (h_evt : ps .evt) (h_out : ps .out) (h_pci : ps .pci) (h_qqp : ps .qqp) (h : Keeps ps s0 s) : Keeps ps s0 (State.ioStop s a1 a2 a3) := by
  unfold State.ioStop
  repeat' first
    | with_reducible assumption | exact h6 | exact h17 | with_reducible apply State.failCmd_keeps | with_reducible apply State.conflict_keeps | with_reducible apply State.updCmd_keeps
    | (intro _; skip) | split
    | (dsimp only; skip)
    | (with_reducible refine Keeps.lit rfl rfl ?_; first | with_reducible assumption | exact h6 | exact h17 | with_reducible apply State.failCmd_keeps | with_reducible apply State.conflict_keeps | with_reducible apply State.updCmd_keeps | (split; skip))

end Sys2Proof.Machine
end

