-- ==== Sys2Proof/Laws/Seal.lean ====
section
/-! SUPPORT. What each operation and each meaning of Machine/Seal.lean keeps (Keeps): one lemma a definition. -/

-- The package as one text is checked in one process: its proofs are checked one after another, and its linters keep quiet.
set_option Elab.async false
set_option linter.all false

namespace Sys2Proof.Machine
open Sys2Proof

theorem State.updHline_keeps {ps : Part → Prop} {a1 : Nat} {a2 : MLine → MLine} {s0 s : State} (h_hbm : ps .hbm) (h : Keeps ps s0 s) : Keeps ps s0 (State.updHline s a1 a2) :=
  ⟨h.1, h.2, h.3, h.4, fun k => Map.wf_upd _ _ (h.5 k), h.6, fun p np => Part.same_trans (h.7 p np) (by
    cases p
    case hbm => exact absurd h_hbm np
    all_goals rfl), h.8⟩


theorem State.dropHlines_keeps {ps : Part → Prop} {a1 : Nat → Bool} {s0 s : State} (h_hbm : ps .hbm) (h : Keeps ps s0 s) : Keeps ps s0 (State.dropHlines s a1) :=
  ⟨h.1, h.2, h.3, h.4, fun k => Map.wf_keep (fun n _ => !a1 n) (h.5 k), h.6, fun p np => Part.same_trans (h.7 p np) (by
    cases p
    case hbm => exact absurd h_hbm np
    all_goals rfl), h.8⟩


theorem State.zeroise_keeps {ps : Part → Prop} {a1 : Nat} {s0 s : State} (h12 : ps (.regs 12)) (h_cry : ps .cry) (h : Keeps ps s0 s) : Keeps ps s0 (State.zeroise s a1) := by
  unfold State.zeroise
  repeat' first
    | (extract_lets +onlyGivenNames x; first | (with_reducible refine Keeps.cut (x := x) ?_ ?_; rotate_left; (try clear_value x); (intro _; skip); rotate_right; subst x) | subst x)
    | with_reducible assumption | exact h12 | with_reducible apply State.put_keeps
    | (intro _; skip) | split
    | (dsimp only; skip)
    | (with_reducible refine Keeps.lit rfl rfl ?_; first | with_reducible assumption | exact h12 | with_reducible apply State.put_keeps | (split; skip))

theorem State.loadKey_keeps {ps : Part → Prop} {a1 a2 a3 : Nat} {a4 : Bool} {s0 s : State} (h12 : ps (.regs 12)) (h_cry : ps .cry) (h : Keeps ps s0 s) : Keeps ps s0 (State.loadKey s a1 a2 a3 a4) := by
  unfold State.loadKey
  repeat' first
    | (extract_lets +onlyGivenNames x; first | (with_reducible refine Keeps.cut (x := x) ?_ ?_; rotate_left; (try clear_value x); (intro _; skip); rotate_right; subst x) | subst x)
    | with_reducible assumption | exact h12 | with_reducible apply State.flag_keeps | with_reducible apply State.put_keeps
    | (intro _; skip) | split
    | (dsimp only; skip)
    | (with_reducible refine Keeps.lit rfl rfl ?_; first | with_reducible assumption | exact h12 | with_reducible apply State.flag_keeps | with_reducible apply State.put_keeps | (split; skip))

theorem State.setNode_keeps {ps : Part → Prop} {a1 a2 a3 : Nat} {a4 : CNode} {s0 s : State} (h_cry : ps .cry) (h : Keeps ps s0 s) : Keeps ps s0 (State.setNode s a1 a2 a3 a4) := by
  unfold State.setNode
  repeat' first
    | with_reducible assumption
    | (intro _; skip) | split
    | (dsimp only; skip)
    | (with_reducible refine Keeps.lit rfl rfl ?_; first | with_reducible assumption | (split; skip))

theorem State.rekeyStart_keeps {ps : Part → Prop} {a1 : Nat} {s0 s : State} (h12 : ps (.regs 12)) (h17 : ps (.regs 17)) (h_cry : ps .cry) (h_evt : ps .evt) (h_fresh : ps .fresh) (h_out : ps .out) (h_pci : ps .pci) (h : Keeps ps s0 s) : Keeps ps s0 (State.rekeyStart s a1) := by
  unfold State.rekeyStart
  repeat' first
    | (extract_lets +onlyGivenNames x; first | (with_reducible refine Keeps.cut (x := x) ?_ ?_; rotate_left; (try clear_value x); (intro _; skip); rotate_right; subst x) | subst x)
    | with_reducible assumption | exact h12 | exact h17 | with_reducible apply State.drawn_keeps | with_reducible apply State.loadKey_keeps | with_reducible apply State.put_keeps | with_reducible apply State.put64_keeps | with_reducible apply State.post_keeps
    | (intro _; skip) | split
    | (dsimp only; skip)
    | (with_reducible refine Keeps.lit rfl rfl ?_; first | with_reducible assumption | exact h12 | exact h17 | with_reducible apply State.drawn_keeps | with_reducible apply State.loadKey_keeps | with_reducible apply State.put_keeps | with_reducible apply State.put64_keeps | with_reducible apply State.post_keeps | (split; skip))

theorem State.rekeyAsk_keeps {ps : Part → Prop} {a1 : Nat} {s0 s : State} (h12 : ps (.regs 12)) (h17 : ps (.regs 17)) (h_cry : ps .cry) (h_evt : ps .evt) (h_fresh : ps .fresh) (h_out : ps .out) (h_pci : ps .pci) (h : Keeps ps s0 s) : Keeps ps s0 (State.rekeyAsk s a1) := by
  unfold State.rekeyAsk
  repeat' first
    | with_reducible assumption | exact h12 | exact h17 | with_reducible apply State.rekeyStart_keeps
    | (intro _; skip) | split
    | (dsimp only; skip)
    | (with_reducible refine Keeps.lit rfl rfl ?_; first | with_reducible assumption | exact h12 | exact h17 | with_reducible apply State.rekeyStart_keeps | (split; skip))

theorem State.majorIs_keeps {ps : Part → Prop} {a1 a2 : Nat} {s0 s : State} (h12 : ps (.regs 12)) (h17 : ps (.regs 17)) (h_cry : ps .cry) (h_evt : ps .evt) (h_fresh : ps .fresh) (h_out : ps .out) (h_pci : ps .pci) (h : Keeps ps s0 s) : Keeps ps s0 (State.majorIs s a1 a2) := by
  unfold State.majorIs
  repeat' first
    | (extract_lets +onlyGivenNames x; first | (with_reducible refine Keeps.cut (x := x) ?_ ?_; rotate_left; (try clear_value x); (intro _; skip); rotate_right; subst x) | subst x)
    | with_reducible assumption | exact h12 | exact h17 | with_reducible apply State.raise_keeps | with_reducible apply State.rekeyAsk_keeps
    | (intro _; skip) | split
    | (dsimp only; skip)

theorem State.raiseChild_keeps {ps : Part → Prop} {a1 a2 a3 a4 : Nat} {s0 s : State} (h12 : ps (.regs 12)) (h17 : ps (.regs 17)) (h_cry : ps .cry) (h_evt : ps .evt) (h_fresh : ps .fresh) (h_out : ps .out) (h_pci : ps .pci) (h : Keeps ps s0 s) : Keeps ps s0 (State.raiseChild s a1 a2 a3 a4) := by
  unfold State.raiseChild
  repeat' first
    | (extract_lets +onlyGivenNames x; first | (with_reducible refine Keeps.cut (x := x) ?_ ?_; rotate_left; (try clear_value x); (intro _; skip); rotate_right; subst x) | subst x)
    | with_reducible assumption | exact h12 | exact h17 | with_reducible apply State.setNode_keeps | with_reducible apply State.majorIs_keeps | with_reducible apply State.bump_keeps | with_reducible apply Keeps.foldl | with_reducible apply Keeps.foldlFst
    | (intro _; skip) | split
    | (dsimp only; skip)
    | (with_reducible refine Keeps.lit rfl rfl ?_; first | with_reducible assumption | exact h12 | exact h17 | with_reducible apply State.setNode_keeps | with_reducible apply State.majorIs_keeps | with_reducible apply State.bump_keeps | with_reducible apply Keeps.foldl | with_reducible apply Keeps.foldlFst | (split; skip))

theorem State.sealWrite_keeps {ps : Part → Prop} {a1 a2 a3 : Nat} {s0 s : State} (h12 : ps (.regs 12)) (h17 : ps (.regs 17)) (h_cry : ps .cry) (h_evt : ps .evt) (h_fresh : ps .fresh) (h_hbm : ps .hbm) (h_out : ps .out) (h_pci : ps .pci) (h : Keeps ps s0 s) : Keeps ps s0 (State.sealWrite s a1 a2 a3) := by
  unfold State.sealWrite
  repeat' first
    | (extract_lets +onlyGivenNames x; first | (with_reducible refine Keeps.cut (x := x) ?_ ?_; rotate_left; (try clear_value x); (intro _; skip); rotate_right; subst x) | subst x)
    | with_reducible assumption | exact h12 | exact h17 | with_reducible apply State.post_keeps | with_reducible apply State.bump_keeps | with_reducible apply State.updHline_keeps | with_reducible apply State.raiseChild_keeps
    | (intro _; skip) | split
    | (dsimp only; skip)
    | (with_reducible refine Keeps.lit rfl rfl ?_; first | with_reducible assumption | exact h12 | exact h17 | with_reducible apply State.post_keeps | with_reducible apply State.bump_keeps | with_reducible apply State.updHline_keeps | with_reducible apply State.raiseChild_keeps | (split; skip))

theorem State.sealWrites_keeps {ps : Part → Prop} {a1 a2 a3 a4 : Nat} {s0 s : State} (h12 : ps (.regs 12)) (h17 : ps (.regs 17)) (h_cry : ps .cry) (h_evt : ps .evt) (h_fresh : ps .fresh) (h_hbm : ps .hbm) (h_out : ps .out) (h_pci : ps .pci) (h : Keeps ps s0 s) : Keeps ps s0 (State.sealWrites s a1 a2 a3 a4) := by
  unfold State.sealWrites
  repeat' first
    | with_reducible assumption | exact h12 | exact h17 | with_reducible apply State.sealWrite_keeps | with_reducible apply Keeps.foldl | with_reducible apply Keeps.foldlFst
    | (intro _; skip) | split
    | (dsimp only; skip)

theorem State.darken_keeps {ps : Part → Prop} {a1 : Nat} {s0 s : State} (h_tly : ps .tly) (h : Keeps ps s0 s) : Keeps ps s0 (State.darken s a1) := by
  unfold State.darken
  repeat' first
    | with_reducible assumption
    | (intro _; skip) | split
    | (dsimp only; skip)
    | (with_reducible refine Keeps.lit rfl rfl ?_; first | with_reducible assumption | (split; skip))

theorem State.sealBuf_keeps {ps : Part → Prop} {a1 : Nat} {a2 : Line} {a3 : List (Nat × Blk)} {s0 s : State} (h12 : ps (.regs 12)) (h17 : ps (.regs 17)) (h_cry : ps .cry) (h_evt : ps .evt) (h_fresh : ps .fresh) (h_hbm : ps .hbm) (h_out : ps .out) (h_pci : ps .pci) (h_tly : ps .tly) (h : Keeps ps s0 s) : Keeps ps s0 (State.sealBuf s a1 a2 a3) := by
  unfold State.sealBuf
  repeat' first
    | (extract_lets +onlyGivenNames x; first | (with_reducible refine Keeps.cut (x := x) ?_ ?_; rotate_left; (try clear_value x); (intro _; skip); rotate_right; subst x) | subst x)
    | with_reducible assumption | exact h12 | exact h17 | with_reducible apply State.sealWrites_keeps | with_reducible apply State.darken_keeps | with_reducible apply Keeps.foldl | with_reducible apply Keeps.foldlFst
    | (intro _; skip) | split
    | (dsimp only; skip)
    | (with_reducible refine Keeps.lit rfl rfl ?_; first | with_reducible assumption | exact h12 | exact h17 | with_reducible apply State.sealWrites_keeps | with_reducible apply State.darken_keeps | with_reducible apply Keeps.foldl | with_reducible apply Keeps.foldlFst | (split; skip))

end Sys2Proof.Machine
end

