-- ==== Sys2Proof/Laws/IoCmds.lean ====
section
/-! SUPPORT. What each operation and each meaning of Machine/IoCmds.lean keeps (Keeps): one lemma a definition. -/

-- The package as one text is checked in one process: its proofs are checked one after another, and its linters keep quiet.
set_option Elab.async false
set_option linter.all false

namespace Sys2Proof.Machine
open Sys2Proof

theorem State.ioChecks_keeps {ps : Part → Prop} {a1 : Nat} {a2 : Cmd} {s0 s : State} (h6 : ps (.regs 6)) (h17 : ps (.regs 17)) (h_dck : ps .dck) (h_evt : ps .evt) (h_out : ps .out) (h_pci : ps .pci) (h_qqp : ps .qqp) (h : Keeps ps s0 s) : Keeps ps s0 (State.ioChecks s a1 a2).1 := by
  unfold State.ioChecks
  repeat' first
    | (extract_lets +onlyGivenNames x; first | (with_reducible refine Keeps.cut (x := x) ?_ ?_; rotate_left; (try clear_value x); (intro _; skip); rotate_right; subst x) | subst x)
    | with_reducible assumption | exact h6 | exact h17 | with_reducible apply State.updCmd_keeps | with_reducible apply State.ioStop_keeps
    | (intro _; skip) | split
    | (dsimp only; skip)
    | with_reducible refine Keeps.pair (by assumption) ?_
    | (with_reducible refine Keeps.lit rfl rfl ?_; first | with_reducible assumption | exact h6 | exact h17 | with_reducible apply State.updCmd_keeps | with_reducible apply State.ioStop_keeps | with_reducible refine Keeps.pair (by assumption) ?_ | (split; skip))

theorem State.ioEnter_keeps {ps : Part → Prop} {a1 a2 : Nat} {s0 s : State} (h6 : ps (.regs 6)) (h17 : ps (.regs 17)) (h_dck : ps .dck) (h_evt : ps .evt) (h_out : ps .out) (h_pci : ps .pci) (h_qqp : ps .qqp) (h : Keeps ps s0 s) : Keeps ps s0 (State.ioEnter s a1 a2).1 := by
  unfold State.ioEnter
  repeat' first
    | (extract_lets +onlyGivenNames x; first | (with_reducible refine Keeps.cut (x := x) ?_ ?_; rotate_left; (try clear_value x); (intro _; skip); rotate_right; subst x) | subst x)
    | with_reducible assumption | exact h6 | exact h17 | with_reducible apply State.updCmd_keeps | with_reducible apply State.failCmd_keeps | with_reducible apply State.ioChecks_keeps
    | (intro _; skip) | split
    | (dsimp only; skip)
    | with_reducible refine Keeps.pair (by assumption) ?_
    | (with_reducible refine Keeps.lit rfl rfl ?_; first | with_reducible assumption | exact h6 | exact h17 | with_reducible apply State.updCmd_keeps | with_reducible apply State.failCmd_keeps | with_reducible apply State.ioChecks_keeps | with_reducible refine Keeps.pair (by assumption) ?_ | (split; skip))

theorem State.dirLookup_keeps {ps : Part → Prop} {a1 : Nat} {s0 s : State} (h7 : ps (.regs 7)) (h_fresh : ps .fresh) (h_tly : ps .tly) (h : Keeps ps s0 s) : Keeps ps s0 (State.dirLookup s a1) := by
  unfold State.dirLookup
  repeat' first
    | (extract_lets +onlyGivenNames x; first | (with_reducible refine Keeps.cut (x := x) ?_ ?_; rotate_left; (try clear_value x); (intro _; skip); rotate_right; subst x) | subst x)
    | with_reducible assumption | exact h7 | with_reducible apply State.bump_keeps | with_reducible apply State.drawn_keeps
    | (intro _; skip) | split
    | (dsimp only; skip)
    | (with_reducible refine Keeps.lit rfl rfl ?_; first | with_reducible assumption | exact h7 | with_reducible apply State.bump_keeps | with_reducible apply State.drawn_keeps | (split; skip))

theorem State.noteLookup_keeps {ps : Part → Prop} {a1 : Bool} {a2 a3 a4 a5 : Nat} {s0 s : State} (h7 : ps (.regs 7)) (h17 : ps (.regs 17)) (h_evt : ps .evt) (h_fresh : ps .fresh) (h_out : ps .out) (h_pci : ps .pci) (h_tly : ps .tly) (h : Keeps ps s0 s) : Keeps ps s0 (State.noteLookup s a1 a2 a3 a4 a5) := by
  unfold State.noteLookup
  repeat' first
    | (extract_lets +onlyGivenNames x; first | (with_reducible refine Keeps.cut (x := x) ?_ ?_; rotate_left; (try clear_value x); (intro _; skip); rotate_right; subst x) | subst x)
    | with_reducible assumption | exact h7 | exact h17 | with_reducible apply State.dirLookup_keeps | with_reducible apply State.bump_keeps | with_reducible apply State.updFrame_keeps | with_reducible apply State.post_keeps
    | (intro _; skip) | split
    | (dsimp only; skip)
    | (with_reducible refine Keeps.lit rfl rfl ?_; first | with_reducible assumption | exact h7 | exact h17 | with_reducible apply State.dirLookup_keeps | with_reducible apply State.bump_keeps | with_reducible apply State.updFrame_keeps | with_reducible apply State.post_keeps | (split; skip))

theorem State.translate_keeps {ps : Part → Prop} {a1 : Bool} {a2 a3 a4 a5 : Nat} {s0 s : State} (h7 : ps (.regs 7)) (h17 : ps (.regs 17)) (h_evt : ps .evt) (h_fresh : ps .fresh) (h_out : ps .out) (h_pci : ps .pci) (h_tly : ps .tly) (h : Keeps ps s0 s) : Keeps ps s0 (State.translate s a1 a2 a3 a4 a5).1 := by
  unfold State.translate
  repeat' first
    | (extract_lets +onlyGivenNames x; first | (with_reducible refine Keeps.cut (x := x) ?_ ?_; rotate_left; (try clear_value x); (intro _; skip); rotate_right; subst x) | subst x)
    | with_reducible assumption | exact h7 | exact h17 | with_reducible apply State.needPage_keeps | with_reducible apply State.noteLookup_keeps
    | (intro _; skip) | split
    | (dsimp only; skip)
    | with_reducible refine Keeps.pair (by assumption) ?_

theorem State.translateAll_keeps {ps : Part → Prop} {a1 : Bool} {a2 a3 a4 a5 a6 : Nat} {s0 s : State} (h7 : ps (.regs 7)) (h17 : ps (.regs 17)) (h_evt : ps .evt) (h_fresh : ps .fresh) (h_out : ps .out) (h_pci : ps .pci) (h_tly : ps .tly) (h : Keeps ps s0 s) : Keeps ps s0 (State.translateAll s a1 a2 a3 a4 a5 a6).1 := by
  unfold State.translateAll
  repeat' first
    | (extract_lets +onlyGivenNames x; first | (with_reducible refine Keeps.cut (x := x) ?_ ?_; rotate_left; (try clear_value x); (intro _; skip); rotate_right; subst x) | subst x)
    | with_reducible assumption | exact h7 | exact h17 | with_reducible apply State.needPage_keeps | with_reducible apply State.noteLookup_keeps | with_reducible apply Keeps.foldl | with_reducible apply Keeps.foldlFst
    | (intro _; skip) | split
    | (dsimp only; skip)
    | with_reducible refine Keeps.pair (by assumption) ?_

theorem State.pinNext_keeps {ps : Part → Prop} {a1 a2 : Nat} {a3 : Cmd} {a4 : Nat} {s0 s : State} (h7 : ps (.regs 7)) (h17 : ps (.regs 17)) (h_evt : ps .evt) (h_fresh : ps .fresh) (h_out : ps .out) (h_pci : ps .pci) (h_qqp : ps .qqp) (h_tly : ps .tly) (h : Keeps ps s0 s) : Keeps ps s0 (State.pinNext s a1 a2 a3 a4) := by
  unfold State.pinNext
  repeat' first
    | (extract_lets +onlyGivenNames x; first | (with_reducible refine Keeps.cut (x := x) ?_ ?_; rotate_left; (try clear_value x); (intro _; skip); rotate_right; subst x) | subst x)
    | with_reducible assumption | exact h7 | exact h17 | with_reducible apply State.updCmd_keeps | with_reducible apply State.translateAll_keeps | with_reducible apply State.translate_keeps
    | (intro _; skip) | split
    | (dsimp only; skip)
    | with_reducible refine Keeps.pair (by assumption) ?_
    | (with_reducible refine Keeps.lit rfl rfl ?_; first | with_reducible assumption | exact h7 | exact h17 | with_reducible apply State.updCmd_keeps | with_reducible apply State.translateAll_keeps | with_reducible apply State.translate_keeps | with_reducible refine Keeps.pair (by assumption) ?_ | (split; skip))

theorem State.noteStream_keeps {ps : Part → Prop} {a1 a2 a3 : Nat} {s0 s : State} (h_tly : ps .tly) (h : Keeps ps s0 s) : Keeps ps s0 (State.noteStream s a1 a2 a3).1 := by
  unfold State.noteStream
  repeat' first
    | (extract_lets +onlyGivenNames x; first | (with_reducible refine Keeps.cut (x := x) ?_ ?_; rotate_left; (try clear_value x); (intro _; skip); rotate_right; subst x) | subst x)
    | with_reducible assumption | with_reducible apply Keeps.foldl | with_reducible apply Keeps.foldlFst
    | (intro _; skip) | split
    | (dsimp only; skip)
    | with_reducible refine Keeps.pair (by assumption) ?_
    | (with_reducible refine Keeps.lit rfl rfl ?_; first | with_reducible assumption | with_reducible apply Keeps.foldl | with_reducible apply Keeps.foldlFst | with_reducible refine Keeps.pair (by assumption) ?_ | (split; skip))

theorem State.runAheadLoad_keeps {ps : Part → Prop} {a1 : Nat} {s0 s : State} (h7 : ps (.regs 7)) (h_tly : ps .tly) (h : Keeps ps s0 s) : Keeps ps s0 (State.runAheadLoad s a1) := by
  unfold State.runAheadLoad
  repeat' first
    | (extract_lets +onlyGivenNames x; first | (with_reducible refine Keeps.cut (x := x) ?_ ?_; rotate_left; (try clear_value x); (intro _; skip); rotate_right; subst x) | subst x)
    | with_reducible assumption | exact h7 | with_reducible apply State.raFrame_keeps | with_reducible apply State.addFrame_keeps
    | (intro _; skip) | split
    | (dsimp only; skip)
    | with_reducible refine Keeps.pair (by assumption) ?_
    | (with_reducible refine Keeps.lit rfl rfl ?_; first | with_reducible assumption | exact h7 | with_reducible apply State.raFrame_keeps | with_reducible apply State.addFrame_keeps | with_reducible refine Keeps.pair (by assumption) ?_ | (split; skip))

theorem State.runAhead_keeps {ps : Part → Prop} {a1 a2 a3 : Nat} {s0 s : State} (h7 : ps (.regs 7)) (h_tly : ps .tly) (h : Keeps ps s0 s) : Keeps ps s0 (State.runAhead s a1 a2 a3) := by
  unfold State.runAhead
  repeat' first
    | (extract_lets +onlyGivenNames x; first | (with_reducible refine Keeps.cut (x := x) ?_ ?_; rotate_left; (try clear_value x); (intro _; skip); rotate_right; subst x) | subst x)
    | with_reducible assumption | exact h7 | with_reducible apply State.noteStream_keeps | with_reducible apply State.runAheadLoad_keeps | with_reducible apply Keeps.foldl | with_reducible apply Keeps.foldlFst
    | (intro _; skip) | split
    | (dsimp only; skip)
    | with_reducible refine Keeps.pair (by assumption) ?_
    | (with_reducible refine Keeps.lit rfl rfl ?_; first | with_reducible assumption | exact h7 | with_reducible apply State.noteStream_keeps | with_reducible apply State.runAheadLoad_keeps | with_reducible apply Keeps.foldl | with_reducible apply Keeps.foldlFst | with_reducible refine Keeps.pair (by assumption) ?_ | (split; skip))

theorem State.noteRead_keeps {ps : Part → Prop} {a1 : Nat} {a2 : Cmd} {s0 s : State} (h7 : ps (.regs 7)) (h_qqp : ps .qqp) (h_tly : ps .tly) (h : Keeps ps s0 s) : Keeps ps s0 (State.noteRead s a1 a2) := by
  unfold State.noteRead
  repeat' first
    | with_reducible assumption | exact h7 | with_reducible apply State.runAhead_keeps | with_reducible apply State.updCmd_keeps
    | (intro _; skip) | split
    | (dsimp only; skip)
    | (with_reducible refine Keeps.lit rfl rfl ?_; first | with_reducible assumption | exact h7 | with_reducible apply State.runAhead_keeps | with_reducible apply State.updCmd_keeps | (split; skip))

theorem execTranslationRequest_keeps {ps : Part → Prop} {s : State} {a1 a2 : Nat} (h6 : ps (.regs 6)) (h7 : ps (.regs 7)) (h17 : ps (.regs 17)) (h_dck : ps .dck) (h_evt : ps .evt) (h_fresh : ps .fresh) (h_out : ps .out) (h_pci : ps .pci) (h_qqp : ps .qqp) (h_tly : ps .tly) : ∀ r, (execTranslationRequest a1 a2 s) = .next r → Keeps ps s r := by
  intro r e
  cases e
  have h := Keeps.refl (ps := ps) s
  repeat' first
    | (extract_lets +onlyGivenNames x; first | (with_reducible refine Keeps.cut (x := x) ?_ ?_; rotate_left; (try clear_value x); (intro _; skip); rotate_right; subst x) | subst x)
    | with_reducible assumption | exact h6 | exact h7 | exact h17 | with_reducible apply State.when_keeps | with_reducible apply State.ioEnter_keeps | with_reducible apply State.pinNext_keeps | with_reducible apply State.noteRead_keeps
    | (intro _; skip) | split
    | (dsimp only; skip)
    | with_reducible refine Keeps.pair (by assumption) ?_
    | (with_reducible refine Keeps.lit rfl rfl ?_; first | with_reducible assumption | exact h6 | exact h7 | exact h17 | with_reducible apply State.when_keeps | with_reducible apply State.ioEnter_keeps | with_reducible apply State.pinNext_keeps | with_reducible apply State.noteRead_keeps | with_reducible refine Keeps.pair (by assumption) ?_ | (split; skip))

theorem State.toHost_keeps {ps : Part → Prop} {a1 : Nat} {a2 : Cmd} {a3 a4 a5 : Nat} {s0 s : State} (h17 : ps (.regs 17)) (h_evt : ps .evt) (h_out : ps .out) (h_pci : ps .pci) (h : Keeps ps s0 s) : Keeps ps s0 (State.toHost s a1 a2 a3 a4 a5).1 := by
  unfold State.toHost
  repeat' first
    | (extract_lets +onlyGivenNames x; first | (with_reducible refine Keeps.cut (x := x) ?_ ?_; rotate_left; (try clear_value x); (intro _; skip); rotate_right; subst x) | subst x)
    | with_reducible assumption | exact h17 | with_reducible apply State.post_keeps
    | (intro _; skip) | split
    | (dsimp only; skip)
    | with_reducible refine Keeps.pair (by assumption) ?_
    | (with_reducible refine Keeps.lit rfl rfl ?_; first | with_reducible assumption | exact h17 | with_reducible apply State.post_keeps | with_reducible refine Keeps.pair (by assumption) ?_ | (split; skip))

theorem State.hostStop_keeps {ps : Part → Prop} {a1 a2 : Nat} {a3 : Cmd} {a4 : Nat} {s0 s : State} (h6 : ps (.regs 6)) (h8 : ps (.regs 8)) (h17 : ps (.regs 17)) (h_dck : ps .dck) (h_evt : ps .evt) (h_out : ps .out) (h_pci : ps .pci) (h_qqp : ps .qqp) (h : Keeps ps s0 s) : Keeps ps s0 (State.hostStop s a1 a2 a3 a4) := by
  unfold State.hostStop
  repeat' first
    | (extract_lets +onlyGivenNames x; first | (with_reducible refine Keeps.cut (x := x) ?_ ?_; rotate_left; (try clear_value x); (intro _; skip); rotate_right; subst x) | subst x)
    | with_reducible assumption | exact h6 | exact h8 | exact h17 | with_reducible apply State.post_keeps | with_reducible apply State.bump_keeps | with_reducible apply State.segEnd_keeps
    | (intro _; skip) | split
    | (dsimp only; skip)

theorem State.moved_keeps {ps : Part → Prop} {a1 a2 a3 : Nat} {s0 s : State} (h8 : ps (.regs 8)) (h : Keeps ps s0 s) : Keeps ps s0 (State.moved s a1 a2 a3) := by
  unfold State.moved
  repeat' first
    | with_reducible assumption | exact h8 | with_reducible apply State.bump_keeps
    | (intro _; skip) | split
    | (dsimp only; skip)

theorem State.readStep_keeps {ps : Part → Prop} {a1 a2 a3 : Nat} {s0 s : State} (h6 : ps (.regs 6)) (h7 : ps (.regs 7)) (h8 : ps (.regs 8)) (h17 : ps (.regs 17)) (h_dck : ps .dck) (h_evt : ps .evt) (h_fresh : ps .fresh) (h_med : ps .med) (h_noc : ps .noc) (h_out : ps .out) (h_pci : ps .pci) (h_qqp : ps .qqp) (h_tly : ps .tly) (h : Keeps ps s0 s) : Keeps ps s0 (State.readStep s a1 a2 a3) := by
  unfold State.readStep
  repeat' first
    | (extract_lets +onlyGivenNames x; first | (with_reducible refine Keeps.cut (x := x) ?_ ?_; rotate_left; (try clear_value x); (intro _; skip); rotate_right; subst x) | subst x)
    | with_reducible assumption | exact h6 | exact h7 | exact h8 | exact h17 | with_reducible apply State.ioEnter_keeps | with_reducible apply State.noteRead_keeps | with_reducible apply State.pinNext_keeps | with_reducible apply State.hostStop_keeps | with_reducible apply State.askSectors_keeps | with_reducible apply State.skidReads_keeps | with_reducible apply State.toHost_keeps | with_reducible apply State.bump_keeps | with_reducible apply State.segEnd_keeps | with_reducible apply State.updCmd_keeps | with_reducible apply State.moved_keeps
    | (intro _; skip) | split
    | (dsimp only; skip)
    | with_reducible refine Keeps.pair (by assumption) ?_
    | (with_reducible refine Keeps.lit rfl rfl ?_; first | with_reducible assumption | exact h6 | exact h7 | exact h8 | exact h17 | with_reducible apply State.ioEnter_keeps | with_reducible apply State.noteRead_keeps | with_reducible apply State.pinNext_keeps | with_reducible apply State.hostStop_keeps | with_reducible apply State.askSectors_keeps | with_reducible apply State.skidReads_keeps | with_reducible apply State.toHost_keeps | with_reducible apply State.bump_keeps | with_reducible apply State.segEnd_keeps | with_reducible apply State.updCmd_keeps | with_reducible apply State.moved_keeps | with_reducible refine Keeps.pair (by assumption) ?_ | (split; skip))

theorem execRead_keeps {ps : Part → Prop} {s : State} {a1 a2 : Nat} (h6 : ps (.regs 6)) (h7 : ps (.regs 7)) (h8 : ps (.regs 8)) (h17 : ps (.regs 17)) (h_dck : ps .dck) (h_evt : ps .evt) (h_fresh : ps .fresh) (h_med : ps .med) (h_noc : ps .noc) (h_out : ps .out) (h_pci : ps .pci) (h_qqp : ps .qqp) (h_tly : ps .tly) : ∀ r, (execRead a1 a2 s) = .next r → Keeps ps s r := by
  intro r e
  cases e
  have h := Keeps.refl (ps := ps) s
  repeat' first
    | with_reducible assumption | exact h6 | exact h7 | exact h8 | exact h17 | with_reducible apply State.when_keeps | with_reducible apply State.readStep_keeps
    | (intro _; skip) | split
    | (dsimp only; skip)

theorem execVerify_keeps {ps : Part → Prop} {s : State} {a1 a2 : Nat} (h6 : ps (.regs 6)) (h7 : ps (.regs 7)) (h8 : ps (.regs 8)) (h17 : ps (.regs 17)) (h_dck : ps .dck) (h_evt : ps .evt) (h_fresh : ps .fresh) (h_med : ps .med) (h_noc : ps .noc) (h_out : ps .out) (h_pci : ps .pci) (h_qqp : ps .qqp) (h_tly : ps .tly) : ∀ r, (execVerify a1 a2 s) = .next r → Keeps ps s r := by
  intro r e
  cases e
  have h := Keeps.refl (ps := ps) s
  repeat' first
    | with_reducible assumption | exact h6 | exact h7 | exact h8 | exact h17 | with_reducible apply State.when_keeps | with_reducible apply State.readStep_keeps
    | (intro _; skip) | split
    | (dsimp only; skip)

theorem State.commit_keeps {ps : Part → Prop} {a1 : Nat} {a2 : Cmd} {a3 a4 a5 : Nat} {a6 : List Blk} {s0 s : State} (h11 : ps (.regs 11)) (h12 : ps (.regs 12)) (h17 : ps (.regs 17)) (h20 : ps (.regs 20)) (h_cry : ps .cry) (h_evt : ps .evt) (h_fresh : ps .fresh) (h_gens : ps .gens) (h_hbm : ps .hbm) (h_lve : ps .lve) (h_out : ps .out) (h_pci : ps .pci) (h_qqp : ps .qqp) (h_tly : ps .tly) (h : Keeps ps s0 s) : Keeps ps s0 (State.commit s a1 a2 a3 a4 a5 a6) := by
  unfold State.commit
  repeat' first
    | (extract_lets +onlyGivenNames x; first | (with_reducible refine Keeps.cut (x := x) ?_ ?_; rotate_left; (try clear_value x); (intro _; skip); rotate_right; subst x) | subst x)
    | with_reducible assumption | exact h11 | exact h12 | exact h17 | exact h20 | with_reducible apply State.sealBuf_keeps | with_reducible apply State.updCmd_keeps | with_reducible apply State.mirrorLine_keeps
    | (intro _; skip) | split
    | (dsimp only; skip)
    | (with_reducible refine Keeps.lit rfl rfl ?_; first | with_reducible assumption | exact h11 | exact h12 | exact h17 | exact h20 | with_reducible apply State.sealBuf_keeps | with_reducible apply State.updCmd_keeps | with_reducible apply State.mirrorLine_keeps | (split; skip))

theorem State.skidCommit_keeps {ps : Part → Prop} {a1 a2 : Nat} {a3 : Cmd} {a4 a5 a6 : Nat} {a7 : List Blk} {s0 s : State} (h11 : ps (.regs 11)) (h12 : ps (.regs 12)) (h17 : ps (.regs 17)) (h20 : ps (.regs 20)) (h_cry : ps .cry) (h_evt : ps .evt) (h_fresh : ps .fresh) (h_gens : ps .gens) (h_hbm : ps .hbm) (h_lve : ps .lve) (h_noc : ps .noc) (h_out : ps .out) (h_pci : ps .pci) (h_qqp : ps .qqp) (h_tly : ps .tly) (h : Keeps ps s0 s) : Keeps ps s0 (State.skidCommit s a1 a2 a3 a4 a5 a6 a7) := by
  unfold State.skidCommit
  repeat' first
    | (extract_lets +onlyGivenNames x; first | (with_reducible refine Keeps.cut (x := x) ?_ ?_; rotate_left; (try clear_value x); (intro _; skip); rotate_right; subst x) | subst x)
    | with_reducible assumption | exact h11 | exact h12 | exact h17 | exact h20 | with_reducible apply State.commit_keeps | with_reducible apply State.skidReqs_keeps
    | (intro _; skip) | split
    | (dsimp only; skip)
    | (with_reducible refine Keeps.lit rfl rfl ?_; first | with_reducible assumption | exact h11 | exact h12 | exact h17 | exact h20 | with_reducible apply State.commit_keeps | with_reducible apply State.skidReqs_keeps | (split; skip))

theorem State.markBuffered_keeps {ps : Part → Prop} {a1 : Nat} {s0 s : State} (h_qqp : ps .qqp) (h : Keeps ps s0 s) : Keeps ps s0 (State.markBuffered s a1) := by
  unfold State.markBuffered
  repeat' first
    | with_reducible assumption | with_reducible apply State.updCmd_keeps
    | (intro _; skip) | split
    | (dsimp only; skip)
    | (with_reducible refine Keeps.lit rfl rfl ?_; first | with_reducible assumption | with_reducible apply State.updCmd_keeps | (split; skip))

theorem State.writeStep_keeps {ps : Part → Prop} {a1 a2 a3 : Nat} {s0 s : State} (h6 : ps (.regs 6)) (h8 : ps (.regs 8)) (h11 : ps (.regs 11)) (h12 : ps (.regs 12)) (h17 : ps (.regs 17)) (h20 : ps (.regs 20)) (h_cry : ps .cry) (h_dck : ps .dck) (h_evt : ps .evt) (h_fresh : ps .fresh) (h_gens : ps .gens) (h_hbm : ps .hbm) (h_lve : ps .lve) (h_noc : ps .noc) (h_out : ps .out) (h_pci : ps .pci) (h_qqp : ps .qqp) (h_tly : ps .tly) (h : Keeps ps s0 s) : Keeps ps s0 (State.writeStep s a1 a2 a3) := by
  unfold State.writeStep
  repeat' first
    | (extract_lets +onlyGivenNames x; first | (with_reducible refine Keeps.cut (x := x) ?_ ?_; rotate_left; (try clear_value x); (intro _; skip); rotate_right; subst x) | subst x)
    | with_reducible assumption | exact h6 | exact h8 | exact h11 | exact h12 | exact h17 | exact h20 | with_reducible apply State.ioEnter_keeps | with_reducible apply State.skidCommit_keeps | with_reducible apply State.updCmd_keeps | with_reducible apply State.moved_keeps | with_reducible apply State.markBuffered_keeps | with_reducible apply State.hostStop_keeps | with_reducible apply State.segEnd_keeps
    | (intro _; skip) | split
    | (dsimp only; skip)
    | with_reducible refine Keeps.pair (by assumption) ?_
    | (with_reducible refine Keeps.lit rfl rfl ?_; first | with_reducible assumption | exact h6 | exact h8 | exact h11 | exact h12 | exact h17 | exact h20 | with_reducible apply State.ioEnter_keeps | with_reducible apply State.skidCommit_keeps | with_reducible apply State.updCmd_keeps | with_reducible apply State.moved_keeps | with_reducible apply State.markBuffered_keeps | with_reducible apply State.hostStop_keeps | with_reducible apply State.segEnd_keeps | with_reducible refine Keeps.pair (by assumption) ?_ | (split; skip))

theorem execWrite_keeps {ps : Part → Prop} {s : State} {a1 a2 : Nat} (h6 : ps (.regs 6)) (h8 : ps (.regs 8)) (h11 : ps (.regs 11)) (h12 : ps (.regs 12)) (h17 : ps (.regs 17)) (h20 : ps (.regs 20)) (h_cry : ps .cry) (h_dck : ps .dck) (h_evt : ps .evt) (h_fresh : ps .fresh) (h_gens : ps .gens) (h_hbm : ps .hbm) (h_lve : ps .lve) (h_noc : ps .noc) (h_out : ps .out) (h_pci : ps .pci) (h_qqp : ps .qqp) (h_tly : ps .tly) : ∀ r, (execWrite a1 a2 s) = .next r → Keeps ps s r := by
  intro r e
  cases e
  have h := Keeps.refl (ps := ps) s
  repeat' first
    | with_reducible assumption | exact h6 | exact h8 | exact h11 | exact h12 | exact h17 | exact h20 | with_reducible apply State.when_keeps | with_reducible apply State.writeStep_keeps
    | (intro _; skip) | split
    | (dsimp only; skip)

theorem execAtomicWrite_keeps {ps : Part → Prop} {s : State} {a1 a2 : Nat} (h6 : ps (.regs 6)) (h8 : ps (.regs 8)) (h11 : ps (.regs 11)) (h12 : ps (.regs 12)) (h17 : ps (.regs 17)) (h20 : ps (.regs 20)) (h_cry : ps .cry) (h_dck : ps .dck) (h_evt : ps .evt) (h_fresh : ps .fresh) (h_gens : ps .gens) (h_hbm : ps .hbm) (h_lve : ps .lve) (h_noc : ps .noc) (h_out : ps .out) (h_pci : ps .pci) (h_qqp : ps .qqp) (h_tly : ps .tly) : ∀ r, (execAtomicWrite a1 a2 s) = .next r → Keeps ps s r := by
  intro r e
  cases e
  have h := Keeps.refl (ps := ps) s
  repeat' first
    | with_reducible assumption | exact h6 | exact h8 | exact h11 | exact h12 | exact h17 | exact h20 | with_reducible apply State.when_keeps | with_reducible apply State.writeStep_keeps
    | (intro _; skip) | split
    | (dsimp only; skip)

theorem State.copyStep_keeps {ps : Part → Prop} {a1 a2 : Nat} {s0 s : State} (h6 : ps (.regs 6)) (h7 : ps (.regs 7)) (h8 : ps (.regs 8)) (h11 : ps (.regs 11)) (h12 : ps (.regs 12)) (h17 : ps (.regs 17)) (h20 : ps (.regs 20)) (h_cry : ps .cry) (h_dck : ps .dck) (h_evt : ps .evt) (h_fresh : ps .fresh) (h_gens : ps .gens) (h_hbm : ps .hbm) (h_lve : ps .lve) (h_med : ps .med) (h_noc : ps .noc) (h_out : ps .out) (h_pci : ps .pci) (h_qqp : ps .qqp) (h_tly : ps .tly) (h : Keeps ps s0 s) : Keeps ps s0 (State.copyStep s a1 a2) := by
  unfold State.copyStep
  repeat' first
    | (extract_lets +onlyGivenNames x; first | (with_reducible refine Keeps.cut (x := x) ?_ ?_; rotate_left; (try clear_value x); (intro _; skip); rotate_right; subst x) | subst x)
    | with_reducible assumption | exact h6 | exact h7 | exact h8 | exact h11 | exact h12 | exact h17 | exact h20 | with_reducible apply State.ioEnter_keeps | with_reducible apply State.pinNext_keeps | with_reducible apply State.askSectors_keeps | with_reducible apply State.skidReads_keeps | with_reducible apply State.skidCommit_keeps | with_reducible apply State.updCmd_keeps | with_reducible apply State.moved_keeps | with_reducible apply State.markBuffered_keeps | with_reducible apply State.segEnd_keeps
    | (intro _; skip) | split
    | (dsimp only; skip)
    | with_reducible refine Keeps.pair (by assumption) ?_
    | (with_reducible refine Keeps.lit rfl rfl ?_; first | with_reducible assumption | exact h6 | exact h7 | exact h8 | exact h11 | exact h12 | exact h17 | exact h20 | with_reducible apply State.ioEnter_keeps | with_reducible apply State.pinNext_keeps | with_reducible apply State.askSectors_keeps | with_reducible apply State.skidReads_keeps | with_reducible apply State.skidCommit_keeps | with_reducible apply State.updCmd_keeps | with_reducible apply State.moved_keeps | with_reducible apply State.markBuffered_keeps | with_reducible apply State.segEnd_keeps | with_reducible refine Keeps.pair (by assumption) ?_ | (split; skip))

theorem execCopy_keeps {ps : Part → Prop} {s : State} {a1 a2 : Nat} (h6 : ps (.regs 6)) (h7 : ps (.regs 7)) (h8 : ps (.regs 8)) (h11 : ps (.regs 11)) (h12 : ps (.regs 12)) (h17 : ps (.regs 17)) (h20 : ps (.regs 20)) (h_cry : ps .cry) (h_dck : ps .dck) (h_evt : ps .evt) (h_fresh : ps .fresh) (h_gens : ps .gens) (h_hbm : ps .hbm) (h_lve : ps .lve) (h_med : ps .med) (h_noc : ps .noc) (h_out : ps .out) (h_pci : ps .pci) (h_qqp : ps .qqp) (h_tly : ps .tly) : ∀ r, (execCopy a1 a2 s) = .next r → Keeps ps s r := by
  intro r e
  cases e
  have h := Keeps.refl (ps := ps) s
  repeat' first
    | with_reducible assumption | exact h6 | exact h7 | exact h8 | exact h11 | exact h12 | exact h17 | exact h20 | with_reducible apply State.when_keeps | with_reducible apply State.copyStep_keeps
    | (intro _; skip) | split
    | (dsimp only; skip)

theorem execFlush_keeps {ps : Part → Prop} {s : State} {a1 : Nat} (h6 : ps (.regs 6)) (h17 : ps (.regs 17)) (h_dck : ps .dck) (h_evt : ps .evt) (h_out : ps .out) (h_pci : ps .pci) (h_qqp : ps .qqp) : ∀ r, (execFlush a1 s) = .next r → Keeps ps s r := by
  intro r e
  cases e
  have h := Keeps.refl (ps := ps) s
  repeat' first
    | (extract_lets +onlyGivenNames x; first | (with_reducible refine Keeps.cut (x := x) ?_ ?_; rotate_left; (try clear_value x); (intro _; skip); rotate_right; subst x) | subst x)
    | with_reducible assumption | exact h6 | exact h17 | with_reducible apply State.ioEnter_keeps | with_reducible apply State.when_keeps | with_reducible apply State.finish_keeps
    | (intro _; skip) | split
    | (dsimp only; skip)
    | with_reducible refine Keeps.pair (by assumption) ?_
    | (with_reducible refine Keeps.lit rfl rfl ?_; first | with_reducible assumption | exact h6 | exact h17 | with_reducible apply State.ioEnter_keeps | with_reducible apply State.when_keeps | with_reducible apply State.finish_keeps | with_reducible refine Keeps.pair (by assumption) ?_ | (split; skip))

theorem State.trimIu_keeps {ps : Part → Prop} {a1 a2 : Nat} {s0 s : State} (h7 : ps (.regs 7)) (h9 : ps (.regs 9)) (h_med : ps .med) (h_tly : ps .tly) (h : Keeps ps s0 s) : Keeps ps s0 (State.trimIu s a1 a2) := by
  unfold State.trimIu
  repeat' first
    | (extract_lets +onlyGivenNames x; first | (with_reducible refine Keeps.cut (x := x) ?_ ?_; rotate_left; (try clear_value x); (intro _; skip); rotate_right; subst x) | subst x)
    | with_reducible assumption | exact h7 | exact h9 | with_reducible apply State.setEntry_keeps | with_reducible apply State.lowerValid_keeps
    | (intro _; skip) | split
    | (dsimp only; skip)

theorem State.wake_keeps {ps : Part → Prop} {a1 : Waiter} {s0 s : State} (h6 : ps (.regs 6)) (h17 : ps (.regs 17)) (h_dck : ps .dck) (h_evt : ps .evt) (h_out : ps .out) (h_pci : ps .pci) (h : Keeps ps s0 s) : Keeps ps s0 (State.wake s a1) := by
  unfold State.wake
  repeat' first
    | with_reducible assumption | exact h6 | exact h17 | with_reducible apply State.wakeTask_keeps
    | (intro _; skip) | split
    | (dsimp only; skip)
    | (with_reducible refine Keeps.lit rfl rfl ?_; first | with_reducible assumption | exact h6 | exact h17 | with_reducible apply State.wakeTask_keeps | (split; skip))

theorem State.slotFreed_keeps {ps : Part → Prop} {s0 s : State} (h6 : ps (.regs 6)) (h17 : ps (.regs 17)) (h_dck : ps .dck) (h_evt : ps .evt) (h_out : ps .out) (h_pci : ps .pci) (h_tly : ps .tly) (h : Keeps ps s0 s) : Keeps ps s0 (State.slotFreed s) := by
  unfold State.slotFreed
  repeat' first
    | with_reducible assumption | exact h6 | exact h17 | with_reducible apply State.wake_keeps
    | (intro _; skip) | split
    | (dsimp only; skip)
    | (with_reducible refine Keeps.lit rfl rfl ?_; first | with_reducible assumption | exact h6 | exact h17 | with_reducible apply State.wake_keeps | (split; skip))

theorem State.cancelLoad_keeps {ps : Part → Prop} {a1 : Nat} {s0 s : State} (h6 : ps (.regs 6)) (h17 : ps (.regs 17)) (h_dck : ps .dck) (h_evt : ps .evt) (h_out : ps .out) (h_pci : ps .pci) (h_tly : ps .tly) (h : Keeps ps s0 s) : Keeps ps s0 (State.cancelLoad s a1) := by
  unfold State.cancelLoad
  repeat' first
    | (extract_lets +onlyGivenNames x; first | (with_reducible refine Keeps.cut (x := x) ?_ ?_; rotate_left; (try clear_value x); (intro _; skip); rotate_right; subst x) | subst x)
    | with_reducible assumption | exact h6 | exact h17 | with_reducible apply State.slotFreed_keeps | with_reducible apply State.wake_keeps | with_reducible apply Keeps.foldl | with_reducible apply Keeps.foldlFst
    | (intro _; skip) | split
    | (dsimp only; skip)
    | (with_reducible refine Keeps.lit rfl rfl ?_; first | with_reducible assumption | exact h6 | exact h17 | with_reducible apply State.slotFreed_keeps | with_reducible apply State.wake_keeps | with_reducible apply Keeps.foldl | with_reducible apply Keeps.foldlFst | (split; skip))

theorem State.freshPage_keeps {ps : Part → Prop} {a1 a2 : Nat} {s0 s : State} (h6 : ps (.regs 6)) (h7 : ps (.regs 7)) (h9 : ps (.regs 9)) (h17 : ps (.regs 17)) (h_dck : ps .dck) (h_evt : ps .evt) (h_med : ps .med) (h_out : ps .out) (h_pci : ps .pci) (h_tly : ps .tly) (h : Keeps ps s0 s) : Keeps ps s0 (State.freshPage s a1 a2) := by
  unfold State.freshPage
  repeat' first
    | (extract_lets +onlyGivenNames x; first | (with_reducible refine Keeps.cut (x := x) ?_ ?_; rotate_left; (try clear_value x); (intro _; skip); rotate_right; subst x) | subst x)
    | with_reducible assumption | exact h6 | exact h7 | exact h9 | exact h17 | with_reducible apply State.dirChanged_keeps | with_reducible apply State.dropEntries_keeps | with_reducible apply State.cancelLoad_keeps | with_reducible apply State.discardPre_keeps | with_reducible apply State.lowerValid_keeps | with_reducible apply Keeps.foldl | with_reducible apply Keeps.foldlFst
    | (intro _; skip) | split
    | (dsimp only; skip)
    | (with_reducible refine Keeps.lit rfl rfl ?_; first | with_reducible assumption | exact h6 | exact h7 | exact h9 | exact h17 | with_reducible apply State.dirChanged_keeps | with_reducible apply State.dropEntries_keeps | with_reducible apply State.cancelLoad_keeps | with_reducible apply State.discardPre_keeps | with_reducible apply State.lowerValid_keeps | with_reducible apply Keeps.foldl | with_reducible apply Keeps.foldlFst | (split; skip))

theorem State.trimRun_keeps {ps : Part → Prop} {a1 a2 a3 a4 a5 : Nat} {s0 s : State} (h6 : ps (.regs 6)) (h7 : ps (.regs 7)) (h9 : ps (.regs 9)) (h11 : ps (.regs 11)) (h17 : ps (.regs 17)) (h20 : ps (.regs 20)) (h_dck : ps .dck) (h_evt : ps .evt) (h_gens : ps .gens) (h_lve : ps .lve) (h_med : ps .med) (h_out : ps .out) (h_pci : ps .pci) (h_qqp : ps .qqp) (h_tly : ps .tly) (h : Keeps ps s0 s) : Keeps ps s0 (State.trimRun s a1 a2 a3 a4 a5).1 := by
  unfold State.trimRun
  repeat' first
    | (extract_lets +onlyGivenNames x; first | (with_reducible refine Keeps.cut (x := x) ?_ ?_; rotate_left; (try clear_value x); (intro _; skip); rotate_right; subst x) | subst x)
    | with_reducible assumption | exact h6 | exact h7 | exact h9 | exact h11 | exact h17 | exact h20 | with_reducible apply State.needPage_keeps | with_reducible apply State.trimIu_keeps | with_reducible apply State.freshPage_keeps | with_reducible apply State.journal_keeps | with_reducible apply State.lowerValid_keeps | with_reducible apply State.ckptCheck_keeps | with_reducible apply State.trimLines_keeps | with_reducible apply Keeps.foldl | with_reducible apply Keeps.foldlFst
    | (intro _; skip) | split
    | (dsimp only; skip)
    | with_reducible refine Keeps.pair (by assumption) ?_
    | (with_reducible refine Keeps.lit rfl rfl ?_; first | with_reducible assumption | exact h6 | exact h7 | exact h9 | exact h11 | exact h17 | exact h20 | with_reducible apply State.needPage_keeps | with_reducible apply State.trimIu_keeps | with_reducible apply State.freshPage_keeps | with_reducible apply State.journal_keeps | with_reducible apply State.lowerValid_keeps | with_reducible apply State.ckptCheck_keeps | with_reducible apply State.trimLines_keeps | with_reducible apply Keeps.foldl | with_reducible apply Keeps.foldlFst | with_reducible refine Keeps.pair (by assumption) ?_ | (split; skip))

theorem execTrim_keeps {ps : Part → Prop} {s : State} {a1 : Nat} (h6 : ps (.regs 6)) (h7 : ps (.regs 7)) (h9 : ps (.regs 9)) (h11 : ps (.regs 11)) (h17 : ps (.regs 17)) (h20 : ps (.regs 20)) (h_dck : ps .dck) (h_evt : ps .evt) (h_gens : ps .gens) (h_lve : ps .lve) (h_med : ps .med) (h_out : ps .out) (h_pci : ps .pci) (h_qqp : ps .qqp) (h_tly : ps .tly) : ∀ r, (execTrim a1 s) = .next r → Keeps ps s r := by
  intro r e
  cases e
  have h := Keeps.refl (ps := ps) s
  repeat' first
    | (extract_lets +onlyGivenNames x; first | (with_reducible refine Keeps.cut (x := x) ?_ ?_; rotate_left; (try clear_value x); (intro _; skip); rotate_right; subst x) | subst x)
    | with_reducible assumption | exact h6 | exact h7 | exact h9 | exact h11 | exact h17 | exact h20 | with_reducible apply State.ioEnter_keeps | with_reducible apply State.when_keeps | with_reducible apply State.trimRun_keeps | with_reducible apply State.finish_keeps | with_reducible apply State.updCmd_keeps
    | (intro _; skip) | split
    | (dsimp only; skip)
    | with_reducible refine Keeps.pair (by assumption) ?_
    | (with_reducible refine Keeps.lit rfl rfl ?_; first | with_reducible assumption | exact h6 | exact h7 | exact h9 | exact h11 | exact h17 | exact h20 | with_reducible apply State.ioEnter_keeps | with_reducible apply State.when_keeps | with_reducible apply State.trimRun_keeps | with_reducible apply State.finish_keeps | with_reducible apply State.updCmd_keeps | with_reducible refine Keeps.pair (by assumption) ?_ | (split; skip))

theorem execWriteZeroes_keeps {ps : Part → Prop} {s : State} {a1 : Nat} (h6 : ps (.regs 6)) (h7 : ps (.regs 7)) (h9 : ps (.regs 9)) (h11 : ps (.regs 11)) (h12 : ps (.regs 12)) (h17 : ps (.regs 17)) (h20 : ps (.regs 20)) (h_cry : ps .cry) (h_dck : ps .dck) (h_evt : ps .evt) (h_fresh : ps .fresh) (h_gens : ps .gens) (h_hbm : ps .hbm) (h_lve : ps .lve) (h_med : ps .med) (h_out : ps .out) (h_pci : ps .pci) (h_qqp : ps .qqp) (h_tly : ps .tly) : ∀ r, (execWriteZeroes a1 s) = .next r → Keeps ps s r := by
  intro r e
  cases e
  have h := Keeps.refl (ps := ps) s
  repeat' first
    | (extract_lets +onlyGivenNames x; first | (with_reducible refine Keeps.cut (x := x) ?_ ?_; rotate_left; (try clear_value x); (intro _; skip); rotate_right; subst x) | subst x)
    | with_reducible assumption | exact h6 | exact h7 | exact h9 | exact h11 | exact h12 | exact h17 | exact h20 | with_reducible apply State.ioEnter_keeps | with_reducible apply State.when_keeps | with_reducible apply State.trimRun_keeps | with_reducible apply State.commit_keeps | with_reducible apply State.updCmd_keeps | with_reducible apply Keeps.foldl | with_reducible apply Keeps.foldlFst
    | (intro _; skip) | split
    | (dsimp only; skip)
    | with_reducible refine Keeps.pair (by assumption) ?_
    | (with_reducible refine Keeps.lit rfl rfl ?_; first | with_reducible assumption | exact h6 | exact h7 | exact h9 | exact h11 | exact h12 | exact h17 | exact h20 | with_reducible apply State.ioEnter_keeps | with_reducible apply State.when_keeps | with_reducible apply State.trimRun_keeps | with_reducible apply State.commit_keeps | with_reducible apply State.updCmd_keeps | with_reducible apply Keeps.foldl | with_reducible apply Keeps.foldlFst | with_reducible refine Keeps.pair (by assumption) ?_ | (split; skip))

end Sys2Proof.Machine
end

