-- ==== Sys2Proof/Laws/Operands.lean ====
section
/-! SUPPORT. What each operation and each meaning of Machine/Operands.lean keeps (Keeps): one lemma a definition. -/

-- The package as one text is checked in one process: its proofs are checked one after another, and its linters keep quiet.
set_option Elab.async false
set_option linter.all false

namespace Sys2Proof.Machine
open Sys2Proof

theorem State.writeGate_keeps {ps : Part → Prop} {a1 : Req} {a2 a3 a4 : Nat} {a5 : State → State} {s0 s : State} (h17 : ps (.regs 17)) (h_evt : ps .evt) (h_out : ps .out) (h_pci : ps .pci) (hf : Keeps ps s0 s → Keeps ps s0 (a5 s)) (h : Keeps ps s0 s) : Keeps ps s0 (State.writeGate s a1 a2 a3 a4 a5) := by
  unfold State.writeGate
  repeat' first
    | with_reducible assumption | exact h17 | with_reducible apply State.post_keeps | with_reducible apply hf
    | (intro _; skip) | split
    | (dsimp only; skip)
    | (with_reducible refine Keeps.lit rfl rfl ?_; first | with_reducible assumption | exact h17 | with_reducible apply State.post_keeps | with_reducible apply hf | (split; skip))

theorem State.byReq_keeps {ps : Part → Prop} {a1 : Req} {a2 : Nat} {a3 : State → State} {s0 s : State} (h17 : ps (.regs 17)) (h_evt : ps .evt) (h_out : ps .out) (h_pci : ps .pci) (hf : Keeps ps s0 s → Keeps ps s0 (a3 s)) (h : Keeps ps s0 s) : Keeps ps s0 (State.byReq s a1 a2 a3) := by
  unfold State.byReq
  repeat' first
    | with_reducible assumption | exact h17 | with_reducible apply State.writeGate_keeps | with_reducible apply hf
    | (intro _; skip) | split
    | (dsimp only; skip)

end Sys2Proof.Machine
end

