-- ==== Sys2Proof/Laws/Tally.lean ====
section
/-! SUPPORT. What each operation and each meaning of Machine/Tally.lean keeps (Keeps): one lemma a definition. -/

-- The package as one text is checked in one process: its proofs are checked one after another, and its linters keep quiet.
set_option Elab.async false
set_option linter.all false

namespace Sys2Proof.Machine
open Sys2Proof

theorem execDestage_keeps {ps : Part → Prop} {s : State} (h6 : ps (.regs 6)) (h17 : ps (.regs 17)) (h_dck : ps .dck) (h_evt : ps .evt) (h_out : ps .out) (h_pci : ps .pci) (h_tly : ps .tly) : ∀ r, (execDestage s) = .next r → Keeps ps s r := by
  intro r e
  cases e
  have h := Keeps.refl (ps := ps) s
  repeat' first
    | (extract_lets +onlyGivenNames x; first | ((first | with_reducible refine Keeps.cut (x := x) ?_ ?_ | with_reducible refine KP.cut (x := x) ?_ ?_); rotate_left; (try clear_value x); (intro _; skip); rotate_right; subst x) | subst x)
    | with_reducible assumption | exact h6 | exact h17 | with_reducible apply State.when_keeps | with_reducible apply State.newTask_keeps | with_reducible apply State.updLine_keeps | with_reducible apply State.spillRefused_keeps
    | (intro _; skip) | split
    | (dsimp only; skip)
    | with_reducible refine KO.get (by assumption) ?_ | with_reducible refine KP.get (by assumption) ?_ | with_reducible refine KP.get2 (by assumption) ?_ | with_reducible apply KO.none' | with_reducible apply KP.none' | with_reducible apply KO.some' | with_reducible apply KP.some' | with_reducible apply KO.bind | with_reducible apply KP.bind | with_reducible apply Keeps.getO
    | (with_reducible refine Keeps.lit rfl rfl ?_; first | with_reducible assumption | exact h6 | exact h17 | with_reducible apply State.when_keeps | with_reducible apply State.newTask_keeps | with_reducible apply State.updLine_keeps | with_reducible apply State.spillRefused_keeps | with_reducible refine KO.get (by assumption) ?_ | with_reducible refine KP.get (by assumption) ?_ | with_reducible refine KP.get2 (by assumption) ?_ | with_reducible apply KO.none' | with_reducible apply KP.none' | with_reducible apply KO.some' | with_reducible apply KP.some' | with_reducible apply KO.bind | with_reducible apply KP.bind | with_reducible apply Keeps.getO | (split; skip))

theorem State.placeLine_keeps {ps : Part → Prop} {a1 : Nat} {s0 s : State} (h6 : ps (.regs 6)) (h7 : ps (.regs 7)) (h11 : ps (.regs 11)) (h17 : ps (.regs 17)) (h20 : ps (.regs 20)) (h_dck : ps .dck) (h_evt : ps .evt) (h_gens : ps .gens) (h_lve : ps .lve) (h_med : ps .med) (h_out : ps .out) (h_pci : ps .pci) (h_qqp : ps .qqp) (h_tly : ps .tly) (h : Keeps ps s0 s) : Keeps ps s0 (State.placeLine s a1) := by
  unfold State.placeLine
  repeat' first
    | (extract_lets +onlyGivenNames x; first | ((first | with_reducible refine Keeps.cut (x := x) ?_ ?_ | with_reducible refine KP.cut (x := x) ?_ ?_); rotate_left; (try clear_value x); (intro _; skip); rotate_right; subst x) | subst x)
    | with_reducible assumption | exact h6 | exact h7 | exact h11 | exact h17 | exact h20 | with_reducible apply State.place_keeps | with_reducible apply State.failCmd_keeps | with_reducible apply State.updLine_keeps | with_reducible apply State.padFor_keeps | with_reducible apply Keeps.foldl | with_reducible apply Keeps.foldlFst
    | (intro _; skip) | split
    | (dsimp only; skip)
    | with_reducible refine KO.get (by assumption) ?_ | with_reducible refine KP.get (by assumption) ?_ | with_reducible refine KP.get2 (by assumption) ?_ | with_reducible apply KO.none' | with_reducible apply KP.none' | with_reducible apply KO.some' | with_reducible apply KP.some' | with_reducible apply KO.bind | with_reducible apply KP.bind | with_reducible apply Keeps.getO
    | (with_reducible refine Keeps.lit rfl rfl ?_; first | with_reducible assumption | exact h6 | exact h7 | exact h11 | exact h17 | exact h20 | with_reducible apply State.place_keeps | with_reducible apply State.failCmd_keeps | with_reducible apply State.updLine_keeps | with_reducible apply State.padFor_keeps | with_reducible apply Keeps.foldl | with_reducible apply Keeps.foldlFst | with_reducible refine KO.get (by assumption) ?_ | with_reducible refine KP.get (by assumption) ?_ | with_reducible refine KP.get2 (by assumption) ?_ | with_reducible apply KO.none' | with_reducible apply KP.none' | with_reducible apply KO.some' | with_reducible apply KP.some' | with_reducible apply KO.bind | with_reducible apply KP.bind | with_reducible apply Keeps.getO | (split; skip))

theorem State.mergeDone_keeps {ps : Part → Prop} {a1 : Nat} {s0 s : State} (h6 : ps (.regs 6)) (h7 : ps (.regs 7)) (h11 : ps (.regs 11)) (h17 : ps (.regs 17)) (h20 : ps (.regs 20)) (h_dck : ps .dck) (h_evt : ps .evt) (h_gens : ps .gens) (h_lve : ps .lve) (h_med : ps .med) (h_out : ps .out) (h_pci : ps .pci) (h_qqp : ps .qqp) (h_tly : ps .tly) (h : Keeps ps s0 s) : Keeps ps s0 (State.mergeDone s a1) := by
  unfold State.mergeDone
  repeat' first
    | (extract_lets +onlyGivenNames x; first | (with_reducible refine Keeps.cut (x := x) ?_ ?_; rotate_left; (try clear_value x); (intro _; skip); rotate_right; subst x) | subst x)
    | with_reducible assumption | exact h6 | exact h7 | exact h11 | exact h17 | exact h20 | with_reducible apply State.placeLine_keeps | with_reducible apply State.updLine_keeps
    | (intro _; skip) | split
    | (dsimp only; skip)
    | (with_reducible refine Keeps.lit rfl rfl ?_; first | with_reducible assumption | exact h6 | exact h7 | exact h11 | exact h17 | exact h20 | with_reducible apply State.placeLine_keeps | with_reducible apply State.updLine_keeps | (split; skip))

theorem State.handOver_keeps {ps : Part → Prop} {a1 a2 : Nat} {s0 s : State} (h6 : ps (.regs 6)) (h7 : ps (.regs 7)) (h11 : ps (.regs 11)) (h17 : ps (.regs 17)) (h20 : ps (.regs 20)) (h_dck : ps .dck) (h_evt : ps .evt) (h_gens : ps .gens) (h_lve : ps .lve) (h_med : ps .med) (h_noc : ps .noc) (h_out : ps .out) (h_pci : ps .pci) (h_qqp : ps .qqp) (h_tly : ps .tly) (h : Keeps ps s0 s) : Keeps ps s0 (State.handOver s a1 a2).1 := by
  unfold State.handOver
  repeat' first
    | (extract_lets +onlyGivenNames x; first | (with_reducible refine Keeps.cut (x := x) ?_ ?_; rotate_left; (try clear_value x); (intro _; skip); rotate_right; subst x) | subst x)
    | with_reducible assumption | exact h6 | exact h7 | exact h11 | exact h17 | exact h20 | with_reducible apply State.needPage_keeps | with_reducible apply State.updLine_keeps | with_reducible apply State.askSectors_keeps | with_reducible apply State.skidReads_keeps | with_reducible apply State.mergeDone_keeps
    | (intro _; skip) | split
    | (dsimp only; skip)
    | with_reducible refine Keeps.pair (by assumption) ?_
    | (with_reducible refine Keeps.lit rfl rfl ?_; first | with_reducible assumption | exact h6 | exact h7 | exact h11 | exact h17 | exact h20 | with_reducible apply State.needPage_keeps | with_reducible apply State.updLine_keeps | with_reducible apply State.askSectors_keeps | with_reducible apply State.skidReads_keeps | with_reducible apply State.mergeDone_keeps | with_reducible refine Keeps.pair (by assumption) ?_ | (split; skip))

theorem State.placePending_keeps {ps : Part → Prop} {s0 s : State} (h6 : ps (.regs 6)) (h7 : ps (.regs 7)) (h11 : ps (.regs 11)) (h17 : ps (.regs 17)) (h20 : ps (.regs 20)) (h_dck : ps .dck) (h_evt : ps .evt) (h_gens : ps .gens) (h_lve : ps .lve) (h_med : ps .med) (h_out : ps .out) (h_pci : ps .pci) (h_qqp : ps .qqp) (h_tly : ps .tly) (h : Keeps ps s0 s) : Keeps ps s0 (State.placePending s) := by
  unfold State.placePending
  repeat' first
    | with_reducible assumption | exact h6 | exact h7 | exact h11 | exact h17 | exact h20 | with_reducible apply State.placeLine_keeps | with_reducible apply Keeps.foldl | with_reducible apply Keeps.foldlFst
    | (intro _; skip) | split
    | (dsimp only; skip)
    | (with_reducible refine Keeps.lit rfl rfl ?_; first | with_reducible assumption | exact h6 | exact h7 | exact h11 | exact h17 | exact h20 | with_reducible apply State.placeLine_keeps | with_reducible apply Keeps.foldl | with_reducible apply Keeps.foldlFst | (split; skip))

theorem State.resumeMerges_keeps {ps : Part → Prop} {s0 s : State} (h6 : ps (.regs 6)) (h7 : ps (.regs 7)) (h11 : ps (.regs 11)) (h17 : ps (.regs 17)) (h20 : ps (.regs 20)) (h_dck : ps .dck) (h_evt : ps .evt) (h_gens : ps .gens) (h_lve : ps .lve) (h_med : ps .med) (h_out : ps .out) (h_pci : ps .pci) (h_qqp : ps .qqp) (h_tly : ps .tly) (h : Keeps ps s0 s) : Keeps ps s0 (State.resumeMerges s) := by
  unfold State.resumeMerges
  repeat' first
    | with_reducible assumption | exact h6 | exact h7 | exact h11 | exact h17 | exact h20 | with_reducible apply State.mergeDone_keeps | with_reducible apply Keeps.foldl | with_reducible apply Keeps.foldlFst
    | (intro _; skip) | split
    | (dsimp only; skip)
    | (with_reducible refine Keeps.lit rfl rfl ?_; first | with_reducible assumption | exact h6 | exact h7 | exact h11 | exact h17 | exact h20 | with_reducible apply State.mergeDone_keeps | with_reducible apply Keeps.foldl | with_reducible apply Keeps.foldlFst | (split; skip))

theorem execPageRowPadTimer_keeps {ps : Part → Prop} {s : State} {a1 : Nat} (h_med : ps .med) : ∀ r, (execPageRowPadTimer a1 s) = .next r → Keeps ps s r := by
  intro r e
  cases e
  have h := Keeps.refl (ps := ps) s
  repeat' first
    | with_reducible assumption | with_reducible apply State.when_keeps | with_reducible apply State.padRow_keeps
    | (intro _; skip) | split
    | (dsimp only; skip)

theorem State.updateEntry_keeps {ps : Part → Prop} {a1 : Nat} {a2 : Line} {a3 : Nat} {s0 s : State} (h7 : ps (.regs 7)) (h9 : ps (.regs 9)) (h_med : ps .med) (h_tly : ps .tly) (h : Keeps ps s0 s) : Keeps ps s0 (State.updateEntry s a1 a2 a3).1 := by
  unfold State.updateEntry
  repeat' first
    | (extract_lets +onlyGivenNames x; first | (with_reducible refine Keeps.cut (x := x) ?_ ?_; rotate_left; (try clear_value x); (intro _; skip); rotate_right; subst x) | subst x)
    | with_reducible assumption | exact h7 | exact h9 | with_reducible apply State.setEntry_keeps | with_reducible apply State.lowerValid_keeps
    | (intro _; skip) | split
    | (dsimp only; skip)
    | with_reducible refine Keeps.pair (by assumption) ?_
    | (with_reducible refine Keeps.lit rfl rfl ?_; first | with_reducible assumption | exact h7 | exact h9 | with_reducible apply State.setEntry_keeps | with_reducible apply State.lowerValid_keeps | with_reducible refine Keeps.pair (by assumption) ?_ | (split; skip))

theorem State.stalePlace_keeps {ps : Part → Prop} {a1 : Nat} {s0 s : State} (h9 : ps (.regs 9)) (h_med : ps .med) (h_tly : ps .tly) (h : Keeps ps s0 s) : Keeps ps s0 (State.stalePlace s a1) := by
  unfold State.stalePlace
  repeat' first
    | with_reducible assumption | exact h9 | with_reducible apply State.lowerValid_keeps | with_reducible apply State.updLine_keeps
    | (intro _; skip) | split
    | (dsimp only; skip)
    | (with_reducible refine Keeps.lit rfl rfl ?_; first | with_reducible assumption | exact h9 | with_reducible apply State.lowerValid_keeps | with_reducible apply State.updLine_keeps | (split; skip))

theorem State.updateLines_keeps {ps : Part → Prop} {a1 : List Nat} {s0 s : State} (h7 : ps (.regs 7)) (h9 : ps (.regs 9)) (h11 : ps (.regs 11)) (h17 : ps (.regs 17)) (h20 : ps (.regs 20)) (h_evt : ps .evt) (h_gens : ps .gens) (h_lve : ps .lve) (h_med : ps .med) (h_out : ps .out) (h_pci : ps .pci) (h_qqp : ps .qqp) (h_tly : ps .tly) (h : Keeps ps s0 s) : Keeps ps s0 (State.updateLines s a1) := by
  unfold State.updateLines
  repeat' first
    | (extract_lets +onlyGivenNames x; first | (with_reducible refine Keeps.cut (x := x) ?_ ?_; rotate_left; (try clear_value x); (intro _; skip); rotate_right; subst x) | subst x)
    | with_reducible assumption | exact h7 | exact h9 | exact h11 | exact h17 | exact h20 | with_reducible apply State.stalePlace_keeps | with_reducible apply State.updateEntry_keeps | with_reducible apply State.countProgrammed_keeps | with_reducible apply State.updLine_keeps | with_reducible apply State.journal_keeps | with_reducible apply State.ckptCheck_keeps | with_reducible apply State.journalMirrored_keeps | with_reducible apply Keeps.foldl | with_reducible apply Keeps.foldlFst
    | (intro _; skip) | split
    | (dsimp only; skip)
    | with_reducible refine Keeps.pair (by assumption) ?_
    | (with_reducible refine Keeps.lit rfl rfl ?_; first | with_reducible assumption | exact h7 | exact h9 | exact h11 | exact h17 | exact h20 | with_reducible apply State.stalePlace_keeps | with_reducible apply State.updateEntry_keeps | with_reducible apply State.countProgrammed_keeps | with_reducible apply State.updLine_keeps | with_reducible apply State.journal_keeps | with_reducible apply State.ckptCheck_keeps | with_reducible apply State.journalMirrored_keeps | with_reducible apply Keeps.foldl | with_reducible apply Keeps.foldlFst | with_reducible refine Keeps.pair (by assumption) ?_ | (split; skip))

theorem State.eraseRefuge_keeps {ps : Part → Prop} {a1 : Nat → Bool} {s0 s : State} (h9 : ps (.regs 9)) (h_med : ps .med) (h : Keeps ps s0 s) : Keeps ps s0 (State.eraseRefuge s a1) := by
  unfold State.eraseRefuge
  repeat' first
    | (extract_lets +onlyGivenNames x; first | (with_reducible refine Keeps.cut (x := x) ?_ ?_; rotate_left; (try clear_value x); (intro _; skip); rotate_right; subst x) | subst x)
    | with_reducible assumption | exact h9 | with_reducible apply State.eraseCheck_keeps | with_reducible apply State.updStripe_keeps | with_reducible apply Keeps.foldl | with_reducible apply Keeps.foldlFst
    | (intro _; skip) | split
    | (dsimp only; skip)
    | (with_reducible refine Keeps.lit rfl rfl ?_; first | with_reducible assumption | exact h9 | with_reducible apply State.eraseCheck_keeps | with_reducible apply State.updStripe_keeps | with_reducible apply Keeps.foldl | with_reducible apply Keeps.foldlFst | (split; skip))

theorem State.refugeCheck_keeps {ps : Part → Prop} {s0 s : State} (h9 : ps (.regs 9)) (h_med : ps .med) (h : Keeps ps s0 s) : Keeps ps s0 (State.refugeCheck s) := by
  unfold State.refugeCheck
  repeat' first
    | (extract_lets +onlyGivenNames x; first | (with_reducible refine Keeps.cut (x := x) ?_ ?_; rotate_left; (try clear_value x); (intro _; skip); rotate_right; subst x) | subst x)
    | with_reducible assumption | exact h9 | with_reducible apply State.eraseRefuge_keeps
    | (intro _; skip) | split
    | (dsimp only; skip)
    | (with_reducible refine Keeps.lit rfl rfl ?_; first | with_reducible assumption | exact h9 | with_reducible apply State.eraseRefuge_keeps | (split; skip))

theorem State.updateLine_keeps {ps : Part → Prop} {a1 : Nat} {s0 s : State} (h7 : ps (.regs 7)) (h9 : ps (.regs 9)) (h11 : ps (.regs 11)) (h17 : ps (.regs 17)) (h20 : ps (.regs 20)) (h_evt : ps .evt) (h_gens : ps .gens) (h_lve : ps .lve) (h_med : ps .med) (h_out : ps .out) (h_pci : ps .pci) (h_qqp : ps .qqp) (h_tly : ps .tly) (h : Keeps ps s0 s) : Keeps ps s0 (State.updateLine s a1) := by
  unfold State.updateLine
  repeat' first
    | (extract_lets +onlyGivenNames x; first | (with_reducible refine Keeps.cut (x := x) ?_ ?_; rotate_left; (try clear_value x); (intro _; skip); rotate_right; subst x) | subst x)
    | with_reducible assumption | exact h7 | exact h9 | exact h11 | exact h17 | exact h20 | with_reducible apply State.stalePlace_keeps | with_reducible apply State.needPage_keeps | with_reducible apply State.refugeCheck_keeps | with_reducible apply State.updateLines_keeps | with_reducible apply Keeps.foldl | with_reducible apply Keeps.foldlFst
    | (intro _; skip) | split
    | (dsimp only; skip)
    | with_reducible refine Keeps.pair (by assumption) ?_
    | (with_reducible refine Keeps.lit rfl rfl ?_; first | with_reducible assumption | exact h7 | exact h9 | exact h11 | exact h17 | exact h20 | with_reducible apply State.stalePlace_keeps | with_reducible apply State.needPage_keeps | with_reducible apply State.refugeCheck_keeps | with_reducible apply State.updateLines_keeps | with_reducible apply Keeps.foldl | with_reducible apply Keeps.foldlFst | with_reducible refine Keeps.pair (by assumption) ?_ | (split; skip))

theorem State.updateMove_keeps {ps : Part → Prop} {a1 a2 : Nat} {s0 s : State} (h6 : ps (.regs 6)) (h7 : ps (.regs 7)) (h9 : ps (.regs 9)) (h11 : ps (.regs 11)) (h17 : ps (.regs 17)) (h20 : ps (.regs 20)) (h_dck : ps .dck) (h_evt : ps .evt) (h_fresh : ps .fresh) (h_gens : ps .gens) (h_lve : ps .lve) (h_med : ps .med) (h_out : ps .out) (h_pci : ps .pci) (h_qqp : ps .qqp) (h_tly : ps .tly) (h : Keeps ps s0 s) : Keeps ps s0 (State.updateMove s a1 a2) := by
  unfold State.updateMove
  repeat' first
    | (extract_lets +onlyGivenNames x; first | (with_reducible refine Keeps.cut (x := x) ?_ ?_; rotate_left; (try clear_value x); (intro _; skip); rotate_right; subst x) | subst x)
    | with_reducible assumption | exact h6 | exact h7 | exact h9 | exact h11 | exact h17 | exact h20 | with_reducible apply State.needPage_keeps | with_reducible apply State.setEntry_keeps | with_reducible apply State.journal_keeps | with_reducible apply State.relocStep_keeps | with_reducible apply State.ckptCheck_keeps | with_reducible apply State.lowerValid_keeps | with_reducible apply State.journalMirrored_keeps | with_reducible apply State.bump_keeps
    | (intro _; skip) | split
    | (dsimp only; skip)
    | with_reducible refine Keeps.pair (by assumption) ?_
    | (with_reducible refine Keeps.lit rfl rfl ?_; first | with_reducible assumption | exact h6 | exact h7 | exact h9 | exact h11 | exact h17 | exact h20 | with_reducible apply State.needPage_keeps | with_reducible apply State.setEntry_keeps | with_reducible apply State.journal_keeps | with_reducible apply State.relocStep_keeps | with_reducible apply State.ckptCheck_keeps | with_reducible apply State.lowerValid_keeps | with_reducible apply State.journalMirrored_keeps | with_reducible apply State.bump_keeps | with_reducible refine Keeps.pair (by assumption) ?_ | (split; skip))

theorem execMapUpdate_keeps {ps : Part → Prop} {s : State} {a1 : Upd} (h6 : ps (.regs 6)) (h7 : ps (.regs 7)) (h9 : ps (.regs 9)) (h11 : ps (.regs 11)) (h17 : ps (.regs 17)) (h20 : ps (.regs 20)) (h_dck : ps .dck) (h_evt : ps .evt) (h_fresh : ps .fresh) (h_gens : ps .gens) (h_lve : ps .lve) (h_med : ps .med) (h_out : ps .out) (h_pci : ps .pci) (h_qqp : ps .qqp) (h_tly : ps .tly) : ∀ r, (execMapUpdate a1 s) = .next r → Keeps ps s r := by
  intro r e
  cases e
  have h := Keeps.refl (ps := ps) s
  repeat' first
    | with_reducible assumption | exact h6 | exact h7 | exact h9 | exact h11 | exact h17 | exact h20 | with_reducible apply State.when_keeps | with_reducible apply State.updateLine_keeps | with_reducible apply State.updateMove_keeps
    | (intro _; skip) | split
    | (dsimp only; skip)
    | (with_reducible refine Keeps.lit rfl rfl ?_; first | with_reducible assumption | exact h6 | exact h7 | exact h9 | exact h11 | exact h17 | exact h20 | with_reducible apply State.when_keeps | with_reducible apply State.updateLine_keeps | with_reducible apply State.updateMove_keeps | (split; skip))

theorem State.replayNext_keeps {ps : Part → Prop} {s0 s : State} (h7 : ps (.regs 7)) (h17 : ps (.regs 17)) (h_evt : ps .evt) (h_out : ps .out) (h_pci : ps .pci) (h_tly : ps .tly) (h : Keeps ps s0 s) : Keeps ps s0 (State.replayNext s) := by
  unfold State.replayNext
  repeat' first
    | with_reducible assumption | exact h7 | exact h17 | with_reducible apply State.needPage_keeps | with_reducible apply State.bump_keeps
    | (intro _; skip) | split
    | (dsimp only; skip)
    | with_reducible refine Keeps.pair (by assumption) ?_
    | (with_reducible refine Keeps.lit rfl rfl ?_; first | with_reducible assumption | exact h7 | exact h17 | with_reducible apply State.needPage_keeps | with_reducible apply State.bump_keeps | with_reducible refine Keeps.pair (by assumption) ?_ | (split; skip))

theorem State.resume_keeps {ps : Part → Prop} {a1 : Waiter} {s0 s : State} (h6 : ps (.regs 6)) (h7 : ps (.regs 7)) (h9 : ps (.regs 9)) (h11 : ps (.regs 11)) (h17 : ps (.regs 17)) (h20 : ps (.regs 20)) (h_dck : ps .dck) (h_evt : ps .evt) (h_fresh : ps .fresh) (h_gens : ps .gens) (h_lve : ps .lve) (h_med : ps .med) (h_out : ps .out) (h_pci : ps .pci) (h_qqp : ps .qqp) (h_tly : ps .tly) (h : Keeps ps s0 s) : Keeps ps s0 (State.resume s a1) := by
  unfold State.resume
  repeat' first
    | with_reducible assumption | exact h6 | exact h7 | exact h9 | exact h11 | exact h17 | exact h20 | with_reducible apply State.updateLine_keeps | with_reducible apply State.updateMove_keeps | with_reducible apply State.wake_keeps
    | (intro _; skip) | split
    | (dsimp only; skip)
    | (with_reducible refine Keeps.lit rfl rfl ?_; first | with_reducible assumption | exact h6 | exact h7 | exact h9 | exact h11 | exact h17 | exact h20 | with_reducible apply State.updateLine_keeps | with_reducible apply State.updateMove_keeps | with_reducible apply State.wake_keeps | (split; skip))

theorem State.installPage_keeps {ps : Part → Prop} {a1 : Nat} {a2 : Load} {a3 : Option (List Nat)} {s0 s : State} (h6 : ps (.regs 6)) (h7 : ps (.regs 7)) (h9 : ps (.regs 9)) (h11 : ps (.regs 11)) (h17 : ps (.regs 17)) (h20 : ps (.regs 20)) (h_dck : ps .dck) (h_evt : ps .evt) (h_fresh : ps .fresh) (h_gens : ps .gens) (h_lve : ps .lve) (h_med : ps .med) (h_out : ps .out) (h_pci : ps .pci) (h_qqp : ps .qqp) (h_tly : ps .tly) (h : Keeps ps s0 s) : Keeps ps s0 (State.installPage s a1 a2 a3) := by
  unfold State.installPage
  repeat' first
    | (extract_lets +onlyGivenNames x; first | (with_reducible refine Keeps.cut (x := x) ?_ ?_; rotate_left; (try clear_value x); (intro _; skip); rotate_right; subst x) | subst x)
    | with_reducible assumption | exact h6 | exact h7 | exact h9 | exact h11 | exact h17 | exact h20 | with_reducible apply State.updFrame_keeps | with_reducible apply State.post_keeps | with_reducible apply State.replayPage_keeps | with_reducible apply State.raise_keeps | with_reducible apply State.resume_keeps | with_reducible apply State.replayNext_keeps | with_reducible apply State.slotFreed_keeps | with_reducible apply Keeps.foldl | with_reducible apply Keeps.foldlFst
    | (intro _; skip) | split
    | (dsimp only; skip)
    | (with_reducible refine Keeps.lit rfl rfl ?_; first | with_reducible assumption | exact h6 | exact h7 | exact h9 | exact h11 | exact h17 | exact h20 | with_reducible apply State.updFrame_keeps | with_reducible apply State.post_keeps | with_reducible apply State.replayPage_keeps | with_reducible apply State.raise_keeps | with_reducible apply State.resume_keeps | with_reducible apply State.replayNext_keeps | with_reducible apply State.slotFreed_keeps | with_reducible apply Keeps.foldl | with_reducible apply Keeps.foldlFst | (split; skip))

theorem execMapPageInstalled_keeps {ps : Part → Prop} {s : State} {a1 a2 a3 : Nat} (h6 : ps (.regs 6)) (h7 : ps (.regs 7)) (h9 : ps (.regs 9)) (h11 : ps (.regs 11)) (h17 : ps (.regs 17)) (h20 : ps (.regs 20)) (h_dck : ps .dck) (h_evt : ps .evt) (h_fresh : ps .fresh) (h_gens : ps .gens) (h_lve : ps .lve) (h_med : ps .med) (h_out : ps .out) (h_pci : ps .pci) (h_qqp : ps .qqp) (h_tly : ps .tly) : ∀ r, (execMapPageInstalled a1 a2 a3 s) = .next r → Keeps ps s r := by
  intro r e
  cases e
  have h := Keeps.refl (ps := ps) s
  repeat' first
    | (extract_lets +onlyGivenNames x; first | (with_reducible refine Keeps.cut (x := x) ?_ ?_; rotate_left; (try clear_value x); (intro _; skip); rotate_right; subst x) | subst x)
    | with_reducible assumption | exact h6 | exact h7 | exact h9 | exact h11 | exact h17 | exact h20 | with_reducible apply State.when_keeps | with_reducible apply State.installPage_keeps
    | (intro _; skip) | split
    | (dsimp only; skip)
    | (with_reducible refine Keeps.lit rfl rfl ?_; first | with_reducible assumption | exact h6 | exact h7 | exact h9 | exact h11 | exact h17 | exact h20 | with_reducible apply State.when_keeps | with_reducible apply State.installPage_keeps | (split; skip))

theorem State.writtenBack_keeps {ps : Part → Prop} {a1 a2 : Nat} {a3 : Frame} {s0 s : State} (h7 : ps (.regs 7)) (h9 : ps (.regs 9)) (h11 : ps (.regs 11)) (h17 : ps (.regs 17)) (h20 : ps (.regs 20)) (h_evt : ps .evt) (h_gens : ps .gens) (h_lve : ps .lve) (h_med : ps .med) (h_out : ps .out) (h_pci : ps .pci) (h_qqp : ps .qqp) (h_tly : ps .tly) (h : Keeps ps s0 s) : Keeps ps s0 (State.writtenBack s a1 a2 a3) := by
  unfold State.writtenBack
  repeat' first
    | (extract_lets +onlyGivenNames x; first | (with_reducible refine Keeps.cut (x := x) ?_ ?_; rotate_left; (try clear_value x); (intro _; skip); rotate_right; subst x) | subst x)
    | with_reducible assumption | exact h7 | exact h9 | exact h11 | exact h17 | exact h20 | with_reducible apply State.updFrame_keeps | with_reducible apply State.lowerValid_keeps | with_reducible apply State.dirChanged_keeps | with_reducible apply State.bump_keeps | with_reducible apply State.startWb_keeps | with_reducible apply State.journalMirrored_keeps | with_reducible apply State.journal_keeps
    | (intro _; skip) | split
    | (dsimp only; skip)
    | (with_reducible refine Keeps.lit rfl rfl ?_; first | with_reducible assumption | exact h7 | exact h9 | exact h11 | exact h17 | exact h20 | with_reducible apply State.updFrame_keeps | with_reducible apply State.lowerValid_keeps | with_reducible apply State.dirChanged_keeps | with_reducible apply State.bump_keeps | with_reducible apply State.startWb_keeps | with_reducible apply State.journalMirrored_keeps | with_reducible apply State.journal_keeps | (split; skip))

theorem execMapPageWritebackDone_keeps {ps : Part → Prop} {s : State} {a1 a2 : Nat} (h7 : ps (.regs 7)) (h9 : ps (.regs 9)) (h11 : ps (.regs 11)) (h17 : ps (.regs 17)) (h20 : ps (.regs 20)) (h_evt : ps .evt) (h_gens : ps .gens) (h_lve : ps .lve) (h_med : ps .med) (h_out : ps .out) (h_pci : ps .pci) (h_qqp : ps .qqp) (h_tly : ps .tly) : ∀ r, (execMapPageWritebackDone a1 a2 s) = .next r → Keeps ps s r := by
  intro r e
  cases e
  have h := Keeps.refl (ps := ps) s
  repeat' first
    | with_reducible assumption | exact h7 | exact h9 | exact h11 | exact h17 | exact h20 | with_reducible apply State.when_keeps | with_reducible apply State.writtenBack_keeps
    | (intro _; skip) | split
    | (dsimp only; skip)
    | (with_reducible refine Keeps.lit rfl rfl ?_; first | with_reducible assumption | exact h7 | exact h9 | exact h11 | exact h17 | exact h20 | with_reducible apply State.when_keeps | with_reducible apply State.writtenBack_keeps | (split; skip))

theorem execJournalPageTimer_keeps {ps : Part → Prop} {s : State} (h_tly : ps .tly) : ∀ r, (execJournalPageTimer s) = .next r → Keeps ps s r := by
  intro r e
  cases e
  have h := Keeps.refl (ps := ps) s
  repeat' first
    | with_reducible assumption | with_reducible apply State.when_keeps | with_reducible apply State.closeJPage_keeps
    | (intro _; skip) | split
    | (dsimp only; skip)

theorem State.pageProgrammed_keeps {ps : Part → Prop} {a1 : JPage} {a2 : Nat} {s0 s : State} (h11 : ps (.regs 11)) (h17 : ps (.regs 17)) (h20 : ps (.regs 20)) (h_evt : ps .evt) (h_gens : ps .gens) (h_lve : ps .lve) (h_out : ps .out) (h_pci : ps .pci) (h_qqp : ps .qqp) (h_tly : ps .tly) (h : Keeps ps s0 s) : Keeps ps s0 (State.pageProgrammed s a1 a2) := by
  unfold State.pageProgrammed
  repeat' first
    | (extract_lets +onlyGivenNames x; first | (with_reducible refine Keeps.cut (x := x) ?_ ?_; rotate_left; (try clear_value x); (intro _; skip); rotate_right; subst x) | subst x)
    | with_reducible assumption | exact h11 | exact h17 | exact h20 | with_reducible apply State.releaseProgrammed_keeps | with_reducible apply Keeps.foldl | with_reducible apply Keeps.foldlFst
    | (intro _; skip) | split
    | (dsimp only; skip)
    | (with_reducible refine Keeps.lit rfl rfl ?_; first | with_reducible assumption | exact h11 | exact h17 | exact h20 | with_reducible apply State.releaseProgrammed_keeps | with_reducible apply Keeps.foldl | with_reducible apply Keeps.foldlFst | (split; skip))

theorem execJournalPageProgrammed_keeps {ps : Part → Prop} {s : State} {a1 : Nat} (h11 : ps (.regs 11)) (h17 : ps (.regs 17)) (h20 : ps (.regs 20)) (h_evt : ps .evt) (h_gens : ps .gens) (h_lve : ps .lve) (h_out : ps .out) (h_pci : ps .pci) (h_qqp : ps .qqp) (h_tly : ps .tly) : ∀ r, (execJournalPageProgrammed a1 s) = .next r → Keeps ps s r := by
  intro r e
  cases e
  have h := Keeps.refl (ps := ps) s
  repeat' first
    | with_reducible assumption | exact h11 | exact h17 | exact h20 | with_reducible apply State.when_keeps | with_reducible apply State.pageProgrammed_keeps
    | (intro _; skip) | split
    | (dsimp only; skip)
    | (with_reducible refine Keeps.lit rfl rfl ?_; first | with_reducible assumption | exact h11 | exact h17 | exact h20 | with_reducible apply State.when_keeps | with_reducible apply State.pageProgrammed_keeps | (split; skip))

theorem State.ckptGo_keeps {ps : Part → Prop} {a1 : Req} {a2 : Nat} {s0 s : State} (h7 : ps (.regs 7)) (h11 : ps (.regs 11)) (h16 : ps (.regs 16)) (h17 : ps (.regs 17)) (h20 : ps (.regs 20)) (h_evt : ps .evt) (h_gens : ps .gens) (h_lve : ps .lve) (h_out : ps .out) (h_pci : ps .pci) (h_tly : ps .tly) (h : Keeps ps s0 s) : Keeps ps s0 (State.ckptGo s a1 a2) := by
  unfold State.ckptGo
  repeat' first
    | with_reducible assumption | exact h7 | exact h11 | exact h16 | exact h17 | exact h20 | with_reducible apply State.refuseWrite_keeps | with_reducible apply State.ckptStart_keeps
    | (intro _; skip) | split
    | (dsimp only; skip)

theorem execTlyCkptGo_keeps {ps : Part → Prop} {s : State} {a1 : Req} {a2 : Nat} (h7 : ps (.regs 7)) (h11 : ps (.regs 11)) (h16 : ps (.regs 16)) (h17 : ps (.regs 17)) (h20 : ps (.regs 20)) (h_evt : ps .evt) (h_gens : ps .gens) (h_lve : ps .lve) (h_out : ps .out) (h_pci : ps .pci) (h_tly : ps .tly) : ∀ r, (execTlyCkptGo a1 a2 s) = .next r → Keeps ps s r := by
  intro r e
  cases e
  have h := Keeps.refl (ps := ps) s
  repeat' first
    | with_reducible assumption | exact h7 | exact h11 | exact h16 | exact h17 | exact h20 | with_reducible apply State.when_keeps | with_reducible apply State.byReq_keeps | with_reducible apply State.ckptGo_keeps
    | (intro _; skip) | split
    | (dsimp only; skip)

theorem State.freeRecords_keeps {ps : Part → Prop} {s0 s : State} (h7 : ps (.regs 7)) (h9 : ps (.regs 9)) (h17 : ps (.regs 17)) (h_evt : ps .evt) (h_med : ps .med) (h_out : ps .out) (h_pci : ps .pci) (h_tly : ps .tly) (h : Keeps ps s0 s) : Keeps ps s0 (State.freeRecords s) := by
  unfold State.freeRecords
  repeat' first
    | (extract_lets +onlyGivenNames x; first | (with_reducible refine Keeps.cut (x := x) ?_ ?_; rotate_left; (try clear_value x); (intro _; skip); rotate_right; subst x) | subst x)
    | with_reducible assumption | exact h7 | exact h9 | exact h17 | with_reducible apply State.ringCheck_keeps | with_reducible apply State.lowerValid_keeps | with_reducible apply Keeps.foldl | with_reducible apply Keeps.foldlFst
    | (intro _; skip) | split
    | (dsimp only; skip)
    | (with_reducible refine Keeps.lit rfl rfl ?_; first | with_reducible assumption | exact h7 | exact h9 | exact h17 | with_reducible apply State.ringCheck_keeps | with_reducible apply State.lowerValid_keeps | with_reducible apply Keeps.foldl | with_reducible apply Keeps.foldlFst | (split; skip))

theorem State.thawTracts_keeps {ps : Part → Prop} {a1 : Bool} {s0 s : State} (h_tly : ps .tly) (h : Keeps ps s0 s) : Keeps ps s0 (State.thawTracts s a1) := by
  unfold State.thawTracts
  repeat' first
    | with_reducible assumption
    | (intro _; skip) | split
    | (dsimp only; skip)
    | (with_reducible refine Keeps.lit rfl rfl ?_; first | with_reducible assumption | (split; skip))

theorem State.probe_keeps {ps : Part → Prop} {s0 s : State} (h7 : ps (.regs 7)) (h : Keeps ps s0 s) : Keeps ps s0 (State.probe s) := by
  unfold State.probe
  repeat' first
    | (extract_lets +onlyGivenNames x; first | (with_reducible refine Keeps.cut (x := x) ?_ ?_; rotate_left; (try clear_value x); (intro _; skip); rotate_right; subst x) | subst x)
    | with_reducible assumption | exact h7 | with_reducible apply State.put64_keeps | with_reducible apply State.bump_keeps | with_reducible apply State.flag_keeps | with_reducible apply State.put_keeps
    | (intro _; skip) | split
    | (dsimp only; skip)

theorem execTlyProbe_keeps {ps : Part → Prop} {s : State} {a1 : Nat} (h7 : ps (.regs 7)) : ∀ r, (execTlyProbe a1 s) = .next r → Keeps ps s r := by
  intro r e
  cases e
  have h := Keeps.refl (ps := ps) s
  repeat' first
    | with_reducible assumption | exact h7 | with_reducible apply State.when_keeps | with_reducible apply State.probe_keeps | with_reducible apply State.put64_keeps
    | (intro _; skip) | split
    | (dsimp only; skip)

end Sys2Proof.Machine
end

