-- ==== Sys2Proof/Laws/Deck.lean ====
section
/-! SUPPORT. What each operation and each meaning of Machine/Deck.lean keeps (Keeps): one lemma a definition. -/

-- The package as one text is checked in one process: its proofs are checked one after another, and its linters keep quiet.
set_option Elab.async false
set_option linter.all false

namespace Sys2Proof.Machine
open Sys2Proof

theorem State.giveTag_keeps {ps : Part → Prop} {a1 : Nat} {a2 : Task} {s0 s : State} (h_dck : ps .dck) (h_fresh : ps .fresh) (h_qqp : ps .qqp) (h : Keeps ps s0 s) : KO ps s0 (State.giveTag s a1 a2) := by
  unfold State.giveTag
  repeat' first
    | (extract_lets +onlyGivenNames x; first | ((first | with_reducible refine KO.cut (x := x) ?_ ?_ | with_reducible refine Keeps.cut (x := x) ?_ ?_); rotate_left; (try clear_value x); (intro _; skip); rotate_right; subst x) | subst x)
    | with_reducible assumption | with_reducible apply State.updTask_keeps | with_reducible apply State.setCmd_keeps | with_reducible apply State.drawn_keeps
    | (intro _; skip) | split
    | (dsimp only; skip)
    | with_reducible refine KO.get (by assumption) ?_ | with_reducible refine KP.get (by assumption) ?_ | with_reducible refine KP.get2 (by assumption) ?_ | with_reducible apply KO.none' | with_reducible apply KP.none' | with_reducible apply KO.some' | with_reducible apply KP.some' | with_reducible apply KO.bind | with_reducible apply KP.bind | with_reducible apply Keeps.getO
    | (with_reducible refine Keeps.lit rfl rfl ?_; first | with_reducible assumption | with_reducible apply State.updTask_keeps | with_reducible apply State.setCmd_keeps | with_reducible apply State.drawn_keeps | with_reducible refine KO.get (by assumption) ?_ | with_reducible refine KP.get (by assumption) ?_ | with_reducible refine KP.get2 (by assumption) ?_ | with_reducible apply KO.none' | with_reducible apply KP.none' | with_reducible apply KO.some' | with_reducible apply KP.some' | with_reducible apply KO.bind | with_reducible apply KP.bind | with_reducible apply Keeps.getO | (split; skip))

theorem State.startWork_keeps {ps : Part → Prop} {a1 : Nat} {a2 : Task} {s0 s : State} (h6 : ps (.regs 6)) (h7 : ps (.regs 7)) (h9 : ps (.regs 9)) (h11 : ps (.regs 11)) (h17 : ps (.regs 17)) (h20 : ps (.regs 20)) (h_dck : ps .dck) (h_evt : ps .evt) (h_fresh : ps .fresh) (h_gens : ps .gens) (h_lve : ps .lve) (h_med : ps .med) (h_noc : ps .noc) (h_out : ps .out) (h_pci : ps .pci) (h_qqp : ps .qqp) (h_tly : ps .tly) (h : Keeps ps s0 s) : Keeps ps s0 (State.startWork s a1 a2) := by
  unfold State.startWork
  repeat' first
    | (extract_lets +onlyGivenNames x; first | (with_reducible refine Keeps.cut (x := x) ?_ ?_; rotate_left; (try clear_value x); (intro _; skip); rotate_right; subst x) | subst x)
    | with_reducible assumption | exact h6 | exact h7 | exact h9 | exact h11 | exact h17 | exact h20 | with_reducible apply State.handOver_keeps | with_reducible apply State.endTask_keeps | with_reducible apply State.updTask_keeps | with_reducible apply State.leaveEngine_keeps | with_reducible apply State.enqueue_keeps | with_reducible apply State.relocStep_keeps | with_reducible apply Keeps.foldl | with_reducible apply Keeps.foldlFst
    | (intro _; skip) | split
    | (dsimp only; skip)
    | with_reducible refine Keeps.pair (by assumption) ?_
    | (with_reducible refine Keeps.lit rfl rfl ?_; first | with_reducible assumption | exact h6 | exact h7 | exact h9 | exact h11 | exact h17 | exact h20 | with_reducible apply State.handOver_keeps | with_reducible apply State.endTask_keeps | with_reducible apply State.updTask_keeps | with_reducible apply State.leaveEngine_keeps | with_reducible apply State.enqueue_keeps | with_reducible apply State.relocStep_keeps | with_reducible apply Keeps.foldl | with_reducible apply Keeps.foldlFst | with_reducible refine Keeps.pair (by assumption) ?_ | (split; skip))

theorem State.tell_keeps {ps : Part → Prop} {a1 : EngMsg} {s0 s : State} (h_dck : ps .dck) (h : Keeps ps s0 s) : Keeps ps s0 (State.tell s a1) := by
  unfold State.tell
  repeat' first
    | with_reducible assumption
    | (intro _; skip) | split
    | (dsimp only; skip)
    | (with_reducible refine Keeps.lit rfl rfl ?_; first | with_reducible assumption | (split; skip))

theorem State.dispatchTo_keeps {ps : Part → Prop} {a1 a2 : Nat} {a3 : Bool} {s0 s : State} (h6 : ps (.regs 6)) (h7 : ps (.regs 7)) (h9 : ps (.regs 9)) (h11 : ps (.regs 11)) (h17 : ps (.regs 17)) (h20 : ps (.regs 20)) (h_dck : ps .dck) (h_evt : ps .evt) (h_fresh : ps .fresh) (h_gens : ps .gens) (h_lve : ps .lve) (h_med : ps .med) (h_noc : ps .noc) (h_out : ps .out) (h_pci : ps .pci) (h_qqp : ps .qqp) (h_tly : ps .tly) (h : Keeps ps s0 s) : Keeps ps s0 (State.dispatchTo s a1 a2 a3) := by
  unfold State.dispatchTo
  repeat' first
    | (extract_lets +onlyGivenNames x; first | ((first | with_reducible refine Keeps.cut (x := x) ?_ ?_ | with_reducible refine KO.cut (x := x) ?_ ?_); rotate_left; (try clear_value x); (intro _; skip); rotate_right; subst x) | subst x)
    | with_reducible assumption | exact h6 | exact h7 | exact h9 | exact h11 | exact h17 | exact h20 | with_reducible apply State.updTask_keeps | with_reducible apply State.endTask_keeps | with_reducible apply State.giveTag_keeps | with_reducible apply State.dispatch_keeps | with_reducible apply State.tell_keeps | with_reducible apply State.startWork_keeps
    | (intro _; skip) | split
    | (dsimp only; skip)
    | with_reducible refine KO.get (by assumption) ?_ | with_reducible refine KP.get (by assumption) ?_ | with_reducible refine KP.get2 (by assumption) ?_ | with_reducible apply KO.none' | with_reducible apply KP.none' | with_reducible apply KO.some' | with_reducible apply KP.some' | with_reducible apply KO.bind | with_reducible apply KP.bind | with_reducible apply Keeps.getO
    | (with_reducible refine Keeps.lit rfl rfl ?_; first | with_reducible assumption | exact h6 | exact h7 | exact h9 | exact h11 | exact h17 | exact h20 | with_reducible apply State.updTask_keeps | with_reducible apply State.endTask_keeps | with_reducible apply State.giveTag_keeps | with_reducible apply State.dispatch_keeps | with_reducible apply State.tell_keeps | with_reducible apply State.startWork_keeps | with_reducible refine KO.get (by assumption) ?_ | with_reducible refine KP.get (by assumption) ?_ | with_reducible refine KP.get2 (by assumption) ?_ | with_reducible apply KO.none' | with_reducible apply KP.none' | with_reducible apply KO.some' | with_reducible apply KP.some' | with_reducible apply KO.bind | with_reducible apply KP.bind | with_reducible apply Keeps.getO | (split; skip))

theorem execTaskDispatch_keeps {ps : Part → Prop} {s : State} {a1 a2 : Nat} (h6 : ps (.regs 6)) (h7 : ps (.regs 7)) (h9 : ps (.regs 9)) (h11 : ps (.regs 11)) (h17 : ps (.regs 17)) (h20 : ps (.regs 20)) (h_dck : ps .dck) (h_evt : ps .evt) (h_fresh : ps .fresh) (h_gens : ps .gens) (h_lve : ps .lve) (h_med : ps .med) (h_noc : ps .noc) (h_out : ps .out) (h_pci : ps .pci) (h_qqp : ps .qqp) (h_tly : ps .tly) : ∀ r, (execTaskDispatch a1 a2 s) = .next r → Keeps ps s r := by
  intro r e
  cases e
  have h := Keeps.refl (ps := ps) s
  repeat' first
    | (extract_lets +onlyGivenNames x; first | (with_reducible refine Keeps.cut (x := x) ?_ ?_; rotate_left; (try clear_value x); (intro _; skip); rotate_right; subst x) | subst x)
    | with_reducible assumption | exact h6 | exact h7 | exact h9 | exact h11 | exact h17 | exact h20 | with_reducible apply State.when_keeps | with_reducible apply State.dispatchTo_keeps
    | (intro _; skip) | split
    | (dsimp only; skip)
    | (with_reducible refine Keeps.lit rfl rfl ?_; first | with_reducible assumption | exact h6 | exact h7 | exact h9 | exact h11 | exact h17 | exact h20 | with_reducible apply State.when_keeps | with_reducible apply State.dispatchTo_keeps | (split; skip))

theorem State.startPreempt_keeps {ps : Part → Prop} {a1 : Nat} {s0 s : State} (h6 : ps (.regs 6)) (h_dck : ps .dck) (h : Keeps ps s0 s) : Keeps ps s0 (State.startPreempt s a1) := by
  unfold State.startPreempt
  repeat' first
    | (extract_lets +onlyGivenNames x; first | (with_reducible refine Keeps.cut (x := x) ?_ ?_; rotate_left; (try clear_value x); (intro _; skip); rotate_right; subst x) | subst x)
    | with_reducible assumption | exact h6 | with_reducible apply State.put_keeps
    | (intro _; skip) | split
    | (dsimp only; skip)
    | (with_reducible refine Keeps.lit rfl rfl ?_; first | with_reducible assumption | exact h6 | with_reducible apply State.put_keeps | (split; skip))

theorem execPreemptionStart_keeps {ps : Part → Prop} {s : State} {a1 : Nat} (h6 : ps (.regs 6)) (h_dck : ps .dck) : ∀ r, (execPreemptionStart a1 s) = .next r → Keeps ps s r := by
  intro r e
  cases e
  have h := Keeps.refl (ps := ps) s
  repeat' first
    | with_reducible assumption | exact h6 | with_reducible apply State.when_keeps | with_reducible apply State.startPreempt_keeps
    | (intro _; skip) | split
    | (dsimp only; skip)

theorem State.parkTask_keeps {ps : Part → Prop} {a1 : Nat} {a2 : Task} {a3 : Nat} {a4 : TaskSt} {s0 s : State} (h6 : ps (.regs 6)) (h_dck : ps .dck) (h_fresh : ps .fresh) (h_qqp : ps .qqp) (h : Keeps ps s0 s) : KO ps s0 (State.parkTask s a1 a2 a3 a4) := by
  unfold State.parkTask
  repeat' first
    | (extract_lets +onlyGivenNames x; first | ((first | with_reducible refine KO.cut (x := x) ?_ ?_ | with_reducible refine Keeps.cut (x := x) ?_ ?_); rotate_left; (try clear_value x); (intro _; skip); rotate_right; subst x) | subst x)
    | with_reducible assumption | exact h6 | with_reducible apply State.saveCtx_keeps | with_reducible apply State.updCmd_keeps | with_reducible apply State.updTask_keeps | with_reducible apply State.leaveEngine_keeps
    | (intro _; skip) | split
    | (dsimp only; skip)
    | with_reducible refine KO.get (by assumption) ?_ | with_reducible refine KP.get (by assumption) ?_ | with_reducible refine KP.get2 (by assumption) ?_ | with_reducible apply KO.none' | with_reducible apply KP.none' | with_reducible apply KO.some' | with_reducible apply KP.some' | with_reducible apply KO.bind | with_reducible apply KP.bind | with_reducible apply Keeps.getO
    | (with_reducible refine Keeps.lit rfl rfl ?_; first | with_reducible assumption | exact h6 | with_reducible apply State.saveCtx_keeps | with_reducible apply State.updCmd_keeps | with_reducible apply State.updTask_keeps | with_reducible apply State.leaveEngine_keeps | with_reducible refine KO.get (by assumption) ?_ | with_reducible refine KP.get (by assumption) ?_ | with_reducible refine KP.get2 (by assumption) ?_ | with_reducible apply KO.none' | with_reducible apply KP.none' | with_reducible apply KO.some' | with_reducible apply KP.some' | with_reducible apply KO.bind | with_reducible apply KP.bind | with_reducible apply Keeps.getO | (split; skip))

theorem execSkidderPark_keeps {ps : Part → Prop} {s : State} {a1 : Nat} (h6 : ps (.regs 6)) (h8 : ps (.regs 8)) (h_dck : ps .dck) (h_fresh : ps .fresh) (h_qqp : ps .qqp) : ∀ r, (execSkidderPark a1 s) = .next r → Keeps ps s r := by
  intro r e
  cases e
  have h := Keeps.refl (ps := ps) s
  repeat' first
    | (extract_lets +onlyGivenNames x; first | ((first | with_reducible refine Keeps.cut (x := x) ?_ ?_ | with_reducible refine KO.cut (x := x) ?_ ?_); rotate_left; (try clear_value x); (intro _; skip); rotate_right; subst x) | subst x)
    | with_reducible assumption | exact h6 | exact h8 | with_reducible apply State.when_keeps | with_reducible apply State.parkTask_keeps | with_reducible apply State.voidPreempt_keeps | with_reducible apply State.updCmd_keeps | with_reducible apply State.bump_keeps | with_reducible apply State.updTask_keeps
    | (intro _; skip) | split
    | (dsimp only; skip)
    | with_reducible refine KO.get (by assumption) ?_ | with_reducible refine KP.get (by assumption) ?_ | with_reducible refine KP.get2 (by assumption) ?_ | with_reducible apply KO.none' | with_reducible apply KP.none' | with_reducible apply KO.some' | with_reducible apply KP.some' | with_reducible apply KO.bind | with_reducible apply KP.bind | with_reducible apply Keeps.getO
    | (with_reducible refine Keeps.lit rfl rfl ?_; first | with_reducible assumption | exact h6 | exact h8 | with_reducible apply State.when_keeps | with_reducible apply State.parkTask_keeps | with_reducible apply State.voidPreempt_keeps | with_reducible apply State.updCmd_keeps | with_reducible apply State.bump_keeps | with_reducible apply State.updTask_keeps | with_reducible refine KO.get (by assumption) ?_ | with_reducible refine KP.get (by assumption) ?_ | with_reducible refine KP.get2 (by assumption) ?_ | with_reducible apply KO.none' | with_reducible apply KP.none' | with_reducible apply KO.some' | with_reducible apply KP.some' | with_reducible apply KO.bind | with_reducible apply KP.bind | with_reducible apply Keeps.getO | (split; skip))

theorem State.retryCreates_keeps {ps : Part → Prop} {s0 s : State} (h6 : ps (.regs 6)) (h17 : ps (.regs 17)) (h_dck : ps .dck) (h_evt : ps .evt) (h_out : ps .out) (h_pci : ps .pci) (h : Keeps ps s0 s) : Keeps ps s0 (State.retryCreates s) := by
  unfold State.retryCreates
  repeat' first
    | (extract_lets +onlyGivenNames x; first | ((first | with_reducible refine Keeps.cut (x := x) ?_ ?_ | with_reducible refine KP.cut (x := x) ?_ ?_); rotate_left; (try clear_value x); (intro _; skip); rotate_right; subst x) | subst x)
    | with_reducible assumption | exact h6 | exact h17 | with_reducible apply State.newTask_keeps | with_reducible apply Keeps.foldl | with_reducible apply Keeps.foldlFst
    | (intro _; skip) | split
    | (dsimp only; skip)
    | with_reducible refine KO.get (by assumption) ?_ | with_reducible refine KP.get (by assumption) ?_ | with_reducible refine KP.get2 (by assumption) ?_ | with_reducible apply KO.none' | with_reducible apply KP.none' | with_reducible apply KO.some' | with_reducible apply KP.some' | with_reducible apply KO.bind | with_reducible apply KP.bind | with_reducible apply Keeps.getO
    | (with_reducible refine Keeps.lit rfl rfl ?_; first | with_reducible assumption | exact h6 | exact h17 | with_reducible apply State.newTask_keeps | with_reducible apply Keeps.foldl | with_reducible apply Keeps.foldlFst | with_reducible refine KO.get (by assumption) ?_ | with_reducible refine KP.get (by assumption) ?_ | with_reducible refine KP.get2 (by assumption) ?_ | with_reducible apply KO.none' | with_reducible apply KP.none' | with_reducible apply KO.some' | with_reducible apply KP.some' | with_reducible apply KO.bind | with_reducible apply KP.bind | with_reducible apply Keeps.getO | (split; skip))

theorem State.spillLost_keeps {ps : Part → Prop} {a1 : Nat} {s0 s : State} (h6 : ps (.regs 6)) (h17 : ps (.regs 17)) (h_dck : ps .dck) (h_evt : ps .evt) (h_out : ps .out) (h_pci : ps .pci) (h_qqp : ps .qqp) (h : Keeps ps s0 s) : Keeps ps s0 (State.spillLost s a1) := by
  unfold State.spillLost
  repeat' first
    | (extract_lets +onlyGivenNames x; first | (with_reducible refine Keeps.cut (x := x) ?_ ?_; rotate_left; (try clear_value x); (intro _; skip); rotate_right; subst x) | subst x)
    | with_reducible assumption | exact h6 | exact h17 | with_reducible apply State.post_keeps | with_reducible apply State.endTask_keeps | with_reducible apply State.addTask_keeps
    | (intro _; skip) | split
    | (dsimp only; skip)
    | (with_reducible refine Keeps.lit rfl rfl ?_; first | with_reducible assumption | exact h6 | exact h17 | with_reducible apply State.post_keeps | with_reducible apply State.endTask_keeps | with_reducible apply State.addTask_keeps | (split; skip))

theorem State.refilled_keeps {ps : Part → Prop} {a1 : List Nat} {s0 s : State} (h6 : ps (.regs 6)) (h17 : ps (.regs 17)) (h_dck : ps .dck) (h_evt : ps .evt) (h_out : ps .out) (h_pci : ps .pci) (h_qqp : ps .qqp) (h : Keeps ps s0 s) : Keeps ps s0 (State.refilled s a1) := by
  unfold State.refilled
  repeat' first
    | (extract_lets +onlyGivenNames x; first | (with_reducible refine Keeps.cut (x := x) ?_ ?_; rotate_left; (try clear_value x); (intro _; skip); rotate_right; subst x) | subst x)
    | with_reducible assumption | exact h6 | exact h17 | with_reducible apply State.spillLost_keeps | with_reducible apply State.updTask_keeps | with_reducible apply Keeps.foldl | with_reducible apply Keeps.foldlFst
    | (intro _; skip) | split
    | (dsimp only; skip)
    | (with_reducible refine Keeps.lit rfl rfl ?_; first | with_reducible assumption | exact h6 | exact h17 | with_reducible apply State.spillLost_keeps | with_reducible apply State.updTask_keeps | with_reducible apply Keeps.foldl | with_reducible apply Keeps.foldlFst | (split; skip))

theorem execSpillwayRefill_keeps {ps : Part → Prop} {s : State} {a1 : List Nat} (h6 : ps (.regs 6)) (h17 : ps (.regs 17)) (h_dck : ps .dck) (h_evt : ps .evt) (h_out : ps .out) (h_pci : ps .pci) (h_qqp : ps .qqp) : ∀ r, (execSpillwayRefill a1 s) = .next r → Keeps ps s r := by
  intro r e
  cases e
  have h := Keeps.refl (ps := ps) s
  repeat' first
    | with_reducible assumption | exact h6 | exact h17 | with_reducible apply State.when_keeps | with_reducible apply State.retryCreates_keeps | with_reducible apply State.refilled_keeps
    | (intro _; skip) | split
    | (dsimp only; skip)

theorem State.workLost_keeps {ps : Part → Prop} {a1 : Task} {s0 s : State} (h_med : ps .med) (h_tly : ps .tly) (h : Keeps ps s0 s) : Keeps ps s0 (State.workLost s a1) := by
  unfold State.workLost
  repeat' first
    | with_reducible assumption | with_reducible apply State.updLine_keeps | with_reducible apply State.updStripe_keeps
    | (intro _; skip) | split
    | (dsimp only; skip)
    | (with_reducible refine Keeps.lit rfl rfl ?_; first | with_reducible assumption | with_reducible apply State.updLine_keeps | with_reducible apply State.updStripe_keeps | (split; skip))

theorem State.taskDown_keeps {ps : Part → Prop} {a1 : Nat} {a2 : Task} {s0 s : State} (h6 : ps (.regs 6)) (h17 : ps (.regs 17)) (h_dck : ps .dck) (h_evt : ps .evt) (h_med : ps .med) (h_out : ps .out) (h_pci : ps .pci) (h_qqp : ps .qqp) (h_tly : ps .tly) (h : Keeps ps s0 s) : Keeps ps s0 (State.taskDown s a1 a2) := by
  unfold State.taskDown
  repeat' first
    | (extract_lets +onlyGivenNames x; first | (with_reducible refine Keeps.cut (x := x) ?_ ?_; rotate_left; (try clear_value x); (intro _; skip); rotate_right; subst x) | subst x)
    | with_reducible assumption | exact h6 | exact h17 | with_reducible apply State.post_keeps | with_reducible apply State.segEnd_keeps | with_reducible apply State.endTask_keeps | with_reducible apply State.workLost_keeps
    | (intro _; skip) | split
    | (dsimp only; skip)
    | (with_reducible refine Keeps.lit rfl rfl ?_; first | with_reducible assumption | exact h6 | exact h17 | with_reducible apply State.post_keeps | with_reducible apply State.segEnd_keeps | with_reducible apply State.endTask_keeps | with_reducible apply State.workLost_keeps | (split; skip))

theorem State.abandonOn_keeps {ps : Part → Prop} {a1 a2 : Nat} {s0 s : State} (h_dck : ps .dck) (h : Keeps ps s0 s) : Keeps ps s0 (State.abandonOn s a1 a2) := by
  unfold State.abandonOn
  repeat' first
    | with_reducible assumption | with_reducible apply State.updEng_keeps
    | (intro _; skip) | split
    | (dsimp only; skip)
    | (with_reducible refine Keeps.lit rfl rfl ?_; first | with_reducible assumption | with_reducible apply State.updEng_keeps | (split; skip))

theorem State.rewindTask_keeps {ps : Part → Prop} {a1 : Task} {s0 s : State} (h9 : ps (.regs 9)) (h_med : ps .med) (h_qqp : ps .qqp) (h : Keeps ps s0 s) : Keeps ps s0 (State.rewindTask s a1) := by
  unfold State.rewindTask
  repeat' first
    | with_reducible assumption | exact h9 | with_reducible apply State.updCmd_keeps | with_reducible apply State.cancelUndercuts_keeps
    | (intro _; skip) | split
    | (dsimp only; skip)
    | (with_reducible refine Keeps.lit rfl rfl ?_; first | with_reducible assumption | exact h9 | with_reducible apply State.updCmd_keeps | with_reducible apply State.cancelUndercuts_keeps | (split; skip))

theorem State.timedOut_keeps {ps : Part → Prop} {a1 : Nat} {a2 : Task} {a3 : Nat} {s0 s : State} (h6 : ps (.regs 6)) (h9 : ps (.regs 9)) (h17 : ps (.regs 17)) (h_dck : ps .dck) (h_evt : ps .evt) (h_med : ps .med) (h_out : ps .out) (h_pci : ps .pci) (h_qqp : ps .qqp) (h : Keeps ps s0 s) : Keeps ps s0 (State.timedOut s a1 a2 a3) := by
  unfold State.timedOut
  repeat' first
    | (extract_lets +onlyGivenNames x; first | (with_reducible refine Keeps.cut (x := x) ?_ ?_; rotate_left; (try clear_value x); (intro _; skip); rotate_right; subst x) | subst x)
    | with_reducible assumption | exact h6 | exact h9 | exact h17 | with_reducible apply State.rewindTask_keeps | with_reducible apply State.abandonOn_keeps | with_reducible apply State.voidPreempt_keeps | with_reducible apply State.engTimeout_keeps | with_reducible apply State.leaveEngine_keeps
    | (intro _; skip) | split
    | (dsimp only; skip)

theorem execTaskTimeout_keeps {ps : Part → Prop} {s : State} {a1 : Nat} (h6 : ps (.regs 6)) (h9 : ps (.regs 9)) (h17 : ps (.regs 17)) (h_dck : ps .dck) (h_evt : ps .evt) (h_med : ps .med) (h_out : ps .out) (h_pci : ps .pci) (h_qqp : ps .qqp) (h_tly : ps .tly) : ∀ r, (execTaskTimeout a1 s) = .next r → Keeps ps s r := by
  intro r e
  cases e
  have h := Keeps.refl (ps := ps) s
  repeat' first
    | (extract_lets +onlyGivenNames x; first | (with_reducible refine Keeps.cut (x := x) ?_ ?_; rotate_left; (try clear_value x); (intro _; skip); rotate_right; subst x) | subst x)
    | with_reducible assumption | exact h6 | exact h9 | exact h17 | with_reducible apply State.when_keeps | with_reducible apply State.timedOut_keeps | with_reducible apply State.taskDown_keeps | with_reducible apply State.updTask_keeps
    | (intro _; skip) | split
    | (dsimp only; skip)
    | (with_reducible refine Keeps.lit rfl rfl ?_; first | with_reducible assumption | exact h6 | exact h9 | exact h17 | with_reducible apply State.when_keeps | with_reducible apply State.timedOut_keeps | with_reducible apply State.taskDown_keeps | with_reducible apply State.updTask_keeps | (split; skip))

theorem State.retryTask_keeps {ps : Part → Prop} {a1 : Nat} {s0 s : State} (h6 : ps (.regs 6)) (h17 : ps (.regs 17)) (h_dck : ps .dck) (h_evt : ps .evt) (h_out : ps .out) (h_pci : ps .pci) (h : Keeps ps s0 s) : Keeps ps s0 (State.retryTask s a1) := by
  unfold State.retryTask
  repeat' first
    | with_reducible assumption | exact h6 | exact h17 | with_reducible apply State.toReady_keeps
    | (intro _; skip) | split
    | (dsimp only; skip)
    | (with_reducible refine Keeps.lit rfl rfl ?_; first | with_reducible assumption | exact h6 | exact h17 | with_reducible apply State.toReady_keeps | (split; skip))

theorem State.retryOp_keeps {ps : Part → Prop} {a1 a2 : Nat} {s0 s : State} (h6 : ps (.regs 6)) (h7 : ps (.regs 7)) (h9 : ps (.regs 9)) (h11 : ps (.regs 11)) (h17 : ps (.regs 17)) (h20 : ps (.regs 20)) (h_dck : ps .dck) (h_evt : ps .evt) (h_gens : ps .gens) (h_lve : ps .lve) (h_med : ps .med) (h_out : ps .out) (h_pci : ps .pci) (h_tly : ps .tly) (h : Keeps ps s0 s) : Keeps ps s0 (State.retryOp s a1 a2) := by
  unfold State.retryOp
  repeat' first
    | (extract_lets +onlyGivenNames x; first | (with_reducible refine Keeps.cut (x := x) ?_ ?_; rotate_left; (try clear_value x); (intro _; skip); rotate_right; subst x) | subst x)
    | with_reducible assumption | exact h6 | exact h7 | exact h9 | exact h11 | exact h17 | exact h20 | with_reducible apply State.enqueue_keeps | with_reducible apply State.programFailed_keeps | with_reducible apply State.memberErased_keeps
    | (intro _; skip) | split
    | (dsimp only; skip)
    | (with_reducible refine Keeps.lit rfl rfl ?_; first | with_reducible assumption | exact h6 | exact h7 | exact h9 | exact h11 | exact h17 | exact h20 | with_reducible apply State.enqueue_keeps | with_reducible apply State.programFailed_keeps | with_reducible apply State.memberErased_keeps | (split; skip))

theorem State.busyAll_keeps {ps : Part → Prop} {s0 s : State} (h_dck : ps .dck) (h : Keeps ps s0 s) : Keeps ps s0 (State.busyAll s) := by
  unfold State.busyAll
  repeat' first
    | with_reducible assumption | with_reducible apply State.busyTime_keeps | with_reducible apply Keeps.foldl | with_reducible apply Keeps.foldlFst
    | (intro _; skip) | split
    | (dsimp only; skip)
    | (with_reducible refine Keeps.lit rfl rfl ?_; first | with_reducible assumption | with_reducible apply State.busyTime_keeps | with_reducible apply Keeps.foldl | with_reducible apply Keeps.foldlFst | (split; skip))

theorem State.showLoads_keeps {ps : Part → Prop} {s0 s : State} (h6 : ps (.regs 6)) (h : Keeps ps s0 s) : Keeps ps s0 (State.showLoads s) := by
  unfold State.showLoads
  repeat' first
    | with_reducible assumption | exact h6 | with_reducible apply State.put_keeps | with_reducible apply Keeps.foldl | with_reducible apply Keeps.foldlFst
    | (intro _; skip) | split
    | (dsimp only; skip)

theorem execPoolLoadWindow_keeps {ps : Part → Prop} {s : State} (h6 : ps (.regs 6)) (h_dck : ps .dck) : ∀ r, (execPoolLoadWindow s) = .next r → Keeps ps s r := by
  intro r e
  cases e
  have h := Keeps.refl (ps := ps) s
  repeat' first
    | (extract_lets +onlyGivenNames x; first | (with_reducible refine Keeps.cut (x := x) ?_ ?_; rotate_left; (try clear_value x); (intro _; skip); rotate_right; subst x) | subst x)
    | with_reducible assumption | exact h6 | with_reducible apply State.when_keeps | with_reducible apply State.showLoads_keeps | with_reducible apply State.busyAll_keeps
    | (intro _; skip) | split
    | (dsimp only; skip)
    | (with_reducible refine Keeps.lit rfl rfl ?_; first | with_reducible assumption | exact h6 | with_reducible apply State.when_keeps | with_reducible apply State.showLoads_keeps | with_reducible apply State.busyAll_keeps | (split; skip))

theorem State.declined_keeps {ps : Part → Prop} {a1 : Nat} {s0 s : State} (h6 : ps (.regs 6)) (h_dck : ps .dck) (h : Keeps ps s0 s) : Keeps ps s0 (State.declined s a1) := by
  unfold State.declined
  repeat' first
    | (extract_lets +onlyGivenNames x; first | (with_reducible refine Keeps.cut (x := x) ?_ ?_; rotate_left; (try clear_value x); (intro _; skip); rotate_right; subst x) | subst x)
    | with_reducible assumption | exact h6 | with_reducible apply State.updTask_keeps | with_reducible apply State.put_keeps | with_reducible apply State.bump_keeps | with_reducible apply State.updEng_keeps | with_reducible apply State.voidPreempt_keeps | with_reducible apply State.startPreempt_keeps
    | (intro _; skip) | split
    | (dsimp only; skip)
    | (with_reducible refine Keeps.lit rfl rfl ?_; first | with_reducible assumption | exact h6 | with_reducible apply State.updTask_keeps | with_reducible apply State.put_keeps | with_reducible apply State.bump_keeps | with_reducible apply State.updEng_keeps | with_reducible apply State.voidPreempt_keeps | with_reducible apply State.startPreempt_keeps | (split; skip))

theorem execLdPreemptAnswerTimeout_keeps {ps : Part → Prop} {s : State} {a1 : Nat} (h6 : ps (.regs 6)) (h17 : ps (.regs 17)) (h_dck : ps .dck) (h_evt : ps .evt) (h_out : ps .out) (h_pci : ps .pci) : ∀ r, (execLdPreemptAnswerTimeout a1 s) = .next r → Keeps ps s r := by
  intro r e
  cases e
  have h := Keeps.refl (ps := ps) s
  repeat' first
    | with_reducible assumption | exact h6 | exact h17 | with_reducible apply State.when_keeps | with_reducible apply State.engTimeout_keeps | with_reducible apply State.updEng_keeps | with_reducible apply State.declined_keeps
    | (intro _; skip) | split
    | (dsimp only; skip)
    | (with_reducible refine Keeps.lit rfl rfl ?_; first | with_reducible assumption | exact h6 | exact h17 | with_reducible apply State.when_keeps | with_reducible apply State.engTimeout_keeps | with_reducible apply State.updEng_keeps | with_reducible apply State.declined_keeps | (split; skip))

theorem execRegister_keeps {ps : Part → Prop} {s : State} {a1 a2 : Nat} {a3 : Bool} (h6 : ps (.regs 6)) (h17 : ps (.regs 17)) (h_dck : ps .dck) (h_evt : ps .evt) (h_out : ps .out) (h_pci : ps .pci) : ∀ r, (execRegister a1 a2 a3 s) = .next r → Keeps ps s r := by
  intro r e
  cases e
  have h := Keeps.refl (ps := ps) s
  repeat' first
    | (extract_lets +onlyGivenNames x; first | (with_reducible refine Keeps.cut (x := x) ?_ ?_; rotate_left; (try clear_value x); (intro _; skip); rotate_right; subst x) | subst x)
    | with_reducible assumption | exact h6 | exact h17 | with_reducible apply State.when_keeps | with_reducible apply State.tell_keeps | with_reducible apply State.put_keeps | with_reducible apply State.updEng_keeps | with_reducible apply State.poolEmpty_keeps
    | (intro _; skip) | split
    | (dsimp only; skip)
    | (with_reducible refine Keeps.lit rfl rfl ?_; first | with_reducible assumption | exact h6 | exact h17 | with_reducible apply State.when_keeps | with_reducible apply State.tell_keeps | with_reducible apply State.put_keeps | with_reducible apply State.updEng_keeps | with_reducible apply State.poolEmpty_keeps | (split; skip))

theorem execDeregister_keeps {ps : Part → Prop} {s : State} {a1 a2 : Nat} (h6 : ps (.regs 6)) (h17 : ps (.regs 17)) (h_dck : ps .dck) (h_evt : ps .evt) (h_out : ps .out) (h_pci : ps .pci) : ∀ r, (execDeregister a1 a2 s) = .next r → Keeps ps s r := by
  intro r e
  cases e
  have h := Keeps.refl (ps := ps) s
  repeat' first
    | with_reducible assumption | exact h6 | exact h17 | with_reducible apply State.when_keeps | with_reducible apply State.deregister_keeps
    | (intro _; skip) | split
    | (dsimp only; skip)

theorem execCreate_keeps {ps : Part → Prop} {s : State} {a1 a2 a3 a4 a5 : Nat} {a6 : Bool} {a7 : Option Nat} {a8 a9 : Nat} (h6 : ps (.regs 6)) (h17 : ps (.regs 17)) (h_dck : ps .dck) (h_evt : ps .evt) (h_out : ps .out) (h_pci : ps .pci) : ∀ r, (execCreate a1 a2 a3 a4 a5 a6 a7 a8 a9 s) = .next r → Keeps ps s r := by
  intro r e
  cases e
  have h := Keeps.refl (ps := ps) s
  repeat' first
    | (extract_lets +onlyGivenNames x; first | ((first | with_reducible refine Keeps.cut (x := x) ?_ ?_ | with_reducible refine KP.cut (x := x) ?_ ?_); rotate_left; (try clear_value x); (intro _; skip); rotate_right; subst x) | subst x)
    | with_reducible assumption | exact h6 | exact h17 | with_reducible apply State.when_keeps | with_reducible apply State.tell_keeps | with_reducible apply State.newTask_keeps | with_reducible apply State.spillRefused_keeps
    | (intro _; skip) | split
    | (dsimp only; skip)
    | with_reducible refine KO.get (by assumption) ?_ | with_reducible refine KP.get (by assumption) ?_ | with_reducible refine KP.get2 (by assumption) ?_ | with_reducible apply KO.none' | with_reducible apply KP.none' | with_reducible apply KO.some' | with_reducible apply KP.some' | with_reducible apply KO.bind | with_reducible apply KP.bind | with_reducible apply Keeps.getO
    | (with_reducible refine Keeps.lit rfl rfl ?_; first | with_reducible assumption | exact h6 | exact h17 | with_reducible apply State.when_keeps | with_reducible apply State.tell_keeps | with_reducible apply State.newTask_keeps | with_reducible apply State.spillRefused_keeps | with_reducible refine KO.get (by assumption) ?_ | with_reducible refine KP.get (by assumption) ?_ | with_reducible refine KP.get2 (by assumption) ?_ | with_reducible apply KO.none' | with_reducible apply KP.none' | with_reducible apply KO.some' | with_reducible apply KP.some' | with_reducible apply KO.bind | with_reducible apply KP.bind | with_reducible apply Keeps.getO | (split; skip))

theorem State.lateMsg_keeps {ps : Part → Prop} {a1 : Nat} {s0 s : State} (h6 : ps (.regs 6)) (h_dck : ps .dck) (h : Keeps ps s0 s) : Keeps ps s0 (State.lateMsg s a1) := by
  unfold State.lateMsg
  repeat' first
    | with_reducible assumption | exact h6 | with_reducible apply State.bump_keeps | with_reducible apply State.updEng_keeps
    | (intro _; skip) | split
    | (dsimp only; skip)
    | (with_reducible refine Keeps.lit rfl rfl ?_; first | with_reducible assumption | exact h6 | with_reducible apply State.bump_keeps | with_reducible apply State.updEng_keeps | (split; skip))

theorem execDone_keeps {ps : Part → Prop} {s : State} {a1 a2 a3 : Nat} (h6 : ps (.regs 6)) (h_dck : ps .dck) (h_qqp : ps .qqp) : ∀ r, (execDone a1 a2 a3 s) = .next r → Keeps ps s r := by
  intro r e
  cases e
  have h := Keeps.refl (ps := ps) s
  repeat' first
    | (extract_lets +onlyGivenNames x; first | (with_reducible refine Keeps.cut (x := x) ?_ ?_; rotate_left; (try clear_value x); (intro _; skip); rotate_right; subst x) | subst x)
    | with_reducible assumption | exact h6 | with_reducible apply State.when_keeps | with_reducible apply State.lateMsg_keeps | with_reducible apply State.updEng_keeps | with_reducible apply State.updCmd_keeps | with_reducible apply State.endTask_keeps
    | (intro _; skip) | split
    | (dsimp only; skip)
    | (with_reducible refine Keeps.lit rfl rfl ?_; first | with_reducible assumption | exact h6 | with_reducible apply State.when_keeps | with_reducible apply State.lateMsg_keeps | with_reducible apply State.updEng_keeps | with_reducible apply State.updCmd_keeps | with_reducible apply State.endTask_keeps | (split; skip))

theorem State.yielded_keeps {ps : Part → Prop} {a1 a2 a3 : Nat} {s0 s : State} (h6 : ps (.regs 6)) (h17 : ps (.regs 17)) (h_dck : ps .dck) (h_evt : ps .evt) (h_fresh : ps .fresh) (h_out : ps .out) (h_pci : ps .pci) (h : Keeps ps s0 s) : Keeps ps s0 (State.yielded s a1 a2 a3) := by
  unfold State.yielded
  repeat' first
    | (extract_lets +onlyGivenNames x; first | ((first | with_reducible refine Keeps.cut (x := x) ?_ ?_ | with_reducible refine KO.cut (x := x) ?_ ?_); rotate_left; (try clear_value x); (intro _; skip); rotate_right; subst x) | subst x)
    | with_reducible assumption | exact h6 | exact h17 | with_reducible apply State.saveCtx_keeps | with_reducible apply State.updTask_keeps | with_reducible apply State.bump_keeps | with_reducible apply State.voidPreempt_keeps | with_reducible apply State.updEng_keeps | with_reducible apply State.toReady_keeps | with_reducible apply State.leaveEngine_keeps
    | (intro _; skip) | split
    | (dsimp only; skip)
    | with_reducible refine KO.get (by assumption) ?_ | with_reducible refine KP.get (by assumption) ?_ | with_reducible refine KP.get2 (by assumption) ?_ | with_reducible apply KO.none' | with_reducible apply KP.none' | with_reducible apply KO.some' | with_reducible apply KP.some' | with_reducible apply KO.bind | with_reducible apply KP.bind | with_reducible apply Keeps.getO
    | (with_reducible refine Keeps.lit rfl rfl ?_; first | with_reducible assumption | exact h6 | exact h17 | with_reducible apply State.saveCtx_keeps | with_reducible apply State.updTask_keeps | with_reducible apply State.bump_keeps | with_reducible apply State.voidPreempt_keeps | with_reducible apply State.updEng_keeps | with_reducible apply State.toReady_keeps | with_reducible apply State.leaveEngine_keeps | with_reducible refine KO.get (by assumption) ?_ | with_reducible refine KP.get (by assumption) ?_ | with_reducible refine KP.get2 (by assumption) ?_ | with_reducible apply KO.none' | with_reducible apply KP.none' | with_reducible apply KO.some' | with_reducible apply KP.some' | with_reducible apply KO.bind | with_reducible apply KP.bind | with_reducible apply Keeps.getO | (split; skip))

theorem execYield_keeps {ps : Part → Prop} {s : State} {a1 a2 : Nat} (h6 : ps (.regs 6)) (h17 : ps (.regs 17)) (h_dck : ps .dck) (h_evt : ps .evt) (h_fresh : ps .fresh) (h_out : ps .out) (h_pci : ps .pci) : ∀ r, (execYield a1 a2 s) = .next r → Keeps ps s r := by
  intro r e
  cases e
  have h := Keeps.refl (ps := ps) s
  repeat' first
    | with_reducible assumption | exact h6 | exact h17 | with_reducible apply State.when_keeps | with_reducible apply State.lateMsg_keeps | with_reducible apply State.bump_keeps | with_reducible apply State.yielded_keeps
    | (intro _; skip) | split
    | (dsimp only; skip)
    | (with_reducible refine Keeps.lit rfl rfl ?_; first | with_reducible assumption | exact h6 | exact h17 | with_reducible apply State.when_keeps | with_reducible apply State.lateMsg_keeps | with_reducible apply State.bump_keeps | with_reducible apply State.yielded_keeps | (split; skip))

theorem execDecline_keeps {ps : Part → Prop} {s : State} {a1 : Nat} (h6 : ps (.regs 6)) (h_dck : ps .dck) : ∀ r, (execDecline a1 s) = .next r → Keeps ps s r := by
  intro r e
  cases e
  have h := Keeps.refl (ps := ps) s
  repeat' first
    | with_reducible assumption | exact h6 | with_reducible apply State.when_keeps | with_reducible apply State.lateMsg_keeps | with_reducible apply State.declined_keeps | with_reducible apply State.bump_keeps
    | (intro _; skip) | split
    | (dsimp only; skip)
    | (with_reducible refine Keeps.lit rfl rfl ?_; first | with_reducible assumption | exact h6 | with_reducible apply State.when_keeps | with_reducible apply State.lateMsg_keeps | with_reducible apply State.declined_keeps | with_reducible apply State.bump_keeps | (split; skip))

theorem execLandingMsgUnknown_keeps {ps : Part → Prop} {s : State} {a1 a2 : Nat} (h6 : ps (.regs 6)) : ∀ r, (execLandingMsgUnknown a1 a2 s) = .next r → Keeps ps s r := by
  intro r e
  cases e
  have h := Keeps.refl (ps := ps) s
  repeat' first
    | with_reducible assumption | exact h6 | with_reducible apply State.when_keeps | with_reducible apply State.bump_keeps
    | (intro _; skip) | split
    | (dsimp only; skip)

end Sys2Proof.Machine
end

