-- ==== Sys2Proof/Laws/Memory.lean ====
section
/-! SUPPORT. What each operation and each meaning of Machine/Memory.lean keeps (Keeps): one lemma a definition. -/

-- The package as one text is checked in one process: its proofs are checked one after another, and its linters keep quiet.
set_option Elab.async false
set_option linter.all false

namespace Sys2Proof.Machine
open Sys2Proof

theorem State.pcFell_keeps {ps : Part → Prop} {a1 : Nat} {s0 s : State} (h13 : ps (.regs 13)) (h17 : ps (.regs 17)) (h_evt : ps .evt) (h_out : ps .out) (h_pci : ps .pci) (h : Keeps ps s0 s) : Keeps ps s0 (State.pcFell s a1) := by
  unfold State.pcFell
  repeat' first
    | (extract_lets +onlyGivenNames x; first | (with_reducible refine Keeps.cut (x := x) ?_ ?_; rotate_left; (try clear_value x); (intro _; skip); rotate_right; subst x) | subst x)
    | with_reducible assumption | exact h13 | exact h17 | with_reducible apply State.post_keeps | with_reducible apply State.put_keeps | with_reducible apply State.put64_keeps
    | (intro _; skip) | split
    | (dsimp only; skip)

theorem State.pcThreshold_keeps {ps : Part → Prop} {a1 : Nat} {s0 s : State} (h13 : ps (.regs 13)) (h17 : ps (.regs 17)) (h_evt : ps .evt) (h_hbm : ps .hbm) (h_out : ps .out) (h_pci : ps .pci) (h : Keeps ps s0 s) : Keeps ps s0 (State.pcThreshold s a1) := by
  unfold State.pcThreshold
  repeat' first
    | with_reducible assumption | exact h13 | exact h17 | with_reducible apply State.pcFell_keeps
    | (intro _; skip) | split
    | (dsimp only; skip)
    | (with_reducible refine Keeps.lit rfl rfl ?_; first | with_reducible assumption | exact h13 | exact h17 | with_reducible apply State.pcFell_keeps | (split; skip))

theorem State.hbmUe_keeps {ps : Part → Prop} {a1 a2 : Nat} {s0 s : State} (h13 : ps (.regs 13)) (h17 : ps (.regs 17)) (h_evt : ps .evt) (h_hbm : ps .hbm) (h_out : ps .out) (h_pci : ps .pci) (h : Keeps ps s0 s) : Keeps ps s0 (State.hbmUe s a1 a2) := by
  unfold State.hbmUe
  repeat' first
    | (extract_lets +onlyGivenNames x; first | (with_reducible refine Keeps.cut (x := x) ?_ ?_; rotate_left; (try clear_value x); (intro _; skip); rotate_right; subst x) | subst x)
    | with_reducible assumption | exact h13 | exact h17 | with_reducible apply State.updHline_keeps | with_reducible apply State.post_keeps | with_reducible apply State.bump_keeps | with_reducible apply State.pcThreshold_keeps
    | (intro _; skip) | split
    | (dsimp only; skip)
    | (with_reducible refine Keeps.lit rfl rfl ?_; first | with_reducible assumption | exact h13 | exact h17 | with_reducible apply State.updHline_keeps | with_reducible apply State.post_keeps | with_reducible apply State.bump_keeps | with_reducible apply State.pcThreshold_keeps | (split; skip))

theorem State.hbmCe_keeps {ps : Part → Prop} {a1 a2 : Nat} {s0 s : State} (h13 : ps (.regs 13)) (h : Keeps ps s0 s) : Keeps ps s0 (State.hbmCe s a1 a2) := by
  unfold State.hbmCe
  repeat' first
    | with_reducible assumption | exact h13 | with_reducible apply State.bump_keeps
    | (intro _; skip) | split
    | (dsimp only; skip)

theorem State.updHbank_keeps {ps : Part → Prop} {a1 a2 : Nat} {a3 : HBank → HBank} {s0 s : State} (h_hbm : ps .hbm) (h : Keeps ps s0 s) : Keeps ps s0 (State.updHbank s a1 a2 a3) := by
  unfold State.updHbank
  repeat' first
    | with_reducible assumption
    | (intro _; skip) | split
    | (dsimp only; skip)
    | (with_reducible refine Keeps.lit rfl rfl ?_; first | with_reducible assumption | (split; skip))

theorem State.rhFallback_keeps {ps : Part → Prop} {a1 : Nat} {s0 s : State} (h13 : ps (.regs 13)) (h : Keeps ps s0 s) : Keeps ps s0 (State.rhFallback s a1) := by
  unfold State.rhFallback
  repeat' first
    | with_reducible assumption | exact h13 | with_reducible apply State.flag_keeps
    | (intro _; skip) | split
    | (dsimp only; skip)

theorem State.rhTarget_keeps {ps : Part → Prop} {a1 a2 a3 : Nat} {s0 s : State} (h_hbm : ps .hbm) (h : Keeps ps s0 s) : Keeps ps s0 (State.rhTarget s a1 a2 a3) := by
  unfold State.rhTarget
  repeat' first
    | with_reducible assumption | with_reducible apply State.updHbank_keeps
    | (intro _; skip) | split
    | (dsimp only; skip)
    | (with_reducible refine Keeps.lit rfl rfl ?_; first | with_reducible assumption | with_reducible apply State.updHbank_keeps | (split; skip))

theorem State.activate_keeps {ps : Part → Prop} {a1 a2 a3 : Nat} {a4 : Bool} {s0 s : State} (h13 : ps (.regs 13)) (h17 : ps (.regs 17)) (h_evt : ps .evt) (h_hbm : ps .hbm) (h_out : ps .out) (h_pci : ps .pci) (h : Keeps ps s0 s) : Keeps ps s0 (State.activate s a1 a2 a3 a4) := by
  unfold State.activate
  repeat' first
    | (extract_lets +onlyGivenNames x; first | (with_reducible refine Keeps.cut (x := x) ?_ ?_; rotate_left; (try clear_value x); (intro _; skip); rotate_right; subst x) | subst x)
    | with_reducible assumption | exact h13 | exact h17 | with_reducible apply State.updHbank_keeps | with_reducible apply State.post_keeps | with_reducible apply State.bump_keeps | with_reducible apply State.rhFallback_keeps | with_reducible apply State.rhTarget_keeps
    | (intro _; skip) | split
    | (dsimp only; skip)
    | (with_reducible refine Keeps.lit rfl rfl ?_; first | with_reducible assumption | exact h13 | exact h17 | with_reducible apply State.updHbank_keeps | with_reducible apply State.post_keeps | with_reducible apply State.bump_keeps | with_reducible apply State.rhFallback_keeps | with_reducible apply State.rhTarget_keeps | (split; skip))

theorem State.srExit_keeps {ps : Part → Prop} {a1 : Nat} {a2 : Meet} {s0 s : State} (h13 : ps (.regs 13)) (h : Keeps ps s0 s) : Keeps ps s0 (State.srExit s a1 a2) := by
  unfold State.srExit
  repeat' first
    | (extract_lets +onlyGivenNames x; first | (with_reducible refine Keeps.cut (x := x) ?_ ?_; rotate_left; (try clear_value x); (intro _; skip); rotate_right; subst x) | subst x)
    | with_reducible assumption | exact h13 | with_reducible apply State.bump_keeps | with_reducible apply State.put_keeps
    | (intro _; skip) | split
    | (dsimp only; skip)

theorem State.setLine_keeps {ps : Part → Prop} {a1 : Nat} {a2 : MLine} {s0 s : State} (h_hbm : ps .hbm) (h_tly : ps .tly) (h : Keeps ps s0 s) : Keeps ps s0 (State.setLine s a1 a2) := by
  unfold State.setLine
  repeat' first
    | (extract_lets +onlyGivenNames x; first | (with_reducible refine Keeps.cut (x := x) ?_ ?_; rotate_left; (try clear_value x); (intro _; skip); rotate_right; subst x) | subst x)
    | with_reducible assumption | with_reducible apply State.updHline_keeps
    | (intro _; skip) | split
    | (dsimp only; skip)
    | (with_reducible refine Keeps.lit rfl rfl ?_; first | with_reducible assumption | with_reducible apply State.updHline_keeps | (split; skip))

theorem State.evictNode_keeps {ps : Part → Prop} {a1 a2 a3 : Nat} {s0 s : State} (h12 : ps (.regs 12)) (h17 : ps (.regs 17)) (h_cry : ps .cry) (h_evt : ps .evt) (h_fresh : ps .fresh) (h_out : ps .out) (h_pci : ps .pci) (h : Keeps ps s0 s) : Keeps ps s0 (State.evictNode s a1 a2 a3) := by
  unfold State.evictNode
  repeat' first
    | (extract_lets +onlyGivenNames x; first | (with_reducible refine Keeps.cut (x := x) ?_ ?_; rotate_left; (try clear_value x); (intro _; skip); rotate_right; subst x) | subst x)
    | with_reducible assumption | exact h12 | exact h17 | with_reducible apply State.setNode_keeps | with_reducible apply State.raiseChild_keeps
    | (intro _; skip) | split
    | (dsimp only; skip)
    | (with_reducible refine Keeps.lit rfl rfl ?_; first | with_reducible assumption | exact h12 | exact h17 | with_reducible apply State.setNode_keeps | with_reducible apply State.raiseChild_keeps | (split; skip))

theorem State.showDamage_keeps {ps : Part → Prop} {a1 : Nat} {s0 s : State} (h12 : ps (.regs 12)) (h_tly : ps .tly) (h : Keeps ps s0 s) : Keeps ps s0 (State.showDamage s a1) := by
  unfold State.showDamage
  repeat' first
    | (extract_lets +onlyGivenNames x; first | (with_reducible refine Keeps.cut (x := x) ?_ ?_; rotate_left; (try clear_value x); (intro _; skip); rotate_right; subst x) | subst x)
    | with_reducible assumption | exact h12 | with_reducible apply State.darken_keeps | with_reducible apply State.put_keeps | with_reducible apply State.flag_keeps
    | (intro _; skip) | split
    | (dsimp only; skip)

theorem State.damage_keeps {ps : Part → Prop} {a1 a2 a3 : Nat} {s0 s : State} (h12 : ps (.regs 12)) (h17 : ps (.regs 17)) (h_cry : ps .cry) (h_evt : ps .evt) (h_out : ps .out) (h_pci : ps .pci) (h_tly : ps .tly) (h : Keeps ps s0 s) : Keeps ps s0 (State.damage s a1 a2 a3) := by
  unfold State.damage
  repeat' first
    | (extract_lets +onlyGivenNames x; first | (with_reducible refine Keeps.cut (x := x) ?_ ?_; rotate_left; (try clear_value x); (intro _; skip); rotate_right; subst x) | subst x)
    | with_reducible assumption | exact h12 | exact h17 | with_reducible apply State.post_keeps | with_reducible apply State.bump_keeps | with_reducible apply State.showDamage_keeps
    | (intro _; skip) | split
    | (dsimp only; skip)
    | (with_reducible refine Keeps.lit rfl rfl ?_; first | with_reducible assumption | exact h12 | exact h17 | with_reducible apply State.post_keeps | with_reducible apply State.bump_keeps | with_reducible apply State.showDamage_keeps | (split; skip))

theorem State.resealNode_keeps {ps : Part → Prop} {a1 a2 a3 : Nat} {s0 s : State} (h12 : ps (.regs 12)) (h17 : ps (.regs 17)) (h_cry : ps .cry) (h_evt : ps .evt) (h_fresh : ps .fresh) (h_hbm : ps .hbm) (h_out : ps .out) (h_pci : ps .pci) (h_tly : ps .tly) (h : Keeps ps s0 s) : Keeps ps s0 (State.resealNode s a1 a2 a3) := by
  unfold State.resealNode
  repeat' first
    | (extract_lets +onlyGivenNames x; first | (with_reducible refine Keeps.cut (x := x) ?_ ?_; rotate_left; (try clear_value x); (intro _; skip); rotate_right; subst x) | subst x)
    | with_reducible assumption | exact h12 | exact h17 | with_reducible apply State.put_keeps | with_reducible apply State.dropHlines_keeps | with_reducible apply State.setNode_keeps | with_reducible apply State.raiseChild_keeps | with_reducible apply State.post_keeps | with_reducible apply State.showDamage_keeps | with_reducible apply State.rekeyAsk_keeps
    | (intro _; skip) | split
    | (dsimp only; skip)
    | (with_reducible refine Keeps.lit rfl rfl ?_; first | with_reducible assumption | exact h12 | exact h17 | with_reducible apply State.put_keeps | with_reducible apply State.dropHlines_keeps | with_reducible apply State.setNode_keeps | with_reducible apply State.raiseChild_keeps | with_reducible apply State.post_keeps | with_reducible apply State.showDamage_keeps | with_reducible apply State.rekeyAsk_keeps | (split; skip))

theorem State.resealRange_keeps {ps : Part → Prop} {a1 a2 : Nat} {s0 s : State} (h12 : ps (.regs 12)) (h17 : ps (.regs 17)) (h_cry : ps .cry) (h_evt : ps .evt) (h_fresh : ps .fresh) (h_hbm : ps .hbm) (h_out : ps .out) (h_pci : ps .pci) (h_tly : ps .tly) (h : Keeps ps s0 s) : Keeps ps s0 (State.resealRange s a1 a2).1 := by
  unfold State.resealRange
  repeat' first
    | (extract_lets +onlyGivenNames x; first | (with_reducible refine Keeps.cut (x := x) ?_ ?_; rotate_left; (try clear_value x); (intro _; skip); rotate_right; subst x) | subst x)
    | with_reducible assumption | exact h12 | exact h17 | with_reducible apply State.resealNode_keeps | with_reducible apply Keeps.foldl | with_reducible apply Keeps.foldlFst
    | (intro _; skip) | split
    | (dsimp only; skip)
    | with_reducible refine Keeps.pair (by assumption) ?_
    | (with_reducible refine Keeps.lit rfl rfl ?_; first | with_reducible assumption | exact h12 | exact h17 | with_reducible apply State.resealNode_keeps | with_reducible apply Keeps.foldl | with_reducible apply Keeps.foldlFst | with_reducible refine Keeps.pair (by assumption) ?_ | (split; skip))

theorem State.healAsk_keeps {ps : Part → Prop} {a1 a2 : Nat} {s0 s : State} (h11 : ps (.regs 11)) (h17 : ps (.regs 17)) (h20 : ps (.regs 20)) (h_evt : ps .evt) (h_gens : ps .gens) (h_lve : ps .lve) (h_out : ps .out) (h_pci : ps .pci) (h_tly : ps .tly) (h : Keeps ps s0 s) : Keeps ps s0 (State.healAsk s a1 a2) := by
  unfold State.healAsk
  repeat' first
    | (extract_lets +onlyGivenNames x; first | (with_reducible refine Keeps.cut (x := x) ?_ ?_; rotate_left; (try clear_value x); (intro _; skip); rotate_right; subst x) | subst x)
    | with_reducible assumption | exact h11 | exact h17 | exact h20 | with_reducible apply State.updLine_keeps | with_reducible apply State.send_keeps | with_reducible apply State.healLost_keeps
    | (intro _; skip) | split
    | (dsimp only; skip)
    | (with_reducible refine Keeps.lit rfl rfl ?_; first | with_reducible assumption | exact h11 | exact h17 | exact h20 | with_reducible apply State.updLine_keeps | with_reducible apply State.send_keeps | with_reducible apply State.healLost_keeps | (split; skip))

theorem State.foreignLost_keeps {ps : Part → Prop} {a1 : Nat} {s0 s : State} (h_tly : ps .tly) (h : Keeps ps s0 s) : Keeps ps s0 (State.foreignLost s a1) := by
  unfold State.foreignLost
  repeat' first
    | with_reducible assumption
    | (intro _; skip) | split
    | (dsimp only; skip)
    | (with_reducible refine Keeps.lit rfl rfl ?_; first | with_reducible assumption | (split; skip))

theorem State.lineBad_keeps {ps : Part → Prop} {a1 a2 a3 : Nat} {s0 s : State} (h6 : ps (.regs 6)) (h11 : ps (.regs 11)) (h17 : ps (.regs 17)) (h20 : ps (.regs 20)) (h_dck : ps .dck) (h_evt : ps .evt) (h_gens : ps .gens) (h_lve : ps .lve) (h_out : ps .out) (h_pci : ps .pci) (h_qqp : ps .qqp) (h_tly : ps .tly) (h : Keeps ps s0 s) : Keeps ps s0 (State.lineBad s a1 a2 a3) := by
  unfold State.lineBad
  repeat' first
    | with_reducible assumption | exact h6 | exact h11 | exact h17 | exact h20 | with_reducible apply State.healAsk_keeps | with_reducible apply State.foreignLost_keeps | with_reducible apply State.spillLost_keeps
    | (intro _; skip) | split
    | (dsimp only; skip)
    | (with_reducible refine Keeps.lit rfl rfl ?_; first | with_reducible assumption | exact h6 | exact h11 | exact h17 | exact h20 | with_reducible apply State.healAsk_keeps | with_reducible apply State.foreignLost_keeps | with_reducible apply State.spillLost_keeps | (split; skip))

theorem State.tagFail_keeps {ps : Part → Prop} {a1 a2 : Nat} {s0 s : State} (h12 : ps (.regs 12)) (h17 : ps (.regs 17)) (h_cry : ps .cry) (h_evt : ps .evt) (h_out : ps .out) (h_pci : ps .pci) (h : Keeps ps s0 s) : Keeps ps s0 (State.tagFail s a1 a2) := by
  unfold State.tagFail
  repeat' first
    | (extract_lets +onlyGivenNames x; first | (with_reducible refine Keeps.cut (x := x) ?_ ?_; rotate_left; (try clear_value x); (intro _; skip); rotate_right; subst x) | subst x)
    | with_reducible assumption | exact h12 | exact h17 | with_reducible apply State.post_keeps | with_reducible apply State.bump_keeps
    | (intro _; skip) | split
    | (dsimp only; skip)
    | (with_reducible refine Keeps.lit rfl rfl ?_; first | with_reducible assumption | exact h12 | exact h17 | with_reducible apply State.post_keeps | with_reducible apply State.bump_keeps | (split; skip))

theorem State.fetchPath_keeps {ps : Part → Prop} {a1 a2 : Nat} {a3 : Meet} {s0 s : State} (h12 : ps (.regs 12)) (h13 : ps (.regs 13)) (h17 : ps (.regs 17)) (h_cry : ps .cry) (h_evt : ps .evt) (h_hbm : ps .hbm) (h_out : ps .out) (h_pci : ps .pci) (h_tly : ps .tly) (h : Keeps ps s0 s) : Keeps ps s0 (State.fetchPath s a1 a2 a3) := by
  unfold State.fetchPath
  repeat' first
    | (extract_lets +onlyGivenNames x; first | (with_reducible refine Keeps.cut (x := x) ?_ ?_; rotate_left; (try clear_value x); (intro _; skip); rotate_right; subst x) | subst x)
    | with_reducible assumption | exact h12 | exact h13 | exact h17 | with_reducible apply State.bump_keeps | with_reducible apply State.damage_keeps | with_reducible apply State.hbmUe_keeps | with_reducible apply State.setNode_keeps | with_reducible apply Keeps.foldl | with_reducible apply Keeps.foldlFst
    | (intro _; skip) | split
    | (dsimp only; skip)
    | (with_reducible refine Keeps.lit rfl rfl ?_; first | with_reducible assumption | exact h12 | exact h13 | exact h17 | with_reducible apply State.bump_keeps | with_reducible apply State.damage_keeps | with_reducible apply State.hbmUe_keeps | with_reducible apply State.setNode_keeps | with_reducible apply Keeps.foldl | with_reducible apply Keeps.foldlFst | (split; skip))

theorem State.sealLine_keeps {ps : Part → Prop} {a1 a2 : Nat} {a3 : Bool} {a4 a5 a6 : Nat} {a7 : Meet} {s0 s : State} (h6 : ps (.regs 6)) (h11 : ps (.regs 11)) (h12 : ps (.regs 12)) (h13 : ps (.regs 13)) (h17 : ps (.regs 17)) (h20 : ps (.regs 20)) (h_cry : ps .cry) (h_dck : ps .dck) (h_evt : ps .evt) (h_fresh : ps .fresh) (h_gens : ps .gens) (h_hbm : ps .hbm) (h_lve : ps .lve) (h_out : ps .out) (h_pci : ps .pci) (h_qqp : ps .qqp) (h_tly : ps .tly) (h : Keeps ps s0 s) : Keeps ps s0 (State.sealLine s a1 a2 a3 a4 a5 a6 a7).1 := by
  unfold State.sealLine
  repeat' first
    | (extract_lets +onlyGivenNames x; first | (with_reducible refine Keeps.cut (x := x) ?_ ?_; rotate_left; (try clear_value x); (intro _; skip); rotate_right; subst x) | subst x)
    | with_reducible assumption | exact h6 | exact h11 | exact h12 | exact h13 | exact h17 | exact h20 | with_reducible apply State.fetchPath_keeps | with_reducible apply State.bump_keeps | with_reducible apply State.damage_keeps | with_reducible apply State.hbmUe_keeps | with_reducible apply State.evictNode_keeps | with_reducible apply State.hbmCe_keeps | with_reducible apply State.tagFail_keeps | with_reducible apply State.lineBad_keeps | with_reducible apply State.post_keeps | with_reducible apply State.setLine_keeps | with_reducible apply State.raiseChild_keeps | with_reducible apply Keeps.foldl | with_reducible apply Keeps.foldlFst
    | (intro _; skip) | split
    | (dsimp only; skip)
    | with_reducible refine Keeps.pair (by assumption) ?_
    | (with_reducible refine Keeps.lit rfl rfl ?_; first | with_reducible assumption | exact h6 | exact h11 | exact h12 | exact h13 | exact h17 | exact h20 | with_reducible apply State.fetchPath_keeps | with_reducible apply State.bump_keeps | with_reducible apply State.damage_keeps | with_reducible apply State.hbmUe_keeps | with_reducible apply State.evictNode_keeps | with_reducible apply State.hbmCe_keeps | with_reducible apply State.tagFail_keeps | with_reducible apply State.lineBad_keeps | with_reducible apply State.post_keeps | with_reducible apply State.setLine_keeps | with_reducible apply State.raiseChild_keeps | with_reducible apply Keeps.foldl | with_reducible apply Keeps.foldlFst | with_reducible refine Keeps.pair (by assumption) ?_ | (split; skip))

theorem State.plainLine_keeps {ps : Part → Prop} {a1 a2 : Nat} {a3 : Bool} {a4 a5 a6 : Nat} {a7 : Meet} {s0 s : State} (h13 : ps (.regs 13)) (h17 : ps (.regs 17)) (h_evt : ps .evt) (h_hbm : ps .hbm) (h_out : ps .out) (h_pci : ps .pci) (h_tly : ps .tly) (h : Keeps ps s0 s) : Keeps ps s0 (State.plainLine s a1 a2 a3 a4 a5 a6 a7).1 := by
  unfold State.plainLine
  repeat' first
    | (extract_lets +onlyGivenNames x; first | (with_reducible refine Keeps.cut (x := x) ?_ ?_; rotate_left; (try clear_value x); (intro _; skip); rotate_right; subst x) | subst x)
    | with_reducible assumption | exact h13 | exact h17 | with_reducible apply State.hbmUe_keeps | with_reducible apply State.hbmCe_keeps | with_reducible apply State.setLine_keeps
    | (intro _; skip) | split
    | (dsimp only; skip)
    | with_reducible refine Keeps.pair (by assumption) ?_

theorem State.hbmLine_keeps {ps : Part → Prop} {a1 a2 : Nat} {a3 : Bool} {a4 a5 : Nat} {a6 : Meet} {s0 s : State} (h6 : ps (.regs 6)) (h11 : ps (.regs 11)) (h12 : ps (.regs 12)) (h13 : ps (.regs 13)) (h17 : ps (.regs 17)) (h20 : ps (.regs 20)) (h_cry : ps .cry) (h_dck : ps .dck) (h_evt : ps .evt) (h_fresh : ps .fresh) (h_gens : ps .gens) (h_hbm : ps .hbm) (h_lve : ps .lve) (h_out : ps .out) (h_pci : ps .pci) (h_qqp : ps .qqp) (h_tly : ps .tly) (h : Keeps ps s0 s) : Keeps ps s0 (State.hbmLine s a1 a2 a3 a4 a5 a6).1 := by
  unfold State.hbmLine
  repeat' first
    | (extract_lets +onlyGivenNames x; first | (with_reducible refine Keeps.cut (x := x) ?_ ?_; rotate_left; (try clear_value x); (intro _; skip); rotate_right; subst x) | subst x)
    | with_reducible assumption | exact h6 | exact h11 | exact h12 | exact h13 | exact h17 | exact h20 | with_reducible apply State.srExit_keeps | with_reducible apply State.activate_keeps | with_reducible apply State.sealLine_keeps | with_reducible apply State.drawn_keeps | with_reducible apply State.plainLine_keeps
    | (intro _; skip) | split
    | (dsimp only; skip)
    | with_reducible refine Keeps.pair (by assumption) ?_
    | (with_reducible refine Keeps.lit rfl rfl ?_; first | with_reducible assumption | exact h6 | exact h11 | exact h12 | exact h13 | exact h17 | exact h20 | with_reducible apply State.srExit_keeps | with_reducible apply State.activate_keeps | with_reducible apply State.sealLine_keeps | with_reducible apply State.drawn_keeps | with_reducible apply State.plainLine_keeps | with_reducible refine Keeps.pair (by assumption) ?_ | (split; skip))

theorem State.hbmSpan_keeps {ps : Part → Prop} {a1 : Nat} {a2 : Bool} {a3 a4 a5 a6 a7 : Nat} {a8 : List Meet} {s0 s : State} (h6 : ps (.regs 6)) (h11 : ps (.regs 11)) (h12 : ps (.regs 12)) (h13 : ps (.regs 13)) (h17 : ps (.regs 17)) (h20 : ps (.regs 20)) (h_cry : ps .cry) (h_dck : ps .dck) (h_evt : ps .evt) (h_fresh : ps .fresh) (h_gens : ps .gens) (h_hbm : ps .hbm) (h_lve : ps .lve) (h_out : ps .out) (h_pci : ps .pci) (h_qqp : ps .qqp) (h_tly : ps .tly) (h : Keeps ps s0 s) : Keeps ps s0 (State.hbmSpan s a1 a2 a3 a4 a5 a6 a7 a8).1 := by
  induction a3 generalizing s a1 a2 a4 a5 a6 a7 a8 with
  | zero =>
    unfold State.hbmSpan
    repeat' first
      | (extract_lets +onlyGivenNames x; first | (with_reducible refine Keeps.cut (x := x) ?_ ?_; rotate_left; (try clear_value x); (intro _; skip); rotate_right; subst x) | subst x)
      | with_reducible assumption | exact h6 | exact h11 | exact h12 | exact h13 | exact h17 | exact h20 | with_reducible apply State.hbmLine_keeps
      | (intro _; skip) | split
      | (dsimp only; skip)
      | with_reducible refine Keeps.pair (by assumption) ?_
      | (with_reducible refine Keeps.lit rfl rfl ?_; first | with_reducible assumption | exact h6 | exact h11 | exact h12 | exact h13 | exact h17 | exact h20 | with_reducible apply State.hbmLine_keeps | with_reducible refine Keeps.pair (by assumption) ?_ | (split; skip))
  | succ n ih =>
    unfold State.hbmSpan
    repeat' first
      | (extract_lets +onlyGivenNames x; first | (with_reducible refine Keeps.cut (x := x) ?_ ?_; rotate_left; (try clear_value x); (intro _; skip); rotate_right; subst x) | subst x)
      | with_reducible assumption | exact h6 | exact h11 | exact h12 | exact h13 | exact h17 | exact h20 | with_reducible apply State.hbmLine_keeps | with_reducible apply ih
      | (intro _; skip) | split
      | (dsimp only; skip)
      | with_reducible refine Keeps.pair (by assumption) ?_
      | (with_reducible refine Keeps.lit rfl rfl ?_; first | with_reducible assumption | exact h6 | exact h11 | exact h12 | exact h13 | exact h17 | exact h20 | with_reducible apply State.hbmLine_keeps | with_reducible apply ih | with_reducible refine Keeps.pair (by assumption) ?_ | (split; skip))

theorem State.hbmAccess_keeps {ps : Part → Prop} {a1 a2 : Nat} {a3 a4 : Bool} {a5 a6 : Nat} {a7 : List Meet} {s0 s : State} (h6 : ps (.regs 6)) (h11 : ps (.regs 11)) (h12 : ps (.regs 12)) (h13 : ps (.regs 13)) (h17 : ps (.regs 17)) (h20 : ps (.regs 20)) (h_cry : ps .cry) (h_dck : ps .dck) (h_evt : ps .evt) (h_fresh : ps .fresh) (h_gens : ps .gens) (h_hbm : ps .hbm) (h_lve : ps .lve) (h_out : ps .out) (h_pci : ps .pci) (h_qqp : ps .qqp) (h_tly : ps .tly) (h : Keeps ps s0 s) : Keeps ps s0 (State.hbmAccess s a1 a2 a3 a4 a5 a6 a7).1 := by
  unfold State.hbmAccess
  repeat' first
    | with_reducible assumption | exact h6 | exact h11 | exact h12 | exact h13 | exact h17 | exact h20 | with_reducible apply State.bump_keeps | with_reducible apply State.hbmSpan_keeps
    | (intro _; skip) | split
    | (dsimp only; skip)
    | with_reducible refine Keeps.pair (by assumption) ?_
    | (with_reducible refine Keeps.lit rfl rfl ?_; first | with_reducible assumption | exact h6 | exact h11 | exact h12 | exact h13 | exact h17 | exact h20 | with_reducible apply State.bump_keeps | with_reducible apply State.hbmSpan_keeps | with_reducible refine Keeps.pair (by assumption) ?_ | (split; skip))

theorem State.updSline_keeps {ps : Part → Prop} {a1 a2 : Nat} {a3 : MLine → MLine} {s0 s : State} (h_spm : ps .spm) (h : Keeps ps s0 s) : Keeps ps s0 (State.updSline s a1 a2 a3) :=
  ⟨h.1, h.2, h.3, h.4, h.5, fun k => Map.wf_upd _ _ (h.6 k), fun p np => Part.same_trans (h.7 p np) (by
    cases p
    case spm => exact absurd h_spm np
    all_goals rfl), h.8⟩


theorem State.spmUe_keeps {ps : Part → Prop} {a1 a2 : Nat} {s0 s : State} (h14 : ps (.regs 14)) (h17 : ps (.regs 17)) (h_evt : ps .evt) (h_out : ps .out) (h_pci : ps .pci) (h_spm : ps .spm) (h : Keeps ps s0 s) : Keeps ps s0 (State.spmUe s a1 a2) := by
  unfold State.spmUe
  repeat' first
    | (extract_lets +onlyGivenNames x; first | (with_reducible refine Keeps.cut (x := x) ?_ ?_; rotate_left; (try clear_value x); (intro _; skip); rotate_right; subst x) | subst x)
    | with_reducible assumption | exact h14 | exact h17 | with_reducible apply State.updSline_keeps | with_reducible apply State.post_keeps | with_reducible apply State.bump_keeps
    | (intro _; skip) | split
    | (dsimp only; skip)
    | (with_reducible refine Keeps.lit rfl rfl ?_; first | with_reducible assumption | exact h14 | exact h17 | with_reducible apply State.updSline_keeps | with_reducible apply State.post_keeps | with_reducible apply State.bump_keeps | (split; skip))

theorem State.spmLine_keeps {ps : Part → Prop} {a1 a2 : Nat} {a3 : Bool} {a4 a5 a6 : Nat} {a7 : Meet} {s0 s : State} (h14 : ps (.regs 14)) (h17 : ps (.regs 17)) (h_evt : ps .evt) (h_out : ps .out) (h_pci : ps .pci) (h_spm : ps .spm) (h : Keeps ps s0 s) : Keeps ps s0 (State.spmLine s a1 a2 a3 a4 a5 a6 a7).1 := by
  unfold State.spmLine
  repeat' first
    | (extract_lets +onlyGivenNames x; first | (with_reducible refine Keeps.cut (x := x) ?_ ?_; rotate_left; (try clear_value x); (intro _; skip); rotate_right; subst x) | subst x)
    | with_reducible assumption | exact h14 | exact h17 | with_reducible apply State.spmUe_keeps | with_reducible apply State.bump_keeps | with_reducible apply State.updSline_keeps
    | (intro _; skip) | split
    | (dsimp only; skip)
    | with_reducible refine Keeps.pair (by assumption) ?_

theorem State.spmSpan_keeps {ps : Part → Prop} {a1 : Nat} {a2 : Bool} {a3 a4 a5 a6 a7 a8 : Nat} {a9 : List Meet} {s0 s : State} (h14 : ps (.regs 14)) (h17 : ps (.regs 17)) (h_evt : ps .evt) (h_out : ps .out) (h_pci : ps .pci) (h_spm : ps .spm) (h : Keeps ps s0 s) : Keeps ps s0 (State.spmSpan s a1 a2 a3 a4 a5 a6 a7 a8 a9).1 := by
  induction a4 generalizing s a1 a2 a3 a5 a6 a7 a8 a9 with
  | zero =>
    unfold State.spmSpan
    repeat' first
      | (extract_lets +onlyGivenNames x; first | (with_reducible refine Keeps.cut (x := x) ?_ ?_; rotate_left; (try clear_value x); (intro _; skip); rotate_right; subst x) | subst x)
      | with_reducible assumption | exact h14 | exact h17 | with_reducible apply State.spmLine_keeps
      | (intro _; skip) | split
      | (dsimp only; skip)
      | with_reducible refine Keeps.pair (by assumption) ?_
      | (with_reducible refine Keeps.lit rfl rfl ?_; first | with_reducible assumption | exact h14 | exact h17 | with_reducible apply State.spmLine_keeps | with_reducible refine Keeps.pair (by assumption) ?_ | (split; skip))
  | succ n ih =>
    unfold State.spmSpan
    repeat' first
      | (extract_lets +onlyGivenNames x; first | (with_reducible refine Keeps.cut (x := x) ?_ ?_; rotate_left; (try clear_value x); (intro _; skip); rotate_right; subst x) | subst x)
      | with_reducible assumption | exact h14 | exact h17 | with_reducible apply State.spmLine_keeps | with_reducible apply ih
      | (intro _; skip) | split
      | (dsimp only; skip)
      | with_reducible refine Keeps.pair (by assumption) ?_
      | (with_reducible refine Keeps.lit rfl rfl ?_; first | with_reducible assumption | exact h14 | exact h17 | with_reducible apply State.spmLine_keeps | with_reducible apply ih | with_reducible refine Keeps.pair (by assumption) ?_ | (split; skip))

theorem State.spmAccess_keeps {ps : Part → Prop} {a1 a2 a3 a4 : Nat} {a5 : SkReq} {a6 : List Meet} {s0 s : State} (h14 : ps (.regs 14)) (h17 : ps (.regs 17)) (h_evt : ps .evt) (h_out : ps .out) (h_pci : ps .pci) (h_spm : ps .spm) (h : Keeps ps s0 s) : Keeps ps s0 (State.spmAccess s a1 a2 a3 a4 a5 a6).1 := by
  unfold State.spmAccess
  repeat' first
    | (extract_lets +onlyGivenNames x; first | (with_reducible refine Keeps.cut (x := x) ?_ ?_; rotate_left; (try clear_value x); (intro _; skip); rotate_right; subst x) | subst x)
    | with_reducible assumption | exact h14 | exact h17 | with_reducible apply State.bump_keeps | with_reducible apply State.spmSpan_keeps
    | (intro _; skip) | split
    | (dsimp only; skip)
    | with_reducible refine Keeps.pair (by assumption) ?_

end Sys2Proof.Machine
end

