-- ==== Sys2Proof/Laws/Noc.lean ====
section
/-! SUPPORT. What each operation and each meaning of Machine/Noc.lean keeps (Keeps): one lemma a definition. -/

-- The package as one text is checked in one process: its proofs are checked one after another, and its linters keep quiet.
set_option Elab.async false
set_option linter.all false

namespace Sys2Proof.Machine
open Sys2Proof

theorem State.setPkt_keeps {ps : Part → Prop} {a1 : Nat} {a2 : Pkt} {s0 s : State} (h_noc : ps .noc) (h : Keeps ps s0 s) : Keeps ps s0 (State.setPkt s a1 a2) := by
  unfold State.setPkt
  repeat' first
    | with_reducible assumption
    | (intro _; skip) | split
    | (dsimp only; skip)
    | (with_reducible refine Keeps.lit rfl rfl ?_; first | with_reducible assumption | (split; skip))

theorem State.updPkt_keeps {ps : Part → Prop} {a1 : Nat} {a2 : Pkt → Pkt} {s0 s : State} (h_noc : ps .noc) (h : Keeps ps s0 s) : Keeps ps s0 (State.updPkt s a1 a2) := by
  unfold State.updPkt
  repeat' first
    | with_reducible assumption | with_reducible apply State.setPkt_keeps
    | (intro _; skip) | split
    | (dsimp only; skip)
    | (with_reducible refine Keeps.lit rfl rfl ?_; first | with_reducible assumption | with_reducible apply State.setPkt_keeps | (split; skip))

theorem State.dropPkt_keeps {ps : Part → Prop} {a1 : Nat} {s0 s : State} (h_fab : ps .fab) (h_noc : ps .noc) (h : Keeps ps s0 s) : Keeps ps s0 (State.dropPkt s a1) := by
  unfold State.dropPkt
  repeat' first
    | with_reducible assumption
    | (intro _; skip) | split
    | (dsimp only; skip)
    | (with_reducible refine Keeps.lit rfl rfl ?_; first | with_reducible assumption | (split; skip))

theorem State.unpark_keeps {ps : Part → Prop} {a1 : Nat} {s0 s : State} (h_noc : ps .noc) (h : Keeps ps s0 s) : Keeps ps s0 (State.unpark s a1) := by
  unfold State.unpark
  repeat' first
    | with_reducible assumption
    | (intro _; skip) | split
    | (dsimp only; skip)
    | (with_reducible refine Keeps.lit rfl rfl ?_; first | with_reducible assumption | (split; skip))

theorem State.cross_keeps {ps : Part → Prop} {a1 : Nat} {a2 a3 : Bool} {s0 s : State} (h5 : ps (.regs 5)) (h17 : ps (.regs 17)) (h20 : ps (.regs 20)) (h_evt : ps .evt) (h_gens : ps .gens) (h_noc : ps .noc) (h_out : ps .out) (h_pci : ps .pci) (h : Keeps ps s0 s) : Keeps ps s0 (State.cross s a1 a2 a3).1 := by
  unfold State.cross
  repeat' first
    | (extract_lets +onlyGivenNames x; first | (with_reducible refine Keeps.cut (x := x) ?_ ?_; rotate_left; (try clear_value x); (intro _; skip); rotate_right; subst x) | subst x)
    | with_reducible assumption | exact h5 | exact h17 | exact h20 | with_reducible apply State.inject_keeps | with_reducible apply State.unpark_keeps | with_reducible apply State.post_keeps | with_reducible apply State.bump_keeps
    | (intro _; skip) | split
    | (dsimp only; skip)
    | with_reducible refine Keeps.pair (by assumption) ?_

theorem State.crossAll_keeps {ps : Part → Prop} {a1 : Bool} {a2 : List (Nat × Bool)} {s0 s : State} (h5 : ps (.regs 5)) (h17 : ps (.regs 17)) (h20 : ps (.regs 20)) (h_evt : ps .evt) (h_gens : ps .gens) (h_noc : ps .noc) (h_out : ps .out) (h_pci : ps .pci) (h : Keeps ps s0 s) : Keeps ps s0 (State.crossAll s a1 a2).1 := by
  induction a2 generalizing s a1 with
  | nil =>
    unfold State.crossAll
    repeat' first
      | (extract_lets +onlyGivenNames x; first | (with_reducible refine Keeps.cut (x := x) ?_ ?_; rotate_left; (try clear_value x); (intro _; skip); rotate_right; subst x) | subst x)
      | with_reducible assumption | exact h5 | exact h17 | exact h20 | with_reducible apply State.cross_keeps
      | (intro _; skip) | split
      | (dsimp only; skip)
      | with_reducible refine Keeps.pair (by assumption) ?_
  | cons x l ih =>
    unfold State.crossAll
    repeat' first
      | (extract_lets +onlyGivenNames x; first | (with_reducible refine Keeps.cut (x := x) ?_ ?_; rotate_left; (try clear_value x); (intro _; skip); rotate_right; subst x) | subst x)
      | with_reducible assumption | exact h5 | exact h17 | exact h20 | with_reducible apply State.cross_keeps | with_reducible apply ih
      | (intro _; skip) | split
      | (dsimp only; skip)
      | with_reducible refine Keeps.pair (by assumption) ?_

theorem State.taskFault_keeps {ps : Part → Prop} {a1 a2 a3 : Nat} {s0 s : State} (h6 : ps (.regs 6)) (h_dck : ps .dck) (h_med : ps .med) (h_qqp : ps .qqp) (h_tly : ps .tly) (h : Keeps ps s0 s) : Keeps ps s0 (State.taskFault s a1 a2 a3) := by
  unfold State.taskFault
  repeat' first
    | with_reducible assumption | exact h6 | with_reducible apply State.segEnd_keeps | with_reducible apply State.updTask_keeps | with_reducible apply State.leaveEngine_keeps | with_reducible apply State.endTask_keeps | with_reducible apply State.workLost_keeps
    | (intro _; skip) | split
    | (dsimp only; skip)
    | (with_reducible refine Keeps.lit rfl rfl ?_; first | with_reducible assumption | exact h6 | with_reducible apply State.segEnd_keeps | with_reducible apply State.updTask_keeps | with_reducible apply State.leaveEngine_keeps | with_reducible apply State.endTask_keeps | with_reducible apply State.workLost_keeps | (split; skip))

theorem State.barDone_keeps {ps : Part → Prop} {a1 : Nat} {a2 : Pkt} {a3 a4 : Nat} {s0 s : State} (h16 : ps (.regs 16)) (h17 : ps (.regs 17)) (h_evt : ps .evt) (h_out : ps .out) (h_pci : ps .pci) (h : Keeps ps s0 s) : Keeps ps s0 (State.barDone s a1 a2 a3 a4) := by
  unfold State.barDone
  repeat' first
    | (extract_lets +onlyGivenNames x; first | (with_reducible refine Keeps.cut (x := x) ?_ ?_; rotate_left; (try clear_value x); (intro _; skip); rotate_right; subst x) | subst x)
    | with_reducible assumption | exact h16 | exact h17 | with_reducible apply State.post_keeps | with_reducible apply State.bump_keeps
    | (intro _; skip) | split
    | (dsimp only; skip)
    | (with_reducible refine Keeps.lit rfl rfl ?_; first | with_reducible assumption | exact h16 | exact h17 | with_reducible apply State.post_keeps | with_reducible apply State.bump_keeps | (split; skip))

theorem State.giveBack_keeps {ps : Part → Prop} {a1 : Pkt} {a2 a3 : Nat} {s0 s : State} (h6 : ps (.regs 6)) (h16 : ps (.regs 16)) (h17 : ps (.regs 17)) (h_dck : ps .dck) (h_evt : ps .evt) (h_med : ps .med) (h_noc : ps .noc) (h_out : ps .out) (h_pci : ps .pci) (h_qqp : ps .qqp) (h_tly : ps .tly) (h : Keeps ps s0 s) : Keeps ps s0 (State.giveBack s a1 a2 a3) := by
  unfold State.giveBack
  repeat' first
    | (extract_lets +onlyGivenNames x; first | (with_reducible refine Keeps.cut (x := x) ?_ ?_; rotate_left; (try clear_value x); (intro _; skip); rotate_right; subst x) | subst x)
    | with_reducible assumption | exact h6 | exact h16 | exact h17 | with_reducible apply State.barDone_keeps | with_reducible apply State.taskFault_keeps
    | (intro _; skip) | split
    | (dsimp only; skip)
    | (with_reducible refine Keeps.lit rfl rfl ?_; first | with_reducible assumption | exact h6 | exact h16 | exact h17 | with_reducible apply State.barDone_keeps | with_reducible apply State.taskFault_keeps | (split; skip))

theorem State.attemptEnd_keeps {ps : Part → Prop} {a1 : Nat} {a2 : Pkt} {a3 a4 : Nat} {s0 s : State} (h6 : ps (.regs 6)) (h16 : ps (.regs 16)) (h17 : ps (.regs 17)) (h_dck : ps .dck) (h_evt : ps .evt) (h_fresh : ps .fresh) (h_med : ps .med) (h_noc : ps .noc) (h_out : ps .out) (h_pci : ps .pci) (h_qqp : ps .qqp) (h_tly : ps .tly) (h : Keeps ps s0 s) : Keeps ps s0 (State.attemptEnd s a1 a2 a3 a4) := by
  unfold State.attemptEnd
  repeat' first
    | (extract_lets +onlyGivenNames x; first | (with_reducible refine Keeps.cut (x := x) ?_ ?_; rotate_left; (try clear_value x); (intro _; skip); rotate_right; subst x) | subst x)
    | with_reducible assumption | exact h6 | exact h16 | exact h17 | with_reducible apply State.updCmd_keeps | with_reducible apply State.setPkt_keeps | with_reducible apply State.drawn_keeps | with_reducible apply State.giveBack_keeps | with_reducible apply State.post_keeps
    | (intro _; skip) | split
    | (dsimp only; skip)
    | (with_reducible refine Keeps.lit rfl rfl ?_; first | with_reducible assumption | exact h6 | exact h16 | exact h17 | with_reducible apply State.updCmd_keeps | with_reducible apply State.setPkt_keeps | with_reducible apply State.drawn_keeps | with_reducible apply State.giveBack_keeps | with_reducible apply State.post_keeps | (split; skip))

theorem State.niAnswer_keeps {ps : Part → Prop} {a1 : Pkt} {a2 a3 : Nat} {s0 s : State} (h6 : ps (.regs 6)) (h16 : ps (.regs 16)) (h17 : ps (.regs 17)) (h_dck : ps .dck) (h_evt : ps .evt) (h_med : ps .med) (h_noc : ps .noc) (h_out : ps .out) (h_pci : ps .pci) (h_qqp : ps .qqp) (h_tly : ps .tly) (h : Keeps ps s0 s) : Keeps ps s0 (State.niAnswer s a1 a2 a3) := by
  unfold State.niAnswer
  repeat' first
    | with_reducible assumption | exact h6 | exact h16 | exact h17 | with_reducible apply State.giveBack_keeps
    | (intro _; skip) | split
    | (dsimp only; skip)

theorem State.launch_keeps {ps : Part → Prop} {a1 : Nat} {a2 : Pkt} {s0 s : State} (h5 : ps (.regs 5)) (h6 : ps (.regs 6)) (h16 : ps (.regs 16)) (h17 : ps (.regs 17)) (h20 : ps (.regs 20)) (h_dck : ps .dck) (h_evt : ps .evt) (h_fab : ps .fab) (h_fresh : ps .fresh) (h_gens : ps .gens) (h_med : ps .med) (h_noc : ps .noc) (h_out : ps .out) (h_pci : ps .pci) (h_qqp : ps .qqp) (h_tly : ps .tly) (h : Keeps ps s0 s) : Keeps ps s0 (State.launch s a1 a2) := by
  unfold State.launch
  repeat' first
    | (extract_lets +onlyGivenNames x; first | (with_reducible refine Keeps.cut (x := x) ?_ ?_; rotate_left; (try clear_value x); (intro _; skip); rotate_right; subst x) | subst x)
    | with_reducible assumption | exact h5 | exact h6 | exact h16 | exact h17 | exact h20 | with_reducible apply State.attemptEnd_keeps | with_reducible apply State.dropPkt_keeps | with_reducible apply State.crossAll_keeps | with_reducible apply State.setPkt_keeps
    | (intro _; skip) | split
    | (dsimp only; skip)
    | with_reducible refine Keeps.pair (by assumption) ?_
    | (with_reducible refine Keeps.lit rfl rfl ?_; first | with_reducible assumption | exact h5 | exact h6 | exact h16 | exact h17 | exact h20 | with_reducible apply State.attemptEnd_keeps | with_reducible apply State.dropPkt_keeps | with_reducible apply State.crossAll_keeps | with_reducible apply State.setPkt_keeps | with_reducible refine Keeps.pair (by assumption) ?_ | (split; skip))

theorem State.niCheck_keeps {ps : Part → Prop} {a1 : Req} {a2 : SkReq} {s0 s : State} (h17 : ps (.regs 17)) (h_evt : ps .evt) (h_out : ps .out) (h_pci : ps .pci) (h : Keeps ps s0 s) : Keeps ps s0 (State.niCheck s a1 a2).1 := by
  unfold State.niCheck
  repeat' first
    | (extract_lets +onlyGivenNames x; first | (with_reducible refine Keeps.cut (x := x) ?_ ?_; rotate_left; (try clear_value x); (intro _; skip); rotate_right; subst x) | subst x)
    | with_reducible assumption | exact h17 | with_reducible apply State.post_keeps
    | (intro _; skip) | split
    | (dsimp only; skip)
    | with_reducible refine Keeps.pair (by assumption) ?_
    | (with_reducible refine Keeps.lit rfl rfl ?_; first | with_reducible assumption | exact h17 | with_reducible apply State.post_keeps | with_reducible refine Keeps.pair (by assumption) ?_ | (split; skip))

theorem State.skSend_keeps {ps : Part → Prop} {a1 : Req} {a2 : SkReq} {s0 s : State} (h5 : ps (.regs 5)) (h6 : ps (.regs 6)) (h16 : ps (.regs 16)) (h17 : ps (.regs 17)) (h20 : ps (.regs 20)) (h_dck : ps .dck) (h_evt : ps .evt) (h_fab : ps .fab) (h_fresh : ps .fresh) (h_gens : ps .gens) (h_med : ps .med) (h_noc : ps .noc) (h_out : ps .out) (h_pci : ps .pci) (h_qqp : ps .qqp) (h_tly : ps .tly) (h : Keeps ps s0 s) : Keeps ps s0 (State.skSend s a1 a2) := by
  unfold State.skSend
  repeat' first
    | (extract_lets +onlyGivenNames x; first | (with_reducible refine Keeps.cut (x := x) ?_ ?_; rotate_left; (try clear_value x); (intro _; skip); rotate_right; subst x) | subst x)
    | with_reducible assumption | exact h5 | exact h6 | exact h16 | exact h17 | exact h20 | with_reducible apply State.niCheck_keeps | with_reducible apply State.niAnswer_keeps | with_reducible apply State.launch_keeps
    | (intro _; skip) | split
    | (dsimp only; skip)
    | with_reducible refine Keeps.pair (by assumption) ?_
    | (with_reducible refine Keeps.lit rfl rfl ?_; first | with_reducible assumption | exact h5 | exact h6 | exact h16 | exact h17 | exact h20 | with_reducible apply State.niCheck_keeps | with_reducible apply State.niAnswer_keeps | with_reducible apply State.launch_keeps | with_reducible refine Keeps.pair (by assumption) ?_ | (split; skip))

theorem execSkidwayRequestSend_keeps {ps : Part → Prop} {s : State} {a1 : Req} {a2 : SkReq} (h5 : ps (.regs 5)) (h6 : ps (.regs 6)) (h16 : ps (.regs 16)) (h17 : ps (.regs 17)) (h20 : ps (.regs 20)) (h_dck : ps .dck) (h_evt : ps .evt) (h_fab : ps .fab) (h_fresh : ps .fresh) (h_gens : ps .gens) (h_med : ps .med) (h_noc : ps .noc) (h_out : ps .out) (h_pci : ps .pci) (h_qqp : ps .qqp) (h_tly : ps .tly) : ∀ r, (execSkidwayRequestSend a1 a2 s) = .next r → Keeps ps s r := by
  intro r e
  cases e
  have h := Keeps.refl (ps := ps) s
  repeat' first
    | with_reducible assumption | exact h5 | exact h6 | exact h16 | exact h17 | exact h20 | with_reducible apply State.when_keeps | with_reducible apply State.skSend_keeps
    | (intro _; skip) | split
    | (dsimp only; skip)
    | (with_reducible refine Keeps.lit rfl rfl ?_; first | with_reducible assumption | exact h5 | exact h6 | exact h16 | exact h17 | exact h20 | with_reducible apply State.when_keeps | with_reducible apply State.skSend_keeps | (split; skip))

theorem State.answer_keeps {ps : Part → Prop} {a1 a2 a3 : Nat} {s0 s : State} (h5 : ps (.regs 5)) (h17 : ps (.regs 17)) (h20 : ps (.regs 20)) (h_evt : ps .evt) (h_fab : ps .fab) (h_gens : ps .gens) (h_noc : ps .noc) (h_out : ps .out) (h_pci : ps .pci) (h : Keeps ps s0 s) : Keeps ps s0 (State.answer s a1 a2 a3) := by
  unfold State.answer
  repeat' first
    | (extract_lets +onlyGivenNames x; first | (with_reducible refine Keeps.cut (x := x) ?_ ?_; rotate_left; (try clear_value x); (intro _; skip); rotate_right; subst x) | subst x)
    | with_reducible assumption | exact h5 | exact h17 | exact h20 | with_reducible apply State.bump_keeps | with_reducible apply State.crossAll_keeps | with_reducible apply State.setPkt_keeps
    | (intro _; skip) | split
    | (dsimp only; skip)
    | with_reducible refine Keeps.pair (by assumption) ?_
    | (with_reducible refine Keeps.lit rfl rfl ?_; first | with_reducible assumption | exact h5 | exact h17 | exact h20 | with_reducible apply State.bump_keeps | with_reducible apply State.crossAll_keeps | with_reducible apply State.setPkt_keeps | with_reducible refine Keeps.pair (by assumption) ?_ | (split; skip))

theorem State.routeClosed_keeps {ps : Part → Prop} {a1 a2 : Nat} {s0 s : State} (h_noc : ps .noc) (h : Keeps ps s0 s) : Keeps ps s0 (State.routeClosed s a1 a2) := by
  unfold State.routeClosed
  repeat' first
    | with_reducible assumption | with_reducible apply State.updRte_keeps
    | (intro _; skip) | split
    | (dsimp only; skip)
    | (with_reducible refine Keeps.lit rfl rfl ?_; first | with_reducible assumption | with_reducible apply State.updRte_keeps | (split; skip))

theorem State.grant_keeps {ps : Part → Prop} {a1 : Pkt} {s0 s : State} (h_noc : ps .noc) (h : Keeps ps s0 s) : Keeps ps s0 (State.grant s a1) := by
  unfold State.grant
  repeat' first
    | with_reducible assumption
    | (intro _; skip) | split
    | (dsimp only; skip)
    | (with_reducible refine Keeps.lit rfl rfl ?_; first | with_reducible assumption | (split; skip))

theorem execSkidwayCompletion_keeps {ps : Part → Prop} {s : State} {a1 : Nat} (h5 : ps (.regs 5)) (h6 : ps (.regs 6)) (h16 : ps (.regs 16)) (h17 : ps (.regs 17)) (h_dck : ps .dck) (h_evt : ps .evt) (h_fab : ps .fab) (h_fresh : ps .fresh) (h_med : ps .med) (h_noc : ps .noc) (h_out : ps .out) (h_pci : ps .pci) (h_qqp : ps .qqp) (h_tly : ps .tly) : ∀ r, (execSkidwayCompletion a1 s) = .next r → Keeps ps s r := by
  intro r e
  cases e
  have h := Keeps.refl (ps := ps) s
  repeat' first
    | (extract_lets +onlyGivenNames x; first | (with_reducible refine Keeps.cut (x := x) ?_ ?_; rotate_left; (try clear_value x); (intro _; skip); rotate_right; subst x) | subst x)
    | with_reducible assumption | exact h5 | exact h6 | exact h16 | exact h17 | with_reducible apply State.when_keeps | with_reducible apply State.dropPkt_keeps | with_reducible apply State.grant_keeps | with_reducible apply State.raise_keeps | with_reducible apply State.routeClosed_keeps | with_reducible apply State.attemptEnd_keeps
    | (intro _; skip) | split
    | (dsimp only; skip)
    | (with_reducible refine Keeps.lit rfl rfl ?_; first | with_reducible assumption | exact h5 | exact h6 | exact h16 | exact h17 | with_reducible apply State.when_keeps | with_reducible apply State.dropPkt_keeps | with_reducible apply State.grant_keeps | with_reducible apply State.raise_keeps | with_reducible apply State.routeClosed_keeps | with_reducible apply State.attemptEnd_keeps | (split; skip))

theorem execRequestTimeout_keeps {ps : Part → Prop} {s : State} {a1 : Nat} (h5 : ps (.regs 5)) (h6 : ps (.regs 6)) (h16 : ps (.regs 16)) (h17 : ps (.regs 17)) (h_dck : ps .dck) (h_evt : ps .evt) (h_fab : ps .fab) (h_fresh : ps .fresh) (h_med : ps .med) (h_noc : ps .noc) (h_out : ps .out) (h_pci : ps .pci) (h_qqp : ps .qqp) (h_tly : ps .tly) : ∀ r, (execRequestTimeout a1 s) = .next r → Keeps ps s r := by
  intro r e
  cases e
  have h := Keeps.refl (ps := ps) s
  repeat' first
    | (extract_lets +onlyGivenNames x; first | (with_reducible refine Keeps.cut (x := x) ?_ ?_; rotate_left; (try clear_value x); (intro _; skip); rotate_right; subst x) | subst x)
    | with_reducible assumption | exact h5 | exact h6 | exact h16 | exact h17 | with_reducible apply State.when_keeps | with_reducible apply State.bump_keeps | with_reducible apply State.dropPkt_keeps | with_reducible apply State.setPkt_keeps | with_reducible apply State.attemptEnd_keeps
    | (intro _; skip) | split
    | (dsimp only; skip)
    | (with_reducible refine Keeps.lit rfl rfl ?_; first | with_reducible assumption | exact h5 | exact h6 | exact h16 | exact h17 | with_reducible apply State.when_keeps | with_reducible apply State.bump_keeps | with_reducible apply State.dropPkt_keeps | with_reducible apply State.setPkt_keeps | with_reducible apply State.attemptEnd_keeps | (split; skip))

theorem State.retrySkid_keeps {ps : Part → Prop} {a1 : Nat} {s0 s : State} (h5 : ps (.regs 5)) (h6 : ps (.regs 6)) (h16 : ps (.regs 16)) (h17 : ps (.regs 17)) (h20 : ps (.regs 20)) (h_dck : ps .dck) (h_evt : ps .evt) (h_fab : ps .fab) (h_fresh : ps .fresh) (h_gens : ps .gens) (h_med : ps .med) (h_noc : ps .noc) (h_out : ps .out) (h_pci : ps .pci) (h_qqp : ps .qqp) (h_tly : ps .tly) (h : Keeps ps s0 s) : Keeps ps s0 (State.retrySkid s a1) := by
  unfold State.retrySkid
  repeat' first
    | with_reducible assumption | exact h5 | exact h6 | exact h16 | exact h17 | exact h20 | with_reducible apply State.launch_keeps | with_reducible apply State.bump_keeps
    | (intro _; skip) | split
    | (dsimp only; skip)
    | (with_reducible refine Keeps.lit rfl rfl ?_; first | with_reducible assumption | exact h5 | exact h6 | exact h16 | exact h17 | exact h20 | with_reducible apply State.launch_keeps | with_reducible apply State.bump_keeps | (split; skip))

theorem State.tmoCount_keeps {ps : Part → Prop} {a1 a2 : Nat} {s0 s : State} (h5 : ps (.regs 5)) (h17 : ps (.regs 17)) (h_evt : ps .evt) (h_noc : ps .noc) (h_out : ps .out) (h_pci : ps .pci) (h : Keeps ps s0 s) : Keeps ps s0 (State.tmoCount s a1 a2) := by
  unfold State.tmoCount
  repeat' first
    | (extract_lets +onlyGivenNames x; first | (with_reducible refine Keeps.cut (x := x) ?_ ?_; rotate_left; (try clear_value x); (intro _; skip); rotate_right; subst x) | subst x)
    | with_reducible assumption | exact h5 | exact h17 | with_reducible apply State.post_keeps | with_reducible apply State.put_keeps
    | (intro _; skip) | split
    | (dsimp only; skip)
    | (with_reducible refine Keeps.lit rfl rfl ?_; first | with_reducible assumption | exact h5 | exact h17 | with_reducible apply State.post_keeps | with_reducible apply State.put_keeps | (split; skip))

theorem execTargetTimeout_keeps {ps : Part → Prop} {s : State} {a1 : Nat} (h5 : ps (.regs 5)) (h17 : ps (.regs 17)) (h20 : ps (.regs 20)) (h_evt : ps .evt) (h_fab : ps .fab) (h_gens : ps .gens) (h_noc : ps .noc) (h_out : ps .out) (h_pci : ps .pci) : ∀ r, (execTargetTimeout a1 s) = .next r → Keeps ps s r := by
  intro r e
  cases e
  have h := Keeps.refl (ps := ps) s
  repeat' first
    | (extract_lets +onlyGivenNames x; first | (with_reducible refine Keeps.cut (x := x) ?_ ?_; rotate_left; (try clear_value x); (intro _; skip); rotate_right; subst x) | subst x)
    | with_reducible assumption | exact h5 | exact h17 | exact h20 | with_reducible apply State.when_keeps | with_reducible apply State.tmoCount_keeps | with_reducible apply State.answer_keeps | with_reducible apply State.bump_keeps
    | (intro _; skip) | split
    | (dsimp only; skip)
    | (with_reducible refine Keeps.lit rfl rfl ?_; first | with_reducible assumption | exact h5 | exact h17 | exact h20 | with_reducible apply State.when_keeps | with_reducible apply State.tmoCount_keeps | with_reducible apply State.answer_keeps | with_reducible apply State.bump_keeps | (split; skip))

theorem State.isoEnd_keeps {ps : Part → Prop} {a1 : Nat} {s0 s : State} (h5 : ps (.regs 5)) (h17 : ps (.regs 17)) (h_evt : ps .evt) (h_noc : ps .noc) (h_out : ps .out) (h_pci : ps .pci) (h : Keeps ps s0 s) : Keeps ps s0 (State.isoEnd s a1) := by
  unfold State.isoEnd
  repeat' first
    | (extract_lets +onlyGivenNames x; first | (with_reducible refine Keeps.cut (x := x) ?_ ?_; rotate_left; (try clear_value x); (intro _; skip); rotate_right; subst x) | subst x)
    | with_reducible assumption | exact h5 | exact h17 | with_reducible apply State.put_keeps | with_reducible apply State.post_keeps
    | (intro _; skip) | split
    | (dsimp only; skip)
    | (with_reducible refine Keeps.lit rfl rfl ?_; first | with_reducible assumption | exact h5 | exact h17 | with_reducible apply State.put_keeps | with_reducible apply State.post_keeps | (split; skip))

theorem execIsolationProbe_keeps {ps : Part → Prop} {s : State} {a1 : Nat} {a2 : Bool} (h5 : ps (.regs 5)) (h17 : ps (.regs 17)) (h_evt : ps .evt) (h_noc : ps .noc) (h_out : ps .out) (h_pci : ps .pci) : ∀ r, (execIsolationProbe a1 a2 s) = .next r → Keeps ps s r := by
  intro r e
  cases e
  have h := Keeps.refl (ps := ps) s
  repeat' first
    | with_reducible assumption | exact h5 | exact h17 | with_reducible apply State.when_keeps | with_reducible apply State.isoEnd_keeps
    | (intro _; skip) | split
    | (dsimp only; skip)

theorem State.absorbed_keeps {ps : Part → Prop} {a1 a2 : Nat} {a3 : Pkt} {s0 s : State} (h5 : ps (.regs 5)) (h17 : ps (.regs 17)) (h20 : ps (.regs 20)) (h_evt : ps .evt) (h_gens : ps .gens) (h_noc : ps .noc) (h_out : ps .out) (h_pci : ps .pci) (h : Keeps ps s0 s) : Keeps ps s0 (State.absorbed s a1 a2 a3) := by
  unfold State.absorbed
  repeat' first
    | (extract_lets +onlyGivenNames x; first | (with_reducible refine Keeps.cut (x := x) ?_ ?_; rotate_left; (try clear_value x); (intro _; skip); rotate_right; subst x) | subst x)
    | with_reducible assumption | exact h5 | exact h17 | exact h20 | with_reducible apply State.crossAll_keeps | with_reducible apply State.setPkt_keeps
    | (intro _; skip) | split
    | (dsimp only; skip)
    | with_reducible refine Keeps.pair (by assumption) ?_
    | (with_reducible refine Keeps.lit rfl rfl ?_; first | with_reducible assumption | exact h5 | exact h17 | exact h20 | with_reducible apply State.crossAll_keeps | with_reducible apply State.setPkt_keeps | with_reducible refine Keeps.pair (by assumption) ?_ | (split; skip))

theorem execRouterAbsorb_keeps {ps : Part → Prop} {s : State} {a1 a2 a3 : Nat} {a4 : Bool} (h5 : ps (.regs 5)) (h17 : ps (.regs 17)) (h20 : ps (.regs 20)) (h_evt : ps .evt) (h_gens : ps .gens) (h_noc : ps .noc) (h_out : ps .out) (h_pci : ps .pci) : ∀ r, (execRouterAbsorb a1 a2 a3 a4 s) = .next r → Keeps ps s r := by
  intro r e
  cases e
  have h := Keeps.refl (ps := ps) s
  repeat' first
    | (extract_lets +onlyGivenNames x; first | (with_reducible refine Keeps.cut (x := x) ?_ ?_; rotate_left; (try clear_value x); (intro _; skip); rotate_right; subst x) | subst x)
    | with_reducible assumption | exact h5 | exact h17 | exact h20 | with_reducible apply State.when_keeps | with_reducible apply State.bump_keeps | with_reducible apply State.post_keeps | with_reducible apply State.setPkt_keeps | with_reducible apply State.absorbed_keeps
    | (intro _; skip) | split
    | (dsimp only; skip)
    | (with_reducible refine Keeps.lit rfl rfl ?_; first | with_reducible assumption | exact h5 | exact h17 | exact h20 | with_reducible apply State.when_keeps | with_reducible apply State.bump_keeps | with_reducible apply State.post_keeps | with_reducible apply State.setPkt_keeps | with_reducible apply State.absorbed_keeps | (split; skip))

theorem State.mapRoutes_keeps {ps : Part → Prop} {a1 : State → Nat → Nat → State} {s0 s : State} (hf : ∀ s a b, Keeps ps s0 s → Keeps ps s0 (a1 s a b)) (h : Keeps ps s0 s) : Keeps ps s0 (State.mapRoutes s a1) := by
  unfold State.mapRoutes
  repeat' first
    | with_reducible assumption | with_reducible apply hf | with_reducible apply Keeps.foldl | with_reducible apply Keeps.foldlFst
    | (intro _; skip) | split
    | (dsimp only; skip)

theorem State.portClose_keeps {ps : Part → Prop} {a1 : Req} {a2 : Nat} {s0 s : State} (h16 : ps (.regs 16)) (h17 : ps (.regs 17)) (h_evt : ps .evt) (h_noc : ps .noc) (h_out : ps .out) (h_pci : ps .pci) (h : Keeps ps s0 s) : Keeps ps s0 (State.portClose s a1 a2) := by
  unfold State.portClose
  repeat' first
    | (extract_lets +onlyGivenNames x; first | (with_reducible refine Keeps.cut (x := x) ?_ ?_; rotate_left; (try clear_value x); (intro _; skip); rotate_right; subst x) | subst x)
    | with_reducible assumption | exact h16 | exact h17 | with_reducible apply State.refuseWrite_keeps | with_reducible apply State.mapRoutes_keeps | with_reducible apply State.updRte_keeps | with_reducible apply State.post_keeps
    | (intro _; skip) | split
    | (dsimp only; skip)
    | (with_reducible refine Keeps.lit rfl rfl ?_; first | with_reducible assumption | exact h16 | exact h17 | with_reducible apply State.refuseWrite_keeps | with_reducible apply State.mapRoutes_keeps | with_reducible apply State.updRte_keeps | with_reducible apply State.post_keeps | (split; skip))

theorem execNocReconfigClose_keeps {ps : Part → Prop} {s : State} {a1 : Req} {a2 : Nat} (h16 : ps (.regs 16)) (h17 : ps (.regs 17)) (h_evt : ps .evt) (h_noc : ps .noc) (h_out : ps .out) (h_pci : ps .pci) : ∀ r, (execNocReconfigClose a1 a2 s) = .next r → Keeps ps s r := by
  intro r e
  cases e
  have h := Keeps.refl (ps := ps) s
  repeat' first
    | with_reducible assumption | exact h16 | exact h17 | with_reducible apply State.when_keeps | with_reducible apply State.byReq_keeps | with_reducible apply State.portClose_keeps
    | (intro _; skip) | split
    | (dsimp only; skip)

theorem State.portOpen_keeps {ps : Part → Prop} {a1 : Req} {a2 : Nat} {s0 s : State} (h16 : ps (.regs 16)) (h17 : ps (.regs 17)) (h_evt : ps .evt) (h_noc : ps .noc) (h_out : ps .out) (h_pci : ps .pci) (h : Keeps ps s0 s) : Keeps ps s0 (State.portOpen s a1 a2) := by
  unfold State.portOpen
  repeat' first
    | (extract_lets +onlyGivenNames x; first | (with_reducible refine Keeps.cut (x := x) ?_ ?_; rotate_left; (try clear_value x); (intro _; skip); rotate_right; subst x) | subst x)
    | with_reducible assumption | exact h16 | exact h17 | with_reducible apply State.refuseWrite_keeps | with_reducible apply State.mapRoutes_keeps | with_reducible apply State.updRte_keeps | with_reducible apply State.post_keeps
    | (intro _; skip) | split
    | (dsimp only; skip)
    | (with_reducible refine Keeps.lit rfl rfl ?_; first | with_reducible assumption | exact h16 | exact h17 | with_reducible apply State.refuseWrite_keeps | with_reducible apply State.mapRoutes_keeps | with_reducible apply State.updRte_keeps | with_reducible apply State.post_keeps | (split; skip))

theorem execNocReconfigOpen_keeps {ps : Part → Prop} {s : State} {a1 : Req} {a2 : Nat} (h16 : ps (.regs 16)) (h17 : ps (.regs 17)) (h_evt : ps .evt) (h_noc : ps .noc) (h_out : ps .out) (h_pci : ps .pci) : ∀ r, (execNocReconfigOpen a1 a2 s) = .next r → Keeps ps s r := by
  intro r e
  cases e
  have h := Keeps.refl (ps := ps) s
  repeat' first
    | with_reducible assumption | exact h16 | exact h17 | with_reducible apply State.when_keeps | with_reducible apply State.byReq_keeps | with_reducible apply State.portOpen_keeps
    | (intro _; skip) | split
    | (dsimp only; skip)

theorem State.rtrClose_keeps {ps : Part → Prop} {a1 : Nat} {s0 s : State} (h_noc : ps .noc) (h : Keeps ps s0 s) : Keeps ps s0 (State.rtrClose s a1) := by
  unfold State.rtrClose
  repeat' first
    | (extract_lets +onlyGivenNames x; first | (with_reducible refine Keeps.cut (x := x) ?_ ?_; rotate_left; (try clear_value x); (intro _; skip); rotate_right; subst x) | subst x)
    | with_reducible assumption
    | (intro _; skip) | split
    | (dsimp only; skip)
    | (with_reducible refine Keeps.lit rfl rfl ?_; first | with_reducible assumption | (split; skip))

theorem execNocRtrClose_keeps {ps : Part → Prop} {s : State} {a1 : Nat} (h_noc : ps .noc) : ∀ r, (execNocRtrClose a1 s) = .next r → Keeps ps s r := by
  intro r e
  cases e
  have h := Keeps.refl (ps := ps) s
  repeat' first
    | with_reducible assumption | with_reducible apply State.when_keeps | with_reducible apply State.rtrClose_keeps
    | (intro _; skip) | split
    | (dsimp only; skip)

theorem State.fence_keeps {ps : Part → Prop} {a1 : Nat} {s0 s : State} (h4 : ps (.regs 4)) (h5 : ps (.regs 5)) (h17 : ps (.regs 17)) (h20 : ps (.regs 20)) (h_evt : ps .evt) (h_fab : ps .fab) (h_gens : ps .gens) (h_noc : ps .noc) (h_out : ps .out) (h_pci : ps .pci) (h : Keeps ps s0 s) : Keeps ps s0 (State.fence s a1) := by
  unfold State.fence
  repeat' first
    | (extract_lets +onlyGivenNames x; first | (with_reducible refine Keeps.cut (x := x) ?_ ?_; rotate_left; (try clear_value x); (intro _; skip); rotate_right; subst x) | subst x)
    | with_reducible assumption | exact h4 | exact h5 | exact h17 | exact h20 | with_reducible apply State.answer_keeps | with_reducible apply State.put_keeps | with_reducible apply Keeps.foldl | with_reducible apply Keeps.foldlFst
    | (intro _; skip) | split
    | (dsimp only; skip)
    | (with_reducible refine Keeps.lit rfl rfl ?_; first | with_reducible assumption | exact h4 | exact h5 | exact h17 | exact h20 | with_reducible apply State.answer_keeps | with_reducible apply State.put_keeps | with_reducible apply Keeps.foldl | with_reducible apply Keeps.foldlFst | (split; skip))

theorem execFenceOpen_keeps {ps : Part → Prop} {s : State} {a1 : Nat} (h4 : ps (.regs 4)) (h5 : ps (.regs 5)) : ∀ r, (execFenceOpen a1 s) = .next r → Keeps ps s r := by
  intro r e
  cases e
  have h := Keeps.refl (ps := ps) s
  repeat' first
    | (extract_lets +onlyGivenNames x; first | (with_reducible refine Keeps.cut (x := x) ?_ ?_; rotate_left; (try clear_value x); (intro _; skip); rotate_right; subst x) | subst x)
    | with_reducible assumption | exact h4 | exact h5 | with_reducible apply State.when_keeps | with_reducible apply State.put_keeps
    | (intro _; skip) | split
    | (dsimp only; skip)

end Sys2Proof.Machine
end

