-- ==== Sys2Proof/Laws/Lanes.lean ====
section
/-! SUPPORT. What each operation and each meaning of Machine/Lanes.lean keeps (Keeps): one lemma a definition. -/

-- The package as one text is checked in one process: its proofs are checked one after another, and its linters keep quiet.
set_option Elab.async false
set_option linter.all false

namespace Sys2Proof.Machine
open Sys2Proof

theorem State.updLane_keeps {ps : Part → Prop} {a1 : Nat} {a2 : Lane → Lane} {s0 s : State} (h_lanes : ps .lanes) (h : Keeps ps s0 s) : Keeps ps s0 (State.updLane s a1 a2) := by
  unfold State.updLane
  repeat' first
    | with_reducible assumption
    | (intro _; skip) | split
    | (dsimp only; skip)
    | (with_reducible refine Keeps.lit rfl rfl ?_; first | with_reducible assumption | (split; skip))

theorem State.laneOff_keeps {ps : Part → Prop} {a1 : Nat} {s0 s : State} (h15 : ps (.regs 15)) (h_lanes : ps .lanes) (h : Keeps ps s0 s) : Keeps ps s0 (State.laneOff s a1) := by
  unfold State.laneOff
  repeat' first
    | (extract_lets +onlyGivenNames x; first | (with_reducible refine Keeps.cut (x := x) ?_ ?_; rotate_left; (try clear_value x); (intro _; skip); rotate_right; subst x) | subst x)
    | with_reducible assumption | exact h15 | with_reducible apply State.updLane_keeps | with_reducible apply State.put_keeps
    | (intro _; skip) | split
    | (dsimp only; skip)
    | (with_reducible refine Keeps.lit rfl rfl ?_; first | with_reducible assumption | exact h15 | with_reducible apply State.updLane_keeps | with_reducible apply State.put_keeps | (split; skip))

theorem State.laneOn_keeps {ps : Part → Prop} {a1 : Nat} {s0 s : State} (h15 : ps (.regs 15)) (h : Keeps ps s0 s) : Keeps ps s0 (State.laneOn s a1) := by
  unfold State.laneOn
  repeat' first
    | with_reducible assumption | exact h15 | with_reducible apply State.put_keeps
    | (intro _; skip) | split
    | (dsimp only; skip)

theorem State.laneSignal_keeps {ps : Part → Prop} {a1 : Nat} {s0 s : State} (h15 : ps (.regs 15)) (h_lanes : ps .lanes) (h : Keeps ps s0 s) : Keeps ps s0 (State.laneSignal s a1) := by
  unfold State.laneSignal
  repeat' first
    | (extract_lets +onlyGivenNames x; first | (with_reducible refine Keeps.cut (x := x) ?_ ?_; rotate_left; (try clear_value x); (intro _; skip); rotate_right; subst x) | subst x)
    | with_reducible assumption | exact h15 | with_reducible apply State.put_keeps | with_reducible apply State.updLane_keeps
    | (intro _; skip) | split
    | (dsimp only; skip)
    | (with_reducible refine Keeps.lit rfl rfl ?_; first | with_reducible assumption | exact h15 | with_reducible apply State.put_keeps | with_reducible apply State.updLane_keeps | (split; skip))

theorem State.laneAttempt_keeps {ps : Part → Prop} {a1 : Nat} {s0 s : State} (h15 : ps (.regs 15)) (h_lanes : ps .lanes) (h : Keeps ps s0 s) : Keeps ps s0 (State.laneAttempt s a1) := by
  unfold State.laneAttempt
  repeat' first
    | with_reducible assumption | exact h15 | with_reducible apply State.updLane_keeps | with_reducible apply State.bump_keeps | with_reducible apply State.put_keeps
    | (intro _; skip) | split
    | (dsimp only; skip)
    | (with_reducible refine Keeps.lit rfl rfl ?_; first | with_reducible assumption | exact h15 | with_reducible apply State.updLane_keeps | with_reducible apply State.bump_keeps | with_reducible apply State.put_keeps | (split; skip))

theorem State.fellLane_keeps {ps : Part → Prop} {a1 : Nat} {s0 s : State} (h15 : ps (.regs 15)) (h16 : ps (.regs 16)) (h17 : ps (.regs 17)) (h_evt : ps .evt) (h_lanes : ps .lanes) (h_out : ps .out) (h_pci : ps .pci) (h : Keeps ps s0 s) : Keeps ps s0 (State.fellLane s a1) := by
  unfold State.fellLane
  repeat' first
    | (extract_lets +onlyGivenNames x; first | (with_reducible refine Keeps.cut (x := x) ?_ ?_; rotate_left; (try clear_value x); (intro _; skip); rotate_right; subst x) | subst x)
    | with_reducible assumption | exact h15 | exact h16 | exact h17 | with_reducible apply State.put_keeps | with_reducible apply State.updLane_keeps | with_reducible apply State.bump_keeps | with_reducible apply State.post_keeps
    | (intro _; skip) | split
    | (dsimp only; skip)

theorem State.laneFail_keeps {ps : Part → Prop} {a1 : Nat} {s0 s : State} (h15 : ps (.regs 15)) (h16 : ps (.regs 16)) (h17 : ps (.regs 17)) (h_evt : ps .evt) (h_lanes : ps .lanes) (h_out : ps .out) (h_pci : ps .pci) (h : Keeps ps s0 s) : Keeps ps s0 (State.laneFail s a1) := by
  unfold State.laneFail
  repeat' first
    | (extract_lets +onlyGivenNames x; first | (with_reducible refine Keeps.cut (x := x) ?_ ?_; rotate_left; (try clear_value x); (intro _; skip); rotate_right; subst x) | subst x)
    | with_reducible assumption | exact h15 | exact h16 | exact h17 | with_reducible apply State.post_keeps | with_reducible apply State.bump_keeps | with_reducible apply State.put_keeps | with_reducible apply State.fellLane_keeps
    | (intro _; skip) | split
    | (dsimp only; skip)

theorem State.laneTimeout_keeps {ps : Part → Prop} {a1 : Nat} {s0 s : State} (h15 : ps (.regs 15)) (h16 : ps (.regs 16)) (h17 : ps (.regs 17)) (h_evt : ps .evt) (h_lanes : ps .lanes) (h_out : ps .out) (h_pci : ps .pci) (h : Keeps ps s0 s) : Keeps ps s0 (State.laneTimeout s a1) := by
  unfold State.laneTimeout
  repeat' first
    | (extract_lets +onlyGivenNames x; first | (with_reducible refine Keeps.cut (x := x) ?_ ?_; rotate_left; (try clear_value x); (intro _; skip); rotate_right; subst x) | subst x)
    | with_reducible assumption | exact h15 | exact h16 | exact h17 | with_reducible apply State.laneSignal_keeps | with_reducible apply State.laneFail_keeps
    | (intro _; skip) | split
    | (dsimp only; skip)

theorem State.bundleSeen_keeps {ps : Part → Prop} {a1 : Nat} {s0 s : State} (h11 : ps (.regs 11)) (h : Keeps ps s0 s) : Keeps ps s0 (State.bundleSeen s a1) := by
  unfold State.bundleSeen
  repeat' first
    | with_reducible assumption | exact h11 | with_reducible apply State.put_keeps
    | (intro _; skip) | split
    | (dsimp only; skip)
    | (with_reducible refine Keeps.lit rfl rfl ?_; first | with_reducible assumption | exact h11 | with_reducible apply State.put_keeps | (split; skip))

theorem execLaneDetectPoll_keeps {ps : Part → Prop} {s : State} {a1 : Nat} {a2 : Bool} (h11 : ps (.regs 11)) (h15 : ps (.regs 15)) (h_lanes : ps .lanes) : ∀ r, (execLaneDetectPoll a1 a2 s) = .next r → Keeps ps s r := by
  intro r e
  cases e
  have h := Keeps.refl (ps := ps) s
  repeat' first
    | (extract_lets +onlyGivenNames x; first | (with_reducible refine Keeps.cut (x := x) ?_ ?_; rotate_left; (try clear_value x); (intro _; skip); rotate_right; subst x) | subst x)
    | with_reducible assumption | exact h11 | exact h15 | with_reducible apply State.when_keeps | with_reducible apply State.bundleSeen_keeps | with_reducible apply State.updLane_keeps | with_reducible apply State.laneSignal_keeps | with_reducible apply State.put_keeps
    | (intro _; skip) | split
    | (dsimp only; skip)
    | (with_reducible refine Keeps.lit rfl rfl ?_; first | with_reducible assumption | exact h11 | exact h15 | with_reducible apply State.when_keeps | with_reducible apply State.bundleSeen_keeps | with_reducible apply State.updLane_keeps | with_reducible apply State.laneSignal_keeps | with_reducible apply State.put_keeps | (split; skip))

theorem execIdlePatternEnd_keeps {ps : Part → Prop} {s : State} {a1 : Nat} (h_lanes : ps .lanes) : ∀ r, (execIdlePatternEnd a1 s) = .next r → Keeps ps s r := by
  intro r e
  cases e
  have h := Keeps.refl (ps := ps) s
  repeat' first
    | with_reducible assumption | with_reducible apply State.when_keeps | with_reducible apply State.updLane_keeps
    | (intro _; skip) | split
    | (dsimp only; skip)
    | (with_reducible refine Keeps.lit rfl rfl ?_; first | with_reducible assumption | with_reducible apply State.when_keeps | with_reducible apply State.updLane_keeps | (split; skip))

theorem execLaneSignalPresent_keeps {ps : Part → Prop} {s : State} {a1 : Nat} (h15 : ps (.regs 15)) (h_lanes : ps .lanes) : ∀ r, (execLaneSignalPresent a1 s) = .next r → Keeps ps s r := by
  intro r e
  cases e
  have h := Keeps.refl (ps := ps) s
  repeat' first
    | with_reducible assumption | exact h15 | with_reducible apply State.when_keeps | with_reducible apply State.laneAttempt_keeps | with_reducible apply State.put_keeps
    | (intro _; skip) | split
    | (dsimp only; skip)

theorem execPartnerTerminationLost_keeps {ps : Part → Prop} {s : State} {a1 : Nat} (h15 : ps (.regs 15)) (h_lanes : ps .lanes) : ∀ r, (execPartnerTerminationLost a1 s) = .next r → Keeps ps s r := by
  intro r e
  cases e
  have h := Keeps.refl (ps := ps) s
  repeat' first
    | with_reducible assumption | exact h15 | with_reducible apply State.when_keeps | with_reducible apply State.updLane_keeps | with_reducible apply State.put_keeps
    | (intro _; skip) | split
    | (dsimp only; skip)
    | (with_reducible refine Keeps.lit rfl rfl ?_; first | with_reducible assumption | exact h15 | with_reducible apply State.when_keeps | with_reducible apply State.updLane_keeps | with_reducible apply State.put_keeps | (split; skip))

theorem execLaneAcquired_keeps {ps : Part → Prop} {s : State} {a1 : Nat} (h15 : ps (.regs 15)) : ∀ r, (execLaneAcquired a1 s) = .next r → Keeps ps s r := by
  intro r e
  cases e
  have h := Keeps.refl (ps := ps) s
  repeat' first
    | with_reducible assumption | exact h15 | with_reducible apply State.when_keeps | with_reducible apply State.put_keeps
    | (intro _; skip) | split
    | (dsimp only; skip)

theorem State.putTaps_keeps {ps : Part → Prop} {a1 : Nat} {a2 : List Int} {s0 s : State} (h15 : ps (.regs 15)) (h : Keeps ps s0 s) : Keeps ps s0 (State.putTaps s a1 a2) := by
  unfold State.putTaps
  repeat' first
    | (extract_lets +onlyGivenNames x; first | (with_reducible refine Keeps.cut (x := x) ?_ ?_; rotate_left; (try clear_value x); (intro _; skip); rotate_right; subst x) | subst x)
    | with_reducible assumption | exact h15 | with_reducible apply State.put_keeps
    | (intro _; skip) | split
    | (dsimp only; skip)

theorem State.tapRequest_keeps {ps : Part → Prop} {a1 a2 : Nat} {s0 s : State} (h15 : ps (.regs 15)) (h : Keeps ps s0 s) : Keeps ps s0 (State.tapRequest s a1 a2).1 := by
  unfold State.tapRequest
  repeat' first
    | (extract_lets +onlyGivenNames x; first | (with_reducible refine Keeps.cut (x := x) ?_ ?_; rotate_left; (try clear_value x); (intro _; skip); rotate_right; subst x) | subst x)
    | with_reducible assumption | exact h15 | with_reducible apply State.putTaps_keeps
    | (intro _; skip) | split
    | (dsimp only; skip)
    | with_reducible refine Keeps.pair (by assumption) ?_

theorem execLaneTrainingFrame_keeps {ps : Part → Prop} {s : State} {a1 a2 a3 : Nat} {a4 : Bool} (h15 : ps (.regs 15)) (h_lanes : ps .lanes) : ∀ r, (execLaneTrainingFrame a1 a2 a3 a4 s) = .next r → Keeps ps s r := by
  intro r e
  cases e
  have h := Keeps.refl (ps := ps) s
  repeat' first
    | (extract_lets +onlyGivenNames x; first | (with_reducible refine Keeps.cut (x := x) ?_ ?_; rotate_left; (try clear_value x); (intro _; skip); rotate_right; subst x) | subst x)
    | with_reducible assumption | exact h15 | with_reducible apply State.when_keeps | with_reducible apply State.tapRequest_keeps | with_reducible apply State.updLane_keeps | with_reducible apply State.put_keeps
    | (intro _; skip) | split
    | (dsimp only; skip)
    | with_reducible refine Keeps.pair (by assumption) ?_
    | (with_reducible refine Keeps.lit rfl rfl ?_; first | with_reducible assumption | exact h15 | with_reducible apply State.when_keeps | with_reducible apply State.tapRequest_keeps | with_reducible apply State.updLane_keeps | with_reducible apply State.put_keeps | with_reducible refine Keeps.pair (by assumption) ?_ | (split; skip))

theorem execLaneAttemptTimeout_keeps {ps : Part → Prop} {s : State} {a1 : Nat} (h15 : ps (.regs 15)) (h16 : ps (.regs 16)) (h17 : ps (.regs 17)) (h_evt : ps .evt) (h_lanes : ps .lanes) (h_out : ps .out) (h_pci : ps .pci) : ∀ r, (execLaneAttemptTimeout a1 s) = .next r → Keeps ps s r := by
  intro r e
  cases e
  have h := Keeps.refl (ps := ps) s
  repeat' first
    | with_reducible assumption | exact h15 | exact h16 | exact h17 | with_reducible apply State.when_keeps | with_reducible apply State.laneTimeout_keeps
    | (intro _; skip) | split
    | (dsimp only; skip)

theorem execLaneSignalAbsent_keeps {ps : Part → Prop} {s : State} {a1 : Nat} (h15 : ps (.regs 15)) (h_lanes : ps .lanes) : ∀ r, (execLaneSignalAbsent a1 s) = .next r → Keeps ps s r := by
  intro r e
  cases e
  have h := Keeps.refl (ps := ps) s
  repeat' first
    | with_reducible assumption | exact h15 | with_reducible apply State.when_keeps | with_reducible apply State.updLane_keeps | with_reducible apply State.put_keeps
    | (intro _; skip) | split
    | (dsimp only; skip)
    | (with_reducible refine Keeps.lit rfl rfl ?_; first | with_reducible assumption | exact h15 | with_reducible apply State.when_keeps | with_reducible apply State.updLane_keeps | with_reducible apply State.put_keeps | (split; skip))

theorem execLaneLockLost_keeps {ps : Part → Prop} {s : State} {a1 : Nat} (h15 : ps (.regs 15)) (h17 : ps (.regs 17)) (h_evt : ps .evt) (h_lanes : ps .lanes) (h_out : ps .out) (h_pci : ps .pci) : ∀ r, (execLaneLockLost a1 s) = .next r → Keeps ps s r := by
  intro r e
  cases e
  have h := Keeps.refl (ps := ps) s
  repeat' first
    | with_reducible assumption | exact h15 | exact h17 | with_reducible apply State.when_keeps | with_reducible apply State.post_keeps | with_reducible apply State.bump_keeps | with_reducible apply State.laneAttempt_keeps
    | (intro _; skip) | split
    | (dsimp only; skip)

theorem execLaneSignalLoss_keeps {ps : Part → Prop} {s : State} {a1 : Nat} (h15 : ps (.regs 15)) (h_lanes : ps .lanes) : ∀ r, (execLaneSignalLoss a1 s) = .next r → Keeps ps s r := by
  intro r e
  cases e
  have h := Keeps.refl (ps := ps) s
  repeat' first
    | with_reducible assumption | exact h15 | with_reducible apply State.when_keeps | with_reducible apply State.updLane_keeps | with_reducible apply State.put_keeps
    | (intro _; skip) | split
    | (dsimp only; skip)
    | (with_reducible refine Keeps.lit rfl rfl ?_; first | with_reducible assumption | exact h15 | with_reducible apply State.when_keeps | with_reducible apply State.updLane_keeps | with_reducible apply State.put_keeps | (split; skip))

theorem State.laneReadapt_keeps {ps : Part → Prop} {a1 : Nat} {s0 s : State} (h15 : ps (.regs 15)) (h : Keeps ps s0 s) : Keeps ps s0 (State.laneReadapt s a1) := by
  unfold State.laneReadapt
  repeat' first
    | with_reducible assumption | exact h15 | with_reducible apply State.bump_keeps | with_reducible apply State.put_keeps
    | (intro _; skip) | split
    | (dsimp only; skip)

theorem execLaneSignalReturn_keeps {ps : Part → Prop} {s : State} {a1 : Nat} (h15 : ps (.regs 15)) : ∀ r, (execLaneSignalReturn a1 s) = .next r → Keeps ps s r := by
  intro r e
  cases e
  have h := Keeps.refl (ps := ps) s
  repeat' first
    | (extract_lets +onlyGivenNames x; first | (with_reducible refine Keeps.cut (x := x) ?_ ?_; rotate_left; (try clear_value x); (intro _; skip); rotate_right; subst x) | subst x)
    | with_reducible assumption | exact h15 | with_reducible apply State.when_keeps | with_reducible apply State.put_keeps | with_reducible apply State.flag_keeps | with_reducible apply State.laneReadapt_keeps
    | (intro _; skip) | split
    | (dsimp only; skip)

theorem execLaneReadaptDone_keeps {ps : Part → Prop} {s : State} {a1 : Nat} (h15 : ps (.regs 15)) : ∀ r, (execLaneReadaptDone a1 s) = .next r → Keeps ps s r := by
  intro r e
  cases e
  have h := Keeps.refl (ps := ps) s
  repeat' first
    | with_reducible assumption | exact h15 | with_reducible apply State.when_keeps | with_reducible apply State.put_keeps
    | (intro _; skip) | split
    | (dsimp only; skip)

theorem execAdaptWindow_keeps {ps : Part → Prop} {s : State} {a1 : Nat} {a2 : AdaptWin} (h15 : ps (.regs 15)) (h_lanes : ps .lanes) : ∀ r, (execAdaptWindow a1 a2 s) = .next r → Keeps ps s r := by
  intro r e
  cases e
  have h := Keeps.refl (ps := ps) s
  repeat' first
    | (extract_lets +onlyGivenNames x; first | (with_reducible refine Keeps.cut (x := x) ?_ ?_; rotate_left; (try clear_value x); (intro _; skip); rotate_right; subst x) | subst x)
    | with_reducible assumption | exact h15 | with_reducible apply State.when_keeps | with_reducible apply State.put_keeps | with_reducible apply State.flag_keeps | with_reducible apply State.bump_keeps | with_reducible apply State.updLane_keeps | with_reducible apply State.laneReadapt_keeps
    | (intro _; skip) | split
    | (dsimp only; skip)
    | (with_reducible refine Keeps.lit rfl rfl ?_; first | with_reducible assumption | exact h15 | with_reducible apply State.when_keeps | with_reducible apply State.put_keeps | with_reducible apply State.flag_keeps | with_reducible apply State.bump_keeps | with_reducible apply State.updLane_keeps | with_reducible apply State.laneReadapt_keeps | (split; skip))

theorem State.retrainLane_keeps {ps : Part → Prop} {a1 : Nat} {s0 s : State} (h15 : ps (.regs 15)) (h_lanes : ps .lanes) (h : Keeps ps s0 s) : Keeps ps s0 (State.retrainLane s a1) := by
  unfold State.retrainLane
  repeat' first
    | with_reducible assumption | exact h15 | with_reducible apply State.laneSignal_keeps
    | (intro _; skip) | split
    | (dsimp only; skip)

theorem execLaneRetrain_keeps {ps : Part → Prop} {s : State} {a1 : Nat} (h15 : ps (.regs 15)) (h_lanes : ps .lanes) : ∀ r, (execLaneRetrain a1 s) = .next r → Keeps ps s r := by
  intro r e
  cases e
  have h := Keeps.refl (ps := ps) s
  repeat' first
    | with_reducible assumption | exact h15 | with_reducible apply State.when_keeps | with_reducible apply State.retrainLane_keeps
    | (intro _; skip) | split
    | (dsimp only; skip)

theorem execQuadRefclkChange_keeps {ps : Part → Prop} {s : State} {a1 : Nat} {a2 : Bool} (h15 : ps (.regs 15)) (h_lanes : ps .lanes) : ∀ r, (execQuadRefclkChange a1 a2 s) = .next r → Keeps ps s r := by
  intro r e
  cases e
  have h := Keeps.refl (ps := ps) s
  repeat' first
    | (extract_lets +onlyGivenNames x; first | (with_reducible refine Keeps.cut (x := x) ?_ ?_; rotate_left; (try clear_value x); (intro _; skip); rotate_right; subst x) | subst x)
    | with_reducible assumption | exact h15 | with_reducible apply State.when_keeps | with_reducible apply State.flag_keeps | with_reducible apply State.laneOn_keeps | with_reducible apply State.laneOff_keeps | with_reducible apply Keeps.foldl | with_reducible apply Keeps.foldlFst
    | (intro _; skip) | split
    | (dsimp only; skip)

theorem execBundleLaneSignal_keeps {ps : Part → Prop} {s : State} {a1 a2 : Nat} (h15 : ps (.regs 15)) (h_lve : ps .lve) : ∀ r, (execBundleLaneSignal a1 a2 s) = .next r → Keeps ps s r := by
  intro r e
  cases e
  have h := Keeps.refl (ps := ps) s
  repeat' first
    | (extract_lets +onlyGivenNames x; first | (with_reducible refine Keeps.cut (x := x) ?_ ?_; rotate_left; (try clear_value x); (intro _; skip); rotate_right; subst x) | subst x)
    | with_reducible assumption | exact h15 | with_reducible apply State.when_keeps | with_reducible apply State.flag_keeps | with_reducible apply State.updBnd_keeps | with_reducible apply Keeps.foldl | with_reducible apply Keeps.foldlFst
    | (intro _; skip) | split
    | (dsimp only; skip)
    | (with_reducible refine Keeps.lit rfl rfl ?_; first | with_reducible assumption | exact h15 | with_reducible apply State.when_keeps | with_reducible apply State.flag_keeps | with_reducible apply State.updBnd_keeps | with_reducible apply Keeps.foldl | with_reducible apply Keeps.foldlFst | (split; skip))

theorem execBlockLock_keeps {ps : Part → Prop} {s : State} {a1 a2 : Nat} {a3 : Bool} (h15 : ps (.regs 15)) : ∀ r, (execBlockLock a1 a2 a3 s) = .next r → Keeps ps s r := by
  intro r e
  cases e
  have h := Keeps.refl (ps := ps) s
  repeat' first
    | (extract_lets +onlyGivenNames x; first | (with_reducible refine Keeps.cut (x := x) ?_ ?_; rotate_left; (try clear_value x); (intro _; skip); rotate_right; subst x) | subst x)
    | with_reducible assumption | exact h15 | with_reducible apply State.when_keeps | with_reducible apply State.flag_keeps | with_reducible apply State.put_keeps | with_reducible apply Keeps.foldl | with_reducible apply Keeps.foldlFst
    | (intro _; skip) | split
    | (dsimp only; skip)

theorem execHiBer_keeps {ps : Part → Prop} {s : State} {a1 : Nat} {a2 : Bool} {a3 a4 a5 a6 : Nat} (h15 : ps (.regs 15)) (h17 : ps (.regs 17)) (h_evt : ps .evt) (h_out : ps .out) (h_pci : ps .pci) : ∀ r, (execHiBer a1 a2 a3 a4 a5 a6 s) = .next r → Keeps ps s r := by
  intro r e
  cases e
  have h := Keeps.refl (ps := ps) s
  repeat' first
    | (extract_lets +onlyGivenNames x; first | (with_reducible refine Keeps.cut (x := x) ?_ ?_; rotate_left; (try clear_value x); (intro _; skip); rotate_right; subst x) | subst x)
    | with_reducible assumption | exact h15 | exact h17 | with_reducible apply State.when_keeps | with_reducible apply State.bump_keeps | with_reducible apply State.flag_keeps | with_reducible apply State.post_keeps
    | (intro _; skip) | split
    | (dsimp only; skip)

theorem State.prbsFlip_keeps {ps : Part → Prop} {a1 : Nat} {s0 s : State} (h15 : ps (.regs 15)) (h : Keeps ps s0 s) : Keeps ps s0 (State.prbsFlip s a1) := by
  unfold State.prbsFlip
  repeat' first
    | (extract_lets +onlyGivenNames x; first | (with_reducible refine Keeps.cut (x := x) ?_ ?_; rotate_left; (try clear_value x); (intro _; skip); rotate_right; subst x) | subst x)
    | with_reducible assumption | exact h15 | with_reducible apply State.bump_keeps
    | (intro _; skip) | split
    | (dsimp only; skip)

theorem execPrbsInject_keeps {ps : Part → Prop} {s : State} {a1 : Nat} (h15 : ps (.regs 15)) : ∀ r, (execPrbsInject a1 s) = .next r → Keeps ps s r := by
  intro r e
  cases e
  have h := Keeps.refl (ps := ps) s
  repeat' first
    | with_reducible assumption | exact h15 | with_reducible apply State.when_keeps | with_reducible apply State.prbsFlip_keeps
    | (intro _; skip) | split
    | (dsimp only; skip)

theorem execPrbsPeriodicInject_keeps {ps : Part → Prop} {s : State} {a1 : Nat} (h15 : ps (.regs 15)) : ∀ r, (execPrbsPeriodicInject a1 s) = .next r → Keeps ps s r := by
  intro r e
  cases e
  have h := Keeps.refl (ps := ps) s
  repeat' first
    | with_reducible assumption | exact h15 | with_reducible apply State.when_keeps | with_reducible apply State.prbsFlip_keeps
    | (intro _; skip) | split
    | (dsimp only; skip)

theorem execPrbsCheckerLock_keeps {ps : Part → Prop} {s : State} {a1 : Nat} {a2 : Bool} {a3 a4 : Nat} (h15 : ps (.regs 15)) : ∀ r, (execPrbsCheckerLock a1 a2 a3 a4 s) = .next r → Keeps ps s r := by
  intro r e
  cases e
  have h := Keeps.refl (ps := ps) s
  repeat' first
    | (extract_lets +onlyGivenNames x; first | (with_reducible refine Keeps.cut (x := x) ?_ ?_; rotate_left; (try clear_value x); (intro _; skip); rotate_right; subst x) | subst x)
    | with_reducible assumption | exact h15 | with_reducible apply State.when_keeps | with_reducible apply State.bump_keeps | with_reducible apply State.flag_keeps
    | (intro _; skip) | split
    | (dsimp only; skip)

theorem execCoefficientInputWrite_keeps {ps : Part → Prop} {s : State} {a1 a2 : Nat} (h15 : ps (.regs 15)) (h17 : ps (.regs 17)) (h_evt : ps .evt) (h_out : ps .out) (h_pci : ps .pci) : ∀ r, (execCoefficientInputWrite a1 a2 s) = .next r → Keeps ps s r := by
  intro r e
  cases e
  have h := Keeps.refl (ps := ps) s
  repeat' first
    | with_reducible assumption | exact h15 | exact h17 | with_reducible apply State.when_keeps | with_reducible apply State.putTaps_keeps | with_reducible apply State.postFrom_keeps
    | (intro _; skip) | split
    | (dsimp only; skip)

end Sys2Proof.Machine
end

