-- ==== Sys2Proof/Laws/Queue.lean ====
section
/-! SUPPORT. What each operation and each meaning of Machine/Queue.lean keeps (Keeps): one lemma a definition. -/

-- The package as one text is checked in one process: its proofs are checked one after another, and its linters keep quiet.
set_option Elab.async false
set_option linter.all false

namespace Sys2Proof.Machine
open Sys2Proof

theorem State.queueOn_keeps {ps : Part → Prop} {a1 : Nat} {s0 s : State} (h19 : ps (.regs 19)) (h : Keeps ps s0 s) : Keeps ps s0 (State.queueOn s a1) := by
  unfold State.queueOn
  repeat' first
    | with_reducible assumption | exact h19 | with_reducible apply State.when_keeps | with_reducible apply State.put_keeps
    | (intro _; skip) | split
    | (dsimp only; skip)

theorem execAdminQueueEnable_keeps {ps : Part → Prop} {s : State} {a1 : Nat} (h19 : ps (.regs 19)) : ∀ r, (execAdminQueueEnable a1 s) = .next r → Keeps ps s r := by
  intro r e
  cases e
  have h := Keeps.refl (ps := ps) s
  repeat' first
    | with_reducible assumption | exact h19 | with_reducible apply State.when_keeps | with_reducible apply State.queueOn_keeps
    | (intro _; skip) | split
    | (dsimp only; skip)

theorem execAdminQueueReady_keeps {ps : Part → Prop} {s : State} {a1 : Nat} (h19 : ps (.regs 19)) (h_qqp : ps .qqp) : ∀ r, (execAdminQueueReady a1 s) = .next r → Keeps ps s r := by
  intro r e
  cases e
  have h := Keeps.refl (ps := ps) s
  repeat' first
    | with_reducible assumption | exact h19 | with_reducible apply State.when_keeps | with_reducible apply State.put_keeps | with_reducible apply State.updQp_keeps
    | (intro _; skip) | split
    | (dsimp only; skip)

theorem dropForReset_keeps {ps : Part → Prop} {a1 : Nat} {a2 : Nat × Option Cmd} {s0 s : State} (h6 : ps (.regs 6)) (h7 : ps (.regs 7)) (h11 : ps (.regs 11)) (h12 : ps (.regs 12)) (h17 : ps (.regs 17)) (h20 : ps (.regs 20)) (h_dck : ps .dck) (h_evt : ps .evt) (h_gens : ps .gens) (h_lve : ps .lve) (h_out : ps .out) (h_pci : ps .pci) (h_qqp : ps .qqp) (h_tly : ps .tly) (h : Keeps ps s0 s) : Keeps ps s0 (dropForReset s a1 a2) := by
  unfold dropForReset
  repeat' first
    | with_reducible assumption | exact h6 | exact h7 | exact h11 | exact h12 | exact h17 | exact h20 | with_reducible apply State.dropCmd_keeps | with_reducible apply State.endTask_keeps | with_reducible apply State.undo_keeps | with_reducible apply State.setCmd_keeps | with_reducible apply Keeps.foldl | with_reducible apply Keeps.foldlFst
    | (intro _; skip) | split
    | (dsimp only; skip)
    | (with_reducible refine Keeps.lit rfl rfl ?_; first | with_reducible assumption | exact h6 | exact h7 | exact h11 | exact h12 | exact h17 | exact h20 | with_reducible apply State.dropCmd_keeps | with_reducible apply State.endTask_keeps | with_reducible apply State.undo_keeps | with_reducible apply State.setCmd_keeps | with_reducible apply Keeps.foldl | with_reducible apply Keeps.foldlFst | (split; skip))

theorem State.cutCmds_keeps {ps : Part → Prop} {a1 : Nat → Bool} {s0 s : State} (h6 : ps (.regs 6)) (h7 : ps (.regs 7)) (h11 : ps (.regs 11)) (h12 : ps (.regs 12)) (h17 : ps (.regs 17)) (h20 : ps (.regs 20)) (h_dck : ps .dck) (h_evt : ps .evt) (h_gens : ps .gens) (h_lve : ps .lve) (h_out : ps .out) (h_pci : ps .pci) (h_qqp : ps .qqp) (h_tly : ps .tly) (h : Keeps ps s0 s) : Keeps ps s0 (State.cutCmds s a1) := by
  unfold State.cutCmds
  repeat' first
    | (extract_lets +onlyGivenNames x; first | (with_reducible refine Keeps.cut (x := x) ?_ ?_; rotate_left; (try clear_value x); (intro _; skip); rotate_right; subst x) | subst x)
    | with_reducible assumption | exact h6 | exact h7 | exact h11 | exact h12 | exact h17 | exact h20 | with_reducible apply dropForReset_keeps | with_reducible apply State.settleAll_keeps | with_reducible apply Keeps.foldl | with_reducible apply Keeps.foldlFst
    | (intro _; skip) | split
    | (dsimp only; skip)
    | (with_reducible refine Keeps.lit rfl rfl ?_; first | with_reducible assumption | exact h6 | exact h7 | exact h11 | exact h12 | exact h17 | exact h20 | with_reducible apply dropForReset_keeps | with_reducible apply State.settleAll_keeps | with_reducible apply Keeps.foldl | with_reducible apply Keeps.foldlFst | (split; skip))

theorem State.dropQueues_keeps {ps : Part → Prop} {a1 : Nat} {s0 s : State} (h6 : ps (.regs 6)) (h7 : ps (.regs 7)) (h11 : ps (.regs 11)) (h12 : ps (.regs 12)) (h17 : ps (.regs 17)) (h19 : ps (.regs 19)) (h20 : ps (.regs 20)) (h_dck : ps .dck) (h_evt : ps .evt) (h_gens : ps .gens) (h_lve : ps .lve) (h_out : ps .out) (h_pci : ps .pci) (h_qqp : ps .qqp) (h_tly : ps .tly) (h : Keeps ps s0 s) : Keeps ps s0 (State.dropQueues s a1) := by
  unfold State.dropQueues
  repeat' first
    | (extract_lets +onlyGivenNames x; first | (with_reducible refine Keeps.cut (x := x) ?_ ?_; rotate_left; (try clear_value x); (intro _; skip); rotate_right; subst x) | subst x)
    | with_reducible assumption | exact h6 | exact h7 | exact h11 | exact h12 | exact h17 | exact h19 | exact h20 | with_reducible apply dropForReset_keeps | with_reducible apply State.settleAll_keeps | with_reducible apply State.put_keeps | with_reducible apply Keeps.foldl | with_reducible apply Keeps.foldlFst
    | (intro _; skip) | split
    | (dsimp only; skip)
    | (with_reducible refine Keeps.lit rfl rfl ?_; first | with_reducible assumption | exact h6 | exact h7 | exact h11 | exact h12 | exact h17 | exact h19 | exact h20 | with_reducible apply dropForReset_keeps | with_reducible apply State.settleAll_keeps | with_reducible apply State.put_keeps | with_reducible apply Keeps.foldl | with_reducible apply Keeps.foldlFst | (split; skip))

theorem execQueueDisable_keeps {ps : Part → Prop} {s : State} {a1 : Nat} (h6 : ps (.regs 6)) (h7 : ps (.regs 7)) (h11 : ps (.regs 11)) (h12 : ps (.regs 12)) (h17 : ps (.regs 17)) (h19 : ps (.regs 19)) (h20 : ps (.regs 20)) (h_dck : ps .dck) (h_evt : ps .evt) (h_gens : ps .gens) (h_lve : ps .lve) (h_out : ps .out) (h_pci : ps .pci) (h_qqp : ps .qqp) (h_tly : ps .tly) : ∀ r, (execQueueDisable a1 s) = .next r → Keeps ps s r := by
  intro r e
  cases e
  have h := Keeps.refl (ps := ps) s
  repeat' first
    | with_reducible assumption | exact h6 | exact h7 | exact h11 | exact h12 | exact h17 | exact h19 | exact h20 | with_reducible apply State.when_keeps | with_reducible apply State.dropQueues_keeps
    | (intro _; skip) | split
    | (dsimp only; skip)

theorem State.doorbellBad_keeps {ps : Part → Prop} {a1 a2 a3 : Nat} {s0 s : State} (h17 : ps (.regs 17)) (h19 : ps (.regs 19)) (h_evt : ps .evt) (h_out : ps .out) (h_pci : ps .pci) (h : Keeps ps s0 s) : Keeps ps s0 (State.doorbellBad s a1 a2 a3) := by
  unfold State.doorbellBad
  repeat' first
    | with_reducible assumption | exact h17 | exact h19 | with_reducible apply State.post_keeps | with_reducible apply State.bump_keeps
    | (intro _; skip) | split
    | (dsimp only; skip)

theorem State.sqDoorbell_keeps {ps : Part → Prop} {a1 a2 a3 : Nat} {s0 s : State} (h17 : ps (.regs 17)) (h19 : ps (.regs 19)) (h_evt : ps .evt) (h_out : ps .out) (h_pci : ps .pci) (h_qqp : ps .qqp) (h : Keeps ps s0 s) : Keeps ps s0 (State.sqDoorbell s a1 a2 a3) := by
  unfold State.sqDoorbell
  repeat' first
    | (extract_lets +onlyGivenNames x; first | (with_reducible refine Keeps.cut (x := x) ?_ ?_; rotate_left; (try clear_value x); (intro _; skip); rotate_right; subst x) | subst x)
    | with_reducible assumption | exact h17 | exact h19 | with_reducible apply State.doorbellBad_keeps | with_reducible apply State.updQp_keeps
    | (intro _; skip) | split
    | (dsimp only; skip)
    | (with_reducible refine Keeps.lit rfl rfl ?_; first | with_reducible assumption | exact h17 | exact h19 | with_reducible apply State.doorbellBad_keeps | with_reducible apply State.updQp_keeps | (split; skip))

theorem State.cqDoorbell_keeps {ps : Part → Prop} {a1 a2 a3 : Nat} {s0 s : State} (h17 : ps (.regs 17)) (h19 : ps (.regs 19)) (h_evt : ps .evt) (h_out : ps .out) (h_pci : ps .pci) (h_qqp : ps .qqp) (h : Keeps ps s0 s) : Keeps ps s0 (State.cqDoorbell s a1 a2 a3) := by
  unfold State.cqDoorbell
  repeat' first
    | (extract_lets +onlyGivenNames x; first | (with_reducible refine Keeps.cut (x := x) ?_ ?_; rotate_left; (try clear_value x); (intro _; skip); rotate_right; subst x) | subst x)
    | with_reducible assumption | exact h17 | exact h19 | with_reducible apply State.doorbellBad_keeps | with_reducible apply State.updQp_keeps
    | (intro _; skip) | split
    | (dsimp only; skip)
    | (with_reducible refine Keeps.lit rfl rfl ?_; first | with_reducible assumption | exact h17 | exact h19 | with_reducible apply State.doorbellBad_keeps | with_reducible apply State.updQp_keeps | (split; skip))

theorem State.holdDoorbell_keeps {ps : Part → Prop} {a1 : Nat} {a2 : Bool} {a3 a4 : Nat} {s0 s : State} (h_pwr : ps .pwr) (h : Keeps ps s0 s) : Keeps ps s0 (State.holdDoorbell s a1 a2 a3 a4) := by
  unfold State.holdDoorbell
  repeat' first
    | with_reducible assumption
    | (intro _; skip) | split
    | (dsimp only; skip)
    | (with_reducible refine Keeps.lit rfl rfl ?_; first | with_reducible assumption | (split; skip))

theorem State.deliverDoorbells_keeps {ps : Part → Prop} {s0 s : State} (h17 : ps (.regs 17)) (h19 : ps (.regs 19)) (h_evt : ps .evt) (h_out : ps .out) (h_pci : ps .pci) (h_pwr : ps .pwr) (h_qqp : ps .qqp) (h : Keeps ps s0 s) : Keeps ps s0 (State.deliverDoorbells s) := by
  unfold State.deliverDoorbells
  repeat' first
    | (extract_lets +onlyGivenNames x; first | (with_reducible refine Keeps.cut (x := x) ?_ ?_; rotate_left; (try clear_value x); (intro _; skip); rotate_right; subst x) | subst x)
    | with_reducible assumption | exact h17 | exact h19 | with_reducible apply State.cqDoorbell_keeps | with_reducible apply State.sqDoorbell_keeps | with_reducible apply Keeps.foldl | with_reducible apply Keeps.foldlFst
    | (intro _; skip) | split
    | (dsimp only; skip)
    | (with_reducible refine Keeps.lit rfl rfl ?_; first | with_reducible assumption | exact h17 | exact h19 | with_reducible apply State.cqDoorbell_keeps | with_reducible apply State.sqDoorbell_keeps | with_reducible apply Keeps.foldl | with_reducible apply Keeps.foldlFst | (split; skip))

theorem execSqTailDoorbell_keeps {ps : Part → Prop} {s : State} {a1 a2 a3 : Nat} (h17 : ps (.regs 17)) (h19 : ps (.regs 19)) (h_evt : ps .evt) (h_out : ps .out) (h_pci : ps .pci) (h_pwr : ps .pwr) (h_qqp : ps .qqp) : ∀ r, (execSqTailDoorbell a1 a2 a3 s) = .next r → Keeps ps s r := by
  intro r e
  cases e
  have h := Keeps.refl (ps := ps) s
  repeat' first
    | with_reducible assumption | exact h17 | exact h19 | with_reducible apply State.when_keeps | with_reducible apply State.sqDoorbell_keeps | with_reducible apply State.holdDoorbell_keeps
    | (intro _; skip) | split
    | (dsimp only; skip)

theorem execCqHeadDoorbell_keeps {ps : Part → Prop} {s : State} {a1 a2 a3 : Nat} (h17 : ps (.regs 17)) (h19 : ps (.regs 19)) (h_evt : ps .evt) (h_out : ps .out) (h_pci : ps .pci) (h_pwr : ps .pwr) (h_qqp : ps .qqp) : ∀ r, (execCqHeadDoorbell a1 a2 a3 s) = .next r → Keeps ps s r := by
  intro r e
  cases e
  have h := Keeps.refl (ps := ps) s
  repeat' first
    | with_reducible assumption | exact h17 | exact h19 | with_reducible apply State.when_keeps | with_reducible apply State.cqDoorbell_keeps | with_reducible apply State.holdDoorbell_keeps
    | (intro _; skip) | split
    | (dsimp only; skip)

theorem State.admitEntry_keeps {ps : Part → Prop} {a1 a2 a3 a4 : Nat} {a5 : Option (Nat × Nat)} {s0 s : State} (h6 : ps (.regs 6)) (h17 : ps (.regs 17)) (h_dck : ps .dck) (h_evt : ps .evt) (h_out : ps .out) (h_pci : ps .pci) (h_qqp : ps .qqp) (h : Keeps ps s0 s) : Keeps ps s0 (State.admitEntry s a1 a2 a3 a4 a5) := by
  unfold State.admitEntry
  repeat' first
    | (extract_lets +onlyGivenNames x; first | (with_reducible refine Keeps.cut (x := x) ?_ ?_; rotate_left; (try clear_value x); (intro _; skip); rotate_right; subst x) | subst x)
    | with_reducible assumption | exact h6 | exact h17 | with_reducible apply State.setCmd_keeps | with_reducible apply State.failCmd_keeps | with_reducible apply State.addTask_keeps | with_reducible apply Keeps.foldl | with_reducible apply Keeps.foldlFst
    | (intro _; skip) | split
    | (dsimp only; skip)
    | (with_reducible refine Keeps.lit rfl rfl ?_; first | with_reducible assumption | exact h6 | exact h17 | with_reducible apply State.setCmd_keeps | with_reducible apply State.failCmd_keeps | with_reducible apply State.addTask_keeps | with_reducible apply Keeps.foldl | with_reducible apply Keeps.foldlFst | (split; skip))

theorem State.consume_keeps {ps : Part → Prop} {a1 a2 a3 : Nat} {s0 s : State} (h19 : ps (.regs 19)) (h_qqp : ps .qqp) (h : Keeps ps s0 s) : Keeps ps s0 (State.consume s a1 a2 a3) := by
  unfold State.consume
  repeat' first
    | (extract_lets +onlyGivenNames x; first | (with_reducible refine Keeps.cut (x := x) ?_ ?_; rotate_left; (try clear_value x); (intro _; skip); rotate_right; subst x) | subst x)
    | with_reducible assumption | exact h19 | with_reducible apply State.bump_keeps | with_reducible apply State.updQp_keeps
    | (intro _; skip) | split
    | (dsimp only; skip)
    | (with_reducible refine Keeps.lit rfl rfl ?_; first | with_reducible assumption | exact h19 | with_reducible apply State.bump_keeps | with_reducible apply State.updQp_keeps | (split; skip))

theorem State.fetchOne_keeps {ps : Part → Prop} {a1 a2 : Nat} {a3 : List Nat} {s0 s : State} (h6 : ps (.regs 6)) (h17 : ps (.regs 17)) (h19 : ps (.regs 19)) (h_dck : ps .dck) (h_evt : ps .evt) (h_fresh : ps .fresh) (h_out : ps .out) (h_pci : ps .pci) (h_qqp : ps .qqp) (h : Keeps ps s0 s) : Keeps ps s0 (State.fetchOne s a1 a2 a3).1 := by
  unfold State.fetchOne
  repeat' first
    | (extract_lets +onlyGivenNames x; first | (with_reducible refine Keeps.cut (x := x) ?_ ?_; rotate_left; (try clear_value x); (intro _; skip); rotate_right; subst x) | subst x)
    | with_reducible assumption | exact h6 | exact h17 | exact h19 | with_reducible apply State.admitEntry_keeps | with_reducible apply State.drawn_keeps | with_reducible apply State.consume_keeps | with_reducible apply State.updCmd_keeps
    | (intro _; skip) | split
    | (dsimp only; skip)
    | with_reducible refine Keeps.pair (by assumption) ?_
    | (with_reducible refine Keeps.lit rfl rfl ?_; first | with_reducible assumption | exact h6 | exact h17 | exact h19 | with_reducible apply State.admitEntry_keeps | with_reducible apply State.drawn_keeps | with_reducible apply State.consume_keeps | with_reducible apply State.updCmd_keeps | with_reducible refine Keeps.pair (by assumption) ?_ | (split; skip))

theorem State.fetchMany_keeps {ps : Part → Prop} {a1 a2 a3 : Nat} {a4 : List Nat} {s0 s : State} (h6 : ps (.regs 6)) (h17 : ps (.regs 17)) (h19 : ps (.regs 19)) (h_dck : ps .dck) (h_evt : ps .evt) (h_fresh : ps .fresh) (h_out : ps .out) (h_pci : ps .pci) (h_qqp : ps .qqp) (h : Keeps ps s0 s) : Keeps ps s0 (State.fetchMany s a1 a2 a3 a4) := by
  induction a3 using Nat.strongRecOn generalizing s a1 a2 a4 with
  | _ n ih =>
    cases n with
    | zero => unfold State.fetchMany; exact h
    | succ m =>
      unfold State.fetchMany
      repeat' first
        | with_reducible assumption | exact h6 | exact h17 | exact h19 | with_reducible apply State.fetchOne_keeps | with_reducible apply State.updQp_keeps | with_reducible refine ih _ (by omega) ?_
        | (intro _; skip) | split
        | (dsimp only; skip)
        | with_reducible refine Keeps.pair (by assumption) ?_
        | (with_reducible refine Keeps.lit rfl rfl ?_; first | with_reducible assumption | exact h6 | exact h17 | exact h19 | with_reducible apply State.fetchOne_keeps | with_reducible apply State.updQp_keeps | with_reducible refine ih _ (by omega) ?_ | with_reducible refine Keeps.pair (by assumption) ?_ | (split; skip))

theorem execSubmissionFetch_keeps {ps : Part → Prop} {s : State} {a1 a2 : Nat} {a3 : List Nat} (h6 : ps (.regs 6)) (h17 : ps (.regs 17)) (h19 : ps (.regs 19)) (h_dck : ps .dck) (h_evt : ps .evt) (h_fresh : ps .fresh) (h_out : ps .out) (h_pci : ps .pci) (h_qqp : ps .qqp) : ∀ r, (execSubmissionFetch a1 a2 a3 s) = .next r → Keeps ps s r := by
  intro r e
  cases e
  have h := Keeps.refl (ps := ps) s
  repeat' first
    | (extract_lets +onlyGivenNames x; first | (with_reducible refine Keeps.cut (x := x) ?_ ?_; rotate_left; (try clear_value x); (intro _; skip); rotate_right; subst x) | subst x)
    | with_reducible assumption | exact h6 | exact h17 | exact h19 | with_reducible apply State.when_keeps | with_reducible apply State.fetchMany_keeps | with_reducible apply State.updQp_keeps
    | (intro _; skip) | split
    | (dsimp only; skip)
    | (with_reducible refine Keeps.lit rfl rfl ?_; first | with_reducible assumption | exact h6 | exact h17 | exact h19 | with_reducible apply State.when_keeps | with_reducible apply State.fetchMany_keeps | with_reducible apply State.updQp_keeps | (split; skip))

theorem execCompletionPost_keeps {ps : Part → Prop} {s : State} {a1 : Nat} (h11 : ps (.regs 11)) (h17 : ps (.regs 17)) (h19 : ps (.regs 19)) (h20 : ps (.regs 20)) (h_evt : ps .evt) (h_gens : ps .gens) (h_lve : ps .lve) (h_out : ps .out) (h_pci : ps .pci) (h_qqp : ps .qqp) (h_tly : ps .tly) : ∀ r, (execCompletionPost a1 s) = .next r → Keeps ps s r := by
  intro r e
  cases e
  have h := Keeps.refl (ps := ps) s
  repeat' first
    | with_reducible assumption | exact h11 | exact h17 | exact h19 | exact h20 | with_reducible apply State.when_keeps | with_reducible apply State.complete_keeps
    | (intro _; skip) | split
    | (dsimp only; skip)
    | (with_reducible refine Keeps.lit rfl rfl ?_; first | with_reducible assumption | exact h11 | exact h17 | exact h19 | exact h20 | with_reducible apply State.when_keeps | with_reducible apply State.complete_keeps | (split; skip))

theorem execCoalesceTimerExpires_keeps {ps : Part → Prop} {s : State} {a1 a2 : Nat} (h_out : ps .out) (h_pci : ps .pci) (h_qqp : ps .qqp) : ∀ r, (execCoalesceTimerExpires a1 a2 s) = .next r → Keeps ps s r := by
  intro r e
  cases e
  have h := Keeps.refl (ps := ps) s
  repeat' first
    | (extract_lets +onlyGivenNames x; first | (with_reducible refine Keeps.cut (x := x) ?_ ?_; rotate_left; (try clear_value x); (intro _; skip); rotate_right; subst x) | subst x)
    | with_reducible assumption | with_reducible apply State.when_keeps | with_reducible apply State.msix_keeps | with_reducible apply State.updQp_keeps
    | (intro _; skip) | split
    | (dsimp only; skip)
    | (with_reducible refine Keeps.lit rfl rfl ?_; first | with_reducible assumption | with_reducible apply State.when_keeps | with_reducible apply State.msix_keeps | with_reducible apply State.updQp_keeps | (split; skip))

theorem execDeadlineExpires_keeps {ps : Part → Prop} {s : State} {a1 : Nat} (h6 : ps (.regs 6)) (h7 : ps (.regs 7)) (h11 : ps (.regs 11)) (h12 : ps (.regs 12)) (h17 : ps (.regs 17)) (h20 : ps (.regs 20)) (h_dck : ps .dck) (h_evt : ps .evt) (h_gens : ps .gens) (h_lve : ps .lve) (h_out : ps .out) (h_pci : ps .pci) (h_qqp : ps .qqp) (h_tly : ps .tly) : ∀ r, (execDeadlineExpires a1 s) = .next r → Keeps ps s r := by
  intro r e
  cases e
  have h := Keeps.refl (ps := ps) s
  repeat' first
    | (extract_lets +onlyGivenNames x; first | (with_reducible refine Keeps.cut (x := x) ?_ ?_; rotate_left; (try clear_value x); (intro _; skip); rotate_right; subst x) | subst x)
    | with_reducible assumption | exact h6 | exact h7 | exact h11 | exact h12 | exact h17 | exact h20 | with_reducible apply State.when_keeps | with_reducible apply State.updCmd_keeps | with_reducible apply State.abortCmd_keeps
    | (intro _; skip) | split
    | (dsimp only; skip)
    | (with_reducible refine Keeps.lit rfl rfl ?_; first | with_reducible assumption | exact h6 | exact h7 | exact h11 | exact h12 | exact h17 | exact h20 | with_reducible apply State.when_keeps | with_reducible apply State.updCmd_keeps | with_reducible apply State.abortCmd_keeps | (split; skip))

theorem State.mbxGo_keeps {ps : Part → Prop} {a1 : Req} {s0 s : State} (h6 : ps (.regs 6)) (h16 : ps (.regs 16)) (h17 : ps (.regs 17)) (h_dck : ps .dck) (h_evt : ps .evt) (h_out : ps .out) (h_pci : ps .pci) (h_qqp : ps .qqp) (h : Keeps ps s0 s) : Keeps ps s0 (State.mbxGo s a1) := by
  unfold State.mbxGo
  repeat' first
    | (extract_lets +onlyGivenNames x; first | (with_reducible refine Keeps.cut (x := x) ?_ ?_; rotate_left; (try clear_value x); (intro _; skip); rotate_right; subst x) | subst x)
    | with_reducible assumption | exact h6 | exact h16 | exact h17 | with_reducible apply State.refuseWrite_keeps | with_reducible apply State.admitEntry_keeps
    | (intro _; skip) | split
    | (dsimp only; skip)
    | (with_reducible refine Keeps.lit rfl rfl ?_; first | with_reducible assumption | exact h6 | exact h16 | exact h17 | with_reducible apply State.refuseWrite_keeps | with_reducible apply State.admitEntry_keeps | (split; skip))

theorem execMailboxGo_keeps {ps : Part → Prop} {s : State} (h6 : ps (.regs 6)) (h16 : ps (.regs 16)) (h17 : ps (.regs 17)) (h_dck : ps .dck) (h_evt : ps .evt) (h_out : ps .out) (h_pci : ps .pci) (h_qqp : ps .qqp) : ∀ r, (execMailboxGo s) = .next r → Keeps ps s r := by
  intro r e
  cases e
  have h := Keeps.refl (ps := ps) s
  repeat' first
    | with_reducible assumption | exact h6 | exact h16 | exact h17 | with_reducible apply State.when_keeps | with_reducible apply State.mbxGo_keeps
    | (intro _; skip) | split
    | (dsimp only; skip)

theorem State.putMbxCqe_keeps {ps : Part → Prop} {a1 : Nat} {s0 s : State} (h19 : ps (.regs 19)) (h : Keeps ps s0 s) : Keeps ps s0 (State.putMbxCqe s a1) := by
  unfold State.putMbxCqe
  repeat' first
    | with_reducible assumption | exact h19 | with_reducible apply State.put_keeps | with_reducible apply Keeps.foldl | with_reducible apply Keeps.foldlFst
    | (intro _; skip) | split
    | (dsimp only; skip)

theorem State.showResult_keeps {ps : Part → Prop} {a1 a2 a3 a4 : Nat} {s0 s : State} (h0 : ps (.regs 0)) (h : Keeps ps s0 s) : Keeps ps s0 (State.showResult s a1 a2 a3 a4) := by
  unfold State.showResult
  repeat' first
    | (extract_lets +onlyGivenNames x; first | (with_reducible refine Keeps.cut (x := x) ?_ ?_; rotate_left; (try clear_value x); (intro _; skip); rotate_right; subst x) | subst x)
    | with_reducible assumption | exact h0 | with_reducible apply State.put_keeps
    | (intro _; skip) | split
    | (dsimp only; skip)

theorem execMailboxCommandEnd_keeps {ps : Part → Prop} {s : State} (h0 : ps (.regs 0)) (h19 : ps (.regs 19)) (h_qqp : ps .qqp) (h_tly : ps .tly) : ∀ r, (execMailboxCommandEnd s) = .next r → Keeps ps s r := by
  intro r e
  cases e
  have h := Keeps.refl (ps := ps) s
  repeat' first
    | (extract_lets +onlyGivenNames x; first | (with_reducible refine Keeps.cut (x := x) ?_ ?_; rotate_left; (try clear_value x); (intro _; skip); rotate_right; subst x) | subst x)
    | with_reducible assumption | exact h0 | exact h19 | with_reducible apply State.when_keeps | with_reducible apply State.putMbxCqe_keeps | with_reducible apply State.unlink_keeps | with_reducible apply State.dropCmd_keeps | with_reducible apply State.showResult_keeps
    | (intro _; skip) | split
    | (dsimp only; skip)
    | (with_reducible refine Keeps.lit rfl rfl ?_; first | with_reducible assumption | exact h0 | exact h19 | with_reducible apply State.when_keeps | with_reducible apply State.putMbxCqe_keeps | with_reducible apply State.unlink_keeps | with_reducible apply State.dropCmd_keeps | with_reducible apply State.showResult_keeps | (split; skip))

theorem State.resultAck_keeps {ps : Part → Prop} {a1 : Nat} {s0 s : State} (h0 : ps (.regs 0)) (h17 : ps (.regs 17)) (h_evt : ps .evt) (h_out : ps .out) (h_pci : ps .pci) (h : Keeps ps s0 s) : Keeps ps s0 (State.resultAck s a1) := by
  unfold State.resultAck
  repeat' first
    | (extract_lets +onlyGivenNames x; first | (with_reducible refine Keeps.cut (x := x) ?_ ?_; rotate_left; (try clear_value x); (intro _; skip); rotate_right; subst x) | subst x)
    | with_reducible assumption | exact h0 | exact h17 | with_reducible apply State.put_keeps | with_reducible apply State.post_keeps
    | (intro _; skip) | split
    | (dsimp only; skip)

theorem execResultAck_keeps {ps : Part → Prop} {s : State} {a1 : Nat} (h0 : ps (.regs 0)) (h17 : ps (.regs 17)) (h_evt : ps .evt) (h_out : ps .out) (h_pci : ps .pci) : ∀ r, (execResultAck a1 s) = .next r → Keeps ps s r := by
  intro r e
  cases e
  have h := Keeps.refl (ps := ps) s
  repeat' first
    | with_reducible assumption | exact h0 | exact h17 | with_reducible apply State.when_keeps | with_reducible apply State.resultAck_keeps
    | (intro _; skip) | split
    | (dsimp only; skip)

theorem State.hostData_keeps {ps : Part → Prop} {a1 a2 a3 a4 a5 : Nat} {s0 s : State} (h6 : ps (.regs 6)) (h17 : ps (.regs 17)) (h_dck : ps .dck) (h_evt : ps .evt) (h_out : ps .out) (h_pci : ps .pci) (h_qqp : ps .qqp) (h : Keeps ps s0 s) : Keeps ps s0 (State.hostData s a1 a2 a3 a4 a5).1 := by
  unfold State.hostData
  repeat' first
    | (extract_lets +onlyGivenNames x; first | (with_reducible refine Keeps.cut (x := x) ?_ ?_; rotate_left; (try clear_value x); (intro _; skip); rotate_right; subst x) | subst x)
    | with_reducible assumption | exact h6 | exact h17 | with_reducible apply State.failCmd_keeps | with_reducible apply State.post_keeps
    | (intro _; skip) | split
    | (dsimp only; skip)
    | with_reducible refine Keeps.pair (by assumption) ?_
    | (with_reducible refine Keeps.lit rfl rfl ?_; first | with_reducible assumption | exact h6 | exact h17 | with_reducible apply State.failCmd_keeps | with_reducible apply State.post_keeps | with_reducible refine Keeps.pair (by assumption) ?_ | (split; skip))

theorem execLedgerQuery_keeps {ps : Part → Prop} {s : State} {a1 : Nat} (h6 : ps (.regs 6)) (h17 : ps (.regs 17)) (h_dck : ps .dck) (h_evt : ps .evt) (h_out : ps .out) (h_pci : ps .pci) (h_qqp : ps .qqp) : ∀ r, (execLedgerQuery a1 s) = .next r → Keeps ps s r := by
  intro r e
  cases e
  have h := Keeps.refl (ps := ps) s
  repeat' first
    | (extract_lets +onlyGivenNames x; first | (with_reducible refine Keeps.cut (x := x) ?_ ?_; rotate_left; (try clear_value x); (intro _; skip); rotate_right; subst x) | subst x)
    | with_reducible assumption | exact h6 | exact h17 | with_reducible apply State.when_keeps | with_reducible apply State.hostData_keeps | with_reducible apply State.finish_keeps | with_reducible apply State.failCmd_keeps
    | (intro _; skip) | split
    | (dsimp only; skip)
    | with_reducible refine Keeps.pair (by assumption) ?_
    | (with_reducible refine Keeps.lit rfl rfl ?_; first | with_reducible assumption | exact h6 | exact h17 | with_reducible apply State.when_keeps | with_reducible apply State.hostData_keeps | with_reducible apply State.finish_keeps | with_reducible apply State.failCmd_keeps | with_reducible refine Keeps.pair (by assumption) ?_ | (split; skip))

theorem execLedgerRelease_keeps {ps : Part → Prop} {s : State} {a1 : Nat} (h6 : ps (.regs 6)) (h17 : ps (.regs 17)) (h19 : ps (.regs 19)) (h_dck : ps .dck) (h_evt : ps .evt) (h_out : ps .out) (h_pci : ps .pci) (h_qqp : ps .qqp) (h_tly : ps .tly) : ∀ r, (execLedgerRelease a1 s) = .next r → Keeps ps s r := by
  intro r e
  cases e
  have h := Keeps.refl (ps := ps) s
  repeat' first
    | (extract_lets +onlyGivenNames x; first | (with_reducible refine Keeps.cut (x := x) ?_ ?_; rotate_left; (try clear_value x); (intro _; skip); rotate_right; subst x) | subst x)
    | with_reducible assumption | exact h6 | exact h17 | exact h19 | with_reducible apply State.when_keeps | with_reducible apply State.failCmd_keeps | with_reducible apply State.conflict_keeps | with_reducible apply State.finish_keeps | with_reducible apply State.drop_keeps | with_reducible apply State.unlink_keeps | with_reducible apply State.dropCmd_keeps
    | (intro _; skip) | split
    | (dsimp only; skip)
    | (with_reducible refine Keeps.lit rfl rfl ?_; first | with_reducible assumption | exact h6 | exact h17 | exact h19 | with_reducible apply State.when_keeps | with_reducible apply State.failCmd_keeps | with_reducible apply State.conflict_keeps | with_reducible apply State.finish_keeps | with_reducible apply State.drop_keeps | with_reducible apply State.unlink_keeps | with_reducible apply State.dropCmd_keeps | (split; skip))

end Sys2Proof.Machine
end

