-- ==== Sys2Proof/Laws/Pcie.lean ====
section
/-! SUPPORT. What each operation and each meaning of Machine/Pcie.lean keeps (Keeps): one lemma a definition. -/

-- The package as one text is checked in one process: its proofs are checked one after another, and its linters keep quiet.
set_option Elab.async false
set_option linter.all false

namespace Sys2Proof.Machine
open Sys2Proof

theorem State.applyPcie_keeps {ps : Part → Prop} {a1 : PcieSet} {s0 s : State} (h16 : ps (.regs 16)) (h19 : ps (.regs 19)) (h_cfg : ps .cfg) (h_pci : ps .pci) (h : Keeps ps s0 s) : Keeps ps s0 (State.applyPcie s a1) := by
  unfold State.applyPcie
  repeat' first
    | (extract_lets +onlyGivenNames x; first | (with_reducible refine Keeps.cut (x := x) ?_ ?_; rotate_left; (try clear_value x); (intro _; skip); rotate_right; subst x) | subst x)
    | with_reducible assumption | exact h16 | exact h19 | with_reducible apply State.put_keeps | with_reducible apply Keeps.foldl | with_reducible apply Keeps.foldlFst
    | (intro _; skip) | split
    | (dsimp only; skip)
    | (with_reducible refine Keeps.lit rfl rfl ?_; first | with_reducible assumption | exact h16 | exact h19 | with_reducible apply State.put_keeps | with_reducible apply Keeps.foldl | with_reducible apply Keeps.foldlFst | (split; skip))

theorem State.resetFns_keeps {ps : Part → Prop} {a1 : Nat → Bool} {s0 s : State} (hregs : ∀ b, ps (.regs b)) (h_pci : ps .pci) (h_pwr : ps .pwr) (h_shadow : ps .shadow) (h_stage : ps .stage) (h : Keeps ps s0 s) : Keeps ps s0 (State.resetFns s a1) := by
  unfold State.resetFns
  repeat' first
    | (extract_lets +onlyGivenNames x; first | (with_reducible refine Keeps.cut (x := x) ?_ ?_; rotate_left; (try clear_value x); (intro _; skip); rotate_right; subst x) | subst x)
    | with_reducible assumption | exact hregs _ | exact hregs | with_reducible apply State.dropRegs_keeps
    | (intro _; skip) | split
    | (dsimp only; skip)
    | (with_reducible refine Keeps.lit rfl rfl ?_; first | with_reducible assumption | exact hregs _ | exact hregs | with_reducible apply State.dropRegs_keeps | (split; skip))

theorem State.removeVfs_keeps {ps : Part → Prop} {s0 s : State} (hregs : ∀ b, ps (.regs b)) (h_dck : ps .dck) (h_evt : ps .evt) (h_gens : ps .gens) (h_lve : ps .lve) (h_out : ps .out) (h_pci : ps .pci) (h_pwr : ps .pwr) (h_qqp : ps .qqp) (h_shadow : ps .shadow) (h_stage : ps .stage) (h_tly : ps .tly) (h : Keeps ps s0 s) : Keeps ps s0 (State.removeVfs s) := by
  unfold State.removeVfs
  repeat' first
    | (extract_lets +onlyGivenNames x; first | (with_reducible refine Keeps.cut (x := x) ?_ ?_; rotate_left; (try clear_value x); (intro _; skip); rotate_right; subst x) | subst x)
    | with_reducible assumption | exact hregs _ | exact hregs | with_reducible apply State.resetFns_keeps | with_reducible apply State.cutCmds_keeps
    | (intro _; skip) | split
    | (dsimp only; skip)
    | (with_reducible refine Keeps.lit rfl rfl ?_; first | with_reducible assumption | exact hregs _ | exact hregs | with_reducible apply State.resetFns_keeps | with_reducible apply State.cutCmds_keeps | (split; skip))

theorem State.portReset_keeps {ps : Part → Prop} {s0 s : State} (hregs : ∀ b, ps (.regs b)) (h_dck : ps .dck) (h_evt : ps .evt) (h_gens : ps .gens) (h_lve : ps .lve) (h_out : ps .out) (h_pci : ps .pci) (h_pwr : ps .pwr) (h_qqp : ps .qqp) (h_shadow : ps .shadow) (h_stage : ps .stage) (h_tly : ps .tly) (h : Keeps ps s0 s) : Keeps ps s0 (State.portReset s) := by
  unfold State.portReset
  repeat' first
    | (extract_lets +onlyGivenNames x; first | (with_reducible refine Keeps.cut (x := x) ?_ ?_; rotate_left; (try clear_value x); (intro _; skip); rotate_right; subst x) | subst x)
    | with_reducible assumption | exact hregs _ | exact hregs | with_reducible apply State.resetFns_keeps | with_reducible apply State.cutCmds_keeps | with_reducible apply State.dropRegs_keeps | with_reducible apply State.put_keeps
    | (intro _; skip) | split
    | (dsimp only; skip)
    | (with_reducible refine Keeps.lit rfl rfl ?_; first | with_reducible assumption | exact hregs _ | exact hregs | with_reducible apply State.resetFns_keeps | with_reducible apply State.cutCmds_keeps | with_reducible apply State.dropRegs_keeps | with_reducible apply State.put_keeps | (split; skip))

theorem State.portLeave_keeps {ps : Part → Prop} {s0 s : State} (h19 : ps (.regs 19)) (h_pci : ps .pci) (h_qqp : ps .qqp) (h : Keeps ps s0 s) : Keeps ps s0 (State.portLeave s) := by
  unfold State.portLeave
  repeat' first
    | (extract_lets +onlyGivenNames x; first | (with_reducible refine Keeps.cut (x := x) ?_ ?_; rotate_left; (try clear_value x); (intro _; skip); rotate_right; subst x) | subst x)
    | with_reducible assumption | exact h19 | with_reducible apply State.putMbxCqe_keeps
    | (intro _; skip) | split
    | (dsimp only; skip)
    | (with_reducible refine Keeps.lit rfl rfl ?_; first | with_reducible assumption | exact h19 | with_reducible apply State.putMbxCqe_keeps | (split; skip))

theorem State.perstCut_keeps {ps : Part → Prop} {s0 s : State} (hregs : ∀ b, ps (.regs b)) (h_dck : ps .dck) (h_evt : ps .evt) (h_gens : ps .gens) (h_lanes : ps .lanes) (h_lve : ps .lve) (h_out : ps .out) (h_pci : ps .pci) (h_pwr : ps .pwr) (h_qqp : ps .qqp) (h_shadow : ps .shadow) (h_stage : ps .stage) (h_tly : ps .tly) (h : Keeps ps s0 s) : Keeps ps s0 (State.perstCut s) := by
  unfold State.perstCut
  repeat' first
    | (extract_lets +onlyGivenNames x; first | (with_reducible refine Keeps.cut (x := x) ?_ ?_; rotate_left; (try clear_value x); (intro _; skip); rotate_right; subst x) | subst x)
    | with_reducible assumption | exact hregs _ | exact hregs | with_reducible apply State.bump_keeps | with_reducible apply State.laneOff_keeps | with_reducible apply State.portReset_keeps | with_reducible apply State.post_keeps | with_reducible apply Keeps.foldl | with_reducible apply Keeps.foldlFst
    | (intro _; skip) | split
    | (dsimp only; skip)

theorem State.applyDeferred_keeps {ps : Part → Prop} {s0 s : State} (h16 : ps (.regs 16)) (h19 : ps (.regs 19)) (h_cfg : ps .cfg) (h_pci : ps .pci) (h : Keeps ps s0 s) : Keeps ps s0 (State.applyDeferred s) := by
  unfold State.applyDeferred
  repeat' first
    | with_reducible assumption | exact h16 | exact h19 | with_reducible apply State.applyPcie_keeps
    | (intro _; skip) | split
    | (dsimp only; skip)
    | (with_reducible refine Keeps.lit rfl rfl ?_; first | with_reducible assumption | exact h16 | exact h19 | with_reducible apply State.applyPcie_keeps | (split; skip))

theorem execPerstNAssert_keeps {ps : Part → Prop} {s : State} (hregs : ∀ b, ps (.regs b)) (h_cfg : ps .cfg) (h_dck : ps .dck) (h_evt : ps .evt) (h_gens : ps .gens) (h_lanes : ps .lanes) (h_lve : ps .lve) (h_out : ps .out) (h_pci : ps .pci) (h_pwr : ps .pwr) (h_qqp : ps .qqp) (h_shadow : ps .shadow) (h_stage : ps .stage) (h_tly : ps .tly) : ∀ r, (execPerstNAssert s) = .next r → Keeps ps s r := by
  intro r e
  cases e
  have h := Keeps.refl (ps := ps) s
  repeat' first
    | (extract_lets +onlyGivenNames x; first | (with_reducible refine Keeps.cut (x := x) ?_ ?_; rotate_left; (try clear_value x); (intro _; skip); rotate_right; subst x) | subst x)
    | with_reducible assumption | exact hregs _ | exact hregs | with_reducible apply State.when_keeps | with_reducible apply State.applyDeferred_keeps | with_reducible apply State.perstCut_keeps
    | (intro _; skip) | split
    | (dsimp only; skip)
    | (with_reducible refine Keeps.lit rfl rfl ?_; first | with_reducible assumption | exact hregs _ | exact hregs | with_reducible apply State.when_keeps | with_reducible apply State.applyDeferred_keeps | with_reducible apply State.perstCut_keeps | (split; skip))

theorem execPerstNRise_keeps {ps : Part → Prop} {s : State} (h15 : ps (.regs 15)) (h19 : ps (.regs 19)) (h_pci : ps .pci) (h_qqp : ps .qqp) : ∀ r, (execPerstNRise s) = .next r → Keeps ps s r := by
  intro r e
  cases e
  have h := Keeps.refl (ps := ps) s
  repeat' first
    | (extract_lets +onlyGivenNames x; first | (with_reducible refine Keeps.cut (x := x) ?_ ?_; rotate_left; (try clear_value x); (intro _; skip); rotate_right; subst x) | subst x)
    | with_reducible assumption | exact h15 | exact h19 | with_reducible apply State.when_keeps | with_reducible apply State.laneOn_keeps | with_reducible apply State.portLeave_keeps | with_reducible apply Keeps.foldl | with_reducible apply Keeps.foldlFst
    | (intro _; skip) | split
    | (dsimp only; skip)
    | (with_reducible refine Keeps.lit rfl rfl ?_; first | with_reducible assumption | exact h15 | exact h19 | with_reducible apply State.when_keeps | with_reducible apply State.laneOn_keeps | with_reducible apply State.portLeave_keeps | with_reducible apply Keeps.foldl | with_reducible apply Keeps.foldlFst | (split; skip))

theorem execLinkDown_keeps {ps : Part → Prop} {s : State} {a1 : Bool} (hregs : ∀ b, ps (.regs b)) (h_dck : ps .dck) (h_evt : ps .evt) (h_gens : ps .gens) (h_lve : ps .lve) (h_out : ps .out) (h_pci : ps .pci) (h_pwr : ps .pwr) (h_qqp : ps .qqp) (h_shadow : ps .shadow) (h_stage : ps .stage) (h_tly : ps .tly) : ∀ r, (execLinkDown a1 s) = .next r → Keeps ps s r := by
  intro r e
  cases e
  have h := Keeps.refl (ps := ps) s
  repeat' first
    | (extract_lets +onlyGivenNames x; first | (with_reducible refine Keeps.cut (x := x) ?_ ?_; rotate_left; (try clear_value x); (intro _; skip); rotate_right; subst x) | subst x)
    | with_reducible assumption | exact hregs _ | exact hregs | with_reducible apply State.when_keeps | with_reducible apply State.portReset_keeps | with_reducible apply State.bump_keeps | with_reducible apply State.post_keeps
    | (intro _; skip) | split
    | (dsimp only; skip)

theorem execFlr_keeps {ps : Part → Prop} {s : State} {a1 : Nat} (hregs : ∀ b, ps (.regs b)) (h_dck : ps .dck) (h_evt : ps .evt) (h_gens : ps .gens) (h_lve : ps .lve) (h_out : ps .out) (h_pci : ps .pci) (h_pwr : ps .pwr) (h_qqp : ps .qqp) (h_shadow : ps .shadow) (h_stage : ps .stage) (h_tly : ps .tly) : ∀ r, (execFlr a1 s) = .next r → Keeps ps s r := by
  intro r e
  cases e
  have h := Keeps.refl (ps := ps) s
  repeat' first
    | (extract_lets +onlyGivenNames x; first | (with_reducible refine Keeps.cut (x := x) ?_ ?_; rotate_left; (try clear_value x); (intro _; skip); rotate_right; subst x) | subst x)
    | with_reducible assumption | exact hregs _ | exact hregs | with_reducible apply State.when_keeps | with_reducible apply State.removeVfs_keeps | with_reducible apply State.resetFns_keeps | with_reducible apply State.cutCmds_keeps | with_reducible apply State.put_keeps | with_reducible apply State.flag_keeps
    | (intro _; skip) | split
    | (dsimp only; skip)

theorem execFlrDone_keeps {ps : Part → Prop} {s : State} {a1 a2 : Nat} (h16 : ps (.regs 16)) (h17 : ps (.regs 17)) (h_evt : ps .evt) (h_out : ps .out) (h_pci : ps .pci) : ∀ r, (execFlrDone a1 a2 s) = .next r → Keeps ps s r := by
  intro r e
  cases e
  have h := Keeps.refl (ps := ps) s
  repeat' first
    | with_reducible assumption | exact h16 | exact h17 | with_reducible apply State.when_keeps | with_reducible apply State.post_keeps | with_reducible apply State.bump_keeps | with_reducible apply State.put_keeps
    | (intro _; skip) | split
    | (dsimp only; skip)

theorem execPcieHardBlockReady_keeps {ps : Part → Prop} {s : State} (h15 : ps (.regs 15)) (h16 : ps (.regs 16)) : ∀ r, (execPcieHardBlockReady s) = .next r → Keeps ps s r := by
  intro r e
  cases e
  have h := Keeps.refl (ps := ps) s
  repeat' first
    | (extract_lets +onlyGivenNames x; first | (with_reducible refine Keeps.cut (x := x) ?_ ?_; rotate_left; (try clear_value x); (intro _; skip); rotate_right; subst x) | subst x)
    | with_reducible assumption | exact h15 | exact h16 | with_reducible apply State.when_keeps | with_reducible apply State.put_keeps | with_reducible apply State.laneOn_keeps | with_reducible apply Keeps.foldl | with_reducible apply Keeps.foldlFst
    | (intro _; skip) | split
    | (dsimp only; skip)

theorem State.linkTrained_keeps {ps : Part → Prop} {a1 a2 : Nat} {a3 a4 : Bool} {s0 s : State} (h16 : ps (.regs 16)) (h17 : ps (.regs 17)) (h19 : ps (.regs 19)) (h_evt : ps .evt) (h_out : ps .out) (h_pci : ps .pci) (h_qqp : ps .qqp) (h : Keeps ps s0 s) : Keeps ps s0 (State.linkTrained s a1 a2 a3 a4) := by
  unfold State.linkTrained
  repeat' first
    | (extract_lets +onlyGivenNames x; first | (with_reducible refine Keeps.cut (x := x) ?_ ?_; rotate_left; (try clear_value x); (intro _; skip); rotate_right; subst x) | subst x)
    | with_reducible assumption | exact h16 | exact h17 | exact h19 | with_reducible apply State.put_keeps | with_reducible apply State.flag_keeps | with_reducible apply State.portLeave_keeps | with_reducible apply State.post_keeps
    | (intro _; skip) | split
    | (dsimp only; skip)
    | (with_reducible refine Keeps.lit rfl rfl ?_; first | with_reducible assumption | exact h16 | exact h17 | exact h19 | with_reducible apply State.put_keeps | with_reducible apply State.flag_keeps | with_reducible apply State.portLeave_keeps | with_reducible apply State.post_keeps | (split; skip))

theorem execPcieLinkUp_keeps {ps : Part → Prop} {s : State} {a1 a2 : Nat} {a3 : LinkMode} (h16 : ps (.regs 16)) (h17 : ps (.regs 17)) (h19 : ps (.regs 19)) (h_evt : ps .evt) (h_out : ps .out) (h_pci : ps .pci) (h_qqp : ps .qqp) : ∀ r, (execPcieLinkUp a1 a2 a3 s) = .next r → Keeps ps s r := by
  intro r e
  cases e
  have h := Keeps.refl (ps := ps) s
  repeat' first
    | with_reducible assumption | exact h16 | exact h17 | exact h19 | with_reducible apply State.when_keeps | with_reducible apply State.linkTrained_keeps
    | (intro _; skip) | split
    | (dsimp only; skip)
    | (with_reducible refine Keeps.lit rfl rfl ?_; first | with_reducible assumption | exact h16 | exact h17 | exact h19 | with_reducible apply State.when_keeps | with_reducible apply State.linkTrained_keeps | (split; skip))

theorem State.l0pTo_keeps {ps : Part → Prop} {a1 : Nat} {s0 s : State} (h16 : ps (.regs 16)) (h : Keeps ps s0 s) : Keeps ps s0 (State.l0pTo s a1) := by
  unfold State.l0pTo
  repeat' first
    | with_reducible assumption | exact h16 | with_reducible apply State.bump_keeps | with_reducible apply State.flag_keeps | with_reducible apply State.put_keeps
    | (intro _; skip) | split
    | (dsimp only; skip)

theorem execL0pHostRequest_keeps {ps : Part → Prop} {s : State} {a1 : Nat} (h16 : ps (.regs 16)) : ∀ r, (execL0pHostRequest a1 s) = .next r → Keeps ps s r := by
  intro r e
  cases e
  have h := Keeps.refl (ps := ps) s
  repeat' first
    | with_reducible assumption | exact h16 | with_reducible apply State.when_keeps | with_reducible apply State.l0pTo_keeps
    | (intro _; skip) | split
    | (dsimp only; skip)

theorem execL0pNarrow_keeps {ps : Part → Prop} {s : State} (h16 : ps (.regs 16)) : ∀ r, (execL0pNarrow s) = .next r → Keeps ps s r := by
  intro r e
  cases e
  have h := Keeps.refl (ps := ps) s
  repeat' first
    | (extract_lets +onlyGivenNames x; first | (with_reducible refine Keeps.cut (x := x) ?_ ?_; rotate_left; (try clear_value x); (intro _; skip); rotate_right; subst x) | subst x)
    | with_reducible assumption | exact h16 | with_reducible apply State.when_keeps | with_reducible apply State.l0pTo_keeps
    | (intro _; skip) | split
    | (dsimp only; skip)

theorem execL0pWiden_keeps {ps : Part → Prop} {s : State} (h16 : ps (.regs 16)) : ∀ r, (execL0pWiden s) = .next r → Keeps ps s r := by
  intro r e
  cases e
  have h := Keeps.refl (ps := ps) s
  repeat' first
    | with_reducible assumption | exact h16 | with_reducible apply State.when_keeps | with_reducible apply State.l0pTo_keeps
    | (intro _; skip) | split
    | (dsimp only; skip)

theorem State.pciCtl_keeps {ps : Part → Prop} {a1 : Nat} {s0 s : State} (h16 : ps (.regs 16)) (h : Keeps ps s0 s) : Keeps ps s0 (State.pciCtl s a1) := by
  unfold State.pciCtl
  repeat' first
    | (extract_lets +onlyGivenNames x; first | (with_reducible refine Keeps.cut (x := x) ?_ ?_; rotate_left; (try clear_value x); (intro _; skip); rotate_right; subst x) | subst x)
    | with_reducible assumption | exact h16 | with_reducible apply State.put_keeps
    | (intro _; skip) | split
    | (dsimp only; skip)

theorem execPcieRetrain_keeps {ps : Part → Prop} {s : State} {a1 : Req} {a2 : Nat} (h16 : ps (.regs 16)) (h17 : ps (.regs 17)) (h_evt : ps .evt) (h_out : ps .out) (h_pci : ps .pci) : ∀ r, (execPcieRetrain a1 a2 s) = .next r → Keeps ps s r := by
  intro r e
  cases e
  have h := Keeps.refl (ps := ps) s
  repeat' first
    | with_reducible assumption | exact h16 | exact h17 | with_reducible apply State.when_keeps | with_reducible apply State.byReq_keeps | with_reducible apply State.pciCtl_keeps
    | (intro _; skip) | split
    | (dsimp only; skip)

theorem State.msixRelease_keeps {ps : Part → Prop} {a1 a2 : Nat} {s0 s : State} (h_out : ps .out) (h_pci : ps .pci) (h : Keeps ps s0 s) : Keeps ps s0 (State.msixRelease s a1 a2) := by
  unfold State.msixRelease
  repeat' first
    | (extract_lets +onlyGivenNames x; first | (with_reducible refine Keeps.cut (x := x) ?_ ?_; rotate_left; (try clear_value x); (intro _; skip); rotate_right; subst x) | subst x)
    | with_reducible assumption | with_reducible apply State.msix_keeps
    | (intro _; skip) | split
    | (dsimp only; skip)
    | (with_reducible refine Keeps.lit rfl rfl ?_; first | with_reducible assumption | with_reducible apply State.msix_keeps | (split; skip))

theorem execMsixUnmask_keeps {ps : Part → Prop} {s : State} {a1 a2 : Nat} (h_out : ps .out) (h_pci : ps .pci) : ∀ r, (execMsixUnmask a1 a2 s) = .next r → Keeps ps s r := by
  intro r e
  cases e
  have h := Keeps.refl (ps := ps) s
  repeat' first
    | with_reducible assumption | with_reducible apply State.when_keeps | with_reducible apply State.msixRelease_keeps
    | (intro _; skip) | split
    | (dsimp only; skip)
    | (with_reducible refine Keeps.lit rfl rfl ?_; first | with_reducible assumption | with_reducible apply State.when_keeps | with_reducible apply State.msixRelease_keeps | (split; skip))

theorem State.msixAll_keeps {ps : Part → Prop} {a1 : Nat} {s0 s : State} (h_out : ps .out) (h_pci : ps .pci) (h : Keeps ps s0 s) : Keeps ps s0 (State.msixAll s a1) := by
  unfold State.msixAll
  repeat' first
    | with_reducible assumption | with_reducible apply State.msixRelease_keeps | with_reducible apply Keeps.foldl | with_reducible apply Keeps.foldlFst
    | (intro _; skip) | split
    | (dsimp only; skip)

theorem State.heldRelease_keeps {ps : Part → Prop} {a1 : Nat} {s0 s : State} (h_out : ps .out) (h_pci : ps .pci) (h : Keeps ps s0 s) : Keeps ps s0 (State.heldRelease s a1) := by
  unfold State.heldRelease
  repeat' first
    | (extract_lets +onlyGivenNames x; first | (with_reducible refine Keeps.cut (x := x) ?_ ?_; rotate_left; (try clear_value x); (intro _; skip); rotate_right; subst x) | subst x)
    | with_reducible assumption | with_reducible apply State.msix_keeps | with_reducible apply Keeps.foldl | with_reducible apply Keeps.foldlFst
    | (intro _; skip) | split
    | (dsimp only; skip)
    | (with_reducible refine Keeps.lit rfl rfl ?_; first | with_reducible assumption | with_reducible apply State.msix_keeps | with_reducible apply Keeps.foldl | with_reducible apply Keeps.foldlFst | (split; skip))

theorem State.urSent_keeps {ps : Part → Prop} {a1 : Nat} {s0 s : State} (h16 : ps (.regs 16)) (h17 : ps (.regs 17)) (h_evt : ps .evt) (h_out : ps .out) (h_pci : ps .pci) (h : Keeps ps s0 s) : Keeps ps s0 (State.urSent s a1) := by
  unfold State.urSent
  repeat' first
    | with_reducible assumption | exact h16 | exact h17 | with_reducible apply State.post_keeps | with_reducible apply State.bump_keeps
    | (intro _; skip) | split
    | (dsimp only; skip)

theorem State.addVfs_keeps {ps : Part → Prop} {a1 : Nat} {s0 s : State} (h16 : ps (.regs 16)) (h_pci : ps .pci) (h : Keeps ps s0 s) : Keeps ps s0 (State.addVfs s a1) := by
  unfold State.addVfs
  repeat' first
    | with_reducible assumption | exact h16 | with_reducible apply State.put_keeps | with_reducible apply Keeps.foldl | with_reducible apply Keeps.foldlFst
    | (intro _; skip) | split
    | (dsimp only; skip)
    | (with_reducible refine Keeps.lit rfl rfl ?_; first | with_reducible assumption | exact h16 | with_reducible apply State.put_keeps | with_reducible apply Keeps.foldl | with_reducible apply Keeps.foldlFst | (split; skip))

theorem State.cfgWrite_keeps {ps : Part → Prop} {a1 : Nat} {a2 : CfgReq} {s0 s : State} (hregs : ∀ b, ps (.regs b)) (h_dck : ps .dck) (h_evt : ps .evt) (h_gens : ps .gens) (h_lve : ps .lve) (h_out : ps .out) (h_pci : ps .pci) (h_pwr : ps .pwr) (h_qqp : ps .qqp) (h_shadow : ps .shadow) (h_stage : ps .stage) (h_tly : ps .tly) (h : Keeps ps s0 s) : Keeps ps s0 (State.cfgWrite s a1 a2) := by
  unfold State.cfgWrite
  repeat' first
    | (extract_lets +onlyGivenNames x; first | (with_reducible refine Keeps.cut (x := x) ?_ ?_; rotate_left; (try clear_value x); (intro _; skip); rotate_right; subst x) | subst x)
    | with_reducible assumption | exact hregs _ | exact hregs | with_reducible apply State.flag_keeps | with_reducible apply State.heldRelease_keeps | with_reducible apply State.msixAll_keeps | with_reducible apply State.put_keeps | with_reducible apply State.removeVfs_keeps | with_reducible apply State.addVfs_keeps | with_reducible apply Keeps.foldl | with_reducible apply Keeps.foldlFst
    | (intro _; skip) | split
    | (dsimp only; skip)
    | (with_reducible refine Keeps.lit rfl rfl ?_; first | with_reducible assumption | exact hregs _ | exact hregs | with_reducible apply State.flag_keeps | with_reducible apply State.heldRelease_keeps | with_reducible apply State.msixAll_keeps | with_reducible apply State.put_keeps | with_reducible apply State.removeVfs_keeps | with_reducible apply State.addVfs_keeps | with_reducible apply Keeps.foldl | with_reducible apply Keeps.foldlFst | (split; skip))

theorem execConfigurationRequest_keeps {ps : Part → Prop} {s : State} {a1 : Nat} {a2 : CfgReq} (hregs : ∀ b, ps (.regs b)) (h_dck : ps .dck) (h_evt : ps .evt) (h_gens : ps .gens) (h_lve : ps .lve) (h_out : ps .out) (h_pci : ps .pci) (h_pwr : ps .pwr) (h_qqp : ps .qqp) (h_shadow : ps .shadow) (h_stage : ps .stage) (h_tly : ps .tly) : ∀ r, (execConfigurationRequest a1 a2 s) = .next r → Keeps ps s r := by
  intro r e
  cases e
  have h := Keeps.refl (ps := ps) s
  repeat' first
    | with_reducible assumption | exact hregs _ | exact hregs | with_reducible apply State.when_keeps | with_reducible apply State.cfgWrite_keeps | with_reducible apply State.bump_keeps
    | (intro _; skip) | split
    | (dsimp only; skip)

theorem State.hostFault_keeps {ps : Part → Prop} {a1 : HostTgt} {a2 : Nat} {a3 a4 : Bool} {s0 s : State} (h16 : ps (.regs 16)) (h17 : ps (.regs 17)) (h_evt : ps .evt) (h_out : ps .out) (h_pci : ps .pci) (h_qqp : ps .qqp) (h : Keeps ps s0 s) : Keeps ps s0 (State.hostFault s a1 a2 a3 a4) := by
  unfold State.hostFault
  repeat' first
    | (extract_lets +onlyGivenNames x; first | (with_reducible refine Keeps.cut (x := x) ?_ ?_; rotate_left; (try clear_value x); (intro _; skip); rotate_right; subst x) | subst x)
    | with_reducible assumption | exact h16 | exact h17 | with_reducible apply State.bump_keeps | with_reducible apply State.post_keeps | with_reducible apply State.updCmd_keeps | with_reducible apply State.updQp_keeps
    | (intro _; skip) | split
    | (dsimp only; skip)
    | (with_reducible refine Keeps.lit rfl rfl ?_; first | with_reducible assumption | exact h16 | exact h17 | with_reducible apply State.bump_keeps | with_reducible apply State.post_keeps | with_reducible apply State.updCmd_keeps | with_reducible apply State.updQp_keeps | (split; skip))

theorem execHostReadCompletion_keeps {ps : Part → Prop} {s : State} {a1 : HostTgt} {a2 : HostRead} (h6 : ps (.regs 6)) (h16 : ps (.regs 16)) (h17 : ps (.regs 17)) (h_dck : ps .dck) (h_evt : ps .evt) (h_out : ps .out) (h_pci : ps .pci) (h_qqp : ps .qqp) : ∀ r, (execHostReadCompletion a1 a2 s) = .next r → Keeps ps s r := by
  intro r e
  cases e
  have h := Keeps.refl (ps := ps) s
  repeat' first
    | (extract_lets +onlyGivenNames x; first | (with_reducible refine Keeps.cut (x := x) ?_ ?_; rotate_left; (try clear_value x); (intro _; skip); rotate_right; subst x) | subst x)
    | with_reducible assumption | exact h6 | exact h16 | exact h17 | with_reducible apply State.when_keeps | with_reducible apply State.hostFault_keeps | with_reducible apply State.updCmd_keeps | with_reducible apply State.failCmd_keeps
    | (intro _; skip) | split
    | (dsimp only; skip)
    | (with_reducible refine Keeps.lit rfl rfl ?_; first | with_reducible assumption | exact h6 | exact h16 | exact h17 | with_reducible apply State.when_keeps | with_reducible apply State.hostFault_keeps | with_reducible apply State.updCmd_keeps | with_reducible apply State.failCmd_keeps | (split; skip))

theorem execHostCompletionTimeout_keeps {ps : Part → Prop} {s : State} {a1 : HostTgt} (h16 : ps (.regs 16)) (h17 : ps (.regs 17)) (h_evt : ps .evt) (h_out : ps .out) (h_pci : ps .pci) (h_qqp : ps .qqp) : ∀ r, (execHostCompletionTimeout a1 s) = .next r → Keeps ps s r := by
  intro r e
  cases e
  have h := Keeps.refl (ps := ps) s
  repeat' first
    | (extract_lets +onlyGivenNames x; first | (with_reducible refine Keeps.cut (x := x) ?_ ?_; rotate_left; (try clear_value x); (intro _; skip); rotate_right; subst x) | subst x)
    | with_reducible assumption | exact h16 | exact h17 | with_reducible apply State.when_keeps | with_reducible apply State.hostFault_keeps
    | (intro _; skip) | split
    | (dsimp only; skip)
    | (with_reducible refine Keeps.lit rfl rfl ?_; first | with_reducible assumption | exact h16 | exact h17 | with_reducible apply State.when_keeps | with_reducible apply State.hostFault_keeps | (split; skip))

end Sys2Proof.Machine
end

