-- ==== Sys2Proof/Laws/Frames.lean ====
section
/-! SUPPORT. What each operation and each meaning of Machine/Frames.lean keeps (Keeps): one lemma a definition. -/

-- The package as one text is checked in one process: its proofs are checked one after another, and its linters keep quiet.
set_option Elab.async false
set_option linter.all false

namespace Sys2Proof.Machine
open Sys2Proof

theorem State.updFrm_keeps {ps : Part → Prop} {a1 : Nat} {a2 : Frm → Frm} {s0 s : State} (h_sl : ps .sl) (h : Keeps ps s0 s) : Keeps ps s0 (State.updFrm s a1 a2) := by
  unfold State.updFrm
  repeat' first
    | with_reducible assumption
    | (intro _; skip) | split
    | (dsimp only; skip)
    | (with_reducible refine Keeps.lit rfl rfl ?_; first | with_reducible assumption | (split; skip))

end Sys2Proof.Machine
end

