-- ==== Sys2Proof/Laws/Cells.lean ====
section
/-! SUPPORT. What each operation and each meaning of Machine/Cells.lean keeps (Keeps): one lemma a definition. -/

-- The package as one text is checked in one process: its proofs are checked one after another, and its linters keep quiet.
set_option Elab.async false
set_option linter.all false

namespace Sys2Proof.Machine
open Sys2Proof

theorem State.setMemWord_keeps {ps : Part → Prop} {a1 a2 a3 a4 a5 : Nat} {s0 s : State} (h_sl : ps .sl) (h : Keeps ps s0 s) : Keeps ps s0 (State.setMemWord s a1 a2 a3 a4 a5) := by
  unfold State.setMemWord
  repeat' first
    | (extract_lets +onlyGivenNames x; first | (with_reducible refine Keeps.cut (x := x) ?_ ?_; rotate_left; (try clear_value x); (intro _; skip); rotate_right; subst x) | subst x)
    | with_reducible assumption | with_reducible apply State.updFrm_keeps | with_reducible apply Keeps.foldl | with_reducible apply Keeps.foldlFst
    | (intro _; skip) | split
    | (dsimp only; skip)
    | (with_reducible refine Keeps.lit rfl rfl ?_; first | with_reducible assumption | with_reducible apply State.updFrm_keeps | with_reducible apply Keeps.foldl | with_reducible apply Keeps.foldlFst | (split; skip))

theorem State.updMport_keeps {ps : Part → Prop} {a1 a2 a3 : Nat} {a4 : PortSt → PortSt} {s0 s : State} (h_fab : ps .fab) (h : Keeps ps s0 s) : Keeps ps s0 (State.updMport s a1 a2 a3 a4) := by
  unfold State.updMport
  repeat' first
    | with_reducible assumption
    | (intro _; skip) | split
    | (dsimp only; skip)
    | (with_reducible refine Keeps.lit rfl rfl ?_; first | with_reducible assumption | (split; skip))

theorem State.releaseTile_keeps {ps : Part → Prop} {a1 : Ram} {a2 a3 : Nat} {s0 s : State} (h_fab : ps .fab) (h : Keeps ps s0 s) : Keeps ps s0 (State.releaseTile s a1 a2 a3) := by
  unfold State.releaseTile
  repeat' first
    | (extract_lets +onlyGivenNames x; first | (with_reducible refine Keeps.cut (x := x) ?_ ?_; rotate_left; (try clear_value x); (intro _; skip); rotate_right; subst x) | subst x)
    | with_reducible assumption | with_reducible apply Keeps.foldl | with_reducible apply Keeps.foldlFst
    | (intro _; skip) | split
    | (dsimp only; skip)
    | (with_reducible refine Keeps.lit rfl rfl ?_; first | with_reducible assumption | with_reducible apply Keeps.foldl | with_reducible apply Keeps.foldlFst | (split; skip))

theorem State.releaseRows_keeps {ps : Part → Prop} {a1 : Ram} {a2 a3 : Nat} {a4 : Nat → Bool} {s0 s : State} (h_fab : ps .fab) (h : Keeps ps s0 s) : Keeps ps s0 (State.releaseRows s a1 a2 a3 a4) := by
  unfold State.releaseRows
  repeat' first
    | (extract_lets +onlyGivenNames x; first | (with_reducible refine Keeps.cut (x := x) ?_ ?_; rotate_left; (try clear_value x); (intro _; skip); rotate_right; subst x) | subst x)
    | with_reducible assumption | with_reducible apply State.releaseTile_keeps | with_reducible apply Keeps.foldl | with_reducible apply Keeps.foldlFst
    | (intro _; skip) | split
    | (dsimp only; skip)
    | (with_reducible refine Keeps.lit rfl rfl ?_; first | with_reducible assumption | with_reducible apply State.releaseTile_keeps | with_reducible apply Keeps.foldl | with_reducible apply Keeps.foldlFst | (split; skip))

theorem State.releaseStand_keeps {ps : Part → Prop} {a1 : Nat} {s0 s : State} (h_fab : ps .fab) (h : Keeps ps s0 s) : Keeps ps s0 (State.releaseStand s a1) := by
  unfold State.releaseStand
  repeat' first
    | with_reducible assumption | with_reducible apply State.releaseRows_keeps
    | (intro _; skip) | split
    | (dsimp only; skip)

theorem State.releaseAll_keeps {ps : Part → Prop} {s0 s : State} (h_fab : ps .fab) (h : Keeps ps s0 s) : Keeps ps s0 (State.releaseAll s) := by
  unfold State.releaseAll
  repeat' first
    | with_reducible assumption | with_reducible apply State.releaseStand_keeps | with_reducible apply Keeps.foldl | with_reducible apply Keeps.foldlFst
    | (intro _; skip) | split
    | (dsimp only; skip)

theorem State.releasePolder_keeps {ps : Part → Prop} {a1 : Nat} {a2 : Bool} {s0 s : State} (h_fab : ps .fab) (h : Keeps ps s0 s) : Keeps ps s0 (State.releasePolder s a1 a2) := by
  unfold State.releasePolder
  repeat' first
    | with_reducible assumption | with_reducible apply State.releaseRows_keeps
    | (intro _; skip) | split
    | (dsimp only; skip)

theorem clusterStep_keeps {ps : Part → Prop} {a1 : State} {a2 a3 a4 : Nat} {s0 s : State} (h_fab : ps .fab) (h : Keeps ps s0 s) : Keeps ps s0 (clusterStep a1 a2 a3 s a4) := by
  unfold clusterStep
  repeat' first
    | (extract_lets +onlyGivenNames x; first | (with_reducible refine Keeps.cut (x := x) ?_ ?_; rotate_left; (try clear_value x); (intro _; skip); rotate_right; subst x) | subst x)
    | with_reducible assumption | with_reducible apply Keeps.foldl | with_reducible apply Keeps.foldlFst
    | (intro _; skip) | split
    | (dsimp only; skip)
    | (with_reducible refine Keeps.lit rfl rfl ?_; first | with_reducible assumption | with_reducible apply Keeps.foldl | with_reducible apply Keeps.foldlFst | (split; skip))

theorem portStep_keeps {ps : Part → Prop} {a1 : State} {a2 a3 a4 a5 : Nat} {s0 s : State} (h_fab : ps .fab) (h_fresh : ps .fresh) (h_sl : ps .sl) (h : Keeps ps s0 s) : Keeps ps s0 (portStep a1 a2 a3 a4 a5 s) := by
  unfold portStep
  repeat' first
    | (extract_lets +onlyGivenNames x; first | (with_reducible refine Keeps.cut (x := x) ?_ ?_; rotate_left; (try clear_value x); (intro _; skip); rotate_right; subst x) | subst x)
    | with_reducible assumption | with_reducible apply State.updMport_keeps | with_reducible apply State.drawn_keeps | with_reducible apply State.setMemWord_keeps
    | (intro _; skip) | split
    | (dsimp only; skip)
    | (with_reducible refine Keeps.lit rfl rfl ?_; first | with_reducible assumption | with_reducible apply State.updMport_keeps | with_reducible apply State.drawn_keeps | with_reducible apply State.setMemWord_keeps | (split; skip))

theorem portsStep_keeps {ps : Part → Prop} {a1 : State} {a2 a3 a4 : Nat} {s0 s : State} (h_fab : ps .fab) (h_sl : ps .sl) (h : Keeps ps s0 s) : Keeps ps s0 (portsStep a1 a2 a3 a4 s) := by
  unfold portsStep
  repeat' first
    | (extract_lets +onlyGivenNames x; first | (with_reducible refine Keeps.cut (x := x) ?_ ?_; rotate_left; (try clear_value x); (intro _; skip); rotate_right; subst x) | subst x)
    | with_reducible assumption | with_reducible apply State.setMemWord_keeps | with_reducible apply State.updMport_keeps
    | (intro _; skip) | split
    | (dsimp only; skip)
    | (with_reducible refine Keeps.lit rfl rfl ?_; first | with_reducible assumption | with_reducible apply State.setMemWord_keeps | with_reducible apply State.updMport_keeps | (split; skip))

theorem memStep_keeps {ps : Part → Prop} {a1 : State} {a2 a3 : Nat} {s0 s : State} (h_fab : ps .fab) (h_fresh : ps .fresh) (h_sl : ps .sl) (h : Keeps ps s0 s) : Keeps ps s0 (memStep a1 a2 s a3) := by
  unfold memStep
  repeat' first
    | (extract_lets +onlyGivenNames x; first | (with_reducible refine Keeps.cut (x := x) ?_ ?_; rotate_left; (try clear_value x); (intro _; skip); rotate_right; subst x) | subst x)
    | with_reducible assumption | with_reducible apply portStep_keeps | with_reducible apply portsStep_keeps
    | (intro _; skip) | split
    | (dsimp only; skip)
    | (with_reducible refine Keeps.lit rfl rfl ?_; first | with_reducible assumption | with_reducible apply portStep_keeps | with_reducible apply portsStep_keeps | (split; skip))

theorem sliceStep_keeps {ps : Part → Prop} {a1 : State} {a2 a3 : Nat} {s0 s : State} (h_fab : ps .fab) (h : Keeps ps s0 s) : Keeps ps s0 (sliceStep a1 a2 s a3) := by
  unfold sliceStep
  repeat' first
    | (extract_lets +onlyGivenNames x; first | (with_reducible refine Keeps.cut (x := x) ?_ ?_; rotate_left; (try clear_value x); (intro _; skip); rotate_right; subst x) | subst x)
    | with_reducible assumption
    | (intro _; skip) | split
    | (dsimp only; skip)
    | (with_reducible refine Keeps.lit rfl rfl ?_; first | with_reducible assumption | (split; skip))

theorem hardStep_keeps {ps : Part → Prop} {a1 : State} {a2 : Nat × Nat × Nat} {s0 s : State} (h_fab : ps .fab) (h_fresh : ps .fresh) (h_sl : ps .sl) (h : Keeps ps s0 s) : Keeps ps s0 (hardStep a1 s a2) := by
  unfold hardStep
  repeat' first
    | (extract_lets +onlyGivenNames x; first | (with_reducible refine Keeps.cut (x := x) ?_ ?_; rotate_left; (try clear_value x); (intro _; skip); rotate_right; subst x) | subst x)
    | with_reducible assumption | with_reducible apply memStep_keeps | with_reducible apply sliceStep_keeps | with_reducible apply Keeps.foldl | with_reducible apply Keeps.foldlFst
    | (intro _; skip) | split
    | (dsimp only; skip)

theorem bridgeStep_keeps {ps : Part → Prop} {a1 : State} {a2 : Nat} {s0 s : State} (h_fab : ps .fab) (h : Keeps ps s0 s) : Keeps ps s0 (bridgeStep a1 s a2) := by
  unfold bridgeStep
  repeat' first
    | (extract_lets +onlyGivenNames x; first | (with_reducible refine Keeps.cut (x := x) ?_ ?_; rotate_left; (try clear_value x); (intro _; skip); rotate_right; subst x) | subst x)
    | with_reducible assumption
    | (intro _; skip) | split
    | (dsimp only; skip)
    | (with_reducible refine Keeps.lit rfl rfl ?_; first | with_reducible assumption | (split; skip))

theorem keeperStep_keeps {ps : Part → Prop} {a1 : State} {a2 : Nat × Nat} {s0 s : State} (h_fab : ps .fab) (h : Keeps ps s0 s) : Keeps ps s0 (keeperStep a1 s a2) := by
  unfold keeperStep
  repeat' first
    | with_reducible assumption
    | (intro _; skip) | split
    | (dsimp only; skip)
    | (with_reducible refine Keeps.lit rfl rfl ?_; first | with_reducible assumption | (split; skip))

theorem uioStep_keeps {ps : Part → Prop} {a1 : State} {a2 : Nat × Nat} {s0 s : State} (h_fab : ps .fab) (h : Keeps ps s0 s) : Keeps ps s0 (uioStep a1 s a2) := by
  unfold uioStep
  repeat' first
    | (extract_lets +onlyGivenNames x; first | (with_reducible refine Keeps.cut (x := x) ?_ ?_; rotate_left; (try clear_value x); (intro _; skip); rotate_right; subst x) | subst x)
    | with_reducible assumption
    | (intro _; skip) | split
    | (dsimp only; skip)
    | (with_reducible refine Keeps.lit rfl rfl ?_; first | with_reducible assumption | (split; skip))

theorem State.fabricNs_keeps {ps : Part → Prop} {s0 s : State} (h_fab : ps .fab) (h_fresh : ps .fresh) (h_sl : ps .sl) (h : Keeps ps s0 s) : Keeps ps s0 (State.fabricNs s) := by
  unfold State.fabricNs
  repeat' first
    | (extract_lets +onlyGivenNames x; first | (with_reducible refine Keeps.cut (x := x) ?_ ?_; rotate_left; (try clear_value x); (intro _; skip); rotate_right; subst x) | subst x)
    | with_reducible assumption | with_reducible apply clusterStep_keeps | with_reducible apply hardStep_keeps | with_reducible apply uioStep_keeps | with_reducible apply bridgeStep_keeps | with_reducible apply keeperStep_keeps | with_reducible apply Keeps.foldl | with_reducible apply Keeps.foldlFst
    | (intro _; skip) | split
    | (dsimp only; skip)

end Sys2Proof.Machine
end

