-- ==== Sys2Proof/Laws/Polders.lean ====
section
/-! SUPPORT. What each operation and each meaning of Machine/Polders.lean keeps (Keeps): one lemma a definition. -/

-- The package as one text is checked in one process: its proofs are checked one after another, and its linters keep quiet.
set_option Elab.async false
set_option linter.all false

namespace Sys2Proof.Machine
open Sys2Proof

theorem State.updPol_keeps {ps : Part → Prop} {a1 : Nat} {a2 : Pol → Pol} {s0 s : State} (h_pwr : ps .pwr) (h : Keeps ps s0 s) : Keeps ps s0 (State.updPol s a1 a2) := by
  unfold State.updPol
  repeat' first
    | with_reducible assumption
    | (intro _; skip) | split
    | (dsimp only; skip)
    | (with_reducible refine Keeps.lit rfl rfl ?_; first | with_reducible assumption | (split; skip))

theorem State.upNext_keeps {ps : Part → Prop} {s0 s : State} (h4 : ps (.regs 4)) (h_pwr : ps .pwr) (h : Keeps ps s0 s) : Keeps ps s0 (State.upNext s) := by
  unfold State.upNext
  repeat' first
    | with_reducible assumption | exact h4 | with_reducible apply State.put_keeps
    | (intro _; skip) | split
    | (dsimp only; skip)
    | (with_reducible refine Keeps.lit rfl rfl ?_; first | with_reducible assumption | exact h4 | with_reducible apply State.put_keeps | (split; skip))

theorem State.polUp_keeps {ps : Part → Prop} {a1 : Nat} {s0 s : State} (h4 : ps (.regs 4)) (h_pwr : ps .pwr) (h : Keeps ps s0 s) : Keeps ps s0 (State.polUp s a1) := by
  unfold State.polUp
  repeat' first
    | (extract_lets +onlyGivenNames x; first | (with_reducible refine Keeps.cut (x := x) ?_ ?_; rotate_left; (try clear_value x); (intro _; skip); rotate_right; subst x) | subst x)
    | with_reducible assumption | exact h4 | with_reducible apply State.updPol_keeps | with_reducible apply State.upNext_keeps | with_reducible apply State.put_keeps
    | (intro _; skip) | split
    | (dsimp only; skip)
    | (with_reducible refine Keeps.lit rfl rfl ?_; first | with_reducible assumption | exact h4 | with_reducible apply State.updPol_keeps | with_reducible apply State.upNext_keeps | with_reducible apply State.put_keeps | (split; skip))

theorem State.polClose_keeps {ps : Part → Prop} {a1 : Nat} {a2 : Bool} {s0 s : State} (h4 : ps (.regs 4)) (h6 : ps (.regs 6)) (h15 : ps (.regs 15)) (h17 : ps (.regs 17)) (h_dck : ps .dck) (h_evt : ps .evt) (h_lanes : ps .lanes) (h_out : ps .out) (h_pci : ps .pci) (h_pwr : ps .pwr) (h : Keeps ps s0 s) : Keeps ps s0 (State.polClose s a1 a2) := by
  unfold State.polClose
  repeat' first
    | (extract_lets +onlyGivenNames x; first | (with_reducible refine Keeps.cut (x := x) ?_ ?_; rotate_left; (try clear_value x); (intro _; skip); rotate_right; subst x) | subst x)
    | with_reducible assumption | exact h4 | exact h6 | exact h15 | exact h17 | with_reducible apply State.updPol_keeps | with_reducible apply State.put_keeps | with_reducible apply State.dropLanding_keeps | with_reducible apply State.laneOff_keeps | with_reducible apply Keeps.foldl | with_reducible apply Keeps.foldlFst
    | (intro _; skip) | split
    | (dsimp only; skip)
    | (with_reducible refine Keeps.lit rfl rfl ?_; first | with_reducible assumption | exact h4 | exact h6 | exact h15 | exact h17 | with_reducible apply State.updPol_keeps | with_reducible apply State.put_keeps | with_reducible apply State.dropLanding_keeps | with_reducible apply State.laneOff_keeps | with_reducible apply Keeps.foldl | with_reducible apply Keeps.foldlFst | (split; skip))

theorem State.polRefuse_keeps {ps : Part → Prop} {a1 a2 : Nat} {s0 s : State} (h4 : ps (.regs 4)) (h17 : ps (.regs 17)) (h_evt : ps .evt) (h_out : ps .out) (h_pci : ps .pci) (h : Keeps ps s0 s) : Keeps ps s0 (State.polRefuse s a1 a2) := by
  unfold State.polRefuse
  repeat' first
    | with_reducible assumption | exact h4 | exact h17 | with_reducible apply State.post_keeps | with_reducible apply State.bump_keeps
    | (intro _; skip) | split
    | (dsimp only; skip)

theorem State.polCmd_keeps {ps : Part → Prop} {a1 : Req} {a2 a3 : Nat} {s0 s : State} (h4 : ps (.regs 4)) (h6 : ps (.regs 6)) (h15 : ps (.regs 15)) (h16 : ps (.regs 16)) (h17 : ps (.regs 17)) (h_dck : ps .dck) (h_evt : ps .evt) (h_lanes : ps .lanes) (h_out : ps .out) (h_pci : ps .pci) (h_pwr : ps .pwr) (h : Keeps ps s0 s) : Keeps ps s0 (State.polCmd s a1 a2 a3) := by
  unfold State.polCmd
  repeat' first
    | with_reducible assumption | exact h4 | exact h6 | exact h15 | exact h16 | exact h17 | with_reducible apply State.polUp_keeps | with_reducible apply State.updPol_keeps | with_reducible apply State.refuseWrite_keeps | with_reducible apply State.polRefuse_keeps | with_reducible apply State.polClose_keeps
    | (intro _; skip) | split
    | (dsimp only; skip)
    | (with_reducible refine Keeps.lit rfl rfl ?_; first | with_reducible assumption | exact h4 | exact h6 | exact h15 | exact h16 | exact h17 | with_reducible apply State.polUp_keeps | with_reducible apply State.updPol_keeps | with_reducible apply State.refuseWrite_keeps | with_reducible apply State.polRefuse_keeps | with_reducible apply State.polClose_keeps | (split; skip))

theorem execPolderDown_keeps {ps : Part → Prop} {s : State} {a1 : Req} {a2 : Nat} (h4 : ps (.regs 4)) (h6 : ps (.regs 6)) (h15 : ps (.regs 15)) (h16 : ps (.regs 16)) (h17 : ps (.regs 17)) (h_dck : ps .dck) (h_evt : ps .evt) (h_lanes : ps .lanes) (h_out : ps .out) (h_pci : ps .pci) (h_pwr : ps .pwr) : ∀ r, (execPolderDown a1 a2 s) = .next r → Keeps ps s r := by
  intro r e
  cases e
  have h := Keeps.refl (ps := ps) s
  repeat' first
    | with_reducible assumption | exact h4 | exact h6 | exact h15 | exact h16 | exact h17 | with_reducible apply State.when_keeps | with_reducible apply State.byReq_keeps | with_reducible apply State.polCmd_keeps
    | (intro _; skip) | split
    | (dsimp only; skip)

theorem execPolderUp_keeps {ps : Part → Prop} {s : State} {a1 : Req} {a2 : Nat} (h4 : ps (.regs 4)) (h6 : ps (.regs 6)) (h15 : ps (.regs 15)) (h16 : ps (.regs 16)) (h17 : ps (.regs 17)) (h_dck : ps .dck) (h_evt : ps .evt) (h_lanes : ps .lanes) (h_out : ps .out) (h_pci : ps .pci) (h_pwr : ps .pwr) : ∀ r, (execPolderUp a1 a2 s) = .next r → Keeps ps s r := by
  intro r e
  cases e
  have h := Keeps.refl (ps := ps) s
  repeat' first
    | with_reducible assumption | exact h4 | exact h6 | exact h15 | exact h16 | exact h17 | with_reducible apply State.when_keeps | with_reducible apply State.byReq_keeps | with_reducible apply State.polCmd_keeps
    | (intro _; skip) | split
    | (dsimp only; skip)

theorem execPolderReset_keeps {ps : Part → Prop} {s : State} {a1 : Req} {a2 : Nat} (h4 : ps (.regs 4)) (h6 : ps (.regs 6)) (h15 : ps (.regs 15)) (h16 : ps (.regs 16)) (h17 : ps (.regs 17)) (h_dck : ps .dck) (h_evt : ps .evt) (h_lanes : ps .lanes) (h_out : ps .out) (h_pci : ps .pci) (h_pwr : ps .pwr) : ∀ r, (execPolderReset a1 a2 s) = .next r → Keeps ps s r := by
  intro r e
  cases e
  have h := Keeps.refl (ps := ps) s
  repeat' first
    | with_reducible assumption | exact h4 | exact h6 | exact h15 | exact h16 | exact h17 | with_reducible apply State.when_keeps | with_reducible apply State.byReq_keeps | with_reducible apply State.polCmd_keeps
    | (intro _; skip) | split
    | (dsimp only; skip)

theorem execPolderCloseTimeout_keeps {ps : Part → Prop} {s : State} {a1 : Nat} (h4 : ps (.regs 4)) : ∀ r, (execPolderCloseTimeout a1 s) = .next r → Keeps ps s r := by
  intro r e
  cases e
  have h := Keeps.refl (ps := ps) s
  repeat' first
    | with_reducible assumption | exact h4 | with_reducible apply State.when_keeps | with_reducible apply State.put_keeps
    | (intro _; skip) | split
    | (dsimp only; skip)

theorem State.polFence_keeps {ps : Part → Prop} {a1 : Nat} {s0 s : State} (h4 : ps (.regs 4)) (h5 : ps (.regs 5)) (h6 : ps (.regs 6)) (h17 : ps (.regs 17)) (h20 : ps (.regs 20)) (h_dck : ps .dck) (h_evt : ps .evt) (h_fab : ps .fab) (h_gens : ps .gens) (h_noc : ps .noc) (h_out : ps .out) (h_pci : ps .pci) (h_pwr : ps .pwr) (h_qqp : ps .qqp) (h : Keeps ps s0 s) : Keeps ps s0 (State.polFence s a1) := by
  unfold State.polFence
  repeat' first
    | (extract_lets +onlyGivenNames x; first | (with_reducible refine Keeps.cut (x := x) ?_ ?_; rotate_left; (try clear_value x); (intro _; skip); rotate_right; subst x) | subst x)
    | with_reducible assumption | exact h4 | exact h5 | exact h6 | exact h17 | exact h20 | with_reducible apply State.endLandingTasks_keeps | with_reducible apply State.fence_keeps | with_reducible apply State.put_keeps | with_reducible apply Keeps.foldl | with_reducible apply Keeps.foldlFst
    | (intro _; skip) | split
    | (dsimp only; skip)
    | (with_reducible refine Keeps.lit rfl rfl ?_; first | with_reducible assumption | exact h4 | exact h5 | exact h6 | exact h17 | exact h20 | with_reducible apply State.endLandingTasks_keeps | with_reducible apply State.fence_keeps | with_reducible apply State.put_keeps | with_reducible apply Keeps.foldl | with_reducible apply Keeps.foldlFst | (split; skip))

theorem execPolderDrainEnd_keeps {ps : Part → Prop} {s : State} {a1 : Nat} (h4 : ps (.regs 4)) (h5 : ps (.regs 5)) (h6 : ps (.regs 6)) (h17 : ps (.regs 17)) (h20 : ps (.regs 20)) (h_dck : ps .dck) (h_evt : ps .evt) (h_fab : ps .fab) (h_gens : ps .gens) (h_noc : ps .noc) (h_out : ps .out) (h_pci : ps .pci) (h_pwr : ps .pwr) (h_qqp : ps .qqp) : ∀ r, (execPolderDrainEnd a1 s) = .next r → Keeps ps s r := by
  intro r e
  cases e
  have h := Keeps.refl (ps := ps) s
  repeat' first
    | with_reducible assumption | exact h4 | exact h5 | exact h6 | exact h17 | exact h20 | with_reducible apply State.when_keeps | with_reducible apply State.polFence_keeps
    | (intro _; skip) | split
    | (dsimp only; skip)

theorem execPolderDrainTimeout_keeps {ps : Part → Prop} {s : State} {a1 : Nat} (h4 : ps (.regs 4)) (h5 : ps (.regs 5)) (h6 : ps (.regs 6)) (h17 : ps (.regs 17)) (h20 : ps (.regs 20)) (h_dck : ps .dck) (h_evt : ps .evt) (h_fab : ps .fab) (h_gens : ps .gens) (h_noc : ps .noc) (h_out : ps .out) (h_pci : ps .pci) (h_pwr : ps .pwr) (h_qqp : ps .qqp) : ∀ r, (execPolderDrainTimeout a1 s) = .next r → Keeps ps s r := by
  intro r e
  cases e
  have h := Keeps.refl (ps := ps) s
  repeat' first
    | (extract_lets +onlyGivenNames x; first | (with_reducible refine Keeps.cut (x := x) ?_ ?_; rotate_left; (try clear_value x); (intro _; skip); rotate_right; subst x) | subst x)
    | with_reducible assumption | exact h4 | exact h5 | exact h6 | exact h17 | exact h20 | with_reducible apply State.when_keeps | with_reducible apply State.polFence_keeps | with_reducible apply State.post_keeps | with_reducible apply State.bump_keeps
    | (intro _; skip) | split
    | (dsimp only; skip)

theorem State.chReset_keeps {ps : Part → Prop} {a1 : Bool} {a2 : Nat} {s0 s : State} (h9 : ps (.regs 9)) (h_med : ps .med) (h : Keeps ps s0 s) : Keeps ps s0 (State.chReset s a1 a2) := by
  unfold State.chReset
  repeat' first
    | (extract_lets +onlyGivenNames x; first | (with_reducible refine Keeps.cut (x := x) ?_ ?_; rotate_left; (try clear_value x); (intro _; skip); rotate_right; subst x) | subst x)
    | with_reducible assumption | exact h9 | with_reducible apply State.put_keeps
    | (intro _; skip) | split
    | (dsimp only; skip)
    | (with_reducible refine Keeps.lit rfl rfl ?_; first | with_reducible assumption | exact h9 | with_reducible apply State.put_keeps | (split; skip))

theorem State.regsLost_keeps {ps : Part → Prop} {a1 : Nat} {s0 s : State} (h9 : ps (.regs 9)) (h12 : ps (.regs 12)) (h15 : ps (.regs 15)) (h : Keeps ps s0 s) : Keeps ps s0 (State.regsLost s a1) :=
  ⟨h.1, h.2, h.3, fun k => Map.above_filter _ _ _ (h.4 k), h.5, h.6, fun p np => Part.same_trans (h.7 p np) (by
    cases p
    case regs b =>
      show List.filter _ (List.filter _ _) = List.filter _ _
      rw [List.filter_filter]
      refine List.filter_congr (fun e _ => ?_)
      have n9 : b ≠ 9 := fun e => np (e ▸ h9)
      have n12 : b ≠ 12 := fun e => np (e ▸ h12)
      have n15 : b ≠ 15 := fun e => np (e ▸ h15)
      dsimp only
      generalize e.1 / 2 ^ 40 = q
      by_cases hb : q = b
      · subst hb; simp [n9, n12, n15]
      · simp [hb]
    all_goals rfl), h.8⟩


theorem State.laneImage_keeps {ps : Part → Prop} {a1 : Nat} {s0 s : State} (h15 : ps (.regs 15)) (h : Keeps ps s0 s) : Keeps ps s0 (State.laneImage s a1) := by
  unfold State.laneImage
  repeat' first
    | (extract_lets +onlyGivenNames x; first | (with_reducible refine Keeps.cut (x := x) ?_ ?_; rotate_left; (try clear_value x); (intro _; skip); rotate_right; subst x) | subst x)
    | with_reducible assumption | exact h15 | with_reducible apply State.put_keeps
    | (intro _; skip) | split
    | (dsimp only; skip)

theorem State.polRegs_keeps {ps : Part → Prop} {a1 : Nat} {s0 s : State} (h9 : ps (.regs 9)) (h12 : ps (.regs 12)) (h15 : ps (.regs 15)) (h : Keeps ps s0 s) : Keeps ps s0 (State.polRegs s a1) := by
  unfold State.polRegs
  repeat' first
    | (extract_lets +onlyGivenNames x; first | (with_reducible refine Keeps.cut (x := x) ?_ ?_; rotate_left; (try clear_value x); (intro _; skip); rotate_right; subst x) | subst x)
    | with_reducible assumption | exact h9 | exact h12 | exact h15 | with_reducible apply State.laneImage_keeps | with_reducible apply State.regsLost_keeps | with_reducible apply State.put_keeps | with_reducible apply Keeps.foldl | with_reducible apply Keeps.foldlFst
    | (intro _; skip) | split
    | (dsimp only; skip)

theorem State.polLose_keeps {ps : Part → Prop} {a1 : Nat} {a2 : Bool} {s0 s : State} (h9 : ps (.regs 9)) (h12 : ps (.regs 12)) (h15 : ps (.regs 15)) (h18 : ps (.regs 18)) (h_fab : ps .fab) (h_lanes : ps .lanes) (h_med : ps .med) (h_sl : ps .sl) (h : Keeps ps s0 s) : Keeps ps s0 (State.polLose s a1 a2) := by
  unfold State.polLose
  repeat' first
    | (extract_lets +onlyGivenNames x; first | (with_reducible refine Keeps.cut (x := x) ?_ ?_; rotate_left; (try clear_value x); (intro _; skip); rotate_right; subst x) | subst x)
    | with_reducible assumption | exact h9 | exact h12 | exact h15 | exact h18 | with_reducible apply State.put_keeps | with_reducible apply State.releasePolder_keeps | with_reducible apply State.chReset_keeps | with_reducible apply State.laneOff_keeps | with_reducible apply State.polRegs_keeps | with_reducible apply Keeps.foldl | with_reducible apply Keeps.foldlFst
    | (intro _; skip) | split
    | (dsimp only; skip)
    | (with_reducible refine Keeps.lit rfl rfl ?_; first | with_reducible assumption | exact h9 | exact h12 | exact h15 | exact h18 | with_reducible apply State.put_keeps | with_reducible apply State.releasePolder_keeps | with_reducible apply State.chReset_keeps | with_reducible apply State.laneOff_keeps | with_reducible apply State.polRegs_keeps | with_reducible apply Keeps.foldl | with_reducible apply Keeps.foldlFst | (split; skip))

theorem State.stateEnd_keeps {ps : Part → Prop} {a1 : Nat} {s0 s : State} (h4 : ps (.regs 4)) (h17 : ps (.regs 17)) (h_evt : ps .evt) (h_out : ps .out) (h_pci : ps .pci) (h_pwr : ps .pwr) (h : Keeps ps s0 s) : Keeps ps s0 (State.stateEnd s a1) := by
  unfold State.stateEnd
  repeat' first
    | with_reducible assumption | exact h4 | exact h17 | with_reducible apply State.post_keeps | with_reducible apply State.put_keeps
    | (intro _; skip) | split
    | (dsimp only; skip)
    | (with_reducible refine Keeps.lit rfl rfl ?_; first | with_reducible assumption | exact h4 | exact h17 | with_reducible apply State.post_keeps | with_reducible apply State.put_keeps | (split; skip))

theorem State.setPstate_keeps {ps : Part → Prop} {a1 : Nat} {s0 s : State} (h3 : ps (.regs 3)) (h4 : ps (.regs 4)) (h17 : ps (.regs 17)) (h19 : ps (.regs 19)) (h_evt : ps .evt) (h_out : ps .out) (h_pci : ps .pci) (h_pwr : ps .pwr) (h_qqp : ps .qqp) (h : Keeps ps s0 s) : Keeps ps s0 (State.setPstate s a1) := by
  unfold State.setPstate
  repeat' first
    | with_reducible assumption | exact h3 | exact h4 | exact h17 | exact h19 | with_reducible apply State.deliverDoorbells_keeps | with_reducible apply State.gatesFollow_keeps | with_reducible apply State.put_keeps
    | (intro _; skip) | split
    | (dsimp only; skip)

theorem State.stateStep_keeps {ps : Part → Prop} {s0 s : State} (h3 : ps (.regs 3)) (h4 : ps (.regs 4)) (h17 : ps (.regs 17)) (h19 : ps (.regs 19)) (h_evt : ps .evt) (h_out : ps .out) (h_pci : ps .pci) (h_pwr : ps .pwr) (h_qqp : ps .qqp) (h : Keeps ps s0 s) : Keeps ps s0 (State.stateStep s) := by
  unfold State.stateStep
  repeat' first
    | with_reducible assumption | exact h3 | exact h4 | exact h17 | exact h19 | with_reducible apply State.stateEnd_keeps | with_reducible apply State.setPstate_keeps
    | (intro _; skip) | split
    | (dsimp only; skip)
    | (with_reducible refine Keeps.lit rfl rfl ?_; first | with_reducible assumption | exact h3 | exact h4 | exact h17 | exact h19 | with_reducible apply State.stateEnd_keeps | with_reducible apply State.setPstate_keeps | (split; skip))

theorem State.toState_keeps {ps : Part → Prop} {a1 : Nat} {s0 s : State} (h3 : ps (.regs 3)) (h4 : ps (.regs 4)) (h6 : ps (.regs 6)) (h15 : ps (.regs 15)) (h17 : ps (.regs 17)) (h19 : ps (.regs 19)) (h_dck : ps .dck) (h_evt : ps .evt) (h_lanes : ps .lanes) (h_out : ps .out) (h_pci : ps .pci) (h_pwr : ps .pwr) (h_qqp : ps .qqp) (h : Keeps ps s0 s) : Keeps ps s0 (State.toState s a1) := by
  unfold State.toState
  repeat' first
    | (extract_lets +onlyGivenNames x; first | (with_reducible refine Keeps.cut (x := x) ?_ ?_; rotate_left; (try clear_value x); (intro _; skip); rotate_right; subst x) | subst x)
    | with_reducible assumption | exact h3 | exact h4 | exact h6 | exact h15 | exact h17 | exact h19 | with_reducible apply State.put_keeps | with_reducible apply State.setPstate_keeps | with_reducible apply State.stateStep_keeps | with_reducible apply State.polClose_keeps | with_reducible apply State.polRefuse_keeps | with_reducible apply State.polUp_keeps | with_reducible apply State.stateEnd_keeps | with_reducible apply Keeps.foldl | with_reducible apply Keeps.foldlFst
    | (intro _; skip) | split
    | (dsimp only; skip)
    | (with_reducible refine Keeps.lit rfl rfl ?_; first | with_reducible assumption | exact h3 | exact h4 | exact h6 | exact h15 | exact h17 | exact h19 | with_reducible apply State.put_keeps | with_reducible apply State.setPstate_keeps | with_reducible apply State.stateStep_keeps | with_reducible apply State.polClose_keeps | with_reducible apply State.polRefuse_keeps | with_reducible apply State.polUp_keeps | with_reducible apply State.stateEnd_keeps | with_reducible apply Keeps.foldl | with_reducible apply Keeps.foldlFst | (split; skip))

theorem State.stateCmd_keeps {ps : Part → Prop} {a1 : Req} {a2 : Nat} {s0 s : State} (h3 : ps (.regs 3)) (h4 : ps (.regs 4)) (h6 : ps (.regs 6)) (h15 : ps (.regs 15)) (h16 : ps (.regs 16)) (h17 : ps (.regs 17)) (h19 : ps (.regs 19)) (h_dck : ps .dck) (h_evt : ps .evt) (h_lanes : ps .lanes) (h_out : ps .out) (h_pci : ps .pci) (h_pwr : ps .pwr) (h_qqp : ps .qqp) (h : Keeps ps s0 s) : Keeps ps s0 (State.stateCmd s a1 a2) := by
  unfold State.stateCmd
  repeat' first
    | with_reducible assumption | exact h3 | exact h4 | exact h6 | exact h15 | exact h16 | exact h17 | exact h19 | with_reducible apply State.refuseWrite_keeps | with_reducible apply State.post_keeps | with_reducible apply State.bump_keeps | with_reducible apply State.toState_keeps
    | (intro _; skip) | split
    | (dsimp only; skip)

theorem execStateRun_keeps {ps : Part → Prop} {s : State} {a1 : Req} (h3 : ps (.regs 3)) (h4 : ps (.regs 4)) (h6 : ps (.regs 6)) (h15 : ps (.regs 15)) (h16 : ps (.regs 16)) (h17 : ps (.regs 17)) (h19 : ps (.regs 19)) (h_dck : ps .dck) (h_evt : ps .evt) (h_lanes : ps .lanes) (h_out : ps .out) (h_pci : ps .pci) (h_pwr : ps .pwr) (h_qqp : ps .qqp) : ∀ r, (execStateRun a1 s) = .next r → Keeps ps s r := by
  intro r e
  cases e
  have h := Keeps.refl (ps := ps) s
  repeat' first
    | with_reducible assumption | exact h3 | exact h4 | exact h6 | exact h15 | exact h16 | exact h17 | exact h19 | with_reducible apply State.when_keeps | with_reducible apply State.byReq_keeps | with_reducible apply State.stateCmd_keeps
    | (intro _; skip) | split
    | (dsimp only; skip)

theorem execStateSleep_keeps {ps : Part → Prop} {s : State} {a1 : Req} (h3 : ps (.regs 3)) (h4 : ps (.regs 4)) (h6 : ps (.regs 6)) (h15 : ps (.regs 15)) (h16 : ps (.regs 16)) (h17 : ps (.regs 17)) (h19 : ps (.regs 19)) (h_dck : ps .dck) (h_evt : ps .evt) (h_lanes : ps .lanes) (h_out : ps .out) (h_pci : ps .pci) (h_pwr : ps .pwr) (h_qqp : ps .qqp) : ∀ r, (execStateSleep a1 s) = .next r → Keeps ps s r := by
  intro r e
  cases e
  have h := Keeps.refl (ps := ps) s
  repeat' first
    | with_reducible assumption | exact h3 | exact h4 | exact h6 | exact h15 | exact h16 | exact h17 | exact h19 | with_reducible apply State.when_keeps | with_reducible apply State.byReq_keeps | with_reducible apply State.stateCmd_keeps
    | (intro _; skip) | split
    | (dsimp only; skip)

theorem execStateDeep_keeps {ps : Part → Prop} {s : State} {a1 : Req} (h3 : ps (.regs 3)) (h4 : ps (.regs 4)) (h6 : ps (.regs 6)) (h15 : ps (.regs 15)) (h16 : ps (.regs 16)) (h17 : ps (.regs 17)) (h19 : ps (.regs 19)) (h_dck : ps .dck) (h_evt : ps .evt) (h_lanes : ps .lanes) (h_out : ps .out) (h_pci : ps .pci) (h_pwr : ps .pwr) (h_qqp : ps .qqp) : ∀ r, (execStateDeep a1 s) = .next r → Keeps ps s r := by
  intro r e
  cases e
  have h := Keeps.refl (ps := ps) s
  repeat' first
    | with_reducible assumption | exact h3 | exact h4 | exact h6 | exact h15 | exact h16 | exact h17 | exact h19 | with_reducible apply State.when_keeps | with_reducible apply State.byReq_keeps | with_reducible apply State.stateCmd_keeps
    | (intro _; skip) | split
    | (dsimp only; skip)

theorem execSystemWake_keeps {ps : Part → Prop} {s : State} {a1 : Nat} (h3 : ps (.regs 3)) (h4 : ps (.regs 4)) (h6 : ps (.regs 6)) (h15 : ps (.regs 15)) (h17 : ps (.regs 17)) (h19 : ps (.regs 19)) (h_dck : ps .dck) (h_evt : ps .evt) (h_lanes : ps .lanes) (h_out : ps .out) (h_pci : ps .pci) (h_pwr : ps .pwr) (h_qqp : ps .qqp) : ∀ r, (execSystemWake a1 s) = .next r → Keeps ps s r := by
  intro r e
  cases e
  have h := Keeps.refl (ps := ps) s
  repeat' first
    | with_reducible assumption | exact h3 | exact h4 | exact h6 | exact h15 | exact h17 | exact h19 | with_reducible apply State.when_keeps | with_reducible apply State.toState_keeps | with_reducible apply State.bump_keeps
    | (intro _; skip) | split
    | (dsimp only; skip)

theorem execPolderIsolateDone_keeps {ps : Part → Prop} {s : State} {a1 : Nat} (h3 : ps (.regs 3)) (h4 : ps (.regs 4)) (h9 : ps (.regs 9)) (h12 : ps (.regs 12)) (h15 : ps (.regs 15)) (h17 : ps (.regs 17)) (h18 : ps (.regs 18)) (h19 : ps (.regs 19)) (h_evt : ps .evt) (h_fab : ps .fab) (h_lanes : ps .lanes) (h_med : ps .med) (h_out : ps .out) (h_pci : ps .pci) (h_pwr : ps .pwr) (h_qqp : ps .qqp) (h_sl : ps .sl) : ∀ r, (execPolderIsolateDone a1 s) = .next r → Keeps ps s r := by
  intro r e
  cases e
  have h := Keeps.refl (ps := ps) s
  repeat' first
    | (extract_lets +onlyGivenNames x; first | (with_reducible refine Keeps.cut (x := x) ?_ ?_; rotate_left; (try clear_value x); (intro _; skip); rotate_right; subst x) | subst x)
    | with_reducible assumption | exact h3 | exact h4 | exact h9 | exact h12 | exact h15 | exact h17 | exact h18 | exact h19 | with_reducible apply State.when_keeps | with_reducible apply State.put_keeps | with_reducible apply State.polLose_keeps | with_reducible apply State.stateStep_keeps | with_reducible apply State.post_keeps
    | (intro _; skip) | split
    | (dsimp only; skip)

theorem State.landingTake_keeps {ps : Part → Prop} {a1 a2 : Nat} {s0 s : State} (h5 : ps (.regs 5)) (h17 : ps (.regs 17)) (h20 : ps (.regs 20)) (h_evt : ps .evt) (h_fab : ps .fab) (h_gens : ps .gens) (h_noc : ps .noc) (h_out : ps .out) (h_pci : ps .pci) (h : Keeps ps s0 s) : Keeps ps s0 (State.landingTake s a1 a2) := by
  unfold State.landingTake
  repeat' first
    | (extract_lets +onlyGivenNames x; first | (with_reducible refine Keeps.cut (x := x) ?_ ?_; rotate_left; (try clear_value x); (intro _; skip); rotate_right; subst x) | subst x)
    | with_reducible assumption | exact h5 | exact h17 | exact h20 | with_reducible apply State.updPkt_keeps | with_reducible apply State.answer_keeps
    | (intro _; skip) | split
    | (dsimp only; skip)
    | (with_reducible refine Keeps.lit rfl rfl ?_; first | with_reducible assumption | exact h5 | exact h17 | exact h20 | with_reducible apply State.updPkt_keeps | with_reducible apply State.answer_keeps | (split; skip))

theorem State.sluiceOpen_keeps {ps : Part → Prop} {a1 : Nat} {s0 s : State} (h4 : ps (.regs 4)) (h5 : ps (.regs 5)) (h17 : ps (.regs 17)) (h20 : ps (.regs 20)) (h_evt : ps .evt) (h_fab : ps .fab) (h_gens : ps .gens) (h_noc : ps .noc) (h_out : ps .out) (h_pci : ps .pci) (h : Keeps ps s0 s) : Keeps ps s0 (State.sluiceOpen s a1) := by
  unfold State.sluiceOpen
  repeat' first
    | (extract_lets +onlyGivenNames x; first | (with_reducible refine Keeps.cut (x := x) ?_ ?_; rotate_left; (try clear_value x); (intro _; skip); rotate_right; subst x) | subst x)
    | with_reducible assumption | exact h4 | exact h5 | exact h17 | exact h20 | with_reducible apply State.landingTake_keeps | with_reducible apply State.put_keeps | with_reducible apply Keeps.foldl | with_reducible apply Keeps.foldlFst
    | (intro _; skip) | split
    | (dsimp only; skip)
    | (with_reducible refine Keeps.lit rfl rfl ?_; first | with_reducible assumption | exact h4 | exact h5 | exact h17 | exact h20 | with_reducible apply State.landingTake_keeps | with_reducible apply State.put_keeps | with_reducible apply Keeps.foldl | with_reducible apply Keeps.foldlFst | (split; skip))

theorem State.polUnfence_keeps {ps : Part → Prop} {a1 : Nat} {s0 s : State} (h5 : ps (.regs 5)) (h_pwr : ps .pwr) (h : Keeps ps s0 s) : Keeps ps s0 (State.polUnfence s a1) := by
  unfold State.polUnfence
  repeat' first
    | (extract_lets +onlyGivenNames x; first | (with_reducible refine Keeps.cut (x := x) ?_ ?_; rotate_left; (try clear_value x); (intro _; skip); rotate_right; subst x) | subst x)
    | with_reducible assumption | exact h5 | with_reducible apply State.put_keeps | with_reducible apply Keeps.foldl | with_reducible apply Keeps.foldlFst
    | (intro _; skip) | split
    | (dsimp only; skip)
    | (with_reducible refine Keeps.lit rfl rfl ?_; first | with_reducible assumption | exact h5 | with_reducible apply State.put_keeps | with_reducible apply Keeps.foldl | with_reducible apply Keeps.foldlFst | (split; skip))

theorem State.takeEpoch_keeps {ps : Part → Prop} {a1 : Nat} {s0 s : State} (h0 : ps (.regs 0)) (h4 : ps (.regs 4)) (h17 : ps (.regs 17)) (h_evt : ps .evt) (h_out : ps .out) (h_pci : ps .pci) (h_pwr : ps .pwr) (h : Keeps ps s0 s) : Keeps ps s0 (State.takeEpoch s a1) := by
  unfold State.takeEpoch
  repeat' first
    | (extract_lets +onlyGivenNames x; first | (with_reducible refine Keeps.cut (x := x) ?_ ?_; rotate_left; (try clear_value x); (intro _; skip); rotate_right; subst x) | subst x)
    | with_reducible assumption | exact h0 | exact h4 | exact h17 | with_reducible apply State.put_keeps | with_reducible apply State.post_keeps
    | (intro _; skip) | split
    | (dsimp only; skip)
    | (with_reducible refine Keeps.lit rfl rfl ?_; first | with_reducible assumption | exact h0 | exact h4 | exact h17 | with_reducible apply State.put_keeps | with_reducible apply State.post_keeps | (split; skip))

theorem State.polPowered_keeps {ps : Part → Prop} {a1 : Nat} {s0 s : State} (h0 : ps (.regs 0)) (h3 : ps (.regs 3)) (h4 : ps (.regs 4)) (h5 : ps (.regs 5)) (h6 : ps (.regs 6)) (h15 : ps (.regs 15)) (h17 : ps (.regs 17)) (h19 : ps (.regs 19)) (h20 : ps (.regs 20)) (h_dck : ps .dck) (h_evt : ps .evt) (h_fab : ps .fab) (h_gens : ps .gens) (h_lanes : ps .lanes) (h_med : ps .med) (h_noc : ps .noc) (h_out : ps .out) (h_pci : ps .pci) (h_pwr : ps .pwr) (h_qqp : ps .qqp) (h : Keeps ps s0 s) : Keeps ps s0 (State.polPowered s a1) := by
  unfold State.polPowered
  repeat' first
    | (extract_lets +onlyGivenNames x; first | (with_reducible refine Keeps.cut (x := x) ?_ ?_; rotate_left; (try clear_value x); (intro _; skip); rotate_right; subst x) | subst x)
    | with_reducible assumption | exact h0 | exact h3 | exact h4 | exact h5 | exact h6 | exact h15 | exact h17 | exact h19 | exact h20 | with_reducible apply State.put_keeps | with_reducible apply State.polUnfence_keeps | with_reducible apply State.takeEpoch_keeps | with_reducible apply State.feed_keeps | with_reducible apply State.laneOn_keeps | with_reducible apply State.sluiceOpen_keeps | with_reducible apply State.gateFollow_keeps | with_reducible apply State.post_keeps | with_reducible apply State.polClose_keeps | with_reducible apply State.updPol_keeps | with_reducible apply State.stateStep_keeps | with_reducible apply State.upNext_keeps | with_reducible apply Keeps.foldl | with_reducible apply Keeps.foldlFst
    | (intro _; skip) | split
    | (dsimp only; skip)

theorem execPolderPowerupDone_keeps {ps : Part → Prop} {s : State} {a1 : Nat} (h0 : ps (.regs 0)) (h3 : ps (.regs 3)) (h4 : ps (.regs 4)) (h5 : ps (.regs 5)) (h6 : ps (.regs 6)) (h15 : ps (.regs 15)) (h17 : ps (.regs 17)) (h19 : ps (.regs 19)) (h20 : ps (.regs 20)) (h_dck : ps .dck) (h_evt : ps .evt) (h_fab : ps .fab) (h_gens : ps .gens) (h_lanes : ps .lanes) (h_med : ps .med) (h_noc : ps .noc) (h_out : ps .out) (h_pci : ps .pci) (h_pwr : ps .pwr) (h_qqp : ps .qqp) : ∀ r, (execPolderPowerupDone a1 s) = .next r → Keeps ps s r := by
  intro r e
  cases e
  have h := Keeps.refl (ps := ps) s
  repeat' first
    | with_reducible assumption | exact h0 | exact h3 | exact h4 | exact h5 | exact h6 | exact h15 | exact h17 | exact h19 | exact h20 | with_reducible apply State.when_keeps | with_reducible apply State.polPowered_keeps
    | (intro _; skip) | split
    | (dsimp only; skip)

theorem execPolderResetDone_keeps {ps : Part → Prop} {s : State} {a1 : Nat} (h0 : ps (.regs 0)) (h4 : ps (.regs 4)) (h9 : ps (.regs 9)) (h12 : ps (.regs 12)) (h15 : ps (.regs 15)) (h17 : ps (.regs 17)) (h18 : ps (.regs 18)) (h_evt : ps .evt) (h_fab : ps .fab) (h_lanes : ps .lanes) (h_med : ps .med) (h_out : ps .out) (h_pci : ps .pci) (h_pwr : ps .pwr) (h_sl : ps .sl) : ∀ r, (execPolderResetDone a1 s) = .next r → Keeps ps s r := by
  intro r e
  cases e
  have h := Keeps.refl (ps := ps) s
  repeat' first
    | (extract_lets +onlyGivenNames x; first | (with_reducible refine Keeps.cut (x := x) ?_ ?_; rotate_left; (try clear_value x); (intro _; skip); rotate_right; subst x) | subst x)
    | with_reducible assumption | exact h0 | exact h4 | exact h9 | exact h12 | exact h15 | exact h17 | exact h18 | with_reducible apply State.when_keeps | with_reducible apply State.put_keeps | with_reducible apply State.polLose_keeps | with_reducible apply State.takeEpoch_keeps | with_reducible apply State.feed_keeps | with_reducible apply State.updPol_keeps | with_reducible apply State.laneOn_keeps | with_reducible apply Keeps.foldl | with_reducible apply Keeps.foldlFst
    | (intro _; skip) | split
    | (dsimp only; skip)

theorem State.polCancel_keeps {ps : Part → Prop} {a1 : Nat} {s0 s : State} (h3 : ps (.regs 3)) (h4 : ps (.regs 4)) (h15 : ps (.regs 15)) (h17 : ps (.regs 17)) (h19 : ps (.regs 19)) (h_evt : ps .evt) (h_out : ps .out) (h_pci : ps .pci) (h_pwr : ps .pwr) (h_qqp : ps .qqp) (h : Keeps ps s0 s) : Keeps ps s0 (State.polCancel s a1) := by
  unfold State.polCancel
  repeat' first
    | (extract_lets +onlyGivenNames x; first | (with_reducible refine Keeps.cut (x := x) ?_ ?_; rotate_left; (try clear_value x); (intro _; skip); rotate_right; subst x) | subst x)
    | with_reducible assumption | exact h3 | exact h4 | exact h15 | exact h17 | exact h19 | with_reducible apply State.updPol_keeps | with_reducible apply State.bump_keeps | with_reducible apply State.put_keeps | with_reducible apply State.stateStep_keeps | with_reducible apply State.laneOn_keeps | with_reducible apply Keeps.foldl | with_reducible apply Keeps.foldlFst
    | (intro _; skip) | split
    | (dsimp only; skip)
    | (with_reducible refine Keeps.lit rfl rfl ?_; first | with_reducible assumption | exact h3 | exact h4 | exact h15 | exact h17 | exact h19 | with_reducible apply State.updPol_keeps | with_reducible apply State.bump_keeps | with_reducible apply State.put_keeps | with_reducible apply State.stateStep_keeps | with_reducible apply State.laneOn_keeps | with_reducible apply Keeps.foldl | with_reducible apply Keeps.foldlFst | (split; skip))

theorem execCrossingReopen_keeps {ps : Part → Prop} {s : State} {a1 a2 : Nat} (h_pwr : ps .pwr) : ∀ r, (execCrossingReopen a1 a2 s) = .next r → Keeps ps s r := by
  intro r e
  cases e
  have h := Keeps.refl (ps := ps) s
  repeat' first
    | with_reducible assumption | with_reducible apply State.when_keeps
    | (intro _; skip) | split
    | (dsimp only; skip)
    | (with_reducible refine Keeps.lit rfl rfl ?_; first | with_reducible assumption | with_reducible apply State.when_keeps | (split; skip))

theorem State.ratchet_keeps {ps : Part → Prop} {a1 : Req} {a2 : Nat} {s0 s : State} (h0 : ps (.regs 0)) (h16 : ps (.regs 16)) (h17 : ps (.regs 17)) (h_evt : ps .evt) (h_out : ps .out) (h_pci : ps .pci) (h_pwr : ps .pwr) (h : Keeps ps s0 s) : Keeps ps s0 (State.ratchet s a1 a2) := by
  unfold State.ratchet
  repeat' first
    | (extract_lets +onlyGivenNames x; first | (with_reducible refine Keeps.cut (x := x) ?_ ?_; rotate_left; (try clear_value x); (intro _; skip); rotate_right; subst x) | subst x)
    | with_reducible assumption | exact h0 | exact h16 | exact h17 | with_reducible apply State.refuseWrite_keeps | with_reducible apply State.bump_keeps | with_reducible apply State.put_keeps
    | (intro _; skip) | split
    | (dsimp only; skip)
    | (with_reducible refine Keeps.lit rfl rfl ?_; first | with_reducible assumption | exact h0 | exact h16 | exact h17 | with_reducible apply State.refuseWrite_keeps | with_reducible apply State.bump_keeps | with_reducible apply State.put_keeps | (split; skip))

theorem execEpochRatchet_keeps {ps : Part → Prop} {s : State} {a1 : Req} {a2 : Nat} (h0 : ps (.regs 0)) (h16 : ps (.regs 16)) (h17 : ps (.regs 17)) (h_evt : ps .evt) (h_out : ps .out) (h_pci : ps .pci) (h_pwr : ps .pwr) : ∀ r, (execEpochRatchet a1 a2 s) = .next r → Keeps ps s r := by
  intro r e
  cases e
  have h := Keeps.refl (ps := ps) s
  repeat' first
    | with_reducible assumption | exact h0 | exact h16 | exact h17 | with_reducible apply State.when_keeps | with_reducible apply State.byReq_keeps | with_reducible apply State.ratchet_keeps
    | (intro _; skip) | split
    | (dsimp only; skip)

end Sys2Proof.Machine
end

