-- ==== Sys2Proof/Laws/MemCmds.lean ====
section
/-! SUPPORT. What each operation and each meaning of Machine/MemCmds.lean keeps (Keeps): one lemma a definition. -/

-- The package as one text is checked in one process: its proofs are checked one after another, and its linters keep quiet.
set_option Elab.async false
set_option linter.all false

namespace Sys2Proof.Machine
open Sys2Proof

theorem State.refMode_keeps {ps : Part → Prop} {a1 : Nat} {s0 s : State} (h_hbm : ps .hbm) (h : Keeps ps s0 s) : Keeps ps s0 (State.refMode s a1) := by
  unfold State.refMode
  repeat' first
    | (extract_lets +onlyGivenNames x; first | (with_reducible refine Keeps.cut (x := x) ?_ ?_; rotate_left; (try clear_value x); (intro _; skip); rotate_right; subst x) | subst x)
    | with_reducible assumption | with_reducible apply State.updHbank_keeps | with_reducible apply Keeps.foldl | with_reducible apply Keeps.foldlFst
    | (intro _; skip) | split
    | (dsimp only; skip)
    | (with_reducible refine Keeps.lit rfl rfl ?_; first | with_reducible assumption | with_reducible apply State.updHbank_keeps | with_reducible apply Keeps.foldl | with_reducible apply Keeps.foldlFst | (split; skip))

theorem State.refDebts_keeps {ps : Part → Prop} {a1 : Nat} {a2 : List Nat} {s0 s : State} (h13 : ps (.regs 13)) (h_hbm : ps .hbm) (h : Keeps ps s0 s) : Keeps ps s0 (State.refDebts s a1 a2) := by
  unfold State.refDebts
  repeat' first
    | (extract_lets +onlyGivenNames x; first | (with_reducible refine Keeps.cut (x := x) ?_ ?_; rotate_left; (try clear_value x); (intro _; skip); rotate_right; subst x) | subst x)
    | with_reducible assumption | exact h13 | with_reducible apply State.bump_keeps | with_reducible apply State.refMode_keeps | with_reducible apply State.updHbank_keeps | with_reducible apply Keeps.foldl | with_reducible apply Keeps.foldlFst
    | (intro _; skip) | split
    | (dsimp only; skip)
    | (with_reducible refine Keeps.lit rfl rfl ?_; first | with_reducible assumption | exact h13 | with_reducible apply State.bump_keeps | with_reducible apply State.refMode_keeps | with_reducible apply State.updHbank_keeps | with_reducible apply Keeps.foldl | with_reducible apply Keeps.foldlFst | (split; skip))

theorem State.refWindow_keeps {ps : Part → Prop} {a1 : Nat} {s0 s : State} (h_hbm : ps .hbm) (h : Keeps ps s0 s) : Keeps ps s0 (State.refWindow s a1) := by
  unfold State.refWindow
  repeat' first
    | with_reducible assumption | with_reducible apply State.updHbank_keeps | with_reducible apply Keeps.foldl | with_reducible apply Keeps.foldlFst
    | (intro _; skip) | split
    | (dsimp only; skip)
    | (with_reducible refine Keeps.lit rfl rfl ?_; first | with_reducible assumption | with_reducible apply State.updHbank_keeps | with_reducible apply Keeps.foldl | with_reducible apply Keeps.foldlFst | (split; skip))

theorem execHbmRefreshInterval_keeps {ps : Part → Prop} {s : State} {a1 : Nat} {a2 : List Nat} {a3 : Bool} (h13 : ps (.regs 13)) (h17 : ps (.regs 17)) (h_evt : ps .evt) (h_hbm : ps .hbm) (h_out : ps .out) (h_pci : ps .pci) : ∀ r, (execHbmRefreshInterval a1 a2 a3 s) = .next r → Keeps ps s r := by
  intro r e
  cases e
  have h := Keeps.refl (ps := ps) s
  repeat' first
    | (extract_lets +onlyGivenNames x; first | (with_reducible refine Keeps.cut (x := x) ?_ ?_; rotate_left; (try clear_value x); (intro _; skip); rotate_right; subst x) | subst x)
    | with_reducible assumption | exact h13 | exact h17 | with_reducible apply State.when_keeps | with_reducible apply State.refDebts_keeps | with_reducible apply State.refWindow_keeps | with_reducible apply State.rhFallback_keeps | with_reducible apply State.put_keeps | with_reducible apply State.post_keeps | with_reducible apply State.flag_keeps
    | (intro _; skip) | split
    | (dsimp only; skip)

theorem execHbmTempRead_keeps {ps : Part → Prop} {s : State} {a1 a2 : Nat} (h13 : ps (.regs 13)) (h17 : ps (.regs 17)) (h_evt : ps .evt) (h_hbm : ps .hbm) (h_out : ps .out) (h_pci : ps .pci) : ∀ r, (execHbmTempRead a1 a2 s) = .next r → Keeps ps s r := by
  intro r e
  cases e
  have h := Keeps.refl (ps := ps) s
  repeat' first
    | (extract_lets +onlyGivenNames x; first | (with_reducible refine Keeps.cut (x := x) ?_ ?_; rotate_left; (try clear_value x); (intro _; skip); rotate_right; subst x) | subst x)
    | with_reducible assumption | exact h13 | exact h17 | with_reducible apply State.when_keeps | with_reducible apply State.put_keeps | with_reducible apply State.post_keeps
    | (intro _; skip) | split
    | (dsimp only; skip)
    | (with_reducible refine Keeps.lit rfl rfl ?_; first | with_reducible assumption | exact h13 | exact h17 | with_reducible apply State.when_keeps | with_reducible apply State.put_keeps | with_reducible apply State.post_keeps | (split; skip))

theorem execHbmWriteEyeRetrain_keeps {ps : Part → Prop} {s : State} {a1 : Nat} {a2 : Bool} (h13 : ps (.regs 13)) (h17 : ps (.regs 17)) (h_evt : ps .evt) (h_out : ps .out) (h_pci : ps .pci) : ∀ r, (execHbmWriteEyeRetrain a1 a2 s) = .next r → Keeps ps s r := by
  intro r e
  cases e
  have h := Keeps.refl (ps := ps) s
  repeat' first
    | (extract_lets +onlyGivenNames x; first | (with_reducible refine Keeps.cut (x := x) ?_ ?_; rotate_left; (try clear_value x); (intro _; skip); rotate_right; subst x) | subst x)
    | with_reducible assumption | exact h13 | exact h17 | with_reducible apply State.when_keeps | with_reducible apply State.bump_keeps | with_reducible apply State.post_keeps
    | (intro _; skip) | split
    | (dsimp only; skip)

theorem execHbmRequestUrgent_keeps {ps : Part → Prop} {s : State} {a1 : Nat} (h13 : ps (.regs 13)) : ∀ r, (execHbmRequestUrgent a1 s) = .next r → Keeps ps s r := by
  intro r e
  cases e
  have h := Keeps.refl (ps := ps) s
  repeat' first
    | with_reducible assumption | exact h13 | with_reducible apply State.when_keeps | with_reducible apply State.bump_keeps
    | (intro _; skip) | split
    | (dsimp only; skip)

theorem execSelfRefreshEntry_keeps {ps : Part → Prop} {s : State} {a1 : Nat} (h3 : ps (.regs 3)) (h13 : ps (.regs 13)) : ∀ r, (execSelfRefreshEntry a1 s) = .next r → Keeps ps s r := by
  intro r e
  cases e
  have h := Keeps.refl (ps := ps) s
  repeat' first
    | with_reducible assumption | exact h3 | exact h13 | with_reducible apply State.when_keeps | with_reducible apply State.gateFollow_keeps | with_reducible apply State.bump_keeps | with_reducible apply State.put_keeps
    | (intro _; skip) | split
    | (dsimp only; skip)

theorem execEvacuationDone_keeps {ps : Part → Prop} {s : State} {a1 : Nat} {a2 : List Nat} (h13 : ps (.regs 13)) (h17 : ps (.regs 17)) (h_evt : ps .evt) (h_hbm : ps .hbm) (h_out : ps .out) (h_pci : ps .pci) : ∀ r, (execEvacuationDone a1 a2 s) = .next r → Keeps ps s r := by
  intro r e
  cases e
  have h := Keeps.refl (ps := ps) s
  repeat' first
    | (extract_lets +onlyGivenNames x; first | (with_reducible refine Keeps.cut (x := x) ?_ ?_; rotate_left; (try clear_value x); (intro _; skip); rotate_right; subst x) | subst x)
    | with_reducible assumption | exact h13 | exact h17 | with_reducible apply State.when_keeps | with_reducible apply State.post_keeps | with_reducible apply State.bump_keeps | with_reducible apply State.updHline_keeps | with_reducible apply State.put_keeps | with_reducible apply State.pcFell_keeps | with_reducible apply Keeps.foldl | with_reducible apply Keeps.foldlFst
    | (intro _; skip) | split
    | (dsimp only; skip)
    | (with_reducible refine Keeps.lit rfl rfl ?_; first | with_reducible assumption | exact h13 | exact h17 | with_reducible apply State.when_keeps | with_reducible apply State.post_keeps | with_reducible apply State.bump_keeps | with_reducible apply State.updHline_keeps | with_reducible apply State.put_keeps | with_reducible apply State.pcFell_keeps | with_reducible apply Keeps.foldl | with_reducible apply Keeps.foldlFst | (split; skip))

theorem State.sweepAdvance_keeps {ps : Part → Prop} {a1 : Nat} {s0 s : State} (h14 : ps (.regs 14)) (h_spm : ps .spm) (h : Keeps ps s0 s) : Keeps ps s0 (State.sweepAdvance s a1) := by
  unfold State.sweepAdvance
  repeat' first
    | (extract_lets +onlyGivenNames x; first | (with_reducible refine Keeps.cut (x := x) ?_ ?_; rotate_left; (try clear_value x); (intro _; skip); rotate_right; subst x) | subst x)
    | with_reducible assumption | exact h14 | with_reducible apply State.bump_keeps | with_reducible apply Keeps.foldl | with_reducible apply Keeps.foldlFst
    | (intro _; skip) | split
    | (dsimp only; skip)
    | (with_reducible refine Keeps.lit rfl rfl ?_; first | with_reducible assumption | exact h14 | with_reducible apply State.bump_keeps | with_reducible apply Keeps.foldl | with_reducible apply Keeps.foldlFst | (split; skip))

theorem execSweepStep_keeps {ps : Part → Prop} {s : State} {a1 a2 a3 : Nat} (h14 : ps (.regs 14)) (h17 : ps (.regs 17)) (h_evt : ps .evt) (h_out : ps .out) (h_pci : ps .pci) (h_spm : ps .spm) : ∀ r, (execSweepStep a1 a2 a3 s) = .next r → Keeps ps s r := by
  intro r e
  cases e
  have h := Keeps.refl (ps := ps) s
  repeat' first
    | (extract_lets +onlyGivenNames x; first | (with_reducible refine Keeps.cut (x := x) ?_ ?_; rotate_left; (try clear_value x); (intro _; skip); rotate_right; subst x) | subst x)
    | with_reducible assumption | exact h14 | exact h17 | with_reducible apply State.when_keeps | with_reducible apply State.bump_keeps | with_reducible apply State.spmUe_keeps | with_reducible apply State.post_keeps | with_reducible apply State.drop_keeps | with_reducible apply State.sweepAdvance_keeps
    | (intro _; skip) | split
    | (dsimp only; skip)
    | (with_reducible refine Keeps.lit rfl rfl ?_; first | with_reducible assumption | exact h14 | exact h17 | with_reducible apply State.when_keeps | with_reducible apply State.bump_keeps | with_reducible apply State.spmUe_keeps | with_reducible apply State.post_keeps | with_reducible apply State.drop_keeps | with_reducible apply State.sweepAdvance_keeps | (split; skip))

theorem State.importKey_keeps {ps : Part → Prop} {a1 a2 : Nat} {s0 s : State} (h6 : ps (.regs 6)) (h7 : ps (.regs 7)) (h11 : ps (.regs 11)) (h12 : ps (.regs 12)) (h17 : ps (.regs 17)) (h20 : ps (.regs 20)) (h_cry : ps .cry) (h_dck : ps .dck) (h_evt : ps .evt) (h_gens : ps .gens) (h_lve : ps .lve) (h_med : ps .med) (h_out : ps .out) (h_pci : ps .pci) (h_qqp : ps .qqp) (h_tly : ps .tly) (h : Keeps ps s0 s) : Keeps ps s0 (State.importKey s a1 a2).1 := by
  unfold State.importKey
  repeat' first
    | with_reducible assumption | exact h6 | exact h7 | exact h11 | exact h12 | exact h17 | exact h20 | with_reducible apply State.post_keeps | with_reducible apply State.resumeMerges_keeps | with_reducible apply State.loadKey_keeps
    | (intro _; skip) | split
    | (dsimp only; skip)
    | with_reducible refine Keeps.pair (by assumption) ?_
    | (with_reducible refine Keeps.lit rfl rfl ?_; first | with_reducible assumption | exact h6 | exact h7 | exact h11 | exact h12 | exact h17 | exact h20 | with_reducible apply State.post_keeps | with_reducible apply State.resumeMerges_keeps | with_reducible apply State.loadKey_keeps | with_reducible refine Keeps.pair (by assumption) ?_ | (split; skip))

theorem State.retireKey_keeps {ps : Part → Prop} {a1 : Nat} {s0 s : State} (h12 : ps (.regs 12)) (h17 : ps (.regs 17)) (h_cry : ps .cry) (h_evt : ps .evt) (h_out : ps .out) (h_pci : ps .pci) (h : Keeps ps s0 s) : Keeps ps s0 (State.retireKey s a1).1 := by
  unfold State.retireKey
  repeat' first
    | with_reducible assumption | exact h12 | exact h17 | with_reducible apply State.post_keeps | with_reducible apply State.zeroise_keeps
    | (intro _; skip) | split
    | (dsimp only; skip)
    | with_reducible refine Keeps.pair (by assumption) ?_

theorem State.devUnmapped_keeps {ps : Part → Prop} {a1 : Nat} {s0 s : State} (h17 : ps (.regs 17)) (h_evt : ps .evt) (h_out : ps .out) (h_pci : ps .pci) (h : Keeps ps s0 s) : Keeps ps s0 (State.devUnmapped s a1) := by
  unfold State.devUnmapped
  repeat' first
    | with_reducible assumption | exact h17 | with_reducible apply State.post_keeps
    | (intro _; skip) | split
    | (dsimp only; skip)

theorem State.devRead_keeps {ps : Part → Prop} {a1 a2 a3 a4 : Nat} {s0 s : State} (h6 : ps (.regs 6)) (h11 : ps (.regs 11)) (h12 : ps (.regs 12)) (h13 : ps (.regs 13)) (h14 : ps (.regs 14)) (h17 : ps (.regs 17)) (h20 : ps (.regs 20)) (h_cry : ps .cry) (h_dck : ps .dck) (h_evt : ps .evt) (h_fresh : ps .fresh) (h_gens : ps .gens) (h_hbm : ps .hbm) (h_lve : ps .lve) (h_out : ps .out) (h_pci : ps .pci) (h_qqp : ps .qqp) (h_spm : ps .spm) (h_tly : ps .tly) (h : Keeps ps s0 s) : Keeps ps s0 (State.devRead s a1 a2 a3 a4).1 := by
  unfold State.devRead
  repeat' first
    | with_reducible assumption | exact h6 | exact h11 | exact h12 | exact h13 | exact h14 | exact h17 | exact h20 | with_reducible apply State.devUnmapped_keeps | with_reducible apply State.hbmAccess_keeps | with_reducible apply State.spmAccess_keeps
    | (intro _; skip) | split
    | (dsimp only; skip)
    | with_reducible refine Keeps.pair (by assumption) ?_
    | (with_reducible refine Keeps.lit rfl rfl ?_; first | with_reducible assumption | exact h6 | exact h11 | exact h12 | exact h13 | exact h14 | exact h17 | exact h20 | with_reducible apply State.devUnmapped_keeps | with_reducible apply State.hbmAccess_keeps | with_reducible apply State.spmAccess_keeps | with_reducible refine Keeps.pair (by assumption) ?_ | (split; skip))

theorem State.devWrite_keeps {ps : Part → Prop} {a1 a2 a3 a4 : Nat} {s0 s : State} (h6 : ps (.regs 6)) (h11 : ps (.regs 11)) (h12 : ps (.regs 12)) (h13 : ps (.regs 13)) (h14 : ps (.regs 14)) (h17 : ps (.regs 17)) (h20 : ps (.regs 20)) (h_cry : ps .cry) (h_dck : ps .dck) (h_evt : ps .evt) (h_fresh : ps .fresh) (h_gens : ps .gens) (h_hbm : ps .hbm) (h_lve : ps .lve) (h_out : ps .out) (h_pci : ps .pci) (h_qqp : ps .qqp) (h_spm : ps .spm) (h_tly : ps .tly) (h : Keeps ps s0 s) : Keeps ps s0 (State.devWrite s a1 a2 a3 a4).1 := by
  unfold State.devWrite
  repeat' first
    | (extract_lets +onlyGivenNames x; first | (with_reducible refine Keeps.cut (x := x) ?_ ?_; rotate_left; (try clear_value x); (intro _; skip); rotate_right; subst x) | subst x)
    | with_reducible assumption | exact h6 | exact h11 | exact h12 | exact h13 | exact h14 | exact h17 | exact h20 | with_reducible apply State.devUnmapped_keeps | with_reducible apply State.hbmAccess_keeps | with_reducible apply State.spmAccess_keeps
    | (intro _; skip) | split
    | (dsimp only; skip)
    | with_reducible refine Keeps.pair (by assumption) ?_
    | (with_reducible refine Keeps.lit rfl rfl ?_; first | with_reducible assumption | exact h6 | exact h11 | exact h12 | exact h13 | exact h14 | exact h17 | exact h20 | with_reducible apply State.devUnmapped_keeps | with_reducible apply State.hbmAccess_keeps | with_reducible apply State.spmAccess_keeps | with_reducible refine Keeps.pair (by assumption) ?_ | (split; skip))

theorem State.keyResult_keeps {ps : Part → Prop} {a1 a2 : Nat} {s0 s : State} (h12 : ps (.regs 12)) (h : Keeps ps s0 s) : Keeps ps s0 (State.keyResult s a1 a2) := by
  unfold State.keyResult
  repeat' first
    | with_reducible assumption | exact h12 | with_reducible apply State.put_keeps
    | (intro _; skip) | split
    | (dsimp only; skip)

theorem State.keyCmdImport_keeps {ps : Part → Prop} {a1 : Req} {a2 a3 : Nat} {s0 s : State} (h6 : ps (.regs 6)) (h7 : ps (.regs 7)) (h11 : ps (.regs 11)) (h12 : ps (.regs 12)) (h13 : ps (.regs 13)) (h14 : ps (.regs 14)) (h16 : ps (.regs 16)) (h17 : ps (.regs 17)) (h20 : ps (.regs 20)) (h_cry : ps .cry) (h_dck : ps .dck) (h_evt : ps .evt) (h_fresh : ps .fresh) (h_gens : ps .gens) (h_hbm : ps .hbm) (h_lve : ps .lve) (h_med : ps .med) (h_out : ps .out) (h_pci : ps .pci) (h_qqp : ps .qqp) (h_spm : ps .spm) (h_tly : ps .tly) (h : Keeps ps s0 s) : Keeps ps s0 (State.keyCmdImport s a1 a2 a3) := by
  unfold State.keyCmdImport
  repeat' first
    | (extract_lets +onlyGivenNames x; first | (with_reducible refine Keeps.cut (x := x) ?_ ?_; rotate_left; (try clear_value x); (intro _; skip); rotate_right; subst x) | subst x)
    | with_reducible assumption | exact h6 | exact h7 | exact h11 | exact h12 | exact h13 | exact h14 | exact h16 | exact h17 | exact h20 | with_reducible apply State.refuseWrite_keeps | with_reducible apply State.devRead_keeps | with_reducible apply State.keyResult_keeps | with_reducible apply State.post_keeps | with_reducible apply State.importKey_keeps | with_reducible apply Keeps.foldl | with_reducible apply Keeps.foldlFst
    | (intro _; skip) | split
    | (dsimp only; skip)
    | with_reducible refine Keeps.pair (by assumption) ?_

theorem execKeyCmdImport_keeps {ps : Part → Prop} {s : State} {a1 : Req} {a2 a3 a4 a5 a6 : Nat} (h6 : ps (.regs 6)) (h7 : ps (.regs 7)) (h11 : ps (.regs 11)) (h12 : ps (.regs 12)) (h13 : ps (.regs 13)) (h14 : ps (.regs 14)) (h16 : ps (.regs 16)) (h17 : ps (.regs 17)) (h20 : ps (.regs 20)) (h_cry : ps .cry) (h_dck : ps .dck) (h_evt : ps .evt) (h_fresh : ps .fresh) (h_gens : ps .gens) (h_hbm : ps .hbm) (h_lve : ps .lve) (h_med : ps .med) (h_out : ps .out) (h_pci : ps .pci) (h_qqp : ps .qqp) (h_spm : ps .spm) (h_tly : ps .tly) : ∀ r, (execKeyCmdImport a1 a2 a3 a4 a5 a6 s) = .next r → Keeps ps s r := by
  intro r e
  cases e
  have h := Keeps.refl (ps := ps) s
  repeat' first
    | with_reducible assumption | exact h6 | exact h7 | exact h11 | exact h12 | exact h13 | exact h14 | exact h16 | exact h17 | exact h20 | with_reducible apply State.when_keeps | with_reducible apply State.byReq_keeps | with_reducible apply State.keyCmdImport_keeps
    | (intro _; skip) | split
    | (dsimp only; skip)

theorem State.keyCmdRetire_keeps {ps : Part → Prop} {a1 : Req} {a2 : Nat} {s0 s : State} (h12 : ps (.regs 12)) (h16 : ps (.regs 16)) (h17 : ps (.regs 17)) (h_cry : ps .cry) (h_evt : ps .evt) (h_out : ps .out) (h_pci : ps .pci) (h : Keeps ps s0 s) : Keeps ps s0 (State.keyCmdRetire s a1 a2) := by
  unfold State.keyCmdRetire
  repeat' first
    | (extract_lets +onlyGivenNames x; first | (with_reducible refine Keeps.cut (x := x) ?_ ?_; rotate_left; (try clear_value x); (intro _; skip); rotate_right; subst x) | subst x)
    | with_reducible assumption | exact h12 | exact h16 | exact h17 | with_reducible apply State.refuseWrite_keeps | with_reducible apply State.retireKey_keeps | with_reducible apply State.keyResult_keeps
    | (intro _; skip) | split
    | (dsimp only; skip)
    | with_reducible refine Keeps.pair (by assumption) ?_

theorem execKeyCmdRetire_keeps {ps : Part → Prop} {s : State} {a1 : Req} {a2 : Nat} (h12 : ps (.regs 12)) (h16 : ps (.regs 16)) (h17 : ps (.regs 17)) (h_cry : ps .cry) (h_evt : ps .evt) (h_out : ps .out) (h_pci : ps .pci) : ∀ r, (execKeyCmdRetire a1 a2 s) = .next r → Keeps ps s r := by
  intro r e
  cases e
  have h := Keeps.refl (ps := ps) s
  repeat' first
    | with_reducible assumption | exact h12 | exact h16 | exact h17 | with_reducible apply State.when_keeps | with_reducible apply State.byReq_keeps | with_reducible apply State.keyCmdRetire_keeps
    | (intro _; skip) | split
    | (dsimp only; skip)

theorem State.rekeyGo_keeps {ps : Part → Prop} {a1 : Req} {a2 : Nat} {s0 s : State} (h12 : ps (.regs 12)) (h16 : ps (.regs 16)) (h17 : ps (.regs 17)) (h_cry : ps .cry) (h_evt : ps .evt) (h_fresh : ps .fresh) (h_out : ps .out) (h_pci : ps .pci) (h : Keeps ps s0 s) : Keeps ps s0 (State.rekeyGo s a1 a2) := by
  unfold State.rekeyGo
  repeat' first
    | (extract_lets +onlyGivenNames x; first | (with_reducible refine Keeps.cut (x := x) ?_ ?_; rotate_left; (try clear_value x); (intro _; skip); rotate_right; subst x) | subst x)
    | with_reducible assumption | exact h12 | exact h16 | exact h17 | with_reducible apply State.refuseWrite_keeps | with_reducible apply State.rekeyStart_keeps
    | (intro _; skip) | split
    | (dsimp only; skip)

theorem execRekeyGo_keeps {ps : Part → Prop} {s : State} {a1 : Req} {a2 : Nat} (h12 : ps (.regs 12)) (h16 : ps (.regs 16)) (h17 : ps (.regs 17)) (h_cry : ps .cry) (h_evt : ps .evt) (h_fresh : ps .fresh) (h_out : ps .out) (h_pci : ps .pci) : ∀ r, (execRekeyGo a1 a2 s) = .next r → Keeps ps s r := by
  intro r e
  cases e
  have h := Keeps.refl (ps := ps) s
  repeat' first
    | with_reducible assumption | exact h12 | exact h16 | exact h17 | with_reducible apply State.when_keeps | with_reducible apply State.byReq_keeps | with_reducible apply State.rekeyGo_keeps
    | (intro _; skip) | split
    | (dsimp only; skip)

theorem State.rekeyLeaf_keeps {ps : Part → Prop} {a1 a2 : Nat} {s0 s : State} (h_cry : ps .cry) (h : Keeps ps s0 s) : Keeps ps s0 (State.rekeyLeaf s a1 a2) := by
  unfold State.rekeyLeaf
  repeat' first
    | (extract_lets +onlyGivenNames x; first | (with_reducible refine Keeps.cut (x := x) ?_ ?_; rotate_left; (try clear_value x); (intro _; skip); rotate_right; subst x) | subst x)
    | with_reducible assumption | with_reducible apply State.setNode_keeps | with_reducible apply Keeps.foldl | with_reducible apply Keeps.foldlFst
    | (intro _; skip) | split
    | (dsimp only; skip)
    | (with_reducible refine Keeps.lit rfl rfl ?_; first | with_reducible assumption | with_reducible apply State.setNode_keeps | with_reducible apply Keeps.foldl | with_reducible apply Keeps.foldlFst | (split; skip))

theorem State.rekeyNodes_keeps {ps : Part → Prop} {a1 a2 a3 a4 : Nat} {s0 s : State} (h_cry : ps .cry) (h : Keeps ps s0 s) : Keeps ps s0 (State.rekeyNodes s a1 a2 a3 a4) := by
  induction a2 generalizing s a1 a3 a4 with
  | zero =>
    unfold State.rekeyNodes
    repeat' first
      | (extract_lets +onlyGivenNames x; first | (with_reducible refine Keeps.cut (x := x) ?_ ?_; rotate_left; (try clear_value x); (intro _; skip); rotate_right; subst x) | subst x)
      | with_reducible assumption | with_reducible apply State.setNode_keeps | with_reducible apply Keeps.foldl | with_reducible apply Keeps.foldlFst
      | (intro _; skip) | split
      | (dsimp only; skip)
      | (with_reducible refine Keeps.lit rfl rfl ?_; first | with_reducible assumption | with_reducible apply State.setNode_keeps | with_reducible apply Keeps.foldl | with_reducible apply Keeps.foldlFst | (split; skip))
  | succ n ih =>
    unfold State.rekeyNodes
    repeat' first
      | (extract_lets +onlyGivenNames x; first | (with_reducible refine Keeps.cut (x := x) ?_ ?_; rotate_left; (try clear_value x); (intro _; skip); rotate_right; subst x) | subst x)
      | with_reducible assumption | with_reducible apply State.setNode_keeps | with_reducible apply ih | with_reducible apply Keeps.foldl | with_reducible apply Keeps.foldlFst
      | (intro _; skip) | split
      | (dsimp only; skip)
      | (with_reducible refine Keeps.lit rfl rfl ?_; first | with_reducible assumption | with_reducible apply State.setNode_keeps | with_reducible apply ih | with_reducible apply Keeps.foldl | with_reducible apply Keeps.foldlFst | (split; skip))

theorem State.rekeyEnd_keeps {ps : Part → Prop} {a1 : Nat} {s0 s : State} (h12 : ps (.regs 12)) (h17 : ps (.regs 17)) (h_cry : ps .cry) (h_evt : ps .evt) (h_fresh : ps .fresh) (h_out : ps .out) (h_pci : ps .pci) (h : Keeps ps s0 s) : Keeps ps s0 (State.rekeyEnd s a1) := by
  unfold State.rekeyEnd
  repeat' first
    | (extract_lets +onlyGivenNames x; first | (with_reducible refine Keeps.cut (x := x) ?_ ?_; rotate_left; (try clear_value x); (intro _; skip); rotate_right; subst x) | subst x)
    | with_reducible assumption | exact h12 | exact h17 | with_reducible apply State.put_keeps | with_reducible apply State.zeroise_keeps | with_reducible apply State.post_keeps | with_reducible apply State.rekeyStart_keeps | with_reducible apply Keeps.foldl | with_reducible apply Keeps.foldlFst
    | (intro _; skip) | split
    | (dsimp only; skip)
    | (with_reducible refine Keeps.lit rfl rfl ?_; first | with_reducible assumption | exact h12 | exact h17 | with_reducible apply State.put_keeps | with_reducible apply State.zeroise_keeps | with_reducible apply State.post_keeps | with_reducible apply State.rekeyStart_keeps | with_reducible apply Keeps.foldl | with_reducible apply Keeps.foldlFst | (split; skip))

theorem execRekeySweepStep_keeps {ps : Part → Prop} {s : State} {a1 : List (Nat × Nat)} {a2 : Nat} (h6 : ps (.regs 6)) (h11 : ps (.regs 11)) (h12 : ps (.regs 12)) (h17 : ps (.regs 17)) (h20 : ps (.regs 20)) (h_cry : ps .cry) (h_dck : ps .dck) (h_evt : ps .evt) (h_fresh : ps .fresh) (h_gens : ps .gens) (h_lve : ps .lve) (h_out : ps .out) (h_pci : ps .pci) (h_qqp : ps .qqp) (h_tly : ps .tly) : ∀ r, (execRekeySweepStep a1 a2 s) = .next r → Keeps ps s r := by
  intro r e
  cases e
  have h := Keeps.refl (ps := ps) s
  repeat' first
    | (extract_lets +onlyGivenNames x; first | (with_reducible refine Keeps.cut (x := x) ?_ ?_; rotate_left; (try clear_value x); (intro _; skip); rotate_right; subst x) | subst x)
    | with_reducible assumption | exact h6 | exact h11 | exact h12 | exact h17 | exact h20 | with_reducible apply State.when_keeps | with_reducible apply State.lineBad_keeps | with_reducible apply State.tagFail_keeps | with_reducible apply State.rekeyNodes_keeps | with_reducible apply State.rekeyLeaf_keeps | with_reducible apply State.put64_keeps | with_reducible apply State.rekeyEnd_keeps | with_reducible apply Keeps.foldl | with_reducible apply Keeps.foldlFst
    | (intro _; skip) | split
    | (dsimp only; skip)

theorem State.resealGo_keeps {ps : Part → Prop} {a1 : Req} {a2 : Nat} {s0 s : State} (h12 : ps (.regs 12)) (h16 : ps (.regs 16)) (h17 : ps (.regs 17)) (h_cry : ps .cry) (h_evt : ps .evt) (h_fresh : ps .fresh) (h_hbm : ps .hbm) (h_out : ps .out) (h_pci : ps .pci) (h_tly : ps .tly) (h : Keeps ps s0 s) : Keeps ps s0 (State.resealGo s a1 a2) := by
  unfold State.resealGo
  repeat' first
    | (extract_lets +onlyGivenNames x; first | (with_reducible refine Keeps.cut (x := x) ?_ ?_; rotate_left; (try clear_value x); (intro _; skip); rotate_right; subst x) | subst x)
    | with_reducible assumption | exact h12 | exact h16 | exact h17 | with_reducible apply State.refuseWrite_keeps | with_reducible apply State.resealRange_keeps | with_reducible apply State.put_keeps
    | (intro _; skip) | split
    | (dsimp only; skip)
    | with_reducible refine Keeps.pair (by assumption) ?_

theorem execResealGo_keeps {ps : Part → Prop} {s : State} {a1 : Req} {a2 : Nat} (h12 : ps (.regs 12)) (h16 : ps (.regs 16)) (h17 : ps (.regs 17)) (h_cry : ps .cry) (h_evt : ps .evt) (h_fresh : ps .fresh) (h_hbm : ps .hbm) (h_out : ps .out) (h_pci : ps .pci) (h_tly : ps .tly) : ∀ r, (execResealGo a1 a2 s) = .next r → Keeps ps s r := by
  intro r e
  cases e
  have h := Keeps.refl (ps := ps) s
  repeat' first
    | with_reducible assumption | exact h12 | exact h16 | exact h17 | with_reducible apply State.when_keeps | with_reducible apply State.byReq_keeps | with_reducible apply State.resealGo_keeps
    | (intro _; skip) | split
    | (dsimp only; skip)

theorem State.writeBack_keeps {ps : Part → Prop} {a1 : Nat × Line × List (Nat × Blk)} {s0 s : State} (h12 : ps (.regs 12)) (h17 : ps (.regs 17)) (h_cry : ps .cry) (h_evt : ps .evt) (h_fresh : ps .fresh) (h_hbm : ps .hbm) (h_out : ps .out) (h_pci : ps .pci) (h_tly : ps .tly) (h : Keeps ps s0 s) : Keeps ps s0 (State.writeBack s a1) := by
  unfold State.writeBack
  repeat' first
    | with_reducible assumption | exact h12 | exact h17 | with_reducible apply State.sealBuf_keeps | with_reducible apply State.updLine_keeps
    | (intro _; skip) | split
    | (dsimp only; skip)
    | (with_reducible refine Keeps.lit rfl rfl ?_; first | with_reducible assumption | exact h12 | exact h17 | with_reducible apply State.sealBuf_keeps | with_reducible apply State.updLine_keeps | (split; skip))

theorem execAutoReseal_keeps {ps : Part → Prop} {s : State} {a1 a2 a3 : Nat} {a4 : List Nat} (h6 : ps (.regs 6)) (h11 : ps (.regs 11)) (h12 : ps (.regs 12)) (h17 : ps (.regs 17)) (h20 : ps (.regs 20)) (h_cry : ps .cry) (h_dck : ps .dck) (h_evt : ps .evt) (h_fresh : ps .fresh) (h_gens : ps .gens) (h_hbm : ps .hbm) (h_lve : ps .lve) (h_out : ps .out) (h_pci : ps .pci) (h_qqp : ps .qqp) (h_tly : ps .tly) : ∀ r, (execAutoReseal a1 a2 a3 a4 s) = .next r → Keeps ps s r := by
  intro r e
  cases e
  have h := Keeps.refl (ps := ps) s
  repeat' first
    | (extract_lets +onlyGivenNames x; first | (with_reducible refine Keeps.cut (x := x) ?_ ?_; rotate_left; (try clear_value x); (intro _; skip); rotate_right; subst x) | subst x)
    | with_reducible assumption | exact h6 | exact h11 | exact h12 | exact h17 | exact h20 | with_reducible apply State.when_keeps | with_reducible apply State.lineBad_keeps | with_reducible apply State.writeBack_keeps | with_reducible apply State.resealNode_keeps | with_reducible apply Keeps.foldl | with_reducible apply Keeps.foldlFst
    | (intro _; skip) | split
    | (dsimp only; skip)

end Sys2Proof.Machine
end

