-- ==== Sys2Proof/Laws/Fabric.lean ====
section
/-! SUPPORT. What each operation and each meaning of Machine/Fabric.lean keeps (Keeps): one lemma a definition. -/

-- The package as one text is checked in one process: its proofs are checked one after another, and its linters keep quiet.
set_option Elab.async false
set_option linter.all false

namespace Sys2Proof.Machine
open Sys2Proof

theorem execLandingMreq_keeps {ps : Part → Prop} {s : State} {a1 : Nat} {a2 : SkReq} (h5 : ps (.regs 5)) (h6 : ps (.regs 6)) (h16 : ps (.regs 16)) (h17 : ps (.regs 17)) (h20 : ps (.regs 20)) (h_dck : ps .dck) (h_evt : ps .evt) (h_fab : ps .fab) (h_fresh : ps .fresh) (h_gens : ps .gens) (h_med : ps .med) (h_noc : ps .noc) (h_out : ps .out) (h_pci : ps .pci) (h_qqp : ps .qqp) (h_tly : ps .tly) : ∀ r, (execLandingMreq a1 a2 s) = .next r → Keeps ps s r := by
  intro r e
  cases e
  have h := Keeps.refl (ps := ps) s
  repeat' first
    | (extract_lets +onlyGivenNames x; first | (with_reducible refine Keeps.cut (x := x) ?_ ?_; rotate_left; (try clear_value x); (intro _; skip); rotate_right; subst x) | subst x)
    | with_reducible assumption | exact h5 | exact h6 | exact h16 | exact h17 | exact h20 | with_reducible apply State.when_keeps | with_reducible apply State.niAnswer_keeps | with_reducible apply State.skSend_keeps
    | (intro _; skip) | split
    | (dsimp only; skip)
    | (with_reducible refine Keeps.lit rfl rfl ?_; first | with_reducible assumption | exact h5 | exact h6 | exact h16 | exact h17 | exact h20 | with_reducible apply State.when_keeps | with_reducible apply State.niAnswer_keeps | with_reducible apply State.skSend_keeps | (split; skip))

theorem execLandingTrsp_keeps {ps : Part → Prop} {s : State} {a1 a2 a3 a4 : Nat} (h5 : ps (.regs 5)) (h17 : ps (.regs 17)) (h20 : ps (.regs 20)) (h_evt : ps .evt) (h_fab : ps .fab) (h_gens : ps .gens) (h_noc : ps .noc) (h_out : ps .out) (h_pci : ps .pci) : ∀ r, (execLandingTrsp a1 a2 a3 a4 s) = .next r → Keeps ps s r := by
  intro r e
  cases e
  have h := Keeps.refl (ps := ps) s
  repeat' first
    | with_reducible assumption | exact h5 | exact h17 | exact h20 | with_reducible apply State.when_keeps | with_reducible apply State.bump_keeps | with_reducible apply State.answer_keeps
    | (intro _; skip) | split
    | (dsimp only; skip)
    | (with_reducible refine Keeps.lit rfl rfl ?_; first | with_reducible assumption | exact h5 | exact h17 | exact h20 | with_reducible apply State.when_keeps | with_reducible apply State.bump_keeps | with_reducible apply State.answer_keeps | (split; skip))

theorem State.rbCaptured_keeps {ps : Part → Prop} {s0 s : State} (h_fab : ps .fab) (h : Keeps ps s0 s) : Keeps ps s0 (State.rbCaptured s) := by
  unfold State.rbCaptured
  repeat' first
    | with_reducible assumption | with_reducible apply Keeps.foldl | with_reducible apply Keeps.foldlFst
    | (intro _; skip) | split
    | (dsimp only; skip)
    | (with_reducible refine Keeps.lit rfl rfl ?_; first | with_reducible assumption | with_reducible apply Keeps.foldl | with_reducible apply Keeps.foldlFst | (split; skip))

theorem State.rbGo_keeps {ps : Part → Prop} {a1 : Req} {a2 : Nat} {s0 s : State} (h1 : ps (.regs 1)) (h16 : ps (.regs 16)) (h17 : ps (.regs 17)) (h18 : ps (.regs 18)) (h_evt : ps .evt) (h_fab : ps .fab) (h_out : ps .out) (h_pci : ps .pci) (h : Keeps ps s0 s) : Keeps ps s0 (State.rbGo s a1 a2) := by
  unfold State.rbGo
  repeat' first
    | (extract_lets +onlyGivenNames x; first | (with_reducible refine Keeps.cut (x := x) ?_ ?_; rotate_left; (try clear_value x); (intro _; skip); rotate_right; subst x) | subst x)
    | with_reducible assumption | exact h1 | exact h16 | exact h17 | exact h18 | with_reducible apply State.refuseWrite_keeps | with_reducible apply State.put_keeps | with_reducible apply State.flag_keeps | with_reducible apply State.rbCaptured_keeps | with_reducible apply Keeps.foldl | with_reducible apply Keeps.foldlFst
    | (intro _; skip) | split
    | (dsimp only; skip)
    | (with_reducible refine Keeps.lit rfl rfl ?_; first | with_reducible assumption | exact h1 | exact h16 | exact h17 | exact h18 | with_reducible apply State.refuseWrite_keeps | with_reducible apply State.put_keeps | with_reducible apply State.flag_keeps | with_reducible apply State.rbCaptured_keeps | with_reducible apply Keeps.foldl | with_reducible apply Keeps.foldlFst | (split; skip))

theorem execReadbackGo_keeps {ps : Part → Prop} {s : State} {a1 : Req} {a2 : Nat} (h1 : ps (.regs 1)) (h16 : ps (.regs 16)) (h17 : ps (.regs 17)) (h18 : ps (.regs 18)) (h_evt : ps .evt) (h_fab : ps .fab) (h_out : ps .out) (h_pci : ps .pci) : ∀ r, (execReadbackGo a1 a2 s) = .next r → Keeps ps s r := by
  intro r e
  cases e
  have h := Keeps.refl (ps := ps) s
  repeat' first
    | with_reducible assumption | exact h1 | exact h16 | exact h17 | exact h18 | with_reducible apply State.when_keeps | with_reducible apply State.byReq_keeps | with_reducible apply State.rbGo_keeps
    | (intro _; skip) | split
    | (dsimp only; skip)

theorem execReadbackCaptureTimeout_keeps {ps : Part → Prop} {s : State} (h_fab : ps .fab) : ∀ r, (execReadbackCaptureTimeout s) = .next r → Keeps ps s r := by
  intro r e
  cases e
  have h := Keeps.refl (ps := ps) s
  repeat' first
    | with_reducible assumption | with_reducible apply State.when_keeps | with_reducible apply State.rbCaptured_keeps
    | (intro _; skip) | split
    | (dsimp only; skip)

theorem State.rbWrite_keeps {ps : Part → Prop} {a1 : Nat} {a2 : List (Nat × Nat)} {s0 s : State} (h6 : ps (.regs 6)) (h11 : ps (.regs 11)) (h12 : ps (.regs 12)) (h13 : ps (.regs 13)) (h14 : ps (.regs 14)) (h17 : ps (.regs 17)) (h20 : ps (.regs 20)) (h_cry : ps .cry) (h_dck : ps .dck) (h_evt : ps .evt) (h_fresh : ps .fresh) (h_gens : ps .gens) (h_hbm : ps .hbm) (h_lve : ps .lve) (h_out : ps .out) (h_pci : ps .pci) (h_qqp : ps .qqp) (h_spm : ps .spm) (h_tly : ps .tly) (h : Keeps ps s0 s) : Keeps ps s0 (State.rbWrite s a1 a2).1 := by
  induction a2 generalizing s a1 with
  | nil =>
    unfold State.rbWrite
    repeat' first
      | (extract_lets +onlyGivenNames x; first | (with_reducible refine Keeps.cut (x := x) ?_ ?_; rotate_left; (try clear_value x); (intro _; skip); rotate_right; subst x) | subst x)
      | with_reducible assumption | exact h6 | exact h11 | exact h12 | exact h13 | exact h14 | exact h17 | exact h20 | with_reducible apply State.devWrite_keeps
      | (intro _; skip) | split
      | (dsimp only; skip)
      | with_reducible refine Keeps.pair (by assumption) ?_
      | (with_reducible refine Keeps.lit rfl rfl ?_; first | with_reducible assumption | exact h6 | exact h11 | exact h12 | exact h13 | exact h14 | exact h17 | exact h20 | with_reducible apply State.devWrite_keeps | with_reducible refine Keeps.pair (by assumption) ?_ | (split; skip))
  | cons x l ih =>
    unfold State.rbWrite
    repeat' first
      | (extract_lets +onlyGivenNames x; first | (with_reducible refine Keeps.cut (x := x) ?_ ?_; rotate_left; (try clear_value x); (intro _; skip); rotate_right; subst x) | subst x)
      | with_reducible assumption | exact h6 | exact h11 | exact h12 | exact h13 | exact h14 | exact h17 | exact h20 | with_reducible apply State.devWrite_keeps | with_reducible apply ih
      | (intro _; skip) | split
      | (dsimp only; skip)
      | with_reducible refine Keeps.pair (by assumption) ?_
      | (with_reducible refine Keeps.lit rfl rfl ?_; first | with_reducible assumption | exact h6 | exact h11 | exact h12 | exact h13 | exact h14 | exact h17 | exact h20 | with_reducible apply State.devWrite_keeps | with_reducible apply ih | with_reducible refine Keeps.pair (by assumption) ?_ | (split; skip))

theorem execReadbackDone_keeps {ps : Part → Prop} {s : State} {a1 : List Nat} (h6 : ps (.regs 6)) (h11 : ps (.regs 11)) (h12 : ps (.regs 12)) (h13 : ps (.regs 13)) (h14 : ps (.regs 14)) (h17 : ps (.regs 17)) (h18 : ps (.regs 18)) (h20 : ps (.regs 20)) (h_cry : ps .cry) (h_dck : ps .dck) (h_evt : ps .evt) (h_fab : ps .fab) (h_fresh : ps .fresh) (h_gens : ps .gens) (h_hbm : ps .hbm) (h_lve : ps .lve) (h_out : ps .out) (h_pci : ps .pci) (h_qqp : ps .qqp) (h_spm : ps .spm) (h_tly : ps .tly) : ∀ r, (execReadbackDone a1 s) = .next r → Keeps ps s r := by
  intro r e
  cases e
  have h := Keeps.refl (ps := ps) s
  repeat' first
    | (extract_lets +onlyGivenNames x; first | (with_reducible refine Keeps.cut (x := x) ?_ ?_; rotate_left; (try clear_value x); (intro _; skip); rotate_right; subst x) | subst x)
    | with_reducible assumption | exact h6 | exact h11 | exact h12 | exact h13 | exact h14 | exact h17 | exact h18 | exact h20 | with_reducible apply State.when_keeps | with_reducible apply State.rbCaptured_keeps | with_reducible apply State.rbWrite_keeps | with_reducible apply State.put_keeps | with_reducible apply State.post_keeps
    | (intro _; skip) | split
    | (dsimp only; skip)
    | with_reducible refine Keeps.pair (by assumption) ?_
    | (with_reducible refine Keeps.lit rfl rfl ?_; first | with_reducible assumption | exact h6 | exact h11 | exact h12 | exact h13 | exact h14 | exact h17 | exact h18 | exact h20 | with_reducible apply State.when_keeps | with_reducible apply State.rbCaptured_keeps | with_reducible apply State.rbWrite_keeps | with_reducible apply State.put_keeps | with_reducible apply State.post_keeps | with_reducible refine Keeps.pair (by assumption) ?_ | (split; skip))

theorem State.rbResume_keeps {ps : Part → Prop} {s0 s : State} (h1 : ps (.regs 1)) (h18 : ps (.regs 18)) (h_fab : ps .fab) (h : Keeps ps s0 s) : Keeps ps s0 (State.rbResume s) := by
  unfold State.rbResume
  repeat' first
    | (extract_lets +onlyGivenNames x; first | (with_reducible refine Keeps.cut (x := x) ?_ ?_; rotate_left; (try clear_value x); (intro _; skip); rotate_right; subst x) | subst x)
    | with_reducible assumption | exact h1 | exact h18 | with_reducible apply State.put_keeps | with_reducible apply Keeps.foldl | with_reducible apply Keeps.foldlFst
    | (intro _; skip) | split
    | (dsimp only; skip)
    | (with_reducible refine Keeps.lit rfl rfl ?_; first | with_reducible assumption | exact h1 | exact h18 | with_reducible apply State.put_keeps | with_reducible apply Keeps.foldl | with_reducible apply Keeps.foldlFst | (split; skip))

theorem execReadbackResume_keeps {ps : Part → Prop} {s : State} (h1 : ps (.regs 1)) (h18 : ps (.regs 18)) (h_fab : ps .fab) : ∀ r, (execReadbackResume s) = .next r → Keeps ps s r := by
  intro r e
  cases e
  have h := Keeps.refl (ps := ps) s
  repeat' first
    | with_reducible assumption | exact h1 | exact h18 | with_reducible apply State.when_keeps | with_reducible apply State.rbResume_keeps
    | (intro _; skip) | split
    | (dsimp only; skip)

theorem execFabSweepStep_keeps {ps : Part → Prop} {s : State} {a1 a2 a3 a4 a5 : Nat} (h14 : ps (.regs 14)) (h17 : ps (.regs 17)) (h18 : ps (.regs 18)) (h_evt : ps .evt) (h_out : ps .out) (h_pci : ps .pci) : ∀ r, (execFabSweepStep a1 a2 a3 a4 a5 s) = .next r → Keeps ps s r := by
  intro r e
  cases e
  have h := Keeps.refl (ps := ps) s
  repeat' first
    | (extract_lets +onlyGivenNames x; first | (with_reducible refine Keeps.cut (x := x) ?_ ?_; rotate_left; (try clear_value x); (intro _; skip); rotate_right; subst x) | subst x)
    | with_reducible assumption | exact h14 | exact h17 | exact h18 | with_reducible apply State.when_keeps | with_reducible apply State.bump_keeps | with_reducible apply State.post_keeps
    | (intro _; skip) | split
    | (dsimp only; skip)

theorem execUserPortRead_keeps {ps : Part → Prop} {s : State} {a1 a2 a3 : Nat} {a4 : EccRead} (h17 : ps (.regs 17)) (h18 : ps (.regs 18)) (h_evt : ps .evt) (h_fab : ps .fab) (h_out : ps .out) (h_pci : ps .pci) : ∀ r, (execUserPortRead a1 a2 a3 a4 s) = .next r → Keeps ps s r := by
  intro r e
  cases e
  have h := Keeps.refl (ps := ps) s
  repeat' first
    | (extract_lets +onlyGivenNames x; first | (with_reducible refine Keeps.cut (x := x) ?_ ?_; rotate_left; (try clear_value x); (intro _; skip); rotate_right; subst x) | subst x)
    | with_reducible assumption | exact h17 | exact h18 | with_reducible apply State.when_keeps | with_reducible apply State.updMport_keeps | with_reducible apply State.post_keeps | with_reducible apply State.bump_keeps
    | (intro _; skip) | split
    | (dsimp only; skip)
    | (with_reducible refine Keeps.lit rfl rfl ?_; first | with_reducible assumption | exact h17 | exact h18 | with_reducible apply State.when_keeps | with_reducible apply State.updMport_keeps | with_reducible apply State.post_keeps | with_reducible apply State.bump_keeps | (split; skip))

end Sys2Proof.Machine
end

