-- ==== Sys2Proof/Laws/Luns.lean ====
section
/-! SUPPORT. What each operation and each meaning of Machine/Luns.lean keeps (Keeps): one lemma a definition. -/

-- The package as one text is checked in one process: its proofs are checked one after another, and its linters keep quiet.
set_option Elab.async false
set_option linter.all false

namespace Sys2Proof.Machine
open Sys2Proof

theorem State.devWrites_keeps {ps : Part → Prop} {a1 a2 a3 a4 a5 : Nat} {s0 s : State} (h6 : ps (.regs 6)) (h11 : ps (.regs 11)) (h12 : ps (.regs 12)) (h13 : ps (.regs 13)) (h14 : ps (.regs 14)) (h17 : ps (.regs 17)) (h20 : ps (.regs 20)) (h_cry : ps .cry) (h_dck : ps .dck) (h_evt : ps .evt) (h_fresh : ps .fresh) (h_gens : ps .gens) (h_hbm : ps .hbm) (h_lve : ps .lve) (h_out : ps .out) (h_pci : ps .pci) (h_qqp : ps .qqp) (h_spm : ps .spm) (h_tly : ps .tly) (h : Keeps ps s0 s) : Keeps ps s0 (State.devWrites s a1 a2 a3 a4 a5) := by
  induction a2 generalizing s a1 a3 a4 a5 with
  | zero =>
    unfold State.devWrites
    repeat' first
      | (extract_lets +onlyGivenNames x; first | (with_reducible refine Keeps.cut (x := x) ?_ ?_; rotate_left; (try clear_value x); (intro _; skip); rotate_right; subst x) | subst x)
      | with_reducible assumption | exact h6 | exact h11 | exact h12 | exact h13 | exact h14 | exact h17 | exact h20 | with_reducible apply State.devWrite_keeps
      | (intro _; skip) | split
      | (dsimp only; skip)
      | with_reducible refine Keeps.pair (by assumption) ?_
  | succ n ih =>
    unfold State.devWrites
    repeat' first
      | (extract_lets +onlyGivenNames x; first | (with_reducible refine Keeps.cut (x := x) ?_ ?_; rotate_left; (try clear_value x); (intro _; skip); rotate_right; subst x) | subst x)
      | with_reducible assumption | exact h6 | exact h11 | exact h12 | exact h13 | exact h14 | exact h17 | exact h20 | with_reducible apply State.devWrite_keeps | with_reducible apply ih
      | (intro _; skip) | split
      | (dsimp only; skip)
      | with_reducible refine Keeps.pair (by assumption) ?_

theorem State.rawAnswer_keeps {ps : Part → Prop} {a1 a2 a3 : Nat} {s0 s : State} (h5 : ps (.regs 5)) (h17 : ps (.regs 17)) (h20 : ps (.regs 20)) (h_evt : ps .evt) (h_fab : ps .fab) (h_gens : ps .gens) (h_noc : ps .noc) (h_out : ps .out) (h_pci : ps .pci) (h : Keeps ps s0 s) : Keeps ps s0 (State.rawAnswer s a1 a2 a3) := by
  unfold State.rawAnswer
  repeat' first
    | (extract_lets +onlyGivenNames x; first | (with_reducible refine Keeps.cut (x := x) ?_ ?_; rotate_left; (try clear_value x); (intro _; skip); rotate_right; subst x) | subst x)
    | with_reducible assumption | exact h5 | exact h17 | exact h20 | with_reducible apply State.answer_keeps
    | (intro _; skip) | split
    | (dsimp only; skip)
    | (with_reducible refine Keeps.lit rfl rfl ?_; first | with_reducible assumption | exact h5 | exact h17 | exact h20 | with_reducible apply State.answer_keeps | (split; skip))

theorem State.rawResult_keeps {ps : Part → Prop} {a1 a2 a3 a4 : Nat} {a5 : Raw} {a6 : RawEnd} {s0 s : State} (h5 : ps (.regs 5)) (h6 : ps (.regs 6)) (h11 : ps (.regs 11)) (h12 : ps (.regs 12)) (h13 : ps (.regs 13)) (h14 : ps (.regs 14)) (h17 : ps (.regs 17)) (h20 : ps (.regs 20)) (h_cry : ps .cry) (h_dck : ps .dck) (h_evt : ps .evt) (h_fab : ps .fab) (h_fresh : ps .fresh) (h_gens : ps .gens) (h_hbm : ps .hbm) (h_lve : ps .lve) (h_noc : ps .noc) (h_out : ps .out) (h_pci : ps .pci) (h_qqp : ps .qqp) (h_spm : ps .spm) (h_tly : ps .tly) (h : Keeps ps s0 s) : Keeps ps s0 (State.rawResult s a1 a2 a3 a4 a5 a6) := by
  unfold State.rawResult
  repeat' first
    | (extract_lets +onlyGivenNames x; first | (with_reducible refine Keeps.cut (x := x) ?_ ?_; rotate_left; (try clear_value x); (intro _; skip); rotate_right; subst x) | subst x)
    | with_reducible assumption | exact h5 | exact h6 | exact h11 | exact h12 | exact h13 | exact h14 | exact h17 | exact h20 | with_reducible apply State.devWrites_keeps | with_reducible apply State.rawAnswer_keeps
    | (intro _; skip) | split
    | (dsimp only; skip)

theorem State.rawEnd_keeps {ps : Part → Prop} {a1 : Op} {a2 : Nat} {a3 : RawEnd} {s0 s : State} (h5 : ps (.regs 5)) (h6 : ps (.regs 6)) (h9 : ps (.regs 9)) (h11 : ps (.regs 11)) (h12 : ps (.regs 12)) (h13 : ps (.regs 13)) (h14 : ps (.regs 14)) (h17 : ps (.regs 17)) (h20 : ps (.regs 20)) (h_cry : ps .cry) (h_dck : ps .dck) (h_evt : ps .evt) (h_fab : ps .fab) (h_fresh : ps .fresh) (h_gens : ps .gens) (h_hbm : ps .hbm) (h_lve : ps .lve) (h_noc : ps .noc) (h_out : ps .out) (h_pci : ps .pci) (h_qqp : ps .qqp) (h_spm : ps .spm) (h_tly : ps .tly) (h : Keeps ps s0 s) : Keeps ps s0 (State.rawEnd s a1 a2 a3) := by
  unfold State.rawEnd
  repeat' first
    | (extract_lets +onlyGivenNames x; first | (with_reducible refine Keeps.cut (x := x) ?_ ?_; rotate_left; (try clear_value x); (intro _; skip); rotate_right; subst x) | subst x)
    | with_reducible assumption | exact h5 | exact h6 | exact h9 | exact h11 | exact h12 | exact h13 | exact h14 | exact h17 | exact h20 | with_reducible apply State.bump_keeps | with_reducible apply State.rawResult_keeps
    | (intro _; skip) | split
    | (dsimp only; skip)
    | (with_reducible refine Keeps.lit rfl rfl ?_; first | with_reducible assumption | exact h5 | exact h6 | exact h9 | exact h11 | exact h12 | exact h13 | exact h14 | exact h17 | exact h20 | with_reducible apply State.bump_keeps | with_reducible apply State.rawResult_keeps | (split; skip))

theorem State.rawFlush_keeps {ps : Part → Prop} {s0 s : State} (h5 : ps (.regs 5)) (h6 : ps (.regs 6)) (h9 : ps (.regs 9)) (h11 : ps (.regs 11)) (h12 : ps (.regs 12)) (h13 : ps (.regs 13)) (h14 : ps (.regs 14)) (h17 : ps (.regs 17)) (h20 : ps (.regs 20)) (h_cry : ps .cry) (h_dck : ps .dck) (h_evt : ps .evt) (h_fab : ps .fab) (h_fresh : ps .fresh) (h_gens : ps .gens) (h_hbm : ps .hbm) (h_lve : ps .lve) (h_med : ps .med) (h_noc : ps .noc) (h_out : ps .out) (h_pci : ps .pci) (h_qqp : ps .qqp) (h_spm : ps .spm) (h_tly : ps .tly) (h : Keeps ps s0 s) : Keeps ps s0 (State.rawFlush s) := by
  unfold State.rawFlush
  repeat' first
    | (extract_lets +onlyGivenNames x; first | (with_reducible refine Keeps.cut (x := x) ?_ ?_; rotate_left; (try clear_value x); (intro _; skip); rotate_right; subst x) | subst x)
    | with_reducible assumption | exact h5 | exact h6 | exact h9 | exact h11 | exact h12 | exact h13 | exact h14 | exact h17 | exact h20 | with_reducible apply State.rawEnd_keeps | with_reducible apply Keeps.foldl | with_reducible apply Keeps.foldlFst
    | (intro _; skip) | split
    | (dsimp only; skip)
    | (with_reducible refine Keeps.lit rfl rfl ?_; first | with_reducible assumption | exact h5 | exact h6 | exact h9 | exact h11 | exact h12 | exact h13 | exact h14 | exact h17 | exact h20 | with_reducible apply State.rawEnd_keeps | with_reducible apply Keeps.foldl | with_reducible apply Keeps.foldlFst | (split; skip))

theorem State.readSensed_keeps {ps : Part → Prop} {a1 : Op} {s0 s : State} (h6 : ps (.regs 6)) (h9 : ps (.regs 9)) (h17 : ps (.regs 17)) (h_dck : ps .dck) (h_evt : ps .evt) (h_fresh : ps .fresh) (h_med : ps .med) (h_out : ps .out) (h_pci : ps .pci) (h : Keeps ps s0 s) : Keeps ps s0 (State.readSensed s a1) := by
  unfold State.readSensed
  repeat' first
    | (extract_lets +onlyGivenNames x; first | (with_reducible refine Keeps.cut (x := x) ?_ ?_; rotate_left; (try clear_value x); (intro _; skip); rotate_right; subst x) | subst x)
    | with_reducible assumption | exact h6 | exact h9 | exact h17 | with_reducible apply State.drawn_keeps | with_reducible apply State.updBte_keeps | with_reducible apply State.refresh_keeps | with_reducible apply State.bump_keeps
    | (intro _; skip) | split
    | (dsimp only; skip)
    | (with_reducible refine Keeps.lit rfl rfl ?_; first | with_reducible assumption | exact h6 | exact h9 | exact h17 | with_reducible apply State.drawn_keeps | with_reducible apply State.updBte_keeps | with_reducible apply State.refresh_keeps | with_reducible apply State.bump_keeps | (split; skip))

theorem State.placeMoves_keeps {ps : Part → Prop} {s0 s : State} (h6 : ps (.regs 6)) (h7 : ps (.regs 7)) (h11 : ps (.regs 11)) (h17 : ps (.regs 17)) (h20 : ps (.regs 20)) (h_dck : ps .dck) (h_evt : ps .evt) (h_gens : ps .gens) (h_lve : ps .lve) (h_med : ps .med) (h_out : ps .out) (h_pci : ps .pci) (h_tly : ps .tly) (h : Keeps ps s0 s) : Keeps ps s0 (State.placeMoves s) := by
  unfold State.placeMoves
  repeat' first
    | with_reducible assumption | exact h6 | exact h7 | exact h11 | exact h17 | exact h20 | with_reducible apply State.place_keeps | with_reducible apply Keeps.foldl | with_reducible apply Keeps.foldlFst
    | (intro _; skip) | split
    | (dsimp only; skip)
    | with_reducible refine KO.get (by assumption) ?_ | with_reducible refine KP.get (by assumption) ?_ | with_reducible refine KP.get2 (by assumption) ?_ | with_reducible apply KO.none' | with_reducible apply KP.none' | with_reducible apply KO.some' | with_reducible apply KP.some' | with_reducible apply KO.bind | with_reducible apply KP.bind | with_reducible apply Keeps.getO
    | (with_reducible refine Keeps.lit rfl rfl ?_; first | with_reducible assumption | exact h6 | exact h7 | exact h11 | exact h17 | exact h20 | with_reducible apply State.place_keeps | with_reducible apply Keeps.foldl | with_reducible apply Keeps.foldlFst | with_reducible refine KO.get (by assumption) ?_ | with_reducible refine KP.get (by assumption) ?_ | with_reducible refine KP.get2 (by assumption) ?_ | with_reducible apply KO.none' | with_reducible apply KP.none' | with_reducible apply KO.some' | with_reducible apply KP.some' | with_reducible apply KO.bind | with_reducible apply KP.bind | with_reducible apply Keeps.getO | (split; skip))

theorem State.placeAll_keeps {ps : Part → Prop} {s0 s : State} (h6 : ps (.regs 6)) (h7 : ps (.regs 7)) (h11 : ps (.regs 11)) (h17 : ps (.regs 17)) (h20 : ps (.regs 20)) (h_dck : ps .dck) (h_evt : ps .evt) (h_gens : ps .gens) (h_lve : ps .lve) (h_med : ps .med) (h_out : ps .out) (h_pci : ps .pci) (h_qqp : ps .qqp) (h_tly : ps .tly) (h : Keeps ps s0 s) : Keeps ps s0 (State.placeAll s) := by
  unfold State.placeAll
  repeat' first
    | with_reducible assumption | exact h6 | exact h7 | exact h11 | exact h17 | exact h20 | with_reducible apply State.placeMoves_keeps | with_reducible apply State.placePending_keeps
    | (intro _; skip) | split
    | (dsimp only; skip)

theorem State.progDone_keeps {ps : Part → Prop} {a1 : Op} {a2 : Bool} {s0 s : State} (h6 : ps (.regs 6)) (h7 : ps (.regs 7)) (h9 : ps (.regs 9)) (h11 : ps (.regs 11)) (h17 : ps (.regs 17)) (h20 : ps (.regs 20)) (h_dck : ps .dck) (h_evt : ps .evt) (h_gens : ps .gens) (h_lve : ps .lve) (h_med : ps .med) (h_out : ps .out) (h_pci : ps .pci) (h_qqp : ps .qqp) (h_tly : ps .tly) (h : Keeps ps s0 s) : Keeps ps s0 (State.progDone s a1 a2) := by
  unfold State.progDone
  repeat' first
    | (extract_lets +onlyGivenNames x; first | (with_reducible refine Keeps.cut (x := x) ?_ ?_; rotate_left; (try clear_value x); (intro _; skip); rotate_right; subst x) | subst x)
    | with_reducible assumption | exact h6 | exact h7 | exact h9 | exact h11 | exact h17 | exact h20 | with_reducible apply State.placeAll_keeps | with_reducible apply State.programFailed_keeps | with_reducible apply State.updStripe_keeps | with_reducible apply State.mediaTask_keeps | with_reducible apply State.endTask_keeps | with_reducible apply State.rowDone_keeps | with_reducible apply State.fellBlock_keeps | with_reducible apply Keeps.foldl | with_reducible apply Keeps.foldlFst
    | (intro _; skip) | split
    | (dsimp only; skip)
    | (with_reducible refine Keeps.lit rfl rfl ?_; first | with_reducible assumption | exact h6 | exact h7 | exact h9 | exact h11 | exact h17 | exact h20 | with_reducible apply State.placeAll_keeps | with_reducible apply State.programFailed_keeps | with_reducible apply State.updStripe_keeps | with_reducible apply State.mediaTask_keeps | with_reducible apply State.endTask_keeps | with_reducible apply State.rowDone_keeps | with_reducible apply State.fellBlock_keeps | with_reducible apply Keeps.foldl | with_reducible apply Keeps.foldlFst | (split; skip))

theorem State.eraseDone_keeps {ps : Part → Prop} {a1 : Op} {a2 : Bool} {s0 s : State} (h6 : ps (.regs 6)) (h7 : ps (.regs 7)) (h9 : ps (.regs 9)) (h11 : ps (.regs 11)) (h17 : ps (.regs 17)) (h20 : ps (.regs 20)) (h_dck : ps .dck) (h_evt : ps .evt) (h_gens : ps .gens) (h_lve : ps .lve) (h_med : ps .med) (h_out : ps .out) (h_pci : ps .pci) (h_qqp : ps .qqp) (h_tly : ps .tly) (h : Keeps ps s0 s) : Keeps ps s0 (State.eraseDone s a1 a2) := by
  unfold State.eraseDone
  repeat' first
    | with_reducible assumption | exact h6 | exact h7 | exact h9 | exact h11 | exact h17 | exact h20 | with_reducible apply State.placeAll_keeps | with_reducible apply State.memberErased_keeps | with_reducible apply State.fellBlock_keeps | with_reducible apply State.journal_keeps | with_reducible apply State.updBte_keeps
    | (intro _; skip) | split
    | (dsimp only; skip)
    | (with_reducible refine Keeps.lit rfl rfl ?_; first | with_reducible assumption | exact h6 | exact h7 | exact h9 | exact h11 | exact h17 | exact h20 | with_reducible apply State.placeAll_keeps | with_reducible apply State.memberErased_keeps | with_reducible apply State.fellBlock_keeps | with_reducible apply State.journal_keeps | with_reducible apply State.updBte_keeps | (split; skip))

theorem State.opDone_keeps {ps : Part → Prop} {a1 : List Nat} {a2 : RawEnd} {a3 : Op} {s0 s : State} (h5 : ps (.regs 5)) (h6 : ps (.regs 6)) (h7 : ps (.regs 7)) (h9 : ps (.regs 9)) (h11 : ps (.regs 11)) (h12 : ps (.regs 12)) (h13 : ps (.regs 13)) (h14 : ps (.regs 14)) (h17 : ps (.regs 17)) (h20 : ps (.regs 20)) (h_cry : ps .cry) (h_dck : ps .dck) (h_evt : ps .evt) (h_fab : ps .fab) (h_fresh : ps .fresh) (h_gens : ps .gens) (h_hbm : ps .hbm) (h_lve : ps .lve) (h_med : ps .med) (h_noc : ps .noc) (h_out : ps .out) (h_pci : ps .pci) (h_qqp : ps .qqp) (h_spm : ps .spm) (h_tly : ps .tly) (h : Keeps ps s0 s) : Keeps ps s0 (State.opDone s a1 a2 a3) := by
  unfold State.opDone
  repeat' first
    | (extract_lets +onlyGivenNames x; first | (with_reducible refine Keeps.cut (x := x) ?_ ?_; rotate_left; (try clear_value x); (intro _; skip); rotate_right; subst x) | subst x)
    | with_reducible assumption | exact h5 | exact h6 | exact h7 | exact h9 | exact h11 | exact h12 | exact h13 | exact h14 | exact h17 | exact h20 | with_reducible apply State.readSensed_keeps | with_reducible apply State.progDone_keeps | with_reducible apply State.eraseDone_keeps | with_reducible apply State.rawEnd_keeps
    | (intro _; skip) | split
    | (dsimp only; skip)
    | (with_reducible refine Keeps.lit rfl rfl ?_; first | with_reducible assumption | exact h5 | exact h6 | exact h7 | exact h9 | exact h11 | exact h12 | exact h13 | exact h14 | exact h17 | exact h20 | with_reducible apply State.readSensed_keeps | with_reducible apply State.progDone_keeps | with_reducible apply State.eraseDone_keeps | with_reducible apply State.rawEnd_keeps | (split; skip))

theorem State.readDown_keeps {ps : Part → Prop} {a1 : Op} {s0 s : State} (h6 : ps (.regs 6)) (h_dck : ps .dck) (h_med : ps .med) (h_qqp : ps .qqp) (h_tly : ps .tly) (h : Keeps ps s0 s) : Keeps ps s0 (State.readDown s a1) := by
  unfold State.readDown
  repeat' first
    | with_reducible assumption | exact h6 | with_reducible apply State.segEnd_keeps | with_reducible apply State.updLine_keeps | with_reducible apply State.updLoad_keeps | with_reducible apply State.endTask_keeps | with_reducible apply State.workLost_keeps | with_reducible apply Keeps.foldl | with_reducible apply Keeps.foldlFst
    | (intro _; skip) | split
    | (dsimp only; skip)
    | (with_reducible refine Keeps.lit rfl rfl ?_; first | with_reducible assumption | exact h6 | with_reducible apply State.segEnd_keeps | with_reducible apply State.updLine_keeps | with_reducible apply State.updLoad_keeps | with_reducible apply State.endTask_keeps | with_reducible apply State.workLost_keeps | with_reducible apply Keeps.foldl | with_reducible apply Keeps.foldlFst | (split; skip))

theorem State.opDown_keeps {ps : Part → Prop} {a1 : Op} {s0 s : State} (h5 : ps (.regs 5)) (h6 : ps (.regs 6)) (h7 : ps (.regs 7)) (h9 : ps (.regs 9)) (h11 : ps (.regs 11)) (h12 : ps (.regs 12)) (h13 : ps (.regs 13)) (h14 : ps (.regs 14)) (h17 : ps (.regs 17)) (h20 : ps (.regs 20)) (h_cry : ps .cry) (h_dck : ps .dck) (h_evt : ps .evt) (h_fab : ps .fab) (h_fresh : ps .fresh) (h_gens : ps .gens) (h_hbm : ps .hbm) (h_lve : ps .lve) (h_med : ps .med) (h_noc : ps .noc) (h_out : ps .out) (h_pci : ps .pci) (h_qqp : ps .qqp) (h_spm : ps .spm) (h_tly : ps .tly) (h : Keeps ps s0 s) : Keeps ps s0 (State.opDown s a1) := by
  unfold State.opDown
  repeat' first
    | (extract_lets +onlyGivenNames x; first | (with_reducible refine Keeps.cut (x := x) ?_ ?_; rotate_left; (try clear_value x); (intro _; skip); rotate_right; subst x) | subst x)
    | with_reducible assumption | exact h5 | exact h6 | exact h7 | exact h9 | exact h11 | exact h12 | exact h13 | exact h14 | exact h17 | exact h20 | with_reducible apply State.rawEnd_keeps | with_reducible apply State.bump_keeps | with_reducible apply State.updCmd_keeps | with_reducible apply State.post_keeps | with_reducible apply State.readDown_keeps | with_reducible apply State.placeAll_keeps | with_reducible apply State.abandonStripe_keeps | with_reducible apply State.enqueue_keeps
    | (intro _; skip) | split
    | (dsimp only; skip)
    | (with_reducible refine Keeps.lit rfl rfl ?_; first | with_reducible assumption | exact h5 | exact h6 | exact h7 | exact h9 | exact h11 | exact h12 | exact h13 | exact h14 | exact h17 | exact h20 | with_reducible apply State.rawEnd_keeps | with_reducible apply State.bump_keeps | with_reducible apply State.updCmd_keeps | with_reducible apply State.post_keeps | with_reducible apply State.readDown_keeps | with_reducible apply State.placeAll_keeps | with_reducible apply State.abandonStripe_keeps | with_reducible apply State.enqueue_keeps | (split; skip))

theorem State.opAbort_keeps {ps : Part → Prop} {a1 : Op} {s0 s : State} (h5 : ps (.regs 5)) (h6 : ps (.regs 6)) (h7 : ps (.regs 7)) (h9 : ps (.regs 9)) (h11 : ps (.regs 11)) (h12 : ps (.regs 12)) (h13 : ps (.regs 13)) (h14 : ps (.regs 14)) (h17 : ps (.regs 17)) (h20 : ps (.regs 20)) (h_cry : ps .cry) (h_dck : ps .dck) (h_evt : ps .evt) (h_fab : ps .fab) (h_fresh : ps .fresh) (h_gens : ps .gens) (h_hbm : ps .hbm) (h_lve : ps .lve) (h_med : ps .med) (h_noc : ps .noc) (h_out : ps .out) (h_pci : ps .pci) (h_qqp : ps .qqp) (h_spm : ps .spm) (h_tly : ps .tly) (h : Keeps ps s0 s) : Keeps ps s0 (State.opAbort s a1) := by
  unfold State.opAbort
  repeat' first
    | (extract_lets +onlyGivenNames x; first | (with_reducible refine Keeps.cut (x := x) ?_ ?_; rotate_left; (try clear_value x); (intro _; skip); rotate_right; subst x) | subst x)
    | with_reducible assumption | exact h5 | exact h6 | exact h7 | exact h9 | exact h11 | exact h12 | exact h13 | exact h14 | exact h17 | exact h20 | with_reducible apply State.rawEnd_keeps | with_reducible apply State.abandonStripe_keeps | with_reducible apply State.enqueue_keeps | with_reducible apply State.bump_keeps
    | (intro _; skip) | split
    | (dsimp only; skip)
    | (with_reducible refine Keeps.lit rfl rfl ?_; first | with_reducible assumption | exact h5 | exact h6 | exact h7 | exact h9 | exact h11 | exact h12 | exact h13 | exact h14 | exact h17 | exact h20 | with_reducible apply State.rawEnd_keeps | with_reducible apply State.abandonStripe_keeps | with_reducible apply State.enqueue_keeps | with_reducible apply State.bump_keeps | (split; skip))

theorem State.lunReset_keeps {ps : Part → Prop} {a1 a2 : Nat} {s0 s : State} (h5 : ps (.regs 5)) (h6 : ps (.regs 6)) (h7 : ps (.regs 7)) (h9 : ps (.regs 9)) (h11 : ps (.regs 11)) (h12 : ps (.regs 12)) (h13 : ps (.regs 13)) (h14 : ps (.regs 14)) (h17 : ps (.regs 17)) (h20 : ps (.regs 20)) (h_cry : ps .cry) (h_dck : ps .dck) (h_evt : ps .evt) (h_fab : ps .fab) (h_fresh : ps .fresh) (h_gens : ps .gens) (h_hbm : ps .hbm) (h_lve : ps .lve) (h_med : ps .med) (h_noc : ps .noc) (h_out : ps .out) (h_pci : ps .pci) (h_qqp : ps .qqp) (h_spm : ps .spm) (h_tly : ps .tly) (h : Keeps ps s0 s) : Keeps ps s0 (State.lunReset s a1 a2) := by
  unfold State.lunReset
  repeat' first
    | (extract_lets +onlyGivenNames x; first | (with_reducible refine Keeps.cut (x := x) ?_ ?_; rotate_left; (try clear_value x); (intro _; skip); rotate_right; subst x) | subst x)
    | with_reducible assumption | exact h5 | exact h6 | exact h7 | exact h9 | exact h11 | exact h12 | exact h13 | exact h14 | exact h17 | exact h20 | with_reducible apply State.putLunSt_keeps | with_reducible apply State.updLun_keeps | with_reducible apply State.opAbort_keeps | with_reducible apply Keeps.foldl | with_reducible apply Keeps.foldlFst
    | (intro _; skip) | split
    | (dsimp only; skip)
    | (with_reducible refine Keeps.lit rfl rfl ?_; first | with_reducible assumption | exact h5 | exact h6 | exact h7 | exact h9 | exact h11 | exact h12 | exact h13 | exact h14 | exact h17 | exact h20 | with_reducible apply State.putLunSt_keeps | with_reducible apply State.updLun_keeps | with_reducible apply State.opAbort_keeps | with_reducible apply Keeps.foldl | with_reducible apply Keeps.foldlFst | (split; skip))

theorem State.selVolume_keeps {ps : Part → Prop} {a1 a2 : Nat} {s0 s : State} (h_med : ps .med) (h : Keeps ps s0 s) : Keeps ps s0 (State.selVolume s a1 a2) := by
  unfold State.selVolume
  repeat' first
    | with_reducible assumption | with_reducible apply State.updChan_keeps
    | (intro _; skip) | split
    | (dsimp only; skip)
    | (with_reducible refine Keeps.lit rfl rfl ?_; first | with_reducible assumption | with_reducible apply State.updChan_keeps | (split; skip))

theorem State.runOps_keeps {ps : Part → Prop} {a1 a2 : Nat} {a3 : List Op} {a4 : Nat} {s0 s : State} (h9 : ps (.regs 9)) (h_med : ps .med) (h : Keeps ps s0 s) : Keeps ps s0 (State.runOps s a1 a2 a3 a4) := by
  unfold State.runOps
  repeat' first
    | (extract_lets +onlyGivenNames x; first | (with_reducible refine Keeps.cut (x := x) ?_ ?_; rotate_left; (try clear_value x); (intro _; skip); rotate_right; subst x) | subst x)
    | with_reducible assumption | exact h9 | with_reducible apply State.selVolume_keeps | with_reducible apply State.updLun_keeps | with_reducible apply State.bump_keeps | with_reducible apply State.putLunSt_keeps
    | (intro _; skip) | split
    | (dsimp only; skip)
    | (with_reducible refine Keeps.lit rfl rfl ?_; first | with_reducible assumption | exact h9 | with_reducible apply State.selVolume_keeps | with_reducible apply State.updLun_keeps | with_reducible apply State.bump_keeps | with_reducible apply State.putLunSt_keeps | (split; skip))

theorem State.rawRefuse_keeps {ps : Part → Prop} {a1 a2 a3 a4 : Nat} {a5 : Raw} {s0 s : State} (h5 : ps (.regs 5)) (h6 : ps (.regs 6)) (h9 : ps (.regs 9)) (h11 : ps (.regs 11)) (h12 : ps (.regs 12)) (h13 : ps (.regs 13)) (h14 : ps (.regs 14)) (h17 : ps (.regs 17)) (h20 : ps (.regs 20)) (h_cry : ps .cry) (h_dck : ps .dck) (h_evt : ps .evt) (h_fab : ps .fab) (h_fresh : ps .fresh) (h_gens : ps .gens) (h_hbm : ps .hbm) (h_lve : ps .lve) (h_noc : ps .noc) (h_out : ps .out) (h_pci : ps .pci) (h_qqp : ps .qqp) (h_spm : ps .spm) (h_tly : ps .tly) (h : Keeps ps s0 s) : Keeps ps s0 (State.rawRefuse s a1 a2 a3 a4 a5) := by
  unfold State.rawRefuse
  repeat' first
    | with_reducible assumption | exact h5 | exact h6 | exact h9 | exact h11 | exact h12 | exact h13 | exact h14 | exact h17 | exact h20 | with_reducible apply State.rawResult_keeps | with_reducible apply State.post_keeps | with_reducible apply State.bump_keeps
    | (intro _; skip) | split
    | (dsimp only; skip)

theorem State.rawFelled_keeps {ps : Part → Prop} {a1 a2 : Nat} {s0 s : State} (h5 : ps (.regs 5)) (h6 : ps (.regs 6)) (h9 : ps (.regs 9)) (h11 : ps (.regs 11)) (h12 : ps (.regs 12)) (h13 : ps (.regs 13)) (h14 : ps (.regs 14)) (h17 : ps (.regs 17)) (h20 : ps (.regs 20)) (h_cry : ps .cry) (h_dck : ps .dck) (h_evt : ps .evt) (h_fab : ps .fab) (h_fresh : ps .fresh) (h_gens : ps .gens) (h_hbm : ps .hbm) (h_lve : ps .lve) (h_med : ps .med) (h_noc : ps .noc) (h_out : ps .out) (h_pci : ps .pci) (h_qqp : ps .qqp) (h_spm : ps .spm) (h_tly : ps .tly) (h : Keeps ps s0 s) : Keeps ps s0 (State.rawFelled s a1 a2) := by
  unfold State.rawFelled
  repeat' first
    | (extract_lets +onlyGivenNames x; first | (with_reducible refine Keeps.cut (x := x) ?_ ?_; rotate_left; (try clear_value x); (intro _; skip); rotate_right; subst x) | subst x)
    | with_reducible assumption | exact h5 | exact h6 | exact h9 | exact h11 | exact h12 | exact h13 | exact h14 | exact h17 | exact h20 | with_reducible apply State.updLun_keeps | with_reducible apply State.rawRefuse_keeps
    | (intro _; skip) | split
    | (dsimp only; skip)
    | (with_reducible refine Keeps.lit rfl rfl ?_; first | with_reducible assumption | exact h5 | exact h6 | exact h9 | exact h11 | exact h12 | exact h13 | exact h14 | exact h17 | exact h20 | with_reducible apply State.updLun_keeps | with_reducible apply State.rawRefuse_keeps | (split; skip))

theorem State.lunIssue_keeps {ps : Part → Prop} {a1 a2 : Nat} {a3 : Bool} {a4 : RawEnd} {s0 s : State} (h5 : ps (.regs 5)) (h6 : ps (.regs 6)) (h9 : ps (.regs 9)) (h11 : ps (.regs 11)) (h12 : ps (.regs 12)) (h13 : ps (.regs 13)) (h14 : ps (.regs 14)) (h17 : ps (.regs 17)) (h20 : ps (.regs 20)) (h_cry : ps .cry) (h_dck : ps .dck) (h_evt : ps .evt) (h_fab : ps .fab) (h_fresh : ps .fresh) (h_gens : ps .gens) (h_hbm : ps .hbm) (h_lve : ps .lve) (h_med : ps .med) (h_noc : ps .noc) (h_out : ps .out) (h_pci : ps .pci) (h_qqp : ps .qqp) (h_spm : ps .spm) (h_tly : ps .tly) (h : Keeps ps s0 s) : Keeps ps s0 (State.lunIssue s a1 a2 a3 a4) := by
  unfold State.lunIssue
  repeat' first
    | (extract_lets +onlyGivenNames x; first | (with_reducible refine Keeps.cut (x := x) ?_ ?_; rotate_left; (try clear_value x); (intro _; skip); rotate_right; subst x) | subst x)
    | with_reducible assumption | exact h5 | exact h6 | exact h9 | exact h11 | exact h12 | exact h13 | exact h14 | exact h17 | exact h20 | with_reducible apply State.rawFelled_keeps | with_reducible apply State.updLun_keeps | with_reducible apply State.runOps_keeps | with_reducible apply State.put_keeps | with_reducible apply State.rawEnd_keeps
    | (intro _; skip) | split
    | (dsimp only; skip)
    | (with_reducible refine Keeps.lit rfl rfl ?_; first | with_reducible assumption | exact h5 | exact h6 | exact h9 | exact h11 | exact h12 | exact h13 | exact h14 | exact h17 | exact h20 | with_reducible apply State.rawFelled_keeps | with_reducible apply State.updLun_keeps | with_reducible apply State.runOps_keeps | with_reducible apply State.put_keeps | with_reducible apply State.rawEnd_keeps | (split; skip))

theorem execLunIssue_keeps {ps : Part → Prop} {s : State} {a1 a2 : Nat} {a3 : Bool} {a4 : RawEnd} (h5 : ps (.regs 5)) (h6 : ps (.regs 6)) (h9 : ps (.regs 9)) (h11 : ps (.regs 11)) (h12 : ps (.regs 12)) (h13 : ps (.regs 13)) (h14 : ps (.regs 14)) (h17 : ps (.regs 17)) (h20 : ps (.regs 20)) (h_cry : ps .cry) (h_dck : ps .dck) (h_evt : ps .evt) (h_fab : ps .fab) (h_fresh : ps .fresh) (h_gens : ps .gens) (h_hbm : ps .hbm) (h_lve : ps .lve) (h_med : ps .med) (h_noc : ps .noc) (h_out : ps .out) (h_pci : ps .pci) (h_qqp : ps .qqp) (h_spm : ps .spm) (h_tly : ps .tly) : ∀ r, (execLunIssue a1 a2 a3 a4 s) = .next r → Keeps ps s r := by
  intro r e
  cases e
  have h := Keeps.refl (ps := ps) s
  repeat' first
    | with_reducible assumption | exact h5 | exact h6 | exact h9 | exact h11 | exact h12 | exact h13 | exact h14 | exact h17 | exact h20 | with_reducible apply State.when_keeps | with_reducible apply State.lunIssue_keeps
    | (intro _; skip) | split
    | (dsimp only; skip)

theorem execSuspend_keeps {ps : Part → Prop} {s : State} {a1 a2 : Nat} (h9 : ps (.regs 9)) : ∀ r, (execSuspend a1 a2 s) = .next r → Keeps ps s r := by
  intro r e
  cases e
  have h := Keeps.refl (ps := ps) s
  repeat' first
    | (extract_lets +onlyGivenNames x; first | (with_reducible refine Keeps.cut (x := x) ?_ ?_; rotate_left; (try clear_value x); (intro _; skip); rotate_right; subst x) | subst x)
    | with_reducible assumption | exact h9 | with_reducible apply State.when_keeps | with_reducible apply State.putLunSt_keeps
    | (intro _; skip) | split
    | (dsimp only; skip)
    | (with_reducible refine Keeps.lit rfl rfl ?_; first | with_reducible assumption | exact h9 | with_reducible apply State.when_keeps | with_reducible apply State.putLunSt_keeps | (split; skip))

theorem State.lunResume_keeps {ps : Part → Prop} {a1 a2 : Nat} {s0 s : State} (h9 : ps (.regs 9)) (h_med : ps .med) (h : Keeps ps s0 s) : Keeps ps s0 (State.lunResume s a1 a2) := by
  unfold State.lunResume
  repeat' first
    | (extract_lets +onlyGivenNames x; first | (with_reducible refine Keeps.cut (x := x) ?_ ?_; rotate_left; (try clear_value x); (intro _; skip); rotate_right; subst x) | subst x)
    | with_reducible assumption | exact h9 | with_reducible apply State.putLunSt_keeps | with_reducible apply State.updLun_keeps
    | (intro _; skip) | split
    | (dsimp only; skip)
    | (with_reducible refine Keeps.lit rfl rfl ?_; first | with_reducible assumption | exact h9 | with_reducible apply State.putLunSt_keeps | with_reducible apply State.updLun_keeps | (split; skip))

theorem execOperationResume_keeps {ps : Part → Prop} {s : State} {a1 a2 : Nat} (h9 : ps (.regs 9)) (h_med : ps .med) : ∀ r, (execOperationResume a1 a2 s) = .next r → Keeps ps s r := by
  intro r e
  cases e
  have h := Keeps.refl (ps := ps) s
  repeat' first
    | (extract_lets +onlyGivenNames x; first | (with_reducible refine Keeps.cut (x := x) ?_ ?_; rotate_left; (try clear_value x); (intro _; skip); rotate_right; subst x) | subst x)
    | with_reducible assumption | exact h9 | with_reducible apply State.when_keeps | with_reducible apply State.lunResume_keeps
    | (intro _; skip) | split
    | (dsimp only; skip)

theorem State.lunSuspended_keeps {ps : Part → Prop} {a1 a2 : Nat} {s0 s : State} (h9 : ps (.regs 9)) (h_med : ps .med) (h : Keeps ps s0 s) : Keeps ps s0 (State.lunSuspended s a1 a2) := by
  unfold State.lunSuspended
  repeat' first
    | (extract_lets +onlyGivenNames x; first | (with_reducible refine Keeps.cut (x := x) ?_ ?_; rotate_left; (try clear_value x); (intro _; skip); rotate_right; subst x) | subst x)
    | with_reducible assumption | exact h9 | with_reducible apply State.updLun_keeps | with_reducible apply State.bump_keeps | with_reducible apply State.put_keeps | with_reducible apply State.putLunSt_keeps
    | (intro _; skip) | split
    | (dsimp only; skip)
    | (with_reducible refine Keeps.lit rfl rfl ?_; first | with_reducible assumption | exact h9 | with_reducible apply State.updLun_keeps | with_reducible apply State.bump_keeps | with_reducible apply State.put_keeps | with_reducible apply State.putLunSt_keeps | (split; skip))

theorem State.lunReady_keeps {ps : Part → Prop} {a1 a2 : Nat} {a3 : List Nat} {a4 : Bool} {a5 : RawEnd} {s0 s : State} (h5 : ps (.regs 5)) (h6 : ps (.regs 6)) (h7 : ps (.regs 7)) (h9 : ps (.regs 9)) (h11 : ps (.regs 11)) (h12 : ps (.regs 12)) (h13 : ps (.regs 13)) (h14 : ps (.regs 14)) (h17 : ps (.regs 17)) (h20 : ps (.regs 20)) (h_cry : ps .cry) (h_dck : ps .dck) (h_evt : ps .evt) (h_fab : ps .fab) (h_fresh : ps .fresh) (h_gens : ps .gens) (h_hbm : ps .hbm) (h_lve : ps .lve) (h_med : ps .med) (h_noc : ps .noc) (h_out : ps .out) (h_pci : ps .pci) (h_qqp : ps .qqp) (h_spm : ps .spm) (h_tly : ps .tly) (h : Keeps ps s0 s) : Keeps ps s0 (State.lunReady s a1 a2 a3 a4 a5) := by
  unfold State.lunReady
  repeat' first
    | (extract_lets +onlyGivenNames x; first | (with_reducible refine Keeps.cut (x := x) ?_ ?_; rotate_left; (try clear_value x); (intro _; skip); rotate_right; subst x) | subst x)
    | with_reducible assumption | exact h5 | exact h6 | exact h7 | exact h9 | exact h11 | exact h12 | exact h13 | exact h14 | exact h17 | exact h20 | with_reducible apply State.putLunSt_keeps | with_reducible apply State.updLun_keeps | with_reducible apply State.lunSuspended_keeps | with_reducible apply State.opDone_keeps | with_reducible apply State.bump_keeps | with_reducible apply State.runOps_keeps | with_reducible apply Keeps.foldl | with_reducible apply Keeps.foldlFst
    | (intro _; skip) | split
    | (dsimp only; skip)
    | (with_reducible refine Keeps.lit rfl rfl ?_; first | with_reducible assumption | exact h5 | exact h6 | exact h7 | exact h9 | exact h11 | exact h12 | exact h13 | exact h14 | exact h17 | exact h20 | with_reducible apply State.putLunSt_keeps | with_reducible apply State.updLun_keeps | with_reducible apply State.lunSuspended_keeps | with_reducible apply State.opDone_keeps | with_reducible apply State.bump_keeps | with_reducible apply State.runOps_keeps | with_reducible apply Keeps.foldl | with_reducible apply Keeps.foldlFst | (split; skip))

theorem execLunStatusReady_keeps {ps : Part → Prop} {s : State} {a1 a2 : Nat} {a3 : List Nat} {a4 : Bool} {a5 : RawEnd} (h5 : ps (.regs 5)) (h6 : ps (.regs 6)) (h7 : ps (.regs 7)) (h9 : ps (.regs 9)) (h11 : ps (.regs 11)) (h12 : ps (.regs 12)) (h13 : ps (.regs 13)) (h14 : ps (.regs 14)) (h17 : ps (.regs 17)) (h20 : ps (.regs 20)) (h_cry : ps .cry) (h_dck : ps .dck) (h_evt : ps .evt) (h_fab : ps .fab) (h_fresh : ps .fresh) (h_gens : ps .gens) (h_hbm : ps .hbm) (h_lve : ps .lve) (h_med : ps .med) (h_noc : ps .noc) (h_out : ps .out) (h_pci : ps .pci) (h_qqp : ps .qqp) (h_spm : ps .spm) (h_tly : ps .tly) : ∀ r, (execLunStatusReady a1 a2 a3 a4 a5 s) = .next r → Keeps ps s r := by
  intro r e
  cases e
  have h := Keeps.refl (ps := ps) s
  repeat' first
    | with_reducible assumption | exact h5 | exact h6 | exact h7 | exact h9 | exact h11 | exact h12 | exact h13 | exact h14 | exact h17 | exact h20 | with_reducible apply State.when_keeps | with_reducible apply State.rawFlush_keeps | with_reducible apply State.lunReady_keeps
    | (intro _; skip) | split
    | (dsimp only; skip)

theorem execLunTimeout_keeps {ps : Part → Prop} {s : State} {a1 a2 : Nat} (h5 : ps (.regs 5)) (h6 : ps (.regs 6)) (h7 : ps (.regs 7)) (h9 : ps (.regs 9)) (h11 : ps (.regs 11)) (h12 : ps (.regs 12)) (h13 : ps (.regs 13)) (h14 : ps (.regs 14)) (h17 : ps (.regs 17)) (h20 : ps (.regs 20)) (h_cry : ps .cry) (h_dck : ps .dck) (h_evt : ps .evt) (h_fab : ps .fab) (h_fresh : ps .fresh) (h_gens : ps .gens) (h_hbm : ps .hbm) (h_lve : ps .lve) (h_med : ps .med) (h_noc : ps .noc) (h_out : ps .out) (h_pci : ps .pci) (h_qqp : ps .qqp) (h_spm : ps .spm) (h_tly : ps .tly) : ∀ r, (execLunTimeout a1 a2 s) = .next r → Keeps ps s r := by
  intro r e
  cases e
  have h := Keeps.refl (ps := ps) s
  repeat' first
    | (extract_lets +onlyGivenNames x; first | (with_reducible refine Keeps.cut (x := x) ?_ ?_; rotate_left; (try clear_value x); (intro _; skip); rotate_right; subst x) | subst x)
    | with_reducible assumption | exact h5 | exact h6 | exact h7 | exact h9 | exact h11 | exact h12 | exact h13 | exact h14 | exact h17 | exact h20 | with_reducible apply State.when_keeps | with_reducible apply State.post_keeps | with_reducible apply State.put_keeps | with_reducible apply State.rawFlush_keeps | with_reducible apply State.placeAll_keeps | with_reducible apply State.fellLun_keeps | with_reducible apply State.putLunSt_keeps | with_reducible apply State.updLun_keeps | with_reducible apply State.opDown_keeps | with_reducible apply Keeps.foldl | with_reducible apply Keeps.foldlFst
    | (intro _; skip) | split
    | (dsimp only; skip)
    | (with_reducible refine Keeps.lit rfl rfl ?_; first | with_reducible assumption | exact h5 | exact h6 | exact h7 | exact h9 | exact h11 | exact h12 | exact h13 | exact h14 | exact h17 | exact h20 | with_reducible apply State.when_keeps | with_reducible apply State.post_keeps | with_reducible apply State.put_keeps | with_reducible apply State.rawFlush_keeps | with_reducible apply State.placeAll_keeps | with_reducible apply State.fellLun_keeps | with_reducible apply State.putLunSt_keeps | with_reducible apply State.updLun_keeps | with_reducible apply State.opDown_keeps | with_reducible apply Keeps.foldl | with_reducible apply Keeps.foldlFst | (split; skip))

end Sys2Proof.Machine
end

