-- ==== Sys2Proof/Laws/Reads.lean ====
section
/-! SUPPORT. What each operation and each meaning of Machine/Reads.lean keeps (Keeps): one lemma a definition. -/

-- The package as one text is checked in one process: its proofs are checked one after another, and its linters keep quiet.
set_option Elab.async false
set_option linter.all false

namespace Sys2Proof.Machine
open Sys2Proof

theorem State.undercutNext_keeps {ps : Part → Prop} {a1 : Op} {a2 a3 : Nat} {s0 s : State} (h9 : ps (.regs 9)) (h_med : ps .med) (h : Keeps ps s0 s) : Keeps ps s0 (State.undercutNext s a1 a2 a3) := by
  unfold State.undercutNext
  repeat' first
    | (extract_lets +onlyGivenNames x; first | (with_reducible refine Keeps.cut (x := x) ?_ ?_; rotate_left; (try clear_value x); (intro _; skip); rotate_right; subst x) | subst x)
    | with_reducible assumption | exact h9 | with_reducible apply State.bump_keeps | with_reducible apply State.enqueue_keeps
    | (intro _; skip) | split
    | (dsimp only; skip)
    | (with_reducible refine Keeps.lit rfl rfl ?_; first | with_reducible assumption | exact h9 | with_reducible apply State.bump_keeps | with_reducible apply State.enqueue_keeps | (split; skip))

theorem State.transferred_keeps {ps : Part → Prop} {a1 : Nat} {a2 : Bool} {s0 s : State} (h_med : ps .med) (h : Keeps ps s0 s) : Keeps ps s0 (State.transferred s a1 a2) := by
  unfold State.transferred
  repeat' first
    | with_reducible assumption | with_reducible apply State.updChan_keeps
    | (intro _; skip) | split
    | (dsimp only; skip)
    | (with_reducible refine Keeps.lit rfl rfl ?_; first | with_reducible assumption | with_reducible apply State.updChan_keeps | (split; skip))

theorem State.senseNext_keeps {ps : Part → Prop} {a1 : Op} {s0 s : State} (h_med : ps .med) (h : Keeps ps s0 s) : Keeps ps s0 (State.senseNext s a1) := by
  unfold State.senseNext
  repeat' first
    | (extract_lets +onlyGivenNames x; first | (with_reducible refine Keeps.cut (x := x) ?_ ?_; rotate_left; (try clear_value x); (intro _; skip); rotate_right; subst x) | subst x)
    | with_reducible assumption | with_reducible apply State.enqueue_keeps
    | (intro _; skip) | split
    | (dsimp only; skip)
    | (with_reducible refine Keeps.lit rfl rfl ?_; first | with_reducible assumption | with_reducible apply State.enqueue_keeps | (split; skip))

theorem execBusTransferDone_keeps {ps : Part → Prop} {s : State} {a1 a2 : Nat} {a3 : BusEnd} (h9 : ps (.regs 9)) (h_med : ps .med) : ∀ r, (execBusTransferDone a1 a2 a3 s) = .next r → Keeps ps s r := by
  intro r e
  cases e
  have h := Keeps.refl (ps := ps) s
  repeat' first
    | (extract_lets +onlyGivenNames x; first | (with_reducible refine Keeps.cut (x := x) ?_ ?_; rotate_left; (try clear_value x); (intro _; skip); rotate_right; subst x) | subst x)
    | with_reducible assumption | exact h9 | with_reducible apply State.when_keeps | with_reducible apply State.transferred_keeps | with_reducible apply State.feed_keeps | with_reducible apply State.senseNext_keeps | with_reducible apply State.undercutNext_keeps
    | (intro _; skip) | split
    | (dsimp only; skip)
    | (with_reducible refine Keeps.lit rfl rfl ?_; first | with_reducible assumption | exact h9 | with_reducible apply State.when_keeps | with_reducible apply State.transferred_keeps | with_reducible apply State.feed_keeps | with_reducible apply State.senseNext_keeps | with_reducible apply State.undercutNext_keeps | (split; skip))

theorem State.refreshAt_keeps {ps : Part → Prop} {a1 : Nat} {s0 s : State} (h6 : ps (.regs 6)) (h9 : ps (.regs 9)) (h17 : ps (.regs 17)) (h_dck : ps .dck) (h_evt : ps .evt) (h_med : ps .med) (h_out : ps .out) (h_pci : ps .pci) (h : Keeps ps s0 s) : Keeps ps s0 (State.refreshAt s a1) := by
  unfold State.refreshAt
  repeat' first
    | with_reducible assumption | exact h6 | exact h9 | exact h17 | with_reducible apply State.refresh_keeps
    | (intro _; skip) | split
    | (dsimp only; skip)
    | (with_reducible refine Keeps.lit rfl rfl ?_; first | with_reducible assumption | exact h6 | exact h9 | exact h17 | with_reducible apply State.refresh_keeps | (split; skip))

theorem State.decoded_keeps {ps : Part → Prop} {a1 : Op} {a2 : SecRes} {s0 s : State} (h6 : ps (.regs 6)) (h9 : ps (.regs 9)) (h17 : ps (.regs 17)) (h_dck : ps .dck) (h_evt : ps .evt) (h_med : ps .med) (h_out : ps .out) (h_pci : ps .pci) (h : Keeps ps s0 s) : Keeps ps s0 (State.decoded s a1 a2) := by
  unfold State.decoded
  repeat' first
    | (extract_lets +onlyGivenNames x; first | (with_reducible refine Keeps.cut (x := x) ?_ ?_; rotate_left; (try clear_value x); (intro _; skip); rotate_right; subst x) | subst x)
    | with_reducible assumption | exact h6 | exact h9 | exact h17 | with_reducible apply State.updBte_keeps | with_reducible apply State.updStripe_keeps | with_reducible apply State.refreshAt_keeps
    | (intro _; skip) | split
    | (dsimp only; skip)
    | (with_reducible refine Keeps.lit rfl rfl ?_; first | with_reducible assumption | exact h6 | exact h9 | exact h17 | with_reducible apply State.updBte_keeps | with_reducible apply State.updStripe_keeps | with_reducible apply State.refreshAt_keeps | (split; skip))

theorem State.poisonIu_keeps {ps : Part → Prop} {a1 a2 a3 : Nat} {s0 s : State} (h7 : ps (.regs 7)) (h9 : ps (.regs 9)) (h11 : ps (.regs 11)) (h17 : ps (.regs 17)) (h20 : ps (.regs 20)) (h_evt : ps .evt) (h_gens : ps .gens) (h_lve : ps .lve) (h_med : ps .med) (h_out : ps .out) (h_pci : ps .pci) (h_qqp : ps .qqp) (h_tly : ps .tly) (h : Keeps ps s0 s) : Keeps ps s0 (State.poisonIu s a1 a2 a3) := by
  unfold State.poisonIu
  repeat' first
    | (extract_lets +onlyGivenNames x; first | (with_reducible refine Keeps.cut (x := x) ?_ ?_; rotate_left; (try clear_value x); (intro _; skip); rotate_right; subst x) | subst x)
    | with_reducible assumption | exact h7 | exact h9 | exact h11 | exact h17 | exact h20 | with_reducible apply State.setEntry_keeps | with_reducible apply State.journalMirrored_keeps | with_reducible apply State.journal_keeps | with_reducible apply State.lowerValid_keeps | with_reducible apply State.put_keeps
    | (intro _; skip) | split
    | (dsimp only; skip)
    | (with_reducible refine Keeps.lit rfl rfl ?_; first | with_reducible assumption | exact h7 | exact h9 | exact h11 | exact h17 | exact h20 | with_reducible apply State.setEntry_keeps | with_reducible apply State.journalMirrored_keeps | with_reducible apply State.journal_keeps | with_reducible apply State.lowerValid_keeps | with_reducible apply State.put_keeps | (split; skip))

theorem State.markDegraded_keeps {ps : Part → Prop} {a1 a2 a3 : Nat} {s0 s : State} (h7 : ps (.regs 7)) (h_tly : ps .tly) (h : Keeps ps s0 s) : Keeps ps s0 (State.markDegraded s a1 a2 a3) := by
  unfold State.markDegraded
  repeat' first
    | (extract_lets +onlyGivenNames x; first | (with_reducible refine Keeps.cut (x := x) ?_ ?_; rotate_left; (try clear_value x); (intro _; skip); rotate_right; subst x) | subst x)
    | with_reducible assumption | exact h7 | with_reducible apply State.setEntry_keeps
    | (intro _; skip) | split
    | (dsimp only; skip)

theorem State.relocSector_keeps {ps : Part → Prop} {a1 a2 : Nat} {a3 : SecRes} {s0 s : State} (h6 : ps (.regs 6)) (h7 : ps (.regs 7)) (h9 : ps (.regs 9)) (h11 : ps (.regs 11)) (h17 : ps (.regs 17)) (h20 : ps (.regs 20)) (h_dck : ps .dck) (h_evt : ps .evt) (h_gens : ps .gens) (h_lve : ps .lve) (h_med : ps .med) (h_out : ps .out) (h_pci : ps .pci) (h_qqp : ps .qqp) (h_tly : ps .tly) (h : Keeps ps s0 s) : Keeps ps s0 (State.relocSector s a1 a2 a3) := by
  unfold State.relocSector
  repeat' first
    | (extract_lets +onlyGivenNames x; first | (with_reducible refine Keeps.cut (x := x) ?_ ?_; rotate_left; (try clear_value x); (intro _; skip); rotate_right; subst x) | subst x)
    | with_reducible assumption | exact h6 | exact h7 | exact h9 | exact h11 | exact h17 | exact h20 | with_reducible apply State.poisonIu_keeps | with_reducible apply State.placeMoves_keeps
    | (intro _; skip) | split
    | (dsimp only; skip)
    | (with_reducible refine Keeps.lit rfl rfl ?_; first | with_reducible assumption | exact h6 | exact h7 | exact h9 | exact h11 | exact h17 | exact h20 | with_reducible apply State.poisonIu_keeps | with_reducible apply State.placeMoves_keeps | (split; skip))

theorem State.deliver_keeps {ps : Part → Prop} {a1 : Op} {a2 : List SecRes} {s0 s : State} (h6 : ps (.regs 6)) (h7 : ps (.regs 7)) (h9 : ps (.regs 9)) (h11 : ps (.regs 11)) (h17 : ps (.regs 17)) (h20 : ps (.regs 20)) (h_dck : ps .dck) (h_evt : ps .evt) (h_gens : ps .gens) (h_lve : ps .lve) (h_med : ps .med) (h_out : ps .out) (h_pci : ps .pci) (h_qqp : ps .qqp) (h_tly : ps .tly) (h : Keeps ps s0 s) : Keeps ps s0 (State.deliver s a1 a2) := by
  unfold State.deliver
  repeat' first
    | (extract_lets +onlyGivenNames x; first | (with_reducible refine Keeps.cut (x := x) ?_ ?_; rotate_left; (try clear_value x); (intro _; skip); rotate_right; subst x) | subst x)
    | with_reducible assumption | exact h6 | exact h7 | exact h9 | exact h11 | exact h17 | exact h20 | with_reducible apply State.updCmd_keeps | with_reducible apply State.mergeDone_keeps | with_reducible apply State.updLine_keeps | with_reducible apply State.updLoad_keeps | with_reducible apply State.relocSector_keeps | with_reducible apply Keeps.foldl | with_reducible apply Keeps.foldlFst
    | (intro _; skip) | split
    | (dsimp only; skip)
    | (with_reducible refine Keeps.lit rfl rfl ?_; first | with_reducible assumption | exact h6 | exact h7 | exact h9 | exact h11 | exact h17 | exact h20 | with_reducible apply State.updCmd_keeps | with_reducible apply State.mergeDone_keeps | with_reducible apply State.updLine_keeps | with_reducible apply State.updLoad_keeps | with_reducible apply State.relocSector_keeps | with_reducible apply Keeps.foldl | with_reducible apply Keeps.foldlFst | (split; skip))

theorem State.readEnd_keeps {ps : Part → Prop} {a1 : Op} {s0 s : State} (h6 : ps (.regs 6)) (h9 : ps (.regs 9)) (h17 : ps (.regs 17)) (h_dck : ps .dck) (h_evt : ps .evt) (h_fresh : ps .fresh) (h_med : ps .med) (h_out : ps .out) (h_pci : ps .pci) (h_qqp : ps .qqp) (h : Keeps ps s0 s) : Keeps ps s0 (State.readEnd s a1) := by
  unfold State.readEnd
  repeat' first
    | with_reducible assumption | exact h6 | exact h9 | exact h17 | with_reducible apply State.relocStep_keeps
    | (intro _; skip) | split
    | (dsimp only; skip)
    | (with_reducible refine Keeps.lit rfl rfl ?_; first | with_reducible assumption | exact h6 | exact h9 | exact h17 | with_reducible apply State.relocStep_keeps | (split; skip))

theorem State.dropRead_keeps {ps : Part → Prop} {a1 : Rd} {s0 s : State} (h_med : ps .med) (h : Keeps ps s0 s) : Keeps ps s0 (State.dropRead s a1) := by
  unfold State.dropRead
  repeat' first
    | with_reducible assumption
    | (intro _; skip) | split
    | (dsimp only; skip)
    | (with_reducible refine Keeps.lit rfl rfl ?_; first | with_reducible assumption | (split; skip))

theorem State.ladderNext_keeps {ps : Part → Prop} {a1 : Op} {a2 : List Nat} {s0 s : State} (h9 : ps (.regs 9)) (h_med : ps .med) (h : Keeps ps s0 s) : Keeps ps s0 (State.ladderNext s a1 a2) := by
  unfold State.ladderNext
  repeat' first
    | (extract_lets +onlyGivenNames x; first | (with_reducible refine Keeps.cut (x := x) ?_ ?_; rotate_left; (try clear_value x); (intro _; skip); rotate_right; subst x) | subst x)
    | with_reducible assumption | exact h9 | with_reducible apply State.cancelUndercuts_keeps | with_reducible apply State.senseNext_keeps | with_reducible apply State.enqueue_keeps | with_reducible apply State.bump_keeps | with_reducible apply State.undercutNext_keeps
    | (intro _; skip) | split
    | (dsimp only; skip)
    | (with_reducible refine Keeps.lit rfl rfl ?_; first | with_reducible assumption | exact h9 | with_reducible apply State.cancelUndercuts_keeps | with_reducible apply State.senseNext_keeps | with_reducible apply State.enqueue_keeps | with_reducible apply State.bump_keeps | with_reducible apply State.undercutNext_keeps | (split; skip))

theorem execHardDecodeDone_keeps {ps : Part → Prop} {s : State} {a1 a2 : Nat} {a3 : List SecRes} (h6 : ps (.regs 6)) (h7 : ps (.regs 7)) (h9 : ps (.regs 9)) (h11 : ps (.regs 11)) (h17 : ps (.regs 17)) (h20 : ps (.regs 20)) (h_dck : ps .dck) (h_evt : ps .evt) (h_fresh : ps .fresh) (h_gens : ps .gens) (h_lve : ps .lve) (h_med : ps .med) (h_out : ps .out) (h_pci : ps .pci) (h_qqp : ps .qqp) (h_tly : ps .tly) : ∀ r, (execHardDecodeDone a1 a2 a3 s) = .next r → Keeps ps s r := by
  intro r e
  cases e
  have h := Keeps.refl (ps := ps) s
  repeat' first
    | (extract_lets +onlyGivenNames x; first | (with_reducible refine Keeps.cut (x := x) ?_ ?_; rotate_left; (try clear_value x); (intro _; skip); rotate_right; subst x) | subst x)
    | with_reducible assumption | exact h6 | exact h7 | exact h9 | exact h11 | exact h17 | exact h20 | with_reducible apply State.when_keeps | with_reducible apply State.feed_keeps | with_reducible apply State.bump_keeps | with_reducible apply State.dropRead_keeps | with_reducible apply State.decoded_keeps | with_reducible apply State.deliver_keeps | with_reducible apply State.ladderNext_keeps | with_reducible apply State.cancelUndercuts_keeps | with_reducible apply State.refreshAt_keeps | with_reducible apply State.readEnd_keeps | with_reducible apply Keeps.foldl | with_reducible apply Keeps.foldlFst
    | (intro _; skip) | split
    | (dsimp only; skip)
    | (with_reducible refine Keeps.lit rfl rfl ?_; first | with_reducible assumption | exact h6 | exact h7 | exact h9 | exact h11 | exact h17 | exact h20 | with_reducible apply State.when_keeps | with_reducible apply State.feed_keeps | with_reducible apply State.bump_keeps | with_reducible apply State.dropRead_keeps | with_reducible apply State.decoded_keeps | with_reducible apply State.deliver_keeps | with_reducible apply State.ladderNext_keeps | with_reducible apply State.cancelUndercuts_keeps | with_reducible apply State.refreshAt_keeps | with_reducible apply State.readEnd_keeps | with_reducible apply Keeps.foldl | with_reducible apply Keeps.foldlFst | (split; skip))

theorem State.softSector_keeps {ps : Part → Prop} {a1 : Op} {a2 : Bool} {a3 : SecRes} {s0 s : State} (h6 : ps (.regs 6)) (h7 : ps (.regs 7)) (h9 : ps (.regs 9)) (h11 : ps (.regs 11)) (h17 : ps (.regs 17)) (h20 : ps (.regs 20)) (h_dck : ps .dck) (h_evt : ps .evt) (h_gens : ps .gens) (h_lve : ps .lve) (h_med : ps .med) (h_out : ps .out) (h_pci : ps .pci) (h_qqp : ps .qqp) (h_tly : ps .tly) (h : Keeps ps s0 s) : Keeps ps s0 (State.softSector s a1 a2 a3) := by
  unfold State.softSector
  repeat' first
    | (extract_lets +onlyGivenNames x; first | (with_reducible refine Keeps.cut (x := x) ?_ ?_; rotate_left; (try clear_value x); (intro _; skip); rotate_right; subst x) | subst x)
    | with_reducible assumption | exact h6 | exact h7 | exact h9 | exact h11 | exact h17 | exact h20 | with_reducible apply State.decoded_keeps | with_reducible apply State.bump_keeps | with_reducible apply State.markDegraded_keeps | with_reducible apply State.post_keeps | with_reducible apply State.poisonIu_keeps
    | (intro _; skip) | split
    | (dsimp only; skip)
    | (with_reducible refine Keeps.lit rfl rfl ?_; first | with_reducible assumption | exact h6 | exact h7 | exact h9 | exact h11 | exact h17 | exact h20 | with_reducible apply State.decoded_keeps | with_reducible apply State.bump_keeps | with_reducible apply State.markDegraded_keeps | with_reducible apply State.post_keeps | with_reducible apply State.poisonIu_keeps | (split; skip))

theorem execSoftDecodeDone_keeps {ps : Part → Prop} {s : State} {a1 : Nat} {a2 : List SecRes} (h6 : ps (.regs 6)) (h7 : ps (.regs 7)) (h9 : ps (.regs 9)) (h11 : ps (.regs 11)) (h17 : ps (.regs 17)) (h20 : ps (.regs 20)) (h_dck : ps .dck) (h_evt : ps .evt) (h_fresh : ps .fresh) (h_gens : ps .gens) (h_lve : ps .lve) (h_med : ps .med) (h_out : ps .out) (h_pci : ps .pci) (h_qqp : ps .qqp) (h_tly : ps .tly) : ∀ r, (execSoftDecodeDone a1 a2 s) = .next r → Keeps ps s r := by
  intro r e
  cases e
  have h := Keeps.refl (ps := ps) s
  repeat' first
    | (extract_lets +onlyGivenNames x; first | (with_reducible refine Keeps.cut (x := x) ?_ ?_; rotate_left; (try clear_value x); (intro _; skip); rotate_right; subst x) | subst x)
    | with_reducible assumption | exact h6 | exact h7 | exact h9 | exact h11 | exact h17 | exact h20 | with_reducible apply State.when_keeps | with_reducible apply State.feed_keeps | with_reducible apply State.bump_keeps | with_reducible apply State.dropRead_keeps | with_reducible apply State.softSector_keeps | with_reducible apply State.readEnd_keeps | with_reducible apply State.deliver_keeps | with_reducible apply State.refreshAt_keeps | with_reducible apply Keeps.foldl | with_reducible apply Keeps.foldlFst
    | (intro _; skip) | split
    | (dsimp only; skip)
    | (with_reducible refine Keeps.lit rfl rfl ?_; first | with_reducible assumption | exact h6 | exact h7 | exact h9 | exact h11 | exact h17 | exact h20 | with_reducible apply State.when_keeps | with_reducible apply State.feed_keeps | with_reducible apply State.bump_keeps | with_reducible apply State.dropRead_keeps | with_reducible apply State.softSector_keeps | with_reducible apply State.readEnd_keeps | with_reducible apply State.deliver_keeps | with_reducible apply State.refreshAt_keeps | with_reducible apply Keeps.foldl | with_reducible apply Keeps.foldlFst | (split; skip))

theorem State.patrolAsk_keeps {ps : Part → Prop} {a1 : Nat} {s0 s : State} (h_fresh : ps .fresh) (h_med : ps .med) (h : Keeps ps s0 s) : Keeps ps s0 (State.patrolAsk s a1) := by
  unfold State.patrolAsk
  repeat' first
    | (extract_lets +onlyGivenNames x; first | (with_reducible refine Keeps.cut (x := x) ?_ ?_; rotate_left; (try clear_value x); (intro _; skip); rotate_right; subst x) | subst x)
    | with_reducible assumption | with_reducible apply State.askSectors_keeps | with_reducible apply State.drawn_keeps | with_reducible apply Keeps.foldl | with_reducible apply Keeps.foldlFst
    | (intro _; skip) | split
    | (dsimp only; skip)

theorem State.patrolAge_keeps {ps : Part → Prop} {a1 : Nat} {s0 s : State} (h6 : ps (.regs 6)) (h9 : ps (.regs 9)) (h17 : ps (.regs 17)) (h_dck : ps .dck) (h_evt : ps .evt) (h_med : ps .med) (h_out : ps .out) (h_pci : ps .pci) (h : Keeps ps s0 s) : Keeps ps s0 (State.patrolAge s a1) := by
  unfold State.patrolAge
  repeat' first
    | (extract_lets +onlyGivenNames x; first | (with_reducible refine Keeps.cut (x := x) ?_ ?_; rotate_left; (try clear_value x); (intro _; skip); rotate_right; subst x) | subst x)
    | with_reducible assumption | exact h6 | exact h9 | exact h17 | with_reducible apply State.refresh_keeps | with_reducible apply Keeps.foldl | with_reducible apply Keeps.foldlFst
    | (intro _; skip) | split
    | (dsimp only; skip)

theorem State.patrolWear_keeps {ps : Part → Prop} {a1 : Nat} {s0 s : State} (h6 : ps (.regs 6)) (h17 : ps (.regs 17)) (h_dck : ps .dck) (h_evt : ps .evt) (h_med : ps .med) (h_out : ps .out) (h_pci : ps .pci) (h : Keeps ps s0 s) : Keeps ps s0 (State.patrolWear s a1) := by
  unfold State.patrolWear
  repeat' first
    | (extract_lets +onlyGivenNames x; first | (with_reducible refine Keeps.cut (x := x) ?_ ?_; rotate_left; (try clear_value x); (intro _; skip); rotate_right; subst x) | subst x)
    | with_reducible assumption | exact h6 | exact h17 | with_reducible apply State.mediaTask_keeps | with_reducible apply State.updStripe_keeps | with_reducible apply Keeps.foldl | with_reducible apply Keeps.foldlFst
    | (intro _; skip) | split
    | (dsimp only; skip)
    | (with_reducible refine Keeps.lit rfl rfl ?_; first | with_reducible assumption | exact h6 | exact h17 | with_reducible apply State.mediaTask_keeps | with_reducible apply State.updStripe_keeps | with_reducible apply Keeps.foldl | with_reducible apply Keeps.foldlFst | (split; skip))

theorem execPatrolVisit_keeps {ps : Part → Prop} {s : State} {a1 : Nat} {a2 : Bool} (h6 : ps (.regs 6)) (h9 : ps (.regs 9)) (h17 : ps (.regs 17)) (h_dck : ps .dck) (h_evt : ps .evt) (h_fresh : ps .fresh) (h_med : ps .med) (h_out : ps .out) (h_pci : ps .pci) : ∀ r, (execPatrolVisit a1 a2 s) = .next r → Keeps ps s r := by
  intro r e
  cases e
  have h := Keeps.refl (ps := ps) s
  repeat' first
    | (extract_lets +onlyGivenNames x; first | (with_reducible refine Keeps.cut (x := x) ?_ ?_; rotate_left; (try clear_value x); (intro _; skip); rotate_right; subst x) | subst x)
    | with_reducible assumption | exact h6 | exact h9 | exact h17 | with_reducible apply State.when_keeps | with_reducible apply State.patrolWear_keeps | with_reducible apply State.patrolAge_keeps | with_reducible apply State.patrolAsk_keeps | with_reducible apply State.put_keeps
    | (intro _; skip) | split
    | (dsimp only; skip)

theorem State.hoursWrite_keeps {ps : Part → Prop} {a1 : Req} {a2 a3 : Nat} {s0 s : State} (h9 : ps (.regs 9)) (h16 : ps (.regs 16)) (h17 : ps (.regs 17)) (h_evt : ps .evt) (h_out : ps .out) (h_pci : ps .pci) (h : Keeps ps s0 s) : Keeps ps s0 (State.hoursWrite s a1 a2 a3) := by
  unfold State.hoursWrite
  repeat' first
    | with_reducible assumption | exact h9 | exact h16 | exact h17 | with_reducible apply State.refuseWrite_keeps | with_reducible apply State.put_keeps
    | (intro _; skip) | split
    | (dsimp only; skip)

theorem execMedHoursWrite_keeps {ps : Part → Prop} {s : State} {a1 : Req} {a2 a3 : Nat} (h9 : ps (.regs 9)) (h16 : ps (.regs 16)) (h17 : ps (.regs 17)) (h_evt : ps .evt) (h_out : ps .out) (h_pci : ps .pci) : ∀ r, (execMedHoursWrite a1 a2 a3 s) = .next r → Keeps ps s r := by
  intro r e
  cases e
  have h := Keeps.refl (ps := ps) s
  repeat' first
    | with_reducible assumption | exact h9 | exact h16 | exact h17 | with_reducible apply State.when_keeps | with_reducible apply State.byReq_keeps | with_reducible apply State.hoursWrite_keeps
    | (intro _; skip) | split
    | (dsimp only; skip)

theorem execMedHoursTick_keeps {ps : Part → Prop} {s : State} {a1 : Nat} (h9 : ps (.regs 9)) : ∀ r, (execMedHoursTick a1 s) = .next r → Keeps ps s r := by
  intro r e
  cases e
  have h := Keeps.refl (ps := ps) s
  repeat' first
    | with_reducible assumption | exact h9 | with_reducible apply State.when_keeps | with_reducible apply State.put_keeps
    | (intro _; skip) | split
    | (dsimp only; skip)

theorem State.trainEnd_keeps {ps : Part → Prop} {a1 : Nat} {a2 : Bool} {s0 s : State} (h5 : ps (.regs 5)) (h6 : ps (.regs 6)) (h7 : ps (.regs 7)) (h9 : ps (.regs 9)) (h11 : ps (.regs 11)) (h12 : ps (.regs 12)) (h13 : ps (.regs 13)) (h14 : ps (.regs 14)) (h17 : ps (.regs 17)) (h20 : ps (.regs 20)) (h_cry : ps .cry) (h_dck : ps .dck) (h_evt : ps .evt) (h_fab : ps .fab) (h_fresh : ps .fresh) (h_gens : ps .gens) (h_hbm : ps .hbm) (h_lve : ps .lve) (h_med : ps .med) (h_noc : ps .noc) (h_out : ps .out) (h_pci : ps .pci) (h_qqp : ps .qqp) (h_spm : ps .spm) (h_tly : ps .tly) (h : Keeps ps s0 s) : Keeps ps s0 (State.trainEnd s a1 a2) := by
  unfold State.trainEnd
  repeat' first
    | (extract_lets +onlyGivenNames x; first | (with_reducible refine Keeps.cut (x := x) ?_ ?_; rotate_left; (try clear_value x); (intro _; skip); rotate_right; subst x) | subst x)
    | with_reducible assumption | exact h5 | exact h6 | exact h7 | exact h9 | exact h11 | exact h12 | exact h13 | exact h14 | exact h17 | exact h20 | with_reducible apply State.updChan_keeps | with_reducible apply State.put_keeps | with_reducible apply State.bump_keeps | with_reducible apply State.rawFlush_keeps | with_reducible apply State.placeAll_keeps | with_reducible apply State.fellChannel_keeps
    | (intro _; skip) | split
    | (dsimp only; skip)
    | (with_reducible refine Keeps.lit rfl rfl ?_; first | with_reducible assumption | exact h5 | exact h6 | exact h7 | exact h9 | exact h11 | exact h12 | exact h13 | exact h14 | exact h17 | exact h20 | with_reducible apply State.updChan_keeps | with_reducible apply State.put_keeps | with_reducible apply State.bump_keeps | with_reducible apply State.rawFlush_keeps | with_reducible apply State.placeAll_keeps | with_reducible apply State.fellChannel_keeps | (split; skip))

theorem execChannelRetrain_keeps {ps : Part → Prop} {s : State} {a1 : Nat} {a2 a3 : Bool} (h5 : ps (.regs 5)) (h6 : ps (.regs 6)) (h7 : ps (.regs 7)) (h9 : ps (.regs 9)) (h11 : ps (.regs 11)) (h12 : ps (.regs 12)) (h13 : ps (.regs 13)) (h14 : ps (.regs 14)) (h17 : ps (.regs 17)) (h20 : ps (.regs 20)) (h_cry : ps .cry) (h_dck : ps .dck) (h_evt : ps .evt) (h_fab : ps .fab) (h_fresh : ps .fresh) (h_gens : ps .gens) (h_hbm : ps .hbm) (h_lve : ps .lve) (h_med : ps .med) (h_noc : ps .noc) (h_out : ps .out) (h_pci : ps .pci) (h_qqp : ps .qqp) (h_spm : ps .spm) (h_tly : ps .tly) : ∀ r, (execChannelRetrain a1 a2 a3 s) = .next r → Keeps ps s r := by
  intro r e
  cases e
  have h := Keeps.refl (ps := ps) s
  repeat' first
    | (extract_lets +onlyGivenNames x; first | (with_reducible refine Keeps.cut (x := x) ?_ ?_; rotate_left; (try clear_value x); (intro _; skip); rotate_right; subst x) | subst x)
    | with_reducible assumption | exact h5 | exact h6 | exact h7 | exact h9 | exact h11 | exact h12 | exact h13 | exact h14 | exact h17 | exact h20 | with_reducible apply State.when_keeps | with_reducible apply State.trainEnd_keeps | with_reducible apply State.updChan_keeps | with_reducible apply State.bump_keeps
    | (intro _; skip) | split
    | (dsimp only; skip)
    | (with_reducible refine Keeps.lit rfl rfl ?_; first | with_reducible assumption | exact h5 | exact h6 | exact h7 | exact h9 | exact h11 | exact h12 | exact h13 | exact h14 | exact h17 | exact h20 | with_reducible apply State.when_keeps | with_reducible apply State.trainEnd_keeps | with_reducible apply State.updChan_keeps | with_reducible apply State.bump_keeps | (split; skip))

theorem execZqShortTimer_keeps {ps : Part → Prop} {s : State} {a1 : Nat} (h_out : ps .out) : ∀ r, (execZqShortTimer a1 s) = .next r → Keeps ps s r := by
  intro r e
  cases e
  have h := Keeps.refl (ps := ps) s
  repeat' first
    | (extract_lets +onlyGivenNames x; first | (with_reducible refine Keeps.cut (x := x) ?_ ?_; rotate_left; (try clear_value x); (intro _; skip); rotate_right; subst x) | subst x)
    | with_reducible assumption | with_reducible apply State.when_keeps
    | (intro _; skip) | split
    | (dsimp only; skip)
    | (with_reducible refine Keeps.lit rfl rfl ?_; first | with_reducible assumption | with_reducible apply State.when_keeps | (split; skip))

theorem State.setTemp_keeps {ps : Part → Prop} {a1 a2 : Nat} {a3 : Int} {s0 s : State} (h_med : ps .med) (h : Keeps ps s0 s) : Keeps ps s0 (State.setTemp s a1 a2 a3) := by
  unfold State.setTemp
  repeat' first
    | (extract_lets +onlyGivenNames x; first | (with_reducible refine Keeps.cut (x := x) ?_ ?_; rotate_left; (try clear_value x); (intro _; skip); rotate_right; subst x) | subst x)
    | with_reducible assumption | with_reducible apply State.updLun_keeps | with_reducible apply Keeps.foldl | with_reducible apply Keeps.foldlFst
    | (intro _; skip) | split
    | (dsimp only; skip)
    | (with_reducible refine Keeps.lit rfl rfl ?_; first | with_reducible assumption | with_reducible apply State.updLun_keeps | with_reducible apply Keeps.foldl | with_reducible apply Keeps.foldlFst | (split; skip))

theorem execNandTemperatureRead_keeps {ps : Part → Prop} {s : State} {a1 a2 : Nat} {a3 : Int} (h_med : ps .med) : ∀ r, (execNandTemperatureRead a1 a2 a3 s) = .next r → Keeps ps s r := by
  intro r e
  cases e
  have h := Keeps.refl (ps := ps) s
  repeat' first
    | with_reducible assumption | with_reducible apply State.when_keeps | with_reducible apply State.setTemp_keeps
    | (intro _; skip) | split
    | (dsimp only; skip)

theorem execRetryBackoffExpires_keeps {ps : Part → Prop} {s : State} {a1 : RetryOf} (h5 : ps (.regs 5)) (h6 : ps (.regs 6)) (h7 : ps (.regs 7)) (h9 : ps (.regs 9)) (h11 : ps (.regs 11)) (h12 : ps (.regs 12)) (h13 : ps (.regs 13)) (h14 : ps (.regs 14)) (h16 : ps (.regs 16)) (h17 : ps (.regs 17)) (h20 : ps (.regs 20)) (h_cry : ps .cry) (h_dck : ps .dck) (h_evt : ps .evt) (h_fab : ps .fab) (h_fresh : ps .fresh) (h_gens : ps .gens) (h_hbm : ps .hbm) (h_lve : ps .lve) (h_med : ps .med) (h_noc : ps .noc) (h_out : ps .out) (h_pci : ps .pci) (h_qqp : ps .qqp) (h_spm : ps .spm) (h_tly : ps .tly) : ∀ r, (execRetryBackoffExpires a1 s) = .next r → Keeps ps s r := by
  intro r e
  cases e
  have h := Keeps.refl (ps := ps) s
  repeat' first
    | with_reducible assumption | exact h5 | exact h6 | exact h7 | exact h9 | exact h11 | exact h12 | exact h13 | exact h14 | exact h16 | exact h17 | exact h20 | with_reducible apply State.when_keeps | with_reducible apply State.retryTask_keeps | with_reducible apply State.rawFlush_keeps | with_reducible apply State.placeAll_keeps | with_reducible apply State.retryOp_keeps | with_reducible apply State.trainEnd_keeps | with_reducible apply State.bump_keeps | with_reducible apply State.retrySkid_keeps
    | (intro _; skip) | split
    | (dsimp only; skip)
    | (with_reducible refine Keeps.lit rfl rfl ?_; first | with_reducible assumption | exact h5 | exact h6 | exact h7 | exact h9 | exact h11 | exact h12 | exact h13 | exact h14 | exact h16 | exact h17 | exact h20 | with_reducible apply State.when_keeps | with_reducible apply State.retryTask_keeps | with_reducible apply State.rawFlush_keeps | with_reducible apply State.placeAll_keeps | with_reducible apply State.retryOp_keeps | with_reducible apply State.trainEnd_keeps | with_reducible apply State.bump_keeps | with_reducible apply State.retrySkid_keeps | (split; skip))

end Sys2Proof.Machine
end

