-- ==== Sys2Proof/Laws/Groups.lean ====
section
/-! SUPPORT. What each operation and each meaning of Machine/Groups.lean keeps (Keeps): one lemma a definition. -/

-- The package as one text is checked in one process: its proofs are checked one after another, and its linters keep quiet.
set_option Elab.async false
set_option linter.all false

namespace Sys2Proof.Machine
open Sys2Proof

theorem State.setGst_keeps {ps : Part → Prop} {a1 a2 : Nat} {s0 s : State} (h9 : ps (.regs 9)) (h : Keeps ps s0 s) : Keeps ps s0 (State.setGst s a1 a2) := by
  unfold State.setGst
  repeat' first
    | (extract_lets +onlyGivenNames x; first | (with_reducible refine Keeps.cut (x := x) ?_ ?_; rotate_left; (try clear_value x); (intro _; skip); rotate_right; subst x) | subst x)
    | with_reducible assumption | exact h9 | with_reducible apply State.put_keeps
    | (intro _; skip) | split
    | (dsimp only; skip)

theorem State.drive_keeps {ps : Part → Prop} {a1 : Nat} {a2 : Bool} {s0 s : State} (h9 : ps (.regs 9)) (h : Keeps ps s0 s) : Keeps ps s0 (State.drive s a1 a2) := by
  unfold State.drive
  repeat' first
    | with_reducible assumption | exact h9 | with_reducible apply State.flag_keeps
    | (intro _; skip) | split
    | (dsimp only; skip)

theorem State.driversOn_keeps {ps : Part → Prop} {a1 : Nat} {s0 s : State} (h5 : ps (.regs 5)) (h6 : ps (.regs 6)) (h7 : ps (.regs 7)) (h9 : ps (.regs 9)) (h11 : ps (.regs 11)) (h12 : ps (.regs 12)) (h13 : ps (.regs 13)) (h14 : ps (.regs 14)) (h17 : ps (.regs 17)) (h20 : ps (.regs 20)) (h_cry : ps .cry) (h_dck : ps .dck) (h_evt : ps .evt) (h_fab : ps .fab) (h_fresh : ps .fresh) (h_gens : ps .gens) (h_hbm : ps .hbm) (h_lve : ps .lve) (h_med : ps .med) (h_noc : ps .noc) (h_out : ps .out) (h_pci : ps .pci) (h_qqp : ps .qqp) (h_spm : ps .spm) (h_tly : ps .tly) (h : Keeps ps s0 s) : Keeps ps s0 (State.driversOn s a1) := by
  unfold State.driversOn
  repeat' first
    | (extract_lets +onlyGivenNames x; first | (with_reducible refine Keeps.cut (x := x) ?_ ?_; rotate_left; (try clear_value x); (intro _; skip); rotate_right; subst x) | subst x)
    | with_reducible assumption | exact h5 | exact h6 | exact h7 | exact h9 | exact h11 | exact h12 | exact h13 | exact h14 | exact h17 | exact h20 | with_reducible apply State.updChan_keeps | with_reducible apply State.put_keeps | with_reducible apply State.lunReset_keeps | with_reducible apply Keeps.foldl | with_reducible apply Keeps.foldlFst
    | (intro _; skip) | split
    | (dsimp only; skip)

theorem State.driversOff_keeps {ps : Part → Prop} {a1 : Nat} {s0 s : State} (h9 : ps (.regs 9)) (h : Keeps ps s0 s) : Keeps ps s0 (State.driversOff s a1) := by
  unfold State.driversOff
  repeat' first
    | (extract_lets +onlyGivenNames x; first | (with_reducible refine Keeps.cut (x := x) ?_ ?_; rotate_left; (try clear_value x); (intro _; skip); rotate_right; subst x) | subst x)
    | with_reducible assumption | exact h9 | with_reducible apply State.put_keeps | with_reducible apply Keeps.foldl | with_reducible apply Keeps.foldlFst
    | (intro _; skip) | split
    | (dsimp only; skip)

theorem State.groupGone_keeps {ps : Part → Prop} {a1 : Nat} {s0 s : State} (h9 : ps (.regs 9)) (h_med : ps .med) (h : Keeps ps s0 s) : Keeps ps s0 (State.groupGone s a1) := by
  unfold State.groupGone
  repeat' first
    | (extract_lets +onlyGivenNames x; first | (with_reducible refine Keeps.cut (x := x) ?_ ?_; rotate_left; (try clear_value x); (intro _; skip); rotate_right; subst x) | subst x)
    | with_reducible assumption | exact h9 | with_reducible apply State.putLunSt_keeps | with_reducible apply Keeps.foldl | with_reducible apply Keeps.foldlFst
    | (intro _; skip) | split
    | (dsimp only; skip)
    | (with_reducible refine Keeps.lit rfl rfl ?_; first | with_reducible assumption | exact h9 | with_reducible apply State.putLunSt_keeps | with_reducible apply Keeps.foldl | with_reducible apply Keeps.foldlFst | (split; skip))

theorem State.claimOp_keeps {ps : Part → Prop} {a1 : Req} {a2 : Nat} {s0 s : State} (h4 : ps (.regs 4)) (h9 : ps (.regs 9)) (h16 : ps (.regs 16)) (h17 : ps (.regs 17)) (h_evt : ps .evt) (h_med : ps .med) (h_out : ps .out) (h_pci : ps .pci) (h_pwr : ps .pwr) (h : Keeps ps s0 s) : Keeps ps s0 (State.claimOp s a1 a2) := by
  unfold State.claimOp
  repeat' first
    | (extract_lets +onlyGivenNames x; first | (with_reducible refine Keeps.cut (x := x) ?_ ?_; rotate_left; (try clear_value x); (intro _; skip); rotate_right; subst x) | subst x)
    | with_reducible assumption | exact h4 | exact h9 | exact h16 | exact h17 | with_reducible apply State.polUp_keeps | with_reducible apply State.refuseWrite_keeps | with_reducible apply State.updGrp_keeps | with_reducible apply State.setGst_keeps
    | (intro _; skip) | split
    | (dsimp only; skip)
    | (with_reducible refine Keeps.lit rfl rfl ?_; first | with_reducible assumption | exact h4 | exact h9 | exact h16 | exact h17 | with_reducible apply State.polUp_keeps | with_reducible apply State.refuseWrite_keeps | with_reducible apply State.updGrp_keeps | with_reducible apply State.setGst_keeps | (split; skip))

theorem State.claimDue_keeps {ps : Part → Prop} {a1 : Nat} {s0 s : State} (h4 : ps (.regs 4)) (h9 : ps (.regs 9)) (h16 : ps (.regs 16)) (h17 : ps (.regs 17)) (h_evt : ps .evt) (h_lve : ps .lve) (h_med : ps .med) (h_out : ps .out) (h_pci : ps .pci) (h_pwr : ps .pwr) (h : Keeps ps s0 s) : Keeps ps s0 (State.claimDue s a1) := by
  unfold State.claimDue
  repeat' first
    | with_reducible assumption | exact h4 | exact h9 | exact h16 | exact h17 | with_reducible apply State.claimOp_keeps
    | (intro _; skip) | split
    | (dsimp only; skip)
    | (with_reducible refine Keeps.lit rfl rfl ?_; first | with_reducible assumption | exact h4 | exact h9 | exact h16 | exact h17 | with_reducible apply State.claimOp_keeps | (split; skip))

theorem execClaim_keeps {ps : Part → Prop} {s : State} {a1 : Req} {a2 : Nat} (h4 : ps (.regs 4)) (h9 : ps (.regs 9)) (h16 : ps (.regs 16)) (h17 : ps (.regs 17)) (h_evt : ps .evt) (h_med : ps .med) (h_out : ps .out) (h_pci : ps .pci) (h_pwr : ps .pwr) : ∀ r, (execClaim a1 a2 s) = .next r → Keeps ps s r := by
  intro r e
  cases e
  have h := Keeps.refl (ps := ps) s
  repeat' first
    | with_reducible assumption | exact h4 | exact h9 | exact h16 | exact h17 | with_reducible apply State.when_keeps | with_reducible apply State.byReq_keeps | with_reducible apply State.claimOp_keeps
    | (intro _; skip) | split
    | (dsimp only; skip)

theorem State.arbStart_keeps {ps : Part → Prop} {a1 : Nat} {s0 s : State} (h9 : ps (.regs 9)) (h_med : ps .med) (h : Keeps ps s0 s) : Keeps ps s0 (State.arbStart s a1) := by
  unfold State.arbStart
  repeat' first
    | with_reducible assumption | exact h9 | with_reducible apply State.updGrp_keeps | with_reducible apply State.drive_keeps | with_reducible apply State.setGst_keeps
    | (intro _; skip) | split
    | (dsimp only; skip)
    | (with_reducible refine Keeps.lit rfl rfl ?_; first | with_reducible assumption | exact h9 | with_reducible apply State.updGrp_keeps | with_reducible apply State.drive_keeps | with_reducible apply State.setGst_keeps | (split; skip))

theorem execMgOwnWireLow_keeps {ps : Part → Prop} {s : State} {a1 : Nat} {a2 : Bool} (h9 : ps (.regs 9)) (h_med : ps .med) : ∀ r, (execMgOwnWireLow a1 a2 s) = .next r → Keeps ps s r := by
  intro r e
  cases e
  have h := Keeps.refl (ps := ps) s
  repeat' first
    | (extract_lets +onlyGivenNames x; first | (with_reducible refine Keeps.cut (x := x) ?_ ?_; rotate_left; (try clear_value x); (intro _; skip); rotate_right; subst x) | subst x)
    | with_reducible assumption | exact h9 | with_reducible apply State.updGrp_keeps | with_reducible apply State.when_keeps | with_reducible apply State.arbStart_keeps | with_reducible apply State.setGst_keeps
    | (intro _; skip) | split
    | (dsimp only; skip)
    | (with_reducible refine Keeps.lit rfl rfl ?_; first | with_reducible assumption | exact h9 | with_reducible apply State.updGrp_keeps | with_reducible apply State.when_keeps | with_reducible apply State.arbStart_keeps | with_reducible apply State.setGst_keeps | (split; skip))

theorem execMgOwnWireHigh_keeps {ps : Part → Prop} {s : State} {a1 : Nat} (h9 : ps (.regs 9)) (h_med : ps .med) : ∀ r, (execMgOwnWireHigh a1 s) = .next r → Keeps ps s r := by
  intro r e
  cases e
  have h := Keeps.refl (ps := ps) s
  repeat' first
    | (extract_lets +onlyGivenNames x; first | (with_reducible refine Keeps.cut (x := x) ?_ ?_; rotate_left; (try clear_value x); (intro _; skip); rotate_right; subst x) | subst x)
    | with_reducible assumption | exact h9 | with_reducible apply State.updGrp_keeps | with_reducible apply State.when_keeps | with_reducible apply State.setGst_keeps
    | (intro _; skip) | split
    | (dsimp only; skip)
    | (with_reducible refine Keeps.lit rfl rfl ?_; first | with_reducible assumption | exact h9 | with_reducible apply State.updGrp_keeps | with_reducible apply State.when_keeps | with_reducible apply State.setGst_keeps | (split; skip))

theorem execMgOwnQuietTimer_keeps {ps : Part → Prop} {s : State} {a1 : Nat} (h4 : ps (.regs 4)) (h9 : ps (.regs 9)) (h16 : ps (.regs 16)) (h17 : ps (.regs 17)) (h_evt : ps .evt) (h_lve : ps .lve) (h_med : ps .med) (h_out : ps .out) (h_pci : ps .pci) (h_pwr : ps .pwr) : ∀ r, (execMgOwnQuietTimer a1 s) = .next r → Keeps ps s r := by
  intro r e
  cases e
  have h := Keeps.refl (ps := ps) s
  repeat' first
    | with_reducible assumption | exact h4 | exact h9 | exact h16 | exact h17 | with_reducible apply State.when_keeps | with_reducible apply State.claimDue_keeps | with_reducible apply State.setGst_keeps | with_reducible apply State.arbStart_keeps
    | (intro _; skip) | split
    | (dsimp only; skip)
    | (with_reducible refine Keeps.lit rfl rfl ?_; first | with_reducible assumption | exact h4 | exact h9 | exact h16 | exact h17 | with_reducible apply State.when_keeps | with_reducible apply State.claimDue_keeps | with_reducible apply State.setGst_keeps | with_reducible apply State.arbStart_keeps | (split; skip))

theorem execArbitrationSlot_keeps {ps : Part → Prop} {s : State} {a1 : Nat} {a2 : Bool} (h9 : ps (.regs 9)) (h17 : ps (.regs 17)) (h_evt : ps .evt) (h_med : ps .med) (h_out : ps .out) (h_pci : ps .pci) : ∀ r, (execArbitrationSlot a1 a2 s) = .next r → Keeps ps s r := by
  intro r e
  cases e
  have h := Keeps.refl (ps := ps) s
  repeat' first
    | (extract_lets +onlyGivenNames x; first | (with_reducible refine Keeps.cut (x := x) ?_ ?_; rotate_left; (try clear_value x); (intro _; skip); rotate_right; subst x) | subst x)
    | with_reducible assumption | exact h9 | exact h17 | with_reducible apply State.when_keeps | with_reducible apply State.drive_keeps | with_reducible apply State.updGrp_keeps | with_reducible apply State.setGst_keeps | with_reducible apply State.post_keeps | with_reducible apply State.bump_keeps
    | (intro _; skip) | split
    | (dsimp only; skip)
    | (with_reducible refine Keeps.lit rfl rfl ?_; first | with_reducible assumption | exact h9 | exact h17 | with_reducible apply State.when_keeps | with_reducible apply State.drive_keeps | with_reducible apply State.updGrp_keeps | with_reducible apply State.setGst_keeps | with_reducible apply State.post_keeps | with_reducible apply State.bump_keeps | (split; skip))

theorem execArbitrationComplete_keeps {ps : Part → Prop} {s : State} {a1 : Nat} (h9 : ps (.regs 9)) (h_med : ps .med) : ∀ r, (execArbitrationComplete a1 s) = .next r → Keeps ps s r := by
  intro r e
  cases e
  have h := Keeps.refl (ps := ps) s
  repeat' first
    | with_reducible assumption | exact h9 | with_reducible apply State.when_keeps | with_reducible apply State.updGrp_keeps | with_reducible apply State.drive_keeps | with_reducible apply State.setGst_keeps
    | (intro _; skip) | split
    | (dsimp only; skip)
    | (with_reducible refine Keeps.lit rfl rfl ?_; first | with_reducible assumption | exact h9 | with_reducible apply State.when_keeps | with_reducible apply State.updGrp_keeps | with_reducible apply State.drive_keeps | with_reducible apply State.setGst_keeps | (split; skip))

theorem execDriverEnableDelay_keeps {ps : Part → Prop} {s : State} {a1 : Nat} (h5 : ps (.regs 5)) (h6 : ps (.regs 6)) (h7 : ps (.regs 7)) (h9 : ps (.regs 9)) (h11 : ps (.regs 11)) (h12 : ps (.regs 12)) (h13 : ps (.regs 13)) (h14 : ps (.regs 14)) (h17 : ps (.regs 17)) (h20 : ps (.regs 20)) (h_cry : ps .cry) (h_dck : ps .dck) (h_evt : ps .evt) (h_fab : ps .fab) (h_fresh : ps .fresh) (h_gens : ps .gens) (h_hbm : ps .hbm) (h_lve : ps .lve) (h_med : ps .med) (h_noc : ps .noc) (h_out : ps .out) (h_pci : ps .pci) (h_qqp : ps .qqp) (h_spm : ps .spm) (h_tly : ps .tly) : ∀ r, (execDriverEnableDelay a1 s) = .next r → Keeps ps s r := by
  intro r e
  cases e
  have h := Keeps.refl (ps := ps) s
  repeat' first
    | (extract_lets +onlyGivenNames x; first | (with_reducible refine Keeps.cut (x := x) ?_ ?_; rotate_left; (try clear_value x); (intro _; skip); rotate_right; subst x) | subst x)
    | with_reducible assumption | exact h5 | exact h6 | exact h7 | exact h9 | exact h11 | exact h12 | exact h13 | exact h14 | exact h17 | exact h20 | with_reducible apply State.when_keeps | with_reducible apply State.updGrp_keeps | with_reducible apply State.driversOn_keeps | with_reducible apply State.post_keeps | with_reducible apply State.bump_keeps
    | (intro _; skip) | split
    | (dsimp only; skip)
    | (with_reducible refine Keeps.lit rfl rfl ?_; first | with_reducible assumption | exact h5 | exact h6 | exact h7 | exact h9 | exact h11 | exact h12 | exact h13 | exact h14 | exact h17 | exact h20 | with_reducible apply State.when_keeps | with_reducible apply State.updGrp_keeps | with_reducible apply State.driversOn_keeps | with_reducible apply State.post_keeps | with_reducible apply State.bump_keeps | (split; skip))

theorem execForceWaitExpires_keeps {ps : Part → Prop} {s : State} {a1 : Nat} (h5 : ps (.regs 5)) (h6 : ps (.regs 6)) (h7 : ps (.regs 7)) (h9 : ps (.regs 9)) (h11 : ps (.regs 11)) (h12 : ps (.regs 12)) (h13 : ps (.regs 13)) (h14 : ps (.regs 14)) (h17 : ps (.regs 17)) (h20 : ps (.regs 20)) (h_cry : ps .cry) (h_dck : ps .dck) (h_evt : ps .evt) (h_fab : ps .fab) (h_fresh : ps .fresh) (h_gens : ps .gens) (h_hbm : ps .hbm) (h_lve : ps .lve) (h_med : ps .med) (h_noc : ps .noc) (h_out : ps .out) (h_pci : ps .pci) (h_qqp : ps .qqp) (h_spm : ps .spm) (h_tly : ps .tly) : ∀ r, (execForceWaitExpires a1 s) = .next r → Keeps ps s r := by
  intro r e
  cases e
  have h := Keeps.refl (ps := ps) s
  repeat' first
    | (extract_lets +onlyGivenNames x; first | (with_reducible refine Keeps.cut (x := x) ?_ ?_; rotate_left; (try clear_value x); (intro _; skip); rotate_right; subst x) | subst x)
    | with_reducible assumption | exact h5 | exact h6 | exact h7 | exact h9 | exact h11 | exact h12 | exact h13 | exact h14 | exact h17 | exact h20 | with_reducible apply State.when_keeps | with_reducible apply State.put_keeps | with_reducible apply State.drive_keeps | with_reducible apply State.setGst_keeps | with_reducible apply State.driversOn_keeps | with_reducible apply State.post_keeps | with_reducible apply State.bump_keeps
    | (intro _; skip) | split
    | (dsimp only; skip)

theorem State.chanUp_keeps {ps : Part → Prop} {a1 : Nat} {a2 : ChanUp} {s0 s : State} (h6 : ps (.regs 6)) (h7 : ps (.regs 7)) (h9 : ps (.regs 9)) (h11 : ps (.regs 11)) (h17 : ps (.regs 17)) (h20 : ps (.regs 20)) (h_dck : ps .dck) (h_evt : ps .evt) (h_gens : ps .gens) (h_lve : ps .lve) (h_med : ps .med) (h_out : ps .out) (h_pci : ps .pci) (h_tly : ps .tly) (h : Keeps ps s0 s) : Keeps ps s0 (State.chanUp s a1 a2) := by
  unfold State.chanUp
  repeat' first
    | (extract_lets +onlyGivenNames x; first | (with_reducible refine Keeps.cut (x := x) ?_ ?_; rotate_left; (try clear_value x); (intro _; skip); rotate_right; subst x) | subst x)
    | with_reducible assumption | exact h6 | exact h7 | exact h9 | exact h11 | exact h17 | exact h20 | with_reducible apply State.fellChannel_keeps | with_reducible apply State.post_keeps | with_reducible apply State.updLun_keeps | with_reducible apply State.putLunSt_keeps | with_reducible apply State.updChan_keeps | with_reducible apply State.put_keeps | with_reducible apply Keeps.foldl | with_reducible apply Keeps.foldlFst
    | (intro _; skip) | split
    | (dsimp only; skip)
    | (with_reducible refine Keeps.lit rfl rfl ?_; first | with_reducible assumption | exact h6 | exact h7 | exact h9 | exact h11 | exact h17 | exact h20 | with_reducible apply State.fellChannel_keeps | with_reducible apply State.post_keeps | with_reducible apply State.updLun_keeps | with_reducible apply State.putLunSt_keeps | with_reducible apply State.updChan_keeps | with_reducible apply State.put_keeps | with_reducible apply Keeps.foldl | with_reducible apply Keeps.foldlFst | (split; skip))

theorem State.groupTables_keeps {ps : Part → Prop} {a1 : Nat} {a2 : BringUp} {s0 s : State} (h6 : ps (.regs 6)) (h9 : ps (.regs 9)) (h17 : ps (.regs 17)) (h_dck : ps .dck) (h_evt : ps .evt) (h_med : ps .med) (h_out : ps .out) (h_pci : ps .pci) (h : Keeps ps s0 s) : Keeps ps s0 (State.groupTables s a1 a2) := by
  unfold State.groupTables
  repeat' first
    | (extract_lets +onlyGivenNames x; first | (with_reducible refine Keeps.cut (x := x) ?_ ?_; rotate_left; (try clear_value x); (intro _; skip); rotate_right; subst x) | subst x)
    | with_reducible assumption | exact h6 | exact h9 | exact h17 | with_reducible apply State.updBte_keeps | with_reducible apply State.updStripe_keeps | with_reducible apply State.rebuildTask_keeps | with_reducible apply State.wearStats_keeps | with_reducible apply State.countDegraded_keeps | with_reducible apply Keeps.foldl | with_reducible apply Keeps.foldlFst
    | (intro _; skip) | split
    | (dsimp only; skip)
    | (with_reducible refine Keeps.lit rfl rfl ?_; first | with_reducible assumption | exact h6 | exact h9 | exact h17 | with_reducible apply State.updBte_keeps | with_reducible apply State.updStripe_keeps | with_reducible apply State.rebuildTask_keeps | with_reducible apply State.wearStats_keeps | with_reducible apply State.countDegraded_keeps | with_reducible apply Keeps.foldl | with_reducible apply Keeps.foldlFst | (split; skip))

theorem State.anchorSearch_keeps {ps : Part → Prop} {a1 : Nat} {a2 : BringUp} {s0 s : State} (h_med : ps .med) (h : Keeps ps s0 s) : Keeps ps s0 (State.anchorSearch s a1 a2) := by
  unfold State.anchorSearch
  repeat' first
    | (extract_lets +onlyGivenNames x; first | (with_reducible refine Keeps.cut (x := x) ?_ ?_; rotate_left; (try clear_value x); (intro _; skip); rotate_right; subst x) | subst x)
    | with_reducible assumption | with_reducible apply State.updBte_keeps | with_reducible apply State.updGrp_keeps | with_reducible apply Keeps.foldl | with_reducible apply Keeps.foldlFst
    | (intro _; skip) | split
    | (dsimp only; skip)
    | (with_reducible refine Keeps.lit rfl rfl ?_; first | with_reducible assumption | with_reducible apply State.updBte_keeps | with_reducible apply State.updGrp_keeps | with_reducible apply Keeps.foldl | with_reducible apply Keeps.foldlFst | (split; skip))

theorem State.factoryScan_keeps {ps : Part → Prop} {a1 : Nat} {a2 : BringUp} {s0 s : State} (h_med : ps .med) (h : Keeps ps s0 s) : Keeps ps s0 (State.factoryScan s a1 a2) := by
  unfold State.factoryScan
  repeat' first
    | (extract_lets +onlyGivenNames x; first | (with_reducible refine Keeps.cut (x := x) ?_ ?_; rotate_left; (try clear_value x); (intro _; skip); rotate_right; subst x) | subst x)
    | with_reducible assumption | with_reducible apply State.updBte_keeps | with_reducible apply State.enqueue_keeps | with_reducible apply Keeps.foldl | with_reducible apply Keeps.foldlFst
    | (intro _; skip) | split
    | (dsimp only; skip)
    | (with_reducible refine Keeps.lit rfl rfl ?_; first | with_reducible assumption | with_reducible apply State.updBte_keeps | with_reducible apply State.enqueue_keeps | with_reducible apply Keeps.foldl | with_reducible apply Keeps.foldlFst | (split; skip))

theorem State.wideCheck_keeps {ps : Part → Prop} {a1 : Nat} {s0 s : State} (h17 : ps (.regs 17)) (h_evt : ps .evt) (h_med : ps .med) (h_out : ps .out) (h_pci : ps .pci) (h : Keeps ps s0 s) : Keeps ps s0 (State.wideCheck s a1) := by
  unfold State.wideCheck
  repeat' first
    | (extract_lets +onlyGivenNames x; first | (with_reducible refine Keeps.cut (x := x) ?_ ?_; rotate_left; (try clear_value x); (intro _; skip); rotate_right; subst x) | subst x)
    | with_reducible assumption | exact h17 | with_reducible apply State.post_keeps
    | (intro _; skip) | split
    | (dsimp only; skip)
    | (with_reducible refine Keeps.lit rfl rfl ?_; first | with_reducible assumption | exact h17 | with_reducible apply State.post_keeps | (split; skip))

theorem State.groupUp_keeps {ps : Part → Prop} {a1 : Nat} {a2 : BringUp} {s0 s : State} (h5 : ps (.regs 5)) (h6 : ps (.regs 6)) (h7 : ps (.regs 7)) (h9 : ps (.regs 9)) (h11 : ps (.regs 11)) (h12 : ps (.regs 12)) (h13 : ps (.regs 13)) (h14 : ps (.regs 14)) (h17 : ps (.regs 17)) (h20 : ps (.regs 20)) (h_cry : ps .cry) (h_dck : ps .dck) (h_evt : ps .evt) (h_fab : ps .fab) (h_fresh : ps .fresh) (h_gens : ps .gens) (h_hbm : ps .hbm) (h_lve : ps .lve) (h_med : ps .med) (h_noc : ps .noc) (h_out : ps .out) (h_pci : ps .pci) (h_qqp : ps .qqp) (h_spm : ps .spm) (h_tly : ps .tly) (h : Keeps ps s0 s) : Keeps ps s0 (State.groupUp s a1 a2) := by
  unfold State.groupUp
  repeat' first
    | (extract_lets +onlyGivenNames x; first | (with_reducible refine Keeps.cut (x := x) ?_ ?_; rotate_left; (try clear_value x); (intro _; skip); rotate_right; subst x) | subst x)
    | with_reducible assumption | exact h5 | exact h6 | exact h7 | exact h9 | exact h11 | exact h12 | exact h13 | exact h14 | exact h17 | exact h20 | with_reducible apply State.chanUp_keeps | with_reducible apply State.factoryScan_keeps | with_reducible apply State.anchorSearch_keeps | with_reducible apply State.groupTables_keeps | with_reducible apply State.setGst_keeps | with_reducible apply State.wideCheck_keeps | with_reducible apply State.post_keeps | with_reducible apply State.rawFlush_keeps | with_reducible apply State.placeAll_keeps | with_reducible apply State.gcCheck_keeps | with_reducible apply State.refillReserve_keeps | with_reducible apply Keeps.foldl | with_reducible apply Keeps.foldlFst
    | (intro _; skip) | split
    | (dsimp only; skip)

theorem execOwnWireFault_keeps {ps : Part → Prop} {s : State} {a1 : Nat} (h9 : ps (.regs 9)) (h17 : ps (.regs 17)) (h_evt : ps .evt) (h_med : ps .med) (h_out : ps .out) (h_pci : ps .pci) : ∀ r, (execOwnWireFault a1 s) = .next r → Keeps ps s r := by
  intro r e
  cases e
  have h := Keeps.refl (ps := ps) s
  repeat' first
    | (extract_lets +onlyGivenNames x; first | (with_reducible refine Keeps.cut (x := x) ?_ ?_; rotate_left; (try clear_value x); (intro _; skip); rotate_right; subst x) | subst x)
    | with_reducible assumption | exact h9 | exact h17 | with_reducible apply State.when_keeps | with_reducible apply State.drive_keeps | with_reducible apply State.setGst_keeps | with_reducible apply State.driversOff_keeps | with_reducible apply State.post_keeps | with_reducible apply State.updGrp_keeps
    | (intro _; skip) | split
    | (dsimp only; skip)
    | (with_reducible refine Keeps.lit rfl rfl ?_; first | with_reducible assumption | exact h9 | exact h17 | with_reducible apply State.when_keeps | with_reducible apply State.drive_keeps | with_reducible apply State.setGst_keeps | with_reducible apply State.driversOff_keeps | with_reducible apply State.post_keeps | with_reducible apply State.updGrp_keeps | (split; skip))

theorem State.releaseOp_keeps {ps : Part → Prop} {a1 : Req} {a2 : Nat} {s0 s : State} (h5 : ps (.regs 5)) (h6 : ps (.regs 6)) (h7 : ps (.regs 7)) (h9 : ps (.regs 9)) (h11 : ps (.regs 11)) (h12 : ps (.regs 12)) (h13 : ps (.regs 13)) (h14 : ps (.regs 14)) (h16 : ps (.regs 16)) (h17 : ps (.regs 17)) (h20 : ps (.regs 20)) (h_cry : ps .cry) (h_dck : ps .dck) (h_evt : ps .evt) (h_fab : ps .fab) (h_fresh : ps .fresh) (h_gens : ps .gens) (h_hbm : ps .hbm) (h_lve : ps .lve) (h_med : ps .med) (h_noc : ps .noc) (h_out : ps .out) (h_pci : ps .pci) (h_qqp : ps .qqp) (h_spm : ps .spm) (h_tly : ps .tly) (h : Keeps ps s0 s) : Keeps ps s0 (State.releaseOp s a1 a2) := by
  unfold State.releaseOp
  repeat' first
    | (extract_lets +onlyGivenNames x; first | (with_reducible refine Keeps.cut (x := x) ?_ ?_; rotate_left; (try clear_value x); (intro _; skip); rotate_right; subst x) | subst x)
    | with_reducible assumption | exact h5 | exact h6 | exact h7 | exact h9 | exact h11 | exact h12 | exact h13 | exact h14 | exact h16 | exact h17 | exact h20 | with_reducible apply State.refuseWrite_keeps | with_reducible apply State.cancelUndercuts_keeps | with_reducible apply State.setGst_keeps | with_reducible apply State.lunResume_keeps | with_reducible apply State.lunReset_keeps | with_reducible apply Keeps.foldl | with_reducible apply Keeps.foldlFst
    | (intro _; skip) | split
    | (dsimp only; skip)

theorem execRelease_keeps {ps : Part → Prop} {s : State} {a1 : Req} {a2 : Nat} (h5 : ps (.regs 5)) (h6 : ps (.regs 6)) (h7 : ps (.regs 7)) (h9 : ps (.regs 9)) (h11 : ps (.regs 11)) (h12 : ps (.regs 12)) (h13 : ps (.regs 13)) (h14 : ps (.regs 14)) (h16 : ps (.regs 16)) (h17 : ps (.regs 17)) (h20 : ps (.regs 20)) (h_cry : ps .cry) (h_dck : ps .dck) (h_evt : ps .evt) (h_fab : ps .fab) (h_fresh : ps .fresh) (h_gens : ps .gens) (h_hbm : ps .hbm) (h_lve : ps .lve) (h_med : ps .med) (h_noc : ps .noc) (h_out : ps .out) (h_pci : ps .pci) (h_qqp : ps .qqp) (h_spm : ps .spm) (h_tly : ps .tly) : ∀ r, (execRelease a1 a2 s) = .next r → Keeps ps s r := by
  intro r e
  cases e
  have h := Keeps.refl (ps := ps) s
  repeat' first
    | with_reducible assumption | exact h5 | exact h6 | exact h7 | exact h9 | exact h11 | exact h12 | exact h13 | exact h14 | exact h16 | exact h17 | exact h20 | with_reducible apply State.when_keeps | with_reducible apply State.byReq_keeps | with_reducible apply State.releaseOp_keeps
    | (intro _; skip) | split
    | (dsimp only; skip)

theorem State.handGrant_keeps {ps : Part → Prop} {a1 : Nat} {s0 s : State} (h11 : ps (.regs 11)) (h17 : ps (.regs 17)) (h20 : ps (.regs 20)) (h_evt : ps .evt) (h_gens : ps .gens) (h_lve : ps .lve) (h_out : ps .out) (h_pci : ps .pci) (h_tly : ps .tly) (h : Keeps ps s0 s) : Keeps ps s0 (State.handGrant s a1) := by
  unfold State.handGrant
  repeat' first
    | with_reducible assumption | exact h11 | exact h17 | exact h20 | with_reducible apply State.send_keeps
    | (intro _; skip) | split
    | (dsimp only; skip)
    | (with_reducible refine Keeps.lit rfl rfl ?_; first | with_reducible assumption | exact h11 | exact h17 | exact h20 | with_reducible apply State.send_keeps | (split; skip))

theorem State.drainDone_keeps {ps : Part → Prop} {a1 : Nat} {s0 s : State} (h9 : ps (.regs 9)) (h11 : ps (.regs 11)) (h17 : ps (.regs 17)) (h20 : ps (.regs 20)) (h_evt : ps .evt) (h_gens : ps .gens) (h_lve : ps .lve) (h_med : ps .med) (h_out : ps .out) (h_pci : ps .pci) (h_tly : ps .tly) (h : Keeps ps s0 s) : Keeps ps s0 (State.drainDone s a1) := by
  unfold State.drainDone
  repeat' first
    | (extract_lets +onlyGivenNames x; first | (with_reducible refine Keeps.cut (x := x) ?_ ?_; rotate_left; (try clear_value x); (intro _; skip); rotate_right; subst x) | subst x)
    | with_reducible assumption | exact h9 | exact h11 | exact h17 | exact h20 | with_reducible apply State.put_keeps | with_reducible apply State.setGst_keeps | with_reducible apply State.driversOff_keeps | with_reducible apply State.handGrant_keeps | with_reducible apply State.updGrp_keeps | with_reducible apply State.groupGone_keeps
    | (intro _; skip) | split
    | (dsimp only; skip)
    | (with_reducible refine Keeps.lit rfl rfl ?_; first | with_reducible assumption | exact h9 | exact h11 | exact h17 | exact h20 | with_reducible apply State.put_keeps | with_reducible apply State.setGst_keeps | with_reducible apply State.driversOff_keeps | with_reducible apply State.handGrant_keeps | with_reducible apply State.updGrp_keeps | with_reducible apply State.groupGone_keeps | (split; skip))

theorem execGroupDrainEnd_keeps {ps : Part → Prop} {s : State} {a1 : Nat} (h9 : ps (.regs 9)) (h11 : ps (.regs 11)) (h17 : ps (.regs 17)) (h20 : ps (.regs 20)) (h_evt : ps .evt) (h_gens : ps .gens) (h_lve : ps .lve) (h_med : ps .med) (h_out : ps .out) (h_pci : ps .pci) (h_tly : ps .tly) : ∀ r, (execGroupDrainEnd a1 s) = .next r → Keeps ps s r := by
  intro r e
  cases e
  have h := Keeps.refl (ps := ps) s
  repeat' first
    | with_reducible assumption | exact h9 | exact h11 | exact h17 | exact h20 | with_reducible apply State.when_keeps | with_reducible apply State.drainDone_keeps
    | (intro _; skip) | split
    | (dsimp only; skip)

theorem State.drainCut_keeps {ps : Part → Prop} {a1 : Nat} {s0 s : State} (h5 : ps (.regs 5)) (h6 : ps (.regs 6)) (h7 : ps (.regs 7)) (h9 : ps (.regs 9)) (h11 : ps (.regs 11)) (h12 : ps (.regs 12)) (h13 : ps (.regs 13)) (h14 : ps (.regs 14)) (h17 : ps (.regs 17)) (h20 : ps (.regs 20)) (h_cry : ps .cry) (h_dck : ps .dck) (h_evt : ps .evt) (h_fab : ps .fab) (h_fresh : ps .fresh) (h_gens : ps .gens) (h_hbm : ps .hbm) (h_lve : ps .lve) (h_med : ps .med) (h_noc : ps .noc) (h_out : ps .out) (h_pci : ps .pci) (h_qqp : ps .qqp) (h_spm : ps .spm) (h_tly : ps .tly) (h : Keeps ps s0 s) : Keeps ps s0 (State.drainCut s a1) := by
  unfold State.drainCut
  repeat' first
    | (extract_lets +onlyGivenNames x; first | (with_reducible refine Keeps.cut (x := x) ?_ ?_; rotate_left; (try clear_value x); (intro _; skip); rotate_right; subst x) | subst x)
    | with_reducible assumption | exact h5 | exact h6 | exact h7 | exact h9 | exact h11 | exact h12 | exact h13 | exact h14 | exact h17 | exact h20 | with_reducible apply State.lunReset_keeps | with_reducible apply State.enqueue_keeps | with_reducible apply State.dropRead_keeps | with_reducible apply Keeps.foldl | with_reducible apply Keeps.foldlFst
    | (intro _; skip) | split
    | (dsimp only; skip)

theorem execGroupDrainTimeout_keeps {ps : Part → Prop} {s : State} {a1 : Nat} (h5 : ps (.regs 5)) (h6 : ps (.regs 6)) (h7 : ps (.regs 7)) (h9 : ps (.regs 9)) (h11 : ps (.regs 11)) (h12 : ps (.regs 12)) (h13 : ps (.regs 13)) (h14 : ps (.regs 14)) (h17 : ps (.regs 17)) (h20 : ps (.regs 20)) (h_cry : ps .cry) (h_dck : ps .dck) (h_evt : ps .evt) (h_fab : ps .fab) (h_fresh : ps .fresh) (h_gens : ps .gens) (h_hbm : ps .hbm) (h_lve : ps .lve) (h_med : ps .med) (h_noc : ps .noc) (h_out : ps .out) (h_pci : ps .pci) (h_qqp : ps .qqp) (h_spm : ps .spm) (h_tly : ps .tly) : ∀ r, (execGroupDrainTimeout a1 s) = .next r → Keeps ps s r := by
  intro r e
  cases e
  have h := Keeps.refl (ps := ps) s
  repeat' first
    | with_reducible assumption | exact h5 | exact h6 | exact h7 | exact h9 | exact h11 | exact h12 | exact h13 | exact h14 | exact h17 | exact h20 | with_reducible apply State.when_keeps | with_reducible apply State.drainDone_keeps | with_reducible apply State.drainCut_keeps
    | (intro _; skip) | split
    | (dsimp only; skip)

theorem execWireReleaseDelay_keeps {ps : Part → Prop} {s : State} {a1 : Nat} (h4 : ps (.regs 4)) (h9 : ps (.regs 9)) (h16 : ps (.regs 16)) (h17 : ps (.regs 17)) (h_evt : ps .evt) (h_med : ps .med) (h_out : ps .out) (h_pci : ps .pci) (h_pwr : ps .pwr) : ∀ r, (execWireReleaseDelay a1 s) = .next r → Keeps ps s r := by
  intro r e
  cases e
  have h := Keeps.refl (ps := ps) s
  repeat' first
    | (extract_lets +onlyGivenNames x; first | (with_reducible refine Keeps.cut (x := x) ?_ ?_; rotate_left; (try clear_value x); (intro _; skip); rotate_right; subst x) | subst x)
    | with_reducible assumption | exact h4 | exact h9 | exact h16 | exact h17 | with_reducible apply State.when_keeps | with_reducible apply State.updGrp_keeps | with_reducible apply State.drive_keeps | with_reducible apply State.setGst_keeps | with_reducible apply State.claimOp_keeps
    | (intro _; skip) | split
    | (dsimp only; skip)
    | (with_reducible refine Keeps.lit rfl rfl ?_; first | with_reducible assumption | exact h4 | exact h9 | exact h16 | exact h17 | with_reducible apply State.when_keeps | with_reducible apply State.updGrp_keeps | with_reducible apply State.drive_keeps | with_reducible apply State.setGst_keeps | with_reducible apply State.claimOp_keeps | (split; skip))

theorem State.keeperDie_keeps {ps : Part → Prop} {a1 : Nat} {s0 s : State} (h9 : ps (.regs 9)) (h_med : ps .med) (h : Keeps ps s0 s) : Keeps ps s0 (State.keeperDie s a1) := by
  unfold State.keeperDie
  repeat' first
    | (extract_lets +onlyGivenNames x; first | (with_reducible refine Keeps.cut (x := x) ?_ ?_; rotate_left; (try clear_value x); (intro _; skip); rotate_right; subst x) | subst x)
    | with_reducible assumption | exact h9 | with_reducible apply State.driversOff_keeps | with_reducible apply State.put_keeps | with_reducible apply State.drive_keeps | with_reducible apply State.setGst_keeps | with_reducible apply State.groupGone_keeps | with_reducible apply State.updGrp_keeps | with_reducible apply Keeps.foldl | with_reducible apply Keeps.foldlFst
    | (intro _; skip) | split
    | (dsimp only; skip)
    | (with_reducible refine Keeps.lit rfl rfl ?_; first | with_reducible assumption | exact h9 | with_reducible apply State.driversOff_keeps | with_reducible apply State.put_keeps | with_reducible apply State.drive_keeps | with_reducible apply State.setGst_keeps | with_reducible apply State.groupGone_keeps | with_reducible apply State.updGrp_keeps | with_reducible apply Keeps.foldl | with_reducible apply Keeps.foldlFst | (split; skip))

theorem State.keeperStop_keeps {ps : Part → Prop} {a1 a2 : Nat} {s0 s : State} (h9 : ps (.regs 9)) (h11 : ps (.regs 11)) (h17 : ps (.regs 17)) (h20 : ps (.regs 20)) (h_evt : ps .evt) (h_gens : ps .gens) (h_lve : ps .lve) (h_med : ps .med) (h_out : ps .out) (h_pci : ps .pci) (h_tly : ps .tly) (h : Keeps ps s0 s) : Keeps ps s0 (State.keeperStop s a1 a2) := by
  unfold State.keeperStop
  repeat' first
    | (extract_lets +onlyGivenNames x; first | (with_reducible refine Keeps.cut (x := x) ?_ ?_; rotate_left; (try clear_value x); (intro _; skip); rotate_right; subst x) | subst x)
    | with_reducible assumption | exact h9 | exact h11 | exact h17 | exact h20 | with_reducible apply State.sendAll_keeps | with_reducible apply State.keeperDie_keeps
    | (intro _; skip) | split
    | (dsimp only; skip)
    | (with_reducible refine Keeps.lit rfl rfl ?_; first | with_reducible assumption | exact h9 | exact h11 | exact h17 | exact h20 | with_reducible apply State.sendAll_keeps | with_reducible apply State.keeperDie_keeps | (split; skip))

theorem execKeeperTrip_keeps {ps : Part → Prop} {s : State} {a1 : Nat} (h9 : ps (.regs 9)) (h11 : ps (.regs 11)) (h17 : ps (.regs 17)) (h20 : ps (.regs 20)) (h_evt : ps .evt) (h_gens : ps .gens) (h_lve : ps .lve) (h_med : ps .med) (h_out : ps .out) (h_pci : ps .pci) (h_tly : ps .tly) : ∀ r, (execKeeperTrip a1 s) = .next r → Keeps ps s r := by
  intro r e
  cases e
  have h := Keeps.refl (ps := ps) s
  repeat' first
    | with_reducible assumption | exact h9 | exact h11 | exact h17 | exact h20 | with_reducible apply State.when_keeps | with_reducible apply State.keeperStop_keeps
    | (intro _; skip) | split
    | (dsimp only; skip)

end Sys2Proof.Machine
end

