-- ==== Sys2Proof/Laws/Admin.lean ====
section
/-! SUPPORT. What each operation and each meaning of Machine/Admin.lean keeps (Keeps): one lemma a definition. -/

-- The package as one text is checked in one process: its proofs are checked one after another, and its linters keep quiet.
set_option Elab.async false
set_option linter.all false

namespace Sys2Proof.Machine
open Sys2Proof

theorem State.adminConflict_keeps {ps : Part → Prop} {a1 : Nat} {a2 : Cmd} {s0 s : State} (h6 : ps (.regs 6)) (h17 : ps (.regs 17)) (h_dck : ps .dck) (h_evt : ps .evt) (h_out : ps .out) (h_pci : ps .pci) (h_qqp : ps .qqp) (h : Keeps ps s0 s) : Keeps ps s0 (State.adminConflict s a1 a2) := by
  unfold State.adminConflict
  repeat' first
    | with_reducible assumption | exact h6 | exact h17 | with_reducible apply State.failCmd_keeps | with_reducible apply State.conflict_keeps
    | (intro _; skip) | split
    | (dsimp only; skip)

theorem State.adminField_keeps {ps : Part → Prop} {a1 a2 : Nat} {s0 s : State} (h6 : ps (.regs 6)) (h_dck : ps .dck) (h_qqp : ps .qqp) (h : Keeps ps s0 s) : Keeps ps s0 (State.adminField s a1 a2) := by
  unfold State.adminField
  repeat' first
    | with_reducible assumption | exact h6 | with_reducible apply State.failCmd_keeps
    | (intro _; skip) | split
    | (dsimp only; skip)

theorem execCreateQp_keeps {ps : Part → Prop} {s : State} {a1 : Nat} (h6 : ps (.regs 6)) (h17 : ps (.regs 17)) (h_dck : ps .dck) (h_evt : ps .evt) (h_out : ps .out) (h_pci : ps .pci) (h_qqp : ps .qqp) : ∀ r, (execCreateQp a1 s) = .next r → Keeps ps s r := by
  intro r e
  cases e
  have h := Keeps.refl (ps := ps) s
  repeat' first
    | (extract_lets +onlyGivenNames x; first | (with_reducible refine Keeps.cut (x := x) ?_ ?_; rotate_left; (try clear_value x); (intro _; skip); rotate_right; subst x) | subst x)
    | with_reducible assumption | exact h6 | exact h17 | with_reducible apply State.when_keeps | with_reducible apply State.adminField_keeps | with_reducible apply State.adminConflict_keeps | with_reducible apply State.finish_keeps | with_reducible apply State.updQp_keeps
    | (intro _; skip) | split
    | (dsimp only; skip)
    | (with_reducible refine Keeps.lit rfl rfl ?_; first | with_reducible assumption | exact h6 | exact h17 | with_reducible apply State.when_keeps | with_reducible apply State.adminField_keeps | with_reducible apply State.adminConflict_keeps | with_reducible apply State.finish_keeps | with_reducible apply State.updQp_keeps | (split; skip))

theorem execDeleteQp_keeps {ps : Part → Prop} {s : State} {a1 : Nat} (h6 : ps (.regs 6)) (h7 : ps (.regs 7)) (h11 : ps (.regs 11)) (h12 : ps (.regs 12)) (h17 : ps (.regs 17)) (h20 : ps (.regs 20)) (h_dck : ps .dck) (h_evt : ps .evt) (h_gens : ps .gens) (h_lve : ps .lve) (h_out : ps .out) (h_pci : ps .pci) (h_qqp : ps .qqp) (h_tly : ps .tly) : ∀ r, (execDeleteQp a1 s) = .next r → Keeps ps s r := by
  intro r e
  cases e
  have h := Keeps.refl (ps := ps) s
  repeat' first
    | (extract_lets +onlyGivenNames x; first | (with_reducible refine Keeps.cut (x := x) ?_ ?_; rotate_left; (try clear_value x); (intro _; skip); rotate_right; subst x) | subst x)
    | with_reducible assumption | exact h6 | exact h7 | exact h11 | exact h12 | exact h17 | exact h20 | with_reducible apply State.when_keeps | with_reducible apply State.adminField_keeps | with_reducible apply State.adminConflict_keeps | with_reducible apply State.updQp_keeps | with_reducible apply State.abortCmd_keeps | with_reducible apply State.finish_keeps | with_reducible apply State.updCmd_keeps | with_reducible apply Keeps.foldl | with_reducible apply Keeps.foldlFst
    | (intro _; skip) | split
    | (dsimp only; skip)
    | (with_reducible refine Keeps.lit rfl rfl ?_; first | with_reducible assumption | exact h6 | exact h7 | exact h11 | exact h12 | exact h17 | exact h20 | with_reducible apply State.when_keeps | with_reducible apply State.adminField_keeps | with_reducible apply State.adminConflict_keeps | with_reducible apply State.updQp_keeps | with_reducible apply State.abortCmd_keeps | with_reducible apply State.finish_keeps | with_reducible apply State.updCmd_keeps | with_reducible apply Keeps.foldl | with_reducible apply Keeps.foldlFst | (split; skip))

theorem State.mapWait_keeps {ps : Part → Prop} {a1 : Nat} {s0 s : State} (h_qqp : ps .qqp) (h : Keeps ps s0 s) : Keeps ps s0 (State.mapWait s a1) := by
  unfold State.mapWait
  repeat' first
    | with_reducible assumption | with_reducible apply State.updCmd_keeps
    | (intro _; skip) | split
    | (dsimp only; skip)
    | (with_reducible refine Keeps.lit rfl rfl ?_; first | with_reducible assumption | with_reducible apply State.updCmd_keeps | (split; skip))

theorem execTractCreate_keeps {ps : Part → Prop} {s : State} {a1 : Nat} (h6 : ps (.regs 6)) (h7 : ps (.regs 7)) (h11 : ps (.regs 11)) (h12 : ps (.regs 12)) (h17 : ps (.regs 17)) (h20 : ps (.regs 20)) (h_dck : ps .dck) (h_evt : ps .evt) (h_fresh : ps .fresh) (h_gens : ps .gens) (h_lve : ps .lve) (h_out : ps .out) (h_pci : ps .pci) (h_qqp : ps .qqp) (h_tly : ps .tly) : ∀ r, (execTractCreate a1 s) = .next r → Keeps ps s r := by
  intro r e
  cases e
  have h := Keeps.refl (ps := ps) s
  repeat' first
    | (extract_lets +onlyGivenNames x; first | (with_reducible refine Keeps.cut (x := x) ?_ ?_; rotate_left; (try clear_value x); (intro _; skip); rotate_right; subst x) | subst x)
    | with_reducible assumption | exact h6 | exact h7 | exact h11 | exact h12 | exact h17 | exact h20 | with_reducible apply State.when_keeps | with_reducible apply State.adminField_keeps | with_reducible apply State.mapWait_keeps | with_reducible apply State.adminConflict_keeps | with_reducible apply State.failCmd_keeps | with_reducible apply State.bump_keeps | with_reducible apply State.setTract_keeps | with_reducible apply State.draws_keeps | with_reducible apply State.tractSet_keeps | with_reducible apply State.updCmd_keeps
    | (intro _; skip) | split
    | (dsimp only; skip)
    | (with_reducible refine Keeps.lit rfl rfl ?_; first | with_reducible assumption | exact h6 | exact h7 | exact h11 | exact h12 | exact h17 | exact h20 | with_reducible apply State.when_keeps | with_reducible apply State.adminField_keeps | with_reducible apply State.mapWait_keeps | with_reducible apply State.adminConflict_keeps | with_reducible apply State.failCmd_keeps | with_reducible apply State.bump_keeps | with_reducible apply State.setTract_keeps | with_reducible apply State.draws_keeps | with_reducible apply State.tractSet_keeps | with_reducible apply State.updCmd_keeps | (split; skip))

theorem execTractFormatDone_keeps {ps : Part → Prop} {s : State} {a1 : Nat} (h6 : ps (.regs 6)) (h7 : ps (.regs 7)) (h11 : ps (.regs 11)) (h17 : ps (.regs 17)) (h20 : ps (.regs 20)) (h_dck : ps .dck) (h_evt : ps .evt) (h_gens : ps .gens) (h_lve : ps .lve) (h_out : ps .out) (h_pci : ps .pci) (h_qqp : ps .qqp) (h_tly : ps .tly) : ∀ r, (execTractFormatDone a1 s) = .next r → Keeps ps s r := by
  intro r e
  cases e
  have h := Keeps.refl (ps := ps) s
  repeat' first
    | (extract_lets +onlyGivenNames x; first | (with_reducible refine Keeps.cut (x := x) ?_ ?_; rotate_left; (try clear_value x); (intro _; skip); rotate_right; subst x) | subst x)
    | with_reducible assumption | exact h6 | exact h7 | exact h11 | exact h17 | exact h20 | with_reducible apply State.when_keeps | with_reducible apply State.tractSet_keeps | with_reducible apply State.setTract_keeps | with_reducible apply State.finish_keeps
    | (intro _; skip) | split
    | (dsimp only; skip)
    | (with_reducible refine Keeps.lit rfl rfl ?_; first | with_reducible assumption | exact h6 | exact h7 | exact h11 | exact h17 | exact h20 | with_reducible apply State.when_keeps | with_reducible apply State.tractSet_keeps | with_reducible apply State.setTract_keeps | with_reducible apply State.finish_keeps | (split; skip))

theorem execTractDelete_keeps {ps : Part → Prop} {s : State} {a1 : Nat} (h6 : ps (.regs 6)) (h7 : ps (.regs 7)) (h11 : ps (.regs 11)) (h17 : ps (.regs 17)) (h20 : ps (.regs 20)) (h_dck : ps .dck) (h_evt : ps .evt) (h_gens : ps .gens) (h_lve : ps .lve) (h_out : ps .out) (h_pci : ps .pci) (h_qqp : ps .qqp) (h_tly : ps .tly) : ∀ r, (execTractDelete a1 s) = .next r → Keeps ps s r := by
  intro r e
  cases e
  have h := Keeps.refl (ps := ps) s
  repeat' first
    | (extract_lets +onlyGivenNames x; first | (with_reducible refine Keeps.cut (x := x) ?_ ?_; rotate_left; (try clear_value x); (intro _; skip); rotate_right; subst x) | subst x)
    | with_reducible assumption | exact h6 | exact h7 | exact h11 | exact h17 | exact h20 | with_reducible apply State.when_keeps | with_reducible apply State.adminField_keeps | with_reducible apply State.mapWait_keeps | with_reducible apply State.tractSet_keeps | with_reducible apply State.updCmd_keeps | with_reducible apply State.setTract_keeps | with_reducible apply State.adminConflict_keeps
    | (intro _; skip) | split
    | (dsimp only; skip)
    | (with_reducible refine Keeps.lit rfl rfl ?_; first | with_reducible assumption | exact h6 | exact h7 | exact h11 | exact h17 | exact h20 | with_reducible apply State.when_keeps | with_reducible apply State.adminField_keeps | with_reducible apply State.mapWait_keeps | with_reducible apply State.tractSet_keeps | with_reducible apply State.updCmd_keeps | with_reducible apply State.setTract_keeps | with_reducible apply State.adminConflict_keeps | (split; skip))

theorem State.releaseTract_keeps {ps : Part → Prop} {a1 : Nat} {s0 s : State} (h9 : ps (.regs 9)) (h_med : ps .med) (h_tly : ps .tly) (h : Keeps ps s0 s) : Keeps ps s0 (State.releaseTract s a1) := by
  unfold State.releaseTract
  repeat' first
    | (extract_lets +onlyGivenNames x; first | (with_reducible refine Keeps.cut (x := x) ?_ ?_; rotate_left; (try clear_value x); (intro _; skip); rotate_right; subst x) | subst x)
    | with_reducible assumption | exact h9 | with_reducible apply State.lowerValid_keeps | with_reducible apply Keeps.foldl | with_reducible apply Keeps.foldlFst
    | (intro _; skip) | split
    | (dsimp only; skip)
    | (with_reducible refine Keeps.lit rfl rfl ?_; first | with_reducible assumption | exact h9 | with_reducible apply State.lowerValid_keeps | with_reducible apply Keeps.foldl | with_reducible apply Keeps.foldlFst | (split; skip))

theorem execTractDeleteDone_keeps {ps : Part → Prop} {s : State} {a1 : Nat} (h6 : ps (.regs 6)) (h7 : ps (.regs 7)) (h9 : ps (.regs 9)) (h11 : ps (.regs 11)) (h12 : ps (.regs 12)) (h17 : ps (.regs 17)) (h20 : ps (.regs 20)) (h_dck : ps .dck) (h_evt : ps .evt) (h_gens : ps .gens) (h_lve : ps .lve) (h_med : ps .med) (h_out : ps .out) (h_pci : ps .pci) (h_qqp : ps .qqp) (h_tly : ps .tly) : ∀ r, (execTractDeleteDone a1 s) = .next r → Keeps ps s r := by
  intro r e
  cases e
  have h := Keeps.refl (ps := ps) s
  repeat' first
    | (extract_lets +onlyGivenNames x; first | (with_reducible refine Keeps.cut (x := x) ?_ ?_; rotate_left; (try clear_value x); (intro _; skip); rotate_right; subst x) | subst x)
    | with_reducible assumption | exact h6 | exact h7 | exact h9 | exact h11 | exact h12 | exact h17 | exact h20 | with_reducible apply State.when_keeps | with_reducible apply State.releaseTract_keeps | with_reducible apply State.tractSet_keeps | with_reducible apply State.setTract_keeps | with_reducible apply State.trimLines_keeps | with_reducible apply State.drop_keeps | with_reducible apply State.finish_keeps
    | (intro _; skip) | split
    | (dsimp only; skip)
    | (with_reducible refine Keeps.lit rfl rfl ?_; first | with_reducible assumption | exact h6 | exact h7 | exact h9 | exact h11 | exact h12 | exact h17 | exact h20 | with_reducible apply State.when_keeps | with_reducible apply State.releaseTract_keeps | with_reducible apply State.tractSet_keeps | with_reducible apply State.setTract_keeps | with_reducible apply State.trimLines_keeps | with_reducible apply State.drop_keeps | with_reducible apply State.finish_keeps | (split; skip))

theorem execTractStateQuery_keeps {ps : Part → Prop} {s : State} {a1 : Nat} (h6 : ps (.regs 6)) (h_dck : ps .dck) (h_qqp : ps .qqp) : ∀ r, (execTractStateQuery a1 s) = .next r → Keeps ps s r := by
  intro r e
  cases e
  have h := Keeps.refl (ps := ps) s
  repeat' first
    | (extract_lets +onlyGivenNames x; first | (with_reducible refine Keeps.cut (x := x) ?_ ?_; rotate_left; (try clear_value x); (intro _; skip); rotate_right; subst x) | subst x)
    | with_reducible assumption | exact h6 | with_reducible apply State.when_keeps | with_reducible apply State.adminField_keeps | with_reducible apply State.finish_keeps
    | (intro _; skip) | split
    | (dsimp only; skip)
    | (with_reducible refine Keeps.lit rfl rfl ?_; first | with_reducible assumption | exact h6 | with_reducible apply State.when_keeps | with_reducible apply State.adminField_keeps | with_reducible apply State.finish_keeps | (split; skip))

theorem State.tractStateSet_keeps {ps : Part → Prop} {a1 a2 : Nat} {a3 : TState} {s0 s : State} (h6 : ps (.regs 6)) (h7 : ps (.regs 7)) (h11 : ps (.regs 11)) (h17 : ps (.regs 17)) (h20 : ps (.regs 20)) (h_dck : ps .dck) (h_evt : ps .evt) (h_gens : ps .gens) (h_lve : ps .lve) (h_out : ps .out) (h_pci : ps .pci) (h_qqp : ps .qqp) (h_tly : ps .tly) (h : Keeps ps s0 s) : Keeps ps s0 (State.tractStateSet s a1 a2 a3) := by
  unfold State.tractStateSet
  repeat' first
    | (extract_lets +onlyGivenNames x; first | (with_reducible refine Keeps.cut (x := x) ?_ ?_; rotate_left; (try clear_value x); (intro _; skip); rotate_right; subst x) | subst x)
    | with_reducible assumption | exact h6 | exact h7 | exact h11 | exact h17 | exact h20 | with_reducible apply State.failCmd_keeps | with_reducible apply State.adminField_keeps | with_reducible apply State.mapWait_keeps | with_reducible apply State.finish_keeps | with_reducible apply State.tractSet_keeps | with_reducible apply State.setTract_keeps | with_reducible apply State.adminConflict_keeps
    | (intro _; skip) | split
    | (dsimp only; skip)
    | (with_reducible refine Keeps.lit rfl rfl ?_; first | with_reducible assumption | exact h6 | exact h7 | exact h11 | exact h17 | exact h20 | with_reducible apply State.failCmd_keeps | with_reducible apply State.adminField_keeps | with_reducible apply State.mapWait_keeps | with_reducible apply State.finish_keeps | with_reducible apply State.tractSet_keeps | with_reducible apply State.setTract_keeps | with_reducible apply State.adminConflict_keeps | (split; skip))

theorem execTractStateSetReadOnly_keeps {ps : Part → Prop} {s : State} {a1 : Nat} (h6 : ps (.regs 6)) (h7 : ps (.regs 7)) (h11 : ps (.regs 11)) (h17 : ps (.regs 17)) (h20 : ps (.regs 20)) (h_dck : ps .dck) (h_evt : ps .evt) (h_gens : ps .gens) (h_lve : ps .lve) (h_out : ps .out) (h_pci : ps .pci) (h_qqp : ps .qqp) (h_tly : ps .tly) : ∀ r, (execTractStateSetReadOnly a1 s) = .next r → Keeps ps s r := by
  intro r e
  cases e
  have h := Keeps.refl (ps := ps) s
  repeat' first
    | with_reducible assumption | exact h6 | exact h7 | exact h11 | exact h17 | exact h20 | with_reducible apply State.when_keeps | with_reducible apply State.tractStateSet_keeps
    | (intro _; skip) | split
    | (dsimp only; skip)

theorem execTractStateSetReady_keeps {ps : Part → Prop} {s : State} {a1 : Nat} (h6 : ps (.regs 6)) (h7 : ps (.regs 7)) (h11 : ps (.regs 11)) (h17 : ps (.regs 17)) (h20 : ps (.regs 20)) (h_dck : ps .dck) (h_evt : ps .evt) (h_gens : ps .gens) (h_lve : ps .lve) (h_out : ps .out) (h_pci : ps .pci) (h_qqp : ps .qqp) (h_tly : ps .tly) : ∀ r, (execTractStateSetReady a1 s) = .next r → Keeps ps s r := by
  intro r e
  cases e
  have h := Keeps.refl (ps := ps) s
  repeat' first
    | with_reducible assumption | exact h6 | exact h7 | exact h11 | exact h17 | exact h20 | with_reducible apply State.when_keeps | with_reducible apply State.tractStateSet_keeps
    | (intro _; skip) | split
    | (dsimp only; skip)

theorem execKeyImport_keeps {ps : Part → Prop} {s : State} {a1 a2 a3 a4 a5 : Nat} (h6 : ps (.regs 6)) (h7 : ps (.regs 7)) (h11 : ps (.regs 11)) (h12 : ps (.regs 12)) (h17 : ps (.regs 17)) (h20 : ps (.regs 20)) (h_cry : ps .cry) (h_dck : ps .dck) (h_evt : ps .evt) (h_gens : ps .gens) (h_lve : ps .lve) (h_med : ps .med) (h_out : ps .out) (h_pci : ps .pci) (h_qqp : ps .qqp) (h_tly : ps .tly) : ∀ r, (execKeyImport a1 a2 a3 a4 a5 s) = .next r → Keeps ps s r := by
  intro r e
  cases e
  have h := Keeps.refl (ps := ps) s
  repeat' first
    | (extract_lets +onlyGivenNames x; first | (with_reducible refine Keeps.cut (x := x) ?_ ?_; rotate_left; (try clear_value x); (intro _; skip); rotate_right; subst x) | subst x)
    | with_reducible assumption | exact h6 | exact h7 | exact h11 | exact h12 | exact h17 | exact h20 | with_reducible apply State.when_keeps | with_reducible apply State.adminField_keeps | with_reducible apply State.post_keeps | with_reducible apply State.failCmd_keeps | with_reducible apply State.importKey_keeps | with_reducible apply State.finish_keeps
    | (intro _; skip) | split
    | (dsimp only; skip)
    | with_reducible refine Keeps.pair (by assumption) ?_
    | (with_reducible refine Keeps.lit rfl rfl ?_; first | with_reducible assumption | exact h6 | exact h7 | exact h11 | exact h12 | exact h17 | exact h20 | with_reducible apply State.when_keeps | with_reducible apply State.adminField_keeps | with_reducible apply State.post_keeps | with_reducible apply State.failCmd_keeps | with_reducible apply State.importKey_keeps | with_reducible apply State.finish_keeps | with_reducible refine Keeps.pair (by assumption) ?_ | (split; skip))

theorem execKeyRetire_keeps {ps : Part → Prop} {s : State} {a1 : Nat} (h6 : ps (.regs 6)) (h12 : ps (.regs 12)) (h17 : ps (.regs 17)) (h_cry : ps .cry) (h_dck : ps .dck) (h_evt : ps .evt) (h_out : ps .out) (h_pci : ps .pci) (h_qqp : ps .qqp) : ∀ r, (execKeyRetire a1 s) = .next r → Keeps ps s r := by
  intro r e
  cases e
  have h := Keeps.refl (ps := ps) s
  repeat' first
    | (extract_lets +onlyGivenNames x; first | (with_reducible refine Keeps.cut (x := x) ?_ ?_; rotate_left; (try clear_value x); (intro _; skip); rotate_right; subst x) | subst x)
    | with_reducible assumption | exact h6 | exact h12 | exact h17 | with_reducible apply State.when_keeps | with_reducible apply State.retireKey_keeps | with_reducible apply State.finish_keeps | with_reducible apply State.adminConflict_keeps
    | (intro _; skip) | split
    | (dsimp only; skip)
    | with_reducible refine Keeps.pair (by assumption) ?_
    | (with_reducible refine Keeps.lit rfl rfl ?_; first | with_reducible assumption | exact h6 | exact h12 | exact h17 | with_reducible apply State.when_keeps | with_reducible apply State.retireKey_keeps | with_reducible apply State.finish_keeps | with_reducible apply State.adminConflict_keeps | with_reducible refine Keeps.pair (by assumption) ?_ | (split; skip))

theorem execIdentify_keeps {ps : Part → Prop} {s : State} {a1 : Nat} (h6 : ps (.regs 6)) (h17 : ps (.regs 17)) (h_dck : ps .dck) (h_evt : ps .evt) (h_out : ps .out) (h_pci : ps .pci) (h_qqp : ps .qqp) : ∀ r, (execIdentify a1 s) = .next r → Keeps ps s r := by
  intro r e
  cases e
  have h := Keeps.refl (ps := ps) s
  repeat' first
    | (extract_lets +onlyGivenNames x; first | (with_reducible refine Keeps.cut (x := x) ?_ ?_; rotate_left; (try clear_value x); (intro _; skip); rotate_right; subst x) | subst x)
    | with_reducible assumption | exact h6 | exact h17 | with_reducible apply State.when_keeps | with_reducible apply State.adminField_keeps | with_reducible apply State.hostData_keeps | with_reducible apply State.finish_keeps
    | (intro _; skip) | split
    | (dsimp only; skip)
    | with_reducible refine Keeps.pair (by assumption) ?_
    | (with_reducible refine Keeps.lit rfl rfl ?_; first | with_reducible assumption | exact h6 | exact h17 | with_reducible apply State.when_keeps | with_reducible apply State.adminField_keeps | with_reducible apply State.hostData_keeps | with_reducible apply State.finish_keeps | with_reducible refine Keeps.pair (by assumption) ?_ | (split; skip))

theorem execEventFetch_keeps {ps : Part → Prop} {s : State} {a1 : Nat} (h6 : ps (.regs 6)) (h17 : ps (.regs 17)) (h_dck : ps .dck) (h_evt : ps .evt) (h_out : ps .out) (h_pci : ps .pci) (h_qqp : ps .qqp) : ∀ r, (execEventFetch a1 s) = .next r → Keeps ps s r := by
  intro r e
  cases e
  have h := Keeps.refl (ps := ps) s
  repeat' first
    | (extract_lets +onlyGivenNames x; first | (with_reducible refine Keeps.cut (x := x) ?_ ?_; rotate_left; (try clear_value x); (intro _; skip); rotate_right; subst x) | subst x)
    | with_reducible assumption | exact h6 | exact h17 | with_reducible apply State.when_keeps | with_reducible apply State.adminField_keeps | with_reducible apply State.hostData_keeps | with_reducible apply State.finish_keeps
    | (intro _; skip) | split
    | (dsimp only; skip)
    | with_reducible refine Keeps.pair (by assumption) ?_
    | (with_reducible refine Keeps.lit rfl rfl ?_; first | with_reducible assumption | exact h6 | exact h17 | with_reducible apply State.when_keeps | with_reducible apply State.adminField_keeps | with_reducible apply State.hostData_keeps | with_reducible apply State.finish_keeps | with_reducible refine Keeps.pair (by assumption) ?_ | (split; skip))

theorem execFellQuery_keeps {ps : Part → Prop} {s : State} {a1 : Nat} (h6 : ps (.regs 6)) (h17 : ps (.regs 17)) (h_dck : ps .dck) (h_evt : ps .evt) (h_out : ps .out) (h_pci : ps .pci) (h_qqp : ps .qqp) : ∀ r, (execFellQuery a1 s) = .next r → Keeps ps s r := by
  intro r e
  cases e
  have h := Keeps.refl (ps := ps) s
  repeat' first
    | (extract_lets +onlyGivenNames x; first | (with_reducible refine Keeps.cut (x := x) ?_ ?_; rotate_left; (try clear_value x); (intro _; skip); rotate_right; subst x) | subst x)
    | with_reducible assumption | exact h6 | exact h17 | with_reducible apply State.when_keeps | with_reducible apply State.finish_keeps | with_reducible apply State.hostData_keeps
    | (intro _; skip) | split
    | (dsimp only; skip)
    | with_reducible refine Keeps.pair (by assumption) ?_
    | (with_reducible refine Keeps.lit rfl rfl ?_; first | with_reducible assumption | exact h6 | exact h17 | with_reducible apply State.when_keeps | with_reducible apply State.finish_keeps | with_reducible apply State.hostData_keeps | with_reducible refine Keeps.pair (by assumption) ?_ | (split; skip))

theorem execAbort_keeps {ps : Part → Prop} {s : State} {a1 : Nat} (h6 : ps (.regs 6)) (h7 : ps (.regs 7)) (h11 : ps (.regs 11)) (h12 : ps (.regs 12)) (h17 : ps (.regs 17)) (h20 : ps (.regs 20)) (h_dck : ps .dck) (h_evt : ps .evt) (h_gens : ps .gens) (h_lve : ps .lve) (h_out : ps .out) (h_pci : ps .pci) (h_qqp : ps .qqp) (h_tly : ps .tly) : ∀ r, (execAbort a1 s) = .next r → Keeps ps s r := by
  intro r e
  cases e
  have h := Keeps.refl (ps := ps) s
  repeat' first
    | (extract_lets +onlyGivenNames x; first | (with_reducible refine Keeps.cut (x := x) ?_ ?_; rotate_left; (try clear_value x); (intro _; skip); rotate_right; subst x) | subst x)
    | with_reducible assumption | exact h6 | exact h7 | exact h11 | exact h12 | exact h17 | exact h20 | with_reducible apply State.when_keeps | with_reducible apply State.finish_keeps | with_reducible apply State.abortCmd_keeps | with_reducible apply State.updCmd_keeps
    | (intro _; skip) | split
    | (dsimp only; skip)
    | (with_reducible refine Keeps.lit rfl rfl ?_; first | with_reducible assumption | exact h6 | exact h7 | exact h11 | exact h12 | exact h17 | exact h20 | with_reducible apply State.when_keeps | with_reducible apply State.finish_keeps | with_reducible apply State.abortCmd_keeps | with_reducible apply State.updCmd_keeps | (split; skip))

theorem execReseal_keeps {ps : Part → Prop} {s : State} {a1 : Nat} (h6 : ps (.regs 6)) (h12 : ps (.regs 12)) (h17 : ps (.regs 17)) (h_cry : ps .cry) (h_dck : ps .dck) (h_evt : ps .evt) (h_fresh : ps .fresh) (h_hbm : ps .hbm) (h_out : ps .out) (h_pci : ps .pci) (h_qqp : ps .qqp) (h_tly : ps .tly) : ∀ r, (execReseal a1 s) = .next r → Keeps ps s r := by
  intro r e
  cases e
  have h := Keeps.refl (ps := ps) s
  repeat' first
    | (extract_lets +onlyGivenNames x; first | (with_reducible refine Keeps.cut (x := x) ?_ ?_; rotate_left; (try clear_value x); (intro _; skip); rotate_right; subst x) | subst x)
    | with_reducible assumption | exact h6 | exact h12 | exact h17 | with_reducible apply State.when_keeps | with_reducible apply State.adminField_keeps | with_reducible apply State.resealRange_keeps | with_reducible apply State.finish_keeps | with_reducible apply State.adminConflict_keeps | with_reducible apply State.failCmd_keeps
    | (intro _; skip) | split
    | (dsimp only; skip)
    | with_reducible refine Keeps.pair (by assumption) ?_
    | (with_reducible refine Keeps.lit rfl rfl ?_; first | with_reducible assumption | exact h6 | exact h12 | exact h17 | with_reducible apply State.when_keeps | with_reducible apply State.adminField_keeps | with_reducible apply State.resealRange_keeps | with_reducible apply State.finish_keeps | with_reducible apply State.adminConflict_keeps | with_reducible apply State.failCmd_keeps | with_reducible refine Keeps.pair (by assumption) ?_ | (split; skip))

end Sys2Proof.Machine
end

