-- ==== Sys2Proof/Laws/Pair.lean ====
section
/-! SUPPORT. What each operation and each meaning of Machine/Pair.lean keeps (Keeps): one lemma a definition. -/

-- The package as one text is checked in one process: its proofs are checked one after another, and its linters keep quiet.
set_option Elab.async false
set_option linter.all false

namespace Sys2Proof.Machine
open Sys2Proof

theorem State.putPair_keeps {ps : Part → Prop} {a1 : Nat} {s0 s : State} (h11 : ps (.regs 11)) (h : Keeps ps s0 s) : Keeps ps s0 (State.putPair s a1) := by
  unfold State.putPair
  repeat' first
    | with_reducible assumption | exact h11 | with_reducible apply State.put_keeps
    | (intro _; skip) | split
    | (dsimp only; skip)

theorem State.putHome_keeps {ps : Part → Prop} {a1 : Nat} {s0 s : State} (h9 : ps (.regs 9)) (h : Keeps ps s0 s) : Keeps ps s0 (State.putHome s a1) := by
  unfold State.putHome
  repeat' first
    | with_reducible assumption | exact h9 | with_reducible apply State.flag_keeps | with_reducible apply Keeps.foldl | with_reducible apply Keeps.foldlFst
    | (intro _; skip) | split
    | (dsimp only; skip)

theorem State.indexRec_keeps {ps : Part → Prop} {a1 : Nat × JRec} {s0 s : State} (h_tly : ps .tly) (h : Keeps ps s0 s) : Keeps ps s0 (State.indexRec s a1) := by
  unfold State.indexRec
  repeat' first
    | (extract_lets +onlyGivenNames x; first | (with_reducible refine Keeps.cut (x := x) ?_ ?_; rotate_left; (try clear_value x); (intro _; skip); rotate_right; subst x) | subst x)
    | with_reducible assumption | with_reducible apply State.dirChanged_keeps | with_reducible apply Keeps.foldl | with_reducible apply Keeps.foldlFst
    | (intro _; skip) | split
    | (dsimp only; skip)
    | (with_reducible refine Keeps.lit rfl rfl ?_; first | with_reducible assumption | with_reducible apply State.dirChanged_keeps | with_reducible apply Keeps.foldl | with_reducible apply Keeps.foldlFst | (split; skip))

theorem State.indexMap_keeps {ps : Part → Prop} {a1 : RebuildIn} {a2 : Nat} {a3 : List (Nat × JRec)} {a4 : Nat} {s0 s : State} (h7 : ps (.regs 7)) (h_tly : ps .tly) (h : Keeps ps s0 s) : Keeps ps s0 (State.indexMap s a1 a2 a3 a4) := by
  unfold State.indexMap
  repeat' first
    | (extract_lets +onlyGivenNames x; first | (with_reducible refine Keeps.cut (x := x) ?_ ?_; rotate_left; (try clear_value x); (intro _; skip); rotate_right; subst x) | subst x)
    | with_reducible assumption | exact h7 | with_reducible apply State.indexRec_keeps | with_reducible apply State.flag_keeps | with_reducible apply Keeps.foldl | with_reducible apply Keeps.foldlFst
    | (intro _; skip) | split
    | (dsimp only; skip)
    | (with_reducible refine Keeps.lit rfl rfl ?_; first | with_reducible assumption | exact h7 | with_reducible apply State.indexRec_keeps | with_reducible apply State.flag_keeps | with_reducible apply Keeps.foldl | with_reducible apply Keeps.foldlFst | (split; skip))

theorem State.restoreLine_keeps {ps : Part → Prop} {a1 a2 : Nat} {a3 : List (Nat × Blk)} {a4 a5 : Bool} {s0 s : State} (h11 : ps (.regs 11)) (h12 : ps (.regs 12)) (h17 : ps (.regs 17)) (h20 : ps (.regs 20)) (h_cry : ps .cry) (h_evt : ps .evt) (h_fresh : ps .fresh) (h_gens : ps .gens) (h_hbm : ps .hbm) (h_lve : ps .lve) (h_out : ps .out) (h_pci : ps .pci) (h_qqp : ps .qqp) (h_tly : ps .tly) (h : Keeps ps s0 s) : Keeps ps s0 (State.restoreLine s a1 a2 a3 a4 a5) := by
  unfold State.restoreLine
  repeat' first
    | (extract_lets +onlyGivenNames x; first | (with_reducible refine Keeps.cut (x := x) ?_ ?_; rotate_left; (try clear_value x); (intro _; skip); rotate_right; subst x) | subst x)
    | with_reducible assumption | exact h11 | exact h12 | exact h17 | exact h20 | with_reducible apply State.sealBuf_keeps | with_reducible apply State.supersede_keeps | with_reducible apply State.mirrorLine_keeps | with_reducible apply Keeps.foldl | with_reducible apply Keeps.foldlFst
    | (intro _; skip) | split
    | (dsimp only; skip)
    | (with_reducible refine Keeps.lit rfl rfl ?_; first | with_reducible assumption | exact h11 | exact h12 | exact h17 | exact h20 | with_reducible apply State.sealBuf_keeps | with_reducible apply State.supersede_keeps | with_reducible apply State.mirrorLine_keeps | with_reducible apply Keeps.foldl | with_reducible apply Keeps.foldlFst | (split; skip))

theorem State.resyncJournal_keeps {ps : Part → Prop} {s0 s : State} (h11 : ps (.regs 11)) (h17 : ps (.regs 17)) (h20 : ps (.regs 20)) (h_evt : ps .evt) (h_gens : ps .gens) (h_lve : ps .lve) (h_out : ps .out) (h_pci : ps .pci) (h_tly : ps .tly) (h : Keeps ps s0 s) : Keeps ps s0 (State.resyncJournal s) := by
  unfold State.resyncJournal
  repeat' first
    | (extract_lets +onlyGivenNames x; first | (with_reducible refine Keeps.cut (x := x) ?_ ?_; rotate_left; (try clear_value x); (intro _; skip); rotate_right; subst x) | subst x)
    | with_reducible assumption | exact h11 | exact h17 | exact h20 | with_reducible apply State.send_keeps | with_reducible apply Keeps.foldl | with_reducible apply Keeps.foldlFst
    | (intro _; skip) | split
    | (dsimp only; skip)
    | (with_reducible refine Keeps.lit rfl rfl ?_; first | with_reducible assumption | exact h11 | exact h17 | exact h20 | with_reducible apply State.send_keeps | with_reducible apply Keeps.foldl | with_reducible apply Keeps.foldlFst | (split; skip))

theorem State.handbackBegin_keeps {ps : Part → Prop} {s0 s : State} (h11 : ps (.regs 11)) (h17 : ps (.regs 17)) (h20 : ps (.regs 20)) (h_evt : ps .evt) (h_gens : ps .gens) (h_lve : ps .lve) (h_out : ps .out) (h_pci : ps .pci) (h_tly : ps .tly) (h : Keeps ps s0 s) : Keeps ps s0 (State.handbackBegin s) := by
  unfold State.handbackBegin
  repeat' first
    | (extract_lets +onlyGivenNames x; first | (with_reducible refine Keeps.cut (x := x) ?_ ?_; rotate_left; (try clear_value x); (intro _; skip); rotate_right; subst x) | subst x)
    | with_reducible assumption | exact h11 | exact h17 | exact h20 | with_reducible apply State.putPair_keeps | with_reducible apply State.send_keeps
    | (intro _; skip) | split
    | (dsimp only; skip)
    | (with_reducible refine Keeps.lit rfl rfl ?_; first | with_reducible assumption | exact h11 | exact h17 | exact h20 | with_reducible apply State.putPair_keeps | with_reducible apply State.send_keeps | (split; skip))

theorem State.firstPaired_keeps {ps : Part → Prop} {s0 s : State} (h4 : ps (.regs 4)) (h9 : ps (.regs 9)) (h16 : ps (.regs 16)) (h17 : ps (.regs 17)) (h_evt : ps .evt) (h_lve : ps .lve) (h_med : ps .med) (h_out : ps .out) (h_pci : ps .pci) (h_pwr : ps .pwr) (h : Keeps ps s0 s) : Keeps ps s0 (State.firstPaired s) := by
  unfold State.firstPaired
  repeat' first
    | (extract_lets +onlyGivenNames x; first | (with_reducible refine Keeps.cut (x := x) ?_ ?_; rotate_left; (try clear_value x); (intro _; skip); rotate_right; subst x) | subst x)
    | with_reducible assumption | exact h4 | exact h9 | exact h16 | exact h17 | with_reducible apply State.flag_keeps | with_reducible apply State.post_keeps | with_reducible apply State.claimDue_keeps | with_reducible apply Keeps.foldl | with_reducible apply Keeps.foldlFst
    | (intro _; skip) | split
    | (dsimp only; skip)
    | (with_reducible refine Keeps.lit rfl rfl ?_; first | with_reducible assumption | exact h4 | exact h9 | exact h16 | exact h17 | with_reducible apply State.flag_keeps | with_reducible apply State.post_keeps | with_reducible apply State.claimDue_keeps | with_reducible apply Keeps.foldl | with_reducible apply Keeps.foldlFst | (split; skip))

theorem State.pairedCheck_keeps {ps : Part → Prop} {s0 s : State} (h4 : ps (.regs 4)) (h9 : ps (.regs 9)) (h11 : ps (.regs 11)) (h16 : ps (.regs 16)) (h17 : ps (.regs 17)) (h20 : ps (.regs 20)) (h_evt : ps .evt) (h_gens : ps .gens) (h_lve : ps .lve) (h_med : ps .med) (h_out : ps .out) (h_pci : ps .pci) (h_pwr : ps .pwr) (h_tly : ps .tly) (h : Keeps ps s0 s) : Keeps ps s0 (State.pairedCheck s) := by
  unfold State.pairedCheck
  repeat' first
    | (extract_lets +onlyGivenNames x; first | (with_reducible refine Keeps.cut (x := x) ?_ ?_; rotate_left; (try clear_value x); (intro _; skip); rotate_right; subst x) | subst x)
    | with_reducible assumption | exact h4 | exact h9 | exact h11 | exact h16 | exact h17 | exact h20 | with_reducible apply State.firstPaired_keeps | with_reducible apply State.putPair_keeps | with_reducible apply State.handbackBegin_keeps
    | (intro _; skip) | split
    | (dsimp only; skip)

theorem State.rsCheck_keeps {ps : Part → Prop} {s0 s : State} (h4 : ps (.regs 4)) (h9 : ps (.regs 9)) (h11 : ps (.regs 11)) (h16 : ps (.regs 16)) (h17 : ps (.regs 17)) (h20 : ps (.regs 20)) (h_evt : ps .evt) (h_gens : ps .gens) (h_lve : ps .lve) (h_med : ps .med) (h_out : ps .out) (h_pci : ps .pci) (h_pwr : ps .pwr) (h_tly : ps .tly) (h : Keeps ps s0 s) : Keeps ps s0 (State.rsCheck s) := by
  unfold State.rsCheck
  repeat' first
    | with_reducible assumption | exact h4 | exact h9 | exact h11 | exact h16 | exact h17 | exact h20 | with_reducible apply State.pairedCheck_keeps | with_reducible apply State.send_keeps
    | (intro _; skip) | split
    | (dsimp only; skip)
    | (with_reducible refine Keeps.lit rfl rfl ?_; first | with_reducible assumption | exact h4 | exact h9 | exact h11 | exact h16 | exact h17 | exact h20 | with_reducible apply State.pairedCheck_keeps | with_reducible apply State.send_keeps | (split; skip))

theorem State.resyncStart_keeps {ps : Part → Prop} {s0 s : State} (h4 : ps (.regs 4)) (h9 : ps (.regs 9)) (h11 : ps (.regs 11)) (h16 : ps (.regs 16)) (h17 : ps (.regs 17)) (h20 : ps (.regs 20)) (h_evt : ps .evt) (h_gens : ps .gens) (h_lve : ps .lve) (h_med : ps .med) (h_out : ps .out) (h_pci : ps .pci) (h_pwr : ps .pwr) (h_tly : ps .tly) (h : Keeps ps s0 s) : Keeps ps s0 (State.resyncStart s) := by
  unfold State.resyncStart
  repeat' first
    | (extract_lets +onlyGivenNames x; first | (with_reducible refine Keeps.cut (x := x) ?_ ?_; rotate_left; (try clear_value x); (intro _; skip); rotate_right; subst x) | subst x)
    | with_reducible assumption | exact h4 | exact h9 | exact h11 | exact h16 | exact h17 | exact h20 | with_reducible apply State.putPair_keeps | with_reducible apply State.resyncJournal_keeps | with_reducible apply State.rsCheck_keeps | with_reducible apply State.mirrorLine_keeps | with_reducible apply Keeps.foldl | with_reducible apply Keeps.foldlFst
    | (intro _; skip) | split
    | (dsimp only; skip)
    | (with_reducible refine Keeps.lit rfl rfl ?_; first | with_reducible assumption | exact h4 | exact h9 | exact h11 | exact h16 | exact h17 | exact h20 | with_reducible apply State.putPair_keeps | with_reducible apply State.resyncJournal_keeps | with_reducible apply State.rsCheck_keeps | with_reducible apply State.mirrorLine_keeps | with_reducible apply Keeps.foldl | with_reducible apply Keeps.foldlFst | (split; skip))

theorem State.unclaim_keeps {ps : Part → Prop} {a1 : Nat} {s0 s : State} (h5 : ps (.regs 5)) (h6 : ps (.regs 6)) (h7 : ps (.regs 7)) (h9 : ps (.regs 9)) (h11 : ps (.regs 11)) (h12 : ps (.regs 12)) (h13 : ps (.regs 13)) (h14 : ps (.regs 14)) (h16 : ps (.regs 16)) (h17 : ps (.regs 17)) (h20 : ps (.regs 20)) (h_cry : ps .cry) (h_dck : ps .dck) (h_evt : ps .evt) (h_fab : ps .fab) (h_fresh : ps .fresh) (h_gens : ps .gens) (h_hbm : ps .hbm) (h_lve : ps .lve) (h_med : ps .med) (h_noc : ps .noc) (h_out : ps .out) (h_pci : ps .pci) (h_qqp : ps .qqp) (h_spm : ps .spm) (h_tly : ps .tly) (h : Keeps ps s0 s) : Keeps ps s0 (State.unclaim s a1) := by
  unfold State.unclaim
  repeat' first
    | (extract_lets +onlyGivenNames x; first | (with_reducible refine Keeps.cut (x := x) ?_ ?_; rotate_left; (try clear_value x); (intro _; skip); rotate_right; subst x) | subst x)
    | with_reducible assumption | exact h5 | exact h6 | exact h7 | exact h9 | exact h11 | exact h12 | exact h13 | exact h14 | exact h16 | exact h17 | exact h20 | with_reducible apply State.releaseOp_keeps | with_reducible apply State.setGst_keeps | with_reducible apply State.drive_keeps | with_reducible apply State.updGrp_keeps | with_reducible apply State.groupGone_keeps | with_reducible apply State.driversOff_keeps
    | (intro _; skip) | split
    | (dsimp only; skip)
    | (with_reducible refine Keeps.lit rfl rfl ?_; first | with_reducible assumption | exact h5 | exact h6 | exact h7 | exact h9 | exact h11 | exact h12 | exact h13 | exact h14 | exact h16 | exact h17 | exact h20 | with_reducible apply State.releaseOp_keeps | with_reducible apply State.setGst_keeps | with_reducible apply State.drive_keeps | with_reducible apply State.updGrp_keeps | with_reducible apply State.groupGone_keeps | with_reducible apply State.driversOff_keeps | (split; skip))

theorem State.linkLost_keeps {ps : Part → Prop} {s0 s : State} (h11 : ps (.regs 11)) (h17 : ps (.regs 17)) (h20 : ps (.regs 20)) (h_evt : ps .evt) (h_gens : ps .gens) (h_lve : ps .lve) (h_out : ps .out) (h_pci : ps .pci) (h_qqp : ps .qqp) (h_tly : ps .tly) (h : Keeps ps s0 s) : Keeps ps s0 (State.linkLost s) := by
  unfold State.linkLost
  repeat' first
    | (extract_lets +onlyGivenNames x; first | (with_reducible refine Keeps.cut (x := x) ?_ ?_; rotate_left; (try clear_value x); (intro _; skip); rotate_right; subst x) | subst x)
    | with_reducible assumption | exact h11 | exact h17 | exact h20 | with_reducible apply State.post_keeps | with_reducible apply State.goSolo_keeps | with_reducible apply State.putPair_keeps | with_reducible apply State.thawTracts_keeps
    | (intro _; skip) | split
    | (dsimp only; skip)
    | (with_reducible refine Keeps.lit rfl rfl ?_; first | with_reducible assumption | exact h11 | exact h17 | exact h20 | with_reducible apply State.post_keeps | with_reducible apply State.goSolo_keeps | with_reducible apply State.putPair_keeps | with_reducible apply State.thawTracts_keeps | (split; skip))

theorem State.dropForeign_keeps {ps : Part → Prop} {s0 s : State} (h6 : ps (.regs 6)) (h7 : ps (.regs 7)) (h_dck : ps .dck) (h_lve : ps .lve) (h_qqp : ps .qqp) (h_tly : ps .tly) (h : Keeps ps s0 s) : Keeps ps s0 (State.dropForeign s) := by
  unfold State.dropForeign
  repeat' first
    | (extract_lets +onlyGivenNames x; first | (with_reducible refine Keeps.cut (x := x) ?_ ?_; rotate_left; (try clear_value x); (intro _; skip); rotate_right; subst x) | subst x)
    | with_reducible assumption | exact h6 | exact h7 | with_reducible apply State.failCmd_keeps | with_reducible apply State.put_keeps | with_reducible apply Keeps.foldl | with_reducible apply Keeps.foldlFst
    | (intro _; skip) | split
    | (dsimp only; skip)
    | (with_reducible refine Keeps.lit rfl rfl ?_; first | with_reducible assumption | exact h6 | exact h7 | with_reducible apply State.failCmd_keeps | with_reducible apply State.put_keeps | with_reducible apply Keeps.foldl | with_reducible apply Keeps.foldlFst | (split; skip))

theorem State.takeoverStep_keeps {ps : Part → Prop} {s0 s : State} (h7 : ps (.regs 7)) (h_lve : ps .lve) (h : Keeps ps s0 s) : Keeps ps s0 (State.takeoverStep s) := by
  unfold State.takeoverStep
  repeat' first
    | with_reducible assumption | exact h7 | with_reducible apply State.put_keeps
    | (intro _; skip) | split
    | (dsimp only; skip)
    | (with_reducible refine Keeps.lit rfl rfl ?_; first | with_reducible assumption | exact h7 | with_reducible apply State.put_keeps | (split; skip))

theorem State.takeover_keeps {ps : Part → Prop} {s0 s : State} (h4 : ps (.regs 4)) (h7 : ps (.regs 7)) (h9 : ps (.regs 9)) (h11 : ps (.regs 11)) (h16 : ps (.regs 16)) (h17 : ps (.regs 17)) (h20 : ps (.regs 20)) (h_evt : ps .evt) (h_gens : ps .gens) (h_lve : ps .lve) (h_med : ps .med) (h_out : ps .out) (h_pci : ps .pci) (h_pwr : ps .pwr) (h_qqp : ps .qqp) (h_tly : ps .tly) (h : Keeps ps s0 s) : Keeps ps s0 (State.takeover s) := by
  unfold State.takeover
  repeat' first
    | (extract_lets +onlyGivenNames x; first | (with_reducible refine Keeps.cut (x := x) ?_ ?_; rotate_left; (try clear_value x); (intro _; skip); rotate_right; subst x) | subst x)
    | with_reducible assumption | exact h4 | exact h7 | exact h9 | exact h11 | exact h16 | exact h17 | exact h20 | with_reducible apply State.post_keeps | with_reducible apply State.putPair_keeps | with_reducible apply State.put_keeps | with_reducible apply State.goSolo_keeps | with_reducible apply State.setTract_keeps | with_reducible apply State.claimOp_keeps | with_reducible apply State.takeoverStep_keeps | with_reducible apply Keeps.foldl | with_reducible apply Keeps.foldlFst
    | (intro _; skip) | split
    | (dsimp only; skip)
    | (with_reducible refine Keeps.lit rfl rfl ?_; first | with_reducible assumption | exact h4 | exact h7 | exact h9 | exact h11 | exact h16 | exact h17 | exact h20 | with_reducible apply State.post_keeps | with_reducible apply State.putPair_keeps | with_reducible apply State.put_keeps | with_reducible apply State.goSolo_keeps | with_reducible apply State.setTract_keeps | with_reducible apply State.claimOp_keeps | with_reducible apply State.takeoverStep_keeps | with_reducible apply Keeps.foldl | with_reducible apply Keeps.foldlFst | (split; skip))

theorem execDeathDeclared_keeps {ps : Part → Prop} {s : State} (h4 : ps (.regs 4)) (h7 : ps (.regs 7)) (h9 : ps (.regs 9)) (h11 : ps (.regs 11)) (h16 : ps (.regs 16)) (h17 : ps (.regs 17)) (h20 : ps (.regs 20)) (h_evt : ps .evt) (h_gens : ps .gens) (h_lve : ps .lve) (h_med : ps .med) (h_out : ps .out) (h_pci : ps .pci) (h_pwr : ps .pwr) (h_qqp : ps .qqp) (h_tly : ps .tly) : ∀ r, (execDeathDeclared s) = .next r → Keeps ps s r := by
  intro r e
  cases e
  have h := Keeps.refl (ps := ps) s
  repeat' first
    | with_reducible assumption | exact h4 | exact h7 | exact h9 | exact h11 | exact h16 | exact h17 | exact h20 | with_reducible apply State.when_keeps | with_reducible apply State.takeover_keeps
    | (intro _; skip) | split
    | (dsimp only; skip)

theorem execOrphanTimeout_keeps {ps : Part → Prop} {s : State} (h4 : ps (.regs 4)) (h7 : ps (.regs 7)) (h9 : ps (.regs 9)) (h11 : ps (.regs 11)) (h16 : ps (.regs 16)) (h17 : ps (.regs 17)) (h20 : ps (.regs 20)) (h_evt : ps .evt) (h_gens : ps .gens) (h_lve : ps .lve) (h_med : ps .med) (h_out : ps .out) (h_pci : ps .pci) (h_pwr : ps .pwr) (h_qqp : ps .qqp) (h_tly : ps .tly) : ∀ r, (execOrphanTimeout s) = .next r → Keeps ps s r := by
  intro r e
  cases e
  have h := Keeps.refl (ps := ps) s
  repeat' first
    | with_reducible assumption | exact h4 | exact h7 | exact h9 | exact h11 | exact h16 | exact h17 | exact h20 | with_reducible apply State.when_keeps | with_reducible apply State.takeover_keeps
    | (intro _; skip) | split
    | (dsimp only; skip)

theorem execTakeoverWithdraw_keeps {ps : Part → Prop} {s : State} (h5 : ps (.regs 5)) (h6 : ps (.regs 6)) (h7 : ps (.regs 7)) (h9 : ps (.regs 9)) (h11 : ps (.regs 11)) (h12 : ps (.regs 12)) (h13 : ps (.regs 13)) (h14 : ps (.regs 14)) (h16 : ps (.regs 16)) (h17 : ps (.regs 17)) (h20 : ps (.regs 20)) (h_cry : ps .cry) (h_dck : ps .dck) (h_evt : ps .evt) (h_fab : ps .fab) (h_fresh : ps .fresh) (h_gens : ps .gens) (h_hbm : ps .hbm) (h_lve : ps .lve) (h_med : ps .med) (h_noc : ps .noc) (h_out : ps .out) (h_pci : ps .pci) (h_qqp : ps .qqp) (h_spm : ps .spm) (h_tly : ps .tly) : ∀ r, (execTakeoverWithdraw s) = .next r → Keeps ps s r := by
  intro r e
  cases e
  have h := Keeps.refl (ps := ps) s
  repeat' first
    | (extract_lets +onlyGivenNames x; first | (with_reducible refine Keeps.cut (x := x) ?_ ?_; rotate_left; (try clear_value x); (intro _; skip); rotate_right; subst x) | subst x)
    | with_reducible assumption | exact h5 | exact h6 | exact h7 | exact h9 | exact h11 | exact h12 | exact h13 | exact h14 | exact h16 | exact h17 | exact h20 | with_reducible apply State.when_keeps | with_reducible apply State.unclaim_keeps | with_reducible apply State.post_keeps | with_reducible apply State.putPair_keeps | with_reducible apply State.dropForeign_keeps | with_reducible apply Keeps.foldl | with_reducible apply Keeps.foldlFst
    | (intro _; skip) | split
    | (dsimp only; skip)

theorem execGroupBringupDone_keeps {ps : Part → Prop} {s : State} {a1 : Nat} {a2 : BringUp} (h5 : ps (.regs 5)) (h6 : ps (.regs 6)) (h7 : ps (.regs 7)) (h9 : ps (.regs 9)) (h11 : ps (.regs 11)) (h12 : ps (.regs 12)) (h13 : ps (.regs 13)) (h14 : ps (.regs 14)) (h17 : ps (.regs 17)) (h20 : ps (.regs 20)) (h_cry : ps .cry) (h_dck : ps .dck) (h_evt : ps .evt) (h_fab : ps .fab) (h_fresh : ps .fresh) (h_gens : ps .gens) (h_hbm : ps .hbm) (h_lve : ps .lve) (h_med : ps .med) (h_noc : ps .noc) (h_out : ps .out) (h_pci : ps .pci) (h_qqp : ps .qqp) (h_spm : ps .spm) (h_tly : ps .tly) : ∀ r, (execGroupBringupDone a1 a2 s) = .next r → Keeps ps s r := by
  intro r e
  cases e
  have h := Keeps.refl (ps := ps) s
  repeat' first
    | with_reducible assumption | exact h5 | exact h6 | exact h7 | exact h9 | exact h11 | exact h12 | exact h13 | exact h14 | exact h17 | exact h20 | with_reducible apply State.when_keeps | with_reducible apply State.takeoverStep_keeps | with_reducible apply State.groupUp_keeps
    | (intro _; skip) | split
    | (dsimp only; skip)

theorem State.takeLines_keeps {ps : Part → Prop} {s0 s : State} (h11 : ps (.regs 11)) (h12 : ps (.regs 12)) (h17 : ps (.regs 17)) (h20 : ps (.regs 20)) (h_cry : ps .cry) (h_evt : ps .evt) (h_fresh : ps .fresh) (h_gens : ps .gens) (h_hbm : ps .hbm) (h_lve : ps .lve) (h_out : ps .out) (h_pci : ps .pci) (h_qqp : ps .qqp) (h_tly : ps .tly) (h : Keeps ps s0 s) : Keeps ps s0 (State.takeLines s) := by
  unfold State.takeLines
  repeat' first
    | (extract_lets +onlyGivenNames x; first | (with_reducible refine Keeps.cut (x := x) ?_ ?_; rotate_left; (try clear_value x); (intro _; skip); rotate_right; subst x) | subst x)
    | with_reducible assumption | exact h11 | exact h12 | exact h17 | exact h20 | with_reducible apply State.restoreLine_keeps | with_reducible apply State.post_keeps | with_reducible apply Keeps.foldl | with_reducible apply Keeps.foldlFst
    | (intro _; skip) | split
    | (dsimp only; skip)
    | (with_reducible refine Keeps.lit rfl rfl ?_; first | with_reducible assumption | exact h11 | exact h12 | exact h17 | exact h20 | with_reducible apply State.restoreLine_keeps | with_reducible apply State.post_keeps | with_reducible apply Keeps.foldl | with_reducible apply Keeps.foldlFst | (split; skip))

theorem State.replayTasks_keeps {ps : Part → Prop} {s0 s : State} (h6 : ps (.regs 6)) (h17 : ps (.regs 17)) (h_dck : ps .dck) (h_evt : ps .evt) (h_out : ps .out) (h_pci : ps .pci) (h_tly : ps .tly) (h : Keeps ps s0 s) : Keeps ps s0 (State.replayTasks s) := by
  unfold State.replayTasks
  repeat' first
    | (extract_lets +onlyGivenNames x; first | (with_reducible refine Keeps.cut (x := x) ?_ ?_; rotate_left; (try clear_value x); (intro _; skip); rotate_right; subst x) | subst x)
    | with_reducible assumption | exact h6 | exact h17 | with_reducible apply State.updLine_keeps | with_reducible apply State.addTask_keeps | with_reducible apply Keeps.foldl | with_reducible apply Keeps.foldlFst
    | (intro _; skip) | split
    | (dsimp only; skip)
    | (with_reducible refine Keeps.lit rfl rfl ?_; first | with_reducible assumption | exact h6 | exact h17 | with_reducible apply State.updLine_keeps | with_reducible apply State.addTask_keeps | with_reducible apply Keeps.foldl | with_reducible apply Keeps.foldlFst | (split; skip))

theorem State.foreignMap_keeps {ps : Part → Prop} {a1 : RebuildIn} {s0 s : State} (h6 : ps (.regs 6)) (h7 : ps (.regs 7)) (h11 : ps (.regs 11)) (h12 : ps (.regs 12)) (h17 : ps (.regs 17)) (h20 : ps (.regs 20)) (h_cry : ps .cry) (h_dck : ps .dck) (h_evt : ps .evt) (h_fresh : ps .fresh) (h_gens : ps .gens) (h_hbm : ps .hbm) (h_lve : ps .lve) (h_out : ps .out) (h_pci : ps .pci) (h_qqp : ps .qqp) (h_tly : ps .tly) (h : Keeps ps s0 s) : Keeps ps s0 (State.foreignMap s a1) := by
  unfold State.foreignMap
  repeat' first
    | (extract_lets +onlyGivenNames x; first | (with_reducible refine Keeps.cut (x := x) ?_ ?_; rotate_left; (try clear_value x); (intro _; skip); rotate_right; subst x) | subst x)
    | with_reducible assumption | exact h6 | exact h7 | exact h11 | exact h12 | exact h17 | exact h20 | with_reducible apply State.indexMap_keeps | with_reducible apply State.takeLines_keeps | with_reducible apply State.restoreLine_keeps | with_reducible apply State.thawTracts_keeps | with_reducible apply State.post_keeps | with_reducible apply State.bump_keeps | with_reducible apply State.putPair_keeps | with_reducible apply State.replayNext_keeps | with_reducible apply State.replayTasks_keeps | with_reducible apply Keeps.foldl | with_reducible apply Keeps.foldlFst
    | (intro _; skip) | split
    | (dsimp only; skip)
    | (with_reducible refine Keeps.lit rfl rfl ?_; first | with_reducible assumption | exact h6 | exact h7 | exact h11 | exact h12 | exact h17 | exact h20 | with_reducible apply State.indexMap_keeps | with_reducible apply State.takeLines_keeps | with_reducible apply State.restoreLine_keeps | with_reducible apply State.thawTracts_keeps | with_reducible apply State.post_keeps | with_reducible apply State.bump_keeps | with_reducible apply State.putPair_keeps | with_reducible apply State.replayNext_keeps | with_reducible apply State.replayTasks_keeps | with_reducible apply Keeps.foldl | with_reducible apply Keeps.foldlFst | (split; skip))

theorem execForeignMapUsable_keeps {ps : Part → Prop} {s : State} {a1 : RebuildIn} (h6 : ps (.regs 6)) (h7 : ps (.regs 7)) (h11 : ps (.regs 11)) (h12 : ps (.regs 12)) (h17 : ps (.regs 17)) (h20 : ps (.regs 20)) (h_cry : ps .cry) (h_dck : ps .dck) (h_evt : ps .evt) (h_fresh : ps .fresh) (h_gens : ps .gens) (h_hbm : ps .hbm) (h_lve : ps .lve) (h_out : ps .out) (h_pci : ps .pci) (h_qqp : ps .qqp) (h_tly : ps .tly) : ∀ r, (execForeignMapUsable a1 s) = .next r → Keeps ps s r := by
  intro r e
  cases e
  have h := Keeps.refl (ps := ps) s
  repeat' first
    | with_reducible assumption | exact h6 | exact h7 | exact h11 | exact h12 | exact h17 | exact h20 | with_reducible apply State.when_keeps | with_reducible apply State.foreignMap_keeps
    | (intro _; skip) | split
    | (dsimp only; skip)

theorem State.replayOver_keeps {ps : Part → Prop} {s0 s : State} (h9 : ps (.regs 9)) (h17 : ps (.regs 17)) (h_evt : ps .evt) (h_lve : ps .lve) (h_med : ps .med) (h_out : ps .out) (h_pci : ps .pci) (h : Keeps ps s0 s) : Keeps ps s0 (State.replayOver s) := by
  unfold State.replayOver
  repeat' first
    | (extract_lets +onlyGivenNames x; first | (with_reducible refine Keeps.cut (x := x) ?_ ?_; rotate_left; (try clear_value x); (intro _; skip); rotate_right; subst x) | subst x)
    | with_reducible assumption | exact h9 | exact h17 | with_reducible apply State.eraseRefuge_keeps | with_reducible apply State.post_keeps
    | (intro _; skip) | split
    | (dsimp only; skip)
    | (with_reducible refine Keeps.lit rfl rfl ?_; first | with_reducible assumption | exact h9 | exact h17 | with_reducible apply State.eraseRefuge_keeps | with_reducible apply State.post_keeps | (split; skip))

theorem execForeignReplayDone_keeps {ps : Part → Prop} {s : State} (h9 : ps (.regs 9)) (h17 : ps (.regs 17)) (h_evt : ps .evt) (h_lve : ps .lve) (h_med : ps .med) (h_out : ps .out) (h_pci : ps .pci) : ∀ r, (execForeignReplayDone s) = .next r → Keeps ps s r := by
  intro r e
  cases e
  have h := Keeps.refl (ps := ps) s
  repeat' first
    | with_reducible assumption | exact h9 | exact h17 | with_reducible apply State.when_keeps | with_reducible apply State.replayOver_keeps
    | (intro _; skip) | split
    | (dsimp only; skip)

theorem State.restoreRefuge_keeps {ps : Part → Prop} {a1 : List Refuge} {s0 s : State} (h7 : ps (.regs 7)) (h9 : ps (.regs 9)) (h11 : ps (.regs 11)) (h12 : ps (.regs 12)) (h17 : ps (.regs 17)) (h20 : ps (.regs 20)) (h_cry : ps .cry) (h_evt : ps .evt) (h_fresh : ps .fresh) (h_gens : ps .gens) (h_hbm : ps .hbm) (h_lve : ps .lve) (h_med : ps .med) (h_out : ps .out) (h_pci : ps .pci) (h_qqp : ps .qqp) (h_tly : ps .tly) (h : Keeps ps s0 s) : Keeps ps s0 (State.restoreRefuge s a1) := by
  unfold State.restoreRefuge
  repeat' first
    | (extract_lets +onlyGivenNames x; first | (with_reducible refine Keeps.cut (x := x) ?_ ?_; rotate_left; (try clear_value x); (intro _; skip); rotate_right; subst x) | subst x)
    | with_reducible assumption | exact h7 | exact h9 | exact h11 | exact h12 | exact h17 | exact h20 | with_reducible apply State.restoreLine_keeps | with_reducible apply State.eraseRefuge_keeps | with_reducible apply State.indexRec_keeps | with_reducible apply State.journal_keeps | with_reducible apply State.post_keeps | with_reducible apply State.flag_keeps | with_reducible apply Keeps.foldl | with_reducible apply Keeps.foldlFst
    | (intro _; skip) | split
    | (dsimp only; skip)
    | (with_reducible refine Keeps.lit rfl rfl ?_; first | with_reducible assumption | exact h7 | exact h9 | exact h11 | exact h12 | exact h17 | exact h20 | with_reducible apply State.restoreLine_keeps | with_reducible apply State.eraseRefuge_keeps | with_reducible apply State.indexRec_keeps | with_reducible apply State.journal_keeps | with_reducible apply State.post_keeps | with_reducible apply State.flag_keeps | with_reducible apply Keeps.foldl | with_reducible apply Keeps.foldlFst | (split; skip))

theorem State.restoreCopies_keeps {ps : Part → Prop} {s0 s : State} (h11 : ps (.regs 11)) (h12 : ps (.regs 12)) (h17 : ps (.regs 17)) (h20 : ps (.regs 20)) (h_cry : ps .cry) (h_evt : ps .evt) (h_fresh : ps .fresh) (h_gens : ps .gens) (h_hbm : ps .hbm) (h_lve : ps .lve) (h_out : ps .out) (h_pci : ps .pci) (h_qqp : ps .qqp) (h_tly : ps .tly) (h : Keeps ps s0 s) : Keeps ps s0 (State.restoreCopies s) := by
  unfold State.restoreCopies
  repeat' first
    | with_reducible assumption | exact h11 | exact h12 | exact h17 | exact h20 | with_reducible apply State.restoreLine_keeps | with_reducible apply Keeps.foldl | with_reducible apply Keeps.foldlFst
    | (intro _; skip) | split
    | (dsimp only; skip)
    | (with_reducible refine Keeps.lit rfl rfl ?_; first | with_reducible assumption | exact h11 | exact h12 | exact h17 | exact h20 | with_reducible apply State.restoreLine_keeps | with_reducible apply Keeps.foldl | with_reducible apply Keeps.foldlFst | (split; skip))

theorem State.rebuilt_keeps {ps : Part → Prop} {a1 : RebuildIn} {s0 s : State} (h4 : ps (.regs 4)) (h7 : ps (.regs 7)) (h9 : ps (.regs 9)) (h11 : ps (.regs 11)) (h12 : ps (.regs 12)) (h16 : ps (.regs 16)) (h17 : ps (.regs 17)) (h20 : ps (.regs 20)) (h_cry : ps .cry) (h_evt : ps .evt) (h_fresh : ps .fresh) (h_gens : ps .gens) (h_hbm : ps .hbm) (h_lve : ps .lve) (h_med : ps .med) (h_out : ps .out) (h_pci : ps .pci) (h_pwr : ps .pwr) (h_qqp : ps .qqp) (h_tly : ps .tly) (h : Keeps ps s0 s) : Keeps ps s0 (State.rebuilt s a1) := by
  unfold State.rebuilt
  repeat' first
    | (extract_lets +onlyGivenNames x; first | (with_reducible refine Keeps.cut (x := x) ?_ ?_; rotate_left; (try clear_value x); (intro _; skip); rotate_right; subst x) | subst x)
    | with_reducible assumption | exact h4 | exact h7 | exact h9 | exact h11 | exact h12 | exact h16 | exact h17 | exact h20 | with_reducible apply State.indexMap_keeps | with_reducible apply State.put64_keeps | with_reducible apply State.resyncJournal_keeps | with_reducible apply State.restoreCopies_keeps | with_reducible apply State.restoreRefuge_keeps | with_reducible apply State.post_keeps | with_reducible apply State.thawTracts_keeps | with_reducible apply State.put_keeps | with_reducible apply State.rsCheck_keeps | with_reducible apply State.replayNext_keeps | with_reducible apply Keeps.foldl | with_reducible apply Keeps.foldlFst
    | (intro _; skip) | split
    | (dsimp only; skip)
    | (with_reducible refine Keeps.lit rfl rfl ?_; first | with_reducible assumption | exact h4 | exact h7 | exact h9 | exact h11 | exact h12 | exact h16 | exact h17 | exact h20 | with_reducible apply State.indexMap_keeps | with_reducible apply State.put64_keeps | with_reducible apply State.resyncJournal_keeps | with_reducible apply State.restoreCopies_keeps | with_reducible apply State.restoreRefuge_keeps | with_reducible apply State.post_keeps | with_reducible apply State.thawTracts_keeps | with_reducible apply State.put_keeps | with_reducible apply State.rsCheck_keeps | with_reducible apply State.replayNext_keeps | with_reducible apply Keeps.foldl | with_reducible apply Keeps.foldlFst | (split; skip))

theorem execRebuildDone_keeps {ps : Part → Prop} {s : State} {a1 : RebuildIn} (h4 : ps (.regs 4)) (h7 : ps (.regs 7)) (h9 : ps (.regs 9)) (h11 : ps (.regs 11)) (h12 : ps (.regs 12)) (h16 : ps (.regs 16)) (h17 : ps (.regs 17)) (h20 : ps (.regs 20)) (h_cry : ps .cry) (h_evt : ps .evt) (h_fresh : ps .fresh) (h_gens : ps .gens) (h_hbm : ps .hbm) (h_lve : ps .lve) (h_med : ps .med) (h_out : ps .out) (h_pci : ps .pci) (h_pwr : ps .pwr) (h_qqp : ps .qqp) (h_tly : ps .tly) : ∀ r, (execRebuildDone a1 s) = .next r → Keeps ps s r := by
  intro r e
  cases e
  have h := Keeps.refl (ps := ps) s
  repeat' first
    | with_reducible assumption | exact h4 | exact h7 | exact h9 | exact h11 | exact h12 | exact h16 | exact h17 | exact h20 | with_reducible apply State.when_keeps | with_reducible apply State.rebuilt_keeps
    | (intro _; skip) | split
    | (dsimp only; skip)

theorem State.handbackCkpt_keeps {ps : Part → Prop} {s0 s : State} (h7 : ps (.regs 7)) (h11 : ps (.regs 11)) (h17 : ps (.regs 17)) (h20 : ps (.regs 20)) (h_evt : ps .evt) (h_gens : ps .gens) (h_lve : ps .lve) (h_out : ps .out) (h_pci : ps .pci) (h_tly : ps .tly) (h : Keeps ps s0 s) : Keeps ps s0 (State.handbackCkpt s) := by
  unfold State.handbackCkpt
  repeat' first
    | with_reducible assumption | exact h7 | exact h11 | exact h17 | exact h20 | with_reducible apply State.ckptStart_keeps
    | (intro _; skip) | split
    | (dsimp only; skip)

theorem State.handbackRelease_keeps {ps : Part → Prop} {s0 s : State} (h5 : ps (.regs 5)) (h6 : ps (.regs 6)) (h7 : ps (.regs 7)) (h9 : ps (.regs 9)) (h11 : ps (.regs 11)) (h12 : ps (.regs 12)) (h13 : ps (.regs 13)) (h14 : ps (.regs 14)) (h16 : ps (.regs 16)) (h17 : ps (.regs 17)) (h20 : ps (.regs 20)) (h_cry : ps .cry) (h_dck : ps .dck) (h_evt : ps .evt) (h_fab : ps .fab) (h_fresh : ps .fresh) (h_gens : ps .gens) (h_hbm : ps .hbm) (h_lve : ps .lve) (h_med : ps .med) (h_noc : ps .noc) (h_out : ps .out) (h_pci : ps .pci) (h_qqp : ps .qqp) (h_spm : ps .spm) (h_tly : ps .tly) (h : Keeps ps s0 s) : Keeps ps s0 (State.handbackRelease s) := by
  unfold State.handbackRelease
  repeat' first
    | with_reducible assumption | exact h5 | exact h6 | exact h7 | exact h9 | exact h11 | exact h12 | exact h13 | exact h14 | exact h16 | exact h17 | exact h20 | with_reducible apply State.releaseOp_keeps | with_reducible apply Keeps.foldl | with_reducible apply Keeps.foldlFst
    | (intro _; skip) | split
    | (dsimp only; skip)
    | (with_reducible refine Keeps.lit rfl rfl ?_; first | with_reducible assumption | exact h5 | exact h6 | exact h7 | exact h9 | exact h11 | exact h12 | exact h13 | exact h14 | exact h16 | exact h17 | exact h20 | with_reducible apply State.releaseOp_keeps | with_reducible apply Keeps.foldl | with_reducible apply Keeps.foldlFst | (split; skip))

theorem State.writeAnchor_keeps {ps : Part → Prop} {a1 : Anchor} {a2 : Bool} {s0 s : State} (h_med : ps .med) (h_tly : ps .tly) (h : Keeps ps s0 s) : Keeps ps s0 (State.writeAnchor s a1 a2) := by
  unfold State.writeAnchor
  repeat' first
    | (extract_lets +onlyGivenNames x; first | (with_reducible refine Keeps.cut (x := x) ?_ ?_; rotate_left; (try clear_value x); (intro _; skip); rotate_right; subst x) | subst x)
    | with_reducible assumption | with_reducible apply State.enqueue_keeps | with_reducible apply Keeps.foldl | with_reducible apply Keeps.foldlFst
    | (intro _; skip) | split
    | (dsimp only; skip)
    | (with_reducible refine Keeps.lit rfl rfl ?_; first | with_reducible assumption | with_reducible apply State.enqueue_keeps | with_reducible apply Keeps.foldl | with_reducible apply Keeps.foldlFst | (split; skip))

theorem State.ckptOver_keeps {ps : Part → Prop} {s0 s : State} (h5 : ps (.regs 5)) (h6 : ps (.regs 6)) (h7 : ps (.regs 7)) (h9 : ps (.regs 9)) (h11 : ps (.regs 11)) (h12 : ps (.regs 12)) (h13 : ps (.regs 13)) (h14 : ps (.regs 14)) (h16 : ps (.regs 16)) (h17 : ps (.regs 17)) (h20 : ps (.regs 20)) (h_cry : ps .cry) (h_dck : ps .dck) (h_evt : ps .evt) (h_fab : ps .fab) (h_fresh : ps .fresh) (h_gens : ps .gens) (h_hbm : ps .hbm) (h_lve : ps .lve) (h_med : ps .med) (h_noc : ps .noc) (h_out : ps .out) (h_pci : ps .pci) (h_qqp : ps .qqp) (h_spm : ps .spm) (h_tly : ps .tly) (h : Keeps ps s0 s) : Keeps ps s0 (State.ckptOver s) := by
  unfold State.ckptOver
  repeat' first
    | (extract_lets +onlyGivenNames x; first | (with_reducible refine Keeps.cut (x := x) ?_ ?_; rotate_left; (try clear_value x); (intro _; skip); rotate_right; subst x) | subst x)
    | with_reducible assumption | exact h5 | exact h6 | exact h7 | exact h9 | exact h11 | exact h12 | exact h13 | exact h14 | exact h16 | exact h17 | exact h20 | with_reducible apply State.put64_keeps | with_reducible apply State.journalMirrored_keeps | with_reducible apply State.freeRecords_keeps | with_reducible apply State.put_keeps | with_reducible apply State.ckptCheck_keeps | with_reducible apply State.handbackRelease_keeps | with_reducible apply State.handbackCkpt_keeps
    | (intro _; skip) | split
    | (dsimp only; skip)
    | (with_reducible refine Keeps.lit rfl rfl ?_; first | with_reducible assumption | exact h5 | exact h6 | exact h7 | exact h9 | exact h11 | exact h12 | exact h13 | exact h14 | exact h16 | exact h17 | exact h20 | with_reducible apply State.put64_keeps | with_reducible apply State.journalMirrored_keeps | with_reducible apply State.freeRecords_keeps | with_reducible apply State.put_keeps | with_reducible apply State.ckptCheck_keeps | with_reducible apply State.handbackRelease_keeps | with_reducible apply State.handbackCkpt_keeps | (split; skip))

theorem State.ckptEnded_keeps {ps : Part → Prop} {s0 s : State} (h5 : ps (.regs 5)) (h6 : ps (.regs 6)) (h7 : ps (.regs 7)) (h9 : ps (.regs 9)) (h11 : ps (.regs 11)) (h12 : ps (.regs 12)) (h13 : ps (.regs 13)) (h14 : ps (.regs 14)) (h16 : ps (.regs 16)) (h17 : ps (.regs 17)) (h20 : ps (.regs 20)) (h_cry : ps .cry) (h_dck : ps .dck) (h_evt : ps .evt) (h_fab : ps .fab) (h_fresh : ps .fresh) (h_gens : ps .gens) (h_hbm : ps .hbm) (h_lve : ps .lve) (h_med : ps .med) (h_noc : ps .noc) (h_out : ps .out) (h_pci : ps .pci) (h_qqp : ps .qqp) (h_spm : ps .spm) (h_tly : ps .tly) (h : Keeps ps s0 s) : Keeps ps s0 (State.ckptEnded s) := by
  unfold State.ckptEnded
  repeat' first
    | (extract_lets +onlyGivenNames x; first | (with_reducible refine Keeps.cut (x := x) ?_ ?_; rotate_left; (try clear_value x); (intro _; skip); rotate_right; subst x) | subst x)
    | with_reducible assumption | exact h5 | exact h6 | exact h7 | exact h9 | exact h11 | exact h12 | exact h13 | exact h14 | exact h16 | exact h17 | exact h20 | with_reducible apply State.journal_keeps | with_reducible apply State.ckptOver_keeps | with_reducible apply State.writeAnchor_keeps
    | (intro _; skip) | split
    | (dsimp only; skip)

theorem execCheckpointEnd_keeps {ps : Part → Prop} {s : State} {a1 : Nat} (h5 : ps (.regs 5)) (h6 : ps (.regs 6)) (h7 : ps (.regs 7)) (h9 : ps (.regs 9)) (h11 : ps (.regs 11)) (h12 : ps (.regs 12)) (h13 : ps (.regs 13)) (h14 : ps (.regs 14)) (h16 : ps (.regs 16)) (h17 : ps (.regs 17)) (h20 : ps (.regs 20)) (h_cry : ps .cry) (h_dck : ps .dck) (h_evt : ps .evt) (h_fab : ps .fab) (h_fresh : ps .fresh) (h_gens : ps .gens) (h_hbm : ps .hbm) (h_lve : ps .lve) (h_med : ps .med) (h_noc : ps .noc) (h_out : ps .out) (h_pci : ps .pci) (h_qqp : ps .qqp) (h_spm : ps .spm) (h_tly : ps .tly) : ∀ r, (execCheckpointEnd a1 s) = .next r → Keeps ps s r := by
  intro r e
  cases e
  have h := Keeps.refl (ps := ps) s
  repeat' first
    | with_reducible assumption | exact h5 | exact h6 | exact h7 | exact h9 | exact h11 | exact h12 | exact h13 | exact h14 | exact h16 | exact h17 | exact h20 | with_reducible apply State.when_keeps | with_reducible apply State.ckptEnded_keeps
    | (intro _; skip) | split
    | (dsimp only; skip)

theorem State.handbackGo_keeps {ps : Part → Prop} {a1 : Req} {a2 : Nat} {s0 s : State} (h11 : ps (.regs 11)) (h16 : ps (.regs 16)) (h17 : ps (.regs 17)) (h20 : ps (.regs 20)) (h_evt : ps .evt) (h_gens : ps .gens) (h_lve : ps .lve) (h_out : ps .out) (h_pci : ps .pci) (h_tly : ps .tly) (h : Keeps ps s0 s) : Keeps ps s0 (State.handbackGo s a1 a2) := by
  unfold State.handbackGo
  repeat' first
    | with_reducible assumption | exact h11 | exact h16 | exact h17 | exact h20 | with_reducible apply State.handbackBegin_keeps | with_reducible apply State.refuseWrite_keeps
    | (intro _; skip) | split
    | (dsimp only; skip)

theorem execHandbackStart_keeps {ps : Part → Prop} {s : State} {a1 : Req} {a2 : Nat} (h11 : ps (.regs 11)) (h16 : ps (.regs 16)) (h17 : ps (.regs 17)) (h20 : ps (.regs 20)) (h_evt : ps .evt) (h_gens : ps .gens) (h_lve : ps .lve) (h_out : ps .out) (h_pci : ps .pci) (h_tly : ps .tly) : ∀ r, (execHandbackStart a1 a2 s) = .next r → Keeps ps s r := by
  intro r e
  cases e
  have h := Keeps.refl (ps := ps) s
  repeat' first
    | with_reducible assumption | exact h11 | exact h16 | exact h17 | exact h20 | with_reducible apply State.when_keeps | with_reducible apply State.byReq_keeps | with_reducible apply State.handbackGo_keeps
    | (intro _; skip) | split
    | (dsimp only; skip)

theorem execHandbackDestageDone_keeps {ps : Part → Prop} {s : State} (h7 : ps (.regs 7)) (h11 : ps (.regs 11)) (h17 : ps (.regs 17)) (h20 : ps (.regs 20)) (h_evt : ps .evt) (h_gens : ps .gens) (h_lve : ps .lve) (h_out : ps .out) (h_pci : ps .pci) (h_tly : ps .tly) : ∀ r, (execHandbackDestageDone s) = .next r → Keeps ps s r := by
  intro r e
  cases e
  have h := Keeps.refl (ps := ps) s
  repeat' first
    | with_reducible assumption | exact h7 | exact h11 | exact h17 | exact h20 | with_reducible apply State.when_keeps | with_reducible apply State.handbackCkpt_keeps
    | (intro _; skip) | split
    | (dsimp only; skip)
    | (with_reducible refine Keeps.lit rfl rfl ?_; first | with_reducible assumption | exact h7 | exact h11 | exact h17 | exact h20 | with_reducible apply State.when_keeps | with_reducible apply State.handbackCkpt_keeps | (split; skip))

theorem State.handbackEnd_keeps {ps : Part → Prop} {s0 s : State} (h6 : ps (.regs 6)) (h7 : ps (.regs 7)) (h11 : ps (.regs 11)) (h17 : ps (.regs 17)) (h20 : ps (.regs 20)) (h_dck : ps .dck) (h_evt : ps .evt) (h_gens : ps .gens) (h_lve : ps .lve) (h_out : ps .out) (h_pci : ps .pci) (h_qqp : ps .qqp) (h_tly : ps .tly) (h : Keeps ps s0 s) : Keeps ps s0 (State.handbackEnd s) := by
  unfold State.handbackEnd
  repeat' first
    | (extract_lets +onlyGivenNames x; first | (with_reducible refine Keeps.cut (x := x) ?_ ?_; rotate_left; (try clear_value x); (intro _; skip); rotate_right; subst x) | subst x)
    | with_reducible assumption | exact h6 | exact h7 | exact h11 | exact h17 | exact h20 | with_reducible apply State.dropForeign_keeps | with_reducible apply State.putPair_keeps | with_reducible apply State.releaseLines_keeps | with_reducible apply State.post_keeps
    | (intro _; skip) | split
    | (dsimp only; skip)
    | (with_reducible refine Keeps.lit rfl rfl ?_; first | with_reducible assumption | exact h6 | exact h7 | exact h11 | exact h17 | exact h20 | with_reducible apply State.dropForeign_keeps | with_reducible apply State.putPair_keeps | with_reducible apply State.releaseLines_keeps | with_reducible apply State.post_keeps | (split; skip))

theorem execPartnerAliveOutToggle_keeps {ps : Part → Prop} {s : State} (h_lve : ps .lve) : ∀ r, (execPartnerAliveOutToggle s) = .next r → Keeps ps s r := by
  intro r e
  cases e
  have h := Keeps.refl (ps := ps) s
  repeat' first
    | with_reducible assumption | with_reducible apply State.when_keeps
    | (intro _; skip) | split
    | (dsimp only; skip)
    | (with_reducible refine Keeps.lit rfl rfl ?_; first | with_reducible assumption | with_reducible apply State.when_keeps | (split; skip))

theorem execPartnerAliveEdge_keeps {ps : Part → Prop} {s : State} (h11 : ps (.regs 11)) (h17 : ps (.regs 17)) (h20 : ps (.regs 20)) (h_evt : ps .evt) (h_gens : ps .gens) (h_lve : ps .lve) (h_out : ps .out) (h_pci : ps .pci) (h_qqp : ps .qqp) (h_tly : ps .tly) : ∀ r, (execPartnerAliveEdge s) = .next r → Keeps ps s r := by
  intro r e
  cases e
  have h := Keeps.refl (ps := ps) s
  repeat' first
    | (extract_lets +onlyGivenNames x; first | (with_reducible refine Keeps.cut (x := x) ?_ ?_; rotate_left; (try clear_value x); (intro _; skip); rotate_right; subst x) | subst x)
    | with_reducible assumption | exact h11 | exact h17 | exact h20 | with_reducible apply State.when_keeps | with_reducible apply State.put_keeps | with_reducible apply State.linkLost_keeps
    | (intro _; skip) | split
    | (dsimp only; skip)
    | (with_reducible refine Keeps.lit rfl rfl ?_; first | with_reducible assumption | exact h11 | exact h17 | exact h20 | with_reducible apply State.when_keeps | with_reducible apply State.put_keeps | with_reducible apply State.linkLost_keeps | (split; skip))

theorem execWireSilent_keeps {ps : Part → Prop} {s : State} (h11 : ps (.regs 11)) (h17 : ps (.regs 17)) (h_evt : ps .evt) (h_out : ps .out) (h_pci : ps .pci) : ∀ r, (execWireSilent s) = .next r → Keeps ps s r := by
  intro r e
  cases e
  have h := Keeps.refl (ps := ps) s
  repeat' first
    | (extract_lets +onlyGivenNames x; first | (with_reducible refine Keeps.cut (x := x) ?_ ?_; rotate_left; (try clear_value x); (intro _; skip); rotate_right; subst x) | subst x)
    | with_reducible assumption | exact h11 | exact h17 | with_reducible apply State.when_keeps | with_reducible apply State.put_keeps | with_reducible apply State.post_keeps
    | (intro _; skip) | split
    | (dsimp only; skip)

theorem execLinkSilent_keeps {ps : Part → Prop} {s : State} (h11 : ps (.regs 11)) (h17 : ps (.regs 17)) (h20 : ps (.regs 20)) (h_evt : ps .evt) (h_gens : ps .gens) (h_lve : ps .lve) (h_out : ps .out) (h_pci : ps .pci) (h_qqp : ps .qqp) (h_tly : ps .tly) : ∀ r, (execLinkSilent s) = .next r → Keeps ps s r := by
  intro r e
  cases e
  have h := Keeps.refl (ps := ps) s
  repeat' first
    | (extract_lets +onlyGivenNames x; first | (with_reducible refine Keeps.cut (x := x) ?_ ?_; rotate_left; (try clear_value x); (intro _; skip); rotate_right; subst x) | subst x)
    | with_reducible assumption | exact h11 | exact h17 | exact h20 | with_reducible apply State.when_keeps | with_reducible apply State.put_keeps | with_reducible apply State.linkLost_keeps
    | (intro _; skip) | split
    | (dsimp only; skip)
    | (with_reducible refine Keeps.lit rfl rfl ?_; first | with_reducible assumption | exact h11 | exact h17 | exact h20 | with_reducible apply State.when_keeps | with_reducible apply State.put_keeps | with_reducible apply State.linkLost_keeps | (split; skip))

theorem execTrainingTimeout_keeps {ps : Part → Prop} {s : State} (h11 : ps (.regs 11)) (h17 : ps (.regs 17)) (h_evt : ps .evt) (h_out : ps .out) (h_pci : ps .pci) : ∀ r, (execTrainingTimeout s) = .next r → Keeps ps s r := by
  intro r e
  cases e
  have h := Keeps.refl (ps := ps) s
  repeat' first
    | with_reducible assumption | exact h11 | exact h17 | with_reducible apply State.when_keeps | with_reducible apply State.post_keeps | with_reducible apply State.putPair_keeps
    | (intro _; skip) | split
    | (dsimp only; skip)

theorem State.pfailCut_keeps {ps : Part → Prop} {s0 s : State} (h5 : ps (.regs 5)) (h6 : ps (.regs 6)) (h7 : ps (.regs 7)) (h9 : ps (.regs 9)) (h11 : ps (.regs 11)) (h12 : ps (.regs 12)) (h13 : ps (.regs 13)) (h14 : ps (.regs 14)) (h16 : ps (.regs 16)) (h17 : ps (.regs 17)) (h20 : ps (.regs 20)) (h_cry : ps .cry) (h_dck : ps .dck) (h_evt : ps .evt) (h_fab : ps .fab) (h_fresh : ps .fresh) (h_gens : ps .gens) (h_hbm : ps .hbm) (h_lve : ps .lve) (h_med : ps .med) (h_noc : ps .noc) (h_out : ps .out) (h_pci : ps .pci) (h_qqp : ps .qqp) (h_spm : ps .spm) (h_tly : ps .tly) (h : Keeps ps s0 s) : Keeps ps s0 (State.pfailCut s) := by
  unfold State.pfailCut
  repeat' first
    | (extract_lets +onlyGivenNames x; first | (with_reducible refine Keeps.cut (x := x) ?_ ?_; rotate_left; (try clear_value x); (intro _; skip); rotate_right; subst x) | subst x)
    | with_reducible assumption | exact h5 | exact h6 | exact h7 | exact h9 | exact h11 | exact h12 | exact h13 | exact h14 | exact h16 | exact h17 | exact h20 | with_reducible apply State.put_keeps | with_reducible apply State.lunResume_keeps | with_reducible apply State.cancelUndercuts_keeps | with_reducible apply State.taskDown_keeps | with_reducible apply State.opDown_keeps | with_reducible apply State.attemptEnd_keeps | with_reducible apply State.dropPkt_keeps | with_reducible apply Keeps.foldl | with_reducible apply Keeps.foldlFst
    | (intro _; skip) | split
    | (dsimp only; skip)
    | (with_reducible refine Keeps.lit rfl rfl ?_; first | with_reducible assumption | exact h5 | exact h6 | exact h7 | exact h9 | exact h11 | exact h12 | exact h13 | exact h14 | exact h16 | exact h17 | exact h20 | with_reducible apply State.put_keeps | with_reducible apply State.lunResume_keeps | with_reducible apply State.cancelUndercuts_keeps | with_reducible apply State.taskDown_keeps | with_reducible apply State.opDown_keeps | with_reducible apply State.attemptEnd_keeps | with_reducible apply State.dropPkt_keeps | with_reducible apply Keeps.foldl | with_reducible apply Keeps.foldlFst | (split; skip))

theorem execPfailNFall_keeps {ps : Part → Prop} {s : State} (h5 : ps (.regs 5)) (h6 : ps (.regs 6)) (h7 : ps (.regs 7)) (h9 : ps (.regs 9)) (h11 : ps (.regs 11)) (h12 : ps (.regs 12)) (h13 : ps (.regs 13)) (h14 : ps (.regs 14)) (h16 : ps (.regs 16)) (h17 : ps (.regs 17)) (h20 : ps (.regs 20)) (h_cry : ps .cry) (h_dck : ps .dck) (h_evt : ps .evt) (h_fab : ps .fab) (h_fresh : ps .fresh) (h_gens : ps .gens) (h_hbm : ps .hbm) (h_lve : ps .lve) (h_med : ps .med) (h_noc : ps .noc) (h_out : ps .out) (h_pci : ps .pci) (h_qqp : ps .qqp) (h_spm : ps .spm) (h_tly : ps .tly) : ∀ r, (execPfailNFall s) = .next r → Keeps ps s r := by
  intro r e
  cases e
  have h := Keeps.refl (ps := ps) s
  repeat' first
    | (extract_lets +onlyGivenNames x; first | (with_reducible refine Keeps.cut (x := x) ?_ ?_; rotate_left; (try clear_value x); (intro _; skip); rotate_right; subst x) | subst x)
    | with_reducible assumption | exact h5 | exact h6 | exact h7 | exact h9 | exact h11 | exact h12 | exact h13 | exact h14 | exact h16 | exact h17 | exact h20 | with_reducible apply State.when_keeps | with_reducible apply State.pfailCut_keeps
    | (intro _; skip) | split
    | (dsimp only; skip)
    | (with_reducible refine Keeps.lit rfl rfl ?_; first | with_reducible assumption | exact h5 | exact h6 | exact h7 | exact h9 | exact h11 | exact h12 | exact h13 | exact h14 | exact h16 | exact h17 | exact h20 | with_reducible apply State.when_keeps | with_reducible apply State.pfailCut_keeps | (split; skip))

theorem execPfailDetected_keeps {ps : Part → Prop} {s : State} (h11 : ps (.regs 11)) (h17 : ps (.regs 17)) (h20 : ps (.regs 20)) (h_evt : ps .evt) (h_gens : ps .gens) (h_lve : ps .lve) (h_out : ps .out) (h_pci : ps .pci) (h_tly : ps .tly) : ∀ r, (execPfailDetected s) = .next r → Keeps ps s r := by
  intro r e
  cases e
  have h := Keeps.refl (ps := ps) s
  repeat' first
    | with_reducible assumption | exact h11 | exact h17 | exact h20 | with_reducible apply State.when_keeps | with_reducible apply State.sendAll_keeps
    | (intro _; skip) | split
    | (dsimp only; skip)
    | (with_reducible refine Keeps.lit rfl rfl ?_; first | with_reducible assumption | exact h11 | exact h17 | exact h20 | with_reducible apply State.when_keeps | with_reducible apply State.sendAll_keeps | (split; skip))

theorem State.pfailHeld_keeps {ps : Part → Prop} {s0 s : State} (h17 : ps (.regs 17)) (h_evt : ps .evt) (h_lve : ps .lve) (h_med : ps .med) (h_out : ps .out) (h_pci : ps .pci) (h_qqp : ps .qqp) (h_tly : ps .tly) (h : Keeps ps s0 s) : Keeps ps s0 (State.pfailHeld s) := by
  unfold State.pfailHeld
  repeat' first
    | (extract_lets +onlyGivenNames x; first | (with_reducible refine Keeps.cut (x := x) ?_ ?_; rotate_left; (try clear_value x); (intro _; skip); rotate_right; subst x) | subst x)
    | with_reducible assumption | exact h17 | with_reducible apply State.stopMirror_keeps
    | (intro _; skip) | split
    | (dsimp only; skip)
    | (with_reducible refine Keeps.lit rfl rfl ?_; first | with_reducible assumption | exact h17 | with_reducible apply State.stopMirror_keeps | (split; skip))

theorem execPfailAckTimeout_keeps {ps : Part → Prop} {s : State} (h17 : ps (.regs 17)) (h_evt : ps .evt) (h_lve : ps .lve) (h_med : ps .med) (h_out : ps .out) (h_pci : ps .pci) (h_qqp : ps .qqp) (h_tly : ps .tly) : ∀ r, (execPfailAckTimeout s) = .next r → Keeps ps s r := by
  intro r e
  cases e
  have h := Keeps.refl (ps := ps) s
  repeat' first
    | with_reducible assumption | exact h17 | with_reducible apply State.when_keeps | with_reducible apply State.pfailHeld_keeps
    | (intro _; skip) | split
    | (dsimp only; skip)

theorem State.refugeSaved_keeps {ps : Part → Prop} {s0 s : State} (h9 : ps (.regs 9)) (h17 : ps (.regs 17)) (h_evt : ps .evt) (h_lve : ps .lve) (h_med : ps .med) (h_out : ps .out) (h_pci : ps .pci) (h : Keeps ps s0 s) : Keeps ps s0 (State.refugeSaved s) := by
  unfold State.refugeSaved
  repeat' first
    | (extract_lets +onlyGivenNames x; first | (with_reducible refine Keeps.cut (x := x) ?_ ?_; rotate_left; (try clear_value x); (intro _; skip); rotate_right; subst x) | subst x)
    | with_reducible assumption | exact h9 | exact h17 | with_reducible apply State.updStripe_keeps | with_reducible apply State.refillReserve_keeps | with_reducible apply Keeps.foldl | with_reducible apply Keeps.foldlFst
    | (intro _; skip) | split
    | (dsimp only; skip)
    | (with_reducible refine Keeps.lit rfl rfl ?_; first | with_reducible assumption | exact h9 | exact h17 | with_reducible apply State.updStripe_keeps | with_reducible apply State.refillReserve_keeps | with_reducible apply Keeps.foldl | with_reducible apply Keeps.foldlFst | (split; skip))

theorem execRefugeSave_keeps {ps : Part → Prop} {s : State} (h9 : ps (.regs 9)) (h17 : ps (.regs 17)) (h_evt : ps .evt) (h_lve : ps .lve) (h_med : ps .med) (h_out : ps .out) (h_pci : ps .pci) : ∀ r, (execRefugeSave s) = .next r → Keeps ps s r := by
  intro r e
  cases e
  have h := Keeps.refl (ps := ps) s
  repeat' first
    | with_reducible assumption | exact h9 | exact h17 | with_reducible apply State.when_keeps | with_reducible apply State.refugeSaved_keeps
    | (intro _; skip) | split
    | (dsimp only; skip)

theorem execPfailNRise_keeps {ps : Part → Prop} {s : State} (h_lve : ps .lve) : ∀ r, (execPfailNRise s) = .next r → Keeps ps s r := by
  intro r e
  cases e
  have h := Keeps.refl (ps := ps) s
  repeat' first
    | with_reducible assumption
    | (intro _; skip) | split
    | (dsimp only; skip)
    | (with_reducible refine Keeps.lit rfl rfl ?_; first | with_reducible assumption | (split; skip))

theorem execFetchResume_keeps {ps : Part → Prop} {s : State} (h_lve : ps .lve) (h_med : ps .med) : ∀ r, (execFetchResume s) = .next r → Keeps ps s r := by
  intro r e
  cases e
  have h := Keeps.refl (ps := ps) s
  repeat' first
    | (extract_lets +onlyGivenNames x; first | (with_reducible refine Keeps.cut (x := x) ?_ ?_; rotate_left; (try clear_value x); (intro _; skip); rotate_right; subst x) | subst x)
    | with_reducible assumption | with_reducible apply State.when_keeps | with_reducible apply State.enqueue_keeps | with_reducible apply Keeps.foldl | with_reducible apply Keeps.foldlFst
    | (intro _; skip) | split
    | (dsimp only; skip)
    | (with_reducible refine Keeps.lit rfl rfl ?_; first | with_reducible assumption | with_reducible apply State.when_keeps | with_reducible apply State.enqueue_keeps | with_reducible apply Keeps.foldl | with_reducible apply Keeps.foldlFst | (split; skip))

end Sys2Proof.Machine
end

