-- ==== Sys2Proof/Laws/Levee.lean ====
section
/-! SUPPORT. What each operation and each meaning of Machine/Levee.lean keeps (Keeps): one lemma a definition. -/

-- The package as one text is checked in one process: its proofs are checked one after another, and its linters keep quiet.
set_option Elab.async false
set_option linter.all false

namespace Sys2Proof.Machine
open Sys2Proof

theorem State.bundleStart_keeps {ps : Part → Prop} {a1 : Nat} {a2 : Bool} {s0 s : State} (h11 : ps (.regs 11)) (h15 : ps (.regs 15)) (h_lve : ps .lve) (h : Keeps ps s0 s) : Keeps ps s0 (State.bundleStart s a1 a2) := by
  unfold State.bundleStart
  repeat' first
    | (extract_lets +onlyGivenNames x; first | (with_reducible refine Keeps.cut (x := x) ?_ ?_; rotate_left; (try clear_value x); (intro _; skip); rotate_right; subst x) | subst x)
    | with_reducible assumption | exact h11 | exact h15 | with_reducible apply State.updBnd_keeps | with_reducible apply State.put_keeps | with_reducible apply State.bump_keeps | with_reducible apply State.laneOn_keeps | with_reducible apply Keeps.foldl | with_reducible apply Keeps.foldlFst
    | (intro _; skip) | split
    | (dsimp only; skip)
    | (with_reducible refine Keeps.lit rfl rfl ?_; first | with_reducible assumption | exact h11 | exact h15 | with_reducible apply State.updBnd_keeps | with_reducible apply State.put_keeps | with_reducible apply State.bump_keeps | with_reducible apply State.laneOn_keeps | with_reducible apply Keeps.foldl | with_reducible apply Keeps.foldlFst | (split; skip))

theorem State.bundleFall_keeps {ps : Part → Prop} {a1 : Nat} {s0 s : State} (h3 : ps (.regs 3)) (h11 : ps (.regs 11)) (h15 : ps (.regs 15)) (h17 : ps (.regs 17)) (h20 : ps (.regs 20)) (h_clk : ps .clk) (h_evt : ps .evt) (h_gens : ps .gens) (h_lanes : ps .lanes) (h_lve : ps .lve) (h_out : ps .out) (h_pci : ps .pci) (h_qqp : ps .qqp) (h_tly : ps .tly) (h : Keeps ps s0 s) : Keeps ps s0 (State.bundleFall s a1) := by
  unfold State.bundleFall
  repeat' first
    | with_reducible assumption | exact h3 | exact h11 | exact h15 | exact h17 | exact h20 | with_reducible apply State.laneOff_keeps | with_reducible apply State.bundleDown_keeps | with_reducible apply Keeps.foldl | with_reducible apply Keeps.foldlFst
    | (intro _; skip) | split
    | (dsimp only; skip)

theorem State.bundleEn_keeps {ps : Part → Prop} {a1 : Nat} {s0 s : State} (h3 : ps (.regs 3)) (h11 : ps (.regs 11)) (h15 : ps (.regs 15)) (h17 : ps (.regs 17)) (h20 : ps (.regs 20)) (h_clk : ps .clk) (h_evt : ps .evt) (h_gens : ps .gens) (h_lanes : ps .lanes) (h_lve : ps .lve) (h_out : ps .out) (h_pci : ps .pci) (h_qqp : ps .qqp) (h_tly : ps .tly) (h : Keeps ps s0 s) : Keeps ps s0 (State.bundleEn s a1) := by
  unfold State.bundleEn
  repeat' first
    | (extract_lets +onlyGivenNames x; first | (with_reducible refine Keeps.cut (x := x) ?_ ?_; rotate_left; (try clear_value x); (intro _; skip); rotate_right; subst x) | subst x)
    | with_reducible assumption | exact h3 | exact h11 | exact h15 | exact h17 | exact h20 | with_reducible apply State.bundleStart_keeps | with_reducible apply State.bundleFall_keeps | with_reducible apply State.put_keeps | with_reducible apply Keeps.foldl | with_reducible apply Keeps.foldlFst
    | (intro _; skip) | split
    | (dsimp only; skip)

theorem execBundleEnableWrite_keeps {ps : Part → Prop} {s : State} {a1 : Req} {a2 : Nat} (h3 : ps (.regs 3)) (h11 : ps (.regs 11)) (h15 : ps (.regs 15)) (h17 : ps (.regs 17)) (h20 : ps (.regs 20)) (h_clk : ps .clk) (h_evt : ps .evt) (h_gens : ps .gens) (h_lanes : ps .lanes) (h_lve : ps .lve) (h_out : ps .out) (h_pci : ps .pci) (h_qqp : ps .qqp) (h_tly : ps .tly) : ∀ r, (execBundleEnableWrite a1 a2 s) = .next r → Keeps ps s r := by
  intro r e
  cases e
  have h := Keeps.refl (ps := ps) s
  repeat' first
    | with_reducible assumption | exact h3 | exact h11 | exact h15 | exact h17 | exact h20 | with_reducible apply State.when_keeps | with_reducible apply State.byReq_keeps | with_reducible apply State.bundleEn_keeps
    | (intro _; skip) | split
    | (dsimp only; skip)

theorem execBundleDetectTimeout_keeps {ps : Part → Prop} {s : State} {a1 : Nat} (h3 : ps (.regs 3)) (h11 : ps (.regs 11)) (h15 : ps (.regs 15)) (h17 : ps (.regs 17)) (h20 : ps (.regs 20)) (h_clk : ps .clk) (h_evt : ps .evt) (h_gens : ps .gens) (h_lanes : ps .lanes) (h_lve : ps .lve) (h_out : ps .out) (h_pci : ps .pci) (h_qqp : ps .qqp) (h_tly : ps .tly) : ∀ r, (execBundleDetectTimeout a1 s) = .next r → Keeps ps s r := by
  intro r e
  cases e
  have h := Keeps.refl (ps := ps) s
  repeat' first
    | with_reducible assumption | exact h3 | exact h11 | exact h15 | exact h17 | exact h20 | with_reducible apply State.when_keeps | with_reducible apply State.bundleFall_keeps
    | (intro _; skip) | split
    | (dsimp only; skip)

theorem execBundleEqualiseEnd_keeps {ps : Part → Prop} {s : State} {a1 : Nat} {a2 : Bool} (h11 : ps (.regs 11)) (h15 : ps (.regs 15)) (h16 : ps (.regs 16)) (h17 : ps (.regs 17)) (h_evt : ps .evt) (h_lanes : ps .lanes) (h_lve : ps .lve) (h_out : ps .out) (h_pci : ps .pci) : ∀ r, (execBundleEqualiseEnd a1 a2 s) = .next r → Keeps ps s r := by
  intro r e
  cases e
  have h := Keeps.refl (ps := ps) s
  repeat' first
    | (extract_lets +onlyGivenNames x; first | (with_reducible refine Keeps.cut (x := x) ?_ ?_; rotate_left; (try clear_value x); (intro _; skip); rotate_right; subst x) | subst x)
    | with_reducible assumption | exact h11 | exact h15 | exact h16 | exact h17 | with_reducible apply State.when_keeps | with_reducible apply State.laneTimeout_keeps | with_reducible apply State.updBnd_keeps | with_reducible apply State.put_keeps | with_reducible apply Keeps.foldl | with_reducible apply Keeps.foldlFst
    | (intro _; skip) | split
    | (dsimp only; skip)
    | (with_reducible refine Keeps.lit rfl rfl ?_; first | with_reducible assumption | exact h11 | exact h15 | exact h16 | exact h17 | with_reducible apply State.when_keeps | with_reducible apply State.laneTimeout_keeps | with_reducible apply State.updBnd_keeps | with_reducible apply State.put_keeps | with_reducible apply Keeps.foldl | with_reducible apply Keeps.foldlFst | (split; skip))

theorem State.putWidth_keeps {ps : Part → Prop} {a1 : Nat} {a2 : Nat × Nat} {s0 s : State} (h11 : ps (.regs 11)) (h : Keeps ps s0 s) : Keeps ps s0 (State.putWidth s a1 a2) := by
  unfold State.putWidth
  repeat' first
    | with_reducible assumption | exact h11 | with_reducible apply State.put_keeps
    | (intro _; skip) | split
    | (dsimp only; skip)

theorem State.putRate_keeps {ps : Part → Prop} {a1 a2 : Nat} {s0 s : State} (h_lanes : ps .lanes) (h_lve : ps .lve) (h : Keeps ps s0 s) : Keeps ps s0 (State.putRate s a1 a2) := by
  unfold State.putRate
  repeat' first
    | (extract_lets +onlyGivenNames x; first | (with_reducible refine Keeps.cut (x := x) ?_ ?_; rotate_left; (try clear_value x); (intro _; skip); rotate_right; subst x) | subst x)
    | with_reducible assumption | with_reducible apply State.updLane_keeps | with_reducible apply State.updBnd_keeps | with_reducible apply Keeps.foldl | with_reducible apply Keeps.foldlFst
    | (intro _; skip) | split
    | (dsimp only; skip)
    | (with_reducible refine Keeps.lit rfl rfl ?_; first | with_reducible assumption | with_reducible apply State.updLane_keeps | with_reducible apply State.updBnd_keeps | with_reducible apply Keeps.foldl | with_reducible apply Keeps.foldlFst | (split; skip))

theorem execBundleAlignDone_keeps {ps : Part → Prop} {s : State} {a1 : Nat} {a2 : Bool} {a3 : Option Nat} (h3 : ps (.regs 3)) (h11 : ps (.regs 11)) (h15 : ps (.regs 15)) (h17 : ps (.regs 17)) (h20 : ps (.regs 20)) (h_clk : ps .clk) (h_evt : ps .evt) (h_gens : ps .gens) (h_lanes : ps .lanes) (h_lve : ps .lve) (h_out : ps .out) (h_pci : ps .pci) (h_qqp : ps .qqp) (h_tly : ps .tly) : ∀ r, (execBundleAlignDone a1 a2 a3 s) = .next r → Keeps ps s r := by
  intro r e
  cases e
  have h := Keeps.refl (ps := ps) s
  repeat' first
    | (extract_lets +onlyGivenNames x; first | (with_reducible refine Keeps.cut (x := x) ?_ ?_; rotate_left; (try clear_value x); (intro _; skip); rotate_right; subst x) | subst x)
    | with_reducible assumption | exact h3 | exact h11 | exact h15 | exact h17 | exact h20 | with_reducible apply State.when_keeps | with_reducible apply State.flag_keeps | with_reducible apply State.post_keeps | with_reducible apply State.bundleFall_keeps | with_reducible apply State.put_keeps | with_reducible apply State.putWidth_keeps | with_reducible apply State.putRate_keeps
    | (intro _; skip) | split
    | (dsimp only; skip)
    | (with_reducible refine Keeps.lit rfl rfl ?_; first | with_reducible assumption | exact h3 | exact h11 | exact h15 | exact h17 | exact h20 | with_reducible apply State.when_keeps | with_reducible apply State.flag_keeps | with_reducible apply State.post_keeps | with_reducible apply State.bundleFall_keeps | with_reducible apply State.put_keeps | with_reducible apply State.putWidth_keeps | with_reducible apply State.putRate_keeps | (split; skip))

theorem State.rehome_keeps {ps : Part → Prop} {a1 : Nat} {s0 s : State} (h4 : ps (.regs 4)) (h5 : ps (.regs 5)) (h6 : ps (.regs 6)) (h7 : ps (.regs 7)) (h9 : ps (.regs 9)) (h11 : ps (.regs 11)) (h12 : ps (.regs 12)) (h13 : ps (.regs 13)) (h14 : ps (.regs 14)) (h16 : ps (.regs 16)) (h17 : ps (.regs 17)) (h20 : ps (.regs 20)) (h_cry : ps .cry) (h_dck : ps .dck) (h_evt : ps .evt) (h_fab : ps .fab) (h_fresh : ps .fresh) (h_gens : ps .gens) (h_hbm : ps .hbm) (h_lve : ps .lve) (h_med : ps .med) (h_noc : ps .noc) (h_out : ps .out) (h_pci : ps .pci) (h_pwr : ps .pwr) (h_qqp : ps .qqp) (h_spm : ps .spm) (h_tly : ps .tly) (h : Keeps ps s0 s) : Keeps ps s0 (State.rehome s a1) := by
  unfold State.rehome
  repeat' first
    | (extract_lets +onlyGivenNames x; first | (with_reducible refine Keeps.cut (x := x) ?_ ?_; rotate_left; (try clear_value x); (intro _; skip); rotate_right; subst x) | subst x)
    | with_reducible assumption | exact h4 | exact h5 | exact h6 | exact h7 | exact h9 | exact h11 | exact h12 | exact h13 | exact h14 | exact h16 | exact h17 | exact h20 | with_reducible apply State.putHome_keeps | with_reducible apply State.unclaim_keeps | with_reducible apply State.claimOp_keeps | with_reducible apply Keeps.foldl | with_reducible apply Keeps.foldlFst
    | (intro _; skip) | split
    | (dsimp only; skip)
    | (with_reducible refine Keeps.lit rfl rfl ?_; first | with_reducible assumption | exact h4 | exact h5 | exact h6 | exact h7 | exact h9 | exact h11 | exact h12 | exact h13 | exact h14 | exact h16 | exact h17 | exact h20 | with_reducible apply State.putHome_keeps | with_reducible apply State.unclaim_keeps | with_reducible apply State.claimOp_keeps | with_reducible apply Keeps.foldl | with_reducible apply Keeps.foldlFst | (split; skip))

theorem State.identified_keeps {ps : Part → Prop} {a1 : Nat} {a2 : IdentIn} {s0 s : State} (h4 : ps (.regs 4)) (h5 : ps (.regs 5)) (h6 : ps (.regs 6)) (h7 : ps (.regs 7)) (h9 : ps (.regs 9)) (h11 : ps (.regs 11)) (h12 : ps (.regs 12)) (h13 : ps (.regs 13)) (h14 : ps (.regs 14)) (h16 : ps (.regs 16)) (h17 : ps (.regs 17)) (h20 : ps (.regs 20)) (h_cry : ps .cry) (h_dck : ps .dck) (h_evt : ps .evt) (h_fab : ps .fab) (h_fresh : ps .fresh) (h_gens : ps .gens) (h_hbm : ps .hbm) (h_lve : ps .lve) (h_med : ps .med) (h_noc : ps .noc) (h_out : ps .out) (h_pci : ps .pci) (h_pwr : ps .pwr) (h_qqp : ps .qqp) (h_spm : ps .spm) (h_tly : ps .tly) (h : Keeps ps s0 s) : Keeps ps s0 (State.identified s a1 a2) := by
  unfold State.identified
  repeat' first
    | (extract_lets +onlyGivenNames x; first | (with_reducible refine Keeps.cut (x := x) ?_ ?_; rotate_left; (try clear_value x); (intro _; skip); rotate_right; subst x) | subst x)
    | with_reducible assumption | exact h4 | exact h5 | exact h6 | exact h7 | exact h9 | exact h11 | exact h12 | exact h13 | exact h14 | exact h16 | exact h17 | exact h20 | with_reducible apply State.post_keeps | with_reducible apply State.updBnd_keeps | with_reducible apply State.put_keeps | with_reducible apply State.rehome_keeps
    | (intro _; skip) | split
    | (dsimp only; skip)
    | (with_reducible refine Keeps.lit rfl rfl ?_; first | with_reducible assumption | exact h4 | exact h5 | exact h6 | exact h7 | exact h9 | exact h11 | exact h12 | exact h13 | exact h14 | exact h16 | exact h17 | exact h20 | with_reducible apply State.post_keeps | with_reducible apply State.updBnd_keeps | with_reducible apply State.put_keeps | with_reducible apply State.rehome_keeps | (split; skip))

theorem execIdent_keeps {ps : Part → Prop} {s : State} {a1 : Nat} {a2 : IdentIn} (h3 : ps (.regs 3)) (h4 : ps (.regs 4)) (h5 : ps (.regs 5)) (h6 : ps (.regs 6)) (h7 : ps (.regs 7)) (h9 : ps (.regs 9)) (h11 : ps (.regs 11)) (h12 : ps (.regs 12)) (h13 : ps (.regs 13)) (h14 : ps (.regs 14)) (h15 : ps (.regs 15)) (h16 : ps (.regs 16)) (h17 : ps (.regs 17)) (h20 : ps (.regs 20)) (h_clk : ps .clk) (h_cry : ps .cry) (h_dck : ps .dck) (h_evt : ps .evt) (h_fab : ps .fab) (h_fresh : ps .fresh) (h_gens : ps .gens) (h_hbm : ps .hbm) (h_lanes : ps .lanes) (h_lve : ps .lve) (h_med : ps .med) (h_noc : ps .noc) (h_out : ps .out) (h_pci : ps .pci) (h_pwr : ps .pwr) (h_qqp : ps .qqp) (h_spm : ps .spm) (h_tly : ps .tly) : ∀ r, (execIdent a1 a2 s) = .next r → Keeps ps s r := by
  intro r e
  cases e
  have h := Keeps.refl (ps := ps) s
  repeat' first
    | (extract_lets +onlyGivenNames x; first | (with_reducible refine Keeps.cut (x := x) ?_ ?_; rotate_left; (try clear_value x); (intro _; skip); rotate_right; subst x) | subst x)
    | with_reducible assumption | exact h3 | exact h4 | exact h5 | exact h6 | exact h7 | exact h9 | exact h11 | exact h12 | exact h13 | exact h14 | exact h15 | exact h16 | exact h17 | exact h20 | with_reducible apply State.when_keeps | with_reducible apply State.put64_keeps | with_reducible apply State.put_keeps | with_reducible apply State.post_keeps | with_reducible apply State.bundleFall_keeps | with_reducible apply State.identified_keeps
    | (intro _; skip) | split
    | (dsimp only; skip)

theorem State.keyFail_keeps {ps : Part → Prop} {a1 a2 : Nat} {s0 s : State} (h3 : ps (.regs 3)) (h11 : ps (.regs 11)) (h15 : ps (.regs 15)) (h17 : ps (.regs 17)) (h20 : ps (.regs 20)) (h_clk : ps .clk) (h_evt : ps .evt) (h_gens : ps .gens) (h_lanes : ps .lanes) (h_lve : ps .lve) (h_out : ps .out) (h_pci : ps .pci) (h_qqp : ps .qqp) (h_tly : ps .tly) (h : Keeps ps s0 s) : Keeps ps s0 (State.keyFail s a1 a2) := by
  unfold State.keyFail
  repeat' first
    | with_reducible assumption | exact h3 | exact h11 | exact h15 | exact h17 | exact h20 | with_reducible apply State.post_keeps | with_reducible apply State.bundleFall_keeps
    | (intro _; skip) | split
    | (dsimp only; skip)

theorem execCert_keeps {ps : Part → Prop} {s : State} {a1 : Nat} {a2 : CertIn} (h3 : ps (.regs 3)) (h11 : ps (.regs 11)) (h15 : ps (.regs 15)) (h17 : ps (.regs 17)) (h20 : ps (.regs 20)) (h_clk : ps .clk) (h_evt : ps .evt) (h_gens : ps .gens) (h_lanes : ps .lanes) (h_lve : ps .lve) (h_out : ps .out) (h_pci : ps .pci) (h_qqp : ps .qqp) (h_tly : ps .tly) : ∀ r, (execCert a1 a2 s) = .next r → Keeps ps s r := by
  intro r e
  cases e
  have h := Keeps.refl (ps := ps) s
  repeat' first
    | with_reducible assumption | exact h3 | exact h11 | exact h15 | exact h17 | exact h20 | with_reducible apply State.when_keeps | with_reducible apply State.updBnd_keeps | with_reducible apply State.keyFail_keeps
    | (intro _; skip) | split
    | (dsimp only; skip)
    | (with_reducible refine Keeps.lit rfl rfl ?_; first | with_reducible assumption | exact h3 | exact h11 | exact h15 | exact h17 | exact h20 | with_reducible apply State.when_keeps | with_reducible apply State.updBnd_keeps | with_reducible apply State.keyFail_keeps | (split; skip))

theorem execShare_keeps {ps : Part → Prop} {s : State} {a1 : Nat} {a2 : LinkShare} (h3 : ps (.regs 3)) (h11 : ps (.regs 11)) (h15 : ps (.regs 15)) (h17 : ps (.regs 17)) (h20 : ps (.regs 20)) (h_clk : ps .clk) (h_evt : ps .evt) (h_fresh : ps .fresh) (h_gens : ps .gens) (h_lanes : ps .lanes) (h_lve : ps .lve) (h_out : ps .out) (h_pci : ps .pci) (h_qqp : ps .qqp) (h_tly : ps .tly) : ∀ r, (execShare a1 a2 s) = .next r → Keeps ps s r := by
  intro r e
  cases e
  have h := Keeps.refl (ps := ps) s
  repeat' first
    | with_reducible assumption | exact h3 | exact h11 | exact h15 | exact h17 | exact h20 | with_reducible apply State.when_keeps | with_reducible apply State.draws_keeps | with_reducible apply State.updBnd_keeps | with_reducible apply State.drawn_keeps | with_reducible apply State.keyFail_keeps
    | (intro _; skip) | split
    | (dsimp only; skip)
    | (with_reducible refine Keeps.lit rfl rfl ?_; first | with_reducible assumption | exact h3 | exact h11 | exact h15 | exact h17 | exact h20 | with_reducible apply State.when_keeps | with_reducible apply State.draws_keeps | with_reducible apply State.updBnd_keeps | with_reducible apply State.drawn_keeps | with_reducible apply State.keyFail_keeps | (split; skip))

theorem State.pairUp_keeps {ps : Part → Prop} {a1 : Nat} {s0 s : State} (h4 : ps (.regs 4)) (h9 : ps (.regs 9)) (h11 : ps (.regs 11)) (h16 : ps (.regs 16)) (h17 : ps (.regs 17)) (h20 : ps (.regs 20)) (h_evt : ps .evt) (h_gens : ps .gens) (h_lve : ps .lve) (h_med : ps .med) (h_out : ps .out) (h_pci : ps .pci) (h_pwr : ps .pwr) (h_time : ps .time) (h_tly : ps .tly) (h : Keeps ps s0 s) : Keeps ps s0 (State.pairUp s a1) := by
  unfold State.pairUp
  repeat' first
    | (extract_lets +onlyGivenNames x; first | (with_reducible refine Keeps.cut (x := x) ?_ ?_; rotate_left; (try clear_value x); (intro _; skip); rotate_right; subst x) | subst x)
    | with_reducible assumption | exact h4 | exact h9 | exact h11 | exact h16 | exact h17 | exact h20 | with_reducible apply State.put_keeps | with_reducible apply State.resyncStart_keeps
    | (intro _; skip) | split
    | (dsimp only; skip)
    | (with_reducible refine Keeps.lit rfl rfl ?_; first | with_reducible assumption | exact h4 | exact h9 | exact h11 | exact h16 | exact h17 | exact h20 | with_reducible apply State.put_keeps | with_reducible apply State.resyncStart_keeps | (split; skip))

theorem State.keyed_keeps {ps : Part → Prop} {a1 : Nat} {s0 s : State} (h11 : ps (.regs 11)) (h17 : ps (.regs 17)) (h_evt : ps .evt) (h_lve : ps .lve) (h_out : ps .out) (h_pci : ps .pci) (h : Keeps ps s0 s) : Keeps ps s0 (State.keyed s a1) := by
  unfold State.keyed
  repeat' first
    | (extract_lets +onlyGivenNames x; first | (with_reducible refine Keeps.cut (x := x) ?_ ?_; rotate_left; (try clear_value x); (intro _; skip); rotate_right; subst x) | subst x)
    | with_reducible assumption | exact h11 | exact h17 | with_reducible apply State.updBnd_keeps | with_reducible apply State.put_keeps | with_reducible apply State.post_keeps
    | (intro _; skip) | split
    | (dsimp only; skip)
    | (with_reducible refine Keeps.lit rfl rfl ?_; first | with_reducible assumption | exact h11 | exact h17 | with_reducible apply State.updBnd_keeps | with_reducible apply State.put_keeps | with_reducible apply State.post_keeps | (split; skip))

theorem execFinish_keeps {ps : Part → Prop} {s : State} {a1 a2 a3 a4 : Nat} (h3 : ps (.regs 3)) (h4 : ps (.regs 4)) (h9 : ps (.regs 9)) (h11 : ps (.regs 11)) (h15 : ps (.regs 15)) (h16 : ps (.regs 16)) (h17 : ps (.regs 17)) (h20 : ps (.regs 20)) (h_clk : ps .clk) (h_evt : ps .evt) (h_gens : ps .gens) (h_lanes : ps .lanes) (h_lve : ps .lve) (h_med : ps .med) (h_out : ps .out) (h_pci : ps .pci) (h_pwr : ps .pwr) (h_qqp : ps .qqp) (h_time : ps .time) (h_tly : ps .tly) : ∀ r, (execFinish a1 a2 a3 a4 s) = .next r → Keeps ps s r := by
  intro r e
  cases e
  have h := Keeps.refl (ps := ps) s
  repeat' first
    | (extract_lets +onlyGivenNames x; first | (with_reducible refine Keeps.cut (x := x) ?_ ?_; rotate_left; (try clear_value x); (intro _; skip); rotate_right; subst x) | subst x)
    | with_reducible assumption | exact h3 | exact h4 | exact h9 | exact h11 | exact h15 | exact h16 | exact h17 | exact h20 | with_reducible apply State.when_keeps | with_reducible apply State.keyFail_keeps | with_reducible apply State.keyed_keeps | with_reducible apply State.pairUp_keeps | with_reducible apply State.rsCheck_keeps | with_reducible apply State.pumpAll_keeps
    | (intro _; skip) | split
    | (dsimp only; skip)

theorem execKeyTimeout_keeps {ps : Part → Prop} {s : State} {a1 : Nat} (h3 : ps (.regs 3)) (h11 : ps (.regs 11)) (h15 : ps (.regs 15)) (h17 : ps (.regs 17)) (h20 : ps (.regs 20)) (h_clk : ps .clk) (h_evt : ps .evt) (h_gens : ps .gens) (h_lanes : ps .lanes) (h_lve : ps .lve) (h_out : ps .out) (h_pci : ps .pci) (h_qqp : ps .qqp) (h_tly : ps .tly) : ∀ r, (execKeyTimeout a1 s) = .next r → Keeps ps s r := by
  intro r e
  cases e
  have h := Keeps.refl (ps := ps) s
  repeat' first
    | with_reducible assumption | exact h3 | exact h11 | exact h15 | exact h17 | exact h20 | with_reducible apply State.when_keeps | with_reducible apply State.keyFail_keeps
    | (intro _; skip) | split
    | (dsimp only; skip)

theorem State.bundleRetrain_keeps {ps : Part → Prop} {a1 : Nat} {s0 s : State} (h3 : ps (.regs 3)) (h11 : ps (.regs 11)) (h15 : ps (.regs 15)) (h17 : ps (.regs 17)) (h20 : ps (.regs 20)) (h_clk : ps .clk) (h_evt : ps .evt) (h_gens : ps .gens) (h_lanes : ps .lanes) (h_lve : ps .lve) (h_out : ps .out) (h_pci : ps .pci) (h_tly : ps .tly) (h : Keeps ps s0 s) : Keeps ps s0 (State.bundleRetrain s a1) := by
  unfold State.bundleRetrain
  repeat' first
    | with_reducible assumption | exact h3 | exact h11 | exact h15 | exact h17 | exact h20 | with_reducible apply State.retrainLane_keeps | with_reducible apply State.toRetrain_keeps | with_reducible apply Keeps.foldl | with_reducible apply Keeps.foldlFst
    | (intro _; skip) | split
    | (dsimp only; skip)

theorem execBundleRetrain_keeps {ps : Part → Prop} {s : State} {a1 : Req} {a2 : Nat} (h3 : ps (.regs 3)) (h11 : ps (.regs 11)) (h15 : ps (.regs 15)) (h17 : ps (.regs 17)) (h20 : ps (.regs 20)) (h_clk : ps .clk) (h_evt : ps .evt) (h_gens : ps .gens) (h_lanes : ps .lanes) (h_lve : ps .lve) (h_out : ps .out) (h_pci : ps .pci) (h_tly : ps .tly) : ∀ r, (execBundleRetrain a1 a2 s) = .next r → Keeps ps s r := by
  intro r e
  cases e
  have h := Keeps.refl (ps := ps) s
  repeat' first
    | with_reducible assumption | exact h3 | exact h11 | exact h15 | exact h17 | exact h20 | with_reducible apply State.when_keeps | with_reducible apply State.byReq_keeps | with_reducible apply State.bundleRetrain_keeps
    | (intro _; skip) | split
    | (dsimp only; skip)

theorem State.keyUpdate_keeps {ps : Part → Prop} {a1 : Nat} {s0 s : State} (h12 : ps (.regs 12)) (h_lve : ps .lve) (h : Keeps ps s0 s) : Keeps ps s0 (State.keyUpdate s a1) := by
  unfold State.keyUpdate
  repeat' first
    | with_reducible assumption | exact h12 | with_reducible apply State.bump_keeps | with_reducible apply State.updBnd_keeps
    | (intro _; skip) | split
    | (dsimp only; skip)
    | (with_reducible refine Keeps.lit rfl rfl ?_; first | with_reducible assumption | exact h12 | with_reducible apply State.bump_keeps | with_reducible apply State.updBnd_keeps | (split; skip))

theorem execBundleRetrainDone_keeps {ps : Part → Prop} {s : State} {a1 : Nat} {a2 : Bool} (h4 : ps (.regs 4)) (h9 : ps (.regs 9)) (h11 : ps (.regs 11)) (h12 : ps (.regs 12)) (h16 : ps (.regs 16)) (h17 : ps (.regs 17)) (h20 : ps (.regs 20)) (h_evt : ps .evt) (h_gens : ps .gens) (h_lanes : ps .lanes) (h_lve : ps .lve) (h_med : ps .med) (h_out : ps .out) (h_pci : ps .pci) (h_pwr : ps .pwr) (h_tly : ps .tly) : ∀ r, (execBundleRetrainDone a1 a2 s) = .next r → Keeps ps s r := by
  intro r e
  cases e
  have h := Keeps.refl (ps := ps) s
  repeat' first
    | (extract_lets +onlyGivenNames x; first | (with_reducible refine Keeps.cut (x := x) ?_ ?_; rotate_left; (try clear_value x); (intro _; skip); rotate_right; subst x) | subst x)
    | with_reducible assumption | exact h4 | exact h9 | exact h11 | exact h12 | exact h16 | exact h17 | exact h20 | with_reducible apply State.when_keeps | with_reducible apply State.put_keeps | with_reducible apply State.flag_keeps | with_reducible apply State.putWidth_keeps | with_reducible apply State.putRate_keeps | with_reducible apply State.updBnd_keeps | with_reducible apply State.keyUpdate_keeps | with_reducible apply State.rsCheck_keeps | with_reducible apply State.pumpAll_keeps | with_reducible apply State.resend_keeps
    | (intro _; skip) | split
    | (dsimp only; skip)
    | (with_reducible refine Keeps.lit rfl rfl ?_; first | with_reducible assumption | exact h4 | exact h9 | exact h11 | exact h12 | exact h16 | exact h17 | exact h20 | with_reducible apply State.when_keeps | with_reducible apply State.put_keeps | with_reducible apply State.flag_keeps | with_reducible apply State.putWidth_keeps | with_reducible apply State.putRate_keeps | with_reducible apply State.updBnd_keeps | with_reducible apply State.keyUpdate_keeps | with_reducible apply State.rsCheck_keeps | with_reducible apply State.pumpAll_keeps | with_reducible apply State.resend_keeps | (split; skip))

theorem execBundleRetrainTimeout_keeps {ps : Part → Prop} {s : State} {a1 : Nat} (h3 : ps (.regs 3)) (h11 : ps (.regs 11)) (h15 : ps (.regs 15)) (h17 : ps (.regs 17)) (h20 : ps (.regs 20)) (h_clk : ps .clk) (h_evt : ps .evt) (h_gens : ps .gens) (h_lanes : ps .lanes) (h_lve : ps .lve) (h_out : ps .out) (h_pci : ps .pci) (h_qqp : ps .qqp) (h_tly : ps .tly) : ∀ r, (execBundleRetrainTimeout a1 s) = .next r → Keeps ps s r := by
  intro r e
  cases e
  have h := Keeps.refl (ps := ps) s
  repeat' first
    | with_reducible assumption | exact h3 | exact h11 | exact h15 | exact h17 | exact h20 | with_reducible apply State.when_keeps | with_reducible apply State.bundleFall_keeps
    | (intro _; skip) | split
    | (dsimp only; skip)

theorem execLinkKeyUpdate_keeps {ps : Part → Prop} {s : State} {a1 : Nat} (h12 : ps (.regs 12)) (h_lve : ps .lve) : ∀ r, (execLinkKeyUpdate a1 s) = .next r → Keeps ps s r := by
  intro r e
  cases e
  have h := Keeps.refl (ps := ps) s
  repeat' first
    | with_reducible assumption | exact h12 | with_reducible apply State.when_keeps | with_reducible apply State.keyUpdate_keeps
    | (intro _; skip) | split
    | (dsimp only; skip)

theorem State.nakOnce_keeps {ps : Part → Prop} {a1 : Nat} {s0 s : State} (h_lve : ps .lve) (h : Keeps ps s0 s) : Keeps ps s0 (State.nakOnce s a1) := by
  unfold State.nakOnce
  repeat' first
    | with_reducible assumption | with_reducible apply State.updBnd_keeps
    | (intro _; skip) | split
    | (dsimp only; skip)
    | (with_reducible refine Keeps.lit rfl rfl ?_; first | with_reducible assumption | with_reducible apply State.updBnd_keeps | (split; skip))

theorem State.macWindow_keeps {ps : Part → Prop} {a1 : Nat} {s0 s : State} (h_lve : ps .lve) (h : Keeps ps s0 s) : Keeps ps s0 (State.macWindow s a1) := by
  unfold State.macWindow
  repeat' first
    | with_reducible assumption | with_reducible apply State.updBnd_keeps
    | (intro _; skip) | split
    | (dsimp only; skip)
    | (with_reducible refine Keeps.lit rfl rfl ?_; first | with_reducible assumption | with_reducible apply State.updBnd_keeps | (split; skip))

theorem State.flitIn_keeps {ps : Part → Prop} {a1 : Nat} {a2 : FlitIn} {s0 s : State} (h4 : ps (.regs 4)) (h9 : ps (.regs 9)) (h11 : ps (.regs 11)) (h16 : ps (.regs 16)) (h17 : ps (.regs 17)) (h20 : ps (.regs 20)) (h_evt : ps .evt) (h_gens : ps .gens) (h_lve : ps .lve) (h_med : ps .med) (h_out : ps .out) (h_pci : ps .pci) (h_pwr : ps .pwr) (h_tly : ps .tly) (h : Keeps ps s0 s) : Keeps ps s0 (State.flitIn s a1 a2) := by
  unfold State.flitIn
  repeat' first
    | (extract_lets +onlyGivenNames x; first | (with_reducible refine Keeps.cut (x := x) ?_ ?_; rotate_left; (try clear_value x); (intro _; skip); rotate_right; subst x) | subst x)
    | with_reducible assumption | exact h4 | exact h9 | exact h11 | exact h16 | exact h17 | exact h20 | with_reducible apply State.ackTo_keeps | with_reducible apply State.updBnd_keeps | with_reducible apply State.resend_keeps | with_reducible apply State.nakOnce_keeps | with_reducible apply State.rsCheck_keeps | with_reducible apply State.pumpAll_keeps
    | (intro _; skip) | split
    | (dsimp only; skip)
    | (with_reducible refine Keeps.lit rfl rfl ?_; first | with_reducible assumption | exact h4 | exact h9 | exact h11 | exact h16 | exact h17 | exact h20 | with_reducible apply State.ackTo_keeps | with_reducible apply State.updBnd_keeps | with_reducible apply State.resend_keeps | with_reducible apply State.nakOnce_keeps | with_reducible apply State.rsCheck_keeps | with_reducible apply State.pumpAll_keeps | (split; skip))

theorem execFlitReceive_keeps {ps : Part → Prop} {s : State} {a1 : Nat} {a2 : FlitIn} (h3 : ps (.regs 3)) (h4 : ps (.regs 4)) (h9 : ps (.regs 9)) (h11 : ps (.regs 11)) (h15 : ps (.regs 15)) (h16 : ps (.regs 16)) (h17 : ps (.regs 17)) (h20 : ps (.regs 20)) (h_clk : ps .clk) (h_evt : ps .evt) (h_gens : ps .gens) (h_lanes : ps .lanes) (h_lve : ps .lve) (h_med : ps .med) (h_out : ps .out) (h_pci : ps .pci) (h_pwr : ps .pwr) (h_tly : ps .tly) : ∀ r, (execFlitReceive a1 a2 s) = .next r → Keeps ps s r := by
  intro r e
  cases e
  have h := Keeps.refl (ps := ps) s
  repeat' first
    | (extract_lets +onlyGivenNames x; first | (with_reducible refine Keeps.cut (x := x) ?_ ?_; rotate_left; (try clear_value x); (intro _; skip); rotate_right; subst x) | subst x)
    | with_reducible assumption | exact h3 | exact h4 | exact h9 | exact h11 | exact h15 | exact h16 | exact h17 | exact h20 | with_reducible apply State.when_keeps | with_reducible apply State.nakOnce_keeps | with_reducible apply State.updBnd_keeps | with_reducible apply State.bump_keeps | with_reducible apply State.macWindow_keeps | with_reducible apply State.flitIn_keeps | with_reducible apply State.post_keeps | with_reducible apply State.bundleRetrain_keeps
    | (intro _; skip) | split
    | (dsimp only; skip)
    | (with_reducible refine Keeps.lit rfl rfl ?_; first | with_reducible assumption | exact h3 | exact h4 | exact h9 | exact h11 | exact h15 | exact h16 | exact h17 | exact h20 | with_reducible apply State.when_keeps | with_reducible apply State.nakOnce_keeps | with_reducible apply State.updBnd_keeps | with_reducible apply State.bump_keeps | with_reducible apply State.macWindow_keeps | with_reducible apply State.flitIn_keeps | with_reducible apply State.post_keeps | with_reducible apply State.bundleRetrain_keeps | (split; skip))

theorem execReplayTimer_keeps {ps : Part → Prop} {s : State} {a1 : Nat} (h3 : ps (.regs 3)) (h11 : ps (.regs 11)) (h15 : ps (.regs 15)) (h17 : ps (.regs 17)) (h20 : ps (.regs 20)) (h_clk : ps .clk) (h_evt : ps .evt) (h_gens : ps .gens) (h_lanes : ps .lanes) (h_lve : ps .lve) (h_out : ps .out) (h_pci : ps .pci) (h_tly : ps .tly) : ∀ r, (execReplayTimer a1 s) = .next r → Keeps ps s r := by
  intro r e
  cases e
  have h := Keeps.refl (ps := ps) s
  repeat' first
    | with_reducible assumption | exact h3 | exact h11 | exact h15 | exact h17 | exact h20 | with_reducible apply State.when_keeps | with_reducible apply State.bundleRetrain_keeps | with_reducible apply State.resend_keeps
    | (intro _; skip) | split
    | (dsimp only; skip)
    | (with_reducible refine Keeps.lit rfl rfl ?_; first | with_reducible assumption | exact h3 | exact h11 | exact h15 | exact h17 | exact h20 | with_reducible apply State.when_keeps | with_reducible apply State.bundleRetrain_keeps | with_reducible apply State.resend_keeps | (split; skip))

theorem execNakRepeatTimer_keeps {ps : Part → Prop} {s : State} {a1 : Nat} (h_lve : ps .lve) : ∀ r, (execNakRepeatTimer a1 s) = .next r → Keeps ps s r := by
  intro r e
  cases e
  have h := Keeps.refl (ps := ps) s
  repeat' first
    | with_reducible assumption | with_reducible apply State.when_keeps | with_reducible apply State.updBnd_keeps
    | (intro _; skip) | split
    | (dsimp only; skip)
    | (with_reducible refine Keeps.lit rfl rfl ?_; first | with_reducible assumption | with_reducible apply State.when_keeps | with_reducible apply State.updBnd_keeps | (split; skip))

theorem execMirrorWrite_keeps {ps : Part → Prop} {s : State} {a1 a2 a3 a4 : Nat} {a5 : LinePos} {a6 : List (Nat × Blk)} {a7 a8 : Bool} (h11 : ps (.regs 11)) (h12 : ps (.regs 12)) (h17 : ps (.regs 17)) (h20 : ps (.regs 20)) (h_cry : ps .cry) (h_evt : ps .evt) (h_fresh : ps .fresh) (h_gens : ps .gens) (h_hbm : ps .hbm) (h_lve : ps .lve) (h_out : ps .out) (h_pci : ps .pci) (h_tly : ps .tly) : ∀ r, (execMirrorWrite a1 a2 a3 a4 a5 a6 a7 a8 s) = .next r → Keeps ps s r := by
  intro r e
  cases e
  have h := Keeps.refl (ps := ps) s
  repeat' first
    | (extract_lets +onlyGivenNames x; first | (with_reducible refine Keeps.cut (x := x) ?_ ?_; rotate_left; (try clear_value x); (intro _; skip); rotate_right; subst x) | subst x)
    | with_reducible assumption | exact h11 | exact h12 | exact h17 | exact h20 | with_reducible apply State.when_keeps | with_reducible apply State.sealBuf_keeps | with_reducible apply State.send_keeps
    | (intro _; skip) | split
    | (dsimp only; skip)
    | (with_reducible refine Keeps.lit rfl rfl ?_; first | with_reducible assumption | exact h11 | exact h12 | exact h17 | exact h20 | with_reducible apply State.when_keeps | with_reducible apply State.sealBuf_keeps | with_reducible apply State.send_keeps | (split; skip))

theorem State.mirrored1_keeps {ps : Part → Prop} {a1 : Nat} {s0 s : State} (h11 : ps (.regs 11)) (h_lve : ps .lve) (h_qqp : ps .qqp) (h_tly : ps .tly) (h : Keeps ps s0 s) : Keeps ps s0 (State.mirrored1 s a1) := by
  unfold State.mirrored1
  repeat' first
    | (extract_lets +onlyGivenNames x; first | (with_reducible refine Keeps.cut (x := x) ?_ ?_; rotate_left; (try clear_value x); (intro _; skip); rotate_right; subst x) | subst x)
    | with_reducible assumption | exact h11 | with_reducible apply State.updLine_keeps | with_reducible apply State.raise_keeps | with_reducible apply State.bump_keeps | with_reducible apply State.updCmd_keeps
    | (intro _; skip) | split
    | (dsimp only; skip)
    | (with_reducible refine Keeps.lit rfl rfl ?_; first | with_reducible assumption | exact h11 | with_reducible apply State.updLine_keeps | with_reducible apply State.raise_keeps | with_reducible apply State.bump_keeps | with_reducible apply State.updCmd_keeps | (split; skip))

theorem execMirrorAck_keeps {ps : Part → Prop} {s : State} {a1 : List Nat} (h11 : ps (.regs 11)) (h_lve : ps .lve) (h_qqp : ps .qqp) (h_tly : ps .tly) : ∀ r, (execMirrorAck a1 s) = .next r → Keeps ps s r := by
  intro r e
  cases e
  have h := Keeps.refl (ps := ps) s
  repeat' first
    | with_reducible assumption | exact h11 | with_reducible apply State.when_keeps | with_reducible apply State.settleAll_keeps | with_reducible apply State.mirrored1_keeps | with_reducible apply Keeps.foldl | with_reducible apply Keeps.foldlFst
    | (intro _; skip) | split
    | (dsimp only; skip)

theorem State.tractClash_keeps {ps : Part → Prop} {a1 : Nat} {s0 s : State} (h6 : ps (.regs 6)) (h7 : ps (.regs 7)) (h11 : ps (.regs 11)) (h12 : ps (.regs 12)) (h17 : ps (.regs 17)) (h20 : ps (.regs 20)) (h_dck : ps .dck) (h_evt : ps .evt) (h_gens : ps .gens) (h_lve : ps .lve) (h_out : ps .out) (h_pci : ps .pci) (h_qqp : ps .qqp) (h_tly : ps .tly) (h : Keeps ps s0 s) : Keeps ps s0 (State.tractClash s a1) := by
  unfold State.tractClash
  repeat' first
    | (extract_lets +onlyGivenNames x; first | (with_reducible refine Keeps.cut (x := x) ?_ ?_; rotate_left; (try clear_value x); (intro _; skip); rotate_right; subst x) | subst x)
    | with_reducible assumption | exact h6 | exact h7 | exact h11 | exact h12 | exact h17 | exact h20 | with_reducible apply State.adminConflict_keeps | with_reducible apply State.tractSet_keeps | with_reducible apply State.setTract_keeps | with_reducible apply State.drop_keeps
    | (intro _; skip) | split
    | (dsimp only; skip)
    | (with_reducible refine Keeps.lit rfl rfl ?_; first | with_reducible assumption | exact h6 | exact h7 | exact h11 | exact h12 | exact h17 | exact h20 | with_reducible apply State.adminConflict_keeps | with_reducible apply State.tractSet_keeps | with_reducible apply State.setTract_keeps | with_reducible apply State.drop_keeps | (split; skip))

theorem State.partnerTract_keeps {ps : Part → Prop} {a1 : Nat} {a2 : JRec} {s0 s : State} (h6 : ps (.regs 6)) (h7 : ps (.regs 7)) (h11 : ps (.regs 11)) (h12 : ps (.regs 12)) (h17 : ps (.regs 17)) (h20 : ps (.regs 20)) (h_dck : ps .dck) (h_evt : ps .evt) (h_gens : ps .gens) (h_lve : ps .lve) (h_out : ps .out) (h_pci : ps .pci) (h_qqp : ps .qqp) (h_tly : ps .tly) (h : Keeps ps s0 s) : Keeps ps s0 (State.partnerTract s a1 a2) := by
  unfold State.partnerTract
  repeat' first
    | (extract_lets +onlyGivenNames x; first | (with_reducible refine Keeps.cut (x := x) ?_ ?_; rotate_left; (try clear_value x); (intro _; skip); rotate_right; subst x) | subst x)
    | with_reducible assumption | exact h6 | exact h7 | exact h11 | exact h12 | exact h17 | exact h20 | with_reducible apply State.tractClash_keeps
    | (intro _; skip) | split
    | (dsimp only; skip)
    | (with_reducible refine Keeps.lit rfl rfl ?_; first | with_reducible assumption | exact h6 | exact h7 | exact h11 | exact h12 | exact h17 | exact h20 | with_reducible apply State.tractClash_keeps | (split; skip))

theorem State.freeMirror_keeps {ps : Part → Prop} {a1 : Nat} {s0 s : State} (h_tly : ps .tly) (h : Keeps ps s0 s) : Keeps ps s0 (State.freeMirror s a1) := by
  unfold State.freeMirror
  repeat' first
    | with_reducible assumption
    | (intro _; skip) | split
    | (dsimp only; skip)
    | (with_reducible refine Keeps.lit rfl rfl ?_; first | with_reducible assumption | (split; skip))

theorem State.storeRec_keeps {ps : Part → Prop} {a1 : Nat} {a2 : JRec} {s0 s : State} (h6 : ps (.regs 6)) (h7 : ps (.regs 7)) (h11 : ps (.regs 11)) (h12 : ps (.regs 12)) (h17 : ps (.regs 17)) (h20 : ps (.regs 20)) (h_dck : ps .dck) (h_evt : ps .evt) (h_gens : ps .gens) (h_lve : ps .lve) (h_out : ps .out) (h_pci : ps .pci) (h_qqp : ps .qqp) (h_tly : ps .tly) (h : Keeps ps s0 s) : Keeps ps s0 (State.storeRec s a1 a2) := by
  unfold State.storeRec
  repeat' first
    | (extract_lets +onlyGivenNames x; first | (with_reducible refine Keeps.cut (x := x) ?_ ?_; rotate_left; (try clear_value x); (intro _; skip); rotate_right; subst x) | subst x)
    | with_reducible assumption | exact h6 | exact h7 | exact h11 | exact h12 | exact h17 | exact h20 | with_reducible apply State.partnerTract_keeps | with_reducible apply State.freeMirror_keeps
    | (intro _; skip) | split
    | (dsimp only; skip)
    | (with_reducible refine Keeps.lit rfl rfl ?_; first | with_reducible assumption | exact h6 | exact h7 | exact h11 | exact h12 | exact h17 | exact h20 | with_reducible apply State.partnerTract_keeps | with_reducible apply State.freeMirror_keeps | (split; skip))

theorem State.journalIn_keeps {ps : Part → Prop} {a1 : Nat} {a2 : List JRec} {s0 s : State} (h6 : ps (.regs 6)) (h7 : ps (.regs 7)) (h11 : ps (.regs 11)) (h12 : ps (.regs 12)) (h17 : ps (.regs 17)) (h20 : ps (.regs 20)) (h_dck : ps .dck) (h_evt : ps .evt) (h_gens : ps .gens) (h_lve : ps .lve) (h_out : ps .out) (h_pci : ps .pci) (h_qqp : ps .qqp) (h_tly : ps .tly) (h : Keeps ps s0 s) : Keeps ps s0 (State.journalIn s a1 a2) := by
  unfold State.journalIn
  repeat' first
    | (extract_lets +onlyGivenNames x; first | (with_reducible refine Keeps.cut (x := x) ?_ ?_; rotate_left; (try clear_value x); (intro _; skip); rotate_right; subst x) | subst x)
    | with_reducible assumption | exact h6 | exact h7 | exact h11 | exact h12 | exact h17 | exact h20 | with_reducible apply State.storeRec_keeps | with_reducible apply Keeps.foldl | with_reducible apply Keeps.foldlFst
    | (intro _; skip) | split
    | (dsimp only; skip)
    | (with_reducible refine Keeps.lit rfl rfl ?_; first | with_reducible assumption | exact h6 | exact h7 | exact h11 | exact h12 | exact h17 | exact h20 | with_reducible apply State.storeRec_keeps | with_reducible apply Keeps.foldl | with_reducible apply Keeps.foldlFst | (split; skip))

theorem execJournal_keeps {ps : Part → Prop} {s : State} {a1 : Nat} {a2 : List JRec} {a3 : Bool} (h6 : ps (.regs 6)) (h7 : ps (.regs 7)) (h11 : ps (.regs 11)) (h12 : ps (.regs 12)) (h17 : ps (.regs 17)) (h20 : ps (.regs 20)) (h_dck : ps .dck) (h_evt : ps .evt) (h_gens : ps .gens) (h_lve : ps .lve) (h_out : ps .out) (h_pci : ps .pci) (h_qqp : ps .qqp) (h_tly : ps .tly) : ∀ r, (execJournal a1 a2 a3 s) = .next r → Keeps ps s r := by
  intro r e
  cases e
  have h := Keeps.refl (ps := ps) s
  repeat' first
    | (extract_lets +onlyGivenNames x; first | (with_reducible refine Keeps.cut (x := x) ?_ ?_; rotate_left; (try clear_value x); (intro _; skip); rotate_right; subst x) | subst x)
    | with_reducible assumption | exact h6 | exact h7 | exact h11 | exact h12 | exact h17 | exact h20 | with_reducible apply State.when_keeps | with_reducible apply State.journalIn_keeps | with_reducible apply State.send_keeps
    | (intro _; skip) | split
    | (dsimp only; skip)
    | (with_reducible refine Keeps.lit rfl rfl ?_; first | with_reducible assumption | exact h6 | exact h7 | exact h11 | exact h12 | exact h17 | exact h20 | with_reducible apply State.when_keeps | with_reducible apply State.journalIn_keeps | with_reducible apply State.send_keeps | (split; skip))

theorem execJournalAck_keeps {ps : Part → Prop} {s : State} {a1 : Nat} (h4 : ps (.regs 4)) (h9 : ps (.regs 9)) (h11 : ps (.regs 11)) (h16 : ps (.regs 16)) (h17 : ps (.regs 17)) (h20 : ps (.regs 20)) (h_evt : ps .evt) (h_gens : ps .gens) (h_lve : ps .lve) (h_med : ps .med) (h_out : ps .out) (h_pci : ps .pci) (h_pwr : ps .pwr) (h_qqp : ps .qqp) (h_tly : ps .tly) : ∀ r, (execJournalAck a1 s) = .next r → Keeps ps s r := by
  intro r e
  cases e
  have h := Keeps.refl (ps := ps) s
  repeat' first
    | with_reducible assumption | exact h4 | exact h9 | exact h11 | exact h16 | exact h17 | exact h20 | with_reducible apply State.when_keeps | with_reducible apply State.rsCheck_keeps | with_reducible apply State.journalMirrored_keeps
    | (intro _; skip) | split
    | (dsimp only; skip)
    | (with_reducible refine Keeps.lit rfl rfl ?_; first | with_reducible assumption | exact h4 | exact h9 | exact h11 | exact h16 | exact h17 | exact h20 | with_reducible apply State.when_keeps | with_reducible apply State.rsCheck_keeps | with_reducible apply State.journalMirrored_keeps | (split; skip))

theorem execLineRelease_keeps {ps : Part → Prop} {s : State} {a1 : List Nat} (h11 : ps (.regs 11)) (h17 : ps (.regs 17)) (h20 : ps (.regs 20)) (h_evt : ps .evt) (h_gens : ps .gens) (h_lve : ps .lve) (h_out : ps .out) (h_pci : ps .pci) (h_tly : ps .tly) : ∀ r, (execLineRelease a1 s) = .next r → Keeps ps s r := by
  intro r e
  cases e
  have h := Keeps.refl (ps := ps) s
  repeat' first
    | with_reducible assumption | exact h11 | exact h17 | exact h20 | with_reducible apply State.when_keeps | with_reducible apply State.sendList_keeps | with_reducible apply Keeps.foldl | with_reducible apply Keeps.foldlFst
    | (intro _; skip) | split
    | (dsimp only; skip)
    | (with_reducible refine Keeps.lit rfl rfl ?_; first | with_reducible assumption | exact h11 | exact h17 | exact h20 | with_reducible apply State.when_keeps | with_reducible apply State.sendList_keeps | with_reducible apply Keeps.foldl | with_reducible apply Keeps.foldlFst | (split; skip))

theorem execReleaseAck_keeps {ps : Part → Prop} {s : State} {a1 : List Nat} (h_qqp : ps .qqp) (h_tly : ps .tly) : ∀ r, (execReleaseAck a1 s) = .next r → Keeps ps s r := by
  intro r e
  cases e
  have h := Keeps.refl (ps := ps) s
  repeat' first
    | with_reducible assumption | with_reducible apply State.when_keeps | with_reducible apply State.settleAll_keeps | with_reducible apply State.lineDone_keeps | with_reducible apply Keeps.foldl | with_reducible apply Keeps.foldlFst
    | (intro _; skip) | split
    | (dsimp only; skip)

theorem execHeartbeat_keeps {ps : Part → Prop} {s : State} {a1 a2 a3 : Nat} {a4 : Bool} {a5 a6 : Nat} (h6 : ps (.regs 6)) (h7 : ps (.regs 7)) (h11 : ps (.regs 11)) (h17 : ps (.regs 17)) (h20 : ps (.regs 20)) (h_dck : ps .dck) (h_evt : ps .evt) (h_fresh : ps .fresh) (h_gens : ps .gens) (h_lve : ps .lve) (h_out : ps .out) (h_pci : ps .pci) (h_qqp : ps .qqp) (h_time : ps .time) (h_tly : ps .tly) : ∀ r, (execHeartbeat a1 a2 a3 a4 a5 a6 s) = .next r → Keeps ps s r := by
  intro r e
  cases e
  have h := Keeps.refl (ps := ps) s
  repeat' first
    | (extract_lets +onlyGivenNames x; first | (with_reducible refine Keeps.cut (x := x) ?_ ?_; rotate_left; (try clear_value x); (intro _; skip); rotate_right; subst x) | subst x)
    | with_reducible assumption | exact h6 | exact h7 | exact h11 | exact h17 | exact h20 | with_reducible apply State.when_keeps | with_reducible apply State.put_keeps | with_reducible apply State.drawn_keeps | with_reducible apply State.handbackEnd_keeps
    | (intro _; skip) | split
    | (dsimp only; skip)
    | (with_reducible refine Keeps.lit rfl rfl ?_; first | with_reducible assumption | exact h6 | exact h7 | exact h11 | exact h17 | exact h20 | with_reducible apply State.when_keeps | with_reducible apply State.put_keeps | with_reducible apply State.drawn_keeps | with_reducible apply State.handbackEnd_keeps | (split; skip))

theorem execLeaving_keeps {ps : Part → Prop} {s : State} {a1 : Nat} (h_lve : ps .lve) : ∀ r, (execLeaving a1 s) = .next r → Keeps ps s r := by
  intro r e
  cases e
  have h := Keeps.refl (ps := ps) s
  repeat' first
    | (extract_lets +onlyGivenNames x; first | (with_reducible refine Keeps.cut (x := x) ?_ ?_; rotate_left; (try clear_value x); (intro _; skip); rotate_right; subst x) | subst x)
    | with_reducible assumption | with_reducible apply State.when_keeps
    | (intro _; skip) | split
    | (dsimp only; skip)
    | (with_reducible refine Keeps.lit rfl rfl ?_; first | with_reducible assumption | with_reducible apply State.when_keeps | (split; skip))

theorem execPfail_keeps {ps : Part → Prop} {s : State} (h11 : ps (.regs 11)) : ∀ r, (execPfail s) = .next r → Keeps ps s r := by
  intro r e
  cases e
  have h := Keeps.refl (ps := ps) s
  repeat' first
    | with_reducible assumption | exact h11 | with_reducible apply State.when_keeps | with_reducible apply State.put_keeps
    | (intro _; skip) | split
    | (dsimp only; skip)

theorem execResyncDone_keeps {ps : Part → Prop} {s : State} {a1 a2 : Nat} (h4 : ps (.regs 4)) (h9 : ps (.regs 9)) (h11 : ps (.regs 11)) (h16 : ps (.regs 16)) (h17 : ps (.regs 17)) (h20 : ps (.regs 20)) (h_evt : ps .evt) (h_gens : ps .gens) (h_lve : ps .lve) (h_med : ps .med) (h_out : ps .out) (h_pci : ps .pci) (h_pwr : ps .pwr) (h_tly : ps .tly) : ∀ r, (execResyncDone a1 a2 s) = .next r → Keeps ps s r := by
  intro r e
  cases e
  have h := Keeps.refl (ps := ps) s
  repeat' first
    | (extract_lets +onlyGivenNames x; first | (with_reducible refine Keeps.cut (x := x) ?_ ?_; rotate_left; (try clear_value x); (intro _; skip); rotate_right; subst x) | subst x)
    | with_reducible assumption | exact h4 | exact h9 | exact h11 | exact h16 | exact h17 | exact h20 | with_reducible apply State.when_keeps | with_reducible apply State.pairedCheck_keeps
    | (intro _; skip) | split
    | (dsimp only; skip)
    | (with_reducible refine Keeps.lit rfl rfl ?_; first | with_reducible assumption | exact h4 | exact h9 | exact h11 | exact h16 | exact h17 | exact h20 | with_reducible apply State.when_keeps | with_reducible apply State.pairedCheck_keeps | (split; skip))

theorem execHandbackReq_keeps {ps : Part → Prop} {s : State} {a1 : Nat} (h_lve : ps .lve) : ∀ r, (execHandbackReq a1 s) = .next r → Keeps ps s r := by
  intro r e
  cases e
  have h := Keeps.refl (ps := ps) s
  repeat' first
    | with_reducible assumption | with_reducible apply State.when_keeps
    | (intro _; skip) | split
    | (dsimp only; skip)
    | (with_reducible refine Keeps.lit rfl rfl ?_; first | with_reducible assumption | with_reducible apply State.when_keeps | (split; skip))

theorem execHandbackGrant_keeps {ps : Part → Prop} {s : State} {a1 : Nat} (h4 : ps (.regs 4)) (h9 : ps (.regs 9)) (h16 : ps (.regs 16)) (h17 : ps (.regs 17)) (h_evt : ps .evt) (h_lve : ps .lve) (h_med : ps .med) (h_out : ps .out) (h_pci : ps .pci) (h_pwr : ps .pwr) : ∀ r, (execHandbackGrant a1 s) = .next r → Keeps ps s r := by
  intro r e
  cases e
  have h := Keeps.refl (ps := ps) s
  repeat' first
    | with_reducible assumption | exact h4 | exact h9 | exact h16 | exact h17 | with_reducible apply State.when_keeps | with_reducible apply State.claimDue_keeps | with_reducible apply Keeps.foldl | with_reducible apply Keeps.foldlFst
    | (intro _; skip) | split
    | (dsimp only; skip)
    | (with_reducible refine Keeps.lit rfl rfl ?_; first | with_reducible assumption | exact h4 | exact h9 | exact h16 | exact h17 | with_reducible apply State.when_keeps | with_reducible apply State.claimDue_keeps | with_reducible apply Keeps.foldl | with_reducible apply Keeps.foldlFst | (split; skip))

theorem execHealReq_keeps {ps : Part → Prop} {s : State} {a1 : Nat} (h11 : ps (.regs 11)) (h17 : ps (.regs 17)) (h20 : ps (.regs 20)) (h_evt : ps .evt) (h_gens : ps .gens) (h_lve : ps .lve) (h_out : ps .out) (h_pci : ps .pci) (h_tly : ps .tly) : ∀ r, (execHealReq a1 s) = .next r → Keeps ps s r := by
  intro r e
  cases e
  have h := Keeps.refl (ps := ps) s
  repeat' first
    | with_reducible assumption | exact h11 | exact h17 | exact h20 | with_reducible apply State.when_keeps | with_reducible apply State.send_keeps
    | (intro _; skip) | split
    | (dsimp only; skip)
    | (with_reducible refine Keeps.lit rfl rfl ?_; first | with_reducible assumption | exact h11 | exact h17 | exact h20 | with_reducible apply State.when_keeps | with_reducible apply State.send_keeps | (split; skip))

theorem execHealData_keeps {ps : Part → Prop} {s : State} {a1 : Nat} {a2 : List (Nat × Blk)} (h6 : ps (.regs 6)) (h11 : ps (.regs 11)) (h12 : ps (.regs 12)) (h13 : ps (.regs 13)) (h17 : ps (.regs 17)) (h20 : ps (.regs 20)) (h_cry : ps .cry) (h_dck : ps .dck) (h_evt : ps .evt) (h_fresh : ps .fresh) (h_gens : ps .gens) (h_hbm : ps .hbm) (h_lve : ps .lve) (h_out : ps .out) (h_pci : ps .pci) (h_qqp : ps .qqp) (h_tly : ps .tly) : ∀ r, (execHealData a1 a2 s) = .next r → Keeps ps s r := by
  intro r e
  cases e
  have h := Keeps.refl (ps := ps) s
  repeat' first
    | (extract_lets +onlyGivenNames x; first | (with_reducible refine Keeps.cut (x := x) ?_ ?_; rotate_left; (try clear_value x); (intro _; skip); rotate_right; subst x) | subst x)
    | with_reducible assumption | exact h6 | exact h11 | exact h12 | exact h13 | exact h17 | exact h20 | with_reducible apply State.when_keeps | with_reducible apply State.updLine_keeps | with_reducible apply State.bump_keeps | with_reducible apply State.hbmLine_keeps
    | (intro _; skip) | split
    | (dsimp only; skip)
    | with_reducible refine Keeps.pair (by assumption) ?_
    | (with_reducible refine Keeps.lit rfl rfl ?_; first | with_reducible assumption | exact h6 | exact h11 | exact h12 | exact h13 | exact h17 | exact h20 | with_reducible apply State.when_keeps | with_reducible apply State.updLine_keeps | with_reducible apply State.bump_keeps | with_reducible apply State.hbmLine_keeps | with_reducible refine Keeps.pair (by assumption) ?_ | (split; skip))

theorem execHealTimeout_keeps {ps : Part → Prop} {s : State} {a1 : Nat} (h17 : ps (.regs 17)) (h_evt : ps .evt) (h_lve : ps .lve) (h_out : ps .out) (h_pci : ps .pci) (h_tly : ps .tly) : ∀ r, (execHealTimeout a1 s) = .next r → Keeps ps s r := by
  intro r e
  cases e
  have h := Keeps.refl (ps := ps) s
  repeat' first
    | with_reducible assumption | exact h17 | with_reducible apply State.when_keeps | with_reducible apply State.healLost_keeps
    | (intro _; skip) | split
    | (dsimp only; skip)
    | (with_reducible refine Keeps.lit rfl rfl ?_; first | with_reducible assumption | exact h17 | with_reducible apply State.when_keeps | with_reducible apply State.healLost_keeps | (split; skip))

theorem execUnknownMessage_keeps {ps : Part → Prop} {s : State} (h11 : ps (.regs 11)) : ∀ r, (execUnknownMessage s) = .next r → Keeps ps s r := by
  intro r e
  cases e
  have h := Keeps.refl (ps := ps) s
  repeat' first
    | with_reducible assumption | exact h11 | with_reducible apply State.when_keeps | with_reducible apply State.bump_keeps
    | (intro _; skip) | split
    | (dsimp only; skip)

theorem execHeartbeatSend_keeps {ps : Part → Prop} {s : State} (h11 : ps (.regs 11)) (h17 : ps (.regs 17)) (h20 : ps (.regs 20)) (h_evt : ps .evt) (h_gens : ps .gens) (h_lve : ps .lve) (h_out : ps .out) (h_pci : ps .pci) (h_tly : ps .tly) : ∀ r, (execHeartbeatSend s) = .next r → Keeps ps s r := by
  intro r e
  cases e
  have h := Keeps.refl (ps := ps) s
  repeat' first
    | with_reducible assumption | exact h11 | exact h17 | exact h20 | with_reducible apply State.when_keeps | with_reducible apply State.sendAll_keeps
    | (intro _; skip) | split
    | (dsimp only; skip)

theorem execProbeDue_keeps {ps : Part → Prop} {s : State} {a1 : Nat} (h11 : ps (.regs 11)) (h15 : ps (.regs 15)) (h_lve : ps .lve) : ∀ r, (execProbeDue a1 s) = .next r → Keeps ps s r := by
  intro r e
  cases e
  have h := Keeps.refl (ps := ps) s
  repeat' first
    | with_reducible assumption | exact h11 | exact h15 | with_reducible apply State.when_keeps | with_reducible apply State.bundleStart_keeps
    | (intro _; skip) | split
    | (dsimp only; skip)

theorem execProbeGivesUp_keeps {ps : Part → Prop} {s : State} {a1 : Nat} (h3 : ps (.regs 3)) (h11 : ps (.regs 11)) (h15 : ps (.regs 15)) (h17 : ps (.regs 17)) (h20 : ps (.regs 20)) (h_clk : ps .clk) (h_evt : ps .evt) (h_gens : ps .gens) (h_lanes : ps .lanes) (h_lve : ps .lve) (h_out : ps .out) (h_pci : ps .pci) (h_qqp : ps .qqp) (h_tly : ps .tly) : ∀ r, (execProbeGivesUp a1 s) = .next r → Keeps ps s r := by
  intro r e
  cases e
  have h := Keeps.refl (ps := ps) s
  repeat' first
    | with_reducible assumption | exact h3 | exact h11 | exact h15 | exact h17 | exact h20 | with_reducible apply State.when_keeps | with_reducible apply State.bundleFall_keeps
    | (intro _; skip) | split
    | (dsimp only; skip)

end Sys2Proof.Machine
end

