-- ==== Sys2Proof/Laws/Pins.lean ====
section
/-! SUPPORT. What each operation and each meaning of Machine/Pins.lean keeps (Keeps): one lemma a definition. -/

-- The package as one text is checked in one process: its proofs are checked one after another, and its linters keep quiet.
set_option Elab.async false
set_option linter.all false

namespace Sys2Proof.Machine
open Sys2Proof

theorem State.tapSample_keeps {ps : Part → Prop} {s0 s : State} (h_tap : ps .tap) (h : Keeps ps s0 s) : Keeps ps s0 (State.tapSample s) := by
  unfold State.tapSample
  repeat' first
    | with_reducible assumption | with_reducible apply Keeps.foldl | with_reducible apply Keeps.foldlFst
    | (intro _; skip) | split
    | (dsimp only; skip)
    | (with_reducible refine Keeps.lit rfl rfl ?_; first | with_reducible assumption | with_reducible apply Keeps.foldl | with_reducible apply Keeps.foldlFst | (split; skip))

theorem State.tapUpdate_keeps {ps : Part → Prop} {a1 : Nat} {a2 : List BCell} {s0 s : State} (h_tap : ps .tap) (h : Keeps ps s0 s) : Keeps ps s0 (State.tapUpdate s a1 a2) := by
  unfold State.tapUpdate
  repeat' first
    | (extract_lets +onlyGivenNames x; first | (with_reducible refine Keeps.cut (x := x) ?_ ?_; rotate_left; (try clear_value x); (intro _; skip); rotate_right; subst x) | subst x)
    | with_reducible assumption
    | (intro _; skip) | split
    | (dsimp only; skip)
    | (with_reducible refine Keeps.lit rfl rfl ?_; first | with_reducible assumption | (split; skip))

theorem State.tapReset_keeps {ps : Part → Prop} {s0 s : State} (h_tap : ps .tap) (h : Keeps ps s0 s) : Keeps ps s0 (State.tapReset s) := by
  unfold State.tapReset
  repeat' first
    | with_reducible assumption | with_reducible apply State.tapUpdate_keeps
    | (intro _; skip) | split
    | (dsimp only; skip)

end Sys2Proof.Machine
end

