-- ==== Sys2Proof/Laws/Resets.lean ====
section
/-! SUPPORT. What each operation and each meaning of Machine/Resets.lean keeps (Keeps): one lemma a definition. -/

-- The package as one text is checked in one process: its proofs are checked one after another, and its linters keep quiet.
set_option Elab.async false
set_option linter.all false

namespace Sys2Proof.Machine
open Sys2Proof

theorem State.partReset_keeps {ps : Part → Prop} {s0 s : State} (hall : ∀ p, ps p) (h : Keeps ps s0 s) : Keeps ps s0 (State.partReset s) :=
  ⟨h.1, h.2, h.3, fun _ => rfl, fun _ => rfl, fun _ => rfl, fun p np => absurd (hall p) np, fun _ => Nat.two_pow_pos 64⟩



theorem State.refuse_keeps {ps : Part → Prop} {s0 s : State} (h1 : ps (.regs 1)) (h_cfg : ps .cfg) (h_fab : ps .fab) (h_fresh : ps .fresh) (h : Keeps ps s0 s) : Keeps ps s0 (State.refuse s) := by
  unfold State.refuse
  repeat' first
    | (extract_lets +onlyGivenNames x; first | (with_reducible refine Keeps.cut (x := x) ?_ ?_; rotate_left; (try clear_value x); (intro _; skip); rotate_right; subst x) | subst x)
    | with_reducible assumption | exact h1 | with_reducible apply State.drawn_keeps | with_reducible apply State.put_keeps
    | (intro _; skip) | split
    | (dsimp only; skip)
    | (with_reducible refine Keeps.lit rfl rfl ?_; first | with_reducible assumption | exact h1 | with_reducible apply State.drawn_keeps | with_reducible apply State.put_keeps | (split; skip))

theorem State.refuseAtOnce_keeps {ps : Part → Prop} {a1 : Nat} {s0 s : State} (h1 : ps (.regs 1)) (h_cfg : ps .cfg) (h_fab : ps .fab) (h_fresh : ps .fresh) (h : Keeps ps s0 s) : Keeps ps s0 (State.refuseAtOnce s a1) := by
  unfold State.refuseAtOnce
  repeat' first
    | with_reducible assumption | exact h1 | with_reducible apply State.refuse_keeps | with_reducible apply State.bump_keeps | with_reducible apply State.put_keeps
    | (intro _; skip) | split
    | (dsimp only; skip)

theorem State.loadStart_keeps {ps : Part → Prop} {a1 a2 : Nat} {a3 : Bool} {s0 s : State} (h1 : ps (.regs 1)) (h3 : ps (.regs 3)) (h_cfg : ps .cfg) (h_fab : ps .fab) (h_fresh : ps .fresh) (h : Keeps ps s0 s) : Keeps ps s0 (State.loadStart s a1 a2 a3) := by
  unfold State.loadStart
  repeat' first
    | (extract_lets +onlyGivenNames x; first | (with_reducible refine Keeps.cut (x := x) ?_ ?_; rotate_left; (try clear_value x); (intro _; skip); rotate_right; subst x) | subst x)
    | with_reducible assumption | exact h1 | exact h3 | with_reducible apply State.put_keeps | with_reducible apply State.flag_keeps | with_reducible apply State.refuseAtOnce_keeps
    | (intro _; skip) | split
    | (dsimp only; skip)
    | (with_reducible refine Keeps.lit rfl rfl ?_; first | with_reducible assumption | exact h1 | exact h3 | with_reducible apply State.put_keeps | with_reducible apply State.flag_keeps | with_reducible apply State.refuseAtOnce_keeps | (split; skip))

theorem State.leave_keeps {ps : Part → Prop} {a1 : Nat} {s0 s : State} (h_out : ps .out) (h : Keeps ps s0 s) : Keeps ps s0 (State.leave s a1) := by
  unfold State.leave
  repeat' first
    | with_reducible assumption
    | (intro _; skip) | split
    | (dsimp only; skip)
    | (with_reducible refine Keeps.lit rfl rfl ?_; first | with_reducible assumption | (split; skip))

theorem State.progN_keeps {ps : Part → Prop} {a1 a2 a3 : Nat} {a4 : Bool} {s0 s : State} (hall : ∀ p, ps p) (h : Keeps ps s0 s) : Keeps ps s0 (State.progN s a1 a2 a3 a4) := by
  have h_cfg := hall .cfg
  have h_cfg := hall .cfg
  unfold State.progN
  repeat' first
    | (extract_lets +onlyGivenNames x; first | (with_reducible refine Keeps.cut (x := x) ?_ ?_; rotate_left; (try clear_value x); (intro _; skip); rotate_right; subst x) | subst x)
    | with_reducible assumption | exact hall _ | (intro _; exact hall _) | with_reducible apply State.partReset_keeps | with_reducible apply State.leave_keeps | with_reducible apply State.loadStart_keeps
    | (intro _; skip) | split
    | (dsimp only; skip)
    | (with_reducible refine Keeps.lit rfl rfl ?_; first | with_reducible assumption | exact hall _ | (intro _; exact hall _) | with_reducible apply State.partReset_keeps | with_reducible apply State.leave_keeps | with_reducible apply State.loadStart_keeps | (split; skip))

theorem execPowerOnReset_keeps {ps : Part → Prop} {s : State} {a1 a2 : Nat} {a3 : Bool} (hall : ∀ p, ps p) : ∀ r, (execPowerOnReset a1 a2 a3 s) = .next r → Keeps ps s r := by
  intro r e
  cases e
  have h := Keeps.refl (ps := ps) s
  have h_cfg := hall .cfg
  repeat' first
    | (extract_lets +onlyGivenNames x; first | (with_reducible refine Keeps.cut (x := x) ?_ ?_; rotate_left; (try clear_value x); (intro _; skip); rotate_right; subst x) | subst x)
    | with_reducible assumption | exact hall _ | (intro _; exact hall _) | with_reducible apply State.tapReset_keeps | with_reducible apply State.partReset_keeps | with_reducible apply State.loadStart_keeps
    | (intro _; skip) | split
    | (dsimp only; skip)
    | (with_reducible refine Keeps.lit rfl rfl ?_; first | with_reducible assumption | exact hall _ | (intro _; exact hall _) | with_reducible apply State.tapReset_keeps | with_reducible apply State.partReset_keeps | with_reducible apply State.loadStart_keeps | (split; skip))

theorem execCfgProgNPulse_keeps {ps : Part → Prop} {s : State} {a1 a2 : Nat} {a3 : Bool} (hall : ∀ p, ps p) : ∀ r, (execCfgProgNPulse a1 a2 a3 s) = .next r → Keeps ps s r := by
  intro r e
  cases e
  have h := Keeps.refl (ps := ps) s
  repeat' first
    | with_reducible assumption | exact hall _ | (intro _; exact hall _) | with_reducible apply State.progN_keeps
    | (intro _; skip) | split
    | (dsimp only; skip)

theorem State.progPull_keeps {ps : Part → Prop} {s0 s : State} (h_cfg : ps .cfg) (h_out : ps .out) (h : Keeps ps s0 s) : Keeps ps s0 (State.progPull s) := by
  unfold State.progPull
  repeat' first
    | with_reducible assumption
    | (intro _; skip) | split
    | (dsimp only; skip)
    | (with_reducible refine Keeps.lit rfl rfl ?_; first | with_reducible assumption | (split; skip))

theorem State.reload_keeps {ps : Part → Prop} {a1 : Req} {a2 : Nat} {s0 s : State} (hall : ∀ p, ps p) (h : Keeps ps s0 s) : Keeps ps s0 (State.reload s a1 a2) := by
  unfold State.reload
  repeat' first
    | with_reducible assumption | exact hall _ | (intro _; exact hall _) | with_reducible apply State.progPull_keeps | with_reducible apply State.progN_keeps | with_reducible apply State.refuseWrite_keeps
    | (intro _; skip) | split
    | (dsimp only; skip)

theorem execCfgReload_keeps {ps : Part → Prop} {s : State} {a1 : Req} {a2 : ReloadIn} (hall : ∀ p, ps p) : ∀ r, (execCfgReload a1 a2 s) = .next r → Keeps ps s r := by
  intro r e
  cases e
  have h := Keeps.refl (ps := ps) s
  have h_cfg := hall .cfg
  repeat' first
    | with_reducible assumption | exact hall _ | (intro _; exact hall _) | with_reducible apply State.when_keeps | with_reducible apply State.byReq_keeps | with_reducible apply State.reload_keeps
    | (intro _; skip) | split
    | (dsimp only; skip)
    | (with_reducible refine Keeps.lit rfl rfl ?_; first | with_reducible assumption | exact hall _ | (intro _; exact hall _) | with_reducible apply State.when_keeps | with_reducible apply State.byReq_keeps | with_reducible apply State.reload_keeps | (split; skip))

theorem State.assertPor_keeps {ps : Part → Prop} {a1 : Bool} {s0 s : State} (hall : ∀ p, ps p) (h : Keeps ps s0 s) : Keeps ps s0 (State.assertPor s a1) := by
  have h_cfg := hall .cfg
  have h_cfg := hall .cfg
  unfold State.assertPor
  repeat' first
    | (extract_lets +onlyGivenNames x; first | (with_reducible refine Keeps.cut (x := x) ?_ ?_; rotate_left; (try clear_value x); (intro _; skip); rotate_right; subst x) | subst x)
    | with_reducible assumption | exact hall _ | (intro _; exact hall _) | with_reducible apply State.tapReset_keeps | with_reducible apply State.partReset_keeps
    | (intro _; skip) | split
    | (dsimp only; skip)
    | (with_reducible refine Keeps.lit rfl rfl ?_; first | with_reducible assumption | exact hall _ | (intro _; exact hall _) | with_reducible apply State.tapReset_keeps | with_reducible apply State.partReset_keeps | (split; skip))

theorem execRailFault_keeps {ps : Part → Prop} {s : State} (hall : ∀ p, ps p) : ∀ r, (execRailFault s) = .next r → Keeps ps s r := by
  intro r e
  cases e
  have h := Keeps.refl (ps := ps) s
  repeat' first
    | with_reducible assumption | exact hall _ | (intro _; exact hall _) | with_reducible apply State.assertPor_keeps
    | (intro _; skip) | split
    | (dsimp only; skip)

theorem State.driftRetrain_keeps {ps : Part → Prop} {a1 : Nat} {a2 : Int} {s0 s : State} (h_med : ps .med) (h : Keeps ps s0 s) : Keeps ps s0 (State.driftRetrain s a1 a2) := by
  unfold State.driftRetrain
  repeat' first
    | (extract_lets +onlyGivenNames x; first | (with_reducible refine Keeps.cut (x := x) ?_ ?_; rotate_left; (try clear_value x); (intro _; skip); rotate_right; subst x) | subst x)
    | with_reducible assumption | with_reducible apply State.updChan_keeps | with_reducible apply Keeps.foldl | with_reducible apply Keeps.foldlFst
    | (intro _; skip) | split
    | (dsimp only; skip)
    | (with_reducible refine Keeps.lit rfl rfl ?_; first | with_reducible assumption | with_reducible apply State.updChan_keeps | with_reducible apply Keeps.foldl | with_reducible apply Keeps.foldlFst | (split; skip))

theorem State.mediaTemp_keeps {ps : Part → Prop} {a1 : Nat} {a2 : Int} {s0 s : State} (h_med : ps .med) (h : Keeps ps s0 s) : Keeps ps s0 (State.mediaTemp s a1 a2) := by
  unfold State.mediaTemp
  repeat' first
    | (extract_lets +onlyGivenNames x; first | (with_reducible refine Keeps.cut (x := x) ?_ ?_; rotate_left; (try clear_value x); (intro _; skip); rotate_right; subst x) | subst x)
    | with_reducible assumption | with_reducible apply State.setTemp_keeps | with_reducible apply State.driftRetrain_keeps | with_reducible apply Keeps.foldl | with_reducible apply Keeps.foldlFst
    | (intro _; skip) | split
    | (dsimp only; skip)

theorem execThermalRead_keeps {ps : Part → Prop} {s : State} {a1 : Nat} {a2 : Int} (hall : ∀ p, ps p) : ∀ r, (execThermalRead a1 a2 s) = .next r → Keeps ps s r := by
  intro r e
  cases e
  have h := Keeps.refl (ps := ps) s
  have h_cfg := hall .cfg
  repeat' first
    | (extract_lets +onlyGivenNames x; first | (with_reducible refine Keeps.cut (x := x) ?_ ?_; rotate_left; (try clear_value x); (intro _; skip); rotate_right; subst x) | subst x)
    | with_reducible assumption | exact hall _ | (intro _; exact hall _) | with_reducible apply State.assertPor_keeps | with_reducible apply State.when_keeps | with_reducible apply State.mediaTemp_keeps
    | (intro _; skip) | split
    | (dsimp only; skip)
    | (with_reducible refine Keeps.lit rfl rfl ?_; first | with_reducible assumption | exact hall _ | (intro _; exact hall _) | with_reducible apply State.assertPor_keeps | with_reducible apply State.when_keeps | with_reducible apply State.mediaTemp_keeps | (split; skip))

theorem execTestInstructionLoad_keeps {ps : Part → Prop} {s : State} {a1 : TestIn} (hall : ∀ p, ps p) : ∀ r, (execTestInstructionLoad a1 s) = .next r → Keeps ps s r := by
  intro r e
  cases e
  have h := Keeps.refl (ps := ps) s
  have h_cfg := hall .cfg
  repeat' first
    | (extract_lets +onlyGivenNames x; first | (with_reducible refine Keeps.cut (x := x) ?_ ?_; rotate_left; (try clear_value x); (intro _; skip); rotate_right; subst x) | subst x)
    | with_reducible assumption | exact hall _ | (intro _; exact hall _) | with_reducible apply State.tapUpdate_keeps | with_reducible apply State.partReset_keeps | with_reducible apply State.leave_keeps
    | (intro _; skip) | split
    | (dsimp only; skip)
    | (with_reducible refine Keeps.lit rfl rfl ?_; first | with_reducible assumption | exact hall _ | (intro _; exact hall _) | with_reducible apply State.tapUpdate_keeps | with_reducible apply State.partReset_keeps | with_reducible apply State.leave_keeps | (split; skip))

theorem execTestLogicReset_keeps {ps : Part → Prop} {s : State} {a1 a2 : Nat} {a3 : Bool} (hall : ∀ p, ps p) : ∀ r, (execTestLogicReset a1 a2 a3 s) = .next r → Keeps ps s r := by
  intro r e
  cases e
  have h := Keeps.refl (ps := ps) s
  have h_cfg := hall .cfg
  repeat' first
    | (extract_lets +onlyGivenNames x; first | (with_reducible refine Keeps.cut (x := x) ?_ ?_; rotate_left; (try clear_value x); (intro _; skip); rotate_right; subst x) | subst x)
    | with_reducible assumption | exact hall _ | (intro _; exact hall _) | with_reducible apply State.tapReset_keeps | with_reducible apply State.progN_keeps
    | (intro _; skip) | split
    | (dsimp only; skip)
    | (with_reducible refine Keeps.lit rfl rfl ?_; first | with_reducible assumption | exact hall _ | (intro _; exact hall _) | with_reducible apply State.tapReset_keeps | with_reducible apply State.progN_keeps | (split; skip))

theorem State.pllLost_keeps {ps : Part → Prop} {s0 s : State} (h3 : ps (.regs 3)) (h9 : ps (.regs 9)) (h17 : ps (.regs 17)) (h_clk : ps .clk) (h_evt : ps .evt) (h_lve : ps .lve) (h_med : ps .med) (h_out : ps .out) (h_pci : ps .pci) (h : Keeps ps s0 s) : Keeps ps s0 (State.pllLost s) := by
  unfold State.pllLost
  repeat' first
    | (extract_lets +onlyGivenNames x; first | (with_reducible refine Keeps.cut (x := x) ?_ ?_; rotate_left; (try clear_value x); (intro _; skip); rotate_right; subst x) | subst x)
    | with_reducible assumption | exact h3 | exact h9 | exact h17 | with_reducible apply State.keeperDie_keeps | with_reducible apply State.post_keeps | with_reducible apply State.put_keeps
    | (intro _; skip) | split
    | (dsimp only; skip)
    | (with_reducible refine Keeps.lit rfl rfl ?_; first | with_reducible assumption | exact h3 | exact h9 | exact h17 | with_reducible apply State.keeperDie_keeps | with_reducible apply State.post_keeps | with_reducible apply State.put_keeps | (split; skip))

theorem execPllUnlock_keeps {ps : Part → Prop} {s : State} (h3 : ps (.regs 3)) (h9 : ps (.regs 9)) (h17 : ps (.regs 17)) (h_clk : ps .clk) (h_evt : ps .evt) (h_lve : ps .lve) (h_med : ps .med) (h_out : ps .out) (h_pci : ps .pci) : ∀ r, (execPllUnlock s) = .next r → Keeps ps s r := by
  intro r e
  cases e
  have h := Keeps.refl (ps := ps) s
  repeat' first
    | with_reducible assumption | exact h3 | exact h9 | exact h17 | with_reducible apply State.when_keeps | with_reducible apply State.pllLost_keeps
    | (intro _; skip) | split
    | (dsimp only; skip)

end Sys2Proof.Machine
end

