-- ==== Sys2Proof/Laws/Stands.lean ====
section
/-! SUPPORT. What each operation and each meaning of Machine/Stands.lean keeps (Keeps): one lemma a definition. -/

-- The package as one text is checked in one process: its proofs are checked one after another, and its linters keep quiet.
set_option Elab.async false
set_option linter.all false

namespace Sys2Proof.Machine
open Sys2Proof

theorem State.landingOff_keeps {ps : Part → Prop} {a1 : Nat} {s0 s : State} (h6 : ps (.regs 6)) (h17 : ps (.regs 17)) (h18 : ps (.regs 18)) (h_dck : ps .dck) (h_evt : ps .evt) (h_out : ps .out) (h_pci : ps .pci) (h : Keeps ps s0 s) : Keeps ps s0 (State.landingOff s a1) := by
  unfold State.landingOff
  repeat' first
    | with_reducible assumption | exact h6 | exact h17 | exact h18 | with_reducible apply State.dropLanding_keeps | with_reducible apply State.put_keeps
    | (intro _; skip) | split
    | (dsimp only; skip)

theorem execLandingDisable_keeps {ps : Part → Prop} {s : State} {a1 : Nat} (h6 : ps (.regs 6)) (h17 : ps (.regs 17)) (h18 : ps (.regs 18)) (h_dck : ps .dck) (h_evt : ps .evt) (h_out : ps .out) (h_pci : ps .pci) : ∀ r, (execLandingDisable a1 s) = .next r → Keeps ps s r := by
  intro r e
  cases e
  have h := Keeps.refl (ps := ps) s
  repeat' first
    | with_reducible assumption | exact h6 | exact h17 | exact h18 | with_reducible apply State.when_keeps | with_reducible apply State.landingOff_keeps
    | (intro _; skip) | split
    | (dsimp only; skip)

theorem State.slResult_keeps {ps : Part → Prop} {a1 : SlReq} {a2 a3 a4 : Nat} {s0 s : State} (h1 : ps (.regs 1)) (h6 : ps (.regs 6)) (h_dck : ps .dck) (h_qqp : ps .qqp) (h : Keeps ps s0 s) : Keeps ps s0 (State.slResult s a1 a2 a3 a4) := by
  unfold State.slResult
  repeat' first
    | (extract_lets +onlyGivenNames x; first | (with_reducible refine Keeps.cut (x := x) ?_ ?_; rotate_left; (try clear_value x); (intro _; skip); rotate_right; subst x) | subst x)
    | with_reducible assumption | exact h1 | exact h6 | with_reducible apply State.put_keeps | with_reducible apply State.finish_keeps | with_reducible apply State.updCmd_keeps
    | (intro _; skip) | split
    | (dsimp only; skip)
    | (with_reducible refine Keeps.lit rfl rfl ?_; first | with_reducible assumption | exact h1 | exact h6 | with_reducible apply State.put_keeps | with_reducible apply State.finish_keeps | with_reducible apply State.updCmd_keeps | (split; skip))

theorem State.slRefuse_keeps {ps : Part → Prop} {a1 : SlReq} {a2 a3 a4 : Nat} {s0 s : State} (h1 : ps (.regs 1)) (h6 : ps (.regs 6)) (h17 : ps (.regs 17)) (h_dck : ps .dck) (h_evt : ps .evt) (h_out : ps .out) (h_pci : ps .pci) (h_qqp : ps .qqp) (h : Keeps ps s0 s) : Keeps ps s0 (State.slRefuse s a1 a2 a3 a4) := by
  unfold State.slRefuse
  repeat' first
    | with_reducible assumption | exact h1 | exact h6 | exact h17 | with_reducible apply State.slResult_keeps | with_reducible apply State.post_keeps | with_reducible apply State.bump_keeps
    | (intro _; skip) | split
    | (dsimp only; skip)

theorem State.slShow_keeps {ps : Part → Prop} {s0 s : State} (h1 : ps (.regs 1)) (h : Keeps ps s0 s) : Keeps ps s0 (State.slShow s) := by
  unfold State.slShow
  repeat' first
    | (extract_lets +onlyGivenNames x; first | (with_reducible refine Keeps.cut (x := x) ?_ ?_; rotate_left; (try clear_value x); (intro _; skip); rotate_right; subst x) | subst x)
    | with_reducible assumption | exact h1 | with_reducible apply State.put_keeps
    | (intro _; skip) | split
    | (dsimp only; skip)
    | (with_reducible refine Keeps.lit rfl rfl ?_; first | with_reducible assumption | exact h1 | with_reducible apply State.put_keeps | (split; skip))

theorem State.slRequest_keeps {ps : Part → Prop} {a1 a2 a3 : Nat} {a4 : Option Nat} {s0 s : State} (h1 : ps (.regs 1)) (h6 : ps (.regs 6)) (h17 : ps (.regs 17)) (h_dck : ps .dck) (h_evt : ps .evt) (h_out : ps .out) (h_pci : ps .pci) (h_qqp : ps .qqp) (h_sl : ps .sl) (h : Keeps ps s0 s) : Keeps ps s0 (State.slRequest s a1 a2 a3 a4) := by
  unfold State.slRequest
  repeat' first
    | (extract_lets +onlyGivenNames x; first | (with_reducible refine Keeps.cut (x := x) ?_ ?_; rotate_left; (try clear_value x); (intro _; skip); rotate_right; subst x) | subst x)
    | with_reducible assumption | exact h1 | exact h6 | exact h17 | with_reducible apply State.slRefuse_keeps | with_reducible apply State.slShow_keeps | with_reducible apply State.put_keeps
    | (intro _; skip) | split
    | (dsimp only; skip)
    | (with_reducible refine Keeps.lit rfl rfl ?_; first | with_reducible assumption | exact h1 | exact h6 | exact h17 | with_reducible apply State.slRefuse_keeps | with_reducible apply State.slShow_keeps | with_reducible apply State.put_keeps | (split; skip))

theorem execStandLoad_keeps {ps : Part → Prop} {s : State} {a1 : Nat} (h1 : ps (.regs 1)) (h6 : ps (.regs 6)) (h17 : ps (.regs 17)) (h_dck : ps .dck) (h_evt : ps .evt) (h_out : ps .out) (h_pci : ps .pci) (h_qqp : ps .qqp) (h_sl : ps .sl) : ∀ r, (execStandLoad a1 s) = .next r → Keeps ps s r := by
  intro r e
  cases e
  have h := Keeps.refl (ps := ps) s
  repeat' first
    | (extract_lets +onlyGivenNames x; first | (with_reducible refine Keeps.cut (x := x) ?_ ?_; rotate_left; (try clear_value x); (intro _; skip); rotate_right; subst x) | subst x)
    | with_reducible assumption | exact h1 | exact h6 | exact h17 | with_reducible apply State.when_keeps | with_reducible apply State.failCmd_keeps | with_reducible apply State.slRequest_keeps | with_reducible apply State.updCmd_keeps
    | (intro _; skip) | split
    | (dsimp only; skip)
    | (with_reducible refine Keeps.lit rfl rfl ?_; first | with_reducible assumption | exact h1 | exact h6 | exact h17 | with_reducible apply State.when_keeps | with_reducible apply State.failCmd_keeps | with_reducible apply State.slRequest_keeps | with_reducible apply State.updCmd_keeps | (split; skip))

theorem State.slCmd_keeps {ps : Part → Prop} {a1 : Nat} {s0 s : State} (h1 : ps (.regs 1)) (h6 : ps (.regs 6)) (h17 : ps (.regs 17)) (h_dck : ps .dck) (h_evt : ps .evt) (h_out : ps .out) (h_pci : ps .pci) (h_qqp : ps .qqp) (h_sl : ps .sl) (h : Keeps ps s0 s) : Keeps ps s0 (State.slCmd s a1) := by
  unfold State.slCmd
  repeat' first
    | (extract_lets +onlyGivenNames x; first | (with_reducible refine Keeps.cut (x := x) ?_ ?_; rotate_left; (try clear_value x); (intro _; skip); rotate_right; subst x) | subst x)
    | with_reducible assumption | exact h1 | exact h6 | exact h17 | with_reducible apply State.slRequest_keeps
    | (intro _; skip) | split
    | (dsimp only; skip)

theorem execCfgSlCmd_keeps {ps : Part → Prop} {s : State} {a1 : Req} {a2 : Nat} (h1 : ps (.regs 1)) (h6 : ps (.regs 6)) (h17 : ps (.regs 17)) (h_dck : ps .dck) (h_evt : ps .evt) (h_out : ps .out) (h_pci : ps .pci) (h_qqp : ps .qqp) (h_sl : ps .sl) : ∀ r, (execCfgSlCmd a1 a2 s) = .next r → Keeps ps s r := by
  intro r e
  cases e
  have h := Keeps.refl (ps := ps) s
  repeat' first
    | with_reducible assumption | exact h1 | exact h6 | exact h17 | with_reducible apply State.when_keeps | with_reducible apply State.byReq_keeps | with_reducible apply State.slCmd_keeps
    | (intro _; skip) | split
    | (dsimp only; skip)

theorem State.slRest_keeps {ps : Part → Prop} {a1 : List SlReq} {s0 s : State} (h_sl : ps .sl) (h : Keeps ps s0 s) : Keeps ps s0 (State.slRest s a1) := by
  unfold State.slRest
  repeat' first
    | with_reducible assumption
    | (intro _; skip) | split
    | (dsimp only; skip)
    | (with_reducible refine Keeps.lit rfl rfl ?_; first | with_reducible assumption | (split; skip))

theorem State.slOpen_keeps {ps : Part → Prop} {a1 : SlReq} {a2 : PImg} {s0 s : State} (h1 : ps (.regs 1)) (h6 : ps (.regs 6)) (h17 : ps (.regs 17)) (h_dck : ps .dck) (h_evt : ps .evt) (h_out : ps .out) (h_pci : ps .pci) (h_sl : ps .sl) (h : Keeps ps s0 s) : Keeps ps s0 (State.slOpen s a1 a2) := by
  unfold State.slOpen
  repeat' first
    | (extract_lets +onlyGivenNames x; first | (with_reducible refine Keeps.cut (x := x) ?_ ?_; rotate_left; (try clear_value x); (intro _; skip); rotate_right; subst x) | subst x)
    | with_reducible assumption | exact h1 | exact h6 | exact h17 | with_reducible apply State.put_keeps | with_reducible apply State.dropLanding_keeps | with_reducible apply Keeps.foldl | with_reducible apply Keeps.foldlFst
    | (intro _; skip) | split
    | (dsimp only; skip)
    | (with_reducible refine Keeps.lit rfl rfl ?_; first | with_reducible assumption | exact h1 | exact h6 | exact h17 | with_reducible apply State.put_keeps | with_reducible apply State.dropLanding_keeps | with_reducible apply Keeps.foldl | with_reducible apply Keeps.foldlFst | (split; skip))

theorem execStandLoadStart_keeps {ps : Part → Prop} {s : State} {a1 : PImg} (h1 : ps (.regs 1)) (h6 : ps (.regs 6)) (h17 : ps (.regs 17)) (h_dck : ps .dck) (h_evt : ps .evt) (h_out : ps .out) (h_pci : ps .pci) (h_qqp : ps .qqp) (h_sl : ps .sl) : ∀ r, (execStandLoadStart a1 s) = .next r → Keeps ps s r := by
  intro r e
  cases e
  have h := Keeps.refl (ps := ps) s
  repeat' first
    | (extract_lets +onlyGivenNames x; first | (with_reducible refine Keeps.cut (x := x) ?_ ?_; rotate_left; (try clear_value x); (intro _; skip); rotate_right; subst x) | subst x)
    | with_reducible assumption | exact h1 | exact h6 | exact h17 | with_reducible apply State.when_keeps | with_reducible apply State.slRest_keeps | with_reducible apply State.slShow_keeps | with_reducible apply State.slRefuse_keeps | with_reducible apply State.put_keeps | with_reducible apply State.slOpen_keeps
    | (intro _; skip) | split
    | (dsimp only; skip)
    | (with_reducible refine Keeps.lit rfl rfl ?_; first | with_reducible assumption | exact h1 | exact h6 | exact h17 | with_reducible apply State.when_keeps | with_reducible apply State.slRest_keeps | with_reducible apply State.slShow_keeps | with_reducible apply State.slRefuse_keeps | with_reducible apply State.put_keeps | with_reducible apply State.slOpen_keeps | (split; skip))

theorem State.slEnd_keeps {ps : Part → Prop} {a1 : SlReq} {a2 a3 : Nat} {s0 s : State} (h1 : ps (.regs 1)) (h6 : ps (.regs 6)) (h_dck : ps .dck) (h_qqp : ps .qqp) (h_sl : ps .sl) (h : Keeps ps s0 s) : Keeps ps s0 (State.slEnd s a1 a2 a3) := by
  unfold State.slEnd
  repeat' first
    | with_reducible assumption | exact h1 | exact h6 | with_reducible apply State.slShow_keeps | with_reducible apply State.slResult_keeps
    | (intro _; skip) | split
    | (dsimp only; skip)
    | (with_reducible refine Keeps.lit rfl rfl ?_; first | with_reducible assumption | exact h1 | exact h6 | with_reducible apply State.slShow_keeps | with_reducible apply State.slResult_keeps | (split; skip))

theorem State.slTear_keeps {ps : Part → Prop} {a1 : SlReq} {a2 a3 a4 : Nat} {s0 s : State} (h1 : ps (.regs 1)) (h6 : ps (.regs 6)) (h17 : ps (.regs 17)) (h_dck : ps .dck) (h_evt : ps .evt) (h_out : ps .out) (h_pci : ps .pci) (h_qqp : ps .qqp) (h_sl : ps .sl) (h : Keeps ps s0 s) : Keeps ps s0 (State.slTear s a1 a2 a3 a4) := by
  unfold State.slTear
  repeat' first
    | (extract_lets +onlyGivenNames x; first | (with_reducible refine Keeps.cut (x := x) ?_ ?_; rotate_left; (try clear_value x); (intro _; skip); rotate_right; subst x) | subst x)
    | with_reducible assumption | exact h1 | exact h6 | exact h17 | with_reducible apply State.bump_keeps | with_reducible apply State.put_keeps | with_reducible apply State.slEnd_keeps | with_reducible apply State.post_keeps
    | (intro _; skip) | split
    | (dsimp only; skip)

theorem State.clearMems_keeps {ps : Part → Prop} {a1 : Nat} {s0 s : State} (h_sl : ps .sl) (h : Keeps ps s0 s) : Keeps ps s0 (State.clearMems s a1) := by
  unfold State.clearMems
  repeat' first
    | with_reducible assumption
    | (intro _; skip) | split
    | (dsimp only; skip)
    | (with_reducible refine Keeps.lit rfl rfl ?_; first | with_reducible assumption | (split; skip))

theorem State.slFinish_keeps {ps : Part → Prop} {a1 : SlReq} {s0 s : State} (h1 : ps (.regs 1)) (h6 : ps (.regs 6)) (h17 : ps (.regs 17)) (h18 : ps (.regs 18)) (h_dck : ps .dck) (h_evt : ps .evt) (h_fab : ps .fab) (h_out : ps .out) (h_pci : ps .pci) (h_qqp : ps .qqp) (h_sl : ps .sl) (h : Keeps ps s0 s) : Keeps ps s0 (State.slFinish s a1) := by
  unfold State.slFinish
  repeat' first
    | (extract_lets +onlyGivenNames x; first | (with_reducible refine Keeps.cut (x := x) ?_ ?_; rotate_left; (try clear_value x); (intro _; skip); rotate_right; subst x) | subst x)
    | with_reducible assumption | exact h1 | exact h6 | exact h17 | exact h18 | with_reducible apply State.put_keeps | with_reducible apply State.clearMems_keeps | with_reducible apply State.slTear_keeps | with_reducible apply State.updFrm_keeps | with_reducible apply State.releaseStand_keeps | with_reducible apply State.bump_keeps | with_reducible apply State.slEnd_keeps | with_reducible apply State.post_keeps | with_reducible apply Keeps.foldl | with_reducible apply Keeps.foldlFst
    | (intro _; skip) | split
    | (dsimp only; skip)
    | (with_reducible refine Keeps.lit rfl rfl ?_; first | with_reducible assumption | exact h1 | exact h6 | exact h17 | exact h18 | with_reducible apply State.put_keeps | with_reducible apply State.clearMems_keeps | with_reducible apply State.slTear_keeps | with_reducible apply State.updFrm_keeps | with_reducible apply State.releaseStand_keeps | with_reducible apply State.bump_keeps | with_reducible apply State.slEnd_keeps | with_reducible apply State.post_keeps | with_reducible apply Keeps.foldl | with_reducible apply Keeps.foldlFst | (split; skip))

theorem State.slDrained_keeps {ps : Part → Prop} {a1 : SlReq} {a2 : List Bool} {s0 s : State} (h1 : ps (.regs 1)) (h6 : ps (.regs 6)) (h_dck : ps .dck) (h_noc : ps .noc) (h_qqp : ps .qqp) (h_sl : ps .sl) (h : Keeps ps s0 s) : Keeps ps s0 (State.slDrained s a1 a2) := by
  unfold State.slDrained
  repeat' first
    | (extract_lets +onlyGivenNames x; first | (with_reducible refine Keeps.cut (x := x) ?_ ?_; rotate_left; (try clear_value x); (intro _; skip); rotate_right; subst x) | subst x)
    | with_reducible assumption | exact h1 | exact h6 | with_reducible apply State.endLandingTasks_keeps | with_reducible apply State.put_keeps | with_reducible apply Keeps.foldl | with_reducible apply Keeps.foldlFst
    | (intro _; skip) | split
    | (dsimp only; skip)
    | (with_reducible refine Keeps.lit rfl rfl ?_; first | with_reducible assumption | exact h1 | exact h6 | with_reducible apply State.endLandingTasks_keeps | with_reducible apply State.put_keeps | with_reducible apply Keeps.foldl | with_reducible apply Keeps.foldlFst | (split; skip))

theorem execStandDrainEnd_keeps {ps : Part → Prop} {s : State} {a1 : List Bool} (h1 : ps (.regs 1)) (h6 : ps (.regs 6)) (h17 : ps (.regs 17)) (h18 : ps (.regs 18)) (h_dck : ps .dck) (h_evt : ps .evt) (h_fab : ps .fab) (h_noc : ps .noc) (h_out : ps .out) (h_pci : ps .pci) (h_qqp : ps .qqp) (h_sl : ps .sl) : ∀ r, (execStandDrainEnd a1 s) = .next r → Keeps ps s r := by
  intro r e
  cases e
  have h := Keeps.refl (ps := ps) s
  repeat' first
    | (extract_lets +onlyGivenNames x; first | (with_reducible refine Keeps.cut (x := x) ?_ ?_; rotate_left; (try clear_value x); (intro _; skip); rotate_right; subst x) | subst x)
    | with_reducible assumption | exact h1 | exact h6 | exact h17 | exact h18 | with_reducible apply State.when_keeps | with_reducible apply State.slDrained_keeps | with_reducible apply State.slFinish_keeps
    | (intro _; skip) | split
    | (dsimp only; skip)
    | (with_reducible refine Keeps.lit rfl rfl ?_; first | with_reducible assumption | exact h1 | exact h6 | exact h17 | exact h18 | with_reducible apply State.when_keeps | with_reducible apply State.slDrained_keeps | with_reducible apply State.slFinish_keeps | (split; skip))

theorem State.writeRun_keeps {ps : Part → Prop} {a1 : SlReq} {a2 : Nat} {a3 : List FrameIn} {s0 s : State} (h1 : ps (.regs 1)) (h6 : ps (.regs 6)) (h17 : ps (.regs 17)) (h_dck : ps .dck) (h_evt : ps .evt) (h_out : ps .out) (h_pci : ps .pci) (h_qqp : ps .qqp) (h_sl : ps .sl) (h : Keeps ps s0 s) : Keeps ps s0 (State.writeRun s a1 a2 a3).1 := by
  induction a3 generalizing s a1 a2 with
  | nil =>
    unfold State.writeRun
    repeat' first
      | (extract_lets +onlyGivenNames x; first | (with_reducible refine Keeps.cut (x := x) ?_ ?_; rotate_left; (try clear_value x); (intro _; skip); rotate_right; subst x) | subst x)
      | with_reducible assumption | exact h1 | exact h6 | exact h17 | with_reducible apply State.slTear_keeps | with_reducible apply State.updFrm_keeps | with_reducible apply State.bump_keeps
      | (intro _; skip) | split
      | (dsimp only; skip)
      | with_reducible refine Keeps.pair (by assumption) ?_
      | (with_reducible refine Keeps.lit rfl rfl ?_; first | with_reducible assumption | exact h1 | exact h6 | exact h17 | with_reducible apply State.slTear_keeps | with_reducible apply State.updFrm_keeps | with_reducible apply State.bump_keeps | with_reducible refine Keeps.pair (by assumption) ?_ | (split; skip))
  | cons x l ih =>
    unfold State.writeRun
    repeat' first
      | (extract_lets +onlyGivenNames x; first | (with_reducible refine Keeps.cut (x := x) ?_ ?_; rotate_left; (try clear_value x); (intro _; skip); rotate_right; subst x) | subst x)
      | with_reducible assumption | exact h1 | exact h6 | exact h17 | with_reducible apply State.slTear_keeps | with_reducible apply State.updFrm_keeps | with_reducible apply State.bump_keeps | with_reducible apply ih
      | (intro _; skip) | split
      | (dsimp only; skip)
      | with_reducible refine Keeps.pair (by assumption) ?_
      | (with_reducible refine Keeps.lit rfl rfl ?_; first | with_reducible assumption | exact h1 | exact h6 | exact h17 | with_reducible apply State.slTear_keeps | with_reducible apply State.updFrm_keeps | with_reducible apply State.bump_keeps | with_reducible apply ih | with_reducible refine Keeps.pair (by assumption) ?_ | (split; skip))

theorem execRunRecord_keeps {ps : Part → Prop} {s : State} {a1 a2 : Nat} {a3 : List FrameIn} {a4 : Option SrcErr} (h1 : ps (.regs 1)) (h6 : ps (.regs 6)) (h17 : ps (.regs 17)) (h18 : ps (.regs 18)) (h_dck : ps .dck) (h_evt : ps .evt) (h_fab : ps .fab) (h_out : ps .out) (h_pci : ps .pci) (h_qqp : ps .qqp) (h_sl : ps .sl) : ∀ r, (execRunRecord a1 a2 a3 a4 s) = .next r → Keeps ps s r := by
  intro r e
  cases e
  have h := Keeps.refl (ps := ps) s
  repeat' first
    | (extract_lets +onlyGivenNames x; first | (with_reducible refine Keeps.cut (x := x) ?_ ?_; rotate_left; (try clear_value x); (intro _; skip); rotate_right; subst x) | subst x)
    | with_reducible assumption | exact h1 | exact h6 | exact h17 | exact h18 | with_reducible apply State.when_keeps | with_reducible apply State.writeRun_keeps | with_reducible apply State.slTear_keeps | with_reducible apply State.slFinish_keeps
    | (intro _; skip) | split
    | (dsimp only; skip)
    | with_reducible refine Keeps.pair (by assumption) ?_
    | (with_reducible refine Keeps.lit rfl rfl ?_; first | with_reducible assumption | exact h1 | exact h6 | exact h17 | exact h18 | with_reducible apply State.when_keeps | with_reducible apply State.writeRun_keeps | with_reducible apply State.slTear_keeps | with_reducible apply State.slFinish_keeps | with_reducible refine Keeps.pair (by assumption) ?_ | (split; skip))

theorem State.cruFill_keeps {ps : Part → Prop} {s0 s : State} (h_cru : ps .cru) (h : Keeps ps s0 s) : Keeps ps s0 (State.cruFill s) := by
  unfold State.cruFill
  repeat' first
    | (extract_lets +onlyGivenNames x; first | (with_reducible refine Keeps.cut (x := x) ?_ ?_; rotate_left; (try clear_value x); (intro _; skip); rotate_right; subst x) | subst x)
    | with_reducible assumption
    | (intro _; skip) | split
    | (dsimp only; skip)
    | (with_reducible refine Keeps.lit rfl rfl ?_; first | with_reducible assumption | (split; skip))

theorem State.spineClear_keeps {ps : Part → Prop} {a1 : Nat} {s0 s : State} (h17 : ps (.regs 17)) (h_evt : ps .evt) (h_fab : ps .fab) (h_out : ps .out) (h_pci : ps .pci) (h : Keeps ps s0 s) : Keeps ps s0 (State.spineClear s a1) := by
  unfold State.spineClear
  repeat' first
    | (extract_lets +onlyGivenNames x; first | (with_reducible refine Keeps.cut (x := x) ?_ ?_; rotate_left; (try clear_value x); (intro _; skip); rotate_right; subst x) | subst x)
    | with_reducible assumption | exact h17 | with_reducible apply State.post_keeps | with_reducible apply Keeps.foldl | with_reducible apply Keeps.foldlFst
    | (intro _; skip) | split
    | (dsimp only; skip)
    | (with_reducible refine Keeps.lit rfl rfl ?_; first | with_reducible assumption | exact h17 | with_reducible apply State.post_keeps | with_reducible apply Keeps.foldl | with_reducible apply Keeps.foldlFst | (split; skip))

theorem State.frameHit_keeps {ps : Part → Prop} {a1 : Nat} {s0 s : State} (h1 : ps (.regs 1)) (h2 : ps (.regs 2)) (h17 : ps (.regs 17)) (h_cru : ps .cru) (h_evt : ps .evt) (h_out : ps .out) (h_pci : ps .pci) (h : Keeps ps s0 s) : Keeps ps s0 (State.frameHit s a1) := by
  unfold State.frameHit
  repeat' first
    | (extract_lets +onlyGivenNames x; first | (with_reducible refine Keeps.cut (x := x) ?_ ?_; rotate_left; (try clear_value x); (intro _; skip); rotate_right; subst x) | subst x)
    | with_reducible assumption | exact h1 | exact h2 | exact h17 | with_reducible apply State.bump_keeps | with_reducible apply State.post_keeps | with_reducible apply State.put_keeps | with_reducible apply Keeps.foldl | with_reducible apply Keeps.foldlFst
    | (intro _; skip) | split
    | (dsimp only; skip)
    | (with_reducible refine Keeps.lit rfl rfl ?_; first | with_reducible assumption | exact h1 | exact h2 | exact h17 | with_reducible apply State.bump_keeps | with_reducible apply State.post_keeps | with_reducible apply State.put_keeps | with_reducible apply Keeps.foldl | with_reducible apply Keeps.foldlFst | (split; skip))

theorem State.cruRead_keeps {ps : Part → Prop} {a1 a2 : Nat} {a3 : Bool} {a4 : Option Nat} {s0 s : State} (h1 : ps (.regs 1)) (h2 : ps (.regs 2)) (h17 : ps (.regs 17)) (h_cru : ps .cru) (h_evt : ps .evt) (h_fab : ps .fab) (h_out : ps .out) (h_pci : ps .pci) (h_sl : ps .sl) (h : Keeps ps s0 s) : Keeps ps s0 (State.cruRead s a1 a2 a3 a4) := by
  unfold State.cruRead
  repeat' first
    | (extract_lets +onlyGivenNames x; first | (with_reducible refine Keeps.cut (x := x) ?_ ?_; rotate_left; (try clear_value x); (intro _; skip); rotate_right; subst x) | subst x)
    | with_reducible assumption | exact h1 | exact h2 | exact h17 | with_reducible apply State.updFrm_keeps | with_reducible apply State.post_keeps | with_reducible apply State.bump_keeps | with_reducible apply State.spineClear_keeps | with_reducible apply State.put_keeps | with_reducible apply State.frameHit_keeps
    | (intro _; skip) | split
    | (dsimp only; skip)
    | (with_reducible refine Keeps.lit rfl rfl ?_; first | with_reducible assumption | exact h1 | exact h2 | exact h17 | with_reducible apply State.updFrm_keeps | with_reducible apply State.post_keeps | with_reducible apply State.bump_keeps | with_reducible apply State.spineClear_keeps | with_reducible apply State.put_keeps | with_reducible apply State.frameHit_keeps | (split; skip))

theorem State.cruReport_keeps {ps : Part → Prop} {a1 a2 : Nat} {a3 : Bool} {a4 : Option Nat} {s0 s : State} (h1 : ps (.regs 1)) (h2 : ps (.regs 2)) (h17 : ps (.regs 17)) (h_cru : ps .cru) (h_evt : ps .evt) (h_fab : ps .fab) (h_out : ps .out) (h_pci : ps .pci) (h_sl : ps .sl) (h : Keeps ps s0 s) : Keeps ps s0 (State.cruReport s a1 a2 a3 a4) := by
  unfold State.cruReport
  repeat' first
    | with_reducible assumption | exact h1 | exact h2 | exact h17 | with_reducible apply State.when_keeps | with_reducible apply State.cruRead_keeps
    | (intro _; skip) | split
    | (dsimp only; skip)

theorem State.cruScan_keeps {ps : Part → Prop} {a1 : Nat} {a2 : Bool} {a3 : Option Nat} {s0 s : State} (h1 : ps (.regs 1)) (h2 : ps (.regs 2)) (h17 : ps (.regs 17)) (h_cru : ps .cru) (h_evt : ps .evt) (h_fab : ps .fab) (h_out : ps .out) (h_pci : ps .pci) (h_sl : ps .sl) (h : Keeps ps s0 s) : Keeps ps s0 (State.cruScan s a1 a2 a3) := by
  unfold State.cruScan
  repeat' first
    | (extract_lets +onlyGivenNames x; first | (with_reducible refine Keeps.cut (x := x) ?_ ?_; rotate_left; (try clear_value x); (intro _; skip); rotate_right; subst x) | subst x)
    | with_reducible assumption | exact h1 | exact h2 | exact h17 | with_reducible apply State.put_keeps | with_reducible apply State.cruRead_keeps | with_reducible apply State.bump_keeps
    | (intro _; skip) | split
    | (dsimp only; skip)
    | (with_reducible refine Keeps.lit rfl rfl ?_; first | with_reducible assumption | exact h1 | exact h2 | exact h17 | with_reducible apply State.put_keeps | with_reducible apply State.cruRead_keeps | with_reducible apply State.bump_keeps | (split; skip))

theorem execCruiserScanStep_keeps {ps : Part → Prop} {s : State} {a1 : Nat} {a2 : Bool} {a3 : Option Nat} (h1 : ps (.regs 1)) (h2 : ps (.regs 2)) (h17 : ps (.regs 17)) (h_cru : ps .cru) (h_evt : ps .evt) (h_fab : ps .fab) (h_out : ps .out) (h_pci : ps .pci) (h_sl : ps .sl) : ∀ r, (execCruiserScanStep a1 a2 a3 s) = .next r → Keeps ps s r := by
  intro r e
  cases e
  have h := Keeps.refl (ps := ps) s
  repeat' first
    | with_reducible assumption | exact h1 | exact h2 | exact h17 | with_reducible apply State.when_keeps | with_reducible apply State.cruReport_keeps | with_reducible apply State.cruFill_keeps | with_reducible apply State.cruScan_keeps | with_reducible apply State.put_keeps
    | (intro _; skip) | split
    | (dsimp only; skip)
    | (with_reducible refine Keeps.lit rfl rfl ?_; first | with_reducible assumption | exact h1 | exact h2 | exact h17 | with_reducible apply State.when_keeps | with_reducible apply State.cruReport_keeps | with_reducible apply State.cruFill_keeps | with_reducible apply State.cruScan_keeps | with_reducible apply State.put_keeps | (split; skip))

theorem State.repairOver_keeps {ps : Part → Prop} {s0 s : State} (h_cru : ps .cru) (h : Keeps ps s0 s) : Keeps ps s0 (State.repairOver s) := by
  unfold State.repairOver
  repeat' first
    | with_reducible assumption
    | (intro _; skip) | split
    | (dsimp only; skip)
    | (with_reducible refine Keeps.lit rfl rfl ?_; first | with_reducible assumption | (split; skip))

theorem State.unrepaired_keeps {ps : Part → Prop} {a1 : Nat} {s0 s : State} (h2 : ps (.regs 2)) (h17 : ps (.regs 17)) (h_evt : ps .evt) (h_out : ps .out) (h_pci : ps .pci) (h : Keeps ps s0 s) : Keeps ps s0 (State.unrepaired s a1) := by
  unfold State.unrepaired
  repeat' first
    | with_reducible assumption | exact h2 | exact h17 | with_reducible apply State.post_keeps | with_reducible apply State.bump_keeps
    | (intro _; skip) | split
    | (dsimp only; skip)

theorem State.repairWrite_keeps {ps : Part → Prop} {a1 a2 : Nat} {a3 : Bool} {a4 : Nat} {s0 s : State} (h_sl : ps .sl) (h : Keeps ps s0 s) : Keeps ps s0 (State.repairWrite s a1 a2 a3 a4) := by
  unfold State.repairWrite
  repeat' first
    | with_reducible assumption | with_reducible apply State.updFrm_keeps
    | (intro _; skip) | split
    | (dsimp only; skip)
    | (with_reducible refine Keeps.lit rfl rfl ?_; first | with_reducible assumption | with_reducible apply State.updFrm_keeps | (split; skip))

theorem State.repaired_keeps {ps : Part → Prop} {a1 : Nat} {a2 : Bool} {s0 s : State} (h2 : ps (.regs 2)) (h17 : ps (.regs 17)) (h_evt : ps .evt) (h_fab : ps .fab) (h_out : ps .out) (h_pci : ps .pci) (h_sl : ps .sl) (h : Keeps ps s0 s) : Keeps ps s0 (State.repaired s a1 a2) := by
  unfold State.repaired
  repeat' first
    | (extract_lets +onlyGivenNames x; first | (with_reducible refine Keeps.cut (x := x) ?_ ?_; rotate_left; (try clear_value x); (intro _; skip); rotate_right; subst x) | subst x)
    | with_reducible assumption | exact h2 | exact h17 | with_reducible apply State.bump_keeps | with_reducible apply State.updFrm_keeps | with_reducible apply State.post_keeps | with_reducible apply State.spineClear_keeps
    | (intro _; skip) | split
    | (dsimp only; skip)
    | (with_reducible refine Keeps.lit rfl rfl ?_; first | with_reducible assumption | exact h2 | exact h17 | with_reducible apply State.bump_keeps | with_reducible apply State.updFrm_keeps | with_reducible apply State.post_keeps | with_reducible apply State.spineClear_keeps | (split; skip))

theorem execCruiserRepairDone_keeps {ps : Part → Prop} {s : State} {a1 : Option Nat} {a2 : Nat} (h2 : ps (.regs 2)) (h17 : ps (.regs 17)) (h_cru : ps .cru) (h_evt : ps .evt) (h_fab : ps .fab) (h_out : ps .out) (h_pci : ps .pci) (h_sl : ps .sl) : ∀ r, (execCruiserRepairDone a1 a2 s) = .next r → Keeps ps s r := by
  intro r e
  cases e
  have h := Keeps.refl (ps := ps) s
  repeat' first
    | (extract_lets +onlyGivenNames x; first | (with_reducible refine Keeps.cut (x := x) ?_ ?_; rotate_left; (try clear_value x); (intro _; skip); rotate_right; subst x) | subst x)
    | with_reducible assumption | exact h2 | exact h17 | with_reducible apply State.when_keeps | with_reducible apply State.repairWrite_keeps | with_reducible apply State.repairOver_keeps | with_reducible apply State.put_keeps | with_reducible apply State.unrepaired_keeps | with_reducible apply State.repaired_keeps
    | (intro _; skip) | split
    | (dsimp only; skip)
    | (with_reducible refine Keeps.lit rfl rfl ?_; first | with_reducible assumption | exact h2 | exact h17 | with_reducible apply State.when_keeps | with_reducible apply State.repairWrite_keeps | with_reducible apply State.repairOver_keeps | with_reducible apply State.put_keeps | with_reducible apply State.unrepaired_keeps | with_reducible apply State.repaired_keeps | (split; skip))

theorem State.cruInject_keeps {ps : Part → Prop} {a1 : Req} {a2 : Nat} {s0 s : State} (h16 : ps (.regs 16)) (h17 : ps (.regs 17)) (h_evt : ps .evt) (h_out : ps .out) (h_pci : ps .pci) (h_sl : ps .sl) (h : Keeps ps s0 s) : Keeps ps s0 (State.cruInject s a1 a2) := by
  unfold State.cruInject
  repeat' first
    | (extract_lets +onlyGivenNames x; first | (with_reducible refine Keeps.cut (x := x) ?_ ?_; rotate_left; (try clear_value x); (intro _; skip); rotate_right; subst x) | subst x)
    | with_reducible assumption | exact h16 | exact h17 | with_reducible apply State.updFrm_keeps | with_reducible apply State.refuseWrite_keeps
    | (intro _; skip) | split
    | (dsimp only; skip)
    | (with_reducible refine Keeps.lit rfl rfl ?_; first | with_reducible assumption | exact h16 | exact h17 | with_reducible apply State.updFrm_keeps | with_reducible apply State.refuseWrite_keeps | (split; skip))

theorem execCruInj_keeps {ps : Part → Prop} {s : State} {a1 : Req} {a2 : Nat} (h16 : ps (.regs 16)) (h17 : ps (.regs 17)) (h_evt : ps .evt) (h_out : ps .out) (h_pci : ps .pci) (h_sl : ps .sl) : ∀ r, (execCruInj a1 a2 s) = .next r → Keeps ps s r := by
  intro r e
  cases e
  have h := Keeps.refl (ps := ps) s
  repeat' first
    | with_reducible assumption | exact h16 | exact h17 | with_reducible apply State.when_keeps | with_reducible apply State.byReq_keeps | with_reducible apply State.cruInject_keeps
    | (intro _; skip) | split
    | (dsimp only; skip)

theorem execSpineContention_keeps {ps : Part → Prop} {s : State} {a1 a2 : Nat} {a3 a4 : Driver} (h17 : ps (.regs 17)) (h18 : ps (.regs 18)) (h_cru : ps .cru) (h_evt : ps .evt) (h_fab : ps .fab) (h_out : ps .out) (h_pci : ps .pci) (h_sl : ps .sl) : ∀ r, (execSpineContention a1 a2 a3 a4 s) = .next r → Keeps ps s r := by
  intro r e
  cases e
  have h := Keeps.refl (ps := ps) s
  repeat' first
    | (extract_lets +onlyGivenNames x; first | (with_reducible refine Keeps.cut (x := x) ?_ ?_; rotate_left; (try clear_value x); (intro _; skip); rotate_right; subst x) | subst x)
    | with_reducible assumption | exact h17 | exact h18 | with_reducible apply State.when_keeps | with_reducible apply State.updFrm_keeps | with_reducible apply State.cruFill_keeps | with_reducible apply State.post_keeps | with_reducible apply State.bump_keeps | with_reducible apply Keeps.foldl | with_reducible apply Keeps.foldlFst
    | (intro _; skip) | split
    | (dsimp only; skip)
    | (with_reducible refine Keeps.lit rfl rfl ?_; first | with_reducible assumption | exact h17 | exact h18 | with_reducible apply State.when_keeps | with_reducible apply State.updFrm_keeps | with_reducible apply State.cruFill_keeps | with_reducible apply State.post_keeps | with_reducible apply State.bump_keeps | with_reducible apply Keeps.foldl | with_reducible apply Keeps.foldlFst | (split; skip))

end Sys2Proof.Machine
end

