-- ==== Sys2Proof/Laws/RegWrite.lean ====
section
/-! SUPPORT. What each operation and each meaning of Machine/RegWrite.lean keeps (Keeps): one lemma a definition. -/

-- The package as one text is checked in one process: its proofs are checked one after another, and its linters keep quiet.
set_option Elab.async false
set_option linter.all false

namespace Sys2Proof.Machine
open Sys2Proof

theorem State.putAll_keeps {ps : Part → Prop} {a1 : RegWr} {s0 s : State} (hall : ∀ p, ps p) (h : Keeps ps s0 s) : Keeps ps s0 (State.putAll s a1) := by
  unfold State.putAll
  repeat' first
    | with_reducible assumption | exact hall _ | (intro _; exact hall _) | with_reducible apply State.put_keeps | with_reducible apply Keeps.foldl | with_reducible apply Keeps.foldlFst
    | (intro _; skip) | split
    | (dsimp only; skip)

theorem State.evtPeek_keeps {ps : Part → Prop} {a1 : Nat} {s0 s : State} (h0 : ps (.regs 0)) (h : Keeps ps s0 s) : Keeps ps s0 (State.evtPeek s a1) := by
  unfold State.evtPeek
  repeat' first
    | (extract_lets +onlyGivenNames x; first | (with_reducible refine Keeps.cut (x := x) ?_ ?_; rotate_left; (try clear_value x); (intro _; skip); rotate_right; subst x) | subst x)
    | with_reducible assumption | exact h0 | with_reducible apply State.put_keeps | with_reducible apply Keeps.foldl | with_reducible apply Keeps.foldlFst
    | (intro _; skip) | split
    | (dsimp only; skip)
    | (with_reducible refine Keeps.lit rfl rfl ?_; first | with_reducible assumption | exact h0 | with_reducible apply State.put_keeps | with_reducible apply Keeps.foldl | with_reducible apply Keeps.foldlFst | (split; skip))

theorem State.wrGlb_keeps {ps : Part → Prop} {a1 : RegWr} {a2 : Fld} {s0 s : State} (hall : ∀ p, ps p) (h : Keeps ps s0 s) : Keeps ps s0 (State.wrGlb s a1 a2) := by
  unfold State.wrGlb
  repeat' first
    | with_reducible assumption | exact hall _ | (intro _; exact hall _) | with_reducible apply State.ratchet_keeps | with_reducible apply State.resultAck_keeps | with_reducible apply State.evtPeek_keeps | with_reducible apply State.putAll_keeps
    | (intro _; skip) | split
    | (dsimp only; skip)
    | (with_reducible refine Keeps.lit rfl rfl ?_; first | with_reducible assumption | exact hall _ | (intro _; exact hall _) | with_reducible apply State.ratchet_keeps | with_reducible apply State.resultAck_keeps | with_reducible apply State.evtPeek_keeps | with_reducible apply State.putAll_keeps | (split; skip))

theorem State.wrCfg_keeps {ps : Part → Prop} {a1 : RegWr} {a2 : Fld} {s0 s : State} (hall : ∀ p, ps p) (h : Keeps ps s0 s) : Keeps ps s0 (State.wrCfg s a1 a2) := by
  unfold State.wrCfg
  repeat' first
    | with_reducible assumption | exact hall _ | (intro _; exact hall _) | with_reducible apply State.reload_keeps | with_reducible apply State.slCmd_keeps | with_reducible apply State.putAll_keeps
    | (intro _; skip) | split
    | (dsimp only; skip)

theorem State.wrCru_keeps {ps : Part → Prop} {a1 : RegWr} {a2 : Fld} {s0 s : State} (hall : ∀ p, ps p) (h : Keeps ps s0 s) : Keeps ps s0 (State.wrCru s a1 a2) := by
  unfold State.wrCru
  repeat' first
    | (extract_lets +onlyGivenNames x; first | (with_reducible refine Keeps.cut (x := x) ?_ ?_; rotate_left; (try clear_value x); (intro _; skip); rotate_right; subst x) | subst x)
    | with_reducible assumption | exact hall _ | (intro _; exact hall _) | with_reducible apply State.cruInject_keeps | with_reducible apply State.putAll_keeps | with_reducible apply State.put_keeps
    | (intro _; skip) | split
    | (dsimp only; skip)

theorem State.wrClk_keeps {ps : Part → Prop} {a1 : RegWr} {a2 : Fld} {a3 : Nat} {s0 s : State} (hall : ∀ p, ps p) (h : Keeps ps s0 s) : Keeps ps s0 (State.wrClk s a1 a2 a3) := by
  unfold State.wrClk
  repeat' first
    | (extract_lets +onlyGivenNames x; first | (with_reducible refine Keeps.cut (x := x) ?_ ?_; rotate_left; (try clear_value x); (intro _; skip); rotate_right; subst x) | subst x)
    | with_reducible assumption | exact hall _ | (intro _; exact hall _) | with_reducible apply State.putAll_keeps | with_reducible apply State.refSwitch_keeps | with_reducible apply State.deliverDoorbells_keeps | with_reducible apply State.gateFollow_keeps
    | (intro _; skip) | split
    | (dsimp only; skip)

theorem State.wrPwr_keeps {ps : Part → Prop} {a1 : RegWr} {a2 : Fld} {a3 : Nat} {s0 s : State} (hall : ∀ p, ps p) (h : Keeps ps s0 s) : Keeps ps s0 (State.wrPwr s a1 a2 a3) := by
  unfold State.wrPwr
  repeat' first
    | (extract_lets +onlyGivenNames x; first | (with_reducible refine Keeps.cut (x := x) ?_ ?_; rotate_left; (try clear_value x); (intro _; skip); rotate_right; subst x) | subst x)
    | with_reducible assumption | exact hall _ | (intro _; exact hall _) | with_reducible apply State.stateCmd_keeps | with_reducible apply State.polCmd_keeps | with_reducible apply State.postFrom_keeps | with_reducible apply State.putAll_keeps
    | (intro _; skip) | split
    | (dsimp only; skip)

theorem State.wrNoc_keeps {ps : Part → Prop} {a1 : RegWr} {a2 : Fld} {s0 s : State} (hall : ∀ p, ps p) (h : Keeps ps s0 s) : Keeps ps s0 (State.wrNoc s a1 a2) := by
  unfold State.wrNoc
  repeat' first
    | (extract_lets +onlyGivenNames x; first | (with_reducible refine Keeps.cut (x := x) ?_ ?_; rotate_left; (try clear_value x); (intro _; skip); rotate_right; subst x) | subst x)
    | with_reducible assumption | exact hall _ | (intro _; exact hall _) | with_reducible apply State.rtrClose_keeps | with_reducible apply State.portClose_keeps | with_reducible apply State.portOpen_keeps | with_reducible apply State.updRte_keeps | with_reducible apply State.putAll_keeps | with_reducible apply State.isoEnd_keeps | with_reducible apply Keeps.foldl | with_reducible apply Keeps.foldlFst
    | (intro _; skip) | split
    | (dsimp only; skip)
    | (with_reducible refine Keeps.lit rfl rfl ?_; first | with_reducible assumption | exact hall _ | (intro _; exact hall _) | with_reducible apply State.rtrClose_keeps | with_reducible apply State.portClose_keeps | with_reducible apply State.portOpen_keeps | with_reducible apply State.updRte_keeps | with_reducible apply State.putAll_keeps | with_reducible apply State.isoEnd_keeps | with_reducible apply Keeps.foldl | with_reducible apply Keeps.foldlFst | (split; skip))

theorem State.wrTly_keeps {ps : Part → Prop} {a1 : RegWr} {a2 : Fld} {s0 s : State} (hall : ∀ p, ps p) (h : Keeps ps s0 s) : Keeps ps s0 (State.wrTly s a1 a2) := by
  have h_tly := hall .tly
  have h_tly := hall .tly
  unfold State.wrTly
  repeat' first
    | (extract_lets +onlyGivenNames x; first | (with_reducible refine Keeps.cut (x := x) ?_ ?_; rotate_left; (try clear_value x); (intro _; skip); rotate_right; subst x) | subst x)
    | with_reducible assumption | exact hall _ | (intro _; exact hall _) | with_reducible apply State.ckptGo_keeps | with_reducible apply State.ckptCheck_keeps | with_reducible apply State.putAll_keeps
    | (intro _; skip) | split
    | (dsimp only; skip)
    | (with_reducible refine Keeps.lit rfl rfl ?_; first | with_reducible assumption | exact hall _ | (intro _; exact hall _) | with_reducible apply State.ckptGo_keeps | with_reducible apply State.ckptCheck_keeps | with_reducible apply State.putAll_keeps | (split; skip))

theorem State.ucCut_keeps {ps : Part → Prop} {a1 : Nat} {s0 s : State} (h9 : ps (.regs 9)) (h_med : ps .med) (h : Keeps ps s0 s) : Keeps ps s0 (State.ucCut s a1) := by
  unfold State.ucCut
  repeat' first
    | (extract_lets +onlyGivenNames x; first | (with_reducible refine Keeps.cut (x := x) ?_ ?_; rotate_left; (try clear_value x); (intro _; skip); rotate_right; subst x) | subst x)
    | with_reducible assumption | exact h9 | with_reducible apply State.cancelUndercuts_keeps
    | (intro _; skip) | split
    | (dsimp only; skip)
    | (with_reducible refine Keeps.lit rfl rfl ?_; first | with_reducible assumption | exact h9 | with_reducible apply State.cancelUndercuts_keeps | (split; skip))

theorem State.wrMed_keeps {ps : Part → Prop} {a1 : RegWr} {a2 : Fld} {a3 a4 : Nat} {s0 s : State} (hall : ∀ p, ps p) (h : Keeps ps s0 s) : Keeps ps s0 (State.wrMed s a1 a2 a3 a4) := by
  have h_med := hall .med
  have h_med := hall .med
  unfold State.wrMed
  repeat' first
    | (extract_lets +onlyGivenNames x; first | (with_reducible refine Keeps.cut (x := x) ?_ ?_; rotate_left; (try clear_value x); (intro _; skip); rotate_right; subst x) | subst x)
    | with_reducible assumption | exact hall _ | (intro _; exact hall _) | with_reducible apply State.claimOp_keeps | with_reducible apply State.releaseOp_keeps | with_reducible apply State.hoursWrite_keeps | with_reducible apply State.putAll_keeps | with_reducible apply State.updChan_keeps | with_reducible apply State.lunResume_keeps | with_reducible apply State.ucCut_keeps | with_reducible apply State.updGrp_keeps | with_reducible apply Keeps.foldl | with_reducible apply Keeps.foldlFst
    | (intro _; skip) | split
    | (dsimp only; skip)
    | (with_reducible refine Keeps.lit rfl rfl ?_; first | with_reducible assumption | exact hall _ | (intro _; exact hall _) | with_reducible apply State.claimOp_keeps | with_reducible apply State.releaseOp_keeps | with_reducible apply State.hoursWrite_keeps | with_reducible apply State.putAll_keeps | with_reducible apply State.updChan_keeps | with_reducible apply State.lunResume_keeps | with_reducible apply State.ucCut_keeps | with_reducible apply State.updGrp_keeps | with_reducible apply Keeps.foldl | with_reducible apply Keeps.foldlFst | (split; skip))

theorem State.wrLve_keeps {ps : Part → Prop} {a1 : RegWr} {a2 : Fld} {a3 : Nat} {s0 s : State} (hall : ∀ p, ps p) (h : Keeps ps s0 s) : Keeps ps s0 (State.wrLve s a1 a2 a3) := by
  unfold State.wrLve
  repeat' first
    | (extract_lets +onlyGivenNames x; first | (with_reducible refine Keeps.cut (x := x) ?_ ?_; rotate_left; (try clear_value x); (intro _; skip); rotate_right; subst x) | subst x)
    | with_reducible assumption | exact hall _ | (intro _; exact hall _) | with_reducible apply State.put_keeps | with_reducible apply State.bundleFall_keeps | with_reducible apply State.bundleEn_keeps | with_reducible apply State.handbackGo_keeps | with_reducible apply State.putAll_keeps | with_reducible apply State.bundleRetrain_keeps | with_reducible apply Keeps.foldl | with_reducible apply Keeps.foldlFst
    | (intro _; skip) | split
    | (dsimp only; skip)

theorem State.wrCry_keeps {ps : Part → Prop} {a1 : RegWr} {a2 : Fld} {a3 : Nat} {s0 s : State} (hall : ∀ p, ps p) (h : Keeps ps s0 s) : Keeps ps s0 (State.wrCry s a1 a2 a3) := by
  unfold State.wrCry
  repeat' first
    | (extract_lets +onlyGivenNames x; first | (with_reducible refine Keeps.cut (x := x) ?_ ?_; rotate_left; (try clear_value x); (intro _; skip); rotate_right; subst x) | subst x)
    | with_reducible assumption | exact hall _ | (intro _; exact hall _) | with_reducible apply State.rekeyGo_keeps | with_reducible apply State.resealGo_keeps | with_reducible apply State.keyCmdImport_keeps | with_reducible apply State.drawn_keeps | with_reducible apply State.keyCmdRetire_keeps | with_reducible apply State.putAll_keeps
    | (intro _; skip) | split
    | (dsimp only; skip)

theorem State.wrSds_keeps {ps : Part → Prop} {a1 : RegWr} {a2 : Fld} {a3 : Nat} {s0 s : State} (hall : ∀ p, ps p) (h : Keeps ps s0 s) : Keeps ps s0 (State.wrSds s a1 a2 a3) := by
  unfold State.wrSds
  repeat' first
    | (extract_lets +onlyGivenNames x; first | (with_reducible refine Keeps.cut (x := x) ?_ ?_; rotate_left; (try clear_value x); (intro _; skip); rotate_right; subst x) | subst x)
    | with_reducible assumption | exact hall _ | (intro _; exact hall _) | with_reducible apply State.putAll_keeps | with_reducible apply State.put_keeps | with_reducible apply State.laneOn_keeps | with_reducible apply State.laneOff_keeps | with_reducible apply State.laneSignal_keeps | with_reducible apply State.prbsFlip_keeps
    | (intro _; skip) | split
    | (dsimp only; skip)

theorem State.wrPci_keeps {ps : Part → Prop} {a1 : RegWr} {a2 : Fld} {s0 s : State} (hall : ∀ p, ps p) (h : Keeps ps s0 s) : Keeps ps s0 (State.wrPci s a1 a2) := by
  unfold State.wrPci
  repeat' first
    | with_reducible assumption | exact hall _ | (intro _; exact hall _) | with_reducible apply State.pciCtl_keeps | with_reducible apply State.putAll_keeps
    | (intro _; skip) | split
    | (dsimp only; skip)

theorem State.wrEvt_keeps {ps : Part → Prop} {a1 : RegWr} {a2 : Fld} {s0 s : State} (hall : ∀ p, ps p) (h : Keeps ps s0 s) : Keeps ps s0 (State.wrEvt s a1 a2) := by
  unfold State.wrEvt
  repeat' first
    | (extract_lets +onlyGivenNames x; first | (with_reducible refine Keeps.cut (x := x) ?_ ?_; rotate_left; (try clear_value x); (intro _; skip); rotate_right; subst x) | subst x)
    | with_reducible assumption | exact hall _ | (intro _; exact hall _) | with_reducible apply State.evtAck_keeps | with_reducible apply State.evtTagSel_keeps | with_reducible apply State.putAll_keeps | with_reducible apply State.evtSignal_keeps
    | (intro _; skip) | split
    | (dsimp only; skip)

theorem State.wrLdg_keeps {ps : Part → Prop} {a1 : RegWr} {a2 : Fld} {a3 : Nat} {s0 s : State} (hall : ∀ p, ps p) (h : Keeps ps s0 s) : Keeps ps s0 (State.wrLdg s a1 a2 a3) := by
  unfold State.wrLdg
  repeat' first
    | (extract_lets +onlyGivenNames x; first | (with_reducible refine Keeps.cut (x := x) ?_ ?_; rotate_left; (try clear_value x); (intro _; skip); rotate_right; subst x) | subst x)
    | with_reducible assumption | exact hall _ | (intro _; exact hall _) | with_reducible apply State.rbResume_keeps | with_reducible apply State.rbGo_keeps | with_reducible apply State.putAll_keeps | with_reducible apply State.landingOff_keeps
    | (intro _; skip) | split
    | (dsimp only; skip)

theorem State.aqSize_keeps {ps : Part → Prop} {a1 : Nat} {s0 s : State} (h_qqp : ps .qqp) (h : Keeps ps s0 s) : Keeps ps s0 (State.aqSize s a1) := by
  unfold State.aqSize
  repeat' first
    | (extract_lets +onlyGivenNames x; first | (with_reducible refine Keeps.cut (x := x) ?_ ?_; rotate_left; (try clear_value x); (intro _; skip); rotate_right; subst x) | subst x)
    | with_reducible assumption | with_reducible apply State.updQp_keeps
    | (intro _; skip) | split
    | (dsimp only; skip)
    | (with_reducible refine Keeps.lit rfl rfl ?_; first | with_reducible assumption | with_reducible apply State.updQp_keeps | (split; skip))

theorem State.wrQqp_keeps {ps : Part → Prop} {a1 : RegWr} {a2 : Fld} {a3 : Nat} {s0 s : State} (hall : ∀ p, ps p) (h : Keeps ps s0 s) : Keeps ps s0 (State.wrQqp s a1 a2 a3) := by
  unfold State.wrQqp
  repeat' first
    | with_reducible assumption | exact hall _ | (intro _; exact hall _) | with_reducible apply State.queueOn_keeps | with_reducible apply State.dropQueues_keeps | with_reducible apply State.aqSize_keeps | with_reducible apply State.putAll_keeps | with_reducible apply State.mbxGo_keeps
    | (intro _; skip) | split
    | (dsimp only; skip)

theorem State.wrInj_keeps {ps : Part → Prop} {a1 : RegWr} {a2 : Fld} {a3 : Nat} {s0 s : State} (hall : ∀ p, ps p) (h : Keeps ps s0 s) : Keeps ps s0 (State.wrInj s a1 a2 a3) := by
  have h_gens := hall .gens
  have h_gens := hall .gens
  unfold State.wrInj
  repeat' first
    | (extract_lets +onlyGivenNames x; first | (with_reducible refine Keeps.cut (x := x) ?_ ?_; rotate_left; (try clear_value x); (intro _; skip); rotate_right; subst x) | subst x)
    | with_reducible assumption | exact hall _ | (intro _; exact hall _) | with_reducible apply State.putAll_keeps
    | (intro _; skip) | split
    | (dsimp only; skip)
    | (with_reducible refine Keeps.lit rfl rfl ?_; first | with_reducible assumption | exact hall _ | (intro _; exact hall _) | with_reducible apply State.putAll_keeps | (split; skip))

theorem State.regEffect_keeps {ps : Part → Prop} {a1 : RegWr} {a2 : Fld} {a3 a4 : Nat} {s0 s : State} (hall : ∀ p, ps p) (h : Keeps ps s0 s) : Keeps ps s0 (State.regEffect s a1 a2 a3 a4) := by
  unfold State.regEffect
  repeat' first
    | with_reducible assumption | exact hall _ | (intro _; exact hall _) | with_reducible apply State.wrGlb_keeps | with_reducible apply State.wrCfg_keeps | with_reducible apply State.wrCru_keeps | with_reducible apply State.wrClk_keeps | with_reducible apply State.wrPwr_keeps | with_reducible apply State.wrNoc_keeps | with_reducible apply State.wrTly_keeps | with_reducible apply State.wrMed_keeps | with_reducible apply State.wrLve_keeps | with_reducible apply State.wrCry_keeps | with_reducible apply State.wrSds_keeps | with_reducible apply State.wrPci_keeps | with_reducible apply State.wrEvt_keeps | with_reducible apply State.wrLdg_keeps | with_reducible apply State.wrQqp_keeps | with_reducible apply State.wrInj_keeps | with_reducible apply State.putAll_keeps
    | (intro _; skip) | split
    | (dsimp only; skip)
    | (with_reducible refine Keeps.lit rfl rfl ?_; first | with_reducible assumption | exact hall _ | (intro _; exact hall _) | with_reducible apply State.wrGlb_keeps | with_reducible apply State.wrCfg_keeps | with_reducible apply State.wrCru_keeps | with_reducible apply State.wrClk_keeps | with_reducible apply State.wrPwr_keeps | with_reducible apply State.wrNoc_keeps | with_reducible apply State.wrTly_keeps | with_reducible apply State.wrMed_keeps | with_reducible apply State.wrLve_keeps | with_reducible apply State.wrCry_keeps | with_reducible apply State.wrSds_keeps | with_reducible apply State.wrPci_keeps | with_reducible apply State.wrEvt_keeps | with_reducible apply State.wrLdg_keeps | with_reducible apply State.wrQqp_keeps | with_reducible apply State.wrInj_keeps | with_reducible apply State.putAll_keeps | (split; skip))

theorem State.pairEffect_keeps {ps : Part → Prop} {a1 a2 a3 : Nat} {s0 s : State} (hall : ∀ p, ps p) (h : Keeps ps s0 s) : Keeps ps s0 (State.pairEffect s a1 a2 a3) := by
  unfold State.pairEffect
  repeat' first
    | (extract_lets +onlyGivenNames x; first | (with_reducible refine Keeps.cut (x := x) ?_ ?_; rotate_left; (try clear_value x); (intro _; skip); rotate_right; subst x) | subst x)
    | with_reducible assumption | exact hall _ | (intro _; exact hall _) | with_reducible apply State.updRte_keeps | with_reducible apply State.put_keeps | with_reducible apply State.probe_keeps | with_reducible apply Keeps.foldl | with_reducible apply Keeps.foldlFst
    | (intro _; skip) | split
    | (dsimp only; skip)
    | (with_reducible refine Keeps.lit rfl rfl ?_; first | with_reducible assumption | exact hall _ | (intro _; exact hall _) | with_reducible apply State.updRte_keeps | with_reducible apply State.put_keeps | with_reducible apply State.probe_keeps | with_reducible apply Keeps.foldl | with_reducible apply Keeps.foldlFst | (split; skip))

theorem State.commitPair_keeps {ps : Part → Prop} {a1 : Req} {a2 a3 : Nat} {s0 s : State} (hall : ∀ p, ps p) (h : Keeps ps s0 s) : Keeps ps s0 (State.commitPair s a1 a2 a3) := by
  have h_stage := hall .stage
  have h_stage := hall .stage
  unfold State.commitPair
  repeat' first
    | (extract_lets +onlyGivenNames x; first | (with_reducible refine Keeps.cut (x := x) ?_ ?_; rotate_left; (try clear_value x); (intro _; skip); rotate_right; subst x) | subst x)
    | with_reducible assumption | exact hall _ | (intro _; exact hall _) | with_reducible apply State.pairEffect_keeps
    | (intro _; skip) | split
    | (dsimp only; skip)
    | (with_reducible refine Keeps.lit rfl rfl ?_; first | with_reducible assumption | exact hall _ | (intro _; exact hall _) | with_reducible apply State.pairEffect_keeps | (split; skip))

theorem State.regApply_keeps {ps : Part → Prop} {a1 : RegWr} {s0 s : State} (hall : ∀ p, ps p) (h : Keeps ps s0 s) : Keeps ps s0 (State.regApply s a1) := by
  unfold State.regApply
  repeat' first
    | with_reducible assumption | exact hall _ | (intro _; exact hall _) | with_reducible apply State.refuseWrite_keeps | with_reducible apply State.regEffect_keeps
    | (intro _; skip) | split
    | (dsimp only; skip)
    | (with_reducible refine Keeps.lit rfl rfl ?_; first | with_reducible assumption | exact hall _ | (intro _; exact hall _) | with_reducible apply State.refuseWrite_keeps | with_reducible apply State.regEffect_keeps | (split; skip))

theorem State.regWrite_keeps {ps : Part → Prop} {a1 : Req} {a2 a3 : Nat} {s0 s : State} (hall : ∀ p, ps p) (h : Keeps ps s0 s) : Keeps ps s0 (State.regWrite s a1 a2 a3) := by
  have h_stage := hall .stage
  have h_stage := hall .stage
  unfold State.regWrite
  repeat' first
    | (extract_lets +onlyGivenNames x; first | (with_reducible refine Keeps.cut (x := x) ?_ ?_; rotate_left; (try clear_value x); (intro _; skip); rotate_right; subst x) | subst x)
    | with_reducible assumption | exact hall _ | (intro _; exact hall _) | with_reducible apply State.commitPair_keeps | with_reducible apply State.regApply_keeps
    | (intro _; skip) | split
    | (dsimp only; skip)
    | (with_reducible refine Keeps.lit rfl rfl ?_; first | with_reducible assumption | exact hall _ | (intro _; exact hall _) | with_reducible apply State.commitPair_keeps | with_reducible apply State.regApply_keeps | (split; skip))

theorem State.aliasWrite_keeps {ps : Part → Prop} {a1 : Req} {a2 a3 a4 : Nat} {s0 s : State} (hall : ∀ p, ps p) (h : Keeps ps s0 s) : Keeps ps s0 (State.aliasWrite s a1 a2 a3 a4) := by
  unfold State.aliasWrite
  repeat' first
    | (extract_lets +onlyGivenNames x; first | (with_reducible refine Keeps.cut (x := x) ?_ ?_; rotate_left; (try clear_value x); (intro _; skip); rotate_right; subst x) | subst x)
    | with_reducible assumption | exact hall _ | (intro _; exact hall _) | with_reducible apply State.refuseWrite_keeps | with_reducible apply State.regApply_keeps | with_reducible apply Keeps.foldl | with_reducible apply Keeps.foldlFst
    | (intro _; skip) | split
    | (dsimp only; skip)
    | (with_reducible refine Keeps.lit rfl rfl ?_; first | with_reducible assumption | exact hall _ | (intro _; exact hall _) | with_reducible apply State.refuseWrite_keeps | with_reducible apply State.regApply_keeps | with_reducible apply Keeps.foldl | with_reducible apply Keeps.foldlFst | (split; skip))

end Sys2Proof.Machine
end

