-- ==== Sys2Proof/Laws/Access.lean ====
section
/-! SUPPORT. What each operation and each meaning of Machine/Access.lean keeps (Keeps): one lemma a definition. -/

-- The package as one text is checked in one process: its proofs are checked one after another, and its linters keep quiet.
set_option Elab.async false
set_option linter.all false

namespace Sys2Proof.Machine
open Sys2Proof

theorem State.ctrlWrite_keeps {ps : Part → Prop} {a1 : Req} {a2 a3 : Nat} {s0 s : State} (hall : ∀ p, ps p) (h : Keeps ps s0 s) : Keeps ps s0 (State.ctrlWrite s a1 a2 a3) := by
  unfold State.ctrlWrite
  repeat' first
    | with_reducible assumption | exact hall _ | (intro _; exact hall _) | with_reducible apply State.regWrite_keeps | with_reducible apply State.aliasWrite_keeps
    | (intro _; skip) | split
    | (dsimp only; skip)

theorem State.ctrlRead_keeps {ps : Part → Prop} {a1 : Req} {a2 : Nat} {s0 s : State} (h_shadow : ps .shadow) (h : Keeps ps s0 s) : Keeps ps s0 (State.ctrlRead s a1 a2).1 := by
  unfold State.ctrlRead
  repeat' first
    | with_reducible assumption | with_reducible apply State.readWord_keeps
    | (intro _; skip) | split
    | (dsimp only; skip)
    | with_reducible refine Keeps.pair (by assumption) ?_

theorem State.unmapped_keeps {ps : Part → Prop} {a1 : Req} {a2 : Nat} {s0 s : State} (h17 : ps (.regs 17)) (h_evt : ps .evt) (h_out : ps .out) (h_pci : ps .pci) (h : Keeps ps s0 s) : Keeps ps s0 (State.unmapped s a1 a2) := by
  unfold State.unmapped
  repeat' first
    | with_reducible assumption | exact h17 | with_reducible apply State.post_keeps
    | (intro _; skip) | split
    | (dsimp only; skip)
    | (with_reducible refine Keeps.lit rfl rfl ?_; first | with_reducible assumption | exact h17 | with_reducible apply State.post_keeps | (split; skip))

theorem State.reqWrite_keeps {ps : Part → Prop} {a1 : Req} {a2 a3 : Nat} {s0 s : State} (hall : ∀ p, ps p) (h : Keeps ps s0 s) : Keeps ps s0 (State.reqWrite s a1 a2 a3) := by
  unfold State.reqWrite
  repeat' first
    | (extract_lets +onlyGivenNames x; first | (with_reducible refine Keeps.cut (x := x) ?_ ?_; rotate_left; (try clear_value x); (intro _; skip); rotate_right; subst x) | subst x)
    | with_reducible assumption | exact hall _ | (intro _; exact hall _) | with_reducible apply State.unmapped_keeps | with_reducible apply State.writeGate_keeps | with_reducible apply State.ctrlWrite_keeps
    | (intro _; skip) | split
    | (dsimp only; skip)

theorem State.reqRead_keeps {ps : Part → Prop} {a1 : Req} {a2 : Nat} {s0 s : State} (h17 : ps (.regs 17)) (h_evt : ps .evt) (h_out : ps .out) (h_pci : ps .pci) (h_shadow : ps .shadow) (h : Keeps ps s0 s) : Keeps ps s0 (State.reqRead s a1 a2).1 := by
  unfold State.reqRead
  repeat' first
    | (extract_lets +onlyGivenNames x; first | (with_reducible refine Keeps.cut (x := x) ?_ ?_; rotate_left; (try clear_value x); (intro _; skip); rotate_right; subst x) | subst x)
    | with_reducible assumption | exact h17 | with_reducible apply State.unmapped_keeps | with_reducible apply State.post_keeps | with_reducible apply State.ctrlRead_keeps
    | (intro _; skip) | split
    | (dsimp only; skip)
    | with_reducible refine Keeps.pair (by assumption) ?_
    | (with_reducible refine Keeps.lit rfl rfl ?_; first | with_reducible assumption | exact h17 | with_reducible apply State.unmapped_keeps | with_reducible apply State.post_keeps | with_reducible apply State.ctrlRead_keeps | with_reducible refine Keeps.pair (by assumption) ?_ | (split; skip))

theorem execRegisterWrite_keeps {ps : Part → Prop} {s : State} {a1 : Req} {a2 a3 : Nat} (hall : ∀ p, ps p) : ∀ r, (execRegisterWrite a1 a2 a3 s) = .next r → Keeps ps s r := by
  intro r e
  cases e
  have h := Keeps.refl (ps := ps) s
  repeat' first
    | with_reducible assumption | exact hall _ | (intro _; exact hall _) | with_reducible apply State.when_keeps | with_reducible apply State.reqWrite_keeps
    | (intro _; skip) | split
    | (dsimp only; skip)

theorem execBitAliasWrite_keeps {ps : Part → Prop} {s : State} {a1 : Req} {a2 a3 a4 a5 : Nat} (hall : ∀ p, ps p) : ∀ r, (execBitAliasWrite a1 a2 a3 a4 a5 s) = .next r → Keeps ps s r := by
  intro r e
  cases e
  have h := Keeps.refl (ps := ps) s
  repeat' first
    | with_reducible assumption | exact hall _ | (intro _; exact hall _) | with_reducible apply State.when_keeps | with_reducible apply State.reqWrite_keeps
    | (intro _; skip) | split
    | (dsimp only; skip)

theorem execPairLoRead_keeps {ps : Part → Prop} {s : State} {a1 : Req} {a2 : Nat} (h17 : ps (.regs 17)) (h_evt : ps .evt) (h_out : ps .out) (h_pci : ps .pci) (h_shadow : ps .shadow) : ∀ r, (execPairLoRead a1 a2 s) = .next r → Keeps ps s r := by
  intro r e
  cases e
  have h := Keeps.refl (ps := ps) s
  repeat' first
    | with_reducible assumption | exact h17 | with_reducible apply State.when_keeps | with_reducible apply State.reqRead_keeps
    | (intro _; skip) | split
    | (dsimp only; skip)
    | with_reducible refine Keeps.pair (by assumption) ?_

theorem execEvtPeek_keeps {ps : Part → Prop} {s : State} {a1 : Req} {a2 : Nat} (h0 : ps (.regs 0)) (h17 : ps (.regs 17)) (h_evt : ps .evt) (h_out : ps .out) (h_pci : ps .pci) : ∀ r, (execEvtPeek a1 a2 s) = .next r → Keeps ps s r := by
  intro r e
  cases e
  have h := Keeps.refl (ps := ps) s
  repeat' first
    | with_reducible assumption | exact h0 | exact h17 | with_reducible apply State.when_keeps | with_reducible apply State.byReq_keeps | with_reducible apply State.evtPeek_keeps
    | (intro _; skip) | split
    | (dsimp only; skip)

theorem State.vecWrite_keeps {ps : Part → Prop} {a1 a2 a3 : Nat} {s0 s : State} (h_out : ps .out) (h_pci : ps .pci) (h : Keeps ps s0 s) : Keeps ps s0 (State.vecWrite s a1 a2 a3) := by
  unfold State.vecWrite
  repeat' first
    | (extract_lets +onlyGivenNames x; first | (with_reducible refine Keeps.cut (x := x) ?_ ?_; rotate_left; (try clear_value x); (intro _; skip); rotate_right; subst x) | subst x)
    | with_reducible assumption | with_reducible apply State.msixRelease_keeps
    | (intro _; skip) | split
    | (dsimp only; skip)
    | (with_reducible refine Keeps.lit rfl rfl ?_; first | with_reducible assumption | with_reducible apply State.msixRelease_keeps | (split; skip))

theorem State.bar0_keeps {ps : Part → Prop} {a1 a2 : Nat} {a3 : Bool} {a4 a5 : Nat} {s0 s : State} (hall : ∀ p, ps p) (h : Keeps ps s0 s) : Keeps ps s0 (State.bar0 s a1 a2 a3 a4 a5).1 := by
  unfold State.bar0
  repeat' first
    | (extract_lets +onlyGivenNames x; first | (with_reducible refine Keeps.cut (x := x) ?_ ?_; rotate_left; (try clear_value x); (intro _; skip); rotate_right; subst x) | subst x)
    | with_reducible assumption | exact hall _ | (intro _; exact hall _) | with_reducible apply State.post_keeps | with_reducible apply State.vecWrite_keeps | with_reducible apply State.reqWrite_keeps | with_reducible apply State.reqRead_keeps
    | (intro _; skip) | split
    | (dsimp only; skip)
    | with_reducible refine Keeps.pair (by assumption) ?_

theorem State.bar0All_keeps {ps : Part → Prop} {a1 : Nat} {a2 : Bool} {a3 : Nat} {a4 : List (Nat × Nat)} {s0 s : State} (hall : ∀ p, ps p) (h : Keeps ps s0 s) : Keeps ps s0 (State.bar0All s a1 a2 a3 a4).1 := by
  induction a4 generalizing s a1 a2 a3 with
  | nil =>
    unfold State.bar0All
    repeat' first
      | (extract_lets +onlyGivenNames x; first | (with_reducible refine Keeps.cut (x := x) ?_ ?_; rotate_left; (try clear_value x); (intro _; skip); rotate_right; subst x) | subst x)
      | with_reducible assumption | exact hall _ | (intro _; exact hall _) | with_reducible apply State.bar0_keeps
      | (intro _; skip) | split
      | (dsimp only; skip)
      | with_reducible refine Keeps.pair (by assumption) ?_
  | cons x l ih =>
    unfold State.bar0All
    repeat' first
      | (extract_lets +onlyGivenNames x; first | (with_reducible refine Keeps.cut (x := x) ?_ ?_; rotate_left; (try clear_value x); (intro _; skip); rotate_right; subst x) | subst x)
      | with_reducible assumption | exact hall _ | (intro _; exact hall _) | with_reducible apply State.bar0_keeps | with_reducible apply ih
      | (intro _; skip) | split
      | (dsimp only; skip)
      | with_reducible refine Keeps.pair (by assumption) ?_

theorem State.bar2_keeps {ps : Part → Prop} {a1 a2 a3 : Nat} {s0 s : State} (h17 : ps (.regs 17)) (h19 : ps (.regs 19)) (h_evt : ps .evt) (h_out : ps .out) (h_pci : ps .pci) (h_pwr : ps .pwr) (h_qqp : ps .qqp) (h : Keeps ps s0 s) : Keeps ps s0 (State.bar2 s a1 a2 a3) := by
  unfold State.bar2
  repeat' first
    | (extract_lets +onlyGivenNames x; first | (with_reducible refine Keeps.cut (x := x) ?_ ?_; rotate_left; (try clear_value x); (intro _; skip); rotate_right; subst x) | subst x)
    | with_reducible assumption | exact h17 | exact h19 | with_reducible apply State.holdDoorbell_keeps | with_reducible apply State.cqDoorbell_keeps | with_reducible apply State.sqDoorbell_keeps
    | (intro _; skip) | split
    | (dsimp only; skip)

theorem State.bar4Run_keeps {ps : Part → Prop} {a1 : Nat} {a2 : Bool} {a3 : Nat × List Nat} {s0 s : State} (h5 : ps (.regs 5)) (h6 : ps (.regs 6)) (h16 : ps (.regs 16)) (h17 : ps (.regs 17)) (h20 : ps (.regs 20)) (h_dck : ps .dck) (h_evt : ps .evt) (h_fab : ps .fab) (h_fresh : ps .fresh) (h_gens : ps .gens) (h_med : ps .med) (h_noc : ps .noc) (h_out : ps .out) (h_pci : ps .pci) (h_qqp : ps .qqp) (h_tly : ps .tly) (h : Keeps ps s0 s) : Keeps ps s0 (State.bar4Run s a1 a2 a3) := by
  unfold State.bar4Run
  repeat' first
    | (extract_lets +onlyGivenNames x; first | (with_reducible refine Keeps.cut (x := x) ?_ ?_; rotate_left; (try clear_value x); (intro _; skip); rotate_right; subst x) | subst x)
    | with_reducible assumption | exact h5 | exact h6 | exact h16 | exact h17 | exact h20 | with_reducible apply State.post_keeps | with_reducible apply State.skSend_keeps | with_reducible apply State.drawn_keeps
    | (intro _; skip) | split
    | (dsimp only; skip)
    | (with_reducible refine Keeps.lit rfl rfl ?_; first | with_reducible assumption | exact h5 | exact h6 | exact h16 | exact h17 | exact h20 | with_reducible apply State.post_keeps | with_reducible apply State.skSend_keeps | with_reducible apply State.drawn_keeps | (split; skip))

theorem execHostBarAccess_keeps {ps : Part → Prop} {s : State} {a1 a2 a3 : Nat} {a4 : Bool} {a5 : List (Nat × Nat)} (hall : ∀ p, ps p) : ∀ r, (execHostBarAccess a1 a2 a3 a4 a5 s) = .next r → Keeps ps s r := by
  intro r e
  cases e
  have h := Keeps.refl (ps := ps) s
  have h_out := hall .out
  repeat' first
    | (extract_lets +onlyGivenNames x; first | (with_reducible refine Keeps.cut (x := x) ?_ ?_; rotate_left; (try clear_value x); (intro _; skip); rotate_right; subst x) | subst x)
    | with_reducible assumption | exact hall _ | (intro _; exact hall _) | with_reducible apply State.when_keeps | with_reducible apply State.bump_keeps | with_reducible apply State.urSent_keeps | with_reducible apply State.bar0All_keeps | with_reducible apply State.bar2_keeps | with_reducible apply State.bar4Run_keeps | with_reducible apply Keeps.foldl | with_reducible apply Keeps.foldlFst
    | (intro _; skip) | split
    | (dsimp only; skip)
    | with_reducible refine Keeps.pair (by assumption) ?_
    | (with_reducible refine Keeps.lit rfl rfl ?_; first | with_reducible assumption | exact hall _ | (intro _; exact hall _) | with_reducible apply State.when_keeps | with_reducible apply State.bump_keeps | with_reducible apply State.urSent_keeps | with_reducible apply State.bar0All_keeps | with_reducible apply State.bar2_keeps | with_reducible apply State.bar4Run_keeps | with_reducible apply Keeps.foldl | with_reducible apply Keeps.foldlFst | with_reducible refine Keeps.pair (by assumption) ?_ | (split; skip))

theorem State.perform_keeps {ps : Part → Prop} {a1 : Nat} {a2 : Pkt} {a3 : List Meet} {s0 s : State} (hall : ∀ p, ps p) (h : Keeps ps s0 s) : Keeps ps s0 (State.perform s a1 a2 a3).1 := by
  have h_hbm := hall .hbm
  have h_spm := hall .spm
  have h_hbm := hall .hbm
  have h_spm := hall .spm
  unfold State.perform
  repeat' first
    | (extract_lets +onlyGivenNames x; first | (with_reducible refine Keeps.cut (x := x) ?_ ?_; rotate_left; (try clear_value x); (intro _; skip); rotate_right; subst x) | subst x)
    | with_reducible assumption | exact hall _ | (intro _; exact hall _) | with_reducible apply State.hbmAccess_keeps | with_reducible apply State.spmAccess_keeps | with_reducible apply State.landingTake_keeps | with_reducible apply State.ctrlWrite_keeps | with_reducible apply State.ctrlRead_keeps
    | (intro _; skip) | split
    | (dsimp only; skip)
    | with_reducible refine Keeps.pair (by assumption) ?_
    | (with_reducible refine Keeps.lit rfl rfl ?_; first | with_reducible assumption | exact hall _ | (intro _; exact hall _) | with_reducible apply State.hbmAccess_keeps | with_reducible apply State.spmAccess_keeps | with_reducible apply State.landingTake_keeps | with_reducible apply State.ctrlWrite_keeps | with_reducible apply State.ctrlRead_keeps | with_reducible refine Keeps.pair (by assumption) ?_ | (split; skip))

theorem State.serve_keeps {ps : Part → Prop} {a1 : Nat} {a2 : Pkt} {a3 : List Meet} {s0 s : State} (hall : ∀ p, ps p) (h : Keeps ps s0 s) : Keeps ps s0 (State.serve s a1 a2 a3) := by
  have h_hbm := hall .hbm
  have h_hbm := hall .hbm
  unfold State.serve
  repeat' first
    | (extract_lets +onlyGivenNames x; first | (with_reducible refine Keeps.cut (x := x) ?_ ?_; rotate_left; (try clear_value x); (intro _; skip); rotate_right; subst x) | subst x)
    | with_reducible assumption | exact hall _ | (intro _; exact hall _) | with_reducible apply State.updPkt_keeps | with_reducible apply State.perform_keeps | with_reducible apply State.answer_keeps
    | (intro _; skip) | split
    | (dsimp only; skip)
    | with_reducible refine Keeps.pair (by assumption) ?_
    | (with_reducible refine Keeps.lit rfl rfl ?_; first | with_reducible assumption | exact hall _ | (intro _; exact hall _) | with_reducible apply State.updPkt_keeps | with_reducible apply State.perform_keeps | with_reducible apply State.answer_keeps | with_reducible refine Keeps.pair (by assumption) ?_ | (split; skip))

theorem State.handTo_keeps {ps : Part → Prop} {a1 : Nat} {a2 : Pkt} {a3 : List Meet} {s0 s : State} (hall : ∀ p, ps p) (h : Keeps ps s0 s) : Keeps ps s0 (State.handTo s a1 a2 a3) := by
  have h_noc := hall .noc
  have h_noc := hall .noc
  unfold State.handTo
  repeat' first
    | with_reducible assumption | exact hall _ | (intro _; exact hall _) | with_reducible apply State.serve_keeps | with_reducible apply State.updPkt_keeps
    | (intro _; skip) | split
    | (dsimp only; skip)
    | (with_reducible refine Keeps.lit rfl rfl ?_; first | with_reducible assumption | exact hall _ | (intro _; exact hall _) | with_reducible apply State.serve_keeps | with_reducible apply State.updPkt_keeps | (split; skip))

theorem State.atSluice_keeps {ps : Part → Prop} {a1 : Nat} {a2 : Pkt} {a3 : List Meet} {s0 s : State} (hall : ∀ p, ps p) (h : Keeps ps s0 s) : Keeps ps s0 (State.atSluice s a1 a2 a3) := by
  have h_time := hall .time
  have h_time := hall .time
  unfold State.atSluice
  repeat' first
    | (extract_lets +onlyGivenNames x; first | (with_reducible refine Keeps.cut (x := x) ?_ ?_; rotate_left; (try clear_value x); (intro _; skip); rotate_right; subst x) | subst x)
    | with_reducible assumption | exact hall _ | (intro _; exact hall _) | with_reducible apply State.handTo_keeps | with_reducible apply State.polCancel_keeps | with_reducible apply State.bump_keeps | with_reducible apply State.polUp_keeps | with_reducible apply State.put_keeps | with_reducible apply State.updPkt_keeps | with_reducible apply State.answer_keeps
    | (intro _; skip) | split
    | (dsimp only; skip)
    | (with_reducible refine Keeps.lit rfl rfl ?_; first | with_reducible assumption | exact hall _ | (intro _; exact hall _) | with_reducible apply State.handTo_keeps | with_reducible apply State.polCancel_keeps | with_reducible apply State.bump_keeps | with_reducible apply State.polUp_keeps | with_reducible apply State.put_keeps | with_reducible apply State.updPkt_keeps | with_reducible apply State.answer_keeps | (split; skip))

theorem State.arrive_keeps {ps : Part → Prop} {a1 : Nat} {a2 : Pkt} {a3 : List Meet} {s0 s : State} (hall : ∀ p, ps p) (h : Keeps ps s0 s) : Keeps ps s0 (State.arrive s a1 a2 a3) := by
  unfold State.arrive
  repeat' first
    | (extract_lets +onlyGivenNames x; first | (with_reducible refine Keeps.cut (x := x) ?_ ?_; rotate_left; (try clear_value x); (intro _; skip); rotate_right; subst x) | subst x)
    | with_reducible assumption | exact hall _ | (intro _; exact hall _) | with_reducible apply State.bump_keeps | with_reducible apply State.answer_keeps | with_reducible apply State.updPkt_keeps | with_reducible apply State.atSluice_keeps
    | (intro _; skip) | split
    | (dsimp only; skip)
    | (with_reducible refine Keeps.lit rfl rfl ?_; first | with_reducible assumption | exact hall _ | (intro _; exact hall _) | with_reducible apply State.bump_keeps | with_reducible apply State.answer_keeps | with_reducible apply State.updPkt_keeps | with_reducible apply State.atSluice_keeps | (split; skip))

theorem State.unstick_keeps {ps : Part → Prop} {a1 : Nat} {a2 : Pkt} {a3 : List Meet} {s0 s : State} (hall : ∀ p, ps p) (h : Keeps ps s0 s) : Keeps ps s0 (State.unstick s a1 a2 a3) := by
  have h_noc := hall .noc
  have h_noc := hall .noc
  unfold State.unstick
  repeat' first
    | (extract_lets +onlyGivenNames x; first | (with_reducible refine Keeps.cut (x := x) ?_ ?_; rotate_left; (try clear_value x); (intro _; skip); rotate_right; subst x) | subst x)
    | with_reducible assumption | exact hall _ | (intro _; exact hall _) | with_reducible apply State.serve_keeps | with_reducible apply State.bump_keeps | with_reducible apply State.perform_keeps
    | (intro _; skip) | split
    | (dsimp only; skip)
    | with_reducible refine Keeps.pair (by assumption) ?_
    | (with_reducible refine Keeps.lit rfl rfl ?_; first | with_reducible assumption | exact hall _ | (intro _; exact hall _) | with_reducible apply State.serve_keeps | with_reducible apply State.bump_keeps | with_reducible apply State.perform_keeps | with_reducible refine Keeps.pair (by assumption) ?_ | (split; skip))

theorem execSkidwayRequestArrive_keeps {ps : Part → Prop} {s : State} {a1 : Nat} {a2 : List Meet} (hall : ∀ p, ps p) : ∀ r, (execSkidwayRequestArrive a1 a2 s) = .next r → Keeps ps s r := by
  intro r e
  cases e
  have h := Keeps.refl (ps := ps) s
  repeat' first
    | with_reducible assumption | exact hall _ | (intro _; exact hall _) | with_reducible apply State.when_keeps | with_reducible apply State.unstick_keeps | with_reducible apply State.arrive_keeps | with_reducible apply State.grant_keeps
    | (intro _; skip) | split
    | (dsimp only; skip)
    | (with_reducible refine Keeps.lit rfl rfl ?_; first | with_reducible assumption | exact hall _ | (intro _; exact hall _) | with_reducible apply State.when_keeps | with_reducible apply State.unstick_keeps | with_reducible apply State.arrive_keeps | with_reducible apply State.grant_keeps | (split; skip))

theorem State.applyStage_keeps {ps : Part → Prop} {a1 : Nat} {s0 s : State} (hall : ∀ p, ps p) (h : Keeps ps s0 s) : Keeps ps s0 (State.applyStage s a1) := by
  unfold State.applyStage
  repeat' first
    | (extract_lets +onlyGivenNames x; first | (with_reducible refine Keeps.cut (x := x) ?_ ?_; rotate_left; (try clear_value x); (intro _; skip); rotate_right; subst x) | subst x)
    | with_reducible assumption | exact hall _ | (intro _; exact hall _) | with_reducible apply State.ctrlWrite_keeps | with_reducible apply Keeps.foldl | with_reducible apply Keeps.foldlFst
    | (intro _; skip) | split
    | (dsimp only; skip)

theorem execEpochBroadcastArrive_keeps {ps : Part → Prop} {s : State} {a1 : Nat} (hall : ∀ p, ps p) : ∀ r, (execEpochBroadcastArrive a1 s) = .next r → Keeps ps s r := by
  intro r e
  cases e
  have h := Keeps.refl (ps := ps) s
  repeat' first
    | with_reducible assumption | exact hall _ | (intro _; exact hall _) | with_reducible apply State.when_keeps | with_reducible apply State.put_keeps | with_reducible apply State.takeEpoch_keeps | with_reducible apply State.applyStage_keeps
    | (intro _; skip) | split
    | (dsimp only; skip)

end Sys2Proof.Machine
end

