-- ==== Sys2Proof/Laws/Boot.lean ====
section
/-! SUPPORT. What each operation and each meaning of Machine/Boot.lean keeps (Keeps): one lemma a definition. -/

-- The package as one text is checked in one process: its proofs are checked one after another, and its linters keep quiet.
set_option Elab.async false
set_option linter.all false

namespace Sys2Proof.Machine
open Sys2Proof

theorem State.fallbackLoad_keeps {ps : Part → Prop} {s0 s : State} (h1 : ps (.regs 1)) (h_cfg : ps .cfg) (h : Keeps ps s0 s) : Keeps ps s0 (State.fallbackLoad s) := by
  unfold State.fallbackLoad
  repeat' first
    | (extract_lets +onlyGivenNames x; first | (with_reducible refine Keeps.cut (x := x) ?_ ?_; rotate_left; (try clear_value x); (intro _; skip); rotate_right; subst x) | subst x)
    | with_reducible assumption | exact h1 | with_reducible apply State.put_keeps
    | (intro _; skip) | split
    | (dsimp only; skip)
    | (with_reducible refine Keeps.lit rfl rfl ?_; first | with_reducible assumption | exact h1 | with_reducible apply State.put_keeps | (split; skip))

theorem State.fallbackStream_keeps {ps : Part → Prop} {s0 s : State} (h1 : ps (.regs 1)) (h_cfg : ps .cfg) (h : Keeps ps s0 s) : Keeps ps s0 (State.fallbackStream s) := by
  unfold State.fallbackStream
  repeat' first
    | (extract_lets +onlyGivenNames x; first | (with_reducible refine Keeps.cut (x := x) ?_ ?_; rotate_left; (try clear_value x); (intro _; skip); rotate_right; subst x) | subst x)
    | with_reducible assumption | exact h1 | with_reducible apply State.fallbackLoad_keeps
    | (intro _; skip) | split
    | (dsimp only; skip)
    | (with_reducible refine Keeps.lit rfl rfl ?_; first | with_reducible assumption | exact h1 | with_reducible apply State.fallbackLoad_keeps | (split; skip))

theorem State.loadFail_keeps {ps : Part → Prop} {a1 : Nat} {s0 s : State} (h1 : ps (.regs 1)) (h_cfg : ps .cfg) (h_fab : ps .fab) (h_fresh : ps .fresh) (h : Keeps ps s0 s) : Keeps ps s0 (State.loadFail s a1) := by
  unfold State.loadFail
  repeat' first
    | (extract_lets +onlyGivenNames x; first | (with_reducible refine Keeps.cut (x := x) ?_ ?_; rotate_left; (try clear_value x); (intro _; skip); rotate_right; subst x) | subst x)
    | with_reducible assumption | exact h1 | with_reducible apply State.bump_keeps | with_reducible apply State.refuse_keeps | with_reducible apply State.put_keeps | with_reducible apply State.fallbackStream_keeps
    | (intro _; skip) | split
    | (dsimp only; skip)
    | (with_reducible refine Keeps.lit rfl rfl ?_; first | with_reducible assumption | exact h1 | with_reducible apply State.bump_keeps | with_reducible apply State.refuse_keeps | with_reducible apply State.put_keeps | with_reducible apply State.fallbackStream_keeps | (split; skip))

theorem State.headerTaken_keeps {ps : Part → Prop} {a1 : FullImg} {s0 s : State} (h1 : ps (.regs 1)) (h_cfg : ps .cfg) (h_sl : ps .sl) (h : Keeps ps s0 s) : Keeps ps s0 (State.headerTaken s a1) := by
  unfold State.headerTaken
  repeat' first
    | (extract_lets +onlyGivenNames x; first | (with_reducible refine Keeps.cut (x := x) ?_ ?_; rotate_left; (try clear_value x); (intro _; skip); rotate_right; subst x) | subst x)
    | with_reducible assumption | exact h1 | with_reducible apply State.put_keeps
    | (intro _; skip) | split
    | (dsimp only; skip)
    | (with_reducible refine Keeps.lit rfl rfl ?_; first | with_reducible assumption | exact h1 | with_reducible apply State.put_keeps | (split; skip))

theorem State.authenticate_keeps {ps : Part → Prop} {s0 s : State} (h1 : ps (.regs 1)) (h_cfg : ps .cfg) (h_fab : ps .fab) (h_fresh : ps .fresh) (h_sl : ps .sl) (h : Keeps ps s0 s) : Keeps ps s0 (State.authenticate s) := by
  unfold State.authenticate
  repeat' first
    | with_reducible assumption | exact h1 | with_reducible apply State.loadFail_keeps | with_reducible apply State.headerTaken_keeps
    | (intro _; skip) | split
    | (dsimp only; skip)
    | (with_reducible refine Keeps.lit rfl rfl ?_; first | with_reducible assumption | exact h1 | with_reducible apply State.loadFail_keeps | with_reducible apply State.headerTaken_keeps | (split; skip))

theorem State.headerRead_keeps {ps : Part → Prop} {a1 : FullImg} {s0 s : State} (h_cfg : ps .cfg) (h_out : ps .out) (h : Keeps ps s0 s) : Keeps ps s0 (State.headerRead s a1) := by
  unfold State.headerRead
  repeat' first
    | (extract_lets +onlyGivenNames x; first | (with_reducible refine Keeps.cut (x := x) ?_ ?_; rotate_left; (try clear_value x); (intro _; skip); rotate_right; subst x) | subst x)
    | with_reducible assumption
    | (intro _; skip) | split
    | (dsimp only; skip)
    | (with_reducible refine Keeps.lit rfl rfl ?_; first | with_reducible assumption | (split; skip))

theorem State.headerChecked_keeps {ps : Part → Prop} {a1 : FullImg} {s0 s : State} (h1 : ps (.regs 1)) (h_cfg : ps .cfg) (h_fab : ps .fab) (h_fresh : ps .fresh) (h : Keeps ps s0 s) : Keeps ps s0 (State.headerChecked s a1) := by
  unfold State.headerChecked
  repeat' first
    | with_reducible assumption | exact h1 | with_reducible apply State.loadFail_keeps | with_reducible apply State.put_keeps
    | (intro _; skip) | split
    | (dsimp only; skip)
    | (with_reducible refine Keeps.lit rfl rfl ?_; first | with_reducible assumption | exact h1 | with_reducible apply State.loadFail_keeps | with_reducible apply State.put_keeps | (split; skip))

theorem execHeaderReceived_keeps {ps : Part → Prop} {s : State} {a1 : FullImg} (h1 : ps (.regs 1)) (h_cfg : ps .cfg) (h_fab : ps .fab) (h_fresh : ps .fresh) (h_out : ps .out) : ∀ r, (execHeaderReceived a1 s) = .next r → Keeps ps s r := by
  intro r e
  cases e
  have h := Keeps.refl (ps := ps) s
  repeat' first
    | with_reducible assumption | exact h1 | with_reducible apply State.when_keeps | with_reducible apply State.headerChecked_keeps | with_reducible apply State.headerRead_keeps
    | (intro _; skip) | split
    | (dsimp only; skip)

theorem execNoStreamTimeout_keeps {ps : Part → Prop} {s : State} (h1 : ps (.regs 1)) (h_cfg : ps .cfg) (h_fab : ps .fab) (h_fresh : ps .fresh) : ∀ r, (execNoStreamTimeout s) = .next r → Keeps ps s r := by
  intro r e
  cases e
  have h := Keeps.refl (ps := ps) s
  repeat' first
    | with_reducible assumption | exact h1 | with_reducible apply State.when_keeps | with_reducible apply State.refuseAtOnce_keeps
    | (intro _; skip) | split
    | (dsimp only; skip)

theorem execCfgSyncLow_keeps {ps : Part → Prop} {s : State} (h_cfg : ps .cfg) : ∀ r, (execCfgSyncLow s) = .next r → Keeps ps s r := by
  intro r e
  cases e
  have h := Keeps.refl (ps := ps) s
  repeat' first
    | with_reducible assumption | with_reducible apply State.when_keeps
    | (intro _; skip) | split
    | (dsimp only; skip)
    | (with_reducible refine Keeps.lit rfl rfl ?_; first | with_reducible assumption | with_reducible apply State.when_keeps | (split; skip))

theorem execPrimaryStreamEnd_keeps {ps : Part → Prop} {s : State} (h1 : ps (.regs 1)) (h_cfg : ps .cfg) : ∀ r, (execPrimaryStreamEnd s) = .next r → Keeps ps s r := by
  intro r e
  cases e
  have h := Keeps.refl (ps := ps) s
  repeat' first
    | (extract_lets +onlyGivenNames x; first | (with_reducible refine Keeps.cut (x := x) ?_ ?_; rotate_left; (try clear_value x); (intro _; skip); rotate_right; subst x) | subst x)
    | with_reducible assumption | exact h1 | with_reducible apply State.when_keeps | with_reducible apply State.fallbackStream_keeps
    | (intro _; skip) | split
    | (dsimp only; skip)
    | (with_reducible refine Keeps.lit rfl rfl ?_; first | with_reducible assumption | exact h1 | with_reducible apply State.when_keeps | with_reducible apply State.fallbackStream_keeps | (split; skip))

theorem execFallbackFirstRead_keeps {ps : Part → Prop} {s : State} (h1 : ps (.regs 1)) (h_cfg : ps .cfg) : ∀ r, (execFallbackFirstRead s) = .next r → Keeps ps s r := by
  intro r e
  cases e
  have h := Keeps.refl (ps := ps) s
  repeat' first
    | (extract_lets +onlyGivenNames x; first | (with_reducible refine Keeps.cut (x := x) ?_ ?_; rotate_left; (try clear_value x); (intro _; skip); rotate_right; subst x) | subst x)
    | with_reducible assumption | exact h1 | with_reducible apply State.when_keeps | with_reducible apply State.fallbackLoad_keeps
    | (intro _; skip) | split
    | (dsimp only; skip)
    | (with_reducible refine Keeps.lit rfl rfl ?_; first | with_reducible assumption | exact h1 | with_reducible apply State.when_keeps | with_reducible apply State.fallbackLoad_keeps | (split; skip))

theorem execFallbackStreamEnd_keeps {ps : Part → Prop} {s : State} (h_cfg : ps .cfg) : ∀ r, (execFallbackStreamEnd s) = .next r → Keeps ps s r := by
  intro r e
  cases e
  have h := Keeps.refl (ps := ps) s
  repeat' first
    | with_reducible assumption | with_reducible apply State.when_keeps
    | (intro _; skip) | split
    | (dsimp only; skip)
    | (with_reducible refine Keeps.lit rfl rfl ?_; first | with_reducible assumption | with_reducible apply State.when_keeps | (split; skip))

theorem State.mediaRegs_keeps {ps : Part → Prop} {a1 : Nat} {s0 s : State} (h9 : ps (.regs 9)) (h17 : ps (.regs 17)) (h_evt : ps .evt) (h_out : ps .out) (h_pci : ps .pci) (h : Keeps ps s0 s) : Keeps ps s0 (State.mediaRegs s a1) := by
  unfold State.mediaRegs
  repeat' first
    | (extract_lets +onlyGivenNames x; first | (with_reducible refine Keeps.cut (x := x) ?_ ?_; rotate_left; (try clear_value x); (intro _; skip); rotate_right; subst x) | subst x)
    | with_reducible assumption | exact h9 | exact h17 | with_reducible apply State.put_keeps | with_reducible apply State.post_keeps | with_reducible apply Keeps.foldl | with_reducible apply Keeps.foldlFst
    | (intro _; skip) | split
    | (dsimp only; skip)

theorem State.applyMedia_keeps {ps : Part → Prop} {a1 a2 a3 a4 : Nat} {s0 s : State} (h9 : ps (.regs 9)) (h17 : ps (.regs 17)) (h_evt : ps .evt) (h_med : ps .med) (h_out : ps .out) (h_pci : ps .pci) (h : Keeps ps s0 s) : Keeps ps s0 (State.applyMedia s a1 a2 a3 a4) := by
  unfold State.applyMedia
  repeat' first
    | (extract_lets +onlyGivenNames x; first | (with_reducible refine Keeps.cut (x := x) ?_ ?_; rotate_left; (try clear_value x); (intro _; skip); rotate_right; subst x) | subst x)
    | with_reducible assumption | exact h9 | exact h17 | with_reducible apply State.mediaRegs_keeps | with_reducible apply Keeps.foldl | with_reducible apply Keeps.foldlFst
    | (intro _; skip) | split
    | (dsimp only; skip)
    | (with_reducible refine Keeps.lit rfl rfl ?_; first | with_reducible assumption | exact h9 | exact h17 | with_reducible apply State.mediaRegs_keeps | with_reducible apply Keeps.foldl | with_reducible apply Keeps.foldlFst | (split; skip))

theorem State.hubRecords_keeps {ps : Part → Prop} {a1 : List (Nat × Nat)} {s0 s : State} (hall : ∀ p, ps p) (h : Keeps ps s0 s) : Keeps ps s0 (State.hubRecords s a1).1 := by
  induction a1 generalizing s  with
  | nil =>
    unfold State.hubRecords
    repeat' first
      | (extract_lets +onlyGivenNames x; first | (with_reducible refine Keeps.cut (x := x) ?_ ?_; rotate_left; (try clear_value x); (intro _; skip); rotate_right; subst x) | subst x)
      | with_reducible assumption | exact hall _ | (intro _; exact hall _) | with_reducible apply State.regWrite_keeps
      | (intro _; skip) | split
      | (dsimp only; skip)
      | with_reducible refine Keeps.pair (by assumption) ?_
  | cons x l ih =>
    unfold State.hubRecords
    repeat' first
      | (extract_lets +onlyGivenNames x; first | (with_reducible refine Keeps.cut (x := x) ?_ ?_; rotate_left; (try clear_value x); (intro _; skip); rotate_right; subst x) | subst x)
      | with_reducible assumption | exact hall _ | (intro _; exact hall _) | with_reducible apply State.regWrite_keeps | with_reducible apply ih
      | (intro _; skip) | split
      | (dsimp only; skip)
      | with_reducible refine Keeps.pair (by assumption) ?_

theorem State.putStand_keeps {ps : Part → Prop} {a1 a2 : Nat} {s0 s : State} (h1 : ps (.regs 1)) (h : Keeps ps s0 s) : Keeps ps s0 (State.putStand s a1 a2) := by
  unfold State.putStand
  repeat' first
    | (extract_lets +onlyGivenNames x; first | (with_reducible refine Keeps.cut (x := x) ?_ ?_; rotate_left; (try clear_value x); (intro _; skip); rotate_right; subst x) | subst x)
    | with_reducible assumption | exact h1 | with_reducible apply State.flag_keeps | with_reducible apply State.put_keeps
    | (intro _; skip) | split
    | (dsimp only; skip)

theorem State.writeFrames_keeps {ps : Part → Prop} {a1 : Nat} {a2 : List (Nat × List Nat)} {s0 s : State} (h_sl : ps .sl) (h : Keeps ps s0 s) : Keeps ps s0 (State.writeFrames s a1 a2) := by
  unfold State.writeFrames
  repeat' first
    | with_reducible assumption | with_reducible apply State.updFrm_keeps | with_reducible apply Keeps.foldl | with_reducible apply Keeps.foldlFst
    | (intro _; skip) | split
    | (dsimp only; skip)
    | (with_reducible refine Keeps.lit rfl rfl ?_; first | with_reducible assumption | with_reducible apply State.updFrm_keeps | with_reducible apply Keeps.foldl | with_reducible apply Keeps.foldlFst | (split; skip))

theorem State.applyFabric_keeps {ps : Part → Prop} {a1 a2 : Nat} {a3 : List (Nat × List Nat)} {a4 : List (Nat × Nat)} {s0 s : State} (h1 : ps (.regs 1)) (h_cfg : ps .cfg) (h_sl : ps .sl) (h : Keeps ps s0 s) : Keeps ps s0 (State.applyFabric s a1 a2 a3 a4) := by
  unfold State.applyFabric
  repeat' first
    | (extract_lets +onlyGivenNames x; first | (with_reducible refine Keeps.cut (x := x) ?_ ?_; rotate_left; (try clear_value x); (intro _; skip); rotate_right; subst x) | subst x)
    | with_reducible assumption | exact h1 | with_reducible apply State.putStand_keeps | with_reducible apply Keeps.foldl | with_reducible apply Keeps.foldlFst
    | (intro _; skip) | split
    | (dsimp only; skip)
    | (with_reducible refine Keeps.lit rfl rfl ?_; first | with_reducible assumption | exact h1 | with_reducible apply State.putStand_keeps | with_reducible apply Keeps.foldl | with_reducible apply Keeps.foldlFst | (split; skip))

theorem State.preloadBytes_keeps {ps : Part → Prop} {a1 a2 a3 a4 : Nat} {s0 s : State} (h_hbm : ps .hbm) (h_spm : ps .spm) (h : Keeps ps s0 s) : Keeps ps s0 (State.preloadBytes s a1 a2 a3 a4) := by
  induction a1 generalizing s a2 a3 a4 with
  | zero =>
    unfold State.preloadBytes
    repeat' first
      | (extract_lets +onlyGivenNames x; first | (with_reducible refine Keeps.cut (x := x) ?_ ?_; rotate_left; (try clear_value x); (intro _; skip); rotate_right; subst x) | subst x)
      | with_reducible assumption | with_reducible apply State.updHline_keeps | with_reducible apply State.updSline_keeps
      | (intro _; skip) | split
      | (dsimp only; skip)
      | (with_reducible refine Keeps.lit rfl rfl ?_; first | with_reducible assumption | with_reducible apply State.updHline_keeps | with_reducible apply State.updSline_keeps | (split; skip))
  | succ n ih =>
    unfold State.preloadBytes
    repeat' first
      | (extract_lets +onlyGivenNames x; first | (with_reducible refine Keeps.cut (x := x) ?_ ?_; rotate_left; (try clear_value x); (intro _; skip); rotate_right; subst x) | subst x)
      | with_reducible assumption | with_reducible apply State.updHline_keeps | with_reducible apply State.updSline_keeps | with_reducible apply ih
      | (intro _; skip) | split
      | (dsimp only; skip)
      | (with_reducible refine Keeps.lit rfl rfl ?_; first | with_reducible assumption | with_reducible apply State.updHline_keeps | with_reducible apply State.updSline_keeps | with_reducible apply ih | (split; skip))

theorem State.preloadRecords_keeps {ps : Part → Prop} {a1 : List (Nat × Nat × Nat)} {s0 s : State} (h_hbm : ps .hbm) (h_spm : ps .spm) (h : Keeps ps s0 s) : Keeps ps s0 (State.preloadRecords s a1).1 := by
  induction a1 generalizing s  with
  | nil =>
    unfold State.preloadRecords
    repeat' first
      | with_reducible assumption | with_reducible apply State.preloadBytes_keeps
      | (intro _; skip) | split
      | (dsimp only; skip)
      | with_reducible refine Keeps.pair (by assumption) ?_
  | cons x l ih =>
    unfold State.preloadRecords
    repeat' first
      | with_reducible assumption | with_reducible apply State.preloadBytes_keeps | with_reducible apply ih
      | (intro _; skip) | split
      | (dsimp only; skip)
      | with_reducible refine Keeps.pair (by assumption) ?_

theorem State.applyGolden_keeps {ps : Part → Prop} {a1 : List Nat} {s0 s : State} (h_sl : ps .sl) (h : Keeps ps s0 s) : Keeps ps s0 (State.applyGolden s a1) := by
  unfold State.applyGolden
  repeat' first
    | with_reducible assumption | with_reducible apply State.updFrm_keeps | with_reducible apply Keeps.foldl | with_reducible apply Keeps.foldlFst
    | (intro _; skip) | split
    | (dsimp only; skip)
    | (with_reducible refine Keeps.lit rfl rfl ?_; first | with_reducible assumption | with_reducible apply State.updFrm_keeps | with_reducible apply Keeps.foldl | with_reducible apply Keeps.foldlFst | (split; skip))

theorem State.takePcie_keeps {ps : Part → Prop} {a1 : PcieSet} {s0 s : State} (h1 : ps (.regs 1)) (h16 : ps (.regs 16)) (h17 : ps (.regs 17)) (h19 : ps (.regs 19)) (h_cfg : ps .cfg) (h_evt : ps .evt) (h_out : ps .out) (h_pci : ps .pci) (h : Keeps ps s0 s) : Keeps ps s0 (State.takePcie s a1) := by
  unfold State.takePcie
  repeat' first
    | (extract_lets +onlyGivenNames x; first | (with_reducible refine Keeps.cut (x := x) ?_ ?_; rotate_left; (try clear_value x); (intro _; skip); rotate_right; subst x) | subst x)
    | with_reducible assumption | exact h1 | exact h16 | exact h17 | exact h19 | with_reducible apply State.post_keeps | with_reducible apply State.applyPcie_keeps | with_reducible apply State.put_keeps
    | (intro _; skip) | split
    | (dsimp only; skip)
    | (with_reducible refine Keeps.lit rfl rfl ?_; first | with_reducible assumption | exact h1 | exact h16 | exact h17 | exact h19 | with_reducible apply State.post_keeps | with_reducible apply State.applyPcie_keeps | with_reducible apply State.put_keeps | (split; skip))

theorem State.stage1_keeps {ps : Part → Prop} {a1 : SegEnt} {a2 : SegBody} {s0 s : State} (h_hbm : ps .hbm) (h_sl : ps .sl) (h_spm : ps .spm) (h : Keeps ps s0 s) : Keeps ps s0 (State.stage1 s a1 a2).1 := by
  unfold State.stage1
  repeat' first
    | with_reducible assumption | with_reducible apply State.writeFrames_keeps | with_reducible apply State.preloadRecords_keeps
    | (intro _; skip) | split
    | (dsimp only; skip)
    | with_reducible refine Keeps.pair (by assumption) ?_
    | (with_reducible refine Keeps.lit rfl rfl ?_; first | with_reducible assumption | with_reducible apply State.writeFrames_keeps | with_reducible apply State.preloadRecords_keeps | with_reducible refine Keeps.pair (by assumption) ?_ | (split; skip))

theorem State.applySeg_keeps {ps : Part → Prop} {a1 : SegEnt} {a2 : SegBody} {s0 s : State} (hall : ∀ p, ps p) (h : Keeps ps s0 s) : Keeps ps s0 (State.applySeg s a1 a2).1 := by
  have h_cfg := hall .cfg
  have h_cfg := hall .cfg
  unfold State.applySeg
  repeat' first
    | (extract_lets +onlyGivenNames x; first | (with_reducible refine Keeps.cut (x := x) ?_ ?_; rotate_left; (try clear_value x); (intro _; skip); rotate_right; subst x) | subst x)
    | with_reducible assumption | exact hall _ | (intro _; exact hall _) | with_reducible apply State.takePcie_keeps | with_reducible apply State.hubRecords_keeps | with_reducible apply State.applyMedia_keeps | with_reducible apply State.applyFabric_keeps | with_reducible apply State.applyGolden_keeps
    | (intro _; skip) | split
    | (dsimp only; skip)
    | with_reducible refine Keeps.pair (by assumption) ?_
    | (with_reducible refine Keeps.lit rfl rfl ?_; first | with_reducible assumption | exact hall _ | (intro _; exact hall _) | with_reducible apply State.takePcie_keeps | with_reducible apply State.hubRecords_keeps | with_reducible apply State.applyMedia_keeps | with_reducible apply State.applyFabric_keeps | with_reducible apply State.applyGolden_keeps | with_reducible refine Keeps.pair (by assumption) ?_ | (split; skip))

theorem State.loadCheck_keeps {ps : Part → Prop} {s0 s : State} (h1 : ps (.regs 1)) (h_cfg : ps .cfg) (h_fab : ps .fab) (h_fresh : ps .fresh) (h : Keeps ps s0 s) : Keeps ps s0 (State.loadCheck s) := by
  unfold State.loadCheck
  repeat' first
    | with_reducible assumption | exact h1 | with_reducible apply State.loadFail_keeps | with_reducible apply State.put_keeps
    | (intro _; skip) | split
    | (dsimp only; skip)
    | (with_reducible refine Keeps.lit rfl rfl ?_; first | with_reducible assumption | exact h1 | with_reducible apply State.loadFail_keeps | with_reducible apply State.put_keeps | (split; skip))

theorem State.segmentTaken_keeps {ps : Part → Prop} {a1 : SegEnt} {a2 : Nat} {a3 : SegBody} {a4 : List Nat} {s0 s : State} (hall : ∀ p, ps p) (h : Keeps ps s0 s) : Keeps ps s0 (State.segmentTaken s a1 a2 a3 a4) := by
  have h_cfg := hall .cfg
  have h_cfg := hall .cfg
  unfold State.segmentTaken
  repeat' first
    | (extract_lets +onlyGivenNames x; first | (with_reducible refine Keeps.cut (x := x) ?_ ?_; rotate_left; (try clear_value x); (intro _; skip); rotate_right; subst x) | subst x)
    | with_reducible assumption | exact hall _ | (intro _; exact hall _) | with_reducible apply State.applySeg_keeps | with_reducible apply State.loadFail_keeps | with_reducible apply State.loadCheck_keeps
    | (intro _; skip) | split
    | (dsimp only; skip)
    | with_reducible refine Keeps.pair (by assumption) ?_
    | (with_reducible refine Keeps.lit rfl rfl ?_; first | with_reducible assumption | exact hall _ | (intro _; exact hall _) | with_reducible apply State.applySeg_keeps | with_reducible apply State.loadFail_keeps | with_reducible apply State.loadCheck_keeps | with_reducible refine Keeps.pair (by assumption) ?_ | (split; skip))

theorem State.segmentArrived_keeps {ps : Part → Prop} {a1 : SegEnt} {a2 a3 : Nat} {a4 : SegSense} {s0 s : State} (hall : ∀ p, ps p) (h : Keeps ps s0 s) : Keeps ps s0 (State.segmentArrived s a1 a2 a3 a4) := by
  have h_cfg := hall .cfg
  have h_cfg := hall .cfg
  unfold State.segmentArrived
  repeat' first
    | (extract_lets +onlyGivenNames x; first | (with_reducible refine Keeps.cut (x := x) ?_ ?_; rotate_left; (try clear_value x); (intro _; skip); rotate_right; subst x) | subst x)
    | with_reducible assumption | exact hall _ | (intro _; exact hall _) | with_reducible apply State.stage1_keeps | with_reducible apply State.loadFail_keeps | with_reducible apply State.segmentTaken_keeps
    | (intro _; skip) | split
    | (dsimp only; skip)
    | with_reducible refine Keeps.pair (by assumption) ?_
    | (with_reducible refine Keeps.lit rfl rfl ?_; first | with_reducible assumption | exact hall _ | (intro _; exact hall _) | with_reducible apply State.stage1_keeps | with_reducible apply State.loadFail_keeps | with_reducible apply State.segmentTaken_keeps | with_reducible refine Keeps.pair (by assumption) ?_ | (split; skip))

theorem execSegmentReceived_keeps {ps : Part → Prop} {s : State} {a1 : Nat} {a2 : SegSense} (hall : ∀ p, ps p) : ∀ r, (execSegmentReceived a1 a2 s) = .next r → Keeps ps s r := by
  intro r e
  cases e
  have h := Keeps.refl (ps := ps) s
  have h_cfg := hall .cfg
  repeat' first
    | (extract_lets +onlyGivenNames x; first | (with_reducible refine Keeps.cut (x := x) ?_ ?_; rotate_left; (try clear_value x); (intro _; skip); rotate_right; subst x) | subst x)
    | with_reducible assumption | exact hall _ | (intro _; exact hall _) | with_reducible apply State.when_keeps | with_reducible apply State.authenticate_keeps | with_reducible apply State.segmentArrived_keeps
    | (intro _; skip) | split
    | (dsimp only; skip)
    | (with_reducible refine Keeps.lit rfl rfl ?_; first | with_reducible assumption | exact hall _ | (intro _; exact hall _) | with_reducible apply State.when_keeps | with_reducible apply State.authenticate_keeps | with_reducible apply State.segmentArrived_keeps | (split; skip))

theorem execPreloadHoldExpires_keeps {ps : Part → Prop} {s : State} (h_cfg : ps .cfg) : ∀ r, (execPreloadHoldExpires s) = .next r → Keeps ps s r := by
  intro r e
  cases e
  have h := Keeps.refl (ps := ps) s
  repeat' first
    | with_reducible assumption | with_reducible apply State.when_keeps
    | (intro _; skip) | split
    | (dsimp only; skip)
    | (with_reducible refine Keeps.lit rfl rfl ?_; first | with_reducible assumption | with_reducible apply State.when_keeps | (split; skip))

theorem execHbmTrainingDone_keeps {ps : Part → Prop} {s : State} {a1 : Nat} {a2 : Bool} (h1 : ps (.regs 1)) (h_cfg : ps .cfg) (h_fab : ps .fab) (h_fresh : ps .fresh) : ∀ r, (execHbmTrainingDone a1 a2 s) = .next r → Keeps ps s r := by
  intro r e
  cases e
  have h := Keeps.refl (ps := ps) s
  repeat' first
    | with_reducible assumption | exact h1 | with_reducible apply State.when_keeps | with_reducible apply State.loadCheck_keeps | with_reducible apply State.loadFail_keeps
    | (intro _; skip) | split
    | (dsimp only; skip)
    | (with_reducible refine Keeps.lit rfl rfl ?_; first | with_reducible assumption | exact h1 | with_reducible apply State.when_keeps | with_reducible apply State.loadCheck_keeps | with_reducible apply State.loadFail_keeps | (split; skip))

theorem State.startHome_keeps {ps : Part → Prop} {s0 s : State} (h9 : ps (.regs 9)) (h_fresh : ps .fresh) (h : Keeps ps s0 s) : Keeps ps s0 (State.startHome s) := by
  unfold State.startHome
  repeat' first
    | with_reducible assumption | exact h9 | with_reducible apply State.putHome_keeps | with_reducible apply State.drawn_keeps
    | (intro _; skip) | split
    | (dsimp only; skip)
    | (with_reducible refine Keeps.lit rfl rfl ?_; first | with_reducible assumption | exact h9 | with_reducible apply State.putHome_keeps | with_reducible apply State.drawn_keeps | (split; skip))

theorem State.sealKeys_keeps {ps : Part → Prop} {s0 s : State} (h12 : ps (.regs 12)) (h_cry : ps .cry) (h_fresh : ps .fresh) (h : Keeps ps s0 s) : Keeps ps s0 (State.sealKeys s) := by
  unfold State.sealKeys
  repeat' first
    | (extract_lets +onlyGivenNames x; first | (with_reducible refine Keeps.cut (x := x) ?_ ?_; rotate_left; (try clear_value x); (intro _; skip); rotate_right; subst x) | subst x)
    | with_reducible assumption | exact h12 | with_reducible apply State.drawn_keeps | with_reducible apply State.put_keeps | with_reducible apply State.loadKey_keeps | with_reducible apply Keeps.foldl | with_reducible apply Keeps.foldlFst
    | (intro _; skip) | split
    | (dsimp only; skip)

theorem State.startEngines_keeps {ps : Part → Prop} {s0 s : State} (h6 : ps (.regs 6)) (h : Keeps ps s0 s) : Keeps ps s0 (State.startEngines s) := by
  unfold State.startEngines
  repeat' first
    | with_reducible assumption | exact h6 | with_reducible apply State.put_keeps | with_reducible apply Keeps.foldl | with_reducible apply Keeps.foldlFst
    | (intro _; skip) | split
    | (dsimp only; skip)

theorem State.startBanks_keeps {ps : Part → Prop} {s0 s : State} (h14 : ps (.regs 14)) (h : Keeps ps s0 s) : Keeps ps s0 (State.startBanks s) := by
  unfold State.startBanks
  repeat' first
    | (extract_lets +onlyGivenNames x; first | (with_reducible refine Keeps.cut (x := x) ?_ ?_; rotate_left; (try clear_value x); (intro _; skip); rotate_right; subst x) | subst x)
    | with_reducible assumption | exact h14 | with_reducible apply State.put_keeps | with_reducible apply Keeps.foldl | with_reducible apply Keeps.foldlFst
    | (intro _; skip) | split
    | (dsimp only; skip)

theorem State.startStands_keeps {ps : Part → Prop} {s0 s : State} (h1 : ps (.regs 1)) (h : Keeps ps s0 s) : Keeps ps s0 (State.startStands s) := by
  unfold State.startStands
  repeat' first
    | with_reducible assumption | exact h1 | with_reducible apply State.put_keeps | with_reducible apply Keeps.foldl | with_reducible apply Keeps.foldlFst
    | (intro _; skip) | split
    | (dsimp only; skip)

theorem State.startTracts_keeps {ps : Part → Prop} {a1 : List TractIn} {s0 s : State} (h12 : ps (.regs 12)) (h_tly : ps .tly) (h : Keeps ps s0 s) : Keeps ps s0 (State.startTracts s a1) := by
  unfold State.startTracts
  repeat' first
    | (extract_lets +onlyGivenNames x; first | (with_reducible refine Keeps.cut (x := x) ?_ ?_; rotate_left; (try clear_value x); (intro _; skip); rotate_right; subst x) | subst x)
    | with_reducible assumption | exact h12 | with_reducible apply State.bump_keeps | with_reducible apply Keeps.foldl | with_reducible apply Keeps.foldlFst
    | (intro _; skip) | split
    | (dsimp only; skip)
    | (with_reducible refine Keeps.lit rfl rfl ?_; first | with_reducible assumption | exact h12 | with_reducible apply State.bump_keeps | with_reducible apply Keeps.foldl | with_reducible apply Keeps.foldlFst | (split; skip))

theorem State.startUser_keeps {ps : Part → Prop} {s0 s : State} (h1 : ps (.regs 1)) (h4 : ps (.regs 4)) (h14 : ps (.regs 14)) (h_cfg : ps .cfg) (h_fab : ps .fab) (h_pwr : ps .pwr) (h : Keeps ps s0 s) : Keeps ps s0 (State.startUser s) := by
  unfold State.startUser
  repeat' first
    | (extract_lets +onlyGivenNames x; first | (with_reducible refine Keeps.cut (x := x) ?_ ?_; rotate_left; (try clear_value x); (intro _; skip); rotate_right; subst x) | subst x)
    | with_reducible assumption | exact h1 | exact h4 | exact h14 | with_reducible apply State.put_keeps | with_reducible apply State.releaseAll_keeps | with_reducible apply State.startStands_keeps | with_reducible apply State.startBanks_keeps | with_reducible apply Keeps.foldl | with_reducible apply Keeps.foldlFst
    | (intro _; skip) | split
    | (dsimp only; skip)
    | (with_reducible refine Keeps.lit rfl rfl ?_; first | with_reducible assumption | exact h1 | exact h4 | exact h14 | with_reducible apply State.put_keeps | with_reducible apply State.releaseAll_keeps | with_reducible apply State.startStands_keeps | with_reducible apply State.startBanks_keeps | with_reducible apply Keeps.foldl | with_reducible apply Keeps.foldlFst | (split; skip))

theorem State.startEngine5_keeps {ps : Part → Prop} {a1 : List TractIn} {a2 a3 : Nat} {s0 s : State} (h6 : ps (.regs 6)) (h7 : ps (.regs 7)) (h9 : ps (.regs 9)) (h12 : ps (.regs 12)) (h_cru : ps .cru) (h_cry : ps .cry) (h_dck : ps .dck) (h_fresh : ps .fresh) (h_tly : ps .tly) (h : Keeps ps s0 s) : Keeps ps s0 (State.startEngine5 s a1 a2 a3) := by
  unfold State.startEngine5
  repeat' first
    | (extract_lets +onlyGivenNames x; first | (with_reducible refine Keeps.cut (x := x) ?_ ?_; rotate_left; (try clear_value x); (intro _; skip); rotate_right; subst x) | subst x)
    | with_reducible assumption | exact h6 | exact h7 | exact h9 | exact h12 | with_reducible apply State.startTracts_keeps | with_reducible apply State.put_keeps | with_reducible apply State.startEngines_keeps | with_reducible apply State.sealKeys_keeps | with_reducible apply Keeps.foldl | with_reducible apply Keeps.foldlFst
    | (intro _; skip) | split
    | (dsimp only; skip)
    | (with_reducible refine Keeps.lit rfl rfl ?_; first | with_reducible assumption | exact h6 | exact h7 | exact h9 | exact h12 | with_reducible apply State.startTracts_keeps | with_reducible apply State.put_keeps | with_reducible apply State.startEngines_keeps | with_reducible apply State.sealKeys_keeps | with_reducible apply Keeps.foldl | with_reducible apply Keeps.foldlFst | (split; skip))

theorem State.startLanes_keeps {ps : Part → Prop} {s0 s : State} (h15 : ps (.regs 15)) (h : Keeps ps s0 s) : Keeps ps s0 (State.startLanes s) := by
  unfold State.startLanes
  repeat' first
    | with_reducible assumption | exact h15 | with_reducible apply State.laneOn_keeps | with_reducible apply Keeps.foldl | with_reducible apply Keeps.foldlFst
    | (intro _; skip) | split
    | (dsimp only; skip)

theorem State.startLinks_keeps {ps : Part → Prop} {s0 s : State} (h11 : ps (.regs 11)) (h15 : ps (.regs 15)) (h_lve : ps .lve) (h : Keeps ps s0 s) : Keeps ps s0 (State.startLinks s) := by
  unfold State.startLinks
  repeat' first
    | (extract_lets +onlyGivenNames x; first | (with_reducible refine Keeps.cut (x := x) ?_ ?_; rotate_left; (try clear_value x); (intro _; skip); rotate_right; subst x) | subst x)
    | with_reducible assumption | exact h11 | exact h15 | with_reducible apply State.startLanes_keeps | with_reducible apply State.bundleStart_keeps | with_reducible apply Keeps.foldl | with_reducible apply Keeps.foldlFst
    | (intro _; skip) | split
    | (dsimp only; skip)

theorem State.startDone_keeps {ps : Part → Prop} {a1 : Nat} {s0 s : State} (h1 : ps (.regs 1)) (h15 : ps (.regs 15)) (h17 : ps (.regs 17)) (h_cfg : ps .cfg) (h_evt : ps .evt) (h_out : ps .out) (h_pci : ps .pci) (h_sl : ps .sl) (h : Keeps ps s0 s) : Keeps ps s0 (State.startDone s a1) := by
  unfold State.startDone
  repeat' first
    | (extract_lets +onlyGivenNames x; first | (with_reducible refine Keeps.cut (x := x) ?_ ?_; rotate_left; (try clear_value x); (intro _; skip); rotate_right; subst x) | subst x)
    | with_reducible assumption | exact h1 | exact h15 | exact h17 | with_reducible apply State.put_keeps | with_reducible apply State.put64_keeps | with_reducible apply State.startLanes_keeps | with_reducible apply State.post_keeps
    | (intro _; skip) | split
    | (dsimp only; skip)
    | (with_reducible refine Keeps.lit rfl rfl ?_; first | with_reducible assumption | exact h1 | exact h15 | exact h17 | with_reducible apply State.put_keeps | with_reducible apply State.put64_keeps | with_reducible apply State.startLanes_keeps | with_reducible apply State.post_keeps | (split; skip))

theorem State.startClaims_keeps {ps : Part → Prop} {s0 s : State} (h4 : ps (.regs 4)) (h9 : ps (.regs 9)) (h16 : ps (.regs 16)) (h17 : ps (.regs 17)) (h_evt : ps .evt) (h_med : ps .med) (h_out : ps .out) (h_pci : ps .pci) (h_pwr : ps .pwr) (h : Keeps ps s0 s) : Keeps ps s0 (State.startClaims s) := by
  unfold State.startClaims
  repeat' first
    | with_reducible assumption | exact h4 | exact h9 | exact h16 | exact h17 | with_reducible apply State.claimOp_keeps | with_reducible apply State.setGst_keeps | with_reducible apply Keeps.foldl | with_reducible apply Keeps.foldlFst
    | (intro _; skip) | split
    | (dsimp only; skip)

theorem State.started_keeps {ps : Part → Prop} {a1 : List TractIn} {a2 a3 a4 : Nat} {s0 s : State} (h1 : ps (.regs 1)) (h4 : ps (.regs 4)) (h6 : ps (.regs 6)) (h7 : ps (.regs 7)) (h9 : ps (.regs 9)) (h11 : ps (.regs 11)) (h12 : ps (.regs 12)) (h14 : ps (.regs 14)) (h15 : ps (.regs 15)) (h16 : ps (.regs 16)) (h17 : ps (.regs 17)) (h_cfg : ps .cfg) (h_cru : ps .cru) (h_cry : ps .cry) (h_dck : ps .dck) (h_evt : ps .evt) (h_fab : ps .fab) (h_fresh : ps .fresh) (h_lve : ps .lve) (h_med : ps .med) (h_out : ps .out) (h_pci : ps .pci) (h_pwr : ps .pwr) (h_sl : ps .sl) (h_tly : ps .tly) (h : Keeps ps s0 s) : Keeps ps s0 (State.started s a1 a2 a3 a4) := by
  unfold State.started
  repeat' first
    | (extract_lets +onlyGivenNames x; first | (with_reducible refine Keeps.cut (x := x) ?_ ?_; rotate_left; (try clear_value x); (intro _; skip); rotate_right; subst x) | subst x)
    | with_reducible assumption | exact h1 | exact h4 | exact h6 | exact h7 | exact h9 | exact h11 | exact h12 | exact h14 | exact h15 | exact h16 | exact h17 | with_reducible apply State.startLinks_keeps | with_reducible apply State.startHome_keeps | with_reducible apply State.startEngine5_keeps | with_reducible apply State.startUser_keeps | with_reducible apply State.startClaims_keeps | with_reducible apply State.startDone_keeps
    | (intro _; skip) | split
    | (dsimp only; skip)

theorem execStartSequence_keeps {ps : Part → Prop} {s : State} {a1 : List TractIn} {a2 a3 a4 : Nat} (h1 : ps (.regs 1)) (h4 : ps (.regs 4)) (h6 : ps (.regs 6)) (h7 : ps (.regs 7)) (h9 : ps (.regs 9)) (h11 : ps (.regs 11)) (h12 : ps (.regs 12)) (h14 : ps (.regs 14)) (h15 : ps (.regs 15)) (h16 : ps (.regs 16)) (h17 : ps (.regs 17)) (h_cfg : ps .cfg) (h_cru : ps .cru) (h_cry : ps .cry) (h_dck : ps .dck) (h_evt : ps .evt) (h_fab : ps .fab) (h_fresh : ps .fresh) (h_lve : ps .lve) (h_med : ps .med) (h_out : ps .out) (h_pci : ps .pci) (h_pwr : ps .pwr) (h_sl : ps .sl) (h_tly : ps .tly) : ∀ r, (execStartSequence a1 a2 a3 a4 s) = .next r → Keeps ps s r := by
  intro r e
  cases e
  have h := Keeps.refl (ps := ps) s
  repeat' first
    | with_reducible assumption | exact h1 | exact h4 | exact h6 | exact h7 | exact h9 | exact h11 | exact h12 | exact h14 | exact h15 | exact h16 | exact h17 | with_reducible apply State.when_keeps | with_reducible apply State.started_keeps
    | (intro _; skip) | split
    | (dsimp only; skip)

end Sys2Proof.Machine
end

