-- ==== Sys2Proof/Laws/State.lean ====
section
/-! SUPPORT. What each of the basic changes of the part leaves in each field of State: one lemma a field a change. -/

-- The package as one text is checked in one process: its proofs are checked one after another, and its linters keep quiet.
set_option Elab.async false
set_option linter.all false

namespace Sys2Proof.Machine
open Sys2Proof

/-! `State.put` -/

@[simp] theorem State.put_pending (s : State) (f : Fld) (v : Nat) (i : Nat) (j : Nat) : (s.put f v i j).pending = s.pending := rfl
@[simp] theorem State.put_regs (s : State) (f : Fld) (v : Nat) (i : Nat) (j : Nat) :
    (s.put f v i j).regs = Map.set (f.reset i) s.regs (f.key i j) (f.cut v) := rfl
@[simp] theorem State.put_shadow (s : State) (f : Fld) (v : Nat) (i : Nat) (j : Nat) : (s.put f v i j).shadow = s.shadow := rfl
@[simp] theorem State.put_stage (s : State) (f : Fld) (v : Nat) (i : Nat) (j : Nat) : (s.put f v i j).stage = s.stage := rfl
@[simp] theorem State.put_time (s : State) (f : Fld) (v : Nat) (i : Nat) (j : Nat) : (s.put f v i j).time = s.time := rfl
@[simp] theorem State.put_fresh (s : State) (f : Fld) (v : Nat) (i : Nat) (j : Nat) : (s.put f v i j).fresh = s.fresh := rfl
@[simp] theorem State.put_out (s : State) (f : Fld) (v : Nat) (i : Nat) (j : Nat) : (s.put f v i j).out = s.out := rfl
@[simp] theorem State.put_fuses (s : State) (f : Fld) (v : Nat) (i : Nat) (j : Nat) : (s.put f v i j).fuses = s.fuses := rfl
@[simp] theorem State.put_evt (s : State) (f : Fld) (v : Nat) (i : Nat) (j : Nat) : (s.put f v i j).evt = s.evt := rfl
@[simp] theorem State.put_gens (s : State) (f : Fld) (v : Nat) (i : Nat) (j : Nat) : (s.put f v i j).gens = s.gens := rfl
@[simp] theorem State.put_qqp (s : State) (f : Fld) (v : Nat) (i : Nat) (j : Nat) : (s.put f v i j).qqp = s.qqp := rfl
@[simp] theorem State.put_tly (s : State) (f : Fld) (v : Nat) (i : Nat) (j : Nat) : (s.put f v i j).tly = s.tly := rfl
@[simp] theorem State.put_dck (s : State) (f : Fld) (v : Nat) (i : Nat) (j : Nat) : (s.put f v i j).dck = s.dck := rfl
@[simp] theorem State.put_pci (s : State) (f : Fld) (v : Nat) (i : Nat) (j : Nat) : (s.put f v i j).pci = s.pci := rfl
@[simp] theorem State.put_cfg (s : State) (f : Fld) (v : Nat) (i : Nat) (j : Nat) : (s.put f v i j).cfg = s.cfg := rfl
@[simp] theorem State.put_lve (s : State) (f : Fld) (v : Nat) (i : Nat) (j : Nat) : (s.put f v i j).lve = s.lve := rfl
@[simp] theorem State.put_med (s : State) (f : Fld) (v : Nat) (i : Nat) (j : Nat) : (s.put f v i j).med = s.med := rfl
@[simp] theorem State.put_hbm (s : State) (f : Fld) (v : Nat) (i : Nat) (j : Nat) : (s.put f v i j).hbm = s.hbm := rfl
@[simp] theorem State.put_spm (s : State) (f : Fld) (v : Nat) (i : Nat) (j : Nat) : (s.put f v i j).spm = s.spm := rfl
@[simp] theorem State.put_cry (s : State) (f : Fld) (v : Nat) (i : Nat) (j : Nat) : (s.put f v i j).cry = s.cry := rfl
@[simp] theorem State.put_noc (s : State) (f : Fld) (v : Nat) (i : Nat) (j : Nat) : (s.put f v i j).noc = s.noc := rfl
@[simp] theorem State.put_fab (s : State) (f : Fld) (v : Nat) (i : Nat) (j : Nat) : (s.put f v i j).fab = s.fab := rfl
@[simp] theorem State.put_pwr (s : State) (f : Fld) (v : Nat) (i : Nat) (j : Nat) : (s.put f v i j).pwr = s.pwr := rfl
@[simp] theorem State.put_sl (s : State) (f : Fld) (v : Nat) (i : Nat) (j : Nat) : (s.put f v i j).sl = s.sl := rfl
@[simp] theorem State.put_cru (s : State) (f : Fld) (v : Nat) (i : Nat) (j : Nat) : (s.put f v i j).cru = s.cru := rfl
@[simp] theorem State.put_lanes (s : State) (f : Fld) (v : Nat) (i : Nat) (j : Nat) : (s.put f v i j).lanes = s.lanes := rfl
@[simp] theorem State.put_clk (s : State) (f : Fld) (v : Nat) (i : Nat) (j : Nat) : (s.put f v i j).clk = s.clk := rfl
@[simp] theorem State.put_tap (s : State) (f : Fld) (v : Nat) (i : Nat) (j : Nat) : (s.put f v i j).tap = s.tap := rfl

/-! `State.flag` -/

@[simp] theorem State.flag_pending (s : State) (f : Fld) (b : Bool) (i : Nat) (j : Nat) : (s.flag f b i j).pending = s.pending := rfl
@[simp] theorem State.flag_shadow (s : State) (f : Fld) (b : Bool) (i : Nat) (j : Nat) : (s.flag f b i j).shadow = s.shadow := rfl
@[simp] theorem State.flag_stage (s : State) (f : Fld) (b : Bool) (i : Nat) (j : Nat) : (s.flag f b i j).stage = s.stage := rfl
@[simp] theorem State.flag_time (s : State) (f : Fld) (b : Bool) (i : Nat) (j : Nat) : (s.flag f b i j).time = s.time := rfl
@[simp] theorem State.flag_fresh (s : State) (f : Fld) (b : Bool) (i : Nat) (j : Nat) : (s.flag f b i j).fresh = s.fresh := rfl
@[simp] theorem State.flag_out (s : State) (f : Fld) (b : Bool) (i : Nat) (j : Nat) : (s.flag f b i j).out = s.out := rfl
@[simp] theorem State.flag_fuses (s : State) (f : Fld) (b : Bool) (i : Nat) (j : Nat) : (s.flag f b i j).fuses = s.fuses := rfl
@[simp] theorem State.flag_evt (s : State) (f : Fld) (b : Bool) (i : Nat) (j : Nat) : (s.flag f b i j).evt = s.evt := rfl
@[simp] theorem State.flag_gens (s : State) (f : Fld) (b : Bool) (i : Nat) (j : Nat) : (s.flag f b i j).gens = s.gens := rfl
@[simp] theorem State.flag_qqp (s : State) (f : Fld) (b : Bool) (i : Nat) (j : Nat) : (s.flag f b i j).qqp = s.qqp := rfl
@[simp] theorem State.flag_tly (s : State) (f : Fld) (b : Bool) (i : Nat) (j : Nat) : (s.flag f b i j).tly = s.tly := rfl
@[simp] theorem State.flag_dck (s : State) (f : Fld) (b : Bool) (i : Nat) (j : Nat) : (s.flag f b i j).dck = s.dck := rfl
@[simp] theorem State.flag_pci (s : State) (f : Fld) (b : Bool) (i : Nat) (j : Nat) : (s.flag f b i j).pci = s.pci := rfl
@[simp] theorem State.flag_cfg (s : State) (f : Fld) (b : Bool) (i : Nat) (j : Nat) : (s.flag f b i j).cfg = s.cfg := rfl
@[simp] theorem State.flag_lve (s : State) (f : Fld) (b : Bool) (i : Nat) (j : Nat) : (s.flag f b i j).lve = s.lve := rfl
@[simp] theorem State.flag_med (s : State) (f : Fld) (b : Bool) (i : Nat) (j : Nat) : (s.flag f b i j).med = s.med := rfl
@[simp] theorem State.flag_hbm (s : State) (f : Fld) (b : Bool) (i : Nat) (j : Nat) : (s.flag f b i j).hbm = s.hbm := rfl
@[simp] theorem State.flag_spm (s : State) (f : Fld) (b : Bool) (i : Nat) (j : Nat) : (s.flag f b i j).spm = s.spm := rfl
@[simp] theorem State.flag_cry (s : State) (f : Fld) (b : Bool) (i : Nat) (j : Nat) : (s.flag f b i j).cry = s.cry := rfl
@[simp] theorem State.flag_noc (s : State) (f : Fld) (b : Bool) (i : Nat) (j : Nat) : (s.flag f b i j).noc = s.noc := rfl
@[simp] theorem State.flag_fab (s : State) (f : Fld) (b : Bool) (i : Nat) (j : Nat) : (s.flag f b i j).fab = s.fab := rfl
@[simp] theorem State.flag_pwr (s : State) (f : Fld) (b : Bool) (i : Nat) (j : Nat) : (s.flag f b i j).pwr = s.pwr := rfl
@[simp] theorem State.flag_sl (s : State) (f : Fld) (b : Bool) (i : Nat) (j : Nat) : (s.flag f b i j).sl = s.sl := rfl
@[simp] theorem State.flag_cru (s : State) (f : Fld) (b : Bool) (i : Nat) (j : Nat) : (s.flag f b i j).cru = s.cru := rfl
@[simp] theorem State.flag_lanes (s : State) (f : Fld) (b : Bool) (i : Nat) (j : Nat) : (s.flag f b i j).lanes = s.lanes := rfl
@[simp] theorem State.flag_clk (s : State) (f : Fld) (b : Bool) (i : Nat) (j : Nat) : (s.flag f b i j).clk = s.clk := rfl
@[simp] theorem State.flag_tap (s : State) (f : Fld) (b : Bool) (i : Nat) (j : Nat) : (s.flag f b i j).tap = s.tap := rfl

/-! `State.bump` -/

@[simp] theorem State.bump_pending (s : State) (f : Fld) (n : Nat) (i : Nat) (j : Nat) : (s.bump f n i j).pending = s.pending := rfl
@[simp] theorem State.bump_shadow (s : State) (f : Fld) (n : Nat) (i : Nat) (j : Nat) : (s.bump f n i j).shadow = s.shadow := rfl
@[simp] theorem State.bump_stage (s : State) (f : Fld) (n : Nat) (i : Nat) (j : Nat) : (s.bump f n i j).stage = s.stage := rfl
@[simp] theorem State.bump_time (s : State) (f : Fld) (n : Nat) (i : Nat) (j : Nat) : (s.bump f n i j).time = s.time := rfl
@[simp] theorem State.bump_fresh (s : State) (f : Fld) (n : Nat) (i : Nat) (j : Nat) : (s.bump f n i j).fresh = s.fresh := rfl
@[simp] theorem State.bump_out (s : State) (f : Fld) (n : Nat) (i : Nat) (j : Nat) : (s.bump f n i j).out = s.out := rfl
@[simp] theorem State.bump_fuses (s : State) (f : Fld) (n : Nat) (i : Nat) (j : Nat) : (s.bump f n i j).fuses = s.fuses := rfl
@[simp] theorem State.bump_evt (s : State) (f : Fld) (n : Nat) (i : Nat) (j : Nat) : (s.bump f n i j).evt = s.evt := rfl
@[simp] theorem State.bump_gens (s : State) (f : Fld) (n : Nat) (i : Nat) (j : Nat) : (s.bump f n i j).gens = s.gens := rfl
@[simp] theorem State.bump_qqp (s : State) (f : Fld) (n : Nat) (i : Nat) (j : Nat) : (s.bump f n i j).qqp = s.qqp := rfl
@[simp] theorem State.bump_tly (s : State) (f : Fld) (n : Nat) (i : Nat) (j : Nat) : (s.bump f n i j).tly = s.tly := rfl
@[simp] theorem State.bump_dck (s : State) (f : Fld) (n : Nat) (i : Nat) (j : Nat) : (s.bump f n i j).dck = s.dck := rfl
@[simp] theorem State.bump_pci (s : State) (f : Fld) (n : Nat) (i : Nat) (j : Nat) : (s.bump f n i j).pci = s.pci := rfl
@[simp] theorem State.bump_cfg (s : State) (f : Fld) (n : Nat) (i : Nat) (j : Nat) : (s.bump f n i j).cfg = s.cfg := rfl
@[simp] theorem State.bump_lve (s : State) (f : Fld) (n : Nat) (i : Nat) (j : Nat) : (s.bump f n i j).lve = s.lve := rfl
@[simp] theorem State.bump_med (s : State) (f : Fld) (n : Nat) (i : Nat) (j : Nat) : (s.bump f n i j).med = s.med := rfl
@[simp] theorem State.bump_hbm (s : State) (f : Fld) (n : Nat) (i : Nat) (j : Nat) : (s.bump f n i j).hbm = s.hbm := rfl
@[simp] theorem State.bump_spm (s : State) (f : Fld) (n : Nat) (i : Nat) (j : Nat) : (s.bump f n i j).spm = s.spm := rfl
@[simp] theorem State.bump_cry (s : State) (f : Fld) (n : Nat) (i : Nat) (j : Nat) : (s.bump f n i j).cry = s.cry := rfl
@[simp] theorem State.bump_noc (s : State) (f : Fld) (n : Nat) (i : Nat) (j : Nat) : (s.bump f n i j).noc = s.noc := rfl
@[simp] theorem State.bump_fab (s : State) (f : Fld) (n : Nat) (i : Nat) (j : Nat) : (s.bump f n i j).fab = s.fab := rfl
@[simp] theorem State.bump_pwr (s : State) (f : Fld) (n : Nat) (i : Nat) (j : Nat) : (s.bump f n i j).pwr = s.pwr := rfl
@[simp] theorem State.bump_sl (s : State) (f : Fld) (n : Nat) (i : Nat) (j : Nat) : (s.bump f n i j).sl = s.sl := rfl
@[simp] theorem State.bump_cru (s : State) (f : Fld) (n : Nat) (i : Nat) (j : Nat) : (s.bump f n i j).cru = s.cru := rfl
@[simp] theorem State.bump_lanes (s : State) (f : Fld) (n : Nat) (i : Nat) (j : Nat) : (s.bump f n i j).lanes = s.lanes := rfl
@[simp] theorem State.bump_clk (s : State) (f : Fld) (n : Nat) (i : Nat) (j : Nat) : (s.bump f n i j).clk = s.clk := rfl
@[simp] theorem State.bump_tap (s : State) (f : Fld) (n : Nat) (i : Nat) (j : Nat) : (s.bump f n i j).tap = s.tap := rfl

/-! `State.drop` -/

@[simp] theorem State.drop_pending (s : State) (f : Fld) (n : Nat) (i : Nat) (j : Nat) : (s.drop f n i j).pending = s.pending := rfl
@[simp] theorem State.drop_shadow (s : State) (f : Fld) (n : Nat) (i : Nat) (j : Nat) : (s.drop f n i j).shadow = s.shadow := rfl
@[simp] theorem State.drop_stage (s : State) (f : Fld) (n : Nat) (i : Nat) (j : Nat) : (s.drop f n i j).stage = s.stage := rfl
@[simp] theorem State.drop_time (s : State) (f : Fld) (n : Nat) (i : Nat) (j : Nat) : (s.drop f n i j).time = s.time := rfl
@[simp] theorem State.drop_fresh (s : State) (f : Fld) (n : Nat) (i : Nat) (j : Nat) : (s.drop f n i j).fresh = s.fresh := rfl
@[simp] theorem State.drop_out (s : State) (f : Fld) (n : Nat) (i : Nat) (j : Nat) : (s.drop f n i j).out = s.out := rfl
@[simp] theorem State.drop_fuses (s : State) (f : Fld) (n : Nat) (i : Nat) (j : Nat) : (s.drop f n i j).fuses = s.fuses := rfl
@[simp] theorem State.drop_evt (s : State) (f : Fld) (n : Nat) (i : Nat) (j : Nat) : (s.drop f n i j).evt = s.evt := rfl
@[simp] theorem State.drop_gens (s : State) (f : Fld) (n : Nat) (i : Nat) (j : Nat) : (s.drop f n i j).gens = s.gens := rfl
@[simp] theorem State.drop_qqp (s : State) (f : Fld) (n : Nat) (i : Nat) (j : Nat) : (s.drop f n i j).qqp = s.qqp := rfl
@[simp] theorem State.drop_tly (s : State) (f : Fld) (n : Nat) (i : Nat) (j : Nat) : (s.drop f n i j).tly = s.tly := rfl
@[simp] theorem State.drop_dck (s : State) (f : Fld) (n : Nat) (i : Nat) (j : Nat) : (s.drop f n i j).dck = s.dck := rfl
@[simp] theorem State.drop_pci (s : State) (f : Fld) (n : Nat) (i : Nat) (j : Nat) : (s.drop f n i j).pci = s.pci := rfl
@[simp] theorem State.drop_cfg (s : State) (f : Fld) (n : Nat) (i : Nat) (j : Nat) : (s.drop f n i j).cfg = s.cfg := rfl
@[simp] theorem State.drop_lve (s : State) (f : Fld) (n : Nat) (i : Nat) (j : Nat) : (s.drop f n i j).lve = s.lve := rfl
@[simp] theorem State.drop_med (s : State) (f : Fld) (n : Nat) (i : Nat) (j : Nat) : (s.drop f n i j).med = s.med := rfl
@[simp] theorem State.drop_hbm (s : State) (f : Fld) (n : Nat) (i : Nat) (j : Nat) : (s.drop f n i j).hbm = s.hbm := rfl
@[simp] theorem State.drop_spm (s : State) (f : Fld) (n : Nat) (i : Nat) (j : Nat) : (s.drop f n i j).spm = s.spm := rfl
@[simp] theorem State.drop_cry (s : State) (f : Fld) (n : Nat) (i : Nat) (j : Nat) : (s.drop f n i j).cry = s.cry := rfl
@[simp] theorem State.drop_noc (s : State) (f : Fld) (n : Nat) (i : Nat) (j : Nat) : (s.drop f n i j).noc = s.noc := rfl
@[simp] theorem State.drop_fab (s : State) (f : Fld) (n : Nat) (i : Nat) (j : Nat) : (s.drop f n i j).fab = s.fab := rfl
@[simp] theorem State.drop_pwr (s : State) (f : Fld) (n : Nat) (i : Nat) (j : Nat) : (s.drop f n i j).pwr = s.pwr := rfl
@[simp] theorem State.drop_sl (s : State) (f : Fld) (n : Nat) (i : Nat) (j : Nat) : (s.drop f n i j).sl = s.sl := rfl
@[simp] theorem State.drop_cru (s : State) (f : Fld) (n : Nat) (i : Nat) (j : Nat) : (s.drop f n i j).cru = s.cru := rfl
@[simp] theorem State.drop_lanes (s : State) (f : Fld) (n : Nat) (i : Nat) (j : Nat) : (s.drop f n i j).lanes = s.lanes := rfl
@[simp] theorem State.drop_clk (s : State) (f : Fld) (n : Nat) (i : Nat) (j : Nat) : (s.drop f n i j).clk = s.clk := rfl
@[simp] theorem State.drop_tap (s : State) (f : Fld) (n : Nat) (i : Nat) (j : Nat) : (s.drop f n i j).tap = s.tap := rfl

/-! `State.raise` -/

@[simp] theorem State.raise_pending (s : State) (f : Fld) (v : Nat) (i : Nat) (j : Nat) : (s.raise f v i j).pending = s.pending := rfl
@[simp] theorem State.raise_shadow (s : State) (f : Fld) (v : Nat) (i : Nat) (j : Nat) : (s.raise f v i j).shadow = s.shadow := rfl
@[simp] theorem State.raise_stage (s : State) (f : Fld) (v : Nat) (i : Nat) (j : Nat) : (s.raise f v i j).stage = s.stage := rfl
@[simp] theorem State.raise_time (s : State) (f : Fld) (v : Nat) (i : Nat) (j : Nat) : (s.raise f v i j).time = s.time := rfl
@[simp] theorem State.raise_fresh (s : State) (f : Fld) (v : Nat) (i : Nat) (j : Nat) : (s.raise f v i j).fresh = s.fresh := rfl
@[simp] theorem State.raise_out (s : State) (f : Fld) (v : Nat) (i : Nat) (j : Nat) : (s.raise f v i j).out = s.out := rfl
@[simp] theorem State.raise_fuses (s : State) (f : Fld) (v : Nat) (i : Nat) (j : Nat) : (s.raise f v i j).fuses = s.fuses := rfl
@[simp] theorem State.raise_evt (s : State) (f : Fld) (v : Nat) (i : Nat) (j : Nat) : (s.raise f v i j).evt = s.evt := rfl
@[simp] theorem State.raise_gens (s : State) (f : Fld) (v : Nat) (i : Nat) (j : Nat) : (s.raise f v i j).gens = s.gens := rfl
@[simp] theorem State.raise_qqp (s : State) (f : Fld) (v : Nat) (i : Nat) (j : Nat) : (s.raise f v i j).qqp = s.qqp := rfl
@[simp] theorem State.raise_tly (s : State) (f : Fld) (v : Nat) (i : Nat) (j : Nat) : (s.raise f v i j).tly = s.tly := rfl
@[simp] theorem State.raise_dck (s : State) (f : Fld) (v : Nat) (i : Nat) (j : Nat) : (s.raise f v i j).dck = s.dck := rfl
@[simp] theorem State.raise_pci (s : State) (f : Fld) (v : Nat) (i : Nat) (j : Nat) : (s.raise f v i j).pci = s.pci := rfl
@[simp] theorem State.raise_cfg (s : State) (f : Fld) (v : Nat) (i : Nat) (j : Nat) : (s.raise f v i j).cfg = s.cfg := rfl
@[simp] theorem State.raise_lve (s : State) (f : Fld) (v : Nat) (i : Nat) (j : Nat) : (s.raise f v i j).lve = s.lve := rfl
@[simp] theorem State.raise_med (s : State) (f : Fld) (v : Nat) (i : Nat) (j : Nat) : (s.raise f v i j).med = s.med := rfl
@[simp] theorem State.raise_hbm (s : State) (f : Fld) (v : Nat) (i : Nat) (j : Nat) : (s.raise f v i j).hbm = s.hbm := rfl
@[simp] theorem State.raise_spm (s : State) (f : Fld) (v : Nat) (i : Nat) (j : Nat) : (s.raise f v i j).spm = s.spm := rfl
@[simp] theorem State.raise_cry (s : State) (f : Fld) (v : Nat) (i : Nat) (j : Nat) : (s.raise f v i j).cry = s.cry := rfl
@[simp] theorem State.raise_noc (s : State) (f : Fld) (v : Nat) (i : Nat) (j : Nat) : (s.raise f v i j).noc = s.noc := rfl
@[simp] theorem State.raise_fab (s : State) (f : Fld) (v : Nat) (i : Nat) (j : Nat) : (s.raise f v i j).fab = s.fab := rfl
@[simp] theorem State.raise_pwr (s : State) (f : Fld) (v : Nat) (i : Nat) (j : Nat) : (s.raise f v i j).pwr = s.pwr := rfl
@[simp] theorem State.raise_sl (s : State) (f : Fld) (v : Nat) (i : Nat) (j : Nat) : (s.raise f v i j).sl = s.sl := rfl
@[simp] theorem State.raise_cru (s : State) (f : Fld) (v : Nat) (i : Nat) (j : Nat) : (s.raise f v i j).cru = s.cru := rfl
@[simp] theorem State.raise_lanes (s : State) (f : Fld) (v : Nat) (i : Nat) (j : Nat) : (s.raise f v i j).lanes = s.lanes := rfl
@[simp] theorem State.raise_clk (s : State) (f : Fld) (v : Nat) (i : Nat) (j : Nat) : (s.raise f v i j).clk = s.clk := rfl
@[simp] theorem State.raise_tap (s : State) (f : Fld) (v : Nat) (i : Nat) (j : Nat) : (s.raise f v i j).tap = s.tap := rfl

/-! `State.put64` -/

@[simp] theorem State.put64_pending (s : State) (lo hi : Fld) (v : Nat) (i : Nat) : (s.put64 lo hi v i).pending = s.pending := rfl
@[simp] theorem State.put64_shadow (s : State) (lo hi : Fld) (v : Nat) (i : Nat) : (s.put64 lo hi v i).shadow = s.shadow := rfl
@[simp] theorem State.put64_stage (s : State) (lo hi : Fld) (v : Nat) (i : Nat) : (s.put64 lo hi v i).stage = s.stage := rfl
@[simp] theorem State.put64_time (s : State) (lo hi : Fld) (v : Nat) (i : Nat) : (s.put64 lo hi v i).time = s.time := rfl
@[simp] theorem State.put64_fresh (s : State) (lo hi : Fld) (v : Nat) (i : Nat) : (s.put64 lo hi v i).fresh = s.fresh := rfl
@[simp] theorem State.put64_out (s : State) (lo hi : Fld) (v : Nat) (i : Nat) : (s.put64 lo hi v i).out = s.out := rfl
@[simp] theorem State.put64_fuses (s : State) (lo hi : Fld) (v : Nat) (i : Nat) : (s.put64 lo hi v i).fuses = s.fuses := rfl
@[simp] theorem State.put64_evt (s : State) (lo hi : Fld) (v : Nat) (i : Nat) : (s.put64 lo hi v i).evt = s.evt := rfl
@[simp] theorem State.put64_gens (s : State) (lo hi : Fld) (v : Nat) (i : Nat) : (s.put64 lo hi v i).gens = s.gens := rfl
@[simp] theorem State.put64_qqp (s : State) (lo hi : Fld) (v : Nat) (i : Nat) : (s.put64 lo hi v i).qqp = s.qqp := rfl
@[simp] theorem State.put64_tly (s : State) (lo hi : Fld) (v : Nat) (i : Nat) : (s.put64 lo hi v i).tly = s.tly := rfl
@[simp] theorem State.put64_dck (s : State) (lo hi : Fld) (v : Nat) (i : Nat) : (s.put64 lo hi v i).dck = s.dck := rfl
@[simp] theorem State.put64_pci (s : State) (lo hi : Fld) (v : Nat) (i : Nat) : (s.put64 lo hi v i).pci = s.pci := rfl
@[simp] theorem State.put64_cfg (s : State) (lo hi : Fld) (v : Nat) (i : Nat) : (s.put64 lo hi v i).cfg = s.cfg := rfl
@[simp] theorem State.put64_lve (s : State) (lo hi : Fld) (v : Nat) (i : Nat) : (s.put64 lo hi v i).lve = s.lve := rfl
@[simp] theorem State.put64_med (s : State) (lo hi : Fld) (v : Nat) (i : Nat) : (s.put64 lo hi v i).med = s.med := rfl
@[simp] theorem State.put64_hbm (s : State) (lo hi : Fld) (v : Nat) (i : Nat) : (s.put64 lo hi v i).hbm = s.hbm := rfl
@[simp] theorem State.put64_spm (s : State) (lo hi : Fld) (v : Nat) (i : Nat) : (s.put64 lo hi v i).spm = s.spm := rfl
@[simp] theorem State.put64_cry (s : State) (lo hi : Fld) (v : Nat) (i : Nat) : (s.put64 lo hi v i).cry = s.cry := rfl
@[simp] theorem State.put64_noc (s : State) (lo hi : Fld) (v : Nat) (i : Nat) : (s.put64 lo hi v i).noc = s.noc := rfl
@[simp] theorem State.put64_fab (s : State) (lo hi : Fld) (v : Nat) (i : Nat) : (s.put64 lo hi v i).fab = s.fab := rfl
@[simp] theorem State.put64_pwr (s : State) (lo hi : Fld) (v : Nat) (i : Nat) : (s.put64 lo hi v i).pwr = s.pwr := rfl
@[simp] theorem State.put64_sl (s : State) (lo hi : Fld) (v : Nat) (i : Nat) : (s.put64 lo hi v i).sl = s.sl := rfl
@[simp] theorem State.put64_cru (s : State) (lo hi : Fld) (v : Nat) (i : Nat) : (s.put64 lo hi v i).cru = s.cru := rfl
@[simp] theorem State.put64_lanes (s : State) (lo hi : Fld) (v : Nat) (i : Nat) : (s.put64 lo hi v i).lanes = s.lanes := rfl
@[simp] theorem State.put64_clk (s : State) (lo hi : Fld) (v : Nat) (i : Nat) : (s.put64 lo hi v i).clk = s.clk := rfl
@[simp] theorem State.put64_tap (s : State) (lo hi : Fld) (v : Nat) (i : Nat) : (s.put64 lo hi v i).tap = s.tap := rfl

/-! `State.dropRegs` -/

@[simp] theorem State.dropRegs_pending (s : State) (p : Nat → Bool) : (s.dropRegs p).pending = s.pending := rfl
@[simp] theorem State.dropRegs_regs (s : State) (p : Nat → Bool) :
    (s.dropRegs p).regs = Map.keep (fun k _ => !p (2 ^ 20 * (k / 2 ^ 40) + k % 2 ^ 40 / 32 * 4)) s.regs := rfl
@[simp] theorem State.dropRegs_shadow (s : State) (p : Nat → Bool) :
    (s.dropRegs p).shadow = Map.keep (fun k _ => !p (k % 2 ^ 40)) s.shadow := rfl
@[simp] theorem State.dropRegs_stage (s : State) (p : Nat → Bool) :
    (s.dropRegs p).stage = Map.keep (fun k _ => !p (k % 2 ^ 40)) s.stage := rfl
@[simp] theorem State.dropRegs_time (s : State) (p : Nat → Bool) : (s.dropRegs p).time = s.time := rfl
@[simp] theorem State.dropRegs_fresh (s : State) (p : Nat → Bool) : (s.dropRegs p).fresh = s.fresh := rfl
@[simp] theorem State.dropRegs_out (s : State) (p : Nat → Bool) : (s.dropRegs p).out = s.out := rfl
@[simp] theorem State.dropRegs_fuses (s : State) (p : Nat → Bool) : (s.dropRegs p).fuses = s.fuses := rfl
@[simp] theorem State.dropRegs_evt (s : State) (p : Nat → Bool) : (s.dropRegs p).evt = s.evt := rfl
@[simp] theorem State.dropRegs_gens (s : State) (p : Nat → Bool) : (s.dropRegs p).gens = s.gens := rfl
@[simp] theorem State.dropRegs_qqp (s : State) (p : Nat → Bool) : (s.dropRegs p).qqp = s.qqp := rfl
@[simp] theorem State.dropRegs_tly (s : State) (p : Nat → Bool) : (s.dropRegs p).tly = s.tly := rfl
@[simp] theorem State.dropRegs_dck (s : State) (p : Nat → Bool) : (s.dropRegs p).dck = s.dck := rfl
@[simp] theorem State.dropRegs_pci (s : State) (p : Nat → Bool) : (s.dropRegs p).pci = s.pci := rfl
@[simp] theorem State.dropRegs_cfg (s : State) (p : Nat → Bool) : (s.dropRegs p).cfg = s.cfg := rfl
@[simp] theorem State.dropRegs_lve (s : State) (p : Nat → Bool) : (s.dropRegs p).lve = s.lve := rfl
@[simp] theorem State.dropRegs_med (s : State) (p : Nat → Bool) : (s.dropRegs p).med = s.med := rfl
@[simp] theorem State.dropRegs_hbm (s : State) (p : Nat → Bool) : (s.dropRegs p).hbm = s.hbm := rfl
@[simp] theorem State.dropRegs_spm (s : State) (p : Nat → Bool) : (s.dropRegs p).spm = s.spm := rfl
@[simp] theorem State.dropRegs_cry (s : State) (p : Nat → Bool) : (s.dropRegs p).cry = s.cry := rfl
@[simp] theorem State.dropRegs_noc (s : State) (p : Nat → Bool) : (s.dropRegs p).noc = s.noc := rfl
@[simp] theorem State.dropRegs_fab (s : State) (p : Nat → Bool) : (s.dropRegs p).fab = s.fab := rfl
@[simp] theorem State.dropRegs_pwr (s : State) (p : Nat → Bool) : (s.dropRegs p).pwr = s.pwr := rfl
@[simp] theorem State.dropRegs_sl (s : State) (p : Nat → Bool) : (s.dropRegs p).sl = s.sl := rfl
@[simp] theorem State.dropRegs_cru (s : State) (p : Nat → Bool) : (s.dropRegs p).cru = s.cru := rfl
@[simp] theorem State.dropRegs_lanes (s : State) (p : Nat → Bool) : (s.dropRegs p).lanes = s.lanes := rfl
@[simp] theorem State.dropRegs_clk (s : State) (p : Nat → Bool) : (s.dropRegs p).clk = s.clk := rfl
@[simp] theorem State.dropRegs_tap (s : State) (p : Nat → Bool) : (s.dropRegs p).tap = s.tap := rfl

/-! `State.draws` -/

@[simp] theorem State.draws_pending (s : State) (n : Nat) : (s.draws n).pending = s.pending := rfl
@[simp] theorem State.draws_regs (s : State) (n : Nat) : (s.draws n).regs = s.regs := rfl
@[simp] theorem State.draws_shadow (s : State) (n : Nat) : (s.draws n).shadow = s.shadow := rfl
@[simp] theorem State.draws_stage (s : State) (n : Nat) : (s.draws n).stage = s.stage := rfl
@[simp] theorem State.draws_time (s : State) (n : Nat) : (s.draws n).time = s.time := rfl
@[simp] theorem State.draws_fresh (s : State) (n : Nat) :
    (s.draws n).fresh = s.fresh + n := rfl
@[simp] theorem State.draws_out (s : State) (n : Nat) : (s.draws n).out = s.out := rfl
@[simp] theorem State.draws_fuses (s : State) (n : Nat) : (s.draws n).fuses = s.fuses := rfl
@[simp] theorem State.draws_evt (s : State) (n : Nat) : (s.draws n).evt = s.evt := rfl
@[simp] theorem State.draws_gens (s : State) (n : Nat) : (s.draws n).gens = s.gens := rfl
@[simp] theorem State.draws_qqp (s : State) (n : Nat) : (s.draws n).qqp = s.qqp := rfl
@[simp] theorem State.draws_tly (s : State) (n : Nat) : (s.draws n).tly = s.tly := rfl
@[simp] theorem State.draws_dck (s : State) (n : Nat) : (s.draws n).dck = s.dck := rfl
@[simp] theorem State.draws_pci (s : State) (n : Nat) : (s.draws n).pci = s.pci := rfl
@[simp] theorem State.draws_cfg (s : State) (n : Nat) : (s.draws n).cfg = s.cfg := rfl
@[simp] theorem State.draws_lve (s : State) (n : Nat) : (s.draws n).lve = s.lve := rfl
@[simp] theorem State.draws_med (s : State) (n : Nat) : (s.draws n).med = s.med := rfl
@[simp] theorem State.draws_hbm (s : State) (n : Nat) : (s.draws n).hbm = s.hbm := rfl
@[simp] theorem State.draws_spm (s : State) (n : Nat) : (s.draws n).spm = s.spm := rfl
@[simp] theorem State.draws_cry (s : State) (n : Nat) : (s.draws n).cry = s.cry := rfl
@[simp] theorem State.draws_noc (s : State) (n : Nat) : (s.draws n).noc = s.noc := rfl
@[simp] theorem State.draws_fab (s : State) (n : Nat) : (s.draws n).fab = s.fab := rfl
@[simp] theorem State.draws_pwr (s : State) (n : Nat) : (s.draws n).pwr = s.pwr := rfl
@[simp] theorem State.draws_sl (s : State) (n : Nat) : (s.draws n).sl = s.sl := rfl
@[simp] theorem State.draws_cru (s : State) (n : Nat) : (s.draws n).cru = s.cru := rfl
@[simp] theorem State.draws_lanes (s : State) (n : Nat) : (s.draws n).lanes = s.lanes := rfl
@[simp] theorem State.draws_clk (s : State) (n : Nat) : (s.draws n).clk = s.clk := rfl
@[simp] theorem State.draws_tap (s : State) (n : Nat) : (s.draws n).tap = s.tap := rfl
@[simp] theorem State.draws_rd (s : State) (n : Nat) (rf : Fld) (ri rj : Nat) : (s.draws n).rd rf ri rj = s.rd rf ri rj := rfl

/-! `State.updHline` -/

@[simp] theorem State.updHline_pending (s : State) (n : Nat) (f : MLine → MLine) : (s.updHline n f).pending = s.pending := rfl
@[simp] theorem State.updHline_regs (s : State) (n : Nat) (f : MLine → MLine) : (s.updHline n f).regs = s.regs := rfl
@[simp] theorem State.updHline_shadow (s : State) (n : Nat) (f : MLine → MLine) : (s.updHline n f).shadow = s.shadow := rfl
@[simp] theorem State.updHline_stage (s : State) (n : Nat) (f : MLine → MLine) : (s.updHline n f).stage = s.stage := rfl
@[simp] theorem State.updHline_time (s : State) (n : Nat) (f : MLine → MLine) : (s.updHline n f).time = s.time := rfl
@[simp] theorem State.updHline_fresh (s : State) (n : Nat) (f : MLine → MLine) : (s.updHline n f).fresh = s.fresh := rfl
@[simp] theorem State.updHline_out (s : State) (n : Nat) (f : MLine → MLine) : (s.updHline n f).out = s.out := rfl
@[simp] theorem State.updHline_fuses (s : State) (n : Nat) (f : MLine → MLine) : (s.updHline n f).fuses = s.fuses := rfl
@[simp] theorem State.updHline_evt (s : State) (n : Nat) (f : MLine → MLine) : (s.updHline n f).evt = s.evt := rfl
@[simp] theorem State.updHline_gens (s : State) (n : Nat) (f : MLine → MLine) : (s.updHline n f).gens = s.gens := rfl
@[simp] theorem State.updHline_qqp (s : State) (n : Nat) (f : MLine → MLine) : (s.updHline n f).qqp = s.qqp := rfl
@[simp] theorem State.updHline_tly (s : State) (n : Nat) (f : MLine → MLine) : (s.updHline n f).tly = s.tly := rfl
@[simp] theorem State.updHline_dck (s : State) (n : Nat) (f : MLine → MLine) : (s.updHline n f).dck = s.dck := rfl
@[simp] theorem State.updHline_pci (s : State) (n : Nat) (f : MLine → MLine) : (s.updHline n f).pci = s.pci := rfl
@[simp] theorem State.updHline_cfg (s : State) (n : Nat) (f : MLine → MLine) : (s.updHline n f).cfg = s.cfg := rfl
@[simp] theorem State.updHline_lve (s : State) (n : Nat) (f : MLine → MLine) : (s.updHline n f).lve = s.lve := rfl
@[simp] theorem State.updHline_med (s : State) (n : Nat) (f : MLine → MLine) : (s.updHline n f).med = s.med := rfl
@[simp] theorem State.updHline_hbm (s : State) (n : Nat) (f : MLine → MLine) :
    (s.updHline n f).hbm = { s.hbm with lines := Map.upd {} s.hbm.lines n f } := rfl
@[simp] theorem State.updHline_spm (s : State) (n : Nat) (f : MLine → MLine) : (s.updHline n f).spm = s.spm := rfl
@[simp] theorem State.updHline_cry (s : State) (n : Nat) (f : MLine → MLine) : (s.updHline n f).cry = s.cry := rfl
@[simp] theorem State.updHline_noc (s : State) (n : Nat) (f : MLine → MLine) : (s.updHline n f).noc = s.noc := rfl
@[simp] theorem State.updHline_fab (s : State) (n : Nat) (f : MLine → MLine) : (s.updHline n f).fab = s.fab := rfl
@[simp] theorem State.updHline_pwr (s : State) (n : Nat) (f : MLine → MLine) : (s.updHline n f).pwr = s.pwr := rfl
@[simp] theorem State.updHline_sl (s : State) (n : Nat) (f : MLine → MLine) : (s.updHline n f).sl = s.sl := rfl
@[simp] theorem State.updHline_cru (s : State) (n : Nat) (f : MLine → MLine) : (s.updHline n f).cru = s.cru := rfl
@[simp] theorem State.updHline_lanes (s : State) (n : Nat) (f : MLine → MLine) : (s.updHline n f).lanes = s.lanes := rfl
@[simp] theorem State.updHline_clk (s : State) (n : Nat) (f : MLine → MLine) : (s.updHline n f).clk = s.clk := rfl
@[simp] theorem State.updHline_tap (s : State) (n : Nat) (f : MLine → MLine) : (s.updHline n f).tap = s.tap := rfl
@[simp] theorem State.updHline_rd (s : State) (n : Nat) (f : MLine → MLine) (rf : Fld) (ri rj : Nat) : (s.updHline n f).rd rf ri rj = s.rd rf ri rj := rfl

/-! `State.dropHlines` -/

@[simp] theorem State.dropHlines_pending (s : State) (p : Nat → Bool) : (s.dropHlines p).pending = s.pending := rfl
@[simp] theorem State.dropHlines_regs (s : State) (p : Nat → Bool) : (s.dropHlines p).regs = s.regs := rfl
@[simp] theorem State.dropHlines_shadow (s : State) (p : Nat → Bool) : (s.dropHlines p).shadow = s.shadow := rfl
@[simp] theorem State.dropHlines_stage (s : State) (p : Nat → Bool) : (s.dropHlines p).stage = s.stage := rfl
@[simp] theorem State.dropHlines_time (s : State) (p : Nat → Bool) : (s.dropHlines p).time = s.time := rfl
@[simp] theorem State.dropHlines_fresh (s : State) (p : Nat → Bool) : (s.dropHlines p).fresh = s.fresh := rfl
@[simp] theorem State.dropHlines_out (s : State) (p : Nat → Bool) : (s.dropHlines p).out = s.out := rfl
@[simp] theorem State.dropHlines_fuses (s : State) (p : Nat → Bool) : (s.dropHlines p).fuses = s.fuses := rfl
@[simp] theorem State.dropHlines_evt (s : State) (p : Nat → Bool) : (s.dropHlines p).evt = s.evt := rfl
@[simp] theorem State.dropHlines_gens (s : State) (p : Nat → Bool) : (s.dropHlines p).gens = s.gens := rfl
@[simp] theorem State.dropHlines_qqp (s : State) (p : Nat → Bool) : (s.dropHlines p).qqp = s.qqp := rfl
@[simp] theorem State.dropHlines_tly (s : State) (p : Nat → Bool) : (s.dropHlines p).tly = s.tly := rfl
@[simp] theorem State.dropHlines_dck (s : State) (p : Nat → Bool) : (s.dropHlines p).dck = s.dck := rfl
@[simp] theorem State.dropHlines_pci (s : State) (p : Nat → Bool) : (s.dropHlines p).pci = s.pci := rfl
@[simp] theorem State.dropHlines_cfg (s : State) (p : Nat → Bool) : (s.dropHlines p).cfg = s.cfg := rfl
@[simp] theorem State.dropHlines_lve (s : State) (p : Nat → Bool) : (s.dropHlines p).lve = s.lve := rfl
@[simp] theorem State.dropHlines_med (s : State) (p : Nat → Bool) : (s.dropHlines p).med = s.med := rfl
@[simp] theorem State.dropHlines_hbm (s : State) (p : Nat → Bool) :
    (s.dropHlines p).hbm = { s.hbm with lines := Map.keep (fun n _ => !p n) s.hbm.lines } := rfl
@[simp] theorem State.dropHlines_spm (s : State) (p : Nat → Bool) : (s.dropHlines p).spm = s.spm := rfl
@[simp] theorem State.dropHlines_cry (s : State) (p : Nat → Bool) : (s.dropHlines p).cry = s.cry := rfl
@[simp] theorem State.dropHlines_noc (s : State) (p : Nat → Bool) : (s.dropHlines p).noc = s.noc := rfl
@[simp] theorem State.dropHlines_fab (s : State) (p : Nat → Bool) : (s.dropHlines p).fab = s.fab := rfl
@[simp] theorem State.dropHlines_pwr (s : State) (p : Nat → Bool) : (s.dropHlines p).pwr = s.pwr := rfl
@[simp] theorem State.dropHlines_sl (s : State) (p : Nat → Bool) : (s.dropHlines p).sl = s.sl := rfl
@[simp] theorem State.dropHlines_cru (s : State) (p : Nat → Bool) : (s.dropHlines p).cru = s.cru := rfl
@[simp] theorem State.dropHlines_lanes (s : State) (p : Nat → Bool) : (s.dropHlines p).lanes = s.lanes := rfl
@[simp] theorem State.dropHlines_clk (s : State) (p : Nat → Bool) : (s.dropHlines p).clk = s.clk := rfl
@[simp] theorem State.dropHlines_tap (s : State) (p : Nat → Bool) : (s.dropHlines p).tap = s.tap := rfl
@[simp] theorem State.dropHlines_rd (s : State) (p : Nat → Bool) (rf : Fld) (ri rj : Nat) : (s.dropHlines p).rd rf ri rj = s.rd rf ri rj := rfl

/-! `State.updSline` -/

@[simp] theorem State.updSline_pending (s : State) (b n : Nat) (f : MLine → MLine) : (s.updSline b n f).pending = s.pending := rfl
@[simp] theorem State.updSline_regs (s : State) (b n : Nat) (f : MLine → MLine) : (s.updSline b n f).regs = s.regs := rfl
@[simp] theorem State.updSline_shadow (s : State) (b n : Nat) (f : MLine → MLine) : (s.updSline b n f).shadow = s.shadow := rfl
@[simp] theorem State.updSline_stage (s : State) (b n : Nat) (f : MLine → MLine) : (s.updSline b n f).stage = s.stage := rfl
@[simp] theorem State.updSline_time (s : State) (b n : Nat) (f : MLine → MLine) : (s.updSline b n f).time = s.time := rfl
@[simp] theorem State.updSline_fresh (s : State) (b n : Nat) (f : MLine → MLine) : (s.updSline b n f).fresh = s.fresh := rfl
@[simp] theorem State.updSline_out (s : State) (b n : Nat) (f : MLine → MLine) : (s.updSline b n f).out = s.out := rfl
@[simp] theorem State.updSline_fuses (s : State) (b n : Nat) (f : MLine → MLine) : (s.updSline b n f).fuses = s.fuses := rfl
@[simp] theorem State.updSline_evt (s : State) (b n : Nat) (f : MLine → MLine) : (s.updSline b n f).evt = s.evt := rfl
@[simp] theorem State.updSline_gens (s : State) (b n : Nat) (f : MLine → MLine) : (s.updSline b n f).gens = s.gens := rfl
@[simp] theorem State.updSline_qqp (s : State) (b n : Nat) (f : MLine → MLine) : (s.updSline b n f).qqp = s.qqp := rfl
@[simp] theorem State.updSline_tly (s : State) (b n : Nat) (f : MLine → MLine) : (s.updSline b n f).tly = s.tly := rfl
@[simp] theorem State.updSline_dck (s : State) (b n : Nat) (f : MLine → MLine) : (s.updSline b n f).dck = s.dck := rfl
@[simp] theorem State.updSline_pci (s : State) (b n : Nat) (f : MLine → MLine) : (s.updSline b n f).pci = s.pci := rfl
@[simp] theorem State.updSline_cfg (s : State) (b n : Nat) (f : MLine → MLine) : (s.updSline b n f).cfg = s.cfg := rfl
@[simp] theorem State.updSline_lve (s : State) (b n : Nat) (f : MLine → MLine) : (s.updSline b n f).lve = s.lve := rfl
@[simp] theorem State.updSline_med (s : State) (b n : Nat) (f : MLine → MLine) : (s.updSline b n f).med = s.med := rfl
@[simp] theorem State.updSline_hbm (s : State) (b n : Nat) (f : MLine → MLine) : (s.updSline b n f).hbm = s.hbm := rfl
@[simp] theorem State.updSline_spm (s : State) (b n : Nat) (f : MLine → MLine) :
    (s.updSline b n f).spm = { s.spm with lines := Map.upd {} s.spm.lines (65536 * b + n) f } := rfl
@[simp] theorem State.updSline_cry (s : State) (b n : Nat) (f : MLine → MLine) : (s.updSline b n f).cry = s.cry := rfl
@[simp] theorem State.updSline_noc (s : State) (b n : Nat) (f : MLine → MLine) : (s.updSline b n f).noc = s.noc := rfl
@[simp] theorem State.updSline_fab (s : State) (b n : Nat) (f : MLine → MLine) : (s.updSline b n f).fab = s.fab := rfl
@[simp] theorem State.updSline_pwr (s : State) (b n : Nat) (f : MLine → MLine) : (s.updSline b n f).pwr = s.pwr := rfl
@[simp] theorem State.updSline_sl (s : State) (b n : Nat) (f : MLine → MLine) : (s.updSline b n f).sl = s.sl := rfl
@[simp] theorem State.updSline_cru (s : State) (b n : Nat) (f : MLine → MLine) : (s.updSline b n f).cru = s.cru := rfl
@[simp] theorem State.updSline_lanes (s : State) (b n : Nat) (f : MLine → MLine) : (s.updSline b n f).lanes = s.lanes := rfl
@[simp] theorem State.updSline_clk (s : State) (b n : Nat) (f : MLine → MLine) : (s.updSline b n f).clk = s.clk := rfl
@[simp] theorem State.updSline_tap (s : State) (b n : Nat) (f : MLine → MLine) : (s.updSline b n f).tap = s.tap := rfl
@[simp] theorem State.updSline_rd (s : State) (b n : Nat) (f : MLine → MLine) (rf : Fld) (ri rj : Nat) : (s.updSline b n f).rd rf ri rj = s.rd rf ri rj := rfl

/-! `State.updBnd` -/

@[simp] theorem State.updBnd_pending (s : State) (b : Nat) (f : Bnd → Bnd) : (s.updBnd b f).pending = s.pending := rfl
@[simp] theorem State.updBnd_regs (s : State) (b : Nat) (f : Bnd → Bnd) : (s.updBnd b f).regs = s.regs := rfl
@[simp] theorem State.updBnd_shadow (s : State) (b : Nat) (f : Bnd → Bnd) : (s.updBnd b f).shadow = s.shadow := rfl
@[simp] theorem State.updBnd_stage (s : State) (b : Nat) (f : Bnd → Bnd) : (s.updBnd b f).stage = s.stage := rfl
@[simp] theorem State.updBnd_time (s : State) (b : Nat) (f : Bnd → Bnd) : (s.updBnd b f).time = s.time := rfl
@[simp] theorem State.updBnd_fresh (s : State) (b : Nat) (f : Bnd → Bnd) : (s.updBnd b f).fresh = s.fresh := rfl
@[simp] theorem State.updBnd_out (s : State) (b : Nat) (f : Bnd → Bnd) : (s.updBnd b f).out = s.out := rfl
@[simp] theorem State.updBnd_fuses (s : State) (b : Nat) (f : Bnd → Bnd) : (s.updBnd b f).fuses = s.fuses := rfl
@[simp] theorem State.updBnd_evt (s : State) (b : Nat) (f : Bnd → Bnd) : (s.updBnd b f).evt = s.evt := rfl
@[simp] theorem State.updBnd_gens (s : State) (b : Nat) (f : Bnd → Bnd) : (s.updBnd b f).gens = s.gens := rfl
@[simp] theorem State.updBnd_qqp (s : State) (b : Nat) (f : Bnd → Bnd) : (s.updBnd b f).qqp = s.qqp := rfl
@[simp] theorem State.updBnd_tly (s : State) (b : Nat) (f : Bnd → Bnd) : (s.updBnd b f).tly = s.tly := rfl
@[simp] theorem State.updBnd_dck (s : State) (b : Nat) (f : Bnd → Bnd) : (s.updBnd b f).dck = s.dck := rfl
@[simp] theorem State.updBnd_pci (s : State) (b : Nat) (f : Bnd → Bnd) : (s.updBnd b f).pci = s.pci := rfl
@[simp] theorem State.updBnd_cfg (s : State) (b : Nat) (f : Bnd → Bnd) : (s.updBnd b f).cfg = s.cfg := rfl
@[simp] theorem State.updBnd_lve (s : State) (b : Nat) (f : Bnd → Bnd) :
    (s.updBnd b f).lve = { s.lve with bnds := Map.upd {} s.lve.bnds b f } := rfl
@[simp] theorem State.updBnd_med (s : State) (b : Nat) (f : Bnd → Bnd) : (s.updBnd b f).med = s.med := rfl
@[simp] theorem State.updBnd_hbm (s : State) (b : Nat) (f : Bnd → Bnd) : (s.updBnd b f).hbm = s.hbm := rfl
@[simp] theorem State.updBnd_spm (s : State) (b : Nat) (f : Bnd → Bnd) : (s.updBnd b f).spm = s.spm := rfl
@[simp] theorem State.updBnd_cry (s : State) (b : Nat) (f : Bnd → Bnd) : (s.updBnd b f).cry = s.cry := rfl
@[simp] theorem State.updBnd_noc (s : State) (b : Nat) (f : Bnd → Bnd) : (s.updBnd b f).noc = s.noc := rfl
@[simp] theorem State.updBnd_fab (s : State) (b : Nat) (f : Bnd → Bnd) : (s.updBnd b f).fab = s.fab := rfl
@[simp] theorem State.updBnd_pwr (s : State) (b : Nat) (f : Bnd → Bnd) : (s.updBnd b f).pwr = s.pwr := rfl
@[simp] theorem State.updBnd_sl (s : State) (b : Nat) (f : Bnd → Bnd) : (s.updBnd b f).sl = s.sl := rfl
@[simp] theorem State.updBnd_cru (s : State) (b : Nat) (f : Bnd → Bnd) : (s.updBnd b f).cru = s.cru := rfl
@[simp] theorem State.updBnd_lanes (s : State) (b : Nat) (f : Bnd → Bnd) : (s.updBnd b f).lanes = s.lanes := rfl
@[simp] theorem State.updBnd_clk (s : State) (b : Nat) (f : Bnd → Bnd) : (s.updBnd b f).clk = s.clk := rfl
@[simp] theorem State.updBnd_tap (s : State) (b : Nat) (f : Bnd → Bnd) : (s.updBnd b f).tap = s.tap := rfl
@[simp] theorem State.updBnd_rd (s : State) (b : Nat) (f : Bnd → Bnd) (rf : Fld) (ri rj : Nat) : (s.updBnd b f).rd rf ri rj = s.rd rf ri rj := rfl

/-! `State.updLane` -/

@[simp] theorem State.updLane_pending (s : State) (l : Nat) (f : Lane → Lane) : (s.updLane l f).pending = s.pending := rfl
@[simp] theorem State.updLane_regs (s : State) (l : Nat) (f : Lane → Lane) : (s.updLane l f).regs = s.regs := rfl
@[simp] theorem State.updLane_shadow (s : State) (l : Nat) (f : Lane → Lane) : (s.updLane l f).shadow = s.shadow := rfl
@[simp] theorem State.updLane_stage (s : State) (l : Nat) (f : Lane → Lane) : (s.updLane l f).stage = s.stage := rfl
@[simp] theorem State.updLane_time (s : State) (l : Nat) (f : Lane → Lane) : (s.updLane l f).time = s.time := rfl
@[simp] theorem State.updLane_fresh (s : State) (l : Nat) (f : Lane → Lane) : (s.updLane l f).fresh = s.fresh := rfl
@[simp] theorem State.updLane_out (s : State) (l : Nat) (f : Lane → Lane) : (s.updLane l f).out = s.out := rfl
@[simp] theorem State.updLane_fuses (s : State) (l : Nat) (f : Lane → Lane) : (s.updLane l f).fuses = s.fuses := rfl
@[simp] theorem State.updLane_evt (s : State) (l : Nat) (f : Lane → Lane) : (s.updLane l f).evt = s.evt := rfl
@[simp] theorem State.updLane_gens (s : State) (l : Nat) (f : Lane → Lane) : (s.updLane l f).gens = s.gens := rfl
@[simp] theorem State.updLane_qqp (s : State) (l : Nat) (f : Lane → Lane) : (s.updLane l f).qqp = s.qqp := rfl
@[simp] theorem State.updLane_tly (s : State) (l : Nat) (f : Lane → Lane) : (s.updLane l f).tly = s.tly := rfl
@[simp] theorem State.updLane_dck (s : State) (l : Nat) (f : Lane → Lane) : (s.updLane l f).dck = s.dck := rfl
@[simp] theorem State.updLane_pci (s : State) (l : Nat) (f : Lane → Lane) : (s.updLane l f).pci = s.pci := rfl
@[simp] theorem State.updLane_cfg (s : State) (l : Nat) (f : Lane → Lane) : (s.updLane l f).cfg = s.cfg := rfl
@[simp] theorem State.updLane_lve (s : State) (l : Nat) (f : Lane → Lane) : (s.updLane l f).lve = s.lve := rfl
@[simp] theorem State.updLane_med (s : State) (l : Nat) (f : Lane → Lane) : (s.updLane l f).med = s.med := rfl
@[simp] theorem State.updLane_hbm (s : State) (l : Nat) (f : Lane → Lane) : (s.updLane l f).hbm = s.hbm := rfl
@[simp] theorem State.updLane_spm (s : State) (l : Nat) (f : Lane → Lane) : (s.updLane l f).spm = s.spm := rfl
@[simp] theorem State.updLane_cry (s : State) (l : Nat) (f : Lane → Lane) : (s.updLane l f).cry = s.cry := rfl
@[simp] theorem State.updLane_noc (s : State) (l : Nat) (f : Lane → Lane) : (s.updLane l f).noc = s.noc := rfl
@[simp] theorem State.updLane_fab (s : State) (l : Nat) (f : Lane → Lane) : (s.updLane l f).fab = s.fab := rfl
@[simp] theorem State.updLane_pwr (s : State) (l : Nat) (f : Lane → Lane) : (s.updLane l f).pwr = s.pwr := rfl
@[simp] theorem State.updLane_sl (s : State) (l : Nat) (f : Lane → Lane) : (s.updLane l f).sl = s.sl := rfl
@[simp] theorem State.updLane_cru (s : State) (l : Nat) (f : Lane → Lane) : (s.updLane l f).cru = s.cru := rfl
@[simp] theorem State.updLane_lanes (s : State) (l : Nat) (f : Lane → Lane) :
    (s.updLane l f).lanes = Map.upd {} s.lanes l f := rfl
@[simp] theorem State.updLane_clk (s : State) (l : Nat) (f : Lane → Lane) : (s.updLane l f).clk = s.clk := rfl
@[simp] theorem State.updLane_tap (s : State) (l : Nat) (f : Lane → Lane) : (s.updLane l f).tap = s.tap := rfl
@[simp] theorem State.updLane_rd (s : State) (l : Nat) (f : Lane → Lane) (rf : Fld) (ri rj : Nat) : (s.updLane l f).rd rf ri rj = s.rd rf ri rj := rfl

/-! `State.updChan` -/

@[simp] theorem State.updChan_pending (s : State) (ch : Nat) (f : Chan → Chan) : (s.updChan ch f).pending = s.pending := rfl
@[simp] theorem State.updChan_regs (s : State) (ch : Nat) (f : Chan → Chan) : (s.updChan ch f).regs = s.regs := rfl
@[simp] theorem State.updChan_shadow (s : State) (ch : Nat) (f : Chan → Chan) : (s.updChan ch f).shadow = s.shadow := rfl
@[simp] theorem State.updChan_stage (s : State) (ch : Nat) (f : Chan → Chan) : (s.updChan ch f).stage = s.stage := rfl
@[simp] theorem State.updChan_time (s : State) (ch : Nat) (f : Chan → Chan) : (s.updChan ch f).time = s.time := rfl
@[simp] theorem State.updChan_fresh (s : State) (ch : Nat) (f : Chan → Chan) : (s.updChan ch f).fresh = s.fresh := rfl
@[simp] theorem State.updChan_out (s : State) (ch : Nat) (f : Chan → Chan) : (s.updChan ch f).out = s.out := rfl
@[simp] theorem State.updChan_fuses (s : State) (ch : Nat) (f : Chan → Chan) : (s.updChan ch f).fuses = s.fuses := rfl
@[simp] theorem State.updChan_evt (s : State) (ch : Nat) (f : Chan → Chan) : (s.updChan ch f).evt = s.evt := rfl
@[simp] theorem State.updChan_gens (s : State) (ch : Nat) (f : Chan → Chan) : (s.updChan ch f).gens = s.gens := rfl
@[simp] theorem State.updChan_qqp (s : State) (ch : Nat) (f : Chan → Chan) : (s.updChan ch f).qqp = s.qqp := rfl
@[simp] theorem State.updChan_tly (s : State) (ch : Nat) (f : Chan → Chan) : (s.updChan ch f).tly = s.tly := rfl
@[simp] theorem State.updChan_dck (s : State) (ch : Nat) (f : Chan → Chan) : (s.updChan ch f).dck = s.dck := rfl
@[simp] theorem State.updChan_pci (s : State) (ch : Nat) (f : Chan → Chan) : (s.updChan ch f).pci = s.pci := rfl
@[simp] theorem State.updChan_cfg (s : State) (ch : Nat) (f : Chan → Chan) : (s.updChan ch f).cfg = s.cfg := rfl
@[simp] theorem State.updChan_lve (s : State) (ch : Nat) (f : Chan → Chan) : (s.updChan ch f).lve = s.lve := rfl
@[simp] theorem State.updChan_med (s : State) (ch : Nat) (f : Chan → Chan) :
    (s.updChan ch f).med = { s.med with chans := Map.upd {} s.med.chans ch f } := rfl
@[simp] theorem State.updChan_hbm (s : State) (ch : Nat) (f : Chan → Chan) : (s.updChan ch f).hbm = s.hbm := rfl
@[simp] theorem State.updChan_spm (s : State) (ch : Nat) (f : Chan → Chan) : (s.updChan ch f).spm = s.spm := rfl
@[simp] theorem State.updChan_cry (s : State) (ch : Nat) (f : Chan → Chan) : (s.updChan ch f).cry = s.cry := rfl
@[simp] theorem State.updChan_noc (s : State) (ch : Nat) (f : Chan → Chan) : (s.updChan ch f).noc = s.noc := rfl
@[simp] theorem State.updChan_fab (s : State) (ch : Nat) (f : Chan → Chan) : (s.updChan ch f).fab = s.fab := rfl
@[simp] theorem State.updChan_pwr (s : State) (ch : Nat) (f : Chan → Chan) : (s.updChan ch f).pwr = s.pwr := rfl
@[simp] theorem State.updChan_sl (s : State) (ch : Nat) (f : Chan → Chan) : (s.updChan ch f).sl = s.sl := rfl
@[simp] theorem State.updChan_cru (s : State) (ch : Nat) (f : Chan → Chan) : (s.updChan ch f).cru = s.cru := rfl
@[simp] theorem State.updChan_lanes (s : State) (ch : Nat) (f : Chan → Chan) : (s.updChan ch f).lanes = s.lanes := rfl
@[simp] theorem State.updChan_clk (s : State) (ch : Nat) (f : Chan → Chan) : (s.updChan ch f).clk = s.clk := rfl
@[simp] theorem State.updChan_tap (s : State) (ch : Nat) (f : Chan → Chan) : (s.updChan ch f).tap = s.tap := rfl
@[simp] theorem State.updChan_rd (s : State) (ch : Nat) (f : Chan → Chan) (rf : Fld) (ri rj : Nat) : (s.updChan ch f).rd rf ri rj = s.rd rf ri rj := rfl

/-! `State.updGrp` -/

@[simp] theorem State.updGrp_pending (s : State) (g : Nat) (f : Grp → Grp) : (s.updGrp g f).pending = s.pending := rfl
@[simp] theorem State.updGrp_regs (s : State) (g : Nat) (f : Grp → Grp) : (s.updGrp g f).regs = s.regs := rfl
@[simp] theorem State.updGrp_shadow (s : State) (g : Nat) (f : Grp → Grp) : (s.updGrp g f).shadow = s.shadow := rfl
@[simp] theorem State.updGrp_stage (s : State) (g : Nat) (f : Grp → Grp) : (s.updGrp g f).stage = s.stage := rfl
@[simp] theorem State.updGrp_time (s : State) (g : Nat) (f : Grp → Grp) : (s.updGrp g f).time = s.time := rfl
@[simp] theorem State.updGrp_fresh (s : State) (g : Nat) (f : Grp → Grp) : (s.updGrp g f).fresh = s.fresh := rfl
@[simp] theorem State.updGrp_out (s : State) (g : Nat) (f : Grp → Grp) : (s.updGrp g f).out = s.out := rfl
@[simp] theorem State.updGrp_fuses (s : State) (g : Nat) (f : Grp → Grp) : (s.updGrp g f).fuses = s.fuses := rfl
@[simp] theorem State.updGrp_evt (s : State) (g : Nat) (f : Grp → Grp) : (s.updGrp g f).evt = s.evt := rfl
@[simp] theorem State.updGrp_gens (s : State) (g : Nat) (f : Grp → Grp) : (s.updGrp g f).gens = s.gens := rfl
@[simp] theorem State.updGrp_qqp (s : State) (g : Nat) (f : Grp → Grp) : (s.updGrp g f).qqp = s.qqp := rfl
@[simp] theorem State.updGrp_tly (s : State) (g : Nat) (f : Grp → Grp) : (s.updGrp g f).tly = s.tly := rfl
@[simp] theorem State.updGrp_dck (s : State) (g : Nat) (f : Grp → Grp) : (s.updGrp g f).dck = s.dck := rfl
@[simp] theorem State.updGrp_pci (s : State) (g : Nat) (f : Grp → Grp) : (s.updGrp g f).pci = s.pci := rfl
@[simp] theorem State.updGrp_cfg (s : State) (g : Nat) (f : Grp → Grp) : (s.updGrp g f).cfg = s.cfg := rfl
@[simp] theorem State.updGrp_lve (s : State) (g : Nat) (f : Grp → Grp) : (s.updGrp g f).lve = s.lve := rfl
@[simp] theorem State.updGrp_med (s : State) (g : Nat) (f : Grp → Grp) :
    (s.updGrp g f).med = { s.med with grps := Map.upd {} s.med.grps g f } := rfl
@[simp] theorem State.updGrp_hbm (s : State) (g : Nat) (f : Grp → Grp) : (s.updGrp g f).hbm = s.hbm := rfl
@[simp] theorem State.updGrp_spm (s : State) (g : Nat) (f : Grp → Grp) : (s.updGrp g f).spm = s.spm := rfl
@[simp] theorem State.updGrp_cry (s : State) (g : Nat) (f : Grp → Grp) : (s.updGrp g f).cry = s.cry := rfl
@[simp] theorem State.updGrp_noc (s : State) (g : Nat) (f : Grp → Grp) : (s.updGrp g f).noc = s.noc := rfl
@[simp] theorem State.updGrp_fab (s : State) (g : Nat) (f : Grp → Grp) : (s.updGrp g f).fab = s.fab := rfl
@[simp] theorem State.updGrp_pwr (s : State) (g : Nat) (f : Grp → Grp) : (s.updGrp g f).pwr = s.pwr := rfl
@[simp] theorem State.updGrp_sl (s : State) (g : Nat) (f : Grp → Grp) : (s.updGrp g f).sl = s.sl := rfl
@[simp] theorem State.updGrp_cru (s : State) (g : Nat) (f : Grp → Grp) : (s.updGrp g f).cru = s.cru := rfl
@[simp] theorem State.updGrp_lanes (s : State) (g : Nat) (f : Grp → Grp) : (s.updGrp g f).lanes = s.lanes := rfl
@[simp] theorem State.updGrp_clk (s : State) (g : Nat) (f : Grp → Grp) : (s.updGrp g f).clk = s.clk := rfl
@[simp] theorem State.updGrp_tap (s : State) (g : Nat) (f : Grp → Grp) : (s.updGrp g f).tap = s.tap := rfl
@[simp] theorem State.updGrp_rd (s : State) (g : Nat) (f : Grp → Grp) (rf : Fld) (ri rj : Nat) : (s.updGrp g f).rd rf ri rj = s.rd rf ri rj := rfl

/-! `State.updLun` -/

@[simp] theorem State.updLun_pending (s : State) (ch u : Nat) (f : Lun → Lun) : (s.updLun ch u f).pending = s.pending := rfl
@[simp] theorem State.updLun_regs (s : State) (ch u : Nat) (f : Lun → Lun) : (s.updLun ch u f).regs = s.regs := rfl
@[simp] theorem State.updLun_shadow (s : State) (ch u : Nat) (f : Lun → Lun) : (s.updLun ch u f).shadow = s.shadow := rfl
@[simp] theorem State.updLun_stage (s : State) (ch u : Nat) (f : Lun → Lun) : (s.updLun ch u f).stage = s.stage := rfl
@[simp] theorem State.updLun_time (s : State) (ch u : Nat) (f : Lun → Lun) : (s.updLun ch u f).time = s.time := rfl
@[simp] theorem State.updLun_fresh (s : State) (ch u : Nat) (f : Lun → Lun) : (s.updLun ch u f).fresh = s.fresh := rfl
@[simp] theorem State.updLun_out (s : State) (ch u : Nat) (f : Lun → Lun) : (s.updLun ch u f).out = s.out := rfl
@[simp] theorem State.updLun_fuses (s : State) (ch u : Nat) (f : Lun → Lun) : (s.updLun ch u f).fuses = s.fuses := rfl
@[simp] theorem State.updLun_evt (s : State) (ch u : Nat) (f : Lun → Lun) : (s.updLun ch u f).evt = s.evt := rfl
@[simp] theorem State.updLun_gens (s : State) (ch u : Nat) (f : Lun → Lun) : (s.updLun ch u f).gens = s.gens := rfl
@[simp] theorem State.updLun_qqp (s : State) (ch u : Nat) (f : Lun → Lun) : (s.updLun ch u f).qqp = s.qqp := rfl
@[simp] theorem State.updLun_tly (s : State) (ch u : Nat) (f : Lun → Lun) : (s.updLun ch u f).tly = s.tly := rfl
@[simp] theorem State.updLun_dck (s : State) (ch u : Nat) (f : Lun → Lun) : (s.updLun ch u f).dck = s.dck := rfl
@[simp] theorem State.updLun_pci (s : State) (ch u : Nat) (f : Lun → Lun) : (s.updLun ch u f).pci = s.pci := rfl
@[simp] theorem State.updLun_cfg (s : State) (ch u : Nat) (f : Lun → Lun) : (s.updLun ch u f).cfg = s.cfg := rfl
@[simp] theorem State.updLun_lve (s : State) (ch u : Nat) (f : Lun → Lun) : (s.updLun ch u f).lve = s.lve := rfl
@[simp] theorem State.updLun_med (s : State) (ch u : Nat) (f : Lun → Lun) :
    (s.updLun ch u f).med = { s.med with luns := Map.upd {} s.med.luns (64 * ch + u) f } := rfl
@[simp] theorem State.updLun_hbm (s : State) (ch u : Nat) (f : Lun → Lun) : (s.updLun ch u f).hbm = s.hbm := rfl
@[simp] theorem State.updLun_spm (s : State) (ch u : Nat) (f : Lun → Lun) : (s.updLun ch u f).spm = s.spm := rfl
@[simp] theorem State.updLun_cry (s : State) (ch u : Nat) (f : Lun → Lun) : (s.updLun ch u f).cry = s.cry := rfl
@[simp] theorem State.updLun_noc (s : State) (ch u : Nat) (f : Lun → Lun) : (s.updLun ch u f).noc = s.noc := rfl
@[simp] theorem State.updLun_fab (s : State) (ch u : Nat) (f : Lun → Lun) : (s.updLun ch u f).fab = s.fab := rfl
@[simp] theorem State.updLun_pwr (s : State) (ch u : Nat) (f : Lun → Lun) : (s.updLun ch u f).pwr = s.pwr := rfl
@[simp] theorem State.updLun_sl (s : State) (ch u : Nat) (f : Lun → Lun) : (s.updLun ch u f).sl = s.sl := rfl
@[simp] theorem State.updLun_cru (s : State) (ch u : Nat) (f : Lun → Lun) : (s.updLun ch u f).cru = s.cru := rfl
@[simp] theorem State.updLun_lanes (s : State) (ch u : Nat) (f : Lun → Lun) : (s.updLun ch u f).lanes = s.lanes := rfl
@[simp] theorem State.updLun_clk (s : State) (ch u : Nat) (f : Lun → Lun) : (s.updLun ch u f).clk = s.clk := rfl
@[simp] theorem State.updLun_tap (s : State) (ch u : Nat) (f : Lun → Lun) : (s.updLun ch u f).tap = s.tap := rfl
@[simp] theorem State.updLun_rd (s : State) (ch u : Nat) (f : Lun → Lun) (rf : Fld) (ri rj : Nat) : (s.updLun ch u f).rd rf ri rj = s.rd rf ri rj := rfl

/-! `State.updBte` -/

@[simp] theorem State.updBte_pending (s : State) (a : Nat) (f : Bte → Bte) : (s.updBte a f).pending = s.pending := rfl
@[simp] theorem State.updBte_regs (s : State) (a : Nat) (f : Bte → Bte) : (s.updBte a f).regs = s.regs := rfl
@[simp] theorem State.updBte_shadow (s : State) (a : Nat) (f : Bte → Bte) : (s.updBte a f).shadow = s.shadow := rfl
@[simp] theorem State.updBte_stage (s : State) (a : Nat) (f : Bte → Bte) : (s.updBte a f).stage = s.stage := rfl
@[simp] theorem State.updBte_time (s : State) (a : Nat) (f : Bte → Bte) : (s.updBte a f).time = s.time := rfl
@[simp] theorem State.updBte_fresh (s : State) (a : Nat) (f : Bte → Bte) : (s.updBte a f).fresh = s.fresh := rfl
@[simp] theorem State.updBte_out (s : State) (a : Nat) (f : Bte → Bte) : (s.updBte a f).out = s.out := rfl
@[simp] theorem State.updBte_fuses (s : State) (a : Nat) (f : Bte → Bte) : (s.updBte a f).fuses = s.fuses := rfl
@[simp] theorem State.updBte_evt (s : State) (a : Nat) (f : Bte → Bte) : (s.updBte a f).evt = s.evt := rfl
@[simp] theorem State.updBte_gens (s : State) (a : Nat) (f : Bte → Bte) : (s.updBte a f).gens = s.gens := rfl
@[simp] theorem State.updBte_qqp (s : State) (a : Nat) (f : Bte → Bte) : (s.updBte a f).qqp = s.qqp := rfl
@[simp] theorem State.updBte_tly (s : State) (a : Nat) (f : Bte → Bte) : (s.updBte a f).tly = s.tly := rfl
@[simp] theorem State.updBte_dck (s : State) (a : Nat) (f : Bte → Bte) : (s.updBte a f).dck = s.dck := rfl
@[simp] theorem State.updBte_pci (s : State) (a : Nat) (f : Bte → Bte) : (s.updBte a f).pci = s.pci := rfl
@[simp] theorem State.updBte_cfg (s : State) (a : Nat) (f : Bte → Bte) : (s.updBte a f).cfg = s.cfg := rfl
@[simp] theorem State.updBte_lve (s : State) (a : Nat) (f : Bte → Bte) : (s.updBte a f).lve = s.lve := rfl
@[simp] theorem State.updBte_med (s : State) (a : Nat) (f : Bte → Bte) :
    (s.updBte a f).med = { s.med with blocks := Map.upd {} s.med.blocks (a / 2 ^ 16) f } := rfl
@[simp] theorem State.updBte_hbm (s : State) (a : Nat) (f : Bte → Bte) : (s.updBte a f).hbm = s.hbm := rfl
@[simp] theorem State.updBte_spm (s : State) (a : Nat) (f : Bte → Bte) : (s.updBte a f).spm = s.spm := rfl
@[simp] theorem State.updBte_cry (s : State) (a : Nat) (f : Bte → Bte) : (s.updBte a f).cry = s.cry := rfl
@[simp] theorem State.updBte_noc (s : State) (a : Nat) (f : Bte → Bte) : (s.updBte a f).noc = s.noc := rfl
@[simp] theorem State.updBte_fab (s : State) (a : Nat) (f : Bte → Bte) : (s.updBte a f).fab = s.fab := rfl
@[simp] theorem State.updBte_pwr (s : State) (a : Nat) (f : Bte → Bte) : (s.updBte a f).pwr = s.pwr := rfl
@[simp] theorem State.updBte_sl (s : State) (a : Nat) (f : Bte → Bte) : (s.updBte a f).sl = s.sl := rfl
@[simp] theorem State.updBte_cru (s : State) (a : Nat) (f : Bte → Bte) : (s.updBte a f).cru = s.cru := rfl
@[simp] theorem State.updBte_lanes (s : State) (a : Nat) (f : Bte → Bte) : (s.updBte a f).lanes = s.lanes := rfl
@[simp] theorem State.updBte_clk (s : State) (a : Nat) (f : Bte → Bte) : (s.updBte a f).clk = s.clk := rfl
@[simp] theorem State.updBte_tap (s : State) (a : Nat) (f : Bte → Bte) : (s.updBte a f).tap = s.tap := rfl
@[simp] theorem State.updBte_rd (s : State) (a : Nat) (f : Bte → Bte) (rf : Fld) (ri rj : Nat) : (s.updBte a f).rd rf ri rj = s.rd rf ri rj := rfl

/-! `State.updStripe` -/

@[simp] theorem State.updStripe_pending (s : State) (k : Nat) (f : Stripe → Stripe) : (s.updStripe k f).pending = s.pending := rfl
@[simp] theorem State.updStripe_regs (s : State) (k : Nat) (f : Stripe → Stripe) : (s.updStripe k f).regs = s.regs := rfl
@[simp] theorem State.updStripe_shadow (s : State) (k : Nat) (f : Stripe → Stripe) : (s.updStripe k f).shadow = s.shadow := rfl
@[simp] theorem State.updStripe_stage (s : State) (k : Nat) (f : Stripe → Stripe) : (s.updStripe k f).stage = s.stage := rfl
@[simp] theorem State.updStripe_time (s : State) (k : Nat) (f : Stripe → Stripe) : (s.updStripe k f).time = s.time := rfl
@[simp] theorem State.updStripe_fresh (s : State) (k : Nat) (f : Stripe → Stripe) : (s.updStripe k f).fresh = s.fresh := rfl
@[simp] theorem State.updStripe_out (s : State) (k : Nat) (f : Stripe → Stripe) : (s.updStripe k f).out = s.out := rfl
@[simp] theorem State.updStripe_fuses (s : State) (k : Nat) (f : Stripe → Stripe) : (s.updStripe k f).fuses = s.fuses := rfl
@[simp] theorem State.updStripe_evt (s : State) (k : Nat) (f : Stripe → Stripe) : (s.updStripe k f).evt = s.evt := rfl
@[simp] theorem State.updStripe_gens (s : State) (k : Nat) (f : Stripe → Stripe) : (s.updStripe k f).gens = s.gens := rfl
@[simp] theorem State.updStripe_qqp (s : State) (k : Nat) (f : Stripe → Stripe) : (s.updStripe k f).qqp = s.qqp := rfl
@[simp] theorem State.updStripe_tly (s : State) (k : Nat) (f : Stripe → Stripe) : (s.updStripe k f).tly = s.tly := rfl
@[simp] theorem State.updStripe_dck (s : State) (k : Nat) (f : Stripe → Stripe) : (s.updStripe k f).dck = s.dck := rfl
@[simp] theorem State.updStripe_pci (s : State) (k : Nat) (f : Stripe → Stripe) : (s.updStripe k f).pci = s.pci := rfl
@[simp] theorem State.updStripe_cfg (s : State) (k : Nat) (f : Stripe → Stripe) : (s.updStripe k f).cfg = s.cfg := rfl
@[simp] theorem State.updStripe_lve (s : State) (k : Nat) (f : Stripe → Stripe) : (s.updStripe k f).lve = s.lve := rfl
@[simp] theorem State.updStripe_med (s : State) (k : Nat) (f : Stripe → Stripe) :
    (s.updStripe k f).med = { s.med with stripes := Map.upd {} s.med.stripes k f } := rfl
@[simp] theorem State.updStripe_hbm (s : State) (k : Nat) (f : Stripe → Stripe) : (s.updStripe k f).hbm = s.hbm := rfl
@[simp] theorem State.updStripe_spm (s : State) (k : Nat) (f : Stripe → Stripe) : (s.updStripe k f).spm = s.spm := rfl
@[simp] theorem State.updStripe_cry (s : State) (k : Nat) (f : Stripe → Stripe) : (s.updStripe k f).cry = s.cry := rfl
@[simp] theorem State.updStripe_noc (s : State) (k : Nat) (f : Stripe → Stripe) : (s.updStripe k f).noc = s.noc := rfl
@[simp] theorem State.updStripe_fab (s : State) (k : Nat) (f : Stripe → Stripe) : (s.updStripe k f).fab = s.fab := rfl
@[simp] theorem State.updStripe_pwr (s : State) (k : Nat) (f : Stripe → Stripe) : (s.updStripe k f).pwr = s.pwr := rfl
@[simp] theorem State.updStripe_sl (s : State) (k : Nat) (f : Stripe → Stripe) : (s.updStripe k f).sl = s.sl := rfl
@[simp] theorem State.updStripe_cru (s : State) (k : Nat) (f : Stripe → Stripe) : (s.updStripe k f).cru = s.cru := rfl
@[simp] theorem State.updStripe_lanes (s : State) (k : Nat) (f : Stripe → Stripe) : (s.updStripe k f).lanes = s.lanes := rfl
@[simp] theorem State.updStripe_clk (s : State) (k : Nat) (f : Stripe → Stripe) : (s.updStripe k f).clk = s.clk := rfl
@[simp] theorem State.updStripe_tap (s : State) (k : Nat) (f : Stripe → Stripe) : (s.updStripe k f).tap = s.tap := rfl
@[simp] theorem State.updStripe_rd (s : State) (k : Nat) (f : Stripe → Stripe) (rf : Fld) (ri rj : Nat) : (s.updStripe k f).rd rf ri rj = s.rd rf ri rj := rfl

/-! `State.updHbank` -/

@[simp] theorem State.updHbank_pending (s : State) (p b : Nat) (f : HBank → HBank) : (s.updHbank p b f).pending = s.pending := rfl
@[simp] theorem State.updHbank_regs (s : State) (p b : Nat) (f : HBank → HBank) : (s.updHbank p b f).regs = s.regs := rfl
@[simp] theorem State.updHbank_shadow (s : State) (p b : Nat) (f : HBank → HBank) : (s.updHbank p b f).shadow = s.shadow := rfl
@[simp] theorem State.updHbank_stage (s : State) (p b : Nat) (f : HBank → HBank) : (s.updHbank p b f).stage = s.stage := rfl
@[simp] theorem State.updHbank_time (s : State) (p b : Nat) (f : HBank → HBank) : (s.updHbank p b f).time = s.time := rfl
@[simp] theorem State.updHbank_fresh (s : State) (p b : Nat) (f : HBank → HBank) : (s.updHbank p b f).fresh = s.fresh := rfl
@[simp] theorem State.updHbank_out (s : State) (p b : Nat) (f : HBank → HBank) : (s.updHbank p b f).out = s.out := rfl
@[simp] theorem State.updHbank_fuses (s : State) (p b : Nat) (f : HBank → HBank) : (s.updHbank p b f).fuses = s.fuses := rfl
@[simp] theorem State.updHbank_evt (s : State) (p b : Nat) (f : HBank → HBank) : (s.updHbank p b f).evt = s.evt := rfl
@[simp] theorem State.updHbank_gens (s : State) (p b : Nat) (f : HBank → HBank) : (s.updHbank p b f).gens = s.gens := rfl
@[simp] theorem State.updHbank_qqp (s : State) (p b : Nat) (f : HBank → HBank) : (s.updHbank p b f).qqp = s.qqp := rfl
@[simp] theorem State.updHbank_tly (s : State) (p b : Nat) (f : HBank → HBank) : (s.updHbank p b f).tly = s.tly := rfl
@[simp] theorem State.updHbank_dck (s : State) (p b : Nat) (f : HBank → HBank) : (s.updHbank p b f).dck = s.dck := rfl
@[simp] theorem State.updHbank_pci (s : State) (p b : Nat) (f : HBank → HBank) : (s.updHbank p b f).pci = s.pci := rfl
@[simp] theorem State.updHbank_cfg (s : State) (p b : Nat) (f : HBank → HBank) : (s.updHbank p b f).cfg = s.cfg := rfl
@[simp] theorem State.updHbank_lve (s : State) (p b : Nat) (f : HBank → HBank) : (s.updHbank p b f).lve = s.lve := rfl
@[simp] theorem State.updHbank_med (s : State) (p b : Nat) (f : HBank → HBank) : (s.updHbank p b f).med = s.med := rfl
@[simp] theorem State.updHbank_hbm (s : State) (p b : Nat) (f : HBank → HBank) :
    (s.updHbank p b f).hbm = { s.hbm with banks := Map.upd {} s.hbm.banks (64 * p + b) f } := rfl
@[simp] theorem State.updHbank_spm (s : State) (p b : Nat) (f : HBank → HBank) : (s.updHbank p b f).spm = s.spm := rfl
@[simp] theorem State.updHbank_cry (s : State) (p b : Nat) (f : HBank → HBank) : (s.updHbank p b f).cry = s.cry := rfl
@[simp] theorem State.updHbank_noc (s : State) (p b : Nat) (f : HBank → HBank) : (s.updHbank p b f).noc = s.noc := rfl
@[simp] theorem State.updHbank_fab (s : State) (p b : Nat) (f : HBank → HBank) : (s.updHbank p b f).fab = s.fab := rfl
@[simp] theorem State.updHbank_pwr (s : State) (p b : Nat) (f : HBank → HBank) : (s.updHbank p b f).pwr = s.pwr := rfl
@[simp] theorem State.updHbank_sl (s : State) (p b : Nat) (f : HBank → HBank) : (s.updHbank p b f).sl = s.sl := rfl
@[simp] theorem State.updHbank_cru (s : State) (p b : Nat) (f : HBank → HBank) : (s.updHbank p b f).cru = s.cru := rfl
@[simp] theorem State.updHbank_lanes (s : State) (p b : Nat) (f : HBank → HBank) : (s.updHbank p b f).lanes = s.lanes := rfl
@[simp] theorem State.updHbank_clk (s : State) (p b : Nat) (f : HBank → HBank) : (s.updHbank p b f).clk = s.clk := rfl
@[simp] theorem State.updHbank_tap (s : State) (p b : Nat) (f : HBank → HBank) : (s.updHbank p b f).tap = s.tap := rfl
@[simp] theorem State.updHbank_rd (s : State) (p b : Nat) (f : HBank → HBank) (rf : Fld) (ri rj : Nat) : (s.updHbank p b f).rd rf ri rj = s.rd rf ri rj := rfl

/-! `State.updRte` -/

@[simp] theorem State.updRte_pending (s : State) (src dst : Nat) (f : Rte → Rte) : (s.updRte src dst f).pending = s.pending := rfl
@[simp] theorem State.updRte_regs (s : State) (src dst : Nat) (f : Rte → Rte) : (s.updRte src dst f).regs = s.regs := rfl
@[simp] theorem State.updRte_shadow (s : State) (src dst : Nat) (f : Rte → Rte) : (s.updRte src dst f).shadow = s.shadow := rfl
@[simp] theorem State.updRte_stage (s : State) (src dst : Nat) (f : Rte → Rte) : (s.updRte src dst f).stage = s.stage := rfl
@[simp] theorem State.updRte_time (s : State) (src dst : Nat) (f : Rte → Rte) : (s.updRte src dst f).time = s.time := rfl
@[simp] theorem State.updRte_fresh (s : State) (src dst : Nat) (f : Rte → Rte) : (s.updRte src dst f).fresh = s.fresh := rfl
@[simp] theorem State.updRte_out (s : State) (src dst : Nat) (f : Rte → Rte) : (s.updRte src dst f).out = s.out := rfl
@[simp] theorem State.updRte_fuses (s : State) (src dst : Nat) (f : Rte → Rte) : (s.updRte src dst f).fuses = s.fuses := rfl
@[simp] theorem State.updRte_evt (s : State) (src dst : Nat) (f : Rte → Rte) : (s.updRte src dst f).evt = s.evt := rfl
@[simp] theorem State.updRte_gens (s : State) (src dst : Nat) (f : Rte → Rte) : (s.updRte src dst f).gens = s.gens := rfl
@[simp] theorem State.updRte_qqp (s : State) (src dst : Nat) (f : Rte → Rte) : (s.updRte src dst f).qqp = s.qqp := rfl
@[simp] theorem State.updRte_tly (s : State) (src dst : Nat) (f : Rte → Rte) : (s.updRte src dst f).tly = s.tly := rfl
@[simp] theorem State.updRte_dck (s : State) (src dst : Nat) (f : Rte → Rte) : (s.updRte src dst f).dck = s.dck := rfl
@[simp] theorem State.updRte_pci (s : State) (src dst : Nat) (f : Rte → Rte) : (s.updRte src dst f).pci = s.pci := rfl
@[simp] theorem State.updRte_cfg (s : State) (src dst : Nat) (f : Rte → Rte) : (s.updRte src dst f).cfg = s.cfg := rfl
@[simp] theorem State.updRte_lve (s : State) (src dst : Nat) (f : Rte → Rte) : (s.updRte src dst f).lve = s.lve := rfl
@[simp] theorem State.updRte_med (s : State) (src dst : Nat) (f : Rte → Rte) : (s.updRte src dst f).med = s.med := rfl
@[simp] theorem State.updRte_hbm (s : State) (src dst : Nat) (f : Rte → Rte) : (s.updRte src dst f).hbm = s.hbm := rfl
@[simp] theorem State.updRte_spm (s : State) (src dst : Nat) (f : Rte → Rte) : (s.updRte src dst f).spm = s.spm := rfl
@[simp] theorem State.updRte_cry (s : State) (src dst : Nat) (f : Rte → Rte) : (s.updRte src dst f).cry = s.cry := rfl
@[simp] theorem State.updRte_noc (s : State) (src dst : Nat) (f : Rte → Rte) :
    (s.updRte src dst f).noc = { s.noc with routes := Map.upd {} s.noc.routes (1024 * src + dst) f } := rfl
@[simp] theorem State.updRte_fab (s : State) (src dst : Nat) (f : Rte → Rte) : (s.updRte src dst f).fab = s.fab := rfl
@[simp] theorem State.updRte_pwr (s : State) (src dst : Nat) (f : Rte → Rte) : (s.updRte src dst f).pwr = s.pwr := rfl
@[simp] theorem State.updRte_sl (s : State) (src dst : Nat) (f : Rte → Rte) : (s.updRte src dst f).sl = s.sl := rfl
@[simp] theorem State.updRte_cru (s : State) (src dst : Nat) (f : Rte → Rte) : (s.updRte src dst f).cru = s.cru := rfl
@[simp] theorem State.updRte_lanes (s : State) (src dst : Nat) (f : Rte → Rte) : (s.updRte src dst f).lanes = s.lanes := rfl
@[simp] theorem State.updRte_clk (s : State) (src dst : Nat) (f : Rte → Rte) : (s.updRte src dst f).clk = s.clk := rfl
@[simp] theorem State.updRte_tap (s : State) (src dst : Nat) (f : Rte → Rte) : (s.updRte src dst f).tap = s.tap := rfl
@[simp] theorem State.updRte_rd (s : State) (src dst : Nat) (f : Rte → Rte) (rf : Fld) (ri rj : Nat) : (s.updRte src dst f).rd rf ri rj = s.rd rf ri rj := rfl

/-! `State.setPkt` -/

@[simp] theorem State.setPkt_pending (s : State) (k : Nat) (p : Pkt) : (s.setPkt k p).pending = s.pending := rfl
@[simp] theorem State.setPkt_regs (s : State) (k : Nat) (p : Pkt) : (s.setPkt k p).regs = s.regs := rfl
@[simp] theorem State.setPkt_shadow (s : State) (k : Nat) (p : Pkt) : (s.setPkt k p).shadow = s.shadow := rfl
@[simp] theorem State.setPkt_stage (s : State) (k : Nat) (p : Pkt) : (s.setPkt k p).stage = s.stage := rfl
@[simp] theorem State.setPkt_time (s : State) (k : Nat) (p : Pkt) : (s.setPkt k p).time = s.time := rfl
@[simp] theorem State.setPkt_fresh (s : State) (k : Nat) (p : Pkt) : (s.setPkt k p).fresh = s.fresh := rfl
@[simp] theorem State.setPkt_out (s : State) (k : Nat) (p : Pkt) : (s.setPkt k p).out = s.out := rfl
@[simp] theorem State.setPkt_fuses (s : State) (k : Nat) (p : Pkt) : (s.setPkt k p).fuses = s.fuses := rfl
@[simp] theorem State.setPkt_evt (s : State) (k : Nat) (p : Pkt) : (s.setPkt k p).evt = s.evt := rfl
@[simp] theorem State.setPkt_gens (s : State) (k : Nat) (p : Pkt) : (s.setPkt k p).gens = s.gens := rfl
@[simp] theorem State.setPkt_qqp (s : State) (k : Nat) (p : Pkt) : (s.setPkt k p).qqp = s.qqp := rfl
@[simp] theorem State.setPkt_tly (s : State) (k : Nat) (p : Pkt) : (s.setPkt k p).tly = s.tly := rfl
@[simp] theorem State.setPkt_dck (s : State) (k : Nat) (p : Pkt) : (s.setPkt k p).dck = s.dck := rfl
@[simp] theorem State.setPkt_pci (s : State) (k : Nat) (p : Pkt) : (s.setPkt k p).pci = s.pci := rfl
@[simp] theorem State.setPkt_cfg (s : State) (k : Nat) (p : Pkt) : (s.setPkt k p).cfg = s.cfg := rfl
@[simp] theorem State.setPkt_lve (s : State) (k : Nat) (p : Pkt) : (s.setPkt k p).lve = s.lve := rfl
@[simp] theorem State.setPkt_med (s : State) (k : Nat) (p : Pkt) : (s.setPkt k p).med = s.med := rfl
@[simp] theorem State.setPkt_hbm (s : State) (k : Nat) (p : Pkt) : (s.setPkt k p).hbm = s.hbm := rfl
@[simp] theorem State.setPkt_spm (s : State) (k : Nat) (p : Pkt) : (s.setPkt k p).spm = s.spm := rfl
@[simp] theorem State.setPkt_cry (s : State) (k : Nat) (p : Pkt) : (s.setPkt k p).cry = s.cry := rfl
@[simp] theorem State.setPkt_noc (s : State) (k : Nat) (p : Pkt) :
    (s.setPkt k p).noc = { s.noc with pkts := Map.set none s.noc.pkts k (some p) } := rfl
@[simp] theorem State.setPkt_fab (s : State) (k : Nat) (p : Pkt) : (s.setPkt k p).fab = s.fab := rfl
@[simp] theorem State.setPkt_pwr (s : State) (k : Nat) (p : Pkt) : (s.setPkt k p).pwr = s.pwr := rfl
@[simp] theorem State.setPkt_sl (s : State) (k : Nat) (p : Pkt) : (s.setPkt k p).sl = s.sl := rfl
@[simp] theorem State.setPkt_cru (s : State) (k : Nat) (p : Pkt) : (s.setPkt k p).cru = s.cru := rfl
@[simp] theorem State.setPkt_lanes (s : State) (k : Nat) (p : Pkt) : (s.setPkt k p).lanes = s.lanes := rfl
@[simp] theorem State.setPkt_clk (s : State) (k : Nat) (p : Pkt) : (s.setPkt k p).clk = s.clk := rfl
@[simp] theorem State.setPkt_tap (s : State) (k : Nat) (p : Pkt) : (s.setPkt k p).tap = s.tap := rfl
@[simp] theorem State.setPkt_rd (s : State) (k : Nat) (p : Pkt) (rf : Fld) (ri rj : Nat) : (s.setPkt k p).rd rf ri rj = s.rd rf ri rj := rfl

/-! `State.updPkt` -/

@[simp] theorem State.updPkt_pending (s : State) (k : Nat) (f : Pkt → Pkt) : (s.updPkt k f).pending = s.pending := by unfold State.updPkt; split <;> rfl
@[simp] theorem State.updPkt_regs (s : State) (k : Nat) (f : Pkt → Pkt) : (s.updPkt k f).regs = s.regs := by unfold State.updPkt; split <;> rfl
@[simp] theorem State.updPkt_shadow (s : State) (k : Nat) (f : Pkt → Pkt) : (s.updPkt k f).shadow = s.shadow := by unfold State.updPkt; split <;> rfl
@[simp] theorem State.updPkt_stage (s : State) (k : Nat) (f : Pkt → Pkt) : (s.updPkt k f).stage = s.stage := by unfold State.updPkt; split <;> rfl
@[simp] theorem State.updPkt_time (s : State) (k : Nat) (f : Pkt → Pkt) : (s.updPkt k f).time = s.time := by unfold State.updPkt; split <;> rfl
@[simp] theorem State.updPkt_fresh (s : State) (k : Nat) (f : Pkt → Pkt) : (s.updPkt k f).fresh = s.fresh := by unfold State.updPkt; split <;> rfl
@[simp] theorem State.updPkt_out (s : State) (k : Nat) (f : Pkt → Pkt) : (s.updPkt k f).out = s.out := by unfold State.updPkt; split <;> rfl
@[simp] theorem State.updPkt_fuses (s : State) (k : Nat) (f : Pkt → Pkt) : (s.updPkt k f).fuses = s.fuses := by unfold State.updPkt; split <;> rfl
@[simp] theorem State.updPkt_evt (s : State) (k : Nat) (f : Pkt → Pkt) : (s.updPkt k f).evt = s.evt := by unfold State.updPkt; split <;> rfl
@[simp] theorem State.updPkt_gens (s : State) (k : Nat) (f : Pkt → Pkt) : (s.updPkt k f).gens = s.gens := by unfold State.updPkt; split <;> rfl
@[simp] theorem State.updPkt_qqp (s : State) (k : Nat) (f : Pkt → Pkt) : (s.updPkt k f).qqp = s.qqp := by unfold State.updPkt; split <;> rfl
@[simp] theorem State.updPkt_tly (s : State) (k : Nat) (f : Pkt → Pkt) : (s.updPkt k f).tly = s.tly := by unfold State.updPkt; split <;> rfl
@[simp] theorem State.updPkt_dck (s : State) (k : Nat) (f : Pkt → Pkt) : (s.updPkt k f).dck = s.dck := by unfold State.updPkt; split <;> rfl
@[simp] theorem State.updPkt_pci (s : State) (k : Nat) (f : Pkt → Pkt) : (s.updPkt k f).pci = s.pci := by unfold State.updPkt; split <;> rfl
@[simp] theorem State.updPkt_cfg (s : State) (k : Nat) (f : Pkt → Pkt) : (s.updPkt k f).cfg = s.cfg := by unfold State.updPkt; split <;> rfl
@[simp] theorem State.updPkt_lve (s : State) (k : Nat) (f : Pkt → Pkt) : (s.updPkt k f).lve = s.lve := by unfold State.updPkt; split <;> rfl
@[simp] theorem State.updPkt_med (s : State) (k : Nat) (f : Pkt → Pkt) : (s.updPkt k f).med = s.med := by unfold State.updPkt; split <;> rfl
@[simp] theorem State.updPkt_hbm (s : State) (k : Nat) (f : Pkt → Pkt) : (s.updPkt k f).hbm = s.hbm := by unfold State.updPkt; split <;> rfl
@[simp] theorem State.updPkt_spm (s : State) (k : Nat) (f : Pkt → Pkt) : (s.updPkt k f).spm = s.spm := by unfold State.updPkt; split <;> rfl
@[simp] theorem State.updPkt_cry (s : State) (k : Nat) (f : Pkt → Pkt) : (s.updPkt k f).cry = s.cry := by unfold State.updPkt; split <;> rfl
@[simp] theorem State.updPkt_fab (s : State) (k : Nat) (f : Pkt → Pkt) : (s.updPkt k f).fab = s.fab := by unfold State.updPkt; split <;> rfl
@[simp] theorem State.updPkt_pwr (s : State) (k : Nat) (f : Pkt → Pkt) : (s.updPkt k f).pwr = s.pwr := by unfold State.updPkt; split <;> rfl
@[simp] theorem State.updPkt_sl (s : State) (k : Nat) (f : Pkt → Pkt) : (s.updPkt k f).sl = s.sl := by unfold State.updPkt; split <;> rfl
@[simp] theorem State.updPkt_cru (s : State) (k : Nat) (f : Pkt → Pkt) : (s.updPkt k f).cru = s.cru := by unfold State.updPkt; split <;> rfl
@[simp] theorem State.updPkt_lanes (s : State) (k : Nat) (f : Pkt → Pkt) : (s.updPkt k f).lanes = s.lanes := by unfold State.updPkt; split <;> rfl
@[simp] theorem State.updPkt_clk (s : State) (k : Nat) (f : Pkt → Pkt) : (s.updPkt k f).clk = s.clk := by unfold State.updPkt; split <;> rfl
@[simp] theorem State.updPkt_tap (s : State) (k : Nat) (f : Pkt → Pkt) : (s.updPkt k f).tap = s.tap := by unfold State.updPkt; split <;> rfl
@[simp] theorem State.updPkt_rd (s : State) (k : Nat) (f : Pkt → Pkt) (rf : Fld) (ri rj : Nat) : (s.updPkt k f).rd rf ri rj = s.rd rf ri rj := by unfold State.updPkt; split <;> rfl

/-! `State.dropPkt` -/

@[simp] theorem State.dropPkt_pending (s : State) (k : Nat) : (s.dropPkt k).pending = s.pending := rfl
@[simp] theorem State.dropPkt_regs (s : State) (k : Nat) : (s.dropPkt k).regs = s.regs := rfl
@[simp] theorem State.dropPkt_shadow (s : State) (k : Nat) : (s.dropPkt k).shadow = s.shadow := rfl
@[simp] theorem State.dropPkt_stage (s : State) (k : Nat) : (s.dropPkt k).stage = s.stage := rfl
@[simp] theorem State.dropPkt_time (s : State) (k : Nat) : (s.dropPkt k).time = s.time := rfl
@[simp] theorem State.dropPkt_fresh (s : State) (k : Nat) : (s.dropPkt k).fresh = s.fresh := rfl
@[simp] theorem State.dropPkt_out (s : State) (k : Nat) : (s.dropPkt k).out = s.out := rfl
@[simp] theorem State.dropPkt_fuses (s : State) (k : Nat) : (s.dropPkt k).fuses = s.fuses := rfl
@[simp] theorem State.dropPkt_evt (s : State) (k : Nat) : (s.dropPkt k).evt = s.evt := rfl
@[simp] theorem State.dropPkt_gens (s : State) (k : Nat) : (s.dropPkt k).gens = s.gens := rfl
@[simp] theorem State.dropPkt_qqp (s : State) (k : Nat) : (s.dropPkt k).qqp = s.qqp := rfl
@[simp] theorem State.dropPkt_tly (s : State) (k : Nat) : (s.dropPkt k).tly = s.tly := rfl
@[simp] theorem State.dropPkt_dck (s : State) (k : Nat) : (s.dropPkt k).dck = s.dck := rfl
@[simp] theorem State.dropPkt_pci (s : State) (k : Nat) : (s.dropPkt k).pci = s.pci := rfl
@[simp] theorem State.dropPkt_cfg (s : State) (k : Nat) : (s.dropPkt k).cfg = s.cfg := rfl
@[simp] theorem State.dropPkt_lve (s : State) (k : Nat) : (s.dropPkt k).lve = s.lve := rfl
@[simp] theorem State.dropPkt_med (s : State) (k : Nat) : (s.dropPkt k).med = s.med := rfl
@[simp] theorem State.dropPkt_hbm (s : State) (k : Nat) : (s.dropPkt k).hbm = s.hbm := rfl
@[simp] theorem State.dropPkt_spm (s : State) (k : Nat) : (s.dropPkt k).spm = s.spm := rfl
@[simp] theorem State.dropPkt_cry (s : State) (k : Nat) : (s.dropPkt k).cry = s.cry := rfl
@[simp] theorem State.dropPkt_noc (s : State) (k : Nat) :
    (s.dropPkt k).noc = { s.noc with pkts := Map.erase s.noc.pkts k } := rfl
@[simp] theorem State.dropPkt_fab (s : State) (k : Nat) :
    (s.dropPkt k).fab = { s.fab with treq := s.fab.treq.filter (· ≠ k) } := rfl
@[simp] theorem State.dropPkt_pwr (s : State) (k : Nat) : (s.dropPkt k).pwr = s.pwr := rfl
@[simp] theorem State.dropPkt_sl (s : State) (k : Nat) : (s.dropPkt k).sl = s.sl := rfl
@[simp] theorem State.dropPkt_cru (s : State) (k : Nat) : (s.dropPkt k).cru = s.cru := rfl
@[simp] theorem State.dropPkt_lanes (s : State) (k : Nat) : (s.dropPkt k).lanes = s.lanes := rfl
@[simp] theorem State.dropPkt_clk (s : State) (k : Nat) : (s.dropPkt k).clk = s.clk := rfl
@[simp] theorem State.dropPkt_tap (s : State) (k : Nat) : (s.dropPkt k).tap = s.tap := rfl
@[simp] theorem State.dropPkt_rd (s : State) (k : Nat) (rf : Fld) (ri rj : Nat) : (s.dropPkt k).rd rf ri rj = s.rd rf ri rj := rfl

/-! `State.updPol` -/

@[simp] theorem State.updPol_pending (s : State) (p : Nat) (f : Pol → Pol) : (s.updPol p f).pending = s.pending := rfl
@[simp] theorem State.updPol_regs (s : State) (p : Nat) (f : Pol → Pol) : (s.updPol p f).regs = s.regs := rfl
@[simp] theorem State.updPol_shadow (s : State) (p : Nat) (f : Pol → Pol) : (s.updPol p f).shadow = s.shadow := rfl
@[simp] theorem State.updPol_stage (s : State) (p : Nat) (f : Pol → Pol) : (s.updPol p f).stage = s.stage := rfl
@[simp] theorem State.updPol_time (s : State) (p : Nat) (f : Pol → Pol) : (s.updPol p f).time = s.time := rfl
@[simp] theorem State.updPol_fresh (s : State) (p : Nat) (f : Pol → Pol) : (s.updPol p f).fresh = s.fresh := rfl
@[simp] theorem State.updPol_out (s : State) (p : Nat) (f : Pol → Pol) : (s.updPol p f).out = s.out := rfl
@[simp] theorem State.updPol_fuses (s : State) (p : Nat) (f : Pol → Pol) : (s.updPol p f).fuses = s.fuses := rfl
@[simp] theorem State.updPol_evt (s : State) (p : Nat) (f : Pol → Pol) : (s.updPol p f).evt = s.evt := rfl
@[simp] theorem State.updPol_gens (s : State) (p : Nat) (f : Pol → Pol) : (s.updPol p f).gens = s.gens := rfl
@[simp] theorem State.updPol_qqp (s : State) (p : Nat) (f : Pol → Pol) : (s.updPol p f).qqp = s.qqp := rfl
@[simp] theorem State.updPol_tly (s : State) (p : Nat) (f : Pol → Pol) : (s.updPol p f).tly = s.tly := rfl
@[simp] theorem State.updPol_dck (s : State) (p : Nat) (f : Pol → Pol) : (s.updPol p f).dck = s.dck := rfl
@[simp] theorem State.updPol_pci (s : State) (p : Nat) (f : Pol → Pol) : (s.updPol p f).pci = s.pci := rfl
@[simp] theorem State.updPol_cfg (s : State) (p : Nat) (f : Pol → Pol) : (s.updPol p f).cfg = s.cfg := rfl
@[simp] theorem State.updPol_lve (s : State) (p : Nat) (f : Pol → Pol) : (s.updPol p f).lve = s.lve := rfl
@[simp] theorem State.updPol_med (s : State) (p : Nat) (f : Pol → Pol) : (s.updPol p f).med = s.med := rfl
@[simp] theorem State.updPol_hbm (s : State) (p : Nat) (f : Pol → Pol) : (s.updPol p f).hbm = s.hbm := rfl
@[simp] theorem State.updPol_spm (s : State) (p : Nat) (f : Pol → Pol) : (s.updPol p f).spm = s.spm := rfl
@[simp] theorem State.updPol_cry (s : State) (p : Nat) (f : Pol → Pol) : (s.updPol p f).cry = s.cry := rfl
@[simp] theorem State.updPol_noc (s : State) (p : Nat) (f : Pol → Pol) : (s.updPol p f).noc = s.noc := rfl
@[simp] theorem State.updPol_fab (s : State) (p : Nat) (f : Pol → Pol) : (s.updPol p f).fab = s.fab := rfl
@[simp] theorem State.updPol_pwr (s : State) (p : Nat) (f : Pol → Pol) :
    (s.updPol p f).pwr = { s.pwr with pols := Map.upd {} s.pwr.pols p f } := rfl
@[simp] theorem State.updPol_sl (s : State) (p : Nat) (f : Pol → Pol) : (s.updPol p f).sl = s.sl := rfl
@[simp] theorem State.updPol_cru (s : State) (p : Nat) (f : Pol → Pol) : (s.updPol p f).cru = s.cru := rfl
@[simp] theorem State.updPol_lanes (s : State) (p : Nat) (f : Pol → Pol) : (s.updPol p f).lanes = s.lanes := rfl
@[simp] theorem State.updPol_clk (s : State) (p : Nat) (f : Pol → Pol) : (s.updPol p f).clk = s.clk := rfl
@[simp] theorem State.updPol_tap (s : State) (p : Nat) (f : Pol → Pol) : (s.updPol p f).tap = s.tap := rfl
@[simp] theorem State.updPol_rd (s : State) (p : Nat) (f : Pol → Pol) (rf : Fld) (ri rj : Nat) : (s.updPol p f).rd rf ri rj = s.rd rf ri rj := rfl

/-! `State.updQp` -/

@[simp] theorem State.updQp_pending (s : State) (fn q : Nat) (f : Qp → Qp) : (s.updQp fn q f).pending = s.pending := rfl
@[simp] theorem State.updQp_regs (s : State) (fn q : Nat) (f : Qp → Qp) : (s.updQp fn q f).regs = s.regs := rfl
@[simp] theorem State.updQp_shadow (s : State) (fn q : Nat) (f : Qp → Qp) : (s.updQp fn q f).shadow = s.shadow := rfl
@[simp] theorem State.updQp_stage (s : State) (fn q : Nat) (f : Qp → Qp) : (s.updQp fn q f).stage = s.stage := rfl
@[simp] theorem State.updQp_time (s : State) (fn q : Nat) (f : Qp → Qp) : (s.updQp fn q f).time = s.time := rfl
@[simp] theorem State.updQp_fresh (s : State) (fn q : Nat) (f : Qp → Qp) : (s.updQp fn q f).fresh = s.fresh := rfl
@[simp] theorem State.updQp_out (s : State) (fn q : Nat) (f : Qp → Qp) : (s.updQp fn q f).out = s.out := rfl
@[simp] theorem State.updQp_fuses (s : State) (fn q : Nat) (f : Qp → Qp) : (s.updQp fn q f).fuses = s.fuses := rfl
@[simp] theorem State.updQp_evt (s : State) (fn q : Nat) (f : Qp → Qp) : (s.updQp fn q f).evt = s.evt := rfl
@[simp] theorem State.updQp_gens (s : State) (fn q : Nat) (f : Qp → Qp) : (s.updQp fn q f).gens = s.gens := rfl
@[simp] theorem State.updQp_qqp (s : State) (fn q : Nat) (f : Qp → Qp) :
    (s.updQp fn q f).qqp = { s.qqp with qps := Map.upd {} s.qqp.qps (qpKey fn q) f } := rfl
@[simp] theorem State.updQp_tly (s : State) (fn q : Nat) (f : Qp → Qp) : (s.updQp fn q f).tly = s.tly := rfl
@[simp] theorem State.updQp_dck (s : State) (fn q : Nat) (f : Qp → Qp) : (s.updQp fn q f).dck = s.dck := rfl
@[simp] theorem State.updQp_pci (s : State) (fn q : Nat) (f : Qp → Qp) : (s.updQp fn q f).pci = s.pci := rfl
@[simp] theorem State.updQp_cfg (s : State) (fn q : Nat) (f : Qp → Qp) : (s.updQp fn q f).cfg = s.cfg := rfl
@[simp] theorem State.updQp_lve (s : State) (fn q : Nat) (f : Qp → Qp) : (s.updQp fn q f).lve = s.lve := rfl
@[simp] theorem State.updQp_med (s : State) (fn q : Nat) (f : Qp → Qp) : (s.updQp fn q f).med = s.med := rfl
@[simp] theorem State.updQp_hbm (s : State) (fn q : Nat) (f : Qp → Qp) : (s.updQp fn q f).hbm = s.hbm := rfl
@[simp] theorem State.updQp_spm (s : State) (fn q : Nat) (f : Qp → Qp) : (s.updQp fn q f).spm = s.spm := rfl
@[simp] theorem State.updQp_cry (s : State) (fn q : Nat) (f : Qp → Qp) : (s.updQp fn q f).cry = s.cry := rfl
@[simp] theorem State.updQp_noc (s : State) (fn q : Nat) (f : Qp → Qp) : (s.updQp fn q f).noc = s.noc := rfl
@[simp] theorem State.updQp_fab (s : State) (fn q : Nat) (f : Qp → Qp) : (s.updQp fn q f).fab = s.fab := rfl
@[simp] theorem State.updQp_pwr (s : State) (fn q : Nat) (f : Qp → Qp) : (s.updQp fn q f).pwr = s.pwr := rfl
@[simp] theorem State.updQp_sl (s : State) (fn q : Nat) (f : Qp → Qp) : (s.updQp fn q f).sl = s.sl := rfl
@[simp] theorem State.updQp_cru (s : State) (fn q : Nat) (f : Qp → Qp) : (s.updQp fn q f).cru = s.cru := rfl
@[simp] theorem State.updQp_lanes (s : State) (fn q : Nat) (f : Qp → Qp) : (s.updQp fn q f).lanes = s.lanes := rfl
@[simp] theorem State.updQp_clk (s : State) (fn q : Nat) (f : Qp → Qp) : (s.updQp fn q f).clk = s.clk := rfl
@[simp] theorem State.updQp_tap (s : State) (fn q : Nat) (f : Qp → Qp) : (s.updQp fn q f).tap = s.tap := rfl
@[simp] theorem State.updQp_rd (s : State) (fn q : Nat) (f : Qp → Qp) (rf : Fld) (ri rj : Nat) : (s.updQp fn q f).rd rf ri rj = s.rd rf ri rj := rfl

/-! `State.setCmd` -/

@[simp] theorem State.setCmd_pending (s : State) (k : Nat) (c : Cmd) : (s.setCmd k c).pending = s.pending := rfl
@[simp] theorem State.setCmd_regs (s : State) (k : Nat) (c : Cmd) : (s.setCmd k c).regs = s.regs := rfl
@[simp] theorem State.setCmd_shadow (s : State) (k : Nat) (c : Cmd) : (s.setCmd k c).shadow = s.shadow := rfl
@[simp] theorem State.setCmd_stage (s : State) (k : Nat) (c : Cmd) : (s.setCmd k c).stage = s.stage := rfl
@[simp] theorem State.setCmd_time (s : State) (k : Nat) (c : Cmd) : (s.setCmd k c).time = s.time := rfl
@[simp] theorem State.setCmd_fresh (s : State) (k : Nat) (c : Cmd) : (s.setCmd k c).fresh = s.fresh := rfl
@[simp] theorem State.setCmd_out (s : State) (k : Nat) (c : Cmd) : (s.setCmd k c).out = s.out := rfl
@[simp] theorem State.setCmd_fuses (s : State) (k : Nat) (c : Cmd) : (s.setCmd k c).fuses = s.fuses := rfl
@[simp] theorem State.setCmd_evt (s : State) (k : Nat) (c : Cmd) : (s.setCmd k c).evt = s.evt := rfl
@[simp] theorem State.setCmd_gens (s : State) (k : Nat) (c : Cmd) : (s.setCmd k c).gens = s.gens := rfl
@[simp] theorem State.setCmd_qqp (s : State) (k : Nat) (c : Cmd) :
    (s.setCmd k c).qqp = { s.qqp with cmds := Map.set none s.qqp.cmds k (some c) } := rfl
@[simp] theorem State.setCmd_tly (s : State) (k : Nat) (c : Cmd) : (s.setCmd k c).tly = s.tly := rfl
@[simp] theorem State.setCmd_dck (s : State) (k : Nat) (c : Cmd) : (s.setCmd k c).dck = s.dck := rfl
@[simp] theorem State.setCmd_pci (s : State) (k : Nat) (c : Cmd) : (s.setCmd k c).pci = s.pci := rfl
@[simp] theorem State.setCmd_cfg (s : State) (k : Nat) (c : Cmd) : (s.setCmd k c).cfg = s.cfg := rfl
@[simp] theorem State.setCmd_lve (s : State) (k : Nat) (c : Cmd) : (s.setCmd k c).lve = s.lve := rfl
@[simp] theorem State.setCmd_med (s : State) (k : Nat) (c : Cmd) : (s.setCmd k c).med = s.med := rfl
@[simp] theorem State.setCmd_hbm (s : State) (k : Nat) (c : Cmd) : (s.setCmd k c).hbm = s.hbm := rfl
@[simp] theorem State.setCmd_spm (s : State) (k : Nat) (c : Cmd) : (s.setCmd k c).spm = s.spm := rfl
@[simp] theorem State.setCmd_cry (s : State) (k : Nat) (c : Cmd) : (s.setCmd k c).cry = s.cry := rfl
@[simp] theorem State.setCmd_noc (s : State) (k : Nat) (c : Cmd) : (s.setCmd k c).noc = s.noc := rfl
@[simp] theorem State.setCmd_fab (s : State) (k : Nat) (c : Cmd) : (s.setCmd k c).fab = s.fab := rfl
@[simp] theorem State.setCmd_pwr (s : State) (k : Nat) (c : Cmd) : (s.setCmd k c).pwr = s.pwr := rfl
@[simp] theorem State.setCmd_sl (s : State) (k : Nat) (c : Cmd) : (s.setCmd k c).sl = s.sl := rfl
@[simp] theorem State.setCmd_cru (s : State) (k : Nat) (c : Cmd) : (s.setCmd k c).cru = s.cru := rfl
@[simp] theorem State.setCmd_lanes (s : State) (k : Nat) (c : Cmd) : (s.setCmd k c).lanes = s.lanes := rfl
@[simp] theorem State.setCmd_clk (s : State) (k : Nat) (c : Cmd) : (s.setCmd k c).clk = s.clk := rfl
@[simp] theorem State.setCmd_tap (s : State) (k : Nat) (c : Cmd) : (s.setCmd k c).tap = s.tap := rfl
@[simp] theorem State.setCmd_rd (s : State) (k : Nat) (c : Cmd) (rf : Fld) (ri rj : Nat) : (s.setCmd k c).rd rf ri rj = s.rd rf ri rj := rfl

/-! `State.dropCmd` -/

@[simp] theorem State.dropCmd_pending (s : State) (k : Nat) : (s.dropCmd k).pending = s.pending := rfl
@[simp] theorem State.dropCmd_regs (s : State) (k : Nat) : (s.dropCmd k).regs = s.regs := rfl
@[simp] theorem State.dropCmd_shadow (s : State) (k : Nat) : (s.dropCmd k).shadow = s.shadow := rfl
@[simp] theorem State.dropCmd_stage (s : State) (k : Nat) : (s.dropCmd k).stage = s.stage := rfl
@[simp] theorem State.dropCmd_time (s : State) (k : Nat) : (s.dropCmd k).time = s.time := rfl
@[simp] theorem State.dropCmd_fresh (s : State) (k : Nat) : (s.dropCmd k).fresh = s.fresh := rfl
@[simp] theorem State.dropCmd_out (s : State) (k : Nat) : (s.dropCmd k).out = s.out := rfl
@[simp] theorem State.dropCmd_fuses (s : State) (k : Nat) : (s.dropCmd k).fuses = s.fuses := rfl
@[simp] theorem State.dropCmd_evt (s : State) (k : Nat) : (s.dropCmd k).evt = s.evt := rfl
@[simp] theorem State.dropCmd_gens (s : State) (k : Nat) : (s.dropCmd k).gens = s.gens := rfl
@[simp] theorem State.dropCmd_qqp (s : State) (k : Nat) :
    (s.dropCmd k).qqp = { s.qqp with cmds := Map.erase s.qqp.cmds k } := rfl
@[simp] theorem State.dropCmd_tly (s : State) (k : Nat) : (s.dropCmd k).tly = s.tly := rfl
@[simp] theorem State.dropCmd_dck (s : State) (k : Nat) : (s.dropCmd k).dck = s.dck := rfl
@[simp] theorem State.dropCmd_pci (s : State) (k : Nat) : (s.dropCmd k).pci = s.pci := rfl
@[simp] theorem State.dropCmd_cfg (s : State) (k : Nat) : (s.dropCmd k).cfg = s.cfg := rfl
@[simp] theorem State.dropCmd_lve (s : State) (k : Nat) : (s.dropCmd k).lve = s.lve := rfl
@[simp] theorem State.dropCmd_med (s : State) (k : Nat) : (s.dropCmd k).med = s.med := rfl
@[simp] theorem State.dropCmd_hbm (s : State) (k : Nat) : (s.dropCmd k).hbm = s.hbm := rfl
@[simp] theorem State.dropCmd_spm (s : State) (k : Nat) : (s.dropCmd k).spm = s.spm := rfl
@[simp] theorem State.dropCmd_cry (s : State) (k : Nat) : (s.dropCmd k).cry = s.cry := rfl
@[simp] theorem State.dropCmd_noc (s : State) (k : Nat) : (s.dropCmd k).noc = s.noc := rfl
@[simp] theorem State.dropCmd_fab (s : State) (k : Nat) : (s.dropCmd k).fab = s.fab := rfl
@[simp] theorem State.dropCmd_pwr (s : State) (k : Nat) : (s.dropCmd k).pwr = s.pwr := rfl
@[simp] theorem State.dropCmd_sl (s : State) (k : Nat) : (s.dropCmd k).sl = s.sl := rfl
@[simp] theorem State.dropCmd_cru (s : State) (k : Nat) : (s.dropCmd k).cru = s.cru := rfl
@[simp] theorem State.dropCmd_lanes (s : State) (k : Nat) : (s.dropCmd k).lanes = s.lanes := rfl
@[simp] theorem State.dropCmd_clk (s : State) (k : Nat) : (s.dropCmd k).clk = s.clk := rfl
@[simp] theorem State.dropCmd_tap (s : State) (k : Nat) : (s.dropCmd k).tap = s.tap := rfl
@[simp] theorem State.dropCmd_rd (s : State) (k : Nat) (rf : Fld) (ri rj : Nat) : (s.dropCmd k).rd rf ri rj = s.rd rf ri rj := rfl

/-! `State.updCmd` -/

@[simp] theorem State.updCmd_pending (s : State) (k : Nat) (f : Cmd → Cmd) : (s.updCmd k f).pending = s.pending := by unfold State.updCmd; split <;> rfl
@[simp] theorem State.updCmd_regs (s : State) (k : Nat) (f : Cmd → Cmd) : (s.updCmd k f).regs = s.regs := by unfold State.updCmd; split <;> rfl
@[simp] theorem State.updCmd_shadow (s : State) (k : Nat) (f : Cmd → Cmd) : (s.updCmd k f).shadow = s.shadow := by unfold State.updCmd; split <;> rfl
@[simp] theorem State.updCmd_stage (s : State) (k : Nat) (f : Cmd → Cmd) : (s.updCmd k f).stage = s.stage := by unfold State.updCmd; split <;> rfl
@[simp] theorem State.updCmd_time (s : State) (k : Nat) (f : Cmd → Cmd) : (s.updCmd k f).time = s.time := by unfold State.updCmd; split <;> rfl
@[simp] theorem State.updCmd_fresh (s : State) (k : Nat) (f : Cmd → Cmd) : (s.updCmd k f).fresh = s.fresh := by unfold State.updCmd; split <;> rfl
@[simp] theorem State.updCmd_out (s : State) (k : Nat) (f : Cmd → Cmd) : (s.updCmd k f).out = s.out := by unfold State.updCmd; split <;> rfl
@[simp] theorem State.updCmd_fuses (s : State) (k : Nat) (f : Cmd → Cmd) : (s.updCmd k f).fuses = s.fuses := by unfold State.updCmd; split <;> rfl
@[simp] theorem State.updCmd_evt (s : State) (k : Nat) (f : Cmd → Cmd) : (s.updCmd k f).evt = s.evt := by unfold State.updCmd; split <;> rfl
@[simp] theorem State.updCmd_gens (s : State) (k : Nat) (f : Cmd → Cmd) : (s.updCmd k f).gens = s.gens := by unfold State.updCmd; split <;> rfl
@[simp] theorem State.updCmd_tly (s : State) (k : Nat) (f : Cmd → Cmd) : (s.updCmd k f).tly = s.tly := by unfold State.updCmd; split <;> rfl
@[simp] theorem State.updCmd_dck (s : State) (k : Nat) (f : Cmd → Cmd) : (s.updCmd k f).dck = s.dck := by unfold State.updCmd; split <;> rfl
@[simp] theorem State.updCmd_pci (s : State) (k : Nat) (f : Cmd → Cmd) : (s.updCmd k f).pci = s.pci := by unfold State.updCmd; split <;> rfl
@[simp] theorem State.updCmd_cfg (s : State) (k : Nat) (f : Cmd → Cmd) : (s.updCmd k f).cfg = s.cfg := by unfold State.updCmd; split <;> rfl
@[simp] theorem State.updCmd_lve (s : State) (k : Nat) (f : Cmd → Cmd) : (s.updCmd k f).lve = s.lve := by unfold State.updCmd; split <;> rfl
@[simp] theorem State.updCmd_med (s : State) (k : Nat) (f : Cmd → Cmd) : (s.updCmd k f).med = s.med := by unfold State.updCmd; split <;> rfl
@[simp] theorem State.updCmd_hbm (s : State) (k : Nat) (f : Cmd → Cmd) : (s.updCmd k f).hbm = s.hbm := by unfold State.updCmd; split <;> rfl
@[simp] theorem State.updCmd_spm (s : State) (k : Nat) (f : Cmd → Cmd) : (s.updCmd k f).spm = s.spm := by unfold State.updCmd; split <;> rfl
@[simp] theorem State.updCmd_cry (s : State) (k : Nat) (f : Cmd → Cmd) : (s.updCmd k f).cry = s.cry := by unfold State.updCmd; split <;> rfl
@[simp] theorem State.updCmd_noc (s : State) (k : Nat) (f : Cmd → Cmd) : (s.updCmd k f).noc = s.noc := by unfold State.updCmd; split <;> rfl
@[simp] theorem State.updCmd_fab (s : State) (k : Nat) (f : Cmd → Cmd) : (s.updCmd k f).fab = s.fab := by unfold State.updCmd; split <;> rfl
@[simp] theorem State.updCmd_pwr (s : State) (k : Nat) (f : Cmd → Cmd) : (s.updCmd k f).pwr = s.pwr := by unfold State.updCmd; split <;> rfl
@[simp] theorem State.updCmd_sl (s : State) (k : Nat) (f : Cmd → Cmd) : (s.updCmd k f).sl = s.sl := by unfold State.updCmd; split <;> rfl
@[simp] theorem State.updCmd_cru (s : State) (k : Nat) (f : Cmd → Cmd) : (s.updCmd k f).cru = s.cru := by unfold State.updCmd; split <;> rfl
@[simp] theorem State.updCmd_lanes (s : State) (k : Nat) (f : Cmd → Cmd) : (s.updCmd k f).lanes = s.lanes := by unfold State.updCmd; split <;> rfl
@[simp] theorem State.updCmd_clk (s : State) (k : Nat) (f : Cmd → Cmd) : (s.updCmd k f).clk = s.clk := by unfold State.updCmd; split <;> rfl
@[simp] theorem State.updCmd_tap (s : State) (k : Nat) (f : Cmd → Cmd) : (s.updCmd k f).tap = s.tap := by unfold State.updCmd; split <;> rfl
@[simp] theorem State.updCmd_rd (s : State) (k : Nat) (f : Cmd → Cmd) (rf : Fld) (ri rj : Nat) : (s.updCmd k f).rd rf ri rj = s.rd rf ri rj := by unfold State.updCmd; split <;> rfl

/-! `State.updLine` -/

@[simp] theorem State.updLine_pending (s : State) (b : Nat) (f : Line → Line) : (s.updLine b f).pending = s.pending := by unfold State.updLine; split <;> rfl
@[simp] theorem State.updLine_regs (s : State) (b : Nat) (f : Line → Line) : (s.updLine b f).regs = s.regs := by unfold State.updLine; split <;> rfl
@[simp] theorem State.updLine_shadow (s : State) (b : Nat) (f : Line → Line) : (s.updLine b f).shadow = s.shadow := by unfold State.updLine; split <;> rfl
@[simp] theorem State.updLine_stage (s : State) (b : Nat) (f : Line → Line) : (s.updLine b f).stage = s.stage := by unfold State.updLine; split <;> rfl
@[simp] theorem State.updLine_time (s : State) (b : Nat) (f : Line → Line) : (s.updLine b f).time = s.time := by unfold State.updLine; split <;> rfl
@[simp] theorem State.updLine_fresh (s : State) (b : Nat) (f : Line → Line) : (s.updLine b f).fresh = s.fresh := by unfold State.updLine; split <;> rfl
@[simp] theorem State.updLine_out (s : State) (b : Nat) (f : Line → Line) : (s.updLine b f).out = s.out := by unfold State.updLine; split <;> rfl
@[simp] theorem State.updLine_fuses (s : State) (b : Nat) (f : Line → Line) : (s.updLine b f).fuses = s.fuses := by unfold State.updLine; split <;> rfl
@[simp] theorem State.updLine_evt (s : State) (b : Nat) (f : Line → Line) : (s.updLine b f).evt = s.evt := by unfold State.updLine; split <;> rfl
@[simp] theorem State.updLine_gens (s : State) (b : Nat) (f : Line → Line) : (s.updLine b f).gens = s.gens := by unfold State.updLine; split <;> rfl
@[simp] theorem State.updLine_qqp (s : State) (b : Nat) (f : Line → Line) : (s.updLine b f).qqp = s.qqp := by unfold State.updLine; split <;> rfl
@[simp] theorem State.updLine_dck (s : State) (b : Nat) (f : Line → Line) : (s.updLine b f).dck = s.dck := by unfold State.updLine; split <;> rfl
@[simp] theorem State.updLine_pci (s : State) (b : Nat) (f : Line → Line) : (s.updLine b f).pci = s.pci := by unfold State.updLine; split <;> rfl
@[simp] theorem State.updLine_cfg (s : State) (b : Nat) (f : Line → Line) : (s.updLine b f).cfg = s.cfg := by unfold State.updLine; split <;> rfl
@[simp] theorem State.updLine_lve (s : State) (b : Nat) (f : Line → Line) : (s.updLine b f).lve = s.lve := by unfold State.updLine; split <;> rfl
@[simp] theorem State.updLine_med (s : State) (b : Nat) (f : Line → Line) : (s.updLine b f).med = s.med := by unfold State.updLine; split <;> rfl
@[simp] theorem State.updLine_hbm (s : State) (b : Nat) (f : Line → Line) : (s.updLine b f).hbm = s.hbm := by unfold State.updLine; split <;> rfl
@[simp] theorem State.updLine_spm (s : State) (b : Nat) (f : Line → Line) : (s.updLine b f).spm = s.spm := by unfold State.updLine; split <;> rfl
@[simp] theorem State.updLine_cry (s : State) (b : Nat) (f : Line → Line) : (s.updLine b f).cry = s.cry := by unfold State.updLine; split <;> rfl
@[simp] theorem State.updLine_noc (s : State) (b : Nat) (f : Line → Line) : (s.updLine b f).noc = s.noc := by unfold State.updLine; split <;> rfl
@[simp] theorem State.updLine_fab (s : State) (b : Nat) (f : Line → Line) : (s.updLine b f).fab = s.fab := by unfold State.updLine; split <;> rfl
@[simp] theorem State.updLine_pwr (s : State) (b : Nat) (f : Line → Line) : (s.updLine b f).pwr = s.pwr := by unfold State.updLine; split <;> rfl
@[simp] theorem State.updLine_sl (s : State) (b : Nat) (f : Line → Line) : (s.updLine b f).sl = s.sl := by unfold State.updLine; split <;> rfl
@[simp] theorem State.updLine_cru (s : State) (b : Nat) (f : Line → Line) : (s.updLine b f).cru = s.cru := by unfold State.updLine; split <;> rfl
@[simp] theorem State.updLine_lanes (s : State) (b : Nat) (f : Line → Line) : (s.updLine b f).lanes = s.lanes := by unfold State.updLine; split <;> rfl
@[simp] theorem State.updLine_clk (s : State) (b : Nat) (f : Line → Line) : (s.updLine b f).clk = s.clk := by unfold State.updLine; split <;> rfl
@[simp] theorem State.updLine_tap (s : State) (b : Nat) (f : Line → Line) : (s.updLine b f).tap = s.tap := by unfold State.updLine; split <;> rfl
@[simp] theorem State.updLine_rd (s : State) (b : Nat) (f : Line → Line) (rf : Fld) (ri rj : Nat) : (s.updLine b f).rd rf ri rj = s.rd rf ri rj := by unfold State.updLine; split <;> rfl

/-! `State.updTask` -/

@[simp] theorem State.updTask_pending (s : State) (t : Nat) (f : Task → Task) : (s.updTask t f).pending = s.pending := by unfold State.updTask; split <;> rfl
@[simp] theorem State.updTask_regs (s : State) (t : Nat) (f : Task → Task) : (s.updTask t f).regs = s.regs := by unfold State.updTask; split <;> rfl
@[simp] theorem State.updTask_shadow (s : State) (t : Nat) (f : Task → Task) : (s.updTask t f).shadow = s.shadow := by unfold State.updTask; split <;> rfl
@[simp] theorem State.updTask_stage (s : State) (t : Nat) (f : Task → Task) : (s.updTask t f).stage = s.stage := by unfold State.updTask; split <;> rfl
@[simp] theorem State.updTask_time (s : State) (t : Nat) (f : Task → Task) : (s.updTask t f).time = s.time := by unfold State.updTask; split <;> rfl
@[simp] theorem State.updTask_fresh (s : State) (t : Nat) (f : Task → Task) : (s.updTask t f).fresh = s.fresh := by unfold State.updTask; split <;> rfl
@[simp] theorem State.updTask_out (s : State) (t : Nat) (f : Task → Task) : (s.updTask t f).out = s.out := by unfold State.updTask; split <;> rfl
@[simp] theorem State.updTask_fuses (s : State) (t : Nat) (f : Task → Task) : (s.updTask t f).fuses = s.fuses := by unfold State.updTask; split <;> rfl
@[simp] theorem State.updTask_evt (s : State) (t : Nat) (f : Task → Task) : (s.updTask t f).evt = s.evt := by unfold State.updTask; split <;> rfl
@[simp] theorem State.updTask_gens (s : State) (t : Nat) (f : Task → Task) : (s.updTask t f).gens = s.gens := by unfold State.updTask; split <;> rfl
@[simp] theorem State.updTask_qqp (s : State) (t : Nat) (f : Task → Task) : (s.updTask t f).qqp = s.qqp := by unfold State.updTask; split <;> rfl
@[simp] theorem State.updTask_tly (s : State) (t : Nat) (f : Task → Task) : (s.updTask t f).tly = s.tly := by unfold State.updTask; split <;> rfl
@[simp] theorem State.updTask_pci (s : State) (t : Nat) (f : Task → Task) : (s.updTask t f).pci = s.pci := by unfold State.updTask; split <;> rfl
@[simp] theorem State.updTask_cfg (s : State) (t : Nat) (f : Task → Task) : (s.updTask t f).cfg = s.cfg := by unfold State.updTask; split <;> rfl
@[simp] theorem State.updTask_lve (s : State) (t : Nat) (f : Task → Task) : (s.updTask t f).lve = s.lve := by unfold State.updTask; split <;> rfl
@[simp] theorem State.updTask_med (s : State) (t : Nat) (f : Task → Task) : (s.updTask t f).med = s.med := by unfold State.updTask; split <;> rfl
@[simp] theorem State.updTask_hbm (s : State) (t : Nat) (f : Task → Task) : (s.updTask t f).hbm = s.hbm := by unfold State.updTask; split <;> rfl
@[simp] theorem State.updTask_spm (s : State) (t : Nat) (f : Task → Task) : (s.updTask t f).spm = s.spm := by unfold State.updTask; split <;> rfl
@[simp] theorem State.updTask_cry (s : State) (t : Nat) (f : Task → Task) : (s.updTask t f).cry = s.cry := by unfold State.updTask; split <;> rfl
@[simp] theorem State.updTask_noc (s : State) (t : Nat) (f : Task → Task) : (s.updTask t f).noc = s.noc := by unfold State.updTask; split <;> rfl
@[simp] theorem State.updTask_fab (s : State) (t : Nat) (f : Task → Task) : (s.updTask t f).fab = s.fab := by unfold State.updTask; split <;> rfl
@[simp] theorem State.updTask_pwr (s : State) (t : Nat) (f : Task → Task) : (s.updTask t f).pwr = s.pwr := by unfold State.updTask; split <;> rfl
@[simp] theorem State.updTask_sl (s : State) (t : Nat) (f : Task → Task) : (s.updTask t f).sl = s.sl := by unfold State.updTask; split <;> rfl
@[simp] theorem State.updTask_cru (s : State) (t : Nat) (f : Task → Task) : (s.updTask t f).cru = s.cru := by unfold State.updTask; split <;> rfl
@[simp] theorem State.updTask_lanes (s : State) (t : Nat) (f : Task → Task) : (s.updTask t f).lanes = s.lanes := by unfold State.updTask; split <;> rfl
@[simp] theorem State.updTask_clk (s : State) (t : Nat) (f : Task → Task) : (s.updTask t f).clk = s.clk := by unfold State.updTask; split <;> rfl
@[simp] theorem State.updTask_tap (s : State) (t : Nat) (f : Task → Task) : (s.updTask t f).tap = s.tap := by unfold State.updTask; split <;> rfl
@[simp] theorem State.updTask_rd (s : State) (t : Nat) (f : Task → Task) (rf : Fld) (ri rj : Nat) : (s.updTask t f).rd rf ri rj = s.rd rf ri rj := by unfold State.updTask; split <;> rfl

/-! `State.updEng` -/

@[simp] theorem State.updEng_pending (s : State) (e : Nat) (f : Eng → Eng) : (s.updEng e f).pending = s.pending := rfl
@[simp] theorem State.updEng_regs (s : State) (e : Nat) (f : Eng → Eng) : (s.updEng e f).regs = s.regs := rfl
@[simp] theorem State.updEng_shadow (s : State) (e : Nat) (f : Eng → Eng) : (s.updEng e f).shadow = s.shadow := rfl
@[simp] theorem State.updEng_stage (s : State) (e : Nat) (f : Eng → Eng) : (s.updEng e f).stage = s.stage := rfl
@[simp] theorem State.updEng_time (s : State) (e : Nat) (f : Eng → Eng) : (s.updEng e f).time = s.time := rfl
@[simp] theorem State.updEng_fresh (s : State) (e : Nat) (f : Eng → Eng) : (s.updEng e f).fresh = s.fresh := rfl
@[simp] theorem State.updEng_out (s : State) (e : Nat) (f : Eng → Eng) : (s.updEng e f).out = s.out := rfl
@[simp] theorem State.updEng_fuses (s : State) (e : Nat) (f : Eng → Eng) : (s.updEng e f).fuses = s.fuses := rfl
@[simp] theorem State.updEng_evt (s : State) (e : Nat) (f : Eng → Eng) : (s.updEng e f).evt = s.evt := rfl
@[simp] theorem State.updEng_gens (s : State) (e : Nat) (f : Eng → Eng) : (s.updEng e f).gens = s.gens := rfl
@[simp] theorem State.updEng_qqp (s : State) (e : Nat) (f : Eng → Eng) : (s.updEng e f).qqp = s.qqp := rfl
@[simp] theorem State.updEng_tly (s : State) (e : Nat) (f : Eng → Eng) : (s.updEng e f).tly = s.tly := rfl
@[simp] theorem State.updEng_dck (s : State) (e : Nat) (f : Eng → Eng) :
    (s.updEng e f).dck = { s.dck with engs := Map.upd {} s.dck.engs e f } := rfl
@[simp] theorem State.updEng_pci (s : State) (e : Nat) (f : Eng → Eng) : (s.updEng e f).pci = s.pci := rfl
@[simp] theorem State.updEng_cfg (s : State) (e : Nat) (f : Eng → Eng) : (s.updEng e f).cfg = s.cfg := rfl
@[simp] theorem State.updEng_lve (s : State) (e : Nat) (f : Eng → Eng) : (s.updEng e f).lve = s.lve := rfl
@[simp] theorem State.updEng_med (s : State) (e : Nat) (f : Eng → Eng) : (s.updEng e f).med = s.med := rfl
@[simp] theorem State.updEng_hbm (s : State) (e : Nat) (f : Eng → Eng) : (s.updEng e f).hbm = s.hbm := rfl
@[simp] theorem State.updEng_spm (s : State) (e : Nat) (f : Eng → Eng) : (s.updEng e f).spm = s.spm := rfl
@[simp] theorem State.updEng_cry (s : State) (e : Nat) (f : Eng → Eng) : (s.updEng e f).cry = s.cry := rfl
@[simp] theorem State.updEng_noc (s : State) (e : Nat) (f : Eng → Eng) : (s.updEng e f).noc = s.noc := rfl
@[simp] theorem State.updEng_fab (s : State) (e : Nat) (f : Eng → Eng) : (s.updEng e f).fab = s.fab := rfl
@[simp] theorem State.updEng_pwr (s : State) (e : Nat) (f : Eng → Eng) : (s.updEng e f).pwr = s.pwr := rfl
@[simp] theorem State.updEng_sl (s : State) (e : Nat) (f : Eng → Eng) : (s.updEng e f).sl = s.sl := rfl
@[simp] theorem State.updEng_cru (s : State) (e : Nat) (f : Eng → Eng) : (s.updEng e f).cru = s.cru := rfl
@[simp] theorem State.updEng_lanes (s : State) (e : Nat) (f : Eng → Eng) : (s.updEng e f).lanes = s.lanes := rfl
@[simp] theorem State.updEng_clk (s : State) (e : Nat) (f : Eng → Eng) : (s.updEng e f).clk = s.clk := rfl
@[simp] theorem State.updEng_tap (s : State) (e : Nat) (f : Eng → Eng) : (s.updEng e f).tap = s.tap := rfl
@[simp] theorem State.updEng_rd (s : State) (e : Nat) (f : Eng → Eng) (rf : Fld) (ri rj : Nat) : (s.updEng e f).rd rf ri rj = s.rd rf ri rj := rfl

/-! `State.setTract` -/

@[simp] theorem State.setTract_pending (s : State) (t : Nat) (x : Tract) : (s.setTract t x).pending = s.pending := rfl
@[simp] theorem State.setTract_regs (s : State) (t : Nat) (x : Tract) : (s.setTract t x).regs = s.regs := rfl
@[simp] theorem State.setTract_shadow (s : State) (t : Nat) (x : Tract) : (s.setTract t x).shadow = s.shadow := rfl
@[simp] theorem State.setTract_stage (s : State) (t : Nat) (x : Tract) : (s.setTract t x).stage = s.stage := rfl
@[simp] theorem State.setTract_time (s : State) (t : Nat) (x : Tract) : (s.setTract t x).time = s.time := rfl
@[simp] theorem State.setTract_fresh (s : State) (t : Nat) (x : Tract) : (s.setTract t x).fresh = s.fresh := rfl
@[simp] theorem State.setTract_out (s : State) (t : Nat) (x : Tract) : (s.setTract t x).out = s.out := rfl
@[simp] theorem State.setTract_fuses (s : State) (t : Nat) (x : Tract) : (s.setTract t x).fuses = s.fuses := rfl
@[simp] theorem State.setTract_evt (s : State) (t : Nat) (x : Tract) : (s.setTract t x).evt = s.evt := rfl
@[simp] theorem State.setTract_gens (s : State) (t : Nat) (x : Tract) : (s.setTract t x).gens = s.gens := rfl
@[simp] theorem State.setTract_qqp (s : State) (t : Nat) (x : Tract) : (s.setTract t x).qqp = s.qqp := rfl
@[simp] theorem State.setTract_tly (s : State) (t : Nat) (x : Tract) :
    (s.setTract t x).tly = { s.tly with tracts := Map.set {} s.tly.tracts t x } := rfl
@[simp] theorem State.setTract_dck (s : State) (t : Nat) (x : Tract) : (s.setTract t x).dck = s.dck := rfl
@[simp] theorem State.setTract_pci (s : State) (t : Nat) (x : Tract) : (s.setTract t x).pci = s.pci := rfl
@[simp] theorem State.setTract_cfg (s : State) (t : Nat) (x : Tract) : (s.setTract t x).cfg = s.cfg := rfl
@[simp] theorem State.setTract_lve (s : State) (t : Nat) (x : Tract) : (s.setTract t x).lve = s.lve := rfl
@[simp] theorem State.setTract_med (s : State) (t : Nat) (x : Tract) : (s.setTract t x).med = s.med := rfl
@[simp] theorem State.setTract_hbm (s : State) (t : Nat) (x : Tract) : (s.setTract t x).hbm = s.hbm := rfl
@[simp] theorem State.setTract_spm (s : State) (t : Nat) (x : Tract) : (s.setTract t x).spm = s.spm := rfl
@[simp] theorem State.setTract_cry (s : State) (t : Nat) (x : Tract) : (s.setTract t x).cry = s.cry := rfl
@[simp] theorem State.setTract_noc (s : State) (t : Nat) (x : Tract) : (s.setTract t x).noc = s.noc := rfl
@[simp] theorem State.setTract_fab (s : State) (t : Nat) (x : Tract) : (s.setTract t x).fab = s.fab := rfl
@[simp] theorem State.setTract_pwr (s : State) (t : Nat) (x : Tract) : (s.setTract t x).pwr = s.pwr := rfl
@[simp] theorem State.setTract_sl (s : State) (t : Nat) (x : Tract) : (s.setTract t x).sl = s.sl := rfl
@[simp] theorem State.setTract_cru (s : State) (t : Nat) (x : Tract) : (s.setTract t x).cru = s.cru := rfl
@[simp] theorem State.setTract_lanes (s : State) (t : Nat) (x : Tract) : (s.setTract t x).lanes = s.lanes := rfl
@[simp] theorem State.setTract_clk (s : State) (t : Nat) (x : Tract) : (s.setTract t x).clk = s.clk := rfl
@[simp] theorem State.setTract_tap (s : State) (t : Nat) (x : Tract) : (s.setTract t x).tap = s.tap := rfl
@[simp] theorem State.setTract_rd (s : State) (t : Nat) (x : Tract) (rf : Fld) (ri rj : Nat) : (s.setTract t x).rd rf ri rj = s.rd rf ri rj := rfl

/-! `State.updFrm` -/

@[simp] theorem State.updFrm_pending (s : State) (a : Nat) (f : Frm → Frm) : (s.updFrm a f).pending = s.pending := rfl
@[simp] theorem State.updFrm_regs (s : State) (a : Nat) (f : Frm → Frm) : (s.updFrm a f).regs = s.regs := rfl
@[simp] theorem State.updFrm_shadow (s : State) (a : Nat) (f : Frm → Frm) : (s.updFrm a f).shadow = s.shadow := rfl
@[simp] theorem State.updFrm_stage (s : State) (a : Nat) (f : Frm → Frm) : (s.updFrm a f).stage = s.stage := rfl
@[simp] theorem State.updFrm_time (s : State) (a : Nat) (f : Frm → Frm) : (s.updFrm a f).time = s.time := rfl
@[simp] theorem State.updFrm_fresh (s : State) (a : Nat) (f : Frm → Frm) : (s.updFrm a f).fresh = s.fresh := rfl
@[simp] theorem State.updFrm_out (s : State) (a : Nat) (f : Frm → Frm) : (s.updFrm a f).out = s.out := rfl
@[simp] theorem State.updFrm_fuses (s : State) (a : Nat) (f : Frm → Frm) : (s.updFrm a f).fuses = s.fuses := rfl
@[simp] theorem State.updFrm_evt (s : State) (a : Nat) (f : Frm → Frm) : (s.updFrm a f).evt = s.evt := rfl
@[simp] theorem State.updFrm_gens (s : State) (a : Nat) (f : Frm → Frm) : (s.updFrm a f).gens = s.gens := rfl
@[simp] theorem State.updFrm_qqp (s : State) (a : Nat) (f : Frm → Frm) : (s.updFrm a f).qqp = s.qqp := rfl
@[simp] theorem State.updFrm_tly (s : State) (a : Nat) (f : Frm → Frm) : (s.updFrm a f).tly = s.tly := rfl
@[simp] theorem State.updFrm_dck (s : State) (a : Nat) (f : Frm → Frm) : (s.updFrm a f).dck = s.dck := rfl
@[simp] theorem State.updFrm_pci (s : State) (a : Nat) (f : Frm → Frm) : (s.updFrm a f).pci = s.pci := rfl
@[simp] theorem State.updFrm_cfg (s : State) (a : Nat) (f : Frm → Frm) : (s.updFrm a f).cfg = s.cfg := rfl
@[simp] theorem State.updFrm_lve (s : State) (a : Nat) (f : Frm → Frm) : (s.updFrm a f).lve = s.lve := rfl
@[simp] theorem State.updFrm_med (s : State) (a : Nat) (f : Frm → Frm) : (s.updFrm a f).med = s.med := rfl
@[simp] theorem State.updFrm_hbm (s : State) (a : Nat) (f : Frm → Frm) : (s.updFrm a f).hbm = s.hbm := rfl
@[simp] theorem State.updFrm_spm (s : State) (a : Nat) (f : Frm → Frm) : (s.updFrm a f).spm = s.spm := rfl
@[simp] theorem State.updFrm_cry (s : State) (a : Nat) (f : Frm → Frm) : (s.updFrm a f).cry = s.cry := rfl
@[simp] theorem State.updFrm_noc (s : State) (a : Nat) (f : Frm → Frm) : (s.updFrm a f).noc = s.noc := rfl
@[simp] theorem State.updFrm_fab (s : State) (a : Nat) (f : Frm → Frm) : (s.updFrm a f).fab = s.fab := rfl
@[simp] theorem State.updFrm_pwr (s : State) (a : Nat) (f : Frm → Frm) : (s.updFrm a f).pwr = s.pwr := rfl
@[simp] theorem State.updFrm_sl (s : State) (a : Nat) (f : Frm → Frm) :
    (s.updFrm a f).sl = { s.sl with frames := Map.upd {} s.sl.frames a f } := rfl
@[simp] theorem State.updFrm_cru (s : State) (a : Nat) (f : Frm → Frm) : (s.updFrm a f).cru = s.cru := rfl
@[simp] theorem State.updFrm_lanes (s : State) (a : Nat) (f : Frm → Frm) : (s.updFrm a f).lanes = s.lanes := rfl
@[simp] theorem State.updFrm_clk (s : State) (a : Nat) (f : Frm → Frm) : (s.updFrm a f).clk = s.clk := rfl
@[simp] theorem State.updFrm_tap (s : State) (a : Nat) (f : Frm → Frm) : (s.updFrm a f).tap = s.tap := rfl
@[simp] theorem State.updFrm_rd (s : State) (a : Nat) (f : Frm → Frm) (rf : Fld) (ri rj : Nat) : (s.updFrm a f).rd rf ri rj = s.rd rf ri rj := rfl

/-! `State.setNode` -/

@[simp] theorem State.setNode_pending (s : State) (r l i : Nat) (x : CNode) : (s.setNode r l i x).pending = s.pending := rfl
@[simp] theorem State.setNode_regs (s : State) (r l i : Nat) (x : CNode) : (s.setNode r l i x).regs = s.regs := rfl
@[simp] theorem State.setNode_shadow (s : State) (r l i : Nat) (x : CNode) : (s.setNode r l i x).shadow = s.shadow := rfl
@[simp] theorem State.setNode_stage (s : State) (r l i : Nat) (x : CNode) : (s.setNode r l i x).stage = s.stage := rfl
@[simp] theorem State.setNode_time (s : State) (r l i : Nat) (x : CNode) : (s.setNode r l i x).time = s.time := rfl
@[simp] theorem State.setNode_fresh (s : State) (r l i : Nat) (x : CNode) : (s.setNode r l i x).fresh = s.fresh := rfl
@[simp] theorem State.setNode_out (s : State) (r l i : Nat) (x : CNode) : (s.setNode r l i x).out = s.out := rfl
@[simp] theorem State.setNode_fuses (s : State) (r l i : Nat) (x : CNode) : (s.setNode r l i x).fuses = s.fuses := rfl
@[simp] theorem State.setNode_evt (s : State) (r l i : Nat) (x : CNode) : (s.setNode r l i x).evt = s.evt := rfl
@[simp] theorem State.setNode_gens (s : State) (r l i : Nat) (x : CNode) : (s.setNode r l i x).gens = s.gens := rfl
@[simp] theorem State.setNode_qqp (s : State) (r l i : Nat) (x : CNode) : (s.setNode r l i x).qqp = s.qqp := rfl
@[simp] theorem State.setNode_tly (s : State) (r l i : Nat) (x : CNode) : (s.setNode r l i x).tly = s.tly := rfl
@[simp] theorem State.setNode_dck (s : State) (r l i : Nat) (x : CNode) : (s.setNode r l i x).dck = s.dck := rfl
@[simp] theorem State.setNode_pci (s : State) (r l i : Nat) (x : CNode) : (s.setNode r l i x).pci = s.pci := rfl
@[simp] theorem State.setNode_cfg (s : State) (r l i : Nat) (x : CNode) : (s.setNode r l i x).cfg = s.cfg := rfl
@[simp] theorem State.setNode_lve (s : State) (r l i : Nat) (x : CNode) : (s.setNode r l i x).lve = s.lve := rfl
@[simp] theorem State.setNode_med (s : State) (r l i : Nat) (x : CNode) : (s.setNode r l i x).med = s.med := rfl
@[simp] theorem State.setNode_hbm (s : State) (r l i : Nat) (x : CNode) : (s.setNode r l i x).hbm = s.hbm := rfl
@[simp] theorem State.setNode_spm (s : State) (r l i : Nat) (x : CNode) : (s.setNode r l i x).spm = s.spm := rfl
@[simp] theorem State.setNode_cry (s : State) (r l i : Nat) (x : CNode) :
    (s.setNode r l i x).cry = { s.cry with nodes := Map.set none s.cry.nodes (nodeKey r l i) (some x) } := rfl
@[simp] theorem State.setNode_noc (s : State) (r l i : Nat) (x : CNode) : (s.setNode r l i x).noc = s.noc := rfl
@[simp] theorem State.setNode_fab (s : State) (r l i : Nat) (x : CNode) : (s.setNode r l i x).fab = s.fab := rfl
@[simp] theorem State.setNode_pwr (s : State) (r l i : Nat) (x : CNode) : (s.setNode r l i x).pwr = s.pwr := rfl
@[simp] theorem State.setNode_sl (s : State) (r l i : Nat) (x : CNode) : (s.setNode r l i x).sl = s.sl := rfl
@[simp] theorem State.setNode_cru (s : State) (r l i : Nat) (x : CNode) : (s.setNode r l i x).cru = s.cru := rfl
@[simp] theorem State.setNode_lanes (s : State) (r l i : Nat) (x : CNode) : (s.setNode r l i x).lanes = s.lanes := rfl
@[simp] theorem State.setNode_clk (s : State) (r l i : Nat) (x : CNode) : (s.setNode r l i x).clk = s.clk := rfl
@[simp] theorem State.setNode_tap (s : State) (r l i : Nat) (x : CNode) : (s.setNode r l i x).tap = s.tap := rfl
@[simp] theorem State.setNode_rd (s : State) (r l i : Nat) (x : CNode) (rf : Fld) (ri rj : Nat) : (s.setNode r l i x).rd rf ri rj = s.rd rf ri rj := rfl

/-! `State.updFrame` -/

@[simp] theorem State.updFrame_pending (s : State) (page : Nat) (f : Frame → Frame) : (s.updFrame page f).pending = s.pending := by unfold State.updFrame; split <;> rfl
@[simp] theorem State.updFrame_regs (s : State) (page : Nat) (f : Frame → Frame) : (s.updFrame page f).regs = s.regs := by unfold State.updFrame; split <;> rfl
@[simp] theorem State.updFrame_shadow (s : State) (page : Nat) (f : Frame → Frame) : (s.updFrame page f).shadow = s.shadow := by unfold State.updFrame; split <;> rfl
@[simp] theorem State.updFrame_stage (s : State) (page : Nat) (f : Frame → Frame) : (s.updFrame page f).stage = s.stage := by unfold State.updFrame; split <;> rfl
@[simp] theorem State.updFrame_time (s : State) (page : Nat) (f : Frame → Frame) : (s.updFrame page f).time = s.time := by unfold State.updFrame; split <;> rfl
@[simp] theorem State.updFrame_fresh (s : State) (page : Nat) (f : Frame → Frame) : (s.updFrame page f).fresh = s.fresh := by unfold State.updFrame; split <;> rfl
@[simp] theorem State.updFrame_out (s : State) (page : Nat) (f : Frame → Frame) : (s.updFrame page f).out = s.out := by unfold State.updFrame; split <;> rfl
@[simp] theorem State.updFrame_fuses (s : State) (page : Nat) (f : Frame → Frame) : (s.updFrame page f).fuses = s.fuses := by unfold State.updFrame; split <;> rfl
@[simp] theorem State.updFrame_evt (s : State) (page : Nat) (f : Frame → Frame) : (s.updFrame page f).evt = s.evt := by unfold State.updFrame; split <;> rfl
@[simp] theorem State.updFrame_gens (s : State) (page : Nat) (f : Frame → Frame) : (s.updFrame page f).gens = s.gens := by unfold State.updFrame; split <;> rfl
@[simp] theorem State.updFrame_qqp (s : State) (page : Nat) (f : Frame → Frame) : (s.updFrame page f).qqp = s.qqp := by unfold State.updFrame; split <;> rfl
@[simp] theorem State.updFrame_dck (s : State) (page : Nat) (f : Frame → Frame) : (s.updFrame page f).dck = s.dck := by unfold State.updFrame; split <;> rfl
@[simp] theorem State.updFrame_pci (s : State) (page : Nat) (f : Frame → Frame) : (s.updFrame page f).pci = s.pci := by unfold State.updFrame; split <;> rfl
@[simp] theorem State.updFrame_cfg (s : State) (page : Nat) (f : Frame → Frame) : (s.updFrame page f).cfg = s.cfg := by unfold State.updFrame; split <;> rfl
@[simp] theorem State.updFrame_lve (s : State) (page : Nat) (f : Frame → Frame) : (s.updFrame page f).lve = s.lve := by unfold State.updFrame; split <;> rfl
@[simp] theorem State.updFrame_med (s : State) (page : Nat) (f : Frame → Frame) : (s.updFrame page f).med = s.med := by unfold State.updFrame; split <;> rfl
@[simp] theorem State.updFrame_hbm (s : State) (page : Nat) (f : Frame → Frame) : (s.updFrame page f).hbm = s.hbm := by unfold State.updFrame; split <;> rfl
@[simp] theorem State.updFrame_spm (s : State) (page : Nat) (f : Frame → Frame) : (s.updFrame page f).spm = s.spm := by unfold State.updFrame; split <;> rfl
@[simp] theorem State.updFrame_cry (s : State) (page : Nat) (f : Frame → Frame) : (s.updFrame page f).cry = s.cry := by unfold State.updFrame; split <;> rfl
@[simp] theorem State.updFrame_noc (s : State) (page : Nat) (f : Frame → Frame) : (s.updFrame page f).noc = s.noc := by unfold State.updFrame; split <;> rfl
@[simp] theorem State.updFrame_fab (s : State) (page : Nat) (f : Frame → Frame) : (s.updFrame page f).fab = s.fab := by unfold State.updFrame; split <;> rfl
@[simp] theorem State.updFrame_pwr (s : State) (page : Nat) (f : Frame → Frame) : (s.updFrame page f).pwr = s.pwr := by unfold State.updFrame; split <;> rfl
@[simp] theorem State.updFrame_sl (s : State) (page : Nat) (f : Frame → Frame) : (s.updFrame page f).sl = s.sl := by unfold State.updFrame; split <;> rfl
@[simp] theorem State.updFrame_cru (s : State) (page : Nat) (f : Frame → Frame) : (s.updFrame page f).cru = s.cru := by unfold State.updFrame; split <;> rfl
@[simp] theorem State.updFrame_lanes (s : State) (page : Nat) (f : Frame → Frame) : (s.updFrame page f).lanes = s.lanes := by unfold State.updFrame; split <;> rfl
@[simp] theorem State.updFrame_clk (s : State) (page : Nat) (f : Frame → Frame) : (s.updFrame page f).clk = s.clk := by unfold State.updFrame; split <;> rfl
@[simp] theorem State.updFrame_tap (s : State) (page : Nat) (f : Frame → Frame) : (s.updFrame page f).tap = s.tap := by unfold State.updFrame; split <;> rfl
@[simp] theorem State.updFrame_rd (s : State) (page : Nat) (f : Frame → Frame) (rf : Fld) (ri rj : Nat) : (s.updFrame page f).rd rf ri rj = s.rd rf ri rj := by unfold State.updFrame; split <;> rfl

end Sys2Proof.Machine
end

