-- ==== Sys2Proof/Laws/Registers.lean ====
section
/-! SUPPORT. What a register field reads as after a change. A value equal to a field's reset value is not listed, so reading
what was written needs the register store in its canonical form (`Memory.wf`). -/

namespace Sys2Proof.Machine
open Sys2Proof

theorem Map.get_above {α : Type} {d : α} {m : Map α} {k b : Nat} (hb : k < b) (h : Map.above b m = true) : Map.get d m k = d := by
  cases m with
  | nil => rfl
  | cons e m =>
    simp only [Map.above, Bool.and_eq_true, decide_eq_true_eq] at h
    have h1 : ¬ k = e.1 := by omega
    have h2 : k < e.1 := by omega
    simp [Map.get, h1, h2]

theorem Map.get_insert_self {α : Type} {d : α} (m : Map α) (k : Nat) (x : α) : Map.get d (Map.insert m k x) k = x := by
  induction m with
  | nil => simp [Map.insert, Map.get]
  | cons e m ih =>
    simp only [Map.insert]
    split
    · simp [Map.get]
    · split
      · simp [Map.get]
      · rename_i h1 h2; simp [Map.get, h1, h2, ih]

theorem Map.get_insert_ne {α : Type} {d : α} (m : Map α) {k j : Nat} (x : α) (hj : j ≠ k) :
    Map.get d (Map.insert m k x) j = Map.get d m j := by
  induction m with
  | nil => simp [Map.insert, Map.get, hj]
  | cons e m ih =>
    simp only [Map.insert]
    split
    · rename_i h1; subst h1; simp [Map.get, hj]
    · split
      · rename_i h1 h2
        simp only [Map.get, hj, if_false]
        by_cases h3 : j < k
        · have h4 : ¬ j = e.1 := by omega
          have h5 : j < e.1 := by omega
          simp [h3, h4, h5]
        · simp [h3]
      · simp only [Map.get, ih]

theorem Map.get_erase_self {α : Type} {d : α} {m : Map α} (k : Nat) {b : Nat} (h : Map.above b m = true) :
    Map.get d (Map.erase m k) k = d := by
  induction m generalizing b with
  | nil => rfl
  | cons e m ih =>
    simp only [Map.above, Bool.and_eq_true, decide_eq_true_eq] at h
    simp only [Map.erase]
    split
    · exact Map.get_above (by omega) h.2
    · split
      · rename_i h1 h2; simp [Map.get, h1, h2]
      · rename_i h1 h2; simp [Map.get, h1, h2, ih h.2]

theorem Map.get_erase_ne {α : Type} {d : α} {m : Map α} {k j : Nat} (hj : j ≠ k) {b : Nat} (h : Map.above b m = true) :
    Map.get d (Map.erase m k) j = Map.get d m j := by
  induction m generalizing b with
  | nil => rfl
  | cons e m ih =>
    simp only [Map.above, Bool.and_eq_true, decide_eq_true_eq] at h
    simp only [Map.erase]
    split
    · rename_i h1
      subst h1
      simp only [Map.get, hj, if_false]
      split
      · exact Map.get_above (by omega) h.2
      · rfl
    · split
      · rfl
      · simp only [Map.get, ih h.2]

theorem Map.get_set_self {α : Type} [DecidableEq α] (d : α) {m : Map α} (k : Nat) (x : α) (h : Map.above 0 m = true) :
    Map.get d (Map.set d m k x) k = x := by
  unfold Map.set
  split
  · rename_i hx; rw [Map.get_erase_self k h, hx]
  · exact Map.get_insert_self m k x

theorem Map.get_set_ne {α : Type} [DecidableEq α] (d e : α) {m : Map α} {k j : Nat} (x : α) (hj : j ≠ k)
    (h : Map.above 0 m = true) : Map.get d (Map.set e m k x) j = Map.get d m j := by
  unfold Map.set
  split
  · exact Map.get_erase_ne hj h
  · exact Map.get_insert_ne m x hj

theorem Map.get_keep {α : Type} {d : α} {m : Map α} (p : Nat → α → Bool) {k : Nat} (hk : ∀ v, p k v = true) {b : Nat}
    (h : Map.above b m = true) : Map.get d (Map.keep p m) k = Map.get d m k := by
  induction m generalizing b with
  | nil => rfl
  | cons e m ih =>
    simp only [Map.above, Bool.and_eq_true, decide_eq_true_eq] at h
    simp only [Map.keep, List.filter_cons] at ih ⊢
    split
    · simp only [Map.get, ih h.2]
    · rename_i hp
      rw [ih h.2]
      by_cases h1 : k = e.1
      · subst h1; exact absurd (hk e.2) hp
      · simp only [Map.get, h1, if_false]
        split
        · exact Map.get_above (by omega) h.2
        · rfl

/-! ### Effects of a part that runs -/

theorem State.when_live {s : State} {c : Bool} {f : State → State} (hc : c = true) (hd : s.dark = false) : s.when c f = f s := by
  simp [State.when, hc, hd]

theorem State.when_not {s : State} {c : Bool} {f : State → State} (hc : c = false) : s.when c f = s := by
  simp [State.when, hc]

theorem State.when_dark {s : State} {c : Bool} {f : State → State} (hd : s.dark = true) : s.when c f = s := by
  simp [State.when, hd]

/-! ### Register fields -/

theorem Memory.wf_regs {s : State} (h : Memory.wf s = true) : Map.above 0 s.regs = true := by
  simp only [Memory.wf, Bool.and_eq_true] at h; exact h.1.1

theorem Keeps.wf {ps : Part → Prop} {s t : State} (h : Keeps ps s t) (w : Memory.wf s = true) : Memory.wf t = true := by
  simp only [Memory.wf, Bool.and_eq_true] at w ⊢
  exact ⟨⟨h.regs w.1.1, h.hbm w.1.2⟩, h.spm w.2⟩

theorem Keeps.touches {l : List Part} {s t : State} (h : Keeps (· ∈ l) s t) : Touches l s t := ⟨h.1, h.2, h.7⟩

theorem State.wf_put {s : State} (w : Memory.wf s = true) (f : Fld) (v i j : Nat) : Memory.wf (s.put f v i j) = true :=
  (State.put_keeps (ps := fun _ => True) trivial (Keeps.refl s)).wf w

theorem State.wf_post {s : State} (w : Memory.wf s = true) (c a b : Nat) (t : Option Nat) : Memory.wf (s.post c a b t) = true :=
  (State.post_keeps (ps := fun _ => True) trivial trivial trivial trivial (Keeps.refl s)).wf w

/-- A field reads back what was written, cut to its width. -/
theorem State.rd_put_self {s : State} (w : Memory.wf s = true) (f : Fld) (v i j : Nat) : (s.put f v i j).rd f i j = f.cut v :=
  Map.get_set_self _ _ _ (Memory.wf_regs w)

/-- A write leaves every field with another key alone. -/
theorem State.rd_put_ne {s : State} (w : Memory.wf s = true) (f g : Fld) (v i j x y : Nat) (h : g.key x y ≠ f.key i j) :
    (s.put f v i j).rd g x y = s.rd g x y :=
  Map.get_set_ne _ _ _ h (Memory.wf_regs w)

theorem Fld.key_ne_of_blk {f g : Fld} (h : g.blk ≠ f.blk) (i j x y : Nat) : g.key x y ≠ f.key i j := by
  intro e
  have := congrArg (· / 2 ^ 40) e
  simp only [Fld.key_blk] at this
  exact h this

/-- A change that touches no register of a field's block leaves the field alone. -/
theorem Keeps.rd {ps : Part → Prop} {s t : State} (h : Keeps ps s t) (w : Memory.wf s = true) (f : Fld) (hp : ¬ ps (.regs f.blk))
    (i j : Nat) : t.rd f i j = s.rd f i j := by
  have hk : ∀ v : Nat, (f.key i j / 2 ^ 40 == f.blk) = true := fun _ => beq_iff_eq.2 (Fld.key_blk f i j)
  have e := h.7 _ hp
  have a := Map.get_keep (d := f.reset i) (fun k (_ : Nat) => k / 2 ^ 40 == f.blk) hk (Memory.wf_regs (h.wf w))
  have b := Map.get_keep (d := f.reset i) (fun k (_ : Nat) => k / 2 ^ 40 == f.blk) hk (Memory.wf_regs w)
  unfold State.rd
  exact a.symm.trans ((congrArg (fun m => Map.get (f.reset i) m (f.key i j)) e).trans b)

/-- Posting an event changes the registers of the event ledger alone. -/
theorem State.rd_post {s : State} (w : Memory.wf s = true) (c a b : Nat) (t : Option Nat) (f : Fld) (i j : Nat)
    (h : f.blk ≠ 17) : (s.post c a b t).rd f i j = s.rd f i j :=
  (State.post_keeps (ps := fun p => p = .regs 17 ∨ p = .evt ∨ p = .out ∨ p = .pci) (.inl rfl) (.inr (.inl rfl))
    (.inr (.inr (.inl rfl))) (.inr (.inr (.inr rfl))) (Keeps.refl s)).rd w f (by simp [h]) i j

/-- Writing one value for each index below `n` writes them all. -/
theorem State.rd_range_put {s : State} (w : Memory.wf s = true) (f : Fld) (g : Nat → Nat) (n : Nat)
    (hk : ∀ i < n, ∀ j < n, i ≠ j → f.key i 0 ≠ f.key j 0) :
    Memory.wf ((List.range n).foldl (fun s i => s.put f (g i) i) s) = true ∧
    ∀ k < n, ((List.range n).foldl (fun s i => s.put f (g i) i) s).rd f k = f.cut (g k) := by
  induction n with
  | zero => exact ⟨w, fun k h => absurd h (Nat.not_lt_zero k)⟩
  | succ n ih =>
    obtain ⟨h1, h2⟩ := ih (fun i hi j hj => hk i (Nat.lt_succ_of_lt hi) j (Nat.lt_succ_of_lt hj))
    simp only [List.range_succ, List.foldl_append, List.foldl_cons, List.foldl_nil]
    refine ⟨State.wf_put h1 _ _ _ _, fun k hkn => ?_⟩
    by_cases e : k = n
    · subst e; exact State.rd_put_self h1 _ _ _ _
    · rw [State.rd_put_ne h1 _ _ _ _ _ _ _ (hk k hkn n (Nat.lt_succ_self n) e)]
      exact h2 k (by omega)

end Sys2Proof.Machine
end

