-- ==== Sys2Proof/Laws/Tick.lean ====
section
/-! SUPPORT. What each operation and each meaning of Machine/Tick.lean keeps (Keeps): one lemma a definition. -/

-- The package as one text is checked in one process: its proofs are checked one after another, and its linters keep quiet.
set_option Elab.async false
set_option linter.all false

namespace Sys2Proof.Machine
open Sys2Proof

theorem State.stallTick_keeps {ps : Part → Prop} {s0 s : State} (h19 : ps (.regs 19)) (h : Keeps ps s0 s) : Keeps ps s0 (State.stallTick s) := by
  unfold State.stallTick
  repeat' first
    | with_reducible assumption | exact h19 | with_reducible apply State.bump_keeps | with_reducible apply Keeps.foldl | with_reducible apply Keeps.foldlFst
    | (intro _; skip) | split
    | (dsimp only; skip)

theorem State.elastic_keeps {ps : Part → Prop} {s0 s : State} (h16 : ps (.regs 16)) (h_fresh : ps .fresh) (h_pci : ps .pci) (h : Keeps ps s0 s) : Keeps ps s0 (State.elastic s) := by
  unfold State.elastic
  repeat' first
    | with_reducible assumption | exact h16 | with_reducible apply State.bump_keeps | with_reducible apply State.drawn_keeps
    | (intro _; skip) | split
    | (dsimp only; skip)
    | (with_reducible refine Keeps.lit rfl rfl ?_; first | with_reducible assumption | exact h16 | with_reducible apply State.bump_keeps | with_reducible apply State.drawn_keeps | (split; skip))

theorem State.tick_keeps {ps : Part → Prop} {s0 s : State} (h1 : ps (.regs 1)) (h5 : ps (.regs 5)) (h6 : ps (.regs 6)) (h7 : ps (.regs 7)) (h9 : ps (.regs 9)) (h11 : ps (.regs 11)) (h12 : ps (.regs 12)) (h13 : ps (.regs 13)) (h14 : ps (.regs 14)) (h16 : ps (.regs 16)) (h17 : ps (.regs 17)) (h19 : ps (.regs 19)) (h20 : ps (.regs 20)) (h_cfg : ps .cfg) (h_cry : ps .cry) (h_dck : ps .dck) (h_evt : ps .evt) (h_fab : ps .fab) (h_fresh : ps .fresh) (h_gens : ps .gens) (h_hbm : ps .hbm) (h_lve : ps .lve) (h_med : ps .med) (h_noc : ps .noc) (h_out : ps .out) (h_pci : ps .pci) (h_qqp : ps .qqp) (h_sl : ps .sl) (h_spm : ps .spm) (h_tap : ps .tap) (h_time : ps .time) (h_tly : ps .tly) (h : Keeps ps s0 s) : Keeps ps s0 (State.tick s) := by
  unfold State.tick
  repeat' first
    | (extract_lets +onlyGivenNames x; first | (with_reducible refine Keeps.cut (x := x) ?_ ?_; rotate_left; (try clear_value x); (intro _; skip); rotate_right; subst x) | subst x)
    | with_reducible assumption | exact h1 | exact h5 | exact h6 | exact h7 | exact h9 | exact h11 | exact h12 | exact h13 | exact h14 | exact h16 | exact h17 | exact h19 | exact h20 | with_reducible apply State.tapSample_keeps | with_reducible apply State.fabricNs_keeps | with_reducible apply State.elastic_keeps | with_reducible apply State.mapWork_keeps | with_reducible apply State.authenticate_keeps | with_reducible apply State.stallTick_keeps
    | (intro _; skip) | split
    | (dsimp only; skip)
    | (with_reducible refine Keeps.lit rfl rfl ?_; first | with_reducible assumption | exact h1 | exact h5 | exact h6 | exact h7 | exact h9 | exact h11 | exact h12 | exact h13 | exact h14 | exact h16 | exact h17 | exact h19 | exact h20 | with_reducible apply State.tapSample_keeps | with_reducible apply State.fabricNs_keeps | with_reducible apply State.elastic_keeps | with_reducible apply State.mapWork_keeps | with_reducible apply State.authenticate_keeps | with_reducible apply State.stallTick_keeps | (split; skip))

end Sys2Proof.Machine
end

