-- ==== Sys2Proof/Laws/Words.lean ====
section
/-! SUPPORT. Bit fields of numbers: what a field reads after a field was set. -/

namespace Sys2Proof

/-- A number as its bits above a field, the field, and its bits below. -/
theorem setBits_eq (x lo w v : Nat) :
    setBits x lo w v = (x / 2 ^ lo / 2 ^ w * 2 ^ w + v % 2 ^ w) * 2 ^ lo + x % 2 ^ lo := by
  have h1 : x = (x / 2 ^ lo / 2 ^ w * 2 ^ w + x / 2 ^ lo % 2 ^ w) * 2 ^ lo + x % 2 ^ lo := by
    rw [Nat.div_add_mod' (x / 2 ^ lo) (2 ^ w), Nat.div_add_mod' x (2 ^ lo)]
  unfold setBits bits
  rw [Nat.add_mul] at h1
  rw [Nat.add_mul, Nat.mul_comm (2 ^ lo) (x / 2 ^ lo % 2 ^ w), Nat.mul_comm (2 ^ lo) (v % 2 ^ w)]
  omega

/-- The field that was set reads what was set, cut to its width. -/
theorem bits_setBits_self (x lo w v : Nat) : bits (setBits x lo w v) lo w = v % 2 ^ w := by
  rw [setBits_eq]
  unfold bits
  rw [Nat.add_comm, Nat.add_mul_div_right _ _ (Nat.two_pow_pos lo), Nat.div_eq_of_lt (Nat.mod_lt _ (Nat.two_pow_pos lo)),
    Nat.zero_add, Nat.add_comm, Nat.add_mul_mod_self_right, Nat.mod_mod]

/-- A field below the one that was set reads as before. -/
theorem bits_setBits_below {x lo w v o l : Nat} (h : o + l ≤ lo) : bits (setBits x lo w v) o l = bits x o l := by
  have key : ∀ y : Nat, y / 2 ^ o % 2 ^ l = y % 2 ^ lo % 2 ^ (o + l) / 2 ^ o := by
    intro y
    rw [Nat.mod_mod_of_dvd _ (Nat.pow_dvd_pow 2 h), Nat.pow_add, Nat.mod_mul_right_div_self]
  unfold bits
  rw [key, key x, setBits_eq, Nat.add_comm, Nat.add_mul_mod_self_right, Nat.mod_mod]

/-- A field above the one that was set reads as before. -/
theorem bits_setBits_above {x lo w v o l : Nat} (h : lo + w ≤ o) : bits (setBits x lo w v) o l = bits x o l := by
  have key : ∀ y : Nat, y / 2 ^ o = y / 2 ^ lo / 2 ^ w / 2 ^ (o - (lo + w)) := by
    intro y
    rw [Nat.div_div_eq_div_mul, Nat.div_div_eq_div_mul, ← Nat.pow_add, ← Nat.pow_add]
    congr 2
    omega
  unfold bits
  rw [key, key x, setBits_eq, Nat.add_comm, Nat.add_mul_div_right _ _ (Nat.two_pow_pos lo),
    Nat.div_eq_of_lt (Nat.mod_lt _ (Nat.two_pow_pos lo)), Nat.zero_add, Nat.add_comm (_ * 2 ^ w),
    Nat.add_mul_div_right _ _ (Nat.two_pow_pos w), Nat.div_eq_of_lt (Nat.mod_lt _ (Nat.two_pow_pos w)), Nat.zero_add]

end Sys2Proof
end

