-- ==== Sys2Proof/Machine/Wire.lean ====
section
/-! DEFINITION. What the part sends and stores, byte for byte: Skidway packets (R595, R596, R618), Levee messages and flits (R398 to
R406, R483), the lanes' symbols (R749, R750), the ONFI addresses of a page (R303), the codewords of its sectors (R338 to R340), the parity of a stripe (R373,
R375), and the messages on a landing (R645). They are read off the state. -/

namespace Sys2Proof.Machine
open Sys2Proof

/-! ### Skidway packets (Table NOC-3) -/

/-- Header of the packet of a request at its injection: of its completion once it is answered (R595, R596). -/
def State.packetHeader (s : State) (p : Pkt) : List Nat :=
  let q := p.req
  let back := p.answer.isSome
  let src := if back then p.dst else q.src
  let dst := if back then q.src else p.dst
  let route := match back, p.retFrom with
    | true, some r => routerRoute r dst p.ralt
    | _, _ => s.routeOf src dst p.cls.2
  let ty := if back then (if q.write then 9 else 8) else if q.write then 2 else 1
  toBytes 8 (route % 2 ^ 60) ++ [ty + 16 * p.level, daKid q.addr] ++ toBytes 2 src ++ toBytes 2 dst ++ toBytes 2 q.txn
    ++ toBytes 4 (match q.ltag with
      | some k => k % 2 ^ 17 + 2 ^ 31
      | none => 0)
    ++ toBytes 6 q.addr
    ++ [(q.len - 1) % 256,
        b2n q.wake + 2 * b2n q.bitset + 4 * b2n q.bitclr + 8 * b2n q.long + 16 * b2n p.cls.2]
    ++ toBytes 2 p.epoch
    ++ [match p.answer with
        | some (st, _) => st
        | none => 0,
        p.attempt]

/-- Payload of the packet: of a write, or of a read that ended with SUCCESS (R596). -/
def packetData (p : Pkt) : List Nat :=
  match p.answer with
  | none => if p.req.write then toBytes p.req.len p.req.data else []
  | some (st, d) => if st = 0 ∧ ¬ p.req.write then toBytes p.req.len d else []

/-- Flits of the packet: the head flit, with a payload of up to 32 bytes in its upper half, and data flits for a larger one
(R595). -/
def State.packetFlits (s : State) (p : Pkt) : List (List Nat) :=
  let d := packetData p
  let pad (n : Nat) (l : List Nat) : List Nat := l ++ List.replicate (n - l.length) 0
  if d.length ≤ 32 then [s.packetHeader p ++ pad 32 d]
  else (s.packetHeader p ++ List.replicate 32 0) :: (chunks 64 4 d).map (pad 64)

/-- CRC-32C of a packet's flits in the sideband of a boundary link (R618). -/
def State.packetCrc (s : State) (p : Pkt) : Nat :=
  Nat.xor ((s.packetFlits p).flatten.foldl crcByte 0xFFFFFFFF) 0xFFFFFFFF

/-! ### Levee messages (R406, Table LVE-5) -/

/-- A string of `n` bytes: the first of it, or zeros after it. -/
def fitBytes (n : Nat) (l : List Nat) : List Nat := l.take n ++ List.replicate (n - l.length) 0

/-- FLAGS of a message: RESYNC, OWN_HALF. -/
def msgFlags : Msg → Nat
  | .mirrorWrite _ _ _ _ _ _ _ r o => b2n r + 2 * b2n o
  | .journal _ _ r => b2n r
  | _ => 0

/-- SEQ field of a message. -/
def msgSeq : Msg → Nat
  | .mirrorWrite q .. => q
  | .journal q _ _ => q
  | .journalAck q => q
  | .heartbeat t .. => t
  | .resyncDone b _ => b
  | .healData b _ => b
  | _ => 0

/-- Content of a block of `n` bytes; a poisoned one travels as zeros (log entry 201). -/
def blkBytesOf (n : Nat) : Blk → List Nat
  | .data v => toBytes n v
  | .poison => List.replicate n 0

/-- Sectors `lo` to `lo + n - 1` of an IU in blocks of `blkB` bytes; what no block covers travels as zeros. -/
def sectorBytes (blkB lo n : Nat) (data : List (Nat × Blk)) : List Nat :=
  (List.range (4096 * n / blkB)).flatMap (fun i => match data.lookup (lo * 4096 / blkB + i) with
    | some b => blkBytesOf blkB b
    | none => List.replicate blkB 0)

/-- Body of a message from payload byte 16: the rest of its first flit, and its further flits. -/
def State.msgBody (s : State) (m : Msg) : List Nat × List Nat :=
  match m with
  | .mirrorWrite _ t kid iu sec off data _ own =>
    let b := (s.tract (t % 4096 + 4096 * b2n own)).blkBytes
    (toBytes 2 (t % 4096) ++ [kid, sec % 256] ++ toBytes 8 iu ++ toBytes 8 off,
     sectorBytes b (sec % 16) (sec / 16 % 16 + 1) data)
  | .mirrorAck l => (l.flatMap (toBytes 8), [])
  | .journal q recs _ =>
    let w := recs.zipIdx.map (fun x => toBytes 32 (jrecWord x.1 (q + x.2)))
    ((w.take 7).flatten, (w.drop 7).flatten)
  | .lineRelease l => (l.flatMap (toBytes 8), [])
  | .releaseAck l => (l.flatMap (toBytes 8), [])
  | .heartbeat _ pair groups low limit dirty =>
    ([pair] ++ toBytes 2 groups ++ [b2n low] ++ toBytes 4 limit ++ toBytes 8 dirty, [])
  | .leaving r => ([r], [])
  | .resyncDone _ q => (toBytes 8 q, [])
  | .handbackReq g => (toBytes 2 g, [])
  | .handbackGrant g => (toBytes 2 g, [])
  | .healReq b => (toBytes 8 (((s.line b).map (fun l => l.off)).getD 0), [])
  | .healData b data =>
    let off := ((s.line b).map (fun l => l.off)).getD 0
    (toBytes 8 off, fitBytes 4096 (data.flatMap (fun d => blkBytesOf 512 d.2)))
  | .journalAck _ => ([], [])
  | .pfail => ([], [])

/-- Payloads of the flits of a message. -/
def State.msgPayloads (s : State) (m : Msg) : List (List Nat) :=
  let n := msgFlits m
  let b := s.msgBody m
  let first := [mtype m, msgFlags m] ++ toBytes 2 n ++ List.replicate 4 0 ++ toBytes 8 (msgSeq m) ++ b.1
  fitBytes 256 first :: (List.range (n - 1)).map (fun i => fitBytes 256 (b.2.drop (256 * i)))

/-! ### Flits (R398 to R401) -/

/-- Header of a flit as a bundle sends it now (Table LVE-4). -/
def State.flitHeader (s : State) (b fseq kind vc : Nat) (first : Bool) : List Nat :=
  let x := s.bnd b
  let give := returned (min 3 (s.slotNow b - x.slot)) x.give
  let crvc := ([0, 1, 2].find? (fun v => give.getD v 0 != 0)).getD 0
  toBytes 8 (fseq % 4096 + 2 ^ 12 * kind + 2 ^ 14 * vc + 2 ^ 16 * ((x.rx + 4095) % 4096) + 2 ^ 28 * b2n x.nak
    + 2 ^ 29 * b2n x.txPhase + 2 ^ 30 * crvc + 2 ^ 32 * (give.getD crvc 0 % 4096) + 2 ^ 44 * b2n first)

/-- The 16 FEC bytes behind 272 bytes: the parities of the codeword of the even bytes and of the one of the odd bytes,
interleaved (R400). -/
def fecBytes (l : List Nat) : List Nat :=
  let part (k : Nat) : Nat := Config.rsParity (ofBytes ((List.range 136).map (fun i => l.getD (2 * i + k) 0)))
  (List.range 8).flatMap (fun i => [bits (part 0) (8 * i) 8, bits (part 1) (8 * i) 8])

/-- Nonce of a flit: session number, bundle, slot (R401). -/
def flitNonce (session b slot : Nat) : List Nat := beBytes 12 (session * 2 ^ 80 + b * 2 ^ 72 + slot % 2 ^ 72)

/-- Bytes from `lo` to `hi - 1` of a string are XORed with 0x5A (R483). -/
def alter (lo hi : Nat) (l : List Nat) : List Nat :=
  l.zipIdx.map (fun x => if lo ≤ x.2 ∧ x.2 < hi then Nat.xor x.1 0x5A else x.1)

/-- Header, payload and MAC with the FEC bytes behind them, as the generators that fired leave them (Table FLT-10). -/
def injure (hs : List Hit) (l : List Nat) : List Nat :=
  let l := (hs.filter (fun h => h.mode == 2)).foldl (fun l h => alter (8 + h.off) (min 264 (8 + h.off + h.bytes)) l) l
  let f := l ++ fecBytes l
  hs.foldl (fun f h =>
    if h.mode = 0 then alter 0 288 f else if h.mode = 1 then alter h.off (min 272 (h.off + h.bytes)) f else f) f

/-- The 288 bytes of a flit: header, encrypted payload, MAC, FEC (R398, R401). -/
def State.flit (s : State) (b slot : Nat) (header payload : List Nat) (hs : List Hit := []) : List Nat :=
  let x := s.bnd b
  let key := toBytes 32 x.txKey
  let iv := flitNonce x.session b slot
  let c := gcmCrypt key iv payload
  let l := header ++ c ++ (gcmTag key iv header c).take 8
  injure hs l

/-- The flits of an entry of the replay buffer as last sent: those of its message from the first unacknowledged on, each with the
mark of a REORDER. -/
def State.entFlits (s : State) (b : Nat) (e : TxEnt) : List (Bool × List Nat) :=
  let n := msgFlits e.msg
  (List.range e.flits).map (fun i =>
    let k := n - e.flits + i
    let hs := e.hits.filter (fun h => h.flit == k)
    (hs.any (fun h => h.mode == 3), s.flit b (e.slot + i) (s.flitHeader b (e.fseq + i) 1 (mtypeVc (mtype e.msg)) (k == 0))
      ((s.msgPayloads e.msg).getD k []) hs))

/-- A marked flit is sent after the next one. -/
def reordered : List (Bool × List Nat) → List (List Nat)
  | (true, x) :: (_, y) :: l => y :: x :: reordered l
  | (_, x) :: l => x :: reordered l
  | [] => []

/-- Unacknowledged message flits of a bundle as bytes. -/
def State.bundleFlits (s : State) (b : Nat) : List (List Nat) := reordered ((s.bnd b).unacked.flatMap (s.entFlits b))

/-- An IDLE flit in the bundle's present slot (R399, R401). -/
def State.idleFlit (s : State) (b : Nat) : List Nat :=
  s.flit b (s.slotNow b) (s.flitHeader b (s.bnd b).fseq 0 0 false) (List.replicate 256 0)

/-- Bytes of a flit that lane `l` of a bundle of width `w` carries: byte j travels on lane j mod w (R398). -/
def laneBytes (w l : Nat) (flit : List Nat) : List Nat :=
  (List.range (flit.length / w)).map (fun i => flit.getD (w * i + l) 0)

/-! ### Symbols of a lane (R749, R750) -/

/-- Bits of a string in the order of the line: bit 0 of each byte first (log entry 201). -/
def lineBits (l : List Nat) : List Bool := l.flatMap (fun x => (List.range 8).map (bit x))

/-- Level of a pair of bits, the earlier one first: Gray code. -/
def pam4 : Bool → Bool → Nat
  | false, false => 0
  | false, true => 1
  | true, true => 2
  | true, false => 3

/-- Amplitude of a level: -3, -1, +1, +3. -/
def pam4Amp (g : Nat) : Int := 2 * (g : Int) - 3

/-- Gray-mapped symbols of a string of bits. -/
def grayMap : List Bool → List Nat
  | a :: b :: l => pam4 a b :: grayMap l
  | _ => []

/-- Precoding after symbol `p`: P(n) = (G(n) - P(n - 1)) mod 4. -/
def precode (p : Nat) : List Nat → List Nat
  | [] => []
  | g :: l =>
    let x := (g + 4 - p % 4) % 4
    x :: precode x l

/-- The receiver's recovery after symbol `p`: G(n) = (P(n) + P(n - 1)) mod 4. -/
def unprecode (p : Nat) : List Nat → List Nat
  | [] => []
  | x :: l => (x + p) % 4 :: unprecode x l

/-- Levels that a lane sends for a string of bytes: PAM4 at rates from 3,400, precoded where PRECODE is set or the lane is a
Levee lane; NRZ levels 0 and 3 at lower rates. POL_TX inverts a general lane (R748 to R751). -/
def State.laneSymbols (s : State) (l : Nat) (bytes : List Nat) : List Nat :=
  let x := s.lane l
  let bs := lineBits bytes
  let y := if 3400 ≤ x.rate then
      (if x.precode ∨ (laneBundle l).isSome then precode 0 (grayMap bs) else grayMap bs)
    else bs.map (fun b => if b then 3 else 0)
  if s.on F.SDS_LANE_CTL_POL_TX l ∧ (laneBundle l).isNone ∧ ¬ lanePcie l then y.map (fun v => 3 - v) else y

/-! ### ONFI addresses (R303) -/

/-- Bits of the page field of a row address: the logarithm of PAGES, rounded up. -/
def State.pageBits (s : State) (ch : Nat) : Nat :=
  let n := s.tsPages ch
  if n ≤ 1 then 0 else Nat.log2 (n - 1) + 1

/-- ONFI row address of a media address: block, plane and page, with the LUN number where the parameter page puts it. -/
def State.rowAddr (s : State) (a : Nat) : Nat :=
  let ch := maCh a
  (maBlock a * s.tsPlanes ch + maPlane a) * 2 ^ s.pageBits ch + maPage a + 2 ^ (s.lun ch (uOf a)).lunBit * maLun a

/-- ONFI column address of a media address: its sector times the stored length (R303, R339). -/
def State.colAddr (s : State) (a : Nat) : Nat := maSector a * s.storedLen (maCh a)

/-! ### Codewords (R338 to R340) -/

/-- Metadata bytes 0 to 27 of a sector (Table REL-2): the first two bytes, SIDX, WVER, KID, PTIME, ERASES, RSEQ. -/
def metaBytes (word sidx wver kid ptime erases rseq : Nat) : List Nat :=
  toBytes 2 word ++ toBytes 6 sidx ++ toBytes 2 (wver % 1024) ++ [kid % 256, 0] ++ toBytes 4 ptime ++ toBytes 4 erases
    ++ toBytes 4 rseq ++ toBytes 4 0

/-- A codeword: 4,096 data bytes, 32 metadata bytes with the CRC over both, and the parity bytes of the channel's code rate. -/
def State.codeword (s : State) (ch : Nat) (data md : List Nat) : List Nat :=
  let d := fitBytes 4096 data
  let crc := Nat.xor ((d ++ md).foldl crcByte 0xFFFFFFFF) 0xFFFFFFFF
  let body := d ++ md ++ toBytes 4 crc
  body ++ toBytes (s.parityLen ch) (Config.ldpcParity (s.codeRate ch) (ofBytes body))

/-- Codeword of sector `i` of the IU of a line as the destage programs it at its place, as version `wver` (R182, R216). -/
def State.lineCodeword (s : State) (l : Line) (wver i : Nat) : List Nat :=
  let t := s.tract l.tract
  let a := s.maPlus (l.place.getD 0) i
  let ch := maCh a
  let blks := (List.range l.merged.length).zip l.merged
  let per := 4096 / t.blkBytes
  let poisoned := ((l.merged.drop (per * i)).take per).any (fun b => b == .poison)
  let erases := match s.stripeOf a with
    | some k => (s.stripe k).erases
    | none => 0
  s.codeword ch (sectorBytes t.blkBytes i 1 blks)
    (metaBytes (tractId l.tract + 2 ^ 12 * b2n (decide (4096 ≤ l.tract)) + 2 ^ 13 * b2n poisoned)
      (l.iu * t.secs + i) wver l.kid (s.rd F.MED_HOURS (dieOf ch)) erases 0)

/-! ### Parity of a stripe (R373, R375) -/

/-- Product in GF(2^8) with the polynomial 0x11D. -/
def gf8 : Nat → Nat → Nat → Nat
  | 0, _, _ => 0
  | f + 1, a, b =>
    let r := gf8 f (if 128 ≤ a then Nat.xor (2 * a % 256) 0x1D else 2 * a) (b / 2)
    if b % 2 = 1 then Nat.xor a r else r

/-- Power `n` of an element. -/
def gf8Pow (a : Nat) : Nat → Nat
  | 0 => 1
  | n + 1 => gf8 8 a (gf8Pow a n)

/-- Quotient: every element but 0 has order dividing 255. -/
def gf8Div (a b : Nat) : Nat := gf8 8 a (gf8Pow b 254)

/-- Byte-wise sum of two sectors. -/
def addBytes (a b : List Nat) : List Nat := List.zipWith Nat.xor a b

/-- A sector times an element. -/
def scaleBytes (c : Nat) (l : List Nat) : List Nat := l.map (gf8 8 c)

/-- P of `n` bytes: the XOR of the data members. -/
def parityP (n : Nat) (ds : List (List Nat)) : List Nat := ds.foldl addBytes (List.replicate n 0)

/-- Q of `n` bytes: the sum of g^i × D_i, i the data member's position. -/
def parityQ (n : Nat) (ds : List (List Nat)) : List Nat :=
  ds.zipIdx.foldl (fun q d => addBytes q (scaleBytes (gf8Pow 2 d.2) d.1)) (List.replicate n 0)

/-- Data member `i`, the only one missing, from P and the others, where it stands as zeros. -/
def solveP (n : Nat) (p : List Nat) (ds : List (List Nat)) : List Nat := addBytes p (parityP n ds)

/-- Data member `i`, missing with P, from Q and the others, where it stands as zeros. -/
def solveQ (n i : Nat) (q : List Nat) (ds : List (List Nat)) : List Nat :=
  (addBytes q (parityQ n ds)).map (fun x => gf8Div x (gf8Pow 2 i))

/-- Data members `i` and `j`, both missing, from P, Q and the others, where they stand as zeros. -/
def solvePQ (n i j : Nat) (p q : List Nat) (ds : List (List Nat)) : List Nat × List Nat :=
  let a := solveP n p ds
  let b := addBytes q (parityQ n ds)
  let gi := gf8Pow 2 i
  let dj := (addBytes b (scaleBytes gi a)).map (fun x => gf8Div x (Nat.xor gi (gf8Pow 2 j)))
  (addBytes a dj, dj)

/-- Data bytes that the lines of the write buffer place at sector `a`; a pad sector holds zeros (R883). -/
def State.sectorAt (s : State) (a : Nat) : List Nat :=
  let lin (x : Nat) : Nat := maPage x * s.tsSectors (maCh x) + maSector x
  let hit (l : Line) : Bool := match l.place with
    | some p => maErase p == maErase a && decide (lin p ≤ lin a) && decide (lin a < lin p + (s.tract l.tract).secs)
    | none => false
  match s.tly.lines.findSome? (fun e => e.2.filter hit) with
  | some l => sectorBytes (s.tract l.tract).blkBytes (lin a - lin (l.place.getD 0)) 1 ((List.range l.merged.length).zip l.merged)
  | none => List.replicate 4096 0

/-- Data bytes of the two parity members on a line of a host stripe: page `pg`, sector position `sec` (R373, R374). -/
def State.lineParity (s : State) (k pg sec : Nat) : List Nat × List Nat :=
  let ds := (dataMembers k (s.stripe k).members).map (fun a => s.sectorAt (a + 16 * pg + sec))
  (parityP 4096 ds, parityQ 4096 ds)

/-! ### Messages on a landing (Tables FAB-6 and DCK-2) -/

/-- Slot of an engine on its landing: 0 or 1, in the order of the engine IDs (log entry 213). -/
def State.engSlot (s : State) (e : Nat) : Nat :=
  ((s.landingEngines (s.rd F.DCK_ENG_STAT_LANDING e)).findIdx? (· == e)).getD 0

/-- Beats of 64 bytes of a message that the Deck sends on DOUT. -/
def State.doutBeats (s : State) (m : EngMsg) : List (List Nat) :=
  let beat (code slot rest : Nat) : List Nat := toBytes 64 (code + 2 ^ 8 * slot + 2 ^ 16 * rest)
  match m with
  | .registerAck _ st e => [beat 0x81 (if st = 0 then s.engSlot e else 0) (st + 2 ^ 16 * e)]
  | .createAck _ token st => [beat 0x83 0 (st + 2 ^ 48 * (token % 2 ^ 64))]
  | .descLost _ token => [beat 0x84 0 (0x08 + 2 ^ 48 * (token % 2 ^ 64))]
  | .dispatch e _ resume user _ desc =>
    beat 0x90 (s.engSlot e) 0 :: toBytes 64 desc :: (if resume then [toBytes 64 user, toBytes 64 (user / 2 ^ 512)] else [])
  | .preempt e tag => [beat 0x91 (s.engSlot e) (2 ^ 48 * tag)]
  | .abandon e tag => [beat 0x92 (s.engSlot e) (2 ^ 48 * tag)]

/-- The command that a message on DIN of a landing is, its beats as one number (R645, R646): none where it names a slot without an
engine. -/
def State.dinCommand (s : State) (landing v : Nat) : Option Instr :=
  let eng := (s.landingEngines landing)[bytesAt v 1 1]?
  let d := v / 2 ^ 512
  match bytesAt v 0 1 with
  | 0x01 => some (.register landing (bytesAt v 2 1) (bit (bytesAt v 3 1) 0))
  | 0x02 => eng.map (fun e => .deregister landing e)
  | 0x03 =>
    let fl := bytesAt d 1 1
    some (.create landing (bytesAt v 8 8) (bytesAt d 0 1) (bytesAt d 3 1 % 32) (bytesAt d 2 1 % 8) (bit fl 1)
      (if bit fl 4 then some (bytesAt d 4 1 % 128) else none) (if bit fl 2 then bytesAt d 16 4 else 0) (bytesAt d 48 16))
  | 0x10 => eng.map (fun e => .done e (bytesAt v 2 1) (bytesAt v 8 4))
  | 0x11 => eng.map (fun e => .yield e (bytesAt d 0 128))
  | 0x12 => eng.map (fun e => .decline e)
  | c => some (.landingMsgUnknown landing c)

end Sys2Proof.Machine
end

