-- ==== Sys2Proof/WellFormed.lean ====
section
/-! DEFINITION. Which commands are well formed: every operand lies in the range that its register, field or index has in the
spec. Operands that are names of the part's own work (the key of a command, of a request or of a task, a segment, an
operation's number) have no range: one that names nothing concerns no work, and the command changes nothing (log entry 6).
Content and verdicts (data, hashes, what a sensor or the NAND gives) have none either. A step does not ask for it: a command
that is not well formed has a meaning as well. -/

namespace Sys2Proof

/-- An 8-bit field. -/
def byteOk (n : Nat) : Bool := decide (n < 2 ^ 8)
/-- A 16-bit field. -/
def u16 (n : Nat) : Bool := decide (n < 2 ^ 16)
/-- A 32-bit register word (R810). -/
def u32 (n : Nat) : Bool := decide (n < 2 ^ 32)
/-- A 64-bit value. -/
def u64 (n : Nat) : Bool := decide (n < 2 ^ 64)
/-- An offset of a register word (R810). -/
def wordOk (n : Nat) : Bool := n % 4 == 0
/-- Straps CFG_ROLE and SLOT_ID (R47). -/
def strapOk (n : Nat) : Bool := decide (n < 4)
/-- A PCIe function: the PF is 0, VF n is n (R101). -/
def fnOk (n : Nat) : Bool := decide (n ≤ 256)
/-- A queue identifier (R103). -/
def qidOk (n : Nat) : Bool := u16 n
/-- An HBM stack. -/
def stackOk (n : Nat) : Bool := decide (n < 4)
/-- A channel of HBM. -/
def hbmChanOk (n : Nat) : Bool := decide (n < 64)
/-- A pseudo-channel of HBM (R491). -/
def pcOk (n : Nat) : Bool := decide (n < 128)
/-- A scratchpad bank. -/
def bankOk (n : Nat) : Bool := decide (n < 24)
/-- A pool of the Deck. -/
def poolOk (n : Nat) : Bool := decide (n < 32)
/-- An engine: hard engines 0 to 95, landing engines from 96 (Table DCK-3). -/
def engineOk (n : Nat) : Bool := decide (n < 256)
/-- A landing. -/
def landingOk (n : Nat) : Bool := decide (n < 128)
/-- A stand. -/
def standOk (n : Nat) : Bool := decide (n < 64)
/-- A fabric die. -/
def fabDieOk (n : Nat) : Bool := decide (n < 4)
/-- A media die. -/
def mediaDieOk (n : Nat) : Bool := decide (n < 2)
/-- A die, in the order of Table ARC-2. -/
def dieOk (n : Nat) : Bool := decide (n < 7)
/-- A priority. -/
def prioOk (n : Nat) : Bool := decide (n < 8)
/-- A channel group (R327). -/
def groupOk (n : Nat) : Bool := decide (n < 16)
/-- A media channel. -/
def channelOk (n : Nat) : Bool := decide (n < 256)
/-- A LUN of a channel: 4 × volume + LUN (R35). -/
def lunOk (n : Nat) : Bool := decide (n < 64)
/-- A Levee bundle. -/
def bundleOk (n : Nat) : Bool := decide (n < 2)
/-- A tract ID. -/
def tractOk (n : Nat) : Bool := decide (n < 4096)
/-- A key ID. -/
def kidOk (n : Nat) : Bool := byteOk n
/-- A global map page (R178). -/
def mpnOk (n : Nat) : Bool := decide (n < 2 ^ 27)
/-- A serial lane. -/
def laneOk (n : Nat) : Bool := decide (n < 256)
/-- A quad of lanes. -/
def quadOk (n : Nat) : Bool := decide (n < 64)
/-- A polder that can be switched; polder 0 is always on (R38, Table ARC-10). -/
def polderOk (n : Nat) : Bool := decide (1 ≤ n) && decide (n ≤ 80)
/-- An NI number. -/
def niOk (n : Nat) : Bool := decide (n < 0x188)
/-- A unit of the epoch broadcast (Table PWR-7). -/
def unitOk (n : Nat) : Bool := decide (n < 14)
/-- A BAR (R793). -/
def barOk (n : Nat) : Bool := [0, 2, 4].contains n
/-- A PCIe link width. -/
def widthOk (n : Nat) : Bool := [1, 2, 4, 8, 16].contains n

/-- A requester (Table FLT-9). -/
def Req.ok : Req → Bool
  | .host fn => fnOk fn
  | .landing n => landingOk n
  | .engine e => engineOk e
  | .part => true

/-- A Skidway request: an NI, a 56-bit address, at most 256 bytes (R25, R592). -/
def SkReq.ok (q : SkReq) : Bool :=
  niOk q.src && decide (q.addr < 2 ^ 56) && decide (1 ≤ q.len) && decide (q.len ≤ 256) && decide (q.data < 2 ^ (8 * q.len))
    && !(q.bitset && q.bitclr)

/-- A raw sequence descriptor as the port receives it: fields within the bits Table MED-7 gives them. Its checks are the
command's own (Table MED-9). -/
def Raw.ok (d : Raw) : Bool := decide (d.cls < 256) && decide (d.count < 256) && decide (d.target < 2 ^ 64)

/-- An adaptation window: 4,096 symbols at 2 or 4 levels (R754). -/
def AdaptWin.ok (w : AdaptWin) : Bool :=
  decide (w.trans ≤ 4096) && (w.levels.length == 2 || w.levels.length == 4) && w.levels.sum == 4096

/-- A flit header (R399). -/
def FlitIn.ok (f : FlitIn) : Bool := decide (f.vc < 4)

/-- A journal record (Table TLY-8). -/
def JRec.ok (r : JRec) : Bool := byteOk r.ty && byteOk r.flags && tractOk r.tract

/-- The command is well formed. -/
def Instr.wf : Instr → Bool
  | .powerOnReset role slot _ => strapOk role && strapOk slot
  | .cfgProgNPulse role slot _ => strapOk role && strapOk slot
  | .cfgReload req x => req.ok && u32 x.value && strapOk x.role && strapOk x.slot
  | .headerReceived img => u32 img.addr && decide (img.bytes < 2 ^ 65536)
  | .segmentReceived _ x => u32 x.addr && x.off.all polderOk
  | .preloadHoldExpires => true
  | .hbmTrainingDone stack _ => stackOk stack
  | .startSequence tracts hours0 hours1 _ => tracts.all (fun t => tractOk t.id) && u32 hours0 && u32 hours1
  | .noStreamTimeout => true
  | .cfgSyncLow => true
  | .primaryStreamEnd => true
  | .fallbackFirstRead => true
  | .fallbackStreamEnd => true
  | .pcieHardBlockReady => true
  | .adminQueueEnable fn => fnOk fn
  | .adminQueueReady fn => fnOk fn
  | .queueDisable fn => fnOk fn
  | .sqTailDoorbell fn qid value => fnOk fn && qidOk qid && u32 value
  | .cqHeadDoorbell fn qid value => fnOk fn && qidOk qid && u32 value
  | .submissionFetch fn qid entries => fnOk fn && qidOk qid && entries.all (fun e => decide (e < 2 ^ 512)) && decide (entries.length ≤ 8)
  | .write _ _ => true
  | .read _ _ => true
  | .flush _ => true
  | .trim _ => true
  | .writeZeroes _ => true
  | .copy _ _ => true
  | .verify _ _ => true
  | .atomicWrite _ _ => true
  | .ledgerQuery _ => true
  | .ledgerRelease _ => true
  | .createQp _ => true
  | .deleteQp _ => true
  | .tractCreate _ => true
  | .tractDelete _ => true
  | .tractStateQuery _ => true
  | .tractStateSetReadOnly _ => true
  | .tractStateSetReady _ => true
  | .tractFormatDone t => tractOk t
  | .tractDeleteDone t => tractOk t
  | .keyImport _ _ _ _ _ => true
  | .keyRetire _ => true
  | .identify _ => true
  | .standLoad _ => true
  | .eventFetch _ => true
  | .fellQuery _ => true
  | .abort _ => true
  | .reseal _ => true
  | .completionPost _ => true
  | .coalesceTimerExpires fn qid => fnOk fn && qidOk qid
  | .deadlineExpires _ => true
  | .mailboxGo => true
  | .mailboxCommandEnd => true
  | .resultAck value => u32 value
  | .translationRequest _ _ => true
  | .mapPageInstalled mpn _ _ => mpnOk mpn
  | .mapPageWritebackDone mpn _ => mpnOk mpn
  | .destage => true
  | .mapUpdate _ => true
  | .journalPageTimer => true
  | .journalPageProgrammed _ => true
  | .tlyCkptGo req value => req.ok && u32 value
  | .checkpointEnd _ => true
  | .rebuildDone _ => true
  | .tlyProbe iu => u32 iu
  | .taskDispatch pool engine => poolOk pool && engineOk engine
  | .preemptionStart pool => poolOk pool
  | .skidderPark engine => engineOk engine
  | .spillwayRefill _ => true
  | .taskTimeout _ => true
  | .retryBackoffExpires _ => true
  | .poolLoadWindow => true
  | .ldPreemptAnswerTimeout engine => engineOk engine
  | .register landing pool _ => landingOk landing && poolOk pool
  | .deregister landing engine => landingOk landing && engineOk engine
  | .create landing _ kind pool prio _ _ _ _ => landingOk landing && byteOk kind && poolOk pool && prioOk prio
  | .done engine status _ => engineOk engine && byteOk status
  | .yield engine _ => engineOk engine
  | .decline engine => engineOk engine
  | .landingMsgUnknown landing code => landingOk landing && byteOk code
  | .claim req g => req.ok && groupOk g
  | .release req g => req.ok && groupOk g
  | .mgOwnWireLow g _ => groupOk g
  | .mgOwnWireHigh g => groupOk g
  | .mgOwnQuietTimer g => groupOk g
  | .arbitrationSlot g _ => groupOk g
  | .arbitrationComplete g => groupOk g
  | .driverEnableDelay g => groupOk g
  | .forceWaitExpires g => groupOk g
  | .groupBringupDone g b => groupOk g && decide (b.chans.length ≤ 16)
  | .ownWireFault g => groupOk g
  | .groupDrainEnd g => groupOk g
  | .groupDrainTimeout g => groupOk g
  | .wireReleaseDelay g => groupOk g
  | .keeperTrip die => mediaDieOk die
  | .channelRetrain ch _ _ => channelOk ch
  | .zqShortTimer die => mediaDieOk die
  | .lunIssue ch u _ _ => channelOk ch && lunOk u
  | .suspend ch u => channelOk ch && lunOk u
  | .operationResume ch u => channelOk ch && lunOk u
  | .lunStatusReady ch u fail _ _ => channelOk ch && lunOk u && fail.all (fun p => decide (p < 4))
  | .lunTimeout ch u => channelOk ch && lunOk u
  | .busTransferDone _ _ _ => true
  | .hardDecodeDone _ _ _ => true
  | .softDecodeDone _ _ => true
  | .patrolVisit _ _ => true
  | .pageRowPadTimer _ => true
  | .rawStatus landing port die _ d _ => landingOk landing && landingOk port && mediaDieOk die && d.ok
  | .rawReadLike landing port die _ d => landingOk landing && landingOk port && mediaDieOk die && d.ok
  | .rawProgramLike landing port die _ d => landingOk landing && landingOk port && mediaDieOk die && d.ok
  | .rawEraseLike landing port die _ d => landingOk landing && landingOk port && mediaDieOk die && d.ok
  | .rawFeature landing port die _ d => landingOk landing && landingOk port && mediaDieOk die && d.ok
  | .rawResetLun landing port die _ d => landingOk landing && landingOk port && mediaDieOk die && d.ok
  | .rawLend landing port die _ d => landingOk landing && landingOk port && mediaDieOk die && d.ok
  | .rawReturn landing port die _ d => landingOk landing && landingOk port && mediaDieOk die && d.ok
  | .medHoursWrite req die value => req.ok && mediaDieOk die && u32 value
  | .medHoursTick die => mediaDieOk die
  | .refugeSave => true
  | .trainingTimeout => true
  | .bundleEnableWrite req value => req.ok && u32 value
  | .bundleDetectTimeout b => bundleOk b
  | .bundleEqualiseEnd b _ => bundleOk b
  | .bundleAlignDone b _ rate => bundleOk b && rate.all (fun r => decide (r < 4))
  | .ident b i => bundleOk b && u64 i.dieId && u64 i.media
  | .cert b c => bundleOk b && u64 c.cert.dieId && [c.cert.x, c.cert.y, c.cert.r, c.cert.s].all (fun n => decide (n < 2 ^ 384))
  | .share b p => bundleOk b && decide (p.x < 2 ^ 384) && decide (p.y < 2 ^ 384) && decide (p.rnd < 2 ^ 128)
  | .finish b r sg time => bundleOk b && decide (r < 2 ^ 384) && decide (sg < 2 ^ 384) && u64 time
  | .keyTimeout b => bundleOk b
  | .bundleRetrain req b => req.ok && bundleOk b
  | .bundleRetrainDone b _ => bundleOk b
  | .bundleRetrainTimeout b => bundleOk b
  | .flitReceive b f => bundleOk b && f.ok
  | .replayTimer b => bundleOk b
  | .nakRepeatTimer b => bundleOk b
  | .mirrorWrite _ tract kid iu at_ _ _ _ => tractOk tract && kidOk kid && u32 iu && u16 at_.sec
  | .mirrorAck _ => true
  | .journal seq recs _ => u64 seq && recs.all JRec.ok
  | .journalAck seq => u64 seq
  | .lineRelease _ => true
  | .releaseAck _ => true
  | .heartbeat time pair groups _ _ _ => u64 time && decide (pair < 7) && u16 groups
  | .leaving _ => true
  | .pfail => true
  | .resyncDone _ seq => u64 seq
  | .handbackReq groups => u16 groups
  | .handbackGrant groups => u16 groups
  | .healReq _ => true
  | .healData _ _ => true
  | .unknownMessage => true
  | .heartbeatSend => true
  | .partnerAliveEdge => true
  | .wireSilent => true
  | .linkSilent => true
  | .deathDeclared => true
  | .orphanTimeout => true
  | .takeoverWithdraw => true
  | .foreignMapUsable _ => true
  | .foreignReplayDone => true
  | .probeDue b => bundleOk b
  | .handbackStart req value => req.ok && u32 value
  | .handbackDestageDone => true
  | .pfailNFall => true
  | .pfailDetected => true
  | .pfailAckTimeout => true
  | .pfailNRise => true
  | .healTimeout _ => true
  | .linkKeyUpdate b => bundleOk b
  | .evtAck req value => req.ok && u32 value
  | .evtTagSel req value => req.ok && u32 value
  | .evtRateWindowEnd code => u16 code
  | .evtSignalTimer => true
  | .hbmRefreshInterval pc _ _ => pcOk pc
  | .hbmTempRead stack _ => stackOk stack
  | .hbmWriteEyeRetrain ch _ => hbmChanOk ch
  | .hbmRequestUrgent _ => true
  | .selfRefreshEntry ch => hbmChanOk ch
  | .evacuationDone _ _ => true
  | .sweepStep bank _ _ => bankOk bank
  | .fabSweepStep stand _ _ _ _ => standOk stand
  | .rekeyGo req value => req.ok && u32 value
  | .rekeySweepStep _ _ => true
  | .resealGo req value => req.ok && u32 value
  | .autoReseal r _ _ _ => decide (r < 8)
  | .keyCmdImport req kid _ _ _ _ => req.ok && kidOk kid
  | .keyCmdRetire req kid => req.ok && kidOk kid
  | .skidwayRequestSend who q => who.ok && q.ok
  | .skidwayRequestArrive _ _ => true
  | .skidwayCompletion _ => true
  | .routerAbsorb _ _ _ _ => true
  | .requestTimeout _ => true
  | .targetTimeout _ => true
  | .isolationProbe ni _ => niOk ni
  | .nocReconfigClose req value => req.ok && u32 value
  | .nocReconfigOpen req value => req.ok && u32 value
  | .nocRtrClose value => u32 value
  | .fenceOpen ni => niOk ni
  | .spineContention die line _ _ => fabDieOk die && decide (line < 1536)
  | .landingMreq landing q => landingOk landing && q.ok
  | .landingTrsp landing _ status _ => landingOk landing && byteOk status
  | .landingDisable landing => landingOk landing
  | .readbackGo req value => req.ok && u32 value
  | .readbackCaptureTimeout => true
  | .readbackDone _ => true
  | .readbackResume => true
  | .cfgSlCmd req value => req.ok && u32 value
  | .standLoadStart _ => true
  | .standDrainEnd _ => true
  | .runRecord addr _ frames _ => u32 addr && frames.all (fun f => decide (f.data < 2 ^ 2048))
  | .cruiserScanStep _ _ _ => true
  | .cruiserRepairDone _ _ => true
  | .cruInj req value => req.ok && u32 value
  | .refWindowEnd _ _ => true
  | .referenceGap => true
  | .pllUnlock => true
  | .polderDown req p => req.ok && polderOk p
  | .polderUp req p => req.ok && polderOk p
  | .polderReset req p => req.ok && polderOk p
  | .polderCloseTimeout p => polderOk p
  | .polderDrainEnd p => polderOk p
  | .polderDrainTimeout p => polderOk p
  | .polderIsolateDone p => polderOk p
  | .polderPowerupDone p => polderOk p
  | .polderResetDone p => polderOk p
  | .stateRun req => req.ok
  | .stateSleep req => req.ok
  | .stateDeep req => req.ok
  | .systemWake _ => true
  | .crossingReopen x _ => decide (x < 5)
  | .epochRatchet req value => req.ok && u32 value
  | .epochBroadcastArrive u => unitOk u
  | .laneDetectPoll lane _ => laneOk lane
  | .laneSignalPresent lane => laneOk lane
  | .laneAcquired lane => laneOk lane
  | .laneTrainingFrame lane control status _ => laneOk lane && u16 control && u16 status
  | .laneAttemptTimeout lane => laneOk lane
  | .laneSignalAbsent lane => laneOk lane
  | .laneLockLost lane => laneOk lane
  | .laneSignalLoss lane => laneOk lane
  | .laneSignalReturn lane => laneOk lane
  | .laneReadaptDone lane => laneOk lane
  | .adaptWindow lane w => laneOk lane && w.ok
  | .laneRetrain lane => laneOk lane
  | .quadRefclkChange quad _ => quadOk quad
  | .prbsInject lane => laneOk lane
  | .prbsPeriodicInject lane => laneOk lane
  | .perstNAssert => true
  | .perstNRise => true
  | .linkDown _ => true
  | .flr fn => fnOk fn
  | .flrDone fn _ => fnOk fn
  | .l0pHostRequest width => widthOk width
  | .l0pNarrow => true
  | .l0pWiden => true
  | .hostBarAccess fn bar off _ dws => fnOk fn && barOk bar && u32 off && dws.all (fun d => u32 d.1 && decide (d.2 < 16))
  | .hostReadCompletion _ _ => true
  | .hostCompletionTimeout _ => true
  | .msixUnmask fn vec => fnOk fn && decide (vec < 2048)
  | .pcieRetrain req value => req.ok && u32 value
  | .registerWrite req off value => req.ok && decide (off < 0x2000000) && wordOk off && u32 value
  | .bitAliasWrite req blk reg b value => req.ok && decide (blk < 32) && wordOk reg && decide (reg < 0x1000) && decide (b < 32) && u32 value
  | .pairLoRead req off => req.ok && decide (off < 0x2000000) && wordOk off
  | .evtPeek req value => req.ok && u32 value
  | .railFault => true
  | .thermalRead die _ => dieOk die
  | .testInstructionLoad x => byteOk x.opcode
  | .testLogicReset role slot _ => strapOk role && strapOk slot
  | .partnerTerminationLost lane => laneOk lane
  | .bundleLaneSignal b lanes => bundleOk b && u16 lanes
  | .probeGivesUp b => bundleOk b
  | .partnerAliveOutToggle => true
  | .nandTemperatureRead ch vol _ => channelOk ch && decide (vol < 16)
  | .idlePatternEnd lane => laneOk lane
  | .fetchResume => true
  | .pcieLinkUp speed width _ => decide (1 ≤ speed) && decide (speed ≤ 6) && widthOk width
  | .configurationRequest fn _ => fnOk fn
  | .blockLock quad lanes _ => quadOk quad && u16 lanes
  | .hiBer quad _ _ _ _ _ => quadOk quad
  | .prbsCheckerLock lane _ _ _ => laneOk lane
  | .userPortRead die _ _ e => fabDieOk die && decide (e.port < 2)
  | .coefficientInputWrite lane value => laneOk lane && u32 value

end Sys2Proof
end

