-- ==== Sys2Proof/Tests/Slice0.lean ====
section
/-! SUPPORT. Tests of this model: an ill-formed operand for each check of WellFormed, a witness for the hypotheses of each
statement, and small tests of single commands, whose expected values come from the rule or table each names. -/

set_option Elab.async false

namespace Sys2Proof.Tests
open Sys2Proof Sys2Proof.Machine

/-! ### Helpers -/

theorem live_iff (s : State) : Live s ↔ s.dark = false ∧ Memory.wf s = true :=
  ⟨fun h => ⟨h.1, h.2⟩, fun h => ⟨h.1, h.2⟩⟩

theorem inForm_iff (s : State) : InForm s ↔ Memory.wf s = true ∧ s.time < 2 ^ 64 :=
  ⟨fun h => ⟨h.1, h.2⟩, fun h => ⟨h.1, h.2⟩⟩

theorem runs_iff (s : State) (k op : Nat) (c : Cmd) : Runs s k op c ↔ s.cmd k = some c ∧ c.internal = false ∧
    c.ended = false ∧ c.completed = false ∧ sqOp c.sqe = op ∧ s.ioFrozen c = false ∧ c.frozen = false ∧ s.epochStale c = false ∧
    c.checked = true :=
  ⟨fun ⟨a, b, c, d, e, f, u, g, h⟩ => ⟨a, b, c, d, e, f, u, g, h⟩,
   fun ⟨a, b, c, d, e, f, u, g, h⟩ => ⟨a, b, c, d, e, f, u, g, h⟩⟩

/-- Register fields of a state set one after another: field, index, value. -/
def setAll (s : State) (l : List (Fld × Nat × Nat)) : State := l.foldl (fun s x => s.put x.1 x.2.2 x.2.1) s

/-- A part that runs, with a user design enabled. -/
def sRun : State := { State.reset with cfg.done := true, cfg.userOn := true }

/-- A submission entry: opcode, tract, LBA, block count minus 1, DP1. -/
def sqe (op tract lba nblk dp1 : Nat) : Nat :=
  op + tract * 2 ^ 32 + lba * 2 ^ 64 + nblk * 2 ^ 128 + dp1 * 2 ^ 192

/-! ### Well-formedness: each check refuses an operand just outside its range -/

theorem test_wf_strap_role : Instr.wf (.powerOnReset 4 0 true) = false := by decide +kernel
theorem test_wf_strap_slot : Instr.wf (.cfgProgNPulse 0 4 true) = false := by decide +kernel
theorem test_wf_register_value : Instr.wf (.cfgReload .part { value := 2 ^ 32 }) = false := by decide +kernel
theorem test_wf_image_bytes : Instr.wf (.headerReceived { bytes := 2 ^ 65536 }) = false := by decide +kernel
theorem test_wf_reload_role : Instr.wf (.cfgReload .part { role := 4 }) = false := by decide +kernel
theorem test_wf_stack : Instr.wf (.hbmTrainingDone 4 true) = false := by decide +kernel
theorem test_wf_polder_zero : Instr.wf (.segmentReceived 0 { off := [0] }) = false := by decide +kernel
theorem test_wf_polder_above : Instr.wf (.polderUp .part 81) = false := by decide +kernel
theorem test_wf_tract : Instr.wf (.tractFormatDone 4096) = false := by decide +kernel
theorem test_wf_function : Instr.wf (.adminQueueEnable 257) = false := by decide +kernel
theorem test_wf_queue : Instr.wf (.sqTailDoorbell 0 65536 0) = false := by decide +kernel
theorem test_wf_entry_bits : Instr.wf (.submissionFetch 0 1 [2 ^ 512]) = false := by decide +kernel
theorem test_wf_entry_count : Instr.wf (.submissionFetch 0 1 [0, 0, 0, 0, 0, 0, 0, 0, 0]) = false := by decide +kernel
theorem test_wf_map_page : Instr.wf (.mapPageInstalled (2 ^ 27) 0 0) = false := by decide +kernel
theorem test_wf_pool : Instr.wf (.taskDispatch 32 0) = false := by decide +kernel
theorem test_wf_engine : Instr.wf (.skidderPark 256) = false := by decide +kernel
theorem test_wf_landing : Instr.wf (.register 128 5 false) = false := by decide +kernel
theorem test_wf_priority : Instr.wf (.create 0 0 0x20 5 8 false none 0 0) = false := by decide +kernel
theorem test_wf_kind : Instr.wf (.create 0 0 256 5 0 false none 0 0) = false := by decide +kernel
theorem test_wf_status : Instr.wf (.done 0 256 0) = false := by decide +kernel
theorem test_wf_group : Instr.wf (.claim .part 16) = false := by decide +kernel
theorem test_wf_group_channels : Instr.wf (.groupBringupDone 0 { chans := List.replicate 17 {} }) = false := by decide +kernel
theorem test_wf_media_die : Instr.wf (.keeperTrip 2) = false := by decide +kernel
theorem test_wf_channel : Instr.wf (.channelRetrain 256 true true) = false := by decide +kernel
theorem test_wf_lun : Instr.wf (.lunIssue 0 64 false {}) = false := by decide +kernel
theorem test_wf_plane : Instr.wf (.lunStatusReady 0 0 [4] false {}) = false := by decide +kernel
theorem test_wf_bundle : Instr.wf (.bundleDetectTimeout 2) = false := by decide +kernel
theorem test_wf_die_id : Instr.wf (.ident 0 { dieId := 2 ^ 64 }) = false := by decide +kernel
theorem test_wf_bundle_rate : Instr.wf (.bundleAlignDone 0 false (some 4)) = false := by decide +kernel
theorem test_wf_media_hash : Instr.wf (.ident 0 { media := 2 ^ 64 }) = false := by decide +kernel
theorem test_wf_memory_port : Instr.wf (.userPortRead 0 0 0 { port := 2 }) = false := by decide +kernel
theorem test_wf_flit_channel : Instr.wf (.flitReceive 0 { vc := 4 }) = false := by decide +kernel
theorem test_wf_key : Instr.wf (.mirrorWrite 0 0 256 0 {} [] false false) = false := by decide +kernel
theorem test_wf_unit_of_iu : Instr.wf (.mirrorWrite 0 0 0 (2 ^ 32) {} [] false false) = false := by decide +kernel
theorem test_wf_journal_number : Instr.wf (.journal (2 ^ 64) [] false) = false := by decide +kernel
theorem test_wf_journal_record : Instr.wf (.journal 1 [{ ty := 256 }] false) = false := by decide +kernel
theorem test_wf_pair_state : Instr.wf (.heartbeat 0 7 0 false 0 0) = false := by decide +kernel
theorem test_wf_groups : Instr.wf (.handbackReq 65536) = false := by decide +kernel
theorem test_wf_die_line : Instr.wf (.spineContention 0 1536 {} {}) = false := by decide +kernel
theorem test_wf_fabric_die : Instr.wf (.spineContention 4 0 {} {}) = false := by decide +kernel
theorem test_wf_request_ni : Instr.wf (.landingMreq 0 { src := 0x188 }) = false := by decide +kernel
theorem test_wf_request_address : Instr.wf (.landingMreq 0 { addr := 2 ^ 56 }) = false := by decide +kernel
theorem test_wf_request_length : Instr.wf (.landingMreq 0 { len := 0 }) = false := by decide +kernel
theorem test_wf_request_data : Instr.wf (.landingMreq 0 { len := 1, data := 256 }) = false := by decide +kernel
theorem test_wf_request_both : Instr.wf (.landingMreq 0 { bitset := true, bitclr := true }) = false := by decide +kernel
theorem test_wf_frame : Instr.wf (.runRecord 0 1 [{ data := 2 ^ 2048 }] none) = false := by decide +kernel
theorem test_wf_crossing : Instr.wf (.crossingReopen 5 0) = false := by decide +kernel
theorem test_wf_epoch_unit : Instr.wf (.epochBroadcastArrive 14) = false := by decide +kernel
theorem test_wf_lane : Instr.wf (.laneAcquired 256) = false := by decide +kernel
theorem test_wf_control_word : Instr.wf (.laneTrainingFrame 0 65536 0 false) = false := by decide +kernel
theorem test_wf_window_levels : Instr.wf (.adaptWindow 0 { trans := 0, levels := [4096] }) = false := by decide +kernel
theorem test_wf_window_sum : Instr.wf (.adaptWindow 0 { trans := 0, levels := [2048, 2047] }) = false := by decide +kernel
theorem test_wf_quad : Instr.wf (.quadRefclkChange 64 true) = false := by decide +kernel
theorem test_wf_width : Instr.wf (.l0pHostRequest 3) = false := by decide +kernel
theorem test_wf_bar : Instr.wf (.hostBarAccess 0 1 0 false []) = false := by decide +kernel
theorem test_wf_byte_enables : Instr.wf (.hostBarAccess 0 0 0 true [(0, 16)]) = false := by decide +kernel
theorem test_wf_vector : Instr.wf (.msixUnmask 0 2048) = false := by decide +kernel
theorem test_wf_word_offset : Instr.wf (.registerWrite .part 2 0) = false := by decide +kernel
theorem test_wf_control_space : Instr.wf (.registerWrite .part 0x2000000 0) = false := by decide +kernel
theorem test_wf_alias_block : Instr.wf (.bitAliasWrite .part 32 0 0 0) = false := by decide +kernel
theorem test_wf_alias_register : Instr.wf (.bitAliasWrite .part 0 0x1000 0 0) = false := by decide +kernel
theorem test_wf_alias_bit : Instr.wf (.bitAliasWrite .part 0 0 32 0) = false := by decide +kernel
theorem test_wf_requester : Instr.wf (.registerWrite (.engine 256) 0 0) = false := by decide +kernel
theorem test_wf_die : Instr.wf (.thermalRead 7 0) = false := by decide +kernel
theorem test_wf_opcode : Instr.wf (.testInstructionLoad { opcode := 256 }) = false := by decide +kernel
theorem test_wf_volume : Instr.wf (.nandTemperatureRead 0 16 0) = false := by decide +kernel
theorem test_wf_speed : Instr.wf (.pcieLinkUp 0 16 { flit := true }) = false := by decide +kernel
theorem test_wf_raw_class : Instr.wf (.rawStatus 0 0 0 0 { cls := 256 } {}) = false := by decide +kernel
theorem test_wf_raw_target : Instr.wf (.rawLend 0 0 0 0 { target := 2 ^ 64 }) = false := by decide +kernel
theorem test_wf_ni : Instr.wf (.fenceOpen 0x188) = false := by decide +kernel
theorem test_wf_spm_bank : Instr.wf (.sweepStep 24 0 0) = false := by decide +kernel
theorem test_wf_hbm_channel : Instr.wf (.hbmWriteEyeRetrain 64 true) = false := by decide +kernel
theorem test_wf_pseudo_channel : Instr.wf (.hbmRefreshInterval 128 [] false) = false := by decide +kernel

/-- Operands at the edge of their ranges are well formed. -/
theorem test_wf_edges : Instr.wf (.powerOnReset 3 3 true) = true ∧ Instr.wf (.polderUp .part 80) = true ∧
    Instr.wf (.registerWrite (.engine 255) 0x1FFFFFC (2 ^ 32 - 1)) = true ∧ Instr.wf (.adaptWindow 255 { trans := 4096, levels := [4096, 0] }) = true ∧
    Instr.wf (.landingMreq 127 { src := 0x187, addr := 2 ^ 56 - 1, len := 256, data := 2 ^ 2048 - 1 }) = true := by
  and_intros <;> decide +kernel

/-! ### Witnesses of the statements about events, transfers and the map -/

/-- A state whose window of one code is open and whose signal timer runs. -/
def sEvt : State := { State.reset with evt.wins := [(5, { limit := 64, posted := 64, suppressed := 3 })], evt.sigBusy := true }

theorem witness_EventLedgerCommands : Live sEvt ∧ sEvt.mayWrite .part (F.EVT_ACK.off 0 0) ∧
    seqAtOrAfter 1 (sEvt.rd F.EVT_ACK) = true ∧ seqAtOrAfter (sEvt.rd F.EVT_SEQ) 1 = true ∧
    (seqAtOrAfter 2 (sEvt.rd F.EVT_ACK) && seqAtOrAfter (sEvt.rd F.EVT_SEQ) 2) = false ∧
    sEvt.mayWrite .part (F.EVT_TAG_SEL.off 0 0) ∧ (Map.get {} sEvt.evt.wins 5).limit ≠ 0 ∧ sEvt.evt.sigBusy = true := by
  simp only [live_iff, State.mayWrite]; and_intros <;> decide +kernel

/-- A tract of 512-byte blocks in IUs of 4 KiB. -/
def tract1 : Tract := { st := .ready, iu := 1, cap := 64, pages := 1 }

/-- A running command with one segment of 8 blocks at LBA 4 of tract 1, its first block pinned. -/
def cmdOf (op : Nat) (pin : List Src) : Cmd :=
  { sqe := sqe op 1 4 7 0x1000 + (if op = 0x06 then 1 * 2 ^ 320 + 16 * 2 ^ 384 else 0), phase := 2, checked := true, noted := true,
    hostData := [5, 6, 7, 8], segs := [{ len := 8, pin := pin }] }

/-- The tract, its map page resident, and the command at key 0 with its first segment on engine 0. -/
def sData (c : Cmd) : State := setAll { sRun with
  tly := { tracts := [(1, tract1)], frames := [(0, some {})], usable := true }
  qqp := { cmds := [(0, some c)] }
  dck := { tasks := [(3, some { tag := some 0, st := .running 0 false })], nextTask := 4 } } [(F.PCI_FN_STAT_BME, 0, 1)]

theorem witness_DataCommandSteps :
    let p : List Src := [{ blk := some (.data 9) }]
    let ok : Nat → List Src → Prop := fun op p =>
      let c := cmdOf op p
      let s := sData c
      Live s ∧ Runs s 0 op c ∧ s.segRunning 0 0 = some 3 ∧ c.segs[0]? = some { len := 8, pin := p } ∧
        s.srcTract c = some 1
    ok 0x02 [] ∧ (cmdOf 0x02 []).noted = true ∧ sqAtomic (cmdOf 0x02 []).sqe = false ∧
    ((sData (cmdOf 0x02 [])).translate true 1 4 3 0).2.isSome = true ∧
    ok 0x02 p ∧ (sData (cmdOf 0x02 p)).tlpOk 0 = true ∧ missing [] p = [] ∧ sqSgl (cmdOf 0x02 p).sqe = false ∧
    chunkLen 512 4 1 = 1 ∧
    (leadData 512 ((sData (cmdOf 0x02 p)).plain 1 4
      (((p.zipIdx.map (fun x => blockOf [] 512 ((4 + x.2) % 8) x.1)).filterMap id).zip p))).1 = 1 ∧
    (leadData 512 ((sData (cmdOf 0x02 p)).plain 1 4
      (((p.zipIdx.map (fun x => blockOf [] 512 ((4 + x.2) % 8) x.1)).filterMap id).zip p))).2.2 = none ∧
    ok 0x07 p ∧ (leadData 512 ((sData (cmdOf 0x07 p)).plain 1 4
      (((p.zipIdx.map (fun x => blockOf [] 512 ((4 + x.2) % 8) x.1)).filterMap id).zip p))).2.2 = none ∧
    ok 0x01 [] ∧ ok 0x08 [] ∧ (sData (cmdOf 0x01 [])).tractKey 0 1 = some 1 ∧
    (let c := cmdOf 0x01 []; let m := min (8 - sqLba c.sqe % 8) (8 - 0)
      m ≤ c.hostData.length ∧ m < 8 ∧ m ≠ 0 ∧ ((sData c).lineRoom 1 4 m).isSome = true) ∧
    ok 0x06 p ∧ sqDest (cmdOf 0x06 p).sqe = 16 ∧ (sData (cmdOf 0x06 p)).tractKey 0 1 = some 1 ∧
    ((sData (cmdOf 0x06 p)).lineRoom 1 0 1).isSome = true ∧
    (leadData 512 ((p.zipIdx.map (fun x => blockOf [] 512 ((4 + x.2) % 8) x.1)).filterMap id)).1 = 1 ∧
    (leadData 512 ((p.zipIdx.map (fun x => blockOf [] 512 ((4 + x.2) % 8) x.1)).filterMap id)).2.2 = none := by
  simp only [live_iff, runs_iff]; and_intros <;> decide +kernel

/-- A running command of eight blocks at LBA 0 of tract 1 whose work is no segment's. -/
def cmdRange (op : Nat) : Cmd := { sqe := sqe op 1 0 7 0, phase := 2, checked := true }

theorem witness_RangeCommandsEnd :
    (let s := sData (cmdRange 0x03); Live s ∧ Runs s 0 0x03 (cmdRange 0x03)) ∧
    (let s := sData (cmdRange 0x04); Live s ∧ Runs s 0 0x04 (cmdRange 0x04) ∧ s.tractKey 0 1 = some 1 ∧
      (s.tract 1).wholeIus 0 8 = (0, 1) ∧ (s.trimRun 0 1 0 1 0).2 = true) ∧
    (let s := sData (cmdRange 0x05); Live s ∧ Runs s 0 0x05 (cmdRange 0x05) ∧ s.tractKey 0 1 = some 1 ∧
      (cmdRange 0x05).segs = [] ∧ (s.tract 1).wholeIus 0 8 = (0, 1) ∧ (s.trimRun 0 1 0 1 0).2 = true ∧
      s.writesOver 0 1 8 0 8 = false ∧ (s.tract 1).partRuns 0 8 = []) ∧
    (let s := sData (cmdRange 0x05); (s.tract 1).partRuns 4 8 ≠ [] ∧
      ((s.tract 1).partRuns 4 8).all (fun p => (s.lineRoom 1 p.2.1 p.2.2).isSome) = true) := by
  simp only [live_iff, runs_iff]; and_intros <;> decide +kernel

/-- A line of the write buffer that stands alone, programmed and acknowledged; a page that loads and whose sectors have come, one
that is written back, an open journal page and one whose program has ended; the rows that hold them are written. -/
def sMap : State := setAll { sRun with
  tly := { tracts := [(1, tract1)], frames := [(0, some {}), (1, some { wb := true, wbPlace := some 0x20000 }), (9, some { flash := 0x20000 })]
           usable := true
           lines := [(4, some { tract := 1, acked := true, programmed := true }), (5, some { tract := 1, iu := 1, acked := true })]
           loads := [(9, some { asked := true, got := (List.range 4).map (fun k => (0x20000 + 16 * k, some (.data 0))) })]
           jPages := [{ first := 3, last := 4, place := some 0x20000 }], jOpen := 5 }
  med := { stripes := [(2, { st := .opened, fresh := true, members := [0x20000], row := 8 })] } } [(F.TLY_FRAMES, 0, 8), (F.TLY_JSEQ_LO, 0, 6)]

theorem witness_MapAndJournalSteps : Live sMap ∧ sMap.on F.TLY_STAT_DESTAGE_STALL = false ∧ sMap.nextLine.isSome = true ∧
    (sMap.newTask { kind := 0x10, internal := true, prio := sMap.iprio 0x10, pool := 0, epoch := sMap.rd F.GLB_EPOCH_NEXT,
                    payload := 4 }).isSome = true ∧
    (sMap.stripe 2).st = .opened ∧ (sMap.stripe 2).fresh = true ∧
    sMap.line 4 = some { tract := 1, acked := true, programmed := true } ∧ Map.get 0 sMap.tly.lastBseq (iuKey 1 0) ≤ 4 ∧
    sMap.outdated 4 { tract := 1, acked := true, programmed := true } = false ∧
    sMap.groupOf 4 { tract := 1, acked := true, programmed := true } = [4] ∧
    (sMap.needPage ((sMap.tract 1).page 0) (.line 4) (sMap.linePrio { tract := 1, acked := true, programmed := true })).2 = true ∧
    ((sMap.load 9).map (fun l => l.asked && (sMap.pageSectors 0x20000).all (fun a => l.got.any (fun x => x.1 == a)))) = some true ∧
    Map.get none sMap.tly.frames 9 = some { flash := 0x20000 } ∧
    Map.get none sMap.tly.frames 1 = some { wb := true, wbPlace := some 0x20000 } ∧ sMap.placed 0x20000 4 = true ∧
    sMap.tly.jOpen < sMap.jseq ∧
    sMap.tly.jPages.find? (fun p => p.first == 3) = some { first := 3, last := 4, place := some 0x20000 } := by
  simp only [live_iff]; and_intros <;> decide +kernel

theorem witness_TallyRegisterCommands : Live sMap ∧ sMap.mayWrite .part (F.TLY_CKPT_GO.off 0 0) ∧
    sMap.on F.TLY_STAT_CKPT_ACTIVE = false ∧
    (let s := setAll sMap [(F.TLY_STAT_CKPT_ACTIVE, 0, 1)]
     Live s ∧ s.mayWrite .part (F.TLY_CKPT_GO.off 0 0) ∧ s.on F.TLY_STAT_CKPT_ACTIVE = true) ∧
    2 ^ 64 - 1 < 2 ^ 64 := by
  simp only [live_iff, State.mayWrite]; and_intros <;> decide +kernel

theorem witness_ClockReferenceEvents : Live sRun ∧ sRun.clk.stopped = false ∧ sRun.rd F.CLK_STAT_REF = 0 ∧
    sRun.leveeEligible = false ∧
    (let s := setAll sRun [(F.LVE_BUNDLE_STAT_STATE, 0, 6)]; Live s ∧ s.clk.stopped = false ∧ s.leveeClock = true) := by
  simp only [live_iff]; and_intros <;> decide +kernel

/-- Engine 0 is idle in pool 0 and a host task waits there; in pool 5 a task of priority 7 runs on landing engine 96 and one
of priority 0 waits. -/
def sDeck : State := setAll { sRun with
  time := 2000000
  qqp := { cmds := [(0, some { segs := [{ len := 8 }] })] }
  dck := { tasks := [(1, some { tag := some 0 }),
                     (2, some { kind := 0x20, internal := true, prio := 7, pool := 5, st := .running 96 false, landing := some 1 }),
                     (3, some { kind := 0x20, internal := true, pool := 5, landing := some 1 })], nextTask := 4
           engs := [(96, { preemptable := true })] } }
  [(F.DCK_ENG_STAT_STATE, 0, 1), (F.DCK_ENG_STAT_STATE, 96, 2), (F.DCK_ENG_STAT_POOL, 96, 5), (F.DCK_ENG_STAT_LANDING, 96, 1),
   (F.DCK_CTL_PREEMPT_EN, 0, 1), (F.DCK_POOL_CFG_PREEMPT_GAP, 5, 1)]

/-- A transfer on skidder 0 that waits for map page 9. -/
def sPark : State := { sRun with
  qqp := { cmds := [(0, some { segs := [{ len := 8 }] })] }
  dck := { tasks := [(1, some { tag := some 0, st := .running 0 false })], nextTask := 2 }
  tly := { loads := [(9, some { waiters := [.task 1] })] } }

theorem witness_DeckSteps : Live sDeck ∧
    (sDeck.lve.stopped = false ∧ sDeck.mayTake 0 0 = true ∧ sDeck.engSt 0 = 1 ∧
      sDeck.choose 0 0 = some (1, { tag := some 0 }) ∧ sDeck.task 1 = some { tag := some 0 }) ∧
    (sDeck.rd F.DCK_CTL_PREEMPT_EN = 1 ∧ sDeck.rd F.DCK_POOL_CFG_PREEMPT_GAP 5 ≠ 0 ∧ sDeck.poolMode 5 ≠ 2 ∧
      Map.get none sDeck.dck.preempting 5 = none ∧ sDeck.ctxFree = true ∧ sDeck.noFree 5 = true ∧
      sDeck.waiting 5 = some (3, { kind := 0x20, internal := true, pool := 5, landing := some 1 }) ∧
      sDeck.victim 5 (sDeck.tprio { kind := 0x20, internal := true, pool := 5, landing := some 1 }) =
        some (2, { kind := 0x20, internal := true, prio := 7, pool := 5, st := .running 96 false, landing := some 1 }) ∧
      isLandingEng 96 = true) ∧
    (Live sPark ∧ sPark.taskOn 0 false = some 1 ∧ sPark.task 1 = some { tag := some 0, st := .running 0 false } ∧
      sPark.cmd 0 = some { segs := [{ len := 8 }] } ∧ sPark.faultOf 1 = some (.waitPage 9) ∧
      ((sPark.voidPreempt 1 false).parkTask 1 { tag := some 0, st := .running 0 false } 1 (.waitPage 9)).isSome = true) ∧
    sDeck.onChip + 256 ≤ 16384 ∧
    (sDeck.task 2 = some { kind := 0x20, internal := true, prio := 7, pool := 5, st := .running 96 false, landing := some 1 } ∧
      sDeck.rd F.DCK_POOL_CFG_TMO 5 ≠ 0) := by
  simp only [live_iff]; and_intros <;> decide +kernel

/-- Landing engine 96 runs a host command's task, and was asked to yield. -/
def sLand : State := setAll { sRun with
  qqp := { cmds := [(0, some { segs := [{ len := 8 }] })] }
  dck := { tasks := [(2, some { tag := some 0, pool := 5, st := .running 96 false })], nextTask := 3
           engs := [(96, { preemptable := true })] } }
  [(F.DCK_ENG_STAT_STATE, 96, 3), (F.DCK_ENG_STAT_POOL, 96, 5), (F.DCK_ENG_STAT_LANDING, 96, 1)]

theorem witness_LandingMessages : Live sLand ∧ sLand.cfg.userOn = true ∧ (sLand.landingEngines 127).length < 2 ∧
    ((List.range 256).map (· + 96)).find? (fun e => sLand.engSt e == 0) = some 97 ∧
    (sLand.landingEngines 1).contains 96 = true ∧
    (sLand.dck.creates.filter (fun t => t.landing = some 1)).length < 8 ∧
    (sLand.newTask { kind := 0x20, internal := true, prio := 7 % 8, pool := 31, aff := none, noPreempt := true, deadline := 0,
                     landing := some 1, payload := 0, token := 4, epoch := sLand.rd F.GLB_EPOCH_NEXT }).isSome = true ∧
    isLandingEng 96 = true ∧ sLand.taskOn 96 false = some 2 ∧
    sLand.task 2 = some { tag := some 0, pool := 5, st := .running 96 false } ∧ sLand.engSt 96 = 3 ∧
    [0x01, 0x02, 0x03, 0x10, 0x11, 0x12].contains 0x13 = false := by
  simp only [live_iff]; and_intros <;> decide +kernel

/-- Queue pairs of the PF: the admin pair, and pair 1 with an entry to fetch, a completion to give back and one that waits
for its timer; a command whose work is over. -/
def sQueue : State := setAll { sRun with
  qqp := { qps := [(1, { live := true, sqSize := 16, cqSize := 16, sqTail := 1, cqUsed := 1, cqTail := 1, coalTimer := true,
                         coalPending := 1 })]
           cmds := [(0, some { sqid := 1, ended := true, phase := 5 })] } }
  [(F.PCI_FN_STAT_BME, 0, 1)]

theorem witness_QueuePairs :
    (Live sRun ∧ sRun.fnExists 0 = true ∧ sRun.rd F.QQP_CTL_ENABLE = 0 ∧ sRun.pci.inReset = false ∧
      sRun.rd F.PCI_FN_STAT_FLR = 0) ∧
    (let s := setAll sRun [(F.QQP_CTL_ENABLE, 0, 1)]
     Live s ∧ s.rd F.QQP_CTL_ENABLE = 1 ∧ s.rd F.QQP_STAT_READY = 0 ∧ s.rd F.QQP_STAT_CFG_ERR = 0) ∧
    Live sQueue ∧ sQueue.rd F.CLK_GATE_OPEN 80 = 1 ∧
    ((sQueue.qp 0 1).live = true ∧ 15 < (sQueue.qp 0 1).sqSize) ∧
    (15 < (sQueue.qp 0 1).cqSize ∧ (1 + (sQueue.qp 0 1).cqSize - (sQueue.qp 0 1).cqHead) % (sQueue.qp 0 1).cqSize
      ≤ (sQueue.qp 0 1).cqUsed) ∧
    ((sQueue.qp 0 2).live = false ∧ (sQueue.qp 0 1).sqSize ≤ 16) ∧
    (sQueue.fetching = true ∧ sQueue.nextQueue = some (qpKey 0 1)) ∧
    (sQueue.cmd 0 = some { sqid := 1, ended := true, phase := 5 } ∧
      sQueue.pairOutcome 0 { sqid := 1, ended := true, phase := 5 } = some {} ∧ sQueue.lve.stopped = false ∧
      sQueue.orderHeld 0 = false ∧ sQueue.canPost { sqid := 1, ended := true, phase := 5 } = true) ∧
    ((sQueue.qp 0 1).coalTimer = true ∧ 0 < (sQueue.qp 0 1).coalPending) := by
  simp only [live_iff]; and_intros <;> decide +kernel

/-- A result shown with SEQ 255, a mailbox command whose work is over, a host command past its deadline, one that completed
and is held, and the two ledger commands that name it. -/
def sMbx : State := setAll { sRun with
  time := 9000
  qqp := { mbxBusy := true
           cmds := [(0, some { deadline := 5 }), (1, some { completed := true, held := true, phase := 5 }),
                    (131072, some { sqe := 0x10 + 1 * 2 ^ 320 }), (131073, some { sqe := 0x11 + 1 * 2 ^ 320 }),
                    (262144, some { sqe := 0x44, ended := true })] } }
  [(F.PCI_FN_STAT_BME, 0, 1), (F.GLB_RESULT_LO_VALID, 0, 1), (F.GLB_RESULT_LO_SEQ, 0, 255)]

theorem witness_MailboxAndLedgerCommands : Live sMbx ∧
    (sMbx.cmd 0 = some { deadline := 5 } ∧ 5 - 1 ≤ sMbx.time / 1000 ∧ Cmd.received { deadline := 5 } = true) ∧
    (Live sRun ∧ sRun.pci.inReset = false ∧ sRun.rd F.GLB_RESULT_LO_VALID = 0 ∧ sRun.qqp.mbxBusy = false) ∧
    (sMbx.pci.inReset = false ∧ sMbx.qqp.mbxBusy = true) ∧
    (sMbx.cmd 262144 = some { sqe := 0x44, ended := true } ∧ sMbx.outcome 262144 { sqe := 0x44, ended := true } = some {} ∧
      Cmd.delQ { sqe := 0x44, ended := true } = none) ∧
    255 < 2 ^ 8 ∧ (sMbx.rd F.GLB_RESULT_LO_VALID = 1 ∧ 0xFF % 256 = sMbx.rd F.GLB_RESULT_LO_SEQ) ∧
    0x100 % 256 ≠ sMbx.rd F.GLB_RESULT_LO_SEQ ∧
    (let c : Cmd := { sqe := 0x10 + 1 * 2 ^ 320 }
     sMbx.cmd 131072 = some c ∧ sqOp c.sqe = 0x10 ∧ sqTag c.sqe = 1 ∧ (sMbx.cmd 1).isSome = true ∧
       (sMbx.hostData 131072 0 (sqDp1 c.sqe) 64 (sMbx.ledgerEntry 1)).2 = true) ∧
    (let c : Cmd := { sqe := 0x11 + 1 * 2 ^ 320 }
     sMbx.cmd 131073 = some c ∧ sqOp c.sqe = 0x11 ∧ sqTag c.sqe = 1 ∧
       sMbx.cmd 1 = some { completed := true, held := true, phase := 5 }) := by
  simp only [live_iff]; and_intros <;> decide +kernel

/-- Sixteen channels of one LUN of 64 blocks in group 0, which is home, a policy that allows plaintext tracts, and one tract
in each state an admin command asks for. -/
def sAdmin (e : Nat) : State := (setAll { sRun with
  cfg := { done := true, policy := 2 ^ (8 * 0x30) }
  med := { entries := (List.range 16).foldl (fun n ch => n + (2 ^ 8 + 2 ^ 16) * 2 ^ (64 * ch)) 0
           tsets := [4 + 2 ^ 8 + 2 ^ 16 * 8 + 2 ^ 32 * 64 + 2 ^ 48, 0] }
  tly := { usable := true
           tracts := [(1, tract1), (2, { tract1 with st := .readOnly, mpn := 1 }),
                      (3, { tract1 with st := .formatting, mpn := 2, waiter := some 0 }),
                      (4, { tract1 with st := .deleting, mpn := 3, waiter := some 0 })] }
  qqp := { qps := [(1, { live := true, sqSize := 16, cqSize := 16 })], cmds := [(0, some { sqe := e })] } }
  [(F.PCI_FN_STAT_BME, 0, 1), (F.QQP_CAP_MAX_QP, 0, 64), (F.QQP_CAP_VECTORS, 0, 64)]).put F.MED_GRP_STAT_HOME 1 0 0

/-- One free range of map pages is left, so a place for the pages of a new tract is found whatever the free value is. -/
theorem allocPages_one (s : State) (g : Nat × Nat) (p : Nat) (h : s.freeRanges.filter (fun g => p ≤ g.2) = [g]) :
    ∃ n, s.allocPages p = some n := by
  unfold State.allocPages
  rw [h]
  simp [Nat.mod_one]

theorem witness_QueueAndTractAdmin :
    (let e := 0x40 + 2 * 2 ^ 320 + 15 * 2 ^ 336 + 15 * 2 ^ 352
     Live (sAdmin e) ∧ (sAdmin e).adminCmd 0 0x40 = some { sqe := e } ∧ (sAdmin e).createQpField { sqe := e } = none ∧
       ((sAdmin e).qp 0 (bytesAt e 40 2)).live = false) ∧
    (let e := 0x41 + 1 * 2 ^ 320
     (sAdmin e).adminCmd 0 0x41 = some { sqe := e } ∧ bytesAt e 40 2 ≠ 0 ∧
       bytesAt e 40 2 ≤ (sAdmin e).rd F.QQP_CAP_MAX_QP 0 ∧ ((sAdmin e).qp 0 1).live = true ∧
       ((sAdmin e).qp 0 1).deleting = none ∧ bit e 336 = false) ∧
    (let e := 0x42 + 9 * 2 ^ 32 + 64 * 2 ^ 64 + 1 * 2 ^ 328
     (sAdmin e).adminCmd 0 0x42 = some { sqe := e } ∧ (sAdmin e).createField e = none ∧ (sAdmin e).tly.usable = true ∧
       (sAdmin e).anyTract (sqTract e) = none ∧ (Map.get {} (sAdmin e).lve.pTracts (sqTract e)).st = .absent ∧
       (sAdmin e).bindable (sqKid e) = true ∧ sqLba e * 512 ≤ (sAdmin e).freeCapacity ∧
       ∃ p, (sAdmin e).allocPages (mapPages (mapEntries (sqLba e) 512 (iuBytes (bytesAt e 41 1)))) = some p) ∧
    (((sAdmin 0).tract 3).st = .formatting ∧ ((sAdmin 0).tract 3).waiter = some 0) ∧
    (let e := 0x43 + 1 * 2 ^ 32
     (sAdmin e).adminCmd 0 0x43 = some { sqe := e } ∧ (sAdmin e).anyTract (sqTract e) = some 1 ∧
       (sAdmin e).tly.usable = true ∧ ((sAdmin e).tract 1).st = .ready) ∧
    (let e := 0x43 + 2 * 2 ^ 32
     (sAdmin e).adminCmd 0 0x43 = some { sqe := e } ∧ (sAdmin e).anyTract (sqTract e) = some 2 ∧
       ((sAdmin e).tract 2).st = .readOnly) ∧
    (((sAdmin 0).tract 4).st = .deleting ∧ (sAdmin 0).tractBusy 4 = false ∧ ((sAdmin 0).tract 4).waiter = some 0) ∧
    (let e := 0x44 + 1 * 2 ^ 32
     (sAdmin e).adminCmd 0 0x44 = some { sqe := e } ∧ bytesAt e 40 1 = 0 ∧ (sAdmin e).tractKey 0 (sqTract e) = some 1) ∧
    (let e := 0x44 + 1 * 2 ^ 32 + 1 * 2 ^ 320
     (sAdmin e).adminCmd 0 0x44 = some { sqe := e } ∧ bytesAt e 40 1 = 1 ∧ (sAdmin e).anyTract (sqTract e) = some 1 ∧
       ((sAdmin e).tract 1).st = .ready) ∧
    (let e := 0x44 + 2 * 2 ^ 32 + 2 * 2 ^ 320
     (sAdmin e).adminCmd 0 0x44 = some { sqe := e } ∧ bytesAt e 40 1 = 2 ∧ (sAdmin e).anyTract (sqTract e) = some 2 ∧
       ((sAdmin e).tract 2).st = .readOnly) := by
  simp only [live_iff]
  and_intros
  all_goals first
    | exact allocPages_one _ (4, 2 ^ 26 - 4) _ (by decide +kernel)
    | decide +kernel

/-- A key at slot 7, unbound, a damaged leaf of the first sealed region, and one felled object. -/
def sOther (e : Nat) : State := setAll { sAdmin e with
  cry := { keys := [(7, 1)], damaged := [(0, 0, 0)] }, med := { felled := [{ kind := 1 }] }
  qqp := { cmds := [(0, some { sqe := e }), (1, some { sqid := 1, sqe := 0x02 + 7 * 2 ^ 16 })] } }
  [(F.CRY_KEY_STAT_LOADED, 7, 1), (F.CRY_SEAL_STAT_DAMAGED, 0, 1)]

theorem witness_OtherAdminCommands :
    (let e := 0x45 + 9 * 2 ^ 48 + 160 * 2 ^ 320
     let s := sOther e
     Live s ∧ s.adminCmd 0 0x45 = some { sqe := e } ∧ bytesAt e 40 2 = 160 ∧ s.tlpOk 0 = true ∧
       s.importCheck (sqKid e) 0 = some 0x03) ∧
    (let e := 0x46 + 7 * 2 ^ 48
     (sOther e).adminCmd 0 0x46 = some { sqe := e } ∧ ((sOther e).retireKey (sqKid e)).2 = 0) ∧
    (let e := 0x47 + 2 * 2 ^ 320
     (sOther e).adminCmd 0 0x47 = some { sqe := e } ∧
       (sOther e).identity { sqe := e } 2 = .inr (1 + 2 ^ 16 * (2 + 2 ^ 16 * (3 + 2 ^ 16 * 4))) ∧
       ((sOther e).drawn.hostData 0 0 (sqDp1 e) 4096 0).2 = true) ∧
    (let e := 0x49 + 4095 * 2 ^ 320 + 1 * 2 ^ 336
     (sOther e).adminCmd 0 0x49 = some { sqe := e } ∧ bytesAt e 40 2 = 4095 ∧ bytesAt e 42 2 = 1 ∧ 4095 < 4096 ∧
       ((sOther e).hostData 0 0 (sqDp1 e) 32 ((sOther e).slots 4095 1)).2 = true) ∧
    (let e := 0x4A + 1 * 2 ^ 352
     (sOther e).adminCmd 0 0x4A = some { sqe := e } ∧
       ((sOther e).med.felled.drop (bytesAt e 40 4)).take (bytesAt e 44 4) ≠ [] ∧
       ((sOther e).hostData 0 0 (sqDp1 e) 16 (fellBytes { kind := 1 })).2 = true) ∧
    (let e := 0x4A + 1 * 2 ^ 320 + 1 * 2 ^ 352
     (sOther e).adminCmd 0 0x4A = some { sqe := e } ∧
       ((sOther e).med.felled.drop (bytesAt e 40 4)).take (bytesAt e 44 4) = []) ∧
    (let e := 0x4B + 1 * 2 ^ 320 + 7 * 2 ^ 336
     (sOther e).adminCmd 0 0x4B = some { sqe := e } ∧
       (sOther e).findCmd 0 (bytesAt e 40 2) (bytesAt e 42 2) = some (1, { sqid := 1, sqe := 0x02 + 7 * 2 ^ 16 }) ∧
       1 ≠ 0 ∧ Cmd.abortable { sqid := 1, sqe := 0x02 + 7 * 2 ^ 16 } = true) ∧
    (let e := 0x4C + (384 * 2 ^ 28) * 2 ^ 384 + 4096 * 2 ^ 448
     (sOther e).adminCmd 0 0x4C = some { sqe := e } ∧ bytesAt e 48 8 % 4096 = 0 ∧ bytesAt e 56 8 = 4096 ∧
       ((sOther e).resealRange (bits (bytesAt e 48 8) 0 48) (bytesAt e 56 8)).2.1 = 0) := by
  simp only [live_iff]; and_intros <;> decide +kernel

theorem witness_HbmAndSweepEvents : Live sRun ∧
    (sRun.rd F.HBM_PC_STAT_STATE 127 ≠ 2 ∧ sRun.rd F.HBM_PC_STAT_SR 127 = 0 ∧
      (let u := (((sRun.refDebts 127 []).refWindow 127).rhFallback 127)
       let v := u.put F.HBM_PC_STAT_DEBT (u.maxDebt 127) 127
       v.on F.HBM_TEMP_DOUBLED 3 = v.wantDouble 3)) ∧
    ((84 : Int) < 85 ∧ (83 : Int) < 84) ∧
    (sRun.hbm.hot85.contains 3 = false ∧ sRun.hbm.hot95.contains 3 = false) ∧ sRun.cfg.done = true ∧
    (let s := setAll sRun [(F.HBM_SR_CTL_IDLE_US, 0, 1)]
     Live s ∧ s.rd F.HBM_PC_STAT_SR 126 = 0 ∧ s.rd F.HBM_SR_CTL_IDLE_US ≠ 0 ∧ s.noDebt 126 = true ∧ s.noDebt 127 = true) ∧
    (let s := setAll sRun [(F.CLK_GATE_RUN_EN, 68, 0)]
     Live s ∧ s.rd F.HBM_PC_STAT_SR 126 = 0 ∧ s.hbmGateCloses 63 = true) ∧
    (let s := setAll sRun [(F.HBM_EVAC_ACTIVE, 0, 1), (F.HBM_EVAC_PC, 0, 127)]
     Live s ∧ s.rd F.HBM_EVAC_ACTIVE = 1 ∧ s.rd F.HBM_EVAC_PC < 128 ∧ s.hbm.waiting = []) ∧
    (sRun.rd F.SPM_CTL_SWEEP_EN = 1 ∧ sRun.lve.pfLow = false) := by
  simp only [live_iff]; and_intros <;> decide +kernel

/-- A key source in a landing's window, region 7 with a size, a node damaged, automatic reseals on. -/
def sCry : State := setAll { sRun with cry := { keys := [(7, 1)], damaged := [(2, 0, 5)] } }
  [(F.CRY_KEY_SRC_HI, 0, 0x200), (F.CRY_SEAL_CFG_SIZE, 7, 1), (F.CRY_CTL_AUTO_RESEAL, 0, 1), (F.CRY_KEY_STAT_LOADED, 7, 1)]

theorem witness_CryptoRegisterCommands : Live sCry ∧
    (sCry.mayWrite .part (F.CRY_KEY_CMD_KID.off 0 0) ∧ sCry.rd F.CRY_KEY_RESULT_BUSY = 0 ∧
      (let a := sCry.rd64 F.CRY_KEY_SRC_LO F.CRY_KEY_SRC_HI
       let r1 := sCry.devRead a 64 5 1
       let r2 := r1.1.devRead (a + 64) 64 5 (1 / 2 ^ 512)
       let r3 := r2.1.devRead (a + 128) 32 5 (1 / 2 ^ 1024)
       r1.2.1 = 0 ∧ r2.2.1 = 0 ∧ r3.2.1 = 0)) ∧
    (sCry.mayWrite .part (F.CRY_REKEY_GO.off 0 0) ∧ sCry.rd F.CRY_STAT_REKEY = 0 ∧ sCry.sealSize 7 ≠ 0 ∧
      0xA5000010 / 16 ≠ 0xA500000) ∧
    (let s := setAll sRun [(F.CRY_STAT_REKEY, 0, 1)]
     Live s ∧ s.rd F.CRY_STAT_REKEY = 1 ∧
       (let p := s.rd64 F.CRY_SWEEP_LO F.CRY_SWEEP_HI 0
        s.underDamage 0 (64 * ((p - s.sealBase 0) / 4096)) = false)) ∧
    sCry.mayWrite .part (F.CRY_RESEAL_GO.off 0 0) ∧
    (sCry.rd F.CRY_CTL_AUTO_RESEAL = 1 ∧ sCry.cry.damaged.contains (2, 0, 5) = true ∧ sCry.rekeying 2 = false) ∧
    (let l : Line := { data := [(0, .data 9)], healed := true }
     let s : State := { sCry with cry.damaged := [(0, 0, 0), (1, 0, 5)], tly.lines := [(1, some l)] }
     Live s ∧ s.cry.damaged.contains (1, 0, 5) = true ∧ s.rekeying 1 = false ∧ s.linesUnder 1 0 5 = [] ∧
       s.cry.damaged.contains (0, 0, 0) = true ∧ s.rekeying 0 = false ∧ s.linesUnder 0 0 0 = [(1, l, [(0, .data 9)])] ∧
       s.line 1 = some l) := by
  simp only [live_iff, State.mayWrite]; and_intros <;> decide +kernel

/-- Packets on the way, answered, waiting at their target, and behind a port that is closed; NI 0x20 is isolated and fenced. -/
def sNoc : State := setAll { sRun with
  noc := { pkts := [(0, some { req := { src := 0x00 }, dst := 0x20 }), (1, some { answer := some (0, 5) }),
                    (2, some { answer := some (0x10, 0) }), (3, some { atUnit := true, held := true }),
                    (4, some { req := { src := 0x100 }, dst := 0x100, atUnit := true })]
           closed := [2], stuck := [(9, { dst := 0xA0 })] } }
  [(F.NOC_NI_STAT_ISOLATED, 0x20, 1), (F.NOC_NI_STAT_FENCED, 0x20, 1)]

theorem witness_SkidwaySteps : Live sNoc ∧ ¬ (0x100 ≤ 0xFF ∧ 0xFF < 0x180) ∧ ¬ (0x100 ≤ 0x180 ∧ 0x180 < 0x180) ∧
    (sNoc.pkt 1 = some { answer := some (0, 5) } ∧ sNoc.granted { answer := some (0, 5) } = true) ∧
    (let s : State := { sRun with noc := { pkts := [(2, some { answer := some (0x10, 0) })] } }
     Live s ∧ s.pkt 2 = some { answer := some (0x10, 0) } ∧ s.granted { answer := some (0x10, 0) } = true) ∧
    sNoc.pkt 0 = some { req := { src := 0x00 }, dst := 0x20 } ∧
    (sNoc.pkt 3 = some { atUnit := true, held := true } ∧ sNoc.fab.treq.contains 3 = false) ∧
    sNoc.rd F.NOC_NI_STAT_ISOLATED 0x20 = 1 ∧
    (sNoc.noc.closed.contains (32 * 0 + 2) = true ∧ (sNoc.pathOf { req := { src := 0x00 }, dst := 0x20 }).contains (0, 2) = true ∧
      Pkt.moving { req := { src := 0x00 }, dst := 0x20 } = true) ∧
    sNoc.mayWrite .part (F.NOC_RECONFIG.off 0 0) ∧ sNoc.rd F.NOC_NI_STAT_FENCED 0x20 = 1 := by
  simp only [live_iff, State.mayWrite]; and_intros <;> decide +kernel

theorem witness_Arrivals : Live sNoc ∧
    (let p : Pkt := { req := { src := 0x00 }, dst := 0x20 }
     let s := setAll { sRun with noc := { pkts := [(0, some p)] } } [(F.NOC_NI_STAT_FENCED, 0x20, 1)]
     Live s ∧ s.noc.stuck.find? (fun x => x.1 == 0) = none ∧ s.pkt 0 = some p ∧ s.granted p = true ∧
       s.rd F.NOC_NI_STAT_FENCED 0x20 = 1) ∧
    (let p : Pkt := { req := { src := 0x00 }, dst := 0x20, seq := 1 }
     let q : Pkt := { req := { src := 0x00 }, dst := 0x20 }
     let s : State := { sRun with time := 1000, noc := { pkts := [(0, some p), (1, some q)] } }
     Live s ∧ s.noc.stuck.find? (fun x => x.1 == 0) = none ∧ s.pkt 0 = some p ∧ s.granted p = false) ∧
    (sNoc.noc.stuck.find? (fun x => x.1 == 3) = none ∧ sNoc.pkt 3 = some { atUnit := true, held := true }) ∧
    (let p : Pkt := { req := { src := 0x00 }, dst := 0xA0, epoch := 65534 }
     let s : State := { sRun with noc := { pkts := [(0, some p)] } }
     Live s ∧ s.pkt 0 = some p ∧ s.granted p = true ∧ s.rd F.NOC_NI_STAT_FENCED 0xA0 = 0 ∧ s.rd F.NOC_NI_STAT_ISOLATED 0xA0 = 0 ∧
       epochOlder 65534 ((s.unitEpoch (niUnit 0xA0) + 65535) % 65536) = true) ∧
    sNoc.noc.stuck.find? (fun x => x.1 == 9) = some (9, { dst := 0xA0 }) ∧
    (let s : State := { sRun with pwr := { left := [13, 9] } }
     Live s ∧ 13 ∈ s.pwr.left ∧ ∀ p ∈ unitPolders 13, s.rd F.CLK_GATE_OPEN p ≠ 0) ∧
    (let s := setAll { sRun with pwr := { left := [9] } } [(F.CLK_GATE_OPEN, 68, 0)]
     Live s ∧ 9 ∈ s.pwr.left ∧ 68 ∈ unitPolders 9 ∧ s.rd F.CLK_GATE_OPEN 68 = 0) := by
  simp only [live_iff]; and_intros <;> decide +kernel

/-- A number given by 48 bytes in two halves. -/
def n48 (hi lo : Nat) : Nat := hi * 2 ^ 192 + lo

/-- A key with which the signature of `image0` verifies, and SHA-384 of its X followed by Y; both by an implementation outside
the model. -/
def imageKey : Nat × Nat :=
  (n48 0x86df4208898cf20b9df4fab5af80db9df47b48847dcb0b3 0x6673bed4ee0373ee936e4f20fe804adef158ddb2f55b8c0f,
   n48 0xb734bac03f836297db6e6c05e98fcfba77f9a4d85e8ff4df 0x7e08e76b1ac7c630f969a0c28d19b44f20f2b99dcb30c1a)

def imageKeyHash : Nat := n48 0x7f1695c4f2cf2aa207187de7a903d8bf19a32f282af04f0c 0xd58d4638dabab4ff823fed3971ea32f883857037325ef7d1

/-- A partial image for stand 0 of one row, without dike latches and drivers, with golden signatures 0 and one run record of
one frame of zeros at address 0, hashed and signed outside the model. -/
def image0 : Nat :=
  let h := 0x54555250 + 1 * 2 ^ 32 + 0x51 * 2 ^ 48 + 0x256 * 2 ^ 64 + 2 * 2 ^ 80 + 1 * 2 ^ 104 + 0x400 * 2 ^ (8 * 0x14)
    + 0x400 * 2 ^ (8 * 0x18) + 0x420 * 2 ^ (8 * 0x1C) + 457 * 2 ^ (8 * 0x20) + 0xB50 * 2 ^ (8 * 0x24) + 272 * 2 ^ (8 * 0x28)
    + 0xC60 * 2 ^ (8 * 0x2C) + 1 * 2 ^ (8 * 0x30)
    + (n48 0x6e92c287d0850b7363f49f737a0f0443819e82764615f054 0xa0857cd4025f22fb0f10e9fbe47621581f537bd19d05e41e) * 2 ^ (8 * 0x40)
    + (n48 0x603692e12d0ae678914756a80c40d2d41fe8500b845cfb51 0x1445d049813263380cd477c622da7b15272b3df6313f81e3) * 2 ^ (8 * 0x70)
  let r := n48 0x6f3b34aa642deda01320cdc5ed2f8b75349e5adc93bd1bb3 0xe6a84dd0bd244e9ab3dcaca82701b6864f2a89223cf8028a
  h + 2 ^ (8 * 0x100) * (imageKey.1 * 2 ^ (8 * 0x10) + imageKey.2 * 2 ^ (8 * 0x40) + r * 2 ^ (8 * 0x70) + r * 2 ^ (8 * 0xA0))

/-- A request to load stand 0 from NVM in a part whose key-hash slot 0 holds the hash of that image's key. -/
def sLoad : State := setAll { sRun with sl := { queue := [{ stand := 0 }], lib := 1 }, qqp := { cmds := [(0, some { sqe := 0x48 + 63 * 2 ^ 320 })] }
                                        fuses := { keyHash := [imageKeyHash, 0, 0, 0] } }
  [(F.LDG_CTL_EN, 127, 1), (F.CFG_ST_STAT_STATE, 0, 2)]

/-- A load of stand 0 in one of its phases. -/
def sPhase (n : Nat) : State := setAll { sRun with sl := { cur := some { stand := 0 }, left := 272 } } [(F.CFG_SL_STAT_PHASE, 0, n), (F.CFG_ST_STAT_STATE, 0, 1), (F.CFG_ST_STAT_ROW_LAST, 0, 23)]

theorem witness_StandLoads : Live sLoad ∧ sLoad.rd F.LDG_CTL_EN 127 = 1 ∧
    (sLoad.cmd 0 = some { sqe := 0x48 + 63 * 2 ^ 320 } ∧ sqOp (0x48 + 63 * 2 ^ 320) = 0x48 ∧
      bytesAt (0x48 + 63 * 2 ^ 320) 40 1 = 63 ∧ bytesAt (0x48 + 63 * 2 ^ 320) 41 1 = 0) ∧
    (sLoad.mayWrite .part (F.CFG_SL_CMD_KEY.off 0 0) ∧ bits 0xA500003F 24 8 = 0xA5 ∧ bits 0xA500003F 8 1 = 0) ∧
    (sLoad.sl.cur = none ∧ sLoad.sl.queue = { stand := 0 } :: [] ∧ sLoad.cfg.fbStream = false ∧
      sLoad.fab.rbLeft.any (fun x => x.1 == 0) = false ∧
      (sLoad.slRest []).imgFail { stand := 0 } { bytes := image0 } = none ∧
      (sLoad.slRest []).imgFail { stand := 0 } { readable := false } = some (0x03, 0x21, 44)) ∧
    (Live (sPhase 2) ∧ (sPhase 2).sl.cur = some { stand := 0 } ∧ (sPhase 2).rd F.CFG_SL_STAT_PHASE = 2 ∧
      (sPhase 2).cru.repair = none) ∧
    (Live (sPhase 3) ∧ (sPhase 3).sl.cur = some { stand := 0 } ∧ (sPhase 3).rd F.CFG_SL_STAT_PHASE = 3 ∧
      ((sPhase 3).writeRun { stand := 0 } 0 [{ data := 5 }]).2 = true ∧
      ((sPhase 3).writeRun { stand := 0 } (2 ^ 30) [{ data := 5 }]).2 = false) ∧
    ofBytes (sha384 (sPhase 3).sl.runs) ≠ (partHdr (sPhase 3).sl.img.bytes).frameHash := by
  simp only [live_iff, State.mayWrite]; and_intros <;> decide +kernel

/-- The Cruiser is on; the repair of a frame may be under way. Frame 65537 has golden signature 0 and frame 65538 signature
1, and both hold zeros, so at least one of them does not match. -/
def sCru (a : Option Nat) : State := setAll { sRun with
  cru := { repair := a }, sl := { frames := [(65537, { gold := some 0 }), (65538, { gold := some 1 })] } }
  [(F.CRU_CTL_EN, 0, 1), (F.CRU_CTL_NVM_EN, 0, 0), (F.CFG_ST_STAT_STATE, 0, 1), (F.CFG_ST_STAT_ROW_LAST, 0, 23), (F.CRU_INJ_ADDR, 0, 0)]

theorem sig_zero (s : State) (a : Nat) : s.sig a 0 = crc32c 256 0 := by
  rw [State.sig, Nat.zero_sub]

theorem matchesGold_zero (s : State) (a : Nat) (h : (s.frame a).gold = none) : s.matchesGold a 0 = true := by
  unfold State.matchesGold State.gold
  rw [h, sig_zero, Option.getD_none]
  generalize crc32c 256 0 = n
  exact beq_self_eq_true n

theorem matchesGold_other (s t : State) (a b : Nat) (h : (s.frame a).gold = some 0) (h' : (t.frame b).gold = some 1) :
    s.matchesGold a 0 = false ∨ t.matchesGold b 0 = false := by
  unfold State.matchesGold State.gold
  rw [h, h', sig_zero, sig_zero, Option.getD_some, Option.getD_some]
  generalize crc32c 256 0 = n
  cases n with
  | zero => exact .inr rfl
  | succ n => exact .inl rfl

theorem witness_CruiserSteps :
    (let s := sCru none
     Live s ∧ s.cfg.done = true ∧ s.rd F.CRU_CTL_EN = 1 ∧ s.cru.repair = none ∧ s.rd F.CFG_SL_STAT_PHASE ≠ 3 ∧
       s.rd F.LDG_RB_STAT_BUSY = 0 ∧ s.cru.queue = [] ∧
       s.mayWrite .part (F.CRU_INJ_GO.off 0 0) ∧ frameScanned (s.rd F.CRU_INJ_ADDR) = true ∧
       s.standSt (s.frameStand (s.rd F.CRU_INJ_ADDR)) = 1 ∧ Map.get none s.fab.spines (1536 * 3 + 1535) = none) ∧
    (let s : State := { sCru none with cru := { queue := [7] } }
     Live s ∧ s.rd F.CRU_CTL_EN = 1 ∧ s.cru.repair = none ∧ s.rd F.CFG_SL_STAT_PHASE ≠ 3 ∧ s.rd F.LDG_RB_STAT_BUSY = 0 ∧
       s.cru.queue = 7 :: []) ∧
    (let s := sCru (some 65536)
     Live s ∧ s.cru.repair = some 65536 ∧ (s.frame 65536).cache = 0 ∧ s.matchesGold 65536 0 = true ∧
       (let t := ((s.repairWrite 65536 0 false (stuckMask (s.excluded 65536) 0)).put F.CRU_STAT_REPAIRING 0).repairOver
        (t.frame 65536).live = 0 ∧ t.matchesGold 65536 0 = true)) ∧
    (let s := sCru (some 65537)
     let t := sCru (some 65538)
     Live s ∧ Live t ∧ s.cru.repair = some 65537 ∧ t.cru.repair = some 65538 ∧ (s.frame 65537).cache = 0 ∧
       (t.frame 65538).cache = 0 ∧ (s.matchesGold 65537 0 = false ∨ t.matchesGold 65538 0 = false) ∧
       s.nvmAllowed 65537 = false ∧ t.nvmAllowed 65538 = false) := by
  simp only [live_iff, State.mayWrite]
  and_intros
  all_goals first
    | decide +kernel
    | exact matchesGold_zero _ _ (by decide +kernel)
    | exact matchesGold_other _ _ _ _ (by decide +kernel) (by decide +kernel)

/-- Landing 0 is open; a packet waits at it, one is late, a readback is captured and one has stopped a domain. -/
def sFab : State := setAll { sRun with
  noc := { pkts := [(4, some { req := { src := 0x100 }, dst := 0x100, atUnit := true })] }
  fab := { treq := [4], late := [8], rbWait := true } }
  [(F.LDG_CTL_EN, 0, 1), (F.CFG_ST_STAT_STATE, 0, 1), (F.CFG_ST_STAT_ROW_LAST, 0, 23), (F.CFG_ST_STAT_STATE, 63, 1),
   (F.LDG_RB_STAT_BUSY, 0, 1), (F.LDG_RB_STAT_STOPPED, 0, 1), (F.SPM_CTL_FAB_SWEEP_EN, 0, 1), (F.SPM_FAB_SWEEP_LO, 0, 1)]

theorem witness_FabricSteps : Live sFab ∧ sFab.landingOpen 0 = true ∧ sFab.pkt (pktKey (0x100 + 0) (1023 % 1024)) = none ∧
    (sFab.fab.late.contains 4 = false ∧ (sFab.pkt 4).isSome = true ∧ sFab.fab.treq.contains 4 = true) ∧
    sFab.fab.late.contains 8 = true ∧ sFab.mayWrite .part (F.LDG_RB_CTL_GO.off 0 0) ∧ sFab.fab.rbWait = true ∧
    sFab.rd F.LDG_RB_STAT_BUSY = 1 ∧ sFab.rd F.LDG_RB_STAT_STOPPED = 1 ∧
    (sFab.rd F.SPM_CTL_FAB_SWEEP_EN = 1 ∧ sFab.lve.pfLow = false ∧
      bit (sFab.rd64 F.SPM_FAB_SWEEP_LO F.SPM_FAB_SWEEP_HI) 0 = true ∧ sFab.standSt 0 = 1 ∧ sFab.memIn 0 0 = true) ∧ sFab.cfg.userOn = true ∧
    (let a : CtrlSet := { rst := .const true, sync := false }
     sFab.dikesShut (sFab.standAt 0 (tileStrip 0) (0 / 32)) = false ∧ sFab.polSt (tilePolder 0 0) < 4 ∧
       a.sync = false ∧ sFab.val 0 (tileStrip 0) a.rst = true ∧ sFab.val 0 (tileStrip 0) (.const false) = false ∧
       sFab.setEdge 0 0 0 0 { clk := .logic (.const false) } = false) ∧
    (let s : State := { sFab with sl.dikes := [(0, some [])] }
     Live s ∧ s.dikesShut (s.standAt 0 (tileStrip 0) (0 / 32)) = true) := by
  simp only [live_iff, State.mayWrite]; and_intros <;> decide +kernel

/-- Polders in each state a step acts in. -/
def sPol : State := setAll { sRun with pwr := { fences := [(3, 1)] } }
  [(F.PWR_POL_STAT_STATE, 2, 1), (F.PWR_POL_STAT_STATE, 3, 2), (F.PWR_POL_STAT_STATE, 4, 3), (F.PWR_POL_STAT_STATE, 5, 5),
   (F.PWR_POL_STAT_STATE, 6, 6), (F.PWR_POL_STAT_STATE, 69, 6), (F.PWR_POL_STAT_STATE, 76, 6)]

theorem witness_PolderAndStateSteps : Live sPol ∧
    (sPol.mayWrite .part (F.PWR_POL_CMD.off 1 0) ∧ sPol.polSt 1 = 0 ∧ sPol.polAllowed 1 = true) ∧
    (sPol.mayWrite .part (F.PWR_POL_CMD.off 80 0) ∧ sPol.polSt 80 = 0 ∧ sPol.polAllowed 80 = false) ∧
    sPol.polSt 2 = 1 ∧ (sPol.polSt 3 = 2 ∧ sPol.polInside 3 = [] ∧ sPol.polEngines 3 = []) ∧ sPol.polSt 4 = 3 ∧
    sPol.polSt 5 = 5 ∧ sPol.polSt 6 = 6 ∧ sPol.polSt 69 = 6 ∧ sPol.polSt 76 = 6 ∧ sPol.pwr.fences.contains (3, 1) = true ∧
    (sPol.mayWrite .part (F.PWR_STATE_CMD_TARGET.off 0 0) ∧ sPol.rd F.PWR_STAT_CHANGING = 0 ∧ sPol.ownsGroup = false ∧
      sPol.bst 0 = 0 ∧ sPol.bst 1 = 0 ∧ sPol.lve.pfLow = false) ∧
    (let s := setAll sRun [(F.PWR_STAT_PSTATE, 0, 1)]
     Live s ∧ bit (s.rd F.PWR_WAKE_MASK) 3 = true ∧ s.rd F.PWR_STAT_PSTATE ≠ 0 ∧ s.rd F.PWR_STAT_CHANGING = 0) ∧
    (let s := setAll sRun [(F.GLB_EPOCH_SETTLED, 0, 1), (F.GLB_EPOCH_NEXT, 0, 2 ^ 32 - 1)]
     Live s ∧ s.mayWrite .part (F.GLB_EPOCH_NEXT.off 0 0) ∧ s.rd F.GLB_EPOCH_SETTLED = 1 ∧
       0 = (s.rd F.GLB_EPOCH_NEXT + 1) % 2 ^ 32) ∧
    (let s := setAll sRun [(F.GLB_EPOCH_SETTLED, 0, 0)]
     Live s ∧ s.mayWrite .part (F.GLB_EPOCH_NEXT.off 0 0) ∧ s.rd F.GLB_EPOCH_SETTLED = 0) := by
  simp only [live_iff, State.mayWrite]; and_intros <;> decide +kernel

/-- Group `g` in state `st`, with its record. -/
def sGrp (g st : Nat) (r : Grp) : State :=
  State.put { sRun with med := { grps := [(g, r)] } } F.MED_GRP_STAT_STATE st (g / 8) (g % 8)

theorem witness_GroupOwnership : Live sRun ∧
    sRun.mayWrite .part (F.MED_GRP_CMD.off 1 7) ∧
    (Live (sGrp 15 0 {}) ∧ (sGrp 15 0 {}).gst 15 = 0 ∧ (sGrp 15 0 {}).drives 15 = false ∧
      ((sGrp 15 0 {}).grp 15).claimPend = false ∧ ((sGrp 15 0 {}).grp 15).otherLow = false) ∧
    (Live (sGrp 0 1 {}) ∧ (sGrp 0 1 {}).gst 0 = 1 ∧ ((sGrp 0 1 {}).grp 0).otherLow = false ∧ (sGrp 0 1 {}).drives 0 = false) ∧
    (Live (sGrp 0 2 {}) ∧ (sGrp 0 2 {}).gst 0 = 2 ∧ (sGrp 0 2 {}).gst 0 ≠ 7 ∧ (sGrp 0 2 {}).drives 0 = false) ∧
    (Live (sGrp 0 7 { otherLow := true }) ∧ (sGrp 0 7 { otherLow := true }).gst 0 = 7 ∧
      ((sGrp 0 7 { otherLow := true }).grp 0).otherLow = true) ∧
    (Live (sGrp 8 3 { slot := 63 }) ∧ (sGrp 8 3 { slot := 63 }).gst 8 = 3 ∧ ((sGrp 8 3 { slot := 63 }).grp 8).slot < 64) ∧
    (Live (sGrp 8 3 { slot := 64 }) ∧ (sGrp 8 3 { slot := 64 }).gst 8 = 3 ∧ ((sGrp 8 3 { slot := 64 }).grp 8).slot = 64) ∧
    (let s := (sGrp 7 4 { enablePend := true }).drive 7 true
     Live s ∧ s.gst 7 = 4 ∧ s.drives 7 = true ∧ (s.grp 7).enablePend = true) ∧
    (Live (sGrp 7 5 {}) ∧ (sGrp 7 5 {}).gst 7 = 5) ∧
    (Live (sGrp 0 6 {}) ∧ (sGrp 0 6 {}).gst 0 = 6 ∧ (sGrp 0 6 {}).groupQuiet 0 = true) ∧
    (Live (sGrp 0 0 { releasing := true }) ∧ (sGrp 0 0 { releasing := true }).gst 0 = 0 ∧
      ((sGrp 0 0 { releasing := true }).grp 0).releasing = true ∧
      ((sGrp 0 0 { releasing := true }).grp 0).claimPend = false) ∧
    (let s := setAll sRun [(F.MED_STAT_KEEPER, 1, 1)]; Live s ∧ s.rd F.MED_STAT_KEEPER 1 = 1) := by
  simp only [live_iff, State.mayWrite]; and_intros <;> decide +kernel

/-- Channel 0 is trained and its group owned; `u0` is its first LUN, in state `st`. -/
def sMed (st : Nat) (u0 : Lun) (rd : List Rd) : State := State.put ((setAll { sRun with
  time := 10 ^ 9
  med := { luns := [(0, u0)], reads := rd, stripes := [(5, { st := .closed })], chans := [(0, { retrain := true })] } }
  [(F.MED_CH_STAT_STATE, 0, 1), (F.MED_CTL_SUSP_EN, 0, 1), (F.MED_CTL_CACHE_EN, 0, 0), (F.MED_REL_CTL_PATROL_EN, 0, 1)]).put
  F.MED_GRP_STAT_STATE 5 0 0) F.MED_LUN_STAT_STATE st 0 0

/-- A read of sector 0 of block 0. -/
def op0 : Op := { id := 3, secs := [0] }

theorem witness_LunAndReadSteps :
    (let s := sMed 2 { queue := [op0] } []
     Live s ∧ s.owned (grpOf 0) = true ∧ s.rd F.MED_CH_STAT_STATE (dieOf 0) (0 % 128) = 1 ∧ s.lunSt 0 0 = 2 ∧
       s.nextOp (s.lun 0 0).window (fun _ => true) = some op0 ∧ op0.kind = .read ∧ s.rd F.MED_CTL_CACHE_EN (dieOf 0) = 0) ∧
    (let s := sMed 5 { cur := [{ kind := .erase }], queue := [op0] } []
     Live s ∧ (s.lun 0 0).cur = { kind := .erase } :: [] ∧ s.lunSt 0 0 = 5 ∧ s.rd F.MED_CTL_SUSP_EN (dieOf 0) = 1 ∧
       s.lve.pfLow = false ∧ s.owned (grpOf 0) = true ∧ s.suspRead 0 0 = true ∧
       10000 * s.rd F.MED_SUSP_TIME_MIN_RUN_ERASE (dieOf 0) ≤ 0 + (s.time - 0) ∧
       0 < s.rd F.MED_SUSP_CFG_MAX_ERASE (dieOf 0)) ∧
    (let s := setAll sRun [(F.MED_CTL_SUSP_EN, 1, 0)]; Live s ∧ s.rd F.MED_CTL_SUSP_EN (dieOf 255) = 0) ∧
    (let s := State.put (sMed 3 { cur := [op0] } []) F.MED_LUN_STAT_TMOS 1 0 0
     Live s ∧ s.lunSt 0 0 = 3 ∧ 1 ≤ s.rd F.MED_LUN_STAT_TMOS (dieOf 0) (lunJ 0 0)) ∧
    (let r : Rd := { op := op0 }
     let s := sMed 2 {} [r]
     Live s ∧ s.med.reads.find? (fun r => r.op.id == 3 && r.op.step == 0 && r.stage == 0) = some r ∧
       s.rd F.MED_CH_STAT_STATE (dieOf (maCh r.op.addr)) (maCh r.op.addr % 128) = 1 ∧ s.busFirst r = true ∧
       r.op.undercut = none ∧ (s.transferred (maCh r.op.addr) false).predicted r.op 0 = false ∧ r.op.sense = 0) ∧
    (let r : Rd := { op := { op0 with sense := 1 } }
     let s := sMed 2 {} [r]
     Live s ∧ s.med.reads.find? (fun r => r.op.id == 3 && r.op.step == 0 && r.stage == 0) = some r ∧
       s.rd F.MED_CH_STAT_STATE (dieOf (maCh r.op.addr)) (maCh r.op.addr % 128) = 1 ∧ s.busFirst r = true ∧
       r.op.undercut = none ∧ (s.transferred (maCh r.op.addr) false).predicted r.op 0 = false) ∧
    (let s := sMed 2 {} [{ op := op0, stage := 2 }]
     Live s ∧ s.feed.med.reads.find? (fun r => r.op.id == 3 && r.stage == 2 && s.feed.inDecoders r) =
       some { op := op0, stage := 2, dec := 1 }) ∧
    (let s := sMed 2 {} []
     s.rd F.MED_REL_CTL_PATROL_EN (5 / 2 ^ 24 / 8) = 1 ∧ s.lve.pfLow = false ∧ s.stripeOwned (5 / 2 ^ 24) = true ∧
       (s.stripe 5).st = .closed) ∧
    sRun.mayWrite .part (F.MED_HOURS.off 1 0) := by
  simp only [live_iff, State.mayWrite]; and_intros <;> decide +kernel

theorem witness_DecodeAndChannelSteps :
    (let s := sMed 2 {} [{ op := op0, stage := 1 }]
     Live s ∧ s.feed.med.reads.find? (fun r => r.op.id == 3 && r.op.step == 0 && r.stage == 1 && s.feed.inDecoders r) =
         some { op := op0, stage := 1, dec := 1 } ∧
       s.owned (grpOf 0) = true ∧ s.rd F.MED_CH_STAT_STATE (dieOf 0) (0 % 128) = 1 ∧ (s.chan 0).retrain = true ∧
       (let bad (res : List SecRes) := op0.secs.filter (fun x =>
          (res.find? (fun r => r.sec == x && decide (r.out = .good) && !r.crc)).isNone)
        bad [] ≠ [] ∧ bad [{ sec := 0, out := .good }] = [])) ∧
    (let s := setAll sRun [(F.MED_ZQ_CFG_SHORT_MS, 1, 1)]; Live s ∧ s.rd F.MED_ZQ_CFG_SHORT_MS (1 % 2) ≠ 0) ∧
    (let s : State := { sMed 2 {} [] with med.ring := [2 ^ (8 * 70), 0] }
     Live s ∧ s.owned (grpOf 0) = true ∧ s.ringT 0 0x006 1 ≠ 0 ∧ s.rd F.MED_CH_STAT_STATE (dieOf 0) (0 % 128) = 1) ∧
    (let s : State := { sRun with
       dck := { tasks := [(1, some { st := .backoff })] }, med := { chans := [(9, { backoff := true })] }
       noc := { pkts := [(2, some { backoff := true })] } }
     Live s ∧ s.lve.pfLow = false ∧ s.task 1 = some { st := .backoff } ∧ (s.chan 9).backoff = true ∧
       s.pkt 2 = some { backoff := true }) := by
  simp only [live_iff]; and_intros <;> decide +kernel

theorem witness_TakeoverAndHandback :
    (let s := setAll { sRun with lve := { leaving := true, wireSeen := true } } [(F.LVE_STAT_PAIR, 0, 1)]
     Live s ∧ s.mayDeclare = true ∧ s.rd F.LVE_STAT_WIRE_ALIVE = 0 ∧ s.rd F.LVE_STAT_LINK_ALIVE = 0) ∧
    (let s := setAll sRun [(F.LVE_STAT_PAIR, 0, 1), (F.LVE_ORPHAN, 0, 1)]
     Live s ∧ s.mayDeclare = true ∧ s.rd F.LVE_ORPHAN ≠ 0 ∧ s.lve.wireSeen = false ∧ s.lve.everActive = false) ∧
    (let s := setAll { sRun with lve := { tkGroups := 2, mapStep := true }, med := { grps := [(1, { otherLow := true })] } }
       [(F.LVE_STAT_PAIR, 0, 4), (F.LVE_CTL_FORCE_EN, 0, 0)]
     Live s ∧ s.pair = 4 ∧ s.rd F.LVE_CTL_FORCE_EN = 0 ∧ s.lowGroups ≠ 0 ∧ s.lve.mapStep = true ∧ s.lve.replaying = false) ∧
    (let s := sGrp 15 4 {}; Live s ∧ s.gst 15 = 4 ∧ (s.grp 15).enablePend = false ∧ s.polSt (33 + 15) = 0) ∧
    (let s : State := { sRun with lve := { replaying := true } }; Live s ∧ s.lve.replaying = true ∧ s.replayDirty = false) ∧
    (let s := setAll { sRun with lve := { pHome := some 0xFFFF } } [(F.TLY_STAT_REBUILD, 0, 1)]
     Live s ∧ s.rd F.TLY_STAT_REBUILD = 1 ∧ s.homesHere = true) ∧
    (let s := setAll { sRun with tly := { ckRooted := true } } [(F.TLY_STAT_CKPT_ACTIVE, 0, 1)]
     Live s ∧ s.ckptWritten = true) ∧
    (let s := setAll { sRun with lve := { foreign := 1 } } [(F.LVE_STAT_PAIR, 0, 3)]
     Live s ∧ s.mayWrite .part (F.LVE_HANDBACK.off 0 0) ∧ s.pair = 3 ∧ s.lve.foreign ≠ 0) ∧
    (sRun.mayWrite .part (F.LVE_HANDBACK.off 0 0) ∧ sRun.pair ≠ 3) ∧
    (let s := setAll { sRun with lve := { hbStage := 2 } } [(F.LVE_STAT_PAIR, 0, 6)]
     Live s ∧ s.pair = 6 ∧ s.lve.hbStage = 2 ∧ s.foreignDirty = false) := by
  simp only [live_iff, State.mayWrite]; and_intros <;> decide +kernel

theorem witness_PartnerSignals :
    (let s := setAll sRun [(F.MED_STAT_KEEPER, 0, 1), (F.MED_STAT_KEEPER, 1, 1), (F.LVE_STAT_WIRE_ALIVE, 0, 1)]
     Live s ∧ s.keepersOn = true ∧ s.rd F.LVE_STAT_WIRE_ALIVE = 1 ∧ s.cfg.done = true ∧ s.lve.linkDead = false ∧
       s.lve.stopped = false) ∧
    (Live sRun ∧ sRun.cfg.done = true ∧ sRun.lve.linkDead = false ∧ sRun.rd F.LVE_STAT_WIRE_ALIVE = 0 ∧ sRun.pair ≠ 6 ∧
      sRun.pair = 0 ∧ sRun.anyActive = false) := by
  simp only [live_iff]; and_intros <;> decide +kernel

theorem witness_PowerFailure :
    (Live sRun ∧ sRun.lve.pfLow = false) ∧
    (let s : State := { sRun with lve := { pfLow := true } }; Live s ∧ s.lve.pfLow = true ∧ s.lve.pfTaken = false) ∧
    (let s : State := { sRun with lve := { pfWait := true } }; Live s ∧ s.lve.pfWait = true) ∧
    (let s : State := { sMed 5 { cur := [{ kind := .erase }] } [] with lve := { pfSave := true } }
     Live s ∧ s.lve.pfSave = true ∧ ∀ e ∈ s.med.luns, ∀ o ∈ e.2.cur, o.kind ≠ .prog) ∧
    (let s : State := { sRun with lve := { pfTaken := true, pfSaved := true } }
     Live s ∧ s.lve.pfLow = false ∧ s.lve.pfTaken = true ∧ s.lve.pfSaved = true) := by
  simp only [live_iff]; and_intros <;> decide +kernel

/-- Bundle 1 in state `st` with its record, its lanes all ACTIVE. -/
def sBnd (st : Nat) (b : Bnd) : State := setAll { sRun with lve := { bnds := [(1, b)] } }
  ([(F.LVE_BUNDLE_STAT_STATE, 1, st), (F.LVE_CTL_BUNDLE_EN, 0, 3), (F.LVE_STAT_PAIR, 0, 1)] ++
    (bundleLanes 1).map (fun l => (F.SDS_LANE_STAT_STATE, l, 5)))

theorem witness_BundleStates :
    (sRun.mayWrite .part (F.LVE_CTL_BUNDLE_EN.off 0 0) ∧ sRun.mayWrite .part (F.LVE_BUNDLE_CTL_RETRAIN.off 1 0)) ∧
    (Live (sBnd 1 {}) ∧ (sBnd 1 {}).bst 1 = 1) ∧
    (Live (sBnd 2 {}) ∧ (sBnd 2 {}).bst 1 = 2 ∧ (bundleLanes 1).all (sBnd 2 {}).laneSettled = true) ∧
    (Live (sBnd 3 { locked := 0xF000 }) ∧ (sBnd 3 { locked := 0xF000 }).bst 1 = 3 ∧
      (widthOf ((sBnd 3 { locked := 0xF000 }).bnd 1).locked).1 ≠ 0) ∧
    (Live (sBnd 4 {}) ∧ (sBnd 4 {}).bst 1 = 4) ∧
    (Live (sBnd 5 {}) ∧ (sBnd 5 {}).bst 1 = 5 ∧ ((sBnd 5 {}).bnd 1).cert = false) ∧
    (Live (sBnd 5 { cert := true }) ∧ (sBnd 5 { cert := true }).bst 1 = 5 ∧ ((sBnd 5 { cert := true }).bnd 1).cert = true ∧
      ((sBnd 5 { cert := true }).bnd 1).share = false) ∧
    (Live (sBnd 5 { cert := true, share := true }) ∧ ((sBnd 5 { cert := true, share := true }).bnd 1).share = true) ∧
    (Live (sBnd 7 {}) ∧ (sBnd 7 {}).bst 1 = 7 ∧ (widthOf ((sBnd 7 {}).lockedLanes 1)).1 ≠ 0) ∧
    (let b : Bnd := { nak := true, unacked := [{ msg := .pfail }] }
     Live (sBnd 6 b) ∧ (sBnd 6 b).active 1 = true ∧ ((sBnd 6 b).bnd 1).unacked = { msg := .pfail } :: [] ∧
       ((sBnd 6 b).bnd 1).nak = true) ∧
    (let s := setAll (sBnd 0 { probe := true }) [(F.LVE_CTL_PROBE_EN, 0, 1)]
     Live s ∧ bit (s.rd F.LVE_CTL_BUNDLE_EN) 1 = true ∧ s.lve.stopped = false ∧ s.pair = 1 ∧ s.rd F.LVE_CTL_PROBE_EN = 1 ∧
       (s.bnd 1).probe = true ∧ s.active 1 = false) := by
  simp only [live_iff, State.mayWrite]; and_intros <;> decide +kernel

/-- A part in exchange with its partner: one foreign line held, one own line that heals. -/
def sPair (pair : Nat) : State := setAll { sRun with
  tly := { flines := [(4, some {})], lines := [(6, some { healing := true })] }, lve := { heals := [(6, 0)] } }
  [(F.LVE_BUNDLE_STAT_STATE, 0, 6), (F.LVE_STAT_PAIR, 0, pair), (F.MED_STAT_KEEPER, 0, 1), (F.MED_STAT_KEEPER, 1, 1)]

theorem witness_PartnerMessages : Live (sPair 2) ∧ (sPair 2).anyActive = true ∧ (sPair 2).lve.stopped = false ∧
    Map.get none (sPair 2).tly.flines 5 = none ∧ Map.get none (sPair 2).tly.flines 4 = some {} ∧
    ((sPair 2).rd F.LVE_STAT_ROLE = 0 ∧ (sPair 2).pair ≠ 6) ∧ (sPair 2).pair = 2 ∧
    ((sPair 2).line 6 = some { healing := true } ∧ (sPair 2).lve.heals.find? (fun x => x.1 == 6) = some (6, 0)) ∧
    (sPair 2).lve.heals.any (fun x => x.1 == 6) = true ∧ (sPair 2).keepersOn = true := by
  simp only [live_iff]; and_intros <;> decide +kernel

/-- Lane 255 in state `st`, with its record. -/
def sLane (st : Nat) (x : Lane) : State := setAll { sRun with lanes := [(255, x)] } [(F.SDS_LANE_STAT_STATE, 255, st)]

theorem witness_LaneBringUp :
    (Live (sLane 1 {}) ∧ (sLane 1 {}).laneSt 255 = 1) ∧ (Live (sLane 2 {}) ∧ (sLane 2 {}).laneSt 255 = 2) ∧
    (Live (sLane 3 {}) ∧ (sLane 3 {}).laneSt 255 = 3) ∧
    (let x : Lane := { own := true, partner := true }
     Live (sLane 4 x) ∧ (sLane 4 x).laneSt 255 = 4 ∧ ((sLane 4 x).lane 255).own = true ∧ ((sLane 4 x).lane 255).partner = true) ∧
    (Live (sLane 4 {}) ∧ (sLane 4 {}).laneSt 255 = 4 ∧
      (let r := (sLane 4 {}).tapRequest 255 0
       ((r.1.updLane 255 (fun x => { x with result := r.2, own := x.own || false, partner := x.partner || bit 4 2 })).lane
         255).own = false)) ∧
    (Live (sLane 5 {}) ∧ (sLane 5 {}).laneSt 255 = 5) ∧ (Live (sLane 6 {}) ∧ (sLane 6 {}).laneSt 255 = 6) ∧
    (Live (sLane 7 {}) ∧ (sLane 7 {}).laneSt 255 = 7) := by
  simp only [live_iff]; and_intros <;> decide +kernel

/-- Lane 255 is ACTIVE in PRBS mode with generator and checker on. -/
def sPrbs (m : Nat) : State := setAll (sLane 5 {}) [(F.SDS_LANE_CTL_MODE, 255, 2), (F.SDS_PRBS_CTL_GEN_EN, 255, 1),
  (F.SDS_PRBS_CTL_INJ_MODE, 255, m), (F.SDS_PRBS_CTL_CHK_EN, 255, 1)]

theorem witness_LaneServices :
    (Live (sLane 5 {}) ∧ (sLane 5 {}).laneSt 255 = 5 ∧
      (sLane 5 {}).balanced { trans := 0, levels := [4096, 0] } (decide (3400 ≤ ((sLane 5 {}).lane 255).rate)) = false ∧
      (sLane 5 {}).balanced { trans := 4096, levels := [2048, 2048] } (decide (3400 ≤ ((sLane 5 {}).lane 255).rate)) = true ∧
      (sLane 5 {}).rd F.SDS_LANE_CTL_FREEZE 255 = 0 ∧ ((sLane 5 {}).lane 255).frozenAt = none ∧
      (sLane 5 {}).laneSt 255 ≠ 0 ∧ (sLane 5 {}).laneSt 255 ≠ 8) ∧
    (Live (sBnd 0 {}) ∧ bit ((sBnd 0 {}).rd F.LVE_CTL_BUNDLE_EN) 1 = true ∧ (sBnd 0 {}).bst 1 = 0 ∧
      4 ≤ popcount (0xF000 % 65536) 16) ∧
    (let s := setAll sRun [(F.SDS_QUAD_STAT_HI_BER, 63, 1)]; Live s ∧ s.rd F.SDS_QUAD_STAT_HI_BER 63 ≠ 0) ∧
    (Live (sPrbs 1) ∧ (sPrbs 1).prbsRuns 255 = true ∧ (sPrbs 1).rd F.SDS_PRBS_CTL_INJ_MODE 255 = 1) ∧
    (Live (sPrbs 2) ∧ (sPrbs 2).prbsRuns 255 = true ∧ (sPrbs 2).rd F.SDS_PRBS_CTL_INJ_MODE 255 = 2 ∧
      laneGeneral 255 = true ∧ (sPrbs 2).rd F.SDS_LANE_CTL_MODE 255 = 2 ∧ (sPrbs 2).laneSt 255 = 5 ∧
      (sPrbs 2).rd F.SDS_PRBS_CTL_CHK_EN 255 = 1) ∧
    (let s := setAll (sLane 5 {}) [(F.SDS_LANE_CTL_TRAIN, 255, 0)]
     Live s ∧ s.ffeTrained 255 = false ∧ s.portShut 255 = false ∧ tapsOk (wordTaps (63 * 2 ^ 12)) = true ∧
       tapsOk (wordTaps (63 * 2 ^ 12 + 1)) = false) := by
  simp only [live_iff]; and_intros <;> decide +kernel

/-- The link is up at full width in flit mode. -/
def sLink : State := setAll { sRun with pci := { fullWidth := 16 } }
  [(F.PCI_STAT_DL_UP, 0, 1), (F.PCI_STAT_LTSSM, 0, 0x13), (F.PCI_STAT_FLIT, 0, 1), (F.PCI_STAT_WIDTH, 0, 16), (F.PCI_CTL_L0P_INIT, 0, 1),
   (F.PCI_STAT_READY, 0, 1), (F.PCI_FN_STAT_MSE, 0, 1), (F.PCI_FN_STAT_BME, 0, 1), (F.QQP_CAP_VECTORS, 0, 4)]

theorem witness_PciePort :
    (Live sRun ∧ sRun.pci.perst = false) ∧
    (let s : State := { sRun with pci := { perst := true } }; Live s ∧ s.pci.perst = true) ∧
    (let s : State := { sLink with pci := { vfEn := true, numVfs := 256 } }
     Live s ∧ s.fnExists 256 = true ∧ s.rd F.PCI_STAT_DL_UP = 1 ∧ s.rd F.PCI_FN_STAT_FLR 256 = 0) ∧
    (Live sLink ∧ sLink.rd F.PCI_STAT_DL_UP = 1 ∧ sLink.fnExists 0 = true ∧ sLink.rd F.PCI_FN_STAT_FLR 0 = 0) ∧
    (let s := setAll sRun [(F.PCI_FN_STAT_FLR, 256, 1)]; Live s ∧ s.rd F.PCI_FN_STAT_FLR 256 = 1) ∧
    (let s : State := { sRun with cfg.pcieApplied := true }; Live s ∧ s.cfg.pcieApplied = true ∧ s.rd F.PCI_STAT_READY = 0) ∧
    (let s := setAll sRun [(F.PCI_STAT_READY, 0, 1), (F.PCI_LANES_FELLED, 0, 1)]
     Live s ∧ s.rd F.PCI_STAT_READY = 1 ∧ s.pci.perst = false ∧ s.rd F.PCI_STAT_LTSSM ≠ 0x13 ∧
       linkWidth (s.rd F.PCI_LANES_FELLED) 16 = some (8, true)) ∧
    (sLink.l0pOk = true ∧ 1 ≤ sLink.pci.fullWidth ∧ 1 ≠ sLink.rd F.PCI_STAT_WIDTH ∧ sLink.rd F.PCI_CTL_L0P_INIT = 1 ∧
      8 / 2 ^ sLink.rd F.PCI_CTL_L0P_WIDTH < sLink.rd F.PCI_STAT_WIDTH) ∧
    (let s := setAll sLink [(F.PCI_STAT_WIDTH, 0, 8), (F.PCI_STAT_L0P, 0, 1)]
     Live s ∧ s.l0pOk = true ∧ s.rd F.PCI_STAT_L0P = 1 ∧ s.pci.fullWidth < 32 ∧ s.rd F.PCI_STAT_WIDTH ≠ s.pci.fullWidth) ∧
    sRun.mayWrite .part (F.PCI_CTL_RETRAIN.off 0 0) := by
  simp only [live_iff, State.mayWrite]; and_intros <;> decide +kernel

/-- A write that waits for its data, and a read that waits for its list of two descriptors. -/
def sWait : State := { sLink with tly := { tracts := [(1, tract1)] }, qqp := { cmds := [(0, some { sqe := sqe 0x01 1 0 0 0 }),
  (1, some { sqe := sqe 0x02 1 0 0 0 + 2 ^ 9 + 1 * 2 ^ 256 })] } }

theorem witness_PcieFunctions : Live sWait ∧
    (sWait.fnExists 0 = true ∧ 3 < sWait.rd F.QQP_CAP_VECTORS 0) ∧
    (sWait.rd F.PCI_STAT_DL_UP = 1 ∧ sWait.rd F.PCI_FN_STAT_FLR 0 = 0 ∧ sWait.rd F.PCI_FN_STAT_FLR 1 = 0 ∧
      sWait.fnExists 1 = false) ∧
    (let c : Cmd := { sqe := sqe 0x01 1 0 0 0 }
     sWait.cmd 0 = some c ∧ c.hostWaits = true ∧ sWait.tlpOk c.fn = true ∧ isWriteOp (sqOp c.sqe) = true ∧
       sqSgl c.sqe = false ∧ c.fn ∉ sWait.pci.noTmo) ∧
    (let c : Cmd := { sqe := sqe 0x02 1 0 0 0 + 2 ^ 9 + 1 * 2 ^ 256 }
     sWait.cmd 1 = some c ∧ c.hostWaits = true ∧ sWait.tlpOk c.fn = true ∧ sqSgl c.sqe = true ∧ c.sglGot = false ∧
       sWait.tractKey c.fn (sqTract c.sqe) = some 1 ∧
       sglOk c.sqe (sWait.cmdBlk c) [⟨0, 256, 0⟩, ⟨512, 256, 0⟩] = true ∧ sglOk c.sqe (sWait.cmdBlk c) [⟨0, 512, 0⟩] = false) := by
  simp only [live_iff]; and_intros <;> decide +kernel

/-- Raw sequences of landing 127 are allowed on media die 0; group 0 is owned, block 1 of channel 0 is lent to it. -/
def sRaw : State := State.put (State.put (State.put { sAdmin 0 with
  cfg := { done := true, userOn := true }, med.blocks := [(1, { st := 4, landing := 127 })] } F.MED_GRP_STAT_STATE 5 0 0)
  F.MED_RAW_EN (2 ^ 31) 0 3) F.HBM_TOP_HI 0x24

/-- A descriptor of a class, with one command cycle where the class has cycles, for block `b` of channel 0. -/
def rawOf (cls b : Nat) : Raw :=
  { cls := cls, count := if cls < 6 then 1 else 0, target := b * 2 ^ 16,
    cycles := if cls < 6 then [{ ty := 0, val := 0x70 }] else [] }

theorem witness_RawSequences : Live sRaw ∧ sRaw.cfg.userOn = true ∧
    ([(0, 0), (1, 0), (2, 1), (3, 1), (4, 0), (5, 0), (6, 0), (7, 1)].all fun x =>
      decide (sRaw.rawCheck 127 0 (rawOf x.1 x.2) = none)) = true ∧
    sRaw.rawCheck 127 0 { rawOf 0 0 with flags := 2 } = none ∧
    ([0, 1, 2, 3, 4, 5, 6, 7, 8, 255].all fun c => decide (sRaw.rawCheck 126 0 (rawOf c 0) = some 0x04)) = true := by
  simp only [live_iff]; and_intros <;> decide +kernel

theorem witness_PartResets : Memory.wf sRun = true ∧ sRun.cfg.tripped = false ∧ sRun.cfg.held = false ∧ sRun.cfg.test = false ∧
    (let s : State := { sRun with cfg.tripped := true, cfg.temps := [some 99, none, none, none, none, none, none] }
     Memory.wf s = true ∧ s.cfg.tripped = true ∧ ∀ y ∈ s.cfg.temps, y ≠ some 100 ∧ y ≠ some 101) ∧
    (let s : State := { sRun with cfg.tripped := true, cfg.temps := [none, none, none, none, none, none, some 100] }
     Memory.wf s = true ∧ s.cfg.tripped = true ∧ some 100 ∈ s.cfg.temps) ∧
    (let s : State := { sRun with cfg.temps := [none, none, none, none, none, none, some 115] }
     Memory.wf s = true ∧ s.cfg.temps.getD 6 none = some 115 ∧ s.cfg.held = false) ∧
    (let s : State := { sRun with cfg.test := true }; Memory.wf s = true ∧ s.cfg.test = true ∧ s.cfg.held = false) ∧
    (let s : State := { sRun with cfg.policy := 8 * 2 ^ (8 * 0x30) }
     Memory.wf s = true ∧ s.dark = false ∧ s.mayWrite .part (F.CFG_RELOAD.off 0 0) ∧ s.polReload = true ∧ s.cfg.done = true) ∧
    (sRun.dark = false ∧ sRun.mayWrite .part (F.CFG_RELOAD.off 0 0) ∧ sRun.polReload = false) ∧
    (let s := setAll sRun [(F.CLK_STAT_LOCK, 0, 1)]
     Memory.wf s = true ∧ s.dark = false ∧ s.rd F.CLK_STAT_LOCK = 1 ∧ s.rd F.CLK_STAT_REF ≠ 2) := by
  simp only [State.mayWrite]; and_intros <;> decide +kernel

/-- The second clause of PartResets asks that every die reads below 100 °C. -/
theorem witness_PartResets_cool : ∀ x, some x ∈ ([some 99, none, none, none, none, none, none] : List (Option Int)) → x < 100 := by
  intro x h
  simp only [List.mem_cons, Option.some.injEq, reduceCtorEq, List.not_mem_nil, or_false] at h
  omega

theorem witness_RegisterAccesses : Live sRun ∧
    (sRun.mayWrite .part (F.EVT_RATE.off 0 0) ∧ F.EVT_RATE.off 0 0 % 4 = 0 ∧ F.EVT_RATE.off 0 0 / 0x100000 < 21) ∧
    (sRun.mayWrite .part 0x14FFFFC ∧ fieldsAt (viewOff .part 0x14FFFFC) = []) ∧
    (21 ≤ 0x1500000 / 0x100000 ∧ 0x1500000 < 0x2000000 ∧ sRun.cfg.done = true ∧ Live State.reset ∧ State.reset.cfg.done = false) ∧
    sRun.mayWrite .part (0x100000 * 20 + 0xFFC) ∧
    (let o := F.TLY_JSEQ_LO.off 0 0
     o < 0x2000000 ∧ o / 0x100000 < 21 ∧ o / 0x1000 ≠ 0x10 ∧ hasTy (viewOff .part o) .rl = true ∧
       hasTy (viewOff .part o) .rs = false ∧ sRun.permits .part (o / 0x100000) false = true ∧ sRun.answers o = true) ∧
    sRun.mayWrite .part (F.GLB_EVT_PEEK_SEL.off 0 0) := by
  simp only [live_iff, State.mayWrite]; and_intros <;> decide +kernel

theorem witness_HostAccesses : Live sLink ∧ sLink.rd F.PCI_STAT_DL_UP = 1 ∧ sLink.pci.inReset = false ∧
    (sLink.rd F.PCI_FN_STAT_FLR 256 = 0 ∧ sLink.fnExists 256 = false) ∧
    (sLink.rd F.PCI_FN_STAT_FLR 0 = 0 ∧ sLink.fnExists 0 = true ∧ sLink.rd F.PCI_FN_STAT_MSE 0 = 1 ∧ sLink.cfg.done = true) ∧
    (let s := setAll sLink [(F.PCI_FN_STAT_MSE, 0, 0)]; Live s ∧ s.rd F.PCI_FN_STAT_MSE 0 = 0) ∧
    0 % 16 ≠ 15 ∧ 0x3FFC < 0x4000 ∧
    sLink.outstanding 0xA2 + (byteRuns (enabledBytes 0 [(0x01020304, 15), (5, 1)])).length ≤ 1024 := by
  simp only [live_iff]; and_intros <;> decide +kernel

/-- A part that loads its image, as driver of the stream, with the segments it stores. -/
def sBoot (segs : List SegEnt) : State := setAll { State.reset with
  cfg := { headerOk := true, segs := segs, preloadOk := true, hbmStarted := 8 } }
  [(F.CLK_STAT_LOCK, 0, 1)]

/-- The header of an image of one slot with PCIE, POLICY, MEDIA and n48 0xa45ccc281b562f219369597fd6bfa8fedd893282caf870fb 0x93f79629f66e125783d7d84dcf36edd4a3cb713b0b233429EN segments, and its authentication block; the key, its
hash and the signature come from an implementation outside the model. -/
def imageFull : Nat :=
  let seg (k ty flags param off len : Nat) : Nat :=
    (ty + flags * 2 ^ 8 + 2 ^ 16 + param * 2 ^ 32 + off * 2 ^ 64 + len * 2 ^ 96) * 2 ^ (8 * (0x80 + 64 * k))
  let r := n48 0xfaba0e3fa7bfda1942ea8531e00e1b690832f7f42f3bfc33 0xea0cf3fcf058c9dd2f25b8e954708add56777efa8dd026fe
  0x54555244 + 1 * 2 ^ 32 + 0x51 * 2 ^ 48 + 0x256 * 2 ^ 64 + 2 * 2 ^ 80 + 1 * 2 ^ 96 + 4 * 2 ^ 112 + (0x10000 + 1403920) * 2 ^ 128 + 0 * 2 ^ 192
    + seg 0 1 2 0 0x2000 256 + seg 1 4 0 0 0x5000 4096 + seg 2 9 0 3 0x7000 0x8000 + seg 3 7 0 0 0x10000 1403920
    + 2 ^ (8 * 0x1C00) * ((n48 0x8e47b0007eb3c6b6111a24a30f5a66659a84a00eea7331a3 0x91ab4ac322ba79f6f5ed1661c8865cb0c5fbc43e513f4c19) * 2 ^ (8 * 0x10)
      + (n48 0x4eada2223074f9ab4a8a144897f017158dfe4a8c69744d7d 0x981117801163b32049b8f6bd79c394670f779c27909ac18f) * 2 ^ (8 * 0x40) + r * 2 ^ (8 * 0x70) + r * 2 ^ (8 * 0xA0))

def imageFullKey : Nat := n48 0x35bc4bfbf8f5d08e20a789bf0391256133c59da4c12a93d1 0x9db89e4cf4a0f4db470fc49cac355940de4397cba1b08d00


/-- A driver that reads its image, with the key of that image in key-hash slot 0. -/
def sHead : State := { sBoot [] with cfg := {}, fuses := { keyHash := [imageFullKey, 0, 0, 0] } }

theorem witness_ImageLoad :
    (Live sHead ∧ sHead.loading = true ∧ sHead.cfg.headerOk = false ∧ sHead.cfg.img = none ∧ sHead.imageBase = 0 ∧
      (sHead.headerRead { bytes := imageFull }).headFail { bytes := imageFull } = none ∧
      (sHead.headerRead {}).headFail {} = some 0x01) ∧
    (let s : State := { sHead with cfg.img := some { bytes := imageFull } }
     Live s ∧ s.loading = true ∧ s.cfg.img = some { bytes := imageFull }) ∧
    (let e : SegEnt := { ty := 6, slots := 1
                         hash := n48 0x5bb99848f1d21ad5fb656fe7bfde4e27dae1f663bfc70c4c 0x4307be1411b7fd216ae3b1b17e32d94c3896ac51a760b038 }
     let s := sBoot [e]
     Live s ∧ s.loading = true ∧ s.cfg.headerOk = true ∧ s.cfg.img = none ∧ s.cfg.ready = false ∧ s.nextSeg = some (e, 0) ∧
       s.cfg.preloadOk = true ∧ shaNat e.len 0 = e.hash ∧ (segBody 6 0 0 0 {}).2 = true ∧
       (State.stage1 { s with cfg.pos := e.off + e.len } e (segBody 6 0 0 0 {}).1).2 = true ∧ ({} : SegSense).addr = s.cfg.base + e.off ∧
       ({ addr := 1 } : SegSense).addr ≠ s.cfg.base + e.off ∧
       ∀ x ∈ s.cfg.segs, s.stores x = true → x.ty = 3 → x.done = true) ∧
    (let e : SegEnt := { ty := 7, slots := 1, len := 16
                         hash := n48 0xa45ccc281b562f219369597fd6bfa8fedd893282caf870fb 0x93f79629f66e125783d7d84dcf36edd4a3cb713b0b233429 }
     let s := sBoot [e]
     Live s ∧ s.nextSeg = some (e, 0) ∧ e.ty ≠ 6 ∧ shaNat e.len 1 = e.hash ∧ (segBody 7 16 0 1 {}).2 = false ∧
       shaNat e.len 0 ≠ e.hash ∧ ({} : SegSense).addr = s.cfg.base + e.off) ∧
    (let s := sBoot []
     Live s ∧ s.loading = true ∧ s.cfg.headerOk = true ∧ bit s.cfg.hbmStarted 3 = true ∧ bit s.cfg.hbmDone 3 = false) ∧
    (let s : State := { sBoot [] with cfg.ready := true }; Live s ∧ s.loading = true ∧ s.cfg.ready = true) ∧
    (let s := setAll (sBoot []) [(F.CFG_STATUS_ROLE, 0, 2)]
     Live s ∧ s.loading = true ∧ s.driver = false ∧ s.cfg.csActive = false) ∧
    (let s := setAll { sBoot [] with cfg.csActive := true, cfg.syncLatch := true } [(F.CFG_STATUS_ROLE, 0, 1)]
     Live s ∧ s.driver = true ∧ s.cfg.csActive = true ∧ s.cfg.fbStream = false ∧ s.cfg.headerOk = true ∧ s.nextSeg = none ∧
       s.cfg.syncLatch = true ∧ s.cfg.fbUsed = false) ∧
    (let s := setAll { sBoot [] with cfg.csActive := true } [(F.CFG_STATUS_ROLE, 0, 1)]
     Live s ∧ s.driver = true ∧ s.cfg.csActive = true ∧ s.cfg.fbStream = false ∧ s.cfg.headerOk = true ∧ s.nextSeg = none ∧
       s.cfg.syncLatch = false ∧ s.cfg.failed = false) ∧
    (let s := setAll { sBoot [] with cfg.failed := true } [(F.CFG_STATUS_ROLE, 0, 2)]
     Live s ∧ s.driver = false ∧ s.refused = false ∧ s.cfg.failed = true ∧ s.cfg.fallback = false) ∧
    (let s := setAll (sBoot []) [(F.CFG_STATUS_ROLE, 0, 2)]
     Live s ∧ s.driver = false ∧ s.refused = false ∧ s.cfg.failed = false) ∧
    (let s : State := { sBoot [] with cfg.fbStream := true }; Live s ∧ s.cfg.fbStream = true) := by
  simp only [live_iff]; and_intros <;> decide +kernel

/-! ### Witnesses of the frames and of the statements about every step -/

/-- Every frame asks that its command answers a next state: one command of each frame statement does so, from a small state. -/
theorem witness_Frames :
    (∃ t, exec .referenceGap sRun = .next t) ∧ (∃ t, exec (.taskDispatch 0 0) sDeck = .next t) ∧
    (∃ t, exec (.hbmTempRead 3 84) sRun = .next t) ∧ (∃ t, exec (.landingDisable 127) sLoad = .next t) ∧
    (∃ t, exec (.polderIsolateDone 4) sPol = .next t) ∧ (∃ t, exec (.claim .part 15) (sGrp 15 0 {}) = .next t) ∧
    (∃ t, exec (.bundleDetectTimeout 1) (sBnd 1 {}) = .next t) ∧ (∃ t, exec (.idlePatternEnd 255) sRun = .next t) :=
  ⟨⟨_, rfl⟩, ⟨_, rfl⟩, ⟨_, rfl⟩, ⟨_, rfl⟩, ⟨_, rfl⟩, ⟨_, rfl⟩, ⟨_, rfl⟩, ⟨_, rfl⟩⟩

theorem witness_StepRunsFrontCommand : ({ sRun with pending := [.heartbeatSend, .pfail] } : State).pending =
    .heartbeatSend :: [.pfail] := rfl

theorem witness_IdleStepCountsTime : sRun.pending = [] ∧ sRun.dark = false ∧ sRun.cfg.clkOn = false ∧ sRun.cfg.img = none ∧
    sRun.tly.usable = false ∧ sRun.pci.ppm = 0 ∧
    ({ sRun with cfg.held := true } : State).dark = true := by decide +kernel

theorem witness_DarkPartStandsStill : ({ sRun with clk.stopped := true } : State).dark = true ∧
    (Instr.pfail ≠ .railFault ∧ Instr.pfail ≠ .perstNAssert ∧ Instr.pfail ≠ .perstNRise ∧ Instr.pfail ≠ .pfailNFall ∧
      Instr.pfail ≠ .pfailNRise) := by decide +kernel

theorem witness_CommandsKeepQueueAndFuses : ∃ t, exec .pfail sRun = .next t := ⟨_, rfl⟩

theorem witness_StepKeepsForm : InForm sRun ∧ ∃ t, step sRun = .next t := by
  rw [inForm_iff]
  exact ⟨by decide +kernel, ⟨_, rfl⟩⟩

theorem witness_PairReads :
    (let lo := F.TLY_JSEQ_LO.off 0 0
     sRun.answers lo = true ∧ hasTy lo .rl = true ∧ hasTy lo .rs = false ∧ hasTy (lo + 4) .rs = true ∧ lo + 4 < 2 ^ 40 ∧
       ¬ (0x10000 ≤ lo % 0x4000000 ∧ lo % 0x4000000 < 0x11000) ∧ ¬ (0x1110000 ≤ lo % 0x4000000 ∧ lo % 0x4000000 < 0x1130000) ∧
       Map.above 0 sRun.shadow = true ∧ Map.get none sRun.shadow (stageKey .part lo) = none ∧
       Map.get none (sRun.latch .part lo).shadow (stageKey .part lo) = some 0) := by
  and_intros <;> decide +kernel

theorem witness_PairWrites : Memory.wf sRun = true ∧ Map.above 0 sRun.stage = true ∧
    (let lo := F.CFG_SL_SRC_LO.off 0 0
     lo % 0x100000 < 0xFFC ∧ pairRo lo = false ∧ hasTy lo .rl = true ∧ hasTy (lo + 4) .rl = false ∧ hasTy (lo + 4) .rs = true ∧
       lo ≠ F.NOC_RT_PRI_LO.base ∧ lo ≠ F.NOC_RT_ALT_LO.base ∧ lo ≠ F.TLY_PROBE_IU_LO.base ∧
       fieldsAt lo = [(F.CFG_SL_SRC_LO, 0, 0)] ∧ fieldsAt (lo + 4) = [(F.CFG_SL_SRC_HI, 0, 0)]) ∧
    ([F.NOC_RT_PRI_LO, F.NOC_RT_ALT_LO, F.TLY_PROBE_IU_LO].all fun f =>
      f.base % 0x100000 < 0xFFC && !pairRo f.base && hasTy f.base .rl && !hasTy (f.base + 4) .rl && hasTy (f.base + 4) .rs) = true := by
  and_intros <;> decide +kernel

theorem witness_ReadsChangeNothing : Map.above 0 sRun.shadow = true ∧ hasTy (F.EVT_RATE.off 0 0) .rl = false := by decide +kernel

theorem witness_AliasReads : 0x100000 * 20 + 0xFFC < 0x2000000 ∧
    sRun.answers (viewOff .part (0x100000 * 20 + 0xFFC)) = true ∧ sRun.answers (viewOff .part (0x100000 * 0 + 0)) = true := by
  decide +kernel

theorem witness_DeniedAccesses : Live sLink ∧ sLink.cfg.done = true ∧
    (sLink.perm (.host 0) 0 = 1 ∧ sLink.permits (.host 0) 20 true = false ∧ sLink.permits (.host 0) 20 false = false) ∧
    (sLink.rd F.PCI_STAT_DL_UP = 1 ∧ sLink.pci.inReset = false ∧ sLink.rd F.PCI_FN_STAT_FLR 0 = 0 ∧ sLink.fnExists 0 = true ∧
      sLink.rd F.PCI_FN_STAT_MSE 0 = 1 ∧ 0x100FFFC < 0x1010000 ∧ sLink.permits (.host 0) (0x100FFFC / 0x100000) false = false ∧
      sLink.permits (.host 0) (0x100FFFC / 0x100000) true = false) := by
  simp only [live_iff]; and_intros <;> decide +kernel

theorem witness_MemoryLines : InForm sRun ∧
    (let n := 120 * 2 ^ 24
     0 + 64 ≤ 64 ∧ sRun.sealOf (64 * n) = none ∧ sRun.mapLine n = none ∧ (sRun.hline n).poison = false ∧ (sRun.hline n).kid = 0 ∧
       (sRun.hline n).key = (if 0 = 0 then 0 else 1)) ∧
    (23 ≠ 7 ∧ 23 ≠ 8 ∧ 23 ≠ 9 ∧ 23 ≠ 0 ∧ 63 % 64 + 1 ≤ 64 ∧ (sRun.sline 23 (63 / 64)).poison = false) ∧
    (8192 ≤ (64 * 8192) / 64 ∧ (sRun.sline 0 8192).poison = false) := by
  rw [inForm_iff]; and_intros <;> decide +kernel

theorem witness_EventPosting : Live sEvt ∧
    ((Map.get {} sEvt.evt.wins 6).posted < max 1 (sEvt.rd F.EVT_RATE) ∧ sEvt.rd F.EVT_SEQ < 2 ^ 32) ∧
    ((Map.get {} sEvt.evt.wins 5).limit = 64 ∧ 64 ≤ (Map.get {} sEvt.evt.wins 5).posted) := by
  simp only [live_iff]; and_intros <;> decide +kernel

theorem witness_CountersSaturate : Live sRun ∧ sRun.rd F.NOC_TMO < 2 ^ F.NOC_TMO.w ∧ F.NOC_RETRIES.key 0 0 ≠ F.NOC_TMO.key 0 0 := by
  simp only [live_iff]; and_intros <;> decide +kernel

/-! ### Commands: expected values from the rule or table named -/

/-- The state a command answers with; every command answers one. -/
def after (c : Instr) (s : State) : State := match exec c s with
  | .next t => t
  | .fault _ => s
  | .refused _ => s

/-- Codes in the event ring, in the order of the ring. -/
def codes (s : State) : List Nat := s.evt.ring.map (fun e => e.2.code)

/-- The two media dies, and two functions of QQP, have registers of their own (Table REG-1). -/
theorem test_register_copies : F.MED_HOURS.key 0 0 ≠ F.MED_HOURS.key 1 0 ∧ F.QQP_CTL_ENABLE.key 0 0 ≠ F.QQP_CTL_ENABLE.key 256 0 ∧
    (State.reset.put F.MED_HOURS 7 0).rd F.MED_HOURS 1 = 0 := by decide +kernel

/-- R481: a value beyond EVT_SEQ is discarded. -/
theorem test_evt_ack_beyond : (after (.evtAck .part 2) State.reset).rd F.EVT_ACK = 1 := by decide +kernel

/-- R92: the host's write of a block it may not write reaches nothing and posts ACCESS_DENIED (0x0002). -/
theorem test_denied : codes (after (.registerWrite (.host 0) (F.EVT_RATE.off 0 0) 9) sRun) = [0x0002] ∧
    (after (.registerWrite (.host 0) (F.EVT_RATE.off 0 0) 9) sRun).rd F.EVT_RATE = 64 := by decide +kernel

/-- R794: a BAR0 write of less than a DW is discarded and posts PCI_PARTIAL_WRITE (0x1007). -/
theorem test_partial_write : codes (after (.hostBarAccess 0 0 0 true [(5, 7)]) sLink) = [0x1007] := by decide +kernel

/-- R818: a low word waits for its high word. -/
theorem test_pair_write :
    (let o := F.CFG_SL_SRC_LO.off 0 0
     let s := after (.registerWrite .part o 0x11) sRun
     s.rd F.CFG_SL_SRC_LO = 0 ∧ (after (.registerWrite .part (o + 4) 0x22) s).rd F.CFG_SL_SRC_LO = 0x11 ∧
       (after (.registerWrite .part (o + 4) 0x22) s).rd F.CFG_SL_SRC_HI = 0x22) := by decide +kernel

/-- R824: an alias write changes one bit. -/
theorem test_bit_alias : (after (.bitAliasWrite .part 17 (F.EVT_RATE.off 0 0 % 0x1000) 1 1) sRun).rd F.EVT_RATE = 66 := by
  decide +kernel

/-- R822: a counter that is full stays full. -/
theorem test_counter_full :
    (after (.landingMsgUnknown 3 0xFF) (setAll sRun [(F.DCK_LATE_MSGS, 0, 2 ^ 32 - 1)])).rd F.DCK_LATE_MSGS = 2 ^ 32 - 1 := by
  decide +kernel

/-- R109: a doorbell for a queue that is not there is counted. -/
theorem test_bad_doorbell : (after (.sqTailDoorbell 0 5 0) sRun).rd F.QQP_DB_ERRORS = 1 := by decide +kernel

/-- R108: a tail that is the queue's size is refused, one below it is taken. -/
theorem test_tail : ((after (.sqTailDoorbell 0 1 15) sQueue).qp 0 1).sqTail = 15 ∧
    ((after (.sqTailDoorbell 0 1 16) sQueue).qp 0 1).sqTail = 1 := by decide +kernel

/-- R840: another SEQ than the one shown releases nothing and posts RESULT_ACK_INVALID (0x0004). -/
theorem test_result_ack : (after (.resultAck 254) sMbx).rd F.GLB_RESULT_LO_VALID = 1 ∧ codes (after (.resultAck 254) sMbx) = [0x0004] ∧
    (after (.resultAck 255) sMbx).rd F.GLB_RESULT_LO_VALID = 0 := by decide +kernel

/-- R738: the epoch is ratcheted by one, modulo 2^32; a jump is refused with STATE_CONFLICT (0x0003). -/
theorem test_epoch :
    (let s := setAll sRun [(F.GLB_EPOCH_SETTLED, 0, 1), (F.GLB_EPOCH_NEXT, 0, 2 ^ 32 - 1)]
     (after (.epochRatchet .part 0) s).rd F.GLB_EPOCH_NEXT = 0 ∧ (after (.epochRatchet .part 1) s).rd F.GLB_EPOCH_NEXT = 2 ^ 32 - 1 ∧
       codes (after (.epochRatchet .part 1) s) = [0x0003]) := by decide +kernel

/-- R758: a lane that finds its partner's termination goes from DETECT (1) to SIGNAL (2). -/
theorem test_lane_detect : (after (.laneDetectPoll 255 true) (sLane 1 {})).laneSt 255 = 2 ∧
    (after (.laneDetectPoll 255 false) (sLane 1 {})).laneSt 255 = 1 := by decide +kernel

/-- R756: signal that returns after 1 ms finds the lane ACTIVE (5) at once, later it adapts again (7). -/
theorem test_lane_return :
    (let s : State := { sLane 6 {} with time := 1000000 }
     (after (.laneSignalReturn 255) s).laneSt 255 = 5 ∧ (after (.laneSignalReturn 255) { s with time := 1000001 }).laneSt 255 = 7) := by
  decide +kernel

/-- Table MED-11: PARTNER (1) becomes UNOWNED (0) when the wire has been quiet, and slot 64 ends the arbitration. -/
theorem test_group : (after (.mgOwnQuietTimer 0) (sGrp 0 1 {})).gst 0 = 0 ∧
    (after (.arbitrationComplete 8) (sGrp 8 3 { slot := 64 })).gst 8 = 4 := by decide +kernel

/-- R799: an edge of PERST_N resets the port; R854: a rail out of range stops the part. -/
theorem test_resets : (after .perstNAssert sLink).pci.inReset = true ∧ (after .perstNAssert sLink).rd F.PCI_STAT_DL_UP = 0 ∧
    (after .railFault sLink).dark = true := by decide +kernel

/-- R870: one reading of 115 °C does not trip, two in a row do. -/
theorem test_thermal_trip : (after (.thermalRead 6 115) sRun).dark = false ∧
    (after (.thermalRead 6 115) (after (.thermalRead 6 115) sRun)).dark = true := by decide +kernel

/-- A closed router port absorbs a packet (R606), which is counted. -/
theorem test_router_absorb : (after (.routerAbsorb 0 0 2 false) sNoc).rd F.NOC_ABSORBED = 1 := by decide +kernel

/-- R786: L0p narrows the link and counts the change. -/
theorem test_l0p : (after (.l0pHostRequest 4) sLink).rd F.PCI_STAT_WIDTH = 4 ∧ (after (.l0pHostRequest 4) sLink).rd F.PCI_STAT_L0P = 1 ∧
    (after (.l0pHostRequest 4) sLink).rd F.PCI_L0P_CHANGES = 1 := by decide +kernel

/-- R419: a partner that says LEAVING is remembered; R437: its PFAIL is shown. -/
theorem test_partner : (after (.leaving 1) (sPair 2)).lve.leaving = true ∧ (after .pfail (sPair 2)).rd F.LVE_STAT_PFAIL_RX = 1 := by
  decide +kernel

/-- R412: mirrored data is held as a foreign line. -/
theorem test_mirror : (Map.get none (after (.mirrorWrite 5 1 0 7 {} [(0, .data 9)] false false) (sPair 2)).tly.flines 5).map
    (fun l => (l.tract, l.iu, l.data)) = some (1, 7, [(0, Blk.data 9)]) := by decide +kernel

/-- R547, R494: what one access stores in HBM the next one reads. -/
theorem test_hbm_line :
    (let n := 120 * 2 ^ 24
     let s := (sRun.plainLine n 0 true 8 4 0xA1B2C3D4 {}).1
     (s.plainLine n 0 false 8 4 0 {}).2 = some (0, 0xA1B2C3D4) ∧ (s.plainLine n 0 false 10 2 0 {}).2 = some (0, 0xA1B2)) := by
  decide +kernel

/-- Commands run in the order they wait: the first leaves the queue. -/
theorem test_queue_order :
    (let s : State := { sPair 2 with pending := [.leaving 1, .pfail] }
     (match step s with
      | .next t => t.pending
      | _ => []) = [.pfail]) := by decide +kernel

/-- The time base wraps at 64 bits when the block idles (log entry 1, R834). -/
theorem test_time_wraps :
    (match step { sRun with time := 2 ^ 64 - 1 } with
     | .next t => t.time
     | _ => 1) = 0 := by decide +kernel

/-- R874, R875: EXTEST stops the part, and its boundary register pulls a wire low; the media pins of the wire's group stay at high
impedance until the wire has been sampled high for 200 µs before. -/
theorem test_extest :
    (let cells : List BCell := [⟨.own 0, true, false⟩, ⟨.mch 3 0, true, true⟩]
     let s := after (.testInstructionLoad { cells := cells }) State.reset
     let t := after (.testInstructionLoad { cells := cells }) { State.reset with tap.ns := 200000 }
     s.dark = true ∧ s.ownPin 0 = .drive false ∧ s.mchPin 3 0 = .highZ ∧ t.mchPin 3 0 = .drive true ∧
       t.mchPin 16 0 = .highZ) := by decide +kernel

/-- Table SDS-1: the levels of bit pairs. -/
theorem test_pam4 : [pam4 false false, pam4 false true, pam4 true true, pam4 true false] = [0, 1, 2, 3] := by decide +kernel

/-- R398: byte j of a flit of 288 bytes travels on lane j mod w. -/
theorem test_lane_bytes : laneBytes 4 3 (List.range 8) = [3, 7] := by decide +kernel

/-! ### Ciphers, hashes and images: expected values from the standards' own examples, or from an implementation outside the model -/

/-- A number's bytes, its most significant first. -/
def hexBytes (n x : Nat) : List Nat := beBytes n x

/-- FIPS 180-4: SHA-384 of the string abc. -/
theorem test_sha384 : beNat (sha384 [0x61, 0x62, 0x63]) =
    0xcb00753f45a35e8bb5a03d699ac65007272c32ab0eded1631a8b605a43ff5bed8086072ba1e7cc2358baeca134c825a7 := by decide +kernel

/-- CRC-32C of the nine digits 1 to 9. -/
theorem test_crc32c : crc32c 9 (ofBytes [0x31, 0x32, 0x33, 0x34, 0x35, 0x36, 0x37, 0x38, 0x39]) = 0xE3069283 := by decide +kernel

/-- FIPS 197, C.3: AES-256. -/
theorem test_aes : beNat (aesEnc (roundKeys (List.range 32)) (hexBytes 16 0x00112233445566778899aabbccddeeff)) =
    0x8ea2b7ca516745bfeafc49904b496089 := by decide +kernel

/-- IEEE 1619, vector 10: the first block of AES-256-XTS, both ways. -/
theorem test_xts :
    (let k1 := hexBytes 32 0x2718281828459045235360287471352662497757247093699959574966967627
     let k2 := hexBytes 32 0x3141592653589793238462643383279502884197169399375105820974944592
     let c := hexBytes 16 0x1c3b3a102f770386e4836c99e370cf9b
     xts true k1 k2 0xFF (List.range 16) = c ∧ xts false k1 k2 0xFF c = List.range 16) := by decide +kernel

/-- GCM test case 14: AES-256, one block of zeros. -/
theorem test_gcm :
    (let z := List.replicate 32 0
     let c := gcmCrypt z (z.take 12) (z.take 16)
     beNat c = 0xcea7403d4d606b6e074ec5d3baf39d18 ∧ beNat (gcmTag z (z.take 12) [] c) = 0xd0d1c8a799996bf0265b98b5d48ab919) := by
  decide +kernel

/-- A blob that wraps the root key 40H, 41H, … 5FH for KID 9 of die 1122334455667788H under an ephemeral key of private number 3,
for a device key of private number 1; built outside the model. -/
def blob9 : Nat :=
  0x4B575250 + 1 * 2 ^ 32 + 9 * 2 ^ 40 + 1 * 2 ^ 48 + 0x1122334455667788 * 2 ^ 64
    + (n48 0x77a41d4606ffa1464793c7e5fdc7d98cb9d3910202dcd06 0xbea4f240d3566da6b408bbae5026580d02d7e5c70500c831) * 2 ^ 128
    + (n48 0xc995f7ca0b0c42837d0bbe9602a9fc998520b41c85115aa5 0xf7684c0edc111eacc24abd6be4b5d298b65f28600a2f1df1) * 2 ^ 512
    + 0x4f71e194ea4442918bc21f0ce011b2a36aa129bc13a774dcd9ae3888630f891e3154e4ecbc76cc2f * 2 ^ 896

/-- R541 to R543: the blob's point lies on the curve and its root key is the one wrapped (checks 5 and 6); for another KID it fails check 2. -/
theorem test_key_import :
    (let s : State := { sRun with fuses := { dieId := 0x1122334455667788, devKey := 1 } }
     onCurve (blobPoint blob9) = true ∧
       s.unwrapped 9 blob9 = some 0x5f5e5d5c5b5a595857565554535251504f4e4d4c4b4a49484746454443424140 ∧
       s.importCheck 8 blob9 = some 0x03) := by
  and_intros <;> decide +kernel

/-- Twice the base point of P-384, by an implementation outside the model, lies on the curve and is what doubling gives. -/
theorem test_p384 :
    (let q := (n48 0x8d999057ba3d2d969260045c55b97f089025959a6f434d6 0x51d207d19fb96e9e4fe0e86ebe0e64f85b96a9c75295df61,
               n48 0x8e80f1fa5b1b3cedb7bfe8dffd6dba74b275d875bc6cc43e 0x904e505f256ab4255ffd43e94d39e22d61501e700a940e80)
     onCurve g384 = true ∧ ecAdd (some g384) (some g384) = some q) := by decide +kernel

/-- R50 to R57: the first 8 KiB of an image pass checks 1 to 9 once the signature is verified, and the load waits for its first segment;
a key that is revoked fails check 7. -/
theorem test_header_taken :
    (let s := (after (.headerReceived { bytes := imageFull }) sHead).authenticate
     s.cfg.headerOk = true ∧ s.cfg.segs.length = 4 ∧ s.rd F.CFG_STATUS_STATE = 3 ∧
     State.authFail { sHead with fuses.revoked := 1 } { bytes := imageFull } = some 0x07) := by
  and_intros <;> decide +kernel

/-- R676: a load whose image passes every check begins: the stand is LOADING (3) and the loader drains it. -/
theorem test_stand_load :
    (let s := after (.standLoadStart { bytes := image0 }) sLoad
     s.standSt 0 = 3 ∧ s.rd F.CFG_SL_STAT_PHASE = 2) := by decide +kernel

end Sys2Proof.Tests
end

/-! PROOFS. The steps of the commands that move data: what a READ, VERIFY, WRITE, ATOMIC_WRITE or COPY step, and the
translation before it, answers when its data is there (R22, R23, R139, R140, R143, R196). -/

namespace Sys2Proof.Machine
open Sys2Proof

/-! ### A running command: its entry, its marks, its record -/

theorem Runs.ioEnter_eq {s : State} {k op : Nat} {c : Cmd} (h : Runs s k op c) : s.ioEnter k op = (s, some c) := by
  simp [State.ioEnter, State.resumeTurn, h.cmd, h.host, h.going, h.open_, h.opcode, h.thawed, h.unheld, h.fresh, h.checked]

/-- A step extends no stream unless a READ has not yet been noted (R209). -/
theorem State.noteRead_of_noted {c : Cmd} (s : State) (k : Nat) (h : sqOp c.sqe = 0x02 → c.noted = true) : s.noteRead k c = s := by
  unfold State.noteRead
  split
  · exact if_neg fun ⟨hop, hn⟩ => hn (h hop)
  · rfl

theorem State.cmd_updCmd_self {s : State} {k : Nat} {c : Cmd} (f : Cmd → Cmd) (h : s.cmd k = some c) :
    (s.updCmd k f).cmd k = some (f c) := by
  have e : s.updCmd k f = s.setCmd k (f c) := by simp only [State.updCmd, h]
  rw [e, State.cmd, State.setCmd_qqp]
  simp only [Map.set, reduceCtorEq, if_false, Map.get_insert_self]

@[simp] theorem State.moved_out (s : State) (b lba n : Nat) : (s.moved b lba n).out = s.out := rfl
@[simp] theorem State.moved_noc (s : State) (b lba n : Nat) : (s.moved b lba n).noc = s.noc := rfl

/-! ### Skidder reads and transfers to the host -/

/-- The reads of buffered blocks only queue requests on the Skidway. -/
theorem State.skidReads_eq (s : State) (e tag prio b : Nat) (l : List (Nat × Nat)) :
    s.skidReads e tag prio b l = { s with noc := (s.skidReads e tag prio b l).noc } := by
  unfold State.skidReads
  induction l generalizing s with
  | nil => rfl
  | cons x l ih =>
    rw [List.foldl_cons]
    cases s.blockAddr x.1 x.2 with
    | none => exact ih s
    | some a => exact ih (s.skidReqs e tag prio false a b 0)

/-- Without a list of segments the data of a READ leaves at DP1, when the function may send. -/
theorem State.toHost_of_tlpOk {s : State} {c : Cmd} (k off n val : Nat) (hsgl : sqSgl c.sqe = false) (hcut : c.cut = false)
    (htlp : s.tlpOk c.fn = true) :
    s.toHost k c off n val =
      ({ s with out := s.out ++ s.dataTlps c.fn (sqDp1 c.sqe + off) n val (s.pci.relaxed.contains c.fn) }, true) := by
  simp [State.toHost, hsgl, hcut, htlp]

/-! ### Translation -/

/-- The pins of a segment that is neither full nor atomic grow by the IU that the Tally translates (R196, R205). -/
theorem State.pinNext_of_translate {s r : State} {c : Cmd} {g : Seg} {k i w t p : Nat} {l : List Src} (ht : s.srcTract c = some t)
    (hg : c.segs[i]? = some g) (hroom : g.done + g.pin.length < g.len) (hat : sqAtomic c.sqe = false)
    (htr : s.translate (sqOp c.sqe == 0x02) t (sqLba c.sqe + (g.first + g.done + g.pin.length)) w c.prio = (r, some (p, l))) :
    s.pinNext k i c w = r.updCmd k (fun c => c.updSeg i (fun x =>
      { x with pin := x.pin ++ l.take (g.len - g.done - g.pin.length), pinPages := (x.pinPages ++ [p]).eraseDups })) := by
  have hr : g.len - g.done - g.pin.length ≠ 0 := by omega
  simp only [State.pinNext, ht, hg, hr, hat, htr, if_false, Bool.false_eq_true]

/-- A request that a skidder may make notes the READ and translates (R196). -/
theorem Live.exec_translationRequest {s : State} {k i w t : Nat} {c : Cmd} {g : Seg} (h : Live s)
    (hr : Runs s k (sqOp c.sqe) c) (hw : s.segRunning k i = some w) (hg : c.segs[i]? = some g) (ht : s.srcTract c = some t)
    (hop : sqOp c.sqe = 0x02 ∨ sqOp c.sqe = 0x06 ∨ sqOp c.sqe = 0x07) (hpins : g.pin.length ≤ 2 * (s.tract t).perIu) :
    exec (.translationRequest k i) s = .next ((s.noteRead k c).pinNext k i c w) := by
  refine congrArg Host.Outcome.next ((State.when_live rfl h.runs).trans ?_)
  simp only [hr.cmd, hw, hg, ht, hr.ioEnter_eq, if_pos (And.intro hop hpins)]

/-! ### READ and VERIFY -/

/-- The block of its tract at which a segment stands. -/
def Cmd.nextLba (c : Cmd) (g : Seg) : Nat := sqLba c.sqe + g.first + g.done

/-- The pinned sources that the next step of a READ or VERIFY segment moves: those up to the 4 KiB boundary. -/
def State.readSrcs (s : State) (t : Nat) (c : Cmd) (g : Seg) : List Src :=
  g.pin.take (chunkLen (s.tract t).blkBytes (c.nextLba g) (min g.pin.length (g.len - g.done)))

/-- Their leading data, decrypted: block count, value, and the block that stops the transfer. -/
def State.readData (s : State) (t : Nat) (c : Cmd) (g : Seg) : Nat × Nat × Option (Nat × Nat × Nat) :=
  leadData (s.tract t).blkBytes (s.plain t (c.nextLba g) ((((s.readSrcs t c g).zipIdx.map (fun x =>
    blockOf c.media (s.tract t).blkBytes ((c.nextLba g + x.2) % max 1 (s.tract t).perIu) x.1)).filterMap id).zip (s.readSrcs t c g)))

/-- The state in which the skidder has asked for those of them that lie in the write buffer. -/
def State.readAsked (s : State) (w k t : Nat) (c : Cmd) (g : Seg) : State :=
  s.skidReads (s.skidderOf w) k c.prio (s.tract t).blkBytes (lineReads (s.tract t).perIu (c.nextLba g) (s.readSrcs t c g))

theorem State.readAsked_eq (s : State) (w k t : Nat) (c : Cmd) (g : Seg) :
    s.readAsked w k t c g = { s with noc := (s.readAsked w k t c g).noc } := State.skidReads_eq ..

/-- The next step of segment `i` of the running command `k` of opcode `op` finds its data: the segment has pins and every
sector they need, and the step moves `n` blocks, whose data is `v`, with none that stops it and with blocks left after it. -/
structure ReadReady (s : State) (op k i w t : Nat) (c : Cmd) (g : Seg) (n v : Nat) : Prop where
  runs : Runs s k op c
  task : s.segRunning k i = some w
  seg : c.segs[i]? = some g
  going : g.ended = false
  tract : s.srcTract c = some t
  noted : op = 0x02 → c.noted = true
  pinned : g.pin ≠ []
  direct : op = 0x02 → sqSgl c.sqe = false
  there : missing c.media (s.readSrcs t c g) = []
  data : s.readData t c g = (n, v, none)
  more : g.done + n < g.len

/-- The segment moves on by the blocks that a READ or VERIFY step has read. -/
def Cmd.readOn (op i n per lba : Nat) (srcs : List Src) (c : Cmd) : Cmd :=
  (if op = 0x02 then c.delivered i n else c).advance i n srcs (decide ((lba + n) % max 1 per = 0))

/-- A READ or VERIFY step whose data is there, and which the host takes from a READ: the segment moves on. -/
theorem ReadReady.readStep_eq {s u : State} {op k i w t : Nat} {c : Cmd} {g : Seg} {n v : Nat} (h : ReadReady s op k i w t c g n v)
    (hu : (if op = 0x02 ∧ n ≠ 0
      then (s.readAsked w k t c g).toHost k c ((g.first + g.done) * (s.tract t).blkBytes) (n * (s.tract t).blkBytes) v
      else (s.readAsked w k t c g, true)) = (u, true)) :
    s.readStep op k i = (u.moved (s.tract t).blkBytes (c.nextLba g) n).updCmd k
      (Cmd.readOn op i n (s.tract t).perIu (c.nextLba g) (s.readSrcs t c g)) := by
  have hnote : s.noteRead k c = s := State.noteRead_of_noted s k (fun e => h.noted (h.runs.opcode ▸ e))
  have hsg : (sqSgl c.sqe && op == 0x02 && !c.sglGot) = false := by
    by_cases hop : op = 0x02
    · simp [h.direct hop]
    · simp [hop]
  have hmore : ¬ g.len ≤ g.done + n := Nat.not_le.2 h.more
  have hmiss := h.there
  have hdata := h.data
  simp only [State.readData, State.readSrcs, State.readAsked, Cmd.nextLba, ne_eq] at hmiss hdata hu ⊢
  simp only [State.readStep, h.task, h.runs.ioEnter_eq, h.tract, hnote, h.seg, h.pinned, false_and, if_false, h.runs.cmd, h.going,
    Bool.false_eq_true, hsg, or_self, hmiss, ne_eq, not_true_eq_false, hdata, hu, Bool.not_true, hmore] <;> rfl

theorem Live.exec_read {s : State} (h : Live s) (k i : Nat) : exec (.read k i) s = .next (s.readStep 0x02 k i) :=
  congrArg Host.Outcome.next (State.when_live rfl h.runs)

theorem Live.exec_verify {s : State} (h : Live s) (k i : Nat) : exec (.verify k i) s = .next (s.readStep 0x07 k i) :=
  congrArg Host.Outcome.next (State.when_live rfl h.runs)

/-- A READ step sends the host its data and touches nothing but its command, the Skidway and the skidder's counter. -/
theorem ReadReady.completes_read {s : State} {k i w t : Nat} {c : Cmd} {g : Seg} {n v : Nat} (hl : Live s)
    (h : ReadReady s 0x02 k i w t c g n v) (hn : n ≠ 0) (hcut : c.cut = false) (htlp : s.tlpOk c.fn = true) :
    Completes (.read k i) s (fun u =>
      u.out = s.out ++ s.dataTlps c.fn (sqDp1 c.sqe + (g.first + g.done) * (s.tract t).blkBytes) (n * (s.tract t).blkBytes) v
        (s.pci.relaxed.contains c.fn) ∧
      u.cmd k = some (c.readOn 0x02 i n (s.tract t).perIu (c.nextLba g) (s.readSrcs t c g)) ∧
      u.noc = (s.readAsked w k t c g).noc ∧ Touches [.regs 8, .out, .qqp, .noc] s u) := by
  have hsend := State.toHost_of_tlpOk (s := { s with noc := (s.readAsked w k t c g).noc }) k
    ((g.first + g.done) * (s.tract t).blkBytes) (n * (s.tract t).blkBytes) v (h.direct rfl) hcut htlp
  have hstep := h.readStep_eq ((if_pos ⟨rfl, hn⟩).trans ((congrArg (State.toHost · ..) (s.readAsked_eq w k t c g)).trans hsend))
  refine ⟨_, (hl.exec_read k i).trans (congrArg _ hstep), ?_, ?_, ?_, ?_⟩
  · rw [State.updCmd_out, State.moved_out]; rfl
  · exact State.cmd_updCmd_self _ h.runs.cmd
  · rw [State.updCmd_noc, State.moved_noc]
  · exact (State.updCmd_keeps (by simp) (State.moved_keeps (by simp) (Keeps.lit rfl rfl (Keeps.refl s)
      (h_out := .inr (by simp)) (h_noc := .inr (by simp))))).touches

/-- A VERIFY step reads the same and sends nothing. -/
theorem ReadReady.completes_verify {s : State} {k i w t : Nat} {c : Cmd} {g : Seg} {n v : Nat} (hl : Live s)
    (h : ReadReady s 0x07 k i w t c g n v) :
    Completes (.verify k i) s (fun u => u.out = s.out ∧
      u.cmd k = some (c.readOn 0x07 i n (s.tract t).perIu (c.nextLba g) (s.readSrcs t c g)) ∧
      Touches [.regs 8, .qqp, .noc] s u) := by
  have hstep := h.readStep_eq ((if_neg (fun e => absurd e.1 (by decide))).trans (congrArg (·, true) (s.readAsked_eq w k t c g)))
  refine ⟨_, (hl.exec_verify k i).trans (congrArg _ hstep), ?_, ?_, ?_⟩
  · rw [State.updCmd_out, State.moved_out]
  · exact State.cmd_updCmd_self _ h.runs.cmd
  · exact (State.updCmd_keeps (by simp) (State.moved_keeps (by simp) (Keeps.lit rfl rfl (Keeps.refl s)
      (h_noc := .inr (by simp))))).touches

/-! ### WRITE and ATOMIC_WRITE -/

/-- The blocks of one IU, which the host has sent and the write buffer has room for, become a line. -/
theorem State.writeStep_of_hostData {s : State} {op k i w t m : Nat} {c : Cmd} {g : Seg} (hr : Runs s k op c)
    (hw : s.segRunning k i = some w) (hg : c.segs[i]? = some g) (hend : g.ended = false)
    (ht : s.tractKey c.fn (sqTract c.sqe) = some t)
    (hm : m = min (max 1 (s.tract t).perIu - c.nextLba g % max 1 (s.tract t).perIu) (g.len - g.done))
    (hhost : g.first + g.done + m ≤ c.hostData.length) (hmore : g.done + m < g.len) (hm0 : m ≠ 0)
    (hroom : (s.lineRoom t (c.nextLba g % max 1 (s.tract t).perIu) m).isSome = true) :
    s.writeStep op k i = ((s.skidCommit w k c t (c.nextLba g / max 1 (s.tract t).perIu) (c.nextLba g % max 1 (s.tract t).perIu)
      (((c.hostData.drop (g.first + g.done)).take m).map Blk.data)).moved (s.tract t).blkBytes (c.nextLba g) m).updCmd k
        (fun c => Cmd.advance { c with xfer := c.xfer + m } i m [] true) := by
  have hsent : m ≤ c.hostData.length - (g.first + g.done) := by omega
  have hlast : ¬ g.len ≤ g.done + m := by omega
  have hroom' : (s.lineRoom t (c.nextLba g % max 1 (s.tract t).perIu) m).isNone = false := by
    rw [← Option.not_isSome, hroom]; rfl
  simp only [Cmd.nextLba] at hm hroom' ⊢
  simp only [State.writeStep, hw, hr.ioEnter_eq, ht, hg, ← hm, if_pos hsent, hend, hroom', Nat.lt_irrefl, false_and, and_false,
    Bool.false_eq_true, or_self, if_false, hm0, hlast]

theorem Live.exec_write {s : State} (h : Live s) (k i : Nat) : exec (.write k i) s = .next (s.writeStep 0x01 k i) :=
  congrArg Host.Outcome.next (State.when_live rfl h.runs)

theorem Live.exec_atomicWrite {s : State} (h : Live s) (k i : Nat) : exec (.atomicWrite k i) s = .next (s.writeStep 0x08 k i) :=
  congrArg Host.Outcome.next (State.when_live rfl h.runs)

/-! ### COPY -/

theorem Live.exec_copy {s : State} (h : Live s) (k i : Nat) : exec (.copy k i) s = .next (s.copyStep k i) :=
  congrArg Host.Outcome.next (State.when_live rfl h.runs)

/-- The destination block of a COPY at which a segment stands. -/
def Cmd.nextDst (c : Cmd) (g : Seg) : Nat := sqDest c.sqe + g.first + g.done

/-- How many pinned blocks lie in one IU of the source tract `u` and one of the destination tract `t` (R139). -/
def State.copyLen (s : State) (u t : Nat) (c : Cmd) (g : Seg) : Nat :=
  min (min g.pin.length (g.len - g.done)) (min (max 1 (s.tract u).perIu - c.nextLba g % max 1 (s.tract u).perIu)
    (max 1 (s.tract t).perIu - c.nextDst g % max 1 (s.tract t).perIu))

/-- Contents of the next `m` pinned blocks of tract `u`, as their sources hold them. -/
def State.copyCont (s : State) (u m : Nat) (c : Cmd) (g : Seg) : List (Nat ⊕ (Nat × Nat × Nat)) :=
  ((g.pin.take m).zipIdx.map (fun x =>
    blockOf c.media (s.tract u).blkBytes ((c.nextLba g + x.2) % max 1 (s.tract u).perIu) x.1)).filterMap id

/-- The data of the first `n` of them, decrypted. -/
def State.copyBlks (s : State) (u m n : Nat) (c : Cmd) (g : Seg) : List Blk :=
  (((s.copyCont u m c g).take n).zip (g.pin.take m)).zipIdx.filterMap (fun x => match x.1.1 with
    | .inl v => some (Blk.data (s.decBlk u (c.nextLba g + x.2) x.1.2 v))
    | .inr _ => none)

/-- A COPY step whose data is there and whose line has room: the line is committed and the segment moves on. -/
theorem State.copyStep_of_data {s : State} {k i w u t n v : Nat} {c : Cmd} {g : Seg} (hr : Runs s k 0x06 c)
    (hw : s.segRunning k i = some w) (hg : c.segs[i]? = some g) (hend : g.ended = false) (hu : s.srcTract c = some u)
    (ht : s.tractKey c.fn (sqTract c.sqe) = some t) (hpin : g.pin ≠ [])
    (hmiss : missing c.media (g.pin.take (s.copyLen u t c g)) = [])
    (hdata : leadData (s.tract u).blkBytes (s.copyCont u (s.copyLen u t c g) c g) = (n, v, none)) (hn : n ≠ 0)
    (hmore : g.done + n < g.len)
    (hroom : (s.lineRoom t (c.nextDst g % max 1 (s.tract t).perIu) (s.copyLen u t c g)).isSome = true) :
    s.copyStep k i =
      (((s.skidReads (s.skidderOf w) k c.prio (s.tract u).blkBytes
          (lineReads (max 1 (s.tract u).perIu) (c.nextLba g) (g.pin.take (s.copyLen u t c g)))).skidCommit w k c t
            (c.nextDst g / max 1 (s.tract t).perIu) (c.nextDst g % max 1 (s.tract t).perIu)
            (s.copyBlks u (s.copyLen u t c g) n c g)).moved (s.tract u).blkBytes (c.nextLba g) n).updCmd k
        (fun x => x.advance i n (g.pin.take (s.copyLen u t c g)) (decide ((c.nextLba g + n) % max 1 (s.tract u).perIu = 0))) := by
  have hlast : ¬ g.len ≤ g.done + n := Nat.not_le.2 hmore
  have hroom' : (s.lineRoom t (c.nextDst g % max 1 (s.tract t).perIu) (s.copyLen u t c g)).isNone = false := by
    rw [← Option.not_isSome, hroom]; rfl
  simp only [State.copyBlks, State.copyCont, State.copyLen, Cmd.nextLba, Cmd.nextDst] at hmiss hdata hroom' ⊢
  simp only [State.copyStep, hw, hr.ioEnter_eq, hu, ht, hg, hpin, false_and, if_false, hr.cmd, hend, Bool.false_eq_true, or_self,
    hmiss, ne_eq, not_true_eq_false, hroom', hdata, hn, hlast] <;> rfl

/-! ### The statement -/

/-- Settles O2: every step whose data is there is one of the steps above. -/
theorem dataCommandSteps : Obligations.DataCommandSteps := by
  intro s hl k i w c g hw hg hend
  refine ⟨?_, ?_, ?_, ?_, ?_⟩
  · intro op t hr hop ht hpins hroom hat hnoted r p l htr
    obtain rfl := hr.opcode
    rw [hl.exec_translationRequest hr hw hg ht hop hpins, State.noteRead_of_noted s k hnoted,
      State.pinNext_of_translate ht hg hroom hat htr]
  · intro t n v hr ht hnoted hpin hsgl hcut htlp blkB lba srcs hmiss hdata hn hmore
    exact ReadReady.completes_read hl ⟨hr, hw, hg, hend, ht, fun _ => hnoted, hpin, fun _ => hsgl, hmiss, hdata, hmore⟩ hn hcut htlp
  · intro t n v hr ht hpin blkB lba srcs hmiss hdata hmore
    exact ReadReady.completes_verify hl
      ⟨hr, hw, hg, hend, ht, fun e => absurd e (by decide), hpin, fun e => absurd e (by decide), hmiss, hdata, hmore⟩
  · intro t ht per lba m hhost hmore hm0 hroom bl u
    have hstep {op : Nat} (hr : Runs s k op c) : s.writeStep op k i = u :=
      State.writeStep_of_hostData hr hw hg hend ht rfl hhost hmore hm0 hroom
    exact ⟨fun hr => (hl.exec_write k i).trans (congrArg _ (hstep hr)),
      fun hr => (hl.exec_atomicWrite k i).trans (congrArg _ (hstep hr))⟩
  · intro u t n v hr hu ht hpin per dper lba dst m srcs cont hmiss hdata hn hmore hroom bl z
    exact (hl.exec_copy k i).trans (congrArg _
      (State.copyStep_of_data hr hw hg hend hu ht hpin hmiss hdata hn hmore hroom))

end Sys2Proof.Machine

/-! PROOFS. What the commands of boot and image answer: the signals of the partner, the PCIe port, the resets of the whole part,
accesses to registers, and the load of the image. First the facts about guards, accesses, registers and frames that the
statements share. -/

namespace Sys2Proof.Machine
open Sys2Proof

/-! ### Guards -/

/-- A command of a part that runs, whose condition holds, answers its effect. -/
theorem State.next_when {s : State} {c : Bool} {f : State → State} (hd : s.dark = false) (hc : c = true) :
    (.next (s.when c f) : Res) = .next (f s) := congrArg _ (State.when_live hc hd)

theorem State.on_of_rd_one {s : State} {f : Fld} {i j : Nat} (h : s.rd f i j = 1) : s.on f i j = true := by
  simp [State.on, h]

theorem State.on_of_rd_zero {s : State} {f : Fld} {i j : Nat} (h : s.rd f i j = 0) : s.on f i j = false := by
  simp [State.on, h]

/-! ### Writes that pass permission and gate, and accesses that the policy denies -/

theorem State.writeGate_of_permits {s : State} {req : Req} {blk reg : Nat} (hp : s.permits req blk true = true)
    (ha : s.answers reg = true) (off : Nat) (f : State → State) : s.writeGate req blk off reg f = f s := by
  simp [State.writeGate, hp, ha]

/-- A write that the policy does not permit is discarded, with ACCESS_DENIED (R92). -/
theorem State.writeGate_of_denied {s : State} {req : Req} {blk : Nat} (hdone : s.cfg.done = true)
    (hp : s.permits req blk true = false) (off reg : Nat) (f : State → State) :
    s.writeGate req blk off reg f = s.post E.ACCESS_DENIED (reqCode req) (ctrlAddr off) := by
  cases req <;> simp [State.writeGate, hp, hdone]

theorem State.mayWrite.byReq_eq {s : State} {req : Req} {off : Nat} (h : s.mayWrite req off) (f : State → State) :
    s.byReq req off f = f s := State.writeGate_of_permits h.1 h.2 ..

/-! ### Registers -/

theorem Fld.cut_of_lt {f : Fld} {v : Nat} (h : v < 2 ^ f.w) : f.cut v = v := Nat.mod_eq_of_lt h

/-- A counter reads back its old value with what it counted, up to the largest value of its field. -/
theorem State.rd_bump_self {s : State} (w : Memory.wf s = true) (f : Fld) (n i j : Nat) :
    (s.bump f n i j).rd f i j = min (s.rd f i j + n) (2 ^ f.w - 1) :=
  (State.rd_put_self w ..).trans
    (Fld.cut_of_lt (Nat.lt_of_le_of_lt (Nat.min_le_right ..) (Nat.sub_lt (Nat.two_pow_pos _) Nat.one_pos)))

theorem State.rd_bump_ne {s : State} (w : Memory.wf s = true) (f g : Fld) (n i j x y : Nat) (h : g.key x y ≠ f.key i j) :
    (s.bump f n i j).rd g x y = s.rd g x y := State.rd_put_ne w (h := h) ..

theorem State.wf_bump {s : State} (w : Memory.wf s = true) (f : Fld) (n i j : Nat) : Memory.wf (s.bump f n i j) = true :=
  State.wf_put w ..

/-! ### Frames -/

/-- A change of the loader's record touches nothing else. -/
theorem State.touches_cfg (s : State) (c : Cfg) : Touches [.cfg] s { s with cfg := c } :=
  (Keeps.lit rfl rfl (Keeps.refl s) (h_cfg := .inr (by decide))).touches

/-! ### The partner's signals -/

/-- The wire falls silent: LVE_STAT.WIRE_ALIVE falls, and the event is posted while the link lives (R417). -/
theorem Live.exec_wireSilent {s : State} (hl : Live s) (h : s.rd F.LVE_STAT_WIRE_ALIVE = 1) :
    exec .wireSilent s = .next (if s.rd F.LVE_STAT_LINK_ALIVE = 0 then s.put F.LVE_STAT_WIRE_ALIVE 0
      else (s.put F.LVE_STAT_WIRE_ALIVE 0).post E.LVE_WIRE_SILENT) := by
  have hlink : (s.put F.LVE_STAT_WIRE_ALIVE 0).rd F.LVE_STAT_LINK_ALIVE = s.rd F.LVE_STAT_LINK_ALIVE :=
    State.rd_put_ne hl.wf (h := by decide) ..
  refine (State.next_when hl.runs (State.on_of_rd_one h)).trans (congrArg _ ?_)
  by_cases h0 : s.rd F.LVE_STAT_LINK_ALIVE = 0 <;> simp [State.on, hlink, h0]

/-- The link falls silent: the part leaves PAIRED at once where the wire lives, and in HANDBACK (R420). -/
theorem Live.exec_linkSilent {s : State} (hl : Live s) (hdone : s.cfg.done = true) (hdead : s.lve.linkDead = false) :
    exec .linkSilent s = .next (
      let t := State.put { s with lve.linkDead := true } F.LVE_STAT_LINK_ALIVE 0
      if s.rd F.LVE_STAT_WIRE_ALIVE ≠ 0 ∧ s.lve.stopped = false then t.linkLost
      else if s.pair = 6 ∧ s.lve.stopped = false then t.linkLost else t) := by
  have hwf : Memory.wf { s with lve.linkDead := true } = true := hl.wf
  have hwire : (State.put { s with lve.linkDead := true } F.LVE_STAT_LINK_ALIVE 0).rd F.LVE_STAT_WIRE_ALIVE =
      s.rd F.LVE_STAT_WIRE_ALIVE := State.rd_put_ne hwf (h := by decide) ..
  have hpair : (State.put { s with lve.linkDead := true } F.LVE_STAT_LINK_ALIVE 0).pair = s.pair :=
    State.rd_put_ne hwf (h := by decide) ..
  refine (State.next_when hl.runs (by simp [hdone, hdead])).trans (congrArg _ ?_)
  simp [State.on, hwire, hpair]

/-- Settles O24: each signal changes its bit of LVE_STAT and leaves the pair state to `linkLost`. -/
theorem partnerSignals : Obligations.PartnerSignals := by
  intro s hl
  refine ⟨?_, ?_, ?_, ?_, ?_, ?_⟩
  · intro hk
    have e : exec .partnerAliveOutToggle s = .next { s with lve.aliveOut := !s.lve.aliveOut } := State.next_when hl.runs hk
    exact ⟨_, e, rfl, (execPartnerAliveOutToggle_keeps (by decide) _ e).touches⟩
  · intro hdone hdead
    refine ⟨State.put { s with lve.wireSeen := true } F.LVE_STAT_WIRE_ALIVE 1, ?_, ?_, rfl⟩
    · exact (State.next_when hl.runs hdone).trans (by simp [hdead])
    · exact State.rd_put_self (s := { s with lve.wireSeen := true }) hl.wf ..
  · intro hw
    have e := hl.exec_wireSilent hw
    have ht := (execWireSilent_keeps (ps := (· ∈ [.regs 11, .regs 17, .evt, .out, .pci])) (by decide) (by decide) (by decide)
      (by decide) (by decide) _ e).touches
    have hwf := State.wf_put hl.wf F.LVE_STAT_WIRE_ALIVE 0 0 0
    have hwire : (s.put F.LVE_STAT_WIRE_ALIVE 0).rd F.LVE_STAT_WIRE_ALIVE = 0 := State.rd_put_self hl.wf ..
    have hpair : (s.put F.LVE_STAT_WIRE_ALIVE 0).pair = s.pair := State.rd_put_ne hl.wf (h := by decide) ..
    refine ⟨_, e, ?_, ?_, ht.same .lve (by decide), fun h0 => by rw [if_pos h0]; rfl, ht⟩
    · split
      · exact hwire
      · exact (State.rd_post hwf (h := by decide) ..).trans hwire
    · split
      · exact hpair
      · exact (State.rd_post hwf (h := by decide) ..).trans hpair
  · intro hdone hdead hwire hpair
    have hwf : Memory.wf { s with lve.linkDead := true } = true := hl.wf
    refine ⟨_, hl.exec_linkSilent hdone hdead, ?_⟩
    simp only [hwire, hpair, ne_eq, not_true_eq_false, false_and, if_false]
    exact ⟨State.rd_put_self hwf .., State.rd_put_ne hwf (h := by decide) .., rfl⟩
  · intro hdone hdead hwire hstop
    refine (hl.exec_linkSilent hdone hdead).trans (congrArg _ (if_pos ⟨?_, hstop⟩))
    rw [hwire]; decide
  · intro hdone hpair hact
    have e : exec .trainingTimeout s = .next ((s.putPair 1).post E.LVE_SOLO) :=
      State.next_when hl.runs (by simp [hdone, hpair, hact])
    refine ⟨_, e, ?_, (execTrainingTimeout_keeps (by decide) (by decide) (by decide) (by decide) (by decide) _ e).touches⟩
    exact (State.rd_post (State.wf_put hl.wf ..) (h := by decide) ..).trans (State.rd_put_self hl.wf ..)

/-! ### The PCIe port: PERST_N and function-level reset -/

/-- PERST_N falls: the port is reset, and settings that waited apply (R799, R898). -/
theorem Live.exec_perstNAssert {s : State} (hl : Live s) (h : s.pci.perst = false) :
    exec .perstNAssert s = .next (State.perstCut { s with pci.perst := true, pci.inReset := true }).applyDeferred := by
  have hd : State.dark { s with pci.perst := true, pci.inReset := true } = false := hl.runs
  have hc : (!s.pci.perst) = true := by rw [h]; rfl
  exact congrArg Host.Outcome.next (State.when_live (f := fun s => s.perstCut.applyDeferred) hc hd)

/-- PERST_N rises: the port leaves reset, and its lanes start (R785, R898). -/
theorem Live.exec_perstNRise {s : State} (hl : Live s) (h : s.pci.perst = true) :
    exec .perstNRise s = .next ((List.range 16).foldl State.laneOn (State.portLeave { s with pci.perst := false })) := by
  have e : exec .perstNRise s =
      .next (State.when { s with pci.perst := false, pci.inReset := s.pci.inReset && !(s.pci.perst && s.dark) } s.pci.perst
        (fun s => (List.range 16).foldl State.laneOn s.portLeave)) := rfl
  have hd : State.dark { s with pci.perst := false } = false := hl.runs
  rw [e, h, hl.runs]
  simp only [Bool.and_false, Bool.not_false, Bool.and_true]
  exact congrArg Host.Outcome.next (State.when_live rfl hd)

theorem bits_lt (x lo w : Nat) : bits x lo w < 2 ^ w := Nat.mod_lt _ (Nat.two_pow_pos w)

/-- The bit that shows a function's reset is no bit of the counter of such resets, whatever the function. -/
theorem flrs_key_ne_flr (fn : Nat) : F.PCI_FN_STAT_FLR.key fn 0 ≠ F.PCI_FLRS.key 0 0 := by
  simp only [Fld.key, Fld.blk, F.PCI_FN_STAT_FLR, F.PCI_FLRS]
  omega

/-- The FLR of the PF, which removes the VFs first, keeps the register store in its canonical form. -/
theorem State.wf_flr {s : State} (w : Memory.wf s = true) (p q : Nat → Bool) :
    Memory.wf ((s.removeVfs.cutCmds p).resetFns q) = true := by
  have h1 : Keeps (fun _ => True) s s.removeVfs := by
    apply State.removeVfs_keeps (h := Keeps.refl s) <;> simp
  have h2 : Keeps (fun _ => True) s (s.removeVfs.cutCmds p) := by
    apply State.cutCmds_keeps (h := h1) <;> simp
  have h3 : Keeps (fun _ => True) s ((s.removeVfs.cutCmds p).resetFns q) := by
    apply State.resetFns_keeps (h := h2) <;> simp
  exact h3.wf w

/-- The end of a function-level reset clears its bit and counts it (R801). -/
theorem Live.flrDone {s : State} (hl : Live s) {fn us : Nat} (h : s.rd F.PCI_FN_STAT_FLR fn = 1) :
    Completes (.flrDone fn us) s (fun t =>
      t.rd F.PCI_FN_STAT_FLR fn = 0 ∧ t.rd F.PCI_FLRS = min (s.rd F.PCI_FLRS + 1) (2 ^ 32 - 1) ∧
      Touches [.evt, .out, .pci, .regs 16, .regs 17] s t) := by
  have e : exec (.flrDone fn us) s = .next (((s.put F.PCI_FN_STAT_FLR 0 fn).bump F.PCI_FLRS).post E.PCI_FLR fn us) :=
    State.next_when hl.runs (State.on_of_rd_one h)
  have hput := State.wf_put hl.wf F.PCI_FN_STAT_FLR 0 fn 0
  have hwf := State.wf_bump hput F.PCI_FLRS 1 0 0
  have hflrs : (s.put F.PCI_FN_STAT_FLR 0 fn).rd F.PCI_FLRS = s.rd F.PCI_FLRS :=
    State.rd_put_ne hl.wf (h := (flrs_key_ne_flr fn).symm) ..
  refine ⟨_, e, ?_, ?_, (execFlrDone_keeps (by decide) (by decide) (by decide) (by decide) (by decide) _ e).touches⟩
  · rw [State.rd_post hwf (h := by decide) .., State.rd_bump_ne hput (h := flrs_key_ne_flr fn) ..]
    exact State.rd_put_self hl.wf ..
  · rw [State.rd_post hwf (h := by decide) .., State.rd_bump_self hput, hflrs]
    rfl

/-! ### The PCIe port: widths and retraining -/

/-- An L0p change to another width shows the width, whether it is narrower than the trained one, and is counted (R786). -/
theorem State.rd_l0pTo {s : State} (hwf : Memory.wf s = true) {w : Nat} (hne : w ≠ s.rd F.PCI_STAT_WIDTH) (hlt : w < 32) :
    (s.l0pTo w).rd F.PCI_STAT_WIDTH = w ∧ (s.l0pTo w).rd F.PCI_STAT_L0P = (if w < s.pci.fullWidth then 1 else 0) ∧
      (s.l0pTo w).rd F.PCI_L0P_CHANGES = min (s.rd F.PCI_L0P_CHANGES + 1) (2 ^ 32 - 1) := by
  have e : s.l0pTo w = ((s.put F.PCI_STAT_WIDTH w).flag F.PCI_STAT_L0P (decide (w < s.pci.fullWidth))).bump F.PCI_L0P_CHANGES :=
    if_neg hne
  have w1 := State.wf_put hwf F.PCI_STAT_WIDTH w 0 0
  have w2 : Memory.wf ((s.put F.PCI_STAT_WIDTH w).flag F.PCI_STAT_L0P (decide (w < s.pci.fullWidth))) = true := State.wf_put w1 ..
  rw [e]
  refine ⟨?_, ?_, ?_⟩
  · rw [State.rd_bump_ne w2 (h := by decide) .., State.flag, State.rd_put_ne w1 (h := by decide) .., State.rd_put_self hwf]
    exact Fld.cut_of_lt hlt
  · rw [State.rd_bump_ne w2 (h := by decide) .., State.flag, State.rd_put_self w1]
    by_cases h : w < s.pci.fullWidth
    · rw [decide_eq_true h, if_pos h]; rfl
    · rw [decide_eq_false h, if_neg h]; rfl
  · rw [State.rd_bump_self w2, State.flag, State.rd_put_ne w1 (h := by decide) .., State.rd_put_ne hwf (h := by decide) ..]
    rfl

theorem Live.l0pHostRequest {s : State} (hl : Live s) (hok : s.l0pOk = true) {w : Nat}
    (hw : w = 1 ∨ w = 2 ∨ w = 4 ∨ w = 8 ∨ w = 16) (hle : w ≤ s.pci.fullWidth) :
    exec (.l0pHostRequest w) s = .next (s.l0pTo w) := by
  refine State.next_when hl.runs ?_
  simp [hok, hw, hle]

/-- The fields of PCI_CTL but RETRAIN take the values written. -/
def State.pciSettings (s : State) (v : Nat) : State :=
  ((s.put F.PCI_CTL_L0P_INIT (bits v 0 1)).put F.PCI_CTL_L0P_WIDTH (bits v 1 2)).put F.PCI_CTL_MAX_SPEED (bits v 4 3)

theorem State.pciCtl_eq (s : State) (v : Nat) : s.pciCtl v = (if bit v 8 ∧ (s.pciSettings v).rd F.PCI_STAT_LTSSM = 0x13
    then (s.pciSettings v).put F.PCI_STAT_LTSSM 0x0B else s.pciSettings v) := rfl

theorem State.wf_pciSettings {s : State} (hwf : Memory.wf s = true) (v : Nat) : Memory.wf (s.pciSettings v) = true :=
  State.wf_put (State.wf_put (State.wf_put hwf ..) ..) ..

theorem State.rd_pciSettings {s : State} (hwf : Memory.wf s = true) (v : Nat) :
    (s.pciSettings v).rd F.PCI_CTL_L0P_INIT = bits v 0 1 ∧ (s.pciSettings v).rd F.PCI_CTL_L0P_WIDTH = bits v 1 2 ∧
      (s.pciSettings v).rd F.PCI_CTL_MAX_SPEED = bits v 4 3 ∧
      (s.pciSettings v).rd F.PCI_STAT_LTSSM = s.rd F.PCI_STAT_LTSSM := by
  have w1 := State.wf_put hwf F.PCI_CTL_L0P_INIT (bits v 0 1) 0 0
  have w2 := State.wf_put w1 F.PCI_CTL_L0P_WIDTH (bits v 1 2) 0 0
  unfold State.pciSettings
  refine ⟨?_, ?_, ?_, ?_⟩
  · rw [State.rd_put_ne w2 (h := by decide) .., State.rd_put_ne w1 (h := by decide) .., State.rd_put_self hwf]
    exact Fld.cut_of_lt (bits_lt ..)
  · rw [State.rd_put_ne w2 (h := by decide) .., State.rd_put_self w1]
    exact Fld.cut_of_lt (bits_lt ..)
  · rw [State.rd_put_self w2]
    exact Fld.cut_of_lt (bits_lt ..)
  · rw [State.rd_put_ne w2 (h := by decide) .., State.rd_put_ne w1 (h := by decide) .., State.rd_put_ne hwf (h := by decide) ..]

/-- A write of PCI_CTL: its fields take their values, and a link in L0 retrains where RETRAIN is set (R806). -/
theorem State.rd_pciCtl {s : State} (hwf : Memory.wf s = true) (v : Nat) :
    (s.pciCtl v).rd F.PCI_CTL_L0P_INIT = bits v 0 1 ∧ (s.pciCtl v).rd F.PCI_CTL_L0P_WIDTH = bits v 1 2 ∧
      (s.pciCtl v).rd F.PCI_CTL_MAX_SPEED = bits v 4 3 ∧ (s.pciCtl v).rd F.PCI_STAT_LTSSM =
        (if bit v 8 = true ∧ s.rd F.PCI_STAT_LTSSM = 0x13 then 0x0B else s.rd F.PCI_STAT_LTSSM) := by
  obtain ⟨h1, h2, h3, h4⟩ := State.rd_pciSettings hwf v
  have w := State.wf_pciSettings hwf v
  rw [State.pciCtl_eq, h4]
  by_cases h : bit v 8 = true ∧ s.rd F.PCI_STAT_LTSSM = 0x13
  · rw [if_pos h, if_pos h]
    exact ⟨(State.rd_put_ne w (h := by decide) ..).trans h1, (State.rd_put_ne w (h := by decide) ..).trans h2,
      (State.rd_put_ne w (h := by decide) ..).trans h3, State.rd_put_self w ..⟩
  · rw [if_neg h, if_neg h]
    exact ⟨h1, h2, h3, h4⟩

/-- Settles O30: each command's guard holds, and its effect is the named operation; what registers show after it is read off the
writes. -/
theorem pciePort : Obligations.PciePort := by
  intro s hl
  refine ⟨?_, ?_, ?_, ?_, ?_, ?_, ?_, ?_, ?_, ?_, ?_, ?_, ?_⟩
  · exact fun h => hl.exec_perstNAssert h
  · exact fun h => hl.exec_perstNRise h
  · intro h
    exact State.next_when hl.runs (State.on_of_rd_one h)
  · intro h
    exact State.next_when hl.runs (State.on_of_rd_one h)
  · intro fn hfn hex hup hflr
    refine (State.next_when hl.runs ?_).trans ?_
    · simp [hex, State.on_of_rd_one hup, State.on_of_rd_zero hflr]
    · simp only [hfn, if_false]; rfl
  · intro hup hex hflr
    have hwf := State.wf_flr hl.wf (fun f => f == 0) (fun f => f == 0)
    refine ⟨_, State.next_when hl.runs (by simp [hex, State.on_of_rd_one hup, State.on_of_rd_zero hflr]), ?_, ?_⟩
    · exact State.rd_put_self (State.wf_put hwf ..) ..
    · exact (State.rd_put_ne (State.wf_put hwf ..) (h := by decide) ..).trans (State.rd_put_self hwf ..)
  · exact fun fn us h => hl.flrDone h
  · intro hap hready
    exact State.next_when hl.runs (by simp [hap, State.on_of_rd_zero hready])
  · intro speed width m w rev hready hperst hltssm hw
    refine (State.next_when hl.runs ?_).trans ?_
    · simp [State.on_of_rd_one hready, hperst, hltssm]
    · simp only [hw]
  · intro w hok hw hle hne
    have e := hl.l0pHostRequest hok hw hle
    obtain ⟨h1, h2, h3⟩ := State.rd_l0pTo hl.wf hne (by omega)
    exact ⟨_, e, h1, h2, h3, (execL0pHostRequest_keeps (by decide) _ e).touches⟩
  · intro w hw hok hinit hlt
    subst hw
    have e : exec .l0pNarrow s = .next (s.l0pTo (8 / 2 ^ s.rd F.PCI_CTL_L0P_WIDTH)) :=
      State.next_when hl.runs (by simp [hok, State.on_of_rd_one hinit, hlt])
    have hle : 8 / 2 ^ s.rd F.PCI_CTL_L0P_WIDTH ≤ 8 := Nat.div_le_self ..
    obtain ⟨h1, -, h3⟩ := State.rd_l0pTo hl.wf (Nat.ne_of_lt hlt) (by omega)
    exact ⟨_, e, h1, h3, (execL0pNarrow_keeps (by decide) _ e).touches⟩
  · intro hok hl0p hlt hne
    have e : exec .l0pWiden s = .next (s.l0pTo s.pci.fullWidth) :=
      State.next_when hl.runs (by simp [hok, State.on_of_rd_one hl0p])
    obtain ⟨h1, h2, -⟩ := State.rd_l0pTo hl.wf hne.symm hlt
    exact ⟨_, e, h1, h2.trans (if_neg (Nat.lt_irrefl _)), (execL0pWiden_keeps (by decide) _ e).touches⟩
  · intro req v hmay
    have e : exec (.pcieRetrain req v) s = .next (s.pciCtl v) :=
      (State.next_when hl.runs rfl).trans (congrArg _ (hmay.byReq_eq _))
    obtain ⟨h1, h2, h3, h4⟩ := State.rd_pciCtl hl.wf v
    exact ⟨_, e, h1, h2, h3, h4,
      (execPcieRetrain_keeps (by decide) (by decide) (by decide) (by decide) (by decide) _ e).touches⟩

/-! ### Resets of the whole part -/

/-- Some die's last reading is 100 °C or more, which holds the reset of a part that tripped (R870). -/
def State.hotDie (s : State) : Prop := ∃ x, some x ∈ s.cfg.temps ∧ 100 ≤ x

/-- Nothing holds the power-on reset of a part that has not tripped or is cool. -/
theorem exec_powerOnReset_of_cool {s : State} (h : s.cfg.tripped = false ∨ ¬ s.hotDie) (role slot : Nat) (ref : Bool) :
    exec (.powerOnReset role slot ref) s =
      .next (State.loadStart { s.partReset.tapReset with cfg.tripped := false } role slot ref) := by
  refine congrArg Host.Outcome.next (if_neg fun hot => ?_)
  obtain ⟨htrip, hany⟩ := Bool.and_eq_true_iff.1 hot
  obtain ⟨t, ht, hx⟩ := List.any_eq_true.1 hany
  rcases h with h | h
  · exact Bool.false_ne_true (h.symm.trans htrip)
  · cases t with
    | none => exact Bool.false_ne_true hx
    | some x => exact h ⟨x, ht, of_decide_eq_true hx⟩

theorem exec_powerOnReset_of_hot {s : State} (htrip : s.cfg.tripped = true) (hot : s.hotDie) (role slot : Nat) (ref : Bool) :
    exec (.powerOnReset role slot ref) s = .next s := by
  obtain ⟨x, hx, h100⟩ := hot
  refine congrArg Host.Outcome.next (if_pos (Bool.and_eq_true_iff.2 ⟨htrip, List.any_eq_true.2 ⟨some x, hx, ?_⟩⟩))
  exact decide_eq_true h100

/-- A pulse of CFG_PROG_N loads again where neither the power-on reset nor a test instruction holds the part (R48). -/
theorem State.progN_of_free {s : State} (hheld : s.cfg.held = false) (htest : s.cfg.test = false) (r role slot : Nat)
    (ref : Bool) : s.progN r role slot ref = (s.leave r).partReset.loadStart role slot ref :=
  if_neg (by simp [hheld, htest])

theorem State.reload_of_allowed {s : State} (hpol : s.polReload = true) (hdone : s.cfg.done = true) (req : Req) :
    s.reload req 0xA5 = (s.progN 2 s.cfg.pinRole s.cfg.pinSlot (s.on F.CLK_STAT_LOCAL_OK)).progPull :=
  if_pos ⟨rfl, hpol, hdone⟩

theorem State.reload_of_refused {s : State} {v : Nat} (h : v ≠ 0xA5 ∨ s.polReload = false ∨ s.cfg.done = false) (req : Req) :
    s.reload req v = s.refuseWrite req (F.CFG_RELOAD.off 0 0) := by
  refine if_neg fun ⟨hv, hpol, hdone⟩ => ?_
  rcases h with h | h | h
  · exact h hv
  · simp [h] at hpol
  · simp [h] at hdone

theorem exec_cfgReload_of_mayWrite {s : State} (hd : s.dark = false) {req : Req} (h : s.mayWrite req (F.CFG_RELOAD.off 0 0))
    (x : ReloadIn) : exec (.cfgReload req x) s =
      .next (State.reload { s with cfg.pinRole := x.role % 4, cfg.pinSlot := x.slot % 4 } req x.value) :=
  (State.next_when hd rfl).trans (congrArg _ (h.byReq_eq _))

/-! ### Temperature -/

/-- The second reading of 115 °C or more in a row asserts the power-on reset (R870). -/
theorem exec_thermalRead_of_trip {s : State} {die : Nat} {t u : Int} (hdie : die < 7) (hlast : s.cfg.temps.getD die none = some t)
    (ht : 115 ≤ t) (hu : 115 ≤ u) (hheld : s.cfg.held = false) :
    exec (.thermalRead die u) s = .next (State.assertPor { s with cfg.temps := s.cfg.temps.set die (some u) } true) := by
  refine congrArg Host.Outcome.next ((if_neg (Nat.not_le.2 hdie)).trans (if_pos ⟨by simp [hheld], hu, ?_⟩))
  simp only [hlast]
  exact decide_eq_true ht

/-- A reading below 115 °C of a die that is no media die is kept and changes nothing else. -/
theorem exec_thermalRead_of_cool (s : State) {die : Nat} {u : Int} (hdie : die < 5) (hu : u < 115) :
    exec (.thermalRead die u) s = .next { s with cfg.temps := s.cfg.temps.set die (some u) } :=
  congrArg Host.Outcome.next ((if_neg (by omega)).trans ((if_neg fun ⟨_, h, _⟩ => absurd h (Int.not_le.2 hu)).trans
    (State.when_not (decide_eq_false (Nat.not_le.2 hdie)))))

/-! ### Test instructions -/

theorem State.tapUpdate_touches (s : State) (ir : Nat) (cells : List BCell) : Touches [.tap] s (s.tapUpdate ir cells) :=
  (State.tapUpdate_keeps (by decide) (Keeps.refl s)).touches

/-- Settles O33: what holds a reset is decided by the condition each clause names; the rest is the reset's own definition. -/
theorem partResets : Obligations.PartResets := by
  intro s _
  refine ⟨?_, ?_, ?_, ?_, ?_, ?_, ?_, ?_, ?_, ?_, ?_, ?_, ?_, ?_, ?_, ?_⟩
  · exact fun role slot ref h => exec_powerOnReset_of_cool (.inl h) role slot ref
  · intro role slot ref _ hcool
    exact exec_powerOnReset_of_cool (.inr fun ⟨x, hx, h⟩ => absurd h (Int.not_le.2 (hcool x hx))) role slot ref
  · exact fun role slot ref x htrip hx h => exec_powerOnReset_of_hot htrip ⟨x, hx, h⟩ role slot ref
  · exact fun role slot ref hheld htest => congrArg _ (State.progN_of_free hheld htest 1 role slot ref)
  · have e : exec .railFault s =
        .next { s.partReset.tapReset with cfg.held := true, cfg.tripped := s.cfg.tripped || false } := rfl
    rw [e, Bool.or_false]
  · exact fun die t u hdie hlast ht hu hheld => exec_thermalRead_of_trip hdie hlast ht hu hheld
  · exact fun die u hdie hu => ⟨_, exec_thermalRead_of_cool s hdie hu, rfl, State.touches_cfg ..⟩
  · rintro op cells (rfl | rfl | rfl) <;> rfl
  · rintro op cells (rfl | rfl) <;> rfl
  · exact fun cells => ⟨_, rfl, rfl, State.tapUpdate_touches ..⟩
  · rintro op cells (rfl | rfl) <;> exact ⟨_, rfl, rfl, rfl, State.tapUpdate_touches ..⟩
  · intro role slot ref htest hheld
    exact congrArg Host.Outcome.next ((if_pos htest).trans
      (State.progN_of_free (s := { s.tapReset with cfg.test := false }) hheld rfl 1 role slot ref))
  · intro role slot ref htest
    exact congrArg Host.Outcome.next (if_neg (by rw [show s.tapReset.cfg.test = false from htest]; decide))
  · intro req hd hmay hpol hdone role slot hrole hslot
    rw [exec_cfgReload_of_mayWrite hd hmay]
    simp only [Nat.mod_eq_of_lt hrole, Nat.mod_eq_of_lt hslot]
    exact congrArg _ (State.reload_of_allowed (s := { s with cfg.pinRole := role, cfg.pinSlot := slot }) hpol hdone req)
  · intro req v role slot hd hmay h
    rw [exec_cfgReload_of_mayWrite hd hmay]
    exact congrArg _ (State.reload_of_refused (s := { s with cfg.pinRole := role % 4, cfg.pinSlot := slot % 4 }) h req)
  · intro hd hlock href
    exact State.next_when hd (by simp [State.on_of_rd_one hlock, href])

/-! ### Offsets of the control space -/

/-- The views of the functions lie 64 MiB apart, so that a view's offset names the same register (R175). -/
theorem viewOff_mod (req : Req) (off : Nat) : viewOff req off % 0x4000000 = off % 0x4000000 := by
  cases req with
  | host fn => simp only [viewOff]; split <;> omega
  | landing _ | engine _ | part => rfl

theorem State.answers_viewOff (s : State) (req : Req) (off : Nat) : s.answers (viewOff req off) = s.answers off := by
  simp only [State.answers, viewOff_mod]

theorem ctrlBlock_of_lt {off : Nat} (h : off < 0x2000000) : ctrlBlock off = off / 0x100000 := if_pos h

theorem ctrlReg_of_lt {req : Req} {off : Nat} (h : off < 0x2000000) : ctrlReg req off = viewOff req off := if_pos h

/-- Offset of the word that stands for bit `b` of the register at `reg` of block `blk` (R824). -/
def aliasOff (blk reg b : Nat) : Nat := 0x2000000 + 0x20000 * blk + reg * 32 + b * 4

theorem aliasOff_ge (blk reg b : Nat) : ¬ aliasOff blk reg b < 0x2000000 := by unfold aliasOff; omega

theorem ctrlBlock_aliasOff {blk reg b : Nat} (hr : reg < 0x1000) (h4 : reg % 4 = 0) (hb : b < 32) :
    ctrlBlock (aliasOff blk reg b) = blk := by
  rw [ctrlBlock, if_neg (aliasOff_ge blk reg b)]
  unfold aliasOff
  omega

theorem ctrlReg_aliasOff (req : Req) {blk reg b : Nat} (hr : reg < 0x1000) (h4 : reg % 4 = 0) (hb : b < 32) :
    ctrlReg req (aliasOff blk reg b) = viewOff req (0x100000 * blk + reg) := by
  rw [ctrlReg, if_neg (aliasOff_ge blk reg b)]
  refine congrArg _ ?_
  unfold aliasOff
  omega

theorem aliasOff_bit {blk reg b : Nat} (h4 : reg % 4 = 0) (hb : b < 32) : aliasOff blk reg b % 128 / 4 = b := by
  unfold aliasOff
  omega

/-! ### Writes and reads of the control space -/

/-- A permitted write of a register whose clock runs acts on the register that the requester's view names. -/
theorem State.reqWrite_of_mayWrite {s : State} {req : Req} {off : Nat} (hoff : off < 0x2000000) (hblk : off / 0x100000 < 21)
    (h : s.mayWrite req off) (v : Nat) : s.reqWrite req off v = s.regWrite req (viewOff req off) v := by
  have ha : s.answers (viewOff req off) = true := (s.answers_viewOff req off).trans h.2
  simp only [State.reqWrite, ctrlBlock_of_lt hoff, ctrlReg_of_lt hoff, Nat.not_le.2 hblk, if_false,
    State.writeGate_of_permits h.1 ha, State.ctrlWrite, hoff, if_true]

theorem State.reqWrite_of_denied {s : State} {req : Req} {off : Nat} (hdone : s.cfg.done = true) (hoff : off < 0x2000000)
    (hblk : off / 0x100000 < 21) (h : s.permits req (off / 0x100000) true = false) (v : Nat) :
    s.reqWrite req off v = s.post E.ACCESS_DENIED (reqCode req) (ctrlAddr off) := by
  simp only [State.reqWrite, ctrlBlock_of_lt hoff, Nat.not_le.2 hblk, if_false, State.writeGate_of_denied hdone h]

theorem State.reqWrite_of_reserved {s : State} {req : Req} {off : Nat} (hoff : off < 0x2000000) (hblk : 21 ≤ off / 0x100000)
    (v : Nat) : s.reqWrite req off v = s.unmapped req off := by
  simp only [State.reqWrite, ctrlBlock_of_lt hoff, hblk, if_true]

theorem State.unmapped_of_done {s : State} (hdone : s.cfg.done = true) (req : Req) (off : Nat) :
    s.unmapped req off = s.post E.ADDR_UNMAPPED (reqCode req) (ctrlAddr off) := by
  cases req <;> simp [State.unmapped, hdone]

theorem State.unmapped_of_loading {s : State} (hdone : s.cfg.done = false) (fn off : Nat) : s.unmapped (.host fn) off = s := by
  simp [State.unmapped, hdone]

/-- A permitted write of the word of one bit writes that bit of its register (R825). -/
theorem State.reqWrite_alias {s : State} {req : Req} {blk reg b : Nat} (hblk : blk < 21) (hr : reg < 0x1000) (h4 : reg % 4 = 0)
    (hb : b < 32) (h : s.mayWrite req (0x100000 * blk + reg)) (v : Nat) :
    s.reqWrite req (aliasOff blk reg b) v = s.aliasWrite req (viewOff req (0x100000 * blk + reg)) b v := by
  have hp : s.permits req blk true = true := by
    have e : (0x100000 * blk + reg) / 0x100000 = blk := by omega
    exact e ▸ h.1
  have ha : s.answers (viewOff req (0x100000 * blk + reg)) = true := (s.answers_viewOff ..).trans h.2
  simp only [State.reqWrite, ctrlBlock_aliasOff hr h4 hb, ctrlReg_aliasOff req hr h4 hb, Nat.not_le.2 hblk, if_false,
    State.writeGate_of_permits hp ha, State.ctrlWrite, aliasOff_ge, aliasOff_bit h4 hb]

/-- A word that no register occupies keeps nothing (R811). -/
theorem State.regWrite_of_unoccupied (s : State) (req : Req) {o : Nat} (h : fieldsAt o = []) (v : Nat) :
    s.regWrite req o v = s := by
  simp [State.regWrite, State.regApply, hasTy, h]

theorem State.reqRead_of_permits {s : State} {req : Req} {off : Nat} (hoff : off < 0x2000000) (hblk : off / 0x100000 < 21)
    (hp : s.permits req (off / 0x100000) false = true) (ha : s.answers off = true) :
    s.reqRead req off = s.readWord req (viewOff req off) := by
  simp only [State.reqRead, ctrlBlock_of_lt hoff, ctrlReg_of_lt hoff, Nat.not_le.2 hblk, if_false, hp, State.answers_viewOff, ha,
    not_true_eq_false, State.ctrlRead, hoff, if_true]

/-- A read that the policy does not permit reads 0, with ACCESS_DENIED (R92). -/
theorem State.reqRead_of_denied {s : State} {req : Req} {off : Nat} (hdone : s.cfg.done = true) (hoff : off < 0x2000000)
    (hblk : off / 0x100000 < 21) (hp : s.permits req (off / 0x100000) false = false) :
    s.reqRead req off = (s.post E.ACCESS_DENIED (reqCode req) (ctrlAddr off), 0) := by
  cases req <;> simp [State.reqRead, ctrlBlock_of_lt hoff, Nat.not_le.2 hblk, hp, hdone]

/-- A read of a low word outside the windows of GLB and EVT latches the high word (R817). -/
theorem State.readWord_of_low {s : State} {req : Req} {o : Nat} (h1 : o % 0x4000000 / 0x1000 ≠ 0x10)
    (h2 : ¬ (0x1110 ≤ o % 0x4000000 / 0x1000 ∧ o % 0x4000000 / 0x1000 < 0x1130)) (ha : s.answers o = true)
    (hrs : hasTy o .rs = false) (hrl : hasTy o .rl = true) : s.readWord req o = (s.latch req o, s.word req o) := by
  have n1 : ¬ (0x10000 ≤ o % 0x4000000 ∧ o % 0x4000000 < 0x11000) := by omega
  have n2 : ¬ (0x1110000 ≤ o % 0x4000000 ∧ o % 0x4000000 < 0x1130000) := by omega
  simp only [State.readWord, n1, n2, ha, hrs, hrl, if_false, if_true, not_true_eq_false, Bool.false_eq_true]

theorem Live.exec_registerWrite {s : State} (hl : Live s) {off : Nat} (hoff : off < 0x2000000) (h4 : off % 4 = 0) (req : Req)
    (v : Nat) : exec (.registerWrite req off v) s = .next (s.reqWrite req off v) :=
  State.next_when hl.runs (by simp [hoff, h4])

/-- Settles O34: an access passes permission and gate, and acts on the register that the requester's view names. -/
theorem registerAccesses : Obligations.RegisterAccesses := by
  intro s hl
  refine ⟨?_, ?_, ?_, ?_, ?_, ?_, ?_⟩
  · intro req off v hoff h4 hblk h
    rw [hl.exec_registerWrite hoff h4, State.reqWrite_of_mayWrite hoff hblk h]
  · intro req off v hoff h4 hblk h hnone
    rw [hl.exec_registerWrite hoff h4, State.reqWrite_of_mayWrite hoff hblk h, State.regWrite_of_unoccupied s req hnone]
  · intro req off v hoff h4 hblk hdone
    rw [hl.exec_registerWrite hoff h4, State.reqWrite_of_reserved hoff hblk, State.unmapped_of_done hdone]
  · intro fn off v hoff h4 hblk hdone
    rw [hl.exec_registerWrite hoff h4, State.reqWrite_of_reserved hoff hblk, State.unmapped_of_loading hdone]
  · intro req blk reg b v hblk hr h4 hb h
    refine (State.next_when hl.runs ?_).trans (congrArg _ (State.reqWrite_alias hblk hr h4 hb h v))
    simp only [Bool.and_eq_true, decide_eq_true_eq, beq_iff_eq]
    exact ⟨⟨⟨by omega, hr⟩, h4⟩, hb⟩
  · intro req off hoff hblk hw1 hw2 hrl hrs hp ha
    have hmod : viewOff req off % 0x4000000 = off := (viewOff_mod req off).trans (Nat.mod_eq_of_lt (by omega))
    have hread : s.reqRead req off = (s.latch req (viewOff req off), s.word req (viewOff req off)) :=
      (State.reqRead_of_permits hoff hblk hp ha).trans (State.readWord_of_low (by rw [hmod]; exact hw1) (by rw [hmod]; exact hw2)
        ((s.answers_viewOff req off).trans ha) hrs hrl)
    refine ⟨_, (State.next_when hl.runs ?_).trans (congrArg _ (congrArg Prod.fst hread)), rfl, ?_⟩
    · simp only [hoff, ctrlReg_of_lt hoff, hrl, decide_true, Bool.and_self]
    · exact (State.latch_keeps (by decide) (Keeps.refl s)).touches
  · intro req v h
    exact (State.next_when hl.runs rfl).trans (congrArg _ (h.byReq_eq _))

/-! ### Accesses of a host -/

/-- The PF may always read GLB and CFG (R91). -/
theorem State.permits_pf_read {s : State} (hdone : s.cfg.done = true) {blk : Nat} (hblk : blk < 2) :
    s.permits (.host 0) blk false = true := by
  by_cases h : s.access (.host 0) blk = 3 <;> simp [State.permits, State.perm, hdone, hblk, h]

/-- A write of a block that a requester may only read is not permitted (R92). -/
theorem State.permits_of_readOnly {s : State} {req : Req} {blk : Nat} (h : s.perm req blk = 1) :
    s.permits req blk true = false := by
  simp [State.permits, h]

/-- A request to BAR0 of a function that is there, with its Memory Space Enable set, is taken DW by DW (R793, R794). -/
theorem Live.exec_bar0 {s : State} (hl : Live s) {fn : Nat} (hup : s.rd F.PCI_STAT_DL_UP = 1) (hres : s.pci.inReset = false)
    (hflr : s.rd F.PCI_FN_STAT_FLR fn = 0) (hfn : s.fnExists fn = true) (hmse : s.rd F.PCI_FN_STAT_MSE fn = 1) (off : Nat)
    (write : Bool) (dws : List (Nat × Nat)) :
    exec (.hostBarAccess fn 0 off write dws) s = .next (
      let r := s.bar0All fn write (off / 4 * 4 % 0x4000000) dws
      if write then r.1 else { r.1 with out := r.1.out ++ [.barCpl fn true r.2] }) := by
  refine (State.next_when hl.runs ?_).trans ?_
  · simp [State.on_of_rd_one hup, hres, State.on_of_rd_zero hflr]
  · simp only [hfn, State.on_of_rd_one hmse, not_true_eq_false, true_or, or_false, if_false, if_true]

/-- An aligned DW of BAR0 below the MSI-X table, as the port forms its offset. -/
theorem bar0_offset {off : Nat} (h4 : off % 4 = 0) (hoff : off < 0x1010000) : off / 4 * 4 % 0x4000000 = off := by omega

theorem inMsix_of_lt {off : Nat} (hoff : off < 0x1010000) : inMsix off = false := by
  simp [inMsix, Nat.not_le.2 hoff]

theorem State.bar0All_read_of_denied {s : State} {fn off : Nat} (hdone : s.cfg.done = true) (hoff : off < 0x1010000)
    (hblk : off / 0x100000 < 21) (hp : s.permits (.host fn) (off / 0x100000) false = false) (v be : Nat) :
    s.bar0All fn false off [(v, be)] = (s.post E.ACCESS_DENIED fn (ctrlAddr off), 0) := by
  have hread := State.reqRead_of_denied (req := .host fn) hdone (by omega) hblk hp
  simp only [State.bar0All, State.bar0, inMsix_of_lt hoff, hread, Bool.false_eq_true, false_and, if_false, Nat.mul_zero,
    Nat.add_zero, reqCode]

theorem State.bar0All_write_of_denied {s : State} {fn off : Nat} (hdone : s.cfg.done = true) (hoff : off < 0x1010000)
    (hblk : off / 0x100000 < 21) (hp : s.permits (.host fn) (off / 0x100000) true = false) (v : Nat) :
    (s.bar0All fn true off [(v, 15)]).1 = s.post E.ACCESS_DENIED fn (ctrlAddr off) := by
  have hwrite := State.reqWrite_of_denied (req := .host fn) hdone (by omega) hblk hp (v % 2 ^ 32)
  simp only [State.bar0All, State.bar0, Nat.reduceMod, ne_eq, not_true_eq_false, and_false, inMsix_of_lt hoff, hwrite,
    Bool.false_eq_true, false_and, if_false, if_true, reqCode]

/-- Settles O57: a denied access posts ACCESS_DENIED and does nothing else, whether a requester names a register or a host's
request reaches it through BAR0. -/
theorem deniedAccesses : Obligations.DeniedAccesses := by
  intro s hl hdone
  refine ⟨State.permits_pf_read hdone (by decide), State.permits_pf_read hdone (by decide),
    fun req blk => State.permits_of_readOnly, ?_, ?_, ?_, ?_⟩
  · intro req off v hoff h4 hblk hp
    rw [hl.exec_registerWrite hoff h4, State.reqWrite_of_denied hdone hoff hblk hp]
  · exact fun req off hoff hblk hp => State.reqRead_of_denied hdone hoff hblk hp
  · intro fn off be hup hres hflr hfn hmse h4 hoff hblk hp t
    rw [hl.exec_bar0 hup hres hflr hfn hmse, bar0_offset h4 hoff, State.bar0All_read_of_denied hdone hoff hblk hp]
    rfl
  · intro fn off v hup hres hflr hfn hmse h4 hoff hblk hp
    rw [hl.exec_bar0 hup hres hflr hfn hmse, bar0_offset h4 hoff]
    exact congrArg _ (State.bar0All_write_of_denied hdone hoff hblk hp v)

/-! ### The header and the segments of an image -/

/-- The header's first 8 KiB are judged by checks 1 to 6 (R50). -/
theorem Live.exec_headerReceived {s : State} (hl : Live s) {img : FullImg} (hload : s.loading = true)
    (hok : s.cfg.headerOk = false) (himg : s.cfg.img = none) (hbase : s.driver = false ∨ img.addr = s.imageBase) :
    exec (.headerReceived img) s = .next ((s.headerRead img).headerChecked img) := by
  refine State.next_when hl.runs ?_
  rcases hbase with h | h <;> simp [hload, hok, himg, h]

theorem State.authenticate_of_noHeader {s : State} (h : s.cfg.img = none) : s.authenticate = s := by
  simp only [State.authenticate, h]

/-- Checks 7 to 9 of the header that a running load holds: the first that fails ends the load, else its table is taken
(Table BOT-6). -/
theorem State.authenticate_of_header {s : State} {img : FullImg} (himg : s.cfg.img = some img) (hload : s.loading = true) :
    s.authenticate = (s.authFail img).elim (s.headerTaken img) s.loadFail := by
  simp only [State.authenticate, himg, hload, not_true_eq_false, if_false]
  cases s.authFail img <;> rfl

/-- The load waits for its stored segments: its header is authenticated, and entry `i` of the table, `e`, arrives next. -/
structure State.Awaits (s : State) (e : SegEnt) (i : Nat) : Prop where
  loading : s.loading = true
  header : s.cfg.headerOk = true
  judged : s.cfg.img = none
  going : s.cfg.ready = false
  next : s.nextSeg = some (e, i)

/-- Its last byte arrives, read from where it lies; a PRELOAD segment comes after the hold of R77. -/
theorem State.Awaits.exec_segmentReceived {s : State} {e : SegEnt} {i v : Nat} {x : SegSense} (hw : s.Awaits e i) (hl : Live s)
    (hhold : e.ty ≠ 6 ∨ s.cfg.preloadOk = true) (haddr : x.addr = s.cfg.base + e.off) :
    exec (.segmentReceived v x) s = .next (s.segmentArrived e i v x) := by
  refine (State.next_when hl.runs rfl).trans (congrArg _ ?_)
  have hfree : ¬ (x.addr ≠ s.cfg.base + e.off ∨
      (e.ty == 6 && !s.cfg.preloadOk && s.cfg.segs.any (fun y => y.ty == 3)) = true) := by
    rcases hhold with h | h <;> simp [haddr, h]
  simp only [State.authenticate_of_noHeader hw.judged, hw.loading, hw.header, hw.going, hw.next, hfree, not_true_eq_false,
    Bool.false_eq_true, or_self, if_false]

/-- Bytes from another place of the stream are not the segment (R60). -/
theorem State.Awaits.exec_segmentReceived_elsewhere {s : State} {e : SegEnt} {i v : Nat} {x : SegSense} (hw : s.Awaits e i)
    (hl : Live s) (haddr : x.addr ≠ s.cfg.base + e.off) : exec (.segmentReceived v x) s = .next s := by
  refine (State.next_when hl.runs rfl).trans (congrArg _ ?_)
  simp only [State.authenticate_of_noHeader hw.judged, hw.loading, hw.header, hw.going, hw.next, haddr, not_true_eq_false,
    Bool.false_eq_true, or_self, if_false, ne_eq, not_false_eq_true, true_or, if_true]

/-- Of a segment that has arrived the hash is judged first, then the layout, and then it takes effect (R72 to R75). -/
theorem State.segmentArrived_cases (s : State) (e : SegEnt) (i v : Nat) (x : SegSense) :
    let b := segBody e.ty e.len e.param v x
    let r := State.stage1 { s with cfg.pos := e.off + e.len } e b.1
    (shaNat e.len v ≠ e.hash → s.segmentArrived e i v x = r.1.loadFail 0x0A) ∧
    (shaNat e.len v = e.hash → b.2 = false ∨ r.2 = false → s.segmentArrived e i v x = r.1.loadFail 0x09) ∧
    (shaNat e.len v = e.hash → b.2 = true → r.2 = true → s.segmentArrived e i v x = r.1.segmentTaken e i b.1 x.off) := by
  intro b r
  have e : s.segmentArrived e i v x = (if shaNat e.len v ≠ e.hash then r.1.loadFail 0x0A
      else if ¬ b.2 ∨ ¬ r.2 then r.1.loadFail 0x09 else r.1.segmentTaken e i b.1 x.off) := rfl
  rw [e]
  clear_value b r
  refine ⟨fun h => if_pos h, fun h hbad => ?_, fun h hb hr => ?_⟩
  · rcases hbad with hb | hr
    · simp [h, hb]
    · simp [h, hr]
  · simp [h, hb, hr]

/-! ### The streams of a load group -/

/-- The primary stream of a driver has reached its end, and its own load waits for no part of it. -/
structure State.StreamOver (s : State) : Prop where
  driver : s.driver = true
  selected : s.cfg.csActive = true
  primary : s.cfg.fbStream = false
  waitsNoMore : s.loading = false ∨ s.cfg.headerOk = true ∧ s.nextSeg = none

theorem State.StreamOver.exec_primaryStreamEnd {s : State} (h : s.StreamOver) (hl : Live s) :
    exec .primaryStreamEnd s = .next (
      let t : State := { s with cfg.pos := max s.cfg.pos s.streamEnd }
      if (s.cfg.syncLatch || s.cfg.failed) && !s.cfg.fbUsed then t.fallbackStream else { t with cfg.csActive := false }) := by
  refine State.next_when hl.runs ?_
  rcases h.waitsNoMore with ho | ⟨hok, hnext⟩
  · simp [h.driver, h.selected, h.primary, ho]
  · simp [h.driver, h.selected, h.primary, hok, hnext]

/-- At the first read of the fallback image a listener releases CFG_SYNC_N; one whose load failed loads it (R66). -/
theorem Live.exec_fallbackFirstRead {s : State} (hl : Live s) (hd : s.driver = false) (hr : s.refused = false) :
    exec .fallbackFirstRead s = .next (
      let t : State := { s with cfg.syncPull := false }
      if s.cfg.failed = true ∧ ¬ s.cfg.fallback = true then t.fallbackLoad else t) :=
  State.next_when hl.runs (by simp [hd, hr])

/-- Settles O37: each command's guard holds, and its effect is the named step of the load. -/
theorem imageLoad : Obligations.ImageLoad := by
  intro s hl
  refine ⟨?_, ?_, ?_, ?_, ?_, ?_, ?_, ?_, ?_, ?_, ?_, ?_, ?_, ?_, ?_⟩
  · exact fun img hload hok himg hbase => (hl.exec_headerReceived hload hok himg hbase).trans rfl
  · intro img hload himg
    rw [State.authenticate_of_header himg hload]
    cases s.authFail img <;> rfl
  · intro e i v x hload hok himg hready hnext hhold haddr b r
    have hexec := State.Awaits.exec_segmentReceived (v := v) ⟨hload, hok, himg, hready, hnext⟩ hl hhold haddr
    obtain ⟨hhash, hlayout, htaken⟩ := s.segmentArrived_cases e i v x
    exact ⟨fun h => hexec.trans (congrArg _ (hhash h)), fun h hbad => hexec.trans (congrArg _ (hlayout h hbad)),
      fun h hb hr => hexec.trans (congrArg _ (htaken h hb hr))⟩
  · exact fun e i v x hload hok himg hready hnext haddr =>
      State.Awaits.exec_segmentReceived_elsewhere ⟨hload, hok, himg, hready, hnext⟩ hl haddr
  · intro hload hok hsegs
    refine ⟨_, State.next_when hl.runs ?_, rfl, s.touches_cfg _⟩
    simp only [hload, hok, Bool.true_and, List.all_eq_true]
    intro x hx
    by_cases h : s.stores x = true ∧ x.ty = 3
    · simp [hsegs x hx h.1 h.2]
    · have hno : (s.stores x && x.ty == 3) = false := by simpa using h
      rw [hno]; rfl
  · exact fun k hload hok hst hdone => State.next_when hl.runs (by simp [hload, hok, hst, hdone])
  · exact fun k hload hok hst hdone => State.next_when hl.runs (by simp [hload, hok, hst, hdone])
  · exact fun tracts hours0 hours1 lib hload hready => State.next_when hl.runs (by simp [hload, hready])
  · exact fun hload hdriver hcs => State.next_when hl.runs (by simp [hload, hdriver, hcs])
  · exact fun hdriver hcs hfb => ⟨_, State.next_when hl.runs (by simp [hdriver, hcs, hfb]), rfl, s.touches_cfg _⟩
  · intro hdriver hcs hfb hover hwant hused
    refine (State.StreamOver.exec_primaryStreamEnd ⟨hdriver, hcs, hfb, hover⟩ hl).trans (congrArg _ (if_pos ?_))
    rcases hwant with h | h <;> simp [h, hused]
  · intro hdriver hcs hfb hover hnone
    have hstay : ¬ ((s.cfg.syncLatch || s.cfg.failed) && !s.cfg.fbUsed) = true := by
      rcases hnone with ⟨h1, h2⟩ | h
      · simp [h1, h2]
      · simp [h]
    exact ⟨_, (State.StreamOver.exec_primaryStreamEnd ⟨hdriver, hcs, hfb, hover⟩ hl).trans (congrArg _ (if_neg hstay)), rfl,
      s.touches_cfg _⟩
  · intro hdriver hrefused hfailed hfb
    exact (hl.exec_fallbackFirstRead hdriver hrefused).trans (congrArg _ (if_pos ⟨hfailed, by simp [hfb]⟩))
  · intro hdriver hrefused h
    refine ⟨_, (hl.exec_fallbackFirstRead hdriver hrefused).trans (congrArg _ (if_neg ?_)), rfl, s.touches_cfg _⟩
    rcases h with h | h <;> simp [h]
  · exact fun h => ⟨_, State.next_when hl.runs h, rfl, s.touches_cfg _⟩

end Sys2Proof.Machine

/-! PROOFS. The protocol of queues and commands: the I/O commands over ranges, queue pairs and doorbells, the mailbox and the
ledger, the admin commands, and the PCIe functions and requests that carry them. -/

namespace Sys2Proof.Machine
open Sys2Proof

/-! ### FLUSH, TRIM and WRITE_ZEROES -/

/-- Settles O3: a command that runs enters its step as it is; when its pages are there, the step ends its work. -/
theorem rangeCommandsEnd : Obligations.RangeCommandsEnd := by
  intro s hl k c
  refine ⟨?_, ?_, ?_⟩
  · intro hr
    refine (State.next_when hl.runs rfl).trans (congrArg _ ?_)
    simp only [hr.ioEnter_eq]
  · intro t u hr ht w htrim
    refine (State.next_when hl.runs rfl).trans (congrArg _ ?_)
    simp only [hr.ioEnter_eq, ht]
    rw [htrim]
    rfl
  · intro t u hr ht hsegs tr w runs hover hroom htrim z
    have hfree : ¬ (c.segs ≠ [] ∨ s.writesOver k t (max 1 tr.perIu) (sqLba c.sqe) (sqLen c.sqe) = true ∨
        runs.any (fun p => (s.lineRoom t p.2.1 p.2.2).isNone) = true) := by
      rintro (h | h | h)
      · exact h hsegs
      · simp [hover] at h
      · obtain ⟨p, hp, hnone⟩ := List.any_eq_true.1 h
        have hsome := List.all_eq_true.1 hroom p hp
        simp [Option.isNone_iff_eq_none.1 hnone] at hsome
    refine (State.next_when hl.runs rfl).trans (congrArg _ ?_)
    simp only [hr.ioEnter_eq, ht]
    rw [if_neg hfree, htrim]
    rfl

/-! ### Doorbells -/

/-- A tail that a live queue can hold makes its entries available (R108). -/
theorem State.sqDoorbell_of_valid {s : State} {fn q v : Nat} (hlive : (s.qp fn q).live = true) (hv : v < (s.qp fn q).sqSize) :
    s.sqDoorbell fn q v = s.updQp fn q (fun p => { p with sqTail := v, stop := if p.stop = 8 then 0 else p.stop }) := by
  simp [State.sqDoorbell, hlive, Nat.not_le.2 hv]

theorem State.sqDoorbell_of_invalid {s : State} {fn q v : Nat} (h : (s.qp fn q).live = false ∨ (s.qp fn q).sqSize ≤ v) :
    s.sqDoorbell fn q v = s.doorbellBad fn q v := by
  rcases h with h | h <;> simp [State.sqDoorbell, h]

/-- A head that gives back no more entries than are used moves the head (R108). -/
theorem State.cqDoorbell_of_valid {s : State} {fn q v : Nat} (hlive : (s.qp fn q).live = true) (hv : v < (s.qp fn q).cqSize)
    (hn : (v + (s.qp fn q).cqSize - (s.qp fn q).cqHead) % (s.qp fn q).cqSize ≤ (s.qp fn q).cqUsed) :
    s.cqDoorbell fn q v = s.updQp fn q (fun p => { p with
      cqHead := v, cqUsed := p.cqUsed - (v + (s.qp fn q).cqSize - (s.qp fn q).cqHead) % (s.qp fn q).cqSize }) := by
  simp [State.cqDoorbell, hlive, Nat.not_le.2 hv, Nat.not_lt.2 hn]

/-- A doorbell that is discarded is counted (R109). -/
theorem State.rd_doorbellBad {s : State} (w : Memory.wf s = true) (fn q v : Nat) :
    (s.doorbellBad fn q v).rd F.QQP_DB_ERRORS fn = min (s.rd F.QQP_DB_ERRORS fn + 1) (2 ^ 32 - 1) :=
  (State.rd_post (State.wf_bump w ..) (h := by decide) ..).trans (State.rd_bump_self w ..)

/-- A write of a submission queue's doorbell acts at once while the gate of its polder is open. -/
theorem Live.exec_sqTailDoorbell {s : State} (hl : Live s) (hgate : s.rd F.CLK_GATE_OPEN 80 = 1) (fn q v : Nat) :
    exec (.sqTailDoorbell fn q v) s = .next (s.sqDoorbell fn q v) :=
  (State.next_when hl.runs rfl).trans (congrArg _ (if_pos (State.on_of_rd_one hgate)))

theorem Live.exec_cqHeadDoorbell {s : State} (hl : Live s) (hgate : s.rd F.CLK_GATE_OPEN 80 = 1) (fn q v : Nat) :
    exec (.cqHeadDoorbell fn q v) s = .next (s.cqDoorbell fn q v) :=
  (State.next_when hl.runs rfl).trans (congrArg _ (if_pos (State.on_of_rd_one hgate)))

/-! ### Queue pairs -/

/-- The two bits that end the start of an admin queue pair are two fields of its function's QQP_STAT. -/
theorem ready_key_ne_cfgErr (fn : Nat) : F.QQP_STAT_READY.key fn 0 ≠ F.QQP_STAT_CFG_ERR.key fn 0 := by
  simp only [Fld.key, Fld.blk, F.QQP_STAT_READY, F.QQP_STAT_CFG_ERR]
  omega

/-- The admin queue pair of a function as its start leaves it: its sizes are those of QQP_AQ_SIZE (R105). -/
def State.adminQp (s : State) (fn : Nat) : Qp :=
  { live := true, sqSize := s.rd F.QQP_AQ_SIZE_ASQS fn + 1, cqSize := s.rd F.QQP_AQ_SIZE_ACQS fn + 1, irqEn := true }

/-- The start of an admin queue pair ends with READY, or with CFG_ERR for a base that is not aligned (R105). -/
theorem Live.exec_adminQueueReady {s : State} (hl : Live s) {fn : Nat} (hen : s.rd F.QQP_CTL_ENABLE fn = 1)
    (hready : s.rd F.QQP_STAT_READY fn = 0) (herr : s.rd F.QQP_STAT_CFG_ERR fn = 0) :
    exec (.adminQueueReady fn) s = .next (if s.sqBase fn 0 % 4096 = 0 ∧ s.cqBase fn 0 % 4096 = 0
      then (s.put F.QQP_STAT_READY 1 fn).updQp fn 0 (fun _ => s.adminQp fn) else s.put F.QQP_STAT_CFG_ERR 1 fn) := by
  refine (State.next_when hl.runs ?_).trans (congrArg _ ?_)
  · simp [State.on_of_rd_one hen, State.on_of_rd_zero hready, State.on_of_rd_zero herr]
  · by_cases h : s.sqBase fn 0 % 4096 = 0 ∧ s.cqBase fn 0 % 4096 = 0
    · rw [if_pos h, if_neg (by simp [h])]; rfl
    · rw [if_neg h, if_pos (by simpa only [ne_eq, Decidable.not_and_iff_or_not] using h)]

/-- Settles O9: each command's guard holds, and its effect is the named change of the queue pair. -/
theorem queuePairs : Obligations.QueuePairs := by
  intro s hl
  refine ⟨?_, ?_, ?_, ?_, ?_, ?_, ?_, ?_, ?_⟩
  · intro fn hfn hoff hres hflr
    have e : exec (.adminQueueEnable fn) s = .next (s.put F.QQP_CTL_ENABLE 1 fn) := by
      refine (State.next_when hl.runs rfl).trans (congrArg _ (State.when_live ?_ hl.runs))
      simp [hfn, hres, State.on_of_rd_zero hoff, State.on_of_rd_zero hflr]
    exact ⟨_, e, State.rd_put_self hl.wf .., (execAdminQueueEnable_keeps (by decide) _ e).touches⟩
  · intro fn hen hready herr
    have e := hl.exec_adminQueueReady hen hready herr
    refine ⟨_, e, ?_, (execAdminQueueReady_keeps (by decide) (by decide) _ e).touches⟩
    by_cases h : s.sqBase fn 0 % 4096 = 0 ∧ s.cqBase fn 0 % 4096 = 0
    · rw [if_pos h, if_pos h]
      exact ⟨State.rd_put_self hl.wf .., (State.rd_put_ne hl.wf (h := (ready_key_ne_cfgErr fn).symm) ..).trans herr, rfl⟩
    · rw [if_neg h, if_neg h]
      exact ⟨(State.rd_put_ne hl.wf (h := ready_key_ne_cfgErr fn) ..).trans hready, State.rd_put_self hl.wf .., rfl⟩
  · exact fun fn hen => State.next_when hl.runs (State.on_of_rd_one hen)
  · exact fun fn q v hgate hlive hv =>
      (hl.exec_sqTailDoorbell hgate fn q v).trans (congrArg _ (State.sqDoorbell_of_valid hlive hv))
  · exact fun fn q v hgate hlive hv hn =>
      (hl.exec_cqHeadDoorbell hgate fn q v).trans (congrArg _ (State.cqDoorbell_of_valid hlive hv hn))
  · intro fn q v hgate hbad
    refine ⟨_, (hl.exec_sqTailDoorbell hgate fn q v).trans (congrArg _ (State.sqDoorbell_of_invalid hbad)),
      State.rd_doorbellBad hl.wf .., ?_⟩
    exact (State.doorbellBad_keeps (by decide) (by decide) (by decide) (by decide) (by decide) (Keeps.refl s)).touches
  · intro fn q es hq hfetch hnext
    refine (State.next_when hl.runs (by simp [hfetch, hnext])).trans (congrArg _ ?_)
    simp only [hq, if_false]
  · intro k c o hk hcmd hout hstop hord hpost
    refine (State.next_when hl.runs rfl).trans (congrArg _ ?_)
    simp [hcmd, hout, hk, hstop, hord, hpost]
  · intro fn q htimer hpend
    exact State.next_when hl.runs (by simp [htimer, hpend])

/-! ### Writes of several fields -/

/-- Writes each listed field, in order. -/
def State.putEach (s : State) (l : List (Fld × Nat)) : State := l.foldl (fun s x => s.put x.1 x.2) s

theorem State.putEach_keeps {ps : Part → Prop} {s0 s : State} {l : List (Fld × Nat)}
    (hl : ∀ f ∈ l.map Prod.fst, ps (.regs f.blk))
    (h : Keeps ps s0 s) : Keeps ps s0 (s.putEach l) := by
  induction l generalizing s with
  | nil => exact h
  | cons x l ih =>
    obtain ⟨hx, hl⟩ := List.forall_mem_cons.1 hl
    exact ih hl (State.put_keeps hx h)

theorem State.rd_putEach_of_notMem {s : State} (w : Memory.wf s = true) {l : List (Fld × Nat)} {f : Fld}
    (h : f.key 0 0 ∉ (l.map Prod.fst).map (fun g => g.key 0 0)) : (s.putEach l).rd f = s.rd f := by
  induction l generalizing s with
  | nil => rfl
  | cons x l ih =>
    simp only [List.map_cons, List.mem_cons, not_or] at h
    exact (ih (State.wf_put w ..) h.2).trans (State.rd_put_ne w (h := h.1) ..)

/-- Of fields at different places, each reads back what was written. -/
theorem State.rd_putEach_of_mem {s : State} (w : Memory.wf s = true) {l : List (Fld × Nat)}
    (hd : ((l.map Prod.fst).map (fun g => g.key 0 0)).Nodup) : ∀ x ∈ l, (s.putEach l).rd x.1 = x.1.cut x.2 := by
  induction l generalizing s with
  | nil => exact fun x h => absurd h List.not_mem_nil
  | cons y l ih =>
    obtain ⟨hy, hd⟩ := List.nodup_cons.1 hd
    intro x h
    rcases List.mem_cons.1 h with rfl | h
    · exact (State.rd_putEach_of_notMem (State.wf_put w ..) hy).trans (State.rd_put_self w ..)
    · exact ih (State.wf_put w ..) hd x h

/-! ### The result of a register command -/

/-- The fields of GLB_RESULT other than SEQ. -/
def resultFlds : List Fld :=
  [F.GLB_RESULT_LO_VALID, F.GLB_RESULT_LO_STATUS, F.GLB_RESULT_LO_OPCODE, F.GLB_RESULT_HI_CID, F.GLB_RESULT_HI_RESULT]

/-- What a result that is shown writes. -/
def State.resultVals (s : State) (st op cid res : Nat) : List (Fld × Nat) :=
  [(F.GLB_RESULT_LO_VALID, 1), (F.GLB_RESULT_LO_SEQ, s.rd F.GLB_RESULT_LO_SEQ + 1), (F.GLB_RESULT_LO_STATUS, st),
    (F.GLB_RESULT_LO_OPCODE, op), (F.GLB_RESULT_HI_CID, cid), (F.GLB_RESULT_HI_RESULT, res)]

theorem State.showResult_eq (s : State) (st op cid res : Nat) :
    s.showResult st op cid res = s.putEach (s.resultVals st op cid res) := rfl

/-- A result that is shown is valid and has the next SEQ (R172). -/
theorem State.rd_showResult {s : State} (w : Memory.wf s = true) {st : Nat} (hst : st < 2 ^ 8) (op cid res : Nat) :
    (s.showResult st op cid res).rd F.GLB_RESULT_LO_VALID = 1 ∧
      (s.showResult st op cid res).rd F.GLB_RESULT_LO_SEQ = (s.rd F.GLB_RESULT_LO_SEQ + 1) % 2 ^ 8 ∧
      (s.showResult st op cid res).rd F.GLB_RESULT_LO_STATUS = st := by
  have hd : (((s.resultVals st op cid res).map Prod.fst).map (fun g => g.key 0 0)).Nodup := by
    simp only [State.resultVals, List.map_cons, List.map_nil]
    decide
  rw [State.showResult_eq]
  refine ⟨State.rd_putEach_of_mem w hd (F.GLB_RESULT_LO_VALID, 1) ?_,
    State.rd_putEach_of_mem w hd (F.GLB_RESULT_LO_SEQ, s.rd F.GLB_RESULT_LO_SEQ + 1) ?_,
    (State.rd_putEach_of_mem w hd (F.GLB_RESULT_LO_STATUS, st) ?_).trans (Fld.cut_of_lt hst)⟩ <;> simp [State.resultVals]

/-- The current SEQ releases the result (R174). -/
theorem State.resultAck_of_seq {s : State} {v : Nat} (hvalid : s.rd F.GLB_RESULT_LO_VALID = 1)
    (hseq : v % 256 = s.rd F.GLB_RESULT_LO_SEQ) : s.resultAck v = s.putEach (resultFlds.map (·, 0)) :=
  if_pos ⟨State.on_of_rd_one hvalid, hseq⟩

/-- Any other value is posted and releases nothing (R840). -/
theorem State.resultAck_of_other {s : State} {v : Nat}
    (h : s.rd F.GLB_RESULT_LO_VALID = 0 ∨ v % 256 ≠ s.rd F.GLB_RESULT_LO_SEQ) :
    s.resultAck v = s.post E.RESULT_ACK_INVALID v := by
  refine if_neg fun ⟨hvalid, hseq⟩ => ?_
  rcases h with h | h
  · rw [State.on_of_rd_zero h] at hvalid; cases hvalid
  · exact h hseq

/-- What a released result leaves: every field but SEQ is 0. -/
theorem State.rd_released {s : State} (w : Memory.wf s = true) :
    (∀ f ∈ resultFlds, (s.putEach (resultFlds.map (·, 0))).rd f = 0) ∧
      (s.putEach (resultFlds.map (·, 0))).rd F.GLB_RESULT_LO_SEQ = s.rd F.GLB_RESULT_LO_SEQ := by
  refine ⟨fun f hf => ?_, State.rd_putEach_of_notMem w (by decide)⟩
  have hd : (((resultFlds.map (·, 0)).map Prod.fst).map (fun g => g.key 0 0)).Nodup := by decide
  exact (State.rd_putEach_of_mem w hd (f, 0) (List.mem_map_of_mem hf)).trans (Nat.zero_mod _)

/-! ### The mailbox -/

theorem Live.exec_mailboxGo {s : State} (hl : Live s) : exec .mailboxGo s = .next (s.mbxGo (.host 0)) :=
  State.next_when hl.runs rfl

/-- The mailbox takes its entry when no result waits and no command of its own runs (R171). -/
theorem State.mbxGo_of_free {s : State} (hres : s.pci.inReset = false) (hvalid : s.rd F.GLB_RESULT_LO_VALID = 0)
    (hbusy : s.qqp.mbxBusy = false) (req : Req) : s.mbxGo req =
      State.admitEntry { s with qqp.mbxBusy := true } 0 0 s.mbxEntry 262144 (s.formatError 0 true s.mbxEntry) := by
  simp only [State.mbxGo, hres, hbusy, State.on_of_rd_zero hvalid, Bool.false_eq_true, or_self, if_false]
  rfl

theorem State.mbxGo_of_busy {s : State} (hres : s.pci.inReset = false) (hbusy : s.qqp.mbxBusy = true) (req : Req) :
    s.mbxGo req = s.refuseWrite req (F.QQP_MBX_GO.off 0 0) := by
  simp only [State.mbxGo, hres, hbusy, Bool.false_eq_true, or_true, if_false, if_true]

/-- Settles O10: a deadline aborts what is still RECEIVED, the mailbox runs one command at a time and shows its result until the
host releases it, and the ledger commands act on the entry of their tag. -/
theorem mailboxAndLedgerCommands : Obligations.MailboxAndLedgerCommands := by
  intro s hl
  refine ⟨?_, ?_, ?_, ?_, ?_, ?_, ?_, ?_, ?_⟩
  · intro k c hcmd hdl hpast hrec
    refine (State.next_when hl.runs rfl).trans (congrArg _ ?_)
    simp only [hcmd]
    exact if_pos ⟨hdl, hpast, hrec⟩
  · exact fun hres hvalid hbusy => hl.exec_mailboxGo.trans (congrArg _ (State.mbxGo_of_free hres hvalid hbusy _))
  · exact fun hres hbusy => hl.exec_mailboxGo.trans (congrArg _ (State.mbxGo_of_busy hres hbusy _))
  · intro c o hcmd hout hres hdel
    refine (State.next_when hl.runs rfl).trans (congrArg _ ?_)
    simp only [hcmd, hout, hres, hdel, Bool.false_eq_true, if_false]
  · intro st op cid res hst t
    obtain ⟨hvalid, hseq, hstatus⟩ := State.rd_showResult hl.wf hst op cid res
    exact ⟨hvalid, hseq, hstatus, (State.showResult_keeps (by decide) (Keeps.refl s)).touches⟩
  · intro v hvalid hseq
    have e : exec (.resultAck v) s = .next (s.putEach (resultFlds.map (·, 0))) :=
      (State.next_when hl.runs rfl).trans (congrArg _ (State.resultAck_of_seq hvalid hseq))
    obtain ⟨hzero, hkept⟩ := State.rd_released hl.wf
    have hk : Keeps (· ∈ [Part.regs 0]) s (s.putEach (resultFlds.map (·, 0))) := State.putEach_keeps (by decide) (Keeps.refl s)
    exact ⟨_, e, hzero _ (by decide), hzero _ (by decide), hzero _ (by decide), hzero _ (by decide), hzero _ (by decide), hkept,
      hk.touches⟩
  · exact fun v h => (State.next_when hl.runs rfl).trans (congrArg _ (State.resultAck_of_other h))
  · intro k c d r hcmd hop hend hint htag hd hfn hdata
    refine (State.next_when hl.runs rfl).trans (congrArg _ ?_)
    simp only [hcmd, hop, hend, hint, htag, hd, hfn, hdata, Bool.false_eq_true, not_false_eq_true, and_self, if_true]
  · intro k c d hcmd hop hend hint htag hd hfn hdone h3 h4 hheld
    refine (State.next_when hl.runs rfl).trans (congrArg _ ?_)
    simp only [hcmd, hop, hend, hint, htag, hd, hfn, hdone, h3, h4, hheld, Bool.false_eq_true, not_false_eq_true, not_true_eq_false,
      and_self, or_self, ne_eq, if_true, if_false]

/-! ### Queue and tract commands -/

/-- A change of a tract between READY and READ_ONLY (R179). -/
theorem State.tractStateSet_of_other {s : State} {k act t : Nat} {c : Cmd} {st : TState} (hc : s.adminCmd k 0x44 = some c)
    (hact : bytesAt c.sqe 40 1 = act) (hfn : c.fn = 0) (hmap : s.tly.usable = true) (ht : s.anyTract (sqTract c.sqe) = some t)
    (hst : (s.tract t).st = .ready ∨ (s.tract t).st = .readOnly) (hne : (s.tract t).st ≠ st) :
    s.tractStateSet k act st = ((s.setTract t { s.tract t with st := st }).tractSet t).finish k 0 0xFF 0 st.code := by
  simp only [State.tractStateSet, hc, hact, hfn, hmap, ht, hst, hne, ne_eq, not_true_eq_false, if_false, if_true]

/-- Settles O11: each command passes the checks of its branch, and answers what that branch does. -/
theorem queueAndTractAdmin : Obligations.QueueAndTractAdmin := by
  intro s hl k c
  refine ⟨?_, ?_, ?_, ?_, ?_, ?_, ?_, ?_, ?_⟩
  · intro hc hfield hlive e
    refine (State.next_when hl.runs rfl).trans (congrArg _ ?_)
    simp only [hc, hfield, hlive, Bool.false_eq_true, if_false]
    rfl
  · intro hc h0 hmax hlive hdel habort
    refine (State.next_when hl.runs rfl).trans (congrArg _ ?_)
    simp only [hc, h0, Nat.not_lt.2 hmax, hlive, hdel, habort, Option.isSome_none, not_true_eq_false, or_self, Bool.false_eq_true,
      if_false]
  · intro p hc hfield hmap hnone hpartner hkey e blkB pages hcap hpages
    refine (State.next_when hl.runs rfl).trans (congrArg _ ?_)
    have hfits : ¬ s.freeCapacity < sqLba e * blkB := Nat.not_lt.2 hcap
    simp only [hc, hfield, hmap, hnone, hpartner, hkey, Option.isSome_none, Bool.false_eq_true, ne_eq, not_true_eq_false, or_self,
      if_false]
    rw [if_neg hfits, hpages]
  · intro t hst hwait
    refine (State.next_when hl.runs (decide_eq_true hst)).trans (congrArg _ ?_)
    simp only [hwait]
  · intro t hc ht hmap hst
    refine (State.next_when hl.runs rfl).trans (congrArg _ ?_)
    simp only [hc, ht, hmap, hst, not_true_eq_false, if_false, if_true]
  · intro t hst hbusy hwait u
    refine (State.next_when hl.runs (by simp [hst, hbusy])).trans (congrArg _ ?_)
    simp only [u, hwait] <;> rfl
  · intro t hc hact ht
    refine (State.next_when hl.runs rfl).trans (congrArg _ ?_)
    simp [hc, hact, ht]
  · intro t hc hact hfn hmap ht hst
    exact (State.next_when hl.runs rfl).trans
      (congrArg _ (State.tractStateSet_of_other hc hact hfn hmap ht (.inl hst) (by simp [hst])))
  · intro t hc hact hfn hmap ht hst
    exact (State.next_when hl.runs rfl).trans
      (congrArg _ (State.tractStateSet_of_other hc hact hfn hmap ht (.inr hst) (by simp [hst])))

/-! ### The other admin commands -/

/-- A check of Table CRY-4 that fails gives a status other than SUCCESS. -/
theorem State.importCheck_ne_zero (s : State) (kid blob : Nat) : s.importCheck kid blob ≠ some 0 := by
  unfold State.importCheck
  dsimp only
  repeat' split
  all_goals simp

theorem State.importKey_of_valid {s : State} {kid blob : Nat} (h : s.importCheck kid blob = none) :
    s.importKey kid blob = (((s.loadKey kid ((s.unwrapped kid blob).getD 0) (bytesAt blob 6 1) false).post
      E.CRY_KEY_LOADED kid).resumeMerges, 0) := by
  simp only [State.importKey, h]

theorem State.importKey_of_refused {s : State} {kid blob st : Nat} (h : s.importCheck kid blob = some st) :
    s.importKey kid blob = (s.post E.CRY_KEY_REFUSED kid st, st) := by
  simp only [State.importKey, h]

/-- Settles O12: each command passes the checks of its branch, and ends with what that branch answers. -/
theorem otherAdminCommands : Obligations.OtherAdminCommands := by
  intro s hl k c
  refine ⟨?_, ?_, ?_, ?_, ?_, ?_, ?_, ?_⟩
  · intro head eph wrapped rest hc hlen hhost hcut htlp
    dsimp only
    refine (State.next_when hl.runs rfl).trans ?_
    simp only [hc, hlen, hhost, hcut, htlp, ne_eq, not_true_eq_false, Bool.false_eq_true, or_self, if_false]
    cases hcheck : s.importCheck (sqKid c.sqe) (blobOf head eph wrapped rest) with
    | none => simp only [State.importKey_of_valid hcheck, if_true]
    | some st =>
      have hst : st ≠ 0 := fun h => s.importCheck_ne_zero _ _ (h ▸ hcheck)
      simp only [State.importKey_of_refused hcheck, hst, if_false]
  · intro r hc hret
    refine (State.next_when hl.runs rfl).trans (congrArg _ ?_)
    simp only [hc, hret, if_true]
  · intro v r hc hid hdata
    refine (State.next_when hl.runs rfl).trans (congrArg _ ?_)
    simp only [hc, hid, hdata, if_true]
  · intro r hc i n hi hn hmax hdata
    refine (State.next_when hl.runs rfl).trans (congrArg _ ?_)
    have hn' : ¬ (n = 0 ∨ 4096 < n) := by omega
    simp only [hc]
    rw [if_neg (Nat.not_le.2 hi), if_neg hn', hdata]
    rfl
  · intro r hc l hne hdata
    refine (State.next_when hl.runs rfl).trans (congrArg _ ?_)
    simp only [hc]
    rw [if_neg hne, hdata]
    rfl
  · intro hc hnil
    refine (State.next_when hl.runs rfl).trans (congrArg _ ?_)
    simp only [hc, hnil, if_true]
  · intro j d hc hfind hne habort hfused
    refine (State.next_when hl.runs rfl).trans (congrArg _ ?_)
    simp only [hc, hfind, hne, habort, hfused, Option.bind_none, not_true_eq_false, or_self, if_false]
  · intro r f hc ha hn hn0 hrange
    refine (State.next_when hl.runs rfl).trans (congrArg _ ?_)
    simp only [hc, ha, hn, hn0, hrange, ne_eq, not_true_eq_false, or_self, if_false, if_true]

/-! ### Functions and their configuration -/

/-- A list of functions with one added or taken out, as a write of Device Control changes it. -/
theorem mem_enabled_iff (l : List Nat) (fn : Nat) (b : Bool) :
    fn ∈ (if b then (if l.contains fn then l else l ++ [fn]) else l.filter (· ≠ fn)) ↔ b = true := by
  cases b with
  | false => simp
  | true => by_cases h : fn ∈ l <;> simp [h]

/-- A configuration request reaches a port whose data link is up and a function that is not in FLR (R801). -/
theorem Live.exec_configurationRequest {s : State} (hl : Live s) {fn : Nat} (hup : s.rd F.PCI_STAT_DL_UP = 1)
    (hflr : s.rd F.PCI_FN_STAT_FLR fn = 0) (r : CfgReq) : exec (.configurationRequest fn r) s =
      .next (if s.fnExists fn then s.cfgWrite fn r else s.bump F.PCI_UR_SENT) :=
  State.next_when hl.runs (by simp [State.on_of_rd_one hup, State.on_of_rd_zero hflr])

/-- Settles O31: what the host's side of the port sends changes a mask, a configuration register or the one command that waits
for it, and each error answer is a `hostFault` with its AER bit. -/
theorem pcieFunctions : Obligations.PcieFunctions := by
  intro s hl
  have htouch {k : Nat} {f : Cmd → Cmd} : Touches [.qqp] s (s.updCmd k f) := (State.updCmd_keeps (by decide) (Keeps.refl s)).touches
  refine ⟨?_, ?_, ?_, ?_, ?_, ?_, ?_, ?_, ?_, ?_, ?_, ?_, ?_⟩
  · exact fun fn vec hfn hvec => State.next_when hl.runs (by simp [hfn, hvec])
  · exact fun fn r hup hflr hfn => (hl.exec_configurationRequest hup hflr r).trans (congrArg _ (if_pos hfn))
  · intro fn r hup hflr hfn
    refine ⟨_, (hl.exec_configurationRequest hup hflr r).trans (congrArg _ (if_neg (by simp [hfn]))),
      State.rd_bump_self hl.wf .., ?_⟩
    exact (State.bump_keeps (by decide) (Keeps.refl s)).touches
  · intro fn ro nt mps mrrs hup hflr hfn
    refine ⟨_, (hl.exec_configurationRequest hup hflr _).trans (congrArg _ (if_pos hfn)), mem_enabled_iff ..,
      mem_enabled_iff .., rfl, rfl, ?_⟩
    exact (Keeps.lit rfl rfl (Keeps.refl s) (h_pci := .inr (by decide))).touches
  · intro k c l hcmd hwait htlp hop hsgl
    have e : exec (.hostReadCompletion (.cmd k) (.blocks l)) s = .next (s.updCmd k (fun d => { d with
        hostData := (d.hostData ++ (l.take (s.readRoom k c)).map (· % 2 ^ (8 * s.cmdBlk c))).take (sqLen d.sqe) })) := by
      refine (State.next_when hl.runs rfl).trans (congrArg _ ?_)
      simp only [hcmd]
      exact if_pos ⟨hwait, htlp, hop, by simpa using hsgl⟩
    exact ⟨_, e, State.cmd_updCmd_self _ hcmd, htouch⟩
  · intro k c l hcmd hwait htlp hsgl hgot hok
    have e : exec (.hostReadCompletion (.cmd k) (.sgl l)) s = .next (s.updCmd k (fun d => { d with sgl := l, sglGot := true })) := by
      refine (State.next_when hl.runs rfl).trans (congrArg _ ?_)
      simp only [hcmd]
      exact (if_pos ⟨hwait, htlp, hsgl, by simp [hgot]⟩).trans (if_pos (.inr hok))
    exact ⟨_, e, State.cmd_updCmd_self _ hcmd, htouch⟩
  · intro k c l t hcmd hwait htlp hsgl hgot ht hbad
    refine (State.next_when hl.runs rfl).trans (congrArg _ ?_)
    simp only [hcmd]
    exact (if_pos ⟨hwait, htlp, hsgl, by simp [hgot]⟩).trans (if_neg (by simp [ht, hbad]))
  · exact fun t => State.next_when hl.runs rfl
  · exact fun t => State.next_when hl.runs rfl
  · exact fun t => State.next_when hl.runs rfl
  · exact fun t => State.next_when hl.runs rfl
  · exact fun k c hcmd hfn => State.next_when hl.runs (by simpa [hcmd] using hfn)
  · exact fun fn q hfn => State.next_when hl.runs (by simpa using hfn)

/-! ### Requests of a host to the BARs -/

/-- A request that reaches a function of a port which is up. -/
structure State.Reached (s : State) (fn : Nat) : Prop where
  up : s.rd F.PCI_STAT_DL_UP = 1
  running : s.pci.inReset = false
  noFlr : s.rd F.PCI_FN_STAT_FLR fn = 0

/-- The answer of an Unsupported Request: a read is completed with none of its data, a posted write is not (R793). -/
def State.urAnswer (s : State) (fn : Nat) (write : Bool) : State :=
  if write then s else { s with out := s.out ++ [.barCpl fn false 0] }

theorem State.Reached.guard {s : State} {fn : Nat} (h : s.Reached fn) :
    (s.on F.PCI_STAT_DL_UP && !s.pci.inReset && !s.on F.PCI_FN_STAT_FLR fn) = true := by
  simp [State.on_of_rd_one h.up, h.running, State.on_of_rd_zero h.noFlr]

/-- A function that is not there: Unsupported Request, which is counted (R793). -/
theorem State.Reached.exec_absent {s : State} {fn : Nat} (h : s.Reached fn) (hl : Live s) (hfn : s.fnExists fn = false)
    (bar off : Nat) (write : Bool) (dws : List (Nat × Nat)) :
    exec (.hostBarAccess fn bar off write dws) s = .next ((s.bump F.PCI_UR_SENT).urAnswer fn write) :=
  (State.next_when hl.runs h.guard).trans (congrArg _ (if_pos (by simp [hfn])))

/-- A BAR that the function has not, or its Memory Space Enable clear: Unsupported Request of that function. -/
theorem State.Reached.exec_unsupported {s : State} {fn bar : Nat} (h : s.Reached fn) (hl : Live s) (hfn : s.fnExists fn = true)
    (hbad : s.rd F.PCI_FN_STAT_MSE fn = 0 ∨ (bar ≠ 0 ∧ bar ≠ 2 ∧ (bar ≠ 4 ∨ fn ≠ 0))) (off : Nat) (write : Bool)
    (dws : List (Nat × Nat)) :
    exec (.hostBarAccess fn bar off write dws) s = .next ((s.urSent fn).urAnswer fn write) := by
  have hur : ¬ s.on F.PCI_FN_STAT_MSE fn = true ∨ ¬ (bar = 0 ∨ bar = 2 ∨ (bar = 4 ∧ fn = 0)) := by
    refine hbad.imp (fun hmse => ?_) (fun hbar => ?_)
    · simp [State.on_of_rd_zero hmse]
    · omega
  exact (State.next_when hl.runs h.guard).trans (congrArg _ ((if_neg (by simp [hfn])).trans (if_pos hur)))

/-- A request to BAR2: its writes are doorbells, and its reads return 0 (R107). -/
theorem State.Reached.exec_bar2 {s : State} {fn : Nat} (h : s.Reached fn) (hl : Live s) (hfn : s.fnExists fn = true)
    (hmse : s.rd F.PCI_FN_STAT_MSE fn = 1) (off : Nat) (write : Bool) (dws : List (Nat × Nat)) :
    exec (.hostBarAccess fn 2 off write dws) s = .next (
      if ¬ write then { s with out := s.out ++ [.barCpl fn true 0] }
      else if ¬ s.cfg.done then s
      else (dws.zipIdx).foldl (fun s x => s.bar2 fn ((off / 4 + x.2) * 4 % 0x4000) x.1.1) s) := by
  refine (State.next_when hl.runs h.guard).trans (congrArg _ ?_)
  simp [hfn, State.on_of_rd_one hmse]

/-- A request to BAR4 of the PF, when the NI of the port can take all its runs of bytes (R795). -/
theorem State.Reached.exec_bar4 {s : State} (h : s.Reached 0) (hl : Live s) (hfn : s.fnExists 0 = true)
    (hmse : s.rd F.PCI_FN_STAT_MSE = 1) {off : Nat} {dws : List (Nat × Nat)}
    (hroom : s.outstanding 0xA2 + (byteRuns (enabledBytes (off / 4 * 4) dws)).length ≤ 1024) (write : Bool) :
    exec (.hostBarAccess 0 4 off write dws) s =
      .next ((byteRuns (enabledBytes (off / 4 * 4) dws)).foldl (fun s x => s.bar4Run 0 write x) s) := by
  refine (State.next_when hl.runs h.guard).trans (congrArg _ ?_)
  simp [hfn, State.on_of_rd_one hmse, Nat.not_lt.2 hroom]

/-- A write of less than a DW of BAR0 is discarded, with PCI_PARTIAL_WRITE (R794). -/
theorem State.bar0All_of_partial {s : State} {be : Nat} (hdone : s.cfg.done = true) (hbe : be % 16 ≠ 15) (fn off v : Nat) :
    (s.bar0All fn true off [(v, be)]).1 = s.post E.PCI_PARTIAL_WRITE fn off := by
  simp [State.bar0All, State.bar0, hbe, hdone]

/-- Settles O35: a request that the function does not take is Unsupported; any other acts on its BAR. -/
theorem hostAccesses : Obligations.HostAccesses := by
  intro s hl hup hres
  have hreach {fn : Nat} (hflr : s.rd F.PCI_FN_STAT_FLR fn = 0) : s.Reached fn := ⟨hup, hres, hflr⟩
  refine ⟨?_, ?_, ?_, ?_, ?_, ?_, ?_, ?_, ?_⟩
  · exact fun fn bar off dws hflr hfn => (hreach hflr).exec_absent hl hfn bar off true dws
  · intro fn bar off dws hflr hfn
    refine ⟨_, (hreach hflr).exec_absent hl hfn bar off false dws, rfl, State.rd_bump_self hl.wf .., ?_⟩
    exact (Keeps.lit rfl rfl (State.bump_keeps (by decide) (Keeps.refl s)) (h_out := .inr (by decide))).touches
  · exact fun fn bar off dws hflr hfn hbad => (hreach hflr).exec_unsupported hl hfn hbad off true dws
  · exact fun fn off dws hflr hfn hmse => hl.exec_bar0 hup hres hflr hfn hmse off true dws
  · exact fun fn off dws hflr hfn hmse => hl.exec_bar0 hup hres hflr hfn hmse off false dws
  · intro fn off v be hflr hfn hmse hdone h4 hoff hbe
    have hdw : off / 4 * 4 % 0x4000000 = off := by omega
    rw [hl.exec_bar0 hup hres hflr hfn hmse, hdw]
    exact congrArg _ (State.bar0All_of_partial hdone hbe fn off v)
  · intro fn off v be hflr hfn hmse hdone h4 hoff
    have hdw : off / 4 * 4 % 0x4000 = off := by omega
    rw [(hreach hflr).exec_bar2 hl hfn hmse]
    simp [hdone, hdw]
  · exact fun fn off dws hflr hfn hmse => (hreach hflr).exec_bar2 hl hfn hmse off false dws
  · exact fun off write dws hflr hfn hmse hroom => (hreach hflr).exec_bar4 hl hfn hmse hroom write

end Sys2Proof.Machine

/-! PROOFS. The Tally and the map of the pair: destage, map updates, map and journal pages, checkpoint and probe registers, and
what takes over, rebuilds and hands back a map. -/

namespace Sys2Proof.Machine
open Sys2Proof

/-! ### Destage and map updates -/

/-- DESTAGE makes the task of the next line and marks the line (R215). -/
theorem Live.exec_destage {s r : State} {b n : Nat} {l : Line} (hl : Live s) (hstall : s.on F.TLY_STAT_DESTAGE_STALL = false)
    (hnext : s.nextLine = some (b, l))
    (hnew : s.newTask { kind := 0x10, internal := true, prio := s.iprio 0x10, pool := 0, epoch := s.rd F.GLB_EPOCH_NEXT
                        payload := b } = some (r, n)) :
    exec .destage s = .next (r.updLine b (fun l => { l with tasked := true })) := by
  refine (State.next_when hl.runs (by simp [hstall])).trans (congrArg _ ?_)
  simp only [hnext, hnew]

/-- A programmed line that is journalled with no other, and that is acknowledged and not outdated, has its entry updated once its
map page is there (R24, R218). -/
theorem State.updateLine_of_alone {s r : State} {b : Nat} {l : Line} (hline : s.line b = some l) (hprog : l.programmed = true)
    (hjseq : l.jseq = none) (hsup : l.superBy = none) (hnew : s.outdated b l = false) (halone : s.groupOf b l = [b])
    (hack : l.acked = true) (hpage : s.needPage ((s.tract l.tract).page l.iu) (.line b) (s.linePrio l) = (r, true)) :
    s.updateLine b = (r.updateLines [b]).refugeCheck := by
  have hlines : [b].filterMap s.line = [l] := by simp [hline]
  simp only [State.updateLine, hline, halone, hlines]
  simp [hprog, hjseq, hsup, hnew, hack, hline, hpage]

/-! ### Map pages and journal pages -/

/-- A map page whose sectors have come is installed in the frame that waits for it (R202). -/
theorem Live.exec_mapPageInstalled {s : State} {mpn : Nat} {l : Load} {f : Frame} (hl : Live s) (hload : s.load mpn = some l)
    (hframe : Map.get none s.tly.frames mpn = some f) (hasked : l.asked = true)
    (hcame : (s.pageSectors f.flash).all (fun a => l.got.any (fun x => x.1 == a)) = true) :
    exec (.mapPageInstalled mpn f.idx f.flash) s = .next (s.installPage mpn l (pageEntries (s.pageSectors f.flash) l.got)) := by
  refine (State.next_when hl.runs rfl).trans (congrArg _ ?_)
  simp only [hload, hframe, hasked, hcame, and_self, if_true]

/-- A page whose write-back is programmed at its place lies on flash there (R195). -/
theorem Live.exec_mapPageWritebackDone {s : State} {mpn place : Nat} {f : Frame} (hl : Live s)
    (hframe : Map.get none s.tly.frames mpn = some f) (hwb : f.wb = true) (hplace : f.wbPlace = some place)
    (hdone : s.placed place 4 = true) :
    exec (.mapPageWritebackDone mpn place) s = .next (s.writtenBack mpn place f) := by
  refine (State.next_when hl.runs rfl).trans (congrArg _ ?_)
  simp only [hframe]
  exact if_pos ⟨hwb, hplace, hdone⟩

/-- An open journal page that holds records closes with the last one written (R225). -/
theorem State.closeJPage_of_open {s : State} (h : s.tly.jOpen < s.jseq) :
    s.closeJPage = { s with
      tly.jPages := s.tly.jPages ++ [{ first := s.tly.jOpen, last := s.jseq - 1 }], tly.jOpen := s.jseq } :=
  if_neg (Nat.not_le.2 h)

/-- A journal page whose sectors are programmed at its place is on flash (R225, R413). -/
theorem Live.exec_journalPageProgrammed {s : State} {first a : Nat} {p : JPage} (hl : Live s)
    (hpage : s.tly.jPages.find? (fun p => p.first == first) = some p) (hplace : p.place = some a) (hdone : s.placed a 4 = true) :
    exec (.journalPageProgrammed first) s = .next (s.pageProgrammed p a) := by
  refine (State.next_when hl.runs rfl).trans (congrArg _ ?_)
  simp only [hpage, hplace]
  exact if_pos hdone

/-- Settles O4: each step's guard holds, and what it acts on is the line, page or stripe that the clause names. -/
theorem mapAndJournalSteps : Obligations.MapAndJournalSteps := by
  intro s hl
  refine ⟨?_, ?_, ?_, ?_, ?_, ?_, ?_⟩
  · exact fun b l r n hstall hnext hnew => hl.exec_destage hstall hnext hnew
  · exact fun k hst hfresh => State.next_when hl.runs (by simp [hst, hfresh])
  · exact fun b l r hline hprog hjseq hsup hnew halone hack hpage => (State.next_when hl.runs rfl).trans
      (congrArg _ (State.updateLine_of_alone hline hprog hjseq hsup hnew halone hack hpage))
  · exact fun mpn l f hload hframe hasked hcame => hl.exec_mapPageInstalled hload hframe hasked hcame
  · exact fun mpn place f hframe hwb hplace hdone => hl.exec_mapPageWritebackDone hframe hwb hplace hdone
  · intro hopen
    have e : exec .journalPageTimer s = .next s.closeJPage := State.next_when hl.runs rfl
    have ht := (execJournalPageTimer_keeps (ps := (· ∈ [.tly])) (by decide) _ e).touches
    rw [State.closeJPage_of_open hopen] at e ht
    exact ⟨_, e, rfl, rfl, ht⟩
  · exact fun first p a hpage hplace hdone => hl.exec_journalPageProgrammed hpage hplace hdone

/-! ### TLY_CKPT_GO and the probe -/

/-- Writing 1 to TLY_CKPT_GO starts a checkpoint, or is refused while one runs (R232). -/
theorem Live.exec_tlyCkptGo_one {s : State} (hl : Live s) {req : Req} (hw : s.mayWrite req (F.TLY_CKPT_GO.off 0 0)) :
    exec (.tlyCkptGo req 1) s = .next (if s.on F.TLY_STAT_CKPT_ACTIVE = true then s.refuseWrite req (F.TLY_CKPT_GO.off 0 0)
      else s.ckptStart false) :=
  (State.next_when hl.runs rfl).trans (congrArg _ ((hw.byReq_eq _).trans (if_neg (by simp))))

/-- A pair of 32-bit fields reads back the value written, modulo 2^64 (R816). -/
theorem State.rd64_put64_self {s : State} (w : Memory.wf s = true) {lo hi : Fld} (hlo : lo.w = 32) (hhi : hi.w = 32)
    (h : lo.key 0 0 ≠ hi.key 0 0) (v : Nat) : (s.put64 lo hi v).rd64 lo hi = v % 2 ^ 64 := by
  have elo : (s.put64 lo hi v).rd lo = v % 2 ^ 32 % 2 ^ 32 := by
    refine ((State.rd_put_ne (State.wf_put w ..) (h := h) ..).trans (State.rd_put_self w ..)).trans ?_
    rw [Fld.cut, hlo]
  have ehi : (s.put64 lo hi v).rd hi = v / 2 ^ 32 % 2 ^ 32 := by
    refine (State.rd_put_self (State.wf_put w ..) ..).trans ?_
    rw [Fld.cut, hhi]
  rw [State.rd64, elo, ehi]
  omega

theorem State.wf_put64 {s : State} (w : Memory.wf s = true) (lo hi : Fld) (v i : Nat) : Memory.wf (s.put64 lo hi v i) = true :=
  State.wf_put (State.wf_put w ..) ..

theorem State.rd_put64_ne {s : State} (w : Memory.wf s = true) {lo hi f : Fld} (hlo : f.key 0 0 ≠ lo.key 0 0)
    (hhi : f.key 0 0 ≠ hi.key 0 0) (v : Nat) : (s.put64 lo hi v).rd f = s.rd f :=
  (State.rd_put_ne (State.wf_put w ..) (h := hhi) ..).trans (State.rd_put_ne w (h := hlo) ..)

/-- Key of the tract that a value of TLY_PROBE_TRACT selects: its number and its class (log entry 21). -/
def probeKey (v : Nat) : Nat := v % 4096 + (if bit v 12 then 4096 else 0)

/-- The tract selected for probes. -/
def State.probeTract (s : State) : Tract := s.tract (probeKey (s.rd F.TLY_PROBE_TRACT))

/-- The IU is out of the range of the tract selected. -/
def State.probeOut (s : State) (iu : Nat) : Bool := decide (s.probeTract.st = .absent) || decide (s.probeTract.entries ≤ iu)

/-- The IU's map page is resident. -/
def State.probeRes (s : State) (iu : Nat) : Bool := !s.probeOut iu && s.resident (s.probeTract.page iu)

/-- The entry that the probe of an IU shows. -/
def State.probeEntry (s : State) (iu : Nat) : Nat :=
  if s.probeRes iu then s.entry (s.probeTract.page iu) (iu % 2048) else 0

/-- The fields of TLY_PROBE_STAT. -/
def probeStatFlds : List Fld := [F.TLY_PROBE_STAT_DONE, F.TLY_PROBE_STAT_RESIDENT, F.TLY_PROBE_STAT_RANGE]

/-- What a probe writes to them. -/
def State.probeStat (s : State) (iu : Nat) : List (Fld × Nat) :=
  [(F.TLY_PROBE_STAT_DONE, 1), (F.TLY_PROBE_STAT_RESIDENT, b2n (s.probeRes iu)), (F.TLY_PROBE_STAT_RANGE, b2n (s.probeOut iu))]

theorem State.probeStat_fst (s : State) (iu : Nat) : (s.probeStat iu).map Prod.fst = probeStatFlds := rfl

/-- The part after a probe of an IU: the index committed, the lookup counted, entry and status shown (R242). -/
def State.probed (s : State) (iu : Nat) : State :=
  (((s.put64 F.TLY_PROBE_IU_LO F.TLY_PROBE_IU_HI iu).bump F.TLY_LOOKUPS).put64 F.TLY_PROBE_ENTRY_LO F.TLY_PROBE_ENTRY_HI
    (s.probeEntry iu)).putEach (s.probeStat iu)

/-- A probe answers for the IU index written. -/
theorem Live.exec_tlyProbe {s : State} (hl : Live s) {iu : Nat} (hiu : iu < 2 ^ 64) :
    exec (.tlyProbe iu) s = .next (s.probed iu) := by
  have hindex : (s.put64 F.TLY_PROBE_IU_LO F.TLY_PROBE_IU_HI iu).rd64 F.TLY_PROBE_IU_LO F.TLY_PROBE_IU_HI = iu :=
    (State.rd64_put64_self hl.wf rfl rfl (by decide) iu).trans (Nat.mod_eq_of_lt hiu)
  have htract : (s.put64 F.TLY_PROBE_IU_LO F.TLY_PROBE_IU_HI iu).rd F.TLY_PROBE_TRACT = s.rd F.TLY_PROBE_TRACT :=
    State.rd_put64_ne hl.wf (by decide) (by decide) iu
  refine (State.next_when hl.runs rfl).trans (congrArg _ ?_)
  simp only [State.probe, hindex, htract]
  rfl

theorem b2n_lt_two (b : Bool) : b2n b < 2 ^ 1 := by cases b <;> decide

/-- After a probe the status and the entry read back as it found them. -/
theorem State.rd_probed {s : State} (w : Memory.wf s = true) (iu : Nat) :
    (s.probed iu).rd F.TLY_PROBE_STAT_DONE = 1 ∧ (s.probed iu).rd F.TLY_PROBE_STAT_RANGE = b2n (s.probeOut iu) ∧
    (s.probed iu).rd F.TLY_PROBE_STAT_RESIDENT = b2n (s.probeRes iu) ∧
    (s.probed iu).rd64 F.TLY_PROBE_ENTRY_LO F.TLY_PROBE_ENTRY_HI = s.probeEntry iu % 2 ^ 64 := by
  have hbegun : Memory.wf ((s.put64 F.TLY_PROBE_IU_LO F.TLY_PROBE_IU_HI iu).bump F.TLY_LOOKUPS) = true :=
    State.wf_bump (State.wf_put64 w ..) ..
  have hshown := State.wf_put64 hbegun F.TLY_PROBE_ENTRY_LO F.TLY_PROBE_ENTRY_HI (s.probeEntry iu) 0
  have hstat : ∀ x ∈ s.probeStat iu, (s.probed iu).rd x.1 = x.1.cut x.2 :=
    State.rd_putEach_of_mem hshown (by rw [State.probeStat_fst]; decide)
  have hkept {f : Fld} (hf : f.key 0 0 ∉ probeStatFlds.map (fun g => g.key 0 0)) : (s.probed iu).rd f = _ :=
    State.rd_putEach_of_notMem hshown hf
  have hdone := hstat (F.TLY_PROBE_STAT_DONE, 1) (by simp [State.probeStat])
  have hrange := hstat (F.TLY_PROBE_STAT_RANGE, b2n (s.probeOut iu)) (by simp [State.probeStat])
  have hresident := hstat (F.TLY_PROBE_STAT_RESIDENT, b2n (s.probeRes iu)) (by simp [State.probeStat])
  refine ⟨hdone, hrange.trans (Fld.cut_of_lt (b2n_lt_two _)), hresident.trans (Fld.cut_of_lt (b2n_lt_two _)), ?_⟩
  rw [State.rd64, hkept (by decide), hkept (by decide)]
  exact State.rd64_put64_self hbegun rfl rfl (by decide) _

/-- Settles O5: TLY_CKPT_GO acts by TLY_STAT.CKPT_ACTIVE, and the registers of a probe read back what it found. -/
theorem tallyRegisterCommands : Obligations.TallyRegisterCommands := by
  intro s hl
  refine ⟨?_, ?_, ?_⟩
  · exact fun req hw hidle => (hl.exec_tlyCkptGo_one hw).trans (congrArg _ (if_neg (by simp [hidle])))
  · exact fun req hw hruns => (hl.exec_tlyCkptGo_one hw).trans (congrArg _ (if_pos hruns))
  · intro iu hiu t key tr out res
    have e := hl.exec_tlyProbe hiu
    obtain ⟨hdone, hrange, hresident, hentry⟩ := State.rd_probed hl.wf iu
    exact ⟨_, e, hdone, hrange, hresident, hentry, (execTlyProbe_keeps (by decide) _ e).touches⟩

/-! ### Death of the partner, takeover and hand-back -/

/-- Why a silent wire means a dead partner: it had said that it leaves, or a signal of it has been seen and the link is silent too
(R418, R894). -/
def State.DeathKnown (s : State) : Prop :=
  s.lve.leaving = true ∨ s.rd F.LVE_STAT_LINK_ALIVE = 0 ∧ (s.lve.wireSeen = true ∨ s.lve.linkSeen = true)

/-- A dead partner's groups are taken over (R418, R421). -/
theorem Live.exec_deathDeclared {s : State} (hl : Live s) (hmay : s.mayDeclare = true) (hwire : s.rd F.LVE_STAT_WIRE_ALIVE = 0)
    (hknown : s.DeathKnown) : exec .deathDeclared s = .next s.takeover := by
  refine State.next_when hl.runs ?_
  rcases hknown with hleaving | ⟨hlink, hseen⟩
  · simp [hmay, State.on_of_rd_zero hwire, hleaving]
  · rcases hseen with hseen | hseen <;> simp [hmay, State.on_of_rd_zero hwire, State.on_of_rd_zero hlink, hseen]

/-- A permitted write of LVE_HANDBACK acts on the pair (R433). -/
theorem Live.exec_handbackStart {s : State} (hl : Live s) {req : Req} (hw : s.mayWrite req (F.LVE_HANDBACK.off 0 0)) (v : Nat) :
    exec (.handbackStart req v) s = .next (s.handbackGo req v) :=
  (State.next_when hl.runs rfl).trans (congrArg _ (hw.byReq_eq _))

/-- Only the value 1 in a PAIRED part that holds foreign groups starts a hand-back (Table LVE-10). -/
theorem State.handbackGo_of_refused {s : State} {v : Nat} (h : v ≠ 1 ∨ s.pair ≠ 3 ∨ s.lve.foreign = 0) (req : Req) :
    s.handbackGo req v = s.refuseWrite req (F.LVE_HANDBACK.off 0 0) :=
  if_neg fun ⟨hv, hpair, hforeign⟩ => h.elim (· hv) (·.elim (· hpair) hforeign)

/-- Settles O23: each command's guard holds, and its effect is the named operation of the pair. -/
theorem takeoverAndHandback : Obligations.TakeoverAndHandback := by
  intro s hl
  refine ⟨?_, ?_, ?_, ?_, ?_, ?_, ?_, ?_, ?_, ?_, ?_, ?_⟩
  · exact fun hmay hwire hleaving => hl.exec_deathDeclared hmay hwire (.inl hleaving)
  · exact fun hmay hwire hlink hseen => hl.exec_deathDeclared hmay hwire (.inr ⟨hlink, .inl hseen⟩)
  · exact fun hmay horphan hseen hactive => State.next_when hl.runs (by simp [hmay, horphan, hseen, hactive])
  · exact fun hpair hforce hlow => State.next_when hl.runs (by simp [hpair, State.on_of_rd_zero hforce, hlow])
  · exact fun g b hg hst hpend hpol => State.next_when hl.runs (by simp [hg, hst, hpend, hpol])
  · exact fun r hpair hstep hreplay => State.next_when hl.runs (by simp [hpair, hstep, hreplay])
  · exact fun hreplay hclean => State.next_when hl.runs (by simp [hreplay, hclean])
  · exact fun r hrebuild hhomes => State.next_when hl.runs (by simp [State.on_of_rd_one hrebuild, hhomes])
  · exact fun hwritten => State.next_when hl.runs (by simp [hwritten])
  · exact fun req hw hpair hforeign => (hl.exec_handbackStart hw 1).trans (congrArg _ (if_pos ⟨rfl, hpair, hforeign⟩))
  · exact fun req v hw hrefused => (hl.exec_handbackStart hw v).trans (congrArg _ (State.handbackGo_of_refused hrefused req))
  · exact fun hpair hstage hclean => State.next_when hl.runs (by simp [hpair, hstage, hclean])

end Sys2Proof.Machine

/-! PROOFS. The Deck: dispatch, pre-emption, parking, timeouts and the load window, and the messages that landing engines and
their landings send. -/

namespace Sys2Proof.Machine
open Sys2Proof

/-! ### Dispatch -/

/-- An idle engine that may take tasks of a pool takes the one that the pool's order chooses, into its first slot (R266). -/
theorem Live.exec_taskDispatch_idle {s : State} {p e n : Nat} {x : Task} (hl : Live s) (hstop : s.lve.stopped = false)
    (hmay : s.mayTake p e = true) (hidle : s.engSt e = 1) (hchoose : s.choose p e = some (n, x)) :
    exec (.taskDispatch p e) s = .next (s.dispatchTo n e false) := by
  have hslot : (s.poolMode p == 2 && s.engSt e == 2 && (s.taskOn e true).isNone) = false := by simp [hidle]
  refine (State.next_when hl.runs (by simp [hstop, hmay, hidle])).trans (congrArg _ ?_)
  simp only [hchoose, hslot]

/-- A host task keeps the epoch and the tag of its command, so an engine takes it as it is (R245, R285). -/
theorem State.dispatchTo_of_host {s : State} {n : Nat} {t : Task} (htask : s.task n = some t) (hhost : t.internal = false)
    (e : Nat) : s.dispatchTo n e false = if isLandingEng e then (s.dispatch n e false).tell (s.dispatchMsg n e false)
      else (s.dispatch n e false).startWork n t := by
  simp [State.dispatchTo, State.giveTag, htask, hhost]

/-! ### Pre-emption -/

/-- Pool `p` may begin a pre-emption: it is enabled there, none runs, a context slot is free and no engine is (R272, R273). -/
structure State.MayPreempt (s : State) (p : Nat) : Prop where
  enabled : s.rd F.DCK_CTL_PREEMPT_EN = 1
  gap : s.rd F.DCK_POOL_CFG_PREEMPT_GAP p ≠ 0
  mode : s.poolMode p ≠ 2
  idle : Map.get none s.dck.preempting p = none
  room : s.ctxFree = true
  full : s.noFree p = true

/-- Landing engine `e`, which runs task `n` of tag `tag`, is asked to yield to a task of pool `p` (R281). -/
def State.askedFor (s : State) (p n e tag : Nat) : State :=
  { s.put F.DCK_ENG_STAT_STATE 3 e with
    dck.preempting := Map.set none s.dck.preempting p (some n), dck.sent := s.dck.sent ++ [.preempt e tag] }

theorem State.startPreempt_of_victim {s : State} {p n e : Nat} {x : Nat × Task} {t : Task} (h : s.MayPreempt p)
    (hwait : s.waiting p = some x) (hvictim : s.victim p (s.tprio x.2) = some (n, t)) (hrun : t.st = .running e false)
    (hland : isLandingEng e = true) : s.startPreempt p = s.askedFor p n e (t.tag.getD 0) := by
  simp only [State.startPreempt, State.on_of_rd_one h.enabled, h.gap, h.mode, h.idle, h.room, h.full, hwait, hvictim, hrun, hland]
  rfl

theorem State.askedFor_engSt {s : State} (w : Memory.wf s = true) (p n e tag : Nat) :
    (s.askedFor p n e tag).rd F.DCK_ENG_STAT_STATE e = 3 := State.rd_put_self w ..

/-! ### Parking -/

/-- A skidder's host task whose segment holds no pin and waits for a load or a slot parks there, and any pre-emption of it is
void (R200, R275). -/
theorem Live.exec_skidderPark_of_fault {s u : State} {e n k : Nat} {t : Task} {c : Cmd} {g : Seg} {st : TaskSt} (hl : Live s)
    (he : e < 64) (hon : s.taskOn e false = some n) (htask : s.task n = some t) (hhost : t.internal = false) (htag : t.tag = some k)
    (hcmd : s.cmd k = some c) (hseg : c.segs[t.seg]? = some g) (hpin : g.pin = []) (hfault : s.faultOf n = some st)
    (hpark : (s.voidPreempt n false).parkTask n t 1 st = some u) :
    exec (.skidderPark e) s =
      .next ((u.bump F.SKD_PARKS_FAULT).updCmd k (fun c => { c with parks := c.parks + 1 })) := by
  have hno : ¬ (64 ≤ e ∨ t.internal = true) := by simp [hhost, he]
  refine (State.next_when hl.runs rfl).trans (congrArg _ ?_)
  simp only [hon, htask, htag, Option.bind_some, hcmd, hseg, hpin, List.isEmpty_nil, hno, if_false, if_true, hfault, hpark,
    Option.getD_some]

/-! ### Timeouts -/

/-- A running task of a pool with a time limit leaves its engine and is tried again on another, or ends once its retries are
spent (R283, R448). -/
theorem Live.exec_taskTimeout_of_running {s : State} {n e : Nat} {t : Task} (hl : Live s) (htask : s.task n = some t)
    (hrun : t.st = .running e false) (htmo : s.rd F.DCK_POOL_CFG_TMO t.pool ≠ 0) :
    exec (.taskTimeout n) s = .next (if (s.timedOut n t e).retryLimit ≤ t.retries ∨ (s.timedOut n t e).lve.pfLow = true
      then (s.timedOut n t e).taskDown n t
      else (s.timedOut n t e).updTask n (fun x => { x with st := .backoff, retries := x.retries + 1, notOn := some e })) := by
  refine (State.next_when hl.runs rfl).trans (congrArg _ ?_)
  simp only [htask, hrun, htmo, if_false]

/-! ### The load window -/

theorem poolLoad_key_ne {i j : Nat} (hi : i < 32) (hj : j < 32) (h : i ≠ j) :
    F.DCK_POOL_LOAD.key i 0 ≠ F.DCK_POOL_LOAD.key j 0 := by
  simp only [Fld.key, Fld.blk, F.DCK_POOL_LOAD]
  omega

/-- A load is at most 1024 and fits its field (R291). -/
theorem State.poolLoad_lt (s : State) (p : Nat) : s.poolLoad p < 2 ^ F.DCK_POOL_LOAD.w := by
  have hw : 2 ^ F.DCK_POOL_LOAD.w = 2048 := rfl
  rw [hw]
  simp only [State.poolLoad]
  split <;> omega

theorem State.rd_showLoads {s : State} (w : Memory.wf s = true) {p : Nat} (hp : p < 32) :
    s.showLoads.rd F.DCK_POOL_LOAD p = s.poolLoad p :=
  ((State.rd_range_put w F.DCK_POOL_LOAD s.poolLoad 32 fun _ hi _ hj h => poolLoad_key_ne hi hj h).2 p hp).trans
    (Fld.cut_of_lt (s.poolLoad_lt p))

theorem State.wf_busyAll {s : State} (w : Memory.wf s = true) : Memory.wf s.busyAll = true :=
  (State.busyAll_keeps (ps := fun _ => True) trivial (Keeps.refl s)).wf w

theorem State.time_busyAll_showLoads (s : State) : s.busyAll.showLoads.time = s.time :=
  (State.showLoads_keeps (ps := (· ∈ [.regs 6, .dck])) (by decide) (State.busyAll_keeps (by decide) (Keeps.refl s))).same .time
    (by decide)

/-- A window of the pools' loads begins (R291). -/
def State.newWindow (s : State) : State := { s with dck.busy := [], dck.winStart := s.time }

@[simp] theorem State.newWindow_rd (s : State) (f : Fld) (i j : Nat) : s.newWindow.rd f i j = s.rd f i j := rfl
@[simp] theorem State.newWindow_busy (s : State) : s.newWindow.dck.busy = [] := rfl
@[simp] theorem State.newWindow_winStart (s : State) : s.newWindow.dck.winStart = s.time := rfl

/-- Settles O7: each hypothesis is a guard of its command or picks a branch of it, and the step named is what that branch does. -/
theorem deckSteps : Obligations.DeckSteps := by
  intro s hl
  refine ⟨?_, ?_, ?_, ?_, ?_, ?_⟩
  · exact fun p e n x t hstop hmay hidle hchoose htask hhost =>
      (hl.exec_taskDispatch_idle hstop hmay hidle hchoose).trans (congrArg _ (State.dispatchTo_of_host htask hhost e))
  · intro p x n t e hen hgap hmode hidle hroom hfull hwait hvictim hrun hland he
    have hask := State.startPreempt_of_victim ⟨hen, hgap, hmode, hidle, hroom, hfull⟩ hwait hvictim hrun hland
    have h : exec (.preemptionStart p) s = .next (s.askedFor p n e (t.tag.getD 0)) :=
      (State.next_when hl.runs rfl).trans (congrArg _ hask)
    exact ⟨_, h, State.askedFor_engSt hl.wf .., rfl, rfl, (execPreemptionStart_keeps (by decide) (by decide) _ h).touches⟩
  · exact fun e n t k c g st u he hon htask hhost htag hcmd hseg hpin hfault hpark =>
      hl.exec_skidderPark_of_fault he hon htask hhost htag hcmd hseg hpin hfault hpark
  · exact fun lost hroom => State.next_when hl.runs (decide_eq_true hroom)
  · exact fun n t e htask hrun htmo => hl.exec_taskTimeout_of_running htask hrun htmo
  · have h : exec .poolLoadWindow s = .next s.busyAll.showLoads.newWindow := State.next_when hl.runs rfl
    exact ⟨_, h, State.newWindow_busy _, (State.newWindow_winStart _).trans s.time_busyAll_showLoads,
      fun p hp => (State.newWindow_rd ..).trans (State.rd_showLoads (State.wf_busyAll hl.wf) hp),
      (execPoolLoadWindow_keeps (by decide) (by decide) _ h).touches⟩

/-! ### Registration of a landing engine -/

theorem State.post_dck (s : State) (c a b : Nat) (t : Option Nat) : (s.post c a b t).dck = s.dck :=
  (State.post_keeps (ps := (· ∈ [.regs 17, .evt, .out, .pci])) (by decide) (by decide) (by decide) (by decide)
    (Keeps.refl s)).same .dck (by decide)

@[simp] theorem State.tell_rd (s : State) (m : EngMsg) (f : Fld) (i j : Nat) : (s.tell m).rd f i j = s.rd f i j := rfl

theorem State.wf_updEng {s : State} (w : Memory.wf s = true) (e : Nat) (g : Eng → Eng) : Memory.wf (s.updEng e g) = true := w

/-- The check for a pool without engines sends no message, and only the event ledger's registers show it (R271). -/
theorem State.poolEmpty_sent (s : State) (p : Nat) : (s.poolEmpty p).dck.sent = s.dck.sent := by
  unfold State.poolEmpty
  split
  · rfl
  · split
    · rfl
    · rw [State.post_dck]

theorem State.rd_poolEmpty {s : State} (w : Memory.wf s = true) (p : Nat) (f : Fld) (h : f.blk ≠ 17) (i j : Nat) :
    (s.poolEmpty p).rd f i j = s.rd f i j :=
  (State.poolEmpty_keeps (ps := (· ∈ [.regs 17, .dck, .evt, .out, .pci])) (by decide) (by decide) (by decide) (by decide)
    (by decide) (Keeps.refl s)).rd w f (by simpa using h) i j

/-- The fields of DCK_ENG_STAT (Table DCK-7). -/
def engStatFlds : List Fld := [F.DCK_ENG_STAT_POOL, F.DCK_ENG_STAT_STATE, F.DCK_ENG_STAT_LANDING, F.DCK_ENG_STAT_TMOS]

/-- They begin at different bits of one word. -/
theorem engStat_places : ∀ f ∈ engStatFlds, (f.base = 0x600400 ∧ f.s1 = 4 ∧ f.lo < 32) ∧
    ∀ g ∈ engStatFlds, f ≠ g → f.lo ≠ g.lo := by decide

theorem engStat_key_ne {f g : Fld} (hf : f ∈ engStatFlds) (hg : g ∈ engStatFlds) (h : f ≠ g) (e : Nat) :
    f.key e 0 ≠ g.key e 0 := by
  obtain ⟨⟨hfb, hfs, hfl⟩, hlo⟩ := engStat_places f hf
  obtain ⟨⟨hgb, hgs, hgl⟩, -⟩ := engStat_places g hg
  have hne := hlo g hg h
  simp only [Fld.key, Fld.blk, hfb, hgb, hfs, hgs, Nat.mul_zero]
  omega

/-- A write of one field of an engine's DCK_ENG_STAT leaves the others alone. -/
theorem State.rd_put_engStat_ne {s : State} (w : Memory.wf s = true) {f g : Fld} (hf : f ∈ engStatFlds) (hg : g ∈ engStatFlds)
    (h : f ≠ g) (v e : Nat) : (s.put g v e).rd f e = s.rd f e := State.rd_put_ne w (h := engStat_key_ne hf hg h e) ..

/-- What DCK_ENG_STAT shows of engine `e` once landing `l` has registered it in pool `p` (R260, R262). -/
def State.enrolled (s : State) (l p e : Nat) : State :=
  (((s.put F.DCK_ENG_STAT_STATE 1 e).put F.DCK_ENG_STAT_POOL p e).put F.DCK_ENG_STAT_LANDING l e).put F.DCK_ENG_STAT_TMOS 0 e

theorem State.wf_enrolled {s : State} (w : Memory.wf s = true) (l p e : Nat) : Memory.wf (s.enrolled l p e) = true :=
  State.wf_put (State.wf_put (State.wf_put (State.wf_put w ..) ..) ..) ..

theorem State.rd_enrolled {s : State} (w : Memory.wf s = true) {l p : Nat} (hl : l < 128) (hp : p < 32) (e : Nat) :
    (s.enrolled l p e).rd F.DCK_ENG_STAT_STATE e = 1 ∧ (s.enrolled l p e).rd F.DCK_ENG_STAT_POOL e = p ∧
      (s.enrolled l p e).rd F.DCK_ENG_STAT_LANDING e = l ∧ (s.enrolled l p e).rd F.DCK_ENG_STAT_TMOS e = 0 := by
  have w1 := State.wf_put w F.DCK_ENG_STAT_STATE 1 e 0
  have w2 := State.wf_put w1 F.DCK_ENG_STAT_POOL p e 0
  have w3 := State.wf_put w2 F.DCK_ENG_STAT_LANDING l e 0
  refine ⟨?_, ?_, ?_, State.rd_put_self w3 ..⟩
  · calc (s.enrolled l p e).rd F.DCK_ENG_STAT_STATE e
      _ = _ := State.rd_put_engStat_ne w3 (by decide) (by decide) (by decide) ..
      _ = _ := State.rd_put_engStat_ne w2 (by decide) (by decide) (by decide) ..
      _ = _ := State.rd_put_engStat_ne w1 (by decide) (by decide) (by decide) ..
      _ = 1 := State.rd_put_self w ..
  · calc (s.enrolled l p e).rd F.DCK_ENG_STAT_POOL e
      _ = _ := State.rd_put_engStat_ne w3 (by decide) (by decide) (by decide) ..
      _ = _ := State.rd_put_engStat_ne w2 (by decide) (by decide) (by decide) ..
      _ = p := (State.rd_put_self w1 ..).trans (Fld.cut_of_lt hp)
  · calc (s.enrolled l p e).rd F.DCK_ENG_STAT_LANDING e
      _ = _ := State.rd_put_engStat_ne w3 (by decide) (by decide) (by decide) ..
      _ = l := (State.rd_put_self w2 ..).trans (Fld.cut_of_lt hl)

/-- The part after engine `e` is registered: the engine begins anew, and its landing is answered. -/
def State.registered (s : State) (l p e : Nat) (pre : Bool) : State :=
  (((s.enrolled l p e).updEng e (fun _ => { preemptable := pre })).poolEmpty p).tell (.registerAck l 0 e)

/-- A landing with fewer than two engines gets the lowest free ID (R260, R262). -/
theorem Live.exec_register_of_free {s : State} {l p e : Nat} (hl : Live s) (huser : s.cfg.userOn = true) (hland : l < 128)
    (hp5 : 5 ≤ p) (hp : p < 32) (htwo : (s.landingEngines l).length < 2)
    (hfree : ((List.range 256).map (· + 96)).find? (fun e => s.engSt e == 0) = some e) (pre : Bool) :
    exec (.register l p pre) s = .next (s.registered l p e pre) := by
  refine (State.next_when hl.runs rfl).trans (congrArg _ ?_)
  rw [if_neg (by simp [huser, hland]), if_neg (by omega), if_neg (by omega)]
  simp only [hfree]
  rfl

theorem State.rd_registered {s : State} (w : Memory.wf s = true) (l p e : Nat) (pre : Bool) {f : Fld} (h : f.blk ≠ 17) :
    (s.registered l p e pre).rd f e = (s.enrolled l p e).rd f e :=
  (State.tell_rd ..).trans ((State.rd_poolEmpty (State.wf_updEng (State.wf_enrolled w l p e) ..) p f h e 0).trans
    (State.updEng_rd ..))

theorem State.registered_sent (s : State) (l p e : Nat) (pre : Bool) :
    (s.registered l p e pre).dck.sent = s.dck.sent ++ [EngMsg.registerAck l 0 e] :=
  congrArg (· ++ _) (State.poolEmpty_sent ..)

/-! ### What a landing engine answers -/

/-- A landing's task that its ring takes is created, and the landing is answered at once (R647). -/
theorem Live.exec_create_of_newTask {s u : State} {l token p prio dl pay n : Nat} {noPre : Bool} {aff : Option Nat} (hl : Live s)
    (huser : s.cfg.userOn = true) (hp5 : 5 ≤ p) (hp : p < 32)
    (hroom : (s.dck.creates.filter (fun t => t.landing = some l)).length < 8)
    (hnew : s.newTask { kind := 0x20, internal := true, prio := prio % 8, pool := p, aff := aff, noPreempt := noPre, deadline := dl
                        landing := some l, payload := pay, token := token, epoch := s.rd F.GLB_EPOCH_NEXT } = some (u, n)) :
    exec (.create l token 0x20 p prio noPre aff dl pay) s = .next (u.tell (.createAck l token 0)) := by
  refine (State.next_when hl.runs rfl).trans (congrArg _ ?_)
  rw [if_neg (by simp [huser]), if_neg (by omega), if_neg (by omega)]
  simp only [hnew]

/-- DONE ends the engine's task: its command completes with the status given (Table DCK-6). -/
theorem Live.exec_done_of_host {s : State} {e n k : Nat} {t : Task} (hl : Live s) (hland : isLandingEng e = true)
    (hon : s.taskOn e false = some n) (htask : s.task n = some t) (htag : t.tag = some k) (status blocks : Nat) :
    exec (.done e status blocks) s = .next (((s.updEng e (fun x => { x with yield264 := false, late := false })).updCmd k (fun c =>
      Cmd.toPhase (Cmd.note { c with doneBlks := blocks, completed := true } status 13 0) 5 s.us)).endTask n) := by
  have htask' : (s.updEng e (fun x => { x with yield264 := false, late := false })).task n = some t := htask
  refine (State.next_when hl.runs rfl).trans (congrArg _ ?_)
  rw [if_neg (by simp [hland])]
  simp only [hon, htask', Option.bind_some, htag]
  rfl

section
variable {s : State} {e n : Nat} (hl : Live s) (hland : isLandingEng e = true) (hon : s.taskOn e false = some n)
  (hask : s.engSt e = 3)
include hl hland hon hask

/-- An engine that was asked yields (R264, R281). -/
theorem Live.exec_yield_of_asked (ctx : Nat) : exec (.yield e ctx) s = .next (s.yielded e n ctx) := by
  refine (State.next_when hl.runs rfl).trans (congrArg _ ?_)
  rw [if_neg (by simp [hland])]
  simp only [hon, hask, ne_eq, not_true_eq_false, false_and, if_false]

/-- An engine that was asked declines (Table DCK-6). -/
theorem Live.exec_decline_of_asked : exec (.decline e) s = .next (s.declined e) := by
  refine (State.next_when hl.runs rfl).trans (congrArg _ ?_)
  rw [if_neg (by simp [hland])]
  simp only [hon, hask, if_true]

end

/-- Settles O8: each message passes the checks of its command; REGISTER shows in DCK_ENG_STAT and in what the Deck sends, the
others are the Deck's named operations. -/
theorem landingMessages : Obligations.LandingMessages := by
  intro s hl
  refine ⟨?_, ?_, ?_, ?_, ?_, ?_, ?_, ?_⟩
  · intro l p pre e huser hland hp5 hp htwo hfree
    have h := hl.exec_register_of_free huser hland hp5 hp htwo hfree pre
    obtain ⟨hstate, hpool, hlanding, htmos⟩ := State.rd_enrolled hl.wf hland hp e
    have hrd {f : Fld} := State.rd_registered hl.wf l p e pre (f := f)
    exact ⟨_, h, (hrd (by decide)).trans hstate, (hrd (by decide)).trans hpool, (hrd (by decide)).trans hlanding,
      (hrd (by decide)).trans htmos, s.registered_sent l p e pre,
      (execRegister_keeps (by decide) (by decide) (by decide) (by decide) (by decide) (by decide) _ h).touches⟩
  · exact fun l e hreg => State.next_when hl.runs hreg
  · exact fun l token p prio noPre aff dl pay u n huser hp5 hp hroom hnew => hl.exec_create_of_newTask huser hp5 hp hroom hnew
  · exact fun e status blocks n t k hland hon htask htag => hl.exec_done_of_host hland hon htask htag status blocks
  · exact fun e ctx n hland hon hask => hl.exec_yield_of_asked hland hon hask ctx
  · exact fun e n hland hon hask => hl.exec_decline_of_asked hland hon hask
  · exact fun e hland hask => State.next_when hl.runs (by simp [hland, hask])
  · intro l code huser hland hcode
    have h : exec (.landingMsgUnknown l code) s = .next (s.bump F.DCK_LATE_MSGS) :=
      State.next_when hl.runs (by simp only [huser, hland, hcode, decide_true, Bool.not_false, Bool.and_self])
    exact ⟨_, h, State.rd_bump_self hl.wf .., (execLandingMsgUnknown_keeps (by decide) _ h).touches⟩

end Sys2Proof.Machine

/-! PROOFS. The media channels: ownership of their groups, LUNs and reads, decoding and the channels' timers, and raw sequences of
user logic. -/

namespace Sys2Proof.Machine
open Sys2Proof

/-! ### Groups: the MG_OWN wires -/

/-- A group's record reads back as it was changed, where the change leaves it other than a fresh one. -/
theorem State.grp_updGrp_of_ne {s : State} {g : Nat} {f : Grp → Grp} (h : f (s.grp g) ≠ {}) :
    (s.updGrp g f).grp g = f (s.grp g) := by
  change Map.get {} (Map.set {} s.med.grps g (f (s.grp g))) g = _
  rw [Map.set, if_neg h, Map.get_insert_self]

/-- The level of MG_OWN[g] as others drive it has been sampled. -/
def State.sampled (s : State) (g : Nat) (low : Bool) : State := s.updGrp g (fun x => { x with otherLow := low })

theorem State.sampled_low_claimPend (s : State) (g : Nat) : ((s.sampled g true).grp g).claimPend = (s.grp g).claimPend := by
  have hne : { s.grp g with otherLow := true } ≠ ({} : Grp) := fun e => Bool.noConfusion (congrArg Grp.otherLow e)
  have hgrp : (s.sampled g true).grp g = { s.grp g with otherLow := true } := State.grp_updGrp_of_ne hne
  rw [hgrp]

section
variable {s : State} {g : Nat} (hl : Live s) (hg : g < 16)
include hl hg

/-- The wire of a group that nobody owns falls: the partner owns it, unless a CLAIM waits here (R889). -/
theorem Live.exec_mgOwnWireLow_of_unowned (hst : s.gst g = 0) (hdrive : s.drives g = false) (hpend : (s.grp g).claimPend = false) :
    exec (.mgOwnWireLow g true) s = .next ((s.sampled g true).setGst g 1) := by
  have hst' : (s.sampled g true).gst g = 0 := hst
  have hdrive' : (s.sampled g true).drives g = false := hdrive
  have hpend' := (s.sampled_low_claimPend g).trans hpend
  change execMgOwnWireLow g true s = _
  simp only [execMgOwnWireLow, if_pos hg]
  refine (State.next_when (s := s.sampled g true) hl.runs (decide_eq_true hg)).trans (congrArg _ ?_)
  simp only [hst', hdrive', hpend', Bool.false_eq_true, and_false, if_false]

/-- A start bit that the part sees while it waits for quiet starts its arbitration too (R329). -/
theorem Live.exec_mgOwnWireLow_of_waiting (hst : s.gst g = 2) :
    exec (.mgOwnWireLow g true) s = .next ((s.sampled g true).arbStart g) := by
  have hst' : (s.sampled g true).gst g = 2 := hst
  change execMgOwnWireLow g true s = _
  simp only [execMgOwnWireLow, if_pos hg]
  refine (State.next_when (s := s.sampled g true) hl.runs (decide_eq_true hg)).trans (congrArg _ ?_)
  simp only [hst', if_true]

/-- The wire rises: a forced claim that waited goes back to waiting for quiet (R889). -/
theorem Live.exec_mgOwnWireHigh : exec (.mgOwnWireHigh g) s =
    .next (if s.gst g = 7 then (s.sampled g false).setGst g 2 else s.sampled g false) := by
  change execMgOwnWireHigh g s = _
  simp only [execMgOwnWireHigh, if_pos hg]
  exact State.next_when (s := s.sampled g false) hl.runs (decide_eq_true hg)

/-- A permitted write of MED_GRP_CMD acts on the group. -/
theorem Live.exec_claim {req : Req} (hw : s.mayWrite req (F.MED_GRP_CMD.off (g / 8) (g % 8))) :
    exec (.claim req g) s = .next (s.claimOp req g) :=
  (State.next_when hl.runs (decide_eq_true hg)).trans (congrArg _ (hw.byReq_eq _))

theorem Live.exec_release {req : Req} (hw : s.mayWrite req (F.MED_GRP_CMD.off (g / 8) (g % 8))) :
    exec (.release req g) s = .next (s.releaseOp req g) :=
  (State.next_when hl.runs (decide_eq_true hg)).trans (congrArg _ (hw.byReq_eq _))

/-- The drivers come on 10 µs after a win, while the part still holds the wire (R331). -/
theorem Live.exec_driverEnableDelay_of_held (hst : s.gst g = 4) (hdrive : s.drives g = true) (hpend : (s.grp g).enablePend = true) :
    exec (.driverEnableDelay g) s = .next ((s.updGrp g (fun x => { x with enablePend := false })).driversOn g) :=
  (State.next_when hl.runs (by simp [hg, hpend])).trans (congrArg _ (if_pos ⟨hst, hdrive⟩))

end

/-- The wire has been quiet for 200 µs: the partner's group is UNOWNED, and a CLAIM that waited starts its arbitration (R328). -/
theorem Live.exec_mgOwnQuietTimer {s : State} {g : Nat} (hl : Live s) (hg : g < 16) (hhigh : (s.grp g).otherLow = false)
    (hdrive : s.drives g = false) :
    (s.gst g = 1 → exec (.mgOwnQuietTimer g) s = .next ((s.setGst g 0).claimDue g)) ∧
    (s.gst g = 2 → exec (.mgOwnQuietTimer g) s = .next (s.arbStart g)) := by
  have hquiet : (decide (g < 16) && !(s.grp g).otherLow && !s.drives g) = true := by simp [hg, hhigh, hdrive]
  refine ⟨fun hst => (State.next_when hl.runs hquiet).trans (congrArg _ ?_),
    fun hst => (State.next_when hl.runs hquiet).trans (congrArg _ ?_)⟩
  · simp only [hst]
  · simp only [hst]

/-- A drained group lets its wire go; where no CLAIM was held meanwhile, only the level of the wire decides (R889). -/
theorem Live.exec_wireReleaseDelay_of_unclaimed {s : State} {g : Nat} (hl : Live s) (hst : s.gst g = 0)
    (hrel : (s.grp g).releasing = true) (hpend : (s.grp g).claimPend = false) :
    exec (.wireReleaseDelay g) s = .next (if (s.grp g).otherLow = true
      then ((s.drive g false).updGrp g (fun x => { x with releasing := false, claimPend := false })).setGst g 1
      else (s.drive g false).updGrp g (fun x => { x with releasing := false, claimPend := false })) := by
  refine (State.next_when hl.runs (by simp [hst, hrel])).trans (congrArg _ ?_)
  simp only [hpend, Bool.false_eq_true, if_false]

/-- Settles O20: each command's guard holds in the state that its clause names, and its effect is that row of Table MED-11. -/
theorem groupOwnership : Obligations.GroupOwnership := by
  intro s hl g hg
  refine ⟨?_, ?_, ?_, ?_, ?_, ?_, ?_, ?_, ?_, ?_, ?_, ?_, ?_, ?_, ?_, ?_⟩
  · exact fun req hw => hl.exec_claim hg hw
  · exact fun hst hdrive hpend => hl.exec_mgOwnWireLow_of_unowned hg hst hdrive hpend
  · exact fun hst => hl.exec_mgOwnWireLow_of_waiting hg hst
  · exact fun hst => (hl.exec_mgOwnWireHigh hg).trans (congrArg _ (if_pos hst))
  · exact fun hst => (hl.exec_mgOwnWireHigh hg).trans (congrArg _ (if_neg hst))
  · exact fun hhigh hdrive => hl.exec_mgOwnQuietTimer hg hhigh hdrive
  · exact fun low hst hslot => State.next_when hl.runs (by simp [hg, hst, hslot])
  · exact fun hst hslot => State.next_when hl.runs (by simp [hst, hslot])
  · exact fun hst hdrive hpend => hl.exec_driverEnableDelay_of_held hg hst hdrive hpend
  · exact fun hst hlow => State.next_when hl.runs (by simp [hst, hlow])
  · exact fun hst => State.next_when hl.runs (by simpa using hst)
  · exact fun req hw => hl.exec_release hg hw
  · exact fun hst hquiet => State.next_when hl.runs (by simp [hst, hquiet])
  · exact fun hst => State.next_when hl.runs (by simp [hst])
  · exact fun hst hrel hpend => hl.exec_wireReleaseDelay_of_unclaimed hst hrel hpend
  · exact fun d hd htrip => State.next_when hl.runs (by simp [hd, State.on_of_rd_one htrip])

/-! ### LUNs: issue, suspension and the operation timer -/

/-- An idle LUN of a channel that is up takes the read which its window puts first, and takes it alone: without the cache and
without further planes nothing joins it (R312, R318, R319). -/
theorem State.lunIssue_of_read {s : State} {ch u : Nat} {o : Op} (howned : s.owned (grpOf ch) = true)
    (hup : s.rd F.MED_CH_STAT_STATE (dieOf ch) (ch % 128) = 1) (hidle : s.lunSt ch u = 2)
    (hnext : s.nextOp (s.lun ch u).window (fun _ => true) = some o) (hread : o.kind = .read)
    (hcache : s.rd F.MED_CTL_CACHE_EN (dieOf ch) = 0) (raw : RawEnd) :
    s.lunIssue ch u false raw = (s.put F.MED_LUN_STAT_SUSPS 0 (dieOf ch) (lunJ ch u)).runOps ch u [o] 3 := by
  have hfelled : s.chFelled ch = false := by simp [State.chFelled, hup]
  simp [State.lunIssue, howned, hup, hidle, hfelled, hnext, hread, State.on_of_rd_zero hcache]

/-- The first suspension of an erase that has run its least time, for a read that waits (R314). -/
theorem Live.exec_suspend_of_erase {s : State} {ch u : Nat} {o : Op} {l : List Op} (hl : Live s) (hcur : (s.lun ch u).cur = o :: l)
    (hst : s.lunSt ch u = 5) (hen : s.rd F.MED_CTL_SUSP_EN (dieOf ch) = 1) (hpf : s.lve.pfLow = false)
    (howned : s.owned (grpOf ch) = true) (hread : s.suspRead ch u = true)
    (hrun : 10000 * s.rd F.MED_SUSP_TIME_MIN_RUN_ERASE (dieOf ch) ≤ o.ran + (s.time - o.resumed)) (hfirst : o.susps = 0)
    (hmax : 0 < s.rd F.MED_SUSP_CFG_MAX_ERASE (dieOf ch)) : exec (.suspend ch u) s = .next (s.putLunSt ch u 6) := by
  refine (State.next_when hl.runs rfl).trans (congrArg _ ?_)
  simp [hcur, hst, State.on_of_rd_one hen, hpf, howned, hread, hrun, hfirst, hmax]

/-- Where an operation of LUN `u` runs, or the LUN itself where none does: the address that a timeout reports. -/
def State.lunAddr (s : State) (ch u : Nat) : Nat :=
  match (s.lun ch u).cur with
  | o :: _ => o.addr
  | [] => mkMaddr ch (u / 4) (u % 4) 0 0 0 0

/-- The second expiry of a LUN's timer since its bring-up fells the LUN (R310, R442). -/
theorem Live.exec_lunTimeout_of_second {s : State} {ch u : Nat} (hl : Live s) (hst : s.lunSt ch u = 3)
    (htmos : 1 ≤ s.rd F.MED_LUN_STAT_TMOS (dieOf ch) (lunJ ch u)) :
    exec (.lunTimeout ch u) s = .next (((((s.put F.MED_LUN_STAT_TMOS
      (min 3 (s.rd F.MED_LUN_STAT_TMOS (dieOf ch) (lunJ ch u) + 1)) (dieOf ch) (lunJ ch u)).post
      (E.MED_LUN_TIMEOUT (dieOf ch)) ch (s.lunAddr ch u)).fellLun ch u 4).placeAll).rawFlush) :=
  (State.next_when hl.runs (by simp [hst])).trans (congrArg _ (if_pos (Nat.succ_le_succ htmos)))

/-! ### Reads beyond their LUN -/

/-- The sensed page `r` of an operation has the bus of a channel that is up. -/
structure State.BusOf (s : State) (id step : Nat) (r : Rd) : Prop where
  found : s.med.reads.find? (fun r => r.op.id == id && r.op.step == step && r.stage == 0) = some r
  up : s.rd F.MED_CH_STAT_STATE (dieOf (maCh r.op.addr)) (maCh r.op.addr % 128) = 1
  first : s.busFirst r = true

theorem State.BusOf.granted {s : State} {id step : Nat} {r : Rd} (h : s.BusOf id step r) :
    ¬ (s.rd F.MED_CH_STAT_STATE (dieOf (maCh r.op.addr)) (maCh r.op.addr % 128) ≠ 1 ∨ ¬ s.busFirst r = true) :=
  fun hno => hno.elim (· h.up) (· h.first)

/-- The read as its transfer leaves it where its decode is not predicted to fail: the time it took is noted. -/
def State.movedOp (s : State) (o : Op) : Op := { o with pred := false, ran := s.time - o.issued }

/-- The reads after the page of `r`, no undercut step, has been transferred: it waits for its hard decode (R313). -/
def State.toDecoder (s : State) (r : Rd) (pattern : Bool) : State :=
  { s.transferred (maCh r.op.addr) pattern with
    med.reads := (s.transferred (maCh r.op.addr) pattern).med.reads.map (fun x =>
      if x = r then { op := s.movedOp r.op, stage := 1 } else x) }

/-- The reads after the soft sense of `r` has been transferred: the operation itself goes on (R345). -/
def State.withoutRead (s : State) (r : Rd) (pattern : Bool) : State :=
  { s.transferred (maCh r.op.addr) pattern with
    med.reads := (s.transferred (maCh r.op.addr) pattern).med.reads.filter (fun x => x ≠ r) }

theorem State.toDecoder_feed_touches (s : State) (r : Rd) (pattern : Bool) : Touches [.med] s (s.toDecoder r pattern).feed :=
  (State.feed_keeps (by decide) (Keeps.lit rfl rfl (State.transferred_keeps (by decide) (Keeps.refl s))
    (h_med := .inr (by decide)))).touches

section
variable {s : State} {id step : Nat} {e : BusEnd} {r : Rd} (hbus : s.BusOf id step r) (hl : Live s)
  (hpred : (s.transferred (maCh r.op.addr) e.pattern).predicted r.op e.weight = false)
include hbus hl hpred

/-- A page whose decode is not predicted to fail goes to the hard decoders, with no undercut step (R313, R353). -/
theorem State.BusOf.exec_busTransferDone_page (hcut : r.op.undercut = none) (hpage : r.op.sense = 0) :
    exec (.busTransferDone id step e) s = .next (s.toDecoder r e.pattern).feed := by
  have hno : r.op.undercut.isSome = false := by rw [hcut]; rfl
  refine (State.next_when hl.runs rfl).trans (congrArg _ ?_)
  simp only [hbus.found, hpred, hno, Bool.false_eq_true, or_self, if_false]
  exact (if_neg hbus.granted).trans (if_neg (not_not_intro hpage))

/-- A soft sense is kept, and the next one is queued (R345). -/
theorem State.BusOf.exec_busTransferDone_sense (hsense : r.op.sense ≠ 0) :
    exec (.busTransferDone id step e) s = .next ((s.withoutRead r e.pattern).senseNext (s.movedOp r.op)).feed := by
  refine (State.next_when hl.runs rfl).trans (congrArg _ ?_)
  simp only [hbus.found, hpred]
  exact (if_neg hbus.granted).trans (if_pos hsense)

end

/-- Settles O21: each hypothesis is a guard of its command or picks a branch of it, and the step named is what that branch does. -/
theorem lunAndReadSteps : Obligations.LunAndReadSteps := by
  intro s hl
  refine ⟨?_, ?_, ?_, ?_, ?_, ?_, ?_, ?_, ?_, ?_⟩
  · exact fun ch u o raw howned hup hidle hnext hread hcache => (State.next_when hl.runs rfl).trans
      (congrArg _ (State.lunIssue_of_read howned hup hidle hnext hread hcache raw))
  · exact fun ch u o l hcur hst hen hpf howned hread hrun hfirst hmax =>
      hl.exec_suspend_of_erase hcur hst hen hpf howned hread hrun hfirst hmax
  · exact fun ch u hen => State.next_when hl.runs (by simp [State.on_of_rd_zero hen])
  · exact fun ch u fail susp raw => State.next_when hl.runs rfl
  · exact fun ch u hst htmos => hl.exec_lunTimeout_of_second hst htmos
  · intro id step e r hfound hup hfirst hcut hpred u o
    have hbus : s.BusOf id step r := ⟨hfound, hup, hfirst⟩
    exact ⟨fun hpage => ⟨_, hbus.exec_busTransferDone_page hl hpred hcut hpage, rfl, s.toDecoder_feed_touches r e.pattern⟩,
      fun hsense => hbus.exec_busTransferDone_sense hl hpred hsense⟩
  · intro id res rd hfound o felled l t
    refine (State.next_when hl.runs rfl).trans (congrArg _ ?_)
    simp only [hfound]
    rfl
  · exact fun st hen hpf howned hclosed => State.next_when hl.runs (by
      simp only [State.on_of_rd_one hen, hpf, howned, hclosed, decide_true, Bool.not_false, Bool.and_self, Bool.true_or])
  · intro req d v hd hv hw
    have hdie : d % 2 = d := Nat.mod_eq_of_lt hd
    refine (State.next_when hl.runs rfl).trans (congrArg _ ?_)
    rw [hdie]
    exact hw.byReq_eq _
  · intro d hd
    have e : exec (.medHoursTick d) s = .next (s.put F.MED_HOURS (s.rd F.MED_HOURS (d % 2) + 1) (d % 2)) :=
      State.next_when hl.runs rfl
    rw [Nat.mod_eq_of_lt hd] at e
    exact ⟨_, e, State.rd_put_self hl.wf .., (execMedHoursTick_keeps (by decide) _ e).touches⟩

/-! ### Decoding, and the channels' timers -/

/-- A task whose backoff ends is ready again (R443). -/
theorem State.retryTask_of_backoff {s : State} {n : Nat} {t : Task} (htask : s.task n = some t) (hst : t.st = .backoff) :
    s.retryTask n = s.toReady n := by
  simp only [State.retryTask, htask, hst, if_true]

/-- A request whose backoff ends is sent again, where no other route to its destination is in use (R604). -/
theorem State.retrySkid_of_free {s : State} {k : Nat} {p : Pkt} (hpkt : s.pkt k = some p) (hback : p.backoff = true)
    (hfree : s.routeHeld p.req.src p.dst = false) : s.retrySkid k = (s.bump F.NOC_RETRIES).launch k p := by
  simp only [State.retrySkid, hpkt, hback, hfree, Bool.false_eq_true, not_false_eq_true, and_self, if_true]

/-- With PFAIL_N high, what waits in a backoff is tried again. -/
theorem Live.retryBackoff {s : State} (hl : Live s) (hpf : s.lve.pfLow = false) :
    (∀ n t, s.task n = some t → t.st = .backoff → exec (.retryBackoffExpires (.task n)) s = .next (s.toReady n)) ∧
    (∀ id step, exec (.retryBackoffExpires (.media id step)) s = .next (s.retryOp id step).placeAll.rawFlush) ∧
    (∀ ch ok, (s.chan ch).backoff = true → exec (.retryBackoffExpires (.channel ch ok)) s =
      .next ((s.bump F.MED_CH_RETRAINS 1 (dieOf ch) (ch % 128)).trainEnd ch ok)) ∧
    (∀ k p, s.pkt k = some p → p.backoff = true → s.routeHeld p.req.src p.dst = false →
      exec (.retryBackoffExpires (.skidway k)) s = .next ((s.bump F.NOC_RETRIES).launch k p)) := by
  have hmay : (!s.lve.pfLow) = true := by simp [hpf]
  refine ⟨?_, ?_, ?_, ?_⟩
  · exact fun n t htask hst => (State.next_when hl.runs hmay).trans (congrArg _ (State.retryTask_of_backoff htask hst))
  · exact fun id step => State.next_when hl.runs hmay
  · exact fun ch ok hback => (State.next_when hl.runs hmay).trans (congrArg _ (if_pos hback))
  · exact fun k p hpkt hback hfree =>
      (State.next_when hl.runs hmay).trans (congrArg _ (State.retrySkid_of_free hpkt hback hfree))

/-- ZQ short, 0xD9, for each populated volume of every channel of a die that is up (R307). -/
def State.zqShorts (s : State) (die : Nat) : List Out :=
  (((List.range 128).map (· + 128 * (die % 2))).filter (fun ch =>
    s.owned (grpOf ch) && s.rd F.MED_CH_STAT_STATE (dieOf ch) (ch % 128) == 1)).flatMap (fun ch =>
      ((List.range 16).filter (fun v => (List.range 4).any (fun i => s.populated ch (4 * v + i)))).map
        (fun v => Out.nand ch v 0xD9))

/-- Settles O22: a read in the decoders is settled by what its codewords gave; each timer's guard holds. -/
theorem decodeAndChannelSteps : Obligations.DecodeAndChannelSteps := by
  intro s hl
  refine ⟨?_, ?_, ?_, ?_, ?_⟩
  · intro id step res rd hfound o d good t u bad
    refine ⟨fun hbad => (State.next_when hl.runs rfl).trans (congrArg _ ?_),
      fun hbad => (State.next_when hl.runs rfl).trans (congrArg _ ?_)⟩
    · simp only [hfound]
      exact if_pos hbad
    · simp only [hfound]
      exact if_neg (not_not_intro hbad)
  · exact fun ch auto ok howned hup hwant => State.next_when hl.runs (by simpa [howned, hup] using hwant)
  · intro d hms
    have hon : (s.rd F.MED_ZQ_CFG_SHORT_MS (d % 2) != 0) = true := bne_iff_ne.2 hms
    have e : exec (.zqShortTimer d) s = .next { s with out := s.out ++ s.zqShorts d } := State.next_when hl.runs hon
    exact ⟨_, e, rfl, (execZqShortTimer_keeps (by decide) _ e).touches⟩
  · exact fun ch v c howned hring hup => State.next_when hl.runs (by simp [howned, hring, hup])
  · exact fun hpf => hl.retryBackoff hpf

/-! ### Raw sequences of user logic -/

/-- A submission that RAW_xxx of class `cls` carries: its CLASS is that one, or a reserved one, which RAW_STATUS carries too. -/
def inRawClass (d : Raw) (cls : Nat) : Prop := min d.cls 8 = cls ∨ cls = 0 ∧ min d.cls 8 = 8

theorem inRawClass_of_eq {d : Raw} {cls : Nat} (h : d.cls = cls) (hlt : cls < 8) : inRawClass d cls := .inl (by omega)

theorem inRawClass_of_reserved {d : Raw} (h : 8 ≤ d.cls) : inRawClass d 0 := .inr ⟨rfl, Nat.min_eq_right h⟩

/-- User logic runs, and landing `n` has a raw port on media die `die` (R320). -/
structure State.RawPort (s : State) (n die : Nat) : Prop where
  live : Live s
  user : s.cfg.userOn = true
  landing : n < 128
  die : die < 2

section
variable {s : State} {n die cls : Nat} {d : Raw} (h : s.RawPort n die) (hcls : inRawClass d cls)
include h hcls

/-- The checks before Table MED-9's pass. -/
theorem State.RawPort.reaches : ¬ (¬ s.cfg.userOn = true ∨ 128 ≤ n ∨ 2 ≤ die ∨
    ¬ (min d.cls 8 = cls ∨ cls = 0 ∧ min d.cls 8 = 8)) := by
  rintro (huser | hn | hdie | hc)
  · exact huser h.user
  · exact Nat.not_le.2 h.landing hn
  · exact Nat.not_le.2 h.die hdie
  · exact hc hcls

/-- A submission at the landing's own port that passes Table MED-9 goes on. -/
theorem State.RawPort.next_of_accepted (hok : s.rawCheck n die d = none) {txn : Nat} {f : State → State} :
    (.next (s.when true (fun s => s.rawSubmit n n die txn cls d f)) : Res) = .next (f s) := by
  refine (State.next_when h.live.runs rfl).trans (congrArg _ ((if_neg (h.reaches hcls)).trans ?_))
  simp only [ne_eq, not_true_eq_false, if_false, hok]

/-- One that fails a check of Table MED-9 is refused with its code (R323). -/
theorem State.RawPort.next_of_refused {st : Nat} (hbad : s.rawCheck n die d = some st) {txn : Nat} {f : State → State} :
    (.next (s.when true (fun s => s.rawSubmit n n die txn cls d f)) : Res) = .next (s.rawRefuse n txn die st d) := by
  refine (State.next_when h.live.runs rfl).trans (congrArg _ ((if_neg (h.reaches hcls)).trans ?_))
  simp only [ne_eq, not_true_eq_false, if_false, hbad]

/-- One at another landing's port is discarded, with ACCESS_DENIED; the write itself is answered with SUCCESS (R320, log entry
92). -/
theorem State.RawPort.next_of_foreign {p : Nat} (hp : p ≠ n) {txn : Nat} {f : State → State} :
    (.next (s.when true (fun s => s.rawSubmit n p die txn cls d f)) : Res) = .next ((s.post E.ACCESS_DENIED (reqCode (.landing n))
      (ctrlAddr (0x100000 * (9 + die) + 0x80000 + 0x100 * p))).rawAnswer n txn 0) :=
  (State.next_when h.live.runs rfl).trans (congrArg _ ((if_neg (h.reaches hcls)).trans (if_pos hp)))

end

/-- Settles O32: Table MED-9 decides between the effect of the class and a refusal, and the port's owner comes before both. -/
theorem rawSequences : Obligations.RawSequences := by
  intro s hl huser n die txn d hn hdie
  have h : s.RawPort n die := ⟨hl, huser, hn, hdie⟩
  have hin {cls : Nat} (hc : d.cls = cls) (hlt : cls < 8 := by decide) : inRawClass d cls := inRawClass_of_eq hc hlt
  refine ⟨fun hok => ?_, fun st hbad => ?_, fun p hp hc => h.next_of_foreign (hin hc) hp⟩
  · exact ⟨fun r hc himm => (h.next_of_accepted (hin hc) hok).trans (congrArg _ (if_pos himm)),
      fun r hc hqueue => (h.next_of_accepted (hin hc) hok).trans (congrArg _ (if_neg (by simp [hqueue]))),
      fun hc => h.next_of_accepted (hin hc) hok, fun hc => h.next_of_accepted (hin hc) hok,
      fun hc => h.next_of_accepted (hin hc) hok, fun hc => h.next_of_accepted (hin hc) hok,
      fun hc => h.next_of_accepted (hin hc) hok, fun hc => h.next_of_accepted (hin hc) hok,
      fun hc => h.next_of_accepted (hin hc) hok⟩
  · exact ⟨fun r hc => h.next_of_refused (hin hc) hbad, fun r hc => h.next_of_refused (inRawClass_of_reserved hc) hbad,
      fun hc => h.next_of_refused (hin hc) hbad, fun hc => h.next_of_refused (hin hc) hbad,
      fun hc => h.next_of_refused (hin hc) hbad, fun hc => h.next_of_refused (hin hc) hbad,
      fun hc => h.next_of_refused (hin hc) hbad, fun hc => h.next_of_refused (hin hc) hbad,
      fun hc => h.next_of_refused (hin hc) hbad⟩

end Sys2Proof.Machine

/-! PROOFS. What the commands of a power failure answer: the two edges of PFAIL_N, the refuge save and the return of power. -/

namespace Sys2Proof.Machine
open Sys2Proof

/-- The save may write the refuge exactly where the programs in flight have ended (R385). -/
theorem State.no_program_running_iff (s : State) :
    s.med.luns.all (fun e => e.2.cur.all (fun o => o.kind != .prog)) = true ↔
      ∀ e ∈ s.med.luns, ∀ o ∈ e.2.cur, o.kind ≠ .prog := by
  simp only [List.all_eq_true, bne_iff_ne]

/-- The first fall of PFAIL_N is noted, and then what must stop stops (R385, R448). -/
theorem Live.exec_pfailNFall_of_high {s : State} (hl : Live s) (hhigh : s.lve.pfLow = false) :
    exec .pfailNFall s = .next (State.pfailCut { s with lve.pfLow := true }) :=
  State.next_when (s := { s with lve.pfLow := true }) hl.runs (by rw [hhigh]; rfl)

/-- The rise of PFAIL_N is noted, whatever the part does, and nothing else happens (R438). -/
theorem exec_pfailNRise_touches (s : State) :
    Completes .pfailNRise s (fun t => t.lve = { s.lve with pfLow := false } ∧ Touches [.lve] s t) :=
  ⟨_, rfl, rfl, (execPfailNRise_keeps (by decide) _ rfl).touches⟩

/-- Settles O25: each command's guard is what its clause assumes, and PFAIL_N_RISE has none. -/
theorem powerFailure : Obligations.PowerFailure := by
  intro s hl
  refine ⟨?_, ?_, ?_, ?_, ?_, ?_⟩
  · exact fun hhigh => hl.exec_pfailNFall_of_high hhigh
  · exact fun hlow htaken => State.next_when hl.runs (by simp only [hlow, htaken, Bool.not_false, Bool.and_self])
  · exact fun hwait => State.next_when hl.runs hwait
  · exact fun hsave hended => State.next_when hl.runs (Bool.and_eq_true_iff.2 ⟨hsave, s.no_program_running_iff.2 hended⟩)
  · exact exec_pfailNRise_touches s
  · exact fun hhigh htaken hsaved =>
      State.next_when hl.runs (by simp only [hhigh, htaken, hsaved, Bool.not_false, Bool.and_self])

end Sys2Proof.Machine

/-! PROOFS. The Levee between the two parts: the states of a bundle (Table LVE-2) with its link key, its flits and its probes, and
the messages of the partner (Table LVE-5). -/

namespace Sys2Proof.Machine
open Sys2Proof

/-! ### Bundles: what equalisation and retraining leave -/

/-- The part after the lanes of a bundle have settled: those that locked are noted, and the bundle aligns them. -/
def State.equalised (s : State) (b : Nat) : State :=
  (s.put F.LVE_BUNDLE_STAT_STATE 3 b).updBnd b (fun x => { x with locked := s.lockedLanes b })

theorem State.bst_equalised {s : State} (w : Memory.wf s = true) (b : Nat) : (s.equalised b).bst b = 3 := State.rd_put_self w ..

theorem State.equalised_touches (s : State) (b : Nat) : Touches [.regs 11, .lve] s (s.equalised b) :=
  (State.updBnd_keeps (by decide) (State.put_keeps (by decide) (Keeps.refl s))).touches

/-- The part after the lanes of a bundle in RETRAIN have aligned: the bundle is ACTIVE again, at the width that R396 gives. -/
def State.realigned (s : State) (b : Nat) (rev : Bool) : State :=
  (((s.putRate b (s.bnd b).pRate).putWidth b (widthOf (s.lockedLanes b))).flag F.LVE_BUNDLE_STAT_REVERSED rev b).put
    F.LVE_BUNDLE_STAT_STATE 6 b

/-- It goes on under the next key (R585), with its counts of sends at 0 and its slots counted from now (log entries 119 and
200). -/
def State.retrained (s : State) (b : Nat) (rev : Bool) : State :=
  ((s.realigned b rev).keyUpdate b).updBnd b (fun x =>
    { x with slotAt := (s.realigned b rev).time, unacked := x.unacked.map (fun e => { e with sends := 0 }) })

section
variable {s : State} {b : Nat} (hl : Live s)
include hl

/-! ### Bundles: detection, equalisation and alignment -/

/-- A permitted write of LVE_CTL.BUNDLE_EN starts and fells bundles. -/
theorem Live.exec_bundleEnableWrite {req : Req} (hw : s.mayWrite req (F.LVE_CTL_BUNDLE_EN.off 0 0)) (v : Nat) :
    exec (.bundleEnableWrite req v) s = .next (s.bundleEn v) :=
  (State.next_when hl.runs rfl).trans (congrArg _ (hw.byReq_eq _))

/-- Lanes that have all settled end EQUALISE before its limit, and no lane counts a training failure. -/
theorem Live.exec_bundleEqualiseEnd_of_settled (hst : s.bst b = 2) (hsettled : (bundleLanes b).all s.laneSettled = true) :
    exec (.bundleEqualiseEnd b false) s = .next (s.equalised b) :=
  State.next_when hl.runs (by simp only [hst, hsettled, beq_self_eq_true, Bool.or_true, Bool.and_self])

/-- ALIGN that finds the flits, on lanes that give a width, leads to IDENT at the lower of the two rates (R393, R396). -/
theorem Live.exec_bundleAlignDone_of_width (hst : s.bst b = 3) (hwidth : (widthOf (s.bnd b).locked).1 ≠ 0) (rev : Bool) (r : Nat) :
    exec (.bundleAlignDone b rev (some r)) s = .next ((((s.flag F.LVE_BUNDLE_STAT_REVERSED rev b).putRate b r).putWidth b
      (widthOf (s.bnd b).locked)).put F.LVE_BUNDLE_STAT_STATE 4 b) :=
  (State.next_when hl.runs (beq_iff_eq.2 hst)).trans (congrArg _ (if_neg hwidth))

/-- ALIGN that finds no flits, or lanes that give no width, fells the bundle (R396). -/
theorem Live.exec_bundleAlignDone_of_unusable (hst : s.bst b = 3) (rev : Bool) {found : Option Nat}
    (hbad : found = none ∨ (widthOf (s.bnd b).locked).1 = 0) : exec (.bundleAlignDone b rev found) s =
      .next (((s.flag F.LVE_BUNDLE_STAT_REVERSED rev b).bundleFall b).post E.LVE_BUNDLE_DOWN b) := by
  refine (State.next_when hl.runs (beq_iff_eq.2 hst)).trans (congrArg _ ?_)
  cases found with
  | none => rfl
  | some r => exact if_pos (hbad.resolve_left (Option.some_ne_none r))

/-! ### Bundles: the link key (Table CRY-9) -/

/-- CERT is judged once: a verified one of the die that IDENT named is kept, any other ends KEY. -/
theorem Live.exec_cert (hst : s.bst b = 5) (hfirst : (s.bnd b).cert = false) (c : CertIn) :
    exec (.cert b c) s = .next (if c.ok = true ∧ c.cert.dieId = s.partnerId then
      s.updBnd b (fun x => { x with cert := true, pCert := c.cert }) else s.keyFail b 0) :=
  State.next_when hl.runs (by simp only [hst, hfirst, beq_self_eq_true, Bool.not_false, Bool.and_self])

/-- SHARE follows CERT and is judged once: a point on the curve is kept and answered with the part's own fresh values. -/
theorem Live.exec_share (hst : s.bst b = 5) (hcert : (s.bnd b).cert = true) (hfirst : (s.bnd b).share = false) (p : LinkShare) :
    exec (.share b p) s = .next (if onCurve (p.x, p.y) = true then (s.updBnd b (fun x => { x with
      share := true, pShare := p, eph := s.freeNat, rnd := s.drawn.freeNat % 2 ^ 128 })).draws 2 else s.keyFail b 1) :=
  State.next_when hl.runs (by simp only [hst, hcert, hfirst, beq_self_eq_true, Bool.not_false, Bool.and_self])

/-- FINISH keys the bundle where its signature verifies; the first bundle that is ACTIVE brings up the pair too. -/
theorem Live.exec_finish (hst : s.bst b = 5) (hshare : (s.bnd b).share = true) (r sg time : Nat) :
    exec (.finish b r sg time) s = .next (if s.finishOk b r sg = true then
      (if s.anyActive = true then (s.keyed b).pumpAll.rsCheck else ((s.keyed b).pairUp time).pumpAll.rsCheck)
      else s.keyFail b 2) := by
  refine (State.next_when hl.runs (by simp only [hst, hshare, beq_self_eq_true, Bool.and_self])).trans (congrArg _ ?_)
  cases hok : s.finishOk b r sg with
  | false => simp only [Bool.false_eq_true, not_false_eq_true, if_true, if_false]
  | true => cases hany : s.anyActive <;>
      simp only [not_true_eq_false, Bool.not_true, Bool.not_false, Bool.false_eq_true, if_true, if_false]

/-! ### Bundles: flits and retraining -/

/-- A permitted write of LVE_BUNDLE_CTL.RETRAIN retrains the bundle. -/
theorem Live.exec_bundleRetrain (hb : b < 2) {req : Req} (hw : s.mayWrite req (F.LVE_BUNDLE_CTL_RETRAIN.off b 0)) :
    exec (.bundleRetrain req b) s = .next (s.bundleRetrain b) :=
  (State.next_when hl.runs (decide_eq_true hb)).trans (congrArg _ (hw.byReq_eq _))

/-- A flit that arrives whole and verifies is taken (R401, R402). -/
theorem Live.exec_flitReceive_of_clean (hact : s.active b = true) {f : FlitIn} (hlost : f.lost = false) (hmac : f.mac = true)
    (hcorr : f.corr = false) : exec (.flitReceive b f) s = .next (s.flitIn b f) :=
  (State.next_when hl.runs hact).trans (congrArg _ (by simp only [hlost, hmac, hcorr, Bool.false_eq_true, if_false, if_true]))

/-- A lost flit counts in its window and sets NAK, once for the gap (R402). -/
theorem Live.exec_flitReceive_of_lost (hact : s.active b = true) {f : FlitIn} (hlost : f.lost = true) :
    exec (.flitReceive b f) s = .next
      ((((s.macWindow b).bump F.LVE_FEC_LOST 1 b).updBnd b (fun x => { x with fecs := x.fecs + 1 })).nakOnce b) :=
  (State.next_when hl.runs hact).trans (congrArg _ (if_pos hlost))

/-- The oldest unacknowledged flit has waited: all are sent again, or the bundle retrains after its fifth send (R402, R403). -/
theorem Live.exec_replayTimer (hact : s.active b = true) {e : TxEnt} {l : List TxEnt} (holdest : (s.bnd b).unacked = e :: l) :
    exec (.replayTimer b) s = .next (if 5 ≤ e.sends then s.bundleRetrain b else s.resend b) :=
  (State.next_when hl.runs hact).trans (congrArg _ (by simp only [holdest]))

/-- Lanes that give a width again end RETRAIN, and what was not acknowledged is sent again (R896). -/
theorem Live.exec_bundleRetrainDone (hst : s.bst b = 7) (hwidth : (widthOf (s.lockedLanes b)).1 ≠ 0) (rev : Bool) :
    exec (.bundleRetrainDone b rev) s = .next (if ((s.retrained b rev).bnd b).unacked = [] then (s.retrained b rev).pumpAll.rsCheck
      else ((s.retrained b rev).resend b).pumpAll.rsCheck) := by
  refine (State.next_when hl.runs (Bool.and_eq_true_iff.2 ⟨beq_iff_eq.2 hst, bne_iff_ne.2 hwidth⟩)).trans (congrArg _ ?_)
  exact apply_ite (fun x : State => x.pumpAll.rsCheck) _ (s.retrained b rev) ((s.retrained b rev).resend b)

/-- A part in SOLO probes an enabled bundle (R429). -/
theorem Live.exec_probeDue_of_solo (hen : bit (s.rd F.LVE_CTL_BUNDLE_EN) b = true) (hgoing : s.lve.stopped = false)
    (hsolo : s.pair = 1) (hprobe : s.rd F.LVE_CTL_PROBE_EN = 1) : exec (.probeDue b) s = .next (s.bundleStart b true) :=
  State.next_when hl.runs (by simp only [hen, hgoing, hsolo, State.on_of_rd_one hprobe, beq_self_eq_true, Bool.not_false,
    Bool.and_self, Bool.true_or])

end

/-- Settles O26: the state of the bundle is each command's guard, and what it answers is that row of Table LVE-2. -/
theorem bundleStates : Obligations.BundleStates := by
  intro s hl b hb
  refine ⟨?_, ?_, ?_, ?_, ?_, ?_, ?_, ?_, ?_, ?_, ?_, ?_⟩
  · exact fun req v hw => hl.exec_bundleEnableWrite hw v
  · exact fun hst => State.next_when hl.runs (beq_iff_eq.2 hst)
  · exact fun hst hsettled => ⟨_, hl.exec_bundleEqualiseEnd_of_settled hst hsettled, State.bst_equalised hl.wf b,
      s.equalised_touches b, rfl⟩
  · exact fun rev r hst hwidth => hl.exec_bundleAlignDone_of_width hst hwidth rev r
  · exact fun rev found hst hbad => hl.exec_bundleAlignDone_of_unusable hst rev hbad
  · exact fun i hst => State.next_when hl.runs (beq_iff_eq.2 hst)
  · intro hst
    refine ⟨fun hfirst c => ⟨fun hid => ?_, fun hid => ?_, ?_⟩, fun hcert hfirst p => hl.exec_share hst hcert hfirst p,
      fun hshare r sg time => hl.exec_finish hst hshare r sg time, State.next_when hl.runs (beq_iff_eq.2 hst)⟩
    · exact (hl.exec_cert hst hfirst _).trans (congrArg _ (if_pos ⟨rfl, hid⟩))
    · exact (hl.exec_cert hst hfirst _).trans (congrArg _ (if_neg fun ⟨_, hsame⟩ => hid hsame))
    · exact (hl.exec_cert hst hfirst _).trans (congrArg _ (if_neg fun ⟨hok, _⟩ => Bool.noConfusion hok))
  · exact fun req hw => hl.exec_bundleRetrain hb hw
  · exact fun hst => ⟨State.next_when hl.runs (beq_iff_eq.2 hst), fun rev hwidth => hl.exec_bundleRetrainDone hst hwidth rev⟩
  · exact fun hact => ⟨State.next_when hl.runs hact,
      fun f hlost hmac hcorr => hl.exec_flitReceive_of_clean hact hlost hmac hcorr,
      fun f hlost => hl.exec_flitReceive_of_lost hact hlost, fun e l holdest => hl.exec_replayTimer hact holdest,
      fun hnak => State.next_when hl.runs (Bool.and_eq_true_iff.2 ⟨hact, hnak⟩)⟩
  · exact fun hen hgoing hsolo hprobe => hl.exec_probeDue_of_solo hen hgoing hsolo hprobe
  · exact fun hprobe hact => State.next_when hl.runs (by simp only [hprobe, hact, Bool.not_false, Bool.and_self])

/-! ### Messages of the partner -/

/-- A part that hears its partner: it runs, has an ACTIVE bundle and has not stopped. -/
structure State.Hears (s : State) : Prop where
  live : Live s
  active : s.anyActive = true
  going : s.lve.stopped = false

/-- What a HEARTBEAT says of the partner, as the Levee keeps it. -/
def Lve.heard (x : Lve) (pair groups : Nat) (pf : Bool) (limit dirty : Nat) : Lve :=
  { x with linkSeen := true, linkDead := false, pPair := pair, pGroups := groups, pPfail := pf, pLimit := limit, pDirty := dirty }

/-- The link is alive, and what the partner says of itself is kept. -/
def State.heard (s : State) (pair groups : Nat) (pf : Bool) (limit dirty : Nat) : State :=
  { s.put F.LVE_STAT_LINK_ALIVE 1 with lve := s.lve.heard pair groups pf limit dirty }

/-- The follower takes its time base from the partner's. -/
def State.followed (s : State) (time : Nat) : State :=
  if s.rd F.LVE_STAT_ROLE = 1 then { s.drawn with time := (time + 2 ^ 64 + s.freeNat % 101 - 50) % 2 ^ 64 } else s

/-- The survivor's hand-back ends when the partner holds every group that it gives back (Table LVE-9). -/
def State.handedBack (s : State) (groups : Nat) : State :=
  if s.pair = 6 ∧ s.lve.hbStage = 4 ∧ s.lve.foreign = 0 ∧ s.lve.hbGroups &&& groups = s.lve.hbGroups then s.handbackEnd else s

theorem State.followed_of_anchor {s : State} (hanchor : s.rd F.LVE_STAT_ROLE = 0) (time : Nat) : s.followed time = s :=
  if_neg (by rw [hanchor]; decide)

theorem State.handedBack_of_ne {s : State} (hpair : s.pair ≠ 6) (groups : Nat) : s.handedBack groups = s :=
  if_neg fun ⟨hsix, _⟩ => hpair hsix

/-- A HEARTBEAT writes one register field. -/
theorem State.rd_heard (s : State) (pair groups : Nat) (pf : Bool) (limit dirty : Nat) (f : Fld) :
    (s.heard pair groups pf limit dirty).rd f = (s.put F.LVE_STAT_LINK_ALIVE 1).rd f := rfl

section
variable {s : State} (h : s.Hears)
include h

theorem State.Hears.hears : s.hears = true := by simp only [State.hears, h.active, h.going, Bool.not_false, Bool.and_self]

/-- A message that the part hears is acted on. -/
theorem State.Hears.next_when {f : State → State} : (.next (s.when s.hears f) : Res) = .next (f s) :=
  State.next_when h.live.runs h.hears

/-- A line that the part does not hold yet is kept as a foreign one, and acknowledged (R412). -/
theorem State.Hears.exec_mirrorWrite_of_new {q : Nat} (hnew : Map.get none s.tly.flines q = none) (t kid iu sec off : Nat)
    (data : List (Nat × Blk)) (rs : Bool) :
    let l : Line := { tract := t % 4096, iu := iu, kid := kid, data := data, bytes := 4096 * (sec / 16 % 16 + 1),
                      off := off, mirrored := true, acked := true }
    exec (.mirrorWrite q t kid iu { sec := sec, off := off } data rs false) s =
      .next ((State.sealBuf { s with tly.flines := Map.set none s.tly.flines q (some l) } 1 l data).send (.mirrorAck [q])) :=
  h.next_when.trans (congrArg _ (by simp only [hnew, Option.isSome_none, Bool.false_eq_true, if_false]))

/-- A line that the part holds already changes nothing, and is acknowledged again (R410). -/
theorem State.Hears.exec_mirrorWrite_of_held {q : Nat} {l : Line} (hheld : Map.get none s.tly.flines q = some l)
    (t kid iu : Nat) (p : LinePos) (data : List (Nat × Blk)) (rs : Bool) :
    exec (.mirrorWrite q t kid iu p data rs false) s = .next (s.send (.mirrorAck [q])) :=
  h.next_when.trans (congrArg _ (by simp only [hheld, Option.isSome_some, Bool.false_eq_true, if_false, if_true]))

/-- Outside RESYNC a JOURNAL leaves the start of the mirror ring where it is (R891). -/
theorem State.Hears.exec_journal (q : Nat) (recs : List JRec) :
    exec (.journal q recs false) s = .next ((s.journalIn q recs).send (.journalAck (s.journalIn q recs).tly.mAck)) :=
  h.next_when.trans (congrArg _ (by simp only [Bool.false_eq_true, false_and, if_false]))

/-- A HEARTBEAT is heard, then followed, then may end a hand-back. -/
theorem State.Hears.exec_heartbeat (time pair groups : Nat) (pf : Bool) (limit dirty : Nat) :
    exec (.heartbeat time pair groups pf limit dirty) s =
      .next (((s.heard pair groups pf limit dirty).followed time).handedBack groups) := h.next_when

/-- The anchor outside HANDBACK only hears it. -/
theorem State.Hears.exec_heartbeat_of_anchor (hanchor : s.rd F.LVE_STAT_ROLE = 0) (hpair : s.pair ≠ 6) (time pair groups : Nat)
    (pf : Bool) (limit dirty : Nat) :
    exec (.heartbeat time pair groups pf limit dirty) s = .next (s.heard pair groups pf limit dirty) := by
  have hrole : (s.heard pair groups pf limit dirty).rd F.LVE_STAT_ROLE = s.rd F.LVE_STAT_ROLE :=
    (s.rd_heard ..).trans (State.rd_put_ne h.live.wf (h := by decide) ..)
  have hkept : (s.heard pair groups pf limit dirty).pair = s.pair :=
    (s.rd_heard ..).trans (State.rd_put_ne h.live.wf (h := by decide) ..)
  rw [h.exec_heartbeat, State.followed_of_anchor (hrole.trans hanchor), State.handedBack_of_ne (by rwa [hkept])]

/-- A foreign line that is not lost is sent back to its owner (R460). -/
theorem State.Hears.exec_healReq {q : Nat} {l : Line} (hheld : Map.get none s.tly.flines q = some l) (hgood : l.lost = false) :
    exec (.healReq q) s = .next (s.send (.healData q l.data)) :=
  h.next_when.trans (congrArg _ (by simp only [hheld, hgood, Bool.false_eq_true, if_false]))

/-- The partner's copy replaces the line that heals, the HBM line is written afresh, and the heal is counted (R460). -/
theorem State.Hears.exec_healData {q n : Nat} {l : Line} (hline : s.line q = some l) (hheal : l.healing = true)
    (hfind : s.lve.heals.find? (fun x => x.1 == q) = some (q, n)) (data : List (Nat × Blk)) :
    let t := s.updLine q (fun l => { l with healing := false, data := data, healed := !l.dark.isEmpty })
    let u : State := { t with lve.heals := t.lve.heals.filter (fun x => x.1 ≠ q) }
    exec (.healData q data) s = .next ((u.hbmLine (n * 64) 255 true 64 (u.lineData n) {}).1.bump F.CRY_HEALS) := by
  refine h.next_when.trans (congrArg _ ?_)
  simp only [hline, hfind]
  exact if_neg (not_not_intro hheal)

/-- A message of a type that Table LVE-5 lacks is only counted (R407). -/
theorem State.Hears.exec_unknownMessage : exec .unknownMessage s = .next (s.bump F.LVE_MSG_UNKNOWN) :=
  State.next_when h.live.runs h.active

end

/-- Settles O27: the part hears each message, and the operands and what it holds pick the effect. -/
theorem partnerMessages : Obligations.PartnerMessages := by
  intro s hl hact hgoing
  have h : s.Hears := ⟨hl, hact, hgoing⟩
  refine ⟨?_, ?_, ?_, ?_, ?_, ?_, ?_, ?_, ?_, ?_, ?_, ?_, ?_, ?_, ?_, ?_, ?_, ?_⟩
  · exact fun q t kid iu sec off data rs hnew => h.exec_mirrorWrite_of_new hnew t kid iu sec off data rs
  · exact fun q t kid iu p data rs l hheld => h.exec_mirrorWrite_of_held hheld t kid iu p data rs
  · exact fun qs => h.next_when
  · exact fun q recs => h.exec_journal q recs
  · exact fun q => h.next_when
  · exact fun qs => h.next_when
  · exact fun qs => h.next_when
  · exact fun time pair groups pf limit dirty hanchor hpair =>
      ⟨_, h.exec_heartbeat_of_anchor hanchor hpair time pair groups pf limit dirty,
        (s.rd_heard ..).trans (State.rd_put_self hl.wf ..), rfl, rfl⟩
  · exact fun r => ⟨_, h.next_when, rfl⟩
  · have e : exec .pfail s = .next (s.put F.LVE_STAT_PFAIL_RX 1) := h.next_when
    exact ⟨_, e, State.rd_put_self hl.wf .., (execPfail_keeps (by decide) _ e).touches⟩
  · exact fun q j hpair => State.next_when hl.runs (Bool.and_eq_true_iff.2 ⟨h.hears, beq_iff_eq.2 hpair⟩)
  · exact fun g => ⟨_, h.next_when, rfl⟩
  · exact fun g => h.next_when
  · exact fun q l hheld hgood => h.exec_healReq hheld hgood
  · exact fun q data l n hline hheal hfind => h.exec_healData hline hheal hfind data
  · exact fun q hheals => State.next_when hl.runs hheals
  · exact ⟨_, h.exec_unknownMessage, State.rd_bump_self hl.wf ..,
      (execUnknownMessage_keeps (by decide) _ h.exec_unknownMessage).touches⟩
  · exact fun hkeepers => State.next_when hl.runs hkeepers

end Sys2Proof.Machine

/-! PROOFS. The event ledger: what writing and posting a record does to the ring, its registers and the rate windows, and the
commands of the ledger (R469, R473 to R481). -/

namespace Sys2Proof.Machine
open Sys2Proof

/-! ### Signals of the event vector -/

/-- A message of the port leaves the event ledger as it is. -/
@[simp] theorem State.msix_evt (s : State) (fn vec : Nat) : (s.msix fn vec).evt = s.evt :=
  (State.msix_keeps (ps := (· ∈ [.out, .pci])) (by decide) (by decide) (Keeps.refl s)).same .evt (by decide)

theorem State.evtSignal_of_idle {s : State} (h : s.evt.sigBusy = false) :
    s.evtSignal = { s.msix 0 (s.rd F.EVT_CTL_VECTOR) with evt := { s.evt with sigBusy := true } } := by
  simp [State.evtSignal, h]

/-- A signal writes no record and concerns no rate window. -/
theorem State.evtSignal_evt (s : State) : s.evtSignal.evt.ring = s.evt.ring ∧ s.evtSignal.evt.wins = s.evt.wins := by
  unfold State.evtSignal
  split
  · exact ⟨rfl, rfl⟩
  · simp only [State.msix_evt, and_self]

theorem State.rd_evtSignal {s : State} (w : Memory.wf s = true) (f : Fld) (i j : Nat) : s.evtSignal.rd f i j = s.rd f i j :=
  (State.evtSignal_keeps (ps := (· ∈ [.evt, .out, .pci])) (by decide) (by decide) (by decide) (Keeps.refl s)).rd w f (by simp) i j

/-! ### Writing a record -/

/-- The ring with `r` written at EVT_HEAD. -/
def State.inRing (s : State) (r : Rec) : State := { s with evt.ring := Map.set {} s.evt.ring (s.rd F.EVT_HEAD) r }

/-- EVT_LOST counts the unacknowledged record that `r` overwrites (R475). -/
def State.lossCounted (s : State) (r : Rec) : State := if r.lostBefore then s.bump F.EVT_LOST else s

/-- The ledger with `r` written and the registers advanced, before the signal (R474, R475). -/
def State.stored (s : State) (r : Rec) : State :=
  (((s.inRing r).lossCounted r).put F.EVT_HEAD ((s.rd F.EVT_HEAD + 1) % 4096)).put F.EVT_SEQ (seqNext r.seq)

theorem State.evtWrite_eq (s : State) (r : Rec) :
    s.evtWrite r = if (s.stored r).qualifies r.sev then (s.stored r).evtSignal else s.stored r := rfl

theorem State.wf_lossCounted {s : State} (w : Memory.wf s = true) (r : Rec) : Memory.wf (s.lossCounted r) = true := by
  unfold State.lossCounted
  split
  · exact State.wf_bump w ..
  · exact w

@[simp] theorem State.lossCounted_evt (s : State) (r : Rec) : (s.lossCounted r).evt = s.evt := by
  unfold State.lossCounted
  split <;> rfl

theorem State.rd_lossCounted_self {s : State} (w : Memory.wf s = true) (r : Rec) : (s.lossCounted r).rd F.EVT_LOST =
    if r.lostBefore then min (s.rd F.EVT_LOST + 1) (2 ^ F.EVT_LOST.w - 1) else s.rd F.EVT_LOST := by
  unfold State.lossCounted
  split
  · exact State.rd_bump_self w ..
  · rfl

theorem State.rd_lossCounted_ne {s : State} (w : Memory.wf s = true) (r : Rec) {f : Fld}
    (h : f.key 0 0 ≠ F.EVT_LOST.key 0 0) : (s.lossCounted r).rd f = s.rd f := by
  unfold State.lossCounted
  split
  · exact State.rd_bump_ne w (h := h) ..
  · rfl

/-- A record is written at EVT_HEAD and leaves the rate windows as they are (R474). -/
theorem State.evtWrite_evt (s : State) (r : Rec) :
    (s.evtWrite r).evt.ring = Map.set {} s.evt.ring (s.rd F.EVT_HEAD) r ∧ (s.evtWrite r).evt.wins = s.evt.wins := by
  obtain ⟨hring, hwins⟩ := State.evtSignal_evt (s.stored r)
  have hevt : (s.stored r).evt = (s.inRing r).evt := by simp only [State.stored, State.put_evt, State.lossCounted_evt]
  rw [State.evtWrite_eq]
  split
  · rw [hring, hwins, hevt]; exact ⟨rfl, rfl⟩
  · rw [hevt]; exact ⟨rfl, rfl⟩

theorem State.rd_evtWrite {s : State} (w : Memory.wf s = true) (r : Rec) (f : Fld) (i j : Nat) :
    (s.evtWrite r).rd f i j = (s.stored r).rd f i j := by
  rw [State.evtWrite_eq]
  split
  · exact State.rd_evtSignal (State.wf_put (State.wf_put (State.wf_lossCounted (s := s.inRing r) w r) ..) ..) ..
  · rfl

/-- A field in another place than EVT_HEAD and EVT_SEQ reads what the count of losses leaves in it. -/
theorem State.rd_evtWrite_ne {s : State} (w : Memory.wf s = true) (r : Rec) {f : Fld} (hhead : f.key 0 0 ≠ F.EVT_HEAD.key 0 0)
    (hseq : f.key 0 0 ≠ F.EVT_SEQ.key 0 0) : (s.evtWrite r).rd f = ((s.inRing r).lossCounted r).rd f := by
  have w1 := State.wf_lossCounted (s := s.inRing r) w r
  rw [State.rd_evtWrite w, State.stored, State.rd_put_ne (State.wf_put w1 ..) (h := hseq), State.rd_put_ne w1 (h := hhead)]

/-- EVT_HEAD advances along the ring of 4,096 slots (R474). -/
theorem State.rd_evtWrite_head {s : State} (w : Memory.wf s = true) (r : Rec) :
    (s.evtWrite r).rd F.EVT_HEAD = (s.rd F.EVT_HEAD + 1) % 4096 := by
  have w1 := State.wf_lossCounted (s := s.inRing r) w r
  rw [State.rd_evtWrite w, State.stored, State.rd_put_ne (State.wf_put w1 ..) (h := by decide), State.rd_put_self w1]
  exact Nat.mod_mod ..

theorem seqNext_lt {n : Nat} (h : n < 2 ^ 32) : seqNext n < 2 ^ 32 := by
  unfold seqNext
  split <;> omega

/-- EVT_SEQ passes to the record number that follows, which is not 0 (R474). -/
theorem State.rd_evtWrite_seq {s : State} (w : Memory.wf s = true) {r : Rec} (h : r.seq < 2 ^ 32) :
    (s.evtWrite r).rd F.EVT_SEQ = seqNext r.seq := by
  have w1 := State.wf_lossCounted (s := s.inRing r) w r
  rw [State.rd_evtWrite w, State.stored, State.rd_put_self (State.wf_put w1 ..)]
  exact Fld.cut_of_lt (seqNext_lt h)

/-- A record that overwrites an unacknowledged one is counted in EVT_LOST (R475, log entry 61). -/
theorem State.rd_evtWrite_lost {s : State} (w : Memory.wf s = true) (r : Rec) : (s.evtWrite r).rd F.EVT_LOST =
    if r.lostBefore then min (s.rd F.EVT_LOST + 1) (2 ^ F.EVT_LOST.w - 1) else s.rd F.EVT_LOST :=
  (State.rd_evtWrite_ne w r (by decide) (by decide)).trans (State.rd_lossCounted_self (s := s.inRing r) w r)

/-- No other field changes with a record that is written. -/
theorem State.rd_evtWrite_other {s : State} (w : Memory.wf s = true) (r : Rec) {f : Fld} (hhead : f.key 0 0 ≠ F.EVT_HEAD.key 0 0)
    (hseq : f.key 0 0 ≠ F.EVT_SEQ.key 0 0) (hlost : f.key 0 0 ≠ F.EVT_LOST.key 0 0) : (s.evtWrite r).rd f = s.rd f :=
  (State.rd_evtWrite_ne w r hhead hseq).trans (State.rd_lossCounted_ne (s := s.inRing r) w r hlost)

/-! ### Rate windows -/

/-- The window of a code, opened with the limit of EVT_RATE if it is not open (R476, log entry 62). -/
def State.openWin (s : State) (code : Nat) : Win :=
  let w := Map.get {} s.evt.wins code
  if w.limit = 0 then { w with limit := max 1 (s.rd F.EVT_RATE) } else w

/-- The window of a code is `w`. -/
def State.setWin (s : State) (code : Nat) (w : Win) : State := { s with evt.wins := Map.set {} s.evt.wins code w }

/-- The limit is taken at the first posting of a window (R476, log entry 62). -/
theorem State.openWin_limit (s : State) (code : Nat) : (s.openWin code).limit =
    if (Map.get {} s.evt.wins code).limit = 0 then max 1 (s.rd F.EVT_RATE) else (Map.get {} s.evt.wins code).limit := by
  simp only [State.openWin, apply_ite Win.limit]

theorem State.openWin_posted (s : State) (code : Nat) : (s.openWin code).posted = (Map.get {} s.evt.wins code).posted := by
  simp only [State.openWin, apply_ite Win.posted, ite_self]

/-- Within the limit of its code an event is written and let through (R476). -/
theorem State.postFrom_of_within {s : State} {code : Nat} (h : (s.openWin code).posted < (s.openWin code).limit)
    (src a : Nat) (tag : Option Nat) (b : Nat) : s.postFrom src code a tag b =
      (s.setWin code { s.openWin code with posted := (s.openWin code).posted + 1 }).evtWrite (s.evtRec src code a tag b) :=
  if_pos h

/-- Beyond the limit an event is only counted (R476). -/
theorem State.postFrom_of_beyond {s : State} {code : Nat} (h : (s.openWin code).limit ≤ (s.openWin code).posted)
    (src a : Nat) (tag : Option Nat) (b : Nat) : s.postFrom src code a tag b =
      (s.setWin code { s.openWin code with suppressed := (s.openWin code).suppressed + 1 }).bump F.EVT_SUPPRESSED :=
  if_neg (Nat.not_lt.2 h)

/-- What posting within the limit does to the ring and its registers (R474, R475). -/
theorem State.postFrom_within {s : State} (wf : Memory.wf s = true) {code : Nat}
    (h : (s.openWin code).posted < (s.openWin code).limit) (hseq : s.rd F.EVT_SEQ < 2 ^ 32) (src a : Nat) (tag : Option Nat)
    (b : Nat) :
    let t := s.postFrom src code a tag b
    t.evt.ring = Map.set {} s.evt.ring (s.rd F.EVT_HEAD) (s.evtRec src code a tag b) ∧
    t.rd F.EVT_HEAD = (s.rd F.EVT_HEAD + 1) % 4096 ∧
    t.rd F.EVT_SEQ = (if s.rd F.EVT_SEQ + 1 = 2 ^ 32 then 1 else s.rd F.EVT_SEQ + 1) ∧
    t.rd F.EVT_ACK = s.rd F.EVT_ACK ∧ t.rd F.EVT_SUPPRESSED = s.rd F.EVT_SUPPRESSED ∧
    t.rd F.EVT_LOST = (if (s.evtRec src code a tag b).lostBefore then min (s.rd F.EVT_LOST + 1) (2 ^ F.EVT_LOST.w - 1)
      else s.rd F.EVT_LOST) := by
  have wu : Memory.wf (s.setWin code { s.openWin code with posted := (s.openWin code).posted + 1 }) = true := wf
  rw [State.postFrom_of_within h]
  exact ⟨(State.evtWrite_evt ..).1, State.rd_evtWrite_head wu _, State.rd_evtWrite_seq wu hseq,
    State.rd_evtWrite_other wu _ (by decide) (by decide) (by decide),
    State.rd_evtWrite_other wu _ (by decide) (by decide) (by decide), State.rd_evtWrite_lost wu _⟩

/-- What posting beyond the limit does: EVT_SUPPRESSED counts it (R476). -/
theorem State.postFrom_beyond {s : State} (wf : Memory.wf s = true) {code : Nat}
    (h : (s.openWin code).limit ≤ (s.openWin code).posted) (src a : Nat) (tag : Option Nat) (b : Nat) :
    let t := s.postFrom src code a tag b
    t.evt.ring = s.evt.ring ∧ t.rd F.EVT_HEAD = s.rd F.EVT_HEAD ∧ t.rd F.EVT_SEQ = s.rd F.EVT_SEQ ∧
    t.rd F.EVT_LOST = s.rd F.EVT_LOST ∧
    t.rd F.EVT_SUPPRESSED = min (s.rd F.EVT_SUPPRESSED + 1) (2 ^ F.EVT_SUPPRESSED.w - 1) := by
  have wu : Memory.wf (s.setWin code { s.openWin code with suppressed := (s.openWin code).suppressed + 1 }) = true := wf
  rw [State.postFrom_of_beyond h]
  exact ⟨rfl, State.rd_bump_ne wu (h := by decide) .., State.rd_bump_ne wu (h := by decide) ..,
    State.rd_bump_ne wu (h := by decide) .., State.rd_bump_self wu ..⟩

theorem State.postFrom_touches (s : State) (src code a : Nat) (tag : Option Nat) (b : Nat) :
    Touches [.regs 17, .evt, .out, .pci] s (s.postFrom src code a tag b) :=
  (State.postFrom_keeps (by decide) (by decide) (by decide) (by decide) (Keeps.refl s)).touches

/-- Settles O59: the window of the code, with the limit it has or takes now, decides whether the record is written or counted. -/
theorem eventPosting : Obligations.EventPosting := by
  intro s hl src code a b tag
  refine ⟨s.postFrom_touches .., fun hposted hseq => ?_, fun hlimit => ?_⟩
  · refine State.postFrom_within hl.wf ?_ hseq src a tag b
    rwa [State.openWin_limit, State.openWin_posted]
  · refine State.postFrom_beyond hl.wf ?_ src a tag b
    rwa [State.openWin_limit, State.openWin_posted]

/-! ### EVT_ACK and EVT_TAG_SEL -/

theorem Live.exec_evtAck {s : State} (hl : Live s) {req : Req} (hw : s.mayWrite req (F.EVT_ACK.off 0 0)) (v : Nat) :
    exec (.evtAck req v) s = .next (s.evtAck v) := (State.next_when hl.runs rfl).trans (congrArg _ (hw.byReq_eq _))

theorem State.evtAck_of_between {s : State} {v : Nat} (hv : v < 2 ^ 32) (h0 : v ≠ 0)
    (hack : seqAtOrAfter v (s.rd F.EVT_ACK) = true) (hseq : seqAtOrAfter (s.rd F.EVT_SEQ) v = true) :
    s.evtAck v = s.put F.EVT_ACK v := by
  simp only [State.evtAck, Nat.mod_eq_of_lt hv, if_pos (And.intro h0 (And.intro hack hseq))]

/-- A record number that goes back or beyond EVT_SEQ is discarded, without an event (R481; log entry 52 is the model's choice). -/
theorem State.evtAck_of_outside {s : State} {v : Nat} (hv : v < 2 ^ 32)
    (h : (seqAtOrAfter v (s.rd F.EVT_ACK) && seqAtOrAfter (s.rd F.EVT_SEQ) v) = false) : s.evtAck v = s := by
  simp only [State.evtAck, Nat.mod_eq_of_lt hv]
  exact if_neg fun ⟨_, hack, hseq⟩ => Bool.false_ne_true (h.symm.trans (Bool.and_eq_true_iff.2 ⟨hack, hseq⟩))

theorem Live.exec_evtTagSel {s : State} (hl : Live s) {req : Req} (hw : s.mayWrite req (F.EVT_TAG_SEL.off 0 0)) (v : Nat) :
    exec (.evtTagSel req v) s = .next (s.evtTagSel v) := (State.next_when hl.runs rfl).trans (congrArg _ (hw.byReq_eq _))

/-- Writing a field at several indices leaves a field with another key alone. -/
theorem State.rd_foldl_put_ne {s : State} (w : Memory.wf s = true) (f g : Fld) (val : Nat → Nat) (l : List Nat) (x y : Nat)
    (h : ∀ i ∈ l, g.key x y ≠ f.key i 0) : (l.foldl (fun s i => s.put f (val i) i) s).rd g x y = s.rd g x y := by
  induction l generalizing s with
  | nil => rfl
  | cons i l ih =>
    obtain ⟨hi, hl⟩ := List.forall_mem_cons.1 h
    exact (ih (State.wf_put w ..) hl).trans (State.rd_put_ne w (h := hi) ..)

/-- The entry of the tag is copied into the data words (R469). -/
theorem State.evtTagSel_eq {s : State} (w : Memory.wf s = true) {v : Nat} (hv : v < 2 ^ F.EVT_TAG_SEL.w) : s.evtTagSel v =
    (List.range 16).foldl (fun t i => t.put F.EVT_TAG_DATA (s.ledgerEntry v / 2 ^ (32 * i)) i) (s.put F.EVT_TAG_SEL v) := by
  have htag : (s.put F.EVT_TAG_SEL v).rd F.EVT_TAG_SEL = v := (State.rd_put_self w ..).trans (Fld.cut_of_lt hv)
  have hentry : (s.put F.EVT_TAG_SEL v).ledgerEntry v = s.ledgerEntry v := rfl
  simp only [State.evtTagSel, htag, hentry]

theorem State.rd_evtTagSel {s : State} (w : Memory.wf s = true) {v : Nat} (hv : v < 2 ^ F.EVT_TAG_SEL.w) :
    (s.evtTagSel v).rd F.EVT_TAG_SEL = v ∧
    ∀ i < 16, (s.evtTagSel v).rd F.EVT_TAG_DATA i = s.ledgerEntry v / 2 ^ (32 * i) % 2 ^ 32 := by
  have wt : Memory.wf (s.put F.EVT_TAG_SEL v) = true := State.wf_put w ..
  rw [State.evtTagSel_eq w hv]
  constructor
  · rw [State.rd_foldl_put_ne wt (h := by decide), State.rd_put_self w]
    exact Fld.cut_of_lt hv
  · exact (State.rd_range_put wt F.EVT_TAG_DATA (fun i => s.ledgerEntry v / 2 ^ (32 * i)) 16 (by decide)).2

/-! ### The ends of a rate window and of the 10 µs after a signal -/

/-- The window of a code is closed. -/
def State.winClosed (s : State) (code : Nat) : State := { s with evt.wins := Map.erase s.evt.wins code }

/-- At the end of its window what a code suppressed is written, if it suppressed anything (R476). -/
theorem Live.exec_evtRateWindowEnd {s : State} (hl : Live s) {code : Nat} (hopen : (Map.get {} s.evt.wins code).limit ≠ 0) :
    exec (.evtRateWindowEnd code) s = .next (if (Map.get {} s.evt.wins code).suppressed = 0 then s.winClosed code
      else (s.winClosed code).evtWrite (s.evtRec 17 E.EVT_SUPPRESSED code none (Map.get {} s.evt.wins code).suppressed)) :=
  State.next_when hl.runs (bne_iff_ne.2 hopen)

/-- The 10 µs after a signal are over, and no record waits for their end. -/
def State.sigIdle (s : State) : State := { s with evt.sigBusy := false, evt.sigPend := false }

/-- At the end of the 10 µs a record that waited is signalled (R478). -/
theorem Live.exec_evtSignalTimer {s : State} (hl : Live s) (hbusy : s.evt.sigBusy = true) :
    exec .evtSignalTimer s = .next (if s.evt.sigPend then s.sigIdle.evtSignal else s.sigIdle) :=
  State.next_when hl.runs hbusy

theorem State.sigIdle_evtSignal (s : State) :
    s.sigIdle.evtSignal.evt.sigPend = false ∧ s.sigIdle.evtSignal.evt.sigBusy = true := by
  rw [State.evtSignal_of_idle (s := s.sigIdle) rfl]
  exact ⟨rfl, rfl⟩

/-- Settles O1: each command that passes its guard answers the effect named above. -/
theorem eventLedgerCommands : Obligations.EventLedgerCommands := by
  intro s hl
  refine ⟨fun req v hw hv h0 hack hseq => ?_, fun req v hw hv hout => ?_, fun req v hw hv => ?_, fun code hopen => ?_,
    fun hbusy => ?_⟩
  · refine ⟨_, hl.exec_evtAck hw v, ?_, (State.evtAck_keeps (by decide) (Keeps.refl s)).touches⟩
    rw [State.evtAck_of_between hv h0 hack hseq, State.rd_put_self hl.wf]
    exact Fld.cut_of_lt hv
  · rw [hl.exec_evtAck hw, State.evtAck_of_outside hv hout]
  · obtain ⟨hsel, hdata⟩ := State.rd_evtTagSel hl.wf (v := v) (Nat.lt_trans hv (by decide))
    exact ⟨_, hl.exec_evtTagSel hw v, hsel, hdata, (State.evtTagSel_keeps (by decide) (Keeps.refl s)).touches⟩
  · have h := hl.exec_evtRateWindowEnd hopen
    refine ⟨_, h, ?_, fun hsup => ?_, (execEvtRateWindowEnd_keeps (by decide) (by decide) (by decide) (by decide) _ h).touches⟩
    · split
      · rfl
      · exact (State.evtWrite_evt ..).2
    · rw [if_neg hsup]
      exact (State.evtWrite_evt ..).1
  · have h := hl.exec_evtSignalTimer hbusy
    refine ⟨_, h, ?_, ?_, fun hnone => ?_, (execEvtSignalTimer_keeps (by decide) (by decide) (by decide) _ h).touches⟩
    · split
      · exact (State.sigIdle_evtSignal s).1
      · rfl
    · cases hpend : s.evt.sigPend with
      | true => exact (State.sigIdle_evtSignal s).2
      | false => rfl
    · rw [hnone]; rfl

end Sys2Proof.Machine

/-! PROOFS. The lines of HBM and of the scratchpad: an access changes no line but its own, and a read brings back what was written
(R456, R494, R523, R524, R553). -/

namespace Sys2Proof.Machine
open Sys2Proof

/-! ### The lines as keyed lists -/

theorem Map.get_upd_self {α : Type} [DecidableEq α] (d : α) {m : Map α} (k : Nat) (f : α → α) (h : Map.wf d m = true) :
    Map.get d (Map.upd d m k f) k = f (Map.get d m k) := Map.get_set_self _ _ _ (Map.wf_iff.1 h).1

theorem Map.get_upd_ne {α : Type} [DecidableEq α] (d : α) {m : Map α} {k j : Nat} (f : α → α) (hj : j ≠ k)
    (h : Map.wf d m = true) : Map.get d (Map.upd d m k f) j = Map.get d m j := Map.get_set_ne _ _ _ hj (Map.wf_iff.1 h).1

theorem Memory.wf_hbm {s : State} (h : Memory.wf s = true) : Map.wf {} s.hbm.lines = true := by
  simp only [Memory.wf, Bool.and_eq_true] at h; exact h.1.2

theorem Memory.wf_spm {s : State} (h : Memory.wf s = true) : Map.wf {} s.spm.lines = true := by
  simp only [Memory.wf, Bool.and_eq_true] at h; exact h.2

theorem State.hline_updHline_self {s : State} (w : Memory.wf s = true) (n : Nat) (f : MLine → MLine) :
    (s.updHline n f).hline n = f (s.hline n) := Map.get_upd_self _ _ _ (Memory.wf_hbm w)

theorem State.hline_updHline_ne {s : State} (w : Memory.wf s = true) {n k : Nat} (h : k ≠ n) (f : MLine → MLine) :
    (s.updHline n f).hline k = s.hline k := Map.get_upd_ne _ _ h (Memory.wf_hbm w)

theorem State.sline_updSline_self {s : State} (w : Memory.wf s = true) (b n : Nat) (f : MLine → MLine) :
    (s.updSline b n f).sline b n = f (s.sline b n) := Map.get_upd_self _ _ _ (Memory.wf_spm w)

theorem State.sline_updSline_ne {s : State} (w : Memory.wf s = true) {b n c k : Nat} (h : 65536 * c + k ≠ 65536 * b + n)
    (f : MLine → MLine) : (s.updSline b n f).sline c k = s.sline c k := Map.get_upd_ne _ _ h (Memory.wf_spm w)

/-- A line of HBM is read off the keyed list alone. -/
theorem State.hline_congr {s t : State} (h : t.hbm.lines = s.hbm.lines) (k : Nat) : t.hline k = s.hline k := by
  unfold State.hline; rw [h]

theorem State.sline_congr {s t : State} (h : t.spm = s.spm) (b n : Nat) : t.sline b n = s.sline b n := by
  unfold State.sline; rw [h]

/-! ### Errors that an access meets -/

theorem State.post_hbm (s : State) (c a b : Nat) (t : Option Nat) : (s.post c a b t).hbm = s.hbm :=
  (State.post_keeps (ps := (· ∈ [.regs 17, .evt, .out, .pci])) (by decide) (by decide) (by decide) (by decide)
    (Keeps.refl s)).same .hbm (by decide)

theorem State.post_spm (s : State) (c a b : Nat) (t : Option Nat) : (s.post c a b t).spm = s.spm :=
  (State.post_keeps (ps := (· ∈ [.regs 17, .evt, .out, .pci])) (by decide) (by decide) (by decide) (by decide)
    (Keeps.refl s)).same .spm (by decide)

theorem State.pcFell_hbm (s : State) (p : Nat) : (s.pcFell p).hbm = s.hbm :=
  (State.pcFell_keeps (ps := (· ∈ [.regs 13, .regs 17, .evt, .out, .pci])) (by decide) (by decide) (by decide) (by decide)
    (by decide) (Keeps.refl s)).same .hbm (by decide)

/-- The felling of a pseudo-channel changes no line. -/
theorem State.pcThreshold_lines (s : State) (p : Nat) : (s.pcThreshold p).hbm.lines = s.hbm.lines := by
  unfold State.pcThreshold
  split
  · rfl
  · split
    · rfl
    · rw [State.pcFell_hbm]

/-- An uncorrectable error poisons its line and changes no other (R493). -/
theorem State.hbmUe_lines (s : State) (a p : Nat) :
    (s.hbmUe a p).hbm.lines = (s.updHline (a / 64) (fun l => { l with poison := true })).hbm.lines := by
  simp only [State.hbmUe, apply_ite State.hbm, apply_ite Hbm.lines, State.pcThreshold_lines, ite_self, State.post_hbm,
    State.bump_hbm]

/-- An uncorrectable word poisons its line of the bank and changes no other (R524). -/
theorem State.spmUe_spm (s : State) (b off : Nat) :
    (s.spmUe b off).spm = (s.updSline b (off / 64) (fun l => { l with poison := true })).spm :=
  (State.post_spm ..).trans (State.bump_spm ..)

/-- What an access to line `line` of HBM meets before it is performed; one that writes the whole line meets nothing (R457). -/
def State.hbmMet (s : State) (line : Nat) (full : Bool) (m : Meet) : State :=
  if full then s else if m.ue then s.hbmUe (line * 64) (s.homePc (line * 64) m)
  else if m.ce then s.hbmCe (line * 64) (s.homePc (line * 64) m) else s

theorem State.hbmMet_keeps (s : State) (line : Nat) (full : Bool) (m : Meet) :
    Keeps (fun _ => True) s (s.hbmMet line full m) := by
  unfold State.hbmMet
  split
  · exact Keeps.refl s
  · split
    · exact State.hbmUe_keeps trivial trivial trivial trivial trivial trivial (Keeps.refl s)
    · split
      · exact State.hbmCe_keeps trivial (Keeps.refl s)
      · exact Keeps.refl s

theorem State.hline_hbmMet_ne {s : State} (w : Memory.wf s = true) {line k : Nat} (h : k ≠ line) (full : Bool) (m : Meet) :
    (s.hbmMet line full m).hline k = s.hline k := by
  unfold State.hbmMet
  split
  · rfl
  · split
    · rw [State.hline_congr (State.hbmUe_lines ..), Nat.mul_div_cancel _ (by decide)]
      exact State.hline_updHline_ne w h _
    · split <;> rfl

/-- What an access to a line of a scratchpad bank meets before it is performed (R524). -/
def State.spmMet (s : State) (b off : Nat) (whole : Bool) (m : Meet) : State :=
  if whole then s else if m.ue then s.spmUe b off else if m.ce then s.bump F.SPM_CE else s

theorem State.spmMet_keeps (s : State) (b off : Nat) (whole : Bool) (m : Meet) :
    Keeps (fun _ => True) s (s.spmMet b off whole m) := by
  unfold State.spmMet
  split
  · exact Keeps.refl s
  · split
    · exact State.spmUe_keeps trivial trivial trivial trivial trivial trivial (Keeps.refl s)
    · split
      · exact State.bump_keeps trivial (Keeps.refl s)
      · exact Keeps.refl s

theorem State.sline_spmMet_ne {s : State} (w : Memory.wf s = true) {b off c k : Nat}
    (h : 65536 * c + k ≠ 65536 * b + off / 64) (whole : Bool) (m : Meet) :
    (s.spmMet b off whole m).sline c k = s.sline c k := by
  unfold State.spmMet
  split
  · rfl
  · split
    · rw [State.sline_congr (State.spmUe_spm ..)]
      exact State.sline_updSline_ne w h _
    · split <;> rfl

/-! ### An access changes no line but its own -/

/-- Setting a line changes it in the keyed list, whatever else holds its content. -/
theorem State.setLine_lines (s : State) (n : Nat) (x : MLine) :
    (s.setLine n x).hbm.lines = (s.updHline n (fun _ => x)).hbm.lines := by
  simp only [State.setLine]
  split <;> rfl

/-- An access to an unsealed line does at most two things: it meets an error of the line, and it sets the line. -/
theorem State.plainLine_cases (s : State) (line kid : Nat) (wr : Bool) (off n data : Nat) (m : Meet) :
    let u := s.hbmMet line (wr && n == 64) m
    (s.plainLine line kid wr off n data m).1 = u ∨ ∃ x, (s.plainLine line kid wr off n data m).1 = u.setLine line x := by
  intro u
  unfold State.plainLine
  extract_lets full v
  split
  · exact .inr ⟨_, rfl⟩
  · split
    · exact .inl rfl
    · split
      · exact .inr ⟨_, rfl⟩
      · exact .inl rfl

theorem State.hline_plainLine_ne {s : State} (w : Memory.wf s = true) {line k : Nat} (h : k ≠ line) (kid : Nat) (wr : Bool)
    (off n data : Nat) (m : Meet) : (s.plainLine line kid wr off n data m).1.hline k = s.hline k := by
  have hmet := State.hline_hbmMet_ne w h (wr && n == 64) m
  rcases s.plainLine_cases line kid wr off n data m with e | ⟨x, e⟩
  · rw [e, hmet]
  · rw [e, State.hline_congr (State.setLine_lines ..), State.hline_updHline_ne ((State.hbmMet_keeps ..).wf w) h, hmet]

/-- An access to a line of a bank does at most two things: it meets an error of the line, and it sets the line. -/
theorem State.spmLine_cases (s : State) (b off : Nat) (wr : Bool) (op n data : Nat) (m : Meet) :
    let u := s.spmMet b off (wr && n == 64) m
    (s.spmLine b off wr op n data m).1 = u ∨
      ∃ x, (s.spmLine b off wr op n data m).1 = u.updSline b (off / 64) (fun _ => x) := by
  intro u
  unfold State.spmLine
  extract_lets whole v
  split
  · exact .inl rfl
  · split
    · exact .inl rfl
    · exact .inr ⟨_, rfl⟩

theorem State.sline_spmLine_ne {s : State} (w : Memory.wf s = true) {b off c k : Nat}
    (h : 65536 * c + k ≠ 65536 * b + off / 64) (wr : Bool) (op n data : Nat) (m : Meet) :
    (s.spmLine b off wr op n data m).1.sline c k = s.sline c k := by
  have hmet := State.sline_spmMet_ne w h (wr && n == 64) m
  rcases s.spmLine_cases b off wr op n data m with e | ⟨x, e⟩
  · rw [e, hmet]
  · rw [e, State.sline_updSline_ne ((State.spmMet_keeps ..).wf w) h, hmet]

/-! ### Bytes of a line -/

/-- The bytes that a merge replaces read as the new ones. -/
theorem bits_mergeBytes_self (old off n new : Nat) : bits (mergeBytes old off n new) (8 * off) (8 * n) = new % 2 ^ (8 * n) :=
  bits_setBits_self ..

/-- The bytes on either side of a merge read as before. -/
theorem bits_mergeBytes_other {off n o l : Nat} (h : o + l ≤ off ∨ off + n ≤ o) (old new : Nat) :
    bits (mergeBytes old off n new) (8 * o) (8 * l) = bits old (8 * o) (8 * l) := by
  rcases h with h | h
  · exact bits_setBits_below (by omega)
  · exact bits_setBits_above (by omega)

/-- A line after a write of `n` bytes at `off`: a whole line takes the new bytes alone. -/
def lineWritten (old off n new : Nat) : Nat := if n = 64 then new % 2 ^ 512 else mergeBytes old off n new

theorem bits_lineWritten_self {off n : Nat} (h : off + n ≤ 64) (old new : Nat) :
    bits (lineWritten old off n new) (8 * off) (8 * n) = new % 2 ^ (8 * n) := by
  unfold lineWritten
  split
  next hn =>
    subst hn
    obtain rfl : off = 0 := by omega
    simp only [bits, Nat.mul_zero, Nat.pow_zero, Nat.div_one, Nat.reduceMul, Nat.mod_mod]
  next => exact bits_mergeBytes_self ..

theorem bits_lineWritten_other {off n o l : Nat} (hl : 0 < l) (hol : o + l ≤ 64) (hoff : off + n ≤ 64)
    (h : o + l ≤ off ∨ off + n ≤ o) (old new : Nat) :
    bits (lineWritten old off n new) (8 * o) (8 * l) = bits old (8 * o) (8 * l) := by
  have hn : n ≠ 64 := by omega
  rw [lineWritten, if_neg hn, bits_mergeBytes_other h]

/-! ### Lines of HBM that hold plain content -/

/-- A line outside the sealed regions and the map cache region, not poisoned, whose content lies under KID `kid` and its present
key. -/
structure State.PlainAt (s : State) (line kid : Nat) : Prop where
  unsealed : s.sealOf (64 * line) = none
  unmapped : s.mapLine line = none
  clean : (s.hline line).poison = false
  under : (s.hline line).kid = kid
  key : (s.hline line).key = if kid = 0 then 0 else Map.get 0 s.cry.keys kid

/-- Where a line lies does not depend on what lines hold. -/
theorem State.sealOf_updHline (s : State) (n a : Nat) (f : MLine → MLine) : (s.updHline n f).sealOf a = s.sealOf a := rfl

theorem State.mapLine_eq_none_iff (s : State) (n : Nat) : s.mapLine n = none ↔ ¬ (2 ^ 28 * (s.hbmRegion 0).1 ≤ 64 * n ∧
    64 * n < 2 ^ 28 * ((s.hbmRegion 0).1 + (s.hbmRegion 0).2) ∧ s.structAt (64 * n) ≠ 2) := by
  unfold State.mapLine
  extract_lets a k
  split
  next hin => exact ⟨fun e => (Option.some_ne_none _ e).elim, fun hout => absurd hin hout⟩
  next hout => exact ⟨fun _ => hout, fun _ => rfl⟩

theorem State.mapLine_updHline {s : State} {n : Nat} (h : s.mapLine n = none) (k : Nat) (f : MLine → MLine) :
    (s.updHline k f).mapLine n = none := by
  have hregion : (s.updHline k f).hbmRegion 0 = s.hbmRegion 0 := rfl
  have hstruct : (s.updHline k f).structAt (64 * n) = s.structAt (64 * n) := rfl
  rw [State.mapLine_eq_none_iff, hregion, hstruct]
  exact (s.mapLine_eq_none_iff n).1 h

section
variable {s : State} {line kid : Nat} (h : s.PlainAt line kid)
include h

/-- Such a line holds what the keyed list has there. -/
theorem State.PlainAt.lineData : s.lineData line = (s.hline line).data := by
  simp only [State.lineData, h.unsealed, h.unmapped, Option.getD_none]

/-- A read under the same key brings the bytes that lie there (R553). -/
theorem State.PlainAt.read (o l : Nat) :
    s.plainLine line kid false o l 0 {} = (s, some (0, bits (s.hline line).data (8 * o) (8 * l))) := by
  simp [State.plainLine, h.clean, h.under, h.key, h.lineData, bits]

/-- A write sets its bytes and leaves the line under the key of its KID (R494, R553). -/
theorem State.PlainAt.write (off n data : Nat) :
    s.plainLine line kid true off n data {} =
      (s.updHline line (fun _ => { data := lineWritten (s.hline line).data off n data, kid := kid,
                                   key := if kid = 0 then 0 else Map.get 0 s.cry.keys kid }), some (0, 0)) := by
  have hset : ∀ x, s.setLine line x = s.updHline line (fun _ => x) := fun x => by
    simp only [State.setLine, State.sealOf_updHline, h.unsealed]
  by_cases hn : n = 64
  · simp only [State.plainLine, hn, lineWritten, hset, Bool.true_and, beq_self_eq_true, if_true]
  · simp [State.plainLine, hn, lineWritten, hset, h.clean, h.under, h.key, h.lineData]

/-- The line stays such a line when its bytes are set under the same key. -/
theorem State.PlainAt.updHline (w : Memory.wf s = true) (v : Nat) :
    (s.updHline line (fun _ => { data := v, kid := kid, key := if kid = 0 then 0 else Map.get 0 s.cry.keys kid })).PlainAt
      line kid :=
  have e := State.hline_updHline_self w line _
  ⟨h.unsealed, State.mapLine_updHline h.unmapped .., congrArg MLine.poison e, congrArg MLine.kid e, congrArg MLine.key e⟩

/-- After a write a read brings back what was written, and the other bytes as they were (R494, R553). -/
theorem State.PlainAt.read_write (w : Memory.wf s = true) {off n : Nat} (hoff : off + n ≤ 64) (data : Nat) :
    ∃ t, s.plainLine line kid true off n data {} = (t, some (0, 0)) ∧
      (t.plainLine line kid false off n 0 {}).2 = some (0, data % 2 ^ (8 * n)) ∧
      ∀ o l, 0 < l → o + l ≤ 64 → o + l ≤ off ∨ off + n ≤ o →
        (t.plainLine line kid false o l 0 {}).2 = (s.plainLine line kid false o l 0 {}).2 := by
  refine ⟨_, h.write off n data, ?_, fun o l hl hol hdis => ?_⟩
  · rw [(h.updHline w _).read, State.hline_updHline_self w, bits_lineWritten_self hoff]
  · rw [(h.updHline w _).read, h.read, State.hline_updHline_self w, bits_lineWritten_other hl hol hoff hdis]

end

/-! ### Lines of the scratchpad that hold what was written -/

/-- Line `n` of bank `b` holds no structure that is read off elsewhere (tag ledger, context records, root table), and is not
poisoned. -/
structure State.StoredAt (s : State) (b n : Nat) : Prop where
  bank : b ≠ 7 ∧ b ≠ 8 ∧ b ≠ 9
  root : b ≠ 0 ∨ 8192 ≤ n
  clean : (s.sline b n).poison = false

theorem State.rootLine_of_beyond (s : State) {n : Nat} (h : 8192 ≤ n) : s.rootLine n = none := if_neg (Nat.not_lt.2 h)

section
variable {s : State} {b off : Nat} (h : s.StoredAt b (off / 64))
include h

theorem State.StoredAt.slineData : s.slineData b (off / 64) = (s.sline b (off / 64)).data := by
  obtain ⟨h7, h8, h9⟩ := h.bank
  have hroot : (if b = 0 then s.rootLine (off / 64) else none) = none := by
    split
    next hb => exact s.rootLine_of_beyond (h.root.resolve_left (not_not_intro hb))
    next => rfl
  simp only [State.slineData, h7, h8, h9, or_self, if_false, hroot, Option.getD_none]

/-- A read brings the bytes that lie there (R523). -/
theorem State.StoredAt.read {o : Nat} (ho : o / 64 = off / 64) (l : Nat) : s.spmLine b o false 0 l 0 {} =
    (s, (0, bits (s.sline b (off / 64)).data (8 * (o % 64)) (8 * l))) := by
  simp [State.spmLine, ho, h.clean, h.slineData, bits]

/-- A plain write sets its bytes (R523). -/
theorem State.StoredAt.write (n data : Nat) : s.spmLine b off true 0 n data {} =
    (s.updSline b (off / 64) (fun _ => { data := mergeBytes (s.sline b (off / 64)).data (off % 64) n data }), (0, 0)) := by
  simp [State.spmLine, h.clean, h.slineData]

theorem State.StoredAt.updSline (w : Memory.wf s = true) (v : Nat) :
    (s.updSline b (off / 64) (fun _ => { data := v })).StoredAt b (off / 64) :=
  ⟨h.bank, h.root, congrArg MLine.poison (State.sline_updSline_self w ..)⟩

/-- After a write a read brings back what was written, and the other bytes of the line as they were (R523). -/
theorem State.StoredAt.read_write (w : Memory.wf s = true) (n data : Nat) :
    ∃ t, s.spmLine b off true 0 n data {} = (t, (0, 0)) ∧ (t.spmLine b off false 0 n 0 {}).2 = (0, data % 2 ^ (8 * n)) ∧
      ∀ o l, o / 64 = off / 64 → o % 64 + l ≤ off % 64 ∨ off % 64 + n ≤ o % 64 →
        (t.spmLine b o false 0 l 0 {}).2 = (s.spmLine b o false 0 l 0 {}).2 := by
  refine ⟨_, h.write n data, ?_, fun o l ho hdis => ?_⟩
  · rw [(h.updSline w _).read rfl, State.sline_updSline_self w, bits_mergeBytes_self]
  · rw [(h.updSline w _).read ho, h.read ho, State.sline_updSline_self w, bits_mergeBytes_other hdis]

end

/-- Settles O58: an access changes its own line alone, and a line whose content is the list's own reads back what was written. -/
theorem memoryLines : Obligations.MemoryLines := by
  intro s hf
  refine ⟨fun line kid wr off n data m k hk => State.hline_plainLine_ne hf.wf hk kid wr off n data m,
    fun line kid off n data _ hoff hseal hmap hclean hkid hkey => ?_,
    fun b off wr op n data m c k hk => State.sline_spmLine_ne hf.wf hk wr op n data m,
    fun b off n data h7 h8 h9 hroot _ _ hclean => ?_⟩
  · have h : s.PlainAt line kid := ⟨hseal, hmap, hclean, hkid, hkey⟩
    exact h.read_write hf.wf hoff data
  · have h : s.StoredAt b (off / 64) := ⟨⟨h7, h8, h9⟩, hroot, hclean⟩
    obtain ⟨t, hwrite, hback, hother⟩ := h.read_write hf.wf n data
    exact ⟨t, hwrite, hback, fun o l ho _ _ hdis => hother o l ho hdis⟩

end Sys2Proof.Machine

/-! PROOFS. HBM and the sweep of the scratchpad: refresh, temperature, retraining, self-refresh and the end of an evacuation. -/

namespace Sys2Proof.Machine
open Sys2Proof

/-! ### HBM: temperature -/

/-- A reading of stack `k`, with the stacks that refresh at the doubled rate and those that are hot after it. -/
def State.tempSeen (s : State) (k d : Nat) (doubled hot : List Nat) : State :=
  { s.put F.HBM_TEMP_DEGC d k with hbm.hot85 := doubled, hbm.hot95 := hot }

theorem State.wf_tempSeen {s : State} (w : Memory.wf s = true) (k d : Nat) (doubled hot : List Nat) :
    Memory.wf (s.tempSeen k d doubled hot) = true := State.wf_put w F.HBM_TEMP_DEGC d k 0

theorem State.rd_tempSeen {s : State} (w : Memory.wf s = true) (k : Nat) {d : Nat} (hd : d < 2 ^ 8) (doubled hot : List Nat) :
    (s.tempSeen k d doubled hot).rd F.HBM_TEMP_DEGC k = d :=
  (State.rd_put_self w F.HBM_TEMP_DEGC d k 0).trans (Fld.cut_of_lt hd)

/-- Between 83 and 85 degrees a stack keeps the rate it has, and is hot no longer (R508, R509). -/
theorem Live.exec_hbmTempRead_of_between {s : State} (hl : Live s) {k d : Nat} (hk : k < 4) (hlow : 83 < d) (hhigh : d < 85) :
    exec (.hbmTempRead k d) s = .next (s.tempSeen k d s.hbm.hot85 (s.hbm.hot95.erase k)) := by
  refine (State.next_when hl.runs (decide_eq_true hk)).trans (congrArg _ ?_)
  simp only [if_neg (Nat.not_le.2 hhigh), if_neg (Nat.not_le.2 hlow), if_pos (show d < 95 by omega)]
  rfl

/-- A stack that reaches 95 degrees refreshes at the doubled rate and is reported hot (R508, R509). -/
theorem Live.exec_hbmTempRead_of_hot {s : State} (hl : Live s) {k d : Nat} (hk : k < 4) (hd : 95 ≤ d)
    (h85 : s.hbm.hot85.contains k = false) (h95 : s.hbm.hot95.contains k = false) :
    exec (.hbmTempRead k d) s = .next ((s.tempSeen k d (s.hbm.hot85 ++ [k]) (s.hbm.hot95 ++ [k])).post E.HBM_HOT k d) := by
  refine (State.next_when hl.runs (decide_eq_true hk)).trans (congrArg _ ?_)
  simp only [State.put_hbm, h85, h95, if_pos (show 85 ≤ d by omega), if_neg (Nat.not_lt.2 hd), Bool.false_eq_true, if_false]
  rfl

theorem State.tempSeen_post_reads {s : State} (w : Memory.wf s = true) (k : Nat) {d : Nat} (hd : d < 2 ^ 8)
    (doubled hot : List Nat) (c a b : Nat) :
    let t := (s.tempSeen k d doubled hot).post c a b
    t.rd F.HBM_TEMP_DEGC k = d ∧ t.hbm.hot85 = doubled ∧ t.hbm.hot95 = hot := by
  refine ⟨?_, ?_, ?_⟩
  · rw [State.rd_post (State.wf_tempSeen w ..) (h := by decide), State.rd_tempSeen w k hd]
  · rw [State.post_hbm]; rfl
  · rw [State.post_hbm]; rfl

/-! ### HBM: retraining of the write eye -/

theorem Live.exec_hbmWriteEyeRetrain {s : State} (hl : Live s) {ch : Nat} (hch : ch < 64) (hdone : s.cfg.done = true) (ok : Bool) :
    exec (.hbmWriteEyeRetrain ch ok) s = .next (if ok then s.bump F.HBM_RETRAINS
      else ((s.bump F.HBM_RETRAINS).bump F.HBM_RETRAIN_FAILS).post E.HBM_RETRAIN_FAIL ch) :=
  State.next_when hl.runs (Bool.and_eq_true_iff.2 ⟨hdone, decide_eq_true hch⟩)

/-- A retraining is counted; one that fails is counted once more, and reported (R498, R499). -/
theorem State.retrains_reads {s : State} (w : Memory.wf s = true) (c a b : Nat) :
    let t := ((s.bump F.HBM_RETRAINS).bump F.HBM_RETRAIN_FAILS).post c a b
    t.rd F.HBM_RETRAINS = min (s.rd F.HBM_RETRAINS + 1) (2 ^ 32 - 1) ∧
    t.rd F.HBM_RETRAIN_FAILS = min (s.rd F.HBM_RETRAIN_FAILS + 1) (2 ^ 32 - 1) := by
  have w1 : Memory.wf (s.bump F.HBM_RETRAINS) = true := State.wf_bump w ..
  have w2 : Memory.wf ((s.bump F.HBM_RETRAINS).bump F.HBM_RETRAIN_FAILS) = true := State.wf_bump w1 ..
  constructor
  · rw [State.rd_post w2 (h := by decide), State.rd_bump_ne w1 (h := by decide), State.rd_bump_self w]
    rfl
  · rw [State.rd_post w2 (h := by decide), State.rd_bump_self w1, State.rd_bump_ne w (h := by decide)]
    rfl

/-! ### HBM: self-refresh -/

/-- A channel may enter self-refresh when it is idle without debt, or for its gate (R514). -/
theorem State.srMay_of {s : State} {ch : Nat} (h : s.rd F.HBM_SR_CTL_IDLE_US ≠ 0 ∧ s.noDebt (2 * ch) = true ∧
    s.noDebt (2 * ch + 1) = true ∨ s.hbmGateCloses ch = true) : s.srMay ch = true := by
  rcases h with ⟨hidle, heven, hodd⟩ | hgate
  · simp [State.srMay, hidle, heven, hodd]
  · simp [State.srMay, hgate]

/-! ### HBM: the end of an evacuation -/

/-- The registers after an evacuation: none runs, what was copied, and the pseudo-channel is out of use (R519). -/
def State.evacuated (s : State) (mib : Nat) : State :=
  ((s.put F.HBM_EVAC_ACTIVE 0).put F.HBM_EVAC_DONE_MIB mib).put F.HBM_PC_STAT_STATE 2 (s.rd F.HBM_EVAC_PC)

theorem State.wf_evacuated {s : State} (w : Memory.wf s = true) (mib : Nat) : Memory.wf (s.evacuated mib) = true :=
  State.wf_put (State.wf_put (State.wf_put w ..) ..) ..

/-- The states of the pseudo-channels lie above the registers of an evacuation. -/
theorem pcState_key_le {p : Nat} (hp : p < 128) : F.HBM_PC_STAT_STATE.key 0 0 ≤ F.HBM_PC_STAT_STATE.key p 0 := by
  simp only [Fld.key, F.HBM_PC_STAT_STATE]
  omega

theorem State.rd_evacuated {s : State} (w : Memory.wf s = true) (hpc : s.rd F.HBM_EVAC_PC < 128) {mib : Nat} (hmib : mib < 2 ^ 11) :
    (s.evacuated mib).rd F.HBM_EVAC_ACTIVE = 0 ∧ (s.evacuated mib).rd F.HBM_EVAC_DONE_MIB = mib ∧
    (s.evacuated mib).rd F.HBM_PC_STAT_STATE (s.rd F.HBM_EVAC_PC) = 2 := by
  have w1 : Memory.wf (s.put F.HBM_EVAC_ACTIVE 0) = true := State.wf_put w ..
  have w2 : Memory.wf ((s.put F.HBM_EVAC_ACTIVE 0).put F.HBM_EVAC_DONE_MIB mib) = true := State.wf_put w1 ..
  have hactive := Nat.ne_of_lt (Nat.lt_of_lt_of_le (show F.HBM_EVAC_ACTIVE.key 0 0 < _ by decide) (pcState_key_le hpc))
  have hdone := Nat.ne_of_lt (Nat.lt_of_lt_of_le (show F.HBM_EVAC_DONE_MIB.key 0 0 < _ by decide) (pcState_key_le hpc))
  refine ⟨?_, ?_, State.rd_put_self w2 ..⟩
  · rw [State.evacuated, State.rd_put_ne w2 (h := hactive), State.rd_put_ne w1 (h := by decide), State.rd_put_self w]
    rfl
  · rw [State.evacuated, State.rd_put_ne w2 (h := hdone), State.rd_put_self w1]
    exact Fld.cut_of_lt hmib

/-- An evacuation that lost no line ends, with no pseudo-channel waiting to be felled (R519, R522). -/
theorem Live.exec_evacuationDone {s : State} (hl : Live s) (hact : s.rd F.HBM_EVAC_ACTIVE = 1) (hwait : s.hbm.waiting = [])
    (mib : Nat) : exec (.evacuationDone mib []) s =
      .next ((s.evacuated mib).post E.HBM_EVAC_DONE (s.rd F.HBM_EVAC_PC) mib) := by
  have hnone : ((s.evacuated mib).post E.HBM_EVAC_DONE (s.rd F.HBM_EVAC_PC) mib).hbm.waiting = [] := by
    rw [State.post_hbm]
    exact hwait
  refine (State.next_when hl.runs (State.on_of_rd_one hact)).trans (congrArg _ ?_)
  dsimp only [List.foldl_nil]
  split
  next => rfl
  next q r hq => exact absurd (hnone.symm.trans hq) (List.cons_ne_nil q r).symm

theorem State.evacuated_post_touches (s : State) (mib c a b : Nat) :
    Touches [.regs 13, .regs 17, .evt, .out, .pci] s ((s.evacuated mib).post c a b) :=
  (State.post_keeps (by decide) (by decide) (by decide) (by decide) (State.put_keeps (by decide) (State.put_keeps (by decide)
    (State.put_keeps (by decide) (Keeps.refl s))))).touches

/-- Settles O13: each hypothesis is a guard of its command or picks a branch of it, and the registers read what that branch
leaves in them. -/
theorem hbmAndSweepEvents : Obligations.HbmAndSweepEvents := by
  intro s hl
  refine ⟨?_, ?_, ?_, ?_, ?_, ?_, ?_, ?_⟩
  · intro pc done window hpc hst hsr t u v hrate
    exact (State.next_when hl.runs (by simp [hpc, hst, State.on_of_rd_zero hsr])).trans (congrArg _ (if_pos hrate))
  · intro k d hk hhigh hlow
    have h := hl.exec_hbmTempRead_of_between hk hlow hhigh
    exact ⟨_, h, State.rd_tempSeen hl.wf k (Nat.lt_trans hhigh (by decide)) .., rfl, rfl,
      (execHbmTempRead_keeps (by decide) (by decide) (by decide) (by decide) (by decide) (by decide) _ h).touches⟩
  · intro k d hk hhot hd h85 h95
    have h := hl.exec_hbmTempRead_of_hot hk hhot h85 h95
    obtain ⟨hdegc, hdoubled, hlisted⟩ :=
      State.tempSeen_post_reads hl.wf k hd (s.hbm.hot85 ++ [k]) (s.hbm.hot95 ++ [k]) E.HBM_HOT k d
    exact ⟨_, h, hdegc, hdoubled, hlisted,
      (execHbmTempRead_keeps (by decide) (by decide) (by decide) (by decide) (by decide) (by decide) _ h).touches⟩
  · intro ch hch hdone
    have hfail := hl.exec_hbmWriteEyeRetrain hch hdone false
    obtain ⟨hcount, hfails⟩ := State.retrains_reads hl.wf E.HBM_RETRAIN_FAIL ch 0
    constructor
    · exact ⟨_, hl.exec_hbmWriteEyeRetrain hch hdone true, State.rd_bump_self hl.wf ..,
        State.rd_bump_ne hl.wf (h := by decide) .., (State.bump_keeps (by decide) (Keeps.refl s)).touches⟩
    · exact ⟨_, hfail, hcount, hfails,
        (execHbmWriteEyeRetrain_keeps (by decide) (by decide) (by decide) (by decide) (by decide) _ hfail).touches⟩
  · intro p hp
    exact ⟨_, State.next_when hl.runs (decide_eq_true hp), State.rd_bump_self hl.wf ..,
      (State.bump_keeps (by decide) (Keeps.refl s)).touches⟩
  · intro ch hch hsr hmay
    exact State.next_when hl.runs (by simp [hch, State.on_of_rd_zero hsr, State.srMay_of hmay])
  · intro mib hact hpc hwait hmib
    obtain ⟨hidle, hcopied, hout⟩ := State.rd_evacuated hl.wf hpc hmib
    have w := State.wf_evacuated hl.wf mib
    exact ⟨_, hl.exec_evacuationDone hact hwait mib, (State.rd_post w (h := by decide) ..).trans hidle,
      (State.rd_post w (h := by decide) ..).trans hcopied, (State.rd_post w (h := by decide) ..).trans hout,
      s.evacuated_post_touches ..⟩
  · intro b hb hen hpf
    exact State.next_when hl.runs (by simp [State.on_of_rd_one hen, hpf, hb])

end Sys2Proof.Machine

/-! PROOFS. The fabric: landings, readback, its memories, and what LUTs, flip-flops and slices compute. -/

namespace Sys2Proof.Machine
open Sys2Proof

/-! ### Readback -/

/-- What a readback's output is read from: the flip-flops not yet captured are captured directly (R654). -/
def State.rbSource (s : State) : State := if s.fab.rbWait then s.rbCaptured else s

/-- The output is written: the state, the bytes written and the status (R656). -/
def State.rbOutput (s : State) : State × Nat × Nat :=
  s.rbSource.rbWrite (s.rbSource.rd64 F.LDG_RB_DST_LO F.LDG_RB_DST_HI) (s.rbSource.rbRecords s.fab.rbLeft)

/-- The registers after the output of a readback, with no stand left and the shadow cells free (R657). -/
def State.rbEnded (s : State) (bytes status : Nat) : State :=
  { ((s.put F.LDG_RB_BYTES bytes).put F.LDG_RB_STAT_RESULT status).put F.LDG_RB_STAT_BUSY 0 with
    fab.rbLeft := [], fab.shadow := [] }

theorem State.wf_rbOutput {s : State} (w : Memory.wf s = true) : Memory.wf s.rbOutput.1 = true := by
  have hsource : Keeps (fun _ => True) s s.rbSource := by
    unfold State.rbSource
    split
    · exact State.rbCaptured_keeps trivial (Keeps.refl s)
    · exact Keeps.refl s
  exact (State.rbWrite_keeps trivial trivial trivial trivial trivial trivial trivial trivial trivial trivial trivial trivial
    trivial trivial trivial trivial trivial trivial trivial hsource).wf w

theorem State.wf_rbEnded {s : State} (w : Memory.wf s = true) (bytes status : Nat) : Memory.wf (s.rbEnded bytes status) = true :=
  State.wf_put (State.wf_put (State.wf_put w F.LDG_RB_BYTES bytes 0 0) F.LDG_RB_STAT_RESULT status 0 0) F.LDG_RB_STAT_BUSY 0 0 0

theorem State.rd_rbEnded {s : State} (w : Memory.wf s = true) (bytes status : Nat) :
    (s.rbEnded bytes status).rd F.LDG_RB_STAT_BUSY = 0 ∧ (s.rbEnded bytes status).rd F.LDG_RB_BYTES = bytes % 2 ^ 32 ∧
    (s.rbEnded bytes status).rd F.LDG_RB_STAT_RESULT = status % 2 ^ 8 := by
  have w1 : Memory.wf (s.put F.LDG_RB_BYTES bytes) = true := State.wf_put w ..
  have w2 : Memory.wf ((s.put F.LDG_RB_BYTES bytes).put F.LDG_RB_STAT_RESULT status) = true := State.wf_put w1 ..
  have hregs : ∀ f : Fld, (s.rbEnded bytes status).rd f =
    (((s.put F.LDG_RB_BYTES bytes).put F.LDG_RB_STAT_RESULT status).put F.LDG_RB_STAT_BUSY 0).rd f := fun _ => rfl
  refine ⟨?_, ?_, ?_⟩
  · rw [hregs, State.rd_put_self w2]; rfl
  · rw [hregs, State.rd_put_ne w2 (h := by decide), State.rd_put_ne w1 (h := by decide), State.rd_put_self w]; rfl
  · rw [hregs, State.rd_put_ne w2 (h := by decide), State.rd_put_self w1]; rfl

/-- With the last record written the readback ends (R656, R657). -/
theorem Live.exec_readbackDone {s : State} (hl : Live s) (hbusy : s.rd F.LDG_RB_STAT_BUSY = 1) :
    exec (.readbackDone (s.fab.rbLeft.map Prod.fst)) s = .next ((s.rbOutput.1.rbEnded s.rbOutput.2.1 s.rbOutput.2.2).post
      E.FAB_RB_DONE s.fab.rbLeft.length s.rbOutput.2.1) :=
  State.next_when hl.runs (by simp [State.on_of_rd_one hbusy])

theorem State.post_fab (s : State) (c a b : Nat) (t : Option Nat) : (s.post c a b t).fab = s.fab :=
  (State.post_keeps (ps := (· ∈ [.regs 17, .evt, .out, .pci])) (by decide) (by decide) (by decide) (by decide)
    (Keeps.refl s)).same .fab (by decide)

/-! ### Memories of the fabric -/

/-- A step of the fabric's sweep on a memory of a selected stand that runs (R532). -/
theorem Live.exec_fabSweepStep {s : State} (hl : Live s) {st mem : Nat} (hen : s.rd F.SPM_CTL_FAB_SWEEP_EN = 1)
    (hpf : s.lve.pfLow = false) (hst : st < 64) (hsel : bit (s.rd64 F.SPM_FAB_SWEEP_LO F.SPM_FAB_SWEEP_HI) st = true)
    (hrun : s.standSt st = 1) (hmem : s.memIn st mem = true) (word read fails : Nat) :
    exec (.fabSweepStep st mem word read fails) s = .next (
      let t := (if read = 1 then s.bump F.LDG_MEM_CE 1 (st / 16) else s).bump F.SPM_SWEEP_FAILS (min 2 fails)
      if fails < 2 then t else t.post E.SPM_FAB_SWEEP_FAIL st (mem % 2 ^ 16 + 2 ^ 16 * (word % 2 ^ 32))) :=
  State.next_when hl.runs (by simp [State.on_of_rd_one hen, hpf, hst, hsel, hrun, hmem])

/-- A port shows what was set there, unless it is what a port without an entry shows. -/
theorem State.mport_updMport_self {s : State} {d m p : Nat} {f : PortSt → PortSt} (h : f (s.mport d m p) ≠ {}) :
    (s.updMport d m p f).mport d m p = f (s.mport d m p) := by
  show Map.get {} (Map.set {} _ _ (f (s.mport d m p))) _ = _
  rw [Map.set, if_neg h, Map.get_insert_self]

theorem State.mport_congr {s t : State} (h : t.fab = s.fab) (d m p : Nat) : t.mport d m p = s.mport d m p := by
  unfold State.mport
  rw [h]

/-- A port shows SBITERR for a word it corrected, DBITERR for one it lost (R632). -/
def State.eccShown (s : State) (d m p : Nat) (lost : Bool) : State :=
  s.updMport d m p (fun x => { x with sbit := !lost, dbit := lost })

theorem State.wf_eccShown {s : State} (w : Memory.wf s = true) (d m p : Nat) (lost : Bool) :
    Memory.wf (s.eccShown d m p lost) = true := w

theorem State.rd_eccShown (s : State) (d m p : Nat) (lost : Bool) (f : Fld) (i : Nat) :
    (s.eccShown d m p lost).rd f i = s.rd f i := rfl

theorem State.mport_eccShown (s : State) (d m p : Nat) (lost : Bool) :
    ((s.eccShown d m p lost).mport d m p).sbit = !lost ∧ ((s.eccShown d m p lost).mport d m p).dbit = lost := by
  have hne : { s.mport d m p with sbit := !lost, dbit := lost } ≠ ({} : PortSt) := by
    cases lost with
    | false => exact fun h => Bool.noConfusion (congrArg PortSt.sbit h)
    | true => exact fun h => Bool.noConfusion (congrArg PortSt.dbit h)
  have hport : (s.eccShown d m p lost).mport d m p = { s.mport d m p with sbit := !lost, dbit := lost } :=
    State.mport_updMport_self hne
  rw [hport]
  exact ⟨rfl, rfl⟩

section
variable {s : State} (hl : Live s) {d p : Nat} (hd : d < 4) (hp : p < 2) (huser : s.cfg.userOn = true) (mem word : Nat)
include hl hd hp huser

theorem Live.exec_userPortRead_of_corrected : exec (.userPortRead d mem word { lost := false, port := p }) s =
    .next ((s.eccShown d mem p false).bump F.LDG_MEM_CE 1 d) := by
  refine (State.next_when hl.runs (by simp [huser, hd])).trans (congrArg _ ?_)
  simp only [Nat.mod_eq_of_lt hp, Bool.false_eq_true, if_false]
  rfl

theorem Live.exec_userPortRead_of_lost : exec (.userPortRead d mem word { lost := true, port := p }) s =
    .next (((s.eccShown d mem p true).bump F.LDG_MEM_UE 1 d).post E.FAB_MEM_UE d
      (mem % 2 ^ 16 + 2 ^ 16 * (word % 2 ^ 32))) := by
  refine (State.next_when hl.runs (by simp [huser, hd])).trans (congrArg _ ?_)
  simp only [Nat.mod_eq_of_lt hp, if_true]
  rfl

/-- A corrected word shows SBITERR and is counted (R632). -/
theorem Live.completes_userPortRead_of_corrected :
    Completes (.userPortRead d mem word { lost := false, port := p }) s (fun t =>
      (t.mport d mem p).sbit = true ∧ (t.mport d mem p).dbit = false ∧
      t.rd F.LDG_MEM_CE d = min (s.rd F.LDG_MEM_CE d + 1) (2 ^ 32 - 1) ∧ Touches [.regs 18, .fab] s t) := by
  obtain ⟨hsbit, hdbit⟩ := s.mport_eccShown d mem p false
  exact ⟨_, hl.exec_userPortRead_of_corrected hd hp huser mem word, hsbit, hdbit,
    (State.rd_bump_self (State.wf_eccShown hl.wf ..) ..).trans (by rw [State.rd_eccShown]; rfl),
    (State.bump_keeps (by decide) (State.updMport_keeps (by decide) (Keeps.refl s))).touches⟩

/-- A lost word shows DBITERR, is counted and is reported (R632). -/
theorem Live.completes_userPortRead_of_lost :
    Completes (.userPortRead d mem word { lost := true, port := p }) s (fun t =>
      (t.mport d mem p).sbit = false ∧ (t.mport d mem p).dbit = true ∧
      t.rd F.LDG_MEM_UE d = min (s.rd F.LDG_MEM_UE d + 1) (2 ^ 32 - 1) ∧
      Touches [.regs 17, .regs 18, .fab, .evt, .out, .pci] s t) := by
  obtain ⟨hsbit, hdbit⟩ := s.mport_eccShown d mem p true
  have h := hl.exec_userPortRead_of_lost hd hp huser mem word
  have wt := State.wf_eccShown hl.wf d mem p true
  refine ⟨_, h, ?_, ?_, ?_,
    (execUserPortRead_keeps (by decide) (by decide) (by decide) (by decide) (by decide) (by decide) _ h).touches⟩
  · rw [State.mport_congr (State.post_fab ..)]; exact hsbit
  · rw [State.mport_congr (State.post_fab ..)]; exact hdbit
  · rw [State.rd_post (State.wf_bump wt ..) (h := by decide), State.rd_bump_self wt, State.rd_eccShown]; rfl

end

/-! ### LUTs -/

theorem bit_eq_testBit (x n : Nat) : bit x n = x.testBit n := by
  rw [Nat.testBit_eq_decide_div_mod_eq]
  rfl

/-- A bit of a field is that bit of the number. -/
theorem bit_bits {n w : Nat} (h : n < w) (x lo : Nat) : bit (bits x lo w) n = bit x (lo + n) := by
  simp only [bit_eq_testBit, bits, Nat.testBit_mod_two_pow, h, decide_true, Bool.true_and, Nat.testBit_div_two_pow]
  rw [Nat.add_comm]

theorem levels_lt (l : List Bool) : levels l < 2 ^ l.length := by
  induction l with
  | nil => exact Nat.one_pos
  | cons b l ih =>
    have hb : b2n b ≤ 1 := by cases b <;> decide
    simp only [levels, List.length_cons, Nat.pow_succ]
    omega

/-- A LUT that is not split is one function of its six inputs (R622). -/
theorem lutOut_whole {ins : List Bool} (h : ins.length = 6) (w out : Nat) : lutOut w false ins out = bit w (levels ins) := by
  rw [lutOut, if_neg Bool.false_ne_true, List.take_of_length_le (Nat.le_of_eq h)]

/-- Each output of a split LUT is a function of the first five inputs, kept in its own half (R622; the halves are the model's
choice, log entry 203). -/
theorem lutOut_split (w : Nat) (ins : List Bool) (out : Nat) :
    lutOut w true ins out = bit (bits w (32 * (out % 2)) 32) (levels (ins.take 5)) := by
  have h : levels (ins.take 5) < 32 :=
    Nat.lt_of_lt_of_le (levels_lt _) (Nat.pow_le_pow_right Nat.two_pos (List.length_take_le 5 ins))
  rw [lutOut, if_pos rfl, bit_bits h]

/-! ### Flip-flops -/

section
variable {s : State} {d t c k f : Nat} {cl : ClusterCfg}

/-- While its stand loads a flip-flop keeps its value (R623). -/
theorem State.ffNext_of_shut (h : s.dikesShut (s.standAt d (tileStrip t) (t / 32)) = true) :
    s.ffNext d t c cl k f = bit (s.ffWord d t c) (2 * k + f) := if_pos (.inl h)

variable (hopen : s.dikesShut (s.standAt d (tileStrip t) (t / 32)) = false) (hpol : s.polSt (tilePolder d t) < 4)
include hopen hpol

theorem State.ffRuns : ¬ (s.dikesShut (s.standAt d (tileStrip t) (t / 32)) = true ∨ 4 ≤ s.polSt (tilePolder d t)) := by
  simp [hopen, hpol]

/-- An asynchronous reset gives 0 (R623; the value is the model's choice, log entry 203). -/
theorem State.ffNext_of_reset (hasync : (cl.sets.getD ((cl.cells.getD k {}).cs.getD f 0) {}).sync = false)
    (hrst : s.val d (tileStrip t) (cl.sets.getD ((cl.cells.getD k {}).cs.getD f 0) {}).rst = true) :
    s.ffNext d t c cl k f = false :=
  (if_neg (State.ffRuns hopen hpol)).trans (if_pos ⟨Bool.eq_false_iff.1 hasync, hrst⟩)

/-- Without an edge and without an asynchronous reset a flip-flop keeps its value (R623). -/
theorem State.ffNext_of_no_edge (hrst : (cl.sets.getD ((cl.cells.getD k {}).cs.getD f 0) {}).sync = true ∨
      s.val d (tileStrip t) (cl.sets.getD ((cl.cells.getD k {}).cs.getD f 0) {}).rst = false)
    (hedge : s.setEdge d t c ((cl.cells.getD k {}).cs.getD f 0) (cl.sets.getD ((cl.cells.getD k {}).cs.getD f 0) {}) = false) :
    s.ffNext d t c cl k f = bit (s.ffWord d t c) (2 * k + f) := by
  have hnot : ¬ (¬ (cl.sets.getD ((cl.cells.getD k {}).cs.getD f 0) {}).sync = true ∧
      s.val d (tileStrip t) (cl.sets.getD ((cl.cells.getD k {}).cs.getD f 0) {}).rst = true) :=
    fun ⟨hasync, hon⟩ => hrst.elim hasync (Bool.eq_false_iff.1 · hon)
  exact (if_neg (State.ffRuns hopen hpol)).trans ((if_neg hnot).trans (if_pos (Bool.eq_false_iff.1 hedge)))

end

/-! ### Slices -/

theorem sliceOvf_eq_false_iff {v : Int} : sliceOvf v = false ↔ -2 ^ 63 ≤ v ∧ v < 2 ^ 63 := by
  simp only [sliceOvf, Bool.or_eq_false_iff, decide_eq_false_iff_not, Int.not_lt, Int.not_le]

theorem sliceOvf_eq_true_iff {v : Int} : sliceOvf v = true ↔ v < -2 ^ 63 ∨ 2 ^ 63 ≤ v := by
  simp only [sliceOvf, Bool.or_eq_true, decide_eq_true_eq]

/-- The low 64 bits of a number, which a slice keeps where it does not saturate (R638). -/
theorem sliceFit_of_wraps {sat : Bool} {v : Int} (h : sat = false ∨ sliceOvf v = false) : sliceFit sat v = (v % 2 ^ 64).toNat :=
  if_neg (by rcases h with h | h <;> simp [h])

theorem sliceFit_of_saturates {v : Int} (h : sliceOvf v = true) : sliceFit true v = if v < 0 then 2 ^ 63 else 2 ^ 63 - 1 :=
  if_pos h

/-- A number of 64 signed bits is what its low 64 bits stand for. -/
theorem toInt_low64 {v : Int} (hlow : -2 ^ 63 ≤ v) (hhigh : v < 2 ^ 63) : toInt true 64 (v % 2 ^ 64).toNat = v := by
  have hneg : (bit (v % 2 ^ 64).toNat 63 = true) ↔ v < 0 := by
    simp only [bit, beq_iff_eq]
    omega
  simp only [toInt, Bool.true_and, hneg]
  split <;> omega

/-- Settles O18: each hypothesis is a guard of its command or picks a branch of it; LUTs, flip-flops and slices compute as said
above. The model's choices here are the count of an answer to a retired request (log entry 147), and the halves of a split LUT, the
value that a reset gives and the order of a slice's registers (log entry 203). -/
theorem fabricSteps : Obligations.FabricSteps := by
  intro s hl
  refine ⟨?_, ?_, ?_, ?_, ?_, ?_, ?_, ?_, ?_, ?_, ?_, ?_, ?_, ?_, ?_⟩
  · intro n q hopen hfree
    exact (State.next_when hl.runs hopen).trans (congrArg _ (if_neg (by simp [hfree])))
  · intro n k st data p hlate hpkt hdst hreq
    refine (State.next_when hl.runs rfl).trans (congrArg _ ?_)
    simp only [hlate, hpkt, hdst, hreq, Bool.false_eq_true, if_false, and_self, if_true]
  · intro n k st data hlate
    exact ⟨_, (State.next_when hl.runs rfl).trans (congrArg _ (if_pos hlate)), rfl,
      State.rd_bump_self (s := { s with fab.late := _ }) hl.wf .., rfl⟩
  · intro req v hw hgo
    exact (State.next_when hl.runs rfl).trans (congrArg _ ((hw.byReq_eq _).trans (if_pos hgo)))
  · intro hwait
    have h : exec .readbackCaptureTimeout s = .next s.rbCaptured := State.next_when hl.runs hwait
    exact ⟨_, h, rfl, rfl, (execReadbackCaptureTimeout_keeps (by decide) _ h).touches⟩
  · intro hbusy c x
    have wout := State.wf_rbOutput hl.wf
    have wend := State.wf_rbEnded wout s.rbOutput.2.1 s.rbOutput.2.2
    obtain ⟨hidle, hbytes, hresult⟩ := State.rd_rbEnded wout s.rbOutput.2.1 s.rbOutput.2.2
    exact ⟨_, hl.exec_readbackDone hbusy, (State.rd_post wend (h := by decide) ..).trans hidle,
      (State.rd_post wend (h := by decide) ..).trans hbytes, (State.rd_post wend (h := by decide) ..).trans hresult,
      by rw [State.post_fab]; rfl, by rw [State.post_fab]; rfl⟩
  · exact fun hstopped => State.next_when hl.runs (State.on_of_rd_one hstopped)
  · intro st mem word hen hpf hst hsel hrun hmem
    exact hl.exec_fabSweepStep hen hpf hst hsel hrun hmem word 1 0
  · intro st mem word fails hen hpf hst hfails hsel hrun hmem
    refine (hl.exec_fabSweepStep hen hpf hst hsel hrun hmem word 0 fails).trans (congrArg _ ?_)
    simp only [if_neg (Nat.not_lt.2 hfails), Nat.min_eq_left hfails]
    rfl
  · exact fun d mem word p hd hp huser => ⟨hl.completes_userPortRead_of_corrected hd hp huser mem word,
      hl.completes_userPortRead_of_lost hd hp huser mem word⟩
  · exact fun w ins out hins => ⟨lutOut_whole hins w out, lutOut_split w ins out⟩
  · intro d t c cl k f _ _ cs now
    exact ⟨State.ffNext_of_shut, fun hopen hpol => ⟨State.ffNext_of_reset hopen hpol, State.ffNext_of_no_edge hopen hpol⟩⟩
  · intro v sat hlow hhigh
    have hfits := sliceOvf_eq_false_iff.2 ⟨hlow, hhigh⟩
    exact ⟨hfits, by rw [sliceFit_of_wraps (.inr hfits), toInt_low64 hlow hhigh]⟩
  · intro v hout
    have hovf := sliceOvf_eq_true_iff.2 hout
    refine ⟨hovf, ?_, ?_⟩
    · rw [sliceFit_of_wraps (.inl rfl)]
      exact Int.toNat_of_nonneg (Int.emod_nonneg v (by decide))
    · rw [sliceFit_of_saturates hovf]
      split <;> decide
  · intro c z x
    simp only [SliceSt.step, List.length_append, List.length_singleton]

end Sys2Proof.Machine

/-! PROOFS. The memory crypto engine: keys, re-keys and reseals commanded by its registers, the step of the re-key sweep, and
automatic reseals. -/

namespace Sys2Proof.Machine
open Sys2Proof

/-! ### Writes of command registers -/

/-- A command that writes a register of a part that runs, past permission and gate, answers what the register's write does. -/
theorem Live.next_byReq {s t : State} (hl : Live s) {req : Req} {off : Nat} (hw : s.mayWrite req off) {f : State → State}
    (h : f s = t) : (.next (s.when true (fun s => s.byReq req off f)) : Res) = .next t :=
  (State.next_when hl.runs rfl).trans (congrArg _ ((hw.byReq_eq f).trans h))

/-! ### Key commands -/

/-- An import whose three reads of the blob all succeed is judged by `importKey` (R547). -/
theorem State.keyCmdImport_of_read {s : State} (hidle : s.rd F.CRY_KEY_RESULT_BUSY = 0) (req : Req) (kid win : Nat) :
    let a := s.rd64 F.CRY_KEY_SRC_LO F.CRY_KEY_SRC_HI
    let r1 := s.devRead a 64 5 win
    let r2 := r1.1.devRead (a + 64) 64 5 (win / 2 ^ 512)
    let r3 := r2.1.devRead (a + 128) 32 5 (win / 2 ^ 1024)
    r1.2.1 = 0 → r2.2.1 = 0 → r3.2.1 = 0 →
    let x := r3.1.importKey kid (r1.2.2 + 2 ^ 512 * r2.2.2 + 2 ^ 1024 * r3.2.2)
    s.keyCmdImport req kid win = x.1.keyResult x.2 kid := by
  dsimp only
  intro h1 h2 h3
  simp only [State.keyCmdImport, State.on_of_rd_zero hidle, h1, h2, h3, List.foldl_cons, List.foldl_nil, Bool.false_eq_true,
    ne_eq, not_true_eq_false, if_true, if_false]

theorem State.keyCmdRetire_of_idle {s : State} (hidle : s.rd F.CRY_KEY_RESULT_BUSY = 0) (req : Req) (kid : Nat) :
    s.keyCmdRetire req kid = (s.retireKey kid).1.keyResult (s.retireKey kid).2 kid :=
  if_neg (Bool.eq_false_iff.1 (State.on_of_rd_zero hidle))

/-! ### Re-keys -/

/-- CRY_REKEY_GO names a sealed region while no region re-keys: its re-key starts (R571). -/
theorem State.rekeyGo_of_idle {s : State} {r : Nat} (hr : r < 8) (hidle : s.rd F.CRY_STAT_REKEY = 0) (hsealed : s.sealSize r ≠ 0)
    (req : Req) : s.rekeyGo req (0xA5000000 + r) = s.rekeyStart r := by
  have hregion : (0xA5000000 + r) % 16 = r := by omega
  have hkey : (0xA5000000 + r) / 16 = 0xA500000 := by omega
  simp only [State.rekeyGo, hregion, hkey, State.on_of_rd_zero hidle, hsealed, Nat.not_le.2 hr, ne_eq, not_true_eq_false,
    Bool.false_eq_true, or_self, if_false]

theorem State.rekeyGo_of_wrongKey {s : State} {v : Nat} (h : v / 16 ≠ 0xA500000) (req : Req) :
    s.rekeyGo req v = s.refuseWrite req (F.CRY_REKEY_GO.off 0 0) := if_pos (.inl h)

/-- The sweep of region `r` passes the leaf at `p`; at the region's end its re-key ends (R574, R576). -/
def State.sweepPast (s : State) (r p : Nat) : State :=
  let u := s.put64 F.CRY_SWEEP_LO F.CRY_SWEEP_HI (p + 4096) r
  if u.sealBase r + u.sealSize r ≤ p + 4096 then u.rekeyEnd r else u

/-- A step of the sweep at a leaf under no damaged node, whose ciphertext nothing has changed: the leaf and the nodes that end at
it are written under the new key, and the pointer passes it (R574 to R576). -/
theorem Live.exec_rekeySweepStep {s : State} (hl : Live s) (hrun : s.rd F.CRY_STAT_REKEY = 1) (owner : Nat) :
    let r := s.rd F.CRY_STAT_REGION
    let p := s.rd64 F.CRY_SWEEP_LO F.CRY_SWEEP_HI r
    let i := (p - s.sealBase r) / 4096
    s.underDamage r (64 * i) = false →
    exec (.rekeySweepStep [] owner) s = .next (((s.rekeyLeaf r i).rekeyNodes r 7 1 i).sweepPast r p) := by
  intro r p i hsound
  refine (State.next_when hl.runs (State.on_of_rd_one hrun)).trans (congrArg _ ?_)
  exact congrArg (State.sweepPast · r p) (if_neg (Bool.eq_false_iff.1 hsound))

/-! ### Reseals by register -/

/-- CRY_RESEAL_GO written 1 reseals the range that CRY_RESEAL names, and shows its status (R579, R580). -/
theorem State.resealGo_of_one {s : State} (req : Req) :
    let x := s.resealRange (s.rd64 F.CRY_RESEAL_LO F.CRY_RESEAL_HI) (4096 * s.rd F.CRY_RESEAL_LEN)
    s.resealGo req 1 = x.1.put F.CRY_KEY_RESULT_STATUS x.2.1 := if_neg (fun h => h rfl)

theorem State.resealGo_of_other {s : State} {v : Nat} (h : v ≠ 1) (req : Req) :
    s.resealGo req v = s.refuseWrite req (F.CRY_RESEAL_GO.off 0 0) := if_pos h

/-! ### Automatic reseals -/

/-- What an automatic reseal of a damaged node needs: it is switched on, the region is one of the part's own, and no re-key of the
region runs (R581). -/
structure State.MayReseal (s : State) (r level idx : Nat) : Prop where
  auto : s.rd F.CRY_CTL_AUTO_RESEAL = 1
  region : r < 3
  damaged : s.cry.damaged.contains (r, level, idx) = true
  settled : s.rekeying r = false

theorem State.MayReseal.guard {s : State} {r level idx : Nat} (h : s.MayReseal r level idx) :
    (s.on F.CRY_CTL_AUTO_RESEAL && decide (r < 3) && s.cry.damaged.contains (r, level, idx) && !s.rekeying r) = true := by
  rw [State.on_of_rd_one h.auto, decide_eq_true h.region, h.damaged, h.settled]; rfl

theorem State.healWaits_eq_false {s : State} {b : Nat} {l : Line} (hline : s.line b = some l) (h : l.healing = false) :
    s.healWaits 0 b = false := by
  simp only [State.healWaits, hline, h, Bool.and_false]

section
variable {s : State} (hl : Live s) {level idx : Nat}
include hl

theorem Live.exec_autoReseal_descriptors (h : s.MayReseal 2 level idx) :
    exec (.autoReseal 2 level idx []) s = .next (s.resealNode 2 level idx) := State.next_when hl.runs h.guard

/-- Half 1 of the write buffer has no line under the node, so nothing is given up (R581). -/
theorem Live.exec_autoReseal_foreign (h : s.MayReseal 1 level idx) (hnone : s.linesUnder 1 level idx = []) :
    exec (.autoReseal 1 level idx []) s = .next (s.resealNode 1 level idx) := by
  refine (State.next_when hl.runs h.guard).trans (congrArg _ ?_)
  simp [hnone]

/-- Every own line under the node is healed: the node is rebuilt, and the lines are written back (R581). -/
theorem Live.exec_autoReseal_own (h : s.MayReseal 0 level idx)
    (hhealed : ∀ x ∈ s.linesUnder 0 level idx, x.2.1.healed = true ∧ x.2.1.healing = false)
    (hline : ∀ x ∈ s.linesUnder 0 level idx, s.line x.1 = some x.2.1) :
    exec (.autoReseal 0 level idx []) s =
      .next ((s.linesUnder 0 level idx).foldl State.writeBack (s.resealNode 0 level idx)) := by
  have hask : (s.linesUnder 0 level idx).filter (fun x => !x.2.1.healed) = [] :=
    List.filter_eq_nil_iff.2 fun x hx => by simp [(hhealed x hx).1]
  have hwait : (s.linesUnder 0 level idx).any (fun x => s.healWaits 0 x.1) = false :=
    List.any_eq_false.2 fun x hx => Bool.eq_false_iff.1 (State.healWaits_eq_false (hline x hx) (hhealed x hx).2)
  refine (State.next_when hl.runs h.guard).trans (congrArg _ ?_)
  simp [hask, hwait]

end

/-- Settles O14: a write that passes permission and gate acts as its register says, and the sweep and the automatic reseals do what
is said above. That a key command and a reseal are each one step is the model's choice (log entry 140). -/
theorem cryptoRegisterCommands : Obligations.CryptoRegisterCommands := by
  intro s hl
  refine ⟨?_, ?_, ?_, ?_, ?_, ?_, ?_, ?_⟩
  · intro req kid head eph wrapped rest hw hidle
    have hwrite := State.keyCmdImport_of_read hidle req kid (blobOf head eph wrapped rest)
    dsimp only at hwrite ⊢
    exact fun h1 h2 h3 => hl.next_byReq hw (hwrite h1 h2 h3)
  · exact fun req kid hw hidle => hl.next_byReq hw (State.keyCmdRetire_of_idle hidle req kid)
  · exact fun req r hw hr hidle hsealed => hl.next_byReq hw (State.rekeyGo_of_idle hr hidle hsealed req)
  · exact fun req v hw hv => hl.next_byReq hw (State.rekeyGo_of_wrongKey hv req)
  · exact fun owner hrun => hl.exec_rekeySweepStep hrun owner
  · exact fun req hw => hl.next_byReq hw (State.resealGo_of_one req)
  · exact fun req v hw hv => hl.next_byReq hw (State.resealGo_of_other hv req)
  · intro r level idx hauto hr hdamaged hsettled
    have h : s.MayReseal r level idx := ⟨hauto, hr, hdamaged, hsettled⟩
    refine ⟨?_, ?_, ?_⟩
    · rintro rfl
      exact hl.exec_autoReseal_descriptors h
    · rintro hhalf hnone t rfl
      obtain rfl | rfl : r = 0 ∨ r = 1 := by omega
      · have hown := hl.exec_autoReseal_own h (by simp [hnone]) (by simp [hnone])
        rwa [hnone] at hown
      · exact hl.exec_autoReseal_foreign h hnone
    · rintro rfl hhealed hline
      exact hl.exec_autoReseal_own h hhealed hline

end Sys2Proof.Machine

/-! PROOFS. The frames: what each command leaves as it was. A command's own lemma of the Laws says which parts of State it can
change (`Keeps`); the parts a frame lists are among them. -/

namespace Sys2Proof.Machine
open Sys2Proof

/-- A change of registers of any block and of the listed parts leaves every other part alone. -/
theorem Keeps.same_off_regs {l : List Part} {s t : State} (h : Keeps (fun p => (∃ b, p = .regs b) ∨ p ∈ l) s t) (p : Part)
    (hb : ∀ b, p ≠ .regs b) (hl : p ∉ l) : p.same s t :=
  h.same p (not_or.2 ⟨fun ⟨b, e⟩ => hb b e, hl⟩)

/-- Settles O38: each command's lemma of the Laws, with the parts that it may change among those listed. -/
theorem framesOfTransfers : Obligations.FramesOfTransfers := by
  intro s t
  refine ⟨
    fun _ _ e => (execRefWindowEnd_keeps ?_ ?_ ?_ ?_ ?_ ?_ _ e).touches,
    fun e => (execReferenceGap_keeps ?_ ?_ ?_ ?_ ?_ ?_ _ e).touches,
    fun _ _ e => (execTranslationRequest_keeps ?_ ?_ ?_ ?_ ?_ ?_ ?_ ?_ ?_ ?_ _ e).touches,
    fun _ _ e => (execRead_keeps ?_ ?_ ?_ ?_ ?_ ?_ ?_ ?_ ?_ ?_ ?_ ?_ ?_ _ e).touches,
    fun _ _ e => (execVerify_keeps ?_ ?_ ?_ ?_ ?_ ?_ ?_ ?_ ?_ ?_ ?_ ?_ ?_ _ e).touches,
    fun _ _ e => (execWrite_keeps ?_ ?_ ?_ ?_ ?_ ?_ ?_ ?_ ?_ ?_ ?_ ?_ ?_ ?_ ?_ ?_ ?_ ?_ _ e).touches,
    fun _ _ e => (execAtomicWrite_keeps ?_ ?_ ?_ ?_ ?_ ?_ ?_ ?_ ?_ ?_ ?_ ?_ ?_ ?_ ?_ ?_ ?_ ?_ _ e).touches,
    fun _ _ e => (execCopy_keeps ?_ ?_ ?_ ?_ ?_ ?_ ?_ ?_ ?_ ?_ ?_ ?_ ?_ ?_ ?_ ?_ ?_ ?_ ?_ ?_ _ e).touches,
    fun _ e => (execFlush_keeps ?_ ?_ ?_ ?_ ?_ ?_ ?_ _ e).touches,
    fun _ e => (execTrim_keeps ?_ ?_ ?_ ?_ ?_ ?_ ?_ ?_ ?_ ?_ ?_ ?_ ?_ ?_ ?_ _ e).touches,
    fun _ e => (execWriteZeroes_keeps ?_ ?_ ?_ ?_ ?_ ?_ ?_ ?_ ?_ ?_ ?_ ?_ ?_ ?_ ?_ ?_ ?_ ?_ ?_ _ e).touches,
    fun e => (execDestage_keeps ?_ ?_ ?_ ?_ ?_ ?_ ?_ _ e).touches,
    fun _ e => (execPageRowPadTimer_keeps ?_ _ e).touches,
    fun _ e => (execMapUpdate_keeps ?_ ?_ ?_ ?_ ?_ ?_ ?_ ?_ ?_ ?_ ?_ ?_ ?_ ?_ ?_ ?_ _ e).touches,
    fun _ _ _ e => (execMapPageInstalled_keeps ?_ ?_ ?_ ?_ ?_ ?_ ?_ ?_ ?_ ?_ ?_ ?_ ?_ ?_ ?_ ?_ _ e).touches,
    fun _ _ e => (execMapPageWritebackDone_keeps ?_ ?_ ?_ ?_ ?_ ?_ ?_ ?_ ?_ ?_ ?_ ?_ ?_ _ e).touches,
    fun e => (execJournalPageTimer_keeps ?_ _ e).touches,
    fun _ e => (execJournalPageProgrammed_keeps ?_ ?_ ?_ ?_ ?_ ?_ ?_ ?_ ?_ ?_ _ e).touches,
    fun _ _ e => (execTlyCkptGo_keeps ?_ ?_ ?_ ?_ ?_ ?_ ?_ ?_ ?_ ?_ ?_ _ e).touches,
    fun _ e => (execTlyProbe_keeps ?_ _ e).touches⟩ <;> decide

/-- Settles O39: each command's lemma of the Laws, with the parts that it may change among those listed. -/
theorem framesOfQueuesAndTasks : Obligations.FramesOfQueuesAndTasks := by
  intro s t
  refine ⟨
    fun _ _ e => (execTaskDispatch_keeps ?_ ?_ ?_ ?_ ?_ ?_ ?_ ?_ ?_ ?_ ?_ ?_ ?_ ?_ ?_ ?_ ?_ _ e).touches,
    fun _ e => (execPreemptionStart_keeps ?_ ?_ _ e).touches,
    fun e => (execPoolLoadWindow_keeps ?_ ?_ _ e).touches,
    fun _ e => (execDecline_keeps ?_ ?_ _ e).touches,
    fun _ e => (execSkidderPark_keeps ?_ ?_ ?_ ?_ ?_ _ e).touches,
    fun _ e => (execSpillwayRefill_keeps ?_ ?_ ?_ ?_ ?_ ?_ ?_ _ e).touches,
    fun _ e => (execLdPreemptAnswerTimeout_keeps ?_ ?_ ?_ ?_ ?_ ?_ _ e).touches,
    fun _ _ _ e => (execRegister_keeps ?_ ?_ ?_ ?_ ?_ ?_ _ e).touches,
    fun _ _ e => (execDeregister_keeps ?_ ?_ ?_ ?_ ?_ ?_ _ e).touches,
    fun _ _ _ _ _ _ _ _ _ e => (execCreate_keeps ?_ ?_ ?_ ?_ ?_ ?_ _ e).touches,
    fun _ e => (execTaskTimeout_keeps ?_ ?_ ?_ ?_ ?_ ?_ ?_ ?_ ?_ ?_ _ e).touches,
    fun _ _ _ e => (execDone_keeps ?_ ?_ ?_ _ e).touches,
    fun _ e => (execDeadlineExpires_keeps ?_ ?_ ?_ ?_ ?_ ?_ ?_ ?_ ?_ ?_ ?_ ?_ ?_ ?_ _ e).touches,
    fun _ _ e => (execYield_keeps ?_ ?_ ?_ ?_ ?_ ?_ ?_ _ e).touches,
    fun _ _ e => (execLandingMsgUnknown_keeps ?_ _ e).touches,
    fun _ _ e => (execEvtAck_keeps ?_ ?_ ?_ ?_ _ e).touches,
    fun _ _ e => (execEvtTagSel_keeps ?_ ?_ ?_ ?_ _ e).touches,
    fun _ e => (execEvtRateWindowEnd_keeps ?_ ?_ ?_ ?_ _ e).touches,
    fun e => (execEvtSignalTimer_keeps ?_ ?_ ?_ _ e).touches,
    fun _ e => (execAdminQueueEnable_keeps ?_ _ e).touches,
    fun _ e => (execAdminQueueReady_keeps ?_ ?_ _ e).touches,
    fun _ e => (execQueueDisable_keeps ?_ ?_ ?_ ?_ ?_ ?_ ?_ ?_ ?_ ?_ ?_ ?_ ?_ ?_ ?_ _ e).touches,
    fun _ _ _ e => (execSqTailDoorbell_keeps ?_ ?_ ?_ ?_ ?_ ?_ ?_ _ e).touches,
    fun _ _ _ e => (execCqHeadDoorbell_keeps ?_ ?_ ?_ ?_ ?_ ?_ ?_ _ e).touches,
    fun _ _ _ e => (execSubmissionFetch_keeps ?_ ?_ ?_ ?_ ?_ ?_ ?_ ?_ ?_ _ e).touches,
    fun _ e => (execCompletionPost_keeps ?_ ?_ ?_ ?_ ?_ ?_ ?_ ?_ ?_ ?_ ?_ _ e).touches,
    fun _ _ e => (execCoalesceTimerExpires_keeps ?_ ?_ ?_ _ e).touches,
    fun e => (execMailboxGo_keeps ?_ ?_ ?_ ?_ ?_ ?_ ?_ ?_ _ e).touches,
    fun e => (execMailboxCommandEnd_keeps ?_ ?_ ?_ ?_ _ e).touches,
    fun _ e => (execResultAck_keeps ?_ ?_ ?_ ?_ ?_ _ e).touches,
    fun _ e => (execLedgerQuery_keeps ?_ ?_ ?_ ?_ ?_ ?_ ?_ _ e).touches,
    fun _ e => (execLedgerRelease_keeps ?_ ?_ ?_ ?_ ?_ ?_ ?_ ?_ ?_ _ e).touches⟩ <;> decide

/-- Settles O40: each command's lemma of the Laws, with the parts that it may change among those listed. -/
theorem framesOfAdminAndMemory : Obligations.FramesOfAdminAndMemory := by
  intro s t
  refine ⟨
    fun _ _ _ e => (execHbmRefreshInterval_keeps ?_ ?_ ?_ ?_ ?_ ?_ _ e).touches,
    fun _ _ e => (execHbmTempRead_keeps ?_ ?_ ?_ ?_ ?_ ?_ _ e).touches,
    fun _ _ e => (execEvacuationDone_keeps ?_ ?_ ?_ ?_ ?_ ?_ _ e).touches,
    fun _ _ e => (execHbmWriteEyeRetrain_keeps ?_ ?_ ?_ ?_ ?_ _ e).touches,
    fun _ e => (execHbmRequestUrgent_keeps ?_ _ e).touches,
    fun _ e => (execSelfRefreshEntry_keeps ?_ ?_ _ e).touches,
    fun _ _ _ e => (execSweepStep_keeps ?_ ?_ ?_ ?_ ?_ ?_ _ e).touches,
    fun _ _ _ _ _ _ e => (execKeyCmdImport_keeps ?_ ?_ ?_ ?_ ?_ ?_ ?_ ?_ ?_ ?_ ?_ ?_ ?_ ?_ ?_ ?_ ?_ ?_ ?_ ?_ ?_ ?_ _
      e).touches,
    fun _ _ e => (execKeyCmdRetire_keeps ?_ ?_ ?_ ?_ ?_ ?_ ?_ _ e).touches,
    fun _ _ e => (execRekeyGo_keeps ?_ ?_ ?_ ?_ ?_ ?_ ?_ ?_ _ e).touches,
    fun _ _ e => (execRekeySweepStep_keeps ?_ ?_ ?_ ?_ ?_ ?_ ?_ ?_ ?_ ?_ ?_ ?_ ?_ ?_ ?_ _ e).touches,
    fun _ _ e => (execResealGo_keeps ?_ ?_ ?_ ?_ ?_ ?_ ?_ ?_ ?_ ?_ _ e).touches,
    fun _ _ _ _ e => (execAutoReseal_keeps ?_ ?_ ?_ ?_ ?_ ?_ ?_ ?_ ?_ ?_ ?_ ?_ ?_ ?_ ?_ ?_ _ e).touches,
    fun _ e => (execCreateQp_keeps ?_ ?_ ?_ ?_ ?_ ?_ ?_ _ e).touches,
    fun _ e => (execDeleteQp_keeps ?_ ?_ ?_ ?_ ?_ ?_ ?_ ?_ ?_ ?_ ?_ ?_ ?_ ?_ _ e).touches,
    fun _ e => (execEventFetch_keeps ?_ ?_ ?_ ?_ ?_ ?_ ?_ _ e).touches,
    fun _ e => (execFellQuery_keeps ?_ ?_ ?_ ?_ ?_ ?_ ?_ _ e).touches,
    fun _ e => (execTractCreate_keeps ?_ ?_ ?_ ?_ ?_ ?_ ?_ ?_ ?_ ?_ ?_ ?_ ?_ ?_ ?_ _ e).touches,
    fun _ e => (execTractFormatDone_keeps ?_ ?_ ?_ ?_ ?_ ?_ ?_ ?_ ?_ ?_ ?_ ?_ ?_ _ e).touches,
    fun _ e => (execTractDelete_keeps ?_ ?_ ?_ ?_ ?_ ?_ ?_ ?_ ?_ ?_ ?_ ?_ ?_ _ e).touches,
    fun _ e => (execTractStateSetReadOnly_keeps ?_ ?_ ?_ ?_ ?_ ?_ ?_ ?_ ?_ ?_ ?_ ?_ ?_ _ e).touches,
    fun _ e => (execTractStateSetReady_keeps ?_ ?_ ?_ ?_ ?_ ?_ ?_ ?_ ?_ ?_ ?_ ?_ ?_ _ e).touches,
    fun _ e => (execTractDeleteDone_keeps ?_ ?_ ?_ ?_ ?_ ?_ ?_ ?_ ?_ ?_ ?_ ?_ ?_ ?_ ?_ ?_ _ e).touches,
    fun _ e => (execTractStateQuery_keeps ?_ ?_ ?_ _ e).touches,
    fun _ e => (execAbort_keeps ?_ ?_ ?_ ?_ ?_ ?_ ?_ ?_ ?_ ?_ ?_ ?_ ?_ ?_ _ e).touches,
    fun _ _ _ _ _ e => (execKeyImport_keeps ?_ ?_ ?_ ?_ ?_ ?_ ?_ ?_ ?_ ?_ ?_ ?_ ?_ ?_ ?_ ?_ _ e).touches,
    fun _ e => (execKeyRetire_keeps ?_ ?_ ?_ ?_ ?_ ?_ ?_ ?_ ?_ _ e).touches,
    fun _ e => (execIdentify_keeps ?_ ?_ ?_ ?_ ?_ ?_ ?_ _ e).touches,
    fun _ e => (execReseal_keeps ?_ ?_ ?_ ?_ ?_ ?_ ?_ ?_ ?_ ?_ ?_ ?_ _ e).touches⟩ <;> decide

/-- Settles O41: each command's lemma of the Laws, with the parts that it may change among those listed. -/
theorem framesOfNetworkAndStands : Obligations.FramesOfNetworkAndStands := by
  intro s t
  refine ⟨
    fun _ _ e => (execSkidwayRequestSend_keeps ?_ ?_ ?_ ?_ ?_ ?_ ?_ ?_ ?_ ?_ ?_ ?_ ?_ ?_ ?_ ?_ _ e).touches,
    fun _ _ e => (execLandingMreq_keeps ?_ ?_ ?_ ?_ ?_ ?_ ?_ ?_ ?_ ?_ ?_ ?_ ?_ ?_ ?_ ?_ _ e).touches,
    fun _ e => (execSkidwayCompletion_keeps ?_ ?_ ?_ ?_ ?_ ?_ ?_ ?_ ?_ ?_ ?_ ?_ ?_ ?_ _ e).touches,
    fun _ e => (execRequestTimeout_keeps ?_ ?_ ?_ ?_ ?_ ?_ ?_ ?_ ?_ ?_ ?_ ?_ ?_ ?_ _ e).touches,
    fun _ e => (execTargetTimeout_keeps ?_ ?_ ?_ ?_ ?_ ?_ ?_ ?_ ?_ _ e).touches,
    fun _ _ _ _ e => (execLandingTrsp_keeps ?_ ?_ ?_ ?_ ?_ ?_ ?_ ?_ ?_ _ e).touches,
    fun _ _ e => (execIsolationProbe_keeps ?_ ?_ ?_ ?_ ?_ ?_ _ e).touches,
    fun _ _ _ _ e => (execRouterAbsorb_keeps ?_ ?_ ?_ ?_ ?_ ?_ ?_ ?_ _ e).touches,
    fun _ _ e => (execNocReconfigClose_keeps ?_ ?_ ?_ ?_ ?_ ?_ _ e).touches,
    fun _ _ e => (execNocReconfigOpen_keeps ?_ ?_ ?_ ?_ ?_ ?_ _ e).touches,
    fun _ e => (execNocRtrClose_keeps ?_ _ e).touches,
    fun _ e => (execFenceOpen_keeps ?_ ?_ _ e).touches,
    fun _ e => (execLandingDisable_keeps ?_ ?_ ?_ ?_ ?_ ?_ ?_ _ e).touches,
    fun _ e => (execStandLoad_keeps ?_ ?_ ?_ ?_ ?_ ?_ ?_ ?_ ?_ _ e).touches,
    fun _ _ e => (execCfgSlCmd_keeps ?_ ?_ ?_ ?_ ?_ ?_ ?_ ?_ ?_ _ e).touches,
    fun _ e => (execStandLoadStart_keeps ?_ ?_ ?_ ?_ ?_ ?_ ?_ ?_ ?_ _ e).touches,
    fun _ e => (execStandDrainEnd_keeps ?_ ?_ ?_ ?_ ?_ ?_ ?_ ?_ ?_ ?_ ?_ ?_ _ e).touches,
    fun _ _ _ _ e => (execRunRecord_keeps ?_ ?_ ?_ ?_ ?_ ?_ ?_ ?_ ?_ ?_ ?_ _ e).touches,
    fun _ _ _ e => (execCruiserScanStep_keeps ?_ ?_ ?_ ?_ ?_ ?_ ?_ ?_ ?_ _ e).touches,
    fun _ _ e => (execCruiserRepairDone_keeps ?_ ?_ ?_ ?_ ?_ ?_ ?_ ?_ _ e).touches,
    fun _ _ e => (execCruInj_keeps ?_ ?_ ?_ ?_ ?_ ?_ _ e).touches,
    fun _ _ _ _ e => (execSpineContention_keeps ?_ ?_ ?_ ?_ ?_ ?_ ?_ ?_ _ e).touches,
    fun _ _ e => (execReadbackGo_keeps ?_ ?_ ?_ ?_ ?_ ?_ ?_ ?_ _ e).touches,
    fun e => (execReadbackCaptureTimeout_keeps ?_ _ e).touches,
    fun _ e => (execReadbackDone_keeps ?_ ?_ ?_ ?_ ?_ ?_ ?_ ?_ ?_ ?_ ?_ ?_ ?_ ?_ ?_ ?_ ?_ ?_ ?_ ?_ ?_ _ e).touches,
    fun e => (execReadbackResume_keeps ?_ ?_ ?_ _ e).touches,
    fun _ _ _ _ _ e => (execFabSweepStep_keeps ?_ ?_ ?_ ?_ ?_ ?_ _ e).touches,
    fun _ _ _ _ e => (execUserPortRead_keeps ?_ ?_ ?_ ?_ ?_ ?_ _ e).touches⟩ <;> decide

/-- Settles O42: each command's lemma of the Laws, with the parts that it may change among those listed. -/
theorem framesOfPoldersAndMedia : Obligations.FramesOfPoldersAndMedia := by
  intro s t
  refine ⟨
    fun _ _ e => (execPolderDown_keeps ?_ ?_ ?_ ?_ ?_ ?_ ?_ ?_ ?_ ?_ ?_ _ e).touches,
    fun _ _ e => (execPolderUp_keeps ?_ ?_ ?_ ?_ ?_ ?_ ?_ ?_ ?_ ?_ ?_ _ e).touches,
    fun _ _ e => (execPolderReset_keeps ?_ ?_ ?_ ?_ ?_ ?_ ?_ ?_ ?_ ?_ ?_ _ e).touches,
    fun _ e => (execPolderCloseTimeout_keeps ?_ _ e).touches,
    fun _ e => (execPolderDrainEnd_keeps ?_ ?_ ?_ ?_ ?_ ?_ ?_ ?_ ?_ ?_ ?_ ?_ ?_ ?_ _ e).touches,
    fun _ e => (execPolderDrainTimeout_keeps ?_ ?_ ?_ ?_ ?_ ?_ ?_ ?_ ?_ ?_ ?_ ?_ ?_ ?_ _ e).touches,
    fun _ e => (execStateRun_keeps ?_ ?_ ?_ ?_ ?_ ?_ ?_ ?_ ?_ ?_ ?_ ?_ ?_ ?_ _ e).touches,
    fun _ e => (execStateSleep_keeps ?_ ?_ ?_ ?_ ?_ ?_ ?_ ?_ ?_ ?_ ?_ ?_ ?_ ?_ _ e).touches,
    fun _ e => (execStateDeep_keeps ?_ ?_ ?_ ?_ ?_ ?_ ?_ ?_ ?_ ?_ ?_ ?_ ?_ ?_ _ e).touches,
    fun _ e => (execSystemWake_keeps ?_ ?_ ?_ ?_ ?_ ?_ ?_ ?_ ?_ ?_ ?_ ?_ ?_ _ e).touches,
    fun _ e => (execPolderIsolateDone_keeps ?_ ?_ ?_ ?_ ?_ ?_ ?_ ?_ ?_ ?_ ?_ ?_ ?_ ?_ ?_ ?_ ?_ _ e).touches,
    fun _ e => (execPolderPowerupDone_keeps ?_ ?_ ?_ ?_ ?_ ?_ ?_ ?_ ?_ ?_ ?_ ?_ ?_ ?_ ?_ ?_ ?_ ?_ ?_ ?_ _ e).touches,
    fun _ e => (execPolderResetDone_keeps ?_ ?_ ?_ ?_ ?_ ?_ ?_ ?_ ?_ ?_ ?_ ?_ ?_ ?_ ?_ _ e).touches,
    fun _ _ e => (execCrossingReopen_keeps ?_ _ e).touches,
    fun _ _ e => (execEpochRatchet_keeps ?_ ?_ ?_ ?_ ?_ ?_ ?_ _ e).touches,
    fun _ _ _ _ e => (execLunIssue_keeps ?_ ?_ ?_ ?_ ?_ ?_ ?_ ?_ ?_ ?_ ?_ ?_ ?_ ?_ ?_ ?_ ?_ ?_ ?_ ?_ ?_ ?_ ?_ ?_ _ e).touches,
    fun _ _ _ _ _ _ e => (execRawStatus_keeps ?_ ?_ ?_ ?_ ?_ ?_ ?_ ?_ ?_ ?_ ?_ ?_ ?_ ?_ ?_ ?_ ?_ ?_ ?_ ?_ ?_ ?_ ?_ ?_ _
      e).touches,
    fun _ _ _ _ _ e => (execRawReadLike_keeps ?_ ?_ ?_ ?_ ?_ ?_ ?_ ?_ ?_ ?_ ?_ ?_ ?_ ?_ ?_ ?_ ?_ ?_ ?_ ?_ ?_ ?_ ?_ ?_ _
      e).touches,
    fun _ _ _ _ _ e => (execRawProgramLike_keeps ?_ ?_ ?_ ?_ ?_ ?_ ?_ ?_ ?_ ?_ ?_ ?_ ?_ ?_ ?_ ?_ ?_ ?_ ?_ ?_ ?_ ?_ ?_ ?_ _
      e).touches,
    fun _ _ _ _ _ e => (execRawEraseLike_keeps ?_ ?_ ?_ ?_ ?_ ?_ ?_ ?_ ?_ ?_ ?_ ?_ ?_ ?_ ?_ ?_ ?_ ?_ ?_ ?_ ?_ ?_ ?_ ?_ _
      e).touches,
    fun _ _ _ _ _ e => (execRawFeature_keeps ?_ ?_ ?_ ?_ ?_ ?_ ?_ ?_ ?_ ?_ ?_ ?_ ?_ ?_ ?_ ?_ ?_ ?_ ?_ ?_ ?_ ?_ ?_ ?_ _
      e).touches,
    fun _ _ _ _ _ e => (execRawResetLun_keeps ?_ ?_ ?_ ?_ ?_ ?_ ?_ ?_ ?_ ?_ ?_ ?_ ?_ ?_ ?_ ?_ ?_ ?_ ?_ ?_ ?_ ?_ ?_ ?_ _
      e).touches,
    fun _ _ _ _ _ e => (execRawReturn_keeps ?_ ?_ ?_ ?_ ?_ ?_ ?_ ?_ ?_ ?_ ?_ ?_ ?_ ?_ ?_ ?_ ?_ ?_ ?_ ?_ ?_ ?_ ?_ ?_ _
      e).touches,
    fun _ _ e => (execSuspend_keeps ?_ _ e).touches,
    fun _ e => (execMedHoursTick_keeps ?_ _ e).touches,
    fun _ _ e => (execOperationResume_keeps ?_ ?_ _ e).touches,
    fun _ _ _ e => (execBusTransferDone_keeps ?_ ?_ _ e).touches,
    fun _ _ _ _ _ e => (execLunStatusReady_keeps ?_ ?_ ?_ ?_ ?_ ?_ ?_ ?_ ?_ ?_ ?_ ?_ ?_ ?_ ?_ ?_ ?_ ?_ ?_ ?_ ?_ ?_ ?_ ?_ ?_ _
      e).touches,
    fun _ _ e => (execLunTimeout_keeps ?_ ?_ ?_ ?_ ?_ ?_ ?_ ?_ ?_ ?_ ?_ ?_ ?_ ?_ ?_ ?_ ?_ ?_ ?_ ?_ ?_ ?_ ?_ ?_ ?_ _ e).touches,
    fun _ _ _ e => (execHardDecodeDone_keeps ?_ ?_ ?_ ?_ ?_ ?_ ?_ ?_ ?_ ?_ ?_ ?_ ?_ ?_ ?_ ?_ _ e).touches,
    fun _ _ e => (execSoftDecodeDone_keeps ?_ ?_ ?_ ?_ ?_ ?_ ?_ ?_ ?_ ?_ ?_ ?_ ?_ ?_ ?_ ?_ _ e).touches,
    fun _ _ e => (execPatrolVisit_keeps ?_ ?_ ?_ ?_ ?_ ?_ ?_ ?_ ?_ _ e).touches,
    fun _ _ _ e => (execMedHoursWrite_keeps ?_ ?_ ?_ ?_ ?_ ?_ _ e).touches,
    fun _ _ _ e => (execChannelRetrain_keeps ?_ ?_ ?_ ?_ ?_ ?_ ?_ ?_ ?_ ?_ ?_ ?_ ?_ ?_ ?_ ?_ ?_ ?_ ?_ ?_ ?_ ?_ ?_ ?_ ?_ _
      e).touches,
    fun _ e => (execZqShortTimer_keeps ?_ _ e).touches,
    fun _ _ _ e => (execNandTemperatureRead_keeps ?_ _ e).touches,
    fun _ e => (execRetryBackoffExpires_keeps ?_ ?_ ?_ ?_ ?_ ?_ ?_ ?_ ?_ ?_ ?_ ?_ ?_ ?_ ?_ ?_ ?_ ?_ ?_ ?_ ?_ ?_ ?_ ?_ ?_ ?_ _
      e).touches,
    fun _ _ _ _ _ e => (execRawLend_keeps ?_ ?_ ?_ ?_ ?_ ?_ ?_ ?_ ?_ ?_ ?_ ?_ ?_ ?_ ?_ ?_ ?_ ?_ ?_ ?_ ?_ ?_ ?_ ?_
      _ e).touches⟩ <;> decide

/-- Settles O43: each command's lemma of the Laws, with the parts that it may change among those listed. -/
theorem framesOfPairing : Obligations.FramesOfPairing := by
  intro s t
  refine ⟨
    fun _ _ e => (execClaim_keeps ?_ ?_ ?_ ?_ ?_ ?_ ?_ ?_ ?_ _ e).touches,
    fun _ e => (execWireReleaseDelay_keeps ?_ ?_ ?_ ?_ ?_ ?_ ?_ ?_ ?_ _ e).touches,
    fun _ _ e => (execMgOwnWireLow_keeps ?_ ?_ _ e).touches,
    fun _ e => (execMgOwnWireHigh_keeps ?_ ?_ _ e).touches,
    fun _ e => (execArbitrationComplete_keeps ?_ ?_ _ e).touches,
    fun _ e => (execMgOwnQuietTimer_keeps ?_ ?_ ?_ ?_ ?_ ?_ ?_ ?_ ?_ ?_ _ e).touches,
    fun _ _ e => (execArbitrationSlot_keeps ?_ ?_ ?_ ?_ ?_ ?_ _ e).touches,
    fun _ e => (execOwnWireFault_keeps ?_ ?_ ?_ ?_ ?_ ?_ _ e).touches,
    fun _ e => (execDriverEnableDelay_keeps ?_ ?_ ?_ ?_ ?_ ?_ ?_ ?_ ?_ ?_ ?_ ?_ ?_ ?_ ?_ ?_ ?_ ?_ ?_ ?_ ?_ ?_ ?_ ?_ ?_ _
      e).touches,
    fun _ e => (execForceWaitExpires_keeps ?_ ?_ ?_ ?_ ?_ ?_ ?_ ?_ ?_ ?_ ?_ ?_ ?_ ?_ ?_ ?_ ?_ ?_ ?_ ?_ ?_ ?_ ?_ ?_ ?_ _
      e).touches,
    fun _ e => (execGroupDrainTimeout_keeps ?_ ?_ ?_ ?_ ?_ ?_ ?_ ?_ ?_ ?_ ?_ ?_ ?_ ?_ ?_ ?_ ?_ ?_ ?_ ?_ ?_ ?_ ?_ ?_ ?_ _
      e).touches,
    fun _ _ e => (execGroupBringupDone_keeps ?_ ?_ ?_ ?_ ?_ ?_ ?_ ?_ ?_ ?_ ?_ ?_ ?_ ?_ ?_ ?_ ?_ ?_ ?_ ?_ ?_ ?_ ?_ ?_ ?_ _
      e).touches,
    fun _ _ e => (execRelease_keeps ?_ ?_ ?_ ?_ ?_ ?_ ?_ ?_ ?_ ?_ ?_ ?_ ?_ ?_ ?_ ?_ ?_ ?_ ?_ ?_ ?_ ?_ ?_ ?_ ?_ ?_ _ e).touches,
    fun _ e => (execGroupDrainEnd_keeps ?_ ?_ ?_ ?_ ?_ ?_ ?_ ?_ ?_ ?_ ?_ _ e).touches,
    fun _ e => (execKeeperTrip_keeps ?_ ?_ ?_ ?_ ?_ ?_ ?_ ?_ ?_ ?_ ?_ _ e).touches,
    fun e => (execDeathDeclared_keeps ?_ ?_ ?_ ?_ ?_ ?_ ?_ ?_ ?_ ?_ ?_ ?_ ?_ ?_ ?_ ?_ _ e).touches,
    fun e => (execOrphanTimeout_keeps ?_ ?_ ?_ ?_ ?_ ?_ ?_ ?_ ?_ ?_ ?_ ?_ ?_ ?_ ?_ ?_ _ e).touches,
    fun _ e => (execRebuildDone_keeps ?_ ?_ ?_ ?_ ?_ ?_ ?_ ?_ ?_ ?_ ?_ ?_ ?_ ?_ ?_ ?_ ?_ ?_ ?_ ?_ _ e).touches,
    fun e => (execTakeoverWithdraw_keeps ?_ ?_ ?_ ?_ ?_ ?_ ?_ ?_ ?_ ?_ ?_ ?_ ?_ ?_ ?_ ?_ ?_ ?_ ?_ ?_ ?_ ?_ ?_ ?_ ?_ ?_ _
      e).touches,
    fun _ e => (execCheckpointEnd_keeps ?_ ?_ ?_ ?_ ?_ ?_ ?_ ?_ ?_ ?_ ?_ ?_ ?_ ?_ ?_ ?_ ?_ ?_ ?_ ?_ ?_ ?_ ?_ ?_ ?_ ?_ _
      e).touches,
    fun e => (execPfailNFall_keeps ?_ ?_ ?_ ?_ ?_ ?_ ?_ ?_ ?_ ?_ ?_ ?_ ?_ ?_ ?_ ?_ ?_ ?_ ?_ ?_ ?_ ?_ ?_ ?_ ?_ ?_ _ e).touches,
    fun _ e => (execForeignMapUsable_keeps ?_ ?_ ?_ ?_ ?_ ?_ ?_ ?_ ?_ ?_ ?_ ?_ ?_ ?_ ?_ ?_ ?_ _ e).touches,
    fun e => (execForeignReplayDone_keeps ?_ ?_ ?_ ?_ ?_ ?_ ?_ _ e).touches,
    fun e => (execRefugeSave_keeps ?_ ?_ ?_ ?_ ?_ ?_ ?_ _ e).touches,
    fun _ _ e => (execHandbackStart_keeps ?_ ?_ ?_ ?_ ?_ ?_ ?_ ?_ ?_ ?_ _ e).touches,
    fun e => (execHandbackDestageDone_keeps ?_ ?_ ?_ ?_ ?_ ?_ ?_ ?_ ?_ ?_ _ e).touches,
    fun e => (execPartnerAliveOutToggle_keeps ?_ _ e).touches,
    fun e => (execPfailNRise_keeps ?_ _ e).touches,
    fun e => (execPartnerAliveEdge_keeps ?_ ?_ ?_ ?_ ?_ ?_ ?_ ?_ ?_ ?_ _ e).touches,
    fun e => (execLinkSilent_keeps ?_ ?_ ?_ ?_ ?_ ?_ ?_ ?_ ?_ ?_ _ e).touches,
    fun e => (execWireSilent_keeps ?_ ?_ ?_ ?_ ?_ _ e).touches,
    fun e => (execTrainingTimeout_keeps ?_ ?_ ?_ ?_ ?_ _ e).touches,
    fun e => (execPfailDetected_keeps ?_ ?_ ?_ ?_ ?_ ?_ ?_ ?_ ?_ _ e).touches,
    fun e => (execPfailAckTimeout_keeps ?_ ?_ ?_ ?_ ?_ ?_ ?_ ?_ _ e).touches,
    fun e => (execFetchResume_keeps ?_ ?_ _ e).touches⟩ <;> decide

/-- Settles O44: each command's lemma of the Laws, with the parts that it may change among those listed. -/
theorem framesOfLevee : Obligations.FramesOfLevee := by
  intro s t
  refine ⟨
    fun _ _ e => (execBundleEnableWrite_keeps ?_ ?_ ?_ ?_ ?_ ?_ ?_ ?_ ?_ ?_ ?_ ?_ ?_ ?_ _ e).touches,
    fun _ e => (execBundleDetectTimeout_keeps ?_ ?_ ?_ ?_ ?_ ?_ ?_ ?_ ?_ ?_ ?_ ?_ ?_ ?_ _ e).touches,
    fun _ _ _ e => (execBundleAlignDone_keeps ?_ ?_ ?_ ?_ ?_ ?_ ?_ ?_ ?_ ?_ ?_ ?_ ?_ ?_ _ e).touches,
    fun _ _ e => (execCert_keeps ?_ ?_ ?_ ?_ ?_ ?_ ?_ ?_ ?_ ?_ ?_ ?_ ?_ ?_ _ e).touches,
    fun _ _ e => (execShare_keeps ?_ ?_ ?_ ?_ ?_ ?_ ?_ ?_ ?_ ?_ ?_ ?_ ?_ ?_ ?_ _ e).touches,
    fun _ e => (execKeyTimeout_keeps ?_ ?_ ?_ ?_ ?_ ?_ ?_ ?_ ?_ ?_ ?_ ?_ ?_ ?_ _ e).touches,
    fun _ e => (execBundleRetrainTimeout_keeps ?_ ?_ ?_ ?_ ?_ ?_ ?_ ?_ ?_ ?_ ?_ ?_ ?_ ?_ _ e).touches,
    fun _ e => (execProbeGivesUp_keeps ?_ ?_ ?_ ?_ ?_ ?_ ?_ ?_ ?_ ?_ ?_ ?_ ?_ ?_ _ e).touches,
    fun _ _ e => (execBundleEqualiseEnd_keeps ?_ ?_ ?_ ?_ ?_ ?_ ?_ ?_ ?_ _ e).touches,
    fun _ _ e => (execIdent_keeps ?_ ?_ ?_ ?_ ?_ ?_ ?_ ?_ ?_ ?_ ?_ ?_ ?_ ?_ ?_ ?_ ?_ ?_ ?_ ?_ ?_ ?_ ?_ ?_ ?_ ?_ ?_ ?_ ?_ ?_
      ?_ ?_ _ e).touches,
    fun _ _ _ _ e => (execFinish_keeps ?_ ?_ ?_ ?_ ?_ ?_ ?_ ?_ ?_ ?_ ?_ ?_ ?_ ?_ ?_ ?_ ?_ ?_ ?_ ?_ _ e).touches,
    fun _ _ e => (execBundleRetrain_keeps ?_ ?_ ?_ ?_ ?_ ?_ ?_ ?_ ?_ ?_ ?_ ?_ ?_ _ e).touches,
    fun _ e => (execReplayTimer_keeps ?_ ?_ ?_ ?_ ?_ ?_ ?_ ?_ ?_ ?_ ?_ ?_ ?_ _ e).touches,
    fun _ _ e => (execBundleRetrainDone_keeps ?_ ?_ ?_ ?_ ?_ ?_ ?_ ?_ ?_ ?_ ?_ ?_ ?_ ?_ ?_ ?_ _ e).touches,
    fun _ e => (execLinkKeyUpdate_keeps ?_ ?_ _ e).touches,
    fun _ _ e => (execFlitReceive_keeps ?_ ?_ ?_ ?_ ?_ ?_ ?_ ?_ ?_ ?_ ?_ ?_ ?_ ?_ ?_ ?_ ?_ ?_ _ e).touches,
    fun _ e => (execNakRepeatTimer_keeps ?_ _ e).touches,
    fun reason e => (execLeaving_keeps (a1 := reason) ?_ _ e).touches,
    fun _ e => (execHandbackReq_keeps ?_ _ e).touches,
    fun _ _ _ _ _ _ resync _ e => (execMirrorWrite_keeps (a7 := resync) ?_ ?_ ?_ ?_ ?_ ?_ ?_ ?_ ?_ ?_ ?_ ?_ ?_ _ e).touches,
    fun _ e => (execLineRelease_keeps ?_ ?_ ?_ ?_ ?_ ?_ ?_ ?_ ?_ _ e).touches,
    fun _ e => (execHealReq_keeps ?_ ?_ ?_ ?_ ?_ ?_ ?_ ?_ ?_ _ e).touches,
    fun e => (execHeartbeatSend_keeps ?_ ?_ ?_ ?_ ?_ ?_ ?_ ?_ ?_ _ e).touches,
    fun _ e => (execMirrorAck_keeps ?_ ?_ ?_ ?_ _ e).touches,
    fun _ _ _ e => (execJournal_keeps ?_ ?_ ?_ ?_ ?_ ?_ ?_ ?_ ?_ ?_ ?_ ?_ ?_ ?_ _ e).touches,
    fun _ e => (execJournalAck_keeps ?_ ?_ ?_ ?_ ?_ ?_ ?_ ?_ ?_ ?_ ?_ ?_ ?_ ?_ ?_ _ e).touches,
    fun _ e => (execReleaseAck_keeps ?_ ?_ _ e).touches,
    fun _ _ _ _ _ _ e => (execHeartbeat_keeps ?_ ?_ ?_ ?_ ?_ ?_ ?_ ?_ ?_ ?_ ?_ ?_ ?_ ?_ ?_ _ e).touches,
    fun e => (execPfail_keeps ?_ _ e).touches,
    fun e => (execUnknownMessage_keeps ?_ _ e).touches,
    fun bseq seq e => (execResyncDone_keeps (a1 := bseq) (a2 := seq) ?_ ?_ ?_ ?_ ?_ ?_ ?_ ?_ ?_ ?_ ?_ ?_ ?_ ?_ _ e).touches,
    fun _ e => (execHandbackGrant_keeps ?_ ?_ ?_ ?_ ?_ ?_ ?_ ?_ ?_ ?_ _ e).touches,
    fun _ _ e => (execHealData_keeps ?_ ?_ ?_ ?_ ?_ ?_ ?_ ?_ ?_ ?_ ?_ ?_ ?_ ?_ ?_ ?_ ?_ _ e).touches,
    fun _ e => (execHealTimeout_keeps ?_ ?_ ?_ ?_ ?_ ?_ _ e).touches,
    fun _ e => (execProbeDue_keeps ?_ ?_ ?_ _ e).touches⟩ <;> decide

/-- Settles O45: each command's lemma of the Laws, with the parts that it may change among those listed. -/
theorem framesOfLanesAndPorts : Obligations.FramesOfLanesAndPorts := by
  intro s t
  refine ⟨
    fun _ _ e => (execLaneDetectPoll_keeps ?_ ?_ ?_ _ e).touches,
    fun _ e => (execIdlePatternEnd_keeps ?_ _ e).touches,
    fun _ e => (execLaneSignalPresent_keeps ?_ ?_ _ e).touches,
    fun _ e => (execPartnerTerminationLost_keeps ?_ ?_ _ e).touches,
    fun _ _ _ _ e => (execLaneTrainingFrame_keeps ?_ ?_ _ e).touches,
    fun _ e => (execLaneSignalAbsent_keeps ?_ ?_ _ e).touches,
    fun _ e => (execLaneSignalLoss_keeps ?_ ?_ _ e).touches,
    fun _ _ e => (execAdaptWindow_keeps ?_ ?_ _ e).touches,
    fun _ e => (execLaneRetrain_keeps ?_ ?_ _ e).touches,
    fun _ _ e => (execQuadRefclkChange_keeps ?_ ?_ _ e).touches,
    fun _ e => (execLaneAcquired_keeps ?_ _ e).touches,
    fun _ e => (execLaneSignalReturn_keeps ?_ _ e).touches,
    fun _ e => (execLaneReadaptDone_keeps ?_ _ e).touches,
    fun _ _ _ e => (execBlockLock_keeps ?_ _ e).touches,
    fun _ e => (execPrbsInject_keeps ?_ _ e).touches,
    fun _ e => (execPrbsPeriodicInject_keeps ?_ _ e).touches,
    fun _ _ _ _ e => (execPrbsCheckerLock_keeps ?_ _ e).touches,
    fun _ e => (execLaneAttemptTimeout_keeps ?_ ?_ ?_ ?_ ?_ ?_ ?_ _ e).touches,
    fun _ e => (execLaneLockLost_keeps ?_ ?_ ?_ ?_ ?_ ?_ _ e).touches,
    fun _ _ e => (execBundleLaneSignal_keeps ?_ ?_ _ e).touches,
    fun _ _ _ _ _ _ e => (execHiBer_keeps ?_ ?_ ?_ ?_ ?_ _ e).touches,
    fun _ _ e => (execCoefficientInputWrite_keeps ?_ ?_ ?_ ?_ ?_ _ e).touches,
    fun e => (execPerstNRise_keeps ?_ ?_ ?_ ?_ _ e).touches,
    fun _ _ e => (execFlrDone_keeps ?_ ?_ ?_ ?_ ?_ _ e).touches,
    fun _ _ e => (execPcieRetrain_keeps ?_ ?_ ?_ ?_ ?_ _ e).touches,
    fun e => (execPcieHardBlockReady_keeps ?_ ?_ _ e).touches,
    fun _ _ _ e => (execPcieLinkUp_keeps ?_ ?_ ?_ ?_ ?_ ?_ ?_ _ e).touches,
    fun _ e => (execL0pHostRequest_keeps ?_ _ e).touches,
    fun e => (execL0pNarrow_keeps ?_ _ e).touches,
    fun e => (execL0pWiden_keeps ?_ _ e).touches,
    fun _ _ e => (execMsixUnmask_keeps ?_ ?_ _ e).touches,
    fun _ _ e => (execHostReadCompletion_keeps ?_ ?_ ?_ ?_ ?_ ?_ ?_ ?_ _ e).touches,
    fun _ e => (execHostCompletionTimeout_keeps ?_ ?_ ?_ ?_ ?_ ?_ _ e).touches,
    fun e => (execPllUnlock_keeps ?_ ?_ ?_ ?_ ?_ ?_ ?_ ?_ ?_ _ e).touches,
    fun _ _ e => (execPairLoRead_keeps ?_ ?_ ?_ ?_ ?_ _ e).touches,
    fun _ _ e => (execEvtPeek_keeps ?_ ?_ ?_ ?_ ?_ _ e).touches,
    fun _ e => (execHeaderReceived_keeps ?_ ?_ ?_ ?_ ?_ _ e).touches,
    fun e => (execNoStreamTimeout_keeps ?_ ?_ ?_ ?_ _ e).touches,
    fun e => (execPrimaryStreamEnd_keeps ?_ ?_ _ e).touches,
    fun e => (execFallbackFirstRead_keeps ?_ ?_ _ e).touches,
    fun _ _ e => (execHbmTrainingDone_keeps ?_ ?_ ?_ ?_ _ e).touches,
    fun e => (execCfgSyncLow_keeps ?_ _ e).touches,
    fun e => (execFallbackStreamEnd_keeps ?_ _ e).touches,
    fun e => (execPreloadHoldExpires_keeps ?_ _ e).touches,
    fun _ _ _ _ e => (execStartSequence_keeps ?_ ?_ ?_ ?_ ?_ ?_ ?_ ?_ ?_ ?_ ?_ ?_ ?_ ?_ ?_ ?_ ?_ ?_ ?_ ?_ ?_ ?_ ?_ ?_ ?_ _
      e).touches,
    fun e => (execPerstNAssert_keeps (fun b => .inl ⟨b, rfl⟩) (.inr ?_) (.inr ?_) (.inr ?_) (.inr ?_) (.inr ?_) (.inr ?_)
      (.inr ?_) (.inr ?_) (.inr ?_) (.inr ?_) (.inr ?_) (.inr ?_) (.inr ?_) _ e).same_off_regs,
    fun _ e => (execLinkDown_keeps (fun b => .inl ⟨b, rfl⟩) (.inr ?_) (.inr ?_) (.inr ?_) (.inr ?_) (.inr ?_) (.inr ?_) (.inr
      ?_) (.inr ?_) (.inr ?_) (.inr ?_) (.inr ?_) _ e).same_off_regs,
    fun _ e => (execFlr_keeps (fun b => .inl ⟨b, rfl⟩) (.inr ?_) (.inr ?_) (.inr ?_) (.inr ?_) (.inr ?_) (.inr ?_) (.inr ?_)
      (.inr ?_) (.inr ?_) (.inr ?_) (.inr ?_) _ e).same_off_regs,
    fun _ _ e => (execConfigurationRequest_keeps (fun b => .inl ⟨b, rfl⟩) (.inr ?_) (.inr ?_) (.inr ?_) (.inr ?_) (.inr ?_)
      (.inr ?_) (.inr ?_) (.inr ?_) (.inr ?_) (.inr ?_) (.inr ?_) _ e).same_off_regs⟩ <;> decide

end Sys2Proof.Machine

/-! PROOFS. Every command and every step: what no command changes, which commands a dark part still hears, what a step on an empty
queue does, and the form that the state has after reset and after every step. -/

namespace Sys2Proof.Machine
open Sys2Proof

/-! ### Every command -/

/-- Every command answers a next state. -/
theorem exec_answers (c : Instr) (s : State) : ∃ t, exec c s = .next t := by
  cases c <;> exact ⟨_, rfl⟩

/-- What the Laws say of every single command, for all commands at once: the queue, the fuses, the count of draws and the form
of the stores are kept. -/
theorem exec_keeps {s t : State} {c : Instr} (e : exec c s = .next t) : Keeps (fun _ => True) s t := by
  cases c with
  | powerOnReset => exact execPowerOnReset_keeps (fun _ => trivial) t e
  | cfgProgNPulse => exact execCfgProgNPulse_keeps (fun _ => trivial) t e
  | cfgReload => exact execCfgReload_keeps (fun _ => trivial) t e
  | headerReceived => apply execHeaderReceived_keeps <;> trivial
  | segmentReceived => exact execSegmentReceived_keeps (fun _ => trivial) t e
  | preloadHoldExpires => apply execPreloadHoldExpires_keeps <;> trivial
  | hbmTrainingDone => apply execHbmTrainingDone_keeps <;> trivial
  | startSequence => apply execStartSequence_keeps <;> trivial
  | noStreamTimeout => apply execNoStreamTimeout_keeps <;> trivial
  | cfgSyncLow => apply execCfgSyncLow_keeps <;> trivial
  | primaryStreamEnd => apply execPrimaryStreamEnd_keeps <;> trivial
  | fallbackFirstRead => apply execFallbackFirstRead_keeps <;> trivial
  | fallbackStreamEnd => apply execFallbackStreamEnd_keeps <;> trivial
  | pcieHardBlockReady => apply execPcieHardBlockReady_keeps <;> trivial
  | adminQueueEnable => apply execAdminQueueEnable_keeps <;> trivial
  | adminQueueReady => apply execAdminQueueReady_keeps <;> trivial
  | queueDisable => apply execQueueDisable_keeps <;> trivial
  | sqTailDoorbell => apply execSqTailDoorbell_keeps <;> trivial
  | cqHeadDoorbell => apply execCqHeadDoorbell_keeps <;> trivial
  | submissionFetch => apply execSubmissionFetch_keeps <;> trivial
  | write => apply execWrite_keeps <;> trivial
  | read => apply execRead_keeps <;> trivial
  | flush => apply execFlush_keeps <;> trivial
  | trim => apply execTrim_keeps <;> trivial
  | writeZeroes => apply execWriteZeroes_keeps <;> trivial
  | copy => apply execCopy_keeps <;> trivial
  | verify => apply execVerify_keeps <;> trivial
  | atomicWrite => apply execAtomicWrite_keeps <;> trivial
  | ledgerQuery => apply execLedgerQuery_keeps <;> trivial
  | ledgerRelease => apply execLedgerRelease_keeps <;> trivial
  | createQp => apply execCreateQp_keeps <;> trivial
  | deleteQp => apply execDeleteQp_keeps <;> trivial
  | tractCreate => apply execTractCreate_keeps <;> trivial
  | tractDelete => apply execTractDelete_keeps <;> trivial
  | tractStateQuery => apply execTractStateQuery_keeps <;> trivial
  | tractStateSetReadOnly => apply execTractStateSetReadOnly_keeps <;> trivial
  | tractStateSetReady => apply execTractStateSetReady_keeps <;> trivial
  | tractFormatDone => apply execTractFormatDone_keeps <;> trivial
  | tractDeleteDone => apply execTractDeleteDone_keeps <;> trivial
  | keyImport => apply execKeyImport_keeps <;> trivial
  | keyRetire => apply execKeyRetire_keeps <;> trivial
  | identify => apply execIdentify_keeps <;> trivial
  | standLoad => apply execStandLoad_keeps <;> trivial
  | eventFetch => apply execEventFetch_keeps <;> trivial
  | fellQuery => apply execFellQuery_keeps <;> trivial
  | abort => apply execAbort_keeps <;> trivial
  | reseal => apply execReseal_keeps <;> trivial
  | completionPost => apply execCompletionPost_keeps <;> trivial
  | coalesceTimerExpires => apply execCoalesceTimerExpires_keeps <;> trivial
  | deadlineExpires => apply execDeadlineExpires_keeps <;> trivial
  | mailboxGo => apply execMailboxGo_keeps <;> trivial
  | mailboxCommandEnd => apply execMailboxCommandEnd_keeps <;> trivial
  | resultAck => apply execResultAck_keeps <;> trivial
  | translationRequest => apply execTranslationRequest_keeps <;> trivial
  | mapPageInstalled => apply execMapPageInstalled_keeps <;> trivial
  | mapPageWritebackDone => apply execMapPageWritebackDone_keeps <;> trivial
  | destage => apply execDestage_keeps <;> trivial
  | mapUpdate => apply execMapUpdate_keeps <;> trivial
  | journalPageTimer => apply execJournalPageTimer_keeps <;> trivial
  | journalPageProgrammed => apply execJournalPageProgrammed_keeps <;> trivial
  | tlyCkptGo => apply execTlyCkptGo_keeps <;> trivial
  | checkpointEnd => apply execCheckpointEnd_keeps <;> trivial
  | rebuildDone => apply execRebuildDone_keeps <;> trivial
  | tlyProbe => apply execTlyProbe_keeps <;> trivial
  | taskDispatch => apply execTaskDispatch_keeps <;> trivial
  | preemptionStart => apply execPreemptionStart_keeps <;> trivial
  | skidderPark => apply execSkidderPark_keeps <;> trivial
  | spillwayRefill => apply execSpillwayRefill_keeps <;> trivial
  | taskTimeout => apply execTaskTimeout_keeps <;> trivial
  | retryBackoffExpires => apply execRetryBackoffExpires_keeps <;> trivial
  | poolLoadWindow => apply execPoolLoadWindow_keeps <;> trivial
  | ldPreemptAnswerTimeout => apply execLdPreemptAnswerTimeout_keeps <;> trivial
  | register => apply execRegister_keeps <;> trivial
  | deregister => apply execDeregister_keeps <;> trivial
  | create => apply execCreate_keeps <;> trivial
  | done => apply execDone_keeps <;> trivial
  | yield => apply execYield_keeps <;> trivial
  | decline => apply execDecline_keeps <;> trivial
  | landingMsgUnknown => apply execLandingMsgUnknown_keeps <;> trivial
  | claim => apply execClaim_keeps <;> trivial
  | release => apply execRelease_keeps <;> trivial
  | mgOwnWireLow => apply execMgOwnWireLow_keeps <;> trivial
  | mgOwnWireHigh => apply execMgOwnWireHigh_keeps <;> trivial
  | mgOwnQuietTimer => apply execMgOwnQuietTimer_keeps <;> trivial
  | arbitrationSlot => apply execArbitrationSlot_keeps <;> trivial
  | arbitrationComplete => apply execArbitrationComplete_keeps <;> trivial
  | driverEnableDelay => apply execDriverEnableDelay_keeps <;> trivial
  | forceWaitExpires => apply execForceWaitExpires_keeps <;> trivial
  | groupBringupDone => apply execGroupBringupDone_keeps <;> trivial
  | ownWireFault => apply execOwnWireFault_keeps <;> trivial
  | groupDrainEnd => apply execGroupDrainEnd_keeps <;> trivial
  | groupDrainTimeout => apply execGroupDrainTimeout_keeps <;> trivial
  | wireReleaseDelay => apply execWireReleaseDelay_keeps <;> trivial
  | keeperTrip => apply execKeeperTrip_keeps <;> trivial
  | channelRetrain => apply execChannelRetrain_keeps <;> trivial
  | zqShortTimer => apply execZqShortTimer_keeps <;> trivial
  | lunIssue => apply execLunIssue_keeps <;> trivial
  | suspend => apply execSuspend_keeps <;> trivial
  | operationResume => apply execOperationResume_keeps <;> trivial
  | lunStatusReady => apply execLunStatusReady_keeps <;> trivial
  | lunTimeout => apply execLunTimeout_keeps <;> trivial
  | busTransferDone => apply execBusTransferDone_keeps <;> trivial
  | hardDecodeDone => apply execHardDecodeDone_keeps <;> trivial
  | softDecodeDone => apply execSoftDecodeDone_keeps <;> trivial
  | patrolVisit => apply execPatrolVisit_keeps <;> trivial
  | pageRowPadTimer => apply execPageRowPadTimer_keeps <;> trivial
  | rawStatus => apply execRawStatus_keeps <;> trivial
  | rawReadLike => apply execRawReadLike_keeps <;> trivial
  | rawProgramLike => apply execRawProgramLike_keeps <;> trivial
  | rawEraseLike => apply execRawEraseLike_keeps <;> trivial
  | rawFeature => apply execRawFeature_keeps <;> trivial
  | rawResetLun => apply execRawResetLun_keeps <;> trivial
  | rawLend => apply execRawLend_keeps <;> trivial
  | rawReturn => apply execRawReturn_keeps <;> trivial
  | medHoursWrite => apply execMedHoursWrite_keeps <;> trivial
  | medHoursTick => apply execMedHoursTick_keeps <;> trivial
  | refugeSave => apply execRefugeSave_keeps <;> trivial
  | trainingTimeout => apply execTrainingTimeout_keeps <;> trivial
  | bundleEnableWrite => apply execBundleEnableWrite_keeps <;> trivial
  | bundleDetectTimeout => apply execBundleDetectTimeout_keeps <;> trivial
  | bundleEqualiseEnd => apply execBundleEqualiseEnd_keeps <;> trivial
  | bundleAlignDone => apply execBundleAlignDone_keeps <;> trivial
  | ident => apply execIdent_keeps <;> trivial
  | cert => apply execCert_keeps <;> trivial
  | share => apply execShare_keeps <;> trivial
  | finish => apply execFinish_keeps <;> trivial
  | keyTimeout => apply execKeyTimeout_keeps <;> trivial
  | bundleRetrain => apply execBundleRetrain_keeps <;> trivial
  | bundleRetrainDone => apply execBundleRetrainDone_keeps <;> trivial
  | bundleRetrainTimeout => apply execBundleRetrainTimeout_keeps <;> trivial
  | flitReceive => apply execFlitReceive_keeps <;> trivial
  | replayTimer => apply execReplayTimer_keeps <;> trivial
  | nakRepeatTimer => apply execNakRepeatTimer_keeps <;> trivial
  | mirrorWrite => apply execMirrorWrite_keeps <;> trivial
  | mirrorAck => apply execMirrorAck_keeps <;> trivial
  | journal => apply execJournal_keeps <;> trivial
  | journalAck => apply execJournalAck_keeps <;> trivial
  | lineRelease => apply execLineRelease_keeps <;> trivial
  | releaseAck => apply execReleaseAck_keeps <;> trivial
  | heartbeat => apply execHeartbeat_keeps <;> trivial
  | leaving => apply execLeaving_keeps <;> trivial
  | pfail => apply execPfail_keeps <;> trivial
  | resyncDone => apply execResyncDone_keeps <;> trivial
  | handbackReq => apply execHandbackReq_keeps <;> trivial
  | handbackGrant => apply execHandbackGrant_keeps <;> trivial
  | healReq => apply execHealReq_keeps <;> trivial
  | healData => apply execHealData_keeps <;> trivial
  | unknownMessage => apply execUnknownMessage_keeps <;> trivial
  | heartbeatSend => apply execHeartbeatSend_keeps <;> trivial
  | partnerAliveEdge => apply execPartnerAliveEdge_keeps <;> trivial
  | wireSilent => apply execWireSilent_keeps <;> trivial
  | linkSilent => apply execLinkSilent_keeps <;> trivial
  | deathDeclared => apply execDeathDeclared_keeps <;> trivial
  | orphanTimeout => apply execOrphanTimeout_keeps <;> trivial
  | takeoverWithdraw => apply execTakeoverWithdraw_keeps <;> trivial
  | foreignMapUsable => apply execForeignMapUsable_keeps <;> trivial
  | foreignReplayDone => apply execForeignReplayDone_keeps <;> trivial
  | probeDue => apply execProbeDue_keeps <;> trivial
  | handbackStart => apply execHandbackStart_keeps <;> trivial
  | handbackDestageDone => apply execHandbackDestageDone_keeps <;> trivial
  | pfailNFall => apply execPfailNFall_keeps <;> trivial
  | pfailDetected => apply execPfailDetected_keeps <;> trivial
  | pfailAckTimeout => apply execPfailAckTimeout_keeps <;> trivial
  | pfailNRise => apply execPfailNRise_keeps <;> trivial
  | healTimeout => apply execHealTimeout_keeps <;> trivial
  | linkKeyUpdate => apply execLinkKeyUpdate_keeps <;> trivial
  | evtAck => apply execEvtAck_keeps <;> trivial
  | evtTagSel => apply execEvtTagSel_keeps <;> trivial
  | evtRateWindowEnd => apply execEvtRateWindowEnd_keeps <;> trivial
  | evtSignalTimer => apply execEvtSignalTimer_keeps <;> trivial
  | hbmRefreshInterval => apply execHbmRefreshInterval_keeps <;> trivial
  | hbmTempRead => apply execHbmTempRead_keeps <;> trivial
  | hbmWriteEyeRetrain => apply execHbmWriteEyeRetrain_keeps <;> trivial
  | hbmRequestUrgent => apply execHbmRequestUrgent_keeps <;> trivial
  | selfRefreshEntry => apply execSelfRefreshEntry_keeps <;> trivial
  | evacuationDone => apply execEvacuationDone_keeps <;> trivial
  | sweepStep => apply execSweepStep_keeps <;> trivial
  | fabSweepStep => apply execFabSweepStep_keeps <;> trivial
  | rekeyGo => apply execRekeyGo_keeps <;> trivial
  | rekeySweepStep => apply execRekeySweepStep_keeps <;> trivial
  | resealGo => apply execResealGo_keeps <;> trivial
  | autoReseal => apply execAutoReseal_keeps <;> trivial
  | keyCmdImport => apply execKeyCmdImport_keeps <;> trivial
  | keyCmdRetire => apply execKeyCmdRetire_keeps <;> trivial
  | skidwayRequestSend => apply execSkidwayRequestSend_keeps <;> trivial
  | skidwayRequestArrive => exact execSkidwayRequestArrive_keeps (fun _ => trivial) t e
  | skidwayCompletion => apply execSkidwayCompletion_keeps <;> trivial
  | routerAbsorb => apply execRouterAbsorb_keeps <;> trivial
  | requestTimeout => apply execRequestTimeout_keeps <;> trivial
  | targetTimeout => apply execTargetTimeout_keeps <;> trivial
  | isolationProbe => apply execIsolationProbe_keeps <;> trivial
  | nocReconfigClose => apply execNocReconfigClose_keeps <;> trivial
  | nocReconfigOpen => apply execNocReconfigOpen_keeps <;> trivial
  | nocRtrClose => apply execNocRtrClose_keeps <;> trivial
  | fenceOpen => apply execFenceOpen_keeps <;> trivial
  | spineContention => apply execSpineContention_keeps <;> trivial
  | landingMreq => apply execLandingMreq_keeps <;> trivial
  | landingTrsp => apply execLandingTrsp_keeps <;> trivial
  | landingDisable => apply execLandingDisable_keeps <;> trivial
  | readbackGo => apply execReadbackGo_keeps <;> trivial
  | readbackCaptureTimeout => apply execReadbackCaptureTimeout_keeps <;> trivial
  | readbackDone => apply execReadbackDone_keeps <;> trivial
  | readbackResume => apply execReadbackResume_keeps <;> trivial
  | cfgSlCmd => apply execCfgSlCmd_keeps <;> trivial
  | standLoadStart => apply execStandLoadStart_keeps <;> trivial
  | standDrainEnd => apply execStandDrainEnd_keeps <;> trivial
  | runRecord => apply execRunRecord_keeps <;> trivial
  | cruiserScanStep => apply execCruiserScanStep_keeps <;> trivial
  | cruiserRepairDone => apply execCruiserRepairDone_keeps <;> trivial
  | cruInj => apply execCruInj_keeps <;> trivial
  | refWindowEnd => apply execRefWindowEnd_keeps <;> trivial
  | referenceGap => apply execReferenceGap_keeps <;> trivial
  | pllUnlock => apply execPllUnlock_keeps <;> trivial
  | polderDown => apply execPolderDown_keeps <;> trivial
  | polderUp => apply execPolderUp_keeps <;> trivial
  | polderReset => apply execPolderReset_keeps <;> trivial
  | polderCloseTimeout => apply execPolderCloseTimeout_keeps <;> trivial
  | polderDrainEnd => apply execPolderDrainEnd_keeps <;> trivial
  | polderDrainTimeout => apply execPolderDrainTimeout_keeps <;> trivial
  | polderIsolateDone => apply execPolderIsolateDone_keeps <;> trivial
  | polderPowerupDone => apply execPolderPowerupDone_keeps <;> trivial
  | polderResetDone => apply execPolderResetDone_keeps <;> trivial
  | stateRun => apply execStateRun_keeps <;> trivial
  | stateSleep => apply execStateSleep_keeps <;> trivial
  | stateDeep => apply execStateDeep_keeps <;> trivial
  | systemWake => apply execSystemWake_keeps <;> trivial
  | crossingReopen => apply execCrossingReopen_keeps <;> trivial
  | epochRatchet => apply execEpochRatchet_keeps <;> trivial
  | epochBroadcastArrive => exact execEpochBroadcastArrive_keeps (fun _ => trivial) t e
  | laneDetectPoll => apply execLaneDetectPoll_keeps <;> trivial
  | laneSignalPresent => apply execLaneSignalPresent_keeps <;> trivial
  | laneAcquired => apply execLaneAcquired_keeps <;> trivial
  | laneTrainingFrame => apply execLaneTrainingFrame_keeps <;> trivial
  | laneAttemptTimeout => apply execLaneAttemptTimeout_keeps <;> trivial
  | laneSignalAbsent => apply execLaneSignalAbsent_keeps <;> trivial
  | laneLockLost => apply execLaneLockLost_keeps <;> trivial
  | laneSignalLoss => apply execLaneSignalLoss_keeps <;> trivial
  | laneSignalReturn => apply execLaneSignalReturn_keeps <;> trivial
  | laneReadaptDone => apply execLaneReadaptDone_keeps <;> trivial
  | adaptWindow => apply execAdaptWindow_keeps <;> trivial
  | laneRetrain => apply execLaneRetrain_keeps <;> trivial
  | quadRefclkChange => apply execQuadRefclkChange_keeps <;> trivial
  | prbsInject => apply execPrbsInject_keeps <;> trivial
  | prbsPeriodicInject => apply execPrbsPeriodicInject_keeps <;> trivial
  | perstNAssert => apply execPerstNAssert_keeps (fun _ => trivial) <;> trivial
  | perstNRise => apply execPerstNRise_keeps <;> trivial
  | linkDown => apply execLinkDown_keeps (fun _ => trivial) <;> trivial
  | flr => apply execFlr_keeps (fun _ => trivial) <;> trivial
  | flrDone => apply execFlrDone_keeps <;> trivial
  | l0pHostRequest => apply execL0pHostRequest_keeps <;> trivial
  | l0pNarrow => apply execL0pNarrow_keeps <;> trivial
  | l0pWiden => apply execL0pWiden_keeps <;> trivial
  | hostBarAccess => exact execHostBarAccess_keeps (fun _ => trivial) t e
  | hostReadCompletion => apply execHostReadCompletion_keeps <;> trivial
  | hostCompletionTimeout => apply execHostCompletionTimeout_keeps <;> trivial
  | msixUnmask => apply execMsixUnmask_keeps <;> trivial
  | pcieRetrain => apply execPcieRetrain_keeps <;> trivial
  | registerWrite => exact execRegisterWrite_keeps (fun _ => trivial) t e
  | bitAliasWrite => exact execBitAliasWrite_keeps (fun _ => trivial) t e
  | pairLoRead => apply execPairLoRead_keeps <;> trivial
  | evtPeek => apply execEvtPeek_keeps <;> trivial
  | railFault => exact execRailFault_keeps (fun _ => trivial) t e
  | thermalRead => exact execThermalRead_keeps (fun _ => trivial) t e
  | testInstructionLoad => exact execTestInstructionLoad_keeps (fun _ => trivial) t e
  | testLogicReset => exact execTestLogicReset_keeps (fun _ => trivial) t e
  | partnerTerminationLost => apply execPartnerTerminationLost_keeps <;> trivial
  | bundleLaneSignal => apply execBundleLaneSignal_keeps <;> trivial
  | probeGivesUp => apply execProbeGivesUp_keeps <;> trivial
  | partnerAliveOutToggle => apply execPartnerAliveOutToggle_keeps <;> trivial
  | nandTemperatureRead => apply execNandTemperatureRead_keeps <;> trivial
  | idlePatternEnd => apply execIdlePatternEnd_keeps <;> trivial
  | fetchResume => apply execFetchResume_keeps <;> trivial
  | pcieLinkUp => apply execPcieLinkUp_keeps <;> trivial
  | configurationRequest => apply execConfigurationRequest_keeps (fun _ => trivial) <;> trivial
  | blockLock => apply execBlockLock_keeps <;> trivial
  | hiBer => apply execHiBer_keeps <;> trivial
  | prbsCheckerLock => apply execPrbsCheckerLock_keeps <;> trivial
  | userPortRead => apply execUserPortRead_keeps <;> trivial
  | coefficientInputWrite => apply execCoefficientInputWrite_keeps <;> trivial

/-- Settles O51: what every command keeps, by the lemma of its own. -/
theorem commandsKeepQueueAndFuses : Obligations.CommandsKeepQueueAndFuses :=
  fun _ _ _ e => ⟨(exec_keeps e).pending, (exec_keeps e).fuses, (exec_keeps e).fresh⟩

/-! ### A dark part -/

/-- The commands that reach a part whose clocks stand, that a reset holds or that a test instruction holds: the power-on reset
and its causes, CFG_PROG_N, test instructions, and the levels on the pins (R707, R854, R870, R874). -/
def Instr.reachesDark : Instr → Bool
  | .powerOnReset .. | .cfgProgNPulse .. | .railFault | .thermalRead .. | .testInstructionLoad .. | .testLogicReset .. => true
  | .perstNAssert | .perstNRise | .pfailNFall | .pfailNRise | .mgOwnWireLow .. | .mgOwnWireHigh .. => true
  | _ => false

/-- Every other command acts under `State.when`, which asks that the part runs. -/
theorem exec_guarded {c : Instr} (h : Instr.reachesDark c = false) (s : State) : ∃ b f, exec c s = .next (s.when b f) := by
  cases c
  case powerOnReset => contradiction
  case cfgProgNPulse => contradiction
  case railFault => contradiction
  case thermalRead => contradiction
  case testInstructionLoad => contradiction
  case testLogicReset => contradiction
  case perstNAssert => contradiction
  case perstNRise => contradiction
  case pfailNFall => contradiction
  case pfailNRise => contradiction
  case mgOwnWireLow => contradiction
  case mgOwnWireHigh => contradiction
  all_goals exact ⟨_, _, rfl⟩

/-- Settles O50: a command that is none of the named acts under a guard that a dark part does not meet. -/
theorem darkPartStandsStill : Obligations.DarkPartStandsStill := by
  intro s c hd hpor hprog hrail htherm htest htlr hassert hrise hpf hpr hlow hhigh
  have hc : Instr.reachesDark c = false := by
    unfold Instr.reachesDark
    split <;> simp_all
  obtain ⟨b, f, e⟩ := exec_guarded hc s
  exact e.trans (congrArg _ (State.when_dark hd))

/-! ### Every step -/

theorem step_of_pending {s : State} {c : Instr} {rest : List Instr} (h : s.pending = c :: rest) :
    step s = exec c { s with pending := rest } := by
  unfold step
  rw [h]

theorem step_of_empty {s : State} (h : s.pending = []) : step s = .next s.tick := by
  unfold step
  rw [h]

/-- Settles O46, by the step's equation for a queue that is not empty. -/
theorem stepRunsFrontCommand : Obligations.StepRunsFrontCommand := fun _ _ _ h => step_of_pending h

/-- Settles O48: a tick on an empty queue, and else whatever the front command answers. -/
theorem everyStepAnswers : Obligations.EveryStepAnswers := by
  intro s
  cases h : s.pending with
  | nil => exact ⟨s.tick, step_of_empty h⟩
  | cons c rest =>
    obtain ⟨t, e⟩ := exec_answers c { s with pending := rest }
    exact ⟨t, (step_of_pending h).trans e⟩

/-- Whatever keeps the stores and the time base keeps the form of the state. -/
theorem InForm.of_keeps {ps : Part → Prop} {s t : State} (hs : InForm s) (h : Keeps ps s t) : InForm t :=
  ⟨h.wf hs.wf, h.base hs.base⟩

theorem State.tick_keepsAll (s : State) : Keeps (fun _ => True) s s.tick := by
  apply State.tick_keeps (h := Keeps.refl s) <;> trivial

/-- Settles O52: a tick and every command keep the form of the stores and the width of the time base. -/
theorem stepKeepsForm : Obligations.StepKeepsForm := by
  intro s t hs e
  cases h : s.pending with
  | nil =>
    obtain rfl : s.tick = t := by simpa [step_of_empty h] using e
    exact hs.of_keeps s.tick_keepsAll
  | cons c rest =>
    have hrest : InForm { s with pending := rest } := ⟨hs.wf, hs.base⟩
    exact hrest.of_keeps (exec_keeps ((step_of_pending h).symm.trans e))

/-! ### A step on an empty queue -/

/-- The state of a part that runs just before the tick's µs ends: user logic has run, the time base has counted, and what was due
has been done. -/
def State.ticked (s : State) : State :=
  ({ s.tapSample.fabricNs with time := (s.tapSample.fabricNs.time + 1) % 2 ^ 64 } : State).authenticate.mapWork.elastic

theorem State.tick_of_running {s : State} (hd : s.dark = false) :
    s.tick = if s.ticked.time % 1000 = 0 then s.ticked.stallTick else s.ticked := by
  have h : ¬ s.tapSample.dark = true := Bool.eq_false_iff.1 hd
  exact if_neg h

theorem State.tick_of_dark {s : State} (hd : s.dark = true) : s.tick = s.tapSample := if_pos hd

theorem State.fabricNs_time (s : State) : s.fabricNs.time = s.time :=
  (State.fabricNs_keeps (ps := (· ≠ .time)) (by decide) (by decide) (by decide) (Keeps.refl s)).same .time (by simp)

theorem State.stallTick_time (s : State) : s.stallTick.time = s.time :=
  (State.stallTick_keeps (ps := (· ≠ .time)) (by decide) (Keeps.refl s)).same .time (by simp)

/-- Nothing that is due at a tick changes the time base. -/
theorem State.due_time (s : State) : s.authenticate.mapWork.elastic.time = s.time := by
  have h1 : Keeps (· ≠ .time) s s.authenticate := by
    apply State.authenticate_keeps (h := Keeps.refl s) <;> decide
  have h2 : Keeps (· ≠ .time) s s.authenticate.mapWork := by
    apply State.mapWork_keeps (h := h1) <;> decide
  have h3 : Keeps (· ≠ .time) s s.authenticate.mapWork.elastic := by
    apply State.elastic_keeps (h := h2) <;> decide
  exact h3.same .time (by simp)

theorem State.ticked_time (s : State) : s.ticked.time = (s.time + 1) % 2 ^ 64 := by
  rw [State.ticked, State.due_time, State.fabricNs_time]
  rfl

theorem State.tick_time {s : State} (hd : s.dark = false) : s.tick.time = (s.time + 1) % 2 ^ 64 := by
  rw [State.tick_of_running hd]
  split
  · rw [State.stallTick_time, State.ticked_time]
  · rw [State.ticked_time]

theorem State.tapSample_touches (s : State) : Touches [.tap] s s.tapSample :=
  (State.tapSample_keeps (by decide) (Keeps.refl s)).touches

/-- Nothing is due without a header, a usable map and clocks that differ. -/
theorem State.due_of_idle {s : State} (himg : s.cfg.img = none) (hmap : s.tly.usable = false) (hppm : s.pci.ppm = 0) :
    s.authenticate.mapWork.elastic = s := by
  have h1 : s.authenticate = s := by simp [State.authenticate, himg]
  have h2 : s.mapWork = s := by simp [State.mapWork, hmap]
  have h3 : s.elastic = s := by simp [State.elastic, hppm]
  rw [h1, h2, h3]

/-- With no user logic and nothing due a tick only samples the wires and counts the time base. -/
theorem State.ticked_of_idle {s : State} (hfab : s.cfg.clkOn = false ∨ s.sl.frames = []) (himg : s.cfg.img = none)
    (hmap : s.tly.usable = false) (hppm : s.pci.ppm = 0) :
    s.ticked = { s.tapSample with time := (s.time + 1) % 2 ^ 64 } := by
  have hfab' : s.tapSample.fabricNs = s.tapSample := if_pos (hfab.imp Bool.eq_false_iff.1 id)
  rw [State.ticked, hfab']
  exact State.due_of_idle himg hmap hppm

/-- Settles O47: the parts of `tick`, each with what it leaves alone. -/
theorem idleStepCountsTime : Obligations.IdleStepCountsTime := by
  intro s hp
  refine ⟨fun hd => ⟨s.tick, step_of_empty hp, State.tick_time hd, ?_, ?_⟩, fun hd => ⟨?_, s.tapSample_touches⟩⟩
  · refine Keeps.touches ?_
    apply State.tick_keeps (h := Keeps.refl s) <;> decide
  · intro hfab himg hmap hppm
    have hidle : Keeps (· ∈ [Part.time, .tap, .regs 19]) s s.ticked := by
      rw [State.ticked_of_idle hfab himg hmap hppm]
      have htap : Keeps (· ∈ [Part.time, .tap, .regs 19]) s s.tapSample :=
        State.tapSample_keeps (by decide) (Keeps.refl s)
      exact Keeps.lit rfl rfl htap (h_time := .inr (by decide))
    rw [State.tick_of_running hd]
    split
    · exact (State.stallTick_keeps (by decide) hidle).touches
    · exact hidle.touches
  · rw [step_of_empty hp, State.tick_of_dark hd]

/-! ### The state after reset -/

/-- A single value of the Reset column serves every index. -/
theorem Fld.reset_of_single {f : Fld} {v : Nat} (h : f.rst = [v]) (i : Nat) : f.reset i = v := by
  unfold Fld.reset
  rw [h]
  cases i <;> rfl

/-- Settles O49: no register, line or shadow is listed, so that each reads as its table or the log gives (log entries 3 and 14). -/
theorem resetState : Obligations.ResetState := by
  exact ⟨rfl, rfl, rfl, rfl, rfl, fun _ _ _ => rfl, fun _ => rfl, fun _ _ => rfl, ⟨rfl, by decide⟩, rfl, rfl, rfl,
    Fld.reset_of_single rfl, Fld.reset_of_single rfl, rfl, rfl, rfl, rfl, rfl, rfl⟩

/-! ### Counters -/

theorem State.rd_raise_self {s : State} (w : Memory.wf s = true) (f : Fld) (n i j : Nat) (h : s.rd f i j < 2 ^ f.w) :
    (s.raise f n i j).rd f i j = max (s.rd f i j) (min n (2 ^ f.w - 1)) :=
  (State.rd_put_self w ..).trans (Fld.cut_of_lt (Nat.max_lt.2 ⟨h,
    Nat.lt_of_le_of_lt (Nat.min_le_right ..) (Nat.sub_lt (Nat.two_pow_pos _) Nat.one_pos)⟩))

/-- Settles O60, by what a register reads after `put`. -/
theorem countersSaturate : Obligations.CountersSaturate := fun _ hl f n i j =>
  ⟨State.rd_bump_self hl.wf f n i j, State.rd_raise_self hl.wf f n i j,
    fun g x y h => ⟨State.rd_bump_ne hl.wf f g n i j x y h, State.rd_put_ne hl.wf f g _ i j x y h⟩⟩

end Sys2Proof.Machine

/-! PROOFS. The register model: reads of pairs and of aliased words, and the writes that stage and commit a pair (R816 to R827). -/

namespace Sys2Proof.Machine
open Sys2Proof

/-! ### Fields and their places -/

theorem Fld.off_of_at? {f : Fld} {o i j : Nat} (h : f.at? o = some (i, j)) : i < f.n1 ∧ j < f.n2 ∧ f.off i j = o := by
  obtain ⟨-, h⟩ := Option.ite_none_left_eq_some.1 h
  obtain ⟨hij, e⟩ := Option.ite_none_right_eq_some.1 h
  obtain ⟨rfl, rfl⟩ := Prod.mk.inj (Option.some.inj e)
  exact hij

theorem mem_fieldsAt {o : Nat} {f : Fld} {i j : Nat} (h : (f, i, j) ∈ fieldsAt o) :
    f ∈ F.ofBlock (o % 0x4000000 / 0x100000) ∧ i < f.n1 ∧ j < f.n2 ∧ f.off i j = o := by
  obtain ⟨g, hg, e⟩ := List.mem_filterMap.1 h
  obtain ⟨x, hx, e⟩ := Option.map_eq_some_iff.1 e
  cases e
  exact ⟨hg, Fld.off_of_at? hx⟩

/-- The place of the last word of a field's array. -/
def Fld.last (f : Fld) : Nat := f.base + f.s1 * (f.n1 - 1) + f.s2 * (f.n2 - 1)

theorem Fld.off_le_last {f : Fld} {i j : Nat} (hi : i < f.n1) (hj : j < f.n2) : f.off i j ≤ f.last :=
  Nat.add_le_add (Nat.add_le_add_left (Nat.mul_le_mul_left _ (Nat.le_sub_one_of_lt hi)) _)
    (Nat.mul_le_mul_left _ (Nat.le_sub_one_of_lt hj))

/-- The offset lies in the policy window of GLB or in the record window of EVT. -/
def inWindow (o : Nat) : Prop :=
  (0x10000 ≤ o % 0x4000000 ∧ o % 0x4000000 < 0x11000) ∨ (0x1110000 ≤ o % 0x4000000 ∧ o % 0x4000000 < 0x1130000)

/-- The windows hold no register. -/
theorem fieldsAt_of_inWindow {o : Nat} (h : inWindow o) : fieldsAt o = [] := by
  refine List.eq_nil_iff_forall_not_mem.2 fun ⟨f, i, j⟩ hf => ?_
  obtain ⟨hblk, hi, hj, rfl⟩ := mem_fieldsAt hf
  have hle := Fld.off_le_last hi hj
  have hmod := Nat.mod_le (f.off i j) 0x4000000
  rcases h with h | h
  · have hglb : ∀ f ∈ F.block0, f.last < 0x10000 := by decide
    have hlast := hglb f (by rwa [show f.off i j % 0x4000000 / 0x100000 = 0 by omega] at hblk)
    omega
  · have hevt : ∀ f ∈ F.block17, f.last < 0x1110000 := by decide
    have hlast := hevt f (by rwa [show f.off i j % 0x4000000 / 0x100000 = 17 by omega] at hblk)
    omega

theorem not_inWindow_of_hasTy {o : Nat} {t : RegTy} (h : hasTy o t = true) : ¬ inWindow o := by
  intro hw
  rw [hasTy, fieldsAt_of_inWindow hw] at h
  cases h

/-! ### Reads of words -/

/-- No register shows a shadow, so that a word is the same whatever stands in the shadows. -/
theorem State.word_shadow (s : State) (x : Map (Option Nat)) (req : Req) (o : Nat) :
    ({ s with shadow := x } : State).word req o = s.word req o := rfl

theorem State.word_latch (s : State) (req : Req) (p o : Nat) : (s.latch req p).word req o = s.word req o :=
  s.word_shadow ..

/-- A word with a field of type RS shows the shadow of its pair (R817). -/
theorem State.readWord_rs {s : State} {req : Req} {o : Nat} (ha : s.answers o = true) (hw : ¬ inWindow o)
    (hrs : hasTy o .rs = true) :
    s.readWord req o = (s, (Map.get none s.shadow (stageKey req (o - 4))).getD 0) := by
  obtain ⟨hglb, hevt⟩ := not_or.1 hw
  simp only [State.readWord, if_neg hglb, if_neg hevt, ha, hrs, not_true_eq_false, if_false, if_true]

/-- A word with a field of type RL shows its value and latches the word above it (R817). -/
theorem State.readWord_rl {s : State} {req : Req} {o : Nat} (ha : s.answers o = true) (hw : ¬ inWindow o)
    (hrl : hasTy o .rl = true) (hrs : hasTy o .rs = false) : s.readWord req o = (s.latch req o, s.word req o) := by
  obtain ⟨hglb, hevt⟩ := not_or.1 hw
  simp only [State.readWord, if_neg hglb, if_neg hevt, ha, hrl, hrs, not_true_eq_false, Bool.false_eq_true, if_false, if_true]

/-- A read leaves the part as it is, or is one of a low word that answers, and latches. -/
theorem State.readWord_cases (s : State) (req : Req) (o : Nat) : (s.readWord req o).1 = s ∨
    (s.answers o = true ∧ ¬ inWindow o ∧ hasTy o .rl = true ∧ hasTy o .rs = false) := by
  by_cases hw : inWindow o
  · refine .inl ?_
    rcases hw with h | h
    · simp only [State.readWord, if_pos h]
    · simp only [State.readWord, if_pos h]
      split <;> rfl
  · obtain ⟨hglb, hevt⟩ := not_or.1 hw
    cases ha : s.answers o
    · simp [State.readWord, hglb, hevt, ha]
    · cases hrs : hasTy o .rs
      · cases hrl : hasTy o .rl
        · simp [State.readWord, hglb, hevt, ha, hrs, hrl]
        · exact .inr ⟨rfl, hw, rfl, rfl⟩
      · exact .inl (congrArg Prod.fst (State.readWord_rs ha hw hrs))

theorem Map.get_keep_of_dropped {α : Type} {d : α} (p : Nat → α → Bool) {k : Nat} (hk : ∀ v, p k v = false) (m : Map α) :
    Map.get d (Map.keep p m) k = d := by
  induction m with
  | nil => rfl
  | cons e m ih =>
    rw [Map.keep, List.filter_cons]
    split
    · rename_i he
      have hne : k ≠ e.1 := by
        rintro rfl
        rw [hk] at he
        cases he
      rw [Map.get, if_neg hne]
      split
      · rfl
      · exact ih
    · exact ih

theorem stageKey_mod (req : Req) {o : Nat} (h : o < 2 ^ 40) : stageKey req o % 2 ^ 40 = o := by
  rw [stageKey, Nat.mul_add_mod, Nat.mod_eq_of_lt h]

/-- Settles O53: what a read of each word of a pair shows, and what a latch and a reset leave in the shadow. -/
theorem pairReads : Obligations.PairReads := by
  intro s req o ha hglb hevt
  have hw : ¬ inWindow o := not_or.2 ⟨hglb, hevt⟩
  refine ⟨State.readWord_rl ha hw, fun hrs h => ?_, fun x hrs h => ?_, ?_, fun p ho hp => ?_, rfl⟩
  · rw [State.readWord_rs ha hw hrs, h]
    rfl
  · rw [State.readWord_rs ha hw hrs, h]
    rfl
  · rintro p habove hrs rfl
    have hlatched : Map.get none (s.latch req p).shadow (stageKey req p) = some (s.word req (p + 4)) :=
      Map.get_set_self none (stageKey req p) (some (s.word req (p + 4))) habove
    rw [State.readWord_rs (s := s.latch req p) ha hw hrs, Nat.add_sub_cancel, hlatched]
    rfl
  · exact Map.get_keep_of_dropped (fun k _ => !p (k % 2 ^ 40)) (fun _ => by rw [stageKey_mod req ho, hp]; rfl) _

/-- Settles O55: a read that latches shows the same word when it is made again, and any other leaves the part as it is. -/
theorem readsChangeNothing : Obligations.ReadsChangeNothing := by
  intro s req o _
  refine ⟨(State.readWord_keeps (by decide) (Keeps.refl s)).touches, fun h => ?_, ?_⟩
  · rcases s.readWord_cases req o with e | ⟨-, -, hrl, -⟩
    · exact e
    · rw [h] at hrl
      cases hrl
  · rcases s.readWord_cases req o with e | ⟨ha, hw, hrl, hrs⟩
    · rw [e]
    · have hagain : (s.latch req o).readWord req o = ((s.latch req o).latch req o, (s.latch req o).word req o) :=
        State.readWord_rl ha hw hrl hrs
      rw [State.readWord_rl ha hw hrl hrs, hagain]
      exact s.word_latch req o o

/-- An aliased word shows its bit of the register that the requester's view names (R826). -/
theorem State.aliasRead_aliasOff {s : State} {req : Req} {blk reg b : Nat} (hr : reg < 0x1000) (h4 : reg % 4 = 0) (hb : b < 32)
    (ha : s.answers (viewOff req (0x100000 * blk + reg)) = true) :
    s.aliasRead req (aliasOff blk reg b) = s.word req (viewOff req (0x100000 * blk + reg)) / 2 ^ b % 2 := by
  have hreg : 0x100000 * ((aliasOff blk reg b - 0x2000000) / 0x20000) +
      (aliasOff blk reg b - 0x2000000) % 0x20000 / 32 / 4 * 4 = 0x100000 * blk + reg := by
    unfold aliasOff
    omega
  have hbit : (aliasOff blk reg b - 0x2000000) % 128 / 4 = b := by
    unfold aliasOff
    omega
  simp only [State.aliasRead, hreg, hbit, ha, if_true]

/-- Settles O56: a read of an aliased word goes to the register's word, which no shadow is part of. -/
theorem aliasReads : Obligations.AliasReads := by
  intro s req blk reg b _ hr h4 hb ha
  refine ⟨?_, fun x => s.word_shadow x ..⟩
  exact (if_neg (aliasOff_ge blk reg b)).trans (congrArg _ (State.aliasRead_aliasOff hr h4 hb ha))

/-! ### Writes of pairs -/

/-- A write of a low word is staged for its requester (R818). -/
theorem State.regWrite_rl {s : State} {o : Nat} (hrl : hasTy o .rl = true) (hro : pairRo o = false) (req : Req) (v : Nat) :
    s.regWrite req o v = { s with stage := Map.set none s.stage (stageKey req o) (some (v % 2 ^ 32)) } := by
  refine (if_neg (not_inWindow_of_hasTy hrl)).trans ?_
  rw [if_pos hrl, hro]
  rfl

/-- The low word that a commit of the pair at `lo` takes: the one staged, or the current one (R818). -/
def State.lowWord (s : State) (req : Req) (lo : Nat) : Nat := (Map.get none s.stage (stageKey req lo)).getD (s.word req lo)

/-- A write of a high word commits the pair (R818). -/
theorem State.regWrite_rs {s : State} {lo : Nat} (hrl : hasTy (lo + 4) .rl = false) (hrs : hasTy (lo + 4) .rs = true)
    (hro : pairRo lo = false) (req : Req) (v : Nat) : s.regWrite req (lo + 4) v =
      State.pairEffect { s with stage := Map.erase s.stage (stageKey req lo) } lo (s.lowWord req lo) (v % 2 ^ 32) := by
  refine (if_neg (not_inWindow_of_hasTy hrs)).trans ?_
  rw [hrl, hrs, if_neg Bool.false_ne_true, if_pos rfl, State.commitPair, Nat.add_sub_cancel, hro]
  rfl

theorem State.probe_stage (s : State) : s.probe.stage = s.stage :=
  (State.probe_keeps (ps := (· = .regs 7)) rfl (Keeps.refl s)).same .stage (by decide)

theorem State.foldl_put_stage (s : State) (v : Nat) (l : List (Fld × Nat × Nat)) :
    (l.foldl (fun s y => s.put y.1 v y.2.1 y.2.2) s).stage = s.stage := by
  induction l generalizing s with
  | nil => rfl
  | cons y l ih => exact ih _

/-- What a commit starts stages nothing and takes nothing that is staged. -/
theorem State.pairEffect_stage (s : State) (lo v w : Nat) : (s.pairEffect lo v w).stage = s.stage := by
  unfold State.pairEffect
  split
  · rfl
  · split
    · rfl
    · have hput : ((fieldsAt (lo + 4)).foldl (fun s y => s.put y.1 w y.2.1 y.2.2)
          ((fieldsAt lo).foldl (fun s y => s.put y.1 v y.2.1 y.2.2) s)).stage = s.stage := by
        rw [State.foldl_put_stage, State.foldl_put_stage]
      dsimp only
      split
      · exact (State.probe_stage _).trans hput
      · exact hput

/-- A pair of single fields outside the route tables takes the two words. -/
theorem State.pairEffect_fields {s : State} {lo : Nat} (hpri : lo ≠ F.NOC_RT_PRI_LO.base) (halt : lo ≠ F.NOC_RT_ALT_LO.base)
    {f g : Fld} {i j x y : Nat} (hf : fieldsAt lo = [(f, i, j)]) (hg : fieldsAt (lo + 4) = [(g, x, y)]) (v w : Nat) :
    s.pairEffect lo v w =
      if lo = F.TLY_PROBE_IU_LO.base then ((s.put f v i j).put g w x y).probe else (s.put f v i j).put g w x y := by
  unfold State.pairEffect
  rw [if_neg hpri, if_neg halt, hf, hg]
  rfl

theorem ofBlock_lo_lt (b : Nat) : ∀ f ∈ F.ofBlock b, f.lo < 32 := by
  unfold F.ofBlock
  split <;> decide

/-- Fields of different words lie apart in the register store. -/
theorem key_ne_of_words {o p : Nat} {f g : Fld} {i j x y : Nat} (hf : (f, i, j) ∈ fieldsAt o) (hg : (g, x, y) ∈ fieldsAt p)
    (h : o + 4 = p) : f.key i j ≠ g.key x y := by
  by_cases hb : f.blk = g.blk
  · obtain ⟨hfb, -, -, hfo⟩ := mem_fieldsAt hf
    obtain ⟨hgb, -, -, hgo⟩ := mem_fieldsAt hg
    have hflo := ofBlock_lo_lt _ f hfb
    have hglo := ofBlock_lo_lt _ g hgb
    simp only [Fld.off] at hfo hgo
    simp only [Fld.key, Fld.blk] at hb ⊢
    omega
  · exact Fld.key_ne_of_blk hb x y i j

/-- The fields that a probe writes. -/
def probeFlds : List Fld := [F.TLY_LOOKUPS, F.TLY_PROBE_ENTRY_LO, F.TLY_PROBE_ENTRY_HI] ++ probeStatFlds

theorem State.probe_eq_putEach (s : State) : ∃ l, l.map Prod.fst = probeFlds ∧ s.probe = s.putEach l :=
  ⟨[(_, _), (_, _), (_, _), (_, _), (_, _), (_, _)], rfl, rfl⟩

theorem State.rd_probe_ne {s : State} (w : Memory.wf s = true) {f : Fld} (h : f.key 0 0 ∉ probeFlds.map (fun g => g.key 0 0)) :
    s.probe.rd f = s.rd f := by
  obtain ⟨l, hl, e⟩ := s.probe_eq_putEach
  rw [e]
  exact State.rd_putEach_of_notMem w (hl ▸ h)

/-- Settles O54: what `regWrite` stages and commits, and what a commit leaves staged. -/
theorem pairWrites : Obligations.PairWrites := by
  intro s hwf habove req lo v _ hro
  refine ⟨fun hrl => ?_, fun hrl hrs => ?_⟩
  · rw [State.regWrite_rl hrl hro]
    refine ⟨(Keeps.lit rfl rfl (Keeps.refl s) (h_stage := .inr (by decide))).touches, ?_, fun k hk => ?_⟩
    · exact Map.get_set_self none (stageKey req lo) (some (v % 2 ^ 32)) habove
    · exact Map.get_set_ne none none (some (v % 2 ^ 32)) hk habove
  · rw [State.regWrite_rs hrl hrs hro]
    have hwf' : Memory.wf { s with stage := Map.erase s.stage (stageKey req lo) } = true := hwf
    refine ⟨?_, fun k hk => ?_, fun f g i j x y hpri halt hprobe hf hg => ?_, ?_, ?_, ?_⟩
    · rw [State.pairEffect_stage]
      exact Map.get_erase_self _ habove
    · rw [State.pairEffect_stage]
      exact Map.get_erase_ne hk habove
    · rw [State.pairEffect_fields hpri halt hf hg, if_neg hprobe]
      have hne : f.key i j ≠ g.key x y :=
        key_ne_of_words (hf ▸ List.mem_singleton_self _) (hg ▸ List.mem_singleton_self _) rfl
      exact ⟨(State.rd_put_ne (State.wf_put hwf' ..) (h := hne) ..).trans (State.rd_put_self hwf' ..),
        State.rd_put_self (State.wf_put hwf' ..) ..⟩
    · rintro rfl
      have hlo : fieldsAt F.TLY_PROBE_IU_LO.base = [(F.TLY_PROBE_IU_LO, 0, 0)] := by decide
      have hhi : fieldsAt (F.TLY_PROBE_IU_LO.base + 4) = [(F.TLY_PROBE_IU_HI, 0, 0)] := by decide
      rw [State.pairEffect_fields (by decide) (by decide) hlo hhi, if_pos rfl]
      have hput := State.wf_put (State.wf_put hwf' F.TLY_PROBE_IU_LO (s.lowWord req F.TLY_PROBE_IU_LO.base) 0 0)
        F.TLY_PROBE_IU_HI (v % 2 ^ 32) 0 0
      rw [State.rd_probe_ne hput (by decide), State.rd_probe_ne hput (by decide)]
      refine ⟨(State.rd_put_ne (State.wf_put hwf' ..) (h := by decide) ..).trans (State.rd_put_self hwf' ..), ?_⟩
      exact (State.rd_put_self (State.wf_put hwf' ..) ..).trans (Nat.mod_mod ..)
    · rintro rfl
      exact congrArg (fun t : State => t.noc.routes) (if_pos rfl)
    · rintro rfl
      exact congrArg (fun t : State => t.noc.routes) ((if_neg (by decide)).trans (if_pos rfl))

end Sys2Proof.Machine

/-! PROOFS. The references of the root PLL: the end of a measuring window, and a gap of the selected reference (R702, R704, R706). -/

namespace Sys2Proof.Machine
open Sys2Proof

/-- A window of the recovered clock measures both references, and the selection follows (R702, R703). -/
theorem Live.exec_refWindowEnd {s : State} (hl : Live s) (hrun : s.clk.stopped = false) (hclk : s.leveeClock = true)
    (localOk ok : Bool) (o : Int) :
    exec (.refWindowEnd localOk (some (ok, o))) s = .next (
      let t := s.measured (some o) (localOk && s.refNear o) (ok && s.refNear o)
      if (t.rd F.CLK_STAT_REF = 0 ∧ ¬ (localOk && s.refNear o)) ∨ (t.rd F.CLK_STAT_REF = 1 ∧ ¬ (ok && s.refNear o))
        then t.refLost else t.refSelect) := by
  refine (State.next_when hl.runs (by rw [hrun]; rfl)).trans ?_
  simp only [hclk, if_true]
  rfl

/-- The registers by which the recovered clock may be selected (R703). -/
def eligibleFlds : List Fld := [F.CLK_REF_CTL_SEL, F.LVE_STAT_ROLE, F.LVE_BUNDLE_STAT_STATE, F.CLK_REF_CFG_GOOD_WIN]

theorem State.leveeEligible_put {s : State} (w : Memory.wf s = true) {f : Fld}
    (h : f.key 0 0 ∉ eligibleFlds.map (fun g => g.key 0 0)) (v : Nat) : (s.put f v).leveeEligible = s.leveeEligible := by
  have hrd : ∀ g ∈ eligibleFlds, (s.put f v).rd g = s.rd g := fun g hg =>
    State.rd_put_ne w (h := fun e => h (e ▸ List.mem_map_of_mem hg)) ..
  simp only [eligibleFlds, List.forall_mem_cons] at hrd
  obtain ⟨hsel, hrole, hbundle, hwin, -⟩ := hrd
  simp only [State.leveeEligible, State.leveeClock, State.goodWin, State.on, hsel, hrole, hbundle, hwin, State.put_cfg,
    State.put_clk]
  rfl

/-- A selected local reference that is lost while the recovered clock may not be selected leaves the part in holdover (R706). -/
theorem State.refLost_of_local {s : State} (w : Memory.wf s = true) (href : s.rd F.CLK_STAT_REF = 0)
    (hlevee : s.leveeEligible = false) :
    s.refLost = ((s.bump F.CLK_REF_LOSSES).put F.CLK_STAT_REF 2).post E.CLK_HOLDOVER := by
  have hbump : (s.bump F.CLK_REF_LOSSES).leveeEligible = false := (State.leveeEligible_put w (by decide) _).trans hlevee
  simp only [State.refLost, href, hbump, if_true, Bool.false_eq_true, if_false]

/-- The part after a gap of the local reference: no good windows of it, and it is lost. -/
def State.localGap (s : State) : State := State.put { s with clk.goodLocal := 0 } F.CLK_STAT_LOCAL_OK 0

theorem Live.exec_referenceGap {s : State} (hl : Live s) (hrun : s.clk.stopped = false) (href : s.rd F.CLK_STAT_REF = 0) :
    exec .referenceGap s = .next s.localGap.refLost := by
  refine (State.next_when hl.runs (by rw [hrun, href]; rfl)).trans (congrArg _ (if_neg ?_))
  rw [href]
  decide

/-- Settles O6: the windows by the equation of REF_WINDOW_END; a gap by what each write of `refLost` leaves. -/
theorem clockReferenceEvents : Obligations.ClockReferenceEvents := by
  intro s hl hrun
  refine ⟨fun localOk ok o hclk => hl.exec_refWindowEnd hrun hclk localOk ok o, fun href hlevee => ?_⟩
  have w : Memory.wf { s with clk.goodLocal := 0 } = true := hl.wf
  have wgap : Memory.wf s.localGap = true := State.wf_put w ..
  have wloss : Memory.wf (s.localGap.bump F.CLK_REF_LOSSES) = true := State.wf_bump wgap ..
  have whold : Memory.wf ((s.localGap.bump F.CLK_REF_LOSSES).put F.CLK_STAT_REF 2) = true := State.wf_put wloss ..
  have hgap : s.localGap.refLost = ((s.localGap.bump F.CLK_REF_LOSSES).put F.CLK_STAT_REF 2).post E.CLK_HOLDOVER :=
    State.refLost_of_local wgap ((State.rd_put_ne w (h := by decide) ..).trans href)
      ((State.leveeEligible_put w (by decide) _).trans hlevee)
  have e := hgap ▸ hl.exec_referenceGap hrun href
  refine ⟨_, e, ?_, ?_, ?_, ?_, (execReferenceGap_keeps (by decide) (by decide) (by decide) (by decide) (by decide) (by decide)
    _ e).touches⟩
  · rw [State.rd_post whold (h := by decide), State.rd_put_self wloss]
    rfl
  · rw [State.rd_post whold (h := by decide), State.rd_put_ne wloss (h := by decide), State.rd_bump_ne wgap (h := by decide)]
    exact State.rd_put_self w ..
  · rw [State.rd_post whold (h := by decide), State.rd_put_ne wloss (h := by decide), State.rd_bump_self wgap]
    have hloss : s.localGap.rd F.CLK_REF_LOSSES = s.rd F.CLK_REF_LOSSES := State.rd_put_ne w (h := by decide) ..
    rw [hloss]
    rfl
  · exact congrArg Clk.goodLocal ((State.post_keeps (ps := (· ∈ [Part.regs 17, .evt, .out, .pci])) (by decide) (by decide)
      (by decide) (by decide) (Keeps.refl _)).same .clk (by decide))

end Sys2Proof.Machine

/-! PROOFS. The serial lanes: bring-up, training, loss of signal, adaptation, PCS reports, PRBS and coefficients. First what the
fields of one index of a register array read after some of them are written. -/

namespace Sys2Proof.Machine
open Sys2Proof

/-! ### Fields of one index -/

/-- Two fields of arrays with the same stride lie at different places in the window of their block. -/
def Fld.apart (f g : Fld) : Bool :=
  f.s1 == g.s1 && decide (f.lo < 32) && decide (g.lo < 32) && 8 * (f.base % 2 ^ 20) + f.lo != 8 * (g.base % 2 ^ 20) + g.lo

/-- Such fields have different keys at each index. -/
theorem Fld.key_ne_of_apart {f g : Fld} (h : f.apart g = true) (i : Nat) : f.key i 0 ≠ g.key i 0 := by
  simp only [Fld.apart, Bool.and_eq_true, beq_iff_eq, decide_eq_true_eq, bne_iff_ne] at h
  obtain ⟨⟨⟨hs, hf⟩, hg⟩, hne⟩ := h
  by_cases hb : f.blk = g.blk
  · have hfb := Nat.mod_lt f.base (Nat.two_pow_pos 20)
    have hgb := Nat.mod_lt g.base (Nat.two_pow_pos 20)
    simp only [Fld.key, hb, hs]
    omega
  · exact Fld.key_ne_of_blk hb i 0 i 0

theorem State.rd_put_apart {s : State} (w : Memory.wf s = true) {f g : Fld} (h : g.apart f = true) (v i : Nat) :
    (s.put f v i).rd g i = s.rd g i := State.rd_put_ne w (h := Fld.key_ne_of_apart h i) ..

/-- Writes each listed field at one index, in order. -/
def State.putAt (s : State) (i : Nat) (l : List (Fld × Nat)) : State := l.foldl (fun s x => s.put x.1 x.2 i) s

theorem State.wf_putAt {s : State} (w : Memory.wf s = true) (i : Nat) (l : List (Fld × Nat)) : Memory.wf (s.putAt i l) = true := by
  induction l generalizing s with
  | nil => exact w
  | cons x l ih => exact ih (State.wf_put w ..)

theorem State.rd_putAt_ne {s : State} (w : Memory.wf s = true) {i : Nat} {l : List (Fld × Nat)} {f : Fld}
    (h : (l.map Prod.fst).all f.apart = true) : (s.putAt i l).rd f i = s.rd f i := by
  induction l generalizing s with
  | nil => rfl
  | cons x l ih =>
    simp only [List.map_cons, List.all_cons, Bool.and_eq_true] at h
    exact (ih (State.wf_put w ..) h.2).trans (State.rd_put_apart w h.1 ..)

/-- Of fields that lie apart, each reads back what was written. -/
theorem State.rd_putAt_of_mem {s : State} (w : Memory.wf s = true) {i : Nat} {l : List (Fld × Nat)}
    (hd : (l.map Prod.fst).Pairwise (fun f g => f.apart g = true)) : ∀ x ∈ l, (s.putAt i l).rd x.1 i = x.1.cut x.2 := by
  induction l generalizing s with
  | nil => exact fun x h => absurd h List.not_mem_nil
  | cons y l ih =>
    obtain ⟨hy, hd⟩ := List.pairwise_cons.1 hd
    intro x h
    rcases List.mem_cons.1 h with rfl | h
    · exact (State.rd_putAt_ne (State.wf_put w ..) (List.all_eq_true.2 hy)).trans (State.rd_put_self w ..)
    · exact ih (State.wf_put w ..) hd x h

/-! ### Lanes -/

/-- No register shows what a lane holds beyond its registers. -/
theorem State.rd_updLane (s : State) (l : Nat) (u : Lane → Lane) (f : Fld) (i j : Nat) : (s.updLane l u).rd f i j = s.rd f i j :=
  rfl

/-- A change of a lane to anything but the state of a lane that is not listed reads back. -/
theorem State.lane_updLane_self {s : State} {l : Nat} {u : Lane → Lane} (h : u (s.lane l) ≠ {}) :
    (s.updLane l u).lane l = u (s.lane l) := by
  show Map.get _ (Map.set _ _ _ (u (s.lane l))) _ = _
  rw [Map.set, if_neg h, Map.get_insert_self]

theorem State.wf_tapRequest {s : State} (w : Memory.wf s = true) (l control : Nat) : Memory.wf (s.tapRequest l control).1 = true :=
  (State.tapRequest_keeps (ps := fun _ => True) trivial (Keeps.refl s)).wf w

/-- A request of the partner for a tap leaves what the lane holds beyond its registers. -/
theorem State.lane_tapRequest (s : State) (l control k : Nat) : (s.tapRequest l control).1.lane k = s.lane k :=
  congrArg (fun m : Map Lane => Map.get ({} : Lane) m k)
    ((State.tapRequest_keeps (ps := (· = .regs 15)) rfl (Keeps.refl s)).same .lanes (by decide))

/-! ### Bring-up -/

/-- The partner's termination is found (R758). -/
theorem Live.exec_laneDetectPoll {s : State} (hl : Live s) {l : Nat} (h : s.laneSt l = 1) (seen : Bool) :
    exec (.laneDetectPoll l seen) s = .next (
      if seen then (((s.put F.SDS_LANE_STAT_PARTNER 1 l).laneSignal l).updLane l
        (fun x => { x with pattern := decide (1000000 < s.time - (s.lane l).elecAt) })).bundleSeen l
      else s.put F.SDS_LANE_STAT_PARTNER 0 l) :=
  State.next_when hl.runs (beq_iff_eq.2 h)

theorem Live.exec_partnerTerminationLost {s : State} (hl : Live s) {l : Nat} (h : s.laneSt l = 2) :
    exec (.partnerTerminationLost l) s = .next
      ((s.putAt l [(F.SDS_LANE_STAT_STATE, 1), (F.SDS_LANE_STAT_PARTNER, 0)]).updLane l
        (fun x => { x with elecAt := s.time, pattern := false })) :=
  State.next_when hl.runs (beq_iff_eq.2 h)

theorem Live.exec_laneAcquired {s : State} (hl : Live s) {l : Nat} (h : s.laneSt l = 3) :
    exec (.laneAcquired l) s = .next (s.put F.SDS_LANE_STAT_STATE (if s.laneTrains l then 4 else 5) l) :=
  State.next_when hl.runs (beq_iff_eq.2 h)

/-- What a lane holds once a training frame has been taken (R760, R761). -/
def State.trained (s : State) (l control status : Nat) (ready : Bool) : State :=
  (s.tapRequest l control).1.updLane l (fun x =>
    { x with result := (s.tapRequest l control).2, own := x.own || ready, partner := x.partner || bit status 2 })

theorem State.wf_trained {s : State} (w : Memory.wf s = true) (l control status : Nat) (ready : Bool) :
    Memory.wf (s.trained l control status ready) = true := State.wf_tapRequest w l control

theorem Live.exec_laneTrainingFrame {s : State} (hl : Live s) {l : Nat} (h : s.laneSt l = 4) (control status : Nat) (ready : Bool) :
    exec (.laneTrainingFrame l control status ready) s = .next (
      if ((s.trained l control status ready).lane l).own ∧ ((s.trained l control status ready).lane l).partner then
        (s.trained l control status ready).putAt l [(F.SDS_LANE_STAT_STATE, 5), (F.SDS_LANE_STAT_FAILS, 0)]
      else s.trained l control status ready) :=
  State.next_when hl.runs (beq_iff_eq.2 h)

/-- Both ends are ready once each has been so in this frame or before. -/
theorem State.lane_trained {s : State} {l control status : Nat} {ready : Bool} (hown : (s.lane l).own = true ∨ ready = true)
    (hpartner : (s.lane l).partner = true ∨ bit status 2 = true) :
    ((s.trained l control status ready).lane l).own = true ∧ ((s.trained l control status ready).lane l).partner = true := by
  have hown' : ((s.lane l).own || ready) = true := Bool.or_eq_true_iff.2 hown
  have hpartner' : ((s.lane l).partner || bit status 2) = true := Bool.or_eq_true_iff.2 hpartner
  have e : (s.trained l control status ready).lane l = { s.lane l with
      result := (s.tapRequest l control).2, own := (s.lane l).own || ready, partner := (s.lane l).partner || bit status 2 } := by
    unfold State.trained
    rw [State.lane_updLane_self, State.lane_tapRequest]
    intro hdefault
    have := congrArg Lane.own hdefault
    rw [State.lane_tapRequest] at this
    exact Bool.noConfusion (hown'.symm.trans this)
  rw [e]
  exact ⟨hown', hpartner'⟩

theorem Live.exec_laneAttemptTimeout {s : State} (hl : Live s) {l : Nat} (h : s.laneSt l = 3 ∨ s.laneSt l = 4) :
    exec (.laneAttemptTimeout l) s = .next (
      if s.laneSt l == 4 && (s.lane l).own then s.laneSignal l else (s.laneSignal l).laneFail l) :=
  (State.next_when hl.runs rfl).trans (congrArg _ (if_pos h))

theorem Live.exec_laneSignalAbsent {s : State} (hl : Live s) {l : Nat} (h : s.laneSt l = 3 ∨ s.laneSt l = 4) :
    exec (.laneSignalAbsent l) s = .next
      ((s.putAt l [(F.SDS_LANE_STAT_STATE, 1), (F.SDS_LANE_STAT_SIGNAL, 0)]).updLane l (fun x => { x with elecAt := s.time })) :=
  State.next_when hl.runs (by simpa using h)

theorem Live.exec_laneSignalLoss {s : State} (hl : Live s) {l : Nat} (h : s.laneSt l = 5) :
    exec (.laneSignalLoss l) s = .next
      ((s.putAt l [(F.SDS_LANE_STAT_STATE, 6), (F.SDS_LANE_STAT_SIGNAL, 0), (F.SDS_LANE_STAT_FROZEN, 1)]).updLane l
        (fun x => { x with idleAt := s.time })) :=
  State.next_when hl.runs (beq_iff_eq.2 h)

/-- The signal returns within 1 ms (R756). -/
theorem Live.exec_laneSignalReturn_of_short {s : State} (hl : Live s) {l : Nat} (h : s.laneSt l = 6)
    (hms : s.time - (s.lane l).idleAt ≤ 1000000) : ∃ frozen, exec (.laneSignalReturn l) s = .next
      (s.putAt l [(F.SDS_LANE_STAT_SIGNAL, 1), (F.SDS_LANE_STAT_STATE, 5), (F.SDS_LANE_STAT_FROZEN, frozen)]) :=
  ⟨_, (State.next_when hl.runs (beq_iff_eq.2 h)).trans (congrArg _ (if_pos hms))⟩

/-- The signal returns later, and the lane adapts again (R756). -/
theorem Live.exec_laneSignalReturn_of_long {s : State} (hl : Live s) {l : Nat} (h : s.laneSt l = 6)
    (hms : ¬ s.time - (s.lane l).idleAt ≤ 1000000) : ∃ n, exec (.laneSignalReturn l) s = .next
      (s.putAt l [(F.SDS_LANE_STAT_SIGNAL, 1), (F.SDS_LANE_STAT_STATE, 7), (F.SDS_LANE_STAT_FROZEN, 0),
        (F.SDS_LANE_READAPTS, n)]) :=
  ⟨_, (State.next_when hl.runs (beq_iff_eq.2 h)).trans (congrArg _ (if_neg hms))⟩

/-- Settles O28: each command's equation, and what its writes leave in the lane's registers. -/
theorem laneBringUp : Obligations.LaneBringUp := by
  intro s hl l
  refine ⟨fun h => hl.exec_laneDetectPoll h true, fun h => ?_, State.next_when hl.runs rfl, fun h => ?_, fun h => ?_, fun h => ?_,
    fun control status ready h hown hpartner => ?_, fun control status ready h => ?_, fun h => ?_, fun h hown => ?_,
    fun h => ?_, fun h => ?_, fun h => ?_, fun h => ?_, fun h => ?_⟩
  · have e := hl.exec_laneDetectPoll h false
    exact ⟨_, e, State.rd_put_self hl.wf .., (State.rd_put_apart hl.wf (by decide) ..).trans h,
      (execLaneDetectPoll_keeps (by decide) (by decide) (by decide) _ e).touches⟩
  · exact State.next_when hl.runs (beq_iff_eq.2 h)
  · have e := hl.exec_partnerTerminationLost h
    have hrd := State.rd_putAt_of_mem hl.wf (i := l) (l := [(F.SDS_LANE_STAT_STATE, 1), (F.SDS_LANE_STAT_PARTNER, 0)]) (by decide)
    exact ⟨_, e, hrd (F.SDS_LANE_STAT_STATE, 1) (by simp), hrd (F.SDS_LANE_STAT_PARTNER, 0) (by simp),
      (execPartnerTerminationLost_keeps (by decide) (by decide) _ e).touches⟩
  · have e := hl.exec_laneAcquired h
    refine ⟨_, e, (State.rd_put_self hl.wf ..).trans (Fld.cut_of_lt ?_), (execLaneAcquired_keeps (by decide) _ e).touches⟩
    split <;> decide
  · have e := (hl.exec_laneTrainingFrame h control status ready).trans (congrArg _ (if_pos (State.lane_trained hown hpartner)))
    have hrd := State.rd_putAt_of_mem (State.wf_trained hl.wf l control status ready) (i := l)
      (l := [(F.SDS_LANE_STAT_STATE, 5), (F.SDS_LANE_STAT_FAILS, 0)]) (by decide)
    exact ⟨_, e, hrd (F.SDS_LANE_STAT_STATE, 5) (by simp), hrd (F.SDS_LANE_STAT_FAILS, 0) (by simp),
      (execLaneTrainingFrame_keeps (by decide) (by decide) _ e).touches⟩
  · intro r t hnot
    refine (hl.exec_laneTrainingFrame h control status ready).trans (congrArg _ (if_neg ?_))
    rintro ⟨hown, hpartner⟩
    rcases hnot with h | h
    · exact Bool.noConfusion (h.symm.trans hown)
    · exact Bool.noConfusion (h.symm.trans hpartner)
  · exact (hl.exec_laneAttemptTimeout (.inl h)).trans (congrArg _ (if_neg (by simp [h])))
  · exact (hl.exec_laneAttemptTimeout (.inr h)).trans (congrArg _ (if_pos (by simp [h, hown])))
  · have e := hl.exec_laneSignalAbsent h
    have hrd := State.rd_putAt_of_mem hl.wf (i := l) (l := [(F.SDS_LANE_STAT_STATE, 1), (F.SDS_LANE_STAT_SIGNAL, 0)]) (by decide)
    exact ⟨_, e, hrd (F.SDS_LANE_STAT_STATE, 1) (by simp), hrd (F.SDS_LANE_STAT_SIGNAL, 0) (by simp),
      State.rd_putAt_ne hl.wf (by decide), (execLaneSignalAbsent_keeps (by decide) (by decide) _ e).touches⟩
  · exact State.next_when hl.runs (beq_iff_eq.2 h)
  · have e := hl.exec_laneSignalLoss h
    have hrd := State.rd_putAt_of_mem hl.wf (i := l) (l := [(F.SDS_LANE_STAT_STATE, 6), (F.SDS_LANE_STAT_SIGNAL, 0),
      (F.SDS_LANE_STAT_FROZEN, 1)]) (by decide)
    exact ⟨_, e, hrd (F.SDS_LANE_STAT_STATE, 6) (by simp), hrd (F.SDS_LANE_STAT_SIGNAL, 0) (by simp),
      hrd (F.SDS_LANE_STAT_FROZEN, 1) (by simp), rfl, (execLaneSignalLoss_keeps (by decide) (by decide) _ e).touches⟩
  · by_cases hms : s.time - (s.lane l).idleAt ≤ 1000000
    · obtain ⟨frozen, e⟩ := hl.exec_laneSignalReturn_of_short h hms
      have hrd := State.rd_putAt_of_mem hl.wf (i := l) (l := [(F.SDS_LANE_STAT_SIGNAL, 1), (F.SDS_LANE_STAT_STATE, 5),
        (F.SDS_LANE_STAT_FROZEN, frozen)]) (by simp only [List.map]; decide)
      refine ⟨_, e, hrd (F.SDS_LANE_STAT_SIGNAL, 1) (by simp), ?_, (execLaneSignalReturn_keeps (by decide) _ e).touches⟩
      rw [if_pos hms]
      exact hrd (F.SDS_LANE_STAT_STATE, 5) (by simp)
    · obtain ⟨n, e⟩ := hl.exec_laneSignalReturn_of_long h hms
      have hrd := State.rd_putAt_of_mem hl.wf (i := l) (l := [(F.SDS_LANE_STAT_SIGNAL, 1), (F.SDS_LANE_STAT_STATE, 7),
        (F.SDS_LANE_STAT_FROZEN, 0), (F.SDS_LANE_READAPTS, n)]) (by simp only [List.map]; decide)
      refine ⟨_, e, hrd (F.SDS_LANE_STAT_SIGNAL, 1) (by simp), ?_, (execLaneSignalReturn_keeps (by decide) _ e).touches⟩
      rw [if_neg hms]
      exact hrd (F.SDS_LANE_STAT_STATE, 7) (by simp)
  · have e : exec (.laneReadaptDone l) s = .next (s.put F.SDS_LANE_STAT_STATE 5 l) := State.next_when hl.runs (beq_iff_eq.2 h)
    exact ⟨_, e, State.rd_put_self hl.wf .., (execLaneReadaptDone_keeps (by decide) _ e).touches⟩

/-! ### Adaptation, retraining, reports and PRBS -/

/-- The writes with which a window begins: what it measured, and whether adaptation is frozen. -/
def windowSeen (w : AdaptWin) (ovf frozen : Nat) : List (Fld × Nat) :=
  [(F.SDS_LANE_EYE_HEIGHT_MV, w.height), (F.SDS_LANE_EYE_WIDTH_MUI, w.width), (F.SDS_PORT_OVF, ovf),
    (F.SDS_LANE_STAT_FROZEN, frozen)]

/-- The writes that adapt the receiver. -/
def windowAdapts (w : AdaptWin) : List (Fld × Nat) :=
  [(F.SDS_LANE_RX_CTLE, w.ctle), (F.SDS_LANE_RX_FLT1, w.flt1), (F.SDS_LANE_RX_FLT2, w.flt2), (F.SDS_LANE_RX_FLT3, w.flt3)]

/-- An unbalanced window freezes adaptation (R755). -/
theorem Live.exec_adaptWindow_of_unbalanced {s : State} (hl : Live s) {l : Nat} {w : AdaptWin}
    (h : s.laneSt l = 3 ∨ s.laneSt l = 4 ∨ s.laneSt l = 5) (hbal : s.balanced w (decide (3400 ≤ (s.lane l).rate)) = false) :
    ∃ ovf, exec (.adaptWindow l w) s = .next ((s.putAt l (windowSeen w ovf 1)).updLane l
      (fun x => { x with frozenAt := some ((s.lane l).frozenAt.getD s.time) })) := by
  refine ⟨min ((s.putAt l [(F.SDS_LANE_EYE_HEIGHT_MV, w.height), (F.SDS_LANE_EYE_WIDTH_MUI, w.width)]).rd F.SDS_PORT_OVF l + w.ovf)
    (2 ^ 32 - 1), (State.next_when hl.runs (by simpa [or_assoc] using h)).trans (congrArg _ ?_)⟩
  simp only [hbal, Bool.not_false, Bool.true_or, if_true, Bool.false_eq_true, if_false, false_and]
  cases (s.lane l).frozenAt <;> rfl

/-- A balanced window of a lane that is not frozen adapts the receiver (R754). -/
theorem Live.exec_adaptWindow_of_balanced {s : State} (hl : Live s) {l : Nat} {w : AdaptWin}
    (h : s.laneSt l = 3 ∨ s.laneSt l = 4 ∨ s.laneSt l = 5) (hbal : s.balanced w (decide (3400 ≤ (s.lane l).rate)) = true)
    (hctl : s.rd F.SDS_LANE_CTL_FREEZE l = 0) (hfrozen : (s.lane l).frozenAt = none) :
    ∃ ovf, exec (.adaptWindow l w) s = .next ((s.putAt l (windowSeen w ovf 0 ++ windowAdapts w)).updLane l
      (fun x => { x with frozenAt := none })) := by
  refine ⟨min ((s.putAt l [(F.SDS_LANE_EYE_HEIGHT_MV, w.height), (F.SDS_LANE_EYE_WIDTH_MUI, w.width)]).rd F.SDS_PORT_OVF l + w.ovf)
    (2 ^ 32 - 1), (State.next_when hl.runs (by simpa [or_assoc] using h)).trans (congrArg _ ?_)⟩
  simp only [hbal, State.on_of_rd_zero hctl, hfrozen, Bool.not_true, Bool.or_self, Bool.false_eq_true, if_false, if_true]
  rfl

/-- The fields that a window writes, those of the receiver at the end. -/
def windowFlds : List Fld :=
  [F.SDS_LANE_EYE_HEIGHT_MV, F.SDS_LANE_EYE_WIDTH_MUI, F.SDS_PORT_OVF, F.SDS_LANE_STAT_FROZEN, F.SDS_LANE_RX_CTLE,
    F.SDS_LANE_RX_FLT1, F.SDS_LANE_RX_FLT2, F.SDS_LANE_RX_FLT3]

theorem windowSeen_fst (w : AdaptWin) (ovf frozen : Nat) : (windowSeen w ovf frozen).map Prod.fst = windowFlds.take 4 := rfl

theorem windowAdapts_fst (w : AdaptWin) (ovf frozen : Nat) :
    (windowSeen w ovf frozen ++ windowAdapts w).map Prod.fst = windowFlds := rfl

theorem Live.exec_quadRefclkChange {s : State} (hl : Live s) {q : Nat} (hq : q < 64) (present : Bool) :
    exec (.quadRefclkChange q present) s = .next ((List.range 4).foldl
      (fun s i => if present then s.laneOn (4 * q + i) else s.laneOff (4 * q + i)) (s.flag F.SDS_QUAD_STAT_REF_OK present q)) :=
  State.next_when hl.runs (decide_eq_true hq)

/-- Signal on four lanes makes a probe due (R763). -/
theorem Live.exec_bundleLaneSignal {s : State} (hl : Live s) {b m : Nat} (hb : b < 2) (hen : bit (s.rd F.LVE_CTL_BUNDLE_EN) b = true)
    (hdown : s.bst b = 0) (hm : 4 ≤ popcount (m % 65536) 16) : exec (.bundleLaneSignal b m) s = .next (
      ((List.range 16).foldl (fun s i => s.flag F.SDS_LANE_STAT_SIGNAL (bit m i) ((if b = 0 then 64 else 128) + i)) s).updBnd b
        (fun x => { x with probeDue := true })) :=
  (State.next_when hl.runs (by simp [hb, hen, hdown])).trans (congrArg _ (if_pos hm))

/-- A change of a bundle to anything but the state of a bundle that is not listed reads back. -/
theorem State.bnd_updBnd_self {s : State} {b : Nat} {u : Bnd → Bnd} (h : u (s.bnd b) ≠ {}) : (s.updBnd b u).bnd b = u (s.bnd b) := by
  show Map.get _ (Map.set _ _ _ (u (s.bnd b))) _ = _
  rw [Map.set, if_neg h, Map.get_insert_self]

theorem State.rd_bump_apart {s : State} (w : Memory.wf s = true) {f g : Fld} (h : g.apart f = true) (n i : Nat) :
    (s.bump f n i).rd g i = s.rd g i := State.rd_put_apart w h ..

/-- A report of the PCS: corrected, uncorrected, symbols and missing blocks are counted. -/
def State.pcsCounted (s : State) (q c u y n : Nat) : State :=
  (((s.bump F.SDS_FEC_CORR c q).bump F.SDS_FEC_UNCORR u q).bump F.SDS_FEC_SYM y q).bump F.SDS_TX_UNDERRUN n q

theorem State.wf_pcsCounted {s : State} (w : Memory.wf s = true) (q c u y n : Nat) : Memory.wf (s.pcsCounted q c u y n) = true :=
  State.wf_bump (State.wf_bump (State.wf_bump (State.wf_bump w ..) ..) ..) ..

theorem State.rd_pcsCounted {s : State} (w : Memory.wf s = true) (q c u y n : Nat) :
    (s.pcsCounted q c u y n).rd F.SDS_FEC_CORR q = min (s.rd F.SDS_FEC_CORR q + c) (2 ^ 32 - 1) ∧
    (s.pcsCounted q c u y n).rd F.SDS_FEC_UNCORR q = min (s.rd F.SDS_FEC_UNCORR q + u) (2 ^ 32 - 1) ∧
    (s.pcsCounted q c u y n).rd F.SDS_FEC_SYM q = min (s.rd F.SDS_FEC_SYM q + y) (2 ^ 32 - 1) ∧
    (s.pcsCounted q c u y n).rd F.SDS_TX_UNDERRUN q = min (s.rd F.SDS_TX_UNDERRUN q + n) (2 ^ 32 - 1) := by
  have w1 := State.wf_bump w F.SDS_FEC_CORR c q 0
  have w2 := State.wf_bump w1 F.SDS_FEC_UNCORR u q 0
  have w3 := State.wf_bump w2 F.SDS_FEC_SYM y q 0
  unfold State.pcsCounted
  refine ⟨?_, ?_, ?_, ?_⟩
  · rw [State.rd_bump_apart w3 (by decide), State.rd_bump_apart w2 (by decide), State.rd_bump_apart w1 (by decide),
      State.rd_bump_self w]
    rfl
  · rw [State.rd_bump_apart w3 (by decide), State.rd_bump_apart w2 (by decide), State.rd_bump_self w1,
      State.rd_bump_apart w (by decide)]
    rfl
  · rw [State.rd_bump_apart w3 (by decide), State.rd_bump_self w2, State.rd_bump_apart w1 (by decide),
      State.rd_bump_apart w (by decide)]
    rfl
  · rw [State.rd_bump_self w3, State.rd_bump_apart w2 (by decide), State.rd_bump_apart w1 (by decide),
      State.rd_bump_apart w (by decide)]
    rfl

/-- The part after a report of the monitor of a quad. -/
def State.pcsReported (s : State) (q : Nat) (rises : Bool) (c u y n : Nat) : State :=
  (s.pcsCounted q c u y n).flag F.SDS_QUAD_STAT_HI_BER rises q

theorem Live.exec_hiBer {s : State} (hl : Live s) {q : Nat} (hq : q < 64) (rises : Bool) (c u y n : Nat) :
    exec (.hiBer q rises c u y n) s = .next (if rises ∧ ¬ s.on F.SDS_QUAD_STAT_HI_BER q
      then (s.pcsReported q rises c u y n).post E.SDS_HI_BER q else s.pcsReported q rises c u y n) :=
  State.next_when hl.runs (decide_eq_true hq)

/-- The counters of a quad lie beyond the words that show the states of the quads. -/
theorem pcsCounter_key_ne (q : Nat) :
    ∀ f ∈ [F.SDS_FEC_CORR, F.SDS_FEC_UNCORR, F.SDS_FEC_SYM, F.SDS_TX_UNDERRUN], f.key q 0 ≠ F.SDS_QUAD_STAT_HI_BER.key q 0 := by
  simp only [List.forall_mem_cons, Fld.key, Fld.blk, F.SDS_FEC_CORR, F.SDS_FEC_UNCORR, F.SDS_FEC_SYM, F.SDS_TX_UNDERRUN,
    F.SDS_QUAD_STAT_HI_BER]
  refine ⟨by omega, by omega, by omega, by omega, fun _ h => absurd h List.not_mem_nil⟩

/-- A report reads back, with the event that its rise posts or without. -/
theorem State.rd_pcsReported {s t : State} (w : Memory.wf s = true) {q : Nat} {rises : Bool} {c u y n : Nat}
    (ht : t = (s.pcsReported q rises c u y n).post E.SDS_HI_BER q ∨ t = s.pcsReported q rises c u y n) :
    t.rd F.SDS_QUAD_STAT_HI_BER q = b2n rises ∧
    t.rd F.SDS_FEC_CORR q = min (s.rd F.SDS_FEC_CORR q + c) (2 ^ 32 - 1) ∧
    t.rd F.SDS_FEC_UNCORR q = min (s.rd F.SDS_FEC_UNCORR q + u) (2 ^ 32 - 1) ∧
    t.rd F.SDS_FEC_SYM q = min (s.rd F.SDS_FEC_SYM q + y) (2 ^ 32 - 1) ∧
    t.rd F.SDS_TX_UNDERRUN q = min (s.rd F.SDS_TX_UNDERRUN q + n) (2 ^ 32 - 1) := by
  have wc := State.wf_pcsCounted w q c u y n
  have hpost {f : Fld} (hf : f.blk ≠ 17) : t.rd f q = (s.pcsReported q rises c u y n).rd f q := by
    rcases ht with rfl | rfl
    · exact State.rd_post (State.wf_put wc ..) (h := hf) ..
    · rfl
  have hcounter {f : Fld} (hf : f ∈ [F.SDS_FEC_CORR, F.SDS_FEC_UNCORR, F.SDS_FEC_SYM, F.SDS_TX_UNDERRUN]) (hb : f.blk ≠ 17) :
      t.rd f q = (s.pcsCounted q c u y n).rd f q :=
    (hpost hb).trans (State.rd_put_ne wc (h := pcsCounter_key_ne q f hf) ..)
  obtain ⟨hcorr, huncorr, hsym, hunder⟩ := State.rd_pcsCounted w q c u y n
  exact ⟨(hpost (by decide)).trans ((State.rd_put_self wc ..).trans (Fld.cut_of_lt (b2n_lt_two _))),
    (hcounter (by simp) (by decide)).trans hcorr, (hcounter (by simp) (by decide)).trans huncorr,
    (hcounter (by simp) (by decide)).trans hsym, (hcounter (by simp) (by decide)).trans hunder⟩

/-- The checker of a TEST lane reports (R776). -/
theorem Live.exec_prbsCheckerLock {s : State} (hl : Live s) {l : Nat} (hgen : laneGeneral l = true)
    (hmode : s.rd F.SDS_LANE_CTL_MODE l = 2) (hst : s.laneSt l = 5) (hchk : s.rd F.SDS_PRBS_CTL_CHK_EN l = 1) (lock : Bool)
    (errs units : Nat) : exec (.prbsCheckerLock l lock errs units) s = .next (
      (if s.rd F.SDS_PRBS_STAT_LOCK l = 0 then s else (s.bump F.SDS_PRBS_ERR errs l).bump F.SDS_PRBS_BITS units l).flag
        F.SDS_PRBS_STAT_LOCK lock l) := by
  refine (State.next_when hl.runs (by simp [hgen, hmode, hst, State.on_of_rd_one hchk])).trans (congrArg _ ?_)
  by_cases h : s.rd F.SDS_PRBS_STAT_LOCK l = 0 <;> simp [State.on, h]

/-- Settles O29: each command's equation, and what its writes leave in the lane's or the quad's registers. -/
theorem laneServices : Obligations.LaneServices := by
  intro s hl
  refine ⟨fun l w h hbal => ?_, fun l w h hbal hctl hfrozen => ?_, fun l hlt h0 h8 => ?_, fun q hq => ?_, fun q hq => ?_,
    fun b m hb hen hdown hm => ?_, fun q m am hq => ?_, fun q c u y n hq => ?_, fun q c u y n hq => ?_, fun l hruns hmode => ?_,
    fun l hruns hmode => ?_, fun l lock errs units hgen hmode hst hchk => ?_, fun l v hgen htrained hshut hok => ?_,
    fun l v hgen htrained hshut hok => ?_⟩
  · obtain ⟨ovf, e⟩ := hl.exec_adaptWindow_of_unbalanced h hbal
    have hrd := State.rd_putAt_of_mem hl.wf (i := l) (l := windowSeen w ovf 1)
      (by rw [windowSeen_fst]; decide)
    exact ⟨_, e, hrd (F.SDS_LANE_STAT_FROZEN, 1) (by simp [windowSeen]),
      State.rd_putAt_ne hl.wf (by rw [windowSeen_fst]; decide), State.rd_putAt_ne hl.wf (by rw [windowSeen_fst]; decide), rfl,
      (execAdaptWindow_keeps (by decide) (by decide) _ e).touches⟩
  · obtain ⟨ovf, e⟩ := hl.exec_adaptWindow_of_balanced h hbal hctl hfrozen
    have hrd := State.rd_putAt_of_mem hl.wf (i := l) (l := windowSeen w ovf 0 ++ windowAdapts w)
      (by rw [windowAdapts_fst]; decide)
    exact ⟨_, e, hrd (F.SDS_LANE_STAT_FROZEN, 0) (by simp [windowSeen]),
      State.rd_putAt_ne hl.wf (by rw [windowAdapts_fst]; decide),
      hrd (F.SDS_LANE_RX_CTLE, w.ctle) (by simp [windowAdapts]), hrd (F.SDS_LANE_RX_FLT1, w.flt1) (by simp [windowAdapts]),
      hrd (F.SDS_LANE_RX_FLT2, w.flt2) (by simp [windowAdapts]), hrd (F.SDS_LANE_RX_FLT3, w.flt3) (by simp [windowAdapts]),
      hrd (F.SDS_LANE_EYE_HEIGHT_MV, w.height) (by simp [windowSeen]), hrd (F.SDS_LANE_EYE_WIDTH_MUI, w.width) (by simp [windowSeen]),
      (execAdaptWindow_keeps (by decide) (by decide) _ e).touches⟩
  · exact (State.next_when hl.runs (decide_eq_true hlt)).trans (congrArg _ (if_neg (not_or.2 ⟨h0, h8⟩)))
  · exact hl.exec_quadRefclkChange hq false
  · exact hl.exec_quadRefclkChange hq true
  · have e := hl.exec_bundleLaneSignal hb hen hdown hm
    have hdue := fun t : State => State.bnd_updBnd_self (s := t) (b := b) (u := fun x => { x with probeDue := true })
      (fun h => Bool.noConfusion (congrArg Bnd.probeDue h))
    exact ⟨_, e, congrArg Bnd.probeDue (hdue _), (execBundleLaneSignal_keeps (by decide) (by decide) _ e).touches⟩
  · have e : exec (.blockLock q m am) s = .next _ := State.next_when hl.runs (decide_eq_true hq)
    exact ⟨_, e, (State.rd_put_self (State.wf_put hl.wf ..) ..).trans (Fld.cut_of_lt (b2n_lt_two _)),
      (execBlockLock_keeps (by decide) _ e).touches⟩
  · have e := hl.exec_hiBer hq true c u y n
    obtain ⟨hber, hcorr, huncorr, -, -⟩ := State.rd_pcsReported (rises := true) hl.wf
      ((Decidable.em (true = true ∧ ¬ s.on F.SDS_QUAD_STAT_HI_BER q = true)).imp (fun h => if_pos h) (fun h => if_neg h))
    refine ⟨_, e, hber, hcorr, huncorr, fun hwas => ?_,
      (execHiBer_keeps (by decide) (by decide) (by decide) (by decide) (by decide) _ e).touches⟩
    rw [if_neg (by simp [State.on, hwas])]
    rfl
  · have e : exec (.hiBer q false c u y n) s = .next (s.pcsReported q false c u y n) :=
      (hl.exec_hiBer hq false c u y n).trans (congrArg _ (if_neg (by simp)))
    obtain ⟨hber, -, -, hsym, hunder⟩ := State.rd_pcsReported hl.wf (.inr rfl)
    exact ⟨_, e, hber, hsym, hunder, rfl,
      (execHiBer_keeps (by decide) (by decide) (by decide) (by decide) (by decide) _ e).touches⟩
  · exact State.next_when hl.runs (by simp [hruns, hmode])
  · exact State.next_when hl.runs (by simp [hruns, hmode])
  · have e := hl.exec_prbsCheckerLock hgen hmode hst hchk lock errs units
    refine ⟨_, e, ?_, ?_, (execPrbsCheckerLock_keeps (by decide) _ e).touches⟩
    · split
      · exact (State.rd_put_self hl.wf ..).trans (Fld.cut_of_lt (b2n_lt_two _))
      · exact (State.rd_put_self (State.wf_bump (State.wf_bump hl.wf ..) ..) ..).trans (Fld.cut_of_lt (b2n_lt_two _))
    · split
      · exact State.rd_put_apart hl.wf (by decide) ..
      · have w1 := State.wf_bump hl.wf F.SDS_PRBS_ERR errs l 0
        refine (State.rd_put_apart (State.wf_bump w1 ..) (by decide) ..).trans ?_
        exact (State.rd_bump_apart w1 (by decide) ..).trans (State.rd_bump_self hl.wf ..)
  · exact (State.next_when hl.runs (by simp [hgen, htrained, hshut])).trans (congrArg _ (if_pos hok))
  · exact (State.next_when hl.runs (by simp [hgen, htrained, hshut])).trans (congrArg _ (if_neg (by simp [hok])))

end Sys2Proof.Machine

/-! PROOFS. Polders and the part's power states: power-downs, resets and power-ups, crossings, changes of state and the epoch
ratchet (R725 to R741). -/

namespace Sys2Proof.Machine
open Sys2Proof

/-! ### Commands of a polder -/

/-- A power-down (1) or a reset (3) of a polder that is ON closes it, where Table PWR-1 allows it (R725, R728). -/
theorem State.polCmd_of_allowed {s : State} {p cmd : Nat} (h1 : 1 ≤ p) (h80 : p ≤ 80) (hon : s.polSt p = 0) (hcmd : cmd ≠ 2)
    (hok : s.polAllowed p = true) (req : Req) : s.polCmd req p cmd = s.polClose p (cmd == 3) := by
  have hp : ¬ (p = 0 ∨ 81 ≤ p) := by omega
  simp [State.polCmd, hp, hcmd, hon, hok]

/-- Else it is refused (R725; the second event is log entry 161). -/
theorem State.polCmd_of_refused {s : State} {p cmd : Nat} (h1 : 1 ≤ p) (h80 : p ≤ 80) (hon : s.polSt p = 0) (hcmd : cmd ≠ 2)
    (hno : s.polAllowed p = false) (req : Req) :
    s.polCmd req p cmd = (s.polRefuse p cmd).refuseWrite req (F.PWR_POL_CMD.off p 0) := by
  have hp : ¬ (p = 0 ∨ 81 ≤ p) := by omega
  simp [State.polCmd, hp, hcmd, hon, hno]

theorem State.polCmd_up {s : State} {p : Nat} (h1 : 1 ≤ p) (h80 : p ≤ 80) (req : Req) : s.polCmd req p 2 = s.polUp p := by
  have hp : ¬ (p = 0 ∨ 81 ≤ p) := by omega
  simp [State.polCmd, hp]

/-! ### Ends of a polder's phases -/

/-- Only the polders of lanes have lanes. -/
theorem polLanes_of_ge {p : Nat} (h : 65 ≤ p) : polLanes p = [] := if_neg (by omega)

/-- A polder that has been reset, before its lanes start: in the state it had lost, and ON. -/
def State.polReset (s : State) (p : Nat) : State := (s.polLose p false).put F.PWR_POL_STAT_STATE 0 p

theorem Live.exec_polderResetDone {s : State} (hl : Live s) {p : Nat} (h : s.polSt p = 6) : exec (.polderResetDone p) s = .next (
    ((polLanes p).foldl State.laneOn (
      let t := if p = 76 then (s.polReset p).takeEpoch 7 else s.polReset p
      if 69 ≤ p ∧ p ≤ 72 then t.feed else t)).updPol p (fun _ => {})) :=
  State.next_when hl.runs (beq_iff_eq.2 h)

/-! ### Crossings and the epoch ratchet -/

theorem contains_filter_ne (l : List (Nat × Nat)) (x y : Nat × Nat) :
    (l.filter (· ≠ x)).contains y = (l.contains y && decide (y ≠ x)) := by
  rw [Bool.eq_iff_iff]
  simp [List.mem_filter]

/-- A ratchet by one is taken (R738). -/
def State.ratcheted (s : State) (v : Nat) : State :=
  { ((s.put F.GLB_EPOCH_NEXT v).put F.GLB_EPOCH_SETTLED 0).bump F.GLB_RATCHETS with
    pwr.left := (List.range 14).filter (fun u => !(unitPolders u).any
      (fun p => (((s.put F.GLB_EPOCH_NEXT v).put F.GLB_EPOCH_SETTLED 0).bump F.GLB_RATCHETS).polSt p == 4))
    pwr.ratchetAt := s.time }

theorem State.ratchet_of_next {s : State} {v : Nat} (hset : s.rd F.GLB_EPOCH_SETTLED = 1)
    (hv : v = (s.rd F.GLB_EPOCH_NEXT + 1) % 2 ^ 32) (req : Req) : s.ratchet req v = s.ratcheted v := by
  refine if_neg ?_
  rw [State.on_of_rd_one hset]
  simp [hv]

theorem State.ratchet_of_refused {s : State} {v : Nat}
    (h : s.rd F.GLB_EPOCH_SETTLED = 0 ∨ v ≠ (s.rd F.GLB_EPOCH_NEXT + 1) % 2 ^ 32) (req : Req) :
    s.ratchet req v = s.refuseWrite req (F.GLB_EPOCH_NEXT.off 0 0) :=
  if_pos (h.imp_left fun h0 => by simp [State.on_of_rd_zero h0])

theorem State.rd_ratcheted {s : State} (w : Memory.wf s = true) {v : Nat} (hv : v < 2 ^ 32) :
    (s.ratcheted v).rd F.GLB_EPOCH_NEXT = v ∧ (s.ratcheted v).rd F.GLB_EPOCH_SETTLED = 0 := by
  have w1 := State.wf_put w F.GLB_EPOCH_NEXT v 0 0
  have w2 := State.wf_put w1 F.GLB_EPOCH_SETTLED 0 0 0
  constructor
  · refine (State.rd_bump_ne w2 (h := by decide) ..).trans ((State.rd_put_ne w1 (h := by decide) ..).trans ?_)
    exact (State.rd_put_self w ..).trans (Fld.cut_of_lt hv)
  · exact (State.rd_bump_ne w2 (h := by decide) ..).trans (State.rd_put_self w1 ..)

theorem State.ratcheted_touches (s : State) (v : Nat) : Touches [.regs 0, .pwr] s (s.ratcheted v) := by
  have hput : Keeps (· ∈ [Part.regs 0, .pwr]) s (((s.put F.GLB_EPOCH_NEXT v).put F.GLB_EPOCH_SETTLED 0).bump F.GLB_RATCHETS) :=
    State.bump_keeps (by decide) (State.put_keeps (by decide) (State.put_keeps (by decide) (Keeps.refl s)))
  exact (Keeps.lit rfl rfl hput (h_pwr := .inr (by decide))).touches

/-- A permitted command of the part's power state that no rule refuses (R731). -/
theorem State.stateCmd_of_free {s : State} {t : Nat} (ht : t < 3) (hidle : s.rd F.PWR_STAT_CHANGING = 0)
    (hfree : t = 0 ∨ (s.ownsGroup = false ∧ s.bst 0 = 0 ∧ s.bst 1 = 0 ∧ s.lve.pfLow = false)) (req : Req) :
    s.stateCmd req t = s.toState t := by
  have h3 : t ≠ 3 := by omega
  rcases hfree with rfl | ⟨hown, hb0, hb1, hpf⟩
  · simp [State.stateCmd, State.on_of_rd_zero hidle]
  · simp [State.stateCmd, h3, State.on_of_rd_zero hidle, hown, hb0, hb1, hpf]

/-- Settles O19: each command's equation under its guard, and what a ratchet and a reopened crossing leave. -/
theorem polderAndStateSteps : Obligations.PolderAndStateSteps := by
  intro s hl
  refine ⟨fun req p hw h1 h80 hon hok => ⟨?_, ?_⟩, fun req p hw h1 h80 hon hno => ?_, fun req p hw h1 h80 => ?_, fun p h => ?_,
    fun p h hin heng => ?_, fun p h => ?_, fun p h => ?_, fun p h => ?_, fun p h h76 hbank => ?_, fun h => ?_, fun p hbank h => ?_,
    fun x i hx => ?_, fun req hw hidle => ⟨?_, fun hown hb0 hb1 hpf => ⟨?_, ?_⟩⟩, fun src hsrc hmask hps hidle => ?_,
    fun req v hw hset hv => ?_, fun req v hw hno => ?_⟩
  · exact hl.next_byReq hw (State.polCmd_of_allowed h1 h80 hon (by decide) hok req)
  · exact hl.next_byReq hw (State.polCmd_of_allowed h1 h80 hon (by decide) hok req)
  · exact hl.next_byReq hw (State.polCmd_of_refused h1 h80 hon (by decide) hno req)
  · exact hl.next_byReq hw (State.polCmd_up h1 h80 req)
  · have e : exec (.polderCloseTimeout p) s = .next (s.put F.PWR_POL_STAT_STATE 2 p) := State.next_when hl.runs (beq_iff_eq.2 h)
    exact ⟨_, e, State.rd_put_self hl.wf .., (execPolderCloseTimeout_keeps (by decide) _ e).touches⟩
  · exact State.next_when hl.runs (by simp [h, hin, heng])
  · exact State.next_when hl.runs (beq_iff_eq.2 h)
  · exact State.next_when hl.runs (beq_iff_eq.2 h)
  · exact State.next_when hl.runs (beq_iff_eq.2 h)
  · refine (hl.exec_polderResetDone h).trans ?_
    rw [if_neg h76, if_neg hbank]
    rfl
  · exact hl.exec_polderResetDone h
  · refine (hl.exec_polderResetDone h).trans ?_
    rw [if_neg (show ¬ p = 76 by omega), if_pos hbank, polLanes_of_ge (by omega)]
    rfl
  · have e : exec (.crossingReopen x i) s = .next { s with pwr.fences := s.pwr.fences.filter (· ≠ (x, i)) } :=
      State.next_when hl.runs (by simp [hx])
    refine ⟨_, e, ?_, fun y hy => ?_, (execCrossingReopen_keeps (by decide) _ e).touches⟩
    · exact (contains_filter_ne ..).trans (by simp)
    · exact (contains_filter_ne ..).trans (by simp [hy])
  · exact hl.next_byReq hw (State.stateCmd_of_free (by decide) hidle (.inl rfl) req)
  · exact hl.next_byReq hw (State.stateCmd_of_free (by decide) hidle (.inr ⟨hown, hb0, hb1, hpf⟩) req)
  · exact hl.next_byReq hw (State.stateCmd_of_free (by decide) hidle (.inr ⟨hown, hb0, hb1, hpf⟩) req)
  · exact State.next_when hl.runs (by simp [hsrc, hmask, hps, State.on_of_rd_zero hidle])
  · have e : exec (.epochRatchet req v) s = .next (s.ratcheted v) := hl.next_byReq hw (State.ratchet_of_next hset hv req)
    obtain ⟨hnext, hsettled⟩ := State.rd_ratcheted hl.wf (v := v) (hv ▸ Nat.mod_lt _ (by decide))
    exact ⟨_, e, hnext, hsettled, rfl, s.ratcheted_touches v⟩
  · exact hl.next_byReq hw (State.ratchet_of_refused hno req)

end Sys2Proof.Machine

/-! PROOFS. The Skidway: requests, answers, timers, closed ports, fences, requests at their target NI, and the broadcast of an epoch
(R593 to R617, R716, R717, R734 to R740). -/

namespace Sys2Proof.Machine
open Sys2Proof

/-! ### Requests and their answers -/

/-- The answer of a request reaches its requester once its output port grants it (R596, R605, R607). -/
theorem Live.exec_skidwayCompletion {s : State} (hl : Live s) {k : Nat} {p : Pkt} {st data : Nat} (hk : s.pkt k = some p)
    (hans : p.answer = some (st, data)) (hpark : p.parked = none) (hlost : p.lost = false) (hlate : p.late = false)
    (hgrant : s.granted p = true) : exec (.skidwayCompletion k) s = .next (
      let t := ((s.grant p).dropPkt k).raise F.NOC_RTT_NS_MAX (s.time - p.sentAt)
      (if st = 0x10 then t.routeClosed p.req.src p.dst else t).attemptEnd k p st data) := by
  refine (State.next_when hl.runs rfl).trans ?_
  simp [hk, hans, hpark, hlost, hlate, hgrant]

/-- The requester's timer ends an attempt with TARGET_DOWN (R609). -/
theorem Live.exec_requestTimeout {s : State} (hl : Live s) {k : Nat} {p : Pkt} (hk : s.pkt k = some p) (hlate : p.late = false)
    (hback : p.backoff = false) (hlost : p.lost = false) :
    exec (.requestTimeout k) s = .next (((s.bump F.NOC_TMO).setPkt k { p with late := true }).attemptEnd k p 0x0A 0) := by
  refine (State.next_when hl.runs rfl).trans ?_
  simp [hk, hlate, hback, hlost]

/-- The target's timer answers with TARGET_DOWN and counts (R611, R612). -/
theorem Live.exec_targetTimeout {s : State} (hl : Live s) {k : Nat} {p : Pkt} (hk : s.pkt k = some p) (hunit : p.atUnit = true)
    (hreq : s.fab.treq.contains k = false) : exec (.targetTimeout k) s =
      .next (((s.bump F.NOC_TMO).answer k 0x0A 0).tmoCount p.dst (Map.get 0 s.noc.tmos p.dst + 1)) := by
  refine (State.next_when hl.runs rfl).trans ?_
  simp only [hk, hunit, hreq, not_true_eq_false, Bool.false_eq_true, if_false]

/-! ### Closed ports and fences -/

/-- A request that meets a closed port is absorbed there (R606). -/
theorem Live.exec_routerAbsorb {s : State} (hl : Live s) {k r q : Nat} {p : Pkt} (hk : s.pkt k = some p)
    (hclosed : s.noc.closed.contains (32 * r + q) = true) (hpath : (s.pathOf p).contains (r, q) = true) (hmove : p.moving = true)
    (hans : p.answer = none) : exec (.routerAbsorb k r q false) s = .next
      (((s.bump F.NOC_ABSORBED).absorbed k r p).post E.NOC_ROUTE_CLOSED r (p.req.src + 2 ^ 16 * p.dst)) := by
  refine (State.next_when hl.runs rfl).trans ?_
  simp only [hk, hclosed, hpath, hmove, hans, not_true_eq_false, Option.isSome_none, ne_eq, or_self, Bool.false_eq_true, if_false]

/-- What was written as a request is the request at its key. -/
theorem State.pkt_setPkt_self (s : State) (k : Nat) (p : Pkt) : (s.setPkt k p).pkt k = some p :=
  Map.get_insert_self s.noc.pkts k (some p)

/-- A router answers ROUTE_CLOSED to the requester of what it absorbed (R606). -/
theorem State.pkt_absorbed (s : State) (k : Nat) (p : Pkt) (r : Nat) :
    ((s.absorbed k r p).pkt k).map (fun t => (t.answer, t.retFrom, t.req, t.dst)) = some (some (0x10, 0), some r, p.req, p.dst) :=
  congrArg (Option.map fun t : Pkt => (t.answer, t.retFrom, t.req, t.dst)) (State.pkt_setPkt_self ..)

theorem Live.exec_nocRtrClose {s : State} (hl : Live s) (v : Nat) : exec (.nocRtrClose v) s = .next (s.rtrClose v) :=
  State.next_when hl.runs rfl

/-- The ports of the router shown are closed as the mask says (R606). -/
theorem State.closed_rtrClose (s : State) (v p : Nat) (hp : p < 31) :
    (s.rtrClose v).noc.closed.contains (32 * s.rd F.NOC_RTR_SEL + p) = bit v p := by
  have hdiv : (32 * s.rd F.NOC_RTR_SEL + p) / 32 = s.rd F.NOC_RTR_SEL := by omega
  rw [Bool.eq_iff_iff]
  simp only [State.rtrClose, List.contains_iff_mem, List.mem_append, List.mem_filter, List.mem_map, List.mem_range,
    decide_eq_true_eq, hdiv]
  constructor
  · rintro (⟨-, h⟩ | ⟨q, ⟨-, hq⟩, e⟩)
    · exact absurd rfl h
    · rwa [show q = p by omega] at hq
  · exact fun h => .inr ⟨p, ⟨hp, h⟩, rfl⟩

/-- The ports of the other routers stay as they are (R606). -/
theorem State.closed_rtrClose_other (s : State) (v k : Nat) (hk : k / 32 ≠ s.rd F.NOC_RTR_SEL) :
    (s.rtrClose v).noc.closed.contains k = s.noc.closed.contains k := by
  rw [Bool.eq_iff_iff]
  simp only [State.rtrClose, List.contains_iff_mem, List.mem_append, List.mem_filter, List.mem_map, List.mem_range,
    decide_eq_true_eq]
  constructor
  · rintro (⟨h, -⟩ | ⟨q, ⟨hq, -⟩, rfl⟩)
    · exact h
    · omega
  · exact fun h => .inl ⟨h, hk⟩

/-- The fence of an NI opens (R614); PWR_XING_STAT follows. -/
theorem Live.exec_fenceOpen {s : State} (hl : Live s) {n : Nat} (h : s.rd F.NOC_NI_STAT_FENCED n = 1) :
    exec (.fenceOpen n) s = .next ((s.put F.NOC_NI_STAT_FENCED 0 n).put F.PWR_XING_STAT
      (setBits ((s.put F.NOC_NI_STAT_FENCED 0 n).rd F.PWR_XING_STAT) 0 1
        (b2n (allNis.any (fun m => (s.put F.NOC_NI_STAT_FENCED 0 n).on F.NOC_NI_STAT_FENCED m))))) :=
  State.next_when hl.runs (State.on_of_rd_one h)

/-- Settles O15: each command's equation; the closed ports and the fence by what is written. -/
theorem skidwaySteps : Obligations.SkidwaySteps := by
  intro s hl
  refine ⟨fun who q hq => ?_, fun k p st data hk hans hpark hlost hlate hgrant hst => ?_,
    fun k p data hk hans hpark hlost hlate hgrant => ?_, fun k p => hl.exec_requestTimeout, fun k p => hl.exec_targetTimeout,
    fun n h => ?_, fun k p r q => hl.exec_routerAbsorb, s.pkt_absorbed, fun req v hw => hl.next_byReq hw rfl,
    fun req v hw => hl.next_byReq hw rfl, fun v => ?_, fun n hn h => ?_⟩
  · exact State.next_when hl.runs (by simp only [Bool.not_eq_true', Bool.and_eq_false_iff, decide_eq_false_iff_not]; omega)
  · refine (hl.exec_skidwayCompletion hk hans hpark hlost hlate hgrant).trans ?_
    simp only [if_neg hst]
  · exact hl.exec_skidwayCompletion hk hans hpark hlost hlate hgrant
  · exact State.next_when hl.runs (by rw [State.on_of_rd_one h]; rfl)
  · have e := hl.exec_nocRtrClose v
    exact ⟨_, e, s.closed_rtrClose v, s.closed_rtrClose_other v, (execNocRtrClose_keeps (by decide) _ e).touches⟩
  · have e := hl.exec_fenceOpen h
    have hfence : (s.put F.NOC_NI_STAT_FENCED 0 n).rd F.NOC_NI_STAT_FENCED n = 0 := State.rd_put_self hl.wf ..
    refine ⟨_, e, ?_, (execFenceOpen_keeps (by decide) (by decide) _ e).touches⟩
    have hkey := Fld.key_ne_of_blk (f := F.PWR_XING_STAT) (g := F.NOC_NI_STAT_FENCED) (by decide) 0 0 n 0
    exact (State.rd_put_ne (State.wf_put hl.wf ..) (h := hkey) ..).trans hfence

/-! ### Requests at their target NI -/

/-- Granting a packet its port changes no register. -/
theorem State.rd_grant (s : State) (p : Pkt) (f : Fld) (i j : Nat) : (s.grant p).rd f i j = s.rd f i j := by
  unfold State.grant
  split <;> rfl

/-- A request that its NI does not hold back waits for no gate, and no completion of it is under way. -/
structure State.Comes (s : State) (k : Nat) (p : Pkt) : Prop where
  gate : s.noc.stuck.find? (fun x => x.1 == k) = none
  pkt : s.pkt k = some p
  parked : p.parked = none
  lost : p.lost = false
  backoff : p.backoff = false
  answer : p.answer = none

/-- A request in transit arrives once its output port grants it (R605). -/
theorem Live.exec_skidwayRequestArrive {s : State} (hl : Live s) {k : Nat} {p : Pkt} (h : s.Comes k p) (hunit : p.atUnit = false)
    (hheld : p.held = false) (ms : List Meet) :
    exec (.skidwayRequestArrive k ms) s = .next (if s.granted p then (s.grant p).arrive k p ms else s) := by
  refine (State.next_when hl.runs rfl).trans ?_
  simp [h.gate, h.pkt, h.parked, h.lost, h.backoff, h.answer, hunit, hheld]

/-- A request that waits at its NI is taken up again. -/
theorem Live.exec_skidwayRequestArrive_of_held {s : State} (hl : Live s) {k : Nat} {p : Pkt} (h : s.Comes k p)
    (hheld : p.held = true) (ms : List Meet) : exec (.skidwayRequestArrive k ms) s = .next (s.arrive k p ms) := by
  refine (State.next_when hl.runs rfl).trans ?_
  simp [h.gate, h.pkt, h.parked, h.lost, h.backoff, h.answer, hheld]

/-- A fenced NI answers a read with PEER_RESET (R734). -/
theorem State.arrive_of_fenced {s : State} {p : Pkt} (hfence : s.rd F.NOC_NI_STAT_FENCED p.dst = 1) (hread : p.req.write = false)
    (k : Nat) (ms : List Meet) : s.arrive k p ms = s.answer k 0x11 0 := by
  simp [State.arrive, State.on_of_rd_one hfence, hread]

/-- A request of an epoch older than the one before the unit's is stale (R612). -/
theorem State.arrive_of_stale {s : State} {p : Pkt} (hfence : s.rd F.NOC_NI_STAT_FENCED p.dst = 0)
    (hiso : s.rd F.NOC_NI_STAT_ISOLATED p.dst = 0)
    (hold : epochOlder p.epoch ((s.unitEpoch (niUnit p.dst) + 65535) % 65536) = true) (k : Nat) (ms : List Meet) :
    s.arrive k p ms = s.answer k 0x0E 0 := by
  simp only [State.arrive, State.on_of_rd_zero hfence, State.on_of_rd_zero hiso, hold, Bool.false_eq_true, if_false, if_true]

theorem Live.exec_epochBroadcastArrive {s : State} (hl : Live s) {u : Nat} (hu : u < 14) (hleft : u ∈ s.pwr.left) :
    exec (.epochBroadcastArrive u) s = .next (
      if (unitPolders u).any (fun p => !s.gate p) then s.put F.PWR_UNIT_EPOCH_PENDING 1 u else (s.applyStage u).takeEpoch u) :=
  State.next_when hl.runs (by simp [hu, hleft])

/-- Settles O36: the arrival's equation for each way a request can stand, and the broadcast's for open and closed gates. -/
theorem arrivals : Obligations.Arrivals := by
  intro s hl
  refine ⟨fun k ms p hgate hk hpark hlost hback hans hheld => ?_,
    fun k ms p hgate hk hpark hlost hback hans hunit hheld hgrant => ?_, fun k ms p hgate hk hheld hgrant => ?_,
    fun k ms p hgate hk hpark hlost hback hans hunit hheld hgrant hfence hread => ?_,
    fun k ms p hgate hk hpark hlost hback hans hunit hheld hgrant hfence hiso hold => ?_, fun k ms p hgate => ?_,
    fun u hu hleft hopen => ?_, fun u p hu hleft hp hshut => ?_⟩
  · exact hl.exec_skidwayRequestArrive_of_held ⟨hgate, hk, hpark, hlost, hback, hans⟩ hheld ms
  · refine (hl.exec_skidwayRequestArrive ⟨hgate, hk, hpark, hlost, hback, hans⟩ hunit hheld ms).trans ?_
    rw [if_pos hgrant]
  · refine (State.next_when hl.runs rfl).trans ?_
    simp [hgate, hk, hheld, hgrant]
  · refine (hl.exec_skidwayRequestArrive ⟨hgate, hk, hpark, hlost, hback, hans⟩ hunit hheld ms).trans ?_
    rw [if_pos hgrant, State.arrive_of_fenced ((s.rd_grant ..).trans hfence) hread]
  · refine (hl.exec_skidwayRequestArrive ⟨hgate, hk, hpark, hlost, hback, hans⟩ hunit hheld ms).trans ?_
    rw [if_pos hgrant, State.arrive_of_stale ((s.rd_grant ..).trans hfence) ((s.rd_grant ..).trans hiso)]
    rw [State.unitEpoch, State.rd_grant]
    exact hold
  · refine (State.next_when hl.runs rfl).trans ?_
    simp only [hgate]
  · refine (hl.exec_epochBroadcastArrive hu hleft).trans (congrArg _ (if_neg ?_))
    simpa [State.gate, State.on] using hopen
  · have e := (hl.exec_epochBroadcastArrive hu hleft).trans (congrArg _ (if_pos (List.any_eq_true.2 ⟨p, hp, by
      rw [State.gate, State.on_of_rd_zero hshut]; rfl⟩)))
    refine ⟨_, e, State.rd_put_self hl.wf .., (State.put_keeps (by decide) (Keeps.refl s)).touches⟩

end Sys2Proof.Machine

/-! PROOFS. Stand loads: requests, the start of a load, its drain, its run records and its frame hash (R648, R667, R674 to R686). -/

namespace Sys2Proof.Machine
open Sys2Proof

/-! ### Requests -/

/-- An enabled landing closes (R648). -/
theorem State.landingOff_of_enabled {s : State} {n : Nat} (h : s.rd F.LDG_CTL_EN n = 1) :
    s.landingOff n = (s.put F.LDG_CTL_EN 0 n).dropLanding n :=
  if_pos (State.on_of_rd_one h)

/-- A STAND_LOAD that has not been checked yet becomes a request for a load from the library (R678). -/
theorem Live.exec_standLoad {s : State} (hl : Live s) {k : Nat} {c : Cmd} (hk : s.cmd k = some c) (hop : sqOp c.sqe = 0x48)
    (hend : c.ended = false) (hint : c.internal = false) (hchk : c.checked = false) (hstand : bytesAt c.sqe 40 1 < 64)
    (hsrc : bytesAt c.sqe 41 1 = 0) : exec (.standLoad k) s = .next
      ((s.updCmd k (fun c => { c with checked := true })).slRequest (bytesAt c.sqe 40 1) 0 (bytesAt c.sqe 44 4) (some k)) := by
  refine (State.next_when hl.runs rfl).trans ?_
  simp [hk, hop, hend, hint, hchk, hsrc, Nat.not_le.2 hstand]

/-- A write of CFG_SL_CMD with the key asks for a load from the library (R675). -/
theorem State.slCmd_of_key {s : State} {v : Nat} (hkey : bits v 24 8 = 0xA5) (hsrc : bits v 8 1 = 0) :
    s.slCmd v = s.slRequest (bits v 0 6) 0 (s.rd F.CFG_SL_SRC_LO) none := by
  simp only [State.slCmd, hkey, hsrc, if_true]

/-! ### The start of a load -/

/-- No load runs, `q` waits at the head, and neither a fallback stream nor a readback holds it back (R657, R676). -/
structure State.LoadReady (s : State) (q : SlReq) (r : List SlReq) : Prop where
  idle : s.sl.cur = none
  head : s.sl.queue = q :: r
  noStream : s.cfg.fbStream = false
  noReadback : s.fab.rbLeft.any (fun x => x.1 == q.stand) = false

/-- The request at the head passes every check: its load starts (R682, R683). -/
theorem Live.exec_standLoadStart_of_pass {s : State} (hl : Live s) {q : SlReq} {r : List SlReq} (h : s.LoadReady q r) {img : PImg}
    (hok : (s.slRest r).imgFail q img = none) :
    exec (.standLoadStart img) s = .next ((s.slRest r).slOpen q img).slShow := by
  refine (State.next_when hl.runs rfl).trans ?_
  simp only [h.idle, h.head, h.noStream, h.noReadback, hok, Bool.false_eq_true, and_false, or_self, if_false]

/-- The first check that fails refuses the request at the head, and its stand goes back to its state (R677). -/
theorem Live.exec_standLoadStart_of_fail {s : State} (hl : Live s) {q : SlReq} {r : List SlReq} (h : s.LoadReady q r) {img : PImg}
    {st code f : Nat} (hbad : (s.slRest r).imgFail q img = some (st, code, f)) :
    exec (.standLoadStart img) s =
      .next ((((s.slRest r).put F.CFG_ST_STAT_STATE q.was q.stand).slRefuse q st code f).slShow) := by
  refine (State.next_when hl.runs rfl).trans ?_
  simp only [h.idle, h.head, h.noStream, h.noReadback, hbad, Bool.false_eq_true, and_false, or_self, if_false]

/-! ### The drain and the run records -/

/-- Drained landings and no repair under way open the phase WRITE, or end a load without records (R683, R684). -/
theorem Live.exec_standDrainEnd {s : State} (hl : Live s) {q : SlReq} (hcur : s.sl.cur = some q)
    (hphase : s.rd F.CFG_SL_STAT_PHASE = 2) (hrepair : s.cru.repair = none) (wires : List Bool) :
    exec (.standDrainEnd wires) s =
      .next (if (s.slDrained q wires).sl.left = 0 then (s.slDrained q wires).slFinish q else s.slDrained q wires) := by
  refine (State.next_when hl.runs rfl).trans ?_
  simp only [hcur, hphase, hrepair, ne_eq, not_true_eq_false, Bool.false_eq_true, or_self, if_false]

/-- A run record in the phase WRITE is taken: all its frames are there, or its source failed after them. -/
theorem State.runTaken {s : State} (hphase : s.rd F.CFG_SL_STAT_PHASE = 3) {n : Nat} {frames : List FrameIn} {err : Option SrcErr}
    (hn : n = frames.length ∨ err ≠ none) : ¬ (s.rd F.CFG_SL_STAT_PHASE ≠ 3 ∨ err.isNone = true ∧ frames.length ≠ n) := by
  rintro (h | ⟨hnone, hlen⟩)
  · exact h hphase
  · exact hn.elim (fun h => hlen h.symm) (fun h => h (Option.isNone_iff_eq_none.1 hnone))

/-! ### The frame hash -/

/-- Clearing memories leaves the address of the last record. -/
theorem State.last_clearMems (s : State) (i : Nat) : (s.clearMems i).sl.last = s.sl.last := by
  unfold State.clearMems
  split <;> rfl

/-- Records that do not have the header's FRAME_HASH tear the stand (R686). -/
theorem State.slFinish_of_badHash {s : State} {q : SlReq}
    (h : ofBytes (sha384 s.sl.runs) ≠ (partHdr s.sl.img.bytes).frameHash) :
    s.slFinish q = ((s.clearMems q.stand).put F.CFG_SL_STAT_PHASE 4).slTear q (s.sl.last.getD 0) 0x08 0x2D := by
  have hash : (ofBytes (sha384 s.sl.runs) == (partHdr s.sl.img.bytes).frameHash) = false := beq_eq_false_iff_ne.2 h
  simp only [State.slFinish, hash, Bool.false_eq_true, not_false_eq_true, if_true]
  rw [← s.last_clearMems q.stand]
  rfl

/-- Settles O16: each clause is its command's equation at the branch its hypotheses pick. -/
theorem standLoads : Obligations.StandLoads := by
  intro s hl
  refine ⟨fun n hn h => ?_, fun k c hk hop hend hint hchk hstand hsrc => hl.exec_standLoad hk hop hend hint hchk hstand hsrc,
    fun req v hw hkey hsrc => hl.next_byReq hw (State.slCmd_of_key hkey hsrc),
    fun q r img hidle hhead hstream hrb hok => hl.exec_standLoadStart_of_pass ⟨hidle, hhead, hstream, hrb⟩ hok,
    fun q r img st code f hidle hhead hstream hrb hbad => hl.exec_standLoadStart_of_fail ⟨hidle, hhead, hstream, hrb⟩ hbad,
    fun q wires hcur hphase hrepair => hl.exec_standDrainEnd hcur hphase hrepair wires,
    fun q a frames t hcur hphase hrun => ?_, fun q a n frames t e hcur hphase hrun => ?_,
    fun q a n frames err t hn hcur hphase hrun => ?_, fun q h => State.slFinish_of_badHash h⟩
  · exact (State.next_when hl.runs (by simpa using hn)).trans (congrArg _ (State.landingOff_of_enabled h))
  · refine (State.next_when hl.runs rfl).trans ?_
    simp only [hcur, if_neg (State.runTaken hphase (.inl rfl)), hrun]
  · refine (State.next_when hl.runs rfl).trans ?_
    have htaken := State.runTaken hphase (.inr (Option.some_ne_none e) : n = frames.length ∨ some e ≠ none)
    cases e <;> simp only [hcur, if_neg htaken, hrun]
  · refine (State.next_when hl.runs rfl).trans ?_
    simp only [hcur, if_neg (State.runTaken hphase hn), hrun]

end Sys2Proof.Machine

/-! PROOFS. The Cruiser's scan, repairs and injection, and contention on spine lines (R629, R688 to R696). -/

namespace Sys2Proof.Machine
open Sys2Proof

/-! ### The scan -/

/-- The Cruiser is free to read: the part is configured, CRU_CTL.EN is set, and no repair, no load in WRITE and no readback
holds it (R688). -/
structure State.MayScan (s : State) : Prop where
  done : s.cfg.done = true
  enabled : s.rd F.CRU_CTL_EN = 1
  noRepair : s.cru.repair = none
  noWrite : s.rd F.CFG_SL_STAT_PHASE ≠ 3
  noReadback : s.rd F.LDG_RB_STAT_BUSY = 0

/-- A scan step serves the first contention report, else the pass (R688, R695). -/
theorem Live.exec_cruiserScanStep {s : State} (hl : Live s) (h : s.MayScan) (upset : Nat) (poison : Bool) (nvm : Option Nat) :
    exec (.cruiserScanStep upset poison nvm) s = .next (match s.cru.queue with
      | a :: r => (State.cruFill { s with cru.queue := r }).cruReport a upset poison nvm
      | [] => (s.put F.CRU_STAT_ACTIVE 1).cruScan upset poison nvm) := by
  refine (State.next_when hl.runs ?_).trans rfl
  simp [h.done, State.on_of_rd_one h.enabled, h.noRepair, h.noWrite, State.on_of_rd_zero h.noReadback]

/-! ### Repairs -/

/-- A good cache copy repairs the frame: the repair stands if the frame then has its golden signature (R691). -/
theorem Live.exec_cruiserRepairDone_of_cache {s : State} (hl : Live s) {a : Nat} (ha : s.cru.repair = some a)
    (hcache : s.matchesGold a (s.frame a).cache = true) (nvm : Option Nat) (stuck : Nat) :
    exec (.cruiserRepairDone nvm stuck) s = .next (
      let t := ((s.repairWrite a (s.frame a).cache false (stuckMask (s.excluded a) stuck)).put F.CRU_STAT_REPAIRING 0).repairOver
      if !t.matchesGold a (t.frame a).live then t.unrepaired a else t.repaired a false) := by
  refine (State.next_when hl.runs rfl).trans ?_
  simp only [ha, hcache, Bool.not_true, Bool.false_and, Bool.false_eq_true, if_false, if_true]

/-- With neither a good cache copy nor leave to read the NVM the frame stays unrepaired (R691). -/
theorem Live.exec_cruiserRepairDone_of_none {s : State} (hl : Live s) {a : Nat} (ha : s.cru.repair = some a)
    (hcache : s.matchesGold a (s.frame a).cache = false) (hnvm : s.nvmAllowed a = false) (stuck : Nat) :
    exec (.cruiserRepairDone none stuck) s = .next ((s.put F.CRU_STAT_REPAIRING 0).repairOver.unrepaired a) := by
  refine (State.next_when hl.runs rfl).trans ?_
  simp only [ha, hcache, hnvm, Bool.and_false, Bool.false_and, Bool.false_eq_true, if_false]

/-! ### Injection and contention -/

/-- An injection into a scanned frame of a running stand flips one of its bits (R696). -/
theorem State.cruInject_of_running {s : State} (hscan : frameScanned (s.rd F.CRU_INJ_ADDR) = true)
    (hrun : s.standSt (s.frameStand (s.rd F.CRU_INJ_ADDR)) = 1) (req : Req) (v : Nat) :
    s.cruInject req v = s.updFrm (s.rd F.CRU_INJ_ADDR) (fun f =>
      { f with live := Nat.xor f.live (2 ^ (v % 2048)), inj := true }) :=
  if_pos ⟨hscan, hrun⟩

/-- Settles O17: each clause is its command's equation at the branch its hypotheses pick. -/
theorem cruiserSteps : Obligations.CruiserSteps := by
  intro s hl
  refine ⟨fun upset poison nvm hdone hen hrep hphase hbusy hqueue => ?_,
    fun upset poison nvm a r hdone hen hrep hphase hbusy hqueue => ?_, fun a nvm stuck ha hcache hgold => ?_,
    fun a stuck ha hcache hnvm => hl.exec_cruiserRepairDone_of_none ha hcache hnvm stuck,
    fun req v hw hscan hrun => hl.next_byReq hw (State.cruInject_of_running hscan hrun req v), fun d l a b hdone hd hline hfree => ?_⟩
  · rw [hl.exec_cruiserScanStep ⟨hdone, hen, hrep, hphase, hbusy⟩, hqueue]
  · rw [hl.exec_cruiserScanStep ⟨hdone, hen, hrep, hphase, hbusy⟩, hqueue]
  · refine (hl.exec_cruiserRepairDone_of_cache ha hcache nvm stuck).trans (congrArg _ (if_neg ?_))
    rw [hgold]
    decide
  · refine State.next_when hl.runs ?_
    simp [hdone, hd, hline, hfree]

end Sys2Proof.Machine
